-- ==== Sys2Proof/Word.lean ====
section
/-! DEFINITION. Word.lean: the byte and word types and their plainest arithmetic (R7, R8). -/

namespace Sys2Proof

/-- One byte of a buffer, an image, a register window or host memory. -/
abbrev Byte := BitVec 8
/-- A 32-bit register or dword. -/
abbrev Dword := BitVec 32
/-- A 64-bit register, address or grain-map word. -/
abbrev Qword := BitVec 64
/-- One filter-slice frame: bit `64 * w + b` is bit `b` of word `w` (R97). -/
abbrev Frame := BitVec 4096
/-- A 16-byte identifier (`BUILD_ID`, serial number, package name). -/
abbrev Id128 := BitVec 128

/-- Bits `[hi:lo]` of a number (R7). -/
def bits (v hi lo : Nat) : Nat := v / 2 ^ lo % 2 ^ (hi + 1 - lo)

/-- Bit `i` of a number. -/
def bit (v i : Nat) : Bool := v.testBit i

/-- `b` as 0 or 1. -/
def b2n (b : Bool) : Nat := if b then 1 else 0

/-- `v` with bits `[hi:lo]` replaced by the low bits of `x`. -/
def setBits (v hi lo x : Nat) : Nat :=
  v - bits v hi lo * 2 ^ lo + x % 2 ^ (hi + 1 - lo) * 2 ^ lo

/-- The little-endian number of a byte string (R8). -/
def leOfBytes : List Byte → Nat
  | [] => 0
  | b :: bs => b.toNat + 256 * leOfBytes bs

/-- The `n` low bytes of a number, least significant first (R8). -/
def bytesOfLe : Nat → Nat → List Byte
  | 0, _ => []
  | n + 1, v => BitVec.ofNat 8 (v % 256) :: bytesOfLe n (v / 256)

/-- The bytes `off … off + n - 1` that a reader gives. -/
def readBytes (rd : Nat → Byte) (off : Nat) : Nat → List Byte
  | 0 => []
  | n + 1 => rd off :: readBytes rd (off + 1) n

/-- The little-endian number in `n` bytes at `off` (R8). -/
def readLe (rd : Nat → Byte) (off n : Nat) : Nat := leOfBytes (readBytes rd off n)

/-- A reader of a list of bytes: bytes past the end read zero. -/
def listReader (l : List Byte) (i : Nat) : Byte := l.getD i 0

/-- Do the `n` bytes at `off` all hold zero? -/
def allZero (rd : Nat → Byte) (off n : Nat) : Bool := (readBytes rd off n).all (· == 0)

/-- Ceiling division. -/
def ceilDiv (a b : Nat) : Nat := (a + b - 1) / b

/-- A 32-bit count that saturates at 0xFFFF_FFFF. -/
def satAdd32 (a n : Nat) : Nat := min (a + n) 0xFFFFFFFF

/-- Replace the element at `i` by `f` of it. -/
def modifyAt {α : Type} (l : List α) (i : Nat) (f : α → α) : List α := l.modify i f

/-- The signed value of the low `w` bits of `v`. -/
def signed (w v : Nat) : Int :=
  let m := v % 2 ^ w
  if m < 2 ^ (w - 1) then (m : Int) else (m : Int) - (2 ^ w : Int)

/-- The low `w` bits of a signed number. -/
def wrapTo (w : Nat) (v : Int) : Nat := (v % (2 ^ w : Int)).toNat

end Sys2Proof
end

