-- ==== Sys2Proof/Syntax.lean ====
section
/-!
DEFINITION. Syntax.lean: the commands of the module, one constructor for each row of the spec's table of
operations and events, and the types of their operands. The table gives its rows no bits and no operands, so
the operands are the model's own (log entry 1): a command names what it acts on, and an event carries what
the world outside the block decides (a reading, a die's status, the text of a frame).
-/

namespace Sys2Proof

/-- A command's place: the function, the submission queue and the command identifier. -/
structure CmdRef where
  fn : Nat := 0
  sqid : Nat := 0
  cid : Nat := 0
  deriving DecidableEq, Repr, Inhabited

/-- An NVMe command as its 64-byte submission queue entry gives it, with the queue it came from. -/
structure Cmd where
  fn : Nat := 0
  sqid : Nat := 0
  cdw0 : Dword := 0
  nsid : Dword := 0
  cdw2 : Dword := 0
  cdw3 : Dword := 0
  mptr : Qword := 0
  prp1 : Qword := 0
  prp2 : Qword := 0
  cdw10 : Dword := 0
  cdw11 : Dword := 0
  cdw12 : Dword := 0
  cdw13 : Dword := 0
  cdw14 : Dword := 0
  cdw15 : Dword := 0
  deriving DecidableEq, Repr, Inhabited

/-- The command identifier, bits [31:16] of CDW0. -/
def Cmd.cid (c : Cmd) : Nat := bits c.cdw0.toNat 31 16
/-- The opcode, bits [7:0] of CDW0. -/
def Cmd.opcode (c : Cmd) : Nat := bits c.cdw0.toNat 7 0
/-- `ORD`, bit 10 of CDW0 on an I/O queue (R169). -/
def Cmd.ord (c : Cmd) : Bool := c.cdw0.getLsbD 10 && c.sqid != 0
/-- The place of a command. -/
def Cmd.ref (c : Cmd) : CmdRef := { fn := c.fn, sqid := c.sqid, cid := c.cid }

/-- The rails whose eFuse trip runs the power-loss sequence (Table 02-14). -/
inductive Rail where
  | core | mem | hostx | svc | vis | peer
  deriving DecidableEq, Repr, Inhabited

/-- The sideband pin a fault is found on (Table 21-6). -/
inductive SidebandPin where
  | smb | smbAlert | wake | led
  deriving DecidableEq, Repr, Inhabited

/-- Where a register write arrives: BAR2 of PF0, BAR2 of VF n + 1, BAR0 or configuration space of a function. -/
inductive Window where
  | module
  | tenant (n : Nat)
  | controller (fn : Nat)
  | config (fn : Nat)
  deriving DecidableEq, Repr, Inhabited

/-- The tenant of a VF's command. -/
def Cmd.tenant (c : Cmd) : Nat := c.fn - 1

/-- One flash page's place. -/
structure PageAddr where
  channel : Nat
  die : Nat
  plane : Nat
  block : Nat
  page : Nat
  deriving DecidableEq, Repr, Inhabited

/-- One flash block's place. -/
structure BlockAddr where
  channel : Nat
  die : Nat
  plane : Nat
  block : Nat
  deriving DecidableEq, Repr, Inhabited

/-- The block of a page. -/
def PageAddr.blockAddr (a : PageAddr) : BlockAddr :=
  { channel := a.channel, die := a.die, plane := a.plane, block := a.block }

/-- A frame of the peer fabric: addresses, EtherType, the 32-byte peer header and the payload (R553). -/
structure PeerFrame where
  fcsOk : Bool := true
  dst : BitVec 48 := 0
  src : BitVec 48 := 0
  /-- The 802.1Q tag: priority in bits [15:13], VLAN in [11:0]. -/
  tag : Option (BitVec 16) := none
  etype : Nat := 0
  /-- Header byte n is bits [8n + 7:8n] (Table 18-2). -/
  hdr : BitVec 256 := 0
  payload : List Byte := []
  deriving DecidableEq, Repr, Inhabited

/-- What the decoder of one DRAM block meets: the symbols in error at the read, at the check read after a
correction, and at the second read of an uncorrectable block (R525). -/
structure BlockErrors where
  first : List Nat := []
  check : List Nat := []
  second : List Nat := []
  deriving DecidableEq, Repr, Inhabited

/-- A demand read of a block and the errors it meets. -/
structure BlockRead where
  stack : Nat
  block : Nat
  errors : BlockErrors
  deriving DecidableEq, Repr, Inhabited

/-- A read of an SRAM word by a command, and the bits it finds in error: structure and word as Table 17-5 and the model
number them (R542). -/
structure WordRead where
  structure_ : Nat
  word : Nat
  bits : List Nat
  deriving DecidableEq, Repr, Inhabited

/-- What the reads of a command find in error: blocks of DRAM, and words of SRAM. -/
structure Reads where
  blocks : List BlockRead := []
  words : List WordRead := []
  deriving DecidableEq, Repr, Inhabited

/-- The engine queue whose started command a row performs, and the words that its reads find in error. -/
structure EngineRow where
  queue : Nat
  bad : List WordRead := []
  deriving DecidableEq, Repr, Inhabited

/-- What the stream of a SCAN meets: the MEDIA clocks that it waits for verdicts, the units that it has streamed at the safe
point of a cancellation, the units that need read-retry, once for each attempt, and the words that it finds in error. -/
structure ScanRow where
  stalled : Nat := 0
  streamed : Nat := 0
  retried : List Nat := []
  bad : List WordRead := []
  deriving DecidableEq, Repr, Inhabited

/-- The flow whose frame leaves, and what the read of its payload finds in error. -/
structure FlowRow where
  flow : Nat
  found : Reads := {}
  deriving DecidableEq, Repr, Inhabited

/-- The voltages of a sample, in units of 10 mV: the input's and the hold-up bank's. -/
structure Volts where
  input : Nat
  bank : Nat
  deriving DecidableEq, Repr, Inhabited

/-- One command or event of the module, in the order of the table. -/
inductive Instr where
  -- power, start-up, clocks, thermal (chapters 02, 21)
  | powerOn
  | aonRelease (slotId slotOpen : BitVec 8) (bootSel plnLow sfdpOk : Bool)
  | railsUp
  | firmwareBoot (badChunks : List (Nat × Nat))
  | dramInitDone
  | mapReplay
  | basePersonalityLoad (badFrames : List (Nat × Nat))
  | linkUp (width rate : Nat)
  | cstsReady (fn : Nat)
  | holdupCharged
  | holdupChargeTimeout
  | holdupMeasure (tenthsMf : Nat)
  | inputUndervoltage
  | plnFall
  | pwrdisAssert
  | pwrdisDeassert
  | p1Shed
  | p2Flush (failed : List (Nat × Nat))
  | p3Metadata
  | p4RailsDown (vin10mv : Nat)
  | inputOvervoltage
  | inputOvercurrent
  | railTrip (r : Rail)
  | nandRailTrip (group : Nat)
  | cageEfuseTrip (cage : Nat)
  | cablePresenceChange (cage : Nat) (present supported : Bool)
  | sidebandPinFault (pin : SidebandPin)
  | refclkLoss
  | powerSample (volts : Volts) (pin100mw : Nat)
  | powerCeilingLower
  | powerCeilingRaise
  | coreClockStep
  | thermalLevelEnter (tjMax coolantIn : Nat) (flowOk : Bool)
  | thermalLevelLeave (tjMax coolantIn : Nat) (flowOk : Bool)
  | thermalCeilingStep
  | flowLossTimeout
  | dramRecalibration (stack : Nat)
  | perstAssert
  | perstDeassert
  | hotReset
  -- controllers, queues, admin commands (chapter 05)
  | controllerEnable (fn : Nat) (cc : Dword)
  | controllerDisable (fn : Nat) (cc : Dword)
  | shutdownNotification (fn : Nat) (cc : Dword)
  | functionLevelReset (fn : Nat)
  | vfEnableWrite (enable : Bool)
  | sqTailDoorbell (fn qid value : Nat)
  | cqHeadDoorbell (fn qid value : Nat)
  | commandFetch
  | commandTimeout (ref : CmdRef)
  | createIoSq (c : Cmd)
  | deleteIoSq (c : Cmd)
  | createIoCq (c : Cmd)
  | deleteIoCq (c : Cmd)
  | getLogPage (c : Cmd)
  | identify (c : Cmd)
  | abort (c : Cmd)
  | setFeatures (c : Cmd)
  | setArbitration (c : Cmd)
  | setCommandTimeouts (c : Cmd)
  | setDeadlineFloor (c : Cmd)
  | getFeatures (c : Cmd)
  | asynchronousEventRequest (c : Cmd)
  | namespaceManagement (c : Cmd)
  | namespaceAttachment (c : Cmd)
  | formatNvm (c : Cmd)
  | sanitize (c : Cmd)
  | firmwareImageDownload (c : Cmd)
  | firmwareCommit (c : Cmd)
  | deviceSelfTest (c : Cmd)
  | selfTestComplete (failedSegment : Option Nat)
  -- NVM commands (chapters 05, 16)
  | flush (c : Cmd)
  | write (c : Cmd)
  | read (c : Cmd)
  | datasetManagement (c : Cmd)
  -- NVMe-MI (R162)
  | miReadDataStructure (dtype portId ctrlId : Nat)
  | miSubsystemHealthPoll (clear : Bool)
  | miControllerHealthPoll (first max : Nat) (clear : Bool)
  | miConfigurationGet (config port : Nat)
  | miConfigurationSet (config port value : Nat)
  | miVpdRead (offset length : Nat)
  | miTunneledAdmin (c : Cmd)
  -- personality (chapters 03, 04)
  | loadPersonality (c : Cmd)
  | activateOwner (c : Cmd)
  | commitBase (c : Cmd)
  | discard (c : Cmd)
  | exchangeRegion (c : Cmd)
  | exchangeDrainEnd
  | exchangeDrainTimeout
  | configWriteDone (badFrames : List (Nat × Nat))
  | personalityStatus (c : Cmd)
  | persDeadlineWrite (value : Dword)
  | ownerDeadlineExpiry
  | shellTimerExpiry (slice timer : Nat) (taken : Bool)
  | configScrubPass (upsets : List (Nat × Nat × Nat))
  | retire (c : Cmd) (lost : List Nat)
  | moduleReset (c : Cmd)
  | moduleResetStart
  -- compute commands (chapter 06)
  | admitModel (c : Cmd)
  | release (c : Cmd)
  | invoke (c : Cmd)
  | search (c : Cmd)
  | extract (c : Cmd)
  | service (c : Cmd)
  | alloc (c : Cmd)
  | free (c : Cmd)
  | counterRead (c : Cmd)
  | counterBump (c : Cmd)
  | counterWaitGe (c : Cmd)
  | counterWaitSatisfied (ref : CmdRef)
  | runBegin (c : Cmd)
  | runEnd (c : Cmd)
  | publishBegin (c : Cmd)
  | publishData (c : Cmd)
  | publishVerify (c : Cmd)
  | publishCommit (c : Cmd)
  | publishAbandon (c : Cmd)
  | mediaWrite (c : Cmd)
  | mediaRead (c : Cmd)
  | mediaErase (c : Cmd)
  -- invocations and spindles (chapter 07)
  | invocationAssign (tenant slot : Nat)
  | invocationDrained (spindle : Nat)
  | invocationPersisted (spindle : Nat)
  | spindleIssueWord (spindle : Nat)
  | slotStallReleased (spindle : Nat)
  | controlWaitPassed (spindle : Nat)
  | endOp (spindle : Nat)
  | loop (spindle : Nat)
  | endloop (spindle : Nat)
  | call (spindle : Nat)
  | ret (spindle : Nat)
  | wait (spindle : Nat)
  | bump (spindle : Nat)
  | branchCtr (spindle : Nat)
  | engineArbitrate (queue : Nat)
  | engineCommandEnd (queue : Nat)
  | engineInternalFault (queue : Nat)
  | engineBist (queue : Nat) (pass : Bool)
  -- engine operations (chapters 09, 11 to 14)
  | copy (queue : Nat) (found : Reads)
  | fillPattern (queue : Nat)
  | gather (queue : Nat) (found : Reads)
  | bringUpStart (queue index : Nat)
  | mma (row : EngineRow)
  | accZero (queue : Nat)
  | accLoad (row : EngineRow)
  | tile (row : EngineRow)
  | tileReduce (row : EngineRow)
  | softmax (row : EngineRow)
  | stream (row : EngineRow)
  | streamReduce (row : EngineRow)
  | maskSet (row : EngineRow)
  | gougeRelease (queue : Nat)
  | listMerge (row : EngineRow)
  | listEmit (row : EngineRow)
  | loadCtx (row : EngineRow)
  | scan (queue : Nat) (run : ScanRow)
  | scanReadAhead (queue index : Nat)
  | emit (row : EngineRow)
  | ctxRelease (queue : Nat)
  | frameJpeg (row : EngineRow)
  | frameRaw (row : EngineRow)
  -- the peer fabric (chapter 18)
  | peerWrite (queue : Nat)
  | peerFrameSend (row : FlowRow)
  | dataFrameReceived (port : Nat) (frame : PeerFrame)
  | ackReceived (port : Nat) (frame : PeerFrame)
  | nakReceived (port : Nat) (frame : PeerFrame)
  | ackTimer (flow : Nat)
  | retransmitTimeout (row : FlowRow) (seq : Nat)
  | pfcPauseReceived (port : Nat) (pause : Bool)
  | helloTimer (port : Nat)
  | helloReceived (port : Nat) (frame : PeerFrame)
  | portTrainingDone (port : Nat) (linked : Bool)
  | portRetrainTimer (port : Nat)
  | portLinkLost (port : Nat)
  | peerRtoWrite (value : Dword)
  -- flash (chapters 15, 16)
  | channelTraining (channel : Nat) (works : Option Nat)
  | pageReadDone (channel die : Nat) (failing : List Nat) (supervision : Nat)
  | readRetryAttempt (addr : PageAddr) (codeword : Nat) (decodes : Bool)
  | stripeRebuild (addr : PageAddr) (codeword : Nat) (recovered : Bool)
  | programDone (channel die : Nat) (failing : List Nat)
  | eraseDone (channel die : Nat) (failing : List Nat)
  | operationResume (channel die : Nat)
  | busyTimeout (channel die : Nat)
  | targetResetDone (channel die : Nat) (ready : Bool)
  | programPromotion (channel die : Nat)
  | backgroundPromotion (channel die : Nat)
  | zoneCalibration (channel die zone page set : Nat)
  | mediaRrBudgetWrite (value : Dword)
  | norCtrlWrite (value : Dword)
  | norOpDone (verified : Bool)
  | partialRowTimeout (group : Nat)
  | journalCheckpoint (group : Nat)
  | garbageCollection (group : Nat)
  | staticLevelling (group : Nat)
  | relocationSwitch (superblock : Nat)
  | superblockErase (superblock : Nat)
  | patrolStep (channel die worstBits result : Nat)
  | cleanBlock (tenant buffer block : Nat)
  -- watermarks, counters, memory scrubbing (chapters 08, 09, 17)
  | watermarkEvaluate (tenant : Option Nat) (w : Nat)
  | wmLatchClear (tenant : Option Nat) (w : Nat)
  | wmMarkWrite (tenant : Option Nat) (w : Nat) (value : Dword)
  | wmClrCount (tenant : Option Nat) (w : Nat)
  | tctrBump (tenant : Nat) (value : Qword)
  | dramScrubStep (stack : Nat) (errors : BlockErrors)
  | sramScrubStep (structure_ word : Nat) (badBits : List Nat)
  -- the service complex (chapter 19)
  | watchdogServe
  | watchdogExpiry
  | shieldRelease
  | shieldTimeout
  | settingsSave
  | settingsClear
  | monitorId
  | monitorStatus
  | monitorLog (page : Nat) (count : Option Nat)
  | monitorReg (offset : Nat)
  | monitorKeys
  | monitorBaud (rate : Nat)
  | monitorChallenge (nonce : BitVec 256)
  | unlockOwner (slot : Nat) (tag : BitVec 384)
  | unlockVendor (r v : BitVec 384)
  | unlockPhysical
  | monitorLock
  | keyInstall (slot : Nat) (keyId : Qword) (key : BitVec 384)
  | keyRevoke (slot : Nat)
  | monitorSettingsClear
  | monitorReset
  | monitorIdleTimeout
  | nonceExpiry
  | lockoutEnd
  -- JTAG, registers, pins (chapters 20, 21)
  | jtagBypass (tdi : List Bool)
  | jtagIdcode (count : Nat)
  | jtagSamplePreload (pins tdi : List Bool)
  | jtagExtest (tdi : List Bool)
  | registerWrite (window : Window) (offset bytes : Nat) (value : Qword)
  | plnGoesHigh
  | temperatureThresholdCrossing (kelvin : Nat)
  | monitorUnknownCommand (length : Nat)
  deriving DecidableEq, Repr, Inhabited

end Sys2Proof
end

