-- ==== Sys2Proof/Decode.lean ====
section
/-!
DEFINITION. Decode.lean: the command that a word spells by the table's bits. The table of this module gives none
of its rows any bits (its rows are commands and events of a block), so no word spells a command.
-/

namespace Sys2Proof

/-- The command a word of `nbits` bits spells: none, since no row of the table has bits. -/
def decodeTableWord (_nbits _w : Nat) : Option Instr := none

end Sys2Proof
end

