-- ==== Sys2Proof/Config.lean ====
section
/-!
DEFINITION. Config.lean: what one module fixes for life, and the free values. Each `opaque` constant has no
body: no proof can see a value of it, so a claim holds whatever the hardware gives (log entry 5).
-/

namespace Sys2Proof.Config

/-- What the shell gives the logic of a filter slice with a record (Table 13-4): the fields of `ATTR`, the parameter block
of each context with the tenant that holds it, `NOW`, the timer expiries and edges it has been given, and the record. -/
structure RecordPorts where
  tenant : Nat
  ctxMask : Nat
  layout : Nat
  listTag : Nat
  recordIndex : Nat
  channel : Nat
  params : List (Option Nat × List Byte)
  now : Nat
  timers : BitVec 16
  edges : BitVec 8
  record : List Byte

/-- The content of a byte the spec leaves undefined: generation of the content, and address in it. -/
opaque freeByte : Nat → Nat → Byte

/-- The n-th 32-bit free value the machine draws. -/
opaque freeWord : Nat → Dword

/-- The n-th yes-or-no free value the machine draws. -/
opaque freeBool : Nat → Bool

/-- The verdict of an owner's slice logic on a record: draw, and what the shell gives. The spec leaves the logic to the owner's
image (R407). -/
opaque verdict : Nat → RecordPorts → BitVec 4
/-- What an owner's slice logic does with a shell timer when it acts: draw, timer; 1 starts it periodic and 2 one-shot from the
reload value, 3 stops it, 4 writes the reload value only. -/
opaque timerOp : Nat → Nat → Nat × Dword
/-- The edge latches that an owner's slice logic clears when it acts. -/
opaque edgeClear : Nat → BitVec 8

/-- The Do Not Retry bit of an NVMe-defined status (code type, code): the spec gives it for type 7h only. -/
opaque dnr : Nat → Nat → Bool

/-- `KEY_ID` of vendor key k (R116). -/
opaque vendorKeyId : Nat → Qword
/-- The public point of vendor key k on P-384: x and y (R116). -/
opaque vendorKey : Nat → Nat × Nat

/-- Check bytes that the flash channel stores beside a codeword: the LDPC code's matrix is not in the spec. -/
opaque ldpcParity : Nat → Nat → Byte

/-- The eight SEC-DED check bits of one 64-bit word of a frame (R97): the spec names the code and gives no matrix. -/
opaque secDed : Qword → Byte

/-- The 32-bit JTAG identifier (R641): the spec names the instruction and gives no value. -/
opaque jtagId : Dword

/-- Vital product data byte n (R162): the spec gives no content. -/
opaque vpd : Nat → Byte

/-- Fields of standard NVMe data structures whose value the spec does not state: structure, byte. -/
opaque standardByte : Nat → Nat → Byte

/-- What an approximate function gives before the spec's bound is applied (R386, R389): draw, place in the command. -/
opaque approx : Nat → Nat → Dword

/-- The major version of a settings tag that a firmware revision reads and writes (R597). -/
opaque fwMajor : Qword → Nat → Nat
/-- The minor version of a settings tag that a firmware revision writes (R597). -/
opaque fwMinor : Qword → Nat → Nat

end Sys2Proof.Config
end

