-- ==== Sys2Proof/Machine/State.lean ====
section
/-!
DEFINITION. State.lean: everything the spec gives the module to hold, as plain data: registers, tables, queues,
memories, pins, and the queue of commands that wait; and the state right after a power-on reset.
-/

namespace Sys2Proof.Machine

/-- A sparse memory: addresses strictly rising, no entry equal to what an unlisted address reads as. -/
abbrev Mem := List Host.Cell

/-- The content of one buffer, image, tile or table. A byte no cell lists reads 0 when `gen` is 0, and a
free value of its own (`Config.freeByte`) when the spec leaves the content undefined (`gen` above 0). -/
structure Region where
  gen : Nat := 0
  cells : Mem := []
  deriving DecidableEq, Repr, Inhabited

/-! ### Chapter 02: power, clocks, resets -/

/-- Where the module stands between off and the end of the power-loss sequence of Table 02-1. -/
inductive PowerStage where
  | off       -- rails off
  | on        -- powered
  | detected  -- P0 has latched the cause
  | shed      -- P1 has ended
  | flushed   -- P2 has ended
  | saved     -- P3 has ended
  deriving DecidableEq, Repr, Inhabited

/-- What started a power-loss sequence (R38, R41, R63). -/
inductive LossTrigger where
  | inputLow | overVoltage | overCurrent | plnFall | pwrdis | thermal | railTrip
  deriving DecidableEq, Repr, Inhabited

/-- The resets whose scope reaches CORE (Table 02-12), besides power-on. -/
inductive ResetKind where
  | perst | moduleReset | watchdog
  deriving DecidableEq, Repr, Inhabited

/-- Power, start-up, clock steps, thermal level, resets (chapter 02, the CLKPWR block). -/
structure Power where
  stage : PowerStage := .on
  trigger : Option LossTrigger := none
  trippedRail : Option Rail := none
  /-- Acknowledged blocks lost because CORE or MEM tripped, recorded at the next start (R40). -/
  lostBlocks : Nat := 0
  /-- Causes of power-loss sequences to record in log 0xC0 at the next start (Table 02-14). -/
  lossPending : Bool := false
  /-- The rails stay off until the input has fallen below 40 V: thermal level 3 or an opened input eFuse (R41, R629). -/
  holdOff : Bool := false
  /-- The input is above the start threshold. -/
  inputUp : Bool := true
  pwrdis : Bool := false
  aonReleased : Bool := false
  railsUp : Bool := false
  perst : Bool := false
  dramReady : Bool := false
  linkUp : Bool := false
  linkWidth : Nat := 0
  linkRate : Nat := 0
  /-- When hold-up charging began, in AON microseconds. -/
  chargeStart : Nat := 0
  chargeTimedOut : Bool := false
  -- CLK_CORE
  targetStep : Nat := 18
  currentStep : Nat := 18
  powerCeiling : Nat := 21
  thermalCeiling : Nat := 21
  stepping : Bool := false
  /-- Where the step change in progress ends, and when the last one began, in AON microseconds (R51). -/
  stepGoal : Nat := 18
  stepAt : Option Nat := none
  -- PWR_INPUT and POWER_CAP
  vin10mv : Nat := 0
  pin100mw : Nat := 0
  capW : Nat := 850
  /-- 100 µs samples in a row above the cap, and below the cap less 20 W (R52). -/
  overSamples : Nat := 0
  underSamples : Nat := 0
  -- HOLDUP
  bank10mv : Nat := 0
  capPct : Nat := 0
  charged : Bool := false
  writeThrough : Bool := true
  lowCap : Bool := false
  /-- A measurement under R36 of this start found at least 12.0 mF. -/
  capGood : Bool := false
  /-- The last measurement of this start found less. -/
  capLow : Bool := false
  -- THERM
  tjMax : Nat := 0
  coolantIn : Nat := 0
  level : Nat := 0
  flowOk : Bool := true
  /-- Since when `FLOW_OK` has been 0, since when `TJ_MAX` has been at most 100 °C and at most 90 °C, and when the thermal
  ceiling last fell (R62, Table 02-13). -/
  flowLostAt : Option Nat := none
  cool100At : Option Nat := none
  cool90At : Option Nat := none
  ceilingAt : Nat := 0
  throttled : Bool := false
  -- RESET_CAUSE and SIDEBAND
  resetCause : BitVec 9 := 1
  slotId : BitVec 8 := 0
  slotOpen : BitVec 8 := 0
  plnStuck : Bool := false
  smbFault : Bool := false
  ledFault : Bool := false
  wakeFault : Bool := false
  -- resets in progress
  moduleResetPending : Bool := false
  fabMhz : Nat := 0
  visHalved : Bool := false
  deriving DecidableEq, Repr, Inhabited

/-! ### Chapters 03 and 04: the personality -/

/-- The role of a channel group. -/
inductive Role where
  | index | log
  deriving DecidableEq, Repr, Inhabited

/-- The weights of one tenant at the six engine classes, in class order (Table 03-6). -/
structure Weights where
  dma : Nat := 0
  lathe : Nat := 0
  gouge : Nat := 0
  rasp : Nat := 0
  burl : Nat := 0
  peer : Nat := 0
  deriving DecidableEq, Repr, Inhabited

/-- A STRUCTURE tenant record (Table 03-6). -/
structure TenantRec where
  spindles : Nat := 1
  queuePairs : Nat := 1
  queueSlots : Nat := 1
  counterBase : Nat := 0
  counterCount : Nat := 1
  tileGranules : Nat := 0
  groupMask : BitVec 8 := 0
  weights : Weights := {}
  dramPinned : Nat := 0
  dramWriteback : Nat := 0
  dramScratch : Nat := 0
  dramRocache : Nat := 0
  spillGranules : Nat := 0
  readonlyExtents : Nat := 0
  nsUnits : Nat := 0
  deriving DecidableEq, Repr, Inhabited

/-- A STRUCTURE flow record (Table 03-9). -/
structure FlowRec where
  flow : Nat
  tenant : Nat
  portMask : BitVec 4
  remoteModule : Nat
  remoteFlow : Nat
  deriving DecidableEq, Repr, Inhabited

/-- A STRUCTURE section (Tables 03-5, 03-6, 03-9). -/
structure Structure where
  systemSize : Nat := 1
  moduleId : Nat := 0
  moduleIdSource : Nat := 0
  groupRole : List Role := []
  ownerQueuePairs : Nat := 0
  systemId : Nat := 0
  ownerNsUnits : Nat := 0
  tenants : List TenantRec := []
  flows : List FlowRec := []
  deriving DecidableEq, Repr, Inhabited

/-- A record layout of a RASP_PARAMS section (Table 03-11). -/
structure Layout where
  recordBytes : Nat
  codeOffset : Nat
  codeBytes : Nat
  subcodeBits : Nat
  normOffset : Option Nat
  idOffset : Nat
  idBytes : Nat
  deriving DecidableEq, Repr, Inhabited

/-- One of the 16 shell timers of a slice (R136, R137). -/
structure ShellTimer where
  running : Bool := false
  /-- Does it start over when it expires? -/
  periodic : Bool := false
  /-- Microseconds it had still to count at `since`. -/
  count : Nat := 0
  since : Nat := 0
  reload : Nat := 0
  /-- An expiry held during an exchange, or not yet taken by the logic. -/
  held : Bool := false
  deriving DecidableEq, Repr, Inhabited

/-- One filter slice and its shell. Frames no cell lists are zero. -/
structure Slice where
  frames : List (Nat × Frame) := []
  /-- Stored SEC-DED check bits that no longer are what the last write of the frame formed: frame, and one bit for each of
  its 64 × 8 check bits (R97). -/
  checkFlips : List (Nat × BitVec 512) := []
  golden : List (Nat × Frame) := []
  /-- The grain-map words of the slice; empty for pass-all logic, which has no essential bits (R100). -/
  grain : List Qword := []
  /-- Pass-all logic runs (R100). -/
  passAll : Bool := true
  timerInherit : BitVec 16 := 0
  timers : List ShellTimer := List.replicate 16 {}
  /-- The latched edges that the logic sees until it clears them (Table 13-4). -/
  edgeLatch : BitVec 8 := 0
  /-- Expiries the logic has been given since release (R137). -/
  timerIn : BitVec 16 := 0
  clockGated : Bool := false
  deriving DecidableEq, Repr, Inhabited

/-- `PERS_STATE.STAGE` (R110). -/
inductive Stage where
  | empty | receiving | valid | rejected | inUse
  deriving DecidableEq, Repr, Inhabited

/-- The activation, commit or exchange in progress; one at a time (R135). -/
inductive PersJob where
  | none
  | activate (c : CmdRef)                                  -- phase A3
  | commitBase (c : CmdRef) (slot seq : Nat)               -- programming the slot
  | drain (c : CmdRef) (group limitMs since : Nat)         -- phase X1
  | writing (c : CmdRef) (group : Nat)                     -- phase X2
  | shares (c : CmdRef) (tenant since : Nat)               -- until every engine has applied the new shares (R133)
  deriving DecidableEq, Repr, Inhabited

/-- An owner HMAC key slot (R116). -/
structure OwnerKey where
  keyId : Qword
  key : BitVec 384
  deriving DecidableEq, Repr, Inhabited

/-- The personality, its loading, the PERS block (chapters 03, 04). -/
structure Pers where
  active : Structure := {}
  /-- `ACTIVE_KIND`: 0 none, 1 BASE, 2 OWNER. -/
  activeKind : Nat := 0
  /-- `BASE_SLOT`: 0 A, 1 B, 2 none. -/
  baseSlot : Nat := 2
  recovery : Bool := false
  /-- A base structure is in place: configuration space answers (Table 02-2). -/
  inPlace : Bool := false
  layouts : List (List Layout) := List.replicate 4 []
  /-- `WORD_COUNT` words of the active microcode, as the section body (R90). -/
  ucode : Region := {}
  slices : List Slice := List.replicate 32 {}
  stage : Stage := .empty
  staged : Region := {}
  stageBytes : Nat := 0
  /-- The owner key that the IN_USE image was checked under has changed: discard it when it is no longer in use (R607). -/
  discardAfter : Bool := false
  job : PersJob := .none
  blockedGroups : BitVec 4 := 0
  resStatus : Nat := 0
  resReason : Nat := 0
  resStep : Nat := 0
  resOpcode : Nat := 0
  scrubPasses : Nat := 0
  scrubCorrected : Nat := 0
  scrubEssential : Nat := 0
  taintSlices : BitVec 32 := 0
  shellDiscards : Nat := 0
  shellOverruns : Nat := 0
  baseBuild : Id128 := 0
  ownerBuild : Id128 := 0
  failedBuild : Id128 := 0
  regionBuild : List Id128 := List.replicate 4 0
  sharesBuild : List Id128 := List.replicate 16 0
  slotReason : List Nat := [0, 0]
  -- PERS_DEADLINE
  deadlineMs : Nat := 10000
  expired : Bool := false
  /-- The moment the base personality came in place; the deadline is armed from it (R124). -/
  armedAt : Option Nat := none
  ownerKeys : List (Option OwnerKey) := List.replicate 4 none
  deriving DecidableEq, Repr, Inhabited

/-! ### Chapter 05: PCIe functions, NVMe queues -/

/-- Queue priority of a submission queue, as NVMe encodes it. -/
inductive QPrio where
  | urgent | high | medium | low
  deriving DecidableEq, Repr, Inhabited

/-- A submission queue. The admin queue has `qid` 0. -/
structure Sq where
  qid : Nat
  base : Qword
  size : Nat
  head : Nat := 0
  tail : Nat := 0
  cqid : Nat := 0
  prio : QPrio := .medium
  compute : Bool := false
  deriving DecidableEq, Repr, Inhabited

/-- A completion queue. -/
structure Cq where
  qid : Nat
  base : Qword
  size : Nat
  head : Nat := 0
  tail : Nat := 0
  phase : Bool := true
  vector : Nat := 0
  ien : Bool := false
  deriving DecidableEq, Repr, Inhabited

/-- A fetched command whose completion is not yet posted, in fetch order. -/
structure Outstanding where
  cmd : Cmd
  fetchedAt : Nat
  started : Bool := false
  /-- Number of log 0xC3 entries written before the fetch (R178), and of write-buffer blocks that had arrived (R183). -/
  deferredSeen : Nat := 0
  blocksSeen : Nat := 0
  deriving DecidableEq, Repr, Inhabited

/-- An asynchronous event: type, information code and log page. -/
structure Event where
  aet : Nat
  info : Nat
  page : Nat
  deriving DecidableEq, Repr, Inhabited

/-- An MSI-X table entry. -/
structure MsixEntry where
  addr : Qword := 0
  data : Dword := 0
  masked : Bool := true
  deriving DecidableEq, Repr, Inhabited

/-- A posted completion, as the module hands it to the completion queue. -/
structure Completion where
  fn : Nat
  sqid : Nat
  cid : Nat
  sct : Nat
  sc : Nat
  dnr : Bool
  dw0 : Dword
  dw1 : Dword
  /-- While the entry waits for room in its queue: the command carried `ORD` (R170). -/
  ord : Bool := false
  deriving DecidableEq, Repr, Inhabited

/-- The feature values of one controller (Table 05-5). -/
structure Features where
  ab : Nat := 3
  lpw : Nat := 0
  mpw : Nat := 3
  hpw : Nat := 7
  tempOver : Nat := 368
  tempUnder : Nat := 0
  coalesce : Dword := 0
  vectorCfg : List (Nat × Dword) := []
  atomicity : Dword := 0
  asyncCfg : Dword := 0x1FF
  timestampBase : Nat := 0
  timestampAt : Nat := 0
  timestampOrigin : Nat := 0
  deadlineMs : Nat := 1000
  nvmTimeoutMs : Nat := 2000
  deriving DecidableEq, Repr, Inhabited

/-- One NVMe controller: PF0 is controller 0, VF n+1 is controller n+1 (R150). -/
structure Ctrl where
  cc : Dword := 0
  ready : Bool := false
  shst : Nat := 0
  /-- The write of `CC.EN` = 1 has been taken and `CSTS.RDY` is awaited. -/
  enabling : Bool := false
  intMask : Dword := 0
  aqa : Dword := 0
  asq : Qword := 0
  acq : Qword := 0
  sqs : List Sq := []
  cqs : List Cq := []
  outstanding : List Outstanding := []
  /-- Command identifiers of held Asynchronous Event Requests. -/
  aers : List Nat := []
  /-- Raised events that wait for a request (R191). -/
  waiting : List Event := []
  /-- Vendor event codes held back until their page is read (R191). -/
  held : List Nat := []
  features : Features := {}
  msix : List MsixEntry := List.replicate 129 {}
  msixPending : List Nat := []
  /-- Commands already taken in the current round from the high, medium and low classes (R166). -/
  wrrLeft : Nat × Nat × Nat := (0, 0, 0)
  /-- Submission queues last served, one per class, for round robin within a class. -/
  lastSq : List Nat := [0, 0, 0, 0]
  changedNs : List Nat := []
  errorLog : List (Nat × CmdRef × Nat) := []
  errorCount : Nat := 0
  /-- Completions that wait for room in their completion queue. -/
  unposted : List Completion := []
  deriving DecidableEq, Repr, Inhabited

/-- What the host sets in a function's configuration space (R147, R148, R152): `Max_Payload_Size` and
`Max_Read_Request_Size` as PCIe encodes them (128 bytes times a power of two), Enable Relaxed Ordering, ASPM L1, the 10-bit
and 14-bit tag enables, and the two base addresses
(PRESUMED, log entry 120). -/
structure FnConfig where
  maxPayload : Nat := 0
  maxRead : Nat := 2
  relaxed : Bool := true
  aspmL1 : Bool := false
  tenBitTag : Bool := false
  fourteenBitTag : Bool := false
  bar0 : Qword := 0
  bar2 : Qword := 0
  deriving DecidableEq, Repr, Inhabited

/-- PCIe link and configuration space (R147 to R154). -/
structure Pcie where
  /-- Configuration space of each function, and the VF base addresses of PF0's SR-IOV capability. -/
  config : List FnConfig := List.replicate 17 {}
  vfBar0 : Qword := 0
  vfBar2 : Qword := 0
  /-- Bit fn: the last write of data to host memory for the function carried Relaxed Ordering (R148). -/
  dataRelaxed : BitVec 17 := 0
  vfEnable : Bool := false
  numVfs : Nat := 0
  ctrls : List Ctrl := List.replicate 17 {}
  /-- Controller last served by the round robin of R167. -/
  lastFn : Nat := 0
  /-- Fetching has stopped: P1, or an accepted MODULE_RESET (R38, R59). -/
  fetchStopped : Bool := false
  floorMs : Nat := 5
  /-- Every completion posted, newest last. -/
  completions : List Completion := []
  /-- MSI-X messages sent, newest last: address and data. -/
  messages : List (Qword × Dword) := []
  /-- SMART warning bits and NVMe-MI state. -/
  smbusKhz : Nat := 100
  miReply : List Byte := []
  criticalWarning : BitVec 8 := 0
  overTemp : Bool := false
  deriving DecidableEq, Repr, Inhabited

/-- A retained entry of a vendor log page. -/
structure LogEntry where
  seq : Nat
  time : Nat
  /-- The function that sees the entry besides PF0 (R193); 0 when PF0 only. -/
  owner : Nat := 0
  /-- The entry adds to `FAULT_COUNT` (R190). -/
  fault : Bool := false
  /-- Bytes from offset 0x10 on. -/
  body : List Byte := []
  deriving DecidableEq, Repr, Inhabited

/-- A vendor log page (R192, R193). -/
structure LogPage where
  nextSeq : Nat := 1
  entries : List LogEntry := []
  lost : Nat := 0
  lostOf : List (Nat × Nat) := []
  faults : Nat := 0
  deriving DecidableEq, Repr, Inhabited

/-- A deferred write error (Table 05-10, R176 to R181). -/
structure Deferred where
  seq : Nat
  time : Nat
  fn : Nat
  nsid : Nat
  slba : Nat
  nlb : Nat
  faultNo : Nat
  carried : Bool := false
  readByOwner : Bool := false
  carrierCid : Nat := 0xFFFF
  carrierSqid : Nat := 0
  /-- The least arrival number among the lost blocks: a Flush that was fetched later covers the write (R183). -/
  arrival : Nat := 0
  deriving DecidableEq, Repr, Inhabited

/-- The vendor log pages 0xC0 to 0xC8; page 0xC3 is kept field by field. -/
structure Logs where
  c0 : LogPage := {}
  c1 : LogPage := {}
  c2 : LogPage := {}
  c4 : LogPage := {}
  c5 : LogPage := {}
  c6 : LogPage := {}
  c7 : LogPage := {}
  c8 : LogPage := {}
  deferred : List Deferred := []
  deferredNext : Nat := 1
  deferredLost : Nat := 0
  deferredLostOf : List (Nat × Nat) := []
  /-- The last fault number given (R190). -/
  faultNo : Nat := 0
  deriving DecidableEq, Repr, Inhabited

/-! ### Chapter 06: models, invocations, sessions -/

/-- A DRAM granule's place: the stack and the 64 KiB granule within it. -/
structure Granule where
  stack : Nat
  index : Nat
  deriving DecidableEq, Repr, Inhabited

/-- `MODEL_SLOT` state (R205). -/
inductive SlotState where
  | empty | receiving | admitted
  deriving DecidableEq, Repr, Inhabited

/-- A reservation table (Table 06-5). -/
structure Reservation where
  tile : Nat := 0
  spindles : Nat := 0
  counters : Nat := 0
  pinned : Nat := 0
  writeback : Nat := 0
  scratch : Nat := 0
  rocache : Nat := 0
  spill : Nat := 0
  deriving DecidableEq, Repr, Inhabited

/-- One model slot of a tenant and the package it holds (Tables 06-3 to 06-6). -/
structure Model where
  slot : Nat
  state : SlotState := .empty
  received : Nat := 0
  packageLength : Nat := 0
  /-- The package bytes received so far. -/
  package : Region := {}
  entryMask : BitVec 8 := 0
  batch : Nat := 0
  batchMax : Nat := 0
  inItemBytes : Nat := 0
  outItemBytes : Nat := 0
  engineMask : BitVec 8 := 0
  entryWord : Nat := 0
  persistBytes : Nat := 0
  reservation : Reservation := {}
  counterFirst : Nat := 0
  programOff : Nat := 0
  programLen : Nat := 0
  imageLen : Nat := 0
  /-- The on-chip image as kept by the module, persistent bytes written back (R212). -/
  image : Region := {}
  /-- Handles of the plan buffers, in plan order. -/
  plan : List Nat := []
  /-- The spindles bound to the model, in LANE order, and the tile-store granules of its home (R254). -/
  bound : List Nat := []
  homePlace : List Nat := []
  /-- The granules of the image store that keep the image, granule by granule (R254, R300). -/
  imagePlace : List Granule := []
  deriving DecidableEq, Repr, Inhabited

/-! ### Chapter 07: invocations, spindles, engine queues -/

/-- A buffer's placement (Table 09-3). -/
inductive Placement where
  | tile | pinned | writeback | readonly | scratch
  deriving DecidableEq, Repr, Inhabited

/-- The kind of an accumulator tile (R353). -/
inductive AccKind where
  | fp32 | int32
  deriving DecidableEq, Repr, Inhabited

/-- What a buffer address names. `buf` is a buffer in the tile store, in DRAM or read-only; `unused` is a binding
slot that holds nothing, or a plan entry that does not exist (R308). -/
inductive Space where
  | home (slot : Nat)
  | buf (index : Nat) (p : Placement)
  | hostIn
  | hostOut
  | unused
  deriving DecidableEq, Repr, Inhabited

/-- A piece of memory that an engine reads or writes. -/
structure Span where
  space : Space
  off : Nat
  len : Nat
  deriving DecidableEq, Repr, Inhabited

/-- What a command that passes its start checks reads, writes, claims and costs. -/
structure Work where
  reads : List Span := []
  writes : List Span := []
  /-- Accumulator tiles read, written and claimed; the kind of a claim. -/
  accR : List Nat := []
  accW : List Nat := []
  claimAcc : Option (Nat × AccKind) := none
  /-- Gouge tiles read, written and claimed. -/
  tileR : List Nat := []
  tileW : List Nat := []
  claimTile : Option Nat := none
  /-- Mask registers read and claimed. -/
  maskR : List Nat := []
  claimMask : Option Nat := none
  /-- Query contexts named, and the one claimed. -/
  ctxs : List Nat := []
  claimCtx : Option Nat := none
  /-- Read-only units read, with the pool they go through. -/
  units : List (Option Nat × Nat) := []
  /-- A scan waits while its group is exchanged (R129). -/
  scan : Bool := false
  /-- The flow a peer command holds. -/
  flow : Option Nat := none
  cost : Nat := 0
  deriving DecidableEq, Repr, Inhabited

/-- A command that an invocation has started, kept for the rule on unordered commands (R240): its number among those the
invocation has issued, its queue, what it touches, and the commands, as invocation tag and number, that had ended before it
by the scoreboard or by a chain of counters. -/
structure Touch where
  ord : Nat
  queue : Nat
  work : Work
  knows : List (Nat × Nat) := []
  deriving DecidableEq, Repr, Inhabited

/-- The four invocation commands. -/
inductive InvKind where
  | invoke | search | extract | service
  deriving DecidableEq, Repr, Inhabited

/-- Where an invocation stands among the phases of Table 07-5. -/
inductive InvPhase where
  | waiting     -- waits for a spindle (R210 step 8)
  | waitHome    -- I3, waiting for another invocation's load or persist
  | loading     -- I3, its own load is queued or running
  | running     -- I4
  | waitCtr     -- I4, stalled on a header wait
  | stalled     -- I4, stalled on slots (R234)
  | draining    -- E1
  | drained     -- E2, waiting for a slot for its persist
  | persisting  -- E2
  | stopping    -- stopped; its started commands still run
  deriving DecidableEq, Repr, Inhabited

/-- A frame of the window stack (R250). -/
inductive WinFrame where
  | loop (start count iter : Nat)
  | call (ret : Nat)
  deriving DecidableEq, Repr, Inhabited

/-- One accepted invocation, from step 7 of R210 to its completion. -/
structure Invocation where
  ref : CmdRef
  kind : InvKind
  tenant : Nat
  slot : Nat
  batch : Nat := 0
  k : Nat := 0
  maxKeypoints : Nat := 0
  groups : BitVec 4 := 0
  expedite : Bool := false
  fetchedAt : Nat := 0
  deadlineAt : Option Nat := none
  cbump : Option (Nat × Nat) := none
  inBytes : Nat := 0
  outBytes : Nat := 0
  prp1 : Qword := 0
  prp2 : Qword := 0
  binds : List Nat := []
  phase : InvPhase := .waiting
  spindle : Nat := 0
  lane : Nat := 0
  tag : Nat := 0
  bases : List Nat := []
  word : Nat := 0
  /-- On-chip frames, newest first, at most 8; and the spilled frames, newest first (R250, R251). -/
  stack : List WinFrame := []
  spilled : List WinFrame := []
  flags : BitVec 8 := 0
  /-- One more than the highest HOST_OUT offset written. -/
  hostOutHigh : Nat := 0
  /-- It holds its model's home (I3 to E3, R256). -/
  home : Bool := false
  /-- Of a stopped invocation: the vendor status code and DW0 of its completion, and whether a reset of its
  function keeps it from posting one (R174). -/
  endSc : Nat := 0
  endDw0 : Nat := 0
  silent : Bool := false
  /-- The header wait of the control word that the spindle is at has been found to hold (R247, R272). -/
  met : Bool := false
  /-- Commands issued so far, those started, oldest first, and the commands that had ended, by a chain of counters,
  before the spindle came to where it is (R240). -/
  issued : Nat := 0
  trace : List Touch := []
  knows : List (Nat × Nat) := []
  /-- The model's own mark: two commands of the invocation at different instances have touched one granule with no counter
  chain between them, and the data of the invocation are undefined (R240). -/
  raced : Bool := false
  deriving DecidableEq, Repr, Inhabited

/-- The reasons of Table 07-6 that an engine or a spindle gives. -/
inductive StopReason where
  | illegalWord | badInstance | classNotDeclared | wordBeyondProgram | frameMismatch | counterRange
  | spillFull | addressOutside | badBody | groupBlocked | instanceOffline | memory | media
  deriving DecidableEq, Repr, Inhabited

/-- What a started command has come to. -/
inductive CmdOutcome where
  | queued
  | started
  | done
  | failed (reason : StopReason) (faultNo : Nat)
  /-- Ended without data or bump after a cancellation (R189). -/
  | cancelled
  deriving DecidableEq, Repr, Inhabited

/-- What the module itself may place in a DMA queue besides program words (Table 07-5). -/
inductive CmdOrigin where
  | word | imageLoad | imagePersist
  deriving DecidableEq, Repr, Inhabited

/-- One held command slot of an engine queue (R233, R238). -/
structure QEntry where
  tenant : Nat
  tag : Nat
  origin : CmdOrigin := .word
  /-- The 64 descriptor bytes, byte 0 lowest, as the spindle issued them. -/
  desc : BitVec 512 := 0
  iter0 : Nat := 0
  iter1 : Nat := 0
  lane : Nat := 0
  word : Nat := 0
  /-- Absolute wait counter and target (R274). -/
  wait : Option (Nat × Nat) := none
  /-- Absolute bump counter and increment. -/
  bump : Option (Nat × Nat) := none
  expedite : Bool := false
  outcome : CmdOutcome := .queued
  /-- The wait was found to hold, and read-ahead or bring-up began (R315, R420). -/
  begun : Bool := false
  /-- The invocation was stopped or its run ended: the bump is discarded. -/
  discard : Bool := false
  /-- Its number among the commands its invocation has issued, and the commands that had ended before it was issued
  (R240). -/
  ord : Nat := 0
  knows : List (Nat × Nat) := []
  deriving DecidableEq, Repr, Inhabited

/-- One engine queue with its arbiter (R233, R242). -/
structure Queue where
  entries : List QEntry := []
  deficits : List Int := List.replicate 16 0
  pointer : Nat := 0
  /-- Offline with this fault number (R261). -/
  offline : Option Nat := none
  /-- Held out of arbitration by engine self-test (R239). -/
  bist : Bool := false
  deriving DecidableEq, Repr, Inhabited

/-! ### Chapters 08 and 09: counters, buffers, pools, watermarks -/

/-- The counter pool: non-zero counters in rising order, and the saturated ones. -/
structure CtrPool where
  values : List (Nat × Nat) := []
  saturated : List Nat := []
  /-- The model's own field (R240): counter, invocation tag and command number of each command that had ended before some
  bump of the counter. -/
  after : List (Nat × Nat × Nat) := []
  deriving DecidableEq, Repr, Inhabited

/-- One buffer of a tenant. -/
structure Buffer where
  index : Nat
  gen : Nat
  placement : Placement
  size : Nat
  granules : Nat
  firstExtent : Nat := 0
  /-- The content, from offset 0; of an A_TILE plan buffer it lies in the model's home instead. -/
  data : Region := {}
  /-- The DRAM granules that hold it, granule by granule (R300); for A_TILE from ALLOC the tile-store granules, as
  granules of stack 0. -/
  place : List Granule := []
  /-- Plan buffer of this model slot and entry. -/
  planOf : Option (Nat × Nat) := none
  /-- A_SCRATCH: an invocation has referenced it since it was allocated (Table 09-3). -/
  used : Bool := false
  /-- Shavings: numbers of the dirty 4 KiB blocks, rising (R320). -/
  dirty : List Nat := []
  /-- Blocks whose copy is on its way to the shadow. -/
  cleaning : List Nat := []
  shadowGroup : Nat := 0
  deriving DecidableEq, Repr, Inhabited

/-- A cache pool of A_READONLY units (R314): unit numbers `extent * 256 + unit`, most recently used first. -/
structure Pool where
  units : List Nat := []
  /-- Units whose bring-up has started (R315). -/
  coming : List Nat := []
  /-- Where the units lie, sixteen slots in a granule: unit and slot; and the granules. -/
  slots : List (Nat × Nat) := []
  place : List Granule := []
  /-- Blocks of units that a miscorrection has changed: unit, 512-byte block, and the generation of the free bytes. -/
  wild : List (Nat × Nat × Nat) := []
  deriving DecidableEq, Repr, Inhabited

/-- One watermark (R325). -/
structure Watermark where
  mark : Nat := 0xFFFFFFFF
  level : Nat := 0
  peak : Nat := 0
  latch : Bool := false
  count : Nat := 0
  deriving DecidableEq, Repr, Inhabited

/-- A publish session (R223, R516). -/
structure Session where
  group : Nat
  first : Nat
  count : Nat
  /-- 4 KiB units written. -/
  written : Nat := 0
  data : Region := {}
  /-- Session superblocks: number, first session extent held, extents it can hold. -/
  superblocks : List (Nat × Nat × Nat) := []
  /-- 16 KiB data pages whose programs have been issued. -/
  issued : Nat := 0
  deriving DecidableEq, Repr, Inhabited

/-- One tenant: run, models, buffers, counters' registers, watermarks. -/
structure Tenant where
  runOpen : Bool := false
  frozen : Bool := false
  saturatedFlag : Bool := false
  satCtr : Option Nat := none
  runSeq : Nat := 0
  /-- The last invocation tag assigned (R21). -/
  lastTag : Nat := 0
  models : List Model := []
  /-- Tile homes by slot: content and the invocation tag that is loading it. -/
  homes : List (Nat × Region) := []
  homeValid : List Nat := []
  buffers : List Buffer := []
  gens : List (Nat × Nat) := []
  freed : List Nat := []
  nextIndex : Nat := 0
  sharedPool : Pool := {}
  modelPools : List (Nat × Pool) := []
  page : Nat := 0
  anchors : List Nat := []
  refused : Nat := 0
  lastRefusedIdx : Nat := 0
  lastRefusedWhy : Nat := 0
  /-- A RUN END with `FORCE` that waits for its invocations (R222). -/
  ending : Option CmdRef := none
  session : Option Session := none
  watermarks : List Watermark := []
  /-- Start times of bring-up reads, and end times with DEADLINE_EXCEEDED, for windowed levels. -/
  roMisses : List Nat := []
  deadlines : List Nat := []
  spillPeak : Nat := 0
  foreignFrees : Nat := 0
  /-- The model's own field (R240): the commands, as tag and number, that had ended before some counter value that the host
  or another module has been given. -/
  outside : List (Nat × Nat) := []
  deriving DecidableEq, Repr, Inhabited

/-! ### Chapters 11 to 13: accumulator tiles, Gouge slices, Rasp units -/

/-- The invocation that holds a tile, register or context: tenant and tag. -/
structure Holder where
  tenant : Nat
  tag : Nat
  deriving DecidableEq, Repr, Inhabited

/-- One accumulator tile: element (i, j) is the 4 bytes at `4 * (128 * i + j)`. -/
structure AccTile where
  kind : AccKind := .fp32
  holder : Option Holder := none
  data : Region := {}
  deriving DecidableEq, Repr, Inhabited

/-- One Gouge tile G0 to G15, FP32 elements in the same order. -/
structure GougeTile where
  holder : Option Holder := none
  data : Region := {}
  deriving DecidableEq, Repr, Inhabited

/-- One mask register M0 to M7; bit j belongs to lane j. -/
structure MaskReg where
  holder : Option Holder := none
  mask : BitVec 128 := 0
  deriving DecidableEq, Repr, Inhabited

/-- Lathe unit n and Gouge slice n. -/
structure Pair where
  acc : List AccTile := List.replicate 8 {}
  tiles : List GougeTile := List.replicate 16 {}
  masks : List MaskReg := List.replicate 8 {}
  deriving DecidableEq, Repr, Inhabited

/-- An entry of a heap or list: identifier and score bits. -/
structure ListEntry where
  id : Nat
  score : Dword
  deriving DecidableEq, Repr, Inhabited

/-- One query context of a Rasp unit (R402). -/
structure Context where
  holder : Option Holder := none
  table : Region := {}
  param : List Byte := List.replicate 64 0
  kind : Nat := 0
  form : Nat := 0
  codeBytes : Nat := 0
  heapK : Nat := 0
  /-- Entries best first (R415). -/
  heap : List ListEntry := []
  deriving DecidableEq, Repr, Inhabited

/-- One Rasp unit with its registers (Table 13-9) and its read-ahead. -/
structure RaspUnit where
  ctxs : List Context := List.replicate 4 {}
  units : Nat := 0
  records : Nat := 0
  passed : Nat := 0
  inserts : Nat := 0
  nan : Nat := 0
  stall : Nat := 0
  aheadCount : Nat := 0
  /-- Units read ahead, in reading order: tenant and tag of the SCAN's invocation, extent unit. -/
  ahead : List (Nat × Nat × Nat) := []
  /-- Tainted or taintable scans that passed records since the last scrub read: tenant, tag, posted. -/
  passedBy : List (Nat × Nat × Bool) := []
  deriving DecidableEq, Repr, Inhabited

/-! ### Chapter 14: Burl engines -/

/-- One Burl engine: its frame store and its registers (Table 14-6). -/
structure Burl where
  /-- The pyramid of the last frame, level after level (R428). -/
  frame : Region := {}
  images : Nat := 0
  rejCoding : Nat := 0
  rejCorrupt : Nat := 0
  rejSize : Nat := 0
  rejRange : Nat := 0
  fsUncorr : Nat := 0
  capped : Nat := 0
  keypoints : Nat := 0
  deriving DecidableEq, Repr, Inhabited

/-! ### Chapters 15 and 16: flash, dies, maps, write buffer -/

/-- A programmed page: its 18,432 bytes as the die holds them. A page no entry lists is erased. -/
structure FlashPage where
  addr : PageAddr
  raw : Region
  /-- Its program ended with FAIL: its codewords do not decode. -/
  bad : Bool := false
  /-- Codewords found unreadable for good: each is one fault (R190, R514). -/
  lost : List Nat := []
  deriving DecidableEq, Repr, Inhabited

/-- Who waits for a codeword. -/
inductive Reader where
  | nvm (c : CmdRef) (lba : Nat)
  | bringUp (tenant : Nat) (model : Option Nat) (unit : Nat)
  | scan (tenant tag unit channel : Nat)
  | media (c : CmdRef)
  /-- A relocation of this superblock (R497). -/
  | source (superblock : Nat)
  /-- Nobody any more: its command has ended, and the result is discarded (R189). -/
  | nobody
  deriving DecidableEq, Repr, Inhabited

/-- What a die operation does. -/
inductive DieOpKind where
  /-- Read one page for these codewords. -/
  | read (addr : PageAddr) (codewords : List Nat) (reader : Reader)
  /-- A read-retry attempt on a codeword, or the read of a member of its row for its rebuild (class 1). -/
  | retry (addr : PageAddr) (codeword : Nat)
  | rebuildRead (addr : PageAddr) (codeword : Nat) (member : PageAddr)
  /-- The source read of a relocation: one page of a superblock's slot, on these planes together (class 5). -/
  | sourceRead (superblock slot row : Nat) (planes : List Nat)
  /-- The patrol read of a die's page with this index, and the calibration of a zone (class 5). -/
  | patrol (index : Nat)
  | calibrate (zone : Nat)
  /-- Program a slot's members of a row job; planes of the members. -/
  | program (job slot : Nat) (planes : List Nat)
  /-- Erase a slot's blocks of a superblock. -/
  | erase (superblock slot : Nat)
  /-- A direct-media program or erase, for its command while that has not ended (R189). -/
  | directProgram (c : Option CmdRef) (addr : PageAddr) (content : Region)
  | directErase (c : Option CmdRef) (addr : BlockAddr)
  deriving DecidableEq, Repr, Inhabited

/-- An operation queued or running on a die (R461), of a class of Table 15-4. -/
structure DieOp where
  cls : Nat
  kind : DieOpKind
  arrived : Nat := 0
  suspends : Nat := 0
  nested : Bool := false
  promoted : Bool := false
  /-- A read that arrived once the suspended operation had used up its suspends: it waits for that one to end (Table 15-5). -/
  late : Bool := false
  /-- When it last started or resumed, and its time before that, suspensions apart (R459). -/
  since : Nat := 0
  ran : Nat := 0
  deriving DecidableEq, Repr, Inhabited

/-- One die. -/
structure Die where
  queue : List DieOp := []
  running : Option DieOp := none
  suspended : Option DieOp := none
  /-- The one program nested in a suspended erase has been issued (Table 15-5). -/
  nestedUsed : Bool := false
  /-- The target is in reset after a ready/busy timeout of this operation (R476). -/
  resetting : Option DieOp := none
  retired : Bool := false
  retireFault : Nat := 0
  /-- When the last ready/busy timeout was found. -/
  timedOutAt : Option Nat := none
  /-- Read-level set of each zone not at set 0: zone `32 * plane + block / 64`, set. -/
  zoneSets : List (Nat × Nat) := []
  /-- Last calibration of a zone: zone, time, temperature. -/
  calibrated : List (Nat × Nat × Nat) := []
  patrolStart : Nat := 0
  patrolNext : Nat := 0
  patrolDays : Nat := 7
  deriving DecidableEq, Repr, Inhabited

/-- A read recovery in progress (R469). -/
structure Recovery where
  addr : PageAddr
  codeword : Nat
  faultNo : Nat
  since : Nat
  /-- Attempts made. -/
  tried : Nat := 0
  rebuilding : Bool := false
  /-- Members of the row whose reads the rebuild waits for, and those that failed LDPC (R490). -/
  waits : List PageAddr := []
  erased : List PageAddr := []
  readers : List Reader := []
  /-- Its fault was found by another entry: a timeout, an isolation or a retirement (R190). -/
  counted : Bool := false
  deriving DecidableEq, Repr, Inhabited

/-- One channel (Table 15-13). -/
structure Channel where
  mode : Nat := 0
  /-- It has trained, or failed to, since the last reset that reaches CH (R457). -/
  trained : Bool := false
  isolated : Bool := false
  belowCap : Bool := false
  cause : Nat := 0
  isolateFault : Nat := 0
  trainFails : Nat := 0
  /-- First-read LDPC failures in the last millisecond: die and time (Table 15-7). -/
  firstFails : List (Nat × Nat) := []
  deriving DecidableEq, Repr, Inhabited

/-- What a superblock is used for (R500, R516). -/
inductive SbUse where
  | writes | relocation | publish (tenant : Nat)
  /-- A journal tail of a group whose stripe set 0 has fewer than 8 live slots (R503). -/
  | metadata
  deriving DecidableEq, Repr, Inhabited

/-- A superblock (R487, R488). -/
structure Superblock where
  id : Nat
  group : Nat
  set : Nat
  use : SbUse
  /-- Live slots when it was opened, ascending. -/
  slots : List Nat
  /-- Block of each live slot and plane: entry `4 * i + plane` for the i-th live slot. -/
  blocks : List Nat
  nextRow : Nat := 0
  closed : Bool := false
  closedSeq : Nat := 0
  /-- Queued for refresh, rebuild or retirement, ahead of any victim (R505). -/
  refresh : Bool := false
  /-- Blocks to retire once its content has been relocated: slot and plane (R511). -/
  doomed : List (Nat × Nat) := []
  /-- Slots whose erase has not ended; none while it is not being erased. -/
  erasing : List Nat := []
  /-- Its source reads for a relocation are under way: into the most-worn blocks, or not (R507, R508). -/
  sourcing : Option Bool := none
  deriving DecidableEq, Repr, Inhabited

/-- Where mapped content lies: superblock and data page, or unreadable with its fault number (R514). -/
inductive Place where
  | at (superblock page : Nat)
  | unreadable (faultNo : Nat)
  deriving DecidableEq, Repr, Inhabited

/-- A map entry of a LOG group: one 16 KiB unit of a namespace (R493), or of a shadow (R321), whose function number
is 256 plus the tenant and whose namespace is the buffer's index. -/
structure UnitEntry where
  fn : Nat
  nsid : Nat
  unit : Nat
  place : Place
  /-- Number of the row job that placed it: an older job never replaces it. -/
  stamp : Nat := 0
  deriving DecidableEq, Repr, Inhabited

/-- A published extent (R492): superblock and extent position, and its unreadable units with fault numbers. -/
structure ExtentEntry where
  tenant : Nat
  extent : Nat
  group : Nat
  superblock : Nat
  position : Nat
  bad : List (Nat × Nat) := []
  deriving DecidableEq, Repr, Inhabited

/-- A namespace (R496). -/
structure Namespace where
  fn : Nat
  nsid : Nat
  blocks : Nat
  group : Nat
  attached : Bool := false
  deriving DecidableEq, Repr, Inhabited

/-- A 4 KiB block of the write buffer that is not programmed yet. -/
structure WbBlock where
  fn : Nat
  nsid : Nat
  lba : Nat
  data : Region
  /-- Order of arrival in the buffer. -/
  seq : Nat := 0
  /-- Write-through: the Write that waits for it (R37). -/
  waiter : Option CmdRef := none
  /-- The row job that carries it, when placed. -/
  job : Option Nat := none
  placements : Nat := 0
  deriving DecidableEq, Repr, Inhabited

/-- What one member of a row holds. -/
inductive Item where
  | unit (fn nsid unit : Nat)
  | part (tenant extent part : Nat)
  | parity
  | padding
  deriving DecidableEq, Repr, Inhabited

/-- One member of a row: a page of one slot and plane. `result` is its program status once known. -/
structure Member where
  slot : Nat
  plane : Nat
  content : Region
  item : Item
  result : Option Bool := none
  deriving DecidableEq, Repr, Inhabited

/-- Why a row is programmed. -/
inductive JobKind where
  | writes
  | relocation (source : Nat)
  | publish (c : CmdRef)
  /-- A publish row whose command a reset has aborted (R174). -/
  | orphan
  deriving DecidableEq, Repr, Inhabited

/-- A row being programmed (R500, R501). -/
structure RowJob where
  id : Nat
  superblock : Nat
  row : Nat
  kind : JobKind
  members : List Member := []
  deriving DecidableEq, Repr, Inhabited

/-- A relocated copy that waits for its switch (R497): source superblock, item, new superblock and data page. -/
structure Copied where
  source : Nat
  item : Item
  superblock : Nat
  page : Nat
  deriving DecidableEq, Repr, Inhabited

/-- An NVM Read that waits for flash: its missing blocks. -/
structure PendingRead where
  ref : CmdRef
  slba : Nat
  missing : List Nat
  deriving DecidableEq, Repr, Inhabited

/-- A Flush that waits for the function's acknowledged blocks of the buffer that arrived before it (R183). -/
structure PendingFlush where
  ref : CmdRef
  upTo : Nat
  deriving DecidableEq, Repr, Inhabited

/-- One channel group's management state. -/
structure Group where
  recorded : Option Role := none
  /-- Journal records since the last checkpoint, and checkpoints written. -/
  journalTail : Nat := 0
  checkpoints : Nat := 0
  /-- The metadata superblock in use, 0 or 1, its next row, and the journal records of the row that P3 wrote (R495, R503). -/
  metaBlock : Nat := 0
  metaRow : Nat := 0
  metaTail : Nat := 0
  /-- When the last data arrived for its rows, and when static levelling last looked at it (R500, R508). -/
  lastData : Nat := 0
  levelledAt : Nat := 0
  mapLoaded : Bool := false
  readOnly : Bool := false
  gcState : Nat := 0
  railTripped : Bool := false
  deriving DecidableEq, Repr, Inhabited

/-- The MEDIA block and the flash behind it. -/
structure Media where
  budgetUs : Nat := 2000
  maxMode : Nat := 5
  eraseMax : Nat := 16
  progMax : Nat := 4
  retryReads : Nat := 0
  rebuilt : Nat := 0
  unreadable : Nat := 0
  suspends : Nat := 0
  diesRetired : Nat := 0
  calibrations : Nat := 0
  patrolDays : Nat := 7
  wearSpread : Nat := 300
  channels : List Channel := List.replicate 32 {}
  /-- Die d of channel c is element `32 * c + d`; a V7-56T has dies 0 to 15. -/
  dies : List Die := List.replicate 1024 {}
  pages : List FlashPage := []
  /-- Program/erase cycles of blocks that have any. -/
  cycles : List (BlockAddr × Nat) := []
  retiredBlocks : List BlockAddr := []
  recoveries : List Recovery := []
  superblocks : List Superblock := []
  nextSuperblock : Nat := 1
  closeCount : Nat := 0
  /-- Stripe set that takes the next row of write data, per group (R500). -/
  rotate : List Nat := [0, 0, 0, 0]
  units : List UnitEntry := []
  extents : List ExtentEntry := []
  namespaces : List Namespace := []
  buffer : List WbBlock := []
  nextBlock : Nat := 0
  jobs : List RowJob := []
  nextJob : Nat := 1
  copied : List Copied := []
  reads : List PendingRead := []
  flushes : List PendingFlush := []
  /-- Blocks that P2 could not place, recorded at the next start: function, namespace, block, arrival number (R502). -/
  lostBlocks : List (Nat × Nat × Nat × Nat) := []
  /-- Rows that P2 left with failed members, recorded at the next start: superblock and count (R502). -/
  degradedRows : List (Nat × Nat) := []
  /-- Members whose programs failed in P2: superblock, slot, plane, row. -/
  failedMembers : List (Nat × Nat × Nat × Nat) := []
  groups : List Group := List.replicate 4 {}
  /-- The cached map pages of the LOG groups, most recently used first: slot of the cache, group, function, namespace and
  page (R493, R494). -/
  mapCache : List (Nat × Nat × Nat × Nat × Nat) := []
  /-- A Sanitize Block Erase has completed (log page 81h). -/
  sanitized : Bool := false
  deriving DecidableEq, Repr, Inhabited

/-! ### Chapter 17: memory protection -/

/-- A hard error of one DRAM block, as the rules of R531 and R535 count them. -/
structure HardError where
  block : Nat
  /-- The die, when the errors lie in one die. -/
  die : Option Nat
  time : Nat
  /-- The scrub pass of the stack in which it was found. -/
  pass : Nat
  /-- Classified hard by a check read; otherwise found uncorrectable. -/
  hard : Bool := true
  deriving DecidableEq, Repr, Inhabited

/-- One DRAM stack's protection state (R531 to R541, Table 17-10). -/
structure MemStack where
  failedDie : Option Nat := none
  secondDie : Bool := false
  /-- Remap entries in use: entry number, block, and the die that holds its hard symbols when it is one (R533). -/
  remap : List (Nat × Nat × Option Nat) := []
  /-- Replacements in use: replacement number and page (R537). -/
  retired : List (Nat × Nat) := []
  corrSoft : Nat := 0
  corrHard : Nat := 0
  uncorr : Nat := 0
  poisonReads : Nat := 0
  rmw : Nat := 0
  /-- The next block the scrubber reads, and the passes completed. -/
  scrubBlock : Nat := 0
  scrubPasses : Nat := 0
  errors : List HardError := []
  /-- Patterns already reported: kind, which pattern, and a page its entry lists (R534, R535). -/
  reported : List (Nat × Nat × Nat) := []
  /-- Poisoned blocks and the fault numbers they carry (R528). -/
  poison : List (Nat × Nat) := []
  /-- The scrub pass's uncorrectable blocks of the page it is in, whose one entry is written when it leaves the page
  (R546): fault number, first block, symbols in error, blocks. -/
  scrubFound : Option (Nat × Nat × Nat × Nat) := none
  deriving DecidableEq, Repr, Inhabited

/-- One SRAM structure of Table 17-5. -/
structure SramUnit where
  corr : Nat := 0
  uncorr : Nat := 0
  /-- Poisoned words and their fault numbers (R542). -/
  poison : List (Nat × Nat) := []
  /-- Corrected words and the bit each correction found (R542). -/
  seen : List (Nat × Nat) := []
  /-- Hard words: word, bit, time of the last log entry (R542). -/
  hard : List (Nat × Nat × Nat) := []
  deriving DecidableEq, Repr, Inhabited

/-- The MEMPROT block and the protection of DRAM and SRAM. -/
structure MemProt where
  dramStacks : List MemStack := List.replicate 4 {}
  sram : List SramUnit := List.replicate 11 {}
  /-- Models whose stored image or program was lost: tenant, slot, fault number; tenant 16 stands for the personality
  staging (Table 17-6). -/
  damaged : List (Nat × Nat × Nat) := []
  deriving DecidableEq, Repr, Inhabited

/-! ### Chapter 18: the peer fabric -/

/-- `PORT_STATE.STATE` (Table 18-4). -/
inductive PortState where
  | off | down | training | discovery | held | up
  deriving DecidableEq, Repr, Inhabited

/-- One peer port (Table 18-10). -/
structure Port where
  state : PortState := .down
  heldCause : Nat := 0
  nbrModule : Nat := 0
  nbrPort : Nat := 0
  nbrValid : Bool := false
  txFrames : Nat := 0
  rxFrames : Nat := 0
  retx : Nat := 0
  transit : Nat := 0
  transitDrops : Nat := 0
  rxDiscards : Nat := 0
  linkDowns : Nat := 0
  /-- PFC has paused the priority of R556. -/
  paused : Bool := false
  /-- Frames waiting in the 256 KiB ingress buffer to be relayed (R561). -/
  ingress : List PeerFrame := []
  /-- When the port last sent HELLO, and when it last went DOWN (R557, Table 18-4). -/
  helloAt : Option Nat := none
  downAt : Option Nat := none
  deriving DecidableEq, Repr, Inhabited

/-- A frame sent and not yet covered by an ACK (R563, R565). -/
structure InFlight where
  seq : Nat
  first : Bool
  last : Bool
  /-- Source byte offset of the payload within the command, and its length. -/
  off : Nat
  length : Nat
  sends : Nat := 1
  sacked : Bool := false
  sentAt : Nat := 0
  deriving DecidableEq, Repr, Inhabited

/-- The peer command that holds a flow (R562, R571), with its body resolved at the start. -/
structure PeerSend where
  queue : Nat
  tenant : Nat
  tag : Nat
  word : Nat := 0
  src : Qword
  srcExtra : Nat := 0
  bytes : Nat
  handle : Dword
  /-- Destination offset in 64-byte units. -/
  offset : Nat
  rbump : Option (Nat × Nat) := none
  /-- Frames handed out so far, and in all. -/
  sent : Nat := 0
  frames : Nat := 0
  deriving DecidableEq, Repr, Inhabited

/-- One flow (Table 18-11). A flow with no record is unbound. -/
structure Flow where
  flow : Nat
  txEpoch : Nat := 0
  nextSeq : Nat := 0
  inFlight : List InFlight := []
  holder : Option PeerSend := none
  /-- Position in the rotation of R559 and R560. -/
  rotation : Nat := 0
  rxEpoch : Nat := 0
  rxAny : Bool := false
  expected : Nat := 0
  /-- Frames held out of order in the reorder store, with the ports they arrived at. -/
  heldFrames : List (Nat × PeerFrame) := []
  poisoned : Bool := false
  /-- Frames applied since the last ACK (R564). -/
  ackOwed : Nat := 0
  retx : Nat := 0
  deriving DecidableEq, Repr, Inhabited

/-- The PEER block (Table 18-9), the ports and the flows. -/
structure Peer where
  etype : Nat := 0x88B5
  mode : Nat := 0
  xMinus1 : Nat := 0
  yMinus1 : Nat := 0
  frameMax : Nat := 8192
  rtoUs : Nat := 40
  retryLimit : Nat := 12
  vid : Nat := 0
  pcp : Nat := 0
  tagEn : Bool := false
  pfcEn : Bool := false
  /-- RWL fields are read-only (R577). -/
  locked : Bool := false
  reorderDrops : Nat := 0
  rxForeign : Nat := 0
  ports : List Port := List.replicate 4 {}
  flows : List Flow := []
  /-- Cages: the eFuse has not tripped, and a cable that can be used is present. -/
  cageOn : List Bool := [true, true]
  cable : List Bool := [true, true]
  /-- Frames the ports have put on the wire, newest last: port and frame. -/
  wire : List (Nat × PeerFrame) := []
  /-- Whose turn it is among the two ports of a direction, for frames relayed in a ring (R560). -/
  ringTurn : Nat := 0
  /-- Retransmissions per port in the last second, as start times (PEER_RETX). -/
  retxTimes : List (Nat × Nat) := []
  /-- Rate limit of R578: kind, place, cause, time, occurrences since. -/
  limiter : List (Nat × Nat × Nat × Nat × Nat) := []
  deriving DecidableEq, Repr, Inhabited

/-! ### Chapter 19: the service complex -/

/-- The `STATE` of a firmware slot record (Table 19-4). -/
inductive FwState where
  | staged | eligible | demoted
  deriving DecidableEq, Repr, Inhabited

/-- A firmware slot with a valid record: record fields and the image bytes. -/
structure FwSlot where
  seq : Nat
  length : Nat
  hdrCrc : Nat
  state : FwState
  image : Region := {}
  deriving DecidableEq, Repr, Inhabited

/-- A base slot with a valid slot record (R107). -/
structure BaseSlot where
  seq : Nat
  length : Nat
  crc : Nat := 0
  image : Region := {}
  deriving DecidableEq, Repr, Inhabited

/-- A settings record (Table 19-5). -/
structure SetRecord where
  tag : Nat
  major : Nat
  minor : Nat
  seq : Nat
  live : Bool
  crcOk : Bool
  body : List Byte
  deriving DecidableEq, Repr, Inhabited

/-- A settings bank (R596): erased, or with header bytes. -/
structure SetBank where
  /-- The header bytes are not all 0xFF. -/
  written : Bool := false
  /-- `MAGIC` and the header CRC are good. -/
  valid : Bool := false
  format : Nat := 1
  seq : Nat := 0
  records : List SetRecord := []
  deriving DecidableEq, Repr, Inhabited

/-- What a queued boot NOR operation does when it ends (R583). -/
inductive NorJob where
  | commit (c : CmdRef) (slot action length : Nat) (image : Region)   -- Firmware Commit (R591)
  | promote (c : CmdRef) (slot : Nat)                  -- Firmware Commit action 2
  | base (c : CmdRef) (slot seq : Nat)                 -- COMMIT_BASE (R122)
  | save                                               -- a REGISTERS record (R601)
  | clear                                              -- SETTINGS_CTRL.CLEAR
  /-- A FEATURES record: function, feature, selector and value of each field that a Set Features saves. -/
  | features (c : CmdRef) (values : List (Nat × Nat × Nat × Nat))
  deriving DecidableEq, Repr, Inhabited

/-- The boot NOR as the module reads it: slots, banks, persistent state (Table 19-2). -/
structure Nor where
  fwA : Option FwSlot := none
  fwB : Option FwSlot := none
  baseA : Option BaseSlot := none
  baseB : Option BaseSlot := none
  bankA : SetBank := {}
  bankB : SetBank := {}
  queue : List NorJob := []
  /-- The first job of `queue` is running. -/
  busy : Bool := false
  refused : Nat := 0
  clkSel : Nat := 0
  dummy : Nat := 8
  mode : Nat := 0
  sfdpOk : Bool := false
  vio : Nat := 0
  /-- Slot of an update whose intent is not complete (R591, R592). -/
  intent : Option Nat := none
  /-- Timestamp saved in P3 (R42). -/
  savedTime : Nat := 0
  deriving DecidableEq, Repr, Inhabited

/-- What the erase shield holds, and since when (R595): a reset requested later merges with it (R57). -/
structure HeldReset where
  watchdog : Bool := false
  moduleReset : Bool := false
  since : Nat
  deriving DecidableEq, Repr, Inhabited

/-- The service monitor (R602 to R607). -/
structure Monitor where
  unlocked : Bool := false
  /-- Failed attempts since the last successful unlock, in the persistent state (R605). -/
  fails : Nat := 0
  /-- End of the lockout, and its length in seconds. -/
  lockoutUntil : Option Nat := none
  lockoutS : Nat := 0
  nonce : Option (BitVec 256) := none
  nonceAt : Nat := 0
  baud : Nat := 115200
  lastAt : Nat := 0
  /-- Characters of the last reply. -/
  reply : String := ""
  deriving DecidableEq, Repr, Inhabited

/-- A Device Self-test result, newest first in log 06h. -/
structure TestResult where
  code : Nat
  result : Nat
  segment : Nat
  time : Nat
  deriving DecidableEq, Repr, Inhabited

/-- The service complex and the SVCMBX block (Table 19-11). -/
structure Service where
  nor : Nor := {}
  fwStage : Region := {}
  fwStageBytes : Nat := 0
  /-- 0 A, 1 B, 2 ROM recovery. -/
  runSlot : Nat := 2
  /-- Boot ROM has run, and firmware or the ROM recovery controller answers. -/
  running : Bool := false
  revision : Qword := 0
  dataPath : Bool := false
  fallback : Bool := false
  bootSel : Bool := false
  wdtLeftUs : Nat := 2000000
  wdtExpiries : Nat := 0
  shieldHolds : Nat := 0
  held : Option HeldReset := none
  /-- Health entries to write at the next start: SHIELD_HELD (hold time) or SHIELD_EXPIRED. -/
  shieldNote : Option (Bool × Nat) := none
  settingsBusy : Bool := false
  /-- Settings read at the start: register values by offset, and features by function. -/
  regSaved : List (Nat × Nat) := []
  /-- Features saved in the store: function, feature, selector, value. -/
  featSaved : List (Nat × Nat × Nat × Nat) := []
  /-- Health entries to write at the next start: the slot that ran when the watchdog expired (R594), and a strap
  or `PLN_N` fault found at AON release (Table 02-14). -/
  wdtNote : Option Nat := none
  sidebandNote : Bool := false
  monitor : Monitor := {}
  /-- Running self-test: code, segments passed so far, failed segment. -/
  test : Option (Nat × Nat) := none
  testLog : List TestResult := []
  deriving DecidableEq, Repr, Inhabited

/-! ### Chapter 21: pins -/

/-- A sideband output that a fault keeps the module from driving (Table 21-6). -/
structure Pins where
  smbAlertFault : Bool := false
  smbDriven : Bool := true
  ledActDriven : Bool := true
  ledFaultDriven : Bool := true
  lastFetch : Option Nat := none
  refclk : Bool := true
  recoveryCapable : Bool := true
  -- the JTAG port
  jtagExtest : Bool := false
  jtagOut : List Bool := []
  boundary : List Bool := []
  pinsDriven : List Bool := []
  deriving DecidableEq, Repr, Inhabited

/-- The default `MARK` of module watermark `w` at a `WEAR_SPREAD` (Table 09-10). -/
def moduleMark (w wearSpread : Nat) : Nat :=
  if w = 0 then 750
  else if w = 1 then 768
  else if w < 6 then 950
  else if w < 10 then 1000
  else if w < 14 then 2 * wearSpread
  else if w < 18 then 500
  else if w < 22 then 24
  else 10000
/-- The default `MARK` of tenant watermark `w` (Table 09-10). -/
def tenantMark (w : Nat) : Nat := [900, 900, 500, 4096, 750, 44, 1, 1].getD w 0xFFFFFFFF

/-! ### The module -/

/-- The machine's state: every register, table, queue, memory and pin the spec gives the module, and the queue
of commands that wait. -/
structure State where
  /-- False: V7-56T. True: V7-225Q (R1). -/
  big : Bool := false
  serial : Id128 := 0
  /-- The AON timestamp in microseconds (R42). -/
  now : Nat := 0
  power : Power := {}
  pers : Pers := {}
  pcie : Pcie := {}
  logs : Logs := {}
  invocations : List Invocation := []
  queues : List Queue := List.replicate 78 {}
  engFaults : Nat := 0
  engSpills : Nat := 0
  ctrs : CtrPool := {}
  tenants : List Tenant := []
  pairs : List Pair := List.replicate 16 {}
  rasp : List RaspUnit := List.replicate 32 {}
  burl : List Burl := List.replicate 2 {}
  media : Media := {}
  prot : MemProt := {}
  peer : Peer := {}
  svc : Service := {}
  pins : Pins := {}
  /-- The 26 module watermarks (Table 09-10). -/
  marks : List Watermark := (List.range 26).map fun w => { mark := moduleMark w 300 }
  /-- Host memory: a byte no cell lists reads zero. -/
  host : Mem := []
  /-- Number of free values drawn so far (the model's own field). -/
  free : Nat := 0
  /-- The commands that wait, first in first out. -/
  pending : List Instr := []
  deriving DecidableEq, Repr, Inhabited

/-- Why a step stops with a fault. No meaning of this model raises one: every command has the effect the spec gives
it, and a command whose conditions do not hold leaves the state as it was. -/
inductive Fault where
  /-- Raised by no meaning; it stands so that the type is inhabited. Safe: a step that stops proves nothing. -/
  | none
  deriving DecidableEq, Repr, Inhabited

/-- Why a command is refused. -/
inductive Refusal where
  /-- Raised by an arm of `exec` that has no meaning yet. Safe: nothing follows from a step that is refused. -/
  | notModelled (mnemonic : String)
  deriving DecidableEq, Repr, Inhabited

/-- The module right after the power-on reset (Table 02-12), before AON is released: every register at the value of
Tables 20-2 to 20-6, memories empty, no command waiting
(DESIGN CHOICE, log entries 8, 9)
(PRESUMED, log entry 120). -/
def State.reset : State := {}

end Sys2Proof.Machine
end

