-- ==== Sys2Proof/Machine/Mem.lean ====
section
/-!
DEFINITION. Mem.lean: sparse memories and regions in their canonical form, and the accesses over them.
-/

namespace Sys2Proof.Machine

/-- The canonical form: addresses strictly rising, and no zero byte listed where an unlisted byte reads zero. -/
def Memory.wf (keepZero : Bool) : Mem → Bool
  | [] => true
  | [c] => keepZero || c.2 != 0
  | c :: d :: r => (keepZero || c.2 != 0) && decide (c.1 < d.1) && Memory.wf keepZero (d :: r)

/-- The cells of `bs` written from address `a` on; a zero byte needs no cell unless `keepZero`. -/
def cellsOf (keepZero : Bool) (a : Nat) : List Byte → Mem
  | [] => []
  | b :: bs =>
    if keepZero || b != 0 then (a, b) :: cellsOf keepZero (a + 1) bs else cellsOf keepZero (a + 1) bs

/-- Write `bs` at `a`. -/
def Mem.put (keepZero : Bool) (m : Mem) (a : Nat) (bs : List Byte) : Mem :=
  m.filter (fun c => decide (c.1 < a)) ++ cellsOf keepZero a bs
    ++ m.filter (fun c => decide (a + bs.length ≤ c.1))

/-- The byte at `a`, with what an unlisted address reads as. -/
def Mem.at (d : Nat → Byte) (m : Mem) (a : Nat) : Byte :=
  match m.find? (fun c => c.1 == a) with
  | some c => c.2
  | none => d a

/-- `n` bytes from `a` on, read off cells that all lie at or above `a`. -/
def Mem.run (d : Nat → Byte) : Nat → Nat → Mem → List Byte
  | _, 0, _ => []
  | a, n + 1, [] => d a :: Mem.run d (a + 1) n []
  | a, n + 1, c :: cs =>
    if c.1 = a then c.2 :: Mem.run d (a + 1) n cs else d a :: Mem.run d (a + 1) n (c :: cs)

/-- `n` bytes from `a` on. -/
def Mem.get (d : Nat → Byte) (m : Mem) (a n : Nat) : List Byte :=
  Mem.run d a n (m.filter fun c => decide (a ≤ c.1))

/-- What an unlisted byte of a region reads as. -/
def Region.dflt (r : Region) (a : Nat) : Byte :=
  match r.gen with
  | 0 => 0
  | k + 1 => Config.freeByte k a

/-- The byte at offset `a` of a region. -/
def Region.at (r : Region) (a : Nat) : Byte := Mem.at r.dflt r.cells a
/-- `n` bytes of a region. -/
def Region.get (r : Region) (a n : Nat) : List Byte := Mem.get r.dflt r.cells a n
/-- Write bytes into a region. -/
def Region.put (r : Region) (a : Nat) (bs : List Byte) : Region :=
  { r with cells := Mem.put (r.gen != 0) r.cells a bs }
/-- The little-endian number in `n` bytes of a region. -/
def Region.le (r : Region) (a n : Nat) : Nat := leOfBytes (r.get a n)
/-- A region holding `bs` from offset 0 and zero after it. -/
def Region.ofBytes (bs : List Byte) : Region := { gen := 0, cells := cellsOf false 0 bs }
/-- The region holds its canonical form. -/
def Region.wf (r : Region) : Bool := Memory.wf (r.gen != 0) r.cells

/-- `n` bytes of host memory at `a`. An address never written reads zero (log entry 4). -/
def State.hostGet (s : State) (a n : Nat) : List Byte := Mem.get (fun _ => 0) s.host a n
/-- Write host memory
(DESIGN CHOICE, log entry 4). -/
def State.hostPut (s : State) (a : Nat) (bs : List Byte) : State :=
  { s with host := Mem.put false s.host a bs }

/-- A free word: the n-th value drawn, and the state that has drawn it
(DESIGN CHOICE, log entry 5). -/
def State.drawWord (s : State) : Dword × State := (Config.freeWord s.free, { s with free := s.free + 1 })
/-- A free yes or no
(DESIGN CHOICE, log entry 5). -/
def State.drawBool (s : State) : Bool × State := (Config.freeBool s.free, { s with free := s.free + 1 })
/-- A region whose content the spec leaves undefined
(DESIGN CHOICE, log entry 5). -/
def State.drawRegion (s : State) : Region × State :=
  ({ gen := s.free + 1, cells := [] }, { s with free := s.free + 1 })

end Sys2Proof.Machine
end

