-- ==== Sys2Proof/Machine/Ops.lean ====
section
/-!
DEFINITION. Ops.lean: the named operations every family uses: parts of the state by number, fault numbers,
log pages and asynchronous events, completions, the start of a command, host transfers, counters.
-/

namespace Sys2Proof.Machine

/-- What a meaning answers. -/
abbrev Out := Host.Outcome State Fault Refusal

/-! ### Parts of the state by number -/

/-- Change element `i` of a list, when there is one. -/
def State.modCtrl (s : State) (fn : Nat) (f : Ctrl → Ctrl) : State :=
  { s with pcie := { s.pcie with ctrls := s.pcie.ctrls.modify fn f } }
/-- The controller of a function. -/
def State.ctrl (s : State) (fn : Nat) : Ctrl := s.pcie.ctrls.getD fn {}
/-- Tenant `n`. -/
def State.tenant (s : State) (n : Nat) : Tenant := s.tenants.getD n {}
/-- Change tenant `n`. -/
def State.modTenant (s : State) (n : Nat) (f : Tenant → Tenant) : State :=
  { s with tenants := s.tenants.modify n f }
/-- The STRUCTURE record of tenant `n` in the active personality. -/
def State.record (s : State) (n : Nat) : Option TenantRec := s.pers.active.tenants[n]?
/-- Engine queue `q`. -/
def State.queue (s : State) (q : Nat) : Queue := s.queues.getD q {}
/-- Change engine queue `q`. -/
def State.modQueue (s : State) (q : Nat) (f : Queue → Queue) : State :=
  { s with queues := s.queues.modify q f }
/-- Change the CLKPWR block. -/
def State.modPower (s : State) (f : Power → Power) : State := { s with power := f s.power }
/-- Change the personality block. -/
def State.modPers (s : State) (f : Pers → Pers) : State := { s with pers := f s.pers }
/-- Change the media block. -/
def State.modMedia (s : State) (f : Media → Media) : State := { s with media := f s.media }
/-- Change the peer block. -/
def State.modPeer (s : State) (f : Peer → Peer) : State := { s with peer := f s.peer }
/-- Change the service complex. -/
def State.modSvc (s : State) (f : Service → Service) : State := { s with svc := f s.svc }
/-- Change the PCIe block. -/
def State.modPcie (s : State) (f : Pcie → Pcie) : State := { s with pcie := f s.pcie }
/-- Change the protection block. -/
def State.modProt (s : State) (f : MemProt → MemProt) : State := { s with prot := f s.prot }

/-- Engines, spindles, filter slices and peer engines are clocked: phase P1 of the power-loss sequence gates them and
freezes every invocation (Table 02-1). -/
def State.engines (s : State) : Bool := s.power.stage == .on || s.power.stage == .detected

/-- A REGION_SHARES exchange of tenant `t` is in progress (R133, R134). -/
def State.sharesExchange (s : State) (t : Nat) : Bool :=
  match s.pers.job with
  | .shares _ u _ => u == t
  | _ => false

/-- A background event of a powered module; without power it does not happen
(DESIGN CHOICE, log entry 10). -/
def State.whenOn (s : State) (o : Out) : Out := if s.power.stage = .on then o else .next s
/-- A write that reaches a BAR window: the module is powered and no reset that reaches CORE is in progress (R619)
(DESIGN CHOICE, log entry 10; DEDUCED, log entry 25). -/
def State.whenOpen (s : State) (o : Out) : Out := if s.power.stage = .on ∧ s.power.perst = false then o else .next s

/-! ### Statuses and completions (R171, R191, R195) -/

/-- An NVMe completion status: code type, code, Do Not Retry. -/
structure Status where
  sct : Nat
  sc : Nat
  dnr : Bool
  deriving DecidableEq, Repr, Inhabited

/-- An NVMe-defined status. Its Do Not Retry bit is a free value; success carries none
(DESIGN CHOICE, log entry 11). -/
def Status.nvme (sct sc : Nat) : Status := { sct := sct, sc := sc, dnr := Config.dnr sct sc }
/-- A vendor status of Table 05-11: the listed codes are the ones with Do Not Retry 0. -/
def Status.vendor (sc : Nat) : Status :=
  { sct := 7, sc := sc, dnr := !([0x87, 0x89, 0x8B, 0x8C, 0x8D, 0x8F, 0x90, 0x95, 0x9A].contains sc) }

namespace Status
def success : Status := { sct := 0, sc := 0, dnr := false }
def invalidOpcode : Status := nvme 0 0x01
def invalidField : Status := nvme 0 0x02
def abortRequested : Status := nvme 0 0x07
def abortedSqDeletion : Status := nvme 0 0x08
def invalidNamespace : Status := nvme 0 0x0B
def sequenceError : Status := nvme 0 0x0C
def writeProtected : Status := nvme 0 0x20
def lbaRange : Status := nvme 0 0x80
def cqInvalid : Status := nvme 1 0x00
def invalidQueueId : Status := nvme 1 0x01
def invalidQueueSize : Status := nvme 1 0x02
def abortLimit : Status := nvme 1 0x03
def aerLimit : Status := nvme 1 0x05
def invalidFwSlot : Status := nvme 1 0x06
def invalidFwImage : Status := nvme 1 0x07
def invalidVector : Status := nvme 1 0x08
def invalidLogPage : Status := nvme 1 0x09
def invalidFormat : Status := nvme 1 0x0A
def invalidQueueDeletion : Status := nvme 1 0x0C
def notSaveable : Status := nvme 1 0x0D
def nsCapacity : Status := nvme 1 0x15
def nsIdUnavailable : Status := nvme 1 0x16
def nsAttached : Status := nvme 1 0x18
def nsNotAttached : Status := nvme 1 0x1A
def invalidCtrlList : Status := nvme 1 0x1C
def selfTestRunning : Status := nvme 1 0x1D
def writeFault : Status := nvme 2 0x80
def unrecoveredRead : Status := nvme 2 0x81
def reservationExceeded : Status := vendor 0x80
def modelNotAdmitted : Status := vendor 0x81
def batchMismatch : Status := vendor 0x82
def bufferNotOwned : Status := vendor 0x83
def bufferAlreadyFree : Status := vendor 0x84
def counterSaturated : Status := vendor 0x85
def spillExhausted : Status := vendor 0x86
def deferredWriteError : Status := vendor 0x87
def personalityRejected : Status := vendor 0x88
def regionQuiescing : Status := vendor 0x89
def runNotOpen : Status := vendor 0x8A
def indexPublishing : Status := vendor 0x8B
def peerUnreachable : Status := vendor 0x8C
def engineFault : Status := vendor 0x8D
def bufferBusy : Status := vendor 0x8F
def deadlineExceeded : Status := vendor 0x90
def uncorrectableMemory : Status := vendor 0x91
def mediaUnreadable : Status := vendor 0x92
def deadlineMissed : Status := vendor 0x93
def formatUnsupported : Status := vendor 0x94
def abortedByRecovery : Status := vendor 0x95
def imageTooLarge : Status := vendor 0x96
def tileBudget : Status := vendor 0x97
def directMediaProtected : Status := vendor 0x98
def counterOutOfRange : Status := vendor 0x99
def selfTestBusy : Status := vendor 0x9A
end Status

/-- The 16 bytes of a completion queue entry
(PRESUMED, log entry 13). -/
def Completion.bytes (c : Completion) (sqhd : Nat) (phase : Bool) : List Byte :=
  bytesOfLe 4 c.dw0.toNat ++ bytesOfLe 4 c.dw1.toNat
    ++ bytesOfLe 4 (sqhd + 65536 * c.sqid)
    ++ bytesOfLe 4 (c.cid + 65536 * (b2n phase + 2 * (c.sc + 256 * c.sct) + 32768 * b2n c.dnr))

/-- Post an MSI-X message, or leave its pending bit set while the vector is masked
(DESIGN CHOICE, log entry 14). -/
def State.interrupt (s : State) (fn vector : Nat) : State :=
  match (s.ctrl fn).msix[vector]? with
  | none => s
  | some e =>
    if e.masked then s.modCtrl fn fun c => { c with msixPending := vector :: c.msixPending.filter (· != vector) }
    else s.modPcie fun p => { p with messages := p.messages ++ [(e.addr, e.data)] }

/-- Write a completion at the tail of its queue in host memory, or hold it until the queue has room
(DESIGN CHOICE, log entries 14, 15). -/
def State.post (s : State) (c : Completion) : State :=
  let k := s.ctrl c.fn
  match k.sqs.find? (fun q => q.qid == c.sqid) with
  | none => s
  | some sq =>
    match k.cqs.find? (fun q => q.qid == sq.cqid) with
    | none => s
    | some cq =>
      if (cq.tail + 1) % cq.size = cq.head then
        s.modCtrl c.fn fun k => { k with unposted := k.unposted ++ [c] }
      else
        let s := s.hostPut (cq.base.toNat + 16 * cq.tail) (c.bytes sq.head cq.phase)
        let wrap := cq.tail + 1 == cq.size
        let s := s.modCtrl c.fn fun k => { k with cqs := k.cqs.map fun q =>
          if q.qid = cq.qid then
            { q with tail := if wrap then 0 else q.tail + 1, phase := if wrap then !q.phase else q.phase }
          else q }
        if cq.ien then s.interrupt c.fn cq.vector else s

/-- End a command: its completion is recorded and posted. A command the controller does not hold ends silently, and
after P0 of a power-loss sequence no completion is posted (R40)
(DEDUCED, log entry 101). -/
def State.complete (s : State) (r : CmdRef) (st : Status) (dw0 dw1 : Nat := 0) : State :=
  let held := (s.ctrl r.fn).outstanding.any fun o => o.cmd.ref == r
  if held && s.power.stage == .on then
    let c : Completion :=
      { fn := r.fn, sqid := r.sqid, cid := r.cid, sct := st.sct, sc := st.sc, dnr := st.dnr,
        dw0 := BitVec.ofNat 32 dw0, dw1 := BitVec.ofNat 32 dw1 }
    let ord := (s.ctrl r.fn).outstanding.any fun o => o.cmd.ref == r && o.cmd.ord
    let s := s.modCtrl r.fn fun k =>
      { k with outstanding := k.outstanding.filter (fun o => o.cmd.ref != r)
               aers := if r.sqid = 0 then k.aers.filter (· != r.cid) else k.aers }
    let s := s.modPcie fun p => { p with completions := p.completions ++ [c] }
    s.post { c with ord := ord }
  else s

/-! ### Asynchronous events and log pages (R191 to R193) -/

/-- Raise an event of log page `page` on a function. While the page is unread no further event of it is raised
(DEDUCED, log entry 17). -/
def State.raise (s : State) (fn : Nat) (e : Event) : State :=
  let k := s.ctrl fn
  if k.held.contains e.page then s
  else
    let s := s.modCtrl fn fun k => { k with held := k.held ++ [e.page] }
    match k.aers with
    | [] => s.modCtrl fn fun k => { k with waiting := k.waiting ++ [e] }
    | cid :: _ => s.complete { fn := fn, sqid := 0, cid := cid } .success (e.aet + 256 * e.info + 65536 * e.page)

/-- Raise the vendor event of a log page. -/
def State.raiseLog (s : State) (fn page : Nat) : State := s.raise fn { aet := 7, info := page, page := page }

/-- Raise an NVMe SMART / Health event when feature 0Bh enables it (type 1, page 02h)
(DEDUCED, log entry 17). -/
def State.raiseSmart (s : State) (fn info bitNo : Nat) : State :=
  if (s.ctrl fn).features.asyncCfg.getLsbD bitNo then s.raise fn { aet := 1, info := info, page := 2 } else s

/-- Entries that a vendor page retains (Table 05-9); the retirement list keeps every one. -/
def logCapacity : Nat → Option Nat
  | 0xC0 => some 1024
  | 0xC1 => some 4096
  | 0xC2 => some 4096
  | 0xC4 => some 1024
  | 0xC5 => some 2048
  | 0xC6 => some 1024
  | 0xC8 => some 256
  | _ => none

/-- A vendor page other than 0xC3. -/
def Logs.page (l : Logs) : Nat → LogPage
  | 0xC0 => l.c0
  | 0xC1 => l.c1
  | 0xC2 => l.c2
  | 0xC4 => l.c4
  | 0xC5 => l.c5
  | 0xC6 => l.c6
  | 0xC7 => l.c7
  | 0xC8 => l.c8
  | _ => {}

/-- Replace a vendor page. -/
def Logs.setPage (l : Logs) (n : Nat) (p : LogPage) : Logs :=
  match n with
  | 0xC0 => { l with c0 := p }
  | 0xC1 => { l with c1 := p }
  | 0xC2 => { l with c2 := p }
  | 0xC4 => { l with c4 := p }
  | 0xC5 => { l with c5 := p }
  | 0xC6 => { l with c6 := p }
  | 0xC7 => { l with c7 := p }
  | 0xC8 => { l with c8 := p }
  | _ => l

/-- Append an entry to a page; a full page loses its oldest entry. -/
def LogPage.add (p : LogPage) (cap : Option Nat) (time owner : Nat) (fault : Bool) (body : List Byte) : LogPage :=
  let e : LogEntry := { seq := p.nextSeq, time := time, owner := owner, fault := fault, body := body }
  let p := { p with nextSeq := p.nextSeq + 1, faults := p.faults + b2n fault }
  match cap, p.entries with
  | some c, old :: rest =>
    if p.entries.length ≥ c then
      { p with entries := rest ++ [e], lost := p.lost + 1,
               lostOf := if old.owner = 0 then p.lostOf else
                 (old.owner, ((p.lostOf.lookup old.owner).getD 0) + 1) :: p.lostOf.filter (·.1 != old.owner) }
    else { p with entries := p.entries ++ [e] }
  | _, _ => { p with entries := p.entries ++ [e] }

/-- Write a log entry and raise its event on PF0, and on the owning function when there is one
(DEDUCED, log entry 17). -/
def State.log (s : State) (page : Nat) (body : List Byte) (fault : Bool := false) (owner : Nat := 0)
    (event : Bool := true) : State :=
  let p := (s.logs.page page).add (logCapacity page) s.now owner fault body
  let s := { s with logs := s.logs.setPage page p }
  let s := if event then s.raiseLog 0 page else s
  if event && owner != 0 then s.raiseLog owner page else s

/-- A new fault number: from 1 upward, wrapping to 1, never 0 (R190). -/
def State.newFault (s : State) : Nat × State :=
  let n := if s.logs.faultNo ≥ 0xFFFFFFFF then 1 else s.logs.faultNo + 1
  (n, { s with logs := { s.logs with faultNo := n } })

/-- The fields of a module health log entry (Table 19-9). -/
structure Health where
  event : Nat
  status : Nat := 0
  reason : Nat := 0
  tenant : Nat := 0xFF
  faultNo : Nat := 0
  tag : Nat := 0
  queue : Nat := 0xFF
  word : Nat := 0xFFFFFFFF
  detail : List Byte := []
  deriving DecidableEq, Repr, Inhabited

/-- `l` cut or filled with zeros to `n` bytes. -/
def padTo (n : Nat) (l : List Byte) : List Byte := l.take n ++ List.replicate (n - l.length) 0

/-- Bytes 0x10 to 0x3F of a health entry. -/
def Health.body (h : Health) : List Byte :=
  bytesOfLe 1 h.event ++ bytesOfLe 1 h.status ++ bytesOfLe 1 h.reason ++ bytesOfLe 1 h.tenant
    ++ bytesOfLe 4 h.faultNo ++ bytesOfLe 2 h.tag ++ bytesOfLe 1 h.queue ++ [0]
    ++ bytesOfLe 4 h.word ++ padTo 16 h.detail ++ List.replicate 16 0

/-- Does a health entry count as the finding entry of a fault (R613)? -/
def Health.counts (h : Health) : Bool :=
  h.event == 0x03 || (h.event == 0x01 && decide (1 ≤ h.reason) && decide (h.reason ≤ 0x0A))

/-- Write a module health log entry (R612, R613). -/
def State.health (s : State) (h : Health) : State := s.log 0xC0 h.body (fault := h.counts)

/-! ### Starting a command (R157, R158, R164, R170, R177) -/

/-- What kind of command a row takes, and which functions and queues may send it (Table 05-5). -/
inductive CmdKind where
  | admin        -- every function's admin queue
  | adminOwner   -- PF0's admin queue
  | nvm          -- a storage queue
  | compute      -- a compute queue
  deriving DecidableEq, Repr, Inhabited

/-- Commands of the same queue fetched before `c` and not yet completed. -/
def Ctrl.earlier (k : Ctrl) (c : Cmd) : List Outstanding :=
  (k.outstanding.takeWhile fun o => o.cmd.ref != c.ref).filter fun o => o.cmd.sqid == c.sqid

/-- The command starts: `none` while the controller is not ready or has been shut down, fetching has stopped before it was fetched (R38,
R59), the command has started already, its identifier is that of another command the controller holds, `ORD` makes it wait, or an activation runs (R120). A command that was never fetched through `COMMAND_FETCH` counts as fetched now
(DESIGN CHOICE, log entry 10; DEDUCED, log entry 16). -/
def State.begin (s : State) (c : Cmd) : Option State :=
  let k := s.ctrl c.fn
  let known := k.outstanding.find? fun o => o.cmd.ref == c.ref
  let compute := k.sqs.any fun q => q.qid == c.sqid && q.compute
  let activating := match s.pers.job with
    | .activate _ => true
    | _ => false
  let parked := k.unposted.filter (·.sqid == c.sqid)
  let waits := (c.ord && !((k.earlier c).isEmpty && parked.isEmpty)) || ((k.earlier c).any fun o => o.cmd.ord)
    || (parked.any (·.ord)) || (activating && c.sqid != 0 && (c.fn == 0 || compute))
  if !k.ready || k.shst != 0 || s.power.stage != .on || (s.pcie.fetchStopped && known.isNone)
      || !(k.sqs.any fun q => q.qid == c.sqid) || (c.sqid == 0 && k.aers.contains c.cid) || waits then none
  else match known with
    | some o =>
      if o.started || o.cmd != c then none
      else some (s.modCtrl c.fn fun k => { k with outstanding := k.outstanding.map fun o =>
        if o.cmd.ref = c.ref then { o with started := true } else o })
    | none => some (s.modCtrl c.fn fun k => { k with outstanding := k.outstanding ++
        [{ cmd := c, fetchedAt := s.now, started := true, deferredSeen := s.logs.deferredNext - 1,
           blocksSeen := s.media.nextBlock }] })

/-- A started command waits after all: it may start again later. -/
def State.unbegin (s : State) (r : CmdRef) : State :=
  s.modCtrl r.fn fun k => { k with outstanding := k.outstanding.map fun o =>
    if o.cmd.ref = r then { o with started := false } else o }

/-- When the front end fetched a command. -/
def State.fetchedAt (s : State) (r : CmdRef) : Nat :=
  match (s.ctrl r.fn).outstanding.find? (fun o => o.cmd.ref == r) with
  | some o => o.fetchedAt
  | none => s.now

/-- How many write-buffer blocks had arrived when the front end fetched a command (R183). -/
def State.blocksSeen (s : State) (r : CmdRef) : Nat :=
  match (s.ctrl r.fn).outstanding.find? (fun o => o.cmd.ref == r) with
  | some o => o.blocksSeen
  | none => s.media.nextBlock

/-- The oldest unread deferred entry that gates the namespace a command names (R177, R178)
(DEDUCED, log entry 108). -/
def State.gatedBy (s : State) (c : Cmd) : Option Deferred :=
  let seen := match (s.ctrl c.fn).outstanding.find? (fun o => o.cmd.ref == c.ref) with
    | some o => o.deferredSeen
    | none => s.logs.deferredNext - 1
  s.logs.deferred.find? fun d => d.fn == c.fn && !d.readByOwner
    && (d.nsid == c.nsid.toNat || c.nsid == 0xFFFFFFFF) && decide (d.seq ≤ seen)

/-- Mark a deferred entry as carried by a command (R177). -/
def State.carry (s : State) (d : Deferred) (r : CmdRef) : State :=
  { s with logs := { s.logs with deferred := s.logs.deferred.map fun e =>
      if e.seq = d.seq && !e.carried then { e with carried := true, carrierCid := r.cid, carrierSqid := r.sqid }
      else e } }

/-- The admin opcodes that the ROM recovery controller accepts (R587), the log page in [7:0] of CDW10
(DEDUCED, log entry 31). -/
def romAccepts (c : Cmd) : Bool :=
  c.opcode == 0x06 || c.opcode == 0x11
    || (c.opcode == 0x02 && (bits c.cdw10.toNat 7 0 == 0x03 || bits c.cdw10.toNat 7 0 == 0xC0))
    || (c.opcode == 0x10 && (bits c.cdw10.toNat 5 3 == 0 || bits c.cdw10.toNat 5 3 == 1))

/-- The status with which a command ends before its own checks, if any: FUSE (R158), PSDT (`SGLS` 0: PRPs only), and the
opcode rules (R157, R164, R587)
(DEDUCED, log entry 16). -/
def State.refusal (s : State) (c : Cmd) (kind : CmdKind) : Option Status :=
  let compute := (s.ctrl c.fn).sqs.any fun q => q.qid == c.sqid && q.compute
  if bits c.cdw0.toNat 9 8 ≠ 0 || bits c.cdw0.toNat 15 14 ≠ 0 then some .invalidField
  else if s.svc.runSlot = 2 && !romAccepts c then some .invalidOpcode
  else match kind with
    | .admin => if c.sqid = 0 then none else some .invalidOpcode
    | .adminOwner => if c.sqid = 0 && c.fn = 0 then none else some .invalidOpcode
    | .nvm => if c.sqid ≠ 0 && !compute then none else some .invalidOpcode
    | .compute => if c.sqid ≠ 0 && compute then none else some .invalidOpcode

/-- Run a command: it waits, or ends with a status of its own kind, or has the effect `f`. -/
def State.command (s : State) (c : Cmd) (kind : CmdKind) (f : State → State) : Out :=
  match s.begin c with
  | none => .next s
  | some s1 =>
    match s1.refusal c kind with
    | some st => .next (s1.complete c.ref st)
    | none =>
      if kind = .nvm then
        match s1.gatedBy c with
        | some d => .next ((s1.carry d c.ref).complete c.ref .deferredWriteError (d.seq % 2 ^ 32))
        | none => .next (f s1)
      else .next (f s1)

/-- Does the data direction of an opcode move data (bits [1:0])? -/
def Cmd.hasData (c : Cmd) : Bool := c.opcode % 4 != 0

/-- The common checks of a vendor I/O command up to step 2 (R198, R199), with the functions that may send it
(DEDUCED, log entry 54). -/
def State.vendorRefusal (s : State) (c : Cmd) (owner : Bool) : Option Status :=
  let compute := (s.ctrl c.fn).sqs.any fun q => q.qid == c.sqid && q.compute
  if bits c.cdw0.toNat 9 8 ≠ 0 || bits c.cdw0.toNat 15 14 ≠ 0 then some .invalidField
  else if s.svc.runSlot = 2 || c.sqid = 0 || !compute then some .invalidOpcode
  else if owner && c.fn ≠ 0 then some .directMediaProtected
  else if !owner && c.fn = 0 then some .invalidOpcode
  else if c.nsid ≠ 0 then some .invalidField
  else none

/-- Run a vendor I/O command: it waits, ends at a common check, or has the effect `f`. `early` holds the checks of
steps 3 to 5 that depend on the command; `needsRun` is step 6. -/
def State.vendor (s : State) (c : Cmd) (owner needsRun : Bool) (early : State → Option Status)
    (f : State → State) : Out :=
  match s.begin c with
  | none => .next s
  | some s1 =>
    match (s1.vendorRefusal c owner).or (early s1) with
    | some st => .next (s1.complete c.ref st)
    | none =>
      if needsRun && !(s1.tenant (c.fn - 1)).runOpen then .next (s1.complete c.ref .runNotOpen)
      else .next (f s1)

/-! ### Data transfers (R156: PRPs only, 4 KiB pages) -/

/-- The pages a PRP list at `a` names, for `left` bytes more. -/
def prpPages (s : State) : Nat → Nat → Nat → List (Nat × Nat)
  | 0, _, _ => []
  | f + 1, a, left =>
    if left = 0 then []
    else
      let e := leOfBytes (s.hostGet a 8)
      if a % 4096 = 4088 ∧ left > 4096 then prpPages s f e left
      else (e / 4096 * 4096, min left 4096) :: prpPages s f (a + 8) (left - 4096)

/-- The host memory pieces of `len` bytes that two PRP entries name
(PRESUMED, log entry 13). -/
def State.prps (s : State) (prp1 prp2 : Qword) (len : Nat) : List (Nat × Nat) :=
  let first := min len (4096 - prp1.toNat % 4096)
  let left := len - first
  (prp1.toNat, first) ::
    (if left = 0 then []
     else if left ≤ 4096 then [(prp2.toNat, left)]
     else prpPages s (2 * (left / 4096) + 8) prp2.toNat left)

/-- The part of consecutive pieces from byte `off` on, `n` bytes long. -/
def cutPieces : List (Nat × Nat) → Nat → Nat → List (Nat × Nat)
  | [], _, _ => []
  | (a, len) :: ps, off, n =>
    if n = 0 then []
    else if off ≥ len then cutPieces ps (off - len) n
    else
      let k := min n (len - off)
      (a + off, k) :: cutPieces ps 0 (n - k)

/-- Read `n` bytes from byte `off` on of a data buffer of `total` bytes. -/
def State.bufferGet (s : State) (prp1 prp2 : Qword) (total off n : Nat) : List Byte :=
  (cutPieces (s.prps prp1 prp2 total) off n).flatMap fun p => s.hostGet p.1 p.2

/-- Read `len` bytes of a command's data from host memory. -/
def State.dataIn (s : State) (prp1 prp2 : Qword) (len : Nat) : List Byte :=
  (s.prps prp1 prp2 len).flatMap fun p => s.hostGet p.1 p.2

/-- Write `bs` over consecutive pieces of host memory. -/
def State.putPieces (s : State) : List (Nat × Nat) → List Byte → State
  | [], _ => s
  | (a, n) :: ps, bs => (s.hostPut a (bs.take n)).putPieces ps (bs.drop n)

/-- The Relaxed Ordering attribute of a write of data for a function: set where its Device Control register enables it
(R148). Completion queue entries and MSI-X messages never carry it. -/
def State.relax (s : State) (fn : Nat) : State :=
  s.modPcie fun p => { p with dataRelaxed :=
    let m := BitVec.ofNat 17 (2 ^ fn)
    if (p.config.getD fn {}).relaxed then p.dataRelaxed ||| m else p.dataRelaxed &&& ~~~m }

/-- Write bytes from byte `off` on of a data buffer of `total` bytes, for a function. -/
def State.bufferPut (s : State) (fn : Nat) (prp1 prp2 : Qword) (total off : Nat) (bs : List Byte) : State :=
  (s.relax fn).putPieces (cutPieces (s.prps prp1 prp2 total) off bs.length) bs

/-- Write a command's data to host memory. -/
def State.dataOut (s : State) (fn : Nat) (prp1 prp2 : Qword) (bs : List Byte) : State :=
  (s.relax fn).putPieces (s.prps prp1 prp2 bs.length) bs

end Sys2Proof.Machine
end

