-- ==== Sys2Proof/Machine/Rs.lean ====
section
/-!
DEFINITION. Rs.lean: the die-spread code of a DRAM block: symbols, the Reed-Solomon code over GF(2^16), check symbols, and the
poison pattern (R521, R522, R528).
-/

namespace Sys2Proof.Machine

/-! ### GF(2^16) with the polynomial 0x1100B (R522) -/

/-- Product in GF(2^16). -/
def gf16Mul (a b : Nat) : Nat :=
  (List.range 16).foldl (fun (p : Nat × Nat) i =>
    let acc := if b.testBit i then p.1 ^^^ p.2 else p.1
    let x := 2 * p.2
    (acc, if x ≥ 65536 then x ^^^ 0x1100B else x)) (0, a) |>.1
/-- The primitive element α = x to the power `n`. -/
def gf16Alpha : Nat → Nat
  | 0 => 1
  | n + 1 => gf16Mul 2 (gf16Alpha n)

/-! ### The code (R522): polynomials as coefficients, the highest power first -/

/-- A polynomial times x - r. -/
def timesLinear (p : List Nat) (r : Nat) : List Nat := List.zipWith (· ^^^ ·) (p ++ [0]) (0 :: p.map (gf16Mul r))
/-- g(x) = (x - α)(x - α^2)…(x - α^32). -/
def rsGenerator : List Nat := (List.range 32).foldl (fun p i => timesLinear p (gf16Alpha (i + 1))) [1]
/-- One step of the division by g(x): the next symbol of D(x), high to low, into a remainder of 32 symbols. -/
def rsStep (g : List Nat) (r : List Nat) (d : Nat) : List Nat :=
  let q := d ^^^ r.headD 0
  let shifted := r.tail ++ [0]
  if q = 0 then shifted else List.zipWith (· ^^^ ·) shifted (g.map (gf16Mul q))
/-- The remainder of D(x) · x^32 divided by g(x), for the symbols of D(x) from x^255 down. -/
def rsCheck (data : List Nat) : List Nat := data.foldl (rsStep rsGenerator.tail) (List.replicate 32 0)
/-- The value of a polynomial at a point. -/
def rsAt (p : List Nat) (x : Nat) : Nat := p.foldl (fun acc c => gf16Mul acc x ^^^ c) 0

/-! ### Blocks (R521, R528) -/

/-- Bytes as symbols, two to a symbol, little-endian. -/
def symbolsOf : List Byte → List Nat
  | a :: b :: l => (a.toNat + 256 * b.toNat) :: symbolsOf l
  | _ => []
/-- The 288 symbols that store a block's 512 data bytes. -/
def blockWord (data : List Byte) : List Nat :=
  let d := symbolsOf data
  d ++ rsCheck d
/-- The 32 bytes that die `d` holds of a codeword, in one of its pseudo-channels. -/
def dieBytes (word : List Nat) (d : Nat) : List Byte := ((word.drop (16 * d)).take 16).flatMap (bytesOfLe 2)
/-- The data of a poisoned block: its fault number, then zeros. -/
def poisonData (faultNo : Nat) : List Byte := bytesOfLe 4 faultNo ++ List.replicate 508 0
/-- The codeword of a poisoned block: symbol 256 is inverted in every bit. -/
def poisonWord (faultNo : Nat) : List Nat := (blockWord (poisonData faultNo)).modify 256 (· ^^^ 0xFFFF)
/-- The fault number of a word that the decoder recognises as poison. -/
def poisonOf (word : List Nat) : Option Nat :=
  let f := word.getD 0 0 + 65536 * word.getD 1 0
  if word = poisonWord f then some f else none

end Sys2Proof.Machine
end

