-- ==== Sys2Proof/Machine/Flash.lean ====
section
/-!
DEFINITION. Flash.lean: the flash's geometry, superblocks and stripes, parity and rebuild, page content, the order
of operations on a die with suspension, and the media error log (chapters 15 and 16).
-/

namespace Sys2Proof.Machine

/-! ### Geometry (Tables 15-1 and 16-1) -/

/-- Dies per channel. -/
def State.diesPerChannel (s : State) : Nat := if s.big then 32 else 16
/-- Pages per block, the rows of a superblock. -/
def State.pagesPerBlock (s : State) : Nat := if s.big then 2048 else 1024
/-- Stripe sets per group. -/
def State.setsPerGroup (s : State) : Nat := if s.big then 16 else 8
/-- Die `d` of channel `c`. -/
def State.die (s : State) (c d : Nat) : Die := s.media.dies.getD (32 * c + d) {}
/-- Change a die. -/
def State.modDie (s : State) (c d : Nat) (f : Die → Die) : State :=
  s.modMedia fun m => { m with dies := m.dies.modify (32 * c + d) f }
/-- Channel `c`. -/
def State.channel (s : State) (c : Nat) : Channel := s.media.channels.getD c {}
/-- Change a channel. -/
def State.modChannel (s : State) (c : Nat) (f : Channel → Channel) : State :=
  s.modMedia fun m => { m with channels := m.channels.modify c f }
/-- Change a channel group. -/
def State.modGroup (s : State) (g : Nat) (f : Group → Group) : State :=
  s.modMedia fun m => { m with groups := m.groups.modify g f }
/-- The role of channel group `g` in the active structure. -/
def State.role (s : State) (g : Nat) : Option Role := s.pers.active.groupRole[g]?

/-- Channel and die of slot `k` of stripe set `j` of group `g` (R486). -/
def slotPlace (g j k : Nat) : Nat × Nat := (8 * g + k % 8, 2 * j + k / 8)
/-- A die that is not retired, on a channel that is not isolated (R486). -/
def State.dieLive (s : State) (c d : Nat) : Bool := !(s.die c d).retired && !(s.channel c).isolated
/-- Live slots of a stripe set, ascending. -/
def State.liveSlots (s : State) (g j : Nat) : List Nat :=
  (List.range 16).filter fun k => let p := slotPlace g j k; s.dieLive p.1 p.2
/-- Data slots of a row at `n` live slots: two hold parity. -/
def dataSlots (n : Nat) : Nat := n - 2

/-- The superblock of a number. -/
def State.superblock (s : State) (id : Nat) : Option Superblock := s.media.superblocks.find? (·.id == id)
/-- Change a superblock. -/
def State.modSuperblock (s : State) (id : Nat) (f : Superblock → Superblock) : State :=
  s.modMedia fun m => { m with superblocks := m.superblocks.map fun b => if b.id = id then f b else b }

/-- Data slots d of a superblock. -/
def Superblock.d (b : Superblock) : Nat := dataSlots b.slots.length
/-- The parity slots of row `p` (R488): P, then Q. -/
def Superblock.parity (b : Superblock) (p : Nat) : Nat × Nat :=
  let n := b.slots.length
  (b.slots.getD (2 * p % n) 0, b.slots.getD ((2 * p + 1) % n) 0)
/-- The data slots of row `p`, ascending. -/
def Superblock.data (b : Superblock) (p : Nat) : List Nat :=
  let q := b.parity p
  b.slots.filter fun k => k != q.1 && k != q.2
/-- Row, slot and plane of data page `q` (R488). -/
def Superblock.locate (b : Superblock) (q : Nat) : Nat × Nat × Nat :=
  let row := q / (4 * b.d)
  let r := q % (4 * b.d)
  (row, (b.data row).getD (r % b.d) 0, r / b.d)
/-- The page address of a slot, plane and row of a superblock. -/
def Superblock.page (b : Superblock) (slot plane row : Nat) : PageAddr :=
  let p := slotPlace b.group b.set slot
  { channel := p.1, die := p.2, plane := plane,
    block := b.blocks.getD (4 * b.slots.idxOf slot + plane) 0, page := row }

/-! ### Page content: codewords, parity, rebuild (R452, R489, R490) -/

/-- A codeword as the die holds it: 4,096 data bytes and 512 parity bytes
(DESIGN CHOICE, log entry 71). -/
def encodeCodeword (bs : List Byte) : List Byte :=
  let v := leOfBytes bs
  bs ++ (List.range 512).map (Config.ldpcParity v)
/-- A page of 16,384 data bytes as the die holds it
(DESIGN CHOICE, log entry 71). -/
def encodePage (bs : List Byte) : Region :=
  Region.ofBytes ((List.range 4).flatMap fun w => encodeCodeword ((bs.drop (4096 * w)).take 4096))
/-- The 4,096 data bytes of codeword `w`. -/
def FlashPage.codeword (p : FlashPage) (w : Nat) : List Byte := p.raw.get (4608 * w) 4096
/-- A programmed page. -/
def State.flashPage (s : State) (a : PageAddr) : Option FlashPage := s.media.pages.find? (·.addr == a)
/-- The 16,384 data bytes of a page that decodes on a live die. -/
def State.pageData (s : State) (a : PageAddr) : Option (List Byte) :=
  match s.flashPage a with
  | some p => if p.bad || !s.dieLive a.channel a.die then none else some ((List.range 4).flatMap p.codeword)
  | none => none
/-- The bytes the die holds: an erased page reads 0xFF. -/
def State.pageRaw (s : State) (a : PageAddr) : List Byte :=
  match s.flashPage a with
  | some p => p.raw.get 0 18432
  | none => List.replicate 18432 0xFF

/-- Product in GF(2^8) with polynomial 0x11D. -/
def gf8Mul (a b : Nat) : Nat :=
  (List.range 8).foldl (fun (p : Nat × Nat) i =>
    let acc := if b.testBit i then p.1 ^^^ p.2 else p.1
    let x := 2 * p.2
    (acc, if x ≥ 256 then x ^^^ 0x11D else x)) (0, a) |>.1
/-- `a` to the power `n` in GF(2^8). -/
def gf8Pow (a : Nat) : Nat → Nat
  | 0 => 1
  | n + 1 => gf8Mul a (gf8Pow a n)
/-- Inverse in GF(2^8). -/
def gf8Inv (a : Nat) : Nat := gf8Pow a 254

/-- P and Q of one byte position over the data slots (R489). -/
def parityByte (d : List Nat) : Nat × Nat :=
  (d.foldl (· ^^^ ·) 0,
   (d.zipIdx.foldl (fun acc x => acc ^^^ gf8Mul (gf8Pow 2 x.2) x.1) 0))

/-- Byte of data slot `i` from the other members of its row; `none` beyond two erasures (R490). -/
def rebuildByte (i : Nat) (d : List (Option Nat)) (p q : Option Nat) : Option Nat :=
  let known := (d.zipIdx.filter fun x => x.2 != i)
  let lost := known.filter fun x => x.1 == none
  let px := known.foldl (fun acc x => acc ^^^ x.1.getD 0) (p.getD 0)
  let qx := known.foldl (fun acc x => acc ^^^ gf8Mul (gf8Pow 2 x.2) (x.1.getD 0)) (q.getD 0)
  match lost, p, q with
  | [], some _, _ => some px
  | [], none, some _ => some (gf8Mul qx (gf8Inv (gf8Pow 2 i)))
  | [x], some _, some _ =>
    let gi := gf8Pow 2 i
    let gj := gf8Pow 2 x.2
    some (gf8Mul (qx ^^^ gf8Mul gj px) (gf8Inv (gi ^^^ gj)))
  | _, _, _ => none

/-- `l` seen column by column: byte `b` of every member. -/
def column (l : List (Option (List Byte))) (b : Nat) : List (Option Nat) :=
  l.map fun o => o.map fun bs => (bs.getD b 0).toNat

/-- Rebuild the data of a slot and plane of a row from the other members, those of `erased` apart: an erasure each. -/
def State.rebuild (s : State) (b : Superblock) (slot plane row : Nat) (erased : List PageAddr := []) : Option (List Byte) :=
  let member (k : Nat) : Option (List Byte) :=
    if k = slot || erased.contains (b.page k plane row) then none else s.pageData (b.page k plane row)
  let ds := (b.data row).map member
  let q := b.parity row
  let pd := member q.1
  let qd := member q.2
  let i := (b.data row).idxOf slot
  (List.range 16384).mapM fun k =>
    (rebuildByte i (column ds k) (pd.map fun l => (l.getD k 0).toNat) (qd.map fun l => (l.getD k 0).toNat)).map
      (BitVec.ofNat 8)

/-- The content of data page `q` of a superblock: as the die holds it, or rebuilt. -/
def State.content (s : State) (sb q : Nat) : Option (List Byte) :=
  match s.superblock sb with
  | none => none
  | some b =>
    let l := b.locate q
    match s.pageData (b.page l.2.1 l.2.2 l.1) with
    | some bs => some bs
    | none => s.rebuild b l.2.1 l.2.2 l.1

/-- Parity pages P and Q of one plane of a row from its data pages, padding read as zero. -/
def parityPages (d : List (List Byte)) : List Byte × List Byte :=
  let pq := (List.range 16384).map fun k => parityByte (d.map fun l => (l.getD k 0).toNat)
  (pq.map fun x => BitVec.ofNat 8 x.1, pq.map fun x => BitVec.ofNat 8 x.2)

/-! ### The media error log (Table 16-5) -/

/-- The fields of a media error log entry. -/
structure MediaEntry where
  kind : Nat
  outcome : Nat := 0
  group : Nat := 0
  channel : Nat := 0xFF
  die : Nat := 0xFF
  plane : Nat := 0xFF
  block : Nat := 0
  page : Nat := 0
  codeword : Nat := 0xFF
  retrySet : Nat := 0
  faultNo : Nat := 0
  detail : Nat := 0
  count : Nat := 0
  deriving DecidableEq, Repr, Inhabited

/-- Bytes 0x10 to 0x3F of a media error log entry. -/
def MediaEntry.body (e : MediaEntry) : List Byte :=
  bytesOfLe 1 e.kind ++ bytesOfLe 1 e.outcome ++ bytesOfLe 1 e.group ++ bytesOfLe 1 e.channel
    ++ bytesOfLe 1 e.die ++ bytesOfLe 1 e.plane ++ bytesOfLe 2 e.block ++ bytesOfLe 2 e.page
    ++ bytesOfLe 1 e.codeword ++ bytesOfLe 1 e.retrySet ++ bytesOfLe 4 e.faultNo
    ++ bytesOfLe 8 e.detail ++ bytesOfLe 4 e.count ++ List.replicate 20 0

/-- Write a media error log entry; an entry with a fault number found the fault (R519), but where another entry did. -/
def State.mediaLog (s : State) (e : MediaEntry) (fault : Bool := e.faultNo != 0) : State :=
  s.log 0xC2 e.body (fault := fault)

/-- A retirement list entry (Table 17-9) in log page 0xC7. -/
def State.retireLog (s : State) (kind cause faultNo unit die plane index detail : Nat) : State :=
  s.log 0xC7 (bytesOfLe 1 kind ++ bytesOfLe 1 cause ++ [0, 0] ++ bytesOfLe 4 faultNo ++ bytesOfLe 1 unit
    ++ bytesOfLe 1 die ++ bytesOfLe 1 plane ++ [0] ++ bytesOfLe 2 index ++ bytesOfLe 2 detail)

/-- Set a SMART Critical Warning bit; a bit that was clear raises its event on PF0. -/
def State.warn (s : State) (bitNo : Nat) (info : Nat) : State :=
  if s.pcie.criticalWarning.getLsbD bitNo then s
  else (s.modPcie fun p => { p with criticalWarning := p.criticalWarning ||| BitVec.ofNat 8 (2 ^ bitNo) }).raiseSmart
    0 info bitNo

/-! ### Blocks: free, used, retired (R487, R507, R511) -/

/-- A block that is not retired, factory bad blocks included (R455, R511). -/
def State.blockGood (s : State) (a : BlockAddr) : Bool :=
  !(s.die a.channel a.die).retired && !s.media.retiredBlocks.contains a
/-- Blocks 0 and 1 of each die-plane of stripe set 0 hold the metadata superblocks of the group (R495)
(DESIGN CHOICE, log entry 73). -/
def metadataBlock (a : BlockAddr) : Bool := decide (a.die < 2) && decide (a.block < 2)
/-- The superblock that holds a block. -/
def State.holderOf (s : State) (a : BlockAddr) : Option Superblock :=
  s.media.superblocks.find? fun b => b.slots.any fun k =>
    slotPlace b.group b.set k == (a.channel, a.die)
      && b.blocks.getD (4 * b.slots.idxOf k + a.plane) 0 == a.block
/-- Free blocks of a die-plane, ascending. -/
def State.freeBlocks (s : State) (c d plane : Nat) : List Nat :=
  (List.range 2048).filter fun b =>
    let a : BlockAddr := { channel := c, die := d, plane := plane, block := b }
    s.blockGood a && !metadataBlock a && (s.holderOf a).isNone
/-- Program/erase cycles of a block. -/
def State.cyclesOf (s : State) (a : BlockAddr) : Nat := (s.media.cycles.lookup a).getD 0
/-- Count an erase of a block. -/
def State.addCycle (s : State) (a : BlockAddr) : State :=
  s.modMedia fun m => { m with cycles :=
    (a, (m.cycles.lookup a).getD 0 + 1) :: m.cycles.filter fun x => x.1 != a }

/-- The element with the least (or most) key, the first of equals. -/
def pickBy {α : Type} (key : α → Nat) (most : Bool) : List α → Option α
  | [] => none
  | x :: xs =>
    match pickBy key most xs with
    | none => some x
    | some y => if most then (if key x ≥ key y then some x else some y)
                else (if key x ≤ key y then some x else some y)

/-- The blocks a new superblock takes, one for each live slot and plane (R507). -/
def State.chooseBlocks (s : State) (g j : Nat) (slots : List Nat) (most : Bool) : Option (List Nat) :=
  (slots.flatMap fun k => (List.range 4).map fun p => (k, p)).mapM fun x =>
    let c := slotPlace g j x.1
    pickBy (fun b => s.cyclesOf { channel := c.1, die := c.2, plane := x.2, block := b }) most
      (s.freeBlocks c.1 c.2 x.2)

/-- Open a superblock of a set with at least 8 live slots (R487, R507). -/
def State.openSuperblock (s : State) (g j : Nat) (use : SbUse) (most : Bool) : Option (Superblock × State) :=
  let slots := s.liveSlots g j
  if slots.length < 8 then none
  else match s.chooseBlocks g j slots most with
    | none => none
    | some bs =>
      let b : Superblock :=
        { id := s.media.nextSuperblock, group := g, set := j, use := use, slots := slots, blocks := bs }
      some (b, s.modMedia fun m =>
        { m with superblocks := m.superblocks ++ [b], nextSuperblock := m.nextSuperblock + 1 })

/-- Retire a block: it never returns to a free list (R511). -/
def State.retireBlock (s : State) (a : BlockAddr) (cause faultNo : Nat) : State :=
  if s.media.retiredBlocks.contains a then s
  else
    let s := s.modMedia fun m => { m with retiredBlocks := m.retiredBlocks ++ [a] }
    let s := s.retireLog 2 cause faultNo a.channel a.die a.plane a.block 0
    s.mediaLog { kind := 8, group := a.channel / 8, channel := a.channel, die := a.die, plane := a.plane,
                 block := a.block, faultNo := faultNo, count := 1 } (fault := false)

/-! ### Capacity, free level, read-only state (R504, R515) -/

/-- Good blocks of a die-plane. -/
def State.goodOfPlane (s : State) (c d p : Nat) : Nat :=
  if (s.die c d).retired then 0
  else 2048 - (s.media.retiredBlocks.filter fun a => a.channel == c && a.die == d && a.plane == p).length
/-- Channels and dies of a group. -/
def State.groupDies (s : State) (g : Nat) : List (Nat × Nat) :=
  (List.range 8).flatMap fun c => (List.range s.diesPerChannel).map fun d => (8 * g + c, d)
/-- Good blocks of a group. -/
def State.goodBlocks (s : State) (g : Nat) : Nat :=
  (s.groupDies g).foldl (fun acc x => acc + ((List.range 4).foldl (fun a p => a + s.goodOfPlane x.1 x.2 p) 0)) 0
/-- Blocks of a group's superblocks and metadata on dies that are not retired. -/
def State.usedBlocks (s : State) (g : Nat) : Nat :=
  ((s.media.superblocks.filter (·.group == g)).foldl (fun acc b =>
    acc + 4 * (b.slots.filter fun k => let c := slotPlace g b.set k; !(s.die c.1 c.2).retired).length) 0)
    + 8 * ((s.groupDies g).filter fun x => decide (x.2 < 2) && !(s.die x.1 x.2).retired).length
/-- Free level F in per mille of the good blocks (R504). -/
def State.freeLevel (s : State) (g : Nat) : Nat :=
  let good := s.goodBlocks g
  if good = 0 then 0 else (good - s.usedBlocks g) * 1000 / good
/-- Bytes of data per superblock at `d` data slots. -/
def State.superblockBytes (s : State) (d : Nat) : Nat := 65536 * d * s.pagesPerBlock
/-- Good data capacity of a group in bytes (R515). -/
def State.goodCapacity (s : State) (g : Nat) : Nat :=
  (List.range s.setsPerGroup).foldl (fun acc j =>
    let slots := s.liveSlots g j
    if slots.length < 8 then acc
    else
      let fewest := (slots.flatMap fun k => (List.range 4).map fun p =>
        let c := slotPlace g j k; s.goodOfPlane c.1 c.2 p).foldl min 2048
      acc + fewest * s.superblockBytes (dataSlots slots.length)) 0
/-- The group that holds a function's shadows: the first LOG group of its mask (R321). -/
def State.logGroupsOf (s : State) (fn : Nat) : List Nat :=
  (List.range 4).filter fun g => s.role g == some .log &&
    (fn == 0 || match s.record (fn - 1) with
      | some r => r.groupMask.getLsbD (4 + g)
      | none => false)
/-- Committed capacity of a group in bytes (R515). -/
def State.committed (s : State) (g : Nat) : Nat :=
  match s.role g with
  | some .log =>
    ((s.media.namespaces.filter (·.group == g)).foldl (fun acc n => acc + 4096 * n.blocks) 0)
      + (s.tenants.foldl (fun acc t => acc + (t.buffers.filter fun b =>
          b.placement == .writeback && b.shadowGroup == g).foldl (fun a b => a + b.size) 0) 0)
  | some .index =>
    (s.media.extents.filter (·.group == g)).length * 1048576
      + (s.tenants.foldl (fun acc t => acc + match t.session with
          | some x => if x.group = g then x.count * 1048576 else 0
          | none => 0) 0)
  | none => 0
/-- The margin of R515: 20 per mille of the good blocks, at 16 or 32 MiB of data each. -/
def State.margin (s : State) (g : Nat) : Nat := s.goodBlocks g * 20 / 1000 * (16384 * s.pagesPerBlock)

/-- Keep a group's read-only state to the rule of R515. -/
def State.judgeReadOnly (s : State) (g : Nat) : State :=
  let ro := decide (s.goodCapacity g < s.committed g + s.margin g)
  let was := (s.media.groups.getD g {}).readOnly
  let s := s.modGroup g fun x => { x with readOnly := ro }
  if ro && !was then (s.warn 3 0).mediaLog { kind := 0x0C, group := g } (fault := false) else s

/-! ### Operations on a die (R461 to R463, Table 15-5) -/

/-- Is the operation a read that may suspend a program or erase (class 1 or 2)? -/
def DieOp.suspends? (o : DieOp) : Bool := decide (o.cls ≤ 2)
/-- The order key of an operation: its class, with the promotions of R462. -/
def DieOp.key (o : DieOp) : Nat :=
  if o.promoted then (if o.cls = 3 then 3 else 5) else 2 * o.cls
/-- Is the operation a program? -/
def DieOp.isProgram (o : DieOp) : Bool :=
  match o.kind with
  | .program .. | .directProgram .. => true
  | _ => false
/-- Is the operation an erase? -/
def DieOp.isErase (o : DieOp) : Bool :=
  match o.kind with
  | .erase .. | .directErase .. => true
  | _ => false
/-- Is the operation a read? -/
def DieOp.isRead (o : DieOp) : Bool := !o.isProgram && !o.isErase

/-- May an operation start on a die whose program or erase is suspended (Table 15-5)? The suspended operation goes on before
a read of class 5, and before one that came once it could not be suspended again. -/
def mayNest (role : Option Role) (d : Die) (o : DieOp) : Bool :=
  match d.suspended with
  | none => true
  | some e => (o.isRead && o.suspends? && !o.late) || (o.isProgram && role == some .log && e.isErase && !d.nestedUsed)

/-- Thermal level 2 allows one program or erase at a time in each group (Table 02-13). -/
def State.throttled (s : State) (c : Nat) (o : DieOp) : Bool :=
  decide (s.power.level ≥ 2) && !o.isRead &&
    ((s.groupDies (c / 8)).any fun x => match (s.die x.1 x.2).running with
      | some r => !r.isRead
      | none => false)

/-- Remove the first element that satisfies `p`. -/
def removeFirst {α : Type} (p : α → Bool) : List α → List α
  | [] => []
  | x :: xs => if p x then xs else x :: removeFirst p xs

/-- Dies of a chip-enable target, its LUNs (Table 15-1). -/
def State.lunsPerTarget (s : State) : Nat := if s.big then 4 else 2
/-- Target and LUN of a die (R453). -/
def State.targetOf (s : State) (d : Nat) : Nat × Nat := (d / s.lunsPerTarget, d % s.lunsPerTarget)
/-- The dies of the target that holds a die. -/
def State.targetDies (s : State) (d : Nat) : List Nat :=
  (List.range s.lunsPerTarget).map fun i => s.lunsPerTarget * (s.targetOf d).1 + i
/-- Is the target of a die in reset (R476)? -/
def State.targetResets (s : State) (c d : Nat) : Bool := (s.targetDies d).any fun i => (s.die c i).resetting.isSome
/-- The operation that runs on a die, while its target is not in reset and its channel runs in a mode that carries data
(R456, R476). -/
def State.running (s : State) (c d : Nat) : Option DieOp :=
  if s.targetResets c d || (s.channel c).mode = 0 then none else (s.die c d).running

/-- Start the next operation of a die that is free (R461), on a channel in a mode that carries data (R456)
(DESIGN CHOICE, log entry 84). -/
def State.kick (s : State) (c d : Nat) : State :=
  let x := s.die c d
  if x.running.isSome || s.targetResets c d || !s.dieLive c d || (s.channel c).mode = 0 then s
  else
    let role := s.role (c / 8)
    let ready := x.queue.filter fun o => mayNest role x o && !s.throttled c o
    match pickBy DieOp.key false ready with
    | none => s
    | some o =>
      let nest := x.suspended.isSome && o.isProgram
      s.modDie c d fun x => { x with
        queue := removeFirst (· == o) x.queue
        running := some { o with nested := nest, since := s.now, ran := 0 }
        nestedUsed := x.nestedUsed || nest }

/-- Has a program or an erase suspends left (Table 15-5)? -/
def State.suspendsLeft (s : State) (c : Nat) (o : DieOp) : Bool :=
  s.role (c / 8) != some .log || decide (o.suspends < if o.isErase then s.media.eraseMax else s.media.progMax)
/-- May a read suspend the running operation (Table 15-5)? -/
def State.maySuspend (s : State) (c d : Nat) : Bool :=
  let x := s.die c d
  match x.running with
  | none => false
  | some o => !o.isRead && x.suspended.isNone && !o.nested && s.suspendsLeft c o

/-- Suspend the running program or erase. -/
def State.suspend (s : State) (c d : Nat) : State :=
  let s := s.modDie c d fun x => { x with
    suspended := x.running.map fun o => { o with suspends := o.suspends + 1, ran := o.ran + (s.now - o.since) }
    running := none }
  s.modMedia fun m => { m with suspends := satAdd32 m.suspends 1 }

/-- Queue an operation; a read of class 1 or 2 suspends a program or erase where the rules allow. -/
def State.enqueue (s : State) (c d : Nat) (o : DieOp) : State :=
  let late := match (s.die c d).suspended with
    | some e => !s.suspendsLeft c e
    | none => false
  let s := s.modDie c d fun x => { x with queue := x.queue ++ [{ o with arrived := s.now, late := late }] }
  let s := if o.suspends? && o.isRead && s.maySuspend c d then s.suspend c d else s
  s.kick c d

/-- After a program or erase ends under thermal level 2, another of the group may start. -/
def State.kickGroup (s : State) (g : Nat) : State :=
  (s.groupDies g).foldl (fun (s : State) x => s.kick x.1 x.2) s

/-- The running operation of a die ends; with an erase the one program nested in it is spent (Table 15-5). -/
def State.endRunning (s : State) (c d : Nat) : State := s.modDie c d fun x => { x with
  running := none
  nestedUsed := x.nestedUsed && !(match x.running with
    | some o => o.isErase
    | none => false) }
/-- The ready/busy timeout of an operation in microseconds: four times the longest time of Table 15-3. -/
def State.busyTimeout (s : State) (o : DieOp) : Nat :=
  if o.isErase then (if s.big then 80000 else 40000)
  else if o.isProgram then (if s.big then 18000 else 4800)
  else (if s.big then 600 else 300)
/-- How long an operation has run, suspensions apart (R459). -/
def State.ranFor (s : State) (o : DieOp) : Nat := o.ran + (s.now - o.since)

end Sys2Proof.Machine
end

