-- ==== Sys2Proof/Machine/Dram.lean ====
section
/-!
DEFINITION. Dram.lean: the division of DRAM (Table 09-2), the division of the media map area (Table 16-2), and the cache of
the LOG groups' map pages.
-/

namespace Sys2Proof.Machine

/-! ### The areas of Table 09-2 -/

/-- Bytes of a granule. -/
def granule : Nat := 65536
/-- DRAM granules of one stack that belong to the tenant area (Table 09-2, in four equal parts)
(DESIGN CHOICE, log entry 49). -/
def tenantGranules : Nat := 761856
/-- The first granule, in each stack, of the write buffer, the personality staging, the golden copy, the image store, the
program store, logs and journal, the service working space, and the media map area, which ends the stack: each area of
Table 09-2 in four equal parts
(DESIGN CHOICE, log entry 49). -/
def writeBufferBase : Nat := tenantGranules
def stagingBase : Nat := writeBufferBase + 2048
def goldenBase : Nat := stagingBase + 1024
def imageStoreBase : Nat := goldenBase + 128
def programStoreBase : Nat := imageStoreBase + 384
def logsBase : Nat := programStoreBase + 4096
def serviceBase : Nat := logsBase + 256
def mapBase : Nat := serviceBase + 256
def stackGranules : Nat := mapBase + 16384

/-! ### The media map area (R493, R494, Table 16-2) -/

/-- Extents of one INDEX group and units of 2^18 logical blocks of one LOG group (Table 03-8). -/
def State.groupExtents (s : State) : Nat := if s.big then 53710937 else 13427734
def State.groupUnits (s : State) : Nat := if s.big then 52452 else 13113

/-- A part of the media map area. -/
inductive MapPart where
  | extents (group : Nat)       -- the extent map of an INDEX group
  | tables                      -- superblock, P/E and free-block tables
  | directory (group : Nat)     -- the map-page directory of a LOG group
  | cache                       -- the log map-page cache
  | replacement (number : Nat)  -- a DRAM replacement page in use (R537)
  deriving DecidableEq, Repr, Inhabited

/-- Map pages of a LOG group: each covers 1,024 units of 16 KiB, four logical blocks each (R493). -/
def State.mapPages (s : State) : Nat := s.groupUnits * 2 ^ 18 / 4 / 1024
/-- Bytes of a part, but for the cache, which is the remainder, and the replacement pages, of 2 MiB each. -/
def State.partBytes (s : State) : MapPart → Nat
  | .extents _ => 8 * s.groupExtents
  | .tables => 128 * 2 ^ 20
  | .directory _ => 8 * s.mapPages
  | .cache | .replacement _ => 0
/-- The parts before the cache, in the order of Table 16-2. -/
def State.fixedParts (s : State) : List MapPart :=
  let by_ (r : Role) : List Nat := (List.range 4).filter fun g => s.role g == some r
  (by_ .index).map .extents ++ [.tables] ++ (by_ .log).map .directory
/-- Granules of one stack that a part of some bytes takes: every part is spread evenly over the four stacks
(DESIGN CHOICE, log entry 49). -/
def partGranules (bytes : Nat) : Nat := (bytes + 4 * granule - 1) / (4 * granule)
/-- The first granule of the cache in each stack. -/
def State.cacheBase (s : State) : Nat :=
  s.fixedParts.foldl (fun a p => a + partGranules (s.partBytes p)) mapBase
/-- The replacement pages of a stack that are in use. -/
def State.replacements (s : State) (stack : Nat) : List Nat :=
  ((s.prot.dramStacks.getD stack {}).retired).map (·.1)
/-- The first granule of a replacement page: they are taken from the highest-numbered cache page down (R537). -/
def replacementBase (r : Nat) : Nat := stackGranules - 32 * (r + 1)
/-- The part of the media map area that a granule of a stack belongs to. -/
def State.mapPart (s : State) (stack g : Nat) : MapPart :=
  match (s.replacements stack).find? fun r => decide (replacementBase r ≤ g) && decide (g < replacementBase r + 32) with
  | some r => .replacement r
  | none =>
    let r := s.fixedParts.foldl (fun (r : Nat × Option MapPart) p =>
      let next := r.1 + partGranules (s.partBytes p)
      (next, r.2.or (if g < next then some p else none))) (mapBase, none)
    r.2.getD .cache
/-- Bytes of the cache: the remainder, less the replacement pages in use. -/
def State.cacheBytes (s : State) : Nat :=
  4 * granule * (stackGranules - s.cacheBase) - 2 * 2 ^ 20 * ((List.range 4).flatMap s.replacements).length

/-- The slots of the cache hold one map page of 4 KiB each and go round the stacks: the granule of a slot
(DESIGN CHOICE, log entry 116). -/
def State.slotGranule (s : State) (slot : Nat) : Nat := s.cacheBase + slot / 4 / 16
/-- Is a slot in the cache: below the end of the stack and in no replacement page? -/
def State.slotOk (s : State) (slot : Nat) : Bool :=
  decide (s.slotGranule slot < stackGranules) && s.mapPart (slot % 4) (s.slotGranule slot) == .cache
/-- The slot that a block of a stack lies in. -/
def State.blockSlot (s : State) (stack block : Nat) : Nat :=
  4 * (16 * (block / 128 - s.cacheBase) + block % 128 / 8) + stack

/-- Change the cache of map pages. -/
def State.modMapCache (s : State) (f : List (Nat × Nat × Nat × Nat × Nat) → List (Nat × Nat × Nat × Nat × Nat)) : State :=
  s.modMedia fun m => { m with mapCache := f m.mapCache }
/-- The map page of a unit is looked up: a hit makes it the most recently used, a miss brings it in, and a full cache gives
up the least recently used
(DESIGN CHOICE, log entry 116). -/
def State.mapLookup (s : State) (g fn nsid unit : Nat) : State :=
  let page := (g, fn, nsid, unit / 1024)
  s.modMapCache fun l =>
    match l.find? fun x => x.2 == page with
    | some x => x :: l.filter (· != x)
    | none =>
      match (List.range (l.length + 1)).find? fun k => s.slotOk k && !l.any fun x => x.1 == k with
      | some k => (k, page) :: l
      | none => match l.getLast? with
        | some x => (x.1, page) :: l.dropLast
        | none => l
/-- Map pages leave the cache: those in slots that it has no longer
(DESIGN CHOICE, log entry 116). -/
def State.trimMapCache (s : State) : State := s.modMapCache fun l => l.filter fun x => s.slotOk x.1

end Sys2Proof.Machine
end

