-- ==== Sys2Proof/Machine/Media.lean ====
section
/-!
DEFINITION. Media.lean: the maps, the write buffer and its rows, program and read outcomes, recovery, isolation
and retirement, and the flush of a power loss (chapters 15 and 16).
-/

namespace Sys2Proof.Machine

/-! ### Maps and the write buffer (R493, R498 to R500) -/

/-- Function numbers from here on name shadows: 256 plus the tenant
(DESIGN CHOICE, log entry 98). -/
def shadowBase : Nat := 256

/-- The namespace of a function. -/
def State.namespace? (s : State) (fn nsid : Nat) : Option Namespace :=
  s.media.namespaces.find? fun n => n.fn == fn && n.nsid == nsid
/-- The LOG group that holds a namespace's units, or a shadow's. -/
def State.unitGroup (s : State) (fn nsid : Nat) : Option Nat :=
  if fn ≥ shadowBase then
    ((s.tenant (fn - shadowBase)).buffers.find? fun b => b.index == nsid && b.placement == .writeback).map (·.shadowGroup)
  else (s.namespace? fn nsid).map (·.group)
/-- The map page of a unit is looked up (R493). -/
def State.lookUp (s : State) (fn nsid unit : Nat) : State :=
  match s.unitGroup fn nsid with
  | some g => s.mapLookup g fn nsid unit
  | none => s
/-- The map entry of a unit. -/
def State.unitEntry (s : State) (fn nsid unit : Nat) : Option UnitEntry :=
  s.media.units.find? fun u => u.fn == fn && u.nsid == nsid && u.unit == unit
/-- The newest buffered block of a logical block. -/
def State.buffered (s : State) (fn nsid lba : Nat) : Option WbBlock :=
  (s.media.buffer.filter fun b => b.fn == fn && b.nsid == nsid && b.lba == lba).getLast?

/-- A journal record is appended for a map change of a group (R495). -/
def State.journal (s : State) (g : Nat) : State := s.modGroup g fun x => { x with journalTail := x.journalTail + 1 }

/-- Map a unit to a data page, unless a newer job has mapped it. -/
def State.mapUnit (s : State) (fn nsid unit sb page stamp : Nat) : State :=
  let newer := match s.unitEntry fn nsid unit with
    | some u => decide (u.stamp > stamp)
    | none => false
  if newer then s
  else
    let s := s.modMedia fun m => { m with
      units :=
        { fn := fn, nsid := nsid, unit := unit, place := .at sb page, stamp := stamp } ::
          m.units.filter (fun u => !(u.fn == fn && u.nsid == nsid && u.unit == unit)) }
    match s.unitGroup fn nsid with
    | some g => s.journal g
    | none => s
/-- Remove a unit's map entry: it reads as zeros. -/
def State.unmapUnit (s : State) (fn nsid unit : Nat) : State :=
  s.modMedia fun m => { m with units := m.units.filter fun u => !(u.fn == fn && u.nsid == nsid && u.unit == unit) }

/-- The 4,096 bytes of a logical block on the media: zeros when its unit is not mapped, and bytes nothing
constrains when the unit is unreadable. -/
def State.mediaBlock (s : State) (fn nsid lba : Nat) : List Byte :=
  match s.unitEntry fn nsid (lba / 4) with
  | none => List.replicate 4096 0
  | some u =>
    match u.place with
    | .unreadable f => (List.range 4096).map (Config.freeByte f)
    | .at sb q =>
      match s.content sb q with
      | some bs => (bs.drop (4096 * (lba % 4))).take 4096
      | none => (List.range 4096).map (Config.freeByte q)
/-- The newest content of a logical block, buffer first
(DEDUCED, log entry 78). -/
def State.lbaData (s : State) (fn nsid lba : Nat) : List Byte :=
  match s.buffered fn nsid lba with
  | some b => b.data.get 0 4096
  | none => s.mediaBlock fn nsid lba

/-- Is the block dirty content: NVM write data acknowledged and not yet programmed (R498)? -/
def WbBlock.dirty (b : WbBlock) : Bool := b.waiter.isNone && decide (b.fn < shadowBase)
/-- Dirty content in 4 KiB blocks. -/
def State.dirtyBlocks (s : State) : Nat := (s.media.buffer.filter (·.dirty)).length

/-- Data bytes that a LOG group programs in one round (R499). -/
def State.roundBytes (s : State) (g : Nat) : Nat :=
  (List.range s.setsPerGroup).foldl (fun acc j =>
    let n := (s.liveSlots g j).length
    if n < 8 then acc else acc + 65536 * dataSlots n) 0
/-- Rounds in 30 ms (R499), in units of 10 ns. -/
def State.rounds (s : State) : Nat :=
  let tBus := 2048 * s.diesPerChannel
  let tProg := if s.big then 450000 else 120000
  (3000000 - tBus - tProg) / (tProg + 2048) + 1
/-- The dirty limit in bytes (R499). -/
def State.dirtyLimit (s : State) : Nat :=
  min (512 * 1048576) ((s.rounds - 1) *
    ((List.range 4).foldl (fun acc g => if s.role g == some .log then acc + s.roundBytes g else acc) 0))
/-- Unread deferred entries. -/
def State.deferredUnread (s : State) : Nat := (s.logs.deferred.filter fun d => !d.readByOwner).length
/-- The write buffer runs write-through (R37, R44, R180). -/
def State.writesThrough (s : State) : Bool := s.power.writeThrough || decide (s.deferredUnread ≥ 1024)

/-- Add a block to the buffer; it replaces a block of the same address that no row carries yet, and keeps its arrival number,
so that a Flush that covers the older write waits for the newer one (R183). -/
def State.buffer (s : State) (b : WbBlock) : State :=
  let same (x : WbBlock) : Bool :=
    x.fn == b.fn && x.nsid == b.nsid && x.lba == b.lba && x.job.isNone && x.waiter == b.waiter
  let s := s.modMedia fun m => { m with
    buffer := (m.buffer.filter fun x => !same x) ++ [{ b with seq := ((m.buffer.find? same).map (·.seq)).getD m.nextBlock }]
    nextBlock := m.nextBlock + 1 }
  match s.unitGroup b.fn b.nsid with
  | some g => s.modGroup g fun x => { x with lastData := s.now }
  | none => s

/-- Units with blocks that no row carries, in order of arrival: those of a LOG group, shadows apart. -/
def State.waitingUnits (s : State) (g : Nat) (shadows : Bool) : List (Nat × Nat × Nat) :=
  ((s.media.buffer.filter fun b => b.job.isNone && decide (b.fn ≥ shadowBase) == shadows
      && s.unitGroup b.fn b.nsid == some g).map fun b => (b.fn, b.nsid, b.lba / 4)).eraseDups

/-- Sets of a group in rotation, the next one first. -/
def State.rotation (s : State) (g : Nat) : List Nat :=
  let r := s.media.rotate.getD g 0
  (List.range s.setsPerGroup).map fun j => (r + j) % s.setsPerGroup

/-- The open superblock of a use that takes the next row of a group, opening one where a set can (R500). -/
def State.target (s : State) (g : Nat) (use : SbUse) : List Nat → Option (Superblock × State)
  | [] => none
  | j :: js =>
    let live := s.liveSlots g j
    match s.media.superblocks.find? fun b => b.group == g && b.set == j && b.use == use && !b.closed
        && b.erasing.isEmpty && !b.refresh && b.slots.all live.contains with
    | some b => some (b, s)
    | none =>
      match s.openSuperblock g j use false with
      | some r => some r
      | none => s.target g use js

/-- The members of a row: data pages in order, padding after them, and parity. -/
def rowMembers (b : Superblock) (row : Nat) (items : List (Item × List Byte)) : List Member :=
  let ds := b.data row
  let d := b.d
  let zeros := List.replicate 16384 (0 : Byte)
  let page (i plane : Nat) : Item × List Byte := items.getD (plane * d + i) (.padding, zeros)
  let q := b.parity row
  (List.range 4).flatMap fun plane =>
    let cells := (List.range d).map fun i => page i plane
    let pq := parityPages (cells.map (·.2))
    (cells.zipIdx.map fun x =>
        { slot := ds.getD x.2 0, plane := plane, content := encodePage x.1.2, item := x.1.1 : Member })
      ++ [{ slot := q.1, plane := plane, content := encodePage pq.1, item := .parity },
          { slot := q.2, plane := plane, content := encodePage pq.2, item := .parity }]

/-- Advance a superblock past a row; the last row closes it. -/
def State.advance (s : State) (id : Nat) : State :=
  let rows := s.pagesPerBlock
  let s := s.modSuperblock id fun b =>
    { b with nextRow := b.nextRow + 1, closed := decide (b.nextRow + 1 ≥ rows)
             closedSeq := if b.nextRow + 1 ≥ rows then s.media.closeCount else b.closedSeq }
  s.modMedia fun m => { m with closeCount := m.closeCount + 1 }

/-- Under a base personality, a group with no recorded role records its role when its media are first written (R81). -/
def State.recordRole (s : State) (g : Nat) : State :=
  if s.pers.activeKind = 1 then s.modGroup g fun x => { x with recorded := x.recorded.or (s.role g) } else s

/-- Start a row: queue one program for each slot of it. -/
def State.startRow (s : State) (b : Superblock) (row : Nat) (kind : JobKind) (members : List Member) : State :=
  let id := s.media.nextJob
  let s := s.recordRole b.group
  let s := s.modMedia fun m => { m with
    jobs := m.jobs ++ [{ id := id, superblock := b.id, row := row, kind := kind, members := members }]
    nextJob := id + 1 }
  ((members.map (·.slot)).eraseDups).foldl (fun (s : State) k =>
    let c := slotPlace b.group b.set k
    let planes := (members.filter (·.slot == k)).map (·.plane)
    s.enqueue c.1 c.2 { cls := 3, kind := .program id k planes }) s

/-- The content of a unit of 16 KiB, newest blocks first
(DEDUCED, log entry 78). -/
def State.unitData (s : State) (u : Nat × Nat × Nat) : List Byte :=
  (List.range 4).flatMap fun i => s.lbaData u.1 u.2.1 (4 * u.2.2 + i)

/-- Place one row of waiting units of a group; `none` when no set can take it. -/
def State.placeRow (s : State) (g : Nat) (shadows : Bool) : Option State :=
  let use : SbUse := if shadows then .relocation else .writes
  match s.target g use (s.rotation g) with
  | none => none
  | some (b, s) =>
    let us := (s.waitingUnits g shadows).take (4 * b.d)
    let items := us.map fun u => (Item.unit u.1 u.2.1 u.2.2, s.unitData u)
    let id := s.media.nextJob
    let s := s.modMedia fun m => { m with
      buffer := m.buffer.map fun x =>
        if x.job.isNone && us.contains (x.fn, x.nsid, x.lba / 4) then { x with job := some id } else x
      rotate := m.rotate.set g ((b.set + 1) % s.setsPerGroup) }
    let s := s.startRow b b.nextRow .writes (rowMembers b b.nextRow items)
    some (s.advance b.id)

/-- Place rows while full rows wait, or, forced, while anything waits. -/
def State.fillRows (s : State) (g : Nat) (shadows force : Bool) : Nat → State
  | 0 => s
  | f + 1 =>
    let w := (s.waitingUnits g shadows).length
    let full := match s.target g (if shadows then .relocation else .writes) (s.rotation g) with
      | some (b, _) => 4 * b.d
      | none => 0
    if w = 0 || full = 0 || (!force && decide (w < full)) then s
    else match s.placeRow g shadows with
      | some s => s.fillRows g shadows force f
      | none => s

/-- Place every full row of a group, or every waiting unit. -/
def State.fill (s : State) (g : Nat) (force : Bool) : State :=
  let n := s.media.buffer.length
  (s.fillRows g false force n).fillRows g true force n

/-! ### Deferred errors (R176, R179, R180, R501) -/

/-- Runs of consecutive blocks in a list of blocks of one namespace. -/
def runsOf : List Nat → List (Nat × Nat)
  | [] => []
  | x :: xs =>
    match runsOf xs with
    | (a, n) :: r => if a = x + 1 then (x, n + 1) :: r else (x, 1) :: (a, n) :: r
    | [] => [(x, 1)]

/-- Record one run of lost blocks: an entry of page 0xC3 and its finding entry, with one fault number. While every one of
1,024 entries is unread the page grows past them, since an entry that its function has not read is never overwritten (R180)
(DESIGN CHOICE, log entry 114). -/
def State.defer (s : State) (fn nsid slba nlb arrival : Nat) : State :=
  let (f, s) := s.newFault
  let seq := s.logs.deferredNext
  let s := s.mediaLog { kind := 0x0E, group := (s.unitGroup fn nsid).getD 0, faultNo := f, detail := seq, count := nlb }
  let old := s.logs.deferred
  let full := decide (old.length ≥ 1024)
  let gone := if full then old.find? fun d => d.readByOwner else none
  let kept := if full then removeFirst (fun d => d.readByOwner) old else old
  let lostOf := match gone with
    | some d => (d.fn, (s.logs.deferredLostOf.lookup d.fn).getD 0 + 1) :: s.logs.deferredLostOf.filter (·.1 != d.fn)
    | none => s.logs.deferredLostOf
  let s := { s with
    logs := { s.logs with
      deferred := kept ++ [({ seq := seq, time := s.now, fn := fn, nsid := nsid, slba := slba, nlb := nlb, faultNo := f, arrival := arrival } : Deferred)]
      deferredNext := seq + 1
      deferredLost := s.logs.deferredLost + (old.length - kept.length)
      deferredLostOf := lostOf } }
  let s := s.raiseLog fn 0xC3
  if fn = 0 then s else s.raiseLog 0 0xC3

/-- Record every run of a set of lost blocks: function, namespace, block, arrival number. -/
def State.deferAll (s : State) (lost : List (Nat × Nat × Nat × Nat)) : State :=
  ((lost.map fun x => (x.1, x.2.1)).eraseDups).foldl (fun (s : State) n =>
    let mine := lost.filter fun x => (x.1, x.2.1) == n
    let lbas := (mine.map (·.2.2.1)).mergeSort (fun a b => decide (a ≤ b))
    (runsOf lbas.eraseDups).foldl (fun (s : State) r =>
      let seqs := (mine.filter fun x => decide (r.1 ≤ x.2.2.1) && decide (x.2.2.1 < r.1 + r.2)).map (·.2.2.2)
      s.defer n.1 n.2 r.1 r.2 (seqs.foldl min (seqs.headD 0))) s) s

/-! ### The end of a row (R501) and of Flushes (R183) -/

/-- Complete Writes in write-through whose last block has left the buffer. -/
def State.ackWriters (s : State) (refs : List CmdRef) : State :=
  refs.eraseDups.foldl (fun (s : State) r =>
    if (s.media.buffer.any fun b => b.waiter == some r) then s else s.complete r .success) s

/-- Complete Flushes that wait for nothing any more: with DEFERRED_WRITE_ERROR where a write that the Flush covers was
recorded as lost and the entry is unread (R183). -/
def State.ackFlushes (s : State) : State :=
  s.media.flushes.foldl (fun (s : State) p =>
    if (s.media.buffer.any fun b => b.dirty && b.fn == p.ref.fn && decide (b.seq < p.upTo)) then s
    else
      let s := s.modMedia fun m => { m with flushes := m.flushes.filter (·.ref != p.ref) }
      match s.logs.deferred.find? fun d => d.fn == p.ref.fn && !d.readByOwner && decide (d.arrival < p.upTo) with
      | some d => (s.carry d p.ref).complete p.ref .deferredWriteError (d.seq % 2 ^ 32)
      | none => s.complete p.ref .success) s

/-- A unit of a row failed to program: its blocks are placed again, or lost for good. -/
def State.unitFailed (s : State) (job fn nsid unit : Nat) : State × List (Nat × Nat × Nat × Nat) :=
  let mine (b : WbBlock) : Bool := b.job == some job && b.fn == fn && b.nsid == nsid && b.lba / 4 == unit
  let readOnly := match s.unitGroup fn nsid with
    | some g => (s.media.groups.getD g {}).readOnly
    | none => true
  let final (b : WbBlock) : Bool := mine b && (decide (b.placements + 1 ≥ 3) || readOnly)
  let dead := s.media.buffer.filter final
  let s := s.modMedia fun m => { m with
    buffer := (m.buffer.filter (fun b => !final b)).map fun b =>
      if mine b then { b with job := none, placements := b.placements + 1 } else b }
  let s := (dead.filterMap (·.waiter)).eraseDups.foldl (fun (s : State) r =>
    let s := s.modMedia fun m => { m with buffer := m.buffer.filter fun b => b.waiter != some r }
    s.complete r .writeFault) s
  let s := if fn ≥ shadowBase && !dead.isEmpty then
      let (f, s) := s.newFault
      let s := s.mediaLog { kind := 0x0B, group := (s.unitGroup fn nsid).getD 0, faultNo := f, count := dead.length }
      s.modTenant (fn - shadowBase) fun t => { t with
        buffers := t.buffers.map fun b =>
          if b.index = nsid then
            { b with dirty := ((dead.map (·.lba)) ++ b.dirty).eraseDups.mergeSort (fun x y => decide (x ≤ y))
                     cleaning := b.cleaning.filter fun x => !(dead.map (·.lba)).contains x }
          else b }
    else s
  (s, (dead.filter (·.dirty)).map fun b => (b.fn, b.nsid, b.lba, b.seq))

/-- A unit of a row is programmed: it is mapped, and its blocks leave the buffer. -/
def State.unitDone (s : State) (job fn nsid unit sb page : Nat) : State :=
  let s := (s.lookUp fn nsid unit).mapUnit fn nsid unit sb page job
  let mine (b : WbBlock) : Bool := b.job == some job && b.fn == fn && b.nsid == nsid && b.lba / 4 == unit
  let refs := (s.media.buffer.filter mine).filterMap (·.waiter)
  let lbas := (s.media.buffer.filter mine).map (·.lba)
  let s := s.modMedia fun m => { m with buffer := m.buffer.filter fun b => !mine b }
  let s := if fn ≥ shadowBase then
      s.modTenant (fn - shadowBase) fun t => { t with
        buffers := t.buffers.map fun b =>
          if b.index = nsid then { b with cleaning := b.cleaning.filter fun x => !lbas.contains x } else b }
    else s
  s.ackWriters refs

/-- The data page of a data slot and plane of a row. -/
def Superblock.pageNumber (b : Superblock) (row slot plane : Nat) : Nat :=
  row * (4 * b.d) + plane * b.d + (b.data row).idxOf slot

/-- Every member of a row has reported
(DEDUCED, log entry 79). -/
def State.finishJob (s : State) (j : RowJob) : State :=
  let s := s.modMedia fun m => { m with jobs := m.jobs.filter (·.id != j.id) }
  match s.superblock j.superblock with
  | none => s
  | some b =>
    match j.kind with
    | .writes =>
      let r := j.members.foldl (fun (acc : State × List (Nat × Nat × Nat × Nat)) m =>
        match m.item with
        | .unit fn nsid u =>
          if m.result = some true then
            (acc.1.unitDone j.id fn nsid u b.id (b.pageNumber j.row m.slot m.plane), acc.2)
          else
            let x := acc.1.unitFailed j.id fn nsid u
            (x.1, acc.2 ++ x.2)
        | _ => acc) (s, [])
      (r.1.deferAll r.2).ackFlushes
    | .relocation src =>
      let ok := j.members.filterMap fun m =>
        if m.result = some true && m.item != .parity && m.item != .padding then
          some { source := src, item := m.item, superblock := b.id, page := b.pageNumber j.row m.slot m.plane : Copied }
        else none
      s.modMedia fun m => { m with copied := m.copied ++ ok }
    | .publish c =>
      if (s.media.jobs.any fun x => x.kind == .publish c) then s else s.complete c .success
    | .orphan => s

/-- Record the status of members of a row; when the last has reported, the row ends. -/
def State.report (s : State) (job slot : Nat) (planes : List Nat) (ok : Nat → Bool) : State :=
  match s.media.jobs.find? (·.id == job) with
  | none => s
  | some j =>
    let j := { j with
      members := j.members.map fun m =>
        if m.slot = slot && planes.contains m.plane && m.result.isNone then { m with result := some (ok m.plane) } else m }
    let s := s.modMedia fun m => { m with jobs := m.jobs.map fun x => if x.id = job then j else x }
    if (j.members.all fun m => m.result.isSome) then s.finishJob j else s

/-- Store the content of the programmed members of a slot. -/
def State.storeMembers (s : State) (j : RowJob) (slot : Nat) (planes : List Nat) (bad : Nat → Bool) : State :=
  match s.superblock j.superblock with
  | none => s
  | some b =>
    (j.members.filter fun m => m.slot == slot && planes.contains m.plane).foldl (fun (s : State) m =>
      let a := b.page slot m.plane j.row
      s.modMedia fun x => { x with
        pages :=
          { addr := a, raw := m.content, bad := bad m.plane } :: x.pages.filter (·.addr != a) }) s

/-! ### Delivering and failing codewords (R469, R474, R514) -/

/-- The command of a place, when it is outstanding. -/
def State.command? (s : State) (r : CmdRef) : Option Cmd :=
  ((s.ctrl r.fn).outstanding.find? fun o => o.cmd.ref == r).map (·.cmd)

/-- Write one 4 KiB block of an NVM Read to its place in host memory. -/
def State.readBlock (s : State) (r : CmdRef) (slba lba : Nat) (bs : List Byte) : State :=
  match s.command? r with
  | none => s
  | some c =>
    s.bufferPut c.fn c.prp1 c.prp2 (4096 * (bits c.cdw12.toNat 15 0 + 1)) (4096 * (lba - slba)) bs

/-- An NVM Read has one block less to wait for. -/
def State.readArrived (s : State) (r : CmdRef) (lba : Nat) (bs : List Byte) : State :=
  match s.media.reads.find? (·.ref == r) with
  | none => s
  | some p =>
    let s := s.readBlock r p.slba lba bs
    let left := p.missing.filter (· != lba)
    if left.isEmpty then
      (s.modMedia fun m => { m with reads := m.reads.filter (·.ref != r) }).complete r .success
    else s.modMedia fun m => { m with reads := m.reads.map fun x => if x.ref = r then { x with missing := left } else x }

/-- A unit is used: it is the most recently used one of its pool (R317). -/
def Pool.use (p : Pool) (unit : Nat) : Pool := { p with units := unit :: p.units.filter (· != unit) }
/-- A unit whose bring-up has started arrives in its cache pool (R315), the most recently used. One that a commit has
replaced since is discarded (R319)
(DEDUCED, log entry 65). -/
def Pool.arrive (p : Pool) (unit : Nat) : Pool :=
  if p.coming.contains unit then { p.use unit with coming := p.coming.filter (· != unit) } else p
/-- Units leave a pool, or will not come to it: their slots are free. -/
def Pool.drop (p : Pool) (gone : Nat → Bool) : Pool :=
  { p with
    units := p.units.filter fun u => !gone u
    coming := p.coming.filter fun u => !gone u
    slots := p.slots.filter fun x => !gone x.1
    wild := p.wild.filter fun x => !gone x.1 }
/-- Change the pool that a tenant's reads of a model, or of ALLOC buffers, use (R314). -/
def State.modPool (s : State) (tenant : Nat) (model : Option Nat) (f : Pool → Pool) : State :=
  s.modTenant tenant fun t =>
    match model with
    | none => { t with sharedPool := f t.sharedPool }
    | some m => { t with modelPools := (m, f ((t.modelPools.lookup m).getD {})) :: t.modelPools.filter (·.1 != m) }

/-- Deliver a decoded codeword to a reader. -/
def State.deliver (s : State) (r : Reader) (bs : List Byte) : State :=
  match r with
  | .nvm c lba => s.readArrived c lba bs
  | .bringUp t m u => s.modPool t m fun p => p.arrive u
  | .source _ => s
  | .scan t tag u ch =>
    let wanted := (s.queues.getD (40 + ch) {}).entries.any fun e => e.tenant == t && e.tag == tag && e.origin == .word
    { s with rasp := s.rasp.modify ch fun x =>
      if x.ahead.contains (t, tag, u) then x
      else if wanted then { x with ahead := x.ahead ++ [(t, tag, u)] }
      else { x with aheadCount := satAdd32 x.aheadCount 1 } }
  | .media _ | .nobody => s

/-- Complete a MEDIA_READ whose codewords have all decoded. -/
def State.mediaReadDone (s : State) (c : CmdRef) (a : PageAddr) : State :=
  if (s.media.recoveries.any fun x => x.readers.contains (.media c)) then s
  else match s.command? c with
    | none => s
    | some cmd =>
      let raw := cmd.cdw13.getLsbD 0
      let bs := if raw then s.pageRaw a else
        match s.flashPage a with
        | some p => (List.range 4).flatMap p.codeword
        | none => List.replicate 16384 0xFF
      (s.dataOut c.fn cmd.prp1 cmd.prp2 bs).complete c .success

/-- Data page of a page address in its superblock. -/
def State.dataPageAt (s : State) (a : PageAddr) : Option (Superblock × Nat) :=
  match s.holderOf a.blockAddr with
  | none => none
  | some b =>
    match b.slots.find? fun k => slotPlace b.group b.set k == (a.channel, a.die) with
    | some k => if (b.data a.page).contains k then some (b, b.pageNumber a.page k a.plane) else none
    | none => none

/-- Mark the unit behind a codeword unreadable in its map entry (R514). -/
def State.markUnreadable (s : State) (a : PageAddr) (cw faultNo : Nat) : State :=
  let s := s.modMedia fun m => { m with
    pages := m.pages.map fun p => if p.addr = a then { p with lost := cw :: p.lost.filter (· != cw) } else p }
  match s.dataPageAt a with
  | none => s
  | some (b, q) => s.modMedia fun m => { m with
      units := m.units.map fun u => if u.place = .at b.id q then { u with place := .unreadable faultNo } else u
      extents := m.extents.map fun e =>
        if e.superblock = b.id && e.position = q / 64 then
          { e with bad := (4 * (q % 64) + cw, faultNo) :: e.bad.filter (·.1 != 4 * (q % 64) + cw) }
        else e }

/-- A reader's codeword is unreadable. -/
def State.readerFails (s : State) (r : Reader) (faultNo : Nat) : State :=
  match r with
  | .nvm c _ => (s.modMedia fun m => { m with reads := m.reads.filter (·.ref != c) }).complete c .unrecoveredRead
  | .bringUp t m u => s.modPool t m fun p => if p.coming.contains u then p.drop (· == u) else p
  | .scan .. | .source _ | .nobody => s
  | .media c =>
    (s.modMedia fun m => { m with
      recoveries := m.recoveries.map fun x =>
        { x with readers := x.readers.filter (· != .media c) } }).complete c .mediaUnreadable faultNo

/-- May a reader's codeword be rebuilt from the stripe (R473)? -/
def Reader.mayRebuild : Reader → Bool
  | .media _ | .nobody => false
  | _ => true

/-- Is a reader still waiting for its codeword? -/
def State.readerWaits (s : State) : Reader → Bool
  | .nvm c _ | .media c => (s.command? c).isSome
  | .bringUp t m _ => s.queues.any fun q => q.entries.any fun e => e.tenant == t && e.origin == .word
      && s.invocations.any fun i => i.tenant == t && i.tag == e.tag && i.phase != .stopping && (m.isNone || m == some i.slot)
  | .scan t tag _ _ => s.invocations.any fun i => i.tenant == t && i.tag == tag && i.phase != .stopping
  | .source id => (s.media.superblocks.any fun b => b.id == id && b.sourcing.isSome)
  | .nobody => false
/-- The readers of a recovery that still wait, at a safe point of it (R189, R472): a unit that nobody waits for will not come
to its pool. -/
def State.stillWaiting (s : State) (r : Recovery) : List Reader × State :=
  (r.readers.filter s.readerWaits, r.readers.foldl (fun (s : State) x => match x with
    | .bringUp t m u => if s.readerWaits x then s
        else s.modPool t m fun p => if p.coming.contains u then p.drop (· == u) else p
    | _ => s) s)

/-- Complete a command that has not ended yet. -/
def State.completeOpt (s : State) (c : Option CmdRef) (st : Status) (dw0 : Nat := 0) : State :=
  match c with
  | some r => s.complete r st dw0
  | none => s

/-- The command that a reader or a direct operation serves. -/
def Reader.command : Reader → Option CmdRef
  | .nvm c _ | .media c => some c
  | _ => none
/-- See `Reader.command`. -/
def DieOp.command (o : DieOp) : Option CmdRef :=
  match o.kind with
  | .read _ _ x => x.command
  | .directProgram c _ _ | .directErase c _ => c
  | _ => none
/-- The operation goes on, and its result is discarded. -/
def DieOp.discarded (o : DieOp) : DieOp :=
  { o with kind := match o.kind with
    | .read a _ _ => DieOpKind.read a [] .nobody
    | .directProgram _ a x => .directProgram none a x
    | .directErase _ a => .directErase none a
    | k => k }
/-- The flash work of commands that have ended (R174, R189): what has not started is removed, what runs ends at its next safe
point, and its result is discarded. -/
def State.dropReaders (s : State) (gone : CmdRef → Bool) : State :=
  let mine (o : DieOp) : Bool := (o.command.map gone).getD false
  let quiet (o : DieOp) : DieOp := if mine o then o.discarded else o
  s.modMedia fun m => { m with
    dies := m.dies.map fun x => { x with
      queue := x.queue.filter fun o => !mine o
      running := x.running.map quiet, suspended := x.suspended.map quiet, resetting := x.resetting.map quiet }
    recoveries := m.recoveries.map fun r => { r with
      readers := r.readers.filter fun x => !((x.command.map gone).getD false) } }

/-! ### Recovery (R469 to R474) -/

/-- `ATTEMPT_MAX` and `REBUILD_RESERVE` in tenths of a microsecond (Table 15-6). -/
def State.attemptMax (s : State) : Nat := if s.big then 1746 else 996
/-- See `State.attemptMax`. -/
def State.rebuildReserve (s : State) : Nat := if s.big then 2000 else 1200
/-- The read-level zone of a page (32 zones of 64 blocks in a plane). -/
def zoneOf (a : PageAddr) : Nat := 32 * a.plane + a.block / 64
/-- A zone's current set. -/
def State.zoneSet (s : State) (a : PageAddr) : Nat := ((s.die a.channel a.die).zoneSets.lookup (zoneOf a)).getD 0
/-- Keep a zone's set. -/
def State.setZone (s : State) (c d zone set : Nat) : State :=
  s.modDie c d fun x => { x with
    zoneSets :=
      if set = 0 then x.zoneSets.filter (·.1 != zone) else (zone, set) :: x.zoneSets.filter (·.1 != zone) }
/-- The sets that recovery tries, in order (R469). -/
def retrySets (current : Nat) : List Nat :=
  (((List.range 8).map fun i => (current + i) % 8 + 1)).filter (· != current)

/-- The media log entry of a recovery's end (R474). -/
def State.recoveryLog (s : State) (r : Recovery) (outcome set : Nat) : State :=
  s.mediaLog { kind := 1, outcome := outcome, group := r.addr.channel / 8, channel := r.addr.channel,
               die := r.addr.die, plane := r.addr.plane, block := r.addr.block, page := r.addr.page,
               codeword := r.codeword, retrySet := set, faultNo := r.faultNo, count := 1 }
    (fault := !r.counted)

/-- Remove a recovery. -/
def State.dropRecovery (s : State) (r : Recovery) : State :=
  s.modMedia fun m => { m with
    recoveries := m.recoveries.filter fun x =>
      !(x.addr == r.addr && x.codeword == r.codeword) }
/-- Replace a recovery. -/
def State.putRecovery (s : State) (r : Recovery) : State :=
  s.modMedia fun m => { m with
    recoveries := m.recoveries.map fun x =>
      if x.addr = r.addr && x.codeword = r.codeword then r else x }
/-- The recovery of a codeword. -/
def State.recovery? (s : State) (a : PageAddr) (cw : Nat) : Option Recovery :=
  s.media.recoveries.find? fun x => x.addr == a && x.codeword == cw

/-- Shell event line `line` of filter slice `k` rises: its edge is latched until the logic clears it (Table 13-4, R136)
(DEDUCED, log entry 35). -/
def State.shellEdge (s : State) (k line : Nat) : State :=
  s.modPers fun p => { p with slices := p.slices.modify k fun x =>
    { x with edgeLatch := x.edgeLatch ||| BitVec.ofNat 8 (2 ^ line) } }
/-- What the logic does to a timer: see `Config.timerOp`. -/
def ShellTimer.act (t : ShellTimer) (now : Nat) (o : Nat × Dword) : ShellTimer :=
  match o.1 with
  | 1 => { t with running := true, periodic := true, count := t.reload, since := now }
  | 2 => { t with running := true, periodic := false, count := t.reload, since := now }
  | 3 => { t with running := false, count := if t.running then t.count - (now - t.since) else t.count }
  | 4 => { t with reload := o.2.toNat }
  | _ => t
/-- The logic that an owner's image gave a slice acts on its shell's timers and edge latches. What it does is a free value: the
spec leaves the logic to the image (R407)
(DEDUCED, log entry 35). -/
def State.logicActs (s : State) (k : Nat) : State :=
  match s.pers.slices[k]? with
  | none => s
  | some x =>
    if x.passAll || x.clockGated then s
    else
      let n := s.free
      { s with free := n + 1 }.modPers fun p => { p with slices := p.slices.modify k fun x => { x with
        timers := x.timers.zipIdx.map fun (t : ShellTimer × Nat) => t.1.act s.now (Config.timerOp n t.2)
        edgeLatch := x.edgeLatch &&& ~~~(Config.edgeClear n) } }

/-- Recovery succeeded: every reader that waits gets the codeword. -/
def State.recovered (s : State) (r : Recovery) (bs : List Byte) : State :=
  let s := s.dropRecovery r
  r.readers.foldl (fun (s : State) x =>
    match x with
    | .media c => s.mediaReadDone c r.addr
    | .scan t tag u ch =>
      let s := if r.tried > 0 then s.shellEdge ch 3 else s
      (if r.rebuilding then s.shellEdge ch 4 else s).deliver (.scan t tag u ch) bs
    | x => s.deliver x bs) s

/-- Recovery ends with nobody left that waits. -/
def State.recoveryCancelled (s : State) (r : Recovery) : State := (s.dropRecovery r).recoveryLog r 4 0
/-- Recovery failed: the codeword is unreadable. -/
def State.unrecovered (s : State) (r : Recovery) : State :=
  let s := (s.dropRecovery r).modMedia fun m => { m with unreadable := satAdd32 m.unreadable 1 }
  let s := s.recoveryLog r 3 0
  let s := if r.readers.any (·.mayRebuild) then s.markUnreadable r.addr r.codeword r.faultNo else s
  r.readers.foldl (fun (s : State) x => s.readerFails x r.faultNo) s

/-- The live members of a page's row and plane, the page itself apart (R490). -/
def State.rowMates (s : State) (a : PageAddr) : List PageAddr :=
  match s.holderOf a.blockAddr with
  | none => []
  | some b => ((b.slots.map fun k => b.page k a.plane a.page).filter fun m => m != a && s.dieLive m.channel m.die)
/-- The rebuild begins: the codeword's mates are read at class 1, without read-retry (R490). -/
def State.startRebuild (s : State) (r : Recovery) : State :=
  let mates := s.rowMates r.addr
  let s := s.putRecovery { r with rebuilding := true, waits := mates }
  mates.foldl (fun (s : State) m => s.enqueue m.channel m.die { cls := 1, kind := .rebuildRead r.addr r.codeword m }) s
/-- What recovery does next: another attempt, at class 1, while the budget holds one more and a rebuild, else the rebuild for
those that may (R473), else the end. A direct-media read ends where the attempts do
(DESIGN CHOICE, log entry 84). -/
def State.nextRecovery (s : State) (r : Recovery) : State :=
  let spent := 10 * (s.now - r.since)
  let budget := 10 * s.media.budgetUs
  let sets := (retrySets (s.zoneSet r.addr)).length
  if r.tried < sets && !r.rebuilding && decide (spent + s.attemptMax + s.rebuildReserve ≤ budget) then
    (s.putRecovery r).enqueue r.addr.channel r.addr.die { cls := 1, kind := .retry r.addr r.codeword }
  else if (r.readers.any (·.mayRebuild)) && decide (spent + s.rebuildReserve ≤ budget) then
    let (stay, out) := r.readers.partition (·.mayRebuild)
    let s := s.startRebuild { r with readers := stay }
    out.foldl (fun (s : State) x => s.readerFails x r.faultNo) s
  else s.unrecovered r

/-- A codeword fails LDPC, or its page cannot be read: recovery begins, or an existing one gains a reader (R469, R472).
`found`: the number of the fault that another entry has found (R190). -/
def State.startRecovery (s : State) (a : PageAddr) (cw : Nat) (x : Reader) (rebuilding : Bool) (found : Option Nat := none) :
    State :=
  match s.recovery? a cw with
  | some r => if r.rebuilding && !x.mayRebuild then s.readerFails x r.faultNo
      else s.putRecovery { r with readers := r.readers ++ [x] }
  | none =>
    let (f, s) := match found with
      | some f => (f, s)
      | none => s.newFault
    let r : Recovery := { addr := a, codeword := cw, faultNo := f, since := s.now, rebuilding := rebuilding, readers := [x],
                          counted := found.isSome }
    let s := s.modMedia fun m => { m with recoveries := m.recoveries ++ [r] }
    s.nextRecovery r
/-- The fault that took a die away: the isolation of its channel, or its own retirement. -/
def State.deadFault (s : State) (c d : Nat) : Option Nat :=
  if (s.channel c).isolated then some (s.channel c).isolateFault
  else if (s.die c d).retired then some (s.die c d).retireFault
  else none
/-- A member of a rebuild has been read, or could not be: it decodes or is an erasure (R490). -/
def State.mateRead (s : State) (a : PageAddr) (cw : Nat) (m : PageAddr) (decodes : Bool) : State :=
  match s.recovery? a cw with
  | none => s
  | some r => s.putRecovery { r with
      waits := r.waits.filter (· != m), erased := if decodes then r.erased else m :: r.erased }
/-- The pages of a source read, with their codewords, fail: recovery begins for the relocation. -/
def State.sourceFails (s : State) (sb slot row : Nat) (planes : List Nat) (bad : Nat → Nat → Bool) (rebuilding : Bool)
    (found : Option Nat) : State :=
  match s.superblock sb with
  | none => s
  | some b => planes.foldl (fun (s : State) p => (List.range 4).foldl (fun (s : State) w =>
      if bad p w then s.startRecovery (b.page slot p row) w (.source sb) rebuilding found else s) s) s
/-- An operation at a recovery's die ends it there: a direct-media read ends with ABORTED_BY_RECOVERY (R227, R478). -/
def State.abortDirect (s : State) (r : Recovery) (faultNo : Nat) : Recovery × State :=
  ({ r with readers := r.readers.filter (·.mayRebuild) },
   (r.readers.filter (!·.mayRebuild)).foldl (fun (s : State) x => s.completeOpt x.command .abortedByRecovery faultNo) s)

/-! ### Ends of operations by isolation, timeout or retirement (R476 to R478) -/

/-- An operation ends without its work: reads are recovered by rebuild or aborted, programs are placed elsewhere. -/
def State.cutOp (s : State) (o : DieOp) (faultNo : Nat) : State :=
  match o.kind with
  | .read a cws x =>
    match x with
    | .media c => s.complete c .abortedByRecovery faultNo
    | .nobody => s
    | x => cws.foldl (fun (s : State) cw => s.startRecovery a cw x true (some faultNo)) s
  | .rebuildRead a cw m => s.mateRead a cw m false
  | .sourceRead sb slot row planes => s.sourceFails sb slot row planes (fun _ _ => true) true (some faultNo)
  | .retry .. | .patrol _ | .calibrate _ => s
  | .program job slot planes => s.report job slot planes (fun _ => false)
  | .erase sb slot => s.modSuperblock sb fun b => { b with erasing := b.erasing.filter (· != slot) }
  | .directProgram c _ _ | .directErase c _ => s.completeOpt c .abortedByRecovery faultNo

/-- The attempts of a recovery on a die end: it goes on by rebuild, with its budget counted anew (R478). -/
def State.cutRecovery (s : State) (r : Recovery) (faultNo : Nat) : State :=
  let (r, s) := s.abortDirect r faultNo
  if r.readers.isEmpty then s.recoveryCancelled r
  else s.nextRecovery { r with rebuilding := true, since := s.now }
/-- Every operation queued, running or suspended on a die ends, and so do the attempts of recoveries on it. -/
def State.cutDie (s : State) (c d faultNo : Nat) : State :=
  let x := s.die c d
  let ops := x.running.toList ++ x.suspended.toList ++ x.resetting.toList ++ x.queue
  let s := s.modDie c d fun x => { x with queue := [], running := none, suspended := none, resetting := none,
                                          nestedUsed := false }
  let rs := s.media.recoveries.filter fun r => r.addr.channel == c && r.addr.die == d && !r.rebuilding
  let s := ops.foldl (fun (s : State) o => s.cutOp o faultNo) s
  rs.foldl (fun (s : State) r => match s.recovery? r.addr r.codeword with
    | some r => s.cutRecovery r faultNo
    | none => s) s

/-- A channel is isolated on a cause of Table 15-7, with a fault of its own (R477, R478). -/
def State.isolateOn (s : State) (c cause : Nat) : State :=
  let (f, s) := s.newFault
  let s := s.modChannel c fun x => { x with isolated := true, cause := cause, isolateFault := f }
  let s := s.mediaLog { kind := 6, group := c / 8, channel := c, faultNo := f, detail := cause }
  let s := s.shellEdge c 7
  let s := (List.range s.diesPerChannel).foldl (fun (s : State) d => s.cutDie c d f) s
  s.judgeReadOnly (c / 8)
/-- Isolate a channel that is not isolated yet. -/
def State.isolate (s : State) (c cause : Nat) : State :=
  if (s.channel c).isolated then s else s.isolateOn c cause

/-- Retire a die (R476, R511, R513): its superblocks are queued for relocation. -/
def State.retireDie (s : State) (c d : Nat) : State :=
  let (f, s) := s.newFault
  let s := s.modDie c d fun x => { x with retired := true, retireFault := f }
  let s := s.modMedia fun m => { m with diesRetired := satAdd32 m.diesRetired 1
                                        superblocks := m.superblocks.map fun b =>
    if (b.slots.any fun k => slotPlace b.group b.set k == (c, d)) then { b with refresh := true } else b }
  let s := s.mediaLog { kind := 5, group := c / 8, channel := c, die := d, faultNo := f }
  let s := s.retireLog 3 0 f c d 0xFF 0xFFFF 0
  (s.cutDie c d f).judgeReadOnly (c / 8)

/-- A member failed to program: the block is retired and its superblock queued for relocation (R501, R511)
(DEDUCED, log entry 79). -/
def State.programFailed (s : State) (b : Superblock) (slot plane row : Nat) (found : Option Nat := none) : State :=
  let a := b.page slot plane row
  let (f, s) := match found with
    | some f => (f, s)
    | none => s.newFault
  let s := s.mediaLog { kind := 2, group := b.group, channel := a.channel, die := a.die, plane := plane,
                        block := a.block, page := row, faultNo := f } (fault := found.isNone)
  let s := s.modSuperblock b.id fun x => { x with refresh := true, closed := true }
  s.retireBlock { channel := a.channel, die := a.die, plane := plane, block := a.block } 2 f

/-! ### The flush of a power loss (R502) -/

/-- Member number of a slot and plane of a row: four for each slot of the superblock, in slot order. -/
def Superblock.member (b : Superblock) (slot plane : Nat) : Nat := 4 * b.slots.idxOf slot + plane

/-- Program one row of dirty content at once, on the first set of `sets` that can take it: whether the row is durable, and
its units. `failed` names members of rows whose programs fail, as row and member; rows count up through the flush
(DEDUCED, log entry 79). -/
def State.flushAttempt (s : State) (g k : Nat) (failed : List (Nat × Nat)) (sets : List Nat) :
    Option (Bool × List (Nat × Nat × Nat) × Nat × State) :=
  match s.target g .writes sets with
  | none => none
  | some (b, s) =>
    let us := (((s.media.buffer.filter fun x => x.dirty && s.unitGroup x.fn x.nsid == some g).map
      fun x => (x.fn, x.nsid, x.lba / 4)).eraseDups).take (4 * b.d)
    let items := us.map fun u => (Item.unit u.1 u.2.1 u.2.2, s.unitData u)
    let row := b.nextRow
    let id := s.media.nextJob
    let members := rowMembers b row items
    let j : RowJob := { id := id, superblock := b.id, row := row, kind := .writes, members := members }
    let bad (slot plane : Nat) : Bool := failed.contains (k, b.member slot plane)
    let lostMembers := members.filter fun m => bad m.slot m.plane
    let s := s.modMedia fun m => { m with
      nextJob := id + 1
      rotate := m.rotate.set g ((b.set + 1) % s.setsPerGroup)
      failedMembers := m.failedMembers ++ lostMembers.map fun (x : Member) => (b.id, x.slot, x.plane, row) }
    let s := b.slots.foldl (fun (s : State) k => s.storeMembers j k [0, 1, 2, 3] (bad k)) (s.advance b.id)
    let s := s.recordRole g
    let durable := decide (lostMembers.length ≤ 2)
    let s := if durable then
        members.foldl (fun (s : State) m => match m.item with
          | .unit fn nsid u => s.mapUnit fn nsid u b.id (b.pageNumber row m.slot m.plane) id
          | _ => s) s
      else s
    let s := if durable && !lostMembers.isEmpty then
        s.modMedia fun m => { m with degradedRows := m.degradedRows ++ [(b.id, lostMembers.length)] }
      else s
    some (durable, us, b.set, s)

/-- Forget buffered units; blocks of a lost row are kept for the deferred errors of the next start. -/
def State.flushed (s : State) (us : List (Nat × Nat × Nat)) (lost : Bool) : State :=
  let mine (x : WbBlock) : Bool := x.dirty && us.contains (x.fn, x.nsid, x.lba / 4)
  s.modMedia fun m => { m with
    buffer := m.buffer.filter fun x => !mine x
    lostBlocks := if lost then m.lostBlocks ++ (m.buffer.filter mine).map fun x => (x.fn, x.nsid, x.lba, x.seq) else m.lostBlocks }

/-- Program one row, and once more on another set when three or more members have failed
(DEDUCED, log entry 79). -/
def State.flushRow (s : State) (g k : Nat) (failed : List (Nat × Nat)) : Option (State × Nat) :=
  match s.flushAttempt g k failed (s.rotation g) with
  | none => none
  | some (true, us, _, s) => some (s.flushed us false, k + 1)
  | some (false, us, set, s) =>
    match s.flushAttempt g (k + 1) failed ((s.rotation g).filter (· != set)) with
    | none => some (s.flushed us true, k + 1)
    | some (ok, us, _, s) => some (s.flushed us (!ok), k + 2)

/-- Program the dirty content of a group, row after row. -/
def State.flushGroup (s : State) (g : Nat) (failed : List (Nat × Nat)) : Nat → Nat → State × Nat
  | 0, k => (s, k)
  | f + 1, k =>
    if (s.media.buffer.any fun x => x.dirty && s.unitGroup x.fn x.nsid == some g) then
      match s.flushRow g k failed with
      | some (s, k) => s.flushGroup g failed f k
      | none => (s.modMedia fun m => { m with
          lostBlocks := m.lostBlocks ++ (m.buffer.filter fun x => x.dirty && s.unitGroup x.fn x.nsid == some g).map
            fun x => (x.fn, x.nsid, x.lba, x.seq)
          buffer := m.buffer.filter fun x => !(x.dirty && s.unitGroup x.fn x.nsid == some g) }, k)
    else (s, k)

/-- Phase P2: operations end, and all dirty content is programmed; the rest of the buffer is dropped (R498, R502).
`failed` names the members of rows whose programs fail. -/
def State.flushAll (s : State) (failed : List (Nat × Nat)) : State :=
  let s := s.modMedia fun m => { m with
    dies := m.dies.map fun x => { x with queue := [], running := none, suspended := none, resetting := none,
                                         nestedUsed := false }
    jobs := [], reads := [], flushes := [], recoveries := [], copied := []
    buffer := (m.buffer.filter (·.dirty)).map fun x => { x with job := none } }
  ((List.range 4).foldl (fun (acc : State × Nat) g =>
    acc.1.flushGroup g failed acc.1.media.buffer.length acc.2) (s, 0)).1

end Sys2Proof.Machine
end

