-- ==== Sys2Proof/Machine/Invocations.lean ====
section
/-!
DEFINITION. Invocations.lean: the counter pool, and how an invocation holds its model's home, stops and ends
(chapters 07 and 08): the operations that every bump, fault, timeout and reset shares.
-/

namespace Sys2Proof.Machine

/-! ### Parts of a tenant (R254, R264) -/

/-- Model slot `m` of tenant `t`. -/
def State.model? (s : State) (t m : Nat) : Option Model := (s.tenant t).models.find? (·.slot == m)
/-- Change the model in a slot. -/
def State.modModel (s : State) (t m : Nat) (f : Model → Model) : State :=
  s.modTenant t fun x => { x with models := x.models.map fun y => if y.slot = m then f y else y }
/-- Change a buffer of a tenant. -/
def State.modBuffer (s : State) (t index : Nat) (f : Buffer → Buffer) : State :=
  s.modTenant t fun x => { x with buffers := x.buffers.map fun b => if b.index = index then f b else b }
/-- A buffer of a tenant by index. -/
def State.bufferAt (s : State) (t index : Nat) : Option Buffer := (s.tenant t).buffers.find? (·.index == index)
/-- Change the invocation of a command. -/
def State.modInv (s : State) (r : CmdRef) (f : Invocation → Invocation) : State :=
  { s with invocations := s.invocations.map fun i => if i.ref = r then f i else i }
/-- The invocation with a tag. -/
def State.invocation? (s : State) (t tag : Nat) : Option Invocation :=
  s.invocations.find? fun i => i.tenant == t && i.tag == tag && tag != 0
/-- The invocation that a spindle runs. -/
def State.onSpindle (s : State) (sp : Nat) : Option Invocation :=
  s.invocations.find? fun i => i.phase != .waiting && i.spindle == sp
/-- Does the entry belong to the invocation? -/
def QEntry.of (e : QEntry) (i : Invocation) : Bool := e.tenant == i.tenant && e.tag == i.tag
/-- Does a queue still hold a command of the invocation? -/
def State.hasCommands (s : State) (i : Invocation) : Bool := s.queues.any fun q => q.entries.any (·.of i)
/-- The indexes of the buffers that an invocation references: bound buffers and its model's plan (R211). -/
def State.references (s : State) (i : Invocation) : List Nat :=
  ((i.binds.filter fun h => h != 0xFFFFFFFF) ++ (match s.model? i.tenant i.slot with
    | some m => m.plan
    | none => [])).map fun h => bits h 19 0
/-- `SPINDLES` of the tenants before tenant `t`: the first spindle of the tenant
(DESIGN CHOICE, log entry 50). -/
def State.firstSpindle (s : State) (t : Nat) : Nat :=
  (s.pers.active.tenants.take t).foldl (fun a r => a + r.spindles) 0

/-! ### The counter pool (R264 to R266, R281 to R288) -/

/-- The greatest value of a counter. -/
def ctrMax : Nat := 2 ^ 48 - 1
/-- Is an absolute index in a tenant's range? -/
def State.ownsCtr (s : State) (t c : Nat) : Bool :=
  match s.record t with
  | some r => decide (r.counterBase ≤ c) && decide (c < r.counterBase + r.counterCount)
  | none => false
/-- The fault number of a poisoned counter (Table 17-5, structure 6)
(DEDUCED, log entry 52). -/
def State.ctrPoison (s : State) (c : Nat) : Option Nat := (s.prot.sram.getD 6 {}).poison.lookup c
/-- The value of a counter: one outside every range reads 0 (R264), a poisoned one 2^48 - 1. -/
def State.ctr (s : State) (c : Nat) : Nat :=
  if !(List.range 16).any (s.ownsCtr · c) then 0
  else if (s.ctrPoison c).isSome then ctrMax
  else (s.ctrs.values.lookup c).getD 0
/-- Is a counter saturated? -/
def State.ctrSat (s : State) (c : Nat) : Bool := s.ctrs.saturated.contains c
/-- Set a counter's value in the pool, keeping the list in rising order without zeros. -/
def CtrPool.set (p : CtrPool) (c v : Nat) : CtrPool :=
  { p with values := p.values.filter (fun x => decide (x.1 < c)) ++ (if v = 0 then [] else [(c, v)])
      ++ p.values.filter (fun x => decide (c < x.1)) }
/-- Set the counters of a tenant's range to 0 and clear their saturation marks, in one step (R287). -/
def State.zeroCounters (s : State) (t : Nat) : State :=
  let s' := { s with ctrs := {
    values := s.ctrs.values.filter fun x => !s.ownsCtr t x.1
    saturated := s.ctrs.saturated.filter fun x => !s.ownsCtr t x
    after := s.ctrs.after.filter fun x => !s.ownsCtr t x.1 } }
  let s' := s'.modProt fun p => { p with
    sram := p.sram.modify 6 fun u => { u with poison := u.poison.filter fun w => !s.ownsCtr t w.1 } }
  s'.modTenant t fun x => { x with saturatedFlag := false, satCtr := none, outside := [] }

/-! ### Counter chains (R240) -/

/-- The commands, as tag and number, that had ended before some bump of a counter
(DESIGN CHOICE, log entry 63). -/
def State.after (s : State) (c : Nat) : List (Nat × Nat) := (s.ctrs.after.filter (·.1 == c)).map (·.2)
/-- A counter is bumped after these commands have ended. -/
def State.teach (s : State) (c : Nat) (l : List (Nat × Nat)) : State :=
  { s with ctrs := { s.ctrs with after := (l.map (Prod.mk c) ++ s.ctrs.after).eraseDups } }
/-- The host, or another module, has been given the value of a counter of tenant `t`. -/
def State.tell (s : State) (t : Nat) (l : List (Nat × Nat)) : State :=
  s.modTenant t fun x => { x with outside := (l ++ x.outside).eraseDups }
/-- No command of an invocation runs any more: its tag may be given again. -/
def State.forget (s : State) (t tag : Nat) : State :=
  { s with ctrs := { s.ctrs with after := s.ctrs.after.filter fun x => !(s.ownsCtr t x.1 && x.2.1 == tag) } }.modTenant t
    fun x => { x with outside := x.outside.filter (·.1 != tag) }
/-- The spindle of an invocation goes on knowing that these commands have ended. -/
def Invocation.learn (i : Invocation) (l : List (Nat × Nat)) : Invocation :=
  { i with knows := (l ++ i.knows).eraseDups }
/-- What an invocation whose commands have all ended knows. -/
def Invocation.learnt (i : Invocation) : List (Nat × Nat) :=
  (i.knows ++ i.trace.flatMap fun x => (i.tag, x.ord) :: x.knows).eraseDups

/-! ### The home (R256) -/

/-- Slots that a tenant holds in a queue. -/
def State.slotsHeld (s : State) (t q : Nat) : Nat := ((s.queue q).entries.filter (·.tenant == t)).length
/-- May the tenant place one more command in a queue (R233, R234)? -/
def State.slotFree (s : State) (t q : Nat) : Bool :=
  decide (s.slotsHeld t q < ((s.record t).map (·.queueSlots)).getD 0) && decide ((s.queue q).entries.length < 256)
/-- The DMA queue that an internal move goes to: an instance that is online and has a slot, else any with a slot
(DEDUCED, log entry 51). -/
def State.moveQueue (s : State) (t : Nat) : Option Nat :=
  ((List.range 8).find? fun q => s.slotFree t q && (s.queue q).offline.isNone).or
    ((List.range 8).find? fun q => s.slotFree t q)
/-- Place an image load or persist of an invocation; `none` while no slot is free
(DEDUCED, log entries 51, 88). -/
def State.placeMove (s : State) (i : Invocation) (o : CmdOrigin) : Option State :=
  (s.moveQueue i.tenant).map fun q => s.modQueue q fun x => { x with
    entries := x.entries ++
      [{ tenant := i.tenant, tag := i.tag, origin := o, lane := i.lane, word := 0xFFFFFFFF, expedite := i.expedite }] }

/-- The module writes zeros over the poisoned blocks of a buffer (Table 17-6). -/
def State.zeroPoison (s : State) (t : Nat) (b : Buffer) : State :=
  let mine (k : Nat) (w : Nat × Nat) : Bool := b.place.contains { stack := k, index := w.1 / 128 }
  let bad := s.prot.dramStacks.zipIdx.flatMap fun k => (k.1.poison.filter (mine k.2)).map fun w =>
    128 * b.place.idxOf { stack := k.2, index := w.1 / 128 } + w.1 % 128
  if bad.isEmpty then s
  else
    let s := s.modBuffer t b.index fun x => { x with
      data := bad.foldl (fun r k => r.put (512 * k) (List.replicate (min 512 (x.size - 512 * k)) 0)) x.data }
    s.modProt fun p => { p with
      dramStacks := p.dramStacks.zipIdx.map fun k => { k.1 with poison := k.1.poison.filter fun w => !mine k.2 w } }

/-- An invocation begins to run its words: the poisoned blocks of the scratch buffers it references are written with zeros
(Table 17-6), and those that no other invocation references become undefined, but for the first start after their
allocation (Table 09-3). -/
def State.beginRun (s : State) (i : Invocation) : State :=
  let mine := s.references i
  let others := (s.invocations.filter (·.ref != i.ref)).flatMap fun j => if j.tenant = i.tenant then s.references j else []
  let s := mine.eraseDups.foldl (fun (s : State) x =>
    match s.bufferAt i.tenant x with
    | none => s
    | some b =>
      if b.placement ≠ .scratch then s
      else
        let s := s.zeroPoison i.tenant b
        if others.contains x then s
        else if !b.used then s.modBuffer i.tenant x fun b => { b with used := true }
        else
          let (r, s) := s.drawRegion
          s.modBuffer i.tenant x fun b => { b with data := r }) s
  s.modInv i.ref fun i => { i with phase := .running, home := true }

/-- Is an invocation in phase E2: its persist waits for a slot, is queued or runs, also after the invocation has been
stopped? -/
def State.inE2 (s : State) (i : Invocation) : Bool :=
  i.phase == .drained || i.phase == .persisting || (i.phase == .stopping
    && s.queues.any fun q => q.entries.any fun e => e.of i && e.origin == .imagePersist)
/-- Let the invocations that wait for a home go on: they join it, or the oldest loads it (R256, R651). -/
def State.pumpHome (s : State) (t m : Nat) : State :=
  let here := s.invocations.filter fun i => i.tenant == t && i.slot == m
  let waiters := here.filter (·.phase == .waitHome)
  match waiters with
  | [] =>
    if here.any (·.home) then s else s.modTenant t fun x => { x with homeValid := x.homeValid.filter (· != m) }
  | w :: _ =>
    if here.any (·.phase == .loading) then s
    else
      let holders := here.filter (·.home)
      let valid := (s.tenant t).homeValid.contains m
      if valid && holders.any (!s.inE2 ·) then
        waiters.foldl (fun (s : State) i => s.beginRun i) s
      else if valid && !holders.isEmpty then s
      else
        let s := s.modTenant t fun x => { x with homeValid := x.homeValid.filter (· != m) }
        if ((s.model? t m).map (·.imageLen)).getD 0 = 0 then
          let s := s.modTenant t fun x => { x with homeValid := m :: x.homeValid }
          waiters.foldl (fun (s : State) i => s.beginRun i) s
        else match s.placeMove w .imageLoad with
          | none => s
          | some s => s.modInv w.ref fun i => { i with phase := .loading, home := true }

/-- Slots have freed: persists and loads that wait for one are placed. -/
def State.pumpWaiters (s : State) : State :=
  let s := (s.invocations.filter (·.phase == .drained)).foldl (fun (s : State) i => match s.placeMove i .imagePersist with
    | none => s
    | some s => s.modInv i.ref fun i => { i with phase := .persisting }) s
  let waiting := (s.invocations.filter (·.phase == .waitHome)).map fun i => (i.tenant, i.slot)
  waiting.eraseDups.foldl (fun (s : State) x => s.pumpHome x.1 x.2) s

/-! ### The end of a run and of an invocation (R212, R219, R222, R259) -/

/-- The host WAIT_GE commands that are pending on a function. -/
def State.hostWaits (s : State) (fn : Nat) : List Cmd :=
  ((s.ctrl fn).outstanding.filter fun o => o.started && o.cmd.sqid != 0 && o.cmd.opcode == 0x9C
    && bits o.cmd.cdw10.toNat 1 0 == 2).map (·.cmd)
/-- The run of a tenant closes: its counters are frozen, and pending host waits end (R219, R222). -/
def State.closeRun (s : State) (t : Nat) : State :=
  let s := s.modTenant t fun x => { x with runOpen := false }
  (s.hostWaits (t + 1)).foldl (fun (s : State) c => s.complete c.ref .abortedByRecovery) s

/-- Free what an invocation holds in the engines: tiles, mask registers, contexts; and discard the units read ahead for
its scans (R420). -/
def State.releaseHeld (s : State) (t tag : Nat) : State :=
  let mine (h : Option Holder) : Bool := h == some { tenant := t, tag := tag }
  { s with
    pairs := s.pairs.map fun p => { p with
      acc := p.acc.map fun x => if mine x.holder then { x with holder := none } else x
      tiles := p.tiles.map fun x => if mine x.holder then { x with holder := none } else x
      masks := p.masks.map fun x => if mine x.holder then { x with holder := none } else x }
    rasp := s.rasp.map fun u => { u with
      ctxs := u.ctxs.map fun x => if mine x.holder then { x with holder := none } else x
      aheadCount := satAdd32 u.aheadCount (u.ahead.filter fun x => x.1 == t && x.2.1 == tag).length
      ahead := u.ahead.filter fun x => !(x.1 == t && x.2.1 == tag)
      passedBy := u.passedBy.map fun x => if x.1 = t && x.2.1 = tag then (x.1, x.2.1, true) else x } }

/-- DW1 of an invocation's completion (Table 06-17). -/
def Invocation.dw1 (i : Invocation) : Nat := i.flags.toNat + 65536 * i.tag

/-- An invocation is over: it leaves its spindle, its tiles and its home, its completion is posted, and a forced
RUN END that waited for it closes the run
(DEDUCED, log entry 51). -/
def State.endInv (s : State) (i : Invocation) (st : Status) (dw0 : Nat) : State :=
  let s := if i.tag = 0 then s else (s.releaseHeld i.tenant i.tag).forget i.tenant i.tag
  let s := { s with invocations := s.invocations.filter (·.ref != i.ref) }
  let s := if i.silent then s else s.complete i.ref st dw0 i.dw1
  let s := s.pumpHome i.tenant i.slot
  if (s.invocations.any (·.tenant == i.tenant)) then s
  else match (s.tenant i.tenant).ending with
    | none => s
    | some r => ((s.closeRun i.tenant).modTenant i.tenant fun x => { x with ending := none }).complete r .success

/-- Stop an invocation (R189, R259): what it has queued is removed, what has started runs to its end without a
bump, and its completion is posted once that has ended
(DEDUCED, log entry 51). -/
def State.stopInv (s : State) (i : Invocation) (sc dw0 : Nat) (silent : Bool := false) : State :=
  if i.phase = .stopping then s.modInv i.ref fun i => { i with silent := i.silent || silent }
  else
    let cut (q : Queue) : Queue :=
      { q with
        entries := (q.entries.filter fun e => !(e.of i && e.outcome == .queued && i.tag != 0)).map fun e =>
          if e.of i && i.tag != 0 then { e with discard := true } else e }
    let s := { s with queues := s.queues.map cut }
    let i := { i with endSc := sc, endDw0 := dw0, silent := i.silent || silent }
    let s := if i.tag ≠ 0 && s.hasCommands i then
        (s.modInv i.ref fun _ => { i with phase := .stopping }).pumpHome i.tenant i.slot
      else s.endInv i (.vendor sc) dw0
    s.pumpWaiters

/-- The status of a reason of Table 07-6. -/
def StopReason.status : StopReason → Nat
  | .counterRange => 0x99
  | .spillFull => 0x86
  | .memory => 0x91
  | .media => 0x92
  | _ => 0x8D
/-- The code of a reason of Table 07-6. -/
def StopReason.code : StopReason → Nat
  | .illegalWord => 1
  | .badInstance => 2
  | .classNotDeclared => 3
  | .wordBeyondProgram => 4
  | .frameMismatch => 5
  | .counterRange => 6
  | .spillFull => 7
  | .addressOutside => 8
  | .badBody => 9
  | .groupBlocked => 10
  | .instanceOffline => 11
  | .memory => 12
  | .media => 13

/-- Stop an invocation for a cause of Table 07-6. The reasons 0x01 to 0x0A find the fault; the others carry the
number of the entry that found it (R258, R259, R613). -/
def State.faultInv (s : State) (i : Invocation) (why : StopReason) (faultNo queue word : Nat) : State :=
  if i.phase = .stopping then s
  else
    let (f, s) := if why.code ≤ 10 then s.newFault else (faultNo, s)
    let s := { s with engFaults := satAdd32 s.engFaults 1 }
    let s := s.health { event := 1, status := why.status, reason := why.code, tenant := i.tenant, faultNo := f,
                        tag := i.tag, queue := queue, word := word, detail := bytesOfLe 1 i.slot }
    s.stopInv i why.status (if why = .counterRange then 0 else f)

/-- Stop an invocation because a counter it waits on is saturated (R283). -/
def State.satInv (s : State) (i : Invocation) (c queue word : Nat) : State :=
  if i.phase = .stopping then s
  else
    let s := s.health { event := 1, status := 0x85, tenant := i.tenant, tag := i.tag, queue := queue, word := word,
                        detail := bytesOfLe 1 i.slot }
    s.stopInv i 0x85 c

/-- The program word a spindle is at, as a number of 512 bits; `none` past the end of the PROGRAM section. -/
def State.programWord (s : State) (i : Invocation) (w : Nat) : Option (BitVec 512) :=
  match s.model? i.tenant i.slot with
  | none => none
  | some m => if 64 * (w + 1) ≤ m.programLen then
      some (BitVec.ofNat 512 (m.package.le (m.programOff + 64 * w) 64)) else none

/-- Bits `[hi:lo]` of byte `b` on of a descriptor. -/
def fld (d : BitVec 512) (b hi lo : Nat) : Nat := (d.toNat >>> (8 * b + lo)) % 2 ^ (hi + 1 - lo)

/-- `ITER_SCALE`. -/
def iterScale (d : BitVec 512) : Bool := fld d 1 6 6 == 1
/-- The iterations of the LOOP frames, innermost first. -/
def itersOf (l : List WinFrame) : List Nat :=
  l.filterMap fun f => match f with
    | .loop _ _ k => some k
    | .call _ => none
/-- ITER0 and ITER1. -/
def Invocation.iters (i : Invocation) : Nat × Nat :=
  let l := itersOf (i.stack ++ i.spilled)
  (l.getD 0 0, l.getD 1 0)
/-- The target of a wait on a block-relative counter: its base and an offset, scaled by the iteration (R237, R274)
(DEDUCED, log entry 52). -/
def Invocation.target (i : Invocation) (k offset : Nat) (scale : Bool) : Nat :=
  i.bases.getD k 0 + (if scale then offset * (i.iters.1 + 1) else offset)

/-- The counter and target that a spindle stalled on a header wait waits for. -/
def State.stalledOn (s : State) (i : Invocation) : Option (Nat × Nat) :=
  if i.phase ≠ .waitCtr then none
  else match s.model? i.tenant i.slot, s.programWord i i.word with
    | some m, some d => some (m.counterFirst + fld d 6 12 0, i.target (fld d 6 12 0) (fld d 8 31 0) (iterScale d))
    | _, _ => none
/-- The queue, if any, and word at which an invocation waits for a counter that has not reached its target: `none` when it
does not. -/
def State.waitsOn (s : State) (i : Invocation) (c : Nat) : Option (Nat × Nat) :=
  let queued := ((List.range 78).flatMap fun q => (s.queue q).entries.map fun e => (q, e)).find? fun x =>
    x.2.of i && i.tag != 0 && x.2.outcome == .queued && (match x.2.wait with
      | some (w, v) => w == c && decide (s.ctr c < v)
      | none => false)
  match queued with
  | some (q, e) => some (q, e.word)
  | none => match s.stalledOn i with
    | some (k, v) => if k = c && decide (s.ctr c < v) then some (0xFF, i.word) else none
    | none => none

/-- A bump takes a counter past its greatest value: it is marked saturated, the waits on it that have not passed stop
their invocations, and host waits on it that have not been satisfied end (R219, R281 to R283)
(DEDUCED, log entry 52). -/
def State.saturate (s : State) (t c : Nat) : State :=
  let waits := s.invocations.filterMap fun i => (s.waitsOn i c).map fun x => (i, x)
  let host := (s.hostWaits (t + 1)).filter fun k =>
    bits k.cdw11.toNat 12 0 == c && decide (s.ctr c < k.cdw12.toNat + 2 ^ 32 * bits k.cdw13.toNat 15 0)
  let s := { s with ctrs := { s.ctrs.set c ctrMax with saturated := c :: s.ctrs.saturated } }
  let s := if (s.tenant t).saturatedFlag then s
    else s.modTenant t fun x => { x with saturatedFlag := true, satCtr := some c }
  let s := s.health { event := 4, status := 0x85, tenant := t, detail := bytesOfLe 2 c }
  let s := waits.foldl (fun (s : State) x => s.satInv x.1 c x.2.1 x.2.2) s
  host.foldl (fun (s : State) k => s.complete k.ref .counterSaturated c) s

/-- Apply a bump of a tenant (R266, R281, R288): nothing while the tenant's run is not open or the counter is
another's, and nothing to a saturated or poisoned counter
(DEDUCED, log entry 52). -/
def State.bump (s : State) (t c inc : Nat) : State :=
  if !(s.tenant t).runOpen || !s.ownsCtr t c || s.ctrSat c || (s.ctrPoison c).isSome then s
  else
    let v := s.ctr c + inc
    if v ≤ ctrMax then { s with ctrs := s.ctrs.set c v } else s.saturate t c

/-- Apply a bump that may be absent, after these commands have ended (R240). -/
def State.bumpAfter (s : State) (t : Nat) (l : List (Nat × Nat)) : Option (Nat × Nat) → State
  | none => s
  | some (c, n) => (s.teach c l).bump t c n
/-- Apply a bump that may be absent. -/
def State.bumpOpt (s : State) (t : Nat) : Option (Nat × Nat) → State
  | none => s
  | some (c, n) => s.bump t c n

end Sys2Proof.Machine
end

