-- ==== Sys2Proof/Machine/Counters.lean ====
section
/-!
DEFINITION. Counters.lean: the COUNTER command and the counter write of the tenant window (chapters 06 and 08).
-/

namespace Sys2Proof.Machine

/-- The deadline check of step 5 (R186, R199). -/
def State.deadlineBad (s : State) (ms : Nat) : Option Status :=
  if ms ≠ 0 && (decide (ms < s.pcie.floorMs) || decide (ms > 60000)) then some .invalidField else none

/-- `CTR` of a COUNTER command (Table 06-13). -/
def counterOf (c : Cmd) : Nat := bits c.cdw11.toNat 12 0
/-- `VALUE` of a WAIT_GE. -/
def waitValue (c : Cmd) : Nat := c.cdw12.toNat + 2 ^ 32 * bits c.cdw13.toNat 15 0
/-- Complete a COUNTER command with a counter's value in DW0 and DW1 (R218). -/
def State.completeValue (s : State) (c : Cmd) : State :=
  let v := s.ctr (counterOf c)
  (s.tell c.tenant (s.after (counterOf c))).complete c.ref .success (v % 2 ^ 32) (v / 2 ^ 32)

/-- COUNTER READ (R218). A command with the reserved subcode 3 is given to this row, and ends at step 3 of R199
(DEDUCED, log entry 54). -/
def execCounterRead (c : Cmd) (s : State) : Out :=
  s.vendor c false false (fun _ => if bits c.cdw10.toNat 1 0 = 3 then some .invalidField else none) fun s =>
    if !s.ownsCtr c.tenant (counterOf c) then s.complete c.ref .counterOutOfRange
    else s.completeValue c

/-- COUNTER BUMP (R218, R22): the completion returns the new value. -/
def execCounterBump (c : Cmd) (s : State) : Out :=
  s.vendor c false true (fun _ => none) fun s =>
    if !s.ownsCtr c.tenant (counterOf c) then s.complete c.ref .counterOutOfRange
    else (s.bumpAfter c.tenant (s.tenant c.tenant).outside (some (counterOf c, bits c.cdw12.toNat 15 0))).completeValue c

/-- COUNTER WAIT_GE (R218, R219, R284): at once, or pending, at most 64 on a function
(DEDUCED, log entry 53). -/
def execCounterWaitGe (c : Cmd) (s : State) : Out :=
  s.vendor c false true (fun s => s.deadlineBad (bits c.cdw14.toNat 15 0)) fun s =>
    let k := counterOf c
    if !s.ownsCtr c.tenant k then s.complete c.ref .counterOutOfRange
    else if s.ctrSat k then s.complete c.ref .counterSaturated k
    else if s.ctr k ≥ waitValue c then s.completeValue c
    else if ((s.hostWaits c.fn).filter (·.ref != c.ref)).length ≥ 64 then s.complete c.ref .reservationExceeded
    else s

/-- COUNTER_WAIT_SATISFIED: a pending WAIT_GE whose counter has reached its value completes. -/
def execCounterWaitSatisfied (ref : CmdRef) (s : State) : Out :=
  match (s.hostWaits ref.fn).find? (·.ref == ref) with
  | none => .next s
  | some c => .next (if s.ctr (counterOf c) ≥ waitValue c then s.completeValue c else s)

/-- Does tenant `t` have a virtual function on the bus: VF Enable is set, `NumVFs` and the active `TENANT_COUNT` reach it
(R80, R151)? -/
def State.vfLive (s : State) (t : Nat) : Bool :=
  s.pcie.vfEnable && decide (t < s.pcie.numVfs) && decide (t < s.pers.active.tenants.length)

/-- TCTR_BUMP: an 8-byte write to `TCTR_BUMP` of the tenant window (R294). -/
def execTctrBump (tenant : Nat) (value : Qword) (s : State) : Out := s.whenOpen <|
  if !s.vfLive tenant || (s.record tenant).isNone then .next s
  else
    let c := bits value.toNat 12 0
    let inc := bits value.toNat 47 32
    if (s.tenant tenant).runOpen && s.ownsCtr tenant c then .next (s.bumpAfter tenant (s.tenant tenant).outside (some (c, inc)))
    else .next (s.modTenant tenant fun t => { t with
      refused := satAdd32 t.refused 1
      lastRefusedIdx := c
      lastRefusedWhy := if t.runOpen then 1 else 2 })

end Sys2Proof.Machine
end

