-- ==== Sys2Proof/Machine/MediaMgmt.lean ====
section
/-!
DEFINITION. MediaMgmt.lean: the events of channels, dies and media management (chapters 15 and 16).
-/

namespace Sys2Proof.Machine

/-! ### Channels and dies (R457, R461 to R478) -/

/-- Start what waits on every die of a channel. -/
def State.kickChannel (s : State) (c : Nat) : State :=
  (List.range s.diesPerChannel).foldl (fun (s : State) d => s.kick c d) s

/-- CHANNEL_TRAINING: a channel that has not trained since the last reset trains at the highest mode that works; one that was
isolated returns, or is isolated anew (R457, R477). -/
def execChannelTraining (channel : Nat) (works : Option Nat) (s : State) : Out := s.whenOn <|
  let x := s.channel channel
  let cap := s.media.maxMode
  if x.trained || !s.power.railsUp then .next s
  else
    match works with
    | none | some 0 =>
      .next ((s.modChannel channel fun x => { x with trained := true, trainFails := cap }).isolateOn channel 4)
    | some m =>
      let m := min m cap
      let s := if x.isolated then s.shellEdge channel 7 else s
      let s := s.modChannel channel fun x =>
        { x with mode := m, trained := true, isolated := false, cause := 0, belowCap := decide (m < cap), trainFails := cap - m }
      let s := if m < 5 then s.mediaLog { kind := 7, group := channel / 8, channel := channel } (fault := false) else s
      .next ((if x.isolated then s.judgeReadOnly (channel / 8) else s).kickChannel channel)

/-- A die fails LDPC on a first read (Table 15-7). -/
def State.firstFail (s : State) (c d : Nat) : State :=
  s.modChannel c fun k => { k with
    firstFails := (d, s.now) :: k.firstFails.filter fun f => f.1 != d && decide (s.now < f.2 + 1000) }
/-- A page read ends: codewords that decode reach their reader, the others go to recovery (R461, R469). -/
def State.pageRead (s : State) (c d : Nat) (a : PageAddr) (cws : List Nat) (x : Reader) (failing : List Nat) : State :=
  let raw := match x with
    | .media r => match s.command? r with
      | some cmd => cmd.cdw13.getLsbD 0
      | none => true
    | _ => false
  let broken := match s.flashPage a with
    | some p => p.bad
    | none => true
  let bad := if raw then [] else cws.filter fun w => broken || failing.contains w
  let good := cws.filter fun w => !bad.contains w
  let s := good.foldl (fun (s : State) w => s.deliver x (match s.flashPage a with
    | some p => p.codeword w
    | none => [])) s
  let s := if x = .nobody then s else bad.foldl (fun (s : State) w => s.startRecovery a w x false) s
  let s := if bad.isEmpty then (match x with
    | .media r => s.mediaReadDone r a
    | _ => s) else s
  if bad.isEmpty then s else s.firstFail c d

/-- PAGE_READ_DONE. `supervision` is what the channel controller finds: 1 a chip enable that does not follow its
drive, 2 a training pattern check that fails (Table 15-7)
(DESIGN CHOICE, log entry 84). -/
def execPageReadDone (channel die : Nat) (failing : List Nat) (supervision : Nat) (s : State) : Out :=
  match s.running channel die with
  | none => .next s
  | some o =>
    let done (s : State) : Out :=
      let s := if supervision = 2 && decide ((s.channel channel).firstFails.length ≥ 4) then s.isolate channel 2 else s
      .next (s.kick channel die)
    if o.isRead && supervision = 1 then .next (s.isolate channel 1)
    else match o.kind with
    | .read a cws x => done ((s.endRunning channel die).pageRead channel die a cws x failing)
    | .rebuildRead a cw m => done ((s.endRunning channel die).mateRead a cw m (!failing.contains cw))
    | .sourceRead sb slot row planes =>
      let bad (p w : Nat) : Bool := failing.contains (4 * p + w) || match s.superblock sb with
        | some b => ((s.flashPage (b.page slot p row)).map (·.bad)).getD true
        | none => false
      let s := s.endRunning channel die
      let s := if planes.any fun p => (List.range 4).any (bad p) then s.firstFail channel die else s
      done (s.sourceFails sb slot row planes bad false none)
    | _ => .next s

/-- An attempt of a recovery with the next level set has been made (R469, R472, R474). -/
def State.attempted (s : State) (r : Recovery) (decodes : Bool) : State :=
  let (readers, s) := s.stillWaiting r
  let r := { r with readers := readers }
  if readers.isEmpty then s.recoveryCancelled r
  else
    let set := (retrySets (s.zoneSet r.addr)).getD r.tried 0
    let s := if r.tried = 0 then s.modMedia fun m => { m with retryReads := satAdd32 m.retryReads 1 } else s
    let r := { r with tried := r.tried + 1 }
    match s.flashPage r.addr with
    | some p =>
      if decodes && !p.bad then
        let s := s.setZone r.addr.channel r.addr.die (zoneOf r.addr) set
        let s := if r.tried > 2 then s.recoveryLog r 1 set else s
        s.recovered r (p.codeword r.codeword)
      else s.nextRecovery r
    | none => s.nextRecovery r
/-- READ_RETRY_ATTEMPT: the attempt that runs on the codeword's die ends
(DESIGN CHOICE, log entry 84). -/
def execReadRetryAttempt (addr : PageAddr) (codeword : Nat) (decodes : Bool) (s : State) : Out :=
  if (s.running addr.channel addr.die).map (·.kind) ≠ some (.retry addr codeword) then .next s
  else
    let s := s.endRunning addr.channel addr.die
    let s := match s.recovery? addr codeword with
      | none => s
      | some r => if r.rebuilding then s else s.attempted r decodes
    .next (s.kick addr.channel addr.die)

/-- STRIPE_REBUILD: a rebuild whose members have been read ends (R490, R491)
(DESIGN CHOICE, log entry 84). -/
def execStripeRebuild (addr : PageAddr) (codeword : Nat) (recovered : Bool) (s : State) : Out :=
  match s.recovery? addr codeword with
  | none => .next s
  | some r =>
    if !r.rebuilding || !r.waits.isEmpty then .next s
    else
      let (readers, s) := s.stillWaiting r
      let r := { r with readers := readers }
      if readers.isEmpty then .next (s.recoveryCancelled r)
      else
        let data := match s.dataPageAt addr with
          | some (b, q) =>
            let l := b.locate q
            (s.rebuild b l.2.1 l.2.2 l.1 r.erased).map fun bs => (b, l, bs)
          | none => none
        match data with
        | some (b, l, bs) =>
          if recovered then
            let s := s.modMedia fun m => { m with rebuilt := satAdd32 m.rebuilt 1 }
            let s := s.modSuperblock b.id fun x => { x with refresh := true, doomed := (l.2.1, l.2.2) :: x.doomed }
            let s := s.recoveryLog r 2 0
            .next (s.recovered r ((bs.drop (4096 * codeword)).take 4096))
          else .next (s.unrecovered r)
        | none => .next (s.unrecovered r)

/-- A program breaks the order of R454: the page is programmed, or a later page of its block is. -/
def State.outOfOrder (s : State) (a : PageAddr) : Bool :=
  s.media.pages.any fun p => p.addr.channel == a.channel && p.addr.die == a.die && p.addr.plane == a.plane
    && p.addr.block == a.block && decide (a.page ≤ p.addr.page)

/-- PROGRAM_DONE: the running program of a die ends, with FAIL on the planes named (R454, R467, R501). -/
def execProgramDone (channel die : Nat) (failing : List Nat) (s : State) : Out :=
  match s.running channel die with
  | some o =>
    match o.kind with
    | .program job slot planes =>
      let s := s.endRunning channel die
      match s.media.jobs.find? (·.id == job) with
      | none => .next (s.kick channel die)
      | some j =>
        let late (p : Nat) : Bool := match s.superblock j.superblock with
          | some b => s.outOfOrder (b.page slot p j.row)
          | none => false
        let fails (p : Nat) : Bool := failing.contains p || late p
        let t := s.storeMembers j slot (planes.filter fun p => !late p) failing.contains
        let s := match s.superblock j.superblock with
          | some b => (planes.filter fails).foldl (fun (s : State) p => s.programFailed b slot p j.row) t
          | none => t
        let s := s.report job slot planes fun p => !fails p
        let g := channel / 8
        .next ((((s.fill g false).judgeReadOnly g).kick channel die).kickGroup g)
    | .directProgram c a content =>
      let s := s.endRunning channel die
      let bad := failing.contains a.plane || s.outOfOrder a
      let s := s.modMedia fun m => { m with
        pages := if s.outOfOrder a then m.pages
                 else { addr := a, raw := content, bad := failing.contains a.plane } :: m.pages }
      .next ((s.completeOpt c (if bad then .writeFault else .success)).kick channel die)
    | _ => .next s
  | none => .next s

/-- The blocks of a slot of a superblock. -/
def Superblock.slotBlocks (b : Superblock) (slot : Nat) : List BlockAddr :=
  (List.range 4).map fun p =>
    let a := b.page slot p 0
    { channel := a.channel, die := a.die, plane := p, block := a.block }

/-- A block is erased: its pages are gone and its cycle count rises (R506). -/
def State.eraseBlock (s : State) (a : BlockAddr) : State :=
  (s.modMedia fun m => { m with
    pages := m.pages.filter fun p =>
      !(p.addr.channel == a.channel && p.addr.die == a.die && p.addr.plane == a.plane && p.addr.block == a.block) }).addCycle a

/-- The erase of a slot ends; the last one frees the superblock's blocks. -/
def State.slotErased (s : State) (sb slot : Nat) : State :=
  let s := s.modSuperblock sb fun b => { b with erasing := b.erasing.filter (· != slot) }
  match s.superblock sb with
  | some b => if b.erasing.isEmpty then
      s.modMedia fun m => { m with superblocks := m.superblocks.filter (·.id != sb) } else s
  | none => s

/-- An erase of a block ends with FAIL: the block is retired (R467, R511). `found`: the timeout's fault. -/
def State.eraseFailed (s : State) (a : BlockAddr) (found : Option Nat) : State :=
  let (f, s) := match found with
    | some f => (f, s)
    | none => s.newFault
  let s := s.mediaLog { kind := 3, group := a.channel / 8, channel := a.channel, die := a.die, plane := a.plane,
                        block := a.block, faultNo := f } (fault := found.isNone)
  s.retireBlock a 3 f

/-- ERASE_DONE: the running erase of a die ends, with FAIL on the planes named (R467, R511). -/
def execEraseDone (channel die : Nat) (failing : List Nat) (s : State) : Out :=
  match s.running channel die with
  | some o =>
    match o.kind with
    | .erase sb slot =>
      let s := s.endRunning channel die
      match s.superblock sb with
      | none => .next (s.kick channel die)
      | some b =>
        let s := (b.slotBlocks slot).foldl (fun (s : State) a =>
          let s := s.eraseBlock a
          if failing.contains a.plane then s.eraseFailed a none else s) s
        let g := channel / 8
        .next ((((s.slotErased sb slot).judgeReadOnly g).kick channel die).kickGroup g)
    | .directErase c a =>
      let s := s.endRunning channel die
      let s := if failing.contains a.plane then s.completeOpt c .writeFault else (s.eraseBlock a).completeOpt c .success
      .next (s.kick channel die)
    | _ => .next s
  | none => .next s

/-- Has a die an operation of this kind queued or running? -/
def State.hasOp (s : State) (c d : Nat) (p : DieOpKind → Bool) : Bool :=
  let x := s.die c d
  (x.queue ++ x.running.toList ++ x.resetting.toList).any fun o => p o.kind
/-! ### The patrol (R509, R510) -/

/-- Pages of a die in patrol order. -/
def State.patrolPages (s : State) : Nat := 4 * 2048 * s.pagesPerBlock
/-- The page of a die with a patrol index: plane, block and page in ascending order. -/
def State.patrolPage (s : State) (c d i : Nat) : PageAddr :=
  let n := s.pagesPerBlock
  { channel := c, die := d, plane := i / (2048 * n), block := i / n % 2048, page := i % n }
/-- classify (R510): what the read of a patrol page means. `result`: 0 it decodes at the first read, 1 within two attempts of
read-retry, 2 after more, 3 it stays unreadable and the rebuild succeeds, 4 the rebuild fails. A page's entries count its four
codewords; one found unreadable before makes no new fault (R514)
(DESIGN CHOICE, log entry 84). -/
def State.classify (s : State) (a : PageAddr) (worstBits result : Nat) : State :=
  let e : MediaEntry := { kind := 1, group := a.channel / 8, channel := a.channel, die := a.die, plane := a.plane,
                          block := a.block, page := a.page }
  let known := ((s.flashPage a).map fun p => p.lost.length == 4).getD false
  let s := match s.holderOf a.blockAddr with
    | none => s
    | some b => if (result = 0 && worstBits ≤ 120) || b.refresh || known then s
      else (s.modSuperblock b.id fun y => { y with refresh := true }).mediaLog { e with kind := 9 } (fault := false)
  let s := if result = 0 || known then s else s.modMedia fun m => { m with retryReads := satAdd32 m.retryReads 1 }
  if result < 2 || known then s
  else
    let (f, s) := s.newFault
    let s := s.mediaLog { e with outcome := result - 1, faultNo := f, count := 4 }
    if result = 2 then s
    else if result = 3 then s.modMedia fun m => { m with rebuilt := satAdd32 m.rebuilt 4 }
    else
      let s := s.modMedia fun m => { m with unreadable := satAdd32 m.unreadable 4 }
      (List.range 4).foldl (fun (s : State) w => s.markUnreadable a w f) s
/-- The patrol goes on to the page after index `i`; at the end of a pass that took too long an entry is written. -/
def State.patrolNextPage (s : State) (c d i : Nat) : State :=
  let last := decide (i + 1 ≥ s.patrolPages)
  let x := s.die c d
  let late := last && decide (s.now - x.patrolStart > (x.patrolDays + 1) * 86400000000)
  let s := s.modDie c d fun x => { x with patrolNext := if last then 0 else i + 1 }
  if late then s.mediaLog { kind := 0x0A, group := c / 8, channel := c, die := d } (fault := false) else s
/-- A patrol read ends. -/
def State.patrolEnds (s : State) (c d i worstBits result : Nat) : State :=
  (s.classify (s.patrolPage c d i) worstBits result).patrolNextPage c d i
/-- Does a page hold data or metadata, and is it programmed (R509)? -/
def State.patrols (s : State) (a : PageAddr) : Bool :=
  (s.flashPage a).isSome && ((s.holderOf a.blockAddr).isSome || metadataBlock a.blockAddr)
/-- PATROL_STEP: at its step time the read of a die's next page is queued at class 5, and when it runs, it ends here and the
page is classified (R509, R510)
(DESIGN CHOICE, log entry 84). -/
def execPatrolStep (channel die worstBits result : Nat) (s : State) : Out := s.whenOn <|
  if !s.dieLive channel die then .next s
  else
    let x := s.die channel die
    let i := x.patrolNext
    let mine := (· == DieOpKind.patrol i)
    let due := decide (i = 0) || decide (s.now ≥ x.patrolStart + i * (x.patrolDays * 86400000000 / s.patrolPages))
    if s.hasOp channel die mine || !due then
      if ((s.running channel die).map fun o => mine o.kind) = some true then
        .next (((s.endRunning channel die).patrolEnds channel die i worstBits result).kick channel die)
      else .next s
    else
      let s := if i = 0 then (s.modDie channel die fun x => { x with patrolStart := s.now, patrolDays := s.media.patrolDays }) else s
      if !s.patrols (s.patrolPage channel die i) then .next (s.patrolNextPage channel die i)
      else
        let s := s.enqueue channel die { cls := 5, kind := .patrol i }
        if ((s.running channel die).map fun o => mine o.kind) = some true then
          .next (((s.endRunning channel die).patrolEnds channel die i worstBits result).kick channel die)
        else .next s

/-! ### Suspension, timeouts and promotions (R462, R463, R476) -/

/-- OPERATION_RESUME: with no read that may suspend it queued, the suspended operation resumes (R463); at thermal level 2 once
no other program or erase of its group runs (Table 02-13). -/
def execOperationResume (channel die : Nat) (s : State) : Out :=
  let x := s.die channel die
  match x.suspended with
  | none => .next s
  | some o =>
    if x.running.isSome || s.targetResets channel die || x.queue.any (fun o => o.isRead && o.suspends? && !o.late)
        || s.throttled channel o then .next s
    else .next (s.modDie channel die fun x => { x with running := some { o with since := s.now }, suspended := none })

/-- BUSY_TIMEOUT: the target of a die whose operation has outlasted its timeout is reset (R459, R476). -/
def execBusyTimeout (channel die : Nat) (s : State) : Out :=
  match s.running channel die with
  | some o =>
    if s.ranFor o ≤ s.busyTimeout o then .next s
    else .next ((s.endRunning channel die).modDie channel die fun x => { x with resetting := some o })
  | none => .next s

/-- Start what waits on the dies of a target. -/
def State.kickTarget (s : State) (c d : Nat) : State := (s.targetDies d).foldl (fun (s : State) i => s.kick c i) s
/-- A timed-out operation counts as failed (R476, Table 15-8). -/
def State.failOp (s : State) (c d : Nat) (o : DieOp) (faultNo : Nat) : State :=
  match o.kind with
  | .read a cws x =>
    match x with
    | .media r => s.complete r .abortedByRecovery faultNo
    | .nobody => s
    | x => cws.foldl (fun (s : State) cw => s.startRecovery a cw x false (some faultNo)) s
  | .retry a cw =>
    match s.recovery? a cw with
    | none => s
    | some r =>
      let (r, s) := s.abortDirect r faultNo
      s.attempted r false
  | .rebuildRead a cw m => s.mateRead a cw m false
  | .sourceRead sb slot row planes => s.sourceFails sb slot row planes (fun _ _ => true) false (some faultNo)
  | .patrol i => s.patrolEnds c d i 0 2
  | .calibrate _ => s
  | .program job slot planes =>
    match s.media.jobs.find? (·.id == job) with
    | none => s
    | some j =>
      let s := s.storeMembers j slot planes (fun _ => true)
      let s := match s.superblock j.superblock with
        | some b => planes.foldl (fun (s : State) p => s.programFailed b slot p j.row (some faultNo)) s
        | none => s
      s.report job slot planes fun _ => false
  | .erase sb slot =>
    match s.superblock sb with
    | none => s
    | some b =>
      ((b.slotBlocks slot).foldl (fun (s : State) a => s.eraseFailed a (some faultNo)) s).slotErased sb slot
  | .directProgram r _ _ | .directErase r _ => s.completeOpt r .abortedByRecovery faultNo

/-- TARGET_RESET_DONE: a die that is ready fails its operation; one that stays busy, or times out twice within
24 h, is retired (R476). The other dies of the target go on
(DESIGN CHOICE, log entry 84). -/
def execTargetResetDone (channel die : Nat) (ready : Bool) (s : State) : Out :=
  let x := s.die channel die
  match x.resetting with
  | none => .next s
  | some o =>
    let again := match x.timedOutAt with
      | some t => decide (s.now < t + 86400000000)
      | none => false
    if ready && !again then
      let (f, s) := s.newFault
      let s := s.mediaLog { kind := 4, group := channel / 8, channel := channel, die := die, faultNo := f }
      let s := s.modDie channel die fun x => { x with resetting := none, timedOutAt := some s.now }
      .next ((s.failOp channel die o f).kickTarget channel die)
    else .next ((s.retireDie channel die).kickTarget channel die)

/-- Mark the first queued operation that satisfies `p` as promoted. Within a class the oldest is the first. -/
def promoteFirst (p : DieOp → Bool) : List DieOp → List DieOp
  | [] => []
  | o :: os => if p o && !o.promoted then { o with promoted := true } :: os else o :: promoteFirst p os

/-- PROGRAM_PROMOTION: a program that has waited 10 ms behind demand reads moves ahead of them (R462). -/
def execProgramPromotion (channel die : Nat) (s : State) : Out :=
  let x := s.die channel die
  if !(x.running.toList ++ x.queue).any (·.cls == 2) then .next s
  else .next ((s.modDie channel die fun x => { x with
    queue := promoteFirst (fun o => o.cls == 3 && decide (s.now ≥ o.arrived + 10000)) x.queue }).kick channel die)

/-- BACKGROUND_PROMOTION: a class 5 operation that has waited 50 ms moves ahead of programs and erases (R462). -/
def execBackgroundPromotion (channel die : Nat) (s : State) : Out :=
  .next ((s.modDie channel die fun x => { x with
    queue := promoteFirst (fun o => o.cls == 5 && decide (s.now ≥ o.arrived + 50000)) x.queue }).kick channel die)

/-- A zone is due for calibration: it has had none, the last is 24 h old, or `TJ_MAX` has moved 20 °C since (R475). -/
def State.calibrationDue (s : State) (c d zone : Nat) : Bool :=
  match (s.die c d).calibrated.find? (·.1 == zone) with
  | none => true
  | some (_, at_, temp) =>
    let t := s.power.tjMax
    decide (s.now ≥ at_ + 86400000000) || decide (max t temp - min t temp ≥ 20)
/-- ZONE_CALIBRATION: the calibration of a zone that is due is queued at class 5, and when it runs, it ends here: the zone keeps
the set with the fewest corrected bits; `page` is the page of the zone, out of 64 blocks, that it reads (R475)
(DESIGN CHOICE, log entry 84). -/
def execZoneCalibration (channel die zone page set : Nat) (s : State) : Out := s.whenOn <|
  if !s.dieLive channel die || decide (set > 8) || decide (zone ≥ 128) || decide (page ≥ 64 * s.pagesPerBlock) then .next s
  else
    let mine := (· == DieOpKind.calibrate zone)
    let s := if s.hasOp channel die mine || !s.calibrationDue channel die zone then s
      else s.enqueue channel die { cls := 5, kind := .calibrate zone }
    if ((s.running channel die).map fun o => mine o.kind) ≠ some true then .next s
    else
      let s := (s.endRunning channel die).setZone channel die zone set
      let s := s.modDie channel die fun x =>
        { x with calibrated := (zone, s.now, s.power.tjMax) :: x.calibrated.filter (·.1 != zone) }
      .next ((s.modMedia fun m => { m with calibrations := satAdd32 m.calibrations 1 }).kick channel die)

/-- A register write that would break the retry-budget rule is ignored and logged (R186). -/
def State.budgetRefused (s : State) (offset value : Nat) : State :=
  s.health { event := 0x0A, detail := bytesOfLe 4 offset ++ bytesOfLe 4 value }

/-- MEDIA_RR_BUDGET_WRITE (R471, R186): a reserved value leaves the field unchanged (R13). -/
def execMediaRrBudgetWrite (value : Dword) (s : State) : Out := s.whenOpen <|
  let v := bits value.toNat 19 0
  if v < 500 || v > 999999 then .next s
  else if v ≥ 1000 * s.pcie.floorMs then .next (s.budgetRefused 0x040004 value.toNat)
  else .next (s.modMedia fun m => { m with budgetUs := v })

/-- NAND_RAIL_TRIP: the eight channels of a group are isolated (R477, Table 02-14). -/
def execNandRailTrip (group : Nat) (s : State) : Out := s.whenOn <|
  if group ≥ 4 then .next s
  else
    let s := s.modGroup group fun g => { g with railTripped := true }
    .next ((List.range 8).foldl (fun (s : State) c => s.isolate (8 * group + c) 3) s)

/-! ### Maps, rows, relocation (R495, R497, R500, R504 to R511) -/

/-- MAP_REPLAY: every group loads its checkpoint and replays its journal (R495). Maps are journalled as they change,
so replay finds the maps the state holds
(DESIGN CHOICE, log entry 74). -/
def execMapReplay (s : State) : Out := s.whenOn <|
  if !s.power.dramReady then .next s
  else .next (s.modMedia fun m => { m with groups := m.groups.map fun g => { g with mapLoaded := true } })

/-- PARTIAL_ROW_TIMEOUT: 2 ms after its last data arrived, a partly filled row is padded and programmed (R500). -/
def execPartialRowTimeout (group : Nat) (s : State) : Out := s.whenOn <|
  if s.now < (s.media.groups.getD group {}).lastData + 2000 then .next s else .next (s.fill group true)

/-- A metadata superblock of a group is erased and taken into use (R495)
(DESIGN CHOICE, log entry 118). -/
def State.turnMetadata (s : State) (g : Nat) : State :=
  let next := 1 - (s.media.groups.getD g {}).metaBlock
  let s := (s.liveSlots g 0).foldl (fun (s : State) k => (List.range 4).foldl (fun (s : State) p =>
    let c := slotPlace g 0 k
    s.eraseBlock { channel := c.1, die := c.2, plane := p, block := next }) s) s
  s.modGroup g fun x => { x with metaBlock := next, metaRow := 0 }
/-- JOURNAL_CHECKPOINT: a checkpoint is written to the other metadata superblock, and the tail is empty again (R495). Rows that
held earlier tails are not needed any more
(DESIGN CHOICE, log entry 118). -/
def execJournalCheckpoint (group : Nat) (s : State) : Out := s.whenOn <|
  let s := (s.turnMetadata group).modGroup group fun g => { g with journalTail := 0, metaTail := 0, checkpoints := g.checkpoints + 1 }
  .next (s.modMedia fun m => { m with superblocks := m.superblocks.map fun b =>
    if b.group = group && b.use = .metadata then { b with closed := true } else b })
/-- A group's journal tail is programmed as one row of stripe set 0, or of the lowest set with 8 live slots, in its metadata
superblock (R503). The spec gives no layout of a record, so the row's bytes are free values. With no such set it is not
programmed
(DESIGN CHOICE, log entry 118). -/
def State.programTail (s : State) (g : Nat) : State :=
  match (List.range s.setsPerGroup).find? fun j => decide ((s.liveSlots g j).length ≥ 8) with
  | none => s
  | some j =>
    let x := s.media.groups.getD g {}
    let s := if j = 0 && decide (x.metaRow ≥ s.pagesPerBlock) then s.turnMetadata g else s
    let x := s.media.groups.getD g {}
    let place : Option (Superblock × State) := if j = 0 then
        let slots := s.liveSlots g 0
        let b : Superblock := { id := 0, group := g, set := 0, use := .metadata, slots := slots,
                                blocks := List.replicate (4 * slots.length) x.metaBlock, nextRow := x.metaRow }
        some (b, s.modGroup g fun y => { y with metaRow := y.metaRow + 1 })
      else (s.openSuperblock g j .metadata false).map fun r => (r.1, r.2.advance r.1.id)
    match place with
    | none => s
    | some (b, s) =>
      let n := s.free
      let items := (List.range (4 * b.d)).map fun q =>
        (Item.padding, (List.range 16384).map fun i => Config.freeByte n (16384 * q + i))
      let s := { s with free := n + 1 }
      let s := (rowMembers b b.nextRow items).foldl (fun (s : State) m =>
        let a := b.page m.slot m.plane b.nextRow
        s.modMedia fun y => { y with pages := { addr := a, raw := m.content } :: y.pages.filter (·.addr != a) }) s
      s.modGroup g fun y => { y with metaTail := y.journalTail }

/-- What a superblock still holds for the maps: items and their data pages. -/
def State.validItems (s : State) (b : Superblock) : List (Item × Nat) :=
  (s.media.units.filterMap fun u => match u.place with
    | .at sb q => if sb = b.id then some (.unit u.fn u.nsid u.unit, q) else none
    | .unreadable _ => none)
  ++ ((s.media.extents.filter fun e => e.superblock == b.id).flatMap fun e =>
    (List.range 64).map fun p => (Item.part e.tenant e.extent p, 64 * e.position + p))

/-- Does a session still hold a superblock? -/
def State.sessionHolds (s : State) (id : Nat) : Bool :=
  s.tenants.any fun t => match t.session with
    | some x => x.superblocks.any fun b => b.1 == id
    | none => false

/-- Start the rows of a relocation: `items` with their content, row after row, into one superblock
(DESIGN CHOICE, log entry 75). -/
def State.copyRows (s : State) (b : Superblock) (source : Nat) : Nat → List (Item × List Byte) → State
  | 0, _ => s
  | f + 1, items =>
    if items.isEmpty then s
    else match s.superblock b.id with
      | none => s
      | some b =>
        if b.closed then s
        else
          let row := items.take (4 * b.d)
          let s := s.startRow b b.nextRow (.relocation source) (rowMembers b b.nextRow row)
          (s.advance b.id).copyRows b source f (items.drop (4 * b.d))

/-- Does an open run map a group (R313)? -/
def State.groupMapped (s : State) (g : Nat) : Bool :=
  s.tenants.zipIdx.any fun t => t.1.runOpen && match s.record t.2 with
    | some r => r.groupMask.getLsbD g
    | none => false
/-- Copy what is valid in a superblock to another one (R497). While a run maps an INDEX group, its extents keep their positions,
and so their channels, where the slots are the same (R400)
(DESIGN CHOICE, log entry 75). -/
def State.relocate (s : State) (b : Superblock) (dst : Option (Superblock × State)) : State :=
  let items := s.validItems b
  match dst with
  | none => s
  | some (t, s) =>
    let copies := items.filterMap fun x => (s.content b.id x.2).map fun bs => (x.2, x.1, bs)
    let placed := if s.role b.group = some .index && s.groupMapped b.group && t.slots = b.slots && t.nextRow = 0 then
        (List.range ((copies.map (·.1)).foldl max 0 + 1)).map fun q =>
          ((copies.find? (·.1 == q)).map (·.2)).getD (.padding, List.replicate 16384 (0 : Byte))
      else copies.map (·.2)
    s.copyRows t b.id placed.length placed
/-- The source reads of a relocation are queued at class 5, the planes of a page together (R454, R504); what lies on a slot that
has died is rebuilt (R513). -/
def State.readSources (s : State) (b : Superblock) (worn : Bool) : State :=
  let pages := (s.validItems b).map fun x => b.locate x.2
  let s := s.modSuperblock b.id fun y => { y with sourcing := some worn }
  ((pages.map fun l => (l.1, l.2.1)).eraseDups).foldl (fun (s : State) x =>
    let planes := ((pages.filter fun l => l.1 == x.1 && l.2.1 == x.2).map (·.2.2)).eraseDups
    let c := slotPlace b.group b.set x.2
    if s.dieLive c.1 c.2 then s.enqueue c.1 c.2 { cls := 5, kind := .sourceRead b.id x.2 x.1 planes }
    else s.sourceFails b.id x.2 x.1 planes (fun _ _ => true) true (s.deadFault c.1 c.2)) s
/-- Do source reads of a superblock still run? -/
def State.sourcesRun (s : State) (id : Nat) : Bool :=
  (s.media.dies.any fun x => (x.queue ++ x.running.toList ++ x.resetting.toList).any fun o => match o.kind with
    | .sourceRead sb _ _ _ => sb == id
    | _ => false)
  || s.media.recoveries.any fun r => r.readers.contains (.source id)
/-- The superblock of a group whose source reads are under way. -/
def State.sourced (s : State) (g : Nat) (worn : Bool) : Option Superblock :=
  s.media.superblocks.find? fun b => b.group == g && b.sourcing == some worn
/-- The source reads of a superblock have ended: its content is copied. -/
def State.copySourced (s : State) (b : Superblock) (worn : Bool) : State :=
  if s.sourcesRun b.id then s
  else
    let s := s.modSuperblock b.id fun y => { y with sourcing := none }
    if s.role b.group = some .index then s.relocate b (s.openSuperblock b.group b.set .relocation worn)
    else s.relocate b (s.target b.group .relocation (s.rotation b.group))

/-- The next state of garbage collection at free level `f` (Table 16-4): 0 idle, 1 active, 2 urgent, 3 critical. -/
def gcNext (cur f : Nat) : Nat :=
  if f < 8 then 3
  else if cur = 3 && f < 12 then 3
  else if f < 20 then 2
  else if cur ≥ 2 && f < 30 then 2
  else if f < 60 then 1
  else if cur ≥ 1 && f < 80 then 1
  else 0

/-- A superblock that garbage collection may take: nothing of it is being copied, programmed or erased. -/
def State.idleSuperblock (s : State) (b : Superblock) : Bool :=
  b.erasing.isEmpty && b.sourcing.isNone && !(s.media.jobs.any fun j => j.superblock == b.id || j.kind == .relocation b.id)
    && !(s.media.copied.any fun x => x.source == b.id) && !s.sessionHolds b.id

/-- GARBAGE_COLLECTION: the group's state follows its free level; the victim's valid units are read at class 5, and once they
have been read they are copied
(DESIGN CHOICE, log entry 75). -/
def execGarbageCollection (group : Nat) (s : State) : Out := s.whenOn <|
  let old := (s.media.groups.getD group {}).gcState
  let new := gcNext old (s.freeLevel group)
  let s := s.modGroup group fun g => { g with gcState := new }
  let s := if new = 3 && old != 3 then s.mediaLog { kind := 0x0D, group := group } (fault := false) else s
  let mine := s.media.superblocks.filter fun b => b.group == group && s.idleSuperblock b
  let queued := pickBy (·.closedSeq) false (mine.filter (·.refresh))
  let victim := if new = 0 then none else
    pickBy (fun b => (s.validItems b).length) false ((mine.filter (·.closed)).mergeSort fun a b => decide (a.closedSeq ≤ b.closedSeq))
  match s.sourced group false, queued.or victim with
  | some b, _ => .next (s.copySourced b false)
  | none, none => .next s
  | none, some b => .next (s.readSources b false)

/-- Good blocks of a group's dies with their cycles. -/
def State.groupCycles (s : State) (g : Nat) : List Nat :=
  (s.groupDies g).flatMap fun x => (List.range 4).flatMap fun p => (List.range 2048).filterMap fun b =>
    let a : BlockAddr := { channel := x.1, die := x.2, plane := p, block := b }
    if s.blockGood a then some (s.cyclesOf a) else none
/-- Most and least cycles of a good block of a group (R508). -/
def State.wearBounds (s : State) (g : Nat) : Nat × Nat :=
  let c := s.groupCycles g
  (c.foldl max 0, c.foldl min (c.headD 0))

/-- STATIC_LEVELLING: every 10 min, when the wear spread of an INDEX group is too wide, cold content moves to worn blocks; once
it has been read, it is copied. -/
def execStaticLevelling (group : Nat) (s : State) : Out := s.whenOn <|
  match s.sourced group true with
  | some b => .next (s.copySourced b true)
  | none =>
  let w := s.wearBounds group
  if s.role group != some .index || decide (s.now < (s.media.groups.getD group {}).levelledAt + 600000000) then .next s
  else if w.1 - w.2 ≤ s.media.wearSpread then .next (s.modGroup group fun g => { g with levelledAt := s.now })
  else
    let s := s.modGroup group fun g => { g with levelledAt := s.now }
    let holds (b : Superblock) : Bool := b.slots.any fun k => (b.slotBlocks k).any fun a => s.cyclesOf a == w.2
    match pickBy (·.closedSeq) false (s.media.superblocks.filter fun b =>
        b.group == group && b.closed && s.idleSuperblock b && holds b) with
    | none => .next s
    | some b => .next (s.readSources b true)

/-- Switch one map entry to its copy, if it still names the source. -/
def State.switchUnit (s : State) (c : Copied) : State :=
  match c.item with
  | .unit fn nsid u => s.modMedia fun m => { m with
    units := m.units.map fun e =>
      if e.fn = fn && e.nsid = nsid && e.unit = u then
        (match e.place with
         | .at sb _ => if sb = c.source then { e with place := .at c.superblock c.page } else e
         | .unreadable _ => e)
      else e }
  | .part t x 0 =>
    let whole := (List.range 64).all fun p => s.media.copied.any fun y =>
      y.source == c.source && y.item == .part t x p && y.superblock == c.superblock && y.page == c.page + p
    if whole then s.modMedia fun m => { m with
      extents := m.extents.map fun e =>
        if e.tenant = t && e.extent = x && e.superblock = c.source then
          { e with superblock := c.superblock, position := c.page / 64 } else e }
    else s
  | _ => s

/-- Would a switch move a part of an extent to another channel while a run maps its group (R400)? -/
def State.movesChannel (s : State) (c : Copied) : Bool :=
  match c.item with
  | .part t x p => match s.media.extents.find? fun e => e.tenant == t && e.extent == x && e.superblock == c.source with
    | none => false
    | some e => match s.superblock c.source, s.superblock c.superblock with
      | some a, some b => s.groupMapped a.group
          && (slotPlace a.group a.set (a.locate (64 * e.position + p)).2.1).1 != (slotPlace b.group b.set (b.locate c.page).2.1).1
      | _, _ => false
  | _ => false
/-- RELOCATION_SWITCH: the copies of a superblock have been programmed, and its map entries are switched (R497); a switch that
would move a unit to another channel waits for the runs that map the group (R400)
(DESIGN CHOICE, log entry 75). -/
def execRelocationSwitch (superblock : Nat) (s : State) : Out := s.whenOn <|
  if (s.media.jobs.any fun j => j.kind == .relocation superblock)
      || (s.media.copied.any fun c => c.source == superblock && s.movesChannel c) then .next s
  else
    let mine := s.media.copied.filter fun c => c.source == superblock
    let s := mine.foldl State.switchUnit s
    let s := s.modMedia fun m => { m with copied := m.copied.filter fun c => c.source != superblock }
    match s.superblock superblock with
    | none => .next s
    | some b =>
      if (s.validItems b).isEmpty then
        let s := b.doomed.foldl (fun (s : State) x =>
          let a := b.page x.1 x.2 0
          s.retireBlock a.blockAddr 1 0) s
        .next (s.journal b.group)
      else .next (s.journal b.group)

/-- Does a read issued against a superblock still run (R497)? -/
def State.readsRun (s : State) (b : Superblock) : Bool :=
  (b.slots.any fun k =>
    let p := slotPlace b.group b.set k
    let d := s.die p.1 p.2
    (d.running.toList ++ d.queue ++ d.resetting.toList).any fun o => match o.kind with
      | .read a _ _ | .retry a _ => b.blocks.getD (4 * b.slots.idxOf k + a.plane) 0 == a.block
      | .sourceRead sb _ _ _ => sb == b.id
      | .patrol i => b.blocks.getD (4 * b.slots.idxOf k + (s.patrolPage p.1 p.2 i).plane) 0 == (s.patrolPage p.1 p.2 i).block
      | _ => false)
  || s.media.recoveries.any fun r => (s.holderOf r.addr.blockAddr).map (·.id) == some b.id

/-- SUPERBLOCK_ERASE: a superblock with no valid content is erased once its earlier reads have ended (R497). -/
def execSuperblockErase (superblock : Nat) (s : State) : Out := s.whenOn <|
  match s.superblock superblock with
  | none => .next s
  | some b =>
    if !b.closed || !(s.validItems b).isEmpty || !s.idleSuperblock b || s.readsRun b then .next s
    else
      let live := b.slots.filter fun k => let p := slotPlace b.group b.set k; s.dieLive p.1 p.2
      let s := s.modSuperblock b.id fun x => { x with erasing := live }
      if live.isEmpty then
        .next (s.modMedia fun m => { m with superblocks := m.superblocks.filter (·.id != b.id) })
      else .next (live.foldl (fun (s : State) k =>
        let p := slotPlace b.group b.set k
        s.enqueue p.1 p.2 { cls := 4, kind := .erase b.id k }) s)

end Sys2Proof.Machine
end

