-- ==== Sys2Proof/Machine/Nvm.lean ====
section
/-!
DEFINITION. Nvm.lean: the NVM commands, namespaces, Format, Sanitize and the direct-media commands (chapters 05, 06,
15 and 16).
-/

namespace Sys2Proof.Machine

/-! ### Self-test aborts (R611) -/

/-- A running Device Self-test ends with a result: log 06h and a health entry (R609, R611). -/
def State.endTest (s : State) (result segment : Nat) : State :=
  match s.svc.test with
  | none => s
  | some (code, _) =>
    let s := s.modSvc fun v => { v with
      test := none
      testLog := ({ code := code, result := result, segment := segment, time := s.now } :: v.testLog).take 20 }
    s.health { event := 0x15, detail := bytesOfLe 1 result ++ bytesOfLe 1 segment }
/-- A running Device Self-test is aborted. -/
def State.abortTest (s : State) (result : Nat) : State :=
  match s.svc.test with
  | none => s
  | some (_, seg) => s.endTest result seg

/-! ### Reads and writes (R183, R493, R498 to R500, R514) -/

/-- The namespace an NVM command names, when it is attached. -/
def State.target? (s : State) (c : Cmd) : Option Namespace :=
  match s.namespace? c.fn c.nsid.toNat with
  | some n => if n.attached then some n else none
  | none => none

/-- `SLBA` of an NVM command. -/
def nvmSlba (c : Cmd) : Nat := c.cdw10.toNat + 2 ^ 32 * c.cdw11.toNat
/-- `NLB` of an NVM command, as a count. -/
def nvmNlb (c : Cmd) : Nat := bits c.cdw12.toNat 15 0 + 1

/-- Queue a read of one codeword of a data page for a reader; on a dead slot recovery starts at the rebuild. -/
def State.request (s : State) (sb q cw : Nat) (x : Reader) : State :=
  match s.superblock sb with
  | none => s
  | some b =>
    let l := b.locate q
    let a := b.page l.2.1 l.2.2 l.1
    if s.dieLive a.channel a.die then s.enqueue a.channel a.die { cls := 2, kind := .read a [cw] x }
    else s.startRecovery a cw x true (s.deadFault a.channel a.die)

/-- Where a logical block is found. -/
inductive Source where
  | here (bs : List Byte)
  | flash (sb page : Nat)
  | lost (faultNo : Nat)
  deriving DecidableEq, Repr, Inhabited

/-- Look a logical block up: buffer first, then the map (R493)
(DESIGN CHOICE, log entry 73). -/
def State.locate (s : State) (fn nsid lba : Nat) : Source :=
  match s.buffered fn nsid lba with
  | some b => .here (b.data.get 0 4096)
  | none =>
    match s.unitEntry fn nsid (lba / 4) with
    | none => .here (List.replicate 4096 0)
    | some u => match u.place with
      | .unreadable f => .lost f
      | .at sb q => .flash sb q

/-- READ (R493, R514). -/
def execRead (c : Cmd) (s : State) : Out :=
  s.command c .nvm fun s =>
    match s.target? c with
    | none => s.complete c.ref .invalidNamespace
    | some n =>
      let slba := nvmSlba c
      let nlb := nvmNlb c
      if nlb > 4096 then s.complete c.ref .invalidField
      else if slba + nlb > n.blocks then s.complete c.ref .lbaRange
      else
        let lbas := (List.range nlb).map (slba + ·)
        let s := ((lbas.filter fun l => (s.buffered c.fn n.nsid l).isNone).map (· / 4)).eraseDups.foldl
          (fun (s : State) u => s.lookUp c.fn n.nsid u) s
        if lbas.any (fun l => match s.locate c.fn n.nsid l with
            | .lost _ => true
            | _ => false) then s.complete c.ref .unrecoveredRead
        else
          let missing := lbas.filter fun l => match s.locate c.fn n.nsid l with
            | .flash .. => true
            | _ => false
          let s := lbas.foldl (fun (s : State) l => match s.locate c.fn n.nsid l with
            | .here bs => s.readBlock c.ref slba l bs
            | _ => s) s
          if missing.isEmpty then s.complete c.ref .success
          else
            let s := s.modMedia fun m => { m with reads := m.reads ++ [{ ref := c.ref, slba := slba, missing := missing }] }
            missing.foldl (fun (s : State) l => match s.locate c.fn n.nsid l with
              | .flash sb q => s.request sb q (l % 4) (.nvm c.ref l)
              | _ => s) s

/-- WRITE (R37, R498 to R500, R515). A write that finds no room under the dirty limit, or a group in the critical
state of garbage collection, waits. -/
def execWrite (c : Cmd) (s : State) : Out :=
  s.command c .nvm fun s =>
    match s.target? c with
    | none => s.complete c.ref .invalidNamespace
    | some n =>
      let slba := nvmSlba c
      let nlb := nvmNlb c
      let g := s.media.groups.getD n.group {}
      if nlb > 4096 then s.complete c.ref .invalidField
      else if slba + nlb > n.blocks then s.complete c.ref .lbaRange
      else if g.readOnly then s.complete c.ref .writeProtected
      else if g.gcState = 3 || (!s.writesThrough && decide (4096 * (s.dirtyBlocks + nlb) > s.dirtyLimit)) then
        s.unbegin c.ref
      else
        let bs := s.dataIn c.prp1 c.prp2 (4096 * nlb)
        let waiter := if s.writesThrough then some c.ref else none
        let s := (List.range nlb).foldl (fun (s : State) i => s.buffer
          { fn := c.fn, nsid := n.nsid, lba := slba + i, data := Region.ofBytes ((bs.drop (4096 * i)).take 4096),
            waiter := waiter }) s
        let s := if waiter.isNone then s.complete c.ref .success else s
        s.fill n.group false

/-- FLUSH (R183): rows that hold the function's writes are programmed at once, and the Flush waits for them. -/
def execFlush (c : Cmd) (s : State) : Out :=
  s.command c .nvm fun s =>
    if (s.target? c).isNone && c.nsid ≠ 0xFFFFFFFF then s.complete c.ref .invalidNamespace
    else
      let groups := ((s.media.namespaces.filter (·.fn == c.fn)).map (·.group)).eraseDups
      let upTo := s.blocksSeen c.ref
      let s := s.modMedia fun m => { m with flushes := m.flushes ++ [{ ref := c.ref, upTo := upTo }] }
      (groups.foldl (fun (s : State) g => s.fill g true) s).ackFlushes

/-- Forget what is buffered or in flight of units, and unmap them: they read as zeros
(DESIGN CHOICE, log entry 76). -/
def State.deallocate (s : State) (fn nsid : Nat) (unit : Nat → Bool) : State :=
  let mine (b : WbBlock) : Bool := b.fn == fn && b.nsid == nsid && unit (b.lba / 4)
  let refs := (s.media.buffer.filter mine).filterMap (·.waiter)
  let s := s.modMedia fun m => { m with
    buffer := m.buffer.filter fun b => !mine b
    jobs := m.jobs.map fun j => { j with
      members := j.members.map fun x => match x.item with
        | .unit f n u => if f = fn && n = nsid && unit u then { x with item := .padding } else x
        | _ => x }
    copied := m.copied.filter fun x => match x.item with
      | .unit f n u => !(f == fn && n == nsid && unit u)
      | _ => true
    units := m.units.filter fun u => !(u.fn == fn && u.nsid == nsid && unit u.unit) }
  (s.ackWriters refs).ackFlushes

/-- DATASET_MANAGEMENT: Deallocate unmaps every unit that a range covers whole (R493)
(DESIGN CHOICE, log entry 76). -/
def execDatasetManagement (c : Cmd) (s : State) : Out :=
  s.command c .nvm fun s =>
    match s.target? c with
    | none => s.complete c.ref .invalidNamespace
    | some n =>
      let nr := bits c.cdw10.toNat 7 0 + 1
      if !c.cdw11.getLsbD 2 then s.complete c.ref .success
      else
        let bs := s.dataIn c.prp1 c.prp2 (16 * nr)
        let ranges := (List.range nr).map fun i =>
          (readLe (listReader bs) (16 * i + 8) 8, readLe (listReader bs) (16 * i + 4) 4)
        if ranges.any (fun r => decide (r.1 + r.2 > n.blocks)) then s.complete c.ref .lbaRange
        else
          let covered (u : Nat) : Bool := ranges.any fun r => decide (r.1 ≤ 4 * u) && decide (4 * u + 4 ≤ r.1 + r.2)
          ((s.deallocate c.fn n.nsid covered).journal n.group).complete c.ref .success

/-! ### Namespaces (R157, R496) -/

/-- Namespace capacity of a function in blocks: its quota in units of 2^18 blocks (Tables 03-5, 03-6). -/
def State.nsQuota (s : State) (fn : Nat) : Nat :=
  2 ^ 18 * (if fn = 0 then s.pers.active.ownerNsUnits else match s.record (fn - 1) with
    | some r => r.nsUnits
    | none => 0)

/-- Record a namespace in the Changed Namespace List and raise its notice when feature 0Bh enables it. -/
def State.nsChanged (s : State) (fn nsid : Nat) : State :=
  let s := s.modCtrl fn fun k => { k with changedNs := (k.changedNs.filter (· != nsid)) ++ [nsid] }
  if (s.ctrl fn).features.asyncCfg.getLsbD 8 then s.raise fn { aet := 2, info := 0, page := 4 } else s

/-- Remove a namespace and its content. -/
def State.deleteNamespace (s : State) (n : Namespace) : State :=
  let s := s.deallocate n.fn n.nsid fun _ => true
  let s := s.modMedia fun m => { m with namespaces := m.namespaces.filter fun x => !(x.fn == n.fn && x.nsid == n.nsid) }
  (s.journal n.group).judgeReadOnly n.group

/-- NAMESPACE_MANAGEMENT: create in the LOG group with the most free capacity, or delete (R496)
(DEDUCED, log entry 77). -/
def execNamespaceManagement (c : Cmd) (s : State) : Out :=
  s.command c .admin fun s =>
    let sel := bits c.cdw10.toNat 3 0
    let own := s.media.namespaces.filter (·.fn == c.fn)
    if sel = 0 then
      let d := s.dataIn c.prp1 c.prp2 4096
      let nsze := readLe (listReader d) 0 8
      let ncap := readLe (listReader d) 8 8
      let flbas := readLe (listReader d) 26 1
      let free := (List.range 32).filter fun i => !(own.any fun n => n.nsid == i + 1)
      let used := own.foldl (fun a n => a + n.blocks) 0
      if nsze = 0 || ncap ≠ nsze then s.complete c.ref .invalidField
      else if flbas ≠ 0 then s.complete c.ref .invalidFormat
      else match free with
        | [] => s.complete c.ref .nsIdUnavailable
        | i :: _ =>
          let room (g : Nat) : Nat := s.goodCapacity g - s.committed g
          match pickBy room true (s.logGroupsOf c.fn) with
          | none => s.complete c.ref .nsCapacity
          | some g =>
            if used + nsze > s.nsQuota c.fn then s.complete c.ref .nsCapacity
            else
              let s := s.modMedia fun m => { m with
                namespaces := m.namespaces ++
                  [{ fn := c.fn, nsid := i + 1, blocks := nsze, group := g }] }
              ((s.journal g).judgeReadOnly g).complete c.ref .success (i + 1)
    else if sel = 1 then
      if c.nsid = 0xFFFFFFFF then
        let s := own.foldl (fun (s : State) n => s.deleteNamespace n) s
        (own.foldl (fun (s : State) n => s.nsChanged n.fn n.nsid) s).complete c.ref .success
      else match s.namespace? c.fn c.nsid.toNat with
        | none => s.complete c.ref .invalidNamespace
        | some n => ((s.deleteNamespace n).nsChanged n.fn n.nsid).complete c.ref .success
    else s.complete c.ref .invalidField

/-- NAMESPACE_ATTACHMENT: the controller list may name the function's own controller only (R157)
(DEDUCED, log entry 77). -/
def execNamespaceAttachment (c : Cmd) (s : State) : Out :=
  s.command c .admin fun s =>
    let sel := bits c.cdw10.toNat 3 0
    let d := s.dataIn c.prp1 c.prp2 4096
    let own := readLe (listReader d) 0 2 = 1 && readLe (listReader d) 2 2 = c.fn
    match s.namespace? c.fn c.nsid.toNat with
    | none => s.complete c.ref .invalidNamespace
    | some n =>
      let put (s : State) (v : Bool) : State := s.modMedia fun m => { m with
        namespaces := m.namespaces.map fun x =>
          if x.fn = n.fn && x.nsid = n.nsid then { x with attached := v } else x }
      if sel > 1 then s.complete c.ref .invalidField
      else if !own then s.complete c.ref .invalidCtrlList
      else if sel = 0 then
        if n.attached then s.complete c.ref .nsAttached
        else ((put s true).nsChanged n.fn n.nsid).complete c.ref .success
      else if n.attached then ((put s false).nsChanged n.fn n.nsid).complete c.ref .success
      else s.complete c.ref .nsNotAttached

/-! ### Format and Sanitize (R160, R161, R518) -/

/-- Copy what is valid in a superblock elsewhere at once, row by row, and erase it. -/
def State.evacuate (s : State) (b : Superblock) : State :=
  let items := s.validItems b
  let copies := items.filterMap fun x => (s.content b.id x.2).map fun bs => (x.1, bs)
  let s := (List.range (copies.length / (4 * b.d) + 1)).foldl (fun (s : State) k =>
    let row := (copies.drop (4 * b.d * k)).take (4 * b.d)
    if row.isEmpty then s
    else match s.target b.group .relocation ((s.rotation b.group)) with
      | none => s
      | some (t, s) =>
        let p := t.nextRow
        let id := s.media.nextJob
        let members := rowMembers t p row
        let j : RowJob := { id := id, superblock := t.id, row := p, kind := .relocation b.id, members := members }
        let s := (s.modMedia fun m => { m with nextJob := id + 1 }).advance t.id
        let s := t.slots.foldl (fun (s : State) k => s.storeMembers j k [0, 1, 2, 3] (fun _ => false)) s
        members.foldl (fun (s : State) m => match m.item with
          | .unit .. => s.switchUnit { source := b.id, item := m.item, superblock := t.id,
                                       page := t.pageNumber p m.slot m.plane }
          | _ => s) s) s
  if (s.validItems b).isEmpty then
    let s := b.slots.foldl (fun (s : State) k => (b.slotBlocks k).foldl (fun (s : State) a => s.eraseBlock a) s) s
    s.modMedia fun m => { m with superblocks := m.superblocks.filter (·.id != b.id) }
  else s

/-- Format one namespace. -/
def State.formatNs (s : State) (n : Namespace) (erase : Bool) : State :=
  let held := (s.media.units.filterMap fun u => match u.place with
    | .at sb _ => if u.fn = n.fn && u.nsid = n.nsid then some sb else none
    | .unreadable _ => none).eraseDups
  let s := (s.deallocate n.fn n.nsid fun _ => true).journal n.group
  if erase then held.foldl (fun (s : State) id => match s.superblock id with
    | some b => s.evacuate b
    | none => s) s
  else s

/-- FORMAT_NVM (R161, R518, R611)
(DESIGN CHOICE, log entry 75). -/
def execFormatNvm (c : Cmd) (s : State) : Out :=
  s.command c .admin fun s =>
    let ses := bits c.cdw10.toNat 11 9
    let own := s.media.namespaces.filter (·.fn == c.fn)
    let named := if c.nsid = 0xFFFFFFFF then own else own.filter (·.nsid == c.nsid.toNat)
    if bits c.cdw10.toNat 3 0 ≠ 0 || bits c.cdw10.toNat 8 4 ≠ 0 then s.complete c.ref .invalidFormat
    else if ses > 1 then s.complete c.ref .invalidField
    else if named.isEmpty && c.nsid ≠ 0xFFFFFFFF then s.complete c.ref .invalidNamespace
    else
      let s := s.abortTest 4
      (named.foldl (fun (s : State) n => s.formatNs n (ses == 1)) s).complete c.ref .success

/-- The die operations of the direct-media commands. -/
def DieOp.direct (o : DieOp) : Bool :=
  match o.kind with
  | .directProgram .. | .directErase .. => true
  | .read _ _ (.media _) | .read _ _ .nobody | .retry .. | .patrol _ | .calibrate _ => true
  | _ => false
/-- Flash work on user data ends for a Sanitize: what is buffered is dropped, and the commands that wait complete; a Read
that waits returns zeros, as one executed after the Sanitize does (R172, R493), and a PUBLISH DATA ends as one without a
session does (R224)
(DESIGN CHOICE, log entry 75). -/
def State.endMediaWork (s : State) : State :=
  let reads := s.media.reads
  let writers := s.media.buffer.filterMap (·.waiter)
  let publishers := (s.media.jobs.filterMap fun j => match j.kind with
    | .publish r => some r
    | _ => none).eraseDups
  let s := s.modMedia fun m => { m with
    dies := m.dies.map fun x => { x with
      queue := x.queue.filter DieOp.direct, running := x.running.filter DieOp.direct,
      suspended := x.suspended.filter DieOp.direct, resetting := x.resetting.filter DieOp.direct, nestedUsed := false }
    jobs := [], reads := [], recoveries := m.recoveries.filter fun r => r.readers.any fun x => match x with
      | .media _ => true
      | _ => false
    copied := [], buffer := [] }
  let s := reads.foldl (fun (s : State) p =>
    (p.missing.foldl (fun (s : State) l => s.readBlock p.ref p.slba l (List.replicate 4096 0)) s).complete p.ref .success) s
  let s := publishers.foldl (fun (s : State) r => s.complete r .sequenceError) s
  (s.ackWriters writers).ackFlushes

/-- SANITIZE: Block Erase of every group while no run is open (R160, R518, R611)
(DESIGN CHOICE, log entry 75). -/
def execSanitize (c : Cmd) (s : State) : Out :=
  s.command c .adminOwner fun s =>
    if bits c.cdw10.toNat 2 0 ≠ 2 then s.complete c.ref .invalidField
    else if s.tenants.any (·.runOpen) then s.complete c.ref .sequenceError
    else
      let s := s.abortTest 9
      let s := s.endMediaWork
      let s := s.media.superblocks.foldl (fun (s : State) b =>
        b.slots.foldl (fun (s : State) k => (b.slotBlocks k).foldl (fun (s : State) a => s.eraseBlock a) s) s) s
      let s := s.modMedia fun m => { m with
        superblocks := [], units := [], extents := [], buffer := [], lostBlocks := [], degradedRows := [], failedMembers := []
        pages := m.pages.filter fun p => !s.blockGood p.addr.blockAddr
        sanitized := true }
      let s := { s with
        tenants := s.tenants.map fun t => { t with
          session := none
          sharedPool := {}
          modelPools := []
          buffers := t.buffers.map fun b =>
            if b.placement = .writeback then
              { b with dirty := List.range ((b.size + 4095) / 4096), cleaning := [] } else b } }
      ((List.range 4).foldl (fun (s : State) g => (s.journal g).judgeReadOnly g) s).complete c.ref .success

/-! ### Direct-media commands (R227, R479, R480) -/

/-- The page a direct-media command names. -/
def directAddr (c : Cmd) : PageAddr :=
  { channel := bits c.cdw10.toNat 4 0, die := bits c.cdw10.toNat 12 8, plane := bits c.cdw10.toNat 17 16,
    block := bits c.cdw11.toNat 15 0, page := bits c.cdw12.toNat 15 0 }
/-- Are the address fields in range for the variant (R227 step 1)? -/
def State.directInRange (s : State) (a : PageAddr) (page : Bool) : Bool :=
  decide (a.die < s.diesPerChannel) && decide (a.block < 2048) && (!page || decide (a.page < s.pagesPerBlock))
/-- MEDIA_WRITE: program one page of a retired block
(DESIGN CHOICE, log entry 72). -/
def execMediaWrite (c : Cmd) (s : State) : Out :=
  s.vendor c true false (fun _ => none) fun s =>
    let a := directAddr c
    let raw := c.cdw13.getLsbD 0
    if !s.directInRange a true then s.complete c.ref .invalidField
    else if !s.media.retiredBlocks.contains a.blockAddr && !(s.die a.channel a.die).retired then
      s.complete c.ref .directMediaProtected
    else match s.deadFault a.channel a.die with
      | some f => s.complete c.ref .abortedByRecovery f
      | none =>
        let bs := s.dataIn c.prp1 c.prp2 (if raw then 18432 else 16384)
        let content := if raw then Region.ofBytes bs else encodePage bs
        s.enqueue a.channel a.die { cls := 3, kind := .directProgram (some c.ref) a content }

/-- MEDIA_READ: read one page, corrected or as the die holds it
(DESIGN CHOICE, log entry 72). -/
def execMediaRead (c : Cmd) (s : State) : Out :=
  s.vendor c true false (fun _ => none) fun s =>
    let a := directAddr c
    if !s.directInRange a true then s.complete c.ref .invalidField
    else match s.deadFault a.channel a.die with
      | some f => s.complete c.ref .abortedByRecovery f
      | none => s.enqueue a.channel a.die { cls := 2, kind := .read a [0, 1, 2, 3] (.media c.ref) }

/-- MEDIA_ERASE: erase one retired block. -/
def execMediaErase (c : Cmd) (s : State) : Out :=
  s.vendor c true false (fun _ => none) fun s =>
    let a := directAddr c
    if !s.directInRange a false then s.complete c.ref .invalidField
    else if !s.media.retiredBlocks.contains a.blockAddr && !(s.die a.channel a.die).retired then
      s.complete c.ref .directMediaProtected
    else match s.deadFault a.channel a.die with
      | some f => s.complete c.ref .abortedByRecovery f
      | none => s.enqueue a.channel a.die { cls := 4, kind := .directErase (some c.ref) a.blockAddr }

end Sys2Proof.Machine
end

