-- ==== Sys2Proof/Machine/Buffers.lean ====
section
/-!
DEFINITION. Buffers.lean: placements, quotas, handles, ALLOC and FREE, write-back cleaning, and the buffer addresses
that engine bodies use (chapters 06 and 09).
-/

namespace Sys2Proof.Machine

/-! ### Granules (R254, R300) -/

/-- Granules of a size. -/
def granulesOf (size : Nat) : Nat := ceilDiv size granule
/-- The `n` lowest numbers from `x` on that a rising list does not hold. The first argument bounds the search
(DESIGN CHOICE, log entry 49). -/
def lowestFree : Nat → Nat → Nat → List Nat → List Nat
  | 0, _, _, _ => []
  | _ + 1, 0, _, _ => []
  | f + 1, n + 1, x, [] => x :: lowestFree f n (x + 1) []
  | f + 1, n + 1, x, u :: us =>
    if u = x then lowestFree f (n + 1) (x + 1) us
    else if u < x then lowestFree f (n + 1) x us
    else x :: lowestFree f n (x + 1) (u :: us)
/-- The `n` lowest numbers that a list does not hold. -/
def freeOf (n : Nat) (used : List Nat) : List Nat :=
  lowestFree (n + 2 * used.length + 1) n 0 (used.mergeSort fun a b => decide (a ≤ b))

/-- Granules of a stack that buffers and cache pools hold. -/
def State.usedIn (s : State) (stack : Nat) : List Nat :=
  let mine (l : List Granule) : List Nat := (l.filter (·.stack == stack)).map (·.index)
  s.tenants.flatMap fun t =>
    (t.buffers.flatMap fun b => if b.placement = .tile || b.placement = .readonly then [] else mine b.place)
      ++ mine t.sharedPool.place ++ t.modelPools.flatMap fun p => mine p.2.place
/-- Granules of the image store of a stack that models hold, counted from its first. -/
def State.imagesIn (s : State) (stack : Nat) : List Nat :=
  s.tenants.flatMap fun t => t.models.flatMap fun m =>
    (m.imagePlace.filter (·.stack == stack)).map fun g => g.index - imageStoreBase
/-- Tile-store granules that homes and A_TILE buffers hold. -/
def State.usedTiles (s : State) : List Nat :=
  s.tenants.flatMap fun t => (t.models.flatMap (·.homePlace)) ++ t.buffers.flatMap fun b =>
    if b.placement = .tile then b.place.map (·.index) else []

/-- Deal granules over the stacks in turn, beginning with stack `k`; a stack with none left is passed over. The first
argument bounds the turns
(DESIGN CHOICE, log entry 49). -/
def deal : Nat → Nat → Nat → List Nat → List Nat → List Nat → List Nat → List Granule
  | 0, _, _, _, _, _, _ => []
  | _ + 1, 0, _, _, _, _, _ => []
  | f + 1, n + 1, k, a :: as, bs, cs, ds => { stack := k % 4, index := a } :: deal f n (k + 1) bs cs ds as
  | f + 1, n + 1, k, [], bs, cs, ds => deal f (n + 1) (k + 1) bs cs ds []
/-- Choose `n` granules among `size` of each stack: granule i lies in stack (s0 + i) mod 4 (R300). `s0` is the stack with
the fewest in use among those from which the rotation has room; where frees have left the stacks too unequal for any, a
full stack is passed over
(DESIGN CHOICE, log entry 49). -/
def chooseFrom (size n : Nat) (used : List (List Nat)) : List Granule :=
  let u (k : Nat) : Nat := (used.getD (k % 4) []).length
  let fits (k : Nat) : Bool := (List.range 4).all fun j => decide ((n + 3 - j) / 4 ≤ size - u (k + j))
  let least (l : List Nat) : Option Nat := l.foldl (fun (b : Option Nat) k => match b with
    | none => some k
    | some x => if u k < u x then some k else b) none
  let s0 := ((least ((List.range 4).filter fits)).or (least (List.range 4))).getD 0
  let l (j : Nat) : List Nat := freeOf (min n (size - u (s0 + j))) (used.getD ((s0 + j) % 4) [])
  deal (4 * n + 4) n s0 (l 0) (l 1) (l 2) (l 3)
/-- The DRAM granules of a new buffer: all lie in the tenant area (R296)
(DESIGN CHOICE, log entry 49). -/
def State.chooseDram (s : State) (n : Nat) : List Granule :=
  chooseFrom tenantGranules n ((List.range 4).map s.usedIn)
/-- The granules of the image store that keep a model's image
(DESIGN CHOICE, log entry 49). -/
def State.chooseImage (s : State) (n : Nat) : List Granule :=
  (chooseFrom 384 n ((List.range 4).map s.imagesIn)).map fun (g : Granule) => { g with index := imageStoreBase + g.index }

/-- Clear the poison of tile-store granules, as a write of all their words does (R542). -/
def State.clearTiles (s : State) (place : List Nat) : State :=
  s.modProt fun p => { p with
    sram := p.sram.modify 0 fun u => { u with poison := u.poison.filter fun w => !place.contains (w.1 / 8192) } }
/-- Clear the poison of granules, as a write of all their blocks does (R529). -/
def State.clearPoison (s : State) (place : List Granule) : State :=
  s.modProt fun p => { p with
    dramStacks := p.dramStacks.zipIdx.map fun k =>
      if k.1.poison.isEmpty then k.1
      else { k.1 with
        poison := k.1.poison.filter fun w => !(place.any fun g => g.stack == k.2 && g.index == w.1 / 128) } }

/-! ### Quotas (R257, R314) -/

/-- The sum of a reservation field over a tenant's models. -/
def Tenant.reserved (t : Tenant) (f : Reservation → Nat) : Nat :=
  (t.models.filter (·.state != .empty)).foldl (fun a m => a + f m.reservation) 0
/-- Granules of ALLOC buffers of a placement. -/
def Tenant.allocated (t : Tenant) (p : Placement) : Nat :=
  (t.buffers.filter fun b => b.placement == p && b.planOf.isNone).foldl (fun a b => a + b.granules) 0
/-- Granules of a placement that a tenant has left. -/
def State.left (s : State) (t : Nat) (p : Placement) : Nat :=
  match s.record t with
  | none => 0
  | some r =>
    let x := s.tenant t
    match p with
    | .tile => r.tileGranules - x.reserved (·.tile) - x.allocated .tile
    | .pinned => r.dramPinned - x.reserved (·.pinned) - x.allocated .pinned
    | .writeback => r.dramWriteback - x.reserved (·.writeback) - x.allocated .writeback
    | .scratch => r.dramScratch - x.reserved (·.scratch) - x.allocated .scratch
    | .readonly => 0
/-- Units that a pool holds: 16 in each granule (R314). -/
def State.poolUnits (s : State) (t : Nat) (model : Option Nat) : Nat :=
  match model with
  | some m => 16 * (((s.model? t m).map (·.reservation.rocache)).getD 0)
  | none => 16 * (((s.record t).map (·.dramRocache)).getD 0 - (s.tenant t).reserved (·.rocache))
/-- The pool of a tenant and model. -/
def State.pool (s : State) (t : Nat) (model : Option Nat) : Pool :=
  match model with
  | none => (s.tenant t).sharedPool
  | some m => ((s.tenant t).modelPools.lookup m).getD {}
/-- Cut a pool to `n` units, the least recently used first (R314, R317): the units that stay beyond the last granule move
to free slots. -/
def Pool.cut (p : Pool) (n : Nat) : Pool :=
  let coming := p.coming.take n
  let units := p.units.take (n - coming.length)
  let p := p.drop fun u => !units.contains u && !coming.contains u
  let low := p.slots.filter fun x => decide (x.2 < n)
  let high := p.slots.filter fun x => decide (n ≤ x.2)
  let free := (List.range n).filter fun k => !low.any fun x => x.2 == k
  { p with
    slots := low ++ (high.zip free).map fun x => (x.1.1, x.2)
    place := p.place.take (n / 16) }
/-- Cut the shared pool to its size. -/
def State.trimShared (s : State) (t : Nat) : State :=
  s.modTenant t fun x => { x with sharedPool := x.sharedPool.cut (s.poolUnits t none) }

/-! ### Handles (R304, R305) -/

/-- A handle of tenant, generation and index. -/
def handleOf (t gen index : Nat) : Nat := t * 2 ^ 28 + gen * 2 ^ 20 + index
/-- The generation of an index. -/
def Tenant.gen (t : Tenant) (index : Nat) : Nat := (t.gens.lookup index).getD 0
/-- The index of plan buffer `e` of model slot `m`. -/
def planIndex (m e : Nat) : Nat := 0x10000 + 255 * m + e
/-- The buffer that a handle of tenant `t` names: index and generation both match. -/
def State.handle? (s : State) (t h : Nat) : Option Buffer :=
  (s.bufferAt t (bits h 19 0)).bind fun b => if b.gen = bits h 27 20 then some b else none
/-- The single placement that ALLOC flags [4:0] name. -/
def placementOf (flags : Nat) : Option Placement :=
  match bits flags 4 0 with
  | 1 => some .tile
  | 2 => some .pinned
  | 4 => some .writeback
  | 8 => some .readonly
  | 16 => some .scratch
  | _ => none
/-- Are extents `first … first + n - 1` of a tenant published and within its extents? -/
def State.published (s : State) (t first n : Nat) : Bool :=
  decide (first + n ≤ ((s.record t).map (·.readonlyExtents)).getD 0) &&
    (List.range n).all fun k => s.media.extents.any fun e => e.tenant == t && e.extent == first + k

/-- Create a buffer in its class: granules, generation, content and shadow (R300, R302, R321, R529). `content` is
the initial content; none leaves it undefined. -/
def State.newBuffer (s : State) (t index : Nat) (p : Placement) (size firstExtent : Nat) (content : Option Region)
    (planOf : Option (Nat × Nat)) : State :=
  let n := granulesOf size
  let place : List Granule := match p with
    | .readonly => []
    | .tile => if planOf.isSome then [] else (freeOf n s.usedTiles).map fun g => { stack := 0, index := g }
    | _ => s.chooseDram n
  let (r, s) : Region × State := match content with
    | some r => (r, s)
    | none => if p = .readonly then ({}, s) else s.drawRegion
  let group := ((s.logGroupsOf (t + 1)).head?).getD 0
  let s : State := match p with
    | .readonly => s
    | .tile => if content.isSome then s.clearTiles (place.map (·.index)) else s
    | _ => s.clearPoison place
  let s := s.modTenant t fun x => { x with
    buffers := x.buffers ++ [{ index := index, gen := x.gen index, placement := p, size := size, granules := n,
                               firstExtent := firstExtent, data := r, place := place, planOf := planOf,
                               shadowGroup := group }] }
  if p = .writeback then s.judgeReadOnly group else s

/-- End a buffer: its dirty blocks are discarded, its shadow is released, and the generation of its index rises
(R217, R305, R324). -/
def State.endBuffer (s : State) (t : Nat) (b : Buffer) : State :=
  let s := if b.placement = .writeback then s.deallocate (shadowBase + t) b.index fun _ => true else s
  let s := s.modTenant t fun x => { x with
    buffers := x.buffers.filter (·.index != b.index)
    gens := (b.index, (b.gen + 1) % 256) :: x.gens.filter (·.1 != b.index)
    freed := if b.index < 65536 then x.freed ++ [b.index] else x.freed }
  if b.placement = .writeback then s.judgeReadOnly b.shadowGroup else s

/-! ### ALLOC and FREE (R216, R217, R331) -/

/-- ALLOC. -/
def execAlloc (c : Cmd) (s : State) : Out :=
  s.vendor c false false (fun _ => none) fun s =>
    let t := c.tenant
    let flags := c.cdw10.toNat
    let size := c.cdw11.toNat + 2 ^ 32 * c.cdw12.toNat
    let zero := bit flags 5
    if flags ≥ 64 then s.complete c.ref .invalidField
    else match placementOf flags with
      | none => s.complete c.ref .invalidField
      | some p =>
        if size = 0 then s.complete c.ref .invalidField
        else if zero && p = .readonly then s.complete c.ref .invalidField
        else if p = .readonly && (size % 1048576 != 0 || !s.published t c.cdw13.toNat (size / 1048576)) then
          s.complete c.ref .invalidField
        else
          let n := granulesOf size
          let held := ((s.tenant t).buffers.filter (·.planOf.isNone)).length
          if (p != .readonly && decide (n > s.left t p)) || decide (held ≥ 65536) then
            s.complete c.ref .reservationExceeded
          else
            let x := s.tenant t
            let fresh := decide (x.nextIndex < 65536)
            let index := if fresh then x.nextIndex else (x.freed.head?).getD 0
            let s := s.modTenant t fun x =>
              if fresh then { x with nextIndex := x.nextIndex + 1 } else { x with freed := x.freed.drop 1 }
            let s := s.newBuffer t index p size (if p = .readonly then c.cdw13.toNat else 0)
              (if zero then some {} else none) none
            s.complete c.ref .success (handleOf t ((s.tenant t).gen index) index) n

/-- A watermark log entry (Table 09-11). -/
def watermarkEntry (kind scope tenant wm : Nat) (w : Watermark) (offender handle : Nat) : List Byte :=
  bytesOfLe 1 kind ++ bytesOfLe 1 scope ++ bytesOfLe 1 tenant ++ bytesOfLe 1 wm ++ bytesOfLe 4 w.level
    ++ bytesOfLe 4 w.mark ++ bytesOfLe 4 w.peak ++ bytesOfLe 2 w.count ++ bytesOfLe 1 offender ++ [0]
    ++ bytesOfLe 4 handle ++ List.replicate 24 0

/-- Write an entry in a controller's Error Information log: the command's place and its status field (R331). -/
def State.errorEntry (s : State) (fn : Nat) (r : CmdRef) (st : Status) : State :=
  s.modCtrl fn fun k => { k with
    errorCount := k.errorCount + 1
    errorLog := ((k.errorCount + 1, r, st.sc + 256 * st.sct + 16384 * b2n st.dnr) :: k.errorLog).take 64 }

/-- A FREE names another tenant's handle (R331). -/
def State.foreignFree (s : State) (by_ named handle : Nat) : State :=
  if (s.record named).isSome then
    let s := s.modTenant named fun x => { x with foreignFrees := x.foreignFrees + 1 }
    let w := (s.tenant named).watermarks.getD 6 {}
    let s := s.log 0xC6 (watermarkEntry 3 1 named 6 w by_ handle) (owner := named + 1) (event := false)
    s.errorEntry (named + 1) { fn := named + 1, sqid := 0xFFFF, cid := 0xFFFF } .bufferNotOwned
  else s.log 0xC6 (watermarkEntry 3 0 0 0 {} by_ handle) (event := false)

/-- FREE. -/
def execFree (c : Cmd) (s : State) : Out :=
  s.vendor c false false (fun _ => none) fun s =>
    let t := c.tenant
    let h := c.cdw10.toNat
    let named := bits h 31 28
    if named ≠ t then (s.foreignFree t named h).complete c.ref .bufferNotOwned
    else match s.handle? t h with
      | none => s.complete c.ref .bufferAlreadyFree
      | some b =>
        if b.planOf.isSome
            || (s.invocations.any fun i => i.tenant == t && (s.references i).contains b.index) then
          s.complete c.ref .bufferBusy
        else (s.endBuffer t b).complete c.ref .success

/-! ### Buffer addresses (R307, R308, R312) -/

/-- Is the memory in the tile store? -/
def Space.inTile : Space → Bool
  | .home _ | .buf _ .tile => true
  | _ => false
/-- Is the memory in DRAM, read-only buffers included? -/
def Space.inDram : Space → Bool
  | .buf _ .tile => false
  | .buf _ _ => true
  | _ => false
/-- Is it a read-only buffer? -/
def Space.readOnly : Space → Bool
  | .buf _ .readonly => true
  | _ => false

/-- The memory that a buffer address names, or none where its encoding is reserved (BAD_BODY, R308). -/
def State.space (s : State) (i : Invocation) (a : Nat) : Option Space :=
  let index := bits a 55 48
  let named (h : Nat) : Space := match s.handle? i.tenant h with
    | some b => .buf b.index b.placement
    | none => .unused
  match bits a 63 60 with
    | 0 => if index = 0 then some (.home i.slot) else none
    | 1 => if index > 13 then none
      else match i.binds[index]? with
        | none => some .unused
        | some h => some (if h = 0xFFFFFFFF then .unused else named h)
    | 2 => match (s.model? i.tenant i.slot).bind fun m => m.plan[index]? with
      | none => some .unused
      | some h => some (named h)
    | 3 => if index = 0 then some .hostIn else none
    | 4 => if index = 0 then some .hostOut else none
    | _ => none

/-- Bytes of a space
(DESIGN CHOICE, log entry 55). -/
def State.spaceSize (s : State) (i : Invocation) : Space → Nat
  | .home m => granule * (((s.model? i.tenant m).map (·.reservation.tile)).getD 0)
  | .buf x _ => ((s.bufferAt i.tenant x).map (·.size)).getD 0
  | .hostIn => i.inBytes
  | .hostOut => i.outBytes
  | .unused => 0
/-- Does a piece lie inside its space? An empty piece is not tested (R312)
(DESIGN CHOICE, log entry 55). -/
def State.inside (s : State) (i : Invocation) (p : Span) : Bool :=
  p.len == 0 || decide (p.off + p.len ≤ s.spaceSize i p.space)
/-- May an engine read, or write, the space (R308)? -/
def Space.readable : Space → Bool
  | .hostOut => false
  | _ => true
/-- See `Space.readable`. -/
def Space.writable : Space → Bool
  | .hostIn => false
  | .buf _ .readonly => false
  | _ => true

/-- The first granule, within the home, of an A_TILE plan buffer: after the image, in plan order (R254)
(DESIGN CHOICE, log entry 49). -/
def State.planBase (s : State) (t m e : Nat) : Nat :=
  match s.model? t m with
  | none => 0
  | some x => granulesOf x.imageLen + (x.plan.take e).foldl (fun a h =>
      a + match s.bufferAt t (bits h 19 0) with
        | some b => if b.placement = .tile then b.granules else 0
        | none => 0) 0
/-- Where the content of a piece is kept: an A_TILE plan buffer lies in its model's home. -/
def State.settle (s : State) (t : Nat) (p : Span) : Span :=
  match p.space with
  | .buf x .tile =>
    match (s.bufferAt t x).bind (·.planOf) with
    | some (m, e) => { p with space := .home m, off := p.off + granule * s.planBase t m e }
    | none => p
  | _ => p
/-- Do two pieces of a tenant share a byte? -/
def State.overlap (s : State) (t : Nat) (p q : Span) : Bool :=
  let p := s.settle t p
  let q := s.settle t q
  p.space == q.space && decide (0 < p.len) && decide (0 < q.len)
    && decide (p.off < q.off + q.len) && decide (q.off < p.off + p.len)
/-- Do two pieces of the tile store share a granule (R239)? -/
def State.shareGranule (s : State) (t : Nat) (p q : Span) : Bool :=
  let p := s.settle t p
  let q := s.settle t q
  p.space == q.space && p.space.inTile && decide (0 < p.len) && decide (0 < q.len)
    && decide (p.off / granule ≤ (q.off + q.len - 1) / granule)
    && decide (q.off / granule ≤ (p.off + p.len - 1) / granule)

/-- `OUT_OFFSET` of an invocation. -/
def Invocation.outOffset (i : Invocation) : Nat := ceilDiv i.inBytes 4096 * 4096

/-- Bytes of the data buffer of an invocation command: the output begins at the page after the input (R208). -/
def dataBytes (inBytes outBytes : Nat) : Nat :=
  if outBytes = 0 then inBytes else ceilDiv inBytes 4096 * 4096 + outBytes
/-- Bytes of the data buffer of an invocation's command. -/
def Invocation.dataBytes (i : Invocation) : Nat := Machine.dataBytes i.inBytes i.outBytes

/-- Units of 4 KiB of a read-only piece, as `extent * 256 + unit`, rising (R315). -/
def State.unitsOf (s : State) (t : Nat) (p : Span) : List Nat :=
  match p.space with
  | .buf x .readonly =>
    if p.len = 0 then []
    else
      let base := 256 * ((s.bufferAt t x).map (·.firstExtent)).getD 0
      let a := p.off / 4096
      (List.range ((p.off + p.len - 1) / 4096 - a + 1)).map fun k => base + a + k
  | _ => []
/-- The bytes of a published unit, or none where its extent is not published or flash does not give it. -/
def State.unitRead (s : State) (t unit : Nat) : Option (List Byte) :=
  (s.media.extents.find? fun e => e.tenant == t && e.extent == unit / 256).bind fun e =>
    (s.content e.superblock (64 * e.position + unit % 256 / 4)).map fun bs => (bs.drop (4096 * (unit % 4))).take 4096
/-- The bytes of a unit as its cache pool gives them. -/
def State.unitBytes (s : State) (t : Nat) (model : Option Nat) (unit : Nat) : List Byte :=
  let bs := (s.unitRead t unit).getD (List.replicate 4096 0)
  let wild := (s.pool t model).wild.filter (·.1 == unit)
  if wild.isEmpty then bs
  else (List.range 4096).map fun k => match wild.find? fun x => x.2.1 == k / 512 with
    | some x => Config.freeByte x.2.2 k
    | none => bs.getD k 0
/-- The pool that reads of a piece go through: its model's, or the shared one (R314). -/
def State.poolOf (s : State) (t : Nat) (p : Span) : Option Nat :=
  match p.space with
  | .buf x .readonly => ((s.bufferAt t x).bind (·.planOf)).map (·.1)
  | _ => none

/-- The bytes of a piece. -/
def State.spanGet (s : State) (i : Invocation) (p : Span) : List Byte :=
  let q := s.settle i.tenant p
  match q.space with
  | .home m => (((s.tenant i.tenant).homes.lookup m).getD {}).get q.off q.len
  | .buf _ .readonly =>
    let all := (s.unitsOf i.tenant q).flatMap (s.unitBytes i.tenant (s.poolOf i.tenant q))
    (all.drop (q.off % 4096)).take q.len
  | .buf x _ => ((s.bufferAt i.tenant x).map fun b => b.data.get q.off q.len).getD []
  | .hostIn => s.bufferGet i.prp1 i.prp2 i.dataBytes q.off q.len
  | .hostOut | .unused => []

/-- The stack and stack block of a 512-byte block of a buffer (R300, R524). -/
def Buffer.blockAt (b : Buffer) (k : Nat) : Option (Nat × Nat) :=
  (b.place[k / 128]?).map fun g => (g.stack, 128 * g.index + k % 128)

/-- The tile-store granules that a settled piece's space lies in, in order. -/
def State.tilePlace (s : State) (t : Nat) : Space → List Nat
  | .home m => ((s.model? t m).map (·.homePlace)).getD []
  | .buf x .tile => ((s.bufferAt t x).map fun b => b.place.map (·.index)).getD []
  | _ => []

/-- Mark the shavings bits of a written range of a write-back buffer (R320)
(DEDUCED, log entry 56). -/
def Buffer.soil (b : Buffer) (off len : Nat) : Buffer :=
  if b.placement ≠ .writeback || len = 0 then b
  else
    let bs := (List.range ((off + len - 1) / 4096 - off / 4096 + 1)).map (off / 4096 + ·)
    { b with dirty := ((b.dirty.filter fun x => !bs.contains x) ++ bs).mergeSort fun x y => decide (x ≤ y) }

/-- Write bytes at a place, without regard to poison. -/
def State.spanStore (s : State) (i : Invocation) (q : Span) (bs : List Byte) : State :=
  match q.space with
  | .home m => s.modTenant i.tenant fun x => { x with
      homes := (m, ((x.homes.lookup m).getD {}).put q.off bs) :: x.homes.filter (·.1 != m) }
  | .buf _ .readonly => s
  | .buf x _ => s.modBuffer i.tenant x fun b => { b with data := b.data.put q.off bs }.soil q.off bs.length
  | .hostOut =>
    if i.silent then s   -- a function-level reset has stopped host transfers (R174)
    else (s.bufferPut i.ref.fn i.prp1 i.prp2 i.dataBytes (i.outOffset + q.off) bs).modInv i.ref fun i => { i with
      hostOutHigh := if bs.isEmpty then i.hostOutHigh else max i.hostOutHigh (q.off + bs.length) }
  | .hostIn | .unused => s

/-- CLEAN_BLOCK: the cleaner clears a dirty block's bit and sends a copy to the shadow through the write buffer
(R321, R322). A poisoned block is skipped (Table 17-6)
(DESIGN CHOICE, log entry 98). -/
def execCleanBlock (tenant buffer block : Nat) (s : State) : Out := s.whenOn <|
  match s.bufferAt tenant buffer with
  | none => .next s
  | some b =>
    let lost := (List.range 8).any fun k => match b.blockAt (8 * block + k) with
      | some (st, n) => ((s.prot.dramStacks.getD st {}).poison.lookup n).isSome
      | none => false
    if !b.dirty.contains block || lost then .next s
    else
      let s := s.modBuffer tenant buffer fun b => { b with
        dirty := b.dirty.filter (· != block), cleaning := block :: b.cleaning }
      let s := s.buffer { fn := shadowBase + tenant, nsid := buffer, lba := block,
                          data := Region.ofBytes (b.data.get (4096 * block) 4096) }
      .next (s.fill b.shadowGroup false)

end Sys2Proof.Machine
end

