-- ==== Sys2Proof/Machine/Crc.lean ====
section
/-!
DEFINITION. Crc.lean: the CRC-32C of every structure of the spec (R74), and the check sequence of an Ethernet frame (R553).
-/

namespace Sys2Proof.Machine

/-- One bit step of a reflected polynomial. -/
def crcStep (poly c : Nat) : Nat := if c % 2 = 1 then (c / 2) ^^^ poly else c / 2
/-- One byte. -/
def crcByte (poly c : Nat) (b : Byte) : Nat := Nat.repeat (crcStep poly) 8 (c ^^^ b.toNat)
/-- The CRC of a byte string under a reflected polynomial. -/
def crcOf (poly : Nat) (bs : List Byte) : Nat := (bs.foldl (crcByte poly) 0xFFFFFFFF) ^^^ 0xFFFFFFFF
/-- The CRC-32C: the Castagnoli polynomial. -/
def crc32c (bs : List Byte) : Nat := crcOf 0x82F63B78 bs
/-- The CRC-32 of IEEE 802.3. -/
def crc32 (bs : List Byte) : Nat := crcOf 0xEDB88320 bs

end Sys2Proof.Machine
end

