-- ==== Sys2Proof/Machine/Packages.lean ====
section
/-!
DEFINITION. Packages.lean: model packages, ADMIT and RELEASE (R202 to R207, R254, R257).
-/

namespace Sys2Proof.Machine

/-- A section table entry of a model package. -/
structure Section where
  type : Nat
  index : Nat
  crc : Nat
  off : Nat
  len : Nat
  deriving DecidableEq, Repr, Inhabited

/-- Bytes of the extension table (R202). -/
def extBytes (n : Nat) : Nat := if n ≤ 32 then 0 else ceilDiv (32 * (n - 32)) 4096 * 4096
/-- Place of section table entry `k`. -/
def entryAt (k : Nat) : Nat := if k < 32 then 0x40 + 32 * k else 0x1000 + 32 * (k - 32)
/-- Section table entry `k`. -/
def sectionAt (rd : Nat → Byte) (k : Nat) : Section :=
  let a := entryAt k
  { type := readLe rd a 1, index := readLe rd (a + 1) 1, crc := readLe rd (a + 4) 4, off := readLe rd (a + 8) 8,
    len := readLe rd (a + 16) 8 }
/-- `SECTION_COUNT`. -/
def sectionCount (rd : Nat → Byte) : Nat := readLe rd 0x2E 2
/-- The first sections of a package, at most 260. -/
def sectionsOf (rd : Nat → Byte) : List Section := (List.range (min (sectionCount rd) 260)).map (sectionAt rd)
/-- The first section of a type. -/
def sectionOf (l : List Section) (t : Nat) : Option Section := l.find? (·.type == t)

/-- A buffer plan entry (Table 06-6). -/
structure PlanEntry where
  flags : Nat
  source : Nat
  size : Nat
  firstExtent : Nat
  deriving DecidableEq, Repr, Inhabited

/-- The entries of a BUFFER_PLAN section. -/
def planOf (rd : Nat → Byte) (b : Section) : List PlanEntry :=
  (List.range (min (readLe rd b.off 2) ((b.len - 16) / 32))).map fun k =>
    let a := b.off + 16 + 32 * k
    { flags := readLe rd a 4, source := readLe rd (a + 4) 2, size := readLe rd (a + 8) 8,
      firstExtent := readLe rd (a + 16) 4 }
/-- The reservation table of a RESERVATION section (Table 06-5). -/
def reservationOf (rd : Nat → Byte) (a : Nat) : Reservation :=
  { tile := readLe rd a 2, spindles := readLe rd (a + 2) 1, counters := readLe rd (a + 4) 2,
    pinned := readLe rd (a + 8) 4, writeback := readLe rd (a + 12) 4, scratch := readLe rd (a + 16) 4,
    rocache := readLe rd (a + 20) 4, spill := readLe rd (a + 24) 4 }

/-- Do the sections follow one another in order, without overlap (R202)? -/
def sectionsOrdered : Nat → Nat → List Section → Bool
  | _, _, [] => true
  | t, e, x :: xs =>
    decide (1 ≤ x.type) && decide (x.type ≤ 6) && (decide (t < x.type) || (t == 6 && x.type == 6))
      && x.off % 4096 == 0 && decide (e ≤ x.off) && decide (1 ≤ x.len)
      && (if x.type = 6 then decide (x.index ≤ 254) else x.index == 0)
      && sectionsOrdered x.type (x.off + x.len) xs

/-- The tenant's weight at an engine class. -/
def Weights.at (w : Weights) : Nat → Nat
  | 0 => w.dma
  | 1 => w.lathe
  | 2 => w.gouge
  | 3 => w.rasp
  | 4 => w.burl
  | 5 => w.peer
  | _ => 0

/-- Why ADMIT refuses: status and DW0. -/
structure Refused where
  st : Status
  dw0 : Nat := 0

/-- Invalid Field with a reason of Table 06-8. -/
def admitReason (n : Nat) : Option Refused := some { st := .invalidField, dw0 := n }

/-- Step 9 of R205 (R202, R297). -/
def tableBad (rd : Nat → Byte) (l : List Section) : Bool :=
  let n := sectionCount rd
  let blobs := (l.filter (·.type == 6)).map (·.index)
  decide (n < 4) || decide (n > 260)
    || (decide (n < 32) && !allZero rd (entryAt n) (32 * (32 - n)))
    || (decide (n > 32) && !allZero rd (entryAt n) (0x1000 + extBytes n - entryAt n))
    || !sectionsOrdered 0 (0x1000 + extBytes n) l
    || ([1, 2, 3, 4].any fun t => (sectionOf l t).isNone)
    || blobs.eraseDups != blobs
    || (l.any fun x => decide (x.off + x.len > readLe rd 8 8))
    || (match sectionOf l 4 with
        | some p => decide (p.len < 64) || decide (p.len > 1048576)
        | none => true)

/-- Step 14 of R205 (R203, but for the publication of extents). -/
def planBad (rd : Nat → Byte) (l : List Section) (b : Section) (r : Reservation) : Bool :=
  let es := planOf rd b
  let n := readLe rd b.off 2
  let sum (p : Placement) : Nat :=
    (es.filter fun e => placementOf e.flags == some p).foldl (fun a e => a + granulesOf e.size) 0
  decide (n > 255) || b.len != 16 + 32 * n
    || (es.any fun e => decide (e.flags ≥ 64) || (placementOf e.flags).isNone || e.size == 0
      || (placementOf e.flags == some .readonly && (bit e.flags 5 || e.size % 1048576 != 0))
      || ((placementOf e.flags == some .readonly || placementOf e.flags == some .scratch) && e.source != 0xFFFF)
      || (e.source != 0xFFFF && !(l.any fun x => x.type == 6 && x.index == e.source && decide (x.len ≤ e.size))))
    || decide (sum .pinned > r.pinned) || decide (sum .writeback > r.writeback) || decide (sum .scratch > r.scratch)

/-- The first class that a reservation is short in (R205 step 17, R257). -/
def State.shortClass (s : State) (t : Nat) (r : Reservation) : Option Nat :=
  match s.record t with
  | none => some 1
  | some q =>
    let x := s.tenant t
    if r.tile > s.left t .tile then some 1
    else if r.spindles > q.spindles - x.reserved (·.spindles) then some 2
    else if r.pinned > s.left t .pinned then some 3
    else if r.writeback > s.left t .writeback then some 4
    else if r.scratch > s.left t .scratch then some 5
    else if r.rocache > q.dramRocache - x.reserved (·.rocache) then some 6
    else if r.spill > q.spillGranules - x.reserved (·.spill) then some 7
    else if (x.models.filter (·.state != .empty)).length ≥ 64 then some 9
    else none

/-- Steps 5 to 17 of R205 on a first piece. -/
def State.firstPieceBad (s : State) (t : Nat) (bs : List Byte) (counterFirst : Nat) : Option Refused :=
  let rd := listReader bs
  let n := sectionCount rd
  let l := sectionsOf rd
  let short := decide (bs.length < 4096 + extBytes (min n 260)) || (match sectionOf l 3 with
    | some b => decide (b.off + b.len > bs.length)
    | none => false)
  let body (x : Section) : List Byte := (bs.drop x.off).take x.len
  if short then admitReason 4
  else if bs.take 4 ≠ [0x56, 0x58, 0x4D, 0x50] then admitReason 1
  else if rd 4 ≠ 1 || rd 5 ≠ 0 || rd 6 ≠ 0xB1 then some { st := .formatUnsupported }
  else if crc32c (bs.take 0xFFC) ≠ readLe rd 0xFFC 4
      || (decide (n > 32) && crc32c ((bs.drop 4096).take (extBytes (min n 260))) != readLe rd 0x30 4) then
    admitReason 2
  else if tableBad rd l then admitReason 3
  else match sectionOf l 1, sectionOf l 2, sectionOf l 3 with
    | some d, some r, some b =>
      let image := ((sectionOf l 5).map (·.len)).getD 0
      let q := reservationOf rd r.off
      let batch := readLe rd 0x20 2
      let batchMax := readLe rd 0x22 2
      let used := readLe rd 0x2C 1 % 64 ||| (if image > 0 then 1 else 0)
      let weights := ((s.record t).map (·.weights)).getD {}
      let es := planOf rd b
      if [d, r, b].any fun x => crc32c (body x) != x.crc then admitReason 5
      else if d.len ≠ 64 || r.len ≠ 32 || batch > 4096 || batchMax = 0 || batchMax > 4096
          || (batch ≠ 0 && batchMax ≠ batch) || readLe rd 7 1 % 16 = 0
          || readLe rd 8 8 < 8192 || readLe rd 8 8 > 186 * 2 ^ 30
          || readLe rd 0x24 4 > 2 ^ 24 || readLe rd 0x28 4 > 2 ^ 24
          || readLe rd (d.off + 4) 4 > image || q.tile > 1536 || q.spindles = 0 || q.spindles > 64
          || q.counters = 0 || q.counters > 8192 then admitReason 6
      else match (List.range 6).find? fun k => bit used k && weights.at k == 0 with
        | some k => some { st := .reservationExceeded, dw0 := 8 + 256 * k }
        | none =>
          if image + (es.filter fun e => placementOf e.flags == some .tile).foldl
              (fun a e => a + granule * granulesOf e.size) 0 > granule * q.tile then some { st := .tileBudget }
          else if planBad rd l b q then admitReason 7
          else if es.any fun e => placementOf e.flags == some .readonly
              && !s.published t e.firstExtent (e.size / 1048576) then admitReason 8
          else if !(s.ownsCtr t counterFirst && s.ownsCtr t (counterFirst + q.counters - 1)) then
            some { st := .counterOutOfRange }
          else match s.shortClass t q with
            | some k => some { st := .reservationExceeded, dw0 := k }
            | none => none
    | _, _, _ => admitReason 3

/-- Return a model's reservation and end its plan buffers; its slot is EMPTY (R205, R207, R305). -/
def State.dropModel (s : State) (t slot : Nat) : State :=
  match s.model? t slot with
  | none => s
  | some m =>
    let s := m.plan.foldl (fun (s : State) h => match s.bufferAt t (bits h 19 0) with
      | some b => s.endBuffer t b
      | none => s) s
    let s := s.modProt fun p => { p with damaged := p.damaged.filter fun d => !(d.1 == t && d.2.1 == slot) }
    s.modTenant t fun x => { x with
      models := x.models.filter (·.slot != slot)
      homes := x.homes.filter (·.1 != slot)
      homeValid := x.homeValid.filter (· != slot)
      modelPools := x.modelPools.filter (·.1 != slot) }

/-- Step 18 of R205: reserve, bind spindles, place the home, allocate the plan buffers
(DESIGN CHOICE, log entry 50). -/
def State.reserveModel (s : State) (t slot : Nat) (bs : List Byte) (counterFirst : Nat) : State :=
  let rd := listReader bs
  let l := sectionsOf rd
  let d := (sectionOf l 1).getD default
  let r := (sectionOf l 2).getD default
  let p := (sectionOf l 4).getD default
  let q := reservationOf rd r.off
  let es := planOf rd ((sectionOf l 3).getD default)
  let mine := (List.range ((s.record t).map (·.spindles) |>.getD 0)).map (s.firstSpindle t + ·)
  let taken := (s.tenant t).models.flatMap (·.bound)
  let handle (e : Nat) : Nat := handleOf t ((s.tenant t).gen (planIndex slot e)) (planIndex slot e)
  let m : Model :=
    { slot := slot, state := .receiving, packageLength := readLe rd 8 8, entryMask := BitVec.ofNat 8 (readLe rd 7 1)
      batch := readLe rd 0x20 2, batchMax := readLe rd 0x22 2, inItemBytes := readLe rd 0x24 4
      outItemBytes := readLe rd 0x28 4, engineMask := BitVec.ofNat 8 (readLe rd 0x2C 1 % 64)
      entryWord := readLe rd d.off 4, persistBytes := readLe rd (d.off + 4) 4, reservation := q
      counterFirst := counterFirst, programOff := p.off, programLen := p.len
      imageLen := ((sectionOf l 5).map (·.len)).getD 0
      plan := (List.range es.length).map handle
      bound := (mine.filter fun x => !taken.contains x).take q.spindles
      homePlace := freeOf q.tile s.usedTiles
      imagePlace := s.chooseImage (granulesOf (((sectionOf l 5).map (·.len)).getD 0)) }
  let (home, s) := s.drawRegion
  let s := s.modTenant t fun x => { x with
    models := (x.models.filter (·.slot != slot)) ++ [m]
    homes := (slot, home) :: x.homes.filter (·.1 != slot)
    modelPools := (slot, {}) :: x.modelPools.filter (·.1 != slot) }
  let s := s.trimShared t
  es.zipIdx.foldl (fun (s : State) x =>
    let p := (placementOf x.1.flags).getD .tile
    let zero := bit x.1.flags 5 || x.1.source != 0xFFFF
    let s := s.newBuffer t (planIndex slot x.2) p x.1.size x.1.firstExtent (if zero then some {} else none)
      (some (slot, x.2))
    if p = .tile && zero then
      let first := s.planBase t slot x.2
      (s.clearTiles ((m.homePlace.drop first).take (granulesOf x.1.size))).modTenant t fun y => { y with
      homes := (slot, ((y.homes.lookup slot).getD {}).put (granule * first)
        (List.replicate (granule * granulesOf x.1.size) 0)) :: y.homes.filter (·.1 != slot) }
    else s) s

/-- Step 21 of R205: the blobs are in their buffers, and the stored image is kept
(DEDUCED, log entry 56). -/
def State.admitModel (s : State) (t slot : Nat) : State :=
  match s.model? t slot with
  | none => s
  | some m =>
    let rd := m.package.at
    let l := sectionsOf rd
    let es := planOf rd ((sectionOf l 3).getD default)
    let s := es.zipIdx.foldl (fun (s : State) x =>
      match l.find? fun b => b.type == 6 && b.index == x.1.source with
      | none => s
      | some b =>
        let bs := m.package.get b.off b.len
        if placementOf x.1.flags = some .tile then s.modTenant t fun y => { y with
          homes := (slot, ((y.homes.lookup slot).getD {}).put (granule * s.planBase t slot x.2) bs)
            :: y.homes.filter (·.1 != slot) }
        else s.modBuffer t (planIndex slot x.2) fun k => { k with data := k.data.put 0 bs }.soil 0 bs.length) s
    s.modModel t slot fun m => { m with
      state := .admitted
      image := match sectionOf l 5 with
        | some x => Region.ofBytes (m.package.get x.off x.len)
        | none => {} }

/-- ADMIT (R205), step 2 of which is R134's. -/
def execAdmitModel (c : Cmd) (s : State) : Out :=
  s.vendor c false false
    (fun _ => if bits c.cdw10.toNat 24 0 > 16777216 then some .invalidField else none) fun s =>
    let t := c.tenant
    let n := bits c.cdw10.toNat 24 0
    let off := c.cdw11.toNat + 2 ^ 32 * c.cdw12.toNat
    let slot := bits c.cdw13.toNat 5 0
    let final := c.cdw13.getLsbD 8
    let first := bits c.cdw14.toNat 12 0
    let state := ((s.model? t slot).map (·.state)).getD .empty
    let got := ((s.model? t slot).map (·.received)).getD 0
    let finish (s : State) : State :=
      match s.model? t slot with
      | none => s
      | some m =>
        if !final then s.complete c.ref .success slot
        else if off + n ≠ m.packageLength then (s.dropModel t slot).complete c.ref .invalidField 9
        else if (sectionsOf m.package.at).any fun x => decide (x.type ≥ 4)
            && crc32c (m.package.get x.off x.len) != x.crc then (s.dropModel t slot).complete c.ref .invalidField 5
        else (s.admitModel t slot).complete c.ref .success slot
    let store (s : State) (bs : List Byte) : State :=
      s.modModel t slot fun m => { m with received := off + n, package := m.package.put off bs }
    if n < 4 || n % 4 ≠ 0 then s.complete c.ref .invalidField
    else if s.sharesExchange t then s.complete c.ref .regionQuiescing
    else if off = 0 && state = .admitted then s.complete c.ref .sequenceError
    else if off ≠ 0 && !(state == .receiving && off == got) then s.complete c.ref .invalidField 0x0A
    else
      let bs := s.dataIn c.prp1 c.prp2 n
      if off = 0 then
        let s := s.dropModel t slot
        match s.firstPieceBad t bs first with
        | some r => s.complete c.ref r.st r.dw0
        | none => finish (store (s.reserveModel t slot bs first) bs)
      else finish (store s bs)

/-- RELEASE (R207). -/
def execRelease (c : Cmd) (s : State) : Out :=
  s.vendor c false false (fun _ => none) fun s =>
    let t := c.tenant
    let slot := bits c.cdw10.toNat 5 0
    if s.sharesExchange t then s.complete c.ref .regionQuiescing
    else match s.model? t slot with
    | none => s.complete c.ref .modelNotAdmitted
    | some m =>
      let n := (s.invocations.filter fun i => i.tenant == t && i.slot == slot).length
      if m.state = .admitted && n > 0 then s.complete c.ref .bufferBusy n
      else (s.dropModel t slot).complete c.ref .success

end Sys2Proof.Machine
end

