-- ==== Sys2Proof/Machine/Invoke.lean ====
section
/-!
DEFINITION. Invoke.lean: the invocation commands, RUN, PUBLISH, and the phases of an invocation on its spindle
(chapters 06, 07 and 16).
-/

namespace Sys2Proof.Machine

/-! ### Invocation commands (R208 to R215) -/

/-- Fields of an invocation command (Table 06-9). -/
def inBytesOf (c : Cmd) : Nat := bits c.cdw10.toNat 24 0
/-- `OUT_BYTES`. -/
def outBytesOf (c : Cmd) : Nat := bits c.cdw11.toNat 24 0
/-- `BATCH`. -/
def batchOf (c : Cmd) : Nat := bits c.cdw12.toNat 20 8
/-- `DEADLINE_MS`. -/
def deadlineOf (c : Cmd) : Nat := bits c.cdw13.toNat 15 0
/-- `K`. -/
def kOf (c : Cmd) : Nat := bits c.cdw15.toNat 10 0
/-- `MAX_KEYPOINTS`. -/
def keypointsOf (c : Cmd) : Nat := bits c.cdw15.toNat 13 0
/-- `GROUPS`. -/
def groupsOf (c : Cmd) : Nat := bits c.cdw15.toNat 19 16

/-- The bit of `ENTRY_MASK` that admits a kind of command. -/
def InvKind.bit : InvKind → Nat
  | .invoke => 0
  | .search => 1
  | .extract => 2
  | .service => 3

/-- Do the sizes hold (R209, Table 06-11)? The lengths of an EXTRACT's images stand in its input, so the command's size has
only its lower bound here
(DEDUCED, log entry 115). -/
def sizesHold (c : Cmd) (kind : InvKind) (m : Model) : Bool :=
  let b := batchOf c
  match kind with
  | .invoke | .service => inBytesOf c == 64 + b * m.inItemBytes && decide (b * m.outItemBytes ≤ outBytesOf c)
  | .search => inBytesOf c == 64 + b * m.inItemBytes && decide (b * (16 + 16 * kOf c) ≤ outBytesOf c)
  | .extract => decide (64 + 8 * b ≤ inBytesOf c) && decide (b * (16 + 48 * keypointsOf c) ≤ outBytesOf c)

/-- `GROUP_MASK[3:0]` of a tenant: its index groups. -/
def State.indexMask (s : State) (t : Nat) : Nat := ((s.record t).map fun r => bits r.groupMask.toNat 3 0).getD 0

/-- Step 5 of R210: the fields of the command. -/
def State.invFieldsBad (s : State) (c : Cmd) (kind : InvKind) (m : Model) : Bool :=
  (kind == .search && (kOf c == 0 || decide (kOf c > 1024)
    || (List.range 4).any fun g => bit (groupsOf c) g && !bit (s.indexMask c.tenant) g))
  || (kind == .extract && (keypointsOf c == 0 || decide (keypointsOf c > 8192)))
  || (kind != .service && deadlineOf c == 0xFFFF)
  || !sizesHold c kind m

/-- Why a binding is refused at step 7 of R210. -/
def State.bindBad (s : State) (t h : Nat) : Option Status :=
  if h = 0xFFFFFFFF then none
  else if bits h 31 28 ≠ t then some .bufferNotOwned
  else if (s.handle? t h).isNone then some .bufferAlreadyFree
  else none

/-- The invocation commands share their checks and their start (R210). -/
def State.invoke (s : State) (c : Cmd) (kind : InvKind) : Out :=
  let early (s : State) : Option Status :=
    if ceilDiv (inBytesOf c) 4096 * 4096 + outBytesOf c > 16777216 then some .invalidField
    else if kind = .service && deadlineOf c = 0xFFFF then none
    else s.deadlineBad (deadlineOf c)
  s.vendor c false true early fun s =>
    let t := c.tenant
    let slot := bits c.cdw12.toNat 5 0
    let ctr := bits c.cdw14.toNat 12 0
    let cbump := if c.cdw14.getLsbD 13 then some (ctr, bits c.cdw14.toNat 29 14) else none
    match s.model? t slot with
    | none => s.complete c.ref .modelNotAdmitted
    | some m =>
      let b := batchOf c
      if m.state ≠ .admitted then s.complete c.ref .modelNotAdmitted
      else if !m.entryMask.getLsbD kind.bit then s.complete c.ref .invalidField
      else if (m.batch ≠ 0 && b ≠ m.batch) || (m.batch = 0 && b > m.batchMax) then s.complete c.ref .batchMismatch
      else if cbump.isSome && !s.ownsCtr t ctr then s.complete c.ref .counterOutOfRange
      else if s.invFieldsBad c kind m then s.complete c.ref .invalidField
      else if m.batch = 0 && b = 0 then (s.bumpOpt t cbump).complete c.ref .success
      else
        let hdr := s.bufferGet c.prp1 c.prp2 (dataBytes (inBytesOf c) (outBytesOf c)) 0 64
        let binds := (List.range 14).map fun k => readLe (listReader hdr) (4 * k) 4
        match binds.findSome? (s.bindBad t) with
        | some st => s.complete c.ref st
        | none =>
          let at_ := s.fetchedAt c.ref
          let ms := if deadlineOf c = 0 then (s.ctrl c.fn).features.deadlineMs else deadlineOf c
          let i : Invocation :=
            { ref := c.ref, kind := kind, tenant := t, slot := slot, batch := b
              k := kOf c, maxKeypoints := keypointsOf c, groups := BitVec.ofNat 4 (groupsOf c)
              expedite := c.cdw12.getLsbD 21, fetchedAt := at_
              deadlineAt := if kind = .service && deadlineOf c = 0xFFFF then none else some (at_ + 1000 * ms)
              cbump := cbump, inBytes := inBytesOf c, outBytes := outBytesOf c, prp1 := c.prp1, prp2 := c.prp2
              binds := binds }
          let s := { s with invocations := s.invocations ++ [i] }
          if (s.tenant t).ending.isSome then s.stopInv i 0x95 0 else s

/-- INVOKE (R210). -/
def execInvoke (c : Cmd) (s : State) : Out := s.invoke c .invoke
/-- SEARCH (R210, R213). -/
def execSearch (c : Cmd) (s : State) : Out := s.invoke c .search
/-- EXTRACT (R210, R214). -/
def execExtract (c : Cmd) (s : State) : Out := s.invoke c .extract
/-- SERVICE (R210, R215). -/
def execService (c : Cmd) (s : State) : Out := s.invoke c .service

/-! ### RUN (R220 to R222) -/

/-- A shell event line rises at the eight slices of a group (Table 13-5). -/
def State.groupEdge (s : State) (g line : Nat) : State :=
  (List.range 8).foldl (fun (s : State) k => s.shellEdge (8 * g + k) line) s

/-- RUN BEGIN (R221, R287). -/
def execRunBegin (c : Cmd) (s : State) : Out :=
  s.vendor c false false (fun _ => none) fun s =>
    let t := c.tenant
    let x := s.tenant t
    if x.runOpen && s.invocations.any (·.tenant == t) then s.complete c.ref .sequenceError
    else if s.tenants.any fun y => match y.session with
        | some k => bit (s.indexMask t) k.group
        | none => false then s.complete c.ref .indexPublishing
    else
      let s := if x.runOpen then s.closeRun t else s
      let s := (s.zeroCounters t).modTenant t fun x => { x with
        runOpen := true, frozen := false, runSeq := (x.runSeq + 1) % 65536, refused := 0, spillPeak := 0 }
      let s := (List.range 4).foldl (fun (s : State) g => if bit (s.indexMask t) g then s.groupEdge g 6 else s) s
      s.complete c.ref .success

/-- RUN END (R222): a second forced end waits for the first
(DEDUCED, log entry 51). -/
def execRunEnd (c : Cmd) (s : State) : Out :=
  s.vendor c false true (fun _ => none) fun s =>
    let t := c.tenant
    let active := s.invocations.filter (·.tenant == t)
    if active.isEmpty then (s.closeRun t).complete c.ref .success
    else if !c.cdw10.getLsbD 8 then s.complete c.ref .sequenceError
    else if (s.tenant t).ending.isSome then s.unbegin c.ref
    else
      let s := s.modTenant t fun x => { x with ending := some c.ref }
      active.foldl (fun (s : State) i => s.stopInv i 0x95 0) s

/-! ### PUBLISH (R223 to R226, R516, R517) -/

/-- Change the session of a tenant. -/
def State.modSession (s : State) (t : Nat) (f : Session → Session) : State :=
  s.modTenant t fun x => { x with session := x.session.map f }
/-- End a session without its content: its superblocks hold nothing valid and its reservation is free. -/
def State.abandonSession (s : State) (t : Nat) : State :=
  match (s.tenant t).session with
  | none => s
  | some k =>
    let s := k.superblocks.foldl (fun (s : State) b => s.modSuperblock b.1 fun x => { x with closed := true }) s
    (s.modTenant t fun x => { x with session := none }).judgeReadOnly k.group

/-- PUBLISH BEGIN (R223). A command with one of the reserved subcodes 5 to 7 is given to this row, and ends at step 3 of R199
(DEDUCED, log entry 54). -/
def execPublishBegin (c : Cmd) (s : State) : Out :=
  s.vendor c false false (fun _ => if bits c.cdw10.toNat 2 0 > 4 then some .invalidField else none) fun s =>
    let t := c.tenant
    let g := bits c.cdw11.toNat 1 0
    let first := c.cdw12.toNat
    let n := c.cdw13.toNat
    let exchanging := match s.pers.job with
      | .drain _ k _ _ | .writing _ k => k == g
      | _ => false
    if n = 0 then s.complete c.ref .invalidField
    else if (s.tenant t).session.isSome then s.complete c.ref .sequenceError
    else if s.role g ≠ some .index || !bit (s.indexMask t) g then s.complete c.ref .invalidField
    else if exchanging then s.complete c.ref .regionQuiescing
    else if s.tenants.any fun x => (x.session.map (·.group)) == some g then s.complete c.ref .indexPublishing
    else if (s.tenant t).runOpen || (List.range 16).any fun u => (s.tenant u).runOpen && bit (s.indexMask u) g then
      s.complete c.ref .sequenceError
    else if first + n > ((s.record t).map (·.readonlyExtents)).getD 0
        || s.goodCapacity g < s.committed g + n * 1048576 + s.margin g then s.complete c.ref .reservationExceeded
    else
      let s := s.modTenant t fun x => { x with session := some { group := g, first := first, count := n } }
      (s.judgeReadOnly g).complete c.ref .success

/-- The session superblock that holds extent `e` of the session, opening one where none does. -/
def State.sessionBlock (s : State) (t : Nat) (k : Session) (e : Nat) : Option ((Superblock × Nat) × State) :=
  match k.superblocks.find? fun b => decide (b.2.1 ≤ e) && decide (e < b.2.1 + b.2.2) with
  | some b => (s.superblock b.1).map fun x => ((x, b.2.1), s)
  | none =>
    match (s.rotation k.group).findSome? fun j => s.openSuperblock k.group j (.publish t) false with
    | none => none
    | some (x, s) =>
      let s := s.modSession t fun k => { k with superblocks := k.superblocks ++ [(x.id, e, 4 * x.d * s.pagesPerBlock / 64)] }
      some ((x, e), s.modMedia fun m => { m with rotate := m.rotate.set k.group ((x.set + 1) % s.setsPerGroup) })

/-- Issue the programs of session pages `k.issued … limit - 1`, row by row; a row's parity goes with its last page
(DEDUCED, log entry 48). -/
def State.issuePages (s : State) (t : Nat) (r : CmdRef) (limit : Nat) : Nat → State
  | 0 => s
  | f + 1 =>
    match (s.tenant t).session with
    | none => s
    | some k =>
      if k.issued ≥ limit then s
      else match s.sessionBlock t k (k.issued / 64) with
        | none => s
        | some ((b, first), s) =>
          let q := k.issued - 64 * first
          let row := q / (4 * b.d)
          let start := 64 * first + 4 * b.d * row
          let last := 64 * k.count
          let stop := min limit (min last (start + 4 * b.d))
          let ends := stop == start + 4 * b.d || stop == last
          let items := (List.range (min last (start + 4 * b.d) - start)).map fun n =>
            (Item.part t (k.first + (start + n) / 64) ((start + n) % 64), k.data.get (16384 * (start + n)) 16384)
          let page (m : Member) : Nat := start + m.plane * b.d + (b.data row).idxOf m.slot
          let members := (rowMembers b row items).filter fun m => match m.item with
            | .parity | .padding => ends
            | _ => decide (k.issued ≤ page m) && decide (page m < stop)
          let s := s.startRow b row (.publish r) members
          let s := if ends then s.advance b.id else s
          (s.modSession t fun k => { k with issued := stop }).issuePages t r limit f

/-- PUBLISH DATA (R224, R516): the command completes after its programs report status. -/
def execPublishData (c : Cmd) (s : State) : Out :=
  s.vendor c false false
    (fun _ => if bits c.cdw12.toNat 24 0 > 16777216 then some .invalidField else none) fun s =>
    let t := c.tenant
    let n := bits c.cdw12.toNat 24 0
    match (s.tenant t).session with
    | none => s.complete c.ref .sequenceError
    | some k =>
      if n % 4096 ≠ 0 || c.cdw11.toNat ≠ k.written || k.written + n / 4096 > 256 * k.count then
        s.complete c.ref .invalidField
      else if n = 0 then s.complete c.ref .success
      else
        let bs := s.dataIn c.prp1 c.prp2 n
        let s := s.modSession t fun k => { k with
          data := k.data.put (4096 * k.written) bs, written := k.written + n / 4096 }
        let s := s.issuePages t c.ref ((k.written + n / 4096) / 4) (n / 16384 + 2)
        if s.media.jobs.any fun j => j.kind == .publish c.ref then s else s.complete c.ref .success

/-- The content of extent `e` of a session as the read path gives it, or none where it cannot be read. -/
def State.sessionExtent (s : State) (k : Session) (e : Nat) : Option (List Byte) :=
  match k.superblocks.find? fun b => decide (b.2.1 ≤ e) && decide (e < b.2.1 + b.2.2) with
  | none => none
  | some b => ((List.range 64).mapM fun p => s.content b.1 (64 * (e - b.2.1) + p)).map List.flatten

/-- PUBLISH VERIFY (R224): `FIRST` counts from the session's first extent
(DEDUCED, log entry 48). -/
def execPublishVerify (c : Cmd) (s : State) : Out :=
  s.vendor c false false
    (fun _ => if 4 * c.cdw12.toNat > 16777216 then some .invalidField else none) fun s =>
    let first := c.cdw11.toNat
    let n := c.cdw12.toNat
    match (s.tenant c.tenant).session with
    | none => s.complete c.ref .sequenceError
    | some k =>
      if n = 0 then s.complete c.ref .success 0xFFFFFFFF 0
      else if first + n > k.count || 256 * (first + n) > k.written then s.complete c.ref .invalidField
      else if s.media.jobs.any (fun j => k.superblocks.any fun b => b.1 == j.superblock) then s.unbegin c.ref
      else
        let crcs := s.dataIn c.prp1 c.prp2 (4 * n)
        let es := (List.range n).map fun j => (first + j, readLe (listReader crcs) (4 * j) 4, s.sessionExtent k (first + j))
        match es.find? fun x => x.2.2.isNone with
        | some x => s.complete c.ref .mediaUnreadable 0xFFFFFFFF x.1
        | none =>
          let bad := es.filter fun x => (x.2.2.map crc32c) != some x.2.1
          s.complete c.ref .success ((bad.head?.map (·.1)).getD 0xFFFFFFFF) bad.length

/-- PUBLISH COMMIT (R224, R319, R516): one switch of every extent of the range
(DEDUCED, log entry 48). -/
def execPublishCommit (c : Cmd) (s : State) : Out :=
  s.vendor c false false (fun _ => none) fun s =>
    let t := c.tenant
    match (s.tenant t).session with
    | none => s.complete c.ref .sequenceError
    | some k =>
      if k.written < 256 * k.count then s.complete c.ref .invalidField
      else if s.media.jobs.any (fun j => k.superblocks.any fun b => b.1 == j.superblock) then s.unbegin c.ref
      else
        let new := (List.range k.count).filterMap fun e =>
          (k.superblocks.find? fun b => decide (b.2.1 ≤ e) && decide (e < b.2.1 + b.2.2)).map fun b =>
            ({ tenant := t, extent := k.first + e, group := k.group, superblock := b.1, position := e - b.2.1 } : ExtentEntry)
        let inRange (u : Nat) : Bool := decide (k.first ≤ u / 256) && decide (u / 256 < k.first + k.count)
        let cut (p : Pool) : Pool := p.drop inRange
        let s := s.modMedia fun m => { m with
          extents := m.extents.filter (fun e => !(e.tenant == t && decide (k.first ≤ e.extent)
            && decide (e.extent < k.first + k.count))) ++ new }
        let s := k.superblocks.foldl (fun (s : State) b => s.modSuperblock b.1 fun x => { x with closed := true }) s
        let s := s.modTenant t fun x => { x with
          session := none, sharedPool := cut x.sharedPool, modelPools := x.modelPools.map fun p => (p.1, cut p.2) }
        (((s.journal k.group).judgeReadOnly k.group).groupEdge k.group 5).complete c.ref .success

/-- PUBLISH ABANDON (R224). -/
def execPublishAbandon (c : Cmd) (s : State) : Out :=
  s.vendor c false false (fun _ => none) fun s => (s.abandonSession c.tenant).complete c.ref .success

/-! ### Phases of an invocation (Table 07-5) -/

/-- The next invocation tag of a tenant (R21): from 1 to 0xFFFF, skipping those in use. -/
def State.nextTag (s : State) (t : Nat) : Nat → Nat → Nat
  | 0, last => last
  | f + 1, last =>
    let n := if last ≥ 0xFFFF then 1 else last + 1
    if s.invocations.any fun i => i.tenant == t && i.tag == n then s.nextTag t f n else n

/-- INVOCATION_ASSIGN: phases I1 and I2, and I3 up to the join or the start of the load (R21, R255, R256, R273)
(DESIGN CHOICE, log entry 50). -/
def execInvocationAssign (tenant slot : Nat) (s : State) : Out :=
  if !s.engines then .next s else
  match s.model? tenant slot, s.invocations.find? fun i => i.tenant == tenant && i.slot == slot && i.phase == .waiting with
  | some m, some i =>
    match m.bound.zipIdx.find? fun b => (s.onSpindle b.1).isNone with
    | none => .next s
    | some (sp, lane) =>
      let tag := s.nextTag tenant 65536 (s.tenant tenant).lastTag
      let x := s.tenant tenant
      let base := ((s.record tenant).map (·.counterBase)).getD 0
      let bases := (List.range m.reservation.counters).map fun k =>
        if x.anchors.contains (m.counterFirst + k - base) then 0 else s.ctr (m.counterFirst + k)
      let i := { i with spindle := sp, lane := lane, tag := tag, bases := bases, word := m.entryWord, phase := .waitHome }
      let s := (s.modTenant tenant fun x => { x with lastTag := tag }).modInv i.ref fun _ => i
      match s.prot.damaged.find? fun d => d.1 == tenant && d.2.1 == slot with
      | some d => .next (s.faultInv i .memory d.2.2 0xFF 0xFFFFFFFF)
      | none => .next (s.pumpHome tenant slot)
  | _, _ => .next s

/-- The header of the word that a spindle is at. -/
def State.wordAt (s : State) (i : Invocation) : BitVec 512 := (s.programWord i i.word).getD 0
/-- The header bump of a word, made absolute: counter and increment. -/
def headerBump (m : Model) (d : BitVec 512) : Option (Nat × Nat) :=
  if fld d 12 15 15 = 1 then some (m.counterFirst + fld d 12 12 0, fld d 14 15 0) else none

/-- Phase E3: the completion bump, then the completion (R212). -/
def State.finishInv (s : State) (i : Invocation) : State :=
  match s.invocations.find? (·.ref == i.ref) with
  | none => s
  | some i => (s.bumpAfter i.tenant i.learnt i.cbump).endInv i .success i.hostOutHigh

/-- INVOCATION_DRAINED: phase E1 ends; the frames still on the stack are discarded, the tiles are freed, END's bump is
applied, and E2, whose persist waits for a slot, or E3 follows (R247, Table 11-2). -/
def execInvocationDrained (spindle : Nat) (s : State) : Out :=
  if !s.engines then .next s else
  match s.onSpindle spindle with
  | none => .next s
  | some i =>
    if i.phase ≠ .draining || s.hasCommands i then .next s
    else match s.model? i.tenant i.slot with
      | none => .next s
      | some m =>
        let s := (s.releaseHeld i.tenant i.tag).bumpAfter i.tenant i.learnt (headerBump m (s.wordAt i))
        if m.persistBytes > 0 && m.imageLen > 0 then
          let s := s.modInv i.ref fun i => { i with phase := .drained, stack := [], spilled := [] }
          .next (s.pumpWaiters.pumpHome i.tenant i.slot)
        else .next (s.finishInv i)

/-- INVOCATION_PERSISTED: the persist command has ended; phase E3 (R212). -/
def execInvocationPersisted (spindle : Nat) (s : State) : Out :=
  if !s.engines then .next s else
  match s.onSpindle spindle with
  | none => .next s
  | some i => if i.phase ≠ .persisting || s.hasCommands i then .next s else .next (s.finishInv i)

end Sys2Proof.Machine
end

