-- ==== Sys2Proof/Machine/Spindle.lean ====
section
/-!
DEFINITION. Spindle.lean: how a spindle issues words and executes its control operations, and its window stack
(R236 to R253).
-/

namespace Sys2Proof.Machine

/-! ### The descriptor header (Tables 07-2, 07-3) -/

/-- `ENGINE_CLASS`. -/
def classOf (d : BitVec 512) : Nat := fld d 1 3 0
/-- `OP`. -/
def opOf (d : BitVec 512) : Nat := fld d 0 7 0
/-- `INSTANCE`. -/
def instanceOf (d : BitVec 512) : Nat := fld d 3 4 0
/-- `WAIT_EN`. -/
def waitEn (d : BitVec 512) : Bool := fld d 1 4 4 == 1

/-- The queue of an instance of a class, or none where there is no such instance (Table 07-1). -/
def queueOf (cls inst : Nat) : Option Nat :=
  match cls with
  | 0 => if inst < 8 then some inst else none
  | 1 => if inst < 16 then some (8 + inst) else none
  | 2 => if inst < 16 then some (24 + inst) else none
  | 3 => if inst < 32 then some (40 + inst) else none
  | 4 => if inst < 2 then some (72 + inst) else none
  | 5 => if inst < 4 then some (74 + inst) else none
  | _ => none
/-- The class and instance of a queue. -/
def classOfQueue (q : Nat) : Nat × Nat :=
  if q < 8 then (0, q)
  else if q < 24 then (1, q - 8)
  else if q < 40 then (2, q - 24)
  else if q < 72 then (3, q - 40)
  else if q < 74 then (4, q - 72)
  else (5, q - 74)

/-! ### Iterations and the window stack (R249 to R253) -/

/-- The spill budget of one invocation of a model, in frames (R252). -/
def spillBudget (m : Model) : Nat := m.reservation.spill * 4096 / m.reservation.spindles

/-- Push a frame: a full on-chip stack spills its oldest frame first; none where the budget is full (R253). -/
def State.push (s : State) (i : Invocation) (m : Model) (f : WinFrame) : Option State :=
  if i.stack.length < 8 then some (s.modInv i.ref fun i => { i with stack := f :: i.stack })
  else if i.spilled.length ≥ spillBudget m then none
  else
    let depth := (i.spilled.length + 1) * 1000 / spillBudget m
    let s := { s with engSpills := satAdd32 s.engSpills 1 }
    let s := s.modTenant i.tenant fun t => { t with spillPeak := max t.spillPeak depth }
    some (s.modInv i.ref fun i => { i with
      stack := f :: i.stack.take 7, spilled := (i.stack.drop 7) ++ i.spilled })
/-- Pop the newest frame; an empty on-chip stack is filled with the newest spilled frame (R251). -/
def State.pop (s : State) (i : Invocation) : State :=
  s.modInv i.ref fun i =>
    match i.stack.drop 1, i.spilled with
    | [], f :: fs => { i with stack := [f], spilled := fs }
    | st, fs => { i with stack := st, spilled := fs }

/-! ### Waits of a word (R237, R274, R284) -/

/-- What a spindle finds when it judges the counters of a word. -/
inductive Judged where
  | bad (s : State)                                   -- the invocation has been stopped
  | ok (wait bump : Option (Nat × Nat))               -- absolute counters, with target and increment

/-- Stop an invocation whose wait, or BRANCH_CTR, names a counter that is saturated or poisoned (R284, Table 17-5). -/
def State.deadCounter (s : State) (i : Invocation) (c queue : Nat) : Option State :=
  match s.ctrPoison c with
  | some f => some (s.faultInv i .memory f queue i.word)
  | none => if s.ctrSat c then some (s.satInv i c queue i.word) else none

/-- Judge the header counters of a word, and `CTR` of a BRANCH_CTR: indexes inside the block, made absolute (R237, R248). A
header wait that has been found to hold is not judged again (R272). -/
def State.judge (s : State) (i : Invocation) (m : Model) (d : BitVec 512) (queue : Nat) : Judged :=
  let w := fld d 6 12 0
  let b := fld d 12 12 0
  let bumps := fld d 12 15 15 == 1
  let branch := classOf d == 6 && opOf d == 7
  let n := m.reservation.counters
  if (waitEn d && decide (w ≥ n)) || (bumps && decide (b ≥ n)) || (branch && decide (fld d 16 12 0 ≥ n)) then
    .bad (s.faultInv i .counterRange 0 queue i.word)
  else
    let c := m.counterFirst + w
    match if waitEn d && !i.met && i.phase != .waitCtr then s.deadCounter i c queue else none with
    | some s => .bad s
    | none => .ok (if waitEn d then some (c, i.target w (fld d 8 31 0) (iterScale d)) else none) (headerBump m d)

/-! ### Issuing a word (R234, R245, R246) -/

/-- A descriptor as the spindle issues it: tenant, tag and `EXPEDITE` written (R20, R237). -/
def issued (d : BitVec 512) (i : Invocation) : BitVec 512 :=
  let v := d.toNat
  let v := setBits v 19 16 i.tenant
  let v := setBits v 47 32 i.tag
  BitVec.ofNat 512 (setBits v 13 13 (b2n i.expedite))

/-- Take the word a spindle is at: an engine word is placed in its queue, or the spindle stalls for a slot; a control
word waits for its header condition. -/
def State.issueWord (s : State) (i : Invocation) : State :=
  match s.model? i.tenant i.slot, s.programWord i i.word with
  | none, _ => s
  | some _, none => s.faultInv i .wordBeyondProgram 0 0xFF i.word
  | some m, some d =>
    let cls := classOf d
    if cls > 6 || (cls = 6 && opOf d > 7) then s.faultInv i .illegalWord 0 0xFF i.word
    else if cls = 6 then
      match s.judge i m d 0xFF with
      | .bad s => s
      | .ok w _ =>
        let met := match w with
          | some (c, v) => decide (s.ctr c ≥ v)
          | none => true
        s.modInv i.ref fun i =>
          { (if met then i.learn ((w.map fun x => s.after x.1).getD []) else i) with
            phase := if met then .running else .waitCtr, met := met }
    else match queueOf cls (instanceOf d) with
      | none => s.faultInv i .badInstance 0 0xFF i.word
      | some q =>
        if !m.engineMask.getLsbD cls then s.faultInv i .classNotDeclared 0 0xFF i.word
        else match s.judge i m d q with
          | .bad s => s
          | .ok w b =>
            match (s.queue q).offline with
            | some f => s.faultInv i .instanceOffline f q i.word
            | none =>
              if !s.slotFree i.tenant q then s.modInv i.ref fun i => { i with phase := .stalled }
              else
                let it := i.iters
                let s := s.modQueue q fun x => { x with
                  entries := x.entries ++
                    [{ tenant := i.tenant, tag := i.tag, desc := issued d i, iter0 := it.1, iter1 := it.2
                       lane := i.lane, word := i.word, wait := w, bump := b, expedite := i.expedite
                       ord := i.issued, knows := i.knows }] }
                s.modInv i.ref fun i => { i with phase := .running, word := i.word + 1, issued := i.issued + 1 }

/-- SPINDLE_ISSUE_WORD
(DESIGN CHOICE, log entry 86). -/
def execSpindleIssueWord (spindle : Nat) (s : State) : Out :=
  if !s.engines then .next s else
  match s.onSpindle spindle with
  | none => .next s
  | some i => if i.phase = .running then .next (s.issueWord i) else .next s

/-- SLOT_STALL_RELEASED: a slot has freed, and the stalled spindle places its word (R234). -/
def execSlotStallReleased (spindle : Nat) (s : State) : Out :=
  if !s.engines then .next s else
  match s.onSpindle spindle with
  | none => .next s
  | some i => if i.phase = .stalled then .next (s.issueWord i) else .next s

/-! ### Control operations (R247, R248, Table 07-4) -/

/-- Go on to a word. -/
def State.jump (s : State) (i : Invocation) (w : Nat) : State := s.modInv i.ref fun i => { i with word := w, met := false }

/-- What a control operation does once its header wait holds: the state after it has acted and whether its header
bump is applied now; END's bump follows the drain. -/
def State.act (s : State) (i : Invocation) (m : Model) (d : BitVec 512) : State × Bool :=
  let next := i.word + 1
  let mismatch := (s.faultInv i .frameMismatch 0 0xFF i.word, false)
  match opOf d with
  | 0 => (s.modInv i.ref fun i => { i with phase := .draining }, false)
  | 1 =>
    if fld d 16 31 0 = 0 then (s.jump i (fld d 20 31 0), true)
    else match s.push i m (.loop next (fld d 16 31 0) 0) with
      | some s => (s.jump i next, true)
      | none => (s.faultInv i .spillFull 0 0xFF i.word, false)
  | 2 =>
    match i.stack with
    | .loop start count k :: rest =>
      if k + 1 < count then
        ((s.modInv i.ref fun i => { i with stack := .loop start count (k + 1) :: rest }).jump i start, true)
      else ((s.pop i).jump i next, true)
    | _ => mismatch
  | 3 =>
    match s.push i m (.call next) with
    | some s => (s.jump i (fld d 16 31 0), true)
    | none => (s.faultInv i .spillFull 0 0xFF i.word, false)
  | 4 =>
    match i.stack with
    | .call ret :: _ => ((s.pop i).jump i ret, true)
    | _ => mismatch
  | 7 =>
    let k := fld d 16 12 0
    let c := m.counterFirst + k
    match s.deadCounter i c 0xFF with
    | some s => (s, false)
    | none =>
      if s.ctr c ≥ i.target k (fld d 20 31 0) (iterScale d) then
        ((s.modInv i.ref fun i => i.learn (s.after c)).jump i (fld d 24 31 0), true)
      else (s.jump i next, true)
  | _ => (s.jump i next, true)

/-- Execute the control word that a spindle is at: its wait, its action, its bump (R247)
(DESIGN CHOICE, log entry 86). -/
def State.control (s : State) (i : Invocation) (m : Model) (d : BitVec 512) : State :=
  match s.judge i m d 0xFF with
  | .bad s => s
  | .ok w b =>
    let met := match w with
      | some (c, v) => i.met || decide (s.ctr c ≥ v)
      | none => true
    if !met then s.modInv i.ref fun i => { i with phase := .waitCtr }
    else
      let i := { i.learn ((w.map fun x => s.after x.1).getD []) with phase := .running, met := true }
      let r := (s.modInv i.ref fun _ => i).act i m d
      if r.2 then r.1.bumpAfter i.tenant i.knows b else r.1

/-- Execute the control operation `op` at a spindle, when its current word is that operation
(DESIGN CHOICE, log entry 86). -/
def State.controlOp (s : State) (spindle op : Nat) : State :=
  match s.onSpindle spindle with
  | none => s
  | some i =>
    match s.model? i.tenant i.slot, s.programWord i i.word with
    | some m, some d =>
      if s.engines && i.phase = .running && classOf d = 6 && opOf d = op then s.control i m d else s
    | _, _ => s

/-- CONTROL_WAIT_PASSED: the header wait of a stalled spindle holds, and it executes the operation (R247). -/
def execControlWaitPassed (spindle : Nat) (s : State) : Out :=
  if !s.engines then .next s else
  match s.onSpindle spindle with
  | none => .next s
  | some i =>
    match s.model? i.tenant i.slot, s.programWord i i.word with
    | some m, some d => if i.phase = .waitCtr then .next (s.control i m d) else .next s
    | _, _ => .next s

/-- END: the invocation drains. -/
def execEndOp (spindle : Nat) (s : State) : Out := .next (s.controlOp spindle 0)
/-- LOOP: push a frame, or jump past the body. -/
def execLoop (spindle : Nat) (s : State) : Out := .next (s.controlOp spindle 1)
/-- ENDLOOP: the next iteration, or pop the frame. -/
def execEndloop (spindle : Nat) (s : State) : Out := .next (s.controlOp spindle 2)
/-- CALL: push the return word and jump. -/
def execCall (spindle : Nat) (s : State) : Out := .next (s.controlOp spindle 3)
/-- RET: pop the return word and jump to it. -/
def execRet (spindle : Nat) (s : State) : Out := .next (s.controlOp spindle 4)
/-- WAIT: only the header wait. -/
def execWait (spindle : Nat) (s : State) : Out := .next (s.controlOp spindle 5)
/-- BUMP: only the header bump. -/
def execBump (spindle : Nat) (s : State) : Out := .next (s.controlOp spindle 6)
/-- BRANCH_CTR: jump when the counter has reached its target; never a wait. -/
def execBranchCtr (spindle : Nat) (s : State) : Out := .next (s.controlOp spindle 7)

end Sys2Proof.Machine
end

