-- ==== Sys2Proof/Machine/MemProt.lean ====
section
/-!
DEFINITION. MemProt.lean: DRAM blocks under the die-spread code, poison, failed dies, remap tables, page retirement,
scrubbing, and the SEC-DED words of the SRAM structures (chapter 17).
-/

namespace Sys2Proof.Machine

/-! ### Places (R524) -/

/-- Blocks of a stack, and of a page of 2 MiB. -/
def stackBlocks : Nat := 100663296
def pageBlocks : Nat := 4096
/-- Pseudo-channel, column group, bank and row of a block. -/
def blockPc (b : Nat) : Nat := b % 2
def blockColumn (b : Nat) : Nat := b / 2 % 32
def blockBank (b : Nat) : Nat := b / 2 / 32 % 48
def blockRow (b : Nat) : Nat := b / 2 / 1536
/-- The die that holds all the symbols, if one does. -/
def oneDie : List Nat → Option Nat
  | [] => none
  | k :: ks => if ks.all fun j => j / 16 == k / 16 then some (k / 16) else none

/-- The buffer that holds a block, with its tenant and the block's number within it
(DESIGN CHOICE, log entry 89). -/
def State.blockHolder (s : State) (stack b : Nat) : Option (Nat × Buffer × Nat) :=
  (s.tenants.zipIdx.flatMap fun t => t.1.buffers.filterMap fun x =>
    if x.placement = .tile || x.placement = .readonly then none
    else
      let g : Granule := { stack := stack, index := b / 128 }
      if x.place.contains g then some (t.2, x, 128 * x.place.idxOf g + b % 128) else none).head?

/-- The codeword that stores a block of a tenant's buffer: that of its data, or the poison pattern (R521, R528); 32 bytes of it
lie on each die (`dieBytes`)
(DESIGN CHOICE, log entry 57). -/
def State.storedWord (s : State) (stack b : Nat) : Option (List Nat) :=
  match (s.prot.dramStacks.getD stack {}).poison.lookup b with
  | some f => some (poisonWord f)
  | none => (s.blockHolder stack b).map fun h => blockWord (h.2.1.data.get (512 * h.2.2) 512)

/-! ### The memory error log (R546, Table 17-8) -/

/-- The fields of a memory error log entry. -/
structure MemEntry where
  kind : Nat
  source : Nat := 0x10
  stack : Nat := 0xFF
  block : Nat := 0
  die : Nat := 0xFF
  symbols : Nat := 0
  tenant : Nat := 0xFF
  faultNo : Nat := 0
  tag : Nat := 0
  count : Nat := 1
  pages : List Nat := []
  /-- SRAM: the word index. -/
  word : Nat := 0
  deriving DecidableEq, Repr, Inhabited

/-- Bytes 0x10 to 0x3F of a memory error log entry. -/
def MemEntry.body (e : MemEntry) : List Byte :=
  let dram := e.source == 0x10
  let f (v : Nat) : List Byte := bytesOfLe 1 (if dram then v else 0xFF)
  bytesOfLe 1 e.kind ++ bytesOfLe 1 e.source ++ f e.stack ++ bytesOfLe 1 e.die ++ f (blockPc e.block)
    ++ bytesOfLe 1 e.symbols ++ f (blockBank e.block) ++ [0]
    ++ bytesOfLe 2 (if dram then blockRow e.block else 0) ++ bytesOfLe 1 (if dram then blockColumn e.block else 0)
    ++ bytesOfLe 1 e.tenant ++ bytesOfLe 4 e.faultNo ++ bytesOfLe 8 (if dram then 512 * e.block else e.word)
    ++ bytesOfLe 2 e.tag ++ bytesOfLe 2 e.count
    ++ (List.range 8).flatMap (fun k => bytesOfLe 2 (e.pages.getD k 0xFFFF)) ++ List.replicate 4 0

/-- Write a memory error log entry. The kinds UNCORRECTABLE and SRAM_UNCORRECTABLE are finding entries. -/
def State.memLog (s : State) (e : MemEntry) : State :=
  s.log 0xC1 e.body (fault := e.kind == 0x02 || e.kind == 0x0A)

/-- Change a DRAM stack's protection state. -/
def State.modStack (s : State) (k : Nat) (f : MemStack → MemStack) : State :=
  s.modProt fun p => { p with dramStacks := p.dramStacks.modify k f }
/-- A DRAM stack's protection state. -/
def State.stack (s : State) (k : Nat) : MemStack := s.prot.dramStacks.getD k {}

/-! ### Decoding a block (R523, Table 17-1) -/

/-- What one decode gives. -/
inductive Decoded where
  | clean | corrected | uncorrectable | maybe
  deriving DecidableEq, Repr, Inhabited

/-- Symbols outside a marked die. -/
def outside (mark : Option Nat) (e : List Nat) : List Nat := e.eraseDups.filter fun k => some (k / 16) != mark
/-- Decode symbols in error under a marked die or none. `maybe`: the code does not guarantee detection
(DESIGN CHOICE, log entry 57). -/
def decodeBlock (mark : Option Nat) (e : List Nat) : Decoded :=
  let o := outside mark e
  let n := o.length
  if n = 0 then .clean
  else if n ≤ 8 then .corrected
  else if mark.isSome then .maybe
  else if n ≤ 16 then (if (oneDie o).isSome then .corrected else .uncorrectable)
  else .maybe

/-! ### Hard errors: remap, failed dies, patterns (R531 to R535) -/

/-- Report a pattern once: an entry that lists up to 8 pages. -/
def State.pattern (s : State) (stack kind key block : Nat) (die : Option Nat) (pages : List Nat) : State :=
  if (s.stack stack).reported.any fun r => r.1 == kind && r.2.1 == key then s
  else
    let s := s.modStack stack fun k => { k with reported := k.reported ++ pages.map fun p => (kind, key, p) }
    s.memLog { kind := kind, stack := stack, block := block, die := die.getD 0xFF, pages := pages.take 8 }

/-- Judge the patterns of Table 17-3 for the die of a block just found in error. -/
def State.patterns (s : State) (stack block : Nat) (die : Option Nat) : State :=
  match die with
  | none => s
  | some d =>
    let k := s.stack stack
    let here := ((k.errors.filter fun e => e.die == some d && e.pass == k.scrubPasses).map (·.block)).eraseDups
    let bank := here.filter fun b => blockPc b == blockPc block && blockBank b == blockBank block
    let row := bank.filter fun b => blockRow b == blockRow block
    let key := (d * 2 + blockPc block) * 48 + blockBank block
    let s := if row.length ≥ 4 then
        s.pattern stack 0x06 (key * 32768 + blockRow block) block die [block / pageBlocks] else s
    if (bank.map blockRow).eraseDups.length ≥ 8 then
      s.pattern stack 0x07 key block die (((bank.map (· / pageBlocks)).eraseDups).take 8)
    else s

/-- Judge the rule of R531 for a die
(DEDUCED, log entry 58). -/
def State.judgeDie (s : State) (stack block : Nat) (die : Option Nat) : State :=
  match die with
  | none => s
  | some d =>
    let k := s.stack stack
    let recent := k.errors.filter fun e => e.hard && e.die == some d && decide (s.now ≤ e.time + 1000000)
    if (recent.map fun e => blockBank e.block).eraseDups.length < 3 then s
    else match k.failedDie with
      | none =>
        let s := s.modStack stack fun k => { k with
          failedDie := some d, remap := k.remap.filter fun e => e.2.2 != some d }
        (s.memLog { kind := 0x05, stack := stack, block := block, die := d }).warn 2 0
      | some f =>
        if f = d || k.secondDie then s
        else (s.modStack stack fun k => { k with secondDie := true }).memLog
          { kind := 0x0B, stack := stack, block := block, die := d }

/-- Give a hard block the lowest free remap entry, once (R533, R534)
(DEDUCED, log entry 60). -/
def State.remapBlock (s : State) (stack block : Nat) (die : Option Nat) (symbols : Nat) : State :=
  let k := s.stack stack
  if k.remap.any fun e => e.2.1 == block then s
  else match (List.range 32).find? fun e => !(k.remap.any fun r => r.1 == e) with
    | some e =>
      let s := s.modStack stack fun k => { k with remap := k.remap ++ [(e, block, die)] }
      s.memLog { kind := 0x03, stack := stack, block := block, die := die.getD 0xFF, symbols := symbols }
    | none => s.pattern stack 0x04 (block / pageBlocks) block die [block / pageBlocks]

/-- Handle a block classified hard by its check read. `e`: the symbols in error outside a marked die. -/
def State.hardBlock (s : State) (stack block : Nat) (e : List Nat) (tenant tag : Nat) : State :=
  let die := oneDie e
  let s := s.modStack stack fun k => { k with
    corrHard := satAdd32 k.corrHard 1
    errors := k.errors ++ [{ block := block, die := die, time := s.now, pass := k.scrubPasses }] }
  let s := s.memLog { kind := 0x01, stack := stack, block := block, die := die.getD 0xFF, symbols := e.length,
                      tenant := tenant, tag := tag }
  let s := s.remapBlock stack block die e.length
  (s.judgeDie stack block die).patterns stack block die

/-! ### Uncorrectable blocks and their holders (R528, R544, Table 17-6) -/

/-- Is a block of a tenant's buffer a clean block of a write-back buffer (R323)?
(DEDUCED, log entry 58). -/
def Buffer.cleanBlock (b : Buffer) (k : Nat) : Bool := b.placement == .writeback && !b.dirty.contains (k / 8)

/-- The cache pool, with its tenant and unit, that a block belongs to, and the block's number within the unit (R314). -/
def State.poolHolder (s : State) (stack b : Nat) : Option (Nat × Option Nat × Nat × Nat) :=
  let find (p : Pool) : Option (Nat × Nat) :=
    let g : Granule := { stack := stack, index := b / 128 }
    if p.place.contains g then
      (p.slots.find? fun x => x.2 == 16 * p.place.idxOf g + b % 128 / 8).map fun x => (x.1, b % 8)
    else none
  (s.tenants.zipIdx.flatMap fun t =>
    (((none, t.1.sharedPool) :: t.1.modelPools.map fun m => (some m.1, m.2)).filterMap fun m =>
      (find m.2).map fun u => (t.2, m.1, u.1, u.2))).head?
/-- The tenant that a block belongs to, for the log. -/
def State.blockTenant (s : State) (stack b : Nat) : Nat :=
  (((s.blockHolder stack b).map (·.1)).or ((s.poolHolder stack b).map (·.1))).getD 0xFF

/-- A unit of a cache pool is dropped and brought up again from flash (Table 17-6). -/
def State.renewUnit (s : State) (t : Nat) (m : Option Nat) (u : Nat) : State :=
  if (s.pool t m).coming.contains u then s
  else match s.media.extents.find? fun e => e.tenant == t && e.extent == u / 256 with
  | none => s.modPool t m fun p => p.drop (· == u)
  | some e =>
    let s := s.modPool t m fun p => { p with
      units := p.units.filter (· != u), coming := u :: p.coming, wild := p.wild.filter (·.1 != u) }
    s.request e.superblock (64 * e.position + u % 256 / 4) (u % 4) (.bringUp t m u)

/-- The data of a PUBLISH DATA in progress are lost: the command completes with UNCORRECTABLE_MEMORY and its fault number,
and none of its units counts as written (Tables 06-16, 17-6). What the session has of the extent it stands in is programmed
anew, in another superblock
(DESIGN CHOICE, log entry 117). -/
def State.publishLost (s : State) (c : Cmd) (faultNo : Nat) : State :=
  let t := c.tenant
  let s := s.modMedia fun m => { m with
    jobs := m.jobs.map fun j => if j.kind = .publish c.ref then { j with kind := .orphan } else j }
  let s := s.modSession t fun k =>
    let written := c.cdw11.toNat
    let e := written / 256
    { k with
      written := written
      issued := 64 * e
      superblocks := k.superblocks.map fun b => (b.1, b.2.1, min b.2.2 (e - b.2.1)) }
  s.complete c.ref .uncorrectableMemory faultNo

/-- Entries of a vendor page are lost with the DRAM they lie in: they count as lost (Table 17-6). -/
def LogPage.lose (p : LogPage) (gone : LogEntry → Bool) : LogPage :=
  let l := p.entries.filter gone
  { p with
    entries := p.entries.filter fun e => !gone e
    lost := p.lost + l.length
    lostOf := l.foldl (fun m e => if e.owner = 0 then m
      else (e.owner, (m.lookup e.owner).getD 0 + 1) :: m.filter (·.1 != e.owner)) p.lostOf }
/-- The granules that each vendor page takes in the logs area, with 1,024 entries of 64 bytes in a granule; the journal tails
follow them, each in two stacks
(DESIGN CHOICE, log entry 49). -/
def logPlaces : List (Nat × Nat) :=
  [(0xC0, 1), (0xC1, 4), (0xC2, 4), (0xC3, 1), (0xC4, 1), (0xC5, 2), (0xC6, 1), (0xC7, 16), (0xC8, 1)]
/-- The page, the first entry slot and the number of slots of a granule of the logs area. -/
def logPlaceOf (j : Nat) : Option (Nat × Nat × Nat) :=
  (logPlaces.foldl (fun (r : Nat × Option (Nat × Nat × Nat)) p =>
    (r.1 + p.2, r.2.or (if j < r.1 + p.2 then some (p.1, 1024 * (j - r.1), 1024 * p.2) else none))) (0, none)).2
/-- A block of the logs area is lost: eight entries of a page, entry n in slot (n - 1) modulo the page's slots. -/
def State.logsLost (s : State) (j block : Nat) : State :=
  match logPlaceOf j with
  | none => s
  | some (page, slot, n) =>
    let hit (seq : Nat) : Bool := (seq - 1) % n / 8 == (slot + 8 * (block % 128)) / 8
    if page = 0xC3 then
      let l := s.logs.deferred.filter fun d => hit d.seq
      { s with logs := { s.logs with
        deferred := s.logs.deferred.filter fun d => !hit d.seq
        deferredLost := s.logs.deferredLost + l.length
        deferredLostOf := l.foldl (fun m d => (d.fn, (m.lookup d.fn).getD 0 + 1) :: m.filter (·.1 != d.fn))
          s.logs.deferredLostOf } }
    else { s with logs := s.logs.setPage page ((s.logs.page page).lose fun e => hit e.seq) }

/-- A block of the write buffer is lost. The spec does not say where in it a block lies, so what it held is a free value:
nothing, a block of NVM data or of a copy, or the data of a PUBLISH DATA. A copy is made again from its source
(DESIGN CHOICE, log entry 59). -/
def State.writeBufferLost (s : State) (faultNo : Nat) : State :=
  let blocks := s.media.buffer
  let cmds := (s.media.jobs.filterMap fun j => match j.kind with
    | .publish c => s.command? c
    | _ => none).eraseDups
  let (w, s) := s.drawWord
  let n := w.toNat % (1 + blocks.length + cmds.length)
  if n = 0 then s
  else match blocks[n - 1]? with
    | some b =>
      if b.fn ≥ shadowBase then s
      else
        let s := s.modMedia fun m => { m with buffer := m.buffer.filter fun x => x.seq != b.seq }
        match b.waiter with
        | some r => s.complete r .writeFault
        | none => s.deferAll [(b.fn, b.nsid, b.lba, b.seq)]
    | none => match cmds[n - 1 - blocks.length]? with
      | some c => s.publishLost c faultNo
      | none => s

/-- A model's stored image or program, or the staged image (tenant 16), is damaged (Table 17-6). -/
def State.damage (s : State) (t slot faultNo : Nat) : State :=
  s.modProt fun p => { p with damaged := p.damaged ++ [(t, slot, faultNo)] }
/-- A block of the system area or of the media map area is lost (Table 17-6). An area's granules go round the stacks; the
program store holds 1 MiB for each slot of each tenant. The golden copy, the maps and tables are rebuilt, and a map page is
read again from flash when it is next looked up
(DESIGN CHOICE, log entries 49, 89). -/
def State.systemLoss (s : State) (stack block faultNo : Nat) : State :=
  let g := block / 128
  let off (base : Nat) : Nat := granule * (4 * (g - base) + stack) + 512 * (block % 128)
  if g < stagingBase then s.writeBufferLost faultNo
  else if g < goldenBase then (if off stagingBase < s.pers.stageBytes then s.damage 16 0 faultNo else s)
  else if g < imageStoreBase then s
  else if g < programStoreBase then
    let x : Granule := { stack := stack, index := g }
    let hit := (s.tenants.zipIdx.flatMap fun t => (t.1.models.filter fun m => m.imagePlace.contains x
      && decide (granule * m.imagePlace.idxOf x + 512 * (block % 128) < m.imageLen)).map fun m => (t.2, m.slot)).head?
    match hit with
    | some h => s.damage h.1 h.2 faultNo
    | none => s
  else if g < logsBase then
    let n := (g - programStoreBase) / 4
    let o := off (programStoreBase + 4 * n)
    match s.model? (n / 64) (n % 64) with
    | some m => if o < m.programLen then s.damage (n / 64) (n % 64) faultNo else s
    | none => s
  else if g < serviceBase then s.logsLost (4 * (g - logsBase) + stack) block
  else if g < mapBase then s
  else s.modMapCache fun l => l.filter fun x => x.1 != s.blockSlot stack block

/-- A block cannot be corrected: it is poisoned with its fault number, unless its holder repairs it. The answer says
whether a reader fails. `scrub`: the entry is left to the scrubber
(DEDUCED, log entry 58). -/
def State.lostBlock (s : State) (stack block : Nat) (e : List Nat) (faultNo tenant tag : Nat) (scrub : Bool) :
    State × Option Nat :=
  let die := oneDie e
  let s := s.modStack stack fun k => { k with
    uncorr := satAdd32 k.uncorr 1
    errors := k.errors ++ [{ block := block, die := die, time := s.now, pass := k.scrubPasses, hard := false }] }
  let s := if scrub then s else
    s.memLog { kind := 0x02, stack := stack, block := block, die := die.getD 0xFF, symbols := e.length,
               tenant := tenant, faultNo := faultNo, tag := tag }
  let s := s.patterns stack block die
  match s.blockHolder stack block with
  | some (_, b, k) =>
    if b.cleanBlock k then (s, none)
    else (s.modStack stack fun x => { x with poison := (block, faultNo) :: x.poison }, some faultNo)
  | none =>
    match s.poolHolder stack block with
    | some (t, m, u, _) => (s.renewUnit t m u, none)
    | none =>
      if block / 128 < tenantGranules then
        (s.modStack stack fun x => { x with poison := (block, faultNo) :: x.poison }, some faultNo)
      else (s.systemLoss stack block faultNo, some faultNo)

/-- The data of a block have been miscorrected: what it holds is undefined. -/
def State.scramble (s : State) (stack block : Nat) : State :=
  let g := s.free
  let s := { s with free := s.free + 1 }
  match s.blockHolder stack block with
  | none => match s.poolHolder stack block with
    | none => s
    | some (t, m, u, k) => s.modPool t m fun p => { p with wild := (u, k, g) :: p.wild.filter fun x => x.1 != u || x.2.1 != k }
  | some (t, b, k) =>
    s.modBuffer t b.index fun x => { x with
      data := x.data.put (512 * k) ((List.range (min 512 (x.size - 512 * k))).map (Config.freeByte g)) }

/-- One read of a block by the memory controller (R525, R530): the state after it and, where the reader fails, the
fault number. `fault`: a fault number already assigned to this page by the scrubber
(DESIGN CHOICE, log entry 57). -/
def State.readDram (s : State) (stack block : Nat) (e : BlockErrors) (tag : Nat) (fault : Option Nat) (scrub : Bool) :
    State × Option Nat :=
  let k := s.stack stack
  let tenant := s.blockTenant stack block
  match k.poison.lookup block with
  | some f =>
    if scrub then (s, none) else (s.modStack stack fun x => { x with poisonReads := satAdd32 x.poisonReads 1 }, some f)
  | none =>
    if k.remap.any fun r => r.2.1 == block then (s, none)
    else
      let fix (s : State) : State :=
        let c := outside k.failedDie e.check
        if c.isEmpty then s.modStack stack fun x => { x with corrSoft := satAdd32 x.corrSoft 1 }
        else s.hardBlock stack block c tenant tag
      let lose (s : State) : State × Option Nat :=
        let (f, s) : Nat × State := match fault with
          | some f => (f, s)
          | none => s.newFault
        s.lostBlock stack block (outside k.failedDie e.first) f tenant tag scrub
      let again (s : State) : State × Option Nat :=
        match decodeBlock k.failedDie e.second with
        | .clean | .corrected => (fix s, none)
        | .uncorrectable => lose s
        | .maybe =>
          let (b, s) := s.drawBool
          if b then lose s else (fix (s.scramble stack block), none)
      match decodeBlock k.failedDie e.first with
      | .clean => (s, none)
      | .corrected => (fix s, none)
      | .uncorrectable => again s
      | .maybe =>
        let (b, s) := s.drawBool
        if b then again s else (fix (s.scramble stack block), none)

/-- The entry of the scrubber's page, if it has one to write (R546)
(DEDUCED, log entry 60). -/
def State.scrubEntry (s : State) (stack : Nat) : State :=
  match (s.stack stack).scrubFound with
  | none => s
  | some (f, b, n, count) =>
    let t := s.blockTenant stack b
    (s.modStack stack fun k => { k with scrubFound := none }).memLog
      { kind := 0x02, stack := stack, block := b, symbols := n, tenant := t, faultNo := f, count := count }

/-- DRAM_SCRUB_STEP: the scrubber reads the next block of its pass (R541)
(DESIGN CHOICE, log entry 57). -/
def execDramScrubStep (stack : Nat) (errors : BlockErrors) (s : State) : Out := s.whenOn <|
  if stack ≥ 4 || !s.power.dramReady then .next s
  else
    let b := (s.stack stack).scrubBlock
    let old := (s.stack stack).scrubFound
    let known := (s.stack stack).errors.length
    let r := s.readDram stack b errors 0 (old.map (·.1)) true
    let s := r.1
    let found := ((s.stack stack).errors.drop known).any fun e => !e.hard
    let s := if !found then s else s.modStack stack fun k => { k with
      scrubFound := match old with
        | some (f, x, n, c) => some (f, x, n, c + 1)
        | none => some (r.2.getD s.logs.faultNo, b, (outside k.failedDie errors.first).length, 1) }
    let s := if (b + 1) % pageBlocks = 0 then s.scrubEntry stack else s
    .next (s.modStack stack fun k =>
      if b + 1 ≥ stackBlocks then { k with scrubBlock := 0, scrubPasses := min (k.scrubPasses + 1) 0xFFFF }
      else { k with scrubBlock := b + 1 })

/-! ### Retirement (R536 to R540) -/

/-- RETIRE. `lost` names the blocks, counted within the page, that the copy finds uncorrectable
(DEDUCED, log entries 58, 60). -/
def execRetire (c : Cmd) (lost : List Nat) (s : State) : Out :=
  s.command c .adminOwner fun s =>
    let stack := bits c.cdw10.toNat 1 0
    let page := c.cdw11.toNat
    let k := s.stack stack
    if c.cdw10.toNat ≥ 4 || page > 24575 then s.complete c.ref .invalidField
    else if k.retired.any fun r => r.2 == page then s.complete c.ref .success 1
    else if k.retired.length ≥ 16 then s.complete c.ref .reservationExceeded
    else
      let i := ((List.range 16).find? fun i => !(k.retired.any fun r => r.1 == i)).getD 0
      let repaired (b : Nat) : Bool := match s.blockHolder stack b with
        | some (_, x, n) => x.cleanBlock n
        | none => (s.poolHolder stack b).isSome
      let fresh := ((lost.eraseDups.filter (· < pageBlocks)).map (· + pageBlocks * page)).filter fun b =>
        (k.poison.lookup b).isNone
      let bad := fresh.filter fun b => !repaired b
      let old := k.poison.filter fun w => w.1 / pageBlocks == page
      let (f, s) : Nat × State := if fresh.isEmpty then (0, s) else s.newFault
      let s := s.modStack stack fun k => { k with
        uncorr := satAdd32 k.uncorr fresh.length
        poison := bad.map (fun b => (b, f)) ++ k.poison
        remap := k.remap.filter fun r => r.2.1 / pageBlocks != page
        retired := k.retired ++ [(i, page)] }
      let s : State := match fresh with
        | [] => s
        | b :: _ =>
          s.memLog { kind := 0x02, stack := stack, block := b, tenant := s.blockTenant stack b, faultNo := f, count := fresh.length }
      let s := fresh.foldl (fun (s : State) b => match s.poolHolder stack b with
        | some (t, m, u, _) => s.renewUnit t m u
        | none => s) s
      let s := s.trimMapCache
      let n := old.length + bad.length
      let cause := ((k.reported.find? fun r => r.2.2 == page).map (·.1)).getD 0
      let s := s.memLog { kind := 0x08, stack := stack, block := pageBlocks * page, count := n, pages := [page] }
      let s := s.retireLog 1 cause 0 stack 0 0xFF page n
      let s := if k.retired.length + 1 ≥ 16 then s.warn 2 0 else s
      s.complete c.ref .success 0 n

/-! ### SRAM (R542, R543, Table 17-5) -/

/-- Words of one Lathe unit's tiles, one Gouge slice, one Rasp context and one Rasp unit: the model's numbering of the
words of structures 1 to 3 (log entry 30). -/
def tileWords64 : Nat := 8192
def gougeWords : Nat := 16 * 8192 + 16
def ctxWords : Nat := 4096 + 2048

/-- Change an SRAM structure. -/
def State.modSram (s : State) (k : Nat) (f : SramUnit → SramUnit) : State :=
  s.modProt fun p => { p with sram := p.sram.modify k f }
/-- An SRAM structure. -/
def State.sramUnit (s : State) (k : Nat) : SramUnit := s.prot.sram.getD k {}

/-- The tenant and invocation that hold a word of structures 1 to 3 and 6, for the log. -/
def State.sramTenant (s : State) (k w : Nat) : Nat :=
  let h (x : Option Holder) : Nat := (x.map (·.tenant)).getD 0xFF
  match k with
  | 1 => h (((s.pairs.getD (w / tileWords64 / 8) {}).acc.getD (w / tileWords64 % 8) {}).holder)
  | 2 =>
    let p := s.pairs.getD (w / gougeWords) {}
    let r := w % gougeWords
    if r < 16 * tileWords64 then h ((p.tiles.getD (r / tileWords64) {}).holder)
    else h ((p.masks.getD ((r - 16 * tileWords64) / 2) {}).holder)
  | 3 => h (((s.rasp.getD (w / ctxWords / 4) {}).ctxs.getD (w / ctxWords % 4) {}).holder)
  | 6 => ((List.range 16).find? fun t => s.ownsCtr t w).getD 0xFF
  | _ => 0xFF

/-- The content of an SRAM word becomes undefined by a miscorrection, for the structures whose words the model keeps
one by one. -/
def State.scrambleWord (s : State) (k w : Nat) : State :=
  let g := s.free
  let s := { s with free := s.free + 1 }
  let bs : List Byte := (List.range 8).map (Config.freeByte g)
  match k with
  | 0 =>
    let granuleNo := w / 8192
    { s with tenants := s.tenants.map fun t =>
        { t with
          buffers := t.buffers.map fun b =>
            if b.placement = .tile && b.place.any (fun x => x.index == granuleNo) then
              { b with data := b.data.put (granule * (b.place.map (·.index)).idxOf granuleNo + 8 * (w % 8192)) bs }
            else b
          homes := t.homes.map fun h =>
            match t.models.find? (·.slot == h.1) with
            | some m => if m.homePlace.contains granuleNo then
                (h.1, h.2.put (granule * m.homePlace.idxOf granuleNo + 8 * (w % 8192)) bs) else h
            | none => h } }
  | 1 => { s with pairs := s.pairs.modify (w / tileWords64 / 8) fun p => { p with
      acc := p.acc.modify (w / tileWords64 % 8) fun x => { x with data := x.data.put (8 * (w % tileWords64)) bs } } }
  | 2 =>
    let r := w % gougeWords
    { s with pairs := s.pairs.modify (w / gougeWords) fun p =>
        if r < 16 * tileWords64 then { p with
          tiles := p.tiles.modify (r / tileWords64) fun x => { x with data := x.data.put (8 * (r % tileWords64)) bs } }
        else { p with
          masks := p.masks.modify ((r - 16 * tileWords64) / 2) fun x => { x with
            mask := BitVec.ofNat 128 (setBits x.mask.toNat (64 * (r % 2) + 63) (64 * (r % 2)) (leOfBytes bs)) } } }
  | 3 =>
    let r := w % ctxWords
    { s with rasp := s.rasp.modify (w / ctxWords / 4) fun u => { u with
        ctxs := u.ctxs.modify (w / ctxWords % 4) fun x =>
          if r < 4096 then { x with table := x.table.put (8 * r) bs }
          else { x with
            heap := x.heap.modify ((r - 4096) / 2) fun (e : ListEntry) =>
              if r % 2 = 0 then { e with id := leOfBytes bs } else { e with score := BitVec.ofNat 32 (leOfBytes bs) } } } }
  | 6 => { s with ctrs := s.ctrs.set w (leOfBytes bs % 2 ^ 48) }
  | _ => s

/-- The invocation that owns a word of structure 7: window stacks of the spindles, 64 words each, then the queue slots,
8 words each (log entry 30). -/
def State.ownerOf7 (s : State) (w : Nat) : Option Invocation :=
  if w < 4096 then s.onSpindle (w / 64)
  else match ((s.queue ((w - 4096) / 2048)).entries)[(w - 4096) % 2048 / 8]? with
    | none => none
    | some e => s.invocation? e.tenant e.tag

/-- A slice is tainted (R143): one entry of log page 0xC4, the slice's bit, and the flag of every invocation with a
tainted scan command that has not yet completed
(DEDUCED, log entry 38). -/
def State.taintSlice (s : State) (slice frame changed essential : Nat) : State :=
  let scans := (s.rasp.getD slice {}).passedBy
  let words := (scans.eraseDups.take 8).map fun x => x.2.1 + 65536 * x.1 + 1048576 * b2n x.2.2
  let body := bytesOfLe 1 1 ++ bytesOfLe 1 0x8E ++ bytesOfLe 1 slice ++ [0] ++ bytesOfLe 4 frame ++ bytesOfLe 2 changed
    ++ bytesOfLe 2 essential ++ bytesOfLe 2 scans.length ++ [0, 0]
    ++ (List.range 8).flatMap fun k => bytesOfLe 4 (words.getD k 0)
  let s := s.modPers fun p => { p with taintSlices := p.taintSlices ||| BitVec.ofNat 32 (2 ^ slice) }
  let mark (i : Invocation) : Invocation :=
    if scans.any (fun x => x.1 == i.tenant && x.2.1 == i.tag && !x.2.2) then { i with flags := i.flags ||| 1 } else i
  let s := { s with invocations := s.invocations.map mark }
  s.log 0xC4 body

/-- The frame held in reorder slot `n`, counted over the flows, is dropped (R570); the other words of structure 10 hold
nothing between steps. -/
def State.dropHeld (s : State) (n : Nat) : State :=
  match (s.peer.flows.flatMap fun f => f.heldFrames.map fun h => (f.flow, h))[n]? with
  | none => s
  | some (f, h) => s.modPeer fun p => { p with
      flows := p.flows.map fun x => if x.flow = f then { x with heldFrames := x.heldFrames.filter (· != h) } else x
      ports := p.ports.modify h.1 fun x => { x with rxDiscards := satAdd32 x.rxDiscards 1 } }

/-- An uncorrectable word reaches its structure's holder (Table 17-5). The waits on a counter that stop are those it has not
satisfied. -/
def State.lostWord (s : State) (k w faultNo : Nat) : State :=
  let waits := s.invocations.filterMap fun i => (s.waitsOn i w).map fun x => (i, x)
  let s := s.modSram k fun u => { u with poison := (w, faultNo) :: u.poison.filter (·.1 != w) }
  match k with
  | 4 => s
  | 5 => s.taintSlice (w / 4096 % 32) 0 0 0
  | 6 => waits.foldl (fun (s : State) x => s.faultInv x.1 .memory faultNo x.2.1 x.2.2) s
  | 7 => match s.ownerOf7 w with
    | some i => s.faultInv i .memory faultNo 0xFF i.word
    | none => s
  | 9 => match (s.stack (w / 2048 % 4)).remap.find? fun r => r.1 == w % 2048 / 64 with
    | some r => s.modStack (w / 2048 % 4) fun x => { x with poison := (r.2.1, faultNo) :: x.poison }
    | none => s
  | 10 => s.dropHeld (w / 1024)
  | _ => s

/-- A read of an SRAM word that finds these bits in error (R542, R543): the state after it, and the fault number where the
word cannot be read. `tag`: the invocation whose command reads it, 0 for the scrubber
(DESIGN CHOICE, log entries 30, 59). -/
def State.sramRead (s : State) (k w : Nat) (badBits : List Nat) (tag : Nat) : State × Option Nat :=
  let u := s.sramUnit k
  let n := badBits.eraseDups.length
  match u.poison.lookup w with
  | some f => (s, some f)
  | none =>
    let tenant := s.sramTenant k w
    let lose (s : State) : State × Option Nat :=
      let (f, s) := s.newFault
      let s := s.modSram k fun u => { u with uncorr := satAdd32 u.uncorr 1 }
      let s := s.memLog { kind := 0x0A, source := k, symbols := n, tenant := tenant, faultNo := f, tag := tag, word := w }
      (s.lostWord k w f, some f)
    if n = 0 then (s, none)
    else if n = 1 then
      let b := badBits.headD 0
      let again := u.seen.contains (w, b)
      let s := s.modSram k fun u => { u with corr := satAdd32 u.corr 1, seen := (w, b) :: u.seen.filter (·.1 != w) }
      let due := match u.hard.find? fun h => h.1 == w && h.2.1 == b with
        | some h => decide (s.now ≥ h.2.2 + 86400000000)
        | none => true
      if again && due then
        let s := s.modSram k fun u => { u with hard := (w, b, s.now) :: u.hard.filter fun h => !(h.1 == w && h.2.1 == b) }
        (s.memLog { kind := 0x09, source := k, symbols := 1, tenant := tenant, tag := tag, word := w }, none)
      else (s, none)
    else if n = 2 then lose s
    else
      let (d, s) := s.drawBool
      if d then lose s
      else ((s.modSram k fun u => { u with corr := satAdd32 u.corr 1 }).scrambleWord k w, none)

/-- SRAM_SCRUB_STEP: the scrubber reads one word of a structure and finds these bits in error (R542, R543)
(DESIGN CHOICE, log entry 30). -/
def execSramScrubStep (structure_ word : Nat) (badBits : List Nat) (s : State) : Out := s.whenOn <|
  if structure_ > 10 then .next s else .next (s.sramRead structure_ word badBits 0).1

end Sys2Proof.Machine
end

