-- ==== Sys2Proof/Machine/NumFmt.lean ====
section
/-!
DEFINITION. NumFmt.lean: the number formats of chapter 10: encodings, rounding, conversion, and FP32 arithmetic.
-/

namespace Sys2Proof.Machine

/-- An exact value: `fin neg m e` is `± m * 2^e`. -/
inductive Num where
  | nan
  | inf (neg : Bool)
  | fin (neg : Bool) (m : Nat) (e : Int)
  deriving DecidableEq, Repr, Inhabited

/-- A floating-point format of Table 10-1: the codes are magnitudes without the sign bit. -/
structure Fmt where
  width : Nat
  mant : Nat
  bias : Nat
  maxCode : Nat
  infCode : Option Nat
  nanCode : Nat
  deriving DecidableEq, Repr

def fp32 : Fmt := { width := 32, mant := 23, bias := 127, maxCode := 0x7F7FFFFF, infCode := some 0x7F800000, nanCode := 0x7FC00000 }
def bf16 : Fmt := { width := 16, mant := 7, bias := 127, maxCode := 0x7F7F, infCode := some 0x7F80, nanCode := 0x7FC0 }
def fp16 : Fmt := { width := 16, mant := 10, bias := 15, maxCode := 0x7BFF, infCode := some 0x7C00, nanCode := 0x7E00 }
def e4m3 : Fmt := { width := 8, mant := 3, bias := 7, maxCode := 0x7E, infCode := none, nanCode := 0x7F }
def e5m2 : Fmt := { width := 8, mant := 2, bias := 15, maxCode := 0x7B, infCode := some 0x7C, nanCode := 0x7E }

/-- The value of a bit pattern (R333, R336). -/
def Fmt.decode (f : Fmt) (v : Nat) : Num :=
  let mag := v % 2 ^ (f.width - 1)
  let neg := v.testBit (f.width - 1)
  if mag > f.maxCode then (if f.infCode = some mag then .inf neg else .nan)
  else
    let e := mag / 2 ^ f.mant
    let m := mag % 2 ^ f.mant
    if e = 0 then .fin neg m (1 - (f.bias : Int) - f.mant)
    else .fin neg (2 ^ f.mant + m) ((e : Int) - f.bias - f.mant)

/-- `m / 2^k`, rounded to nearest with ties to even, or toward zero. -/
def roundShift (m k : Nat) (rtz : Bool) : Nat :=
  let q := m / 2 ^ k
  let r := m % 2 ^ k
  if rtz || 2 * r < 2 ^ k then q
  else if 2 * r > 2 ^ k then q + 1
  else q + q % 2

/-- The magnitude code of `m * 2^e`, `m` above 0, rounded with unbounded exponent range (R340). A code above
`maxCode` is beyond the greatest finite value. -/
def Fmt.code (f : Fmt) (m : Nat) (e : Int) (rtz : Bool) : Nat :=
  let qmin : Int := 1 - (f.bias : Int) - f.mant
  let q : Int := max ((m.log2 : Int) + e - f.mant) qmin
  let n := if q ≤ e then m * 2 ^ (e - q).toNat else roundShift m (q - e).toNat rtz
  (q - qmin).toNat * 2 ^ f.mant + n

/-- The sign bit of a format. -/
def Fmt.sign (f : Fmt) (neg : Bool) : Nat := if neg then 2 ^ (f.width - 1) else 0

/-- The bit pattern a value converts to under `SAT` and `RTZ` (R340, R341). -/
def Fmt.encode (f : Fmt) (x : Num) (sat rtz : Bool) : Nat :=
  let beyond (neg : Bool) : Nat :=
    if sat then f.sign neg + f.maxCode
    else match f.infCode with
      | some c => f.sign neg + c
      | none => f.nanCode
  match x with
  | .nan => f.nanCode
  | .inf neg => beyond neg
  | .fin neg m e =>
    if m = 0 then f.sign neg
    else
      let c := f.code m e rtz
      if c ≤ f.maxCode then f.sign neg + c
      else if rtz then f.sign neg + f.maxCode
      else beyond neg

/-! ### FP32 arithmetic (R337, R338) -/

/-- The exact sum. -/
def Num.add (x y : Num) : Num :=
  match x, y with
  | .nan, _ | _, .nan => .nan
  | .inf a, .inf b => if a = b then .inf a else .nan
  | .inf a, .fin .. | .fin .., .inf a => .inf a
  | .fin a m e, .fin b n k =>
    let q := min e k
    let u : Int := (if a then -1 else 1) * ((m * 2 ^ (e - q).toNat : Nat) : Int)
    let v : Int := (if b then -1 else 1) * ((n * 2 ^ (k - q).toNat : Nat) : Int)
    if u + v = 0 then .fin (a && b) 0 0 else .fin (decide (u + v < 0)) (u + v).natAbs q
/-- The exact product. -/
def Num.mul (x y : Num) : Num :=
  match x, y with
  | .nan, _ | _, .nan => .nan
  | .inf a, .inf b => .inf (a != b)
  | .inf a, .fin b n _ | .fin b n _, .inf a => if n = 0 then .nan else .inf (a != b)
  | .fin a m e, .fin b n k => .fin (a != b) (m * n) (e + k)
/-- The value negated. -/
def Num.neg : Num → Num
  | .nan => .nan
  | .inf a => .inf (!a)
  | .fin a m e => .fin (!a) m e

/-- Round an exact value to FP32 bits: nearest, ties to even. -/
def rnd32 (x : Num) : Nat := fp32.encode x false false
/-- FP32 addition, multiplication and fused multiply-add on bit patterns. -/
def add32 (a b : Nat) : Nat := rnd32 ((fp32.decode a).add (fp32.decode b))
def mul32 (a b : Nat) : Nat := rnd32 ((fp32.decode a).mul (fp32.decode b))
def fma32 (a b c : Nat) : Nat := rnd32 (((fp32.decode a).mul (fp32.decode b)).add (fp32.decode c))
/-- FP32 negation; a NaN becomes the canonical NaN. -/
def neg32 (a : Nat) : Nat := rnd32 (fp32.decode a).neg

/-- The order of two values that are not NaN, −0 below +0 where `zeros` asks for it. -/
def Num.lt (x y : Num) (zeros : Bool) : Bool :=
  match x, y with
  | .nan, _ | _, .nan => false
  | .inf a, .inf b => a && !b
  | .inf a, .fin .. => a
  | .fin .., .inf b => !b
  | .fin a m e, .fin b n k =>
    let q := min e k
    let u : Int := (if a then -1 else 1) * ((m * 2 ^ (e - q).toNat : Nat) : Int)
    let v : Int := (if b then -1 else 1) * ((n * 2 ^ (k - q).toNat : Nat) : Int)
    decide (u < v) || (zeros && decide (u = v) && decide (m = 0) && a && !b)
/-- Is the value NaN? -/
def Num.isNan (x : Num) : Bool := x == .nan
/-- MAX and MIN of Table 12-5. -/
def max32 (a b : Nat) : Nat :=
  let x := fp32.decode a
  let y := fp32.decode b
  if x.isNan || y.isNan then fp32.nanCode else if x.lt y true then b else a
def min32 (a b : Nat) : Nat :=
  let x := fp32.decode a
  let y := fp32.decode b
  if x.isNan || y.isNan then fp32.nanCode else if y.lt x true then b else a

/-! ### Formats by code (Table 10-3) -/

/-- The floating-point format of a code. -/
def floatOf : Nat → Option Fmt
  | 0 => some fp32
  | 1 => some bf16
  | 2 => some fp16
  | 3 => some e4m3
  | 4 => some e5m2
  | _ => none
/-- Bits of an element of a format code. -/
def fmtBits : Nat → Nat
  | 0 | 8 | 9 => 32
  | 1 | 2 => 16
  | 7 => 4
  | 10 => 1
  | _ => 8
/-- Range of an integer format: least and greatest. -/
def intRange : Nat → Option (Int × Int)
  | 5 => some (-128, 127)
  | 6 => some (0, 255)
  | 7 => some (-8, 7)
  | 8 => some (-2147483648, 2147483647)
  | 9 => some (0, 4294967295)
  | _ => none

/-- An integer as an exact value. -/
def Num.ofInt (v : Int) : Num := .fin (decide (v < 0)) v.natAbs 0
/-- The integer that an element of an integer format stands for. -/
def intValue (fmt v : Nat) : Int :=
  match fmt with
  | 6 | 9 => ((v % 2 ^ fmtBits fmt : Nat) : Int)
  | _ => signed (fmtBits fmt) v
/-- The exact value of an element of any numeric format. -/
def fmtValue (fmt v : Nat) : Num :=
  match floatOf fmt with
  | some f => f.decode v
  | none => .ofInt (intValue fmt v)
/-- An element widened to an FP32 lane value (R342 for INT32; exact otherwise). -/
def widen (fmt v : Nat) : Nat := rnd32 (fmtValue fmt v)

/-- An FP32 value rounded and clamped to an integer range (R342). -/
def toInt (x : Num) (lo hi : Int) (rtz : Bool) : Int :=
  match x with
  | .nan => 0
  | .inf neg => if neg then lo else hi
  | .fin neg m e =>
    let n : Int := ((if 0 ≤ e then m * 2 ^ e.toNat else roundShift m (-e).toNat rtz : Nat) : Int)
    min hi (max lo (if neg then -n else n))
/-- An FP32 lane value converted to a format under `CVT` (R339, R340, R342). -/
def convert (fmt cvt v : Nat) : Nat :=
  match floatOf fmt with
  | some f => f.encode (fp32.decode v) (bit cvt 0) (bit cvt 1)
  | none => match intRange fmt with
    | some (lo, hi) => wrapTo (fmtBits fmt) (toInt (fp32.decode v) lo hi (bit cvt 1))
    | none => 0

/-- Bytes of `n` consecutive elements. -/
def elemBytes (fmt n : Nat) : Nat := ceilDiv (n * fmtBits fmt) 8
/-- Element `k` of packed bytes (R332, R334). -/
def elemAt (fmt : Nat) (bs : Nat → Byte) (k : Nat) : Nat :=
  if fmt = 7 then (if k % 2 = 0 then (bs (k / 2)).toNat % 16 else (bs (k / 2)).toNat / 16)
  else readLe bs (k * (fmtBits fmt / 8)) (fmtBits fmt / 8)
/-- Consecutive elements packed into bytes; a last half byte keeps the upper bits of `old` (R344). -/
def packElems (fmt : Nat) (old : Byte) : List Nat → List Byte
  | [] => []
  | [x] =>
    if fmt = 7 then [BitVec.ofNat 8 (x % 16 + 16 * (old.toNat / 16))] else bytesOfLe (fmtBits fmt / 8) x
  | x :: y :: r =>
    if fmt = 7 then BitVec.ofNat 8 (x % 16 + 16 * (y % 16)) :: packElems fmt old r
    else bytesOfLe (fmtBits fmt / 8) x ++ packElems fmt old (y :: r)

end Sys2Proof.Machine
end

