-- ==== Sys2Proof/Machine/Engine.lean ====
section
/-!
DEFINITION. Engine.lean: what every engine command shares: the addresses of its body, what it reads, writes, claims and
costs, its accesses to memory, and the run of an operation on the started command of an instance (chapters 07, 09, 17).
-/

namespace Sys2Proof.Machine

/-! ### Work of a command -/

/-- A start check: it holds, or ends the command for a reason. -/
def need (c : Bool) (r : StopReason) : Except StopReason Unit := if c then .ok () else .error r
/-- Are reserved fields of a descriptor, as byte, high bit and low bit, all zero? -/
def zeroFields (d : BitVec 512) (l : List (Nat × Nat × Nat)) : Bool := l.all fun f => fld d f.1 f.2.1 f.2.2 == 0
/-- The offset of a buffer address. -/
def offOf (a : Nat) : Nat := bits a 47 0
/-- The piece of `len` bytes at a buffer address displaced by `delta` bytes (R308). -/
def State.piece (s : State) (i : Invocation) (a delta len : Nat) : Except StopReason Span :=
  match s.space i a with
  | none => .error .badBody
  | some sp => .ok { space := sp, off := (offOf a + delta) % 2 ^ 64, len := len }
/-- The range check of R308 over some pieces. -/
def State.needInside (s : State) (i : Invocation) (l : List Span) : Except StopReason Unit :=
  need (l.all (s.inside i)) .addressOutside
/-- The read-only units of some pieces of one buffer, each once, with the pool. -/
def State.unitsRead (s : State) (t : Nat) (ps : List Span) : List (Option Nat × Nat) :=
  ((ps.flatMap (s.unitsOf t)).eraseDups).map fun u => ((ps.head?).bind (s.poolOf t), u)
/-- Do the units fit their pool (R316)? -/
def State.unitsFit (s : State) (t : Nat) (us : List (Option Nat × Nat)) : Bool :=
  match us with
  | [] => true
  | (m, _) :: _ => decide (us.length ≤ s.poolUnits t m)
/-- Is a unit in its pool, or one whose read would not bring it there: unreadable, or not published? -/
def State.unitReady (s : State) (t : Nat) (x : Option Nat × Nat) : Bool :=
  (s.pool t x.1).units.contains x.2 || (match s.media.extents.find? fun e => e.tenant == t && e.extent == x.2 / 256 with
    | none => true
    | some e => (e.bad.lookup (x.2 % 256)).isSome)
/-- Mark the units that a command reads as used most recently (R317). -/
def State.useUnits (s : State) (t : Nat) (us : List (Option Nat × Nat)) : State :=
  us.foldl (fun (s : State) x => s.modPool t x.1 fun p => if p.units.contains x.2 then p.use x.2 else p) s
/-- The fault number of the first unreadable unit. -/
def State.badUnit (s : State) (t : Nat) (us : List (Option Nat × Nat)) : Option Nat :=
  us.findSome? fun x => (s.media.extents.find? fun e => e.tenant == t && e.extent == x.2 / 256).bind fun e =>
    e.bad.lookup (x.2 % 256)
/-- Is the memory in the tile store, judged before its range: an unused slot passes (R308)? -/
def Space.mayTile : Space → Bool
  | .unused => true
  | x => x.inTile

/-- The holder that a command's claims give. -/
def QEntry.holder (e : QEntry) : Holder := { tenant := e.tenant, tag := e.tag }
/-- The Lathe and Gouge pair of a queue. -/
def pairOf (q : Nat) : Nat := if q < 24 then q - 8 else q - 24
/-- The pair of a queue. -/
def State.pair (s : State) (q : Nat) : Pair := s.pairs.getD (pairOf q) {}
/-- Change the pair of a queue. -/
def State.modPair (s : State) (q : Nat) (f : Pair → Pair) : State := { s with pairs := s.pairs.modify (pairOf q) f }
/-- The Rasp unit of a queue. -/
def State.unit (s : State) (q : Nat) : RaspUnit := s.rasp.getD (q - 40) {}
/-- Change the Rasp unit of a queue. -/
def State.modUnit (s : State) (q : Nat) (f : RaspUnit → RaspUnit) : State :=
  { s with rasp := s.rasp.modify (q - 40) f }
/-- Change entry `k` of a queue. -/
def State.modEntry (s : State) (q k : Nat) (f : QEntry → QEntry) : State :=
  s.modQueue q fun x => { x with entries := x.entries.modify k f }

/-! ### Memory accesses of an engine (R525 to R530, R545, Table 17-5) -/

/-- Does a settled piece touch block `b` of a stack? -/
def State.touches (s : State) (t : Nat) (p : Span) (stack b : Nat) : Bool :=
  match p.space with
  | .buf x pl =>
    if pl = .tile || p.len = 0 then false
    else if pl = .readonly then match s.poolHolder stack b with
      | some (t', m, u, k) => t' == t && m == s.poolOf t p && match ((s.unitsOf t p).head?).map (u - ·) with
        | some n => (s.unitsOf t p).contains u && decide (4096 * n + 512 * k < p.off % 4096 + p.len)
            && decide (p.off % 4096 < 4096 * n + 512 * k + 512)
        | none => false
      | none => false
    else match s.blockHolder stack b with
      | some (t', y, k) => t' == t && y.index == x && decide (512 * k < p.off + p.len) && decide (p.off < 512 * k + 512)
      | none => false
  | _ => false
/-- The byte range, within a space, of a word of the tile store, when the space holds it. -/
def State.wordIn (s : State) (t : Nat) (sp : Space) (w : Nat) : Option Nat :=
  let l := s.tilePlace t sp
  if l.contains (w / 8192) then some (granule * l.idxOf (w / 8192) + 8 * (w % 8192)) else none
/-- Does a settled piece touch a word of the tile store? `whole`: does it cover it? -/
def State.wordTouched (s : State) (t : Nat) (p : Span) (whole : Bool) (w : Nat) : Bool :=
  match s.wordIn t p.space w with
  | none => false
  | some o =>
    if whole then decide (p.off ≤ o) && decide (o + 8 ≤ p.off + p.len)
    else decide (0 < p.len) && decide (o < p.off + p.len) && decide (p.off < o + 8)
/-- The poisoned words of the tile store that a settled piece touches, with their fault numbers; `whole`: only those it
covers. -/
def State.poisonIn (s : State) (t : Nat) (p : Span) (whole : Bool) : List (Nat × Nat) :=
  (s.sramUnit 0).poison.filter fun w => s.wordTouched t p whole w.1

/-- The fault number of a poisoned word of structure `k` in `[first, first + n)`. -/
def State.sramFault (s : State) (k first n : Nat) : Option Nat :=
  ((s.sramUnit k).poison.find? fun w => decide (first ≤ w.1) && decide (w.1 < first + n)).map (·.2)
/-- The poison of words of structure `k` in `[first, first + n)` is cleared by writing them. -/
def State.clearWords (s : State) (k first n : Nat) : State :=
  if (s.sramUnit k).poison.isEmpty then s
  else s.modSram k fun u => { u with poison := u.poison.filter fun w => !(decide (first ≤ w.1) && decide (w.1 < first + n)) }
/-- The words of accumulator tile `k`, of Gouge tile `k` and of mask register `k` of a pair, from word `w` of it on. -/
def accWords (q k w n : Nat) : Nat × Nat × Nat := (1, tileWords64 * (8 * pairOf q + k) + w, n)
/-- See `accWords`. -/
def gougeTileWords (q k w n : Nat) : Nat × Nat × Nat := (2, gougeWords * pairOf q + tileWords64 * k + w, n)
/-- See `accWords`. -/
def maskWords (q k : Nat) : Nat × Nat × Nat := (2, gougeWords * pairOf q + 16 * tileWords64 + 2 * k, 2)

/-- Read the blocks and words of some pieces: the first that cannot be read gives its fault number. `found` says what
the decoder meets in the blocks that do not read clean. A poisoned clean block of a write-back buffer is repaired
(DESIGN CHOICE, log entry 57). -/
def State.demand (s : State) (t tag : Nat) (ps : List Span) (found : List BlockRead) : State × Option Nat :=
  let ps := ps.map (s.settle t)
  let poisoned := s.prot.dramStacks.zipIdx.flatMap fun k => k.1.poison.map fun w => (k.2, w.1, ({} : BlockErrors))
  let fresh := found.filter fun r => ((s.stack r.stack).poison.lookup r.block).isNone
  let all := (fresh.map fun r => (r.stack, r.block, r.errors)) ++ poisoned
  let mine := all.filter fun x => ps.any fun p => s.touches t p x.1 x.2.1
  let r := mine.foldl (fun (r : State × Option Nat) x =>
    let y := r.1.readDram x.1 x.2.1 x.2.2 tag none false
    (y.1, r.2.or y.2)) (s, none)
  let words := ps.flatMap fun p => s.poisonIn t p false
  (r.1, r.2.or (words.head?.map (·.2)))

/-- A command reads some pieces and some words of the SRAM structures 1 to 4, given as structure, first word and count:
`found` and `bad` say which blocks and words do not read clean, and the first that cannot be read gives its fault number
(R368, R397, R423, R525, R542). -/
def State.fetch (s : State) (i : Invocation) (ps : List Span) (words : List (Nat × Nat × Nat)) (found : List BlockRead)
    (bad : List WordRead) : State × Option Nat :=
  let qs := ps.map (s.settle i.tenant)
  let hit (w : WordRead) : Bool :=
    if w.structure_ = 0 then qs.any fun p => s.wordTouched i.tenant p false w.word
    else words.any fun x => x.1 == w.structure_ && decide (x.2.1 ≤ w.word) && decide (w.word < x.2.1 + x.2.2)
  let r := (bad.filter hit).foldl (fun (r : State × Option Nat) w =>
    let y := r.1.sramRead w.structure_ w.word w.bits i.tag
    (y.1, r.2.or y.2)) (s, none)
  let y := r.1.demand i.tenant i.tag ps found
  (y.1, (r.2.or y.2).or (words.findSome? fun x => y.1.sramFault x.1 x.2.1 x.2.2))

/-- Blocks that a write of a range covers only in part. -/
def partBlocks (off len : Nat) : List Nat :=
  if len = 0 then []
  else
    let a := off / 512
    let z := (off + len - 1) / 512
    let head := if off % 512 ≠ 0 || off + len < 512 * (a + 1) then [a] else []
    if z ≠ a && (off + len) % 512 ≠ 0 then head ++ [z] else head

/-- Write bytes at a piece: blocks written in part are read, merged and written; poisoned ones of them stay as they are
and end the writer; blocks and words written whole lose their poison (R526, R528, R542). -/
def State.spanWrite (s : State) (i : Invocation) (p : Span) (bs : List Byte) (found : List BlockRead := []) :
    State × Option Nat :=
  let t := i.tenant
  let q := s.settle t { p with len := bs.length }
  if bs.isEmpty then (s, none)
  else match q.space with
  | .buf x .readonly => (s.spanStore i { q with space := .buf x .readonly } bs, none)
  | .home _ | .buf _ .tile =>
    let gone := (s.poisonIn t q true).map (·.1)
    let s := if gone.isEmpty then s
      else s.modSram 0 fun u => { u with poison := u.poison.filter fun w => !gone.contains w.1 }
    (s.spanStore i q bs, none)
  | .buf x _ =>
    match s.bufferAt t x with
    | none => (s, none)
    | some b =>
      let part := partBlocks q.off q.len
      let r := part.foldl (fun (r : State × Option Nat) k => match b.blockAt k with
        | none => r
        | some (st, n) =>
          let s := r.1.modStack st fun y => { y with rmw := satAdd32 y.rmw 1 }
          let e := ((found.find? fun f => f.stack == st && f.block == n).map (·.errors)).getD {}
          let y := s.readDram st n e i.tag none false
          (y.1, r.2.or y.2)) (s, none)
      let s := r.1.spanStore i q bs
      let whole (stack n : Nat) : Bool := match s.blockHolder stack n with
        | some (t', y, k) => t' == t && y.index == x && !part.contains k
            && decide (q.off ≤ 512 * k) && decide (512 * k < q.off + q.len)
        | none => false
      let s := s.modProt fun m => { m with
        dramStacks := m.dramStacks.zipIdx.map fun k =>
          if k.1.poison.isEmpty then k.1 else { k.1 with poison := k.1.poison.filter fun w => !whole k.2 w.1 } }
      (s, r.2)
  | _ => (s.spanStore i q bs, none)

/-- Write one piece after another; the first fault counts. -/
def State.spanWrites (s : State) (i : Invocation) (l : List (Span × List Byte)) : State × Option Nat :=
  l.foldl (fun (r : State × Option Nat) x =>
    let y := r.1.spanWrite i x.1 x.2
    (y.1, r.2.or y.2)) (s, none)

/-- `n` bytes whose value the spec leaves undefined. -/
def State.drawBytes (s : State) (n : Nat) : List Byte × State :=
  ((List.range n).map (Config.freeByte s.free), { s with free := s.free + 1 })
/-- The content of some pieces becomes undefined
(DESIGN CHOICE, log entry 63). -/
def State.blur (s : State) (i : Invocation) (l : List Span) : State :=
  l.foldl (fun (s : State) p =>
    let (bs, s) := s.drawBytes p.len
    (s.spanWrite i p bs).1) s

/-! ### Offers to claims: holding and caps (R353 to R355, R372, R373, R404, R405) -/

/-- Weight of a tenant at an engine class. -/
def State.weight (s : State) (t cls : Nat) : Nat :=
  match s.record t with
  | none => 0
  | some r => match cls with
    | 0 => r.weights.dma
    | 1 => r.weights.lathe
    | 2 => r.weights.gouge
    | 3 => r.weights.rasp
    | 4 => r.weights.burl
    | _ => r.weights.peer
/-- Has any other tenant a non-zero weight at a class, among tenants that `f` admits? -/
def State.rivals (s : State) (t cls : Nat) (f : Nat → Bool) : Bool :=
  (List.range s.pers.active.tenants.length).any fun u => u != t && f u && s.weight u cls != 0

/-- May an entry claim element `k` of a list of holders: free or its own, within a cap on its tenant's holding? -/
def mayClaim (h : Holder) (l : List (Option Holder)) (cap : Nat) : Option Nat → Bool
  | none => true
  | some k => match l.getD k none with
    | some x => x == h
    | none => decide ((l.filter fun y => (y.map (·.tenant)) == some h.tenant).length < cap)

/-- Are the claims of a command ready? -/
def State.claimsReady (s : State) (q : Nat) (e : QEntry) (w : Work) : Bool :=
  let p := s.pair q
  let h := e.holder
  let gouge := s.rivals e.tenant 2 fun _ => true
  mayClaim h (p.acc.map (·.holder)) (if s.rivals e.tenant 1 (fun _ => true) then 6 else 8) (w.claimAcc.map (·.1))
    && mayClaim h (p.tiles.map (·.holder)) (if gouge then 12 else 16) w.claimTile
    && mayClaim h (p.masks.map (·.holder)) (if gouge then 6 else 8) w.claimMask
    && mayClaim h ((s.unit q).ctxs.map (·.holder))
        (if s.rivals e.tenant 3 (fun u => match s.record u with
          | some r => r.groupMask.getLsbD ((q - 40) / 8)
          | none => false) then 2 else 4) w.claimCtx

/-- The claims of a starting command take effect
(DEDUCED, log entry 68). -/
def State.claim (s : State) (q : Nat) (e : QEntry) (w : Work) : State :=
  let h := e.holder
  let s := match w.claimAcc with
    | none => s
    | some (k, kind) =>
      let (r, s) := s.drawRegion
      s.modPair q fun p => { p with acc := p.acc.modify k fun _ => { kind := kind, holder := some h, data := r } }
  let s := match w.claimTile with
    | none => s
    | some k =>
      if (((s.pair q).tiles.getD k {}).holder).isSome then s
      else
        let (r, s) := s.drawRegion
        s.modPair q fun p => { p with tiles := p.tiles.modify k fun _ => { holder := some h, data := r } }
  let s := match w.claimMask with
    | none => s
    | some k => s.modPair q fun p => { p with masks := p.masks.modify k fun x => { x with holder := some h } }
  match w.claimCtx with
  | none => s
  | some k => s.modUnit q fun u => { u with ctxs := u.ctxs.modify k fun x => { x with holder := some h } }

/-! ### Running an operation -/

/-- Charge a tenant's deficit at an instance (R242). -/
def State.charge (s : State) (q t cost : Nat) : State :=
  s.modQueue q fun x => { x with deficits := x.deficits.modify t fun v => v - cost }

/-- Do two pieces of a tenant lie in a common granule (R240)? Host memory has none. -/
def State.nearby (s : State) (t : Nat) (p q : Span) : Bool :=
  let p := s.settle t p
  let q := s.settle t q
  p.space == q.space && (p.space.inTile || p.space.inDram) && decide (0 < p.len) && decide (0 < q.len)
    && decide (p.off / granule ≤ (q.off + q.len - 1) / granule)
    && decide (q.off / granule ≤ (p.off + p.len - 1) / granule)
/-- Do two works of an invocation touch a common granule, one of them with a write?
(DESIGN CHOICE, log entry 63). -/
def State.races (s : State) (t : Nat) (w o : Work) : Bool :=
  w.writes.any (fun p => (o.reads ++ o.writes).any (s.nearby t p))
    || w.reads.any (fun p => o.writes.any (s.nearby t p))

/-- Run an operation at the command that an instance has started: its effect `run`, which answers the state and what the
command has come to. Its claims took effect as it started
(DESIGN CHOICE, log entries 62, 70). -/
def State.runOp (s : State) (q cls op : Nat) (work : State → Invocation → QEntry → Except StopReason Work)
    (run : State → Invocation → QEntry → Work → State × CmdOutcome) : State :=
  if !s.engines then s else
  match (s.queue q).entries.findIdx? fun e =>
      e.origin == .word && e.outcome == .started && classOf e.desc == cls && opOf e.desc == op && !(cls == 5 && e.begun) with
  | none => s
  | some k =>
    match (s.queue q).entries[k]? with
    | none => s
    | some e =>
      match s.invocation? e.tenant e.tag with
      | none => s.modEntry q k fun x => { x with outcome := .cancelled }
      | some i => match work s i e with
        | .error r => s.modEntry q k fun x => { x with outcome := .failed r 0 }
        | .ok w =>
          let r := run s i e w
          r.1.modEntry q k fun x => { x with outcome := r.2 }

/-- A command fails because of memory, or has done its work. -/
def memOutcome : Option Nat → CmdOutcome
  | none => .done
  | some f => .failed .memory f

end Sys2Proof.Machine
end

