-- ==== Sys2Proof/Machine/Transcend.lean ====
section
/-!
DEFINITION. Transcend.lean: the approximate functions of the Gouge slices: the exact result in fixed point, rounded to
FP32, and a free value inside the bound that Table 12-8 and R389 give.
-/

namespace Sys2Proof.Machine

/-- Fraction bits of the fixed-point numbers: enough that rounding to FP32 is that of the exact result. -/
def fxBits : Nat := 192
/-- One, in fixed point. -/
def fxOne : Nat := 2 ^ fxBits
/-- `± m * 2^e` in fixed point, rounded down. -/
def fxOf (neg : Bool) (m : Nat) (e : Int) : Int :=
  let k := e + fxBits
  let v : Int := if neg then -(m : Int) else m
  if 0 ≤ k then v * (2 ^ k.toNat : Nat) else v.fdiv ((2 ^ (-k).toNat : Nat) : Int)

/-- Terms of the exponential series from term `k` on, the argument and the running term in fixed point. -/
def expSeries (r : Nat) : Nat → Nat → Nat → Nat
  | 0, _, _ => 0
  | f + 1, k, term => term + expSeries r f (k + 1) (term * r / fxOne / (k + 1))
/-- Terms of the inverse hyperbolic tangent series: `p` is the odd power of the argument of term `k`. -/
def atanhSeries (sq : Nat) : Nat → Nat → Nat → Nat
  | 0, _, _ => 0
  | f + 1, k, p => p / (2 * k + 1) + atanhSeries sq f (k + 1) (p * sq / fxOne)
/-- Natural logarithm of a ratio `y / x` at least 1 and below 2, in fixed point. -/
def fxLog (y x : Nat) : Nat :=
  let t := (y - x) * fxOne / (y + x)
  2 * atanhSeries (t * t / fxOne) 64 0 t
/-- ln 2 in fixed point: 2 atanh(1/3). -/
def fxLn2 : Nat := 2 * atanhSeries (fxOne / 9) 64 0 (fxOne / 3)

/-- `e^x` of a fixed-point argument, as mantissa and binary exponent. -/
def fxExp (x : Int) : Nat × Int :=
  let n := x.fdiv fxLn2
  (expSeries (x - n * fxLn2).toNat 64 0 fxOne, n - fxBits)

/-- A quotient of natural numbers as an exact-enough value: 256 bits and a sticky bit. -/
def quotient (neg : Bool) (a b : Nat) (e : Int) : Num :=
  let q := a * 2 ^ 256 / b
  .fin neg (2 * q + (if a * 2 ^ 256 % b = 0 then 0 else 1)) (e - 257)
/-- The integer square root, bit by bit: `f` bits. -/
def isqrt (n : Nat) : Nat → Nat
  | 0 => 0
  | f + 1 =>
    let r := 2 * isqrt (n / 4) f
    if (r + 1) * (r + 1) ≤ n then r + 1 else r

/-- `sigmoid` of a fixed-point argument, as a ratio `a / b`. -/
def fxSigmoid (x : Int) : Nat × Nat :=
  if x ≥ 256 * (fxOne : Int) then (1, 1)
  else if x ≤ -(256 * (fxOne : Int)) then (0, 1)
  else
    let (m, e) := fxExp (-x.natAbs)
    let y := m / 2 ^ (-(e + fxBits)).toNat
    if x ≥ 0 then (fxOne, fxOne + y) else (y, fxOne + y)

/-- FP32 codes of the special results. -/
def posInf32 : Nat := 0x7F800000
def negInf32 : Nat := 0xFF800000
def negZero32 : Nat := 0x80000000
def one32 : Nat := 0x3F800000

/-- A subnormal FP32 value. -/
def subnormal32 (v : Nat) : Bool := v % 2 ^ 31 < 0x800000 && v % 2 ^ 31 != 0

/-- What a transcendental step gives: an exact special value, or the exact result rounded to FP32, near which the step's
result lies. -/
inductive Approx where
  | exactly (v : Nat)
  | near (v : Nat)
  deriving DecidableEq, Repr, Inhabited

/-- A result in which +0 stands for a subnormal. -/
def noSubnormal (v : Nat) : Approx := if subnormal32 v || v % 2 ^ 31 = 0 then .exactly 0 else .near v

/-- A step 0x0B to 0x13 of Table 12-5 on an FP32 value (R386, Table 12-8)
(DESIGN CHOICE, log entry 67). -/
def transcend (sop v : Nat) : Approx :=
  match fp32.decode v with
  | .nan => .exactly fp32.nanCode
  | .inf neg =>
    .exactly (match sop with
      | 0x0B => if neg then negZero32 else 0
      | 0x0C => if neg then fp32.nanCode else 0
      | 0x0D | 0x0E => if neg then 0 else posInf32
      | 0x0F => if neg then fp32.nanCode else posInf32
      | 0x10 => if neg then one32 + 2 ^ 31 else one32
      | 0x11 => if neg then 0 else one32
      | _ => if neg then negZero32 else posInf32)
  | .fin neg m e =>
    let zero := decide (m = 0) || (subnormal32 v && (sop == 0x0B || sop == 0x0C || sop == 0x0F))
    match sop with
    | 0x0B =>
      if zero then .exactly (if neg then negInf32 else posInf32) else .near (rnd32 (quotient neg 1 m (-e)))
    | 0x0C =>
      if zero then .exactly (if neg then negInf32 else posInf32)
      else if neg then .exactly fp32.nanCode
      else
        let odd := decide (e % 2 ≠ 0)
        let m := if odd then 2 * m else m
        let e := if odd then e - 1 else e
        .near (rnd32 (.fin false (2 * isqrt (2 ^ 400 / m) 256 + 1) (-(e / 2) - 201)))
    | 0x0D =>
      let x := fxOf neg m e
      if x ≥ 200 * (fxOne : Int) then .exactly posInf32
      else if x ≤ -(200 * (fxOne : Int)) then .exactly 0
      else
        let n := x.fdiv fxOne
        let r := (x - n * fxOne).toNat
        noSubnormal (rnd32 (.fin false (expSeries (r * fxLn2 / fxOne) 64 0 fxOne) (n - fxBits)))
    | 0x0E =>
      let x := fxOf neg m e
      if x ≥ 200 * (fxOne : Int) then .exactly posInf32
      else if x ≤ -(200 * (fxOne : Int)) then .exactly 0
      else
        let (a, k) := fxExp x
        noSubnormal (rnd32 (.fin false a k))
    | 0x0F =>
      if zero then .exactly negInf32
      else if neg then .exactly fp32.nanCode
      else
        let k := m.log2
        let f := fxLog m (2 ^ k) * fxOne / fxLn2
        let total : Int := ((k : Int) + e) * fxOne + f
        if total = 0 then .exactly 0
        else .near (rnd32 (.fin (decide (total < 0)) total.natAbs (-(fxBits : Int))))
    | 0x10 =>
      if m = 0 then .exactly v
      else
        let x := (fxOf neg m e).natAbs
        if x ≥ 32 * fxOne then .near (if neg then one32 + 2 ^ 31 else one32)
        else if x < fxOne / 2 ^ 40 then .near v
        else
          let (a, k) := fxExp (2 * (x : Int))
          let y := if 0 ≤ k + fxBits then a * 2 ^ (k + fxBits).toNat else a / 2 ^ (-(k + fxBits)).toNat
          .near (rnd32 (quotient neg (y - fxOne) (y + fxOne) 0))
    | 0x11 =>
      let r := fxSigmoid (fxOf neg m e)
      noSubnormal (rnd32 (quotient false r.1 r.2 0))
    | 0x12 =>
      if m = 0 then .near v
      else
        -- 2 c (v + k v^3), with c = 0.79788456 and k = 0.044715; far arguments settle the sigmoid
        let x := fxOf neg m e
        let big := decide (x.natAbs ≥ 64 * fxOne)
        let one : Int := fxOne
        let cube := ((x * x).fdiv one * x).fdiv one
        let u := if big then 512 * x else ((x + (cube * 44715).fdiv 1000000) * 159576912).fdiv 100000000
        let r := fxSigmoid u
        .near (rnd32 (quotient neg (m * r.1) r.2 e))
    | _ =>
      if m = 0 then .near v
      else
        let r := fxSigmoid (fxOf neg m e)
        .near (rnd32 (quotient neg (m * r.1) r.2 e))

/-- The ulp of a finite FP32 value, as a power of two. -/
def ulpExp (v : Nat) : Int := max ((v / 2 ^ 23 % 256 : Nat) : Int) 1 - 150
/-- Is an FP32 value finite? -/
def finite32 (v : Nat) : Bool := v % 2 ^ 31 < 0x7F800000
/-- Does a candidate lie within `k` ulp of `v`, or within `2^a`, whichever is larger?
(DESIGN CHOICE, log entry 67). -/
def within (v c k : Nat) (a : Int) : Bool :=
  finite32 v && finite32 c && decide (c < 2 ^ 32) &&
    match (fp32.decode v).add (fp32.decode c).neg with
    | .fin _ m e => !((Num.fin false k (ulpExp v)).lt (.fin false m e) false) || !((Num.fin false 1 a).lt (.fin false m e) false)
    | _ => false

/-- Bound of a step in ulp, and the absolute bound as a power of two (Table 12-8). -/
def stepBound : Nat → Nat × Int
  | 0x0B | 0x0C => (1, -1000)
  | 0x0D | 0x0E => (2, -1000)
  | 0x0F => (2, -22)
  | 0x10 | 0x11 => (2, -23)
  | _ => (4, -21)

/-- The result of a step: its special value, or a free value inside the bound. `c` is the free value offered; one that
lies outside the bound gives the exact result rounded. EXP2, EXP and SIGMOID give no subnormal, and every step but those of
R386 keeps one: it gives no zero in its place (R338)
(DESIGN CHOICE, log entry 67). -/
def stepResult (sop v c : Nat) : Nat :=
  match transcend sop v with
  | .exactly x => x
  | .near x =>
    let b := stepBound sop
    if within x c b.1 b.2 then
      let flushes := sop == 0x0D || sop == 0x0E || sop == 0x11
      if subnormal32 c && flushes then 0
      else if subnormal32 x && c % 2 ^ 31 == 0 && !flushes then x
      else c
    else x

/-- The exact softmax of some values, rounded to FP32: `z` as FP32 codes, none of them NaN or +∞ (R388, R389). -/
def softmaxExact (z : List Nat) : List Nat :=
  let m := z.foldl max32 negInf32
  let nm := (fp32.decode m).neg
  let parts := z.map fun v =>
    match (fp32.decode v).add nm with
    | .fin neg a e =>
      let x := fxOf neg a e
      if x ≤ -(256 * (fxOne : Int)) then 0
      else
        let (b, k) := fxExp x
        if 0 ≤ k + fxBits then b * 2 ^ (k + fxBits).toNat else b / 2 ^ (-(k + fxBits)).toNat
    | _ => 0
  let total := parts.foldl (· + ·) 0
  parts.map fun p => rnd32 (quotient false p total 0)

/-- One softmax output: the exact one, or the free value offered where it lies in the bound of R389
(DESIGN CHOICE, log entry 67). -/
def softmaxResult (x c : Nat) : Nat := if within x c 8 (-126) then c else x

end Sys2Proof.Machine
end

