-- ==== Sys2Proof/Machine/Jpeg.lean ====
section
/-!
DEFINITION. Jpeg.lean: the JPEG streams that a Burl engine accepts, and their decoding to luma (R429 to R432).
-/

namespace Sys2Proof.Machine

/-! ### Outcomes -/

/-- Why a stream is rejected (Table 14-2). -/
inductive JpegReject where
  | coding | corrupt | size
  deriving DecidableEq, Repr, Inhabited

/-- A rejection: its cause, the size from SOF0 where it was parsed, and the bytes parsed. -/
structure JpegError where
  why : JpegReject
  width : Nat := 0
  height : Nat := 0
  parsed : Nat := 0
  deriving DecidableEq, Repr, Inhabited

/-- A luma image, row by row. -/
structure Image where
  width : Nat
  height : Nat
  px : Array Nat
  deriving DecidableEq, Repr, Inhabited

/-- A pixel. -/
def Image.at (m : Image) (u v : Nat) : Nat := m.px.getD (v * m.width + u) 0

/-- Is a frame size within R429? -/
def frameSizeOk (w h : Nat) : Bool :=
  decide (48 ≤ w) && decide (w ≤ 8192) && decide (48 ≤ h) && decide (h ≤ 8192) && decide (w * h ≤ 25165824)

/-! ### Exact cosines -/

/-- Fraction bits of the cosines: rounding with them is exact, because 1, cos(π/16), … cos(7π/16) are independent over
the rationals, and a sum of them that is not an integer lies at least 2^-168 from one. -/
def cosBits : Nat := 256
/-- The square root of a fixed-point number. -/
def cosRoot (x : Int) : Int := isqrt (x.toNat * 2 ^ cosBits) (cosBits + 2)
/-- cos(θ/2) and sin(θ/2) from cos θ, for θ within a quarter turn. -/
def cosHalf (c : Int) : Int := cosRoot ((2 ^ cosBits + c) / 2)
def sinHalf (c : Int) : Int := cosRoot ((2 ^ cosBits - c) / 2)
/-- cos(kπ/16), k = 0 to 8. -/
def cos16 : List Int :=
  let c4 := cosHalf 0
  let c2 := cosHalf c4
  let c6 := sinHalf c4
  [2 ^ cosBits, cosHalf c2, c2, cosHalf c6, c4, sinHalf c6, c6, sinHalf c2, 0]
/-- cos(kπ/32), k = 0 to 16. -/
def cos32 : List Int :=
  (List.range 17).map fun k =>
    if k % 2 = 0 then cos16.getD (k / 2) 0
    else if k < 8 then cosHalf (cos16.getD k 0) else sinHalf (cos16.getD (16 - k) 0)
/-- cos(kπ/(2n)) for any k, from the values of the first quadrant at k = 0 to n. -/
def cosAt (table : List Int) (n k : Nat) : Int :=
  let k := k % (4 * n)
  let k := if k > 2 * n then 4 * n - k else k
  if k > n then -(table.getD (2 * n - k) 0) else table.getD k 0

/-! ### The inverse transform (R431) -/

/-- The row of T.81's basis at sample `x` and frequency `u`: a sign and `m`, standing for `± cos(mπ/16)`. -/
def basis (x u : Nat) : Bool × Nat :=
  if u = 0 then (false, 4)
  else
    let k := (2 * x + 1) * u % 32
    let k := if k > 16 then 32 - k else k
    if k > 8 then (true, 16 - k) else (false, k)
/-- Add `v cos(mπ/16)` to a sum of such terms, `m` from 0 to 16. -/
def addTerm (n : List Int) (m : Nat) (v : Int) : List Int :=
  if m > 8 then n.modify (16 - m) (· - v) else n.modify m (· + v)
/-- One luma sample: exact inverse transform plus 128, rounded to nearest, ties away from zero, clamped. `coef`: the
non-zero coefficients as horizontal and vertical frequency and value. -/
def idctSample (coef : List (Nat × Nat × Int)) (x y : Nat) : Nat :=
  let n := coef.foldl (fun n f =>
    let a := basis x f.1
    let b := basis y f.2.1
    let v := if a.1 == b.1 then f.2.2 else -f.2.2
    addTerm (addTerm n (a.2 + b.2) v) (if a.2 ≥ b.2 then a.2 - b.2 else b.2 - a.2) v) (List.replicate 9 (0 : Int))
  let n := n.modify 0 (· + (1024 + 4))
  let sum := if ((n.drop 1).take 7).all (· == 0) then n.getD 0 0
    else ((n.zip cos16).foldl (fun (a : Int) (t : Int × Int) => a + t.1 * t.2) 0).fdiv (2 ^ cosBits)
  (min (max (sum.fdiv 8) 0) 255).toNat

/-- Zigzag order: the coefficient at each position, as 8 × vertical + horizontal frequency. -/
def zigzag : List Nat :=
  [0, 1, 8, 16, 9, 2, 3, 10, 17, 24, 32, 25, 18, 11, 4, 5, 12, 19, 26, 33, 40, 48, 41, 34, 27, 20, 13, 6, 7, 14, 21, 28]
    ++ [35, 42, 49, 56, 57, 50, 43, 36, 29, 22, 15, 23, 30, 37, 44, 51, 58, 59, 52, 45, 38, 31, 39, 46, 53, 60, 61, 54,
        47, 55, 62, 63]

/-! ### Tables and headers -/

/-- A Huffman table: codes of each length 1 to 16, and the values in code order. -/
structure Huff where
  counts : List Nat
  values : Array Nat
  deriving DecidableEq, Repr, Inhabited

/-- A component of the frame. -/
structure JpegComp where
  id : Nat
  h : Nat
  v : Nat
  tq : Nat
  /-- Huffman tables that the scan names. -/
  td : Nat := 0
  ta : Nat := 0
  deriving DecidableEq, Repr, Inhabited

/-- What the marker segments have said so far. -/
structure JpegHead where
  quant : List (Nat × List Nat) := []
  dc : List (Nat × Huff) := []
  ac : List (Nat × Huff) := []
  restart : Nat := 0
  size : Option (Nat × Nat) := none
  comps : List JpegComp := []
  scanned : Option Image := none
  deriving DecidableEq, Repr, Inhabited

/-- A rejection at byte `p`. -/
def JpegHead.fail (h : JpegHead) {α : Type} (why : JpegReject) (p : Nat) : Except JpegError α :=
  let d := h.size.getD (0, 0)
  .error { why := why, width := d.1, height := d.2, parsed := p }
/-- A condition that the stream must hold. -/
def JpegHead.must (h : JpegHead) (c : Bool) (why : JpegReject) (p : Nat) : Except JpegError Unit :=
  if c then .ok () else h.fail why p

/-- A big-endian 16-bit number. -/
def be16 (b : Nat → Nat) (p : Nat) : Nat := 256 * b p + b (p + 1)

/-- The quantisation tables of a DQT segment, from `p` to `stop`. -/
def JpegHead.dqt (b : Nat → Nat) (stop : Nat) : Nat → Nat → JpegHead → Except JpegError JpegHead
  | 0, _, h => .ok h
  | f + 1, p, h =>
    if p = stop then .ok h
    else do
      h.must (b p / 16 != 1) .coding p
      h.must (b p / 16 == 0 && decide (b p % 16 ≤ 3) && decide (p + 65 ≤ stop)) .corrupt p
      let t := (List.range 64).map fun k => b (p + 1 + k)
      h.must (t.all (· != 0)) .corrupt p
      JpegHead.dqt b stop f (p + 65) { h with quant := (b p % 16, t) :: h.quant }

/-- Do the codes of a table fit their lengths, with no code all ones? `room`: the codes of the length before that are left.
(PRESUMED, log entry 82). -/
def huffFits : List Nat → Nat → Bool
  | [], _ => true
  | n :: ns, room => decide (n < 2 * room) && huffFits ns (2 * room - n)

/-- The Huffman tables of a DHT segment. -/
def JpegHead.dht (b : Nat → Nat) (stop : Nat) : Nat → Nat → JpegHead → Except JpegError JpegHead
  | 0, _, h => .ok h
  | f + 1, p, h =>
    if p = stop then .ok h
    else do
      h.must (decide (b p / 16 ≤ 1) && decide (b p % 16 ≤ 3) && decide (p + 17 ≤ stop)) .corrupt p
      h.must (decide (b p % 16 ≤ 1)) .coding p
      let counts := (List.range 16).map fun k => b (p + 1 + k)
      let n := counts.foldl (· + ·) 0
      h.must (decide (n ≤ 256) && decide (p + 17 + n ≤ stop) && huffFits counts 1) .corrupt p
      let values := (List.range n).map fun k => b (p + 17 + k)
      let t : Huff := { counts := counts, values := values.toArray }
      let dc := b p / 16 == 0
      h.must (values.all fun v => if dc then decide (v ≤ 11) else decide (v % 16 ≤ 10)) .coding p
      JpegHead.dht b stop f (p + 17 + n)
        (if dc then { h with dc := (b p % 16, t) :: h.dc } else { h with ac := (b p % 16, t) :: h.ac })

/-- The frame header at `p`, of `len` bytes. -/
def JpegHead.sof (b : Nat → Nat) (p len : Nat) (h : JpegHead) : Except JpegError JpegHead := do
  h.must (h.size.isNone && decide (len ≥ 8)) .corrupt p
  let n := b (p + 7)
  h.must (len == 8 + 3 * n && n != 0) .corrupt p
  let comps : List JpegComp := (List.range n).map fun k =>
    { id := b (p + 8 + 3 * k), h := b (p + 9 + 3 * k) / 16, v := b (p + 9 + 3 * k) % 16, tq := b (p + 10 + 3 * k) }
  let h := { h with size := some (be16 b (p + 5), be16 b (p + 3)), comps := comps }
  h.must (comps.all (fun c => decide (1 ≤ c.h) && decide (c.h ≤ 4) && decide (1 ≤ c.v) && decide (c.v ≤ 4)
    && decide (c.tq ≤ 3)) && (comps.map (·.id)).eraseDups.length == n) .corrupt p
  h.must (b (p + 2) == 8 && be16 b (p + 3) != 0 && (n == 1 || n == 3)) .coding p
  h.must (n == 1 || match comps.map (fun c => (c.h, c.v)) with
    | y :: cs => [(1, 1), (2, 1), (2, 2)].contains y && cs.all (· == (1, 1))
    | [] => false) .coding p
  h.must (frameSizeOk (be16 b (p + 5)) (be16 b (p + 3))) .size p
  return h

/-! ### Entropy-coded data -/

/-- A place in the entropy-coded data: byte, and bits of it taken. -/
structure BitPos where
  p : Nat
  n : Nat := 0
  deriving DecidableEq, Repr, Inhabited

/-- The next bit; none at a marker or at the end of the data. A zero byte after 0xFF is stuffing. -/
def nextBit (b : Nat → Nat) (size : Nat) (z : BitPos) : Option (Nat × BitPos) :=
  let v := b z.p
  if z.p ≥ size || (v = 0xFF && (z.p + 1 ≥ size || b (z.p + 1) ≠ 0)) then none
  else
    let x := v / 2 ^ (7 - z.n) % 2
    some (x, if z.n < 7 then { z with n := z.n + 1 } else { p := z.p + (if v = 0xFF then 2 else 1), n := 0 })
/-- The next `k` bits as a number. -/
def nextBits (b : Nat → Nat) (size : Nat) : Nat → Nat → BitPos → Option (Nat × BitPos)
  | 0, acc, z => some (acc, z)
  | k + 1, acc, z => match nextBit b size z with
    | none => none
    | some (x, z) => nextBits b size k (2 * acc + x) z
/-- Decode one symbol: `code` of the length reached, the first code of it, the values of shorter codes. -/
def nextSymbol (b : Nat → Nat) (size : Nat) (t : Huff) : List Nat → Nat → Nat → Nat → BitPos → Option (Nat × BitPos)
  | [], _, _, _, _ => none
  | n :: ns, code, first, idx, z => match nextBit b size z with
    | none => none
    | some (x, z) =>
      let code := 2 * code + x
      if code < first + n then some (t.values.getD (idx + code - first) 0, z)
      else nextSymbol b size t ns code (2 * (first + n)) (idx + n) z
/-- The next symbol of a table. -/
def Huff.next (t : Huff) (b : Nat → Nat) (size : Nat) (z : BitPos) : Option (Nat × BitPos) :=
  nextSymbol b size t t.counts 0 0 0 z
/-- A signed value of `s` bits (T.81, EXTEND). -/
def nextValue (b : Nat → Nat) (size s : Nat) (z : BitPos) : Option (Int × BitPos) :=
  (nextBits b size s 0 z).map fun r =>
    ((if s = 0 then 0 else if r.1 < 2 ^ (s - 1) then (r.1 : Int) - (2 ^ s : Nat) + 1 else r.1), r.2)

/-- The AC coefficients of a block from position `k` on, as position and value; none where the stream is corrupt. -/
def acValues (b : Nat → Nat) (size : Nat) (t : Huff) : Nat → Nat → BitPos → Option (List (Nat × Int) × BitPos)
  | 0, _, z => some ([], z)
  | f + 1, k, z =>
    if k > 63 then some ([], z)
    else match t.next b size z with
      | none => none
      | some (rs, z) =>
        let r := rs / 16
        let s := rs % 16
        if s = 0 then
          if r ≠ 15 then some ([], z)
          else if k + 16 > 64 then none
          else acValues b size t f (k + 16) z
        else if k + r > 63 then none
        else match nextValue b size s z with
          | none => none
          | some (v, z) => (acValues b size t f (k + r + 1) z).map fun x => ((k + r, v) :: x.1, x.2)

/-- One block: the new DC prediction, and its quantised coefficients by zigzag position. -/
def nextBlock (b : Nat → Nat) (size : Nat) (dc ac : Huff) (pred : Int) (z : BitPos) :
    Option (Int × List (Nat × Int) × BitPos) :=
  match dc.next b size z with
  | none => none
  | some (s, z) => match nextValue b size s z with
    | none => none
    | some (d, z) => (acValues b size ac 64 1 z).map fun x => (pred + d, (0, pred + d) :: x.1, x.2)

/-- Put the samples of a luma block at (8 bx, 8 by) into the image. -/
def Image.putBlock (m : Image) (quant : List Nat) (bx by_ : Nat) (coef : List (Nat × Int)) : Image :=
  let f : List (Nat × Nat × Int) := (coef.filter (·.2 != 0)).map fun c =>
    let k := zigzag.getD c.1 0
    (k % 8, k / 8, c.2 * (quant.getD c.1 0 : Int))
  { m with px := (List.range 64).foldl (fun px k =>
      let u := 8 * bx + k % 8
      let v := 8 * by_ + k / 8
      if u < m.width && v < m.height then px.setIfInBounds (v * m.width + u) (idctSample f (k % 8) (k / 8)) else px) m.px }

/-- The state of a scan: image, DC predictions by component, place. -/
structure ScanState where
  image : Image
  preds : List Int
  z : BitPos
  deriving DecidableEq, Repr, Inhabited

/-- A scan's fixed part. -/
structure ScanPlan where
  head : JpegHead
  /-- Components with their quantisation, DC and AC tables. -/
  comps : List (JpegComp × List Nat × Huff × Huff)
  mcusX : Nat
  deriving DecidableEq, Repr, Inhabited

/-- The blocks of one MCU: component, and block column and row within the MCU. -/
def ScanPlan.blocks (k : ScanPlan) : List (Nat × Nat × Nat) :=
  if k.comps.length = 1 then [(0, 0, 0)]
  else (k.comps.zipIdx).flatMap fun c =>
    (List.range (c.1.1.h * c.1.1.v)).map fun n => (c.2, n % c.1.1.h, n / c.1.1.h)

/-- Decode MCU number `n`: chroma coefficients are discarded. -/
def ScanPlan.mcu (k : ScanPlan) (b : Nat → Nat) (size n : Nat) (s : ScanState) : Option ScanState :=
  k.blocks.foldlM (fun (s : ScanState) x => match k.comps[x.1]? with
    | none => none
    | some (c, q, dc, ac) => (nextBlock b size dc ac (s.preds.getD x.1 0) s.z).map fun r =>
      let w := if k.comps.length = 1 then 1 else c.h
      let t := if k.comps.length = 1 then 1 else c.v
      { image := if x.1 = 0 then s.image.putBlock q (n % k.mcusX * w + x.2.1) (n / k.mcusX * t + x.2.2) r.2.1 else s.image
        preds := s.preds.set x.1 r.1
        z := r.2.2 }) s

/-- The byte at which entropy-coded data stop: the rest of a byte begun is padding. -/
def BitPos.stop (b : Nat → Nat) (z : BitPos) : Nat :=
  if z.n = 0 then z.p else z.p + (if b z.p = 0xFF then 2 else 1)
/-- The marker at byte `p`, after fill bytes: its code and the byte after it. The first argument bounds the search. -/
def markerAt (b : Nat → Nat) (size : Nat) : Nat → Nat → Option (Nat × Nat)
  | 0, _ => none
  | f + 1, p =>
    if p + 1 ≥ size || b p ≠ 0xFF then none
    else if b (p + 1) = 0xFF then markerAt b size f (p + 1)
    else if b (p + 1) = 0 then none
    else some (b (p + 1), p + 2)

/-- Decode MCUs `n` to `n + left - 1`; a restart marker stands after every `restart` MCUs. -/
def ScanPlan.run (k : ScanPlan) (b : Nat → Nat) (size : Nat) : Nat → Nat → ScanState → Except JpegError ScanState
  | 0, _, s => .ok s
  | left + 1, n, s =>
    let r := k.head.restart
    if r ≠ 0 && n ≠ 0 && n % r = 0 then
      match markerAt b size (size + 1) (s.z.stop b) with
      | some (m, p) =>
        if m ≠ 0xD0 + (n / r - 1) % 8 then k.head.fail .corrupt p
        else
          let s := { s with z := { p := p }, preds := s.preds.map fun _ => 0 }
          match k.mcu b size n s with
          | none => k.head.fail .corrupt p
          | some s => k.run b size left (n + 1) s
      | none => k.head.fail .corrupt s.z.p
    else match k.mcu b size n s with
      | none => k.head.fail .corrupt s.z.p
      | some s => k.run b size left (n + 1) s

/-- The scan whose header is at `p`, of `len` bytes: the image, and the byte after the entropy-coded data. -/
def JpegHead.sos (b : Nat → Nat) (size p len : Nat) (h : JpegHead) : Except JpegError (Image × Nat) := do
  h.must h.scanned.isNone .coding p
  match h.size with
  | none => h.fail .corrupt p
  | some (w, ht) =>
    let n := b (p + 2)
    h.must (decide (len ≥ 6) && len == 6 + 2 * n) .corrupt p
    h.must (n == h.comps.length) .coding p
    let comps := h.comps.zipIdx.map fun c =>
      { c.1 with td := b (p + 4 + 2 * c.2) / 16, ta := b (p + 4 + 2 * c.2) % 16 }
    h.must (h.comps.zipIdx.all fun c => b (p + 3 + 2 * c.2) == c.1.id) .corrupt p
    h.must (comps.all fun c => decide (c.td ≤ 1) && decide (c.ta ≤ 1)) .coding p
    h.must (b (p + len - 3) == 0 && b (p + len - 2) == 63 && b (p + len - 1) == 0) .coding p
    let full := comps.filterMap fun c =>
      match h.quant.lookup c.tq, h.dc.lookup c.td, h.ac.lookup c.ta with
      | some q, some d, some a => some (c, q, d, a)
      | _, _, _ => none
    h.must (full.length == comps.length) .corrupt p
    let y := comps.headD default
    let one := comps.length == 1
    let mx := ceilDiv w (8 * (if one then 1 else y.h))
    let my := ceilDiv ht (8 * (if one then 1 else y.v))
    let plan : ScanPlan := { head := h, comps := full, mcusX := mx }
    let start : ScanState :=
      { image := { width := w, height := ht, px := Array.replicate (w * ht) 0 }
        preds := comps.map fun _ => 0, z := { p := p + len } }
    let s ← plan.run b size (mx * my) 0 start
    return (s.image, s.z.stop b)

/-! ### The stream -/

/-- Markers from byte `p` on: the image and the bytes parsed. The first argument bounds the number of segments
(PRESUMED, log entry 82). -/
def jpegSegments (b : Nat → Nat) (size : Nat) : Nat → Nat → JpegHead → Except JpegError (Image × Nat)
  | 0, p, h => h.fail .corrupt p
  | f + 1, p, h =>
    match (if p ≥ size then h.scanned else none) with
    | some m => .ok (m, size)
    | none =>
      match markerAt b size (size + 1) p with
      | none => h.fail .corrupt p
      | some (m, p) =>
        let len := be16 b p
        let fits := decide (p + 2 ≤ size) && decide (2 ≤ len) && decide (p + len ≤ size)
        let skip := (0xE0 ≤ m && m ≤ 0xEF) || m = 0xFE
        let table := m = 0xC4 || m = 0xDB || m = 0xDD
        if m = 0xD9 then match h.scanned with
          | some im => .ok (im, p)
          | none => h.fail .corrupt p
        else if (0xD0 ≤ m && m ≤ 0xD8) then h.fail .corrupt p
        else if !(skip || table || m = 0xC0 || m = 0xDA) then h.fail .coding p
        else if !fits then h.fail .corrupt p
        else if skip then jpegSegments b size f (p + len) h
        else if m = 0xC4 then match JpegHead.dht b (p + len) (size + 1) (p + 2) h with
          | .error e => .error e
          | .ok h => jpegSegments b size f (p + len) h
        else if m = 0xDB then match JpegHead.dqt b (p + len) (size + 1) (p + 2) h with
          | .error e => .error e
          | .ok h => jpegSegments b size f (p + len) h
        else if m = 0xDD then
          if len ≠ 4 then h.fail .corrupt p
          else jpegSegments b size f (p + len) { h with restart := be16 b (p + 2) }
        else if m = 0xC0 then match JpegHead.sof b p len h with
          | .error e => .error e
          | .ok h => jpegSegments b size f (p + len) h
        else match JpegHead.sos b size p len h with
          | .error e => .error e
          | .ok (im, p) => jpegSegments b size f p { h with scanned := some im }

/-- Decode a stream of `size` bytes
(PRESUMED, log entry 82). -/
def decodeJpeg (b : Nat → Nat) (size : Nat) : Except JpegError (Image × Nat) :=
  if size < 2 || b 0 ≠ 0xFF || b 1 ≠ 0xD8 then ({} : JpegHead).fail .corrupt (min size 2)
  else jpegSegments b size (size + 1) 2 {}

end Sys2Proof.Machine
end

