-- ==== Sys2Proof/Machine/Burl.lean ====
section
/-!
DEFINITION. Burl.lean: the operations of the Burl engines: FRAME_JPEG and FRAME_RAW (chapter 14).
-/

namespace Sys2Proof.Machine

/-! ### The pyramid (R428) -/

/-- The next level of a pyramid. -/
def Image.half (m : Image) : Image :=
  let w := m.width / 2
  let h := m.height / 2
  { width := w, height := h
    px := ((List.range (w * h)).map fun k =>
      let u := 2 * (k % w)
      let v := 2 * (k / w)
      (m.at u v + m.at (u + 1) v + m.at u (v + 1) + m.at (u + 1) (v + 1) + 2) / 4).toArray }
/-- At most `n` levels from a level on: building stops at the first whose width or height is below 48. -/
def pyramid : Nat → Image → List Image
  | 0, _ => []
  | n + 1, m => if m.width < 48 || m.height < 48 then [] else m :: pyramid n m.half
/-- A pixel at a signed displacement from (u, v). -/
def Image.near (m : Image) (u v : Nat) (x y : Int) : Int := m.at ((u : Int) + x).toNat ((v : Int) + y).toNat

/-! ### Candidates and survivors (R435 to R439) -/

/-- The ring of Table 14-3. -/
def ring : List (Int × Int) :=
  [(0, -3), (1, -3), (2, -2), (3, -1), (3, 0), (3, 1), (2, 2), (1, 3), (0, 3), (-1, 3), (-2, 2), (-3, 1), (-3, 0),
   (-3, -1), (-2, -2), (-1, -3)]
/-- Do `arc` consecutive elements, counted cyclically, all hold? -/
def hasArc (arc : Nat) (l : List Bool) : Bool :=
  (List.range 16).any fun i => (List.range arc).all fun k => l.getD ((i + k) % 16) false
/-- The ring test of a pixel: bright, and dark. -/
def Image.ringTest (m : Image) (t arc u v : Nat) : Bool × Bool :=
  let p : Int := m.at u v
  let r := ring.map fun o => m.near u v o.1 o.2
  (hasArc arc (r.map fun x => decide (x > p + t)), hasArc arc (r.map fun x => decide (x < p - t)))
/-- The curvature score R of a pixel (R436). -/
def Image.curvature (m : Image) (u v : Nat) : Int :=
  let s := (List.range 49).foldl (fun (s : Int × Int × Int) k =>
    let x : Int := (k % 7 : Nat) - 3
    let y : Int := (k / 7 : Nat) - 3
    let gx := m.near u v (x + 1) y - m.near u v (x - 1) y
    let gy := m.near u v x (y + 1) - m.near u v x (y - 1)
    (s.1 + gx * gx, s.2.1 + gy * gy, s.2.2 + gx * gy)) ((0 : Int), (0 : Int), (0 : Int))
  s.1 * s.2.1 - s.2.2 * s.2.2 - (3 * (s.1 + s.2.1) * (s.1 + s.2.1)).fdiv 64

/-- A candidate of a level. -/
structure Keypoint where
  level : Nat
  u : Nat
  v : Nat
  r : Nat
  dark : Bool
  deriving DecidableEq, Repr, Inhabited

/-- The candidates of a level, in raster order. -/
def Image.candidates (m : Image) (level t arc minScore : Nat) : List Keypoint :=
  (List.range (m.height - 34)).flatMap fun y => (List.range (m.width - 34)).filterMap fun x =>
    let u := x + 17
    let v := y + 17
    let a := m.ringTest t arc u v
    if !(a.1 || a.2) then none
    else
      let r := m.curvature u v
      if 0 < r && r / 4096 ≥ (minScore : Int) then some { level := level, u := u, v := v, r := r.toNat, dark := a.2 } else none
/-- Does `a` rank before `b`: the larger score, then the lower level, row and column? -/
def Keypoint.before (a b : Keypoint) : Bool :=
  if a.r ≠ b.r then decide (a.r > b.r)
  else if a.level ≠ b.level then decide (a.level < b.level)
  else if a.v ≠ b.v then decide (a.v < b.v)
  else decide (a.u < b.u)
/-- Are two candidates of a level neighbours? -/
def Keypoint.touches (a b : Keypoint) : Bool :=
  decide (a.u ≤ b.u + 1) && decide (b.u ≤ a.u + 1) && decide (a.v ≤ b.v + 1) && decide (b.v ≤ a.v + 1)
/-- The survivors of suppression at a level. -/
def survivors (l : List Keypoint) : List Keypoint := l.filter fun a => !(l.any fun b => a.touches b && b.before a)

/-! ### Orientation and descriptor (R440 to R443) -/

/-- round(16384 cos(kπ/32)) and round(16384 sin(kπ/32)). -/
def cosInt (k : Nat) : Int := (cosAt cos32 16 k * 2 ^ 15 + 2 ^ cosBits).fdiv (2 ^ (cosBits + 1))
def sinInt (k : Nat) : Int := cosInt (k + 48)
/-- The integers from -15 to 15. -/
def span15 : List Int := (List.range 31).map fun (k : Nat) => (k : Int) - 15
/-- The angle step of moments, or none when both are 0. -/
def angleStep (m10 m01 : Int) : Option Nat :=
  if m10 = 0 && m01 = 0 then none
  else
    let cross (k : Nat) : Int := cosInt (2 * k + 1) * m01 - sinInt (2 * k + 1) * m10
    (List.range 32).find? fun k => decide (cross ((k + 31) % 32) ≥ 0) && decide (cross k < 0)
/-- The moments at a pixel. -/
def Image.moments (m : Image) (u v : Nat) : Int × Int :=
  span15.foldl (fun a y => span15.foldl (fun (a : Int × Int) x =>
    if x * x + y * y ≤ 225 then (a.1 + x * m.near u v x y, a.2 + y * m.near u v x y) else a) a) (0, 0)

/-- The generator's next state, and the coordinate it gives. -/
def lcg (s : Nat) : Nat := (s * 1103515245 + 12345) % 2 ^ 31
def lcgDraw (s : Nat) : Int := ((s / 65536 % 31 : Nat) : Int) - 15
/-- The points that the generator accepts in `n` draws of two coordinates. -/
def lcgPoints : Nat → Nat → List (Int × Int)
  | 0, _ => []
  | n + 1, s =>
    let a := lcg s
    let b := lcg a
    let x := lcgDraw a
    let y := lcgDraw b
    if x * x + y * y ≤ 225 then (x, y) :: lcgPoints n b else lcgPoints n b
/-- Points taken in pairs; a pair of equal points is drawn again. -/
def pairUp : List (Int × Int) → List ((Int × Int) × (Int × Int))
  | p :: q :: l => if p = q then pairUp l else (p, q) :: pairUp l
  | _ => []
/-- The sampling pattern (R441): 760 draws give more than its 256 pairs. -/
def pattern256 : List ((Int × Int) × (Int × Int)) := (pairUp (lcgPoints 760 0x2545F491)).take 256
/-- Round a quotient by 16384 to nearest, ties away from zero. -/
def rnd14 (v : Int) : Int := if v ≥ 0 then (v + 8192).fdiv 16384 else -((-v + 8192).fdiv 16384)
/-- A point rotated by step `a` (R442). -/
def rotate (a : Nat) (p : Int × Int) : Int × Int :=
  let c := cosInt (2 * a)
  let s := sinInt (2 * a)
  (rnd14 (p.1 * c - p.2 * s), rnd14 (p.1 * s + p.2 * c))
/-- The smoothed level at a displacement from (u, v) (R443). -/
def Image.smooth (m : Image) (u v : Nat) (p : Int × Int) : Int :=
  let w : List Int := [1, 4, 6, 4, 1]
  ((List.range 25).foldl (fun (a : Int) k =>
    let i : Int := (k % 5 : Nat) - 2
    let j : Int := (k / 5 : Nat) - 2
    a + w.getD (k % 5) 0 * w.getD (k / 5) 0 * m.near u v (p.1 + i) (p.2 + j)) 128).fdiv 256
/-- The descriptor of a keypoint at step `a`. -/
def Image.descriptor (m : Image) (u v a : Nat) : Nat :=
  pattern256.zipIdx.foldl (fun d x =>
    if m.smooth u v (rotate a x.1.1) < m.smooth u v (rotate a x.1.2) then d + 2 ^ x.2 else d) 0

/-! ### The image result (R214, R433, R434, R444) -/

/-- The record of a keypoint (Table 14-4). -/
def Keypoint.record (k : Keypoint) (m : Image) : List Byte :=
  let f := 2 ^ k.level
  let x := 16 * k.u * f + 8 * (f - 1)
  let y := 16 * k.v * f + 8 * (f - 1)
  let mo := m.moments k.u k.v
  let step := angleStep mo.1 mo.2
  let a := step.getD 0
  bytesOfLe 2 x ++ bytesOfLe 2 y ++ bytesOfLe 1 k.level ++ bytesOfLe 1 a
    ++ bytesOfLe 2 (x / 65536 + 2 * (y / 65536) + 4 * b2n step.isNone + 8 * b2n k.dark)
    ++ bytesOfLe 4 (k.r / 4096) ++ bytesOfLe 4 0 ++ bytesOfLe 32 (m.descriptor k.u k.v a)
/-- The bytes of an image result with `n` record places. -/
def imageResult (status width height n : Nat) (records : List (List Byte)) : List Byte :=
  bytesOfLe 1 status ++ [0] ++ bytesOfLe 2 records.length ++ bytesOfLe 2 width ++ bytesOfLe 2 height
    ++ List.replicate 8 0 ++ records.flatten ++ List.replicate (48 * (n - records.length)) 0

/-! ### Command bodies (Table 14-5) -/

/-- `MAX_KP`, with EXTRACT's own where it is 0. -/
def maxKp (i : Invocation) (e : QEntry) : Nat :=
  let n := fld e.desc 40 13 0
  if n = 0 && i.kind == .extract then i.maxKeypoints else n
/-- Is the command a FRAME_JPEG? -/
def isJpeg (e : QEntry) : Bool := opOf e.desc == 1
/-- Displacements of `DIR` and `DST`. -/
def burlDir (e : QEntry) : Nat := if fld e.desc 45 0 0 = 1 then 8 * fld e.desc 46 15 0 * e.iter0 else 0
def burlDst (e : QEntry) : Nat :=
  (if fld e.desc 45 1 1 = 1 then 64 * fld e.desc 46 15 0 * e.iter0 else 0)
    + (if fld e.desc 45 2 2 = 1 then 64 * fld e.desc 52 15 0 * e.lane else 0)
/-- The stream that a directory entry names, or none where the entry is empty or passes the end of `SRC`. -/
def State.jpegPiece (s : State) (i : Invocation) (src dir : Span) : Option Span :=
  let b := listReader (s.spanGet i dir)
  let p := { src with off := src.off + readLe b 0 4, len := readLe b 4 4 }
  if p.len = 0 || !s.inside i p then none else some p

/-- The start checks of a Burl command (R447)
(DEDUCED, log entry 83). -/
def State.burlWork (s : State) (i : Invocation) (e : QEntry) : Except StopReason Work := do
  let d := e.desc
  let w := fld d 56 13 0
  let h := fld d 58 13 0
  let pitch := fld d 60 15 0
  let n := maxKp i e
  let jpeg := isJpeg e
  need (zeroFields d [(40, 15, 14), (42, 7, 4), (44, 7, 4), (45, 7, 3), (54, 15, 0), (56, 15, 14), (58, 15, 14), (62, 15, 0)]
    && (jpeg || fld d 24 63 0 == 0)) .badBody
  need (decide (1 ≤ fld d 42 3 0) && decide (fld d 42 3 0 ≤ 8) && decide (1 ≤ fld d 43 7 0) && decide (fld d 43 7 0 ≤ 254)
    && decide (9 ≤ fld d 44 3 0) && decide (fld d 44 3 0 ≤ 12) && decide (1 ≤ n) && decide (n ≤ 8192)
    && (jpeg || (frameSizeOk w h && decide (w ≤ pitch)))) .badBody
  let dst ← s.piece i (fld d 32 63 0) (burlDst e) (16 + 48 * n)
  let src ← s.piece i (fld d 16 63 0) 0 (if jpeg then 0 else pitch * (h - 1) + w)
  need (src.space.mayTile && dst.space.mayTile && dst.off % 64 == 0) .badBody
  if jpeg then
    let dir ← s.piece i (fld d 24 63 0) (burlDir e) 8
    need dir.space.mayTile .badBody
    s.needInside i [dir, dst]
    need (src.space != .unused) .addressOutside
    return { reads := dir :: (s.jpegPiece i src dir).toList, writes := [dst], cost := 256 }
  else
    s.needInside i [src, dst]
    return { reads := [src], writes := [dst], cost := 256 }

/-! ### The effect -/

/-- Change the record of the Burl engine of a queue. -/
def State.modBurl (s : State) (q : Nat) (f : Burl → Burl) : State := { s with burl := s.burl.modify (q - 72) f }
/-- Words of a frame store. -/
def frameWords : Nat := 4194304

/-- What an engine makes of its input: the image and the stream bytes or half pixels it took, or the rejection with its
size and the bytes parsed; `none` is a directory entry empty or out of range. -/
def State.burlImage (s : State) (i : Invocation) (e : QEntry) (w : Work) : Option (Except JpegError (Image × Nat)) :=
  let d := e.desc
  if isJpeg e then
    match w.reads with
    | [_, p] =>
      let b := (s.spanGet i p).toArray
      some (decodeJpeg (fun k => (b.getD k 0).toNat) p.len)
    | _ => none
  else
    let wd := fld d 56 13 0
    let ht := fld d 58 13 0
    let pitch := fld d 60 15 0
    match w.reads with
    | [p] =>
      let b := (s.spanGet i p).toArray
      some (.ok ({ width := wd, height := ht,
                   px := ((List.range (wd * ht)).map fun k => (b.getD (k / wd * pitch + k % wd) 0).toNat).toArray },
                 ceilDiv (wd * ht) 2))
    | _ => none

/-- The end of an image: the result is written, the rest of the cost is charged, and the invocation's flags are set
(DEDUCED, log entry 83; DESIGN CHOICE, log entry 99). -/
def State.burlEnd (s : State) (q : Nat) (i : Invocation) (w : Work) (status width height n work : Nat)
    (records : List (List Byte)) (capped : Bool) : State × CmdOutcome :=
  let s := (s.charge q i.tenant (work + 24 * records.length + ceilDiv (16 + 48 * n) 64)).modInv i.ref fun x =>
    { x with flags := x.flags ||| (if status ≠ 0 then 0x40 else 0) ||| (if capped then 0x80 else 0) }
  match w.writes with
  | p :: _ => ((s.spanWrite i p (imageResult status width height n records)).1, .done)
  | [] => (s, .done)

/-- What a Burl command reads: the rows of a raw frame, without the gaps between them (R447). -/
def burlReads (e : QEntry) (w : Work) : List Span :=
  if isJpeg e then w.reads
  else w.reads.flatMap fun p => (List.range (fld e.desc 58 13 0)).map fun r =>
    { p with off := p.off + r * fld e.desc 60 15 0, len := fld e.desc 56 13 0 }

/-- The effect of a Burl command. Stopped, cancelled or forced to end, it stops at a safe point and leaves its
destination undefined; a function-level reset lets it run to its end (R449)
(DEDUCED, log entry 83). -/
def State.burlRun (q : Nat) (bad : List WordRead) (s : State) (i : Invocation) (e : QEntry) (w : Work) : State × CmdOutcome :=
  let d := e.desc
  let n := maxKp i e
  if i.phase = .stopping && !i.silent then (s.blur i w.writes, .cancelled)
  else match s.fetch i (burlReads e w) [] [] bad with
  | (s, some f) => (s.blur i w.writes, .failed .memory f)
  | (s, none) =>
    match s.burlImage i e w with
    | none =>
      (s.modBurl q fun b => { b with rejRange := satAdd32 b.rejRange 1 }).burlEnd q i w 0x94 0 0 n 0 [] false
    | some (.error x) =>
      let s := s.modBurl q fun b => match x.why with
        | .coding => { b with rejCoding := satAdd32 b.rejCoding 1 }
        | .corrupt => { b with rejCorrupt := satAdd32 b.rejCorrupt 1 }
        | .size => { b with rejSize := satAdd32 b.rejSize 1 }
      s.burlEnd q i w 0x94 x.width x.height n x.parsed [] false
    | some (.ok (m, took)) =>
      let levels := pyramid (fld d 42 3 0) m
      let pixels := (levels.map fun l => l.width * l.height).foldl (· + ·) 0
      let work := max took (ceilDiv (5 * pixels) 8)
      let base := frameWords * (q - 72)
      let s := (s.clearWords 4 base frameWords).modBurl q fun b => { b with
        frame := Region.ofBytes (levels.flatMap fun l => l.px.toList.map (BitVec.ofNat 8)) }
      let (s, lost) := s.fetch i [] [(4, base, ceilDiv pixels 8)] [] bad
      if lost.isSome then
        (s.modBurl q fun b => { b with fsUncorr := satAdd32 b.fsUncorr 1 }).burlEnd q i w 0x91 m.width m.height n work [] false
      else
        let all := levels.zipIdx.flatMap fun l =>
          survivors (l.1.candidates l.2 (fld d 43 7 0) (fld d 44 3 0) (fld d 48 31 0))
        let kept := (all.mergeSort fun a b => a.before b).take n
        let records := kept.map fun k => k.record (levels.getD k.level m)
        let capped := decide (all.length > n)
        let s := s.modBurl q fun b => { b with
          images := satAdd32 b.images 1
          capped := satAdd32 b.capped (b2n capped)
          keypoints := satAdd32 b.keypoints kept.length }
        s.burlEnd q i w 0 m.width m.height n work records capped

/-- FRAME_JPEG. -/
def execFrameJpeg (row : EngineRow) (s : State) : Out :=
  .next (s.runOp row.queue 4 0x01 State.burlWork (State.burlRun row.queue row.bad))

/-- FRAME_RAW. -/
def execFrameRaw (row : EngineRow) (s : State) : Out :=
  .next (s.runOp row.queue 4 0x02 State.burlWork (State.burlRun row.queue row.bad))

end Sys2Proof.Machine
end

