-- ==== Sys2Proof/Machine/Dma.lean ====
section
/-!
DEFINITION. Dma.lean: the operations of the DMA engines: COPY, FILL, GATHER (R309 to R318).
-/

namespace Sys2Proof.Machine

/-! ### Bodies (Table 09-5) -/

/-- `BYTES` and `COUNT`. -/
def dmaBytes (e : QEntry) : Nat := fld e.desc 32 31 0
def dmaCount (e : QEntry) : Nat := fld e.desc 56 31 0
/-- The displacement of an address: its step, and the lane step where `DFLAGS` selects it. -/
def dmaDelta (e : QEntry) (step flag : Nat) : Nat :=
  fld e.desc step 31 0 * e.iter0 + (if fld e.desc 60 flag flag = 1 then fld e.desc 44 31 0 * e.lane else 0)

/-- Does the memory pass as a source in DRAM, or as a destination in the tile store or DRAM? -/
def Space.mayDram (x : Space) : Bool := x.inDram || x == .unused
def Space.mayWriteDram (x : Space) : Bool := (x.inDram && !x.readOnly) || x == .unused
/-- The pairings of COPY (Table 09-6). -/
def copyPair (src dst : Space) : Bool :=
  (src.mayDram && dst.mayTile) || (src.mayTile && dst.mayWriteDram) || (src.mayDram && dst.mayWriteDram)
    || ((src == .hostIn || src == .unused) && dst.mayTile) || (src.mayTile && (dst == .hostOut || dst == .unused))
    || (src == .hostIn && dst == .unused) || (src == .unused && dst == .hostOut)

/-- The start checks of COPY (R308, R310)
(DEDUCED, log entry 66). -/
def State.copyWork (s : State) (i : Invocation) (e : QEntry) : Except StopReason Work := do
  let d := e.desc
  let n := dmaBytes e
  need (zeroFields d [(48, 63, 0), (56, 31, 0), (60, 7, 2), (61, 23, 0)]) .badBody
  need (n % 4 == 0 && decide (n ≤ 268435456)) .badBody
  let src ← s.piece i (fld d 16 63 0) (dmaDelta e 36 0) n
  let dst ← s.piece i (fld d 24 63 0) (dmaDelta e 40 1) n
  need (copyPair src.space dst.space && src.space.readable && dst.space.writable) .badBody
  s.needInside i [src, dst]
  let us := s.unitsRead i.tenant [src]
  need (s.unitsFit i.tenant us) .badBody
  let host := src.space == .hostIn || dst.space == .hostOut
  return { reads := [src], writes := [dst], units := us, cost := 32 + ceilDiv n (if host then 64 else 512) }

/-- The start checks of FILL
(DEDUCED, log entry 66). -/
def State.fillWork (s : State) (i : Invocation) (e : QEntry) : Except StopReason Work := do
  let d := e.desc
  let n := dmaBytes e
  need (zeroFields d [(52, 31, 0), (56, 31, 0), (60, 7, 2), (61, 23, 0)]) .badBody
  need (n % 4 == 0 && decide (n ≤ 268435456)) .badBody
  let dst ← s.piece i (fld d 24 63 0) (dmaDelta e 40 1) n
  need (dst.space.mayTile || dst.space.mayWriteDram) .badBody
  s.needInside i [dst]
  return { writes := [dst], cost := 32 + ceilDiv n 512 }

/-- The rows of a GATHER: the row list is read from its piece. -/
def State.gatherRows (s : State) (i : Invocation) (e : QEntry) (src aux : Span) : List Span :=
  let b := listReader (s.spanGet i aux)
  (List.range (dmaCount e)).map fun k =>
    { src with off := src.off + dmaBytes e * readLe b (4 * k) 4, len := dmaBytes e }

/-- The start checks of GATHER: every row range is checked first. A list that cannot be read is left to the access
(DEDUCED, log entry 66). -/
def State.gatherWork (s : State) (i : Invocation) (e : QEntry) : Except StopReason Work := do
  let d := e.desc
  let n := dmaBytes e
  let count := dmaCount e
  need (zeroFields d [(60, 7, 2), (61, 23, 0)]) .badBody
  need (n % 4 == 0 && decide (4 ≤ n) && decide (n ≤ 65536) && decide (count ≤ 16384)) .badBody
  let src ← s.piece i (fld d 16 63 0) (dmaDelta e 36 0) 0
  let dst ← s.piece i (fld d 24 63 0) (dmaDelta e 40 1) (n * count)
  let aux ← s.piece i (fld d 48 63 0) 0 (4 * count)
  need (src.space.mayDram && dst.space.mayTile && aux.space.mayTile) .badBody
  s.needInside i [aux, dst]
  let readable := (s.poisonIn i.tenant (s.settle i.tenant aux) false).isEmpty
  let rows := if readable then s.gatherRows i e src aux else []
  s.needInside i rows
  let us := s.unitsRead i.tenant rows
  need (s.unitsFit i.tenant us) .badBody
  return { reads := aux :: rows, writes := [dst], units := us, cost := 32 + ceilDiv (n * count) 512 + count }

/-! ### Effects -/

/-- Does the command reach host memory? -/
def Work.host (w : Work) : Bool := (w.reads ++ w.writes).any fun p => p.space == .hostIn || p.space == .hostOut

/-- Move data: read the pieces, then write what `make` makes of them. A host move of a function whose transfers a
function-level reset has stopped has no effect (R174). A command whose cache unit has been dropped waits for it (Table 17-6)
(DEDUCED, log entry 65). -/
def State.move (s : State) (i : Invocation) (w : Work) (found : List BlockRead) (bad : List WordRead)
    (make : State → List Byte) : State × CmdOutcome :=
  if i.silent && w.host then (s, .cancelled)
  else match s.fetch i w.reads [] found bad with
  | (s, some f) => (s.blur i w.writes, .failed .memory f)
  | (s, none) =>
    match s.badUnit i.tenant w.units with
    | some f => (s.blur i w.writes, .failed .media f)
    | none =>
      if !w.units.all (s.unitReady i.tenant) then (s, .started)
      else match w.writes with
      | p :: _ =>
        let r := (s.useUnits i.tenant w.units).spanWrite i p (make s) found
        (r.1, memOutcome r.2)
      | [] => (s, .done)

/-- COPY: as if through a temporary. -/
def execCopy (queue : Nat) (found : Reads) (s : State) : Out :=
  .next (s.runOp queue 0 0x01 State.copyWork fun s i _ w =>
    s.move i w found.blocks found.words fun s => w.reads.flatMap (s.spanGet i))

/-- FILL: the pattern repeatedly. -/
def execFillPattern (queue : Nat) (s : State) : Out :=
  .next (s.runOp queue 0 0x02 State.fillWork fun s i e w =>
    s.move i w [] [] fun _ => (List.replicate (dmaBytes e / 4) (bytesOfLe 4 (fld e.desc 48 31 0))).flatten)

/-- GATHER. -/
def execGather (queue : Nat) (found : Reads) (s : State) : Out :=
  .next (s.runOp queue 0 0x03 State.gatherWork fun s i _ w =>
    s.move i w found.blocks found.words fun s => (w.reads.drop 1).flatMap (s.spanGet i))

/-! ### Starting (R239) -/

/-- The start checks of a DMA command by its `OP`. -/
def State.dmaWork (s : State) (i : Invocation) (e : QEntry) : Except StopReason Work :=
  match opOf e.desc with
  | 1 => s.copyWork i e
  | 2 => s.fillWork i e
  | 3 => s.gatherWork i e
  | _ => .error .badBody
/-- Does the wait of a queued command hold (condition 1 of R239)? -/
def State.waitMet (s : State) (e : QEntry) : Bool :=
  match e.wait with
  | some (c, v) => decide (s.ctr c ≥ v)
  | none => true

end Sys2Proof.Machine
end

