-- ==== Sys2Proof/Machine/Peer.lean ====
section
/-!
DEFINITION. Peer.lean: the peer fabric: ports and neighbours, frames and routing, flows with their acknowledgements and
retransmissions, and the peer engine command (chapter 18).
-/

namespace Sys2Proof

/-! ### Fields of the peer header (R554) -/

/-- A header field. -/
def PeerFrame.field (f : PeerFrame) (b hi lo : Nat) : Nat := bits f.hdr.toNat (8 * b + hi) (8 * b + lo)
def PeerFrame.type (f : PeerFrame) : Nat := f.field 0 3 0
def PeerFrame.srcModule (f : PeerFrame) : Nat := f.field 2 7 0
def PeerFrame.dstModule (f : PeerFrame) : Nat := f.field 3 7 0
def PeerFrame.dstFlow (f : PeerFrame) : Nat := f.field 8 9 0
def PeerFrame.tenant (f : PeerFrame) : Nat := f.field 8 13 10
def PeerFrame.srcFlow (f : PeerFrame) : Nat := f.field 10 9 0
def PeerFrame.first (f : PeerFrame) : Bool := f.field 10 10 10 == 1
def PeerFrame.epoch (f : PeerFrame) : Nat := f.field 10 15 12
def PeerFrame.length (f : PeerFrame) : Nat := f.field 14 13 0
def PeerFrame.seq (f : PeerFrame) : Nat := f.field 16 31 0
def PeerFrame.bumpValid (f : PeerFrame) : Bool := f.field 8 15 15 == 1
/-- The octets of a frame from the destination address to the FCS, in the order they are sent (R553): the fields of the
IEEE 802.3 header go most significant octet first, everything else least significant first (R8). -/
def PeerFrame.octets (f : PeerFrame) : List Byte :=
  let net (n v : Nat) : List Byte := (bytesOfLe n v).reverse
  let tag : List Byte := match f.tag with
    | some t => net 2 0x8100 ++ net 2 t.toNat
    | none => []
  let body := net 6 f.dst.toNat ++ net 6 f.src.toNat ++ tag ++ net 2 f.etype ++ bytesOfLe 32 f.hdr.toNat ++ f.payload
  let body := body ++ List.replicate (60 - body.length) 0
  body ++ bytesOfLe 4 (Machine.crc32 body)
/-- Bytes of a frame, as an ingress buffer holds it: the length of its octets. -/
def PeerFrame.bytes (f : PeerFrame) : Nat := max 64 (50 + (if f.tag.isSome then 4 else 0) + f.payload.length)

end Sys2Proof

namespace Sys2Proof.Machine

/-! ### Parts of the fabric -/

/-- The module's index in the system (R76). -/
def State.moduleIndex (s : State) : Nat :=
  if s.pers.active.moduleIdSource = 1 then s.power.slotId.toNat else s.pers.active.moduleId
/-- The flow record of flow `f`. -/
def State.flowRec (s : State) (f : Nat) : Option FlowRec := s.pers.active.flows.find? (·.flow == f)
/-- The state of flow `f`. -/
def State.flow (s : State) (f : Nat) : Flow := (s.peer.flows.find? (·.flow == f)).getD { flow := f }
/-- Change the state of flow `f`. -/
def State.modFlow (s : State) (f : Nat) (g : Flow → Flow) : State :=
  s.modPeer fun p => { p with flows := g ((p.flows.find? (·.flow == f)).getD { flow := f }) :: p.flows.filter (·.flow != f) }
/-- A port. -/
def State.port (s : State) (p : Nat) : Port := s.peer.ports.getD p {}
/-- Change a port. -/
def State.modPort (s : State) (p : Nat) (f : Port → Port) : State :=
  s.modPeer fun x => { x with ports := x.ports.modify p f }
/-- Is a port UP? -/
def State.portUp (s : State) (p : Nat) : Bool := (s.port p).state == .up

/-- The fields of a peer fabric log entry (Table 18-12). -/
structure PeerEntry where
  kind : Nat
  port : Nat := 0xFF
  cause : Nat := 0
  tenant : Nat := 0xFF
  flow : Nat := 0xFFFF
  remoteModule : Nat := 0
  remotePort : Nat := 0
  expectedModule : Nat := 0
  expectedPort : Nat := 0
  tag : Nat := 0
  faultNo : Nat := 0
  seqNo : Nat := 0
  count : Nat := 1
  system : Nat := 0
  deriving DecidableEq, Repr, Inhabited

/-- Bytes 0x10 to 0x3F of an entry. -/
def PeerEntry.body (e : PeerEntry) : List Byte :=
  bytesOfLe 1 e.kind ++ bytesOfLe 1 e.port ++ bytesOfLe 1 e.cause ++ bytesOfLe 1 e.tenant ++ bytesOfLe 2 e.flow
    ++ bytesOfLe 1 e.remoteModule ++ bytesOfLe 1 e.remotePort ++ bytesOfLe 1 e.expectedModule
    ++ bytesOfLe 1 e.expectedPort ++ bytesOfLe 2 e.tag ++ bytesOfLe 4 e.faultNo ++ bytesOfLe 4 e.seqNo
    ++ bytesOfLe 4 e.count ++ bytesOfLe 4 e.system ++ List.replicate 20 0
/-- Write an entry of log page 0xC5. `fault`: it is the finding entry of its fault. -/
def State.peerLog (s : State) (e : PeerEntry) (fault : Bool := false) : State := s.log 0xC5 e.body (fault := fault)
/-- Write an entry at most once a second for its place and cause; the next one carries the count (R578)
(DEDUCED, log entry 81). -/
def State.peerLogLimited (s : State) (place : Nat) (e : PeerEntry) : State :=
  let same (x : Nat × Nat × Nat × Nat × Nat) : Bool := x.1 == e.kind && x.2.1 == place && x.2.2.1 == e.cause
  let put (s : State) (t n : Nat) : State :=
    s.modPeer fun p => { p with limiter := (e.kind, place, e.cause, t, n) :: p.limiter.filter fun x => !same x }
  match s.peer.limiter.find? same with
  | some (_, _, _, t, n) =>
    if s.now < t + 1000000 then put s t (n + 1) else (put s s.now 0).peerLog { e with count := n + 1 }
  | none => (put s s.now 0).peerLog e

/-! ### Topology (R551, R552, R558, R560) -/

/-- Sides X and Y of the direct topologies. -/
def State.sides (s : State) : Nat × Nat :=
  if s.peer.mode = 1 then (s.pers.active.systemSize, 1) else (s.peer.xMinus1 + 1, s.peer.yMinus1 + 1)
/-- The neighbour that Table 18-1 expects at a port of a direct topology: module and port. -/
def State.neighbour (s : State) (p : Nat) : Nat × Nat :=
  let i := s.moduleIndex
  let (x, y) := s.sides
  let up := p % 2 = 0
  let other := if up then p + 1 else p - 1
  if s.peer.mode = 1 then ((if up then i + 1 else i + x - 1) % x, other)
  else if p < 2 then (i / x * x + (if up then i % x + 1 else i % x + x - 1) % x, other)
  else ((if up then i / x + 1 else i / x + y - 1) % y * x + i % x, other)
/-- Is the port one of a torus dimension of size 1, which stays DOWN? -/
def State.unusedPort (s : State) (p : Nat) : Bool :=
  s.peer.mode == 2 && (if p < 2 then s.peer.xMinus1 == 0 else s.peer.yMinus1 == 0)
/-- A port's MAC address. -/
def macOf (systemId module port : Nat) : BitVec 48 :=
  BitVec.ofNat 48 (2 ^ 41 + bits systemId 23 0 * 65536 + module % 256 * 256 + port % 256)

/-- The ports by which a frame to a module may leave in a direct topology, in order of choice. `turn`: whose turn it is
among the two ports of a ring's direction. -/
def State.directPorts (s : State) (dst turn : Nat) : List Nat :=
  let (x, y) := s.sides
  let i := s.moduleIndex
  let dx := (dst % x + x - i % x) % x
  let px := if 2 * dx ≤ x then 0 else 1
  if s.peer.mode = 1 then
    if dx = 0 then []
    else
      let two (p : Nat) : List Nat := if turn % 2 = 0 then [p, p + 2] else [p + 2, p]
      two px ++ two (1 - px)
  else
    let dy := (dst / x % y + y - i / x) % y
    let py := if 2 * dy ≤ y then 2 else 3
    (if dx ≠ 0 then [px] else []) ++ (if dy ≠ 0 then [py] else []) ++ (if dx ≠ 0 then [1 - px] else [])
      ++ (if dy ≠ 0 then [5 - py] else [])
/-- The port by which a frame of a flow leaves (R559, R560). -/
def State.flowPort (s : State) (f : Nat) (mask : BitVec 4) (dst : Nat) : Option Nat :=
  let turn := (s.flow f).rotation
  let l := if s.peer.mode = 0 then (List.range 4).map fun k => (turn + k) % 4 else s.directPorts dst turn
  l.find? fun p => mask.getLsbD p && s.portUp p
/-- The rotation of a flow after a frame has left by port `p`. -/
def State.turnFlow (s : State) (f p : Nat) : State :=
  s.modFlow f fun x => { x with rotation := if s.peer.mode = 0 then (p + 1) % 4 else (x.rotation + 1) % 4 }

/-! ### Frames (R552 to R555) -/

/-- A header of fields, each as byte, high bit, low bit and value. -/
def headerOf (l : List (Nat × Nat × Nat × Nat)) : BitVec 256 :=
  BitVec.ofNat 256 (l.foldl (fun h x => h + x.2.2.2 % 2 ^ (x.2.1 + 1 - x.2.2.1) * 2 ^ (8 * x.1 + x.2.2.1)) 0)
/-- The fields that every frame carries. -/
def State.commonFields (s : State) (type dst dstFlow srcFlow tenant epoch : Nat) : List (Nat × Nat × Nat × Nat) :=
  [(0, 3, 0, type), (0, 7, 4, 1), (2, 7, 0, s.moduleIndex), (3, 7, 0, dst), (4, 31, 0, s.pers.active.systemId),
   (8, 9, 0, dstFlow), (8, 13, 10, tenant), (10, 9, 0, srcFlow), (10, 15, 12, epoch)]
/-- A frame as it leaves a port towards a module. -/
def State.frameOut (s : State) (port dst : Nat) (hdr : BitVec 256) (payload : List Byte) : PeerFrame :=
  let sid := s.pers.active.systemId
  let hop := if s.peer.mode = 0 then (dst, port) else s.neighbour port
  { dst := macOf sid hop.1 hop.2
    src := macOf sid s.moduleIndex port
    tag := if s.peer.tagEn || (s.peer.pfcEn && s.peer.mode == 0)
      then some (BitVec.ofNat 16 (s.peer.pcp * 8192 + s.peer.vid)) else none
    etype := s.peer.etype, hdr := hdr, payload := payload }
/-- A frame goes on the wire of a port. -/
def State.transmit (s : State) (port : Nat) (f : PeerFrame) : State :=
  (s.modPort port fun p => { p with txFrames := satAdd32 p.txFrames 1 }).modPeer fun p => { p with wire := p.wire ++ [(port, f)] }

/-- Send an ACK or NAK of a flow to its sender; with no UP port it is not sent. -/
def State.sendControl (s : State) (f : Nat) (r : FlowRec) (type epoch : Nat) (extra : List (Nat × Nat × Nat × Nat)) : State :=
  match s.flowPort f r.portMask r.remoteModule with
  | none => s
  | some p =>
    let hdr := headerOf (s.commonFields type r.remoteModule r.remoteFlow f r.tenant epoch ++ extra)
    (s.transmit p (s.frameOut p r.remoteModule hdr [])).turnFlow f p
/-- Send an ACK of a flow (R564)
(DESIGN CHOICE, log entry 80). -/
def State.sendAck (s : State) (f : Nat) : State :=
  match s.flowRec f with
  | none => s
  | some r =>
    let x := s.flow f
    let sack := x.heldFrames.foldl (fun (m : Nat) h =>
      let k := (h.2.seq + 2 ^ 32 - x.expected - 1) % 2 ^ 32
      if k < 64 then m ||| 2 ^ k else m) 0
    (s.modFlow f fun x => { x with ackOwed := 0 }).sendControl f r 1 x.rxEpoch [(16, 31, 0, x.expected), (20, 63, 0, sack)]
/-- Refuse a frame of a flow and log it
(DESIGN CHOICE, log entry 80). -/
def State.refuse (s : State) (f : Nat) (r : FlowRec) (x : PeerFrame) (cause : Nat) : State :=
  let s := s.sendControl f r 2 x.epoch [(16, 31, 0, x.seq), (20, 7, 0, cause)]
  s.peerLogLimited f { kind := 7, cause := cause, tenant := r.tenant, flow := f, remoteModule := x.srcModule,
                       tag := x.field 12 15 0, seqNo := x.seq }

/-! ### The peer command (R571 to R574) -/

/-- The effective flow of a command. -/
def peerFlow (e : QEntry) : Nat := (fld e.desc 28 9 0 + e.iter0 * fld e.desc 56 9 0) % 1024
/-- `BYTES`, and the frames of a WRITE. -/
def peerBytes (e : QEntry) : Nat := fld e.desc 24 24 0
def State.peerFrames (s : State) (e : QEntry) : Nat :=
  if peerBytes e = 0 then fld e.desc 30 0 0 else ceilDiv (peerBytes e) s.peer.frameMax

/-- The start checks of a peer command (R573). -/
def State.peerWork (s : State) (i : Invocation) (e : QEntry) : Except StopReason Work := do
  let d := e.desc
  let n := peerBytes e
  need (opOf d == 1 && zeroFields d [(24, 31, 25), (28, 15, 10), (30, 7, 1), (31, 7, 0), (40, 15, 13), (56, 15, 10),
    (58, 47, 0)]) .badBody
  need (match s.flowRec (peerFlow e) with
    | some r => r.tenant == e.tenant
    | none => false) .badBody
  need (decide (n ≤ 16777216) && n % 4 == 0 && fld d 44 31 0 % 4 == 0) .badBody
  need (decide (fld d 16 63 60 ≤ 2)) .badBody
  let src ← s.piece i (fld d 16 63 0) (fld d 44 31 0 * e.iter0) n
  s.needInside i [src]
  let us := s.unitsRead i.tenant [src]
  need (s.unitsFit i.tenant us) .badBody
  return { reads := [src], units := us, flow := some (peerFlow e), cost := 32 + ceilDiv (n + 70 * s.peerFrames e) 32 }

/-- A starting peer command takes its flow until it ends (R562). -/
def State.takeFlow (s : State) (q : Nat) (e : QEntry) : State :=
  let d := e.desc
  let h : PeerSend :=
    { queue := q, tenant := e.tenant, tag := e.tag, word := e.word
      src := BitVec.ofNat 64 (fld d 16 63 0), srcExtra := fld d 44 31 0 * e.iter0, bytes := peerBytes e
      handle := BitVec.ofNat 32 (fld d 32 31 0)
      offset := fld d 36 31 0 + fld d 48 31 0 * e.iter0 + fld d 52 31 0 * e.lane
      rbump := if fld d 30 0 0 = 1 then some (fld d 40 12 0, fld d 42 15 0) else none
      frames := s.peerFrames e }
  s.modFlow (peerFlow e) fun f => { f with holder := some h }

/-- PEER_WRITE: the frames of the started command can leave. With nothing to send it ends at once. -/
def execPeerWrite (queue : Nat) (s : State) : Out :=
  .next (s.runOp queue 5 0x01 State.peerWork fun s _ e _ =>
    if s.peerFrames e = 0 then ((s.modFlow (peerFlow e) fun f => { f with holder := none }), .done)
    else
      let mine (x : QEntry) : Bool := x == e
      let mark (x : Queue) : Queue := { x with entries := x.entries.map fun y => if mine y then { y with begun := true } else y }
      (s.modQueue queue mark, .started))

/-- The started entry of the command that holds a flow. -/
def PeerSend.owns (h : PeerSend) (f : Nat) (e : QEntry) : Bool :=
  e.origin == .word && e.outcome == .started && e.begun && classOf e.desc == 5 && e.tenant == h.tenant && e.tag == h.tag
    && peerFlow e == f
/-- Give the entry of a flow's holder an outcome. -/
def State.peerOutcome (s : State) (f : Nat) (h : PeerSend) (o : CmdOutcome) : State :=
  s.modQueue h.queue fun q => { q with entries := q.entries.map fun e => if h.owns f e then { e with outcome := o } else e }
/-- A peer command ends: its flow is free, and abandons what `CUM_SEQ` does not cover (R566). -/
def State.endFlow (s : State) (f : Nat) : State :=
  s.modFlow f fun x =>
    if x.inFlight.isEmpty then { x with holder := none }
    else { x with holder := none, inFlight := [], txEpoch := (x.txEpoch + 1) % 16, nextSeq := 0 }
/-- End the command that holds a flow, and stop its invocation by `stop`. -/
def State.failFlow (s : State) (f : Nat) (h : PeerSend) (stop : State → Invocation → State) : State :=
  let s := (s.endFlow f).modQueue h.queue fun q => { q with entries := q.entries.filter fun e => !h.owns f e }
  match s.invocation? h.tenant h.tag with
  | none => s
  | some i => stop s i
/-- Stop an invocation whose flow is unreachable
(DEDUCED, log entry 81). -/
def State.unreachable (s : State) (i : Invocation) (faultNo queue word : Nat) : State :=
  if i.phase = .stopping then s
  else
    let s := s.health { event := 1, status := 0x8C, tenant := i.tenant, faultNo := faultNo, tag := i.tag, queue := queue,
                        word := word, detail := bytesOfLe 1 i.slot }
    s.stopInv i 0x8C faultNo

/-- What reading the payload of a frame comes to. -/
inductive PayloadRead where
  | bytes (l : List Byte)
  | lost (why : StopReason) (faultNo : Nat)
  /-- A unit of a read-only buffer has left its pool and is being brought up again (Table 17-6). -/
  | absent
  deriving DecidableEq, Repr, Inhabited
/-- The payload of `len` bytes from `off` on, read from the command's source: `found` and `bad` say what does not read clean
(DEDUCED, log entry 65; DESIGN CHOICE, log entry 63). -/
def State.payload (s : State) (h : PeerSend) (off len : Nat) (found : List BlockRead) (bad : List WordRead) :
    State × PayloadRead :=
  match s.invocation? h.tenant h.tag with
  | none => (s, .bytes [])
  | some i => match s.piece i h.src.toNat (h.srcExtra + off) len with
    | .error _ => (s, .bytes [])
    | .ok p => match s.fetch i [p] [] found bad with
      | (s, some f) => (s, .lost .memory f)
      | (s, none) =>
        let us := s.unitsRead i.tenant [p]
        match s.badUnit i.tenant us with
        | some f => (s, .lost .media f)
        | none =>
          if !us.all (s.unitReady i.tenant) then (s, .absent)
          else if i.raced then
            let (bs, s) := s.drawBytes len
            (s, .bytes bs)
          else ((s.useUnits i.tenant us), .bytes (s.spanGet i p))
/-- The command that a flow's holder is, and those that had ended before it, are known to the module it sends to (R240). -/
def State.tellPeer (s : State) (h : PeerSend) : State :=
  match s.invocation? h.tenant h.tag, (s.queue h.queue).entries.find? fun e => e.tenant == h.tenant && e.tag == h.tag
      && e.word == h.word && e.outcome == .started with
  | some i, some e => match i.trace.find? (·.ord == e.ord) with
    | some x => s.tell h.tenant ((h.tag, x.ord) :: x.knows)
    | none => s
  | _, _ => s
/-- The header of a data frame. After a function-level reset an unsent last frame carries no bump (R574). -/
def State.dataHeader (s : State) (f : Nat) (r : FlowRec) (h : PeerSend) (seq off len : Nat) (first last : Bool) : BitVec 256 :=
  let silent := match s.invocation? h.tenant h.tag with
    | some i => i.silent
    | none => true
  let bump := if last && !silent then h.rbump else none
  let b := bump.getD (0, 0)
  headerOf (s.commonFields 0 r.remoteModule r.remoteFlow f h.tenant (s.flow f).txEpoch ++
    [(8, 14, 14, b2n last), (8, 15, 15, b2n bump.isSome), (10, 10, 10, b2n first), (12, 15, 0, h.tag), (14, 13, 0, len),
     (16, 31, 0, seq), (20, 12, 0, b.1), (22, 15, 0, b.2), (24, 31, 0, h.handle.toNat), (28, 31, 0, h.offset + off / 64)])

/-- Is a command cancelled, so that it sends nothing further (R189, R574)? -/
def State.cancelled (s : State) (h : PeerSend) : Bool :=
  match s.invocation? h.tenant h.tag with
  | some i => i.phase == .stopping && (i.endSc == 0x90 || i.endSc == 0x95) && !i.silent
  | none => true
/-- Does a port that is paused for the frames' priority hold a frame back (R556)? -/
def State.pausedPort (s : State) (p : Option Nat) : Bool :=
  s.peer.pfcEn && s.peer.mode == 0 && match p with
    | some p => (s.port p).paused
    | none => false

/-- PEER_FRAME_SEND: the next frame of the command that holds a flow leaves its port and its timer starts; with no UP port
it waits for its timer (R559, R560, R563, R572)
(DESIGN CHOICE, log entry 80). -/
def execPeerFrameSend (row : FlowRow) (s : State) : Out :=
  let flow := row.flow
  if !s.engines then .next s else
  match s.flowRec flow, (s.flow flow).holder with
  | some r, some h =>
    let x := s.flow flow
    let port := s.flowPort flow r.portMask r.remoteModule
    if h.sent ≥ h.frames || x.inFlight.length ≥ 64 || s.cancelled h || s.pausedPort port
        || !(s.queue h.queue).entries.any (h.owns flow) then .next s
    else
      let off := h.sent * s.peer.frameMax
      let len := min s.peer.frameMax (h.bytes - off)
      match s.payload h off len row.found.blocks row.found.words with
      | (s, .lost r f) => .next ((s.endFlow flow).peerOutcome flow h (.failed r f))
      | (s, .absent) => .next s
      | (s, .bytes bs) =>
        let first := h.sent == 0
        let last := h.sent + 1 == h.frames
        let hdr := s.dataHeader flow r h x.nextSeq off len first last
        let s := s.modFlow flow fun x => { x with
          nextSeq := (x.nextSeq + 1) % 2 ^ 32
          inFlight := x.inFlight ++
            [{ seq := x.nextSeq, first := first, last := last, off := off, length := len, sentAt := s.now }]
          holder := some { h with sent := h.sent + 1 } }
        let s := if last then s.tellPeer h else s
        match port with
        | none => .next s
        | some p => .next ((s.transmit p (s.frameOut p r.remoteModule hdr bs)).turnFlow flow p)
  | _, _ => .next s

/-- RETRANSMIT_TIMEOUT: the timer of a frame that no ACK covers has expired: it is sent again, or its flow is unreachable
(R565). `found` and `bad`: what the read of its payload meets. -/
def execRetransmitTimeout (row : FlowRow) (seq : Nat) (s : State) : Out :=
  let flow := row.flow
  if !s.engines then .next s else
  match s.flowRec flow, (s.flow flow).holder, (s.flow flow).inFlight.find? (fun x => x.seq == seq && !x.sacked) with
  | some r, some h, some x =>
    if s.cancelled h || decide (s.now < x.sentAt + s.peer.rtoUs) then .next s
    else if x.sends ≥ s.peer.retryLimit + 1 then
      let (n, s) := s.newFault
      let s := s.peerLog { kind := 5, tenant := h.tenant, flow := flow, remoteModule := r.remoteModule, tag := h.tag,
                           faultNo := n, seqNo := seq } (fault := true)
      .next (s.failFlow flow h fun s i => s.unreachable i n h.queue h.word)
    else
      let port := s.flowPort flow r.portMask r.remoteModule
      if s.pausedPort port then .next s
      else
        let again (s : State) : State := s.modFlow flow fun y => { y with
          inFlight := y.inFlight.map fun z => if z.seq = seq then { z with sends := z.sends + 1, sentAt := s.now } else z }
        match port with
        | none => .next (again s)
        | some p => match s.payload h x.off x.length row.found.blocks row.found.words with
          | (s, .lost r f) => .next ((s.endFlow flow).peerOutcome flow h (.failed r f))
          | (s, .absent) => .next s
          | (s, .bytes bs) =>
            let hdr := s.dataHeader flow r h seq x.off x.length x.first x.last
            let s := ((again s).transmit p (s.frameOut p r.remoteModule hdr bs)).turnFlow flow p
            let s := s.modPort p fun y => { y with retx := satAdd32 y.retx 1 }
            let s := s.modFlow flow fun y => { y with retx := satAdd32 y.retx 1 }
            .next (s.modPeer fun y => { y with retxTimes := (p, s.now) :: y.retxTimes })
  | _, _, _ => .next s

/-! ### Receiving (R568 to R570, Table 18-5) -/

/-- Put a frame to relay on its way: by the first UP port, or dropped (R560, R561)
(DESIGN CHOICE, log entry 80). -/
def State.relayNow (s : State) (port : Nat) (f : PeerFrame) : State :=
  match (s.directPorts f.dstModule s.peer.ringTurn).find? s.portUp with
  | none => s.modPort port fun p => { p with transitDrops := satAdd32 p.transitDrops 1 }
  | some q =>
    let n := s.neighbour q
    let sid := s.pers.active.systemId
    (s.transmit q { f with dst := macOf sid n.1 n.2, src := macOf sid s.moduleIndex q }).modPeer fun p => { p with
      ringTurn := (p.ringTurn + 1) % 2 }
/-- Relay a frame that arrives at a port. Whether its output port is free is left open: a frame that must wait goes to the
ingress buffer, or is dropped where that is full. -/
def State.relay (s : State) (port : Nat) (f : PeerFrame) : State :=
  let s := s.modPort port fun p => { p with transit := satAdd32 p.transit 1 }
  let drop (s : State) : State := s.modPort port fun p => { p with transitDrops := satAdd32 p.transitDrops 1 }
  let hops := f.field 1 7 0 + 1
  if hops ≥ 255 then drop s
  else
    let f := { f with hdr := BitVec.ofNat 256 (setBits f.hdr.toNat 15 8 hops) }
    let (free, s) := s.drawBool
    if free && (s.port port).ingress.isEmpty then s.relayNow port f
    else if ((s.port port).ingress.map (·.bytes)).foldl (· + ·) 0 + f.bytes > 262144 then drop s
    else s.modPort port fun p => { p with ingress := p.ingress ++ [f] }
/-- The frames that wait in the ingress buffers leave. -/
def State.drainIngress (s : State) : State :=
  (List.range 4).foldl (fun (s : State) p =>
    let l := (s.port p).ingress
    if l.isEmpty then s
    else l.foldl (fun (s : State) f => s.relayNow p f) (s.modPort p fun x => { x with ingress := [] })) s

/-- Steps 1 to 4 of Table 18-5: the frame, when it is for this module. -/
def State.admitFrame (s : State) (port : Nat) (f : PeerFrame) : State × Option PeerFrame :=
  let s := s.modPort port fun p => { p with rxFrames := satAdd32 p.rxFrames 1 }
  let discard (s : State) : State := s.modPort port fun p => { p with rxDiscards := satAdd32 p.rxDiscards 1 }
  if !f.fcsOk || f.etype ≠ s.peer.etype || f.field 0 7 4 ≠ 1 || f.type > 3 || f.payload.length < f.length then (discard s, none)
  else if f.field 4 31 0 ≠ s.pers.active.systemId then
    let s := s.modPeer fun p => { p with rxForeign := satAdd32 p.rxForeign 1 }
    (s.peerLogLimited port { kind := 8, port := port, remoteModule := f.srcModule, system := f.field 4 31 0 }, none)
  else if s.peer.mode = 0 && bits f.src.toNat 7 0 ≠ port then (discard s, none)
  else if f.dstModule ≠ s.moduleIndex then (if s.peer.mode = 0 then s else s.relay port f, none)
  else (s, some f)

/-- The frame is consumed: the expected sequence number advances
(DEDUCED, log entry 81). -/
def State.consume (s : State) (f : Nat) : State :=
  s.modFlow f fun x => { x with expected := (x.expected + 1) % 2 ^ 32, ackOwed := x.ackOwed + 1 }
/-- The buffer range of a frame, or the cause of its refusal (step 10). -/
def State.frameTarget (s : State) (t : Nat) (x : PeerFrame) : Except Nat Span :=
  let h := x.field 24 31 0
  match if bits h 31 28 = t then s.handle? t h else none with
  | none => .error 3
  | some b =>
    let p : Span := { space := .buf b.index b.placement, off := 64 * x.field 28 31 0, len := x.length }
    if b.placement = .readonly then .error 3 else if p.off + p.len > b.size then .error 4 else .ok p

/-- Steps 8 to 12 for the expected frame: the state, and whether it was consumed. -/
def State.applyFrame (s : State) (f : Nat) (r : FlowRec) (x : PeerFrame) : State × Bool :=
  let t := r.tenant
  if (s.flow f).poisoned && !x.first then (s.consume f, true)
  else
    let s := if x.first then s.modFlow f fun y => { y with poisoned := false } else s
    let reject (s : State) (cause : Nat) : State :=
      ((s.refuse f r x cause).consume f).modFlow f fun y => { y with poisoned := true }
    if !(s.tenant t).runOpen then (s.refuse f r x 2, false)
    else match (if x.length = 0 then .ok none else (s.frameTarget t x).map some : Except Nat (Option Span)) with
    | .error c => (reject s c, true)
    | .ok p =>
      if x.bumpValid && !s.ownsCtr t (x.field 20 12 0) then (reject s 5, true)
      else
        let s := match p with
          | none => s
          | some p => (s.spanWrite { (default : Invocation) with tenant := t } p (x.payload.take x.length)).1
        let s := if x.bumpValid then s.bumpAfter t (s.tenant t).outside (some (x.field 20 12 0, x.field 22 15 0)) else s
        (s.consume f, true)

/-- Apply held frames while the expected one is among them; the answer says whether any was. -/
def State.drainHeld (s : State) (f : Nat) (r : FlowRec) : Nat → State × Bool
  | 0 => (s, false)
  | n + 1 =>
    match (s.flow f).heldFrames.find? fun h => h.2.seq == (s.flow f).expected with
    | none => (s, false)
    | some h => match s.applyFrame f r h.2 with
      | (s, false) => (s, false)
      | (s, true) =>
        let s := s.modFlow f fun x => { x with heldFrames := x.heldFrames.filter (· != h) }
        ((s.drainHeld f r n).1, true)
/-- Reorder slots in use. -/
def State.reorderUsed (s : State) : Nat := (s.peer.flows.map fun x => x.heldFrames.length).foldl (· + ·) 0
/-- Serial comparison modulo 2^32: is `a` below `b` (R563)? -/
def seqBelow (a b : Nat) : Bool := decide (0 < (b + 2 ^ 32 - a) % 2 ^ 32) && decide ((b + 2 ^ 32 - a) % 2 ^ 32 < 2 ^ 31)

/-- Step 6: the flow takes the frame's epoch, or the frame is ignored (R566). -/
def State.adopt (s : State) (f : Nat) (x : PeerFrame) : Option State :=
  let y := s.flow f
  if x.epoch = y.rxEpoch then some (s.modFlow f fun y => { y with rxAny := true })
  else if x.seq = 0 && (x.epoch = (y.rxEpoch + 1) % 16 || !y.rxAny) then
    some (s.modFlow f fun y => { y with rxEpoch := x.epoch, expected := 0, heldFrames := [], rxAny := true })
  else none

/-- DATA_FRAME_RECEIVED (Table 18-5). -/
def execDataFrameReceived (port : Nat) (frame : PeerFrame) (s : State) : Out :=
  if !s.engines then .next s else
  if !s.portUp port || (frame.type ≥ 1 && frame.type ≤ 3) then .next s
  else match s.admitFrame port frame with
  | (s, none) => .next s
  | (s, some x) =>
    let f := x.dstFlow
    match s.flowRec f with
    | none =>
      -- an unbound flow has no record: the refusal goes back by the port of arrival
      let hdr := headerOf (s.commonFields 2 x.srcModule x.srcFlow f x.tenant x.epoch ++ [(16, 31, 0, x.seq), (20, 7, 0, 1)])
      let s := s.transmit port (s.frameOut port x.srcModule hdr [])
      .next (s.peerLogLimited f { kind := 7, cause := 1, tenant := x.tenant, flow := f, remoteModule := x.srcModule,
                                  tag := x.field 12 15 0, seqNo := x.seq })
    | some r =>
      if r.tenant ≠ x.tenant || r.remoteModule ≠ x.srcModule || r.remoteFlow ≠ x.srcFlow then
        .next (s.refuse f { r with tenant := x.tenant, remoteModule := x.srcModule, remoteFlow := x.srcFlow } x 1)
      else match s.adopt f x with
      | none => .next s
      | some s =>
        let y := s.flow f
        if seqBelow x.seq y.expected || y.heldFrames.any (fun h => h.2.seq == x.seq) then
          .next (((s.drainHeld f r 64).1).sendAck f)
        else if x.seq ≠ y.expected then
          if y.heldFrames.length < 63 && s.reorderUsed < 512 then
            .next ((s.modFlow f fun y => { y with heldFrames := y.heldFrames ++ [(port, x)] }).sendAck f)
          else .next ((s.modPeer fun p => { p with reorderDrops := satAdd32 p.reorderDrops 1 }).sendAck f)
        else match s.applyFrame f r x with
        | (s, false) => .next s
        | (s, true) =>
          let (s, filled) := s.drainHeld f r 64
          .next (if filled || decide ((s.flow f).ackOwed ≥ 8) then s.sendAck f else s)

/-- ACK_TIMER: a frame applied is not yet acknowledged (R564). -/
def execAckTimer (flow : Nat) (s : State) : Out :=
  if !s.engines then .next s else
  if (s.flow flow).ackOwed > 0 then .next (s.sendAck flow) else .next s

/-- The flow that an ACK or NAK names, when it names one of its sender's flows and the epoch is the flow's own
(DEDUCED, log entry 97). -/
def State.controlFlow (s : State) (x : PeerFrame) : Option FlowRec :=
  match s.flowRec x.dstFlow with
  | some r => if r.remoteModule = x.srcModule && r.remoteFlow = x.srcFlow && r.tenant = x.tenant
      && x.epoch = (s.flow x.dstFlow).txEpoch then some r else none
  | none => none

/-- ACK_RECEIVED: the frames it covers are free, and a command all of whose frames are covered ends (R564, R574). -/
def execAckReceived (port : Nat) (frame : PeerFrame) (s : State) : Out :=
  if !s.engines then .next s else
  if !s.portUp port || frame.type ≠ 1 then .next s
  else match s.admitFrame port frame with
  | (s, none) => .next s
  | (s, some x) => match s.controlFlow x with
    | none => .next s
    | some r =>
      let f := r.flow
      let cum := x.field 16 31 0
      let sack := x.field 20 63 0
      let s := s.modFlow f fun y => { y with
        inFlight := (y.inFlight.filter fun z => !seqBelow z.seq cum).map fun z =>
          let k := (z.seq + 2 ^ 32 - cum - 1) % 2 ^ 32
          if k < 64 && sack.testBit k then { z with sacked := true } else z }
      match (s.flow f).holder with
      | none => .next s
      | some h =>
        if h.sent = h.frames && (s.flow f).inFlight.isEmpty then .next ((s.peerOutcome f h .done).endFlow f) else .next s

/-- NAK_RECEIVED: a fatal refusal ends the command and stops its invocation (Table 18-5)
(DEDUCED, log entry 97). -/
def execNakReceived (port : Nat) (frame : PeerFrame) (s : State) : Out :=
  if !s.engines then .next s else
  if !s.portUp port || frame.type ≠ 2 then .next s
  else match s.admitFrame port frame with
  | (s, none) => .next s
  | (s, some x) => match s.controlFlow x with
    | none => .next s
    | some r => match (s.flow r.flow).holder with
      | none => .next s
      | some h =>
        let cause := x.field 20 7 0
        let seq := x.field 16 31 0
        if !(s.flow r.flow).inFlight.any (·.seq == seq) || cause = 2 || cause = 0 || cause > 5 then .next s
        else
          let reject (s : State) (n : Nat) (fault : Bool) : State :=
            s.peerLog { kind := 6, port := port, cause := cause, tenant := h.tenant, flow := r.flow,
                        remoteModule := r.remoteModule, tag := h.tag, faultNo := n, seqNo := seq } (fault := fault)
          .next (s.failFlow r.flow h fun s i =>
            if cause = 1 then
              let (n, s) := s.newFault
              (reject s n true).unreachable i n h.queue h.word
            else if i.phase = .stopping then reject s 0 false
            else
              let s := s.faultInv i (if cause = 5 then .counterRange else .addressOutside) 0 h.queue h.word
              reject s s.logs.faultNo false)

/-! ### Ports (R550, R556 to R558) -/

/-- PFC_PAUSE_RECEIVED: honoured in switched mode when enabled
(DESIGN CHOICE, log entry 80). -/
def execPfcPauseReceived (port : Nat) (pause : Bool) (s : State) : Out :=
  if !s.engines then .next s else
  if s.peer.pfcEn && s.peer.mode = 0 && decide (port < 4) then .next (s.modPort port fun p => { p with paused := pause })
  else .next s

/-- HELLO_TIMER: a port in DISCOVERY, HELD or UP sends HELLO, every 1 ms (R552, R557). -/
def execHelloTimer (port : Nat) (s : State) : Out :=
  if !s.engines then .next s else
  let st := (s.port port).state
  let early := match (s.port port).helloAt with
    | some t => decide (s.now < t + 1000)
    | none => false
  if port ≥ 4 || !(st == .discovery || st == .held || st == .up) || early then .next s
  else
    let s := s.modPort port fun p => { p with helloAt := some s.now }
    let own := [(12, 1, 0, port), (12, 3, 2, s.peer.mode), (13, 3, 0, s.peer.xMinus1), (13, 7, 4, s.peer.yMinus1)]
    let hdr (dst : Nat) : BitVec 256 := headerOf (s.commonFields 3 dst 0 0 0 0 ++ own)
    if s.peer.mode = 0 then
      let n := s.pers.active.systemSize
      let i := s.moduleIndex
      let ends := ([(i + 1) % n, (i + n - 1) % n]).eraseDups
      .next (ends.foldl (fun (s : State) m => s.transmit port (s.frameOut port m (hdr m) [])) s)
    else
      let m := (s.neighbour port).1
      .next (s.transmit port { s.frameOut port m (hdr m) [] with dst := BitVec.allOnes 48 })

/-- The first cause that keeps a HELLO from confirming its port (R558), or none
(DEDUCED, log entry 81). -/
def State.helloCause (s : State) (port : Nat) (f : PeerFrame) : Option Nat :=
  let (x, y) := s.sides
  let srcPort := f.field 12 1 0
  if f.field 4 31 0 ≠ s.pers.active.systemId then some 2
  else if f.field 12 3 2 ≠ s.peer.mode
      || (s.peer.mode = 2 && (f.field 13 3 0 ≠ s.peer.xMinus1 || f.field 13 7 4 ≠ s.peer.yMinus1
        || x * y ≠ s.pers.active.systemSize)) then some 3
  else if srcPort ≠ (if s.peer.mode = 0 then port else (s.neighbour port).2)
      || (s.peer.mode ≠ 0 && f.srcModule ≠ (s.neighbour port).1) then some 1
  else none

/-- HELLO_RECEIVED: the port is confirmed or held (R557, R558). -/
def execHelloReceived (port : Nat) (frame : PeerFrame) (s : State) : Out :=
  if !s.engines then .next s else
  let st := (s.port port).state
  if port ≥ 4 || !(st == .discovery || st == .held || st == .up) || frame.type ≠ 3 then .next s
  else
    let s := s.modPort port fun p => { p with rxFrames := satAdd32 p.rxFrames 1 }
    if !frame.fcsOk || frame.etype ≠ s.peer.etype || frame.field 0 7 4 ≠ 1 then
      .next (s.modPort port fun p => { p with rxDiscards := satAdd32 p.rxDiscards 1 })
    else
      let srcPort := frame.field 12 1 0
      let s := s.modPort port fun p => { p with nbrModule := frame.srcModule, nbrPort := srcPort, nbrValid := true }
      match s.helloCause port frame with
      | none =>
        let s := s.modPort port fun p => { p with state := .up, heldCause := 0 }
        if st = .up then .next s
        else .next (s.peerLog { kind := 1, port := port, remoteModule := frame.srcModule, remotePort := srcPort })
      | some c =>
        let s := s.modPort port fun p => { p with state := .held, heldCause := c }
        if st = .held then .next s
        else
          let n := if s.peer.mode = 0 then (frame.srcModule, port) else s.neighbour port
          .next (s.peerLog { kind := 3, port := port, cause := c, remoteModule := frame.srcModule, remotePort := srcPort,
                             expectedModule := n.1, expectedPort := n.2, system := frame.field 4 31 0 })

/-- A port goes DOWN
(DEDUCED, log entry 81). -/
def State.portDown (s : State) (port : Nat) : State :=
  s.modPort port fun p => { p with
    state := .down, heldCause := 0, paused := false, ingress := [], linkDowns := satAdd32 p.linkDowns 1
    helloAt := none, downAt := some s.now }

/-- PORT_TRAINING_DONE: with a link the port discovers its neighbour, else it is DOWN again (Table 18-4) and the failure is
recorded (Table 02-14)
(DEDUCED, log entry 81). -/
def execPortTrainingDone (port : Nat) (linked : Bool) (s : State) : Out :=
  if !s.engines then .next s else
  if (s.port port).state ≠ .training then .next s
  else if linked then .next (s.modPort port fun p => { p with state := .discovery })
  else .next ((s.portDown port).peerLog { kind := 2, port := port })

/-- PORT_RETRAIN_TIMER: a DOWN port with power and a usable cable trains again, every 1 s (Table 18-4, R551). -/
def execPortRetrainTimer (port : Nat) (s : State) : Out :=
  if !s.engines then .next s else
  let early := match (s.port port).downAt with
    | some t => decide (s.now < t + 1000000)
    | none => false
  if port ≥ 4 || early || (s.port port).state ≠ .down || s.unusedPort port || !(s.peer.cageOn.getD (port / 2) false)
      || !(s.peer.cable.getD (port / 2) false) || !s.power.railsUp then .next s
  else .next (s.modPort port fun p => { p with state := .training })

/-- A port that had a link loses it. -/
def State.linkLost (s : State) (port : Nat) : State :=
  let st := (s.port port).state
  if st == .discovery || st == .held || st == .up then (s.portDown port).peerLog { kind := 2, port := port } else s
/-- PORT_LINK_LOST. -/
def execPortLinkLost (port : Nat) (s : State) : Out := if !s.engines then .next s else .next (s.linkLost port)

/-- PEER_RTO_WRITE (R13, R186, R567): a field out of range keeps its value; a budget that reaches the floor is refused. -/
def execPeerRtoWrite (value : Dword) (s : State) : Out := s.whenOpen <|
  let rto := bits value.toNat 13 0
  let retry := bits value.toNat 21 16
  let rto := if 10 ≤ rto && rto ≤ 10000 then rto else s.peer.rtoUs
  let retry := if 1 ≤ retry then retry else s.peer.retryLimit
  if rto * (retry + 1) ≥ 1000 * s.pcie.floorMs then .next (s.budgetRefused 0x05000C value.toNat)
  else .next (s.modPeer fun p => { p with rtoUs := rto, retryLimit := retry })

end Sys2Proof.Machine
end

