-- ==== Sys2Proof/Machine/Lathe.lean ====
section
/-!
DEFINITION. Lathe.lean: the operations of the Lathe units: MMA, ACC_ZERO, ACC_LOAD (chapter 11).
-/

namespace Sys2Proof.Machine

/-- The accumulator kind of an operand pair, or none where the formats form no pair (Table 11-1). -/
def mmaKind (a b : Nat) : Option AccKind :=
  if (a = 3 || a = 4) && (b = 3 || b = 4) then some .fp32
  else if (a = 1 && b = 1) || (a = 2 && b = 2) then some .fp32
  else if (a = 5 || a = 6) && (b = 5 || b = 6) then some .int32
  else if a = 7 && b = 7 then some .int32
  else none
/-- Body clocks of `k` steps of a pair (R362). -/
def mmaClocks (a k : Nat) : Nat := if a = 1 || a = 2 then 2 * k else if a = 7 then ceilDiv k 2 else k
/-- Row pitch of a panel (R351). -/
def panelPitch (fmt : Nat) : Nat := 128 * fmtBits fmt / 8

/-- The accumulator tile of a command (R356). -/
def accTile (e : QEntry) : Nat :=
  (fld e.desc 37 2 0 + (if fld e.desc 37 5 5 = 1 then e.iter0 else 0) + (if fld e.desc 37 6 6 = 1 then e.lane else 0)) % 8
/-- The displacement of an operand: its steps, and the lane step where `LFLAGS` selects it. -/
def latheDelta (e : QEntry) (step step1 flag : Nat) : Nat :=
  fld e.desc step 31 0 * e.iter0 + fld e.desc step1 31 0 * e.iter1
    + (if fld e.desc 60 flag flag = 1 then fld e.desc 56 31 0 * e.lane else 0)
/-- Displacements of A and B. -/
def deltaA (e : QEntry) : Nat := latheDelta e 40 48 0
def deltaB (e : QEntry) : Nat := latheDelta e 44 52 1

/-- The reserved fields that every Lathe operation shares. -/
def latheReserved : List (Nat × Nat × Nat) :=
  [(32, 31, 17), (37, 7, 7), (38, 7, 7), (39, 7, 7), (60, 7, 2), (61, 23, 0)]

/-- Check 4 of R367 for an operand. -/
def needOperand (p : Span) : Except StopReason Unit := need (p.space.mayTile && p.off % 64 == 0) .badBody

/-- The start checks of MMA (R367). -/
def State.mmaWork (q : Nat) (s : State) (i : Invocation) (e : QEntry) : Except StopReason Work := do
  let d := e.desc
  let k := fld d 32 16 0
  let fa := fld d 36 3 0
  let fb := fld d 36 7 4
  let t := accTile e
  need (zeroFields d latheReserved) .badBody
  need (mmaKind fa fb).isSome .badBody
  need (k ≤ 65536) .badBody
  let a ← s.piece i (fld d 16 63 0) (deltaA e) (k * panelPitch fa)
  let b ← s.piece i (fld d 24 63 0) (deltaB e) (k * panelPitch fb)
  needOperand a
  needOperand b
  if k = 0 then return { cost := 16 }
  s.needInside i [a, b]
  let clear := fld d 37 3 3 = 1
  let x := (s.pair q).acc.getD t {}
  need (clear || (x.holder == some e.holder && some x.kind == mmaKind fa fb)) .badBody
  return { reads := [a, b], accR := if clear then [] else [t], accW := [t]
           claimAcc := if clear then some (t, (mmaKind fa fb).getD .fp32) else none
           cost := 16 + mmaClocks fa k }

/-- One element of a product (R359, R360): from `c`, steps `0 … k - 1` in order. -/
def mmaElement (kind : AccKind) (fa fb : Nat) (a b : Nat → Nat) : Nat → Nat → Nat
  | 0, c => c
  | k + 1, c =>
    let c := mmaElement kind fa fb a b k c
    match kind with
    | .fp32 => add32 c (rnd32 ((fmtValue fa (a k)).mul (fmtValue fb (b k))))
    | .int32 => wrapTo 32 ((c : Int) + intValue fa (a k) * intValue fb (b k))

/-- Element (row, column) of a tile. -/
def Region.el (r : Region) (i j : Nat) : Nat := r.le (4 * (128 * i + j)) 4

/-- Write rows of 32-bit elements of a tile from column 0 on. -/
def Region.putRows (r : Region) (rows : List (Nat × List Nat)) : Region :=
  rows.foldl (fun r x => r.put (512 * x.1) (x.2.flatMap (bytesOfLe 4))) r

/-- The effect of MMA. -/
def State.mmaRun (q : Nat) (bad : List WordRead) (s : State) (i : Invocation) (e : QEntry) (w : Work) : State × CmdOutcome :=
  let d := e.desc
  let k := fld d 32 16 0
  let fa := fld d 36 3 0
  let fb := fld d 36 7 4
  let m := fld d 38 6 0
  let n := fld d 39 6 0
  let t := accTile e
  match w.reads with
  | [a, b] =>
    let rows (p : Span) (f last : Nat) : List Span :=
      (List.range k).map fun x => { p with off := p.off + x * panelPitch f, len := elemBytes f (last + 1) }
    let clear := fld d 37 3 3 = 1
    let words := (List.range (m + 1)).map fun r => accWords q t (64 * r) (ceilDiv (n + 1) 2)
    let (s, f) := s.fetch i (rows a fa m ++ rows b fb n) (if clear then [] else words) [] bad
    match f with
    | some f =>
      let (r, s) := s.drawRegion
      (s.modPair q fun p => { p with acc := p.acc.modify t fun x => { x with data := r } }, .failed .memory f)
    | none =>
      let ab := listReader (s.spanGet i a)
      let bb := listReader (s.spanGet i b)
      let el (f : Nat) (bs : Nat → Byte) (j x : Nat) : Nat := elemAt f (fun o => bs (x * panelPitch f + o)) j
      let kind := (mmaKind fa fb).getD .fp32
      let old := ((s.pair q).acc.getD t {}).data
      let rows := (List.range (m + 1)).map fun r => (r, (List.range (n + 1)).map fun c =>
        mmaElement kind fa fb (el fa ab r) (el fb bb c) k (if clear then 0 else old.el r c))
      let s := words.foldl (fun (s : State) x => s.clearWords 1 x.2.1 ((n + 1) / 2)) s
      (s.modPair q fun p => { p with acc := p.acc.modify t fun x => { x with data := x.data.putRows rows } }, .done)
  | _ => (s, .done)

/-- MMA (Table 11-4). -/
def execMma (row : EngineRow) (s : State) : Out :=
  .next (s.runOp row.queue 1 0x01 (State.mmaWork row.queue) (State.mmaRun row.queue row.bad))

/-- The reserved fields of ACC_ZERO and ACC_LOAD: `K` and `FMT_B` are reserved too. -/
def claimReserved : List (Nat × Nat × Nat) := (32, 31, 0) :: (36, 7, 4) :: latheReserved
/-- The kind that a claim names: FP32 or INT32. -/
def claimKind (e : QEntry) : Option AccKind :=
  match fld e.desc 36 3 0 with
  | 0 => some .fp32
  | 8 => some .int32
  | _ => none

/-- The start checks of ACC_ZERO. -/
def State.accZeroWork (_ : State) (_ : Invocation) (e : QEntry) : Except StopReason Work := do
  need (zeroFields e.desc claimReserved) .badBody
  need (claimKind e).isSome .badBody
  return { accW := [accTile e], claimAcc := some (accTile e, (claimKind e).getD .fp32), cost := 24 }

/-- Give a claimed tile its whole content. -/
def State.putTile (s : State) (q t : Nat) (r : Region) : State :=
  (s.clearWords 1 (tileWords64 * (8 * pairOf q + t)) tileWords64).modPair q fun p =>
    { p with acc := p.acc.modify t fun x => { x with data := r } }

/-- ACC_ZERO. -/
def execAccZero (queue : Nat) (s : State) : Out :=
  .next (s.runOp queue 1 0x02 State.accZeroWork fun s _ e _ => (s.putTile queue (accTile e) {}, .done))

/-- The start checks of ACC_LOAD. -/
def State.accLoadWork (s : State) (i : Invocation) (e : QEntry) : Except StopReason Work := do
  need (zeroFields e.desc claimReserved) .badBody
  need (claimKind e).isSome .badBody
  let a ← s.piece i (fld e.desc 16 63 0) (deltaA e) 65536
  needOperand a
  s.needInside i [a]
  return { reads := [a], accW := [accTile e], claimAcc := some (accTile e, (claimKind e).getD .fp32), cost := 144 }

/-- ACC_LOAD. -/
def execAccLoad (row : EngineRow) (s : State) : Out :=
  .next (s.runOp row.queue 1 0x03 State.accLoadWork fun s i e w =>
    let (s, f) := s.fetch i w.reads [] [] row.bad
    match f with
    | some f => (s, .failed .memory f)
    | none => (s.putTile row.queue (accTile e) (Region.ofBytes (w.reads.flatMap (s.spanGet i))), .done))

end Sys2Proof.Machine
end

