-- ==== Sys2Proof/Machine/Gouge.lean ====
section
/-!
DEFINITION. Gouge.lean: the element-wise operations of the Gouge slices: TILE, TILE_REDUCE, SOFTMAX, STREAM,
STREAM_REDUCE, MASK_SET, RELEASE (chapter 12).
-/

namespace Sys2Proof.Machine

/-! ### The element-wise body (Table 12-3) -/

/-- Kinds of a source or destination. -/
def srcKind (d : BitVec 512) : Nat := fld d 16 1 0
def srcFmt (d : BitVec 512) : Nat := fld d 16 7 4
def dstKind (d : BitVec 512) : Nat := fld d 18 1 0
def cvtOf (d : BitVec 512) : Nat := fld d 18 3 2
def dstFmt (d : BitVec 512) : Nat := fld d 18 7 4
def transposed (d : BitVec 512) : Bool := fld d 19 4 4 == 1
def rLast (d : BitVec 512) : Nat := fld d 36 6 0
def cLast (d : BitVec 512) : Nat := fld d 37 6 0
def countOf (d : BitVec 512) : Nat := fld d 36 14 0

/-- The source tile after ITER0 and LANE. -/
def srcTile (e : QEntry) : Nat :=
  (fld e.desc 17 3 0 + (if fld e.desc 17 5 5 = 1 then e.iter0 else 0) + (if fld e.desc 17 6 6 = 1 then e.lane else 0))
    % (if srcKind e.desc = 0 then 8 else 16)
/-- The destination tile after ITER0 and LANE. -/
def dstTile (e : QEntry) : Nat :=
  (fld e.desc 19 3 0 + (if fld e.desc 19 5 5 = 1 then e.iter0 else 0) + (if fld e.desc 19 6 6 = 1 then e.lane else 0)) % 16
/-- Displacements of the source and destination addresses. -/
def srcDelta (e : QEntry) : Nat := fld e.desc 42 15 0 * e.iter0 * 64
def dstDelta (e : QEntry) : Nat := fld e.desc 44 15 0 * e.iter0 * 64 + fld e.desc 46 15 0 * e.lane * 64
/-- The row pitch of a source or destination in bytes. -/
def pitchOf (field fmt : Nat) : Nat := if field = 0 then 16 * fmtBits fmt else 64 * field
def srcPitch (d : BitVec 512) : Nat := pitchOf (fld d 38 15 0) (srcFmt d)
def dstPitch (d : BitVec 512) : Nat := pitchOf (fld d 40 15 0) (dstFmt d)
/-- Formats that Gouge accepts and produces (Table 10-6). -/
def gougeFmt (f : Nat) : Bool := decide (f ≤ 8)

/-! ### Chain steps (Tables 12-4 to 12-6) -/

/-- Fields of a chain step. -/
def sopOf (v : Nat) : Nat := bits v 5 0
def opndOf (v : Nat) : Nat := bits v 7 6
def maskOf (v : Nat) : Nat := bits v 11 8
def idxOf (v : Nat) : Nat := bits v 15 12
def selOf (v : Nat) : Nat := bits v 22 16
/-- A step that takes no operand: SAVE, ABS, NEG and 0x0B to 0x13. -/
def noOperand (sop : Nat) : Bool := sop == 5 || sop == 8 || sop == 9 || decide (0x0B ≤ sop)
/-- Clocks per row of a step. -/
def stepClocks (v : Nat) : Nat := if sopOf v = 0 then 0 else if sopOf v < 0x0B then 1 else 4
/-- A mask value is allowed in the mode. -/
def maskOk (stream : Bool) (m : Nat) : Bool := decide (m ≤ (if stream then 8 else 11))
/-- A step's encoding is allowed. -/
def stepOk (stream : Bool) (v : Nat) : Bool :=
  let sop := sopOf v
  if sop = 0 then v == 0
  else decide (sop ≤ 0x13) && maskOk stream (maskOf v) &&
    (if noOperand sop then opndOf v == 0 && bits v 31 12 == 0
     else match opndOf v with
      | 0 => idxOf v == 0
      | 1 => bits v 31 16 == 0
      | 2 => bits v 31 23 == 0
      | _ => bits v 31 23 == 0 && !stream)
/-- After END every step is zero. -/
def endOk : List Nat → Bool
  | [] => true
  | v :: r => if v = 0 then r.all (· == 0) else endOk r
/-- The steps of a command: `n` of them. -/
def stepsOf (d : BitVec 512) (n : Nat) : List Nat := (List.range n).map fun k => fld d (48 + 4 * k) 31 0
/-- The steps that run. -/
def chainOf (d : BitVec 512) (n : Nat) : List Nat := (stepsOf d n).takeWhile (· != 0)
/-- The mask register that a mask value names. -/
def maskReg (m : Nat) : List Nat := if 1 ≤ m && m ≤ 8 then [m - 1] else []
/-- The Gouge tiles and mask registers that a chain reads. -/
def chainTiles (c : List Nat) : List Nat :=
  (c.filter fun v => !noOperand (sopOf v) && opndOf v != 0).map idxOf
def chainMasks (c : List Nat) : List Nat := c.flatMap fun v => maskReg (maskOf v)

/-- Is lane `j` of row `i` active under a mask (Table 12-6)? -/
def Pair.active (p : Pair) (m i j : Nat) : Bool :=
  match m with
  | 0 => true
  | 9 => decide (j ≤ i)
  | 10 => j / 64 == i / 64
  | 11 => j / 64 == i / 64 && decide (j ≤ i)
  | _ => ((p.masks.getD (m - 1) {}).mask).getLsbD j

/-- The operand of a step at an element. -/
def Pair.operand (p : Pair) (v i j : Nat) : Nat :=
  let t := (p.tiles.getD (idxOf v) {}).data
  match opndOf v with
  | 0 => widen 1 (bits v 31 16)
  | 1 => widen 0 (t.el i j)
  | 2 => widen 0 (t.el (selOf v) j)
  | _ => widen 0 (t.el i (selOf v))

/-- One step on a value and a saved value (Table 12-5). `c`: the free value of an approximate step. -/
def stepOn (sop v s x : Nat) (c : Nat) : Nat × Nat :=
  match sop with
  | 0x01 => (add32 v x, s)
  | 0x02 => (add32 v (neg32 x), s)
  | 0x03 => (mul32 v x, s)
  | 0x04 => (fma32 v x s, s)
  | 0x05 => (v, v)
  | 0x06 => (max32 v x, s)
  | 0x07 => (min32 v x, s)
  | 0x08 => (if v = fp32.nanCode then v else v % 2 ^ 31, s)
  | 0x09 => (neg32 v, s)
  | 0x0A => (x, s)
  | _ => (stepResult sop v c, s)

/-- Run the chain on one element: `g` and the place of the element name the free values. -/
def Pair.chain (p : Pair) (g : Nat) (c : List Nat) (i j v : Nat) : Nat :=
  (c.zipIdx.foldl (fun (r : Nat × Nat) x =>
    if p.active (maskOf x.1) i j then
      stepOn (sopOf x.1) r.1 r.2 (p.operand x.1 i j) (Config.approx g (8 * (128 * i + j) + x.2)).toNat
    else r) (v, 0)).1

/-! ### Sources and destinations -/

/-- The reserved fields of Table 12-3 in tile mode and in stream mode, but for bytes 48 to 63. -/
def tileReserved : List (Nat × Nat × Nat) := [(16, 3, 2), (17, 7, 7), (19, 7, 7), (36, 7, 7), (37, 7, 7)]
def streamReserved : List (Nat × Nat × Nat) :=
  [(16, 3, 2), (17, 7, 7), (19, 7, 7), (19, 4, 4), (36, 15, 15), (38, 15, 0), (40, 15, 0)]

/-- Checks 1 and 2 of R396 on the source and destination. `none_`: the destination may be absent. -/
def kindsOk (d : BitVec 512) (stream none_ : Bool) : Bool :=
  let sk := srcKind d
  let dk := dstKind d
  decide (sk ≤ 2) && decide (dk ≤ 2)
    && (if sk = 2 then gougeFmt (srcFmt d) else srcFmt d == 0)
    && (if sk = 0 then decide (fld d 17 3 0 < 8) && !stream else true)
    && (if dk = 2 then gougeFmt (dstFmt d) else if dk = 1 then dstFmt d == 0 else none_)

/-- The source piece, if the source is in the tile store, judged by check 3. -/
def State.srcPiece (s : State) (i : Invocation) (e : QEntry) (align len : Nat) : Except StopReason (List Span) := do
  if srcKind e.desc ≠ 2 then return []
  let p ← s.piece i (fld e.desc 20 63 0) (srcDelta e) len
  need (p.space.mayTile && p.off % align == 0) .badBody
  return [p]
/-- The destination piece, if the destination is in the tile store, judged by check 3. -/
def State.dstPiece (s : State) (i : Invocation) (e : QEntry) (align len : Nat) : Except StopReason (List Span) := do
  if dstKind e.desc ≠ 2 then return []
  let p ← s.piece i (fld e.desc 28 63 0) (dstDelta e) len
  need (p.space.mayTile && p.off % align == 0) .badBody
  return [p]

/-- Check 5 of R396: the source, operands and masks are the invocation's. -/
def Pair.holds (p : Pair) (e : QEntry) (tiles masks : List Nat) : Bool :=
  let h := some e.holder
  (match srcKind e.desc with
    | 0 => (p.acc.getD (srcTile e) {}).holder == h
    | 1 => (p.tiles.getD (srcTile e) {}).holder == h
    | _ => true)
  && tiles.all (fun t => (p.tiles.getD t {}).holder == h) && masks.all fun m => (p.masks.getD m {}).holder == h

/-- Bytes of a tile-mode piece of `rows` rows of `cols` elements. -/
def rowsBytes (pitch fmt rows cols : Nat) : Nat := (rows - 1) * pitch + elemBytes fmt cols

/-- What a command that passes its checks reads and writes among tiles and masks. -/
def gougeWork (e : QEntry) (reads writes : List Span) (tiles masks : List Nat) (cost : Nat) : Work :=
  let k := srcKind e.desc
  let dst := if dstKind e.desc = 1 then [dstTile e] else []
  { reads := reads, writes := writes
    accR := if k = 0 then [srcTile e] else []
    tileR := (if k = 1 then [srcTile e] else []) ++ tiles
    tileW := dst, claimTile := dst.head?, maskR := masks, cost := cost }

/-- Row `r` of the source as FP32 lane values, `n` of them: a row of a tile, a row of a piece in tile mode, or a group of a
stream. -/
def State.sourceRow (s : State) (q : Nat) (i : Invocation) (e : QEntry) (w : Work) (stream : Bool) (r n : Nat) : Nat → Nat :=
  let d := e.desc
  match srcKind d with
  | 0 =>
    let t := (s.pair q).acc.getD (srcTile e) {}
    fun c => widen (if t.kind = .int32 then 8 else 0) (t.data.el r c)
  | 1 =>
    let t := (s.pair q).tiles.getD (srcTile e) {}
    fun c => widen 0 (t.data.el r c)
  | _ =>
    let f := srcFmt d
    match w.reads with
    | p :: _ =>
      let b := listReader (s.spanGet i { p with
        off := p.off + (if stream then elemBytes f (128 * r) else r * srcPitch d), len := elemBytes f n })
      fun c => widen f (elemAt f b c)
    | [] => fun _ => 0

/-- The words of a Gouge slice that an element-wise command reads besides its masks: `cols r` lanes of row `r`. -/
def tileReads (q : Nat) (e : QEntry) (c : List Nat) (rows : Nat) (cols : Nat → Nat) : List (Nat × Nat × Nat) :=
  let all (t : Nat) : List (Nat × Nat × Nat) :=
    (List.range rows).map fun r => gougeTileWords q t (64 * r) (ceilDiv (cols r) 2)
  (if srcKind e.desc = 1 then all (srcTile e) else []) ++
    c.flatMap fun v =>
      if noOperand (sopOf v) then []
      else match opndOf v with
        | 0 => []
        | 1 => all (idxOf v)
        | 2 => [gougeTileWords q (idxOf v) (64 * selOf v) (ceilDiv (cols 0) 2)]
        | _ => (List.range rows).map fun r => gougeTileWords q (idxOf v) (64 * r + selOf v / 2) 1
/-- What the reads of a command meet: tile store, accumulator tile, Gouge tiles, masks (R397). -/
def State.gougeFetch (s : State) (q : Nat) (i : Invocation) (e : QEntry) (w : Work) (c : List Nat) (rows : Nat)
    (cols : Nat → Nat) (pieces : List Span) (bad : List WordRead) : State × Option Nat :=
  let acc := w.accR.flatMap fun t => (List.range rows).map fun k => accWords q t (64 * k) (ceilDiv (cols k) 2)
  s.fetch i pieces (acc ++ tileReads q e c rows cols ++ w.maskR.map (maskWords q)) [] bad

/-- Write rows of FP32 values to a Gouge tile. -/
def State.putGouge (s : State) (q t : Nat) (rows : List (Nat × List Nat)) : State :=
  let base := gougeWords * pairOf q + tileWords64 * t
  let s := rows.foldl (fun (s : State) r => s.clearWords 2 (base + 64 * r.1) (r.2.length / 2)) s
  s.modPair q fun p => { p with tiles := p.tiles.modify t fun x => { x with data := x.data.putRows rows } }

/-- Write elements of a format from element `k` of a piece on; half a byte keeps the other half. -/
def State.putElems (s : State) (i : Invocation) (p : Span) (fmt k : Nat) (codes : List Nat) : State :=
  let at_ (o : Nat) : Byte := (s.spanGet i { p with off := p.off + o, len := 1 }).headD 0
  let odd := fmt = 7 && k % 2 = 1
  let codes := if odd then (at_ (k / 2)).toNat % 16 :: codes else codes
  let k := if odd then k - 1 else k
  let first := elemBytes fmt k
  let n := elemBytes fmt codes.length
  let old := if fmt = 7 && codes.length % 2 = 1 then at_ (first + n - 1) else 0
  (s.spanWrite i { p with off := p.off + first, len := n } (packElems fmt old codes)).1

/-- Store row `r` of the results, as codes of the destination's format (R376, R379, R381). -/
def State.storeRow (s : State) (q : Nat) (i : Invocation) (e : QEntry) (w : Work) (stream : Bool) (r : Nat)
    (codes : List Nat) : State :=
  let d := e.desc
  match dstKind d, w.writes with
  | 1, _ => s.putGouge q (dstTile e) [(r, codes)]
  | 2, p :: _ =>
    let f := dstFmt d
    if stream then s.putElems i p f (128 * r) codes
    else if transposed d then
      codes.zipIdx.foldl (fun (s : State) x => s.putElems i { p with off := p.off + x.2 * dstPitch d } f r [x.1]) s
    else s.putElems i { p with off := p.off + r * dstPitch d } f 0 codes
  | _, _ => s
/-- The runs of elements that a destination in the tile store receives: `rows` rows of `cols r` lanes. -/
def dstLines (e : QEntry) (w : Work) (stream : Bool) (rows : Nat) (cols : Nat → Nat) : List Span :=
  let d := e.desc
  let f := dstFmt d
  match dstKind d, w.writes with
  | 2, p :: _ =>
    if stream then [p]
    else if transposed d then (List.range (cols 0)).map fun j =>
      { p with off := p.off + j * dstPitch d, len := elemBytes f rows }
    else (List.range rows).map fun r => { p with off := p.off + r * dstPitch d, len := elemBytes f (cols r) }
  | _, _ => []
/-- The words of the tile store that some runs cover, each written whole, lose their poison. -/
def State.clearLines (s : State) (t : Nat) (l : List Span) : State :=
  let gone := (l.flatMap fun p => s.poisonIn t (s.settle t p) true).map (·.1)
  if gone.isEmpty then s else s.modSram 0 fun u => { u with poison := u.poison.filter fun w => !gone.contains w.1 }

/-- Process rows in increasing order, each stored before the next is read (R379, R381): `f` gives the FP32 lanes of a row
(DEDUCED, log entry 68). -/
def State.runRows (s : State) (q : Nat) (i : Invocation) (e : QEntry) (w : Work) (stream : Bool) (rows : Nat)
    (cols : Nat → Nat) (f : State → Nat → List Nat) : State :=
  let conv (v : Nat) : Nat := if dstKind e.desc = 2 then convert (dstFmt e.desc) (cvtOf e.desc) v else v
  let s := (List.range rows).foldl (fun (s : State) r => s.storeRow q i e w stream r ((f s r).map conv)) s
  s.clearLines i.tenant (dstLines e w stream rows cols)
/-- The destination elements of a command become undefined (R397). -/
def State.freeRows (s : State) (q : Nat) (i : Invocation) (e : QEntry) (w : Work) (stream : Bool) (rows : Nat)
    (cols : Nat → Nat) : State :=
  let g := s.free
  let s : State := { s with free := s.free + 1 }
  (List.range rows).foldl (fun (s : State) r => s.storeRow q i e w stream r
    ((List.range (cols r)).map fun j => (Config.approx g (128 * r + j)).toNat)) s

/-! ### TILE and STREAM -/

/-- Row `r` of a chain's results
(DEDUCED, log entry 68). -/
def Pair.chainRow (p : Pair) (g : Nat) (c : List Nat) (src : Nat → Nat) (r n : Nat) : List Nat :=
  (List.range n).map fun j => p.chain g c r j (src j)

/-- The start checks of TILE. -/
def State.tileWork (q : Nat) (s : State) (i : Invocation) (e : QEntry) : Except StopReason Work := do
  let d := e.desc
  let c := chainOf d 4
  need (zeroFields d tileReserved && kindsOk d false false && endOk (stepsOf d 4) && (stepsOf d 4).all (stepOk false)) .badBody
  let rows := rLast d + 1
  let cols := cLast d + 1
  let a ← s.srcPiece i e 64 (rowsBytes (srcPitch d) (srcFmt d) rows cols)
  let b ← s.dstPiece i e 64 (if transposed d then rowsBytes (dstPitch d) (dstFmt d) cols rows
    else rowsBytes (dstPitch d) (dstFmt d) rows cols)
  s.needInside i (a ++ b)
  need ((s.pair q).holds e (chainTiles c) (chainMasks c)) .badBody
  return gougeWork e a b (chainTiles c) (chainMasks c) (16 + rows * max 1 ((c.map stepClocks).foldl (· + ·) 0))

/-- The pieces of a tile-mode source: one for each row. -/
def rowPieces (d : BitVec 512) (l : List Span) : List Span :=
  l.flatMap fun p => (List.range (rLast d + 1)).map fun r =>
    { p with off := p.off + r * srcPitch d, len := elemBytes (srcFmt d) (cLast d + 1) }

/-- The effect of TILE
(DEDUCED, log entry 68). -/
def State.tileRun (q : Nat) (bad : List WordRead) (s : State) (i : Invocation) (e : QEntry) (w : Work) :
    State × CmdOutcome :=
  let d := e.desc
  let c := chainOf d 4
  let rows := rLast d + 1
  let cols := cLast d + 1
  match s.gougeFetch q i e w c rows (fun _ => cols) (rowPieces d w.reads) bad with
  | (s, some f) => (s.freeRows q i e w false rows fun _ => cols, .failed .memory f)
  | (s, none) =>
    let g := s.free
    (({ s with free := s.free + 1 } : State).runRows q i e w false rows (fun _ => cols) fun s r =>
      (s.pair q).chainRow g c (s.sourceRow q i e w false r cols) r cols, .done)

/-- TILE (Table 12-2). -/
def execTile (row : EngineRow) (s : State) : Out := .next (s.runOp row.queue 2 0x01 (State.tileWork row.queue) (State.tileRun row.queue row.bad))

/-- The groups of a stream and the elements of the last one. -/
def streamRows (d : BitVec 512) : Nat := ceilDiv (countOf d) 128

/-- The start checks of STREAM (R381, R382, R396). -/
def State.streamWork (q : Nat) (s : State) (i : Invocation) (e : QEntry) : Except StopReason Work := do
  let d := e.desc
  let c := chainOf d 4
  let n := countOf d
  need (zeroFields d streamReserved && kindsOk d true false && endOk (stepsOf d 4) && (stepsOf d 4).all (stepOk true)
    && decide (n ≤ 16384)) .badBody
  let a ← s.srcPiece i e 4 (elemBytes (srcFmt d) n)
  let b ← s.dstPiece i e 4 (elemBytes (dstFmt d) n)
  if n = 0 then return { cost := 16, claimTile := if dstKind d = 1 then some (dstTile e) else none }
  s.needInside i (a ++ b)
  need ((s.pair q).holds e (chainTiles c) (chainMasks c)) .badBody
  return gougeWork e a b (chainTiles c) (chainMasks c) (16 + streamRows d * max 1 ((c.map stepClocks).foldl (· + ·) 0))

/-- Lanes of group `r` of a stream: those beyond `COUNT` take no part (R381). -/
def streamCols (d : BitVec 512) (r : Nat) : Nat := min 128 (countOf d - 128 * r)

/-- The effect of STREAM. -/
def State.streamRun (q : Nat) (bad : List WordRead) (s : State) (i : Invocation) (e : QEntry) (w : Work) :
    State × CmdOutcome :=
  let d := e.desc
  let c := chainOf d 4
  let rows := streamRows d
  if countOf d = 0 then (s, .done)
  else match s.gougeFetch q i e w c rows (streamCols d) w.reads bad with
  | (s, some f) => (s.freeRows q i e w true rows (streamCols d), .failed .memory f)
  | (s, none) =>
    let g := s.free
    (({ s with free := s.free + 1 } : State).runRows q i e w true rows (streamCols d) fun s r =>
      (s.pair q).chainRow g c (s.sourceRow q i e w true r (streamCols d r)) r (streamCols d r), .done)

/-- STREAM. -/
def execStream (row : EngineRow) (s : State) : Out :=
  .next (s.runOp row.queue 2 0x04 (State.streamWork row.queue) (State.streamRun row.queue row.bad))

/-! ### Reductions (R383 to R385) -/

/-- The reduce descriptor, bytes 60 to 63. -/
def redOf (d : BitVec 512) : Nat := fld d 60 1 0
def axisOf (d : BitVec 512) : Nat := fld d 60 2 2
def outCol (d : BitVec 512) : Bool := fld d 60 3 3 == 1
def rmaskOf (d : BitVec 512) : Nat := fld d 60 21 18
/-- The identity of a reduction. -/
def redIdentity : Nat → Nat
  | 1 => negInf32
  | 2 => posInf32
  | _ => 0
/-- One combination of a reduction. -/
def redCombine (red a b : Nat) : Nat :=
  match red with
  | 1 => max32 a b
  | 2 => min32 a b
  | _ => add32 a b
/-- An element as it enters a reduction: COUNT counts the active ones. -/
def redEnter (red : Nat) (active : Bool) (v : Nat) : Nat :=
  if !active then redIdentity red else if red = 3 then one32 else v
/-- The lane tree: each level combines the lower half with the upper half. -/
def laneTree (red : Nat) : Nat → List Nat → Nat
  | 0, l => l.headD (redIdentity red)
  | k + 1, l => laneTree red k (List.zipWith (redCombine red) (l.take (2 ^ k)) (l.drop (2 ^ k)))
/-- 128 lanes, the missing ones at the identity. -/
def lanes (red : Nat) (l : List Nat) : List Nat := l ++ List.replicate (128 - l.length) (redIdentity red)
/-- Combine a lane's elements in order
(DEDUCED, log entry 68). -/
def redFold (red : Nat) : List Nat → Nat
  | [] => redIdentity red
  | v :: r => r.foldl (redCombine red) v

/-- The start checks of TILE_REDUCE. -/
def State.tileReduceWork (q : Nat) (s : State) (i : Invocation) (e : QEntry) : Except StopReason Work := do
  let d := e.desc
  let c := chainOf d 3
  need (zeroFields d tileReserved && zeroFields d [(60, 17, 11), (60, 31, 22)] && kindsOk d false true
    && endOk (stepsOf d 3) && (stepsOf d 3).all (stepOk false) && maskOk false (rmaskOf d)) .badBody
  let rows := rLast d + 1
  let cols := cLast d + 1
  let n := if axisOf d = 0 then rows else cols
  let a ← s.srcPiece i e 64 (rowsBytes (srcPitch d) (srcFmt d) rows cols)
  let b ← s.dstPiece i e 64 (elemBytes (dstFmt d) n)
  s.needInside i (a ++ b)
  let masks := chainMasks c ++ maskReg (rmaskOf d)
  need ((s.pair q).holds e (chainTiles c) masks) .badBody
  return gougeWork e a b (chainTiles c) masks (16 + rows * ((c.map stepClocks).foldl (· + ·) 0 + 1))

/-- Store the results of a reduction: in column or row `k` of a Gouge tile, or as elements from the destination on. -/
def State.storeOut (s : State) (q : Nat) (i : Invocation) (e : QEntry) (w : Work) (column : Bool) (k : Nat) (out : List Nat) :
    State :=
  let d := e.desc
  if dstKind d = 1 then
    if column then s.modPair q fun p => { p with
      tiles := p.tiles.modify (dstTile e) fun x => { x with
        data := out.zipIdx.foldl (fun r y => r.put (4 * (128 * y.2 + k)) (bytesOfLe 4 y.1)) x.data } }
    else s.putGouge q (dstTile e) [(k, out)]
  else match w.writes with
    | b :: _ => s.putElems i b (dstFmt d) 0 out
    | [] => s
/-- The results of a reduction, `n` of them, become undefined (R397). -/
def State.freeOut (s : State) (q : Nat) (i : Invocation) (e : QEntry) (w : Work) (column : Bool) (k n : Nat) : State :=
  let g := s.free
  let s : State := { s with free := s.free + 1 }
  s.storeOut q i e w column k ((List.range n).map fun j => (Config.approx g j).toNat)
/-- A result as it is stored. -/
def outCode (d : BitVec 512) (v : Nat) : Nat := if dstKind d = 1 then v else convert (dstFmt d) (cvtOf d) v

/-- The effect of TILE_REDUCE. -/
def State.tileReduceRun (q : Nat) (bad : List WordRead) (s : State) (i : Invocation) (e : QEntry) (w : Work) :
    State × CmdOutcome :=
  let d := e.desc
  let c := chainOf d 3
  let rows := rLast d + 1
  let cols := cLast d + 1
  let k := fld d 60 10 4
  match s.gougeFetch q i e w c rows (fun _ => cols) (rowPieces d w.reads) bad with
  | (s, some f) =>
    (s.freeOut q i e w (outCol d) k (if axisOf d = 0 then rows else cols), .failed .memory f)
  | (s, none) =>
    let p := s.pair q
    let red := redOf d
    let v := (List.range rows).map fun r =>
      (p.chainRow s.free c (s.sourceRow q i e w false r cols) r cols).zipIdx.map fun x =>
        redEnter red (p.active (rmaskOf d) r x.2) x.1
    let out := if axisOf d = 0 then v.map fun r => laneTree red 7 (lanes red r)
      else (List.range cols).map fun j => redFold red (v.map fun r => r.getD j 0)
    (({ s with free := s.free + 1 } : State).storeOut q i e w (outCol d) k (out.map (outCode d)), .done)

/-- TILE_REDUCE. -/
def execTileReduce (row : EngineRow) (s : State) : Out :=
  .next (s.runOp row.queue 2 0x02 (State.tileReduceWork row.queue) (State.tileReduceRun row.queue row.bad))

/-- The start checks of STREAM_REDUCE. -/
def State.streamReduceWork (q : Nat) (s : State) (i : Invocation) (e : QEntry) : Except StopReason Work := do
  let d := e.desc
  let c := chainOf d 3
  let n := countOf d
  need (zeroFields d streamReserved && zeroFields d [(60, 3, 2), (60, 31, 22)] && kindsOk d true true
    && endOk (stepsOf d 3) && (stepsOf d 3).all (stepOk true) && maskOk true (rmaskOf d) && decide (n ≤ 16384)) .badBody
  let a ← s.srcPiece i e 4 (elemBytes (srcFmt d) n)
  let b ← s.dstPiece i e 4 (elemBytes (dstFmt d) 1)
  s.needInside i (a ++ b)
  let cost := 16 + streamRows d * ((c.map stepClocks).foldl (· + ·) 0 + 1)
  if n = 0 then return { gougeWork e [] b [] [] cost with accR := [], tileR := [] }
  let masks := chainMasks c ++ maskReg (rmaskOf d)
  need ((s.pair q).holds e (chainTiles c) masks) .badBody
  return gougeWork e a b (chainTiles c) masks cost

/-- The effect of STREAM_REDUCE. -/
def State.streamReduceRun (q : Nat) (bad : List WordRead) (s : State) (i : Invocation) (e : QEntry) (w : Work) :
    State × CmdOutcome :=
  let d := e.desc
  let c := chainOf d 3
  let rows := streamRows d
  let k := fld d 60 17 4
  let r : State × Option Nat :=
    if countOf d = 0 then (s, none) else s.gougeFetch q i e w c rows (streamCols d) w.reads bad
  match r with
  | (s, some f) => (s.freeOut q i e w true k 1, .failed .memory f)
  | (s, none) =>
    let p := s.pair q
    let red := redOf d
    let v := (List.range rows).map fun r =>
      (p.chainRow s.free c (s.sourceRow q i e w true r (streamCols d r)) r (streamCols d r)).zipIdx.map fun x =>
        redEnter red (p.active (rmaskOf d) r x.2) x.1
    let lane (j : Nat) : Nat := redFold red (v.filterMap fun r => r[j]?)
    let out := laneTree red 7 ((List.range 128).map lane)
    let s : State := { s with free := s.free + 1 }
    if dstKind d = 1 then
      (s.modPair q fun p => { p with
        tiles := p.tiles.modify (dstTile e) fun x => { x with data := x.data.put (4 * k) (bytesOfLe 4 out) } }, .done)
    else (s.storeOut q i e w false 0 [outCode d out], .done)

/-- STREAM_REDUCE. -/
def execStreamReduce (row : EngineRow) (s : State) : Out :=
  .next (s.runOp row.queue 2 0x05 (State.streamReduceWork row.queue) (State.streamReduceRun row.queue row.bad))

/-! ### SOFTMAX (R387 to R389) -/

/-- The start checks of SOFTMAX. -/
def State.softmaxWork (q : Nat) (s : State) (i : Invocation) (e : QEntry) : Except StopReason Work := do
  let d := e.desc
  let m := fld d 52 3 0
  let m2 := fld d 52 7 4
  need (zeroFields d tileReserved && zeroFields d [(53, 87, 0)] && kindsOk d false false && maskOk false m
    && decide (m2 ≤ 8)) .badBody
  let rows := rLast d + 1
  let cols := cLast d + 1
  let a ← s.srcPiece i e 64 (rowsBytes (srcPitch d) (srcFmt d) rows cols)
  let b ← s.dstPiece i e 64 (if transposed d then rowsBytes (dstPitch d) (dstFmt d) cols rows
    else rowsBytes (dstPitch d) (dstFmt d) rows cols)
  s.needInside i (a ++ b)
  let masks := maskReg m ++ maskReg m2
  need ((s.pair q).holds e [] masks) .badBody
  return gougeWork e a b [] masks (16 + 8 * rows)

/-- One row of a softmax: its outputs and the flag it sets in DW1 (Table 12-10). `z`: the scaled values of the active
lanes, `none` elsewhere; `c`: the free value of a lane. -/
def softmaxRow (z : List (Option Nat)) (c : Nat → Nat) : List Nat × BitVec 8 :=
  let act := z.filterMap id
  let put (f : Nat → Nat) : List Nat := z.map fun x => (x.map f).getD 0
  if act.all (· == negInf32) then (put fun _ => 0, 8)
  else if act.any (· == fp32.nanCode) then (put fun _ => fp32.nanCode, 16)
  else if act.contains posInf32 then
    let k := (act.filter (· == posInf32)).length
    (put fun v => if v = posInf32 then rnd32 (quotient false 1 k 0) else 0, 32)
  else
    let y := softmaxExact (z.map fun x => x.getD negInf32)
    ((z.zip y).zipIdx.map fun x => match x.1.1 with
      | none => 0
      | some v => if v = negInf32 then 0 else softmaxResult x.1.2 (c x.2), 0)

/-- The effect of SOFTMAX. -/
def State.softmaxRun (q : Nat) (bad : List WordRead) (s : State) (i : Invocation) (e : QEntry) (w : Work) :
    State × CmdOutcome :=
  let d := e.desc
  let rows := rLast d + 1
  let cols := cLast d + 1
  match s.gougeFetch q i e w [] rows (fun _ => cols) (rowPieces d w.reads) bad with
  | (s, some f) => (s.freeRows q i e w false rows fun _ => cols, .failed .memory f)
  | (s, none) =>
    let g := s.free
    let row (s : State) (r : Nat) : List Nat × BitVec 8 :=
      let p := s.pair q
      let src := s.sourceRow q i e w false r cols
      softmaxRow ((List.range cols).map fun j =>
        if p.active (fld d 52 3 0) r j && p.active (fld d 52 7 4) r j then some (mul32 (src j) (fld d 48 31 0)) else none)
        fun j => (Config.approx g (128 * r + j)).toNat
    let flag (s : State) (b : BitVec 8) : State := s.modInv i.ref fun x => { x with flags := x.flags ||| b }
    let conv (v : Nat) : Nat := if dstKind d = 2 then convert (dstFmt d) (cvtOf d) v else v
    let s := (List.range rows).foldl (fun (s : State) r =>
      let o := row s r
      (flag s o.2).storeRow q i e w false r (o.1.map conv)) ({ s with free := s.free + 1 } : State)
    (s.clearLines i.tenant (dstLines e w false rows fun _ => cols), .done)

/-- SOFTMAX. -/
def execSoftmax (row : EngineRow) (s : State) : Out :=
  .next (s.runOp row.queue 2 0x03 (State.softmaxWork row.queue) (State.softmaxRun row.queue row.bad))

/-! ### MASK_SET and RELEASE (R390) -/

/-- The start checks of MASK_SET. -/
def State.maskSetWork (s : State) (i : Invocation) (e : QEntry) : Except StopReason Work := do
  let d := e.desc
  let mode := fld d 17 1 0
  let n := fld d 18 7 0
  need (zeroFields d [(16, 7, 3), (17, 7, 2), (19, 39, 0), (48, 127, 0)]
    && (mode == 1 || n == 0) && (mode == 2 || fld d 24 63 0 == 0) && (mode == 0 || fld d 32 127 0 == 0)) .badBody
  need (decide (mode ≤ 2) && decide (n ≤ 128)) .badBody
  let w : Work := { claimMask := some (fld d 16 2 0), cost := 16 }
  if mode ≠ 2 then return w
  let p ← s.piece i (fld d 24 63 0) 0 16
  need (p.space.mayTile && p.off % 16 == 0) .badBody
  s.needInside i [p]
  return { w with reads := [p] }

/-- MASK_SET. -/
def execMaskSet (row : EngineRow) (s : State) : Out :=
  .next (s.runOp row.queue 2 0x06 State.maskSetWork fun s i e w =>
    let d := e.desc
    match s.fetch i w.reads [] [] row.bad with
    | (s, some f) =>
      let (b, s) := s.drawBytes 16
      (s.modPair row.queue fun p => { p with
        masks := p.masks.modify (fld d 16 2 0) fun x => { x with mask := BitVec.ofNat 128 (leOfBytes b) } }, .failed .memory f)
    | (s, none) =>
      let v : Nat := match fld d 17 1 0 with
        | 0 => fld d 32 127 0
        | 1 => 2 ^ fld d 18 7 0 - 1
        | _ => leOfBytes (w.reads.flatMap (s.spanGet i))
      let m := fld d 16 2 0
      let s := s.clearWords 2 (gougeWords * pairOf row.queue + 16 * tileWords64 + 2 * m) 2
      (s.modPair row.queue fun p => { p with
        masks := p.masks.modify m fun x => { x with mask := BitVec.ofNat 128 v } }, .done))

/-- The start checks of RELEASE. -/
def State.gougeReleaseWork (_ : State) (_ : Invocation) (e : QEntry) : Except StopReason Work := do
  need (zeroFields e.desc [(19, 359, 0)]) .badBody
  return { cost := 16 }

/-- RELEASE of a Gouge slice: the named tiles and registers that the invocation holds become free. -/
def execGougeRelease (queue : Nat) (s : State) : Out :=
  .next (s.runOp queue 2 0x07 State.gougeReleaseWork fun s _ e _ =>
    let h := some e.holder
    (s.modPair queue fun p => { p with
      tiles := p.tiles.zipIdx.map fun x =>
        if bit (fld e.desc 16 15 0) x.2 && x.1.holder = h then { x.1 with holder := none } else x.1
      masks := p.masks.zipIdx.map fun x =>
        if bit (fld e.desc 18 7 0) x.2 && x.1.holder = h then { x.1 with holder := none } else x.1 }, .done))

end Sys2Proof.Machine
end

