-- ==== Sys2Proof/Machine/Lists.lean ====
section
/-!
DEFINITION. Lists.lean: the order of scores, and the list operations of the Gouge slices: LIST_MERGE and LIST_EMIT
(R391 to R393, R414).
-/

namespace Sys2Proof.Machine

/-! ### The order of scores (R414) -/

/-- The kind of a score: FP32, or UINT32. -/
def scoreNan (fp : Bool) (v : Dword) : Bool := fp && (fp32.decode v.toNat).isNan
/-- Is score `a` better than `b`, neither NaN? `small`: a smaller score is better. -/
def scoreBetter (fp small : Bool) (a b : Dword) : Bool :=
  let lt (x y : Dword) : Bool :=
    if fp then (fp32.decode x.toNat).lt (fp32.decode y.toNat) false else decide (x.toNat < y.toNat)
  if small then lt a b else lt b a
/-- Does entry `a` rank before entry `b` by rules 1 to 3? -/
def ranksBefore (fp small : Bool) (a b : ListEntry) : Bool :=
  match scoreNan fp a.score, scoreNan fp b.score with
  | false, true => true
  | true, false => false
  | true, true => decide (a.id < b.id)
  | false, false =>
    if scoreBetter fp small a.score b.score then true
    else if scoreBetter fp small b.score a.score then false
    else decide (a.id < b.id)
/-- Insert an entry after every entry that does not rank behind it, so that earlier entries stay first among equals. -/
def insertRanked (fp small : Bool) (e : ListEntry) : List ListEntry → List ListEntry
  | [] => [e]
  | x :: xs => if ranksBefore fp small e x then e :: x :: xs else x :: insertRanked fp small e xs
/-- Entries in rank order. -/
def rankSort (fp small : Bool) (l : List ListEntry) : List ListEntry :=
  l.foldl (fun acc e => insertRanked fp small e acc) []

/-! ### Lists in memory (R213) -/

/-- The bytes of a list: header and entries
(DESIGN CHOICE, log entry 69). -/
def listBytes (kind : Nat) (l : List ListEntry) : List Byte :=
  bytesOfLe 4 l.length ++ bytesOfLe 1 kind ++ List.replicate 11 0
    ++ l.flatMap fun e => bytesOfLe 8 e.id ++ bytesOfLe 4 e.score.toNat ++ List.replicate 4 0

/-- One input list as it stands in memory. -/
structure InList where
  span : Span
  count : Nat
  kind : Nat
  deriving DecidableEq, Repr, Inhabited

/-- Fields of a list command. -/
def listN (d : BitVec 512) : Nat := fld d 36 5 0
def listK (d : BitVec 512) : Nat := fld d 38 10 0
def listStride (d : BitVec 512) : Nat := fld d 32 31 0
def listSmall (d : BitVec 512) : Bool := fld d 40 0 0 == 1
/-- The input lists of a command. -/
def State.inputs (s : State) (i : Invocation) (e : QEntry) : Except StopReason (List InList) := do
  let src ← s.piece i (fld e.desc 16 63 0) (fld e.desc 42 15 0 * e.iter0 * 64) 16
  return (List.range (listN e.desc)).map fun k =>
    let p := { src with off := src.off + k * listStride e.desc }
    let b := listReader (s.spanGet i p)
    { span := p, count := readLe b 0 4, kind := readLe b 4 1 }
/-- Does an input's `COUNT` fit its stride (R392)? -/
def InList.fits (d : BitVec 512) (l : InList) : Bool := decide (16 * l.count + 16 ≤ listStride d)
/-- Entries of the output. -/
def outCount (d : BitVec 512) (l : List InList) : Nat := min (listK d) ((l.map (·.count)).foldl (· + ·) 0)
/-- The piece of an input with its entries. -/
def InList.whole (l : InList) : Span := { l.span with len := 16 + 16 * l.count }

/-- The start checks of the list operations (R396). `emit`: LIST_EMIT
(DEDUCED, log entry 61). -/
def State.listWork (emit : Bool) (s : State) (i : Invocation) (e : QEntry) : Except StopReason Work := do
  let d := e.desc
  need (zeroFields d [(36, 7, 6), (37, 7, 0), (38, 15, 11), (40, 7, 1), (41, 7, 0), (48, 127, 0)]) .badBody
  need (decide (listN d ≤ 32) && decide (1 ≤ listK d) && decide (listK d ≤ 1024)) .badBody
  let l ← s.inputs i e
  let src ← s.piece i (fld d 16 63 0) 0 16
  let dst ← s.piece i (fld d 24 63 0) (fld d 44 15 0 * e.iter0 * 64 + fld d 46 15 0 * e.lane * 64)
    (if emit then 16 + 16 * listK d else 16 + 16 * outCount d l)
  need (src.space.mayTile && (dst.space.mayTile || (emit && dst.space == .hostOut)) && listStride d % 64 == 0) .badBody
  if listN d = 0 then return { cost := 32 + (if emit then ceilDiv (listK d) 4 else 0) }
  s.needInside i (l.map fun x => if x.fits d then x.whole else x.span)
  s.needInside i [dst]
  let kind := ((l.head?).map (·.kind)).getD 0
  need ((l.all fun x => x.kind == kind && x.fits d) && decide (kind ≤ 1)) .badBody
  let n := outCount d l
  return { reads := l.map (·.whole), writes := [dst]
           cost := 32 + 4 * listN d + 2 * n + (if emit then ceilDiv (listK d - n) 4 else 0) }

/-- The entries of an input list. -/
def State.entriesOf (s : State) (i : Invocation) (p : Span) : List ListEntry :=
  let b := listReader (s.spanGet i p)
  (List.range ((p.len - 16) / 16)).map fun k =>
    { id := readLe b (16 + 16 * k) 8, score := BitVec.ofNat 32 (readLe b (24 + 16 * k) 4) }

/-- Entries drawn in an order the spec leaves undefined: by free values
(DESIGN CHOICE, log entry 69). -/
def State.shuffle (s : State) (l : List ListEntry) : List ListEntry × State :=
  let k := l.zipIdx.map fun x => ((Config.freeWord (s.free + x.2)).toNat, x.1)
  ((k.mergeSort fun a b => decide (a.1 ≤ b.1)).map (·.2), { s with free := s.free + l.length })

/-- The effect of the list operations
(DESIGN CHOICE, log entry 69). -/
def State.listRun (emit : Bool) (bad : List WordRead) (s : State) (i : Invocation) (e : QEntry) (w : Work) : State × CmdOutcome :=
  let d := e.desc
  if listN d = 0 then (s, .done)
  else match s.fetch i w.reads [] [] bad with
  | (s, some f) => (s.blur i w.writes, .failed .memory f)
  | (s, none) =>
    let kind := ((w.reads.head?).map fun p => readLe (listReader (s.spanGet i p)) 4 1).getD 0
    let fp := kind == 0
    let small := listSmall d
    let l := w.reads.map (s.entriesOf i)
    let sorted := l.all fun x => rankSort fp small x == x
    let r : List ListEntry × State := if sorted then (rankSort fp small l.flatten, s) else s.shuffle l.flatten
    let out := r.1.take (listK d)
    let s := r.2
    match w.writes with
    | p :: _ =>
      let bs := listBytes kind out ++ (if emit then List.replicate (16 * (listK d - out.length)) 0 else [])
      let s := (s.spanWrite i p bs).1
      if emit && p.space == .hostOut && i.kind == .search then
        let f : BitVec 8 := (if out.length < i.k then 2 else 0) ||| (if out.isEmpty then 4 else 0)
        (s.modInv i.ref fun x => { x with flags := x.flags ||| f }, .done)
      else (s, .done)
    | [] => (s, .done)

/-- LIST_MERGE. -/
def execListMerge (row : EngineRow) (s : State) : Out :=
  .next (s.runOp row.queue 2 0x08 (State.listWork false) (State.listRun false row.bad))

/-- LIST_EMIT. -/
def execListEmit (row : EngineRow) (s : State) : Out :=
  .next (s.runOp row.queue 2 0x09 (State.listWork true) (State.listRun true row.bad))

end Sys2Proof.Machine
end

