-- ==== Sys2Proof/Machine/Rasp.lean ====
section
/-!
DEFINITION. Rasp.lean: the operations of the Rasp units: LOAD_CTX, SCAN, EMIT, CTX_RELEASE, and the read-ahead of a SCAN
(chapter 13).
-/

namespace Sys2Proof.Machine

/-- The channel of a Rasp queue, and its group. -/
def chanOf (q : Nat) : Nat := q - 40
def groupOf (q : Nat) : Nat := (q - 40) / 8
/-- The scan groups of an invocation (R419). -/
def State.scanGroup (s : State) (i : Invocation) (g : Nat) : Bool :=
  if i.kind == .search && i.groups != 0 then i.groups.getLsbD g
  else ((s.record i.tenant).map fun r => r.groupMask.getLsbD g).getD false && decide (g < 4) && s.role g == some .index

/-- The context of a LOAD_CTX. -/
def loadCtx (e : QEntry) : Nat :=
  (fld e.desc 32 1 0 + (if fld e.desc 32 2 2 = 1 then e.iter0 else 0) + (if fld e.desc 32 3 3 = 1 then e.lane else 0)) % 4
/-- Contexts of a 4-bit mask. -/
def ctxsOf (m : Nat) : List Nat := (List.range 4).filter (bit m)
/-- The contexts that a Rasp command names (R406). -/
def ctxNames (e : QEntry) : List Nat :=
  match opOf e.desc with
  | 1 => [loadCtx e]
  | 2 => ctxsOf (fld e.desc 40 7 4)
  | 3 => ctxsOf (fld e.desc 28 3 0)
  | 4 => ctxsOf (fld e.desc 16 3 0)
  | _ => []

/-- Bytes of a context table, or none where Table 13-2 does not allow the size. -/
def tableBytes (form codeBytes : Nat) : Option Nat :=
  match form with
  | 0 => if [8, 16, 32, 64].contains codeBytes then some (512 * codeBytes) else none
  | 1 => if [32, 64].contains codeBytes then some (64 * codeBytes) else none
  | 2 => if [8, 16, 32, 64, 128].contains codeBytes then some codeBytes else none
  | _ => none
/-- A context of a unit. -/
def State.context (s : State) (q x : Nat) : Context := (s.unit q).ctxs.getD x {}
/-- Change a context of a unit. -/
def State.modContext (s : State) (q x : Nat) (f : Context → Context) : State :=
  s.modUnit q fun u => { u with ctxs := u.ctxs.modify x f }
/-- Does the entry's invocation hold a context? -/
def State.holdsCtx (s : State) (q : Nat) (e : QEntry) (x : Nat) : Bool := (s.context q x).holder == some e.holder
/-- The first word of a context's table, and of its heap, in SRAM structure 3. -/
def ctxWord (q x : Nat) : Nat := ctxWords * (4 * chanOf q + x)

/-! ### LOAD_CTX -/

/-- The start checks of LOAD_CTX (R423). -/
def State.loadCtxWork (q : Nat) (s : State) (i : Invocation) (e : QEntry) : Except StopReason Work := do
  let d := e.desc
  let kind := fld d 33 1 0
  let form := fld d 33 3 2
  let keep := fld d 33 4 4 = 1
  let pv := fld d 33 5 5 = 1
  let code := fld d 34 7 0
  let k := fld d 36 10 0
  let x := loadCtx e
  need (zeroFields d [(32, 7, 4), (33, 7, 6), (35, 7, 0), (36, 15, 11), (38, 15, 0), (52, 95, 0)]) .badBody
  need ((kind == 3) == (form == 2) && decide (form ≤ 2) && (tableBytes form code).isSome
    && (keep || (decide (1 ≤ k) && decide (k ≤ 1024)))) .badBody
  if !s.scanGroup i (groupOf q) then return { cost := 32, ctxs := [x] }
  let lane := fld d 48 31 0 * e.lane * 64
  let n := (tableBytes form code).getD 0
  let src ← s.piece i (fld d 16 63 0) (fld d 40 31 0 * e.iter0 * 64 + lane) n
  need (src.space.mayTile && src.off % 64 == 0) .badBody
  let par ← if pv then do
      let p ← s.piece i (fld d 24 63 0) (fld d 44 31 0 * e.iter0 * 64 + lane) 64
      need (p.space.mayTile && p.off % 64 == 0) .badBody
      pure [p]
    else pure []
  s.needInside i (src :: par)
  let c := s.context q x
  need (!keep || (s.holdsCtx q e x && c.kind == kind && c.form == form && c.codeBytes == code)) .badBody
  return { reads := src :: par, ctxs := [x], claimCtx := some x, cost := 32 + ceilDiv n 32 + (if pv then 2 else 0) }

/-- LOAD_CTX. -/
def execLoadCtx (row : EngineRow) (s : State) : Out :=
  .next (s.runOp row.queue 3 0x01 (State.loadCtxWork row.queue) fun s i e w =>
    let d := e.desc
    let x := loadCtx e
    match w.reads with
    | [] => (s, .done)
    | src :: par =>
      match s.fetch i w.reads [] [] row.bad with
      | (s, some f) => (s, .failed .memory f)
      | (s, none) =>
        let keep := fld d 33 4 4 = 1
        let s := (s.clearWords 3 (ctxWord row.queue x) 4096)
        let s := if keep then s else s.clearWords 3 (ctxWord row.queue x + 4096) 2048
        let table := Region.ofBytes (s.spanGet i src)
        let param := match par with
          | p :: _ => s.spanGet i p
          | [] => List.replicate 64 0
        (s.modContext row.queue x fun c => { c with
          table := table, param := param, kind := fld d 33 1 0, form := fld d 33 3 2, codeBytes := fld d 34 7 0
          heap := if keep then c.heap else []
          heapK := if keep then c.heapK else fld d 36 10 0 }, .done))

/-! ### Records and scores (R398 to R416) -/

/-- Where a unit of a tenant's extents lies: superblock and data page, with the fault number of an unreadable unit; none
where its extent is not published. -/
def State.unitPlace (s : State) (t unit : Nat) : Option (Nat × Nat × Option Nat) :=
  (s.media.extents.find? fun e => e.tenant == t && e.extent == unit / 256).map fun e =>
    (e.superblock, 64 * e.position + unit % 256 / 4, e.bad.lookup (unit % 256))
/-- The page of a unit. -/
def State.unitPage (s : State) (t unit : Nat) : Option PageAddr :=
  (s.unitPlace t unit).bind fun p => (s.superblock p.1).map fun b =>
    let l := b.locate p.2.1
    b.page l.2.1 l.2.2 l.1
/-- The channel of a unit. -/
def State.unitChannel (s : State) (t unit : Nat) : Option Nat := (s.unitPage t unit).map (·.channel)

/-- A plan entry (Table 13-1). -/
structure ScanEntry where
  first : Nat
  count : Nat
  last : Nat
  mask : Nat
  tag : Nat
  bias : List Nat
  reservedOk : Bool
  deriving DecidableEq, Repr, Inhabited

/-- Read the plan entry at byte `o`
(DEDUCED, log entry 61; DESIGN CHOICE, log entry 70). -/
def scanEntry (b : Nat → Byte) (o : Nat) : ScanEntry :=
  let w := readLe b (o + 4) 4
  { first := readLe b o 4, count := bits w 20 0, last := readLe b (o + 8) 2, mask := bits (readLe b (o + 10) 1) 3 0
    tag := readLe b (o + 12) 4
    bias := (List.range 4).map fun k => readLe b (o + 16 + 4 * k) 4
    reservedOk := bits w 31 21 == 0 && bits (readLe b (o + 10) 2) 15 4 == 0 }

/-- The form of a layout's codes. -/
def Layout.form (l : Layout) : Nat := if l.subcodeBits = 8 then 0 else if l.subcodeBits = 4 then 1 else 2
/-- Record slots of a unit. -/
def Layout.slots (l : Layout) : Nat := 4096 / l.recordBytes

/-- Bits set in a number, counted over `n` bits. -/
def popcount (n v : Nat) : Nat := ((List.range n).filter v.testBit).length

/-- The score of a record into a context (R412, R413). `code`: its code bytes; `norm`: its norm-correction byte. -/
def Context.scoreOf (c : Context) (bias : Nat) (code : Nat → Byte) (norm : Nat) : Nat :=
  if c.kind = 3 then
    popcount (8 * c.codeBytes) ((readLe code 0 c.codeBytes) ^^^ c.table.le 0 c.codeBytes)
  else
    let entry (m sub width : Nat) : Nat := widen 2 (c.table.le (2 * (width * m + sub)) 2)
    let terms := if c.form = 0
      then (List.range c.codeBytes).map fun m => entry m (code m).toNat 256
      else (List.range (2 * c.codeBytes)).map fun m => entry m (bits (code (m / 2)).toNat (4 * (m % 2) + 3) (4 * (m % 2))) 16
    let s := terms.foldl add32 bias
    if c.kind = 1 then mul32 s (rnd32 (.fin false (384 + norm) (-9))) else s

/-- Offer a candidate to a heap (R415): the heap, and whether the candidate entered. -/
def Context.offer (c : Context) (e : ListEntry) : Context × Bool :=
  let fp := c.kind != 3
  let small := decide (c.kind ≥ 2)
  let enters := decide (c.heap.length < c.heapK) || match c.heap.getLast? with
    | some z => ranksBefore fp small e z
    | none => false
  if enters then ({ c with heap := (insertRanked fp small e c.heap).take c.heapK }, true) else (c, false)

/-- Score one record into the enabled contexts. `pass`: the verdict, already under the masks
(DESIGN CHOICE, log entry 37). -/
def RaspUnit.score (u : RaspUnit) (l : Layout) (bias : List Nat) (rec_ : Nat → Byte) (pass : List Nat) : RaspUnit :=
  let id := readLe (fun k => rec_ (l.idOffset + k)) 0 l.idBytes
  let norm := match l.normOffset with
    | some o => (rec_ o).toNat
    | none => 0
  pass.foldl (fun (u : RaspUnit) x =>
    let c := u.ctxs.getD x {}
    let v := c.scoreOf (bias.getD x 0) (fun k => rec_ (l.codeOffset + k)) norm
    let u := { u with passed := satAdd32 u.passed 1 }
    if c.kind ≠ 3 && (fp32.decode v).isNan then { u with nan := satAdd32 u.nan 1 }
    else
      let r := c.offer { id := id, score := BitVec.ofNat 32 v }
      { u with ctxs := u.ctxs.modify x fun _ => r.1, inserts := satAdd32 u.inserts (b2n r.2) }) u

/-- What the shell gives the logic with a record (R407). `k`: the record's number within its plan entry. -/
def State.ports (s : State) (q t layout : Nat) (p : ScanEntry) (mask k : Nat) (rec_ : List Byte) : Config.RecordPorts :=
  let x := s.pers.slices.getD (chanOf q) {}
  { tenant := t, ctxMask := mask, layout := layout, listTag := p.tag, recordIndex := k, channel := chanOf q
    params := (s.unit q).ctxs.map fun c => (c.holder.map (·.tenant), if c.holder.isSome then c.param else List.replicate 64 0)
    now := s.now, timers := x.timerIn, edges := x.edgeLatch, record := rec_ }

/-- Stream the first `n` records of unit `k` of a plan entry through the slice and the Rasp unit. Slice logic other than the
pass-all logic gives verdicts that are free values: the spec leaves their meaning to the owner's image. -/
def State.streamUnit (s : State) (q t layout : Nat) (l : Layout) (p : ScanEntry) (mask k n : Nat) (bs : List Byte) : State :=
  let b := listReader bs
  let all := (s.pers.slices.getD (chanOf q) {}).passAll
  let s := s.modUnit q fun u => { u with units := satAdd32 u.units 1, records := satAdd32 u.records n }
  let s := (List.range n).foldl (fun (s : State) j =>
    let at_ (o : Nat) : Byte := b (j * l.recordBytes + o)
    let v := if all then BitVec.allOnes 4
      else Config.verdict s.free
        (s.ports q t layout p mask (k * l.slots + j) ((List.range l.recordBytes).map at_))
    let s : State := if all then s else { s with free := s.free + 1 }
    s.modUnit q fun u => u.score l p.bias at_ ((ctxsOf mask).filter v.getLsbD)) s
  s.logicActs (chanOf q)

/-- The units that a plan entry names, as numbers of the tenant's extents, with their count within the entry. -/
def State.entryUnits (s : State) (t buf listOff : Nat) (p : ScanEntry) : List (Nat × Nat) :=
  let base := 256 * ((s.bufferAt t buf).map (·.firstExtent)).getD 0 + listOff / 4096 + p.first
  (List.range p.count).map fun k => (base + k, k)

/-- The data of the next unit of a stream: read ahead, or read now. `retried`: the units that need read-retry, once for each
attempt; one of a dead die is rebuilt. One that stays unreadable gives its fault number (R421, R514). -/
def State.takeUnit (s : State) (q t tag u : Nat) (retried : List Nat) : State × Except Nat (List Byte) :=
  match s.unitPlace t u, s.unitPage t u with
  | some (_, _, some f), _ => (s, .error f)
  | some (_, _, none), some a =>
    let x := (t, tag, u)
    let held := (s.unit q).ahead.contains x
    let dead := !s.dieLive a.channel a.die
    let tries := (retried.filter (· == u)).length
    match s.unitRead t u with
    | none =>
      let (f, s) := s.newFault
      (s.unrecovered { addr := a, codeword := u % 4, faultNo := f, since := s.now, tried := tries, rebuilding := true
                       readers := [.scan t tag u (chanOf q)] }, .error f)
    | some bs =>
      if held then (s.modUnit q fun y => { y with ahead := y.ahead.filter (· != x) }, .ok bs)
      else
        let s := if tries = 0 || dead then s
          else (s.modMedia fun m => { m with retryReads := satAdd32 m.retryReads tries }).shellEdge (chanOf q) 3
        let s := if dead then (s.modMedia fun m => { m with rebuilt := satAdd32 m.rebuilt 1 }).shellEdge (chanOf q) 4 else s
        (s, .ok bs)
  | _, _ => (s, .ok (List.replicate 4096 0))

/-- Walk the units of an entry that lie on the channel; the walk ends at an unreadable one, or after `limit` units of the SCAN
when its invocation is cancelled. -/
def State.walkUnits (s : State) (q : Nat) (i : Invocation) (layout : Nat) (l : Layout) (p : ScanEntry) (mask : Nat)
    (retried : List Nat) (limit : Option Nat) : List (Nat × Nat) → State × Option CmdOutcome
  | [] => (s, none)
  | (u, k) :: us =>
    if s.unitChannel i.tenant u ≠ some (chanOf q) then s.walkUnits q i layout l p mask retried limit us
    else if limit.any fun n => decide (n ≤ (s.unit q).units) then (s, some .cancelled)
    else match s.takeUnit q i.tenant i.tag u retried with
      | (s, .error f) => (s, some (.failed .media f))
      | (s, .ok bs) =>
        let n := if k + 1 = p.count && p.last ≠ 0 then p.last else l.slots
        (s.streamUnit q i.tenant layout l p mask k n bs).walkUnits q i layout l p mask retried limit us

/-- Walk the plan entries of a SCAN in order. -/
def State.walkPlan (s : State) (q : Nat) (i : Invocation) (layout : Nat) (l : Layout) (lists : Span) (enable : Nat)
    (retried : List Nat) (limit : Option Nat) : List ScanEntry → State × CmdOutcome
  | [] => (s, .done)
  | p :: ps =>
    if !p.reservedOk || p.last > l.slots || p.count > 1048576 then (s, .failed .badBody 0)
    else if !s.inside i { lists with off := lists.off + 4096 * p.first, len := 4096 * p.count } then
      (s, .failed .addressOutside 0)
    else
      let buf := match lists.space with
        | .buf x _ => x
        | _ => 0
      let us := s.entryUnits i.tenant buf lists.off p
      match s.walkUnits q i layout l p (p.mask &&& enable) retried limit us with
      | (s, some o) => (s, o)
      | (s, none) => s.walkPlan q i layout l lists enable retried limit ps

/-! ### SCAN -/

/-- The first plan entry of a SCAN. -/
def scanFirst (e : QEntry) : Nat := fld e.desc 32 31 0 + fld e.desc 44 31 0 * e.iter0 + fld e.desc 48 31 0 * e.lane
/-- The layout that a SCAN names. -/
def State.scanLayout (s : State) (q : Nat) (e : QEntry) : Option Layout :=
  (s.pers.layouts.getD (groupOf q) [])[fld e.desc 40 3 0]?

/-- The start checks of SCAN (R423)
(DEDUCED, log entry 61). -/
def State.scanWork (q : Nat) (s : State) (i : Invocation) (e : QEntry) : Except StopReason Work := do
  let d := e.desc
  let n := fld d 36 31 0
  let xs := ctxsOf (fld d 40 7 4)
  need (zeroFields d [(41, 23, 0), (52, 95, 0)]) .badBody
  need (decide (n ≤ 65536)) .badBody
  if !s.scanGroup i (groupOf q) then return { cost := 32, ctxs := xs }
  need (!s.pers.blockedGroups.getLsbD (groupOf q)) .groupBlocked
  let plan ← s.piece i (fld d 16 63 0) (32 * scanFirst e) (32 * n)
  need (plan.space.mayTile && plan.off % 32 == 0) .badBody
  let lists ← s.piece i (fld d 24 63 0) 0 0
  let sp := fld d 24 63 60
  need ((sp == 1 || sp == 2) && (lists.space.readOnly || lists.space == .unused) && lists.off % 4096 == 0) .badBody
  need (n == 0 || lists.space != .unused) .addressOutside
  s.needInside i [plan]
  need (xs.all (s.holdsCtx q e)) .badBody
  match s.scanLayout q e with
  | none => throw .badBody
  | some l =>
    need (xs.all fun x =>
      let c := s.context q x
      c.form == l.form && c.codeBytes == l.codeBytes && (c.kind != 1 || l.normOffset.isSome)) .badBody
    return { reads := [plan], ctxs := xs, scan := true, cost := 32 + 4 * n }

/-- The words of a context's table, and of its heap. -/
def State.tableWords (s : State) (q x : Nat) : Nat × Nat × Nat :=
  let c := s.context q x
  (3, ctxWord q x, ceilDiv ((tableBytes c.form c.codeBytes).getD 0) 8)
/-- See `State.tableWords`. -/
def State.heapWords (s : State) (q x : Nat) : Nat × Nat × Nat := (3, ctxWord q x + 4096, 2 * (s.context q x).heap.length)

/-- The plan entries of a SCAN. -/
def State.planEntries (s : State) (i : Invocation) (e : QEntry) (plan : Span) : List ScanEntry :=
  let b := listReader (s.spanGet i plan)
  (List.range (fld e.desc 36 31 0)).map fun k => scanEntry b (32 * k)
/-- The units on its channel that a plan entry of a SCAN reads; a unit beyond the buffer is left to the walk. -/
def State.unitsHere (s : State) (q : Nat) (i : Invocation) (lists : Span) (p : ScanEntry) : List Nat :=
  match lists.space with
  | .buf x .readonly =>
    if s.inside i { lists with off := lists.off + 4096 * p.first, len := 4096 * p.count } then
      ((s.entryUnits i.tenant x lists.off p).map (·.1)).filter fun u => s.unitChannel i.tenant u == some (chanOf q)
    else []
  | _ => []

/-- The units read ahead for a SCAN that has ended are discarded and counted (R420). -/
def State.dropAhead (s : State) (q t tag : Nat) : State :=
  let mine (a : Nat × Nat × Nat) : Bool := a.1 == t && a.2.1 == tag
  s.modUnit q fun u => { u with
    ahead := u.ahead.filter (!mine ·), aheadCount := satAdd32 u.aheadCount (u.ahead.filter mine).length }

/-- The effect of SCAN. Its second part of cost is 576 for each unit streamed (R424). -/
def State.scanRun (q stalled : Nat) (limit : Option Nat) (retried : List Nat) (bad : List WordRead) (s : State)
    (i : Invocation) (e : QEntry) (w : Work) : State × CmdOutcome :=
  let d := e.desc
  match w.reads, s.piece i (fld d 24 63 0) 0 0, s.scanLayout q e with
  | [plan], .ok lists, some l =>
    let u0 := (s.unit q).units
    let r0 := (s.unit q).records
    let s := s.modUnit q fun u => { u with stall := satAdd32 u.stall stalled, units := 0, records := 0 }
    let r := match s.fetch i [plan] [] [] bad with
      | (s, some f) => (s, CmdOutcome.failed .memory f)
      | (s, none) =>
        let ps := s.planEntries i e plan
        let enable := fld d 40 7 4
        let used := (ctxsOf enable).filter fun x => ps.any fun p => bit p.mask x && !(s.unitsHere q i lists p).isEmpty
        match s.fetch i [] (used.flatMap fun x => [s.tableWords q x, s.heapWords q x]) [] bad with
        | (s, some f) => (s, .failed .memory f)
        | (s, none) => s.walkPlan q i (fld d 40 3 0) l lists enable retried limit ps
    let units := (r.1.unit q).units
    let records := (r.1.unit q).records
    let s := (r.1.charge q i.tenant (576 * units)).modUnit q fun u =>
      { u with units := satAdd32 u0 units, records := satAdd32 r0 records }
    let s := if records = 0 then s
      else s.modUnit q fun u => { u with passedBy := u.passedBy ++ [(i.tenant, i.tag, false)] }
    (s.dropAhead q i.tenant i.tag, r.2)
  | _, _, _ => (s, .done)

/-- SCAN. Of an invocation cancelled under R189 it ends at its safe point, after `streamed` units, without a bump (R421).
`stalled`: MEDIA clocks that the stream waited for verdicts at the limits of R409. `retried` and `bad`: what its reads of flash
and SRAM meet
(DEDUCED, log entry 35; DESIGN CHOICE, log entry 70). -/
def execScan (queue : Nat) (run : ScanRow) (s : State) : Out :=
  .next (s.runOp queue 3 0x02 (State.scanWork queue) fun s i e w =>
    if i.phase = .stopping && (i.endSc = 0x90 || i.endSc = 0x95) && !i.silent then
      ((s.scanRun queue run.stalled (some run.streamed) run.retried run.bad i e w).1, .cancelled)
    else s.scanRun queue run.stalled none run.retried run.bad i e w)

/-- The plan and the lists of a SCAN whose units a channel reads ahead: condition 1 of R239 is all it waits for, so its
contexts need not be held yet. -/
def State.scanPieces (s : State) (q : Nat) (i : Invocation) (e : QEntry) : Option (Span × Span) :=
  let d := e.desc
  let n := fld d 36 31 0
  if !s.scanGroup i (groupOf q) || n > 65536 then none
  else match s.piece i (fld d 16 63 0) (32 * scanFirst e) (32 * n), s.piece i (fld d 24 63 0) 0 0 with
    | .ok plan, .ok lists => if plan.space.mayTile && s.inside i plan then some (plan, lists) else none
    | _, _ => none

/-- The units that a channel is reading ahead now. -/
def State.unitsComing (s : State) (q : Nat) : List (Nat × Nat × Nat) :=
  let of (r : Reader) : List (Nat × Nat × Nat) := match r with
    | .scan t tag u ch => if ch = chanOf q then [(t, tag, u)] else []
    | _ => []
  let ops := s.media.dies.flatMap fun x => x.queue ++ x.running.toList ++ x.suspended.toList ++ x.resetting.toList
  (ops.flatMap fun o => match o.kind with
    | .read _ _ r => of r
    | _ => []) ++ s.media.recoveries.flatMap fun r => r.readers.flatMap of

/-- SCAN_READ_AHEAD: once the wait of the oldest SCAN of a tenant holds, its channel reads the next of its units, up to
128 read ahead; a running SCAN takes slots from the others (R420). -/
def execScanReadAhead (queue index : Nat) (s : State) : Out :=
  match (s.queue queue).entries[index]? with
  | none => .next s
  | some e =>
    let isScan (x : QEntry) : Bool := x.origin == .word && classOf x.desc == 3 && opOf x.desc == 2 && x.tenant == e.tenant
    let met := match e.wait with
      | some (c, v) => decide (s.ctr c ≥ v)
      | none => true
    let oldest := (((s.queue queue).entries.take index).any isScan) == false
    if !isScan e || !met || !oldest then .next s
    else match s.invocation? e.tenant e.tag with
    | none => .next s
    | some i =>
      match s.scanPieces queue i e with
      | none => .next s
      | some (plan, lists) =>
        let here := (s.planEntries i e plan).flatMap (s.unitsHere queue i lists)
        let held := (s.unit queue).ahead
        let coming := s.unitsComing queue
        let own (a : Nat × Nat × Nat) : Bool := a.1 == e.tenant && a.2.1 == e.tag
        let mine := (held ++ coming).filter own
        let fresh := here.eraseDups.filter fun u => !(mine.any fun a => a.2.2 == u)
        let all := held.length + coming.length
        let want := fresh.take (if e.outcome == .started then 128 - mine.length else 128 - all)
        -- a running SCAN takes the slots of units held for others, the earliest read first
        let others := (held.filter fun a => !own a).take (all + want.length - 128)
        let s := s.modUnit queue fun u => { u with
          ahead := u.ahead.filter fun a => !others.contains a
          aheadCount := satAdd32 u.aheadCount others.length }
        let s := s.modEntry queue index fun x => { x with begun := true }
        .next (want.foldl (fun (s : State) u =>
          match s.unitPlace i.tenant u with
          | some (sb, p, none) => s.request sb p (u % 4) (.scan e.tenant e.tag u (chanOf queue))
          | _ => s) s)

/-! ### EMIT and CTX_RELEASE -/

/-- Where EMIT writes the list of a context. -/
def State.emitPiece (s : State) (i : Invocation) (e : QEntry) (x len : Nat) : Except StopReason Span :=
  s.piece i (fld e.desc 16 63 0)
    (fld e.desc 32 31 0 * e.iter0 * 64 + fld e.desc 36 31 0 * e.lane * 64 + x * fld e.desc 24 31 0) len

/-- The start checks of EMIT (R419, R423). -/
def State.emitWork (q : Nat) (s : State) (i : Invocation) (e : QEntry) : Except StopReason Work := do
  let d := e.desc
  let xs := ctxsOf (fld d 28 3 0)
  let stride := fld d 24 31 0
  need (zeroFields d [(28, 7, 7), (29, 23, 0), (40, 191, 0)]) .badBody
  let skipped := !s.scanGroup i (groupOf q)
  let k (x : Nat) : Nat := if !skipped && s.holdsCtx q e x then (s.context q x).heapK else 0
  let dst ← if xs.isEmpty then pure [] else do
    let p ← s.emitPiece i e 0 0
    pure [p]
  need (dst.all fun p => p.space.mayTile && p.off % 64 == 0 && stride % 64 == 0) .badBody
  let ps ← xs.mapM fun x => s.emitPiece i e x (16 + 16 * k x)
  s.needInside i ps
  if skipped then return { writes := ps, ctxs := xs, cost := 32 + 32 * xs.length }
  need (xs.all fun x => s.holdsCtx q e x && decide (16 + 16 * k x ≤ stride)) .badBody
  return { writes := ps, ctxs := xs, cost := 32 + (xs.map fun x => 32 + 2 * (s.context q x).heap.length).foldl (· + ·) 0 }

/-- EMIT. -/
def execEmit (row : EngineRow) (s : State) : Out :=
  .next (s.runOp row.queue 3 0x03 (State.emitWork row.queue) fun s i e w =>
    let d := e.desc
    let xs := ctxsOf (fld d 28 3 0)
    if !s.scanGroup i (groupOf row.queue) then
      ((s.spanWrites i (w.writes.map fun p => (p, listBytes (fld d 28 6 6) []))).1, .done)
    else match s.fetch i [] (xs.map (s.heapWords row.queue)) [] row.bad with
    | (s, some f) => (s.blur i w.writes, .failed .memory f)
    | (s, none) =>
      let outs := (xs.zip w.writes).map fun x =>
        let c := s.context row.queue x.1
        (x.2, listBytes (if c.kind = 3 then 1 else 0) c.heap)
      let s := (s.spanWrites i outs).1
      if fld d 28 5 5 = 1 then (s, .done)
      else (xs.foldl (fun (s : State) x => s.modContext row.queue x fun c => { c with heap := [] }) s, .done))

/-- Free the contexts of a list that an invocation holds. -/
def State.freeCtxs (s : State) (q : Nat) (e : QEntry) (xs : List Nat) : State :=
  xs.foldl (fun (s : State) x =>
    if s.holdsCtx q e x then s.modContext q x fun c => { c with holder := none } else s) s

/-- The start checks of CTX_RELEASE. -/
def State.ctxReleaseWork (_ : State) (_ : Invocation) (e : QEntry) : Except StopReason Work := do
  need (zeroFields e.desc [(16, 7, 4), (17, 375, 0)]) .badBody
  return { ctxs := ctxsOf (fld e.desc 16 3 0), cost := 16 }

/-- CTX_RELEASE. -/
def execCtxRelease (queue : Nat) (s : State) : Out :=
  .next (s.runOp queue 3 0x04 State.ctxReleaseWork fun s i e _ =>
    if s.scanGroup i (groupOf queue) then (s.freeCtxs queue e (ctxsOf (fld e.desc 16 3 0)), .done) else (s, .done))

end Sys2Proof.Machine
end

