-- ==== Sys2Proof/Machine/Engines.lean ====
section
/-!
DEFINITION. Engines.lean: readiness, arbitration between tenants, the end of engine commands, internal faults and engine
self-test (chapter 07).
-/

namespace Sys2Proof.Machine

/-! ### The work of a queued command -/

/-- The start checks of a command by its queue and `OP`: a reserved `OP` is a bad body. -/
def State.workOf (s : State) (q : Nat) (i : Invocation) (e : QEntry) : Except StopReason Work :=
  match (classOfQueue q).1, opOf e.desc with
  | 0, _ => s.dmaWork i e
  | 1, 1 => State.mmaWork q s i e
  | 1, 2 => s.accZeroWork i e
  | 1, 3 => s.accLoadWork i e
  | 2, 1 => State.tileWork q s i e
  | 2, 2 => State.tileReduceWork q s i e
  | 2, 3 => State.softmaxWork q s i e
  | 2, 4 => State.streamWork q s i e
  | 2, 5 => State.streamReduceWork q s i e
  | 2, 6 => s.maskSetWork i e
  | 2, 7 => s.gougeReleaseWork i e
  | 2, 8 => State.listWork false s i e
  | 2, 9 => State.listWork true s i e
  | 3, 1 => State.loadCtxWork q s i e
  | 3, 2 => State.scanWork q s i e
  | 3, 3 => State.emitWork q s i e
  | 3, 4 => s.ctxReleaseWork i e
  | 4, 1 | 4, 2 => s.burlWork i e
  | 5, _ => s.peerWork i e
  | _, _ => .error .badBody

/-- The work of an entry, an image move included: it passes any check. -/
def State.entryWork (s : State) (q : Nat) (e : QEntry) : Except StopReason Work :=
  match s.invocation? e.tenant e.tag with
  | none => .ok {}
  | some i =>
    let size := match e.origin with
      | .imagePersist => ((s.model? i.tenant i.slot).map (·.persistBytes)).getD 0
      | _ => ((s.model? i.tenant i.slot).map (·.imageLen)).getD 0
    let home : Span := { space := .home i.slot, off := 0, len := size }
    match e.origin with
    | .word => s.workOf q i e
    | .imageLoad => .ok { writes := [home], cost := 32 + ceilDiv size 512 }
    | .imagePersist => .ok { reads := [home], cost := 32 + ceilDiv size 512 }
/-- What a command names by its descriptor alone: the tiles, registers, contexts and flow that it uses or claims. One that
fails its start checks waits for these like any other (R239, R354, R372, R404). -/
def State.named (s : State) (q : Nat) (e : QEntry) : Work :=
  let d := e.desc
  let here := match s.invocation? e.tenant e.tag with
    | some i => s.scanGroup i (groupOf q)
    | none => false
  match (classOfQueue q).1, opOf d with
  | 1, o =>
    if o = 0 || o > 3 || (o = 1 && fld d 32 16 0 = 0) then {}
    else
      let claims := o ≠ 1 || fld d 37 3 3 = 1
      { accR := if claims then [] else [accTile e], accW := [accTile e]
        claimAcc := if claims then some (accTile e, .fp32) else none }
  | 2, 6 => { claimMask := some (fld d 16 2 0) }
  | 2, o =>
    if o = 0 || o > 5 then {}
    else gougeWork e [] [] (if o = 3 then [] else chainTiles (chainOf d (if o = 1 || o = 4 then 4 else 3))) [] 0
  | 3, 1 => { ctxs := ctxNames e, claimCtx := if here then some (loadCtx e) else none }
  | 3, 2 => { ctxs := ctxNames e, scan := here }
  | 3, _ => { ctxs := ctxNames e }
  | 5, _ => { flow := some (peerFlow e) }
  | _, _ => {}
/-- The work of an entry for readiness. -/
def State.workFor (s : State) (q : Nat) (e : QEntry) : Work :=
  match s.entryWork q e with
  | .ok w => w
  | .error _ => s.named q e
/-- The fixed part of an engine's cost (R242). -/
def fixedCost (cls : Nat) : Nat :=
  match cls with
  | 0 => 32
  | 1 | 2 => 16
  | 3 => 32
  | 4 => 256
  | _ => 32

/-! ### Readiness (R239, R354, R406, R562) -/

/-- Has a command started and not ended? -/
def QEntry.active (e : QEntry) : Bool := e.outcome != .queued
/-- The queue that shares accumulator tiles with a queue: Gouge slice n for Lathe unit n, and the other way round. -/
def pairQueue (q : Nat) : Option Nat := if 8 ≤ q && q < 24 then some (q + 16) else if 24 ≤ q && q < 40 then some (q - 16) else none
/-- Works of the started commands of a queue, with their tenants. -/
def State.activeWorks (s : State) (q : Nat) : List (Nat × Work) :=
  ((s.queue q).entries.filter (·.active)).filterMap fun e => match s.entryWork q e with
    | .ok w => some (e.tenant, w)
    | .error _ => none
/-- Do two lists share an element? -/
def meet (a b : List Nat) : Bool := a.any b.contains
/-- Does the scoreboard hold a command back because of a started one (condition 2 of R239)? -/
def State.conflict (s : State) (t : Nat) (w : Work) (ot : Nat) (o : Work) : Bool :=
  let share (a b : List Span) : Bool := ot == t && a.any fun p => b.any (s.shareGranule t p)
  share w.writes (o.reads ++ o.writes) || share w.reads o.writes
    || meet w.accW (o.accR ++ o.accW) || meet w.accR o.accW
    || meet w.tileW (o.tileR ++ o.tileW) || meet w.tileR o.tileW
/-- The conflict on accumulator tiles alone, between a Lathe unit and its Gouge slice. -/
def accConflict (w o : Work) : Bool := meet w.accW (o.accR ++ o.accW) || meet w.accR o.accW
/-- Does an exchange of the group hold scans at a Rasp queue back (R129)? -/
def State.scansHeld (s : State) (q : Nat) : Bool :=
  match s.pers.job with
  | .drain _ g _ _ | .writing _ g => g == groupOf q
  | _ => false

/-- Is entry `k` of a queue ready? One whose start checks fail starts in order to fail, when nothing that it names holds it
back. -/
def State.ready (s : State) (q k : Nat) (e : QEntry) : Bool :=
  let w := s.workFor q e
  e.outcome == .queued && s.waitMet e && !(s.queue q).bist && (s.queue q).offline.isNone
    && decide (s.weight e.tenant (classOfQueue q).1 ≠ 0)
    && !((s.activeWorks q).any fun o => s.conflict e.tenant w o.1 o.2)
    && !(match pairQueue q with
      | some p => (s.activeWorks p).any fun o => accConflict w o.2
      | none => false)
    && s.claimsReady q e w
    && (w.units.all (s.unitReady e.tenant))
    && (match w.flow with
      | some f => (s.flow f).holder.isNone
      | none => true)
    && !(w.scan && s.scansHeld q)
    && !(((s.queue q).entries.take k).any fun o =>
      e.origin == .word && o.origin == .word && (classOfQueue q).1 == 3 && o.tenant == e.tenant && o.tag == e.tag
        && meet (ctxNames o) (ctxNames e))

/-! ### The cache pools (R314 to R317) -/

/-- May a command at a queue read a read-only buffer? -/
def readsUnits (q : Nat) : Bool := q < 8 || (74 ≤ q && q < 78)
/-- The units of a tenant's pool that a ready or a started command reads. -/
def State.heldUnits (s : State) (t : Nat) (m : Option Nat) : List Nat :=
  ((List.range 78).filter readsUnits).flatMap fun q => (s.queue q).entries.zipIdx.flatMap fun x =>
    if x.1.tenant = t && x.1.origin = .word && (x.1.outcome == .started || s.ready q x.2 x.1) then
      match s.entryWork q x.1 with
      | .ok w => (w.units.filter (·.1 == m)).map (·.2)
      | .error _ => []
    else []

/-- A unit takes the lowest free slot of a pool; a granule is taken with its first slot (R314)
(DESIGN CHOICE, log entry 49). -/
def State.placeUnit (s : State) (t : Nat) (m : Option Nat) (u : Nat) : State :=
  let p := s.pool t m
  let slot := ((List.range (p.slots.length + 1)).find? fun k => !p.slots.any fun x => x.2 == k).getD 0
  let more := if slot / 16 < p.place.length then [] else s.chooseDram 1
  let s := s.modPool t m fun p => { p with slots := (u, slot) :: p.slots, place := p.place ++ more }
  match (p.place ++ more)[slot / 16]? with
  | none => s
  | some g => s.modStack g.stack fun k => { k with
      poison := k.poison.filter fun w => w.1 / 8 != 16 * g.index + slot % 16 }

/-- Start the read of one missing unit: a full pool gives up its least recently used unit that no ready or started command
reads, and where there is none the unit waits. -/
def State.bringUp (s : State) (t : Nat) (x : Option Nat × Nat) : State :=
  let p := s.pool t x.1
  if p.units.contains x.2 || p.coming.contains x.2 then s
  else match s.media.extents.find? fun e => e.tenant == t && e.extent == x.2 / 256 with
  | none => s
  | some e =>
    if (e.bad.lookup (x.2 % 256)).isSome then s
    else
      let full := decide (p.units.length + p.coming.length ≥ s.poolUnits t x.1)
      let held := if full then s.heldUnits t x.1 else []
      let victim := if full then p.units.reverse.find? fun u => !held.contains u else none
      if full && victim.isNone then s
      else
        let s := s.modPool t x.1 fun p => { p.drop (fun u => some u == victim) with coming := x.2 :: p.coming }
        let s := (s.placeUnit t x.1 x.2).modTenant t fun y => { y with roMisses := s.now :: y.roMisses }
        s.request e.superblock (64 * e.position + x.2 % 256 / 4) (x.2 % 4) (.bringUp t x.1 x.2)

/-- BRING_UP_START: the wait of the queued command holds, and the reads of its missing units begin (R315)
(DEDUCED, log entry 65). -/
def execBringUpStart (queue index : Nat) (s : State) : Out :=
  if !s.engines then .next s else
  match (s.queue queue).entries[index]? with
  | none => .next s
  | some e =>
    if !readsUnits queue || e.origin ≠ .word || e.outcome ≠ .queued || !s.waitMet e then .next s
    else match s.entryWork queue e with
    | .error _ => .next s
    | .ok w =>
      let s := s.modEntry queue index fun x => { x with begun := true }
      .next (w.units.foldl (fun (s : State) x => s.bringUp e.tenant x) s)

/-! ### Arbitration (R242 to R244) -/

/-- Is an instance free? A peer instance is while every frame of its commands has been handed out. -/
def State.instanceFree (s : State) (q : Nat) : Bool :=
  (s.queue q).entries.all fun e =>
    e.outcome != .started || (e.begun && decide (q ≥ 74) && match (s.flow (peerFlow e)).holder with
      | some h => decide (h.sent ≥ h.frames)
      | none => true)
/-- The oldest expedited ready command of a tenant, else its oldest ready one (R243). `l`: the ready entries
(DEDUCED, log entry 54). -/
def pick (l : List (Nat × QEntry)) (t : Nat) : Option (Nat × QEntry) :=
  (l.find? fun x => x.2.tenant == t && x.2.expedite).or (l.find? fun x => x.2.tenant == t)
/-- The decision of R242: the tenant chosen, the deficits and the pointer. The first argument bounds the rounds. -/
def decideTenant (isReady : Nat → Bool) (weight : Nat → Nat) : Nat → List Int → Nat → Option Nat × List Int × Nat
  | 0, d, p => (none, d, p)
  | f + 1, d, p =>
    if isReady p && decide (d.getD p 0 > 0) then (some p, d, p)
    else
      let d := if isReady p then d else d.set p 0
      let p := (p + 1) % 16
      let d := if isReady p then d.modify p (· + (weight p * 256 : Nat)) else d
      decideTenant isReady weight f d p
/-- Rounds that any deficits of these sizes need. -/
def roundsFor (d : List Int) : Nat := 16 * ((d.map Int.natAbs).foldl max 0 / 256 + 3)

/-- What a command writes becomes undefined
(DESIGN CHOICE, log entries 64, 99). -/
def State.blurWork (s : State) (i : Invocation) (q : Nat) (w : Work) : State :=
  let s := s.blur i w.writes
  let s := w.accW.foldl (fun (s : State) t =>
    let (r, s) := s.drawRegion
    s.modPair q fun p => { p with acc := p.acc.modify t fun x => { x with data := r } }) s
  w.tileW.foldl (fun (s : State) t =>
    let (r, s) := s.drawRegion
    s.modPair q fun p => { p with tiles := p.tiles.modify t fun x => { x with data := r } }) s
/-- Is a started command ordered behind an earlier one by the scoreboard of its instance, or of its Lathe and Gouge pair?
(DESIGN CHOICE, log entry 63). -/
def State.behind (s : State) (t q : Nat) (w : Work) (x : Touch) : Bool :=
  (x.queue == q && (s.conflict t w t x.work || meet w.ctxs x.work.ctxs))
    || (pairQueue q == some x.queue && accConflict w x.work)
/-- A command starts: it is behind the commands that had ended before its wait held, or before it was issued, and those that
the scoreboard has held it for. Where an earlier command of its invocation at another instance that touches a granule of its
own is none of these, the data of the invocation are undefined from then on (R240)
(DESIGN CHOICE, log entry 63). -/
def State.order (s : State) (q : Nat) (e : QEntry) (w : Work) : State :=
  match if e.origin = .word then s.invocation? e.tenant e.tag else none with
  | none => s
  | some i =>
    let before := i.trace.filter (s.behind e.tenant q w)
    let knows := (e.knows ++ ((e.wait.map fun x => s.after x.1).getD [])
      ++ before.flatMap fun x => (i.tag, x.ord) :: x.knows).eraseDups
    let clash := i.trace.any fun x => x.queue != q && s.races e.tenant w x.work && !knows.contains (i.tag, x.ord)
    let s := s.modInv i.ref fun i => { i with
      trace := i.trace ++ [{ ord := e.ord, queue := q, work := w, knows := knows }], raced := i.raced || clash }
    if clash then i.trace.foldl (fun (s : State) x => s.blurWork i x.queue x.work) s else s

/-- An invocation that is being stopped and has no command left posts its completion. -/
def State.reap (s : State) (t tag : Nat) : State :=
  match s.invocation? t tag with
  | none => s
  | some i => if i.phase = .stopping && !s.hasCommands i then s.endInv i (.vendor i.endSc) i.endDw0 else s
/-- Remove entry `k` of a queue; a slot is free, so that a waiting load may be placed. -/
def State.dropEntry (s : State) (q k : Nat) : State :=
  (s.modQueue q fun x => { x with entries := x.entries.eraseIdx k }).pumpWaiters
/-- A command fails: its entry is removed and its invocation stops. -/
def State.failEntry (s : State) (q k : Nat) (e : QEntry) (why : StopReason) (faultNo : Nat) : State :=
  let s := s.dropEntry q k
  let s := match s.invocation? e.tenant e.tag with
    | none => s
    | some i => s.faultInv i why faultNo q e.word
  s.reap e.tenant e.tag

/-- Start entry `k`: its cost is charged and its claims take effect; a failing start check ends it before any access. -/
def State.startEntry (s : State) (q k : Nat) (e : QEntry) : State :=
  match s.entryWork q e with
  | .error r => (s.charge q e.tenant (fixedCost (classOfQueue q).1)).failEntry q k e r 0
  | .ok w =>
    let s := (s.charge q e.tenant w.cost).modEntry q k fun x => { x with outcome := .started, begun := false }
    let s := (s.order q e w).claim q e w
    let s := if w.flow.isSome then s.takeFlow q e else s
    if w.scan then s.shellEdge (chanOf q) 0
    else if (classOfQueue q).1 = 4 then s.clearWords 4 (frameWords * (q - 72)) frameWords
    else s

/-- ENGINE_ARBITRATE: a free instance starts a ready command. A command at an instance that is offline ends
(DESIGN CHOICE, log entries 62, 91). -/
def execEngineArbitrate (queue : Nat) (s : State) : Out :=
  if !s.engines then .next s else
  match (s.queue queue).offline with
  | some f => match (s.queue queue).entries with
    | [] => .next s
    | e :: _ => .next (s.failEntry queue 0 e .instanceOffline f)
  | none =>
    if !s.instanceFree queue then .next s
    else
      let l := ((s.queue queue).entries.zipIdx.filter fun x => s.ready queue x.2 x.1).map fun x => (x.2, x.1)
      if l.isEmpty then .next s
      else
        let isReady (t : Nat) : Bool := l.any fun x => x.2.tenant == t
        let d := (s.queue queue).deficits
        let r := decideTenant isReady (fun t => s.weight t (classOfQueue queue).1) (roundsFor d) d (s.queue queue).pointer
        let s := s.modQueue queue fun x => { x with deficits := r.2.1, pointer := r.2.2 }
        match r.1.bind (pick l) with
        | none => .next s
        | some (k, e) => .next (s.startEntry queue k e)

/-! ### The end of a command (R256, R259, R266 to R270) -/

/-- Free the accumulator tile `t` of a queue's pair when an entry's invocation holds it. -/
def State.freeAcc (s : State) (q t : Nat) (e : QEntry) : State :=
  s.modPair q fun p => { p with acc := p.acc.modify t fun x => if x.holder = some e.holder then { x with holder := none } else x }
/-- Free a Gouge tile when an entry's invocation holds it. -/
def State.freeTile (s : State) (q t : Nat) (e : QEntry) : State :=
  s.modPair q fun p => { p with tiles := p.tiles.modify t fun x => if x.holder = some e.holder then { x with holder := none } else x }
/-- A SCAN ends on its channel, in whatever way: line 1 of its slice rises (Table 13-5). -/
def State.scanEnds (s : State) (q : Nat) (e : QEntry) : State :=
  match s.invocation? e.tenant e.tag with
  | none => s
  | some i =>
    if (classOfQueue q).1 = 3 && opOf e.desc = 2 && s.scanGroup i (groupOf q) then s.shellEdge (chanOf q) 1 else s
/-- What a command that has done its work releases as it ends, and the event line that a LOAD_CTX raises. -/
def State.releases (s : State) (q : Nat) (e : QEntry) : State :=
  let inGroup := match s.invocation? e.tenant e.tag with
    | some i => s.scanGroup i (groupOf q)
    | none => false
  match (classOfQueue q).1 with
  | 1 => if fld e.desc 37 4 4 = 1 then s.freeAcc q (accTile e) e else s
  | 2 =>
    if opOf e.desc ≤ 5 && fld e.desc 17 4 4 = 1 then
      match srcKind e.desc with
      | 0 => s.freeAcc q (srcTile e) e
      | 1 => s.freeTile q (srcTile e) e
      | _ => s
    else s
  | 3 => match opOf e.desc with
    | 1 => if inGroup then s.shellEdge (chanOf q) 2 else s
    | 3 => if fld e.desc 28 4 4 = 1 && inGroup then s.freeCtxs q e (ctxsOf (fld e.desc 28 3 0)) else s
    | _ => s
  | _ => s
/-- The bump of a command that has done its work, and what it teaches: the command itself and those before it (R240, R266). What
a command of an invocation whose data are undefined has written is so too
(DESIGN CHOICE, log entry 63). -/
def State.ends (s : State) (q : Nat) (e : QEntry) : State :=
  match s.invocation? e.tenant e.tag with
  | none => s
  | some i =>
    let x := (i.trace.find? (·.ord == e.ord)).getD { ord := e.ord, queue := q, work := {} }
    let s := if i.raced then s.blurWork i q x.work else s
    if e.discard then s else s.bumpAfter e.tenant ((e.tag, e.ord) :: x.knows) e.bump

/-- The load of a home ends: the home holds the image, and its invocation runs on, unless it has been stopped (R256). -/
def State.loadEnds (s : State) (q k : Nat) (e : QEntry) : State :=
  match s.invocation? e.tenant e.tag with
  | none => s.dropEntry q k
  | some i =>
    match s.model? i.tenant i.slot with
    | none => s.dropEntry q k
    | some m =>
      let s := (s.spanWrite i { space := .home i.slot, off := 0, len := m.imageLen } (m.image.get 0 m.imageLen)).1
      let s := s.modQueue q fun x => { x with entries := x.entries.eraseIdx k }
      let s : State := if i.phase = .loading then
          (s.modTenant i.tenant fun t => { t with homeValid := i.slot :: t.homeValid }).beginRun i
        else s
      let s := (s.pumpHome i.tenant i.slot).pumpWaiters
      s.reap e.tenant e.tag
/-- The persist of a home ends: its first `PERSIST_BYTES` replace those of the stored image (Table 07-5), unless the invocation
has been stopped: it does not end with success then (R212). -/
def State.persistEnds (s : State) (q k : Nat) (e : QEntry) : State :=
  match s.invocation? e.tenant e.tag with
  | none => s.dropEntry q k
  | some i =>
    let n := ((s.model? i.tenant i.slot).map (·.persistBytes)).getD 0
    let p : Span := { space := .home i.slot, off := 0, len := n }
    match s.demand i.tenant i.tag [p] [] with
    | (s, some f) => s.failEntry q k e .memory f
    | (s, none) =>
      let bs := s.spanGet i p
      let s := if i.phase ≠ .persisting then s
        else s.modModel i.tenant i.slot fun m => { m with image := m.image.put 0 bs }
      (s.dropEntry q k).reap e.tenant e.tag

/-- Is a started peer command at a safe point of a cancellation (R574)? -/
def State.peerCancelled (s : State) (e : QEntry) : Bool :=
  e.outcome == .started && e.begun && classOf e.desc == 5 && match (s.flow (peerFlow e)).holder with
    | some h => s.cancelled h
    | none => false

/-- ENGINE_COMMAND_END: the oldest command of an instance that has come to its end ends; with its work done, its bump is
applied once
(DESIGN CHOICE, log entries 62, 64, 99). -/
def execEngineCommandEnd (queue : Nat) (s : State) : Out :=
  if !s.engines then .next s else
  let ended (e : QEntry) : Bool := match e.outcome with
    | .queued => false
    | .started => e.origin != .word || s.peerCancelled e
    | _ => true
  match (s.queue queue).entries.findIdx? ended with
  | none => .next s
  | some k => match (s.queue queue).entries[k]? with
    | none => .next s
    | some e => match e.origin with
      | .imageLoad => .next (s.loadEnds queue k e)
      | .imagePersist => .next (s.persistEnds queue k e)
      | .word => match e.outcome with
        | .done => .next (((((s.releases queue e).scanEnds queue e).dropEntry queue k).ends queue e).reap e.tenant e.tag)
        | .failed r f => .next ((s.scanEnds queue e).failEntry queue k e r f)
        | .started => .next (((s.endFlow (peerFlow e)).dropEntry queue k).reap e.tenant e.tag)
        | _ => .next (((s.scanEnds queue e).dropEntry queue k).reap e.tenant e.tag)

/-! ### Internal faults and self-test (R261, R369, R370, R610) -/

/-- Free and blur every tile and register of a pair. -/
def State.freshPair (s : State) (q : Nat) : State :=
  let g := s.free
  let s := { s with free := s.free + 24 }
  s.modPair q fun p =>
    { acc := p.acc.zipIdx.map fun x => { kind := x.1.kind, holder := none, data := { gen := g + x.2 + 1 } }
      tiles := p.tiles.zipIdx.map fun x => { holder := none, data := { gen := g + 8 + x.2 + 1 } }
      masks := p.masks.map fun x => { x with holder := none } }
/-- An instance goes offline: every command at it ends, with one fault number. A Lathe unit and its Gouge slice go
together
(DEDUCED, log entry 87). -/
def State.goOffline (s : State) (q : Nat) : State :=
  if (s.queue q).offline.isSome || q ≥ 78 then s
  else
    let qs := q :: (pairQueue q).toList
    let es := qs.flatMap fun p => (s.queue p).entries.map fun e => (p, e)
    let (f, s) := s.newFault
    let s := s.health { event := 3, queue := q, faultNo := f, detail := bytesOfLe 4 es.length }
    let s := qs.foldl (fun (s : State) p => s.modQueue p fun x => { x with entries := [], offline := some f, bist := false }) s
    let s := if (pairQueue q).isSome then s.freshPair q else s
    let s := es.foldl (fun (s : State) x =>
      if x.2.origin == .word && classOf x.2.desc == 5 && x.2.outcome == .started then s.endFlow (peerFlow x.2) else s) s
    let s := es.foldl (fun (s : State) x =>
      let s := match s.invocation? x.2.tenant x.2.tag with
        | none => s
        | some i => s.faultInv i .instanceOffline f x.1 x.2.word
      s.reap x.2.tenant x.2.tag) s
    s.pumpWaiters

/-- ENGINE_INTERNAL_FAULT
(DEDUCED, log entry 87). -/
def execEngineInternalFault (queue : Nat) (s : State) : Out := if !s.engines then .next s else .next (s.goOffline queue)

/-- May engine self-test take an instance? -/
def State.bistMayTake (s : State) (q : Nat) : Bool :=
  let qs := q :: (pairQueue q).toList
  decide (q < 78) && (qs.all fun p => (s.queue p).entries.isEmpty && (s.queue p).offline.isNone)
    && !(s.queues.any (·.bist))
    && ((pairQueue q).isNone || (s.pair q).acc.all fun x => x.holder.isNone)
    && ((classOfQueue q).1 != 3 || (s.unit q).ctxs.all fun x => x.holder.isNone)
/-- ENGINE_BIST: self-test takes an idle instance out of arbitration; at the next event of it the instance returns, or it
goes offline. A Lathe and Gouge pair is tested together. -/
def execEngineBist (queue : Nat) (pass : Bool) (s : State) : Out :=
  if !s.engines then .next s else
  let qs := queue :: (pairQueue queue).toList
  let set (s : State) (b : Bool) : State := qs.foldl (fun (s : State) p => s.modQueue p fun x => { x with bist := b }) s
  if (s.queue queue).bist then
    let s := set s false
    if !pass then .next (s.goOffline queue)
    else if (pairQueue queue).isSome then .next (s.freshPair queue)
    else .next s
  else if s.bistMayTake queue then .next (set s true)
  else .next s

end Sys2Proof.Machine
end

