-- ==== Sys2Proof/Machine/Watermark.lean ====
section
/-!
DEFINITION. Watermark.lean: the levels of Table 09-10, and how a watermark latches its crossings (R325 to R330).
-/

namespace Sys2Proof.Machine

/-- `a` in per mille of `b`, rounded down (R329). -/
def perMille (a b : Nat) : Nat := if b = 0 then 0 else a * 1000 / b
/-- Suspends of the erase in progress on a die. -/
def Die.eraseSuspends (d : Die) : Nat :=
  (d.running.toList ++ d.suspended.toList).foldl (fun m o => match o.kind with
    | .erase .. | .directErase .. => max m o.suspends
    | _ => m) 0

/-- The level of module watermark `w`
(DESIGN CHOICE, log entry 21). -/
def State.moduleLevel (s : State) (w : Nat) : Nat :=
  if w = 0 then perMille (4096 * s.dirtyBlocks) s.dirtyLimit
  else if w = 1 then s.deferredUnread
  else if w < 6 then 1000 - s.freeLevel (w - 2)
  else if w < 10 then
    if s.role (w - 6) = some .index then
      ((s.groupDies (w - 6)).map fun x => (s.die x.1 x.2).eraseSuspends).foldl max 0
    else 0
  else if w < 14 then
    let b := s.wearBounds (w - 10)
    b.1 - b.2
  else if w < 18 then
    perMille (s.media.retiredBlocks.filter fun a => a.channel / 8 == w - 14).length (if s.big then 178176 else 89088)
  else if w < 22 then (s.stack (w - 18)).remap.length
  else (s.peer.retxTimes.filter fun x => x.1 == w - 22 && decide (s.now < x.2 + 1000000)).length

/-- The level of watermark `w` of tenant `t`
(DESIGN CHOICE, log entries 21, 22). -/
def State.tenantLevel (s : State) (t w : Nat) : Nat :=
  let x := s.tenant t
  match s.record t with
  | none => 0
  | some r => match w with
    | 0 => perMille (x.reserved (·.tile) + x.allocated .tile) r.tileGranules
    | 1 => perMille (x.reserved (fun q => q.pinned + q.writeback + q.scratch + q.rocache)
        + x.allocated .pinned + x.allocated .writeback + x.allocated .scratch)
        (r.dramPinned + r.dramWriteback + r.dramScratch + r.dramRocache)
    | 2 => perMille ((x.buffers.map fun b => b.dirty.length).foldl (· + ·) 0) (16 * r.dramWriteback)
    | 3 => (x.roMisses.filter fun m => decide (s.now < m + 1000)).length
    | 4 => x.spillPeak
    | 5 =>
      let top := ((s.ctrs.values.filter fun c => s.ownsCtr t c.1).map fun c => s.ctr c.1).foldl max 0
      if top = 0 then 0 else Nat.log2 top + 1
    | 6 => x.foreignFrees
    | _ => (x.deadlines.filter fun m => decide (s.now < m + 1000000)).length

/-- A watermark, when there is one at this place. -/
def State.mark? (s : State) (tenant : Option Nat) (w : Nat) : Option Watermark :=
  match tenant with
  | none => s.marks[w]?
  | some t => if t < s.tenants.length then (s.tenant t).watermarks[w]? else none
/-- Replace a watermark. -/
def State.setMark (s : State) (tenant : Option Nat) (w : Nat) (x : Watermark) : State :=
  match tenant with
  | none => { s with marks := s.marks.set w x }
  | some t => s.modTenant t fun y => { y with watermarks := y.watermarks.set w x }
/-- Write a CROSSING or RELATCH entry, which raises an event of code 0xC6. -/
def State.markEntry (s : State) (kind : Nat) (tenant : Option Nat) (w : Nat) (x : Watermark) : State :=
  match tenant with
  | none => s.log 0xC6 (watermarkEntry kind 0 0 w x 0 0)
  | some t => s.log 0xC6 (watermarkEntry kind 1 t w x 0 0) (owner := t + 1)
/-- Is a level at or above a mark? The mark 0xFFFF_FFFF is never reached. -/
def reaches (level mark : Nat) : Bool := decide (level ≥ mark) && mark != 0xFFFFFFFF
/-- An upward crossing: it counts, and with the latch clear it latches, with an entry (R325). -/
def State.crossing (s : State) (tenant : Option Nat) (w : Nat) (x : Watermark) : State :=
  let x := { x with count := min (x.count + 1) 0xFFFF }
  if x.latch then s.setMark tenant w x
  else
    let x := { x with latch := true }
    (s.setMark tenant w x).markEntry 1 tenant w x

/-- WATERMARK_EVALUATE: the level is computed anew (R325)
(DESIGN CHOICE, log entry 21). -/
def execWatermarkEvaluate (tenant : Option Nat) (w : Nat) (s : State) : Out := s.whenOn <|
  match s.mark? tenant w with
  | none => .next s
  | some x =>
    let v := match tenant with
      | none => s.moduleLevel w
      | some t => s.tenantLevel t w
    let up := reaches v x.mark && !reaches x.level x.mark
    let x := { x with level := v, peak := max x.peak v }
    if up then .next (s.crossing tenant w x) else .next (s.setMark tenant w x)

/-- WM_LATCH_CLEAR: the latch is cleared, and set again at once while the level is at or above the mark (R326). -/
def execWmLatchClear (tenant : Option Nat) (w : Nat) (s : State) : Out := s.whenOpen <|
  match s.mark? tenant w with
  | none => .next s
  | some x =>
    let again := reaches x.level x.mark
    let x := { x with latch := again, peak := x.level }
    let s := s.setMark tenant w x
    if again then .next (s.markEntry 2 tenant w x) else .next s

/-- WM_MARK_WRITE: every write that leaves the mark at or below the level is an upward crossing (R326, Table 09-12: whatever the
mark was before; DEDUCED, log entry 20). -/
def execWmMarkWrite (tenant : Option Nat) (w : Nat) (value : Dword) (s : State) : Out := s.whenOpen <|
  match s.mark? tenant w with
  | none => .next s
  | some x =>
    let up := reaches x.level value.toNat
    let x := { x with mark := value.toNat }
    if up then .next (s.crossing tenant w x) else .next (s.setMark tenant w x)

/-- WM_CLR_COUNT (Table 09-9). -/
def execWmClrCount (tenant : Option Nat) (w : Nat) (s : State) : Out := s.whenOpen <|
  match s.mark? tenant w with
  | none => .next s
  | some x => .next (s.setMark tenant w { x with count := 0 })

end Sys2Proof.Machine
end

