-- ==== Sys2Proof/Machine/Settings.lean ====
section
/-!
DEFINITION. Settings.lean: the fields that SETTINGS_DEFAULTS and the settings store may name, how a write reaches
them (R10, R13, R93, R94), and the settings store in the boot NOR (R596 to R601).
-/

namespace Sys2Proof.Machine

/-- A settable field: its bits, whether it is RWL, and its defined encodings. -/
structure SettingField where
  hi : Nat
  lo : Nat
  locked : Bool := false
  ok : Nat → Bool := fun _ => true

/-- The places of the watermarks of the module window: tenant (none for the module) and number (R327). -/
def markAt (off : Nat) : Option (Option Nat × Nat) :=
  if 0x060000 ≤ off ∧ off < 0x060000 + 16 * 26 ∧ off % 16 = 0 then some (none, (off - 0x060000) / 16)
  else if 0x061000 ≤ off ∧ off < 0x062000 ∧ off % 16 = 0 ∧ off % 256 < 128 then
    some (some ((off - 0x061000) / 256), off % 256 / 16)
  else none

/-- The RW and RWL fields of the MEDIA, PEER and WMARK registers at an offset of the module window
(Tables 15-11, 15-12, 16-6, 18-9, 09-9). -/
def settingFields (off : Nat) : List SettingField :=
  if off = 0x040004 then [{ hi := 19, lo := 0, ok := fun v => decide (500 ≤ v ∧ v ≤ 999999) }]
  else if off = 0x040008 then [{ hi := 2, lo := 0, ok := fun v => decide (1 ≤ v ∧ v ≤ 5) }]
  else if off = 0x04000C then [{ hi := 5, lo := 0 }, { hi := 11, lo := 8 }]
  else if off = 0x040030 then
    [{ hi := 2, lo := 0, ok := fun v => decide (v ≤ 4) }, { hi := 7, lo := 4 },
     { hi := 9, lo := 8, ok := fun v => decide (v ≤ 1) }]
  else if off = 0x040040 then [{ hi := 4, lo := 0, ok := fun v => decide (1 ≤ v ∧ v ≤ 30) }]
  else if off = 0x040044 then [{ hi := 11, lo := 0, ok := fun v => decide (50 ≤ v ∧ v ≤ 2000) }]
  else if off = 0x050000 then
    [{ hi := 15, lo := 0, locked := true,
       ok := fun v => decide (0x0600 ≤ v) && v != 0x8100 && v != 0x8808 && v != 0x88A8 }]
  else if off = 0x050004 then
    [{ hi := 1, lo := 0, locked := true, ok := fun v => decide (v ≤ 2) }, { hi := 7, lo := 4, locked := true },
     { hi := 11, lo := 8, locked := true }]
  else if off = 0x050008 then
    [{ hi := 13, lo := 0, locked := true, ok := fun v => decide (1024 ≤ v ∧ v ≤ 8192 ∧ v % 1024 = 0) }]
  else if off = 0x05000C then
    [{ hi := 13, lo := 0, ok := fun v => decide (10 ≤ v ∧ v ≤ 10000) },
     { hi := 21, lo := 16, ok := fun v => decide (1 ≤ v) }]
  else if off = 0x050010 then
    [{ hi := 11, lo := 0, locked := true, ok := fun v => decide (1 ≤ v ∧ v ≤ 4094) },
     { hi := 14, lo := 12, locked := true }, { hi := 15, lo := 15, locked := true },
     { hi := 16, lo := 16, locked := true }]
  else if (markAt off).isSome then [{ hi := 31, lo := 0 }]
  else []

/-- What the settable fields of a register hold, at their places in its 32 bits. -/
def State.settingGet (s : State) (off : Nat) : Nat :=
  if off = 0x040004 then s.media.budgetUs
  else if off = 0x040008 then s.media.maxMode
  else if off = 0x04000C then s.media.eraseMax + 2 ^ 8 * s.media.progMax
  else if off = 0x040030 then s.svc.nor.clkSel + 2 ^ 4 * s.svc.nor.dummy + 2 ^ 8 * s.svc.nor.mode
  else if off = 0x040040 then s.media.patrolDays
  else if off = 0x040044 then s.media.wearSpread
  else if off = 0x050000 then s.peer.etype
  else if off = 0x050004 then s.peer.mode + 2 ^ 4 * s.peer.xMinus1 + 2 ^ 8 * s.peer.yMinus1
  else if off = 0x050008 then s.peer.frameMax
  else if off = 0x05000C then s.peer.rtoUs + 2 ^ 16 * s.peer.retryLimit
  else if off = 0x050010 then
    s.peer.vid + 2 ^ 12 * s.peer.pcp + 2 ^ 15 * b2n s.peer.tagEn + 2 ^ 16 * b2n s.peer.pfcEn
  else match markAt off with
    | some (t, w) => ((s.mark? t w).map (·.mark)).getD 0
    | none => 0

/-- Put values into the settable fields of a register. -/
def State.settingPut (s : State) (off v : Nat) : State :=
  if off = 0x040004 then s.modMedia fun m => { m with budgetUs := bits v 19 0 }
  else if off = 0x040008 then s.modMedia fun m => { m with maxMode := bits v 2 0 }
  else if off = 0x04000C then s.modMedia fun m => { m with eraseMax := bits v 5 0, progMax := bits v 11 8 }
  else if off = 0x040030 then
    s.modSvc fun c => { c with nor := { c.nor with clkSel := bits v 2 0, dummy := bits v 7 4, mode := bits v 9 8 } }
  else if off = 0x040040 then s.modMedia fun m => { m with patrolDays := bits v 4 0 }
  else if off = 0x040044 then s.modMedia fun m => { m with wearSpread := bits v 11 0 }
  else if off = 0x050000 then s.modPeer fun p => { p with etype := bits v 15 0 }
  else if off = 0x050004 then
    s.modPeer fun p => { p with mode := bits v 1 0, xMinus1 := bits v 7 4, yMinus1 := bits v 11 8 }
  else if off = 0x050008 then s.modPeer fun p => { p with frameMax := bits v 13 0 }
  else if off = 0x05000C then s.modPeer fun p => { p with rtoUs := bits v 13 0, retryLimit := bits v 21 16 }
  else if off = 0x050010 then
    s.modPeer fun p => { p with vid := bits v 11 0, pcp := bits v 14 12, tagEn := bit v 15, pfcEn := bit v 16 }
  else match markAt off with
    | some (t, w) => match s.mark? t w with
      | some x => s.setMark t w { x with mark := bits v 31 0 }
      | none => s
    | none => s

/-- The minimum of `DUMMY` at a clock selection, or none where the clock is not allowed (Table 15-10). -/
def dummyMin (vio clkSel : Nat) : Option Nat :=
  if vio = 0 then [some 4, some 6, some 8, some 10, some 14].getD clkSel none
  else [some 4, some 6, some 10, some 12, none].getD clkSel none
/-- Is a write of `NOR_CTRL` accepted (R483)? -/
def State.norCtrlOk (s : State) (v : Nat) : Bool :=
  (match dummyMin s.svc.nor.vio (bits v 2 0) with
    | some m => decide (m ≤ bits v 7 4)
    | none => false) && decide (bits v 9 8 ≤ 1) && (bits v 9 8 = 0 || s.svc.nor.sfdpOk)
/-- The two lower-level budgets stay strictly below `FLOOR_MS` (R185). -/
def budgetHolds (floorMs budgetUs rtoUs retryLimit : Nat) : Bool :=
  decide (budgetUs < 1000 * floorMs) && decide (rtoUs * (retryLimit + 1) < 1000 * floorMs)

/-- Merge the bits of `value` that `mask` selects into each field they touch; a field that would then hold a reserved
encoding keeps its value (R93, R13). -/
def mergeFields (cur mask value : Nat) (fs : List SettingField) : Nat :=
  fs.foldl (fun (acc : Nat) (f : SettingField) =>
    let m := bits mask f.hi f.lo
    if m = 0 then acc
    else
      let merged := (bits acc f.hi f.lo ^^^ (bits acc f.hi f.lo &&& m)) ||| (bits value f.hi f.lo &&& m)
      if f.ok merged then setBits acc f.hi f.lo merged else acc) cur

/-- Write the fields of a register that `mask` selects. A write of `NOR_CTRL` that R483 refuses is ignored and
counted; one that would break the retry-budget rule is ignored and logged (R186). -/
def State.settingWrite (s : State) (off mask value : Nat) : State :=
  let v := mergeFields (s.settingGet off) mask value (settingFields off)
  if off = 0x040030 && !s.norCtrlOk v then
    s.modSvc fun c => { c with nor := { c.nor with refused := min (c.nor.refused + 1) 0xFFFF } }
  else if (off = 0x040004 && !budgetHolds s.pcie.floorMs v 0 0)
      || (off = 0x05000C && !budgetHolds s.pcie.floorMs 0 (bits v 13 0) (bits v 21 16)) then
    s.budgetRefused off value
  else s.settingPut off v

/-- NOR_CTRL_WRITE: a write that R483 does not allow, a reserved encoding among them, is ignored whole and counted. -/
def execNorCtrlWrite (value : Dword) (s : State) : Out := s.whenOpen <|
  if s.norCtrlOk value.toNat then .next (s.settingPut 0x040030 value.toNat)
  else .next (s.modSvc fun c => { c with nor := { c.nor with refused := min (c.nor.refused + 1) 0xFFFF } })

/-- The offsets of every register with a settable field that this module has, in rising order (R601). -/
def State.settingOffsets (s : State) : List Nat :=
  [0x040004, 0x040008, 0x04000C, 0x040030, 0x040040, 0x040044, 0x050000, 0x050004, 0x050008, 0x05000C, 0x050010]
    ++ (List.range 26).map (fun (w : Nat) => 0x060000 + 16 * w)
    ++ (List.range s.tenants.length).flatMap fun (t : Nat) =>
      (List.range 8).map fun (w : Nat) => 0x061000 + 256 * t + 16 * w

/-- What a register's settable fields hold once SETTINGS_DEFAULTS entries (offset, mask, value) have been applied in table
order, or the store's value where it holds one (R94). -/
def State.settingResult (s : State) (entries : List (Nat × Nat × Nat)) (off : Nat) : Nat :=
  match s.svc.regSaved.lookup off with
  | some v => mergeFields (s.settingGet off) 0xFFFFFFFF v (settingFields off)
  | none => (entries.filter fun e => e.1 == off).foldl
      (fun (v : Nat) e => mergeFields v e.2.1 e.2.2 (settingFields off)) (s.settingGet off)
/-- Apply SETTINGS_DEFAULTS entries and the store (R94): the combined result of each register is what is judged and
written. -/
def State.applySettings (s : State) (entries : List (Nat × Nat × Nat)) : State :=
  (entries.map (·.1) ++ s.svc.regSaved.map (·.1)).eraseDups.foldl (fun (t : State) off =>
    t.settingWrite off 0xFFFFFFFF (s.settingResult entries off)) s

/-! ### The settings store (R596 to R598, R601) -/

/-- Tags of the defined groups, `MUST_UNDERSTAND` included. -/
def tagFeatures : Nat := 0x8001
def tagRegisters : Nat := 0x8002

/-- The bank that is current: the one with a valid header and the higher `BANK_SEQ`. -/
def Nor.currentBank (n : Nor) : Option SetBank :=
  match n.bankA.valid, n.bankB.valid with
  | true, true => some (if n.bankA.seq ≥ n.bankB.seq then n.bankA else n.bankB)
  | true, false => some n.bankA
  | false, true => some n.bankB
  | false, false => none

/-- The record of a tag that counts: the newest live one whose `CRC` is good (R596). -/
def SetBank.counted (b : SetBank) (tag : Nat) : Option SetRecord :=
  (b.records.filter fun r => r.tag == tag && r.live && r.crcOk).foldl
    (fun (m : Option SetRecord) (r : SetRecord) => match m with
      | none => some r
      | some x => some (if r.seq ≥ x.seq then r else x)) none
/-- The tags that a bank holds records of. -/
def SetBank.tags (b : SetBank) : List Nat := (b.records.map (·.tag)).eraseDups

/-- Is a counted record unreadable to firmware of a revision (R597)?
(DEDUCED, log entry 6). -/
def recordUnreadable (rev : Qword) (r : SetRecord) : Bool :=
  if bits r.tag 14 0 = 1 || bits r.tag 14 0 = 2 then r.major != Config.fwMajor rev (bits r.tag 14 0) else bit r.tag 15
/-- The tag and major that make the store unreadable to firmware of a revision (R597); tag 0 stands for the bank. -/
def Nor.unreadable (n : Nor) (rev : Qword) : Option (Nat × Nat) :=
  match n.currentBank with
  | none => none
  | some b =>
    if b.format != 1 then some (0, b.format)
    else ((b.tags.filterMap b.counted).find? (recordUnreadable rev)).map fun r => (r.tag, r.major)

/-- The `n` 8-byte entries of a record body after its count (log entry 6: the spec gives the body no layout). -/
def bodyEntries (body : List Byte) : List (List Byte) :=
  (List.range (min (leOfBytes (body.take 4)) (body.length / 8))).map fun (k : Nat) => (body.drop (8 + 8 * k)).take 8
/-- A record body: the count of its entries, four reserved bytes, the entries
(DEDUCED, log entry 6). -/
def bodyOf (entries : List (List Byte)) : List Byte :=
  bytesOfLe 4 entries.length ++ bytesOfLe 4 0 ++ entries.flatten
/-- The values of a REGISTERS record: offset and value. -/
def readRegisters (r : SetRecord) : List (Nat × Nat) :=
  (bodyEntries r.body).map fun e => (leOfBytes (e.take 4), leOfBytes (e.drop 4))
/-- The values of a FEATURES record: function, feature, selector and value. -/
def readFeatures (r : SetRecord) : List (Nat × Nat × Nat × Nat) :=
  (bodyEntries r.body).map fun e =>
    (leOfBytes (e.take 1), leOfBytes ((e.drop 1).take 1), leOfBytes ((e.drop 2).take 2), leOfBytes (e.drop 4))

/-- Bytes a record takes, padded to 8 (Table 19-5). -/
def SetRecord.size (r : SetRecord) : Nat := ceilDiv (20 + r.body.length) 8 * 8
/-- Bytes in use in a bank, its header included. -/
def SetBank.used (b : SetBank) : Nat := 64 + (b.records.map (·.size)).foldl (· + ·) 0

/-- Change the boot NOR. -/
def State.modNor (s : State) (f : Nor → Nor) : State := s.modSvc fun c => { c with nor := f c.nor }

/-- Append a record of a tag to the store. The first write to an empty store starts bank A; a full bank is copied to the
other one with each tag's newest live record (R596, R598). A record of a higher minor keeps its unknown fields and its
minor (R597). -/
def Nor.append (n : Nor) (rev : Qword) (tag : Nat) (body : List Byte) : Nor :=
  match n.currentBank with
  | none =>
    { n with
      bankA :=
        { written := true, valid := true, format := 1, seq := 1,
          records := [{ tag := tag, major := Config.fwMajor rev (bits tag 14 0),
                        minor := Config.fwMinor rev (bits tag 14 0), seq := 1, live := true, crcOk := true,
                        body := body }] } }
  | some b =>
    let mine := Config.fwMinor rev (bits tag 14 0)
    let old := b.counted tag
    let newer := match old with
      | some r => decide (mine < r.minor)
      | none => false
    let seq := (b.records.map (·.seq)).foldl max 0 + 1
    let r : SetRecord :=
      { tag := tag, major := Config.fwMajor rev (bits tag 14 0),
        minor := if newer then (old.map (·.minor)).getD mine else mine, seq := seq, live := true, crcOk := true,
        body := if newer then body ++ ((old.map (·.body)).getD []).drop body.length else body }
    let inA := n.bankA.valid && b == n.bankA
    let put (x : SetBank) (toA : Bool) : Nor := if toA then { n with bankA := x } else { n with bankB := x }
    if b.used + r.size ≤ 1048576 then put { b with records := b.records ++ [r] } inA
    else
      put { written := true, valid := true, format := 1, seq := b.seq + 1,
            records := ((b.tags.filter (· != tag)).filterMap b.counted) ++ [r] } (!inA)

/-- Supersede every record of the REGISTERS and FEATURES tags (R601). -/
def Nor.supersede (n : Nor) : Nor :=
  let f (b : SetBank) : SetBank := { b with records := b.records.map fun r =>
    if r.tag = tagFeatures || r.tag = tagRegisters then { r with live := false } else r }
  { n with bankA := f n.bankA, bankB := f n.bankB }

/-- Read the store: what the firmware keeps of the counted records it can read. -/
def State.readStore (s : State) : State :=
  match s.svc.nor.currentBank with
  | none => s.modSvc fun c => { c with regSaved := [], featSaved := [] }
  | some b =>
    let get (tag : Nat) : Option SetRecord :=
      if b.format != 1 then none else (b.counted tag).filter fun r => !recordUnreadable s.svc.revision r
    s.modSvc fun c => { c with
      regSaved := ((get tagRegisters).map readRegisters).getD []
      featSaved := ((get tagFeatures).map readFeatures).getD [] }

/-! ### The boot NOR runs one operation at a time (R583) -/

/-- A firmware slot: 0 A, 1 B. -/
def Nor.fw (n : Nor) (slot : Nat) : Option FwSlot := if slot = 0 then n.fwA else n.fwB
/-- Replace a firmware slot. -/
def Nor.setFw (n : Nor) (slot : Nat) (f : Option FwSlot) : Nor :=
  if slot = 0 then { n with fwA := f } else { n with fwB := f }
/-- A base slot: 0 A, 1 B. -/
def Nor.base (n : Nor) (slot : Nat) : Option BaseSlot := if slot = 0 then n.baseA else n.baseB
/-- Replace a base slot. -/
def Nor.setBase (n : Nor) (slot : Nat) (f : Option BaseSlot) : Nor :=
  if slot = 0 then { n with baseA := f } else { n with baseB := f }

/-- What the start of an operation does: a commit programs its intent and erases the slot's record, and COMMIT_BASE
erases the slot's record with its image (R591, R122). -/
def NorJob.start (j : NorJob) (n : Nor) : Nor :=
  match j with
  | .commit _ slot _ _ _ => { n.setFw slot none with intent := some slot }
  | .base _ slot _ => n.setBase slot none
  | _ => n
/-- Start the operation at the front, unless one runs, a reset is held (R595) or power is being lost. -/
def State.norStart (s : State) : State :=
  if s.svc.nor.busy || s.svc.held.isSome || s.power.stage != .on then s
  else match s.svc.nor.queue with
    | [] => s
    | j :: _ => s.modNor fun n => { j.start n with busy := true }
/-- Queue an operation. -/
def State.norRequest (s : State) (j : NorJob) : State := (s.modNor fun n => { n with queue := n.queue ++ [j] }).norStart

end Sys2Proof.Machine
end

