-- ==== Sys2Proof/Machine/Flags.lean ====
section
/-!
DEFINITION. Flags.lean: the status words of the register tables, computed from the state they show. Each is the
value a read of the register returns; bits no table names are zero (R11).
-/

namespace Sys2Proof.Machine

/-! ### CLKPWR (Tables 02-5 to 02-11) -/

/-- `CEILING_STEP`: the lower of the two ceilings. -/
def Power.ceiling (p : Power) : Nat := min p.powerCeiling p.thermalCeiling
/-- `CLK_CORE`
(DESIGN CHOICE, log entry 26). -/
def State.clkCore (s : State) : Nat :=
  s.power.targetStep + 2 ^ 8 * s.power.currentStep + 2 ^ 16 * s.power.ceiling + 2 ^ 24 * b2n s.power.stepping
/-- `PWR_INPUT`. -/
def State.pwrInput (s : State) : Nat := s.power.vin10mv + 2 ^ 16 * s.power.pin100mw
/-- `HOLDUP`
(DESIGN CHOICE, log entry 36). -/
def State.holdup (s : State) : Nat :=
  s.power.bank10mv + 2 ^ 16 * s.power.capPct + 2 ^ 24 * b2n s.power.charged + 2 ^ 25 * b2n s.writesThrough
    + 2 ^ 26 * b2n s.power.lowCap
/-- `THERM`. -/
def State.therm (s : State) : Nat :=
  s.power.tjMax + 2 ^ 8 * s.power.coolantIn + 2 ^ 16 * s.power.level + 2 ^ 24 * b2n s.power.flowOk
    + 2 ^ 25 * b2n s.power.throttled
/-- `SIDEBAND`. -/
def State.sideband (s : State) : Nat :=
  s.power.slotId.toNat + 2 ^ 8 * s.power.slotOpen.toNat + 2 ^ 16 * b2n s.power.plnStuck + 2 ^ 17 * b2n s.power.smbFault
    + 2 ^ 18 * b2n s.power.ledFault + 2 ^ 19 * b2n s.power.wakeFault

/-! ### PERS and the vendor capability (Tables 04-4, 04-5, 04-9 to 04-11) -/

/-- `STAGE` as a number. -/
def Stage.code : Stage → Nat
  | .empty => 0
  | .receiving => 1
  | .valid => 2
  | .rejected => 3
  | .inUse => 4
/-- The group under a REGION_FABRIC exchange. -/
def PersJob.group : PersJob → Option Nat
  | .drain _ g _ _ => some g
  | .writing _ g => some g
  | _ => Option.none
/-- An ACTIVATE_OWNER or a COMMIT_BASE is in progress. -/
def PersJob.activating : PersJob → Bool
  | .activate _ => true
  | .commitBase .. => true
  | _ => false
/-- The target tenant of a REGION_SHARES exchange. -/
def PersJob.sharesTenant : PersJob → Option Nat
  | .shares _ t _ => some t
  | _ => Option.none
/-- `PERS_STATE`. -/
def State.persState (s : State) : Nat :=
  let p := s.pers
  p.activeKind + 2 ^ 2 * p.baseSlot + 2 ^ 4 * p.stage.code + 2 ^ 7 * b2n p.expired
    + 2 ^ 8 * ((p.job.group.map fun g => 2 ^ g).getD 0) + 2 ^ 12 * b2n p.job.sharesTenant.isSome
    + 2 ^ 13 * p.job.sharesTenant.getD 0 + 2 ^ 17 * p.blockedGroups.toNat + 2 ^ 21 * b2n p.job.activating
/-- `PERS_RESULT`. -/
def State.persResult (s : State) : Nat :=
  s.pers.resStatus + 2 ^ 8 * s.pers.resReason + 2 ^ 16 * s.pers.resStep + 2 ^ 24 * s.pers.resOpcode
/-- `KEY_STATE`. -/
def State.keyState (s : State) : Nat :=
  3 + 2 ^ 8 * ((s.pers.ownerKeys.zipIdx.map fun k => if k.1.isSome then 2 ^ k.2 else 0).foldl (· + ·) 0)
/-- `PERS_DEADLINE`. -/
def State.persDeadline (s : State) : Nat :=
  s.pers.deadlineMs + 2 ^ 16 * b2n s.pers.expired + 2 ^ 17 * b2n (s.pers.activeKind == 2)
/-- `DEADLINE_LEFT`: milliseconds left, rounded down (R124, Table 04-5)
(DESIGN CHOICE, log entry 36). -/
def State.deadlineLeft (s : State) : Nat :=
  match s.pers.armedAt with
  | none => 0
  | some t =>
    if s.pers.expired || s.pers.activeKind = 2 then 0 else (t + 1000 * s.pers.deadlineMs - s.now) / 1000

/-! ### ENGINE (Tables 07-7 to 07-10, 13-9) -/

/-- `ENG_OFFLINE` word `k`. -/
def State.engOffline (s : State) (k : Nat) : Nat :=
  ((List.range 32).map fun (b : Nat) => if (s.queue (32 * k + b)).offline.isSome then 2 ^ b else 0).foldl (· + ·) 0
/-- `SPINDLE_STATE.STATE` of a phase. -/
def InvPhase.code : InvPhase → Nat
  | .waiting => 0
  | .waitHome => 1
  | .loading => 1
  | .running => 2
  | .waitCtr => 3
  | .stalled => 4
  | .draining => 6
  | .drained => 6
  | .persisting => 6
  | .stopping => 7
/-- `SPINDLE_STATE`. -/
def State.spindleState (s : State) (sp : Nat) : Nat :=
  match s.onSpindle sp with
  | none => 0
  | some i => i.phase.code + 2 ^ 4 * i.tenant + 2 ^ 8 * i.slot + 2 ^ 16 * i.tag
/-- `SPINDLE_POS`. -/
def State.spindlePos (s : State) (sp : Nat) : Nat :=
  match s.onSpindle sp with
  | none => 0
  | some i => i.word % 2 ^ 24 + 2 ^ 24 * min (i.stack.length + i.spilled.length) 255
/-- `QUEUE_OCC`. -/
def State.queueOcc (s : State) (q : Nat) : Nat :=
  let es := (s.queue q).entries
  es.length + 2 ^ 16 * (es.zipIdx.filter fun e => s.ready q e.2 e.1).length
/-- `RASP_HELD`. -/
def State.raspHeld (s : State) (c : Nat) : Nat :=
  ((s.rasp.getD c {}).ctxs.zipIdx.map fun x => match x.1.holder with
    | some h => 2 ^ x.2 + 2 ^ (4 + 4 * x.2) * h.tenant
    | none => 0).foldl (· + ·) 0

/-! ### MEMPROT (Tables 17-10, 17-11) -/

/-- `MEM_STATUS`. -/
def State.memStatus (s : State) (k : Nat) : Nat :=
  let x := s.stack k
  x.failedDie.getD 31 + 2 ^ 8 * x.remap.length + 2 ^ 16 * x.retired.length + 2 ^ 24 * b2n x.secondDie
/-- `MEM_SCRUB`. -/
def State.memScrub (s : State) (k : Nat) : Nat :=
  let x := s.stack k
  x.scrubBlock * 1000 / stackBlocks + 2 ^ 16 * min x.scrubPasses 0xFFFF
/-- `REMAP_ENTRY` e of a stack. -/
def State.remapEntry (s : State) (k e : Nat) : Nat :=
  match (s.stack k).remap.find? fun r => r.1 == e with
  | some r => r.2.1 + 2 ^ 31
  | none => 0
/-- `RETIRED_ENTRY` i of a stack. -/
def State.retiredEntry (s : State) (k i : Nat) : Nat :=
  match (s.stack k).retired.lookup i with
  | some p => p + 2 ^ 31
  | none => 0

/-! ### MEDIA (Tables 15-11 to 15-13, 16-6) -/

/-- `MEDIA_ID`. -/
def State.mediaId (s : State) : Nat :=
  b2n s.big + 2 ^ 8 * s.diesPerChannel + 2 ^ 16 * 4 + 2 ^ 20 * (if s.big then 11 else 10) + 2 ^ 24 * 11
/-- `MEDIA_CH_ISOLATED`. -/
def State.chIsolated (s : State) : Nat :=
  (s.media.channels.zipIdx.map fun c => if c.1.isolated then 2 ^ c.2 else 0).foldl (· + ·) 0
/-- `NOR_STATUS`. -/
def State.norStatus (s : State) : Nat :=
  let n := s.svc.nor
  n.vio + 2 * b2n n.sfdpOk + 2 ^ 2 * b2n n.busy + 2 ^ 16 * n.refused
/-- `CH_STATUS` of a channel. -/
def State.chStatus (s : State) (c : Nat) : Nat :=
  let x := s.channel c
  let out := ((List.range s.diesPerChannel).filter fun d => (s.die c d).retired).length
  x.mode + 2 ^ 8 * b2n x.isolated + 2 ^ 9 * b2n x.belowCap + 2 ^ 12 * x.cause + 2 ^ 16 * min x.trainFails 0xFF
    + 2 ^ 24 * out
/-- A slot of the group is dead, or a superblock with blocks to retire awaits relocation (Table 16-6)
(DESIGN CHOICE, log entry 36). -/
def State.groupDegraded (s : State) (g : Nat) : Bool :=
  ((List.range s.setsPerGroup).any fun j => decide ((s.liveSlots g j).length < 16))
    || s.media.superblocks.any fun b => b.group == g && !b.doomed.isEmpty
/-- `ROLE` of a recorded role. -/
def roleCode : Option Role → Nat
  | none => 0
  | some .index => 1
  | some .log => 2
/-- `GROUP_STATE` of a group. -/
def State.groupState (s : State) (g : Nat) : Nat :=
  let x := s.media.groups.getD g {}
  roleCode x.recorded + 2 ^ 2 * b2n x.readOnly + 2 ^ 3 * b2n (s.groupDegraded g) + 2 ^ 4 * x.gcState
    + 2 ^ 16 * s.freeLevel g
/-- `DIRTY_LIMIT_MIB`. -/
def State.dirtyLimitMib (s : State) : Nat := s.dirtyLimit / 1048576
/-- `DIRTY_MIB`, rounded up. -/
def State.dirtyMib (s : State) : Nat := ceilDiv (4096 * s.dirtyBlocks) 1048576

/-! ### PEER (Tables 18-9 to 18-11) -/

/-- `PORT_STATE.STATE`. -/
def PortState.code : PortState → Nat
  | .off => 0
  | .down => 1
  | .training => 2
  | .discovery => 3
  | .held => 4
  | .up => 5
/-- `PORT_STATE` of a port. -/
def State.portState (s : State) (p : Nat) : Nat :=
  let x := s.port p
  x.state.code + 2 ^ 4 * x.heldCause + 2 ^ 8 * x.nbrModule + 2 ^ 16 * x.nbrPort + 2 ^ 18 * b2n x.nbrValid
/-- `FLOW_STATE` of a flow. -/
def State.flowState (s : State) (f : Nat) : Nat :=
  let x := s.flow f
  let st := if (s.flowRec f).isNone then 0 else if x.holder.isSome then 2 else 1
  st + 2 ^ 4 * x.txEpoch + 2 ^ 8 * x.rxEpoch + 2 ^ 12 * x.inFlight.length + 2 ^ 19 * x.heldFrames.length
    + 2 ^ 26 * b2n x.poisoned

/-! ### SVCMBX (Table 19-11) -/

/-- `SLOT_A` and `SLOT_B`. -/
def fwSlotCode : Option FwSlot → Nat
  | none => 0
  | some f => match f.state with
    | .staged => 1
    | .eligible => 2
    | .demoted => 3
/-- `SVC_STATE`. -/
def State.svcState (s : State) : Nat :=
  s.svc.runSlot + 2 ^ 2 * b2n s.svc.dataPath + 2 ^ 3 * b2n s.svc.fallback + 2 ^ 4 * b2n s.svc.bootSel
    + 2 ^ 8 * fwSlotCode s.svc.nor.fwA + 2 ^ 10 * fwSlotCode s.svc.nor.fwB
/-- `WDT_STATUS`: milliseconds to expiry, rounded down
(DESIGN CHOICE, log entry 36). -/
def State.wdtStatus (s : State) : Nat := s.svc.wdtLeftUs / 1000 + 2 ^ 16 * b2n s.svc.held.isSome
/-- Does a lockout run (R605)? -/
def State.lockedOut (s : State) : Bool :=
  match s.svc.monitor.lockoutUntil with
  | some t => decide (s.now < t)
  | none => false
/-- Seconds left of a lockout, rounded up
(DESIGN CHOICE, log entry 36). -/
def State.lockoutLeft (s : State) : Nat :=
  match s.svc.monitor.lockoutUntil with
  | some t => ceilDiv (t - s.now) 1000000
  | none => 0
/-- `MON_STATUS`. -/
def State.monStatus (s : State) : Nat :=
  let m := s.svc.monitor
  (if s.lockedOut then 2 else if m.unlocked then 1 else 0) + 2 ^ 8 * min m.fails 0xFF + 2 ^ 16 * s.lockoutLeft

/-! ### The tenant window (Tables 07-11, 08-5 to 08-7) -/

/-- `TSTAT_RUN`. -/
def Tenant.statRun (t : Tenant) : Nat :=
  b2n t.runOpen + 2 * b2n t.frozen + 4 * b2n t.saturatedFlag + 2 ^ 16 * (t.runSeq % 65536)
/-- `TSTAT_SAT`. -/
def Tenant.statSat (t : Tenant) : Nat :=
  match t.satCtr with
  | some c => c + 2 ^ 31
  | none => 0
/-- `TCTR_RANGE`. -/
def TenantRec.range (r : TenantRec) : Nat := r.counterBase + 2 ^ 16 * r.counterCount
/-- `TQOS_W0`. -/
def TenantRec.qosW0 (r : TenantRec) : Nat :=
  r.weights.dma + 2 ^ 8 * r.weights.lathe + 2 ^ 16 * r.weights.gouge + 2 ^ 24 * r.weights.rasp
/-- `TQOS_W1`. -/
def TenantRec.qosW1 (r : TenantRec) : Nat := r.weights.burl + 2 ^ 8 * r.weights.peer + 2 ^ 16 * r.queueSlots
/-- `TQOS_SPINDLES`. -/
def State.qosSpindles (s : State) (t : Nat) : Nat :=
  let bound := ((s.tenant t).models.flatMap (·.bound)).length
  let busy := (s.invocations.filter fun i => i.tenant == t && i.phase != .waiting).length
  ((s.record t).map (·.spindles)).getD 0 + 2 ^ 8 * bound + 2 ^ 16 * busy
/-- `TQOS_TILE`. -/
def State.qosTile (s : State) (t : Nat) : Nat :=
  ((s.record t).map (·.tileGranules)).getD 0
    + 2 ^ 16 * ((s.tenant t).reserved (·.tile) + (s.tenant t).allocated .tile)
/-- Counter of the tenant's window slot `j` on the page shown; none beyond the range (R293). -/
def State.slotCounter (s : State) (t j : Nat) : Option Nat :=
  match s.record t with
  | none => none
  | some r =>
    let rel := 2048 * (s.tenant t).page + j
    if rel < r.counterCount then some (r.counterBase + rel) else none
/-- `TCTR_ANCHOR` word `w`. -/
def State.anchorWord (s : State) (t w : Nat) : Nat :=
  ((List.range 32).map fun (b : Nat) => if (s.tenant t).anchors.contains (32 * w + b) then 2 ^ b else 0).foldl (· + ·) 0

end Sys2Proof.Machine
end

