-- ==== Sys2Proof/Machine/Crypto.lean ====
section
/-!
DEFINITION. Crypto.lean: SHA-384 (FIPS 180-4), HMAC-SHA-384 (FIPS 198-1) and the check of an ECDSA P-384
signature (FIPS 186-5), which the spec names for images, firmware and the service monitor (R71, R91, R116,
R584, R604).
-/

namespace Sys2Proof.Machine

/-! ### SHA-384 -/

/-- The largest `r` below `2 ^ b` more than the start with `r ^ k ≤ n`, found from its highest bit down. -/
def rootFrom (k n : Nat) : Nat → Nat → Nat
  | 0, r => r
  | b + 1, r => rootFrom k n b (if (r + 2 ^ b) ^ k ≤ n then r + 2 ^ b else r)
/-- The first 64 bits of the fraction of the `k`-th root of `p`, the root being below 16: FIPS 180-4 defines its
constants so. -/
def rootFraction (k p : Nat) : Nat := rootFrom k (p * 2 ^ (64 * k)) 68 0 % 2 ^ 64
/-- The first 80 primes: those below 410. -/
def shaPrimes : List Nat :=
  (List.range 410).filter fun p => decide (2 ≤ p) && (List.range 21).all fun d => decide (d < 2 ∨ p ≤ d ∨ p % d ≠ 0)
/-- One constant for each of the 80 rounds. -/
def shaConstants : List Nat := shaPrimes.map (rootFraction 3)

/-- The hash's two shift registers, newest word first: the four words that the standard calls a to d, and e to h. -/
structure ShaRegs where
  upper : List Qword
  lower : List Qword
  deriving DecidableEq, Repr, Inhabited
/-- The start of SHA-384: the ninth to the sixteenth prime. -/
def ShaRegs.start : ShaRegs :=
  let word (i : Nat) : Qword := BitVec.ofNat 64 (rootFraction 2 (shaPrimes.getD (8 + i) 0))
  { upper := (List.range 4).map word, lower := (List.range 4).map fun i => word (i + 4) }

/-- A word rotated right by each of `turns`, and shifted right by `shift` when it is not 0, all added bit by bit. -/
def shaMix (turns : List Nat) (shift : Nat) (x : Qword) : Qword :=
  turns.foldl (fun acc n => acc ^^^ x.rotateRight n) (if shift = 0 then 0 else x >>> shift)

/-- A round: `add` is the sum of the round's constant and message word. Both registers shift by one word. -/
def ShaRegs.advance (r : ShaRegs) (add : Qword) : ShaRegs :=
  match r.upper, r.lower with
  | [x, y, z, last], [p, q, o, out] =>
    let feed := out + shaMix [14, 18, 41] 0 p + (o ^^^ (p &&& (q ^^^ o))) + add
    { upper := [feed + shaMix [28, 34, 39] 0 x + ((x &&& y) ||| (z &&& (x ||| y))), x, y, z]
      lower := [last + feed, p, q, o] }
  | _, _ => r

/-- The message schedule: each word is used by its round and then gives a new one to the end of the window of 16. -/
def shaSchedule : List Nat → List Qword → ShaRegs → ShaRegs
  | [], _, r => r
  | k :: ks, window, r =>
    match window with
    | [] => r
    | w :: later =>
      let fresh := w + shaMix [1, 8] 7 (later.getD 0 0) + later.getD 8 0 + shaMix [19, 61] 6 (later.getD 13 0)
      shaSchedule ks (later ++ [fresh]) (r.advance (w + BitVec.ofNat 64 k))

/-- The big-endian number of a byte string. -/
def beOfBytes (bs : List Byte) : Nat := leOfBytes bs.reverse
/-- The `n` low bytes of a number, most significant first. -/
def bytesOfBe (n v : Nat) : List Byte := (bytesOfLe n v).reverse

/-- `n` big-endian 64-bit words at the front of a byte string. -/
def shaWords : Nat → List Byte → List Qword
  | 0, _ => []
  | n + 1, bs => BitVec.ofNat 64 (beOfBytes (bs.take 8)) :: shaWords n (bs.drop 8)

/-- Take in `n` blocks of 128 bytes. -/
def ShaRegs.absorb : Nat → List Byte → ShaRegs → ShaRegs
  | 0, _, r => r
  | n + 1, bs, r =>
    let t := shaSchedule shaConstants (shaWords 16 (bs.take 128)) r
    ShaRegs.absorb n (bs.drop 128) { upper := r.upper.zipWith (· + ·) t.upper, lower := r.lower.zipWith (· + ·) t.lower }

/-- SHA-384 of a message: 48 bytes
(PRESUMED, log entry 7). -/
def sha384 (msg : List Byte) : List Byte :=
  let blocks := msg.length / 128 + (if msg.length % 128 < 112 then 1 else 2)
  let zeros := 128 * blocks - msg.length - 17
  let r := ShaRegs.start.absorb blocks (msg ++ 0x80 :: (List.replicate zeros 0 ++ bytesOfBe 16 (8 * msg.length)))
  (r.upper ++ r.lower.take 2).flatMap fun w => bytesOfBe 8 w.toNat

/-- HMAC-SHA-384 under a key of at most 128 bytes
(PRESUMED, log entry 7). -/
def hmacSha384 (key msg : List Byte) : List Byte :=
  let k := key ++ List.replicate (128 - key.length) 0
  sha384 (k.map (· ^^^ 0x5c) ++ sha384 (k.map (· ^^^ 0x36) ++ msg))

/-! ### P-384 -/

/-- The field prime of P-384. -/
def p384 : Nat := 2 ^ 384 - 2 ^ 128 - 2 ^ 96 + 2 ^ 32 - 1
/-- The order of the base point. -/
def n384 : Nat :=
  0xffffffffffffffffffffffffffffffffffffffffffffffffc7634d81f4372ddf581a0db248b0a77aecec196accc52973
/-- The coefficient b of the curve y² = x³ - 3x + b. -/
def b384 : Nat :=
  0xb3312fa7e23ee7e4988e056be3f82d19181d9c6efe8141120314088f5013875ac656398d8a2ed19d2a85c8edd3ec2aef
/-- The base point. -/
def g384 : Nat × Nat :=
  (0xaa87ca22be8b05378eb1c71ef320ad746e1d3b628ba79b9859f741e082542a385502f25dbf55296c3a545e3872760ab7,
   0x3617de4a96262c6f5d9e98bf9292dc29f8f41dbd289a147ce9da3113b5f0b8c00a60b1ce1d7e819d7a431d7c90ea0e5f)

/-- `b ^ e mod m` over the bits of `e` from bit `n - 1` down. -/
def powMod (m b e : Nat) : Nat → Nat → Nat
  | 0, acc => acc
  | n + 1, acc =>
    let sq := acc * acc % m
    powMod m b e n (if bit e n then sq * b % m else sq)
/-- The inverse modulo a 384-bit prime. -/
def invMod (m a : Nat) : Nat := powMod m (a % m) (m - 2) 384 1

/-- A point in Jacobian coordinates; `z` = 0 is the point at infinity. -/
structure Point where
  x : Nat
  y : Nat
  z : Nat
  deriving DecidableEq, Repr, Inhabited

/-- `a - b` in the field. -/
def fsub (a b : Nat) : Nat := (a + p384 - b % p384) % p384

/-- Twice a point. -/
def Point.double (p : Point) : Point :=
  if p.z = 0 || p.y = 0 then { x := 1, y := 1, z := 0 }
  else
    let zz := p.z * p.z % p384
    let m := 3 * (fsub p.x zz * ((p.x + zz) % p384) % p384) % p384
    let yy := p.y * p.y % p384
    let s := 4 * p.x * yy % p384
    let x := fsub (m * m % p384) (2 * s % p384)
    { x := x, y := fsub (m * fsub s x % p384) (8 * (yy * yy % p384) % p384), z := 2 * p.y * p.z % p384 }

/-- The sum of two points. -/
def Point.add (p q : Point) : Point :=
  if p.z = 0 then q
  else if q.z = 0 then p
  else
    let zp := p.z * p.z % p384
    let zq := q.z * q.z % p384
    let u1 := p.x * zq % p384
    let u2 := q.x * zp % p384
    let s1 := p.y * (zq * q.z % p384) % p384
    let s2 := q.y * (zp * p.z % p384) % p384
    let h := fsub u2 u1
    let r := fsub s2 s1
    if h = 0 then (if r = 0 then p.double else { x := 1, y := 1, z := 0 })
    else
      let hh := h * h % p384
      let hhh := h * hh % p384
      let v := u1 * hh % p384
      let x := fsub (r * r % p384) ((hhh + 2 * v) % p384)
      { x := x, y := fsub (r * fsub v x % p384) (s1 * hhh % p384), z := h * (p.z * q.z % p384) % p384 }

/-- `k` times a point, over the bits of `k` from bit `n - 1` down. -/
def Point.mul (p : Point) (k : Nat) : Nat → Point → Point
  | 0, acc => acc
  | n + 1, acc =>
    let d := acc.double
    Point.mul p k n (if bit k n then d.add p else d)

/-- Does the ECDSA P-384 signature (r, s) over `msg`, hashed with SHA-384, verify under a public key?
(PRESUMED, log entry 7). -/
def ecdsaVerify (key : Nat × Nat) (msg : List Byte) (r s : Nat) : Bool :=
  let onCurve := key.1 < p384 && key.2 < p384
    && (key.2 * key.2 + 3 * key.1) % p384 == (key.1 * key.1 % p384 * key.1 + b384) % p384
  if !onCurve || r = 0 || s = 0 || r ≥ n384 || s ≥ n384 then false
  else
    let e := beOfBytes (sha384 msg)
    let w := invMod n384 s
    let zero : Point := { x := 1, y := 1, z := 0 }
    let a := Point.mul { x := g384.1, y := g384.2, z := 1 } (e * w % n384) 384 zero
    let b := Point.mul { x := key.1, y := key.2, z := 1 } (r * w % n384) 384 zero
    let t := a.add b
    if t.z = 0 then false
    else
      let zi := invMod p384 t.z
      t.x * (zi * zi % p384) % p384 % n384 == r

end Sys2Proof.Machine
end

