-- ==== Sys2Proof/Machine/Image.lean ====
section
/-!
DEFINITION. Image.lean: the Helol image (chapter 03): what its sections say, and the checks of Table 03-15 in
their order.
-/

namespace Sys2Proof.Machine

/-! ### What an image holds -/

/-- A section table entry (Table 03-2). -/
structure HSection where
  type : Nat
  inst : Nat
  off : Nat
  len : Nat
  crc : Nat
  deriving DecidableEq, Repr, Inhabited

/-- The image header's kinds. -/
def kindBase : Nat := 1
def kindOwner : Nat := 2
def kindFabric : Nat := 3
def kindShares : Nat := 4

/-- `SECTION_COUNT`. -/
def hCount (rd : Nat → Byte) : Nat := readLe rd 0x0C 2
/-- `IMAGE_KIND`. -/
def hKind (rd : Nat → Byte) : Nat := readLe rd 6 1
/-- `REGION_TARGET`. -/
def hTarget (rd : Nat → Byte) : Nat := readLe rd 7 1
/-- `IMAGE_LENGTH`. -/
def hLength (rd : Nat → Byte) : Nat := readLe rd 8 4
/-- `FLAGS`. -/
def hFlags (rd : Nat → Byte) : Nat := readLe rd 0x0E 2
/-- `BUILD_ID`. -/
def hBuild (rd : Nat → Byte) : Id128 := BitVec.ofNat 128 (readLe rd 0x10 16)
/-- `PARENT_BUILD_ID`. -/
def hParent (rd : Nat → Byte) : Id128 := BitVec.ofNat 128 (readLe rd 0x20 16)

/-- Entry `k` of the section table. -/
def hEntry (rd : Nat → Byte) (k : Nat) : HSection :=
  let a := 0x40 + 16 * k
  { type := readLe rd a 1, inst := readLe rd (a + 1) 1, off := readLe rd (a + 4) 4, len := readLe rd (a + 8) 4,
    crc := readLe rd (a + 12) 4 }
/-- The section table, at most 64 entries. -/
def hSections (rd : Nat → Byte) : List HSection := (List.range (min (hCount rd) 64)).map (hEntry rd)
/-- The trailer's entry, the last one. -/
def hTrailer (rd : Nat → Byte) : HSection := hEntry rd (hCount rd - 1)
/-- The sections of a type. -/
def ofType (l : List HSection) (t : Nat) : List HSection := l.filter (·.type == t)

/-- The trailer length of an `AUTH_KIND` (R71). -/
def trailerLength (kind : Nat) : Nat := if kind = 0 then 20 else if kind = 1 then 116 else 68
/-- Is the trailer locatable (R650)? -/
def hLocatable (rd : Nat → Byte) : Bool :=
  let t := hTrailer rd
  decide (2 ≤ hCount rd) && decide (hCount rd ≤ 64) && t.type == 0x7F && decide (0x1000 ≤ t.off)
    && t.off + t.len == hLength rd
/-- Step 6 passes without judgement (R650). -/
def hUnjudged (rd : Nat → Byte) : Bool :=
  let t := hTrailer rd
  let kind := readLe rd t.off 1
  !hLocatable rd || (decide (kind ≤ 2) && t.len != trailerLength kind)

/-- The tenant record at offset `a` (Table 03-6). -/
def tenantRecAt (rd : Nat → Byte) (a : Nat) : TenantRec :=
  { spindles := readLe rd a 1, queuePairs := readLe rd (a + 1) 1, queueSlots := readLe rd (a + 2) 2,
    counterBase := readLe rd (a + 4) 2, counterCount := readLe rd (a + 6) 2, tileGranules := readLe rd (a + 8) 2,
    groupMask := rd (a + 10),
    weights := { dma := readLe rd (a + 12) 1, lathe := readLe rd (a + 13) 1, gouge := readLe rd (a + 14) 1,
                 rasp := readLe rd (a + 15) 1, burl := readLe rd (a + 16) 1, peer := readLe rd (a + 17) 1 },
    dramPinned := readLe rd (a + 0x14) 4, dramWriteback := readLe rd (a + 0x18) 4,
    dramScratch := readLe rd (a + 0x1C) 4, dramRocache := readLe rd (a + 0x20) 4,
    spillGranules := readLe rd (a + 0x24) 4, readonlyExtents := readLe rd (a + 0x28) 4,
    nsUnits := readLe rd (a + 0x2C) 4 }
/-- A flow record's fields: index, tenant, port mask byte, remote module, remote flow (Table 03-9). -/
def flowAt (rd : Nat → Byte) (a : Nat) : Nat × Nat × Nat × Nat × Nat :=
  (readLe rd a 2, readLe rd (a + 2) 1, readLe rd (a + 3) 1, readLe rd (a + 4) 1, readLe rd (a + 6) 2)
/-- `TENANT_COUNT` and `FLOW_COUNT` of a STRUCTURE body at offset `a`. -/
def tenantCountAt (rd : Nat → Byte) (a : Nat) : Nat := readLe rd (a + 6) 1
def flowCountAt (rd : Nat → Byte) (a : Nat) : Nat := readLe rd (a + 0xC) 2

/-- The STRUCTURE section at offset `a` (Tables 03-5, 03-6, 03-9). -/
def structureAt (rd : Nat → Byte) (a : Nat) : Structure :=
  let n := tenantCountAt rd a
  { systemSize := readLe rd (a + 2) 2, moduleId := readLe rd (a + 4) 1, moduleIdSource := readLe rd (a + 5) 1,
    groupRole := (List.range 4).map fun (g : Nat) => if readLe rd (a + 8 + g) 1 = 1 then .index else .log,
    ownerQueuePairs := readLe rd (a + 0xE) 1, systemId := readLe rd (a + 0x10) 4, ownerNsUnits := readLe rd (a + 0x14) 4,
    tenants := (List.range n).map fun (k : Nat) => tenantRecAt rd (a + 0x100 + 64 * k),
    flows := (List.range (flowCountAt rd a)).map fun (k : Nat) =>
      let f := flowAt rd (a + 0x100 + 64 * n + 16 * k)
      { flow := f.1, tenant := f.2.1, portMask := BitVec.ofNat 4 f.2.2.1, remoteModule := f.2.2.2.1,
        remoteFlow := f.2.2.2.2 } }

/-- A slice block: slice, `FMAX_MHZ`, `TIMER_INHERIT`, frames; and its grain map. -/
structure SliceImage where
  slice : Nat
  fmax : Nat
  inherit : BitVec 16
  frames : List (Nat × Frame)
  grain : List Qword := []
  deriving DecidableEq, Repr, Inhabited

/-- The frame whose 512 bytes begin at `a` (R97). -/
def frameAt (rd : Nat → Byte) (a : Nat) : Frame := BitVec.ofNat 4096 (readLe rd a 512)
/-- The slice block at `a`, and its length. -/
def sliceBlockAt (rd : Nat → Byte) (a : Nat) : SliceImage :=
  { slice := readLe rd a 1, fmax := readLe rd (a + 2) 2, inherit := BitVec.ofNat 16 (readLe rd (a + 4) 2),
    frames := (List.range (readLe rd (a + 6) 2)).map fun (k : Nat) =>
      (readLe rd (a + 16 + 516 * k) 4 % 2048, frameAt rd (a + 20 + 516 * k)) }
/-- The offsets of `n` slice blocks from `a` on. -/
def sliceOffsets (rd : Nat → Byte) : Nat → Nat → List Nat
  | 0, _ => []
  | n + 1, a => a :: sliceOffsets rd n (a + 16 + 516 * readLe rd (a + 6) 2)
/-- The offsets of `n` map blocks from `a` on. -/
def grainOffsets (rd : Nat → Byte) : Nat → Nat → List Nat
  | 0, _ => []
  | n + 1, a => a :: grainOffsets rd n (a + 8 + 8 * readLe rd (a + 4) 4)
/-- Bits set in a byte. -/
def maskBits (m : Nat) : List Nat := (List.range 8).filter fun (k : Nat) => bit m k
/-- The grain-map words of the map block at `a`. -/
def grainAt (rd : Nat → Byte) (a : Nat) : List Qword :=
  (List.range (readLe rd (a + 4) 4)).map fun (k : Nat) => BitVec.ofNat 64 (readLe rd (a + 8 + 8 * k) 8)

/-- The slices of a FABRIC_SLICE section, with the grain maps of the section of the same instance. -/
def slicesOf (rd : Nat → Byte) (l : List HSection) (b : HSection) : List SliceImage :=
  let mask := readLe rd b.off 1
  let n := (maskBits mask).length
  let grains := match (ofType l 3).find? fun (x : HSection) => x.inst == b.inst with
    | some g => (grainOffsets rd n (g.off + 16)).map (grainAt rd)
    | none => []
  ((sliceOffsets rd n (b.off + 16)).map (sliceBlockAt rd)).zipIdx.map fun x =>
    { x.1 with grain := grains.getD x.2 [] }

/-- A layout entry at `a` (Table 03-11). -/
def layoutAt (rd : Nat → Byte) (a : Nat) : Layout :=
  let norm := readLe rd (a + 6) 2
  { recordBytes := readLe rd a 2, codeOffset := readLe rd (a + 2) 2, codeBytes := readLe rd (a + 4) 1,
    subcodeBits := readLe rd (a + 5) 1, normOffset := if norm = 0xFFFF then none else some norm,
    idOffset := readLe rd (a + 8) 2, idBytes := readLe rd (a + 10) 1 }
/-- The layouts of a RASP_PARAMS body at `a`. -/
def layoutsAt (rd : Nat → Byte) (a : Nat) : List Layout :=
  (List.range (readLe rd a 1)).map fun (k : Nat) => layoutAt rd (a + 16 + 16 * k)

/-- SETTINGS_DEFAULTS entries: offset, mask, value (R92). -/
def settingsAt (rd : Nat → Byte) (a : Nat) : List (Nat × Nat × Nat) :=
  (List.range (min (readLe rd a 4) 1024)).map fun (k : Nat) =>
    let e := a + 16 + 16 * k
    (readLe rd e 4, readLe rd (e + 4) 4, readLe rd (e + 8) 4)

/-- The content of an image, as its activation uses it. -/
structure HelolImage where
  kind : Nat
  target : Nat
  inheritEdges : Bool
  build : Id128
  parent : Id128
  structure_ : Option Structure
  /-- `FAB_MHZ`, `CORE_INIT_STEP`, `POWER_CAP_W`. -/
  clock : Option (Nat × Nat × Nat)
  slices : List SliceImage
  /-- Group and its layouts. -/
  layouts : List (Nat × List Layout)
  ucode : Option (List Byte)
  settings : List (Nat × Nat × Nat)
  deriving DecidableEq, Repr, Inhabited

/-- Read an image that has passed its checks. -/
def imageOf (rd : Nat → Byte) : HelolImage :=
  let l := hSections rd
  { kind := hKind rd, target := hTarget rd, inheritEdges := bit (hFlags rd) 1, build := hBuild rd, parent := hParent rd
    structure_ := ((ofType l 1).head?).map fun (b : HSection) => structureAt rd b.off
    clock := ((ofType l 6).head?).map fun (b : HSection) =>
      (readLe rd b.off 2, readLe rd (b.off + 2) 1, readLe rd (b.off + 4) 2)
    slices := (ofType l 2).flatMap (slicesOf rd l)
    layouts := (ofType l 5).map fun (b : HSection) => (b.inst, layoutsAt rd b.off)
    ucode := ((ofType l 4).head?).map fun (b : HSection) => readBytes rd b.off b.len
    settings := match (ofType l 7).head? with
      | some b => settingsAt rd b.off
      | none => [] }

/-! ### The checks (Table 03-15) -/

/-- Why an image fails: the step, and the reason; step 1 is reported with IMAGE_TOO_LARGE and no reason (R104). -/
structure ImageFail where
  step : Nat
  reason : Nat
  deriving DecidableEq, Repr, Inhabited

/-- Fail at a step unless a condition holds. -/
def failUnless (ok : Bool) (step reason : Nat) : Option ImageFail := if ok then none else some { step := step, reason := reason }

/-- The bytes a tag covers: up to and including `KEY_ID` (R72). -/
def taggedBytes (rd : Nat → Byte) : List Byte := readBytes rd 0 ((hTrailer rd).off + 16)

/-- Step 6: authentication (R117, R650). No key is of the kind that `AUTH_KIND` 0 names, so an image without a tag passes
only where R106 skips the step. An `AUTH_KIND` byte beyond the bytes received, where the trailer's entry has `LENGTH` 0,
reads 0, and the step passes without judgement
(DESIGN CHOICE, log entry 102; DEDUCED, log entry 119). -/
def State.authFail (s : State) (rd : Nat → Byte) : Option Nat :=
  if !hLocatable rd then none
  else
    let t := hTrailer rd
    let kind := readLe rd t.off 1
    let keyId := readLe rd (t.off + 8) 8
    if kind > 2 then some 0x40
    else if t.len ≠ trailerLength kind then none
    else if kind = 0 then some 0x41
    else if kind = 1 then
      match [0, 1].find? fun (k : Nat) => keyId != 0 && (Config.vendorKeyId k).toNat == keyId with
      | none => some 0x41
      | some k =>
        let r := leOfBytes (readBytes rd (t.off + 0x10) 48)
        let v := leOfBytes (readBytes rd (t.off + 0x40) 48)
        if ecdsaVerify (Config.vendorKey k) (taggedBytes rd) r v then none else some 0x42
    else
      match (s.pers.ownerKeys.filterMap id).find? fun (k : OwnerKey) => keyId != 0 && k.keyId.toNat == keyId with
      | none => some 0x41
      | some k =>
        if hmacSha384 (bytesOfBe 48 k.key.toNat) (taggedBytes rd) = readBytes rd (t.off + 0x10) 48 then none
        else some 0x43

/-- Step 9: R65 and R73. -/
def authFlagOk (rd : Nat → Byte) : Bool :=
  let required := bit (hFlags rd) 0
  let kind := readLe rd (hTrailer rd).off 1
  (hKind rd == kindBase || required)
    && (hUnjudged rd || (!required || kind == 1 || kind == 2)
          && (if hKind rd = kindBase then kind == 0 || kind == 1 else kind == 2))

/-- Is one entry well formed (R67), apart from its place in the order? -/
def entryOk (b : HSection) (last : Bool) : Bool :=
  let grouped := b.type == 2 || b.type == 3 || b.type == 5
  (if last then b.type == 0x7F && b.crc == 0 else decide (1 ≤ b.type ∧ b.type ≤ 7))
    && (if grouped then decide (b.inst ≤ 3) else b.inst == 0)
    && b.off % 64 == 0 && decide (0x1000 ≤ b.off) && decide (1 ≤ b.len)
/-- The sections lie in order without overlap, with padding below 64 bytes between two (R68). -/
def inOrder : List HSection → Bool
  | b :: c :: r => decide (b.off + b.len ≤ c.off) && decide (c.off < b.off + b.len + 64) && inOrder (c :: r)
  | _ => true
/-- Step 10. -/
def sectionTableOk (rd : Nat → Byte) : Bool :=
  let n := hCount rd
  let l := hSections rd
  decide (2 ≤ n) && decide (n ≤ 64) && (l.zipIdx.all fun x => entryOk x.1 (x.2 + 1 == n)) && inOrder l
    && hLocatable rd && !hUnjudged rd
/-- Step 11. -/
def sectionCrcOk (rd : Nat → Byte) : Bool :=
  (hSections rd).all fun b => b.type == 0x7F || crc32c (readBytes rd b.off b.len) == b.crc
/-- No two sections of one type name one group. -/
def oncePerGroup (l : List HSection) : Bool := (l.map (·.inst)).Nodup
/-- Step 12: the sections each kind carries (Table 03-3). -/
def sectionSetOk (rd : Nat → Byte) : Bool :=
  let l := hSections rd
  let n (t : Nat) : Nat := (ofType l t).length
  let kind := hKind rd
  let grouped := oncePerGroup (ofType l 2) && oncePerGroup (ofType l 3) && oncePerGroup (ofType l 5)
    && ((ofType l 2).map (·.inst)).all (fun g => ((ofType l 3).map (·.inst)).contains g) && n 2 == n 3
  grouped && n 0x7F == 1
    && (if kind = kindBase then n 1 == 1 && n 6 == 1 && n 4 == 1 && decide (n 7 ≤ 1)
        else if kind = kindOwner then n 1 == 1 && n 6 == 1 && decide (n 4 ≤ 1) && decide (n 7 ≤ 1)
        else if kind = kindFabric then
          n 1 == 0 && n 6 == 0 && n 4 == 0 && n 7 == 0
            && l.all fun b => b.type == 0x7F || b.inst == hTarget rd
        else n 1 == 1 && n 2 == 0 && n 3 == 0 && n 5 == 0 && n 6 == 0 && n 4 == 0 && n 7 == 0)

/-- Step 14: length, ranges and encodings of the STRUCTURE section (R75, Tables 03-5, 03-6). -/
def structOk (rd : Nat → Byte) (b : HSection) : Bool :=
  let a := b.off
  let n := tenantCountAt rd a
  decide (256 ≤ b.len) && readLe rd a 2 == 1 && decide (1 ≤ readLe rd (a + 2) 2) && decide (readLe rd (a + 2) 2 ≤ 256)
    && decide (readLe rd (a + 5) 1 ≤ 1) && decide (n ≤ 16)
    && ((List.range 4).all fun (g : Nat) => readLe rd (a + 8 + g) 1 == 1 || readLe rd (a + 8 + g) 1 == 2)
    && decide (flowCountAt rd a ≤ 1024) && decide (1 ≤ readLe rd (a + 0xE) 1) && decide (readLe rd (a + 0xE) 1 ≤ 128)
    && b.len == 256 + 64 * n + 16 * flowCountAt rd a
    && (structureAt rd a).tenants.all fun r =>
      decide (1 ≤ r.spindles ∧ r.spindles ≤ 64) && decide (1 ≤ r.queuePairs ∧ r.queuePairs ≤ 128)
        && decide (1 ≤ r.queueSlots ∧ r.queueSlots ≤ 256) && decide (r.counterBase ≤ 8191)
        && decide (1 ≤ r.counterCount ∧ r.counterCount ≤ 8192) && decide (r.tileGranules ≤ 1536)

/-- The module's index that a structure gives (R76). -/
def Structure.index (x : Structure) (slotId : BitVec 8) : Nat :=
  if x.moduleIdSource = 1 then slotId.toNat else x.moduleId
/-- Step 16. -/
def State.moduleIdOk (s : State) (x : Structure) : Bool :=
  decide (x.index s.power.slotId < x.systemSize) && (x.moduleIdSource == 0 || s.power.slotOpen == 0)

/-- Sum of a field over the tenant records. -/
def sumRecs (l : List TenantRec) (f : TenantRec → Nat) : Nat := (l.map f).foldl (· + ·) 0
/-- Do two counter ranges overlap? -/
def rangesMeet (x y : TenantRec) : Bool :=
  decide (x.counterBase < y.counterBase + y.counterCount) && decide (y.counterBase < x.counterBase + x.counterCount)
/-- Do any two ranges of a list overlap? -/
def anyMeet : List TenantRec → Bool
  | [] => false
  | x :: r => r.any (rangesMeet x) || anyMeet r

/-- Step 17: the rules of Table 03-7 in row order; the reason of the first that fails. -/
def State.quotaFail (s : State) (x : Structure) : Option Nat :=
  let t := x.tenants
  let indexGroups := (x.groupRole.filter (· == .index)).length
  let logGroups := (x.groupRole.filter (· == .log)).length
  let roleMask (r : Role) : Nat :=
    (x.groupRole.zipIdx.map fun y => if y.1 = r then 2 ^ y.2 else 0).foldl (· + ·) 0
  let writeback := sumRecs t (·.dramWriteback)
  let wants (r : TenantRec) : Bool := r.dramWriteback != 0 || r.nsUnits != 0
  if sumRecs t (·.spindles) > 64 then some 0x0D
  else if sumRecs t (·.queueSlots) > 256 then some 0x0D
  else if sumRecs t (·.tileGranules) > 1536 then some 0x0D
  else if sumRecs t (fun r => r.dramPinned + r.dramWriteback + r.dramScratch + r.dramRocache + r.spillGranules) > 3047424
    then some 0x0D
  else if sumRecs t (·.readonlyExtents) > indexGroups * s.groupExtents then some 0x0D
  else if x.ownerNsUnits + sumRecs t (·.nsUnits) + ceilDiv writeback 16384 > logGroups * s.groupUnits then some 0x0D
  else if (t.any fun r => decide (r.counterBase + r.counterCount > 8192)) || anyMeet t then some 0x0E
  else if t.any fun r => (bits r.groupMask.toNat 3 0 &&& roleMask .index) != bits r.groupMask.toNat 3 0
      || (bits r.groupMask.toNat 7 4 &&& roleMask .log) != bits r.groupMask.toNat 7 4 then some 0x0B
  else if logGroups = 0 && (x.ownerNsUnits != 0 || t.any wants) then some 0x0F
  else if t.any fun r => wants r && bits r.groupMask.toNat 7 4 == 0 then some 0x0F
  else none

/-- Step 18: the flow records (Table 03-9). -/
def State.flowsOk (s : State) (rd : Nat → Byte) (a : Nat) (x : Structure) : Bool :=
  let l := (List.range (flowCountAt rd a)).map fun (k : Nat) => flowAt rd (a + 0x100 + 64 * x.tenants.length + 16 * k)
  (l.all fun f => decide (f.1 ≤ 1023) && decide (f.2.1 < x.tenants.length) && decide (1 ≤ f.2.2.1 ∧ f.2.2.1 ≤ 15)
    && decide (f.2.2.2.1 < x.systemSize) && f.2.2.2.1 != x.index s.power.slotId && decide (f.2.2.2.2 ≤ 1023))
    && (l.map (·.1)).Nodup

/-- A group is empty when it maps no extent and no namespace block. -/
def State.groupEmpty (s : State) (g : Nat) : Bool :=
  !(s.media.extents.any fun e => e.group == g)
    && !(s.media.units.any fun u => decide (u.fn < shadowBase) && s.unitGroup u.fn u.nsid == some g)
/-- Step 19: R81. -/
def State.rolesOk (s : State) (x : Structure) : Bool :=
  (List.range 4).all fun (g : Nat) =>
    match (s.media.groups.getD g {}).recorded with
    | none => true
    | some r => x.groupRole[g]? == some r || s.groupEmpty g

/-- Step 20: R83. Only the tenants that the image has are judged: R83 says nothing of extents and namespaces of a tenant
that the image leaves out
(DESIGN CHOICE, log entry 103). -/
def State.quotaCovers (s : State) (x : Structure) : Bool :=
  let blocks (fn : Nat) : Nat :=
    ((s.media.namespaces.filter fun n => n.fn == fn).map (·.blocks)).foldl (· + ·) 0
  decide (blocks 0 ≤ 2 ^ 18 * x.ownerNsUnits)
    && x.tenants.zipIdx.all fun y =>
      decide (blocks (y.2 + 1) ≤ 2 ^ 18 * y.1.nsUnits)
        && s.media.extents.all fun e => e.tenant != y.2 || decide (e.extent < y.1.readonlyExtents)

/-- Step 21: R85. -/
def State.onlyShares (s : State) (x : Structure) (target : Nat) : Bool :=
  let old := s.pers.active
  x == { old with tenants := old.tenants.zipIdx.map fun y =>
    if y.2 = target then match x.tenants[target]? with
      | some r => { y.1 with queueSlots := r.queueSlots, weights := r.weights }
      | none => y.1
    else y.1 }

/-- Step 23: one slice block at `a` for slice `k`. -/
def sliceBlockOk (rd : Nat → Byte) (a k : Nat) : Bool :=
  let n := readLe rd (a + 6) 2
  let addr (j : Nat) : Nat := readLe rd (a + 16 + 516 * j) 4
  readLe rd a 1 == k && decide (25 ≤ readLe rd (a + 2) 2) && decide (readLe rd (a + 2) 2 ≤ 400)
    && decide (1 ≤ n) && decide (n ≤ 2048) && readLe rd (a + 8) 4 == 16 + 516 * n
    && (List.range n).all fun (j : Nat) =>
      addr j == 65536 * k + addr j % 2048 && (j == 0 || decide (addr (j - 1) < addr j))
/-- Step 23: a FABRIC_SLICE body (R99). -/
def fabricOk (rd : Nat → Byte) (b : HSection) : Bool :=
  let ks := maskBits (readLe rd b.off 1)
  let offs := sliceOffsets rd ks.length (b.off + 16)
  let total := (offs.map fun a => 16 + 516 * readLe rd (a + 6) 2).foldl (· + ·) 16
  decide (16 ≤ b.len) && total == b.len && (offs.zip ks).all fun x => sliceBlockOk rd x.1 (8 * b.inst + x.2)

/-- Step 25: one grain-map word: the map bits it carries, none when it is malformed (Table 03-14). -/
def grainWordBits (w : Nat) : Option Nat :=
  if bit w 63 then
    let n := bits w 31 0
    if bits w 61 32 = 0 ∧ 1 ≤ n then some n else none
  else
    let n := bits w 62 57
    if 1 ≤ n ∧ n ≤ 57 ∧ bits w 56 n = 0 then some n else none
/-- The map bits that words carry in all. -/
def grainTotal (ws : List Nat) : Option Nat :=
  ws.foldl (fun (t : Option Nat) w => match t, grainWordBits w with
    | some a, some n => some (a + n)
    | _, _ => none) (some 0)
/-- Step 25: a GRAIN_MAP body against the FABRIC_SLICE section of its instance (R101, R102). -/
def grainOk (rd : Nat → Byte) (l : List HSection) (b : HSection) : Bool :=
  let mask := readLe rd b.off 1
  let ks := maskBits mask
  let offs := grainOffsets rd ks.length (b.off + 16)
  let total := (offs.map fun a => 8 + 8 * readLe rd (a + 4) 4).foldl (· + ·) 16
  decide (16 ≤ b.len) && total == b.len
    && ((ofType l 2).any fun f => f.inst == b.inst && readLe rd f.off 1 == mask)
    && (offs.zip ks).all fun x => readLe rd x.1 1 == 8 * b.inst + x.2
      && grainTotal ((grainAt rd x.1).map (·.toNat)) == some 7864320

/-- Step 26: one layout (R89, Table 03-11). -/
def layoutOk (y : Layout) (normField : Nat) : Bool :=
  decide (16 ≤ y.recordBytes ∧ y.recordBytes ≤ 4096 ∧ y.recordBytes % 8 = 0)
    && (if y.subcodeBits = 8 then [8, 16, 32, 64].contains y.codeBytes
        else if y.subcodeBits = 4 then [32, 64].contains y.codeBytes
        else y.subcodeBits == 1 && [8, 16, 32, 64, 128].contains y.codeBytes)
    && (y.idBytes == 4 || y.idBytes == 8) && decide (y.codeOffset + y.codeBytes ≤ y.recordBytes)
    && decide (y.idOffset + y.idBytes ≤ y.recordBytes)
    && (normField == 0xFFFF || (y.subcodeBits != 1 && decide (normField < y.recordBytes)))
/-- Step 26: a RASP_PARAMS body (R88). -/
def raspParamsOk (rd : Nat → Byte) (b : HSection) : Bool :=
  let n := readLe rd b.off 1
  decide (1 ≤ n ∧ n ≤ 16) && b.len == 16 + 16 * n
    && (List.range n).all fun (k : Nat) =>
      layoutOk (layoutAt rd (b.off + 16 + 16 * k)) (readLe rd (b.off + 22 + 16 * k) 2)

/-- Step 27: the microcode (R90, R91); its signature is good when either vendor key verifies it (log entry 7). -/
def ucodeOk (rd : Nat → Byte) (b : HSection) : Bool :=
  let n := readLe rd (b.off + 8) 4
  decide (112 ≤ b.len) && readBytes rd b.off 4 == [0x56, 0x58, 0x55, 0x43] && decide (1 ≤ n ∧ n ≤ 16384)
    && b.len == 112 + 16 * n
    && [0, 1].any fun (k : Nat) =>
      ecdsaVerify (Config.vendorKey k) (readBytes rd b.off (16 + 16 * n)) (leOfBytes (readBytes rd (b.off + 16 + 16 * n) 48))
        (leOfBytes (readBytes rd (b.off + 64 + 16 * n) 48))

/-- The bits of a register's settable fields. -/
def settingBits (off : Nat) : Nat :=
  (settingFields off).foldl (fun (m : Nat) (f : SettingField) => m ||| (2 ^ (f.hi + 1) - 2 ^ f.lo)) 0
/-- Step 28 for a body: its entry count, its length and each target (R92, R93). -/
def settingTargetsOk (rd : Nat → Byte) (b : HSection) : Bool :=
  let n := readLe rd b.off 4
  decide (1 ≤ n ∧ n ≤ 1024) && b.len == 16 + 16 * n
    && (settingsAt rd b.off).all fun e =>
      e.1 % 4 == 0 && e.2.1 != 0 && !(settingFields e.1).isEmpty && (e.2.1 &&& settingBits e.1) == e.2.1
/-- Step 29: the whole of each field that a mask touches. -/
def settingValuesOk (l : List (Nat × Nat × Nat)) : Bool :=
  l.all fun e => (settingFields e.1).all fun (f : SettingField) =>
    bits e.2.1 f.hi f.lo == 0 || f.ok (bits e.2.2 f.hi f.lo)
/-- Step 30. -/
def settingsDisjoint : List (Nat × Nat × Nat) → Bool
  | [] => true
  | e :: r => (r.all fun x => x.1 != e.1 || (x.2.1 &&& e.2.1) == 0) && settingsDisjoint r
/-- Step 31: the budgets that the entries and the store give together stay below `FLOOR_MS` (R94). -/
def State.settingsBudgetOk (s : State) (l : List (Nat × Nat × Nat)) : Bool :=
  let value (off : Nat) : Nat := s.settingResult l off
  budgetHolds s.pcie.floorMs (bits (value 0x040004) 19 0) (bits (value 0x05000C) 13 0) (bits (value 0x05000C) 21 16)

/-- Where an image to be checked comes from. -/
inductive ImageSource where
  | staged | bootNor
  deriving DecidableEq, Repr, Inhabited

/-- Steps 14 to 22 over the STRUCTURE section, where there is one; `again` names the steps to judge
(DEDUCED, log entry 100). -/
def State.structFail (s : State) (rd : Nat → Byte) (b : HSection) (run : Nat → Bool) : Option ImageFail :=
  let x := structureAt rd b.off
  let kind := hKind rd
  let shares := kind == kindShares
  let j (step : Nat) (reason : Nat) (ok : Unit → Bool) : Option ImageFail :=
    if run step then failUnless (ok ()) step reason else none
  (j 14 0x0B fun _ => structOk rd b)
    <|> (j 15 0x1F fun _ => kind != kindBase || (tenantCountAt rd b.off == 0 && flowCountAt rd b.off == 0))
    <|> (j 16 0x0C fun _ => s.moduleIdOk x)
    <|> (if run 17 then (s.quotaFail x).map fun r => { step := 17, reason := r } else none)
    <|> (j 18 0x12 fun _ => s.flowsOk rd b.off x)
    <|> (j 19 0x10 fun _ => kind == kindBase || s.rolesOk x)
    <|> (j 20 0x11 fun _ => kind == kindBase || s.quotaCovers x)
    <|> (j 21 0x1E fun _ => !shares || s.onlyShares x (hTarget rd))

/-- Step 24: CLOCK_PLAN ranges and R87. -/
def State.clockOk (s : State) (rd : Nat → Byte) (l : List HSection) : Bool :=
  let slices := (ofType l 2).flatMap (slicesOf rd l)
  (match (ofType l 6).head? with
    | none => true
    | some b =>
      let fab := readLe rd b.off 2
      b.len == 16 && decide (100 ≤ fab ∧ fab ≤ 400 ∧ fab % 25 = 0) && decide (readLe rd (b.off + 2) 1 ≤ 21)
        && decide (500 ≤ readLe rd (b.off + 4) 2) && decide (readLe rd (b.off + 4) 2 ≤ 850)
        && slices.all fun x => decide (fab ≤ x.fmax))
    && (hKind rd != kindFabric || slices.all fun x => decide (s.power.fabMhz ≤ x.fmax))

/-- The roles that an image's groups have: its own, or the active ones in a region image. -/
def State.imageRoles (s : State) (rd : Nat → Byte) (l : List HSection) : List Role :=
  match (ofType l 1).head? with
  | some b => (structureAt rd b.off).groupRole
  | none => s.pers.active.groupRole

/-- Steps 13 to 31; `run` names the steps to judge
(DEDUCED, log entry 100). -/
def State.bodyFail (s : State) (rd : Nat → Byte) (run : Nat → Bool) : Option ImageFail :=
  let l := hSections rd
  let kind := hKind rd
  let j (step : Nat) (reason : Nat) (ok : Unit → Bool) : Option ImageFail :=
    if run step then failUnless (ok ()) step reason else none
  (j 13 0x1D fun _ => decide (kind < kindFabric) || (s.pers.activeKind == 2 && hParent rd == s.pers.ownerBuild))
    <|> (match (ofType l 1).head? with
      | some b => s.structFail rd b run
      | none => none)
    <|> (j 22 0x16 fun _ => l.all fun b =>
        !(b.type == 2 || b.type == 3 || b.type == 5) || (s.imageRoles rd l)[b.inst]? == some Role.index)
    <|> (j 23 0x14 fun _ => (ofType l 2).all (fabricOk rd))
    <|> (j 24 0x13 fun _ => s.clockOk rd l)
    <|> (j 25 0x15 fun _ => (ofType l 3).all (grainOk rd l))
    <|> (j 26 0x17 fun _ => (ofType l 5).all (raspParamsOk rd))
    <|> (j 27 0x18 fun _ => (ofType l 4).all (ucodeOk rd))
    <|> (j 28 0x19 fun _ => (ofType l 7).all (settingTargetsOk rd))
    <|> (j 29 0x1A fun _ => settingValuesOk ((ofType l 7).flatMap fun (b : HSection) => settingsAt rd b.off))
    <|> (j 30 0x1B fun _ => settingsDisjoint ((ofType l 7).flatMap fun (b : HSection) => settingsAt rd b.off))
    <|> (j 31 0x1C fun _ =>
        (ofType l 7).isEmpty || s.settingsBudgetOk ((ofType l 7).flatMap fun (b : HSection) => settingsAt rd b.off))

/-- The checks of Table 03-15 over `received` bytes; the first failure decides (R103, R104, R106, R650)
(DEDUCED, log entry 100). -/
def State.checkImage (s : State) (src : ImageSource) (rd : Nat → Byte) (received : Nat) : Option ImageFail :=
  if received < 4116 then some { step := 4, reason := 0x03 }
  else
    let skipAuth := src == .bootNor && hLocatable rd && readLe rd (hTrailer rd).off 1 == 0
    (failUnless (decide (hLength rd ≤ 0x10000000)) 1 0)
      <|> (failUnless (readBytes rd 0 4 == [0x48, 0x45, 0x4C, 0x4F]) 2 0x01)
      <|> (failUnless (readLe rd 4 1 == 1 && readLe rd 5 1 == 0) 3 0x02)
      <|> (failUnless (decide (4116 ≤ hLength rd) && hLength rd == received) 4 0x03)
      <|> (failUnless (crc32c (readBytes rd 0 (received - 4)) == readLe rd (received - 4) 4) 5 0x04)
      <|> (if skipAuth then none else (s.authFail rd).map fun r => { step := 6, reason := r })
      <|> (failUnless (decide (1 ≤ hKind rd ∧ hKind rd ≤ 4) && bits (hFlags rd) 15 2 == 0
          && (if hKind rd = kindFabric then decide (hTarget rd ≤ 3)
              else if hKind rd = kindShares then decide (hTarget rd ≤ 15) else hTarget rd == 0)) 7 0x05)
      <|> (failUnless (readLe rd 0x30 1 == 0xB1 && bit (readLe rd 0x31 1) (b2n s.big)) 8 0x06)
      <|> (failUnless (authFlagOk rd) 9 0x07)
      <|> (failUnless (sectionTableOk rd) 10 0x08)
      <|> (failUnless (sectionCrcOk rd) 11 0x09)
      <|> (failUnless (sectionSetOk rd) 12 0x0A)
      <|> (s.bodyFail rd fun _ => true)

/-- The checks run again at activation (R105). -/
def State.recheckImage (s : State) (rd : Nat → Byte) : Option ImageFail :=
  s.bodyFail rd fun step => [13, 16, 19, 20, 21, 24, 31].contains step

/-- A reader over the staged bytes; a byte that was not received reads 0
(DESIGN CHOICE, log entry 102). -/
def State.stagedReader (s : State) : Nat → Byte :=
  let a := (s.pers.staged.get 0 s.pers.stageBytes).toArray
  fun i => a.getD i 0
/-- A reader over the first `n` bytes of a region. -/
def Region.reader (r : Region) (n : Nat) : Nat → Byte :=
  let a := (r.get 0 n).toArray
  fun i => a.getD i 0

end Sys2Proof.Machine
end

