-- ==== Sys2Proof/Machine/Personality.lean ====
section
/-!
DEFINITION. Personality.lean: staging, activating, committing and exchanging a personality, the base load, the owner
deadline, shell timers and configuration scrubbing (chapter 04).
-/

namespace Sys2Proof.Machine

/-! ### Results and log entries (R114, R144 to R146) -/

/-- A personality status log entry (Table 04-12). -/
structure PersEvent where
  event : Nat
  st : Nat := 0
  reason : Nat := 0
  step : Nat := 0
  detail : Nat := 0
  build : Id128 := 0
  deriving DecidableEq, Repr, Inhabited

/-- Bytes 0x10 to 0x3F of the entry. -/
def PersEvent.body (e : PersEvent) : List Byte :=
  bytesOfLe 1 e.event ++ bytesOfLe 1 e.st ++ bytesOfLe 1 e.reason ++ bytesOfLe 1 e.step ++ bytesOfLe 1 e.detail
    ++ [0, 0, 0] ++ bytesOfLe 16 e.build.toNat ++ List.replicate 24 0
/-- Events that raise an asynchronous event (R145). -/
def PersEvent.raises (e : PersEvent) : Bool :=
  e.event == 1 || e.event == 3 || e.event == 7 || e.event == 9 || (e.event == 6 && e.st != 0)
/-- Write an entry of log page 0xC8. -/
def State.persLog (s : State) (e : PersEvent) : State := s.log 0xC8 e.body (event := e.raises)

/-- Record a result in `PERS_RESULT` (Table 04-10). -/
def State.persNote (s : State) (op : Nat) (st : Status) (reason step : Nat) : State :=
  s.modPers fun p => { p with resStatus := st.sc, resReason := reason, resStep := step, resOpcode := op }
/-- Record a result and end the command; DW0 holds the reason and the step
(DEDUCED, log entry 32). -/
def State.persEnd (s : State) (r : CmdRef) (op : Nat) (st : Status) (reason step : Nat) : State :=
  (s.persNote op st reason step).complete r st (reason + 256 * step)

/-- `BUILD_ID` of the staged image; zero where nothing is staged. -/
def State.stagedBuild (s : State) : Id128 := if s.pers.stageBytes = 0 then 0 else hBuild (s.pers.staged.reader 64)
/-- `PARENT_BUILD_ID` of the staged image. -/
def State.stagedParent (s : State) : Id128 := if s.pers.stageBytes = 0 then 0 else hParent (s.pers.staged.reader 64)
/-- The staged bytes are discarded, and `STAGE` becomes `g`. -/
def State.discardStage (s : State) (g : Stage) : State :=
  s.modPers fun p => { p with stage := g, staged := {}, stageBytes := 0, discardAfter := false }
/-- An image in use stays staged when its job ends, unless its owner key has changed meanwhile (R607)
(DEDUCED, log entry 33). -/
def Pers.stageBack (p : Pers) : Pers :=
  if p.discardAfter then { p with stage := .empty, staged := {}, stageBytes := 0, discardAfter := false, job := .none }
  else { p with stage := .valid, job := .none }
/-- Set `STAGE`. -/
def State.setStage (s : State) (g : Stage) : State := s.modPers fun p => { p with stage := g }
/-- An uncorrectable block of the staging has been found (Table 17-6). -/
def State.stageDamaged (s : State) : Bool := s.prot.damaged.any fun d => d.1 == 16

/-! ### Staging (R112 to R115) -/

/-- The last piece has arrived: the staged bytes are checked (R114)
(DEDUCED, log entry 32). -/
def State.finalLoad (s : State) (c : Cmd) : State :=
  let build := s.stagedBuild
  let fail (st : Status) (reason step : Nat) : State :=
    let s := (s.discardStage .rejected).modPers fun p => { p with failedBuild := build }
    let s := s.persLog { event := 4, st := st.sc, reason := reason, step := step, build := build }
    s.persEnd c.ref 0xC1 st reason step
  if s.stageDamaged then fail .uncorrectableMemory 0 0
  else match s.checkImage .staged s.stagedReader s.pers.stageBytes with
    | none => ((s.setStage .valid).persLog { event := 4, build := build }).persEnd c.ref 0xC1 .success 0 0
    | some f => fail (if f.step = 1 then .imageTooLarge else .personalityRejected) f.reason f.step

/-- LOAD_PERSONALITY (R113). A piece refused at one of steps 1 to 4 leaves `STAGE` and the staged bytes as they were, a
`FINAL` one included. A piece at an offset other than 0 continues only an image that is being received (R115)
(DEDUCED, log entry 32; DESIGN CHOICE, log entry 105). -/
def execLoadPersonality (c : Cmd) (s : State) : Out :=
  s.command c .adminOwner fun s =>
    let numd := c.cdw10.toNat
    let ofst := c.cdw11.toNat
    let final := c.cdw12.getLsbD 0
    let refuse (st : Status) : State :=
      if final then (s.persLog { event := 4, st := st.sc, build := s.stagedBuild }).persEnd c.ref 0xC1 st 0 0
      else s.complete c.ref st
    if s.pers.stage = .inUse then refuse .sequenceError
    else if numd > 262143 then refuse .invalidField
    else if ofst ≠ 0 && !(s.pers.stage == .receiving && 4 * ofst == s.pers.stageBytes) then refuse .invalidField
    else if ofst + numd + 1 > 67108864 then refuse .imageTooLarge
    else
      let s := if ofst = 0 then
          (s.discardStage .receiving).modProt fun p => { p with damaged := p.damaged.filter fun d => d.1 != 16 }
        else s
      let bs := s.dataIn c.prp1 c.prp2 (4 * (numd + 1))
      let s := s.modPers fun p => { p with
        staged := p.staged.put (4 * ofst) bs, stageBytes := 4 * (ofst + numd + 1) }
      if final then s.finalLoad c else s.complete c.ref .success

/-! ### Activating, committing, discarding (R118 to R122) -/

/-- A run is open, or a vendor I/O command is outstanding, on any function. -/
def State.runsOpen (s : State) : Bool :=
  (s.tenants.any (·.runOpen)) || s.pcie.ctrls.any fun k => k.outstanding.any fun o =>
    k.sqs.any fun q => q.qid == o.cmd.sqid && q.compute

/-- Steps 4 to 9 of R119: the status, reason and step of the first that fails. `kind`: the image's kind that the action
takes; steps 6 to 8 are for ACTIVATE_OWNER. -/
def State.activateFail (s : State) (kind : Nat) : Option (Status × Nat × Nat) :=
  let rd := s.stagedReader
  let owner := kind == kindOwner
  let count := match (ofType (hSections rd) 1).head? with
    | some b => tenantCountAt rd b.off
    | none => 0
  if s.pers.stage ≠ .valid then some (.personalityRejected, 0x46, 0)
  else if hKind rd ≠ kind then some (.personalityRejected, 0x45, 0)
  else if owner && s.pers.expired then some (.deadlineMissed, 0, 0)
  else if owner && s.runsOpen then some (.personalityRejected, 0x49, 0)
  else if owner && s.pcie.vfEnable && count != s.pers.active.tenants.length then some (.personalityRejected, 0x4A, 0)
  else if s.stageDamaged then some (.uncorrectableMemory, 0, 0)
  else (s.recheckImage rd).map fun f => (.personalityRejected, f.reason, f.step)

/-- Every slice stops: its clock is gated, its timers stop and its edge latches clear (phase A2). -/
def Slice.quiet (x : Slice) (gated : Bool) : Slice :=
  { x with timers := List.replicate 16 {}, edgeLatch := 0, timerIn := 0, clockGated := gated }

/-- ACTIVATE_OWNER: the checks of R119, then phase A2; the frames are written until CONFIG_WRITE_DONE (R120). -/
def execActivateOwner (c : Cmd) (s : State) : Out :=
  s.command c .adminOwner fun s =>
    if bits c.cdw10.toNat 2 0 > 2 then s.persEnd c.ref 0xC4 .invalidField 0 0
    else if s.pers.job ≠ .none then s.persEnd c.ref 0xC4 .regionQuiescing 0 0
    else match s.activateFail kindOwner with
      | some (st, reason, step) =>
        let s := s.persLog { event := 5, st := st.sc, reason := reason, step := step, build := s.stagedBuild }
        let s := if st = .uncorrectableMemory then s.discardStage .rejected else s
        s.persEnd c.ref 0xC4 st reason step
      | none => s.modPers fun p => { p with
          stage := .inUse, job := .activate c.ref, slices := p.slices.map fun (x : Slice) => x.quiet true }

/-- The base slot that COMMIT_BASE writes (R122): the one other than the running one; in recovery mode the one with the
lower `SEQ`, A when they are equal. -/
def State.commitSlot (s : State) : Nat :=
  let seq (k : Nat) : Nat := ((s.svc.nor.base k).map (·.seq)).getD 0
  if s.pers.baseSlot = 0 then 1
  else if s.pers.baseSlot = 1 then 0
  else if seq 0 ≤ seq 1 then 0 else 1

/-- COMMIT_BASE (R119, R122, R582): the slot is programmed until NOR_OP_DONE
(DEDUCED, log entry 33). -/
def execCommitBase (c : Cmd) (s : State) : Out :=
  s.command c .adminOwner fun s =>
    if bits c.cdw10.toNat 2 0 > 2 then s.persEnd c.ref 0xC4 .invalidField 0 0
    else if s.pers.job ≠ .none then s.persEnd c.ref 0xC4 .regionQuiescing 0 0
    else match s.activateFail kindBase with
      | some (st, reason, step) =>
        let s := if st = .uncorrectableMemory then s.discardStage .rejected else s
        s.persEnd c.ref 0xC4 st reason step
      | none =>
        if s.pers.stageBytes > 41943024 then s.persEnd c.ref 0xC4 .imageTooLarge 0 0
        else
          let slot := s.commitSlot
          let seq := ((s.svc.nor.base (1 - slot)).map (·.seq)).getD 0 + 1
          (s.modPers fun p => { p with stage := .inUse, job := .commitBase c.ref slot seq }).norRequest
            (.base c.ref slot seq)

/-- DISCARD (R119). -/
def execDiscard (c : Cmd) (s : State) : Out :=
  s.command c .adminOwner fun s =>
    if bits c.cdw10.toNat 2 0 > 2 then s.persEnd c.ref 0xC4 .invalidField 0 0
    else if s.pers.job ≠ .none then s.persEnd c.ref 0xC4 .regionQuiescing 0 0
    else (s.discardStage .empty).persEnd c.ref 0xC4 .success 0 0

/-! ### Exchanges (R127 to R135) -/

/-- The result of an exchange
(DEDUCED, log entry 33). -/
def State.exchangeEnd (s : State) (r : CmdRef) (st : Status) (reason step detail : Nat) (build : Id128) : State :=
  (s.persLog { event := 6, st := st.sc, reason := reason, step := step, detail := detail, build := build }).persEnd
    r 0xC5 st reason step

/-- Does an admitted model of the target tenant use an engine class whose weight the image sets to 0? A model with an on-chip
image uses DMA (R77). -/
def State.shareInUse (s : State) (rd : Nat → Byte) : Bool :=
  let t := hTarget rd
  match ((ofType (hSections rd) 1).head?).bind fun (b : HSection) => (structureAt rd b.off).tenants[t]? with
  | none => false
  | some r => (s.tenant t).models.any fun (m : Model) => m.state == .admitted
      && (List.range 6).any fun (k : Nat) =>
        (m.engineMask.getLsbD k || (k == 0 && m.imageLen != 0)) && r.weights.at k == 0

/-- Steps 3 to 7 of R128. -/
def State.exchangeFail (s : State) (expected : Id128) : Option (Status × Nat × Nat) :=
  let rd := s.stagedReader
  if s.pers.stage ≠ .valid then some (.personalityRejected, 0x46, 0)
  else if hKind rd ≠ kindFabric && hKind rd ≠ kindShares then some (.personalityRejected, 0x45, 0)
  else if expected ≠ s.stagedBuild then some (.personalityRejected, 0x47, 0)
  else if s.stageDamaged then some (.uncorrectableMemory, 0, 0)
  else match s.recheckImage rd with
    | some f => some (.personalityRejected, f.reason, f.step)
    | none =>
      if hKind rd = kindShares && s.shareInUse rd then some (.personalityRejected, 0x4C, 0) else none

/-- A REGION_SHARES exchange begins: the structure is replaced, and the tenant's deficits start at 0 (R133). It is in
progress until every engine has applied the change, 2 µs later (`State.sharesEnd`)
(DESIGN CHOICE, log entry 34). -/
def State.exchangeShares (s : State) (c : Cmd) : State :=
  let rd := s.stagedReader
  let t := hTarget rd
  let x := match (ofType (hSections rd) 1).head? with
    | some b => structureAt rd b.off
    | none => s.pers.active
  let s := { s with queues := s.queues.map fun (q : Queue) => { q with deficits := q.deficits.set t 0 } }
  s.modPers fun p => { p with active := x, stage := .inUse, job := .shares c.ref t s.now }
/-- Every engine has applied the new shares: the exchange completes (R133, R135)
(DESIGN CHOICE, log entry 34). -/
def State.sharesEnd (s : State) : State :=
  match s.pers.job with
  | .shares r t since =>
    if s.now < since + 2 then s
    else
      let build := s.stagedBuild
      let s := (s.discardStage .empty).modPers fun p => { p with sharesBuild := p.sharesBuild.set t build, job := .none }
      s.exchangeEnd r .success 0 0 t build
  | _ => s

/-- EXCHANGE_REGION (R128): a fabric exchange drains first, phase X1; a shares exchange replaces the structure
(DEDUCED, log entry 32). -/
def execExchangeRegion (c : Cmd) (s : State) : Out :=
  s.command c .adminOwner fun s =>
    let limit := bits c.cdw10.toNat 15 0
    let rd := s.stagedReader
    if s.pers.job ≠ .none then s.exchangeEnd c.ref .regionQuiescing 0 0 0 0
    else if limit > 1000 then s.exchangeEnd c.ref .invalidField 0 0 0 0
    else match s.exchangeFail (BitVec.ofNat 128 (leOfBytes (s.dataIn c.prp1 c.prp2 16))) with
      | some (st, reason, step) =>
        let build := s.stagedBuild
        let s := if st = .uncorrectableMemory then s.discardStage .rejected else s
        s.exchangeEnd c.ref st reason step (if s.pers.stage = .valid then hTarget rd else 0) build
      | none =>
        if hKind rd = kindShares then s.exchangeShares c
        else s.modPers fun p => { p with
          stage := .inUse, job := .drain c.ref (hTarget rd) (if limit = 0 then 100 else limit) s.now }

/-- A scan of the group runs. -/
def State.groupScans (s : State) (g : Nat) : Bool :=
  (List.range 8).any fun (k : Nat) => (s.queue (40 + 8 * g + k)).entries.any fun (e : QEntry) =>
    e.origin == .word && e.outcome != .queued && classOf e.desc == 3 && opOf e.desc == 2

/-- EXCHANGE_DRAIN_END: no scan of the group runs any more; phase X2 gates its slices and writes their frames. -/
def execExchangeDrainEnd (s : State) : Out :=
  match s.pers.job with
  | .drain r g _ _ =>
    if s.groupScans g then .next s
    else .next (s.modPers fun p => { p with
      job := .writing r g
      slices := p.slices.zipIdx.map fun (x : Slice × Nat) =>
        if x.2 / 8 = g then { x.1 with clockGated := true } else x.1 })
  | _ => .next s

/-- EXCHANGE_DRAIN_TIMEOUT: the exchange is abandoned, and the staged image stays (R131). -/
def execExchangeDrainTimeout (s : State) : Out :=
  match s.pers.job with
  | .drain r g limit since =>
    if s.now < since + 1000 * limit then .next s
    else .next ((s.modPers Pers.stageBack).exchangeEnd r .personalityRejected 0x4B 0 g s.stagedBuild)
  | _ => .next s

/-! ### Frames and grain maps (R97, R100, R132, R142) -/

/-- Map bit `i` of the words of a grain map (Table 03-14). -/
def mapBit : List Qword → Nat → Bool
  | [], _ => false
  | w :: ws, i =>
    if bit w.toNat 63 then
      let n := bits w.toNat 31 0
      if i < n then bit w.toNat 62 else mapBit ws (i - n)
    else
      let n := bits w.toNat 62 57
      if i < n then bit w.toNat i else mapBit ws (i - n)
/-- Is bit `b` of frame `f` essential? Block RAM frames are not in the map. -/
def Slice.essential (x : Slice) (f b : Nat) : Bool :=
  if f < 1792 then mapBit x.grain (4096 * f + b)
  else if f < 1920 then false
  else mapBit x.grain (4096 * (f - 128) + b)
/-- Content of a frame in configuration memory. -/
def Slice.frame (x : Slice) (f : Nat) : Frame := (x.frames.lookup f).getD 0
/-- The golden copy of a frame. -/
def Slice.goldenFrame (x : Slice) (f : Nat) : Frame := (x.golden.lookup f).getD 0
/-- What a frame holds changes; a frame of zeros needs no entry. -/
def Slice.putFrame (x : Slice) (f : Nat) (v : Frame) : Slice :=
  { x with frames := x.frames.filter (fun y => decide (y.1 < f)) ++ (if v = 0 then [] else [(f, v)])
      ++ x.frames.filter (fun y => decide (f < y.1)) }
/-- The check bits that a write of a frame forms: byte `w` belongs to word `w` (R97)
(DEDUCED, log entry 38). -/
def frameChecks (v : Frame) : BitVec 512 :=
  BitVec.ofNat 512 (leOfBytes ((List.range 64).map fun w => Config.secDed (BitVec.ofNat 64 (v.toNat / 2 ^ (64 * w)))))
/-- The check bits stored beside a frame whose last write was of its golden copy. -/
def Slice.checks (x : Slice) (f : Nat) : BitVec 512 := frameChecks (x.goldenFrame f) ^^^ (x.checkFlips.lookup f).getD 0
/-- A write of a frame forms its check bits anew (R97). -/
def Slice.writeFrame (x : Slice) (f : Nat) (v : Frame) : Slice :=
  { x.putFrame f v with checkFlips := x.checkFlips.filter (·.1 != f) }
/-- An upset flips stored bit `b` of a frame: a configuration bit, or from 4,096 on check bit `b - 4096`. -/
def Slice.upset (x : Slice) (f b : Nat) : Slice :=
  if b < 4096 then x.putFrame f (x.frame f ^^^ BitVec.ofNat 4096 (2 ^ b))
  else
    let v := (x.checkFlips.lookup f).getD 0 ^^^ BitVec.ofNat 512 (2 ^ (b - 4096))
    { x with checkFlips := x.checkFlips.filter (·.1 != f) ++ (if v = 0 then [] else [(f, v)]) }
/-- The bits in which a frame differs from its golden copy, and how many of them are essential. -/
def Slice.differences (x : Slice) (f : Nat) : Nat × Nat :=
  let d := x.frame f ^^^ x.goldenFrame f
  let l := (List.range 4096).filter fun (b : Nat) => d.getLsbD b
  (l.length, (l.filter (x.essential f)).length)

/-- A slice with the frames of its slice block, or with pass-all logic where it has none (R100). -/
def Slice.load (x : Slice) (im : Option SliceImage) : Slice :=
  match im with
  | none => { x with frames := [], checkFlips := [], golden := [], grain := [], passAll := true, timerInherit := 0 }
  | some y =>
    let fs := y.frames.filter fun z => z.2 != 0
    { x with frames := fs, checkFlips := [], golden := fs, grain := y.grain, passAll := false, timerInherit := y.inherit }

/-- A configuration scrub log entry of kind WRITE_VERIFY_FAILED (R146). -/
def State.verifyEntry (s : State) (k f changed essential : Nat) : State :=
  s.log 0xC4 (bytesOfLe 1 2 ++ [0] ++ bytesOfLe 1 k ++ [0] ++ bytesOfLe 4 (65536 * k + f) ++ bytesOfLe 2 changed
    ++ bytesOfLe 2 essential ++ List.replicate 36 0)
/-- A frame has failed verification twice: what it holds is a free value, and the failure is logged (R121, R132)
(DESIGN CHOICE, log entry 34). -/
def State.badFrame (s : State) (k f : Nat) : State :=
  let (r, s) : Region × State := s.drawRegion
  let v : Frame := BitVec.ofNat 4096 (leOfBytes (r.get 0 512))
  let s := s.modPers fun p => { p with slices := p.slices.modify k fun x => x.writeFrame f v }
  let d := (s.pers.slices.getD k {}).differences f
  s.verifyEntry k f d.1 d.2
/-- Write the frames of some slices from an image. -/
def State.writeSlices (s : State) (ks : List Nat) (im : List SliceImage) (bad : List (Nat × Nat)) : State :=
  let s := s.modPers fun p => { p with
    slices := p.slices.zipIdx.map fun (x : Slice × Nat) =>
      if ks.contains x.2 then x.1.load (im.find? fun y => y.slice == x.2) else x.1 }
  bad.foldl (fun (s : State) b => s.badFrame b.1 b.2) s
/-- Keep the frames of `bad` that lie in slices `ks`, once each. -/
def badIn (ks : List Nat) (bad : List (Nat × Nat)) : List (Nat × Nat) :=
  (bad.filter fun b => ks.contains b.1 && decide (b.2 < 2048)).eraseDups
/-- The groups that hold bad frames. -/
def badGroups (bad : List (Nat × Nat)) : BitVec 4 :=
  bad.foldl (fun (m : BitVec 4) b => m ||| BitVec.ofNat 4 (2 ^ (b.1 / 8))) 0

/-! ### Taking effect (phases A3 to A6, X3 and X4) -/

/-- Apply CLOCK_PLAN (R86). -/
def State.applyClock (s : State) (c : Option (Nat × Nat × Nat)) : State :=
  match c with
  | none => s
  | some (fab, step, cap) => s.modPower fun p => { p with fabMhz := fab, targetStep := step, capW := cap }

/-- A tenant as an activation leaves it: nothing admitted, allocated or open (R121, R289, R306, R328). -/
def Tenant.fresh : Tenant := { watermarks := (List.range 8).map fun (w : Nat) => { mark := tenantMark w } }

/-- Every buffer ends, and every session is abandoned. -/
def State.endTenants (s : State) : State :=
  s.tenants.zipIdx.foldl (fun (s : State) t =>
    (t.1.buffers.foldl (fun (s : State) b => s.endBuffer t.2 b) s).abandonSession t.2) s

/-- A new structure is in place: its tenants are fresh, counters are 0, peer flows are reset, and watermarks are at
their defaults; the levels of the module's own stay (R121, R328). -/
def State.install (s : State) (x : Structure) : State :=
  let s := s.modPers fun p => { p with active := x }
  let s := { s with
    tenants := List.replicate x.tenants.length Tenant.fresh
    invocations := []
    ctrs := {}
    marks := s.marks.zipIdx.map fun (w : Watermark × Nat) => { mark := moduleMark w.2 s.media.wearSpread, level := w.1.level } }
  let s := s.modSram 6 fun u => { u with poison := [] }
  let s := s.modPeer fun p => { p with flows := [] }
  (List.range 4).foldl (fun (s : State) g => s.judgeReadOnly g) s

/-- Record a role for every group (R81). -/
def State.recordRoles (s : State) (roles : List Role) : State :=
  s.modMedia fun m => { m with groups := m.groups.zipIdx.map fun (g : Group × Nat) =>
    { g.1 with recorded := (roles[g.2]?).or g.1.recorded } }

/-- The layouts that an image gives the groups. -/
def HelolImage.layoutsOf (im : HelolImage) : List (List Layout) := (List.range 4).map fun (g : Nat) => (im.layouts.lookup g).getD []

/-- The end of ACTIVATE_OWNER: phases A3 to A6 (R120, R121). -/
def State.activateEnd (s : State) (r : CmdRef) (bad : List (Nat × Nat)) : State :=
  let im := imageOf s.stagedReader
  let bad := badIn (List.range 32) bad
  let x := im.structure_.getD s.pers.active
  let s := (s.writeSlices (List.range 32) im.slices bad).endTenants
  let s := (s.install x).recordRoles x.groupRole
  let s := s.modPers fun p => { p with
    blockedGroups := badGroups bad
    layouts := im.layoutsOf
    ucode := (im.ucode.map Region.ofBytes).getD p.ucode }
  let s := (s.applySettings im.settings).applyClock im.clock
  let s := (s.modPeer fun p => { p with locked := true }).discardStage .empty
  let s := s.modPers fun p => { p with
    slices := p.slices.map fun (y : Slice) =>
      { y with clockGated := false, edgeLatch := if im.inheritEdges then y.edgeLatch else 0 }
    activeKind := 2, ownerBuild := im.build, regionBuild := List.replicate 4 0, sharesBuild := List.replicate 16 0
    job := .none }
  let s := s.modProt fun p => { p with damaged := [] }
  let st : Status := if bad.isEmpty then .success else .personalityRejected
  let reason := if bad.isEmpty then 0 else 0x4D
  (s.persLog { event := 5, st := st.sc, reason := reason, build := im.build }).persEnd r 0xC4 st reason 0

/-- A slice is released to the logic of an image: held expiries and latched edges are delivered or discarded
(R137, R138). The answer counts the expiries discarded
(DEDUCED, log entry 35). -/
def Slice.release (x : Slice) (inheritEdges : Bool) : Slice × Nat :=
  let keeps (t : Nat) : Bool := x.timerInherit.getLsbD t
  let held := x.timers.zipIdx.filter fun (t : ShellTimer × Nat) => t.1.held
  let given := (held.filter fun (t : ShellTimer × Nat) => keeps t.2).foldl
    (fun (m : BitVec 16) t => m ||| BitVec.ofNat 16 (2 ^ t.2)) 0
  ({ x with
      timers := x.timers.zipIdx.map fun (t : ShellTimer × Nat) => if keeps t.2 then { t.1 with held := false } else {}
      timerIn := given
      edgeLatch := if inheritEdges then x.edgeLatch else 0
      clockGated := false },
    (held.filter fun (t : ShellTimer × Nat) => !keeps t.2).length)

/-- The end of a fabric exchange: phases X3 and X4 (R129, R132, R135). -/
def State.exchangeFabricEnd (s : State) (r : CmdRef) (g : Nat) (bad : List (Nat × Nat)) : State :=
  let im := imageOf s.stagedReader
  let ks := (List.range 8).map fun (k : Nat) => 8 * g + k
  let bad := badIn ks bad
  let s := s.writeSlices ks im.slices bad
  let out := s.pers.slices.zipIdx.map fun (x : Slice × Nat) => if x.2 / 8 = g then x.1.release im.inheritEdges else (x.1, 0)
  let mask : BitVec 4 := BitVec.ofNat 4 (2 ^ g)
  let s := s.modPers fun p => { p with
    slices := out.map (·.1)
    shellDiscards := satAdd32 p.shellDiscards ((out.map (·.2)).foldl (· + ·) 0)
    layouts := p.layouts.set g ((im.layouts.lookup g).getD [])
    blockedGroups := if bad.isEmpty then p.blockedGroups &&& ~~~mask else p.blockedGroups ||| mask
    job := .none }
  if bad.isEmpty then
    let s := (s.discardStage .empty).modPers fun p => { p with regionBuild := p.regionBuild.set g im.build }
    s.exchangeEnd r .success 0 0 g im.build
  else (s.modPers Pers.stageBack).exchangeEnd r .personalityRejected 0x4D 0 g im.build

/-- CONFIG_WRITE_DONE: the frames have been written and verified; `badFrames` failed twice. -/
def execConfigWriteDone (badFrames : List (Nat × Nat)) (s : State) : Out :=
  match s.pers.job with
  | .activate r => .next (s.activateEnd r badFrames)
  | .writing r g => .next (s.exchangeFabricEnd r g badFrames)
  | _ => .next s

/-! ### Status (R139, R140) -/

/-- Page 0x00. -/
def State.persSummary (s : State) : List Byte :=
  let p := s.pers
  let id (v : Id128) : List Byte := bytesOfLe 16 v.toNat
  let slot (k : Nat) : List Byte :=
    bytesOfLe 7 (((s.svc.nor.base k).map (·.seq)).getD 0) ++ bytesOfLe 1 (p.slotReason.getD k 0)
  padTo 4096 (bytesOfLe 4 s.persState ++ bytesOfLe 4 s.persResult ++ bytesOfLe 4 p.stageBytes ++ bytesOfLe 4 s.persDeadline
    ++ id p.baseBuild ++ id p.ownerBuild ++ id s.stagedBuild ++ id s.stagedParent ++ id p.failedBuild
    ++ p.regionBuild.flatMap id ++ p.sharesBuild.flatMap id ++ slot 0 ++ slot 1)
/-- Page 0x02. -/
def State.persKeys (s : State) : List Byte :=
  padTo 4096 ((List.range 2).flatMap (fun (k : Nat) => bytesOfLe 8 (Config.vendorKeyId k).toNat)
    ++ s.pers.ownerKeys.flatMap fun (k : Option OwnerKey) => bytesOfLe 8 (match k with
      | some (x : OwnerKey) => x.keyId.toNat
      | none => 0))

/-- PERSONALITY_STATUS (R134, R140). -/
def execPersonalityStatus (c : Cmd) (s : State) : Out :=
  s.command c .adminOwner fun s =>
    let page := bits c.cdw10.toNat 7 0
    let a := c.cdw11.toNat
    let k := bits a 20 16
    let answer (bs : List Byte) : State := (s.dataOut c.fn c.prp1 c.prp2 bs).complete c.ref .success
    if page = 0 then answer s.persSummary
    else if page = 1 then
      if a ≠ 65536 * k + a % 2048 then s.complete c.ref .invalidField
      else
        let busy := match s.pers.job with
          | .writing _ g => k / 8 == g
          | _ => false
        if busy then s.complete c.ref .regionQuiescing
        else answer (bytesOfLe 512 ((s.pers.slices.getD k {}).frame (a % 2048)).toNat)
    else if page = 2 then answer s.persKeys
    else s.complete c.ref .invalidField

/-! ### The owner deadline (R123 to R126) -/

/-- The deadline has been missed (R126). -/
def State.missDeadline (s : State) : State :=
  (s.modPers fun p => { p with expired := true }).persLog
    { event := 7, st := Status.deadlineMissed.sc, build := s.pers.baseBuild }
/-- The deadline runs: a base personality is in place, and no activation has passed its checks (R125). -/
def State.deadlineRuns (s : State) : Bool :=
  s.pers.armedAt.isSome && s.pers.activeKind == 1 && !s.pers.expired && (match s.pers.job with
    | .activate _ => false
    | _ => true)

/-- The moment of the deadline has come (R124). -/
def State.deadlineDue (s : State) : Bool :=
  match s.pers.armedAt with
  | some t => s.deadlineRuns && decide (t + 1000 * s.pers.deadlineMs ≤ s.now)
  | none => false
/-- OWNER_DEADLINE_EXPIRY. -/
def execOwnerDeadlineExpiry (s : State) : Out := if s.deadlineDue then .next s.missDeadline else .next s

/-- A write of `PERS_DEADLINE` (R124, Table 04-4). -/
def execPersDeadlineWrite (value : Dword) (s : State) : Out := s.whenOpen <|
  let ms := bits value.toNat 15 0
  if s.pers.expired || s.pers.activeKind = 2 || ms < 1000 || ms > 60000 then .next s
  else
    let s := s.modPers fun p => { p with deadlineMs := ms }
    if s.deadlineDue then .next s.missDeadline else .next s

/-! ### Shell timers and configuration scrubbing (R136, R137, R142, R143) -/

/-- SHELL_TIMER_EXPIRY: a running timer has counted down. While its slice is gated, the expiry is held, one per timer; else the
logic takes it or leaves it pending. A periodic timer starts over from its reload value
(DEDUCED, log entry 35). -/
def execShellTimerExpiry (slice timer : Nat) (taken : Bool) (s : State) : Out :=
  match s.pers.slices[slice]? with
  | none => .next s
  | some x => match x.timers[timer]? with
    | none => .next s
    | some t =>
      if !t.running || s.now < t.since + t.count then .next s
      else
        let overran := x.clockGated && t.held
        let t' : ShellTimer := { t with
          count := if t.periodic then t.reload else 0, since := s.now, running := t.periodic
          held := t.held || x.clockGated || !taken }
        let x' := { x with
          timers := x.timers.set timer t'
          timerIn := if !x.clockGated && taken then x.timerIn ||| BitVec.ofNat 16 (2 ^ timer) else x.timerIn }
        .next (s.modPers fun p => { p with
          slices := p.slices.set slice x'
          shellOverruns := if overran then satAdd32 p.shellOverruns 1 else p.shellOverruns })

/-- Is a frame scrubbed (Table 03-12)? -/
def scrubbed (f : Nat) : Bool := decide (f < 1792) || (decide (1920 ≤ f) && decide (f < 2048))

/-- The scrubber rewrites one frame that differs from its golden copy, or whose check bits do not fit it. Only
configuration bits are classified and counted (R142, R143)
(DEDUCED, log entry 38). -/
def State.scrubFrame (s : State) (k f : Nat) : State :=
  let x := s.pers.slices.getD k {}
  let d := x.differences f
  if d.1 = 0 && (x.checkFlips.lookup f).isNone then s
  else
    let s := s.modPers fun p => { p with
      slices := p.slices.modify k fun y => y.writeFrame f (y.goldenFrame f)
      scrubCorrected := satAdd32 p.scrubCorrected (d.1 - d.2)
      scrubEssential := satAdd32 p.scrubEssential d.2 }
    if d.2 = 0 then s else s.taintSlice k (65536 * k + f) d.1 d.2

/-- CONFIG_SCRUB_PASS: the scrubber has read every scrubbed frame once, and finds these stored bits flipped: slice, frame
and bit, the check bits from 4,096 on (R97, R142). Slices between X2 and X4 are left out. Before DRAM is initialised, what
it writes comes from the boot NOR, whose image the golden copy repeats (R141)
(DEDUCED, log entries 38, 39). -/
def execConfigScrubPass (upsets : List (Nat × Nat × Nat)) (s : State) : Out :=
  if !s.pers.inPlace || !s.engines then .next s
  else
    let gated (k : Nat) : Bool := (s.pers.slices.getD k {}).clockGated
    let live := upsets.filter fun u => decide (u.1 < 32) && scrubbed u.2.1 && decide (u.2.2 < 4608) && !gated u.1
    let s := live.foldl (fun (s : State) u => s.modPers fun p => { p with
      slices := p.slices.modify u.1 fun (x : Slice) => x.upset u.2.1 u.2.2 }) s
    let s := (List.range 32).foldl (fun (s : State) k =>
      if gated k then s
      else
        let x := s.pers.slices.getD k {}
        let fs := (x.frames.map (·.1) ++ x.golden.map (·.1) ++ x.checkFlips.map (·.1)).eraseDups.filter scrubbed
        fs.foldl (fun (s : State) f => s.scrubFrame k f) s) s
    let rasp := s.rasp.zipIdx.map fun (u : RaspUnit × Nat) => if gated u.2 then u.1 else { u.1 with passedBy := [] }
    .next ({ s with rasp := rasp }.modPers fun p => { p with scrubPasses := satAdd32 p.scrubPasses 1 })

/-! ### The base personality (R45, R82, R107 to R109) -/

/-- The order in which the base slots are tried (R107)
(DEDUCED, log entry 33). -/
def Nor.baseOrder (n : Nor) : List Nat :=
  match n.baseA, n.baseB with
  | none, some _ => [1, 0]
  | some a, some b => if b.seq > a.seq then [1, 0] else [0, 1]
  | _, _ => [0, 1]

/-- Check a base slot. A slot without a valid record holds no image that could pass: it is taken as erased, and its
length field is above the limit (step 1). -/
def State.baseFail (s : State) (slot : Nat) : Option ImageFail :=
  match s.svc.nor.base slot with
  | none => some { step := 1, reason := 0 }
  | some b => s.checkImage .bootNor (b.image.reader b.length) b.length

/-- Try base slots in order: the state with an entry for each that failed, and the first that passes
(DEDUCED, log entry 33). -/
def State.tryBase (s : State) : List Nat → State × Option Nat
  | [] => (s, none)
  | k :: r => match s.baseFail k with
    | none => (s, some k)
    | some f =>
      let build := match s.svc.nor.base k with
        | some b => hBuild (b.image.reader 64)
        | none => 0
      let st : Status := if f.step = 1 then .imageTooLarge else .personalityRejected
      let s := s.modPers fun p => { p with slotReason := p.slotReason.set k f.reason }
      (s.persLog { event := 1, st := st.sc, reason := f.reason, step := f.step, detail := k, build := build }).tryBase r

/-- The roles that a base image gets: the recorded one of a group that has one, with an entry where they differ (R82). -/
def State.baseRoles (s : State) (x : Structure) (build : Id128) : State × List Role :=
  let recorded (g : Nat) : Option Role := (s.media.groups.getD g {}).recorded
  let roles := x.groupRole.zipIdx.map fun (y : Role × Nat) => (recorded y.2).getD y.1
  let bad := (List.range 4).filter fun (g : Nat) => (recorded g).isSome && recorded g != x.groupRole[g]?
  (bad.foldl (fun (s : State) g => s.persLog { event := 3, detail := g, build := build }) s, roles)

/-- Counts and results as a base load sets them (R144). -/
def Pers.restart (p : Pers) : Pers :=
  { p with
    resStatus := 0, resReason := 0, resStep := 0, resOpcode := 0, scrubPasses := 0, scrubCorrected := 0
    scrubEssential := 0, taintSlices := 0, shellDiscards := 0, shellOverruns := 0, stage := .empty, staged := {}
    stageBytes := 0, job := .none, blockedGroups := 0, expired := false, armedAt := none, ownerBuild := 0
    failedBuild := 0, regionBuild := List.replicate 4 0, sharesBuild := List.replicate 16 0, slotReason := [0, 0]
    baseBuild := 0, activeKind := 0, baseSlot := 2, recovery := false, active := {}
    layouts := List.replicate 4 [], inPlace := true
    slices := p.slices.map fun (x : Slice) => (x.quiet false).load none }

/-- A base image takes effect (R82, R86, R94, R124). A frame that fails verification twice does not stop the load: it is
logged, and no group is blocked, since R144 has `BLOCKED_GROUPS` 0 after a load
(DESIGN CHOICE, log entry 104). -/
def State.baseEnd (s : State) (slot : Nat) (b : BaseSlot) (bad : List (Nat × Nat)) : State :=
  let im := imageOf (b.image.reader b.length)
  let x := im.structure_.getD {}
  let r := s.baseRoles x im.build
  let s := r.1
  let index (g : Nat) : Bool := r.2[g]? == some Role.index
  let slices := im.slices.filter fun y => index (y.slice / 8)
  let bad := badIn (List.range 32) bad
  let s := (s.writeSlices (List.range 32) slices bad).install { x with groupRole := r.2 }
  let s := s.modPers fun p => { p with
    activeKind := 1, baseSlot := slot, baseBuild := im.build, armedAt := some s.now
    layouts := im.layoutsOf.zipIdx.map fun (l : List Layout × Nat) => if index l.2 then l.1 else []
    ucode := (im.ucode.map Region.ofBytes).getD {} }
  let s := (s.applySettings im.settings).applyClock im.clock
  s.persLog { event := 2, detail := slot, build := im.build }

/-- BASE_PERSONALITY_LOAD: the base slots are tried in the order of R107; when both fail, the module enters recovery
mode (R45). `badFrames` failed verification twice
(DEDUCED, log entry 39). -/
def execBasePersonalityLoad (badFrames : List (Nat × Nat)) (s : State) : Out :=
  if s.power.stage ≠ .on || s.power.perst || !s.svc.running || s.svc.runSlot = 2 || s.pers.inPlace then .next s
  else
    let s := (s.modPers Pers.restart).modPeer fun p => { p with locked := false }
    let s := s.install {}
    match s.tryBase s.svc.nor.baseOrder with
    | (s, none) => .next ((s.modPers fun p => { p with recovery := true }).persLog { event := 9 })
    | (s, some k) => match s.svc.nor.base k with
      | none => .next s
      | some b => .next (s.baseEnd k b badFrames)

end Sys2Proof.Machine
end

