-- ==== Sys2Proof/Machine/Reset.lean ====
section
/-!
DEFINITION. Reset.lean: what each reset of Table 02-12 clears and keeps, and the commands that request one
(chapters 02, 05 and 19).
-/

namespace Sys2Proof.Machine

/-! ### Feature values across resets (Tables 05-5, 05-7, R601) -/

/-- Set one feature of a controller: identifier, selector, value (Tables 05-5 and 05-7). -/
def Features.put (f : Features) (fid sel v : Nat) : Features :=
  if fid = 0x01 then { f with ab := bits v 2 0, lpw := bits v 15 8, mpw := bits v 23 16, hpw := bits v 31 24 }
  else if fid = 0x04 then if sel = 0 then { f with tempOver := v % 65536 } else { f with tempUnder := v % 65536 }
  else if fid = 0x08 then { f with coalesce := BitVec.ofNat 32 (v % 65536) }
  else if fid = 0x0A then { f with atomicity := BitVec.ofNat 32 (v % 2) }
  else if fid = 0x0B then { f with asyncCfg := BitVec.ofNat 32 v }
  else if fid = 0xC0 then { f with deadlineMs := bits v 15 0, nvmTimeoutMs := bits v 31 16 }
  else f
/-- The saved features of a function, else the defaults. -/
def State.savedFeatures (s : State) (fn : Nat) : Features :=
  (s.svc.featSaved.filter fun x => x.1 == fn).foldl (fun (f : Features) x => f.put x.2.1 x.2.2.1 x.2.2.2)
    { timestampAt := s.now }
/-- The saved `FLOOR_MS`, or its default. -/
def State.savedFloor (s : State) : Nat :=
  match s.svc.featSaved.find? fun x => x.1 == 0 && x.2.1 == 0xC1 with
  | some x => x.2.2.2 % 65536
  | none => 5
/-- The features of a function as a reset of its controller leaves them: a saved timeout below the floor is raised to it, so
that the retry-budget rule holds at all times (R185)
(DESIGN CHOICE, log entry 109). -/
def State.startFeatures (s : State) (fn floor : Nat) : Features :=
  let f := s.savedFeatures fn
  { f with deadlineMs := max f.deadlineMs floor, nvmTimeoutMs := max f.nvmTimeoutMs floor }
/-- `FLOOR_MS` as it is restored: the saved value, or the least one above it that both lower-level budgets stay below (R185)
(DESIGN CHOICE, log entry 109). -/
def State.floorOver (s : State) (budgetUs rtoUs retryLimit : Nat) : Nat :=
  max s.savedFloor (max (budgetUs / 1000 + 1) (rtoUs * (retryLimit + 1) / 1000 + 1))
/-- `FLOOR_MS` after a reset, with the budgets at their reset values (Tables 15-11, 18-9)
(DESIGN CHOICE, log entry 109). -/
def State.startFloor (s : State) : Nat := s.floorOver 2000 40 12

/-! ### Resets of a function (R55, R173 to R175, R191, R232) -/

/-- The run of a tenant ends, its counters freeze, its partial admissions and its session go (R174, R232). -/
def State.resetTenant (s : State) (t : Nat) : State :=
  let s := (s.invocations.filter (·.tenant == t)).foldl (fun (s : State) i => s.stopInv i 0x95 0 true) s
  let s := s.modTenant t fun x => { x with ending := none, runOpen := false, frozen := true }
  let s := ((s.tenant t).models.filter (·.state == .receiving)).foldl (fun (s : State) m => s.dropModel t m.slot) s
  s.abandonSession t

/-- NOR operations of a function's commands: the running one stops, and leaves its slot without a valid record; those that
wait are dropped (R122, R592). -/
def State.dropNor (s : State) (mine : NorJob → Bool) : State :=
  let q := s.svc.nor.queue
  let front := match q with
    | j :: _ => s.svc.nor.busy && mine j
    | [] => false
  let s := s.modNor fun n => { n with queue := q.filter fun j => !mine j, busy := n.busy && !front }
  s.norStart

/-- A NOR operation that a command of a function started: a Firmware Commit, a COMMIT_BASE or a Set Features. -/
def NorJob.commandOf (fn : Nat) : NorJob → Bool
  | .save | .clear => false
  | .commit c .. | .promote c _ | .base c .. | .features c _ => c.fn == fn

/-- A controller as a reset of its function leaves it: raised events that wait and held-back codes stay (R191), and so do
the error log and the changed namespaces. `flr`: the MSI-X table and the admin queue registers are reset as well
(PRESUMED, log entry 13). -/
def Ctrl.afterReset (k : Ctrl) (f : Features) (flr : Bool) : Ctrl :=
  { features := f, waiting := k.waiting, held := k.held, changedNs := k.changedNs, errorLog := k.errorLog,
    errorCount := k.errorCount
    aqa := if flr then 0 else k.aqa
    asq := if flr then 0 else k.asq
    acq := if flr then 0 else k.acq
    msix := if flr then List.replicate 129 {} else k.msix
    msixPending := if flr then [] else k.msixPending }

/-- Reset the controller of a function: its commands end without a completion, and nothing of them is left that could
complete a later one: write-through blocks that were not acknowledged, reads of flash, rows of a publish and NOR operations
(R174, R182); a VF's tenant loses its run (R174), and
PF0's commit and self-test end (R592, R611); the image of an interrupted COMMIT_BASE is VALID again (log entry 107)
(DESIGN CHOICE, log entries 27, 107; DEDUCED, log entries 31, 53). -/
def State.resetFunction (s : State) (fn : Nat) (flr : Bool) : State :=
  let f := s.startFeatures fn s.pcie.floorMs
  let s := s.modCtrl fn fun k => k.afterReset f flr
  let s := s.modSvc fun c => { c with monitor := { c.monitor with unlocked := false } }
  let s := s.modMedia fun m => { m with
    reads := m.reads.filter fun r => r.ref.fn != fn
    flushes := m.flushes.filter fun r => r.ref.fn != fn
    buffer := m.buffer.filter fun b => (b.waiter.map (·.fn)) != some fn
    jobs := m.jobs.map fun j => match j.kind with
      | .publish c => if c.fn = fn then { j with kind := .orphan } else j
      | _ => j }
  let s := (s.dropReaders fun c => c.fn == fn).dropNor (NorJob.commandOf fn)
  if fn = 0 then
    let s := s.abortTest 2
    match s.pers.job with
    | .commitBase .. => s.modPers Pers.stageBack
    | _ => s
  else s.resetTenant (fn - 1)

/-- Set bits of `RESET_CAUSE`
(DEDUCED, log entry 28). -/
def State.cause (s : State) (bit_ : Nat) : State :=
  s.modPower fun p => { p with resetCause := p.resetCause ||| BitVec.ofNat 9 (2 ^ bit_) }

/-! ### Resets that reach CORE (R54, R57, Table 02-12) -/

/-- The CLKPWR block: `RESET_CAUSE`, `THERM`, `HOLDUP` and `SIDEBAND` keep their values (R53). -/
def Power.coreReset (p : Power) (perst : Bool) : Power :=
  { p with
    targetStep := 18, capW := 850, powerCeiling := 21, overSamples := 0, underSamples := 0
    currentStep := min 18 p.thermalCeiling, stepping := false, stepGoal := 18, stepAt := none, fabMhz := 0, dramReady := false
    moduleResetPending := false
    linkUp := p.linkUp && !perst
    linkWidth := if perst then 0 else p.linkWidth
    linkRate := if perst then 0 else p.linkRate }
/-- The personality: no structure is in place until the next base load; owner keys stay (R110, R116, R123). -/
def Pers.coreReset (p : Pers) (perst : Bool) : Pers :=
  { deadlineMs := if perst then 10000 else p.deadlineMs, ownerKeys := p.ownerKeys }
/-- The PCIe block: configuration space is kept but by `PERST_N`; every waiting event and held code is cleared (R191)
(PRESUMED, log entry 120). -/
def State.pcieReset (s : State) (perst : Bool) : Pcie :=
  { s.pcie with
    ctrls := (List.range 17).map fun (fn : Nat) => { features := s.startFeatures fn s.startFloor }
    lastFn := 0, fetchStopped := false, floorMs := s.startFloor
    vfEnable := s.pcie.vfEnable && !perst
    numVfs := if perst then 0 else s.pcie.numVfs
    config := if perst then List.replicate 17 {} else s.pcie.config
    vfBar0 := if perst then 0 else s.pcie.vfBar0
    vfBar2 := if perst then 0 else s.pcie.vfBar2 }
/-- The flash behind the controllers keeps its content; the MEDIA registers return to their reset values
(DESIGN CHOICE, log entry 74). -/
def Media.coreReset (m : Media) (big : Bool) : Media :=
  { m with
    budgetUs := 2000, maxMode := 5, eraseMax := 16, progMax := 4, retryReads := 0, rebuilt := 0, unreadable := 0
    suspends := 0, calibrations := 0, patrolDays := 7, wearSpread := if big then 150 else 300
    channels := m.channels.map fun (c : Channel) => { c with mode := 0, trained := false, trainFails := 0, belowCap := false, firstFails := [] }
    superblocks := m.superblocks.map fun (b : Superblock) => { b with erasing := [], sourcing := none }
    mapCache := []
    groups := m.groups.map fun (g : Group) => { g with mapLoaded := false } }
/-- DRAM loses its content; marks, remap entries and retired pages stay (R540). -/
def MemStack.coreReset (k : MemStack) : MemStack :=
  { failedDie := k.failedDie, secondDie := k.secondDie, remap := k.remap, retired := k.retired }
/-- The PEER block. -/
def Peer.coreReset (p : Peer) : Peer :=
  { ports := p.ports.map fun (x : Port) => { state := if x.state = .off then .off else .down }
    cageOn := p.cageOn, cable := p.cable, wire := p.wire }
/-- The service complex: the monitor locks, staging is empty, and a NOR operation that runs is lost (R589, R592, R604). -/
def Service.coreReset (c : Service) : Service :=
  { c with
    nor := { c.nor with queue := [], busy := false, refused := 0, clkSel := 0, dummy := 8, mode := 0 }
    fwStage := {}, fwStageBytes := 0, running := false, dataPath := false, fallback := false, wdtLeftUs := 2000000
    held := none, settingsBusy := false
    monitor := { c.monitor with unlocked := false, nonce := none, baud := 115200 } }

/-- Every command is aborted and posts no completion, a held event request among them (R54, R59). -/
def State.dropCommands (s : State) : State :=
  s.modPcie fun p => { p with ctrls := p.ctrls.map fun (k : Ctrl) => { k with outstanding := [], aers := [] } }

/-- What a reset whose scope reaches CORE and MEM does after its flush. Logs, flash and the boot NOR stay
(DESIGN CHOICE, log entry 27). -/
def State.scopeReset (s : State) (perst : Bool) : State :=
  let s := (s.abortTest 8).endTenants
  { s with
    power := s.power.coreReset perst
    pers := s.pers.coreReset perst
    pcie := s.pcieReset perst
    invocations := [], queues := List.replicate 78 {}, engFaults := 0, engSpills := 0, ctrs := {}, tenants := []
    pairs := List.replicate 16 {}, rasp := List.replicate 32 {}, burl := List.replicate 2 {}
    media := s.media.coreReset s.big
    prot := { dramStacks := s.prot.dramStacks.map MemStack.coreReset }
    peer := s.peer.coreReset
    svc := s.svc.coreReset
    marks := (List.range 26).map fun (w : Nat) => { mark := moduleMark w (if s.big then 150 else 300) } }

/-- A reset of a kind of Table 02-12: every command is aborted, and phase P2 runs first, from input power (R54, R59). A
reset that is pending or held merges with it, and both causes are set (R57). While the module is unpowered or runs
the power-loss sequence, a reset is ignored (R41)
(DESIGN CHOICE, log entry 27). -/
def State.resetNow (s : State) (kind : ResetKind) : State :=
  if s.power.stage ≠ .on then s
  else
    let held (f : HeldReset → Bool) : Bool := (s.svc.held.map f).getD false
    let module := kind == .moduleReset || s.power.moduleResetPending || held (·.moduleReset)
    let dog := kind == .watchdog || held (·.watchdog)
    let s := (s.dropCommands.flushAll []).scopeReset (kind == .perst)
    let s := if module then s.cause 4 else s
    let s := if dog then s.cause 5 else s
    if kind = .perst then s.cause 1 else s

/-- The power-on reset: what has power only from here on starts afresh; flash, the boot NOR, the logs' copy and the keys
stay, and `RESET_CAUSE` shows `POR` with the causes of a power-loss sequence before it (Table 02-12, R53). -/
def State.powerOn (s : State) : State :=
  let s := s.scopeReset true
  let causes := if s.power.lossPending then s.power.resetCause &&& 0x1C0#9 else 0
  let p : Power :=
    { trippedRail := s.power.trippedRail, lostBlocks := s.power.lostBlocks, lossPending := s.power.lossPending
      perst := s.power.perst, pwrdis := s.power.pwrdis, resetCause := causes ||| 1#9 }
  { s with
    power := p
    svc := { s.svc with wdtExpiries := 0, shieldHolds := 0, bootSel := false }
    peer := { s.peer with
      cageOn := [true, true]
      ports := List.replicate 4 {} }
    logs := { s.logs with
      c0 := { s.logs.c0 with lost := 0, lostOf := [] }
      c1 := { s.logs.c1 with lost := 0, lostOf := [] }
      c2 := { s.logs.c2 with lost := 0, lostOf := [] }
      c4 := { s.logs.c4 with lost := 0, lostOf := [] }
      c5 := { s.logs.c5 with lost := 0, lostOf := [] }
      c6 := { s.logs.c6 with lost := 0, lostOf := [] }
      c7 := { s.logs.c7 with lost := 0, lostOf := [] }
      c8 := { s.logs.c8 with lost := 0, lostOf := [] }
      deferredLost := 0, deferredLostOf := [] }
    pins := { recoveryCapable := s.pins.recoveryCapable } }

/-! ### PERST_N, hot reset, function resets (R54 to R57, R149, R174) -/

/-- PERST_ASSERT. A module reset that is pending or held merges with it (R57). -/
def execPerstAssert (s : State) : Out :=
  if s.power.stage ≠ .on || s.power.perst then .next (s.modPower fun p => { p with perst := true })
  else
    .next ((s.resetNow .perst).modPower fun p => { p with perst := true })

/-- PERST_DEASSERT: the start-up goes on (R56). -/
def execPerstDeassert (s : State) : Out :=
  let s := s.modPower fun p => { p with perst := false }
  .next { s with pins := { s.pins with jtagExtest := false, pinsDriven := [] } }

/-- A PF0 controller reset with an FLR of every VF; configuration space returns to its reset values, except the registers
that R123 keeps (R149). -/
def State.hotReset (s : State) : State :=
  let vfs := (List.range s.tenants.length).filter s.vfLive
  let s := (s.resetFunction 0 true).cause 2
  let s := vfs.foldl (fun (s : State) t => (s.resetFunction (t + 1) true).cause 3) s
  (s.modPcie fun p => { p with
    vfEnable := false, numVfs := 0, config := List.replicate 17 {}, vfBar0 := 0, vfBar2 := 0 }).modPower fun p =>
    { p with linkUp := false, linkWidth := 0, linkRate := 0 }
/-- HOT_RESET. -/
def execHotReset (s : State) : Out := if s.power.stage ≠ .on then .next s else .next s.hotReset

/-- FUNCTION_LEVEL_RESET of a VF (R55, R174)
(DEDUCED, log entry 28). -/
def execFunctionLevelReset (fn : Nat) (s : State) : Out :=
  if s.power.stage ≠ .on || fn = 0 || !s.vfLive (fn - 1) then .next s
  else .next (((s.resetFunction fn true).cause 3).modPcie fun p =>
    { p with config := p.config.set fn {} })

/-- CONTROLLER_DISABLE: `CC.EN` 1 → 0 (R55, R173, R175)
(DEDUCED, log entry 28). -/
def execControllerDisable (fn : Nat) (cc : Dword) (s : State) : Out :=
  if s.power.stage ≠ .on || !(s.ctrl fn).cc.getLsbD 0 || cc.getLsbD 0 || (fn ≠ 0 && !s.vfLive (fn - 1)) then .next s
  else .next ((s.resetFunction fn false).cause (if fn = 0 then 2 else 3))

/-- VF_ENABLE_WRITE (R151): VFs appear while `NumVFs` is at most `TotalVFs`; clearing it takes the VFs away, each as an
FLR leaves it
(DEDUCED, log entry 28). -/
def execVfEnableWrite (enable : Bool) (s : State) : Out :=
  if s.power.stage ≠ .on || !s.pers.inPlace then .next s
  else if enable then
    if s.pcie.numVfs > s.pers.active.tenants.length then .next s
    else .next (s.modPcie fun p => { p with vfEnable := true })
  else
    let vfs := (List.range s.tenants.length).filter s.vfLive
    let s := vfs.foldl (fun (s : State) t => s.resetFunction (t + 1) true) s
    .next (s.modPcie fun p => { p with vfEnable := false })

/-! ### MODULE_RESET, the watchdog and the erase shield (R58, R59, R594, R595) -/

/-- AON latches a reset that the erase shield holds; it merges with one held before (R57, R595). -/
def State.shield (s : State) (watchdog : Bool) : State :=
  match s.svc.held with
  | some h => s.modSvc fun c => { c with
      held := some { h with watchdog := h.watchdog || watchdog, moduleReset := h.moduleReset || !watchdog } }
  | none => s.modSvc fun c => { c with
      held := some { watchdog := watchdog, moduleReset := !watchdog, since := s.now }
      shieldHolds := satAdd32 c.shieldHolds 1 }
/-- An accepted module reset: it begins within 1 ms, or when the erase shield lets it (R59, R595). -/
def State.requestReset (s : State) : State :=
  let s := s.modPcie fun p => { p with fetchStopped := true }
  if s.svc.held.isSome || s.svc.nor.busy then s.shield false
  else s.modPower fun p => { p with moduleResetPending := true }

/-- MODULE_RESET: it completes before the reset begins. On PF0's admin queue, CDW10 to CDW15 are its only check (R58); the
ROM recovery controller does not know its opcode (R587)
(DEDUCED, log entry 31). -/
def execModuleReset (c : Cmd) (s : State) : Out :=
  match s.begin c with
  | none => .next s
  | some s =>
    if c.sqid ≠ 0 || c.fn ≠ 0 || s.svc.runSlot = 2 then .next (s.complete c.ref .invalidOpcode)
    else if [c.cdw10, c.cdw11, c.cdw12, c.cdw13, c.cdw14, c.cdw15].any (· != 0) then .next (s.complete c.ref .invalidField)
    else .next (s.complete c.ref .success).requestReset

/-- MODULE_RESET_START: a NOR operation begun since the command was accepted still holds it (R59). -/
def execModuleResetStart (s : State) : Out :=
  if !s.power.moduleResetPending then .next s
  else if s.svc.nor.busy then .next ((s.modPower fun p => { p with moduleResetPending := false }).shield false)
  else .next (s.resetNow .moduleReset)

/-- WATCHDOG_SERVE: the firmware restarts the 2,000 ms period. -/
def execWatchdogServe (s : State) : Out :=
  if s.svc.running then .next (s.modSvc fun c => { c with wdtLeftUs := 2000000 }) else .next s

/-- WATCHDOG_EXPIRY: a watchdog reset, held while the boot NOR is busy. A reset already held merges with it (R57). -/
def execWatchdogExpiry (s : State) : Out :=
  if s.power.stage ≠ .on || !s.svc.running || s.svc.wdtLeftUs ≠ 0 || (s.svc.held.map (·.watchdog)).getD false then .next s
  else
    let slot := s.svc.runSlot
    let s := s.modSvc fun c => { c with wdtExpiries := satAdd32 c.wdtExpiries 1, wdtNote := some slot }
    if s.svc.nor.busy then .next (s.shield true)
    else .next (s.resetNow .watchdog)

/-- The held reset proceeds; the next start logs how long it was held, or that the limit ended it (R595). -/
def State.releaseShield (s : State) (expired : Bool) : State :=
  match s.svc.held with
  | none => s
  | some h =>
    if s.power.stage ≠ .on then s
    else (s.modSvc fun c => { c with shieldNote := some (expired, s.now - h.since) }).resetNow
      (if h.watchdog then .watchdog else .moduleReset)

/-- SHIELD_RELEASE: `NOR_STATUS.BUSY` falls. -/
def execShieldRelease (s : State) : Out := if s.svc.nor.busy then .next s else .next (s.releaseShield false)
/-- SHIELD_TIMEOUT: 5 s have passed. -/
def execShieldTimeout (s : State) : Out :=
  match s.svc.held with
  | some h => if h.since + 5000000 ≤ s.now then .next (s.releaseShield true) else .next s
  | none => .next s

end Sys2Proof.Machine
end

