-- ==== Sys2Proof/Machine/Power.lean ====
section
/-!
DEFINITION. Power.lean: start-up, the power-loss sequence, clocks, hold-up bank, thermal levels and pins (chapters 02
and 21).
-/

namespace Sys2Proof.Machine

/-! ### Start-up (R32, R41 to R43, R147, R634) -/

/-- The start begins where the input, `PWRDIS` and an opened eFuse allow it (R41, R47, R629). -/
def State.mayStart (s : State) : Bool :=
  s.power.stage == .off && s.power.inputUp && !s.power.holdOff && !s.power.pwrdis

/-- POWER_ON: the input rises above 42 V. -/
def execPowerOn (s : State) : Out :=
  let s := s.modPower fun p => { p with inputUp := true }
  if s.mayStart then .next s.powerOn else .next s

/-- AON_RELEASE: the timestamp resumes from the saved value plus 1, straps are sampled, and charging begins. An open strap
reads 1 (R42, R634, R635). -/
def execAonRelease (slotId slotOpen : BitVec 8) (bootSel plnLow sfdpOk : Bool) (s : State) : Out :=
  if s.power.stage ≠ .on || s.power.aonReleased then .next s
  else
    let s := { s with now := s.svc.nor.savedTime + 1 }
    let s := s.modPower fun p => { p with
      aonReleased := true, chargeStart := s.now, slotId := slotId ||| slotOpen, slotOpen := slotOpen, plnStuck := plnLow }
    .next (s.modSvc fun c => { c with
      bootSel := bootSel, nor := { c.nor with sfdpOk := sfdpOk }, sidebandNote := slotOpen != 0 || plnLow })

/-- RAILS_UP: power-good. -/
def execRailsUp (s : State) : Out :=
  if s.power.stage = .on && s.power.aonReleased then .next (s.modPower fun p => { p with railsUp := true }) else .next s

/-- DRAM_INIT_DONE: every block holds a valid codeword. -/
def execDramInitDone (s : State) : Out :=
  if s.power.stage = .on && s.power.railsUp && !s.power.perst then .next (s.modPower fun p => { p with dramReady := true })
  else .next s

/-- A LINK_DEGRADED entry: width and rate trained
(DEDUCED, log entry 29). -/
def State.linkDegraded (s : State) (width rate : Nat) : State :=
  s.health { event := 0x09, detail := bytesOfLe 1 width ++ bytesOfLe 1 rate }

/-- LINK_UP: the link is in L0; a width below x16 is logged (Tables 02-14, 05-1). `rate` is the rate in GT/s. -/
def execLinkUp (width rate : Nat) (s : State) : Out :=
  if s.power.stage ≠ .on || !s.power.railsUp || s.power.perst || !([1, 2, 4, 8, 16].contains width) then .next s
  else
    let s := { s.modPower fun p => { p with linkUp := true, linkWidth := width, linkRate := rate } with
      pins := { s.pins with refclk := true } }
    if width < 16 then .next (s.linkDegraded width rate) else .next s

/-! ### The hold-up bank (R36, R37, R44) -/

/-- The write buffer runs write-through while the bank is not charged, while the last measurement is below 12.0 mF, and
after a charge timeout until a measurement finds 12.0 mF
(DEDUCED, log entry 29). -/
def Power.judgeHoldup (p : Power) : Power :=
  { p with writeThrough := !p.charged || p.capLow || (p.chargeTimedOut && !p.capGood) }

/-- HOLDUP_CHARGED: the bank has reached 70 V; the charger goes on to 72 V, which POWER_SAMPLE shows. -/
def execHoldupCharged (s : State) : Out :=
  if s.power.stage ≠ .on || !s.power.aonReleased then .next s
  else .next (s.modPower fun p => { p with charged := true, bank10mv := max 7000 p.bank10mv }.judgeHoldup)

/-- HOLDUP_CHARGE_TIMEOUT: 1 s has passed with the bank below 70 V. -/
def execHoldupChargeTimeout (s : State) : Out :=
  if s.power.stage ≠ .on || !s.power.aonReleased || s.power.charged || s.power.chargeTimedOut
      || s.now < s.power.chargeStart + 1000000 then .next s
  else .next ((s.modPower fun p => { p with chargeTimedOut := true, lowCap := true }.judgeHoldup).health
    { event := 0x06, detail := bytesOfLe 1 0 })

/-- HOLDUP_MEASURE: the capacitance found, in tenths of 1 mF. `CAP_PCT` is rounded down and stops at 255
(DESIGN CHOICE, log entry 93). -/
def execHoldupMeasure (tenthsMf : Nat) (s : State) : Out :=
  if s.power.stage ≠ .on || !s.power.charged then .next s
  else
    let low := decide (tenthsMf < 120)
    let pct := min 255 (tenthsMf * 100 / 150)
    let s := s.modPower fun p => { p with
      capPct := pct, capLow := low, capGood := p.capGood || !low, lowCap := p.lowCap || low }.judgeHoldup
    if low then .next (s.health { event := 0x06, detail := bytesOfLe 1 pct }) else .next s

/-! ### The power-loss sequence (R38 to R41, R47, R629, Table 02-14) -/

/-- P0: AON latches the cause; a second trigger is ignored. The NOR operation that runs is not resumed (R595)
(DEDUCED, log entry 39). -/
def State.loss (s : State) (t : LossTrigger) (rail : Option Rail) : State :=
  if s.power.stage ≠ .on then s
  else
    let s := s.modNor fun n => { n with queue := [], busy := false }
    let s := s.modPower fun p => { p with
      stage := .detected, trigger := some t, trippedRail := rail, lossPending := true
      holdOff := p.holdOff || t == .thermal }
    let s := s.cause 6
    match t with
    | .thermal => s.cause 7
    | .railTrip => s.cause 8
    | _ => s
/-- The input eFuse opens: it closes only when the input has been cycled (R629)
(DEDUCED, log entry 29). -/
def State.openFuse (s : State) : State :=
  if s.power.stage = .off then s else s.modPower fun p => { p with holdOff := true }

/-- INPUT_UNDERVOLTAGE: below 40 V for 20 µs. -/
def execInputUndervoltage (s : State) : Out :=
  let s := s.modPower fun p => { p with inputUp := false, holdOff := p.holdOff && p.stage == .on }
  .next (s.loss .inputLow none)
/-- PLN_FALL: the trigger is disabled while `PLN_STUCK` is 1. -/
def execPlnFall (s : State) : Out := if s.power.plnStuck then .next s else .next (s.loss .plnFall none)
/-- PWRDIS_ASSERT (R47). -/
def execPwrdisAssert (s : State) : Out := .next ((s.modPower fun p => { p with pwrdis := true }).loss .pwrdis none)
/-- PWRDIS_DEASSERT: the rails may come back. -/
def execPwrdisDeassert (s : State) : Out :=
  let s := s.modPower fun p => { p with pwrdis := false }
  if s.mayStart then .next s.powerOn else .next s
/-- INPUT_OVERVOLTAGE: above 61 V for 20 µs. -/
def execInputOvervoltage (s : State) : Out := .next (s.openFuse.loss .overVoltage none)
/-- INPUT_OVERCURRENT. -/
def execInputOvercurrent (s : State) : Out := .next (s.openFuse.loss .overCurrent none)
/-- RAIL_TRIP of a rail other than a group's. -/
def execRailTrip (r : Rail) (s : State) : Out := .next (s.loss .railTrip (some r))
/-- PLN_GOES_HIGH: the trigger is enabled again, and `PLN_STUCK` clears with it
(DESIGN CHOICE, log entry 106). -/
def execPlnGoesHigh (s : State) : Out := .next (s.modPower fun p => { p with plnStuck := false })

/-- P1_SHED: fetching stops, invocations freeze, engine and slice clocks are gated, CORE falls to step 0; an exchange in
progress is abandoned (Tables 02-1, 04-15). -/
def execP1Shed (s : State) : Out :=
  if s.power.stage ≠ .detected then .next s
  else
    let s := s.modPower fun p => { p with stage := .shed, currentStep := 0, stepping := false }
    let s := s.modPcie fun p => { p with fetchStopped := true }
    .next (s.modPers fun p => { p with
      job := .none, slices := p.slices.map fun (x : Slice) => { x with clockGated := true } })

/-- P2_FLUSH: the dirty content is programmed. When CORE or MEM tripped, it is lost and counted (R40, R502). -/
def execP2Flush (failed : List (Nat × Nat)) (s : State) : Out :=
  if s.power.stage ≠ .shed then .next s
  else
    let s := match s.power.trippedRail with
      | some .core | some .mem =>
        (s.modPower fun p => { p with lostBlocks := p.lostBlocks + s.dirtyBlocks }).modMedia fun m =>
          { m with buffer := [] }
      | _ => s
    .next ((s.flushAll failed).modPower fun p => { p with stage := .flushed })

/-- P3_METADATA: journal tails, log tails and the last timestamp are saved (R42, R503)
(DESIGN CHOICE, log entry 118). -/
def execP3Metadata (s : State) : Out :=
  if s.power.stage ≠ .flushed then .next s
  else
    let dead := match s.power.trippedRail with
      | some .core | some .mem => true
      | _ => false
    let s := if dead then s else (List.range 4).foldl (fun (s : State) g => s.programTail g) s
    .next ((s.modNor fun n => { n with savedTime := s.now }).modPower fun p => { p with stage := .saved })

/-- P4_RAILS_DOWN: the rails drop, and the module starts again as after power-on where R41 allows it: with an input within
42 to 60 V. `PWRDIS` and an open eFuse hold the rails off whatever the input, which has not to rise again. -/
def execP4RailsDown (vin10mv : Nat) (s : State) : Out :=
  if s.power.stage ≠ .saved then .next s
  else
    let s := s.modPower fun p => { p with
      stage := .off, aonReleased := false, railsUp := false, linkUp := false, dramReady := false
      inputUp := decide (4200 ≤ vin10mv) && (decide (vin10mv ≤ 6000) || p.trigger == some .pwrdis) }
    let s := s.modSvc fun c => { c with running := false }
    if s.mayStart then .next s.powerOn else .next s

/-! ### Power cap and CORE clock (R51, R52) -/

/-- POWER_SAMPLE, every 100 µs: input voltage and power, and how many samples in a row lie above the cap or below the cap
less 20 W; and the bank's voltage, which the charger brings to 72 V and which is 70 V or more once `CHARGED` is set
(DESIGN CHOICE, log entry 93). -/
def execPowerSample (volts : Volts) (pin100mw : Nat) (s : State) : Out :=
  if s.power.stage ≠ .on || !s.power.aonReleased then .next s
  else
    .next (s.modPower fun p => { p with
      vin10mv := volts.input % 65536, pin100mw := pin100mw % 65536
      bank10mv := if p.charged then max 7000 (min 7200 volts.bank) else min 6999 volts.bank
      overSamples := if pin100mw > 10 * p.capW then p.overSamples + 1 else 0
      underSamples := if pin100mw < 10 * (p.capW - 20) then p.underSamples + 1 else 0 })

/-- POWER_CEILING_LOWER: 1 ms of samples lie above the cap. -/
def execPowerCeilingLower (s : State) : Out :=
  if s.power.stage ≠ .on || s.power.overSamples < 10 then .next s
  else .next (s.modPower fun p => { p with powerCeiling := p.ceiling - 1, overSamples := 0 })

/-- POWER_CEILING_RAISE: 10 ms of samples lie below the cap less 20 W. -/
def execPowerCeilingRaise (s : State) : Out :=
  if s.power.stage ≠ .on || s.power.underSamples < 100 then .next s
  else .next (s.modPower fun p => { p with
    powerCeiling := if p.powerCeiling < min 21 p.thermalCeiling then p.powerCeiling + 1 else p.powerCeiling
    underSamples := 0 })

/-- One step towards a value. -/
def stepTowards (x target : Nat) : Nat := if x < target then x + 1 else if target < x then x - 1 else x

/-- CORE_CLOCK_STEP: a step change in progress ends; else one towards min(`TARGET_STEP`, `CEILING_STEP`) begins, 20 µs or
more after the last one (R51)
(DESIGN CHOICE, log entry 26). -/
def execCoreClockStep (s : State) : Out :=
  if s.power.stage ≠ .on then .next s
  else if s.power.stepping then
    .next (s.modPower fun p => { p with currentStep := p.stepGoal, stepping := false })
  else
    let goal := min s.power.targetStep s.power.ceiling
    let soon := match s.power.stepAt with
      | some t => decide (s.now < t + 20)
      | none => false
    if s.power.currentStep = goal || soon then .next s
    else .next (s.modPower fun p => { p with
      stepping := true, stepGoal := stepTowards p.currentStep goal, stepAt := some s.now })

/-- DRAM_RECALIBRATION: traffic waits up to 2 µs; nothing else results (R60)
(DESIGN CHOICE, log entry 91). -/
def execDramRecalibration (stack : Nat) (s : State) : Out := match stack with | _ => .next s

/-! ### Thermal levels (R62, Table 02-13) -/

/-- The level whose condition holds. -/
def thermalLevel (tjMax : Nat) (flowOk : Bool) : Nat :=
  if tjMax ≥ 115 then 3 else if tjMax ≥ 105 || !flowOk then 2 else if tjMax ≥ 95 then 1 else 0

/-- Go to a level: entry and event, and what the level does
(DEDUCED, log entry 29). -/
def State.setLevel (s : State) (n : Nat) : State :=
  let old := s.power.level
  let s := s.modPower fun p => { p with
    level := n, throttled := p.throttled || decide (n ≥ 1), visHalved := decide (n ≥ 2)
    ceilingAt := s.now
    thermalCeiling := if n ≥ 2 then 0 else if n = 0 then 21 else if old ≥ 2 then 8 else p.thermalCeiling }
  let d := bytesOfLe 1 old ++ bytesOfLe 1 n ++ bytesOfLe 1 s.power.tjMax ++ bytesOfLe 1 (b2n s.power.flowOk)
  let s := s.health { event := 0x05, detail := d }
  let s := if n ≥ 2 then s.abortTest 8 else s
  if n = 3 then s.loss .thermal none else s
/-- Since when a condition holds: it held before, begins to hold now, or does not hold. -/
def holdsSince (before : Option Nat) (now : Nat) (holds : Bool) : Option Nat :=
  if holds then some (before.getD now) else none
/-- A condition has held for `us` microseconds. -/
def heldFor (since : Option Nat) (now us : Nat) : Bool :=
  match since with
  | some t => decide (t + us ≤ now)
  | none => false
/-- The sensors' readings
(DESIGN CHOICE, log entry 93). -/
def State.sense (s : State) (tjMax coolantIn : Nat) (flowOk : Bool) : State :=
  s.modPower fun p => { p with
    tjMax := min tjMax 255, coolantIn := min coolantIn 255, flowOk := flowOk
    flowLostAt := holdsSince p.flowLostAt s.now (!flowOk)
    cool100At := holdsSince p.cool100At s.now (decide (tjMax ≤ 100))
    cool90At := holdsSince p.cool90At s.now (decide (tjMax ≤ 90)) }

/-- THERMAL_LEVEL_ENTER: a level is entered at once when its condition holds. -/
def execThermalLevelEnter (tjMax coolantIn : Nat) (flowOk : Bool) (s : State) : Out :=
  if s.power.stage ≠ .on then .next s
  else
    let s := s.sense tjMax coolantIn flowOk
    let n := thermalLevel tjMax flowOk
    if n > s.power.level then .next (s.setLevel n) else .next s

/-- THERMAL_LEVEL_LEAVE: readings show that the temperature has been 5 °C below the level's threshold for 100 ms, and the
flow is back. The level below holds while its own 100 ms have not passed
(DEDUCED, log entry 29). -/
def execThermalLevelLeave (tjMax coolantIn : Nat) (flowOk : Bool) (s : State) : Out :=
  if s.power.stage ≠ .on then .next s
  else
    let s := s.sense tjMax coolantIn flowOk
    let cool90 := heldFor s.power.cool90At s.now 100000
    if s.power.level = 2 && heldFor s.power.cool100At s.now 100000 && flowOk then .next (s.setLevel (if cool90 then 0 else 1))
    else if s.power.level = 1 && cool90 && flowOk then .next (s.setLevel 0)
    else .next s

/-- THERMAL_CEILING_STEP: at level 1 the ceiling falls one step every 1 ms, down to step 8. -/
def execThermalCeilingStep (s : State) : Out :=
  if s.power.stage = .on ∧ s.power.level = 1 ∧ s.power.ceilingAt + 1000 ≤ s.now then
    .next (s.modPower fun p => { p with
      ceilingAt := s.now, thermalCeiling := if p.thermalCeiling > 8 then p.thermalCeiling - 1 else p.thermalCeiling })
  else .next s

/-- FLOW_LOSS_TIMEOUT: `FLOW_OK` has been 0 for 10 s. -/
def execFlowLossTimeout (s : State) : Out :=
  if s.power.stage ≠ .on || s.power.flowOk || s.power.level = 3 || !heldFor s.power.flowLostAt s.now 10000000 then .next s else .next (s.setLevel 3)

/-- The composite temperature in kelvin (R159). -/
def State.kelvin (s : State) : Nat := s.power.tjMax + 273

/-- TEMPERATURE_THRESHOLD_CROSSING: `THERM.TJ_MAX` has become `kelvin` less 273, and the composite temperature has crossed a
threshold of feature 04h (R159): each ready controller whose threshold it now violates raises its SMART event; PF0's sets
the Critical Warning bit. -/
def execTemperatureThresholdCrossing (kelvin : Nat) (s : State) : Out :=
  if s.power.stage ≠ .on then .next s
  else
    let s := s.sense (kelvin - 273) s.power.coolantIn s.power.flowOk
    let k := s.kelvin
    let hot (fn : Nat) : Bool :=
      let f := (s.ctrl fn).features
      decide (k ≥ f.tempOver) || decide (k ≤ f.tempUnder)
    let any := hot 0
    let s := (List.range 17).foldl (fun (s : State) fn =>
      if (s.ctrl fn).ready && hot fn then s.raiseSmart fn 1 1 else s) s
    .next (s.modPcie fun p => { p with
      overTemp := any
      criticalWarning := if any then p.criticalWarning ||| 2#8 else p.criticalWarning &&& 0xFD#8 })

/-! ### Cages, cables, pins, the reference clock (R633, R635, R636, R638, R639) -/

/-- CAGE_EFUSE_TRIP: the cage is off and its two ports with it. -/
def execCageEfuseTrip (cage : Nat) (s : State) : Out :=
  if cage ≥ 2 || s.power.stage ≠ .on || !(s.peer.cageOn.getD cage false) then .next s
  else
    let s := (s.linkLost (2 * cage)).linkLost (2 * cage + 1)
    let s := s.modPeer fun p => { p with
      cageOn := p.cageOn.set cage false
      ports := p.ports.zipIdx.map fun (x : Port × Nat) =>
        if x.2 / 2 = cage then { x.1 with state := .off, heldCause := 0, paused := false, ingress := [] } else x.1 }
    .next (s.peerLog { kind := 4, port := 2 * cage })

/-- CABLE_PRESENCE_CHANGE: without a usable cable the cage holds both its ports DOWN; ports that are OFF stay OFF. -/
def execCablePresenceChange (cage : Nat) (present supported : Bool) (s : State) : Out :=
  if cage ≥ 2 || s.power.stage ≠ .on then .next s
  else
    let ok := present && supported
    let s := s.modPeer fun p => { p with cable := p.cable.set cage ok }
    if ok || !(s.peer.cageOn.getD cage false) then .next s
    else
      let s := (s.linkLost (2 * cage)).linkLost (2 * cage + 1)
      let s := s.modPeer fun p => { p with
        ports := p.ports.zipIdx.map fun (x : Port × Nat) => if x.2 / 2 = cage then { x.1 with state := .down } else x.1 }
      if present then .next (s.peerLog { kind := 2, port := 2 * cage }) else .next s

/-- `WAKE_N` is asserted in recovery mode while the link is not in L0 (R635). -/
def State.wakeAsserted (s : State) : Bool := s.pers.recovery && !s.power.linkUp
/-- `SMB_ALERT_N` is asserted at thermal level 1 or higher while the pin is driven (R635, Table 21-6). -/
def State.alertAsserted (s : State) : Bool := decide (s.power.level ≥ 1) && !s.pins.smbAlertFault

/-- The states of an LED output (Table 21-7). -/
inductive Led where
  | off | on | blink1Hz | blink8Hz
  deriving DecidableEq, Repr, Inhabited
/-- `LED_FAULT_N`. -/
def State.ledFault (s : State) : Led :=
  if !s.pins.ledFaultDriven then .off
  else if s.pers.recovery || s.power.level ≥ 2 || s.pcie.criticalWarning ≠ 0 then .on
  else if s.pers.expired || (s.peer.ports.any fun p => p.state == .held) || s.power.slotOpen ≠ 0 then .blink1Hz
  else .off
/-- `LED_ACT_N`. -/
def State.ledAct (s : State) : Led :=
  if !s.pins.ledActDriven then .off
  else if (match s.pins.lastFetch with
    | some t => decide (s.now ≤ t + 50000)
    | none => false) then .blink8Hz
  else if (s.ctrl 0).ready then .on
  else .off

/-- SIDEBAND_PIN_FAULT: the pin is no longer driven, its sticky bit is set, and the fault is logged. `WAKE_N` held low
while the module asserts it is no fault (Table 21-6). -/
def execSidebandPinFault (pin : SidebandPin) (s : State) : Out :=
  if s.power.stage ≠ .on || (pin == .wake && s.wakeAsserted) then .next s
  else
    let s := match pin with
      | .smb => { s.modPower fun p => { p with smbFault := true } with pins := { s.pins with smbDriven := false } }
      | .smbAlert => { s.modPower fun p => { p with smbFault := true } with pins := { s.pins with smbAlertFault := true } }
      | .wake => s.modPower fun p => { p with wakeFault := true }
      | .led => { s.modPower fun p => { p with ledFault := true } with
          pins := { s.pins with ledActDriven := false, ledFaultDriven := false } }
    .next (s.health { event := 0x08, detail := bytesOfLe 4 s.sideband })

/-- REFCLK_LOSS: the link drops under the hot-reset rules, and LINK_DEGRADED is logged with width 0 (R149, R638). -/
def execRefclkLoss (s : State) : Out :=
  if s.power.stage ≠ .on then .next s
  else
    let s := { s with pins := { s.pins with refclk := false } }
    .next ((if s.power.linkUp then s.hotReset else s).linkDegraded 0 0)

end Sys2Proof.Machine
end

