-- ==== Sys2Proof/Machine/Firmware.lean ====
section
/-!
DEFINITION. Firmware.lean: the choice of a firmware slot at a start, download and commit, the operations of the boot NOR,
the settings store's commands, and Device Self-test (R582 to R601, R608 to R611).
-/

namespace Sys2Proof.Machine

/-! ### Images (R584 to R586) -/

/-- Does a 4 KiB header verify under a vendor key? -/
def fwSigned (h : List Byte) : Bool :=
  let r := leOfBytes ((h.drop 0xFA0).take 48)
  let v := leOfBytes ((h.drop 0xFD0).take 48)
  [0, 1].any fun (k : Nat) => ecdsaVerify (Config.vendorKey k) (h.take 0xFA0) r v
/-- `CHUNKS` of a header. -/
def fwChunks (h : List Byte) : Nat := readLe (listReader h) 0x14 1
/-- `LENGTH` of a header. -/
def fwLength (h : List Byte) : Nat := readLe (listReader h) 0x10 4
/-- `REVISION` of a header. -/
def fwRevision (h : List Byte) : Qword := BitVec.ofNat 64 (readLe (listReader h) 8 8)
/-- Does chunk `k` of an image match its digest? The last chunk may be shorter. -/
def fwChunkOk (im : Region) (h : List Byte) (k : Nat) : Bool :=
  let off := 4096 + 1048576 * k
  sha384 (im.get off (min 1048576 (fwLength h - off))) == (h.drop (0x20 + 48 * k)).take 48
/-- The checks of R584 on staged bytes (R590). -/
def fwImageOk (im : Region) (staged : Nat) : Bool :=
  let h := im.get 0 4096
  let len := fwLength h
  decide (8192 ≤ len ∧ len ≤ 16711680 ∧ len ≤ staged)
    && h.take 4 == [0x56, 0x58, 0x46, 0x57] && h.getD 4 0 == 1 && h.getD 5 0 == 0xB1
    && fwChunks h == ceilDiv (len - 4096) 1048576
    && (List.range (fwChunks h)).all (fwChunkOk im h) && fwSigned h

/-- The 4 KiB header of a slot. -/
def FwSlot.header (f : FwSlot) : List Byte := f.image.get 0 4096
/-- A candidate of boot ROM: ELIGIBLE, and its header matches `HDR_CRC`, is for this stepping and verifies. -/
def FwSlot.candidate (f : FwSlot) : Bool :=
  f.state == .eligible && crc32c f.header == f.hdrCrc && f.header.getD 5 0 == 0xB1 && fwSigned f.header

/-! ### FIRMWARE_BOOT (R40, R42, R586 to R588, R594, R595, R598, R599) -/

/-- The slot that boot ROM runs: the candidate with the higher `SEQ`, with the lower one when `BOOT_SEL` is 1. -/
def State.bootChoice (s : State) : Option Nat :=
  let seq (k : Nat) : Nat := ((s.svc.nor.fw k).map (·.seq)).getD 0
  let ok (k : Nat) : Bool := ((s.svc.nor.fw k).map FwSlot.candidate).getD false
  match ok 0, ok 1 with
  | true, true => some (if s.svc.bootSel then (if seq 1 < seq 0 then 1 else 0) else if seq 1 > seq 0 then 1 else 0)
  | true, false => some 0
  | false, true => some 1
  | false, false => none
/-- Program a slot's `STATE` to DEMOTED. -/
def State.demote (s : State) (slot : Nat) : State :=
  s.modNor fun n => n.setFw slot ((n.fw slot).map fun f => { f with state := .demoted })
/-- The first chunk of a slot that fails its digest; `bad` names chunks whose read fails it, as slot and chunk. -/
def State.badChunk (s : State) (bad : List (Nat × Nat)) (slot : Nat) : Option Nat :=
  match s.svc.nor.fw slot with
  | none => none
  | some f => (List.range (fwChunks f.header)).find? fun k => bad.contains (slot, k) || !fwChunkOk f.image f.header k
/-- Boot ROM: a slot whose chunk fails is demoted and logged, and the other candidate is taken
(DEDUCED, log entry 40). -/
def State.bootRom (s : State) (bad : List (Nat × Nat)) : Nat → State × Option Nat
  | 0 => (s, none)
  | n + 1 => match s.bootChoice with
    | none => (s, none)
    | some k => match s.badChunk bad k with
      | none => (s, some k)
      | some c => ((s.demote k).health { event := 0x12, detail := bytesOfLe 1 k ++ bytesOfLe 1 c }).bootRom bad n

/-- The revision "ROMRCVRY" (Table 20-2)
(DEDUCED, log entry 40). -/
def romRevision : Qword := 0x59525643524D4F52
/-- The ROM recovery controller answers (R587). -/
def State.romRecovery (s : State) : State :=
  s.modSvc fun c => { c with running := true, runSlot := 2, revision := romRevision, wdtLeftUs := 2000000 }

/-- Health entries of what happened before this start, in order of time (Table 02-14, R592, R594, R595, R598)
(DEDUCED, log entry 40). -/
def State.startNotes (s : State) : State :=
  let c := s.svc
  let s := if s.power.lossPending then
      (s.health { event := 0x07, detail := bytesOfLe 4 s.power.resetCause.toNat ++ bytesOfLe 4 s.power.lostBlocks }).modPower
        fun p => { p with lossPending := false, lostBlocks := 0, trippedRail := none }
    else s
  let s := match c.wdtNote with
    | some k => s.health { event := 0x0B, detail := bytesOfLe 1 k }
    | none => s
  let s := match c.shieldNote with
    | some (false, t) => s.health { event := 0x0C, detail := bytesOfLe 4 t }
    | some (true, _) =>
      let (w, s) := s.drawWord
      s.health { event := 0x0D, detail := bytesOfLe 4 w.toNat }
    | none => s
  let s := match c.nor.intent with
    | some k => s.health { event := 0x0F, detail := bytesOfLe 1 k }
    | none => s
  let s := if c.sidebandNote then s.health { event := 0x08, detail := bytesOfLe 4 s.sideband } else s
  let s := if c.nor.currentBank.isNone && (c.nor.bankA.written || c.nor.bankB.written) then
      let seq (b : SetBank) : Nat := if b.valid then b.seq else 0
      s.health { event := 0x16, detail := bytesOfLe 8 (seq c.nor.bankA) ++ bytesOfLe 8 (seq c.nor.bankB) }
    else s
  (s.modSvc fun c => { c with wdtNote := none, shieldNote := none, sidebandNote := false }).modNor fun n =>
    { n with intent := none }

/-- What the last flush left: deferred errors of rows it could not place, and the superblocks of rows with failed members,
whose blocks are retired (R501, R502, R511). -/
def State.startMedia (s : State) : State :=
  let m := s.media
  let s := s.deferAll m.lostBlocks
  let s := m.failedMembers.foldl (fun (s : State) x => match s.superblock x.1 with
    | some b => s.programFailed b x.2.1 x.2.2.1 x.2.2.2
    | none => s) s
  let s := m.degradedRows.foldl (fun (s : State) x =>
    s.mediaLog { kind := 0x0F, group := ((s.superblock x.1).map (·.group)).getD 0, detail := x.2 }) s
  s.modMedia fun m => { m with lostBlocks := [], degradedRows := [], failedMembers := [] }

/-- Firmware has read the store and starts the data path; `demotedRev` is the revision whose fallback this start is
(DEDUCED, log entry 39). -/
def State.startFirmware (s : State) (demotedRev : Option Qword) : State :=
  let s := s.readStore
  let s := s.modSvc fun c => { c with
    running := true, dataPath := true, wdtLeftUs := 2000000, fallback := demotedRev.isSome }
  let s := s.modPcie fun p => { p with
    ctrls := p.ctrls.zipIdx.map fun (k : Ctrl × Nat) => { k.1 with features := s.startFeatures k.2 s.startFloor }
    floorMs := s.startFloor }
  let s := s.startNotes
  let s := match demotedRev with
    | some r => s.health { event := 0x11, detail := bytesOfLe 8 r.toNat ++ bytesOfLe 8 s.svc.revision.toNat }
    | none => s
  s.startMedia

/-- Boot ROM runs a slot; firmware that finds the store unreadable demotes its own slot and reloads the other one, or
presents the ROM recovery controller (Table 19-6). -/
def State.bootFirmware (s : State) (bad : List (Nat × Nat)) : Nat → Option Qword → State
  | 0, _ => s.romRecovery
  | n + 1, old => match s.bootRom bad 2 with
    | (s, none) => s.romRecovery
    | (s, some k) =>
      let rev := fwRevision (((s.svc.nor.fw k).map FwSlot.header).getD [])
      let s := s.modSvc fun c => { c with runSlot := k, revision := rev }
      match if s.svc.bootSel then none else s.svc.nor.unreadable rev with
      | none => s.startFirmware old
      | some (tag, major) =>
        let s := s.health { event := 0x10, status := 0x9B
                            detail := bytesOfLe 2 tag ++ bytesOfLe 1 major ++ bytesOfLe 8 rev.toNat }
        if ((s.svc.nor.fw (1 - k)).map FwSlot.candidate).getD false then (s.demote k).bootFirmware bad n (some rev)
        else s.romRecovery

/-- FIRMWARE_BOOT. -/
def execFirmwareBoot (badChunks : List (Nat × Nat)) (s : State) : Out :=
  if s.power.stage ≠ .on || !s.power.railsUp || s.power.perst || s.svc.running then .next s
  else .next (s.bootFirmware badChunks 2 none)

/-! ### Download and commit (R589 to R592) -/

/-- FIRMWARE_IMAGE_DOWNLOAD: the checks of R589 in order. -/
def execFirmwareImageDownload (c : Cmd) (s : State) : Out :=
  s.command c .adminOwner fun s =>
    let len := 4 * (c.cdw10.toNat + 1)
    let off := 4 * c.cdw11.toNat
    let staged := s.svc.fwStageBytes
    if off ≠ 0 ∧ off ≠ staged then s.complete c.ref .invalidField
    else if off ≠ 0 ∧ staged % 4096 ≠ 0 then s.complete c.ref .invalidField
    else if off + len > 16711680 then s.complete c.ref .invalidField
    else
      let old : Region := if off = 0 then {} else s.svc.fwStage
      (s.modSvc fun v => { v with
        fwStage := old.put off (s.dataIn c.prp1 c.prp2 len), fwStageBytes := off + len }).complete c.ref .success

/-- FIRMWARE_COMMIT: the checks of R590 in order; then the commit waits its turn for the NOR
(PRESUMED, log entry 85). -/
def execFirmwareCommit (c : Cmd) (s : State) : Out :=
  s.command c .adminOwner fun s =>
    let fs := bits c.cdw10.toNat 2 0
    let action := bits c.cdw10.toNat 5 3
    let reserved := c.cdw10.toNat / 64 ≠ 0 || [c.cdw11, c.cdw12, c.cdw13, c.cdw14, c.cdw15].any (· != 0)
    let run := s.svc.runSlot
    let slot := if fs = 0 then (if run = 0 then 1 else 0) else fs - 1
    if action > 2 || reserved then s.complete c.ref .invalidField
    else if fs > 2 then s.complete c.ref .invalidFwSlot
    else if action ≠ 2 then
      if slot = run then s.complete c.ref .invalidFwSlot
      else if !fwImageOk s.svc.fwStage s.svc.fwStageBytes then s.complete c.ref .invalidFwImage
      else s.norRequest (.commit c.ref slot action (fwLength (s.svc.fwStage.get 0 4096)) s.svc.fwStage)
    else match s.svc.nor.fw slot with
      | none => s.complete c.ref .invalidFwImage
      | some f =>
        let runSeq := ((s.svc.nor.fw run).map (·.seq)).getD 0
        if f.state = .demoted then s.complete c.ref .invalidFwImage
        else if slot = run then s.complete c.ref .success
        else if f.state = .eligible then
          if f.seq < runSeq then s.complete c.ref .invalidFwSlot else s.complete c.ref .success
        else s.norRequest (.promote c.ref slot)

/-! ### The boot NOR's operations (R122, R583, R591, R601) -/

/-- The last step of the operation at the front; `verified`: its read-back matches
(DEDUCED, log entry 41). -/
def State.norEnd (s : State) (j : NorJob) (verified : Bool) : State :=
  match j with
  | .commit c slot action len im =>
    let other := ((s.svc.nor.fw (1 - slot)).map (·.seq)).getD 0
    let f : FwSlot :=
      { seq := other + 1, length := len, hdrCrc := crc32c (im.get 0 4096)
        state := if !verified then .demoted else if action = 0 then .staged else .eligible, image := im }
    let s := s.modNor fun n => { n.setFw slot (some f) with intent := none }
    if !verified then s.complete c .invalidFwImage
    else
      let s := s.health { event := 0x0E, detail := bytesOfLe 1 slot ++ bytesOfLe 1 action ++ bytesOfLe 8 f.seq }
      let s := s.complete c .success
      if s.svc.runSlot = 2 && action = 1 then (s.dropCommands.flushAll []).scopeReset false else s
  | .promote c slot =>
    let seq := ((s.svc.nor.fw slot).map (·.seq)).getD 0
    let s := s.modNor fun n => n.setFw slot ((n.fw slot).map fun f => { f with state := .eligible })
    (s.health { event := 0x0E, detail := bytesOfLe 1 slot ++ bytesOfLe 1 2 ++ bytesOfLe 8 seq }).complete c .success
  | .base c slot seq =>
    let b : BaseSlot :=
      { seq := seq, length := s.pers.stageBytes, crc := crc32c (s.pers.staged.get 0 s.pers.stageBytes)
        image := s.pers.staged }
    let build := s.stagedBuild
    let s := (s.modNor fun n => n.setBase slot (some b)).modPers Pers.stageBack
    (s.persLog { event := 8, detail := slot, build := build }).persEnd c 0xC4 .success 0 0
  | .save =>
    let values := s.settingOffsets.map fun (o : Nat) => (o, s.settingGet o)
    let body := bodyOf (values.map fun v => bytesOfLe 4 v.1 ++ bytesOfLe 4 v.2)
    (s.modNor fun n => n.append s.svc.revision tagRegisters body).modSvc fun c =>
      { c with regSaved := values, settingsBusy := false }
  | .clear => (s.modNor Nor.supersede).modSvc fun c => { c with regSaved := [], featSaved := [], settingsBusy := false }
  | .features c new =>
    let key (v : Nat × Nat × Nat × Nat) : Nat × Nat × Nat := (v.1, v.2.1, v.2.2.1)
    let values := (s.svc.featSaved.filter fun v => !(new.any fun w => key w == key v)) ++ new
    let body := bodyOf (values.map fun v => bytesOfLe 1 v.1 ++ bytesOfLe 1 v.2.1 ++ bytesOfLe 2 v.2.2.1 ++ bytesOfLe 4 v.2.2.2)
    ((s.modNor fun n => n.append s.svc.revision tagFeatures body).modSvc fun c => { c with featSaved := values }).complete
      c .success

/-- NOR_OP_DONE: the running operation ends and the next begins. A COMMIT_BASE whose copy does not match is programmed
again (R484)
(DEDUCED, log entry 41). -/
def execNorOpDone (verified : Bool) (s : State) : Out :=
  if !s.svc.nor.busy then .next s
  else match s.svc.nor.queue with
    | [] => .next (s.modNor fun n => { n with busy := false })
    | j :: rest =>
      let again := match j with
        | .base .. => !verified
        | _ => false
      if again then .next s
      else .next ((s.modNor fun n => { n with queue := rest, busy := false }).norEnd j verified).norStart

/-- May `SETTINGS_CTRL` start a write? Not while `BUSY`, in a start with `BOOT_SEL`, or without firmware
(DEDUCED, log entry 40). -/
def State.settingsMayWrite (s : State) : Bool :=
  s.svc.running && s.svc.runSlot != 2 && !s.svc.settingsBusy && !s.svc.bootSel && s.power.stage == .on && !s.power.perst
/-- A settings write is requested. -/
def State.settingsStart (s : State) (j : NorJob) : State :=
  (s.modSvc fun c => { c with settingsBusy := true }).norRequest j
/-- SETTINGS_SAVE. -/
def execSettingsSave (s : State) : Out := if s.settingsMayWrite then .next (s.settingsStart .save) else .next s
/-- SETTINGS_CLEAR. -/
def execSettingsClear (s : State) : Out := if s.settingsMayWrite then .next (s.settingsStart .clear) else .next s

/-! ### Device Self-test (R608 to R611) -/

/-- A commit of firmware is in progress or waits. -/
def NorJob.isCommit : NorJob → Bool
  | .commit .. | .promote .. | .base .. => true
  | _ => false
/-- What makes Device Self-test complete with SELF_TEST_BUSY. -/
def State.testBusy (s : State) : Bool :=
  decide (s.power.level ≥ 2) || s.writesThrough || s.pers.job != .none || s.svc.nor.queue.any NorJob.isCommit

/-- DEVICE_SELF_TEST. -/
def execDeviceSelfTest (c : Cmd) (s : State) : Out :=
  s.command c .adminOwner fun s =>
    let code := bits c.cdw10.toNat 3 0
    if code = 0xF then (s.abortTest 1).complete c.ref .success
    else if code ≠ 1 && code ≠ 2 then s.complete c.ref .invalidField
    else if s.testBusy then s.complete c.ref .selfTestBusy
    else if s.svc.test.isSome then s.complete c.ref .selfTestRunning
    else (s.modSvc fun v => { v with test := some (code, 0) }).complete c.ref .success

/-- SELF_TEST_COMPLETE: the running test ends, failed when a segment failed (log 06h results 0h and 7h). -/
def execSelfTestComplete (failedSegment : Option Nat) (s : State) : Out :=
  if s.power.stage ≠ .on then .next s
  else match failedSegment with
    | none => .next (s.endTest 0 0)
    | some n => .next (s.endTest 7 n)

end Sys2Proof.Machine
end

