-- ==== Sys2Proof/Machine/Queues.lean ====
section
/-!
DEFINITION. Queues.lean: controllers and their queues: enable and shutdown, doorbells, fetch arbitration, timeouts, and the
commands that create and delete I/O queues (chapter 05, R44, R46).
-/

namespace Sys2Proof.Machine

/-! ### Enable and shutdown (R44, R46, R151, R587) -/

/-- Does a function answer: PF0, or a VF that exists (R151)? The ROM recovery controller presents PF0 only. -/
def State.fnLive (s : State) (fn : Nat) : Bool := fn == 0 || (s.vfLive (fn - 1) && s.svc.runSlot != 2)

/-- `CC` after a write of `v`: reserved bits read zero (R11), and a field that would take a reserved encoding keeps its
value (R13): `CSS` and `MPS` have only 0, `AMS` 0 and 1, `SHN` 0 to 2
(PRESUMED, log entry 13). -/
def ccWritten (old : Dword) (v : Nat) : Dword :=
  let keep (hi lo : Nat) (ok : Nat → Bool) : Nat := 2 ^ lo * if ok (bits v hi lo) then bits v hi lo else bits old.toNat hi lo
  BitVec.ofNat 32 (v % 2 + keep 6 4 (· == 0) + keep 10 7 (· == 0) + keep 13 11 (decide <| · ≤ 1) + keep 15 14 (· != 3)
    + keep 19 16 (fun _ => true) + keep 23 20 fun _ => true)

/-- CONTROLLER_ENABLE: `CC.EN` 0 → 1
(DEDUCED, log entry 43). -/
def execControllerEnable (fn : Nat) (cc : Dword) (s : State) : Out :=
  if s.power.stage ≠ .on || s.power.perst || !s.fnLive fn || (s.ctrl fn).cc.getLsbD 0 || !cc.getLsbD 0 then .next s
  else .next (s.modCtrl fn fun k => { k with cc := ccWritten k.cc cc.toNat, enabling := true })

/-- What must hold before `CSTS.RDY` rises (R44). Of the ROM recovery controller R587 says instead that `CSTS.RDY` rises
within 2 s of `CC.EN`. -/
def State.mayBeReady (s : State) : Bool :=
  s.svc.running && (s.svc.runSlot == 2 ||
    (s.pers.inPlace && s.power.dramReady && s.media.groups.all (·.mapLoaded)
      && (s.power.charged || s.power.chargeTimedOut || decide (s.now ≥ s.power.chargeStart + 1000000))))

/-- The admin queues, of the sizes in `AQA`. -/
def Ctrl.withAdmin (k : Ctrl) : Ctrl :=
  { k with
    ready := true, enabling := false
    sqs := [{ qid := 0, base := k.asq, size := bits k.aqa.toNat 11 0 + 1 }]
    cqs := [{ qid := 0, base := k.acq, size := bits k.aqa.toNat 27 16 + 1, ien := true }] }

/-- CSTS_READY. -/
def execCstsReady (fn : Nat) (s : State) : Out :=
  if s.power.stage ≠ .on || s.power.perst || !s.fnLive fn || !(s.ctrl fn).enabling || !s.mayBeReady then .next s
  else .next (s.modCtrl fn Ctrl.withAdmin)

/-- Abort every outstanding command of a function: each completes with Command Abort Requested, and its invocations end. -/
def State.abortAll (s : State) (fn : Nat) : State :=
  let refs := (s.ctrl fn).outstanding.map (·.cmd.ref)
  let s := (s.invocations.filter (·.ref.fn == fn)).foldl (fun (s : State) i => s.stopInv i 0x95 0 true) s
  let s := s.modMedia fun m => { m with
    reads := m.reads.filter fun r => r.ref.fn != fn
    flushes := m.flushes.filter fun r => r.ref.fn != fn
    buffer := m.buffer.filter fun b => (b.waiter.map (·.fn)) != some fn }
  let s := s.dropReaders fun c => c.fn == fn
  refs.foldl (fun (s : State) r => s.complete r .abortRequested) s

/-- Phases P2 and P3 from input power while the module works: all dirty content is programmed, and what else is under way
goes on; content that no set can take is a deferred failure at once, so that no Flush succeeds over it (R46, R502, R42, R183)
(DESIGN CHOICE, log entry 27). -/
def State.flushNow (s : State) : State :=
  let before := s.media.lostBlocks
  let s := ((List.range 4).foldl (fun (acc : State × Nat) g =>
    acc.1.flushGroup g [] acc.1.media.buffer.length acc.2) (s, 0)).1
  let lost := s.media.lostBlocks.drop before.length
  let s := (s.modMedia fun m => { m with lostBlocks := before }).deferAll lost
  s.ackFlushes.modNor fun n => { n with savedTime := s.now }

/-- SHUTDOWN_NOTIFICATION: a write of `CC.SHN` (bits [15:14]) normal or abrupt; with another value of `SHN`, or once a
shutdown has been taken, the write stores the other fields
(DESIGN CHOICE, log entry 27; DEDUCED, log entry 43). -/
def execShutdownNotification (fn : Nat) (cc : Dword) (s : State) : Out :=
  let shn := bits cc.toNat 15 14
  if s.power.stage ≠ .on || !(s.ctrl fn).ready || !cc.getLsbD 0 then .next s
  else
    let s := if shn = 0 || shn = 3 || (s.ctrl fn).shst ≠ 0 then s
      else ((s.abortAll fn).flushNow).modCtrl fn fun k => { k with shst := 2 }
    .next (s.modCtrl fn fun k => { k with cc := ccWritten k.cc cc.toNat })

/-! ### Doorbells (R153) -/

/-- SQ_TAIL_DOORBELL: a write that names no queue or an entry past its end is ignored
(DEDUCED, log entry 43). -/
def execSqTailDoorbell (fn qid value : Nat) (s : State) : Out :=
  if s.power.stage ≠ .on || !(s.ctrl fn).ready then .next s
  else .next (s.modCtrl fn fun k => { k with
    sqs := k.sqs.map fun (q : Sq) => if q.qid = qid && decide (value < q.size) then { q with tail := value } else q })

/-- CQ_HEAD_DOORBELL: completions that waited for room are written
(DESIGN CHOICE, log entry 15). -/
def execCqHeadDoorbell (fn qid value : Nat) (s : State) : Out :=
  if s.power.stage ≠ .on || !(s.ctrl fn).ready then .next s
  else
    let s := s.modCtrl fn fun k => { k with
      cqs := k.cqs.map fun (q : Cq) => if q.qid = qid && decide (value < q.size) then { q with head := value } else q }
    let held := (s.ctrl fn).unposted
    .next (held.foldl (fun (s : State) c => s.post c) (s.modCtrl fn fun k => { k with unposted := [] }))

/-! ### Fetch arbitration (R120, R166 to R168, R187) -/

/-- The command that 64 bytes of a submission queue give
(PRESUMED, log entry 13). -/
def Cmd.ofBytes (fn sqid : Nat) (bs : List Byte) : Cmd :=
  let d (k : Nat) : Dword := BitVec.ofNat 32 (readLe (listReader bs) (4 * k) 4)
  let q (k : Nat) : Qword := BitVec.ofNat 64 (readLe (listReader bs) (4 * k) 8)
  { fn := fn, sqid := sqid, cdw0 := d 0, nsid := d 1, cdw2 := d 2, cdw3 := d 3, mptr := q 4, prp1 := q 6, prp2 := q 8
    cdw10 := d 10, cdw11 := d 11, cdw12 := d 12, cdw13 := d 13, cdw14 := d 14, cdw15 := d 15 }

/-- Entries of a queue between its head and its tail. -/
def Sq.entries (q : Sq) : Nat := if q.size = 0 then 0 else (q.tail + q.size - q.head) % q.size

/-- Fetched invocation commands of a function that wait for a spindle: those accepted, and those not yet taken up. -/
def State.spindleWaiters (s : State) (fn : Nat) : Nat :=
  (s.invocations.filter fun i => i.tenant + 1 == fn && i.phase == .waiting).length
    + ((s.ctrl fn).outstanding.filter fun o => !o.started && o.cmd.sqid != 0
        && [0x8B, 0x8F, 0x93, 0xAB].contains o.cmd.opcode).length

/-- May the front end fetch from a queue now? An activation keeps it from compute queues and from every I/O queue of PF0,
and 256 commands that wait for spindles from the tenant's compute queues (R120, R168). -/
def State.fetchable (s : State) (fn : Nat) (q : Sq) : Bool :=
  let activating := match s.pers.job with
    | .activate _ => true
    | _ => false
  let waiting := s.spindleWaiters fn
  decide (q.entries > 0) && (q.qid == 0 ||
    (!(activating && (q.compute || fn == 0)) && !(q.compute && fn != 0 && decide (waiting ≥ 256))))

/-- The first queue after the one of identifier `last`, in rising order of identifiers, starting again from the lowest. -/
def nextSq (last : Nat) (l : List Sq) : Option Sq :=
  let sorted := l.mergeSort fun a b => decide (a.qid ≤ b.qid)
  (sorted.find? fun q => decide (q.qid > last)).or sorted.head?

/-- Index of a priority class. -/
def QPrio.index : QPrio → Nat
  | .urgent => 0
  | .high => 1
  | .medium => 2
  | .low => 3
/-- Commands of a weighted class already taken in the round. -/
def Ctrl.taken (k : Ctrl) : QPrio → Nat
  | .high => k.wrrLeft.1
  | .medium => k.wrrLeft.2.1
  | .low => k.wrrLeft.2.2
  | .urgent => 0
/-- Commands of a weighted class in one round: its weight is 0-based. -/
def Ctrl.share (k : Ctrl) : QPrio → Nat
  | .high => k.features.hpw + 1
  | .medium => k.features.mpw + 1
  | .low => k.features.lpw + 1
  | .urgent => 0

/-- The queue of a controller's turn, and how many commands its class may still take in this round (none: no limit):
admin, then urgent, then high, medium and low by weight. A round in which no class with commands has any left ends. R166
names one arbitration, so `CC.AMS` selects no other
(DEDUCED, log entry 112). -/
def State.chooseSq (s : State) (fn : Nat) : Option (Sq × Option Nat × Ctrl) :=
  let k := s.ctrl fn
  let io := k.sqs.filter fun q => q.qid != 0 && s.fetchable fn q
  match k.sqs.find? fun q => q.qid == 0 && s.fetchable fn q with
  | some q => some (q, none, k)
  | none =>
    let ofClass (p : QPrio) : List Sq := io.filter (·.prio == p)
    match nextSq (k.lastSq.getD 0 0) (ofClass .urgent) with
    | some q => some (q, none, k)
    | none =>
      let open_ (k : Ctrl) : Option QPrio := [QPrio.high, .medium, .low].find? fun p =>
        !(ofClass p).isEmpty && decide (k.taken p < k.share p)
      let k := if (open_ k).isSome then k else { k with wrrLeft := (0, 0, 0) }
      match open_ k with
      | none => none
      | some p => (nextSq (k.lastSq.getD p.index 0) (ofClass p)).map fun q => (q, some (k.share p - k.taken p), k)

/-- Fetch one entry of a queue. -/
def State.fetchOne (s : State) (fn qid : Nat) : State :=
  match (s.ctrl fn).sqs.find? (·.qid == qid) with
  | none => s
  | some q =>
    let c := Cmd.ofBytes fn qid (s.hostGet (q.base.toNat + 64 * q.head) 64)
    s.modCtrl fn fun k => { k with
      sqs := k.sqs.map fun (x : Sq) => if x.qid = qid then { x with head := (x.head + 1) % x.size } else x
      outstanding := k.outstanding ++
        [{ cmd := c, fetchedAt := s.now, started := false, deferredSeen := s.logs.deferredNext - 1,
           blocksSeen := s.media.nextBlock }] }

/-- Up to `n` entries, each while the queue may still be fetched from: the state, and how many there were. -/
def State.fetchMany (s : State) (fn qid : Nat) : Nat → State × Nat
  | 0 => (s, 0)
  | n + 1 =>
    match (s.ctrl fn).sqs.find? (·.qid == qid) with
    | none => (s, 0)
    | some q =>
      if s.fetchable fn q then
        let r := (s.fetchOne fn qid).fetchMany fn qid n
        (r.1, r.2 + 1)
      else (s, 0)

/-- The opcodes of Table 05-5, on admin queues and on I/O queues, where the vendor I/O opcodes are those of Table 06-2. -/
def opcodeKnown (sqid op : Nat) : Bool :=
  if sqid = 0 then [0x00, 0x01, 0x02, 0x04, 0x05, 0x06, 0x08, 0x09, 0x0A, 0x0C, 0x0D, 0x10, 0x11, 0x14, 0x15, 0x80, 0x84,
    0xC1, 0xC4, 0xC5, 0xC6, 0xC8, 0xCC].contains op
  else [0x00, 0x01, 0x02, 0x09, 0x81, 0x84, 0x8B, 0x8F, 0x93, 0x94, 0x98, 0x9C, 0xA1, 0xA4, 0xAB, 0xB1, 0xB2,
    0xB4].contains op
/-- A command whose opcode Table 05-5 does not name ends with Invalid Command Opcode as soon as it may start (R157, R170)
(DEDUCED, log entry 113). -/
def State.unknownEnds (s : State) (c : Cmd) : State :=
  match s.begin c with
  | none => s
  | some s => s.complete c.ref (if bits c.cdw0.toNat 9 8 ≠ 0 then .invalidField else .invalidOpcode)
/-- Every fetched command of an unknown opcode that may start ends
(DEDUCED, log entry 113). -/
def State.sweepUnknown (s : State) : State :=
  (List.range 17).foldl (fun (s : State) fn =>
    ((s.ctrl fn).outstanding.filter fun o => !o.started && !opcodeKnown o.cmd.sqid o.cmd.opcode).foldl
      (fun (s : State) o => s.unknownEnds o.cmd) s) s

/-- COMMAND_FETCH: one turn of the round robin between controllers: up to the Arbitration Burst from the queue that the
controller's own arbitration chooses. A burst of 7 is without limit
(DEDUCED, log entry 16). -/
def execCommandFetch (s : State) : Out :=
  if s.power.stage ≠ .on || s.pcie.fetchStopped then .next s
  else
    let order := (List.range 17).map fun (i : Nat) => (s.pcie.lastFn + 1 + i) % 17
    match order.find? fun fn => (s.ctrl fn).ready && (s.ctrl fn).shst == 0 && (s.chooseSq fn).isSome with
    | none => .next s
    | some fn => match s.chooseSq fn with
      | none => .next s
      | some (q, left, k) =>
        let burst := if k.features.ab = 7 then q.entries else 2 ^ k.features.ab
        let n := min (min burst q.entries) (left.getD q.entries)
        let p := q.prio
        let last := if q.qid = 0 then k.lastSq else k.lastSq.set p.index q.qid
        let s := { s.modPcie fun x => { x with lastFn := fn } with pins := { s.pins with lastFetch := some s.now } }
        let (s, n) := s.fetchMany fn q.qid n
        let used := if q.qid = 0 then k.wrrLeft else match p with
          | .high => (k.wrrLeft.1 + n, k.wrrLeft.2)
          | .medium => (k.wrrLeft.1, k.wrrLeft.2.1 + n, k.wrrLeft.2.2)
          | .low => (k.wrrLeft.1, k.wrrLeft.2.1, k.wrrLeft.2.2 + n)
          | .urgent => k.wrrLeft
        .next (s.modCtrl fn fun k => { k with wrrLeft := used, lastSq := last }).sweepUnknown

/-! ### Timeouts (R184, R187 to R190, R201) -/

/-- Does a recovery serve a command: its own read, or a read of its invocation's engine commands, or a bring-up read that
its commands wait on? -/
def State.serves (s : State) (r : Recovery) (c : CmdRef) : Bool :=
  r.readers.any fun x => match x with
    | .nvm d _ => d == c
    | .media d => d == c
    | .source _ | .nobody => false
    | .scan t tag _ _ => s.invocations.any fun i => i.ref == c && i.tenant == t && i.tag == tag
    | .bringUp t m _ => s.invocations.any fun i => i.ref == c && i.tenant == t && (m.isNone || m == some i.slot)
        && s.queues.any fun q => q.entries.any fun e => e.of i && e.outcome == .queued && e.begun
/-- The fault number of the oldest fault whose recovery runs under a command's work, or 0. -/
def State.runningFault (s : State) (c : CmdRef) : Nat :=
  match (s.media.recoveries.filter fun r => s.serves r c).mergeSort fun a b => decide (a.since ≤ b.since) with
  | r :: _ => r.faultNo
  | [] => 0

/-- The timeout of an I/O command in milliseconds; none for a SERVICE without a deadline (R184, R201, R215). -/
def State.timeoutMs (s : State) (c : Cmd) (compute : Bool) : Option Nat :=
  let f := (s.ctrl c.fn).features
  let own (v : Nat) : Nat := if v = 0 then f.deadlineMs else v
  if !compute then some f.nvmTimeoutMs
  else if [0x8B, 0x8F, 0x93].contains c.opcode then some (own (bits c.cdw13.toNat 15 0))
  else if c.opcode = 0xAB then
    if bits c.cdw13.toNat 15 0 = 0xFFFF then none else some (own (bits c.cdw13.toNat 15 0))
  else if c.opcode = 0x9C then some (own (bits c.cdw14.toNat 15 0))
  else some f.deadlineMs

/-- COMMAND_TIMEOUT, once the time from the fetch has passed (R187): the command completes with DEADLINE_EXCEEDED, and a
DEADLINE entry carries the same fault number. The reads of flash under it are cancelled at their safe points, and what they
still yield is discarded (R189). An invocation's completion follows when its started commands have ended; an invocation
already ending is left to end. -/
def execCommandTimeout (ref : CmdRef) (s : State) : Out :=
  let known := (s.ctrl ref.fn).outstanding.find? fun o => o.cmd.ref == ref
  let sq := (s.ctrl ref.fn).sqs.find? fun q => q.qid == ref.sqid
  if s.power.stage ≠ .on || ref.sqid = 0 then .next s
  else match known, sq with
    | some o, some q =>
      let inv := s.invocations.find? fun i => i.ref == ref
      let due := match inv with
        | some i => i.deadlineAt
        | none => (s.timeoutMs o.cmd q.compute).map fun ms => o.fetchedAt + 1000 * ms
      match due with
      | none => .next s
      | some t =>
        let ms := (t - o.fetchedAt) / 1000
        if (inv.map (·.phase)) = some .stopping || s.now < t then .next s
        else
          let f := s.runningFault ref
          let s := s.health
            { event := 0x02, status := 0x90, faultNo := f, detail := bytesOfLe 4 ms
              tenant := if ref.fn = 0 then 0xFF else ref.fn - 1, tag := (inv.map (·.tag)).getD 0 }
          let s := if ref.fn = 0 then s else s.modTenant (ref.fn - 1) fun t => { t with deadlines := t.deadlines ++ [s.now] }
          match inv with
          | some i => .next (s.stopInv i 0x90 f)
          | none =>
            let s := s.modMedia fun m => { m with
              reads := m.reads.filter (·.ref != ref), flushes := m.flushes.filter (·.ref != ref)
              buffer := m.buffer.filter (·.waiter != some ref) }
            .next ((s.dropReaders (· == ref)).complete ref .deadlineExceeded f)
    | _, _ => .next s

/-! ### I/O queues (R163 to R165, R172, Table 05-13) -/

/-- I/O queue pairs that a function may have (R163). -/
def State.queueQuota (s : State) (fn : Nat) : Nat :=
  if fn = 0 then s.pers.active.ownerQueuePairs else ((s.record (fn - 1)).map (·.queuePairs)).getD 0
/-- MSI-X vectors of a function (R165). -/
def State.vectors (s : State) (fn : Nat) : Nat := if fn = 0 then 129 else s.queueQuota fn + 1

/-- `QID` and `QSIZE` of a queue creation. -/
def qidOf (c : Cmd) : Nat := bits c.cdw10.toNat 15 0
def qsizeOf (c : Cmd) : Nat := bits c.cdw10.toNat 31 16 + 1

/-- CREATE_IO_CQ: `CDW11` holds the vector, interrupts enabled and physically contiguous. -/
def execCreateIoCq (c : Cmd) (s : State) : Out :=
  s.command c .admin fun s =>
    let qid := qidOf c
    let vector := bits c.cdw11.toNat 31 16
    let ien := c.cdw11.getLsbD 1
    if qid = 0 || qid > s.queueQuota c.fn || ((s.ctrl c.fn).cqs.any fun q => q.qid == qid) then
      s.complete c.ref .invalidQueueId
    else if qsizeOf c < 2 || qsizeOf c > 4096 then s.complete c.ref .invalidQueueSize
    else if !c.cdw11.getLsbD 0 then s.complete c.ref .invalidField
    else if vector ≥ s.vectors c.fn then s.complete c.ref .invalidVector
    else
      let q : Cq := { qid := qid, base := c.prp1, size := qsizeOf c, vector := vector, ien := ien }
      (s.modCtrl c.fn fun k => { k with cqs := k.cqs ++ [q] }).complete c.ref .success

/-- Queue priority of Create I/O Submission Queue. -/
def prioOf : Nat → QPrio
  | 0 => .urgent
  | 1 => .high
  | 2 => .medium
  | _ => .low

/-- CREATE_IO_SQ: `CDW11` holds the completion queue, `COMPUTE`, the priority and physically contiguous. -/
def execCreateIoSq (c : Cmd) (s : State) : Out :=
  s.command c .admin fun s =>
    let qid := qidOf c
    let cqid := bits c.cdw11.toNat 31 16
    if qid = 0 || qid > s.queueQuota c.fn || ((s.ctrl c.fn).sqs.any fun q => q.qid == qid) then
      s.complete c.ref .invalidQueueId
    else if qsizeOf c < 2 || qsizeOf c > 4096 then s.complete c.ref .invalidQueueSize
    else if !c.cdw11.getLsbD 0 then s.complete c.ref .invalidField
    else if cqid = 0 || cqid > s.queueQuota c.fn then s.complete c.ref .invalidQueueId
    else if !((s.ctrl c.fn).cqs.any fun q => q.qid == cqid) then s.complete c.ref .cqInvalid
    else
      let q : Sq :=
        { qid := qid, base := c.prp1, size := qsizeOf c, cqid := cqid, prio := prioOf (bits c.cdw11.toNat 2 1)
          compute := c.cdw11.getLsbD 3 }
      (s.modCtrl c.fn fun k => { k with sqs := k.sqs ++ [q] }).complete c.ref .success

/-- DELETE_IO_SQ: entries that have not started are aborted, and the deletion waits for those that have
(DEDUCED, log entry 43). -/
def execDeleteIoSq (c : Cmd) (s : State) : Out :=
  s.command c .admin fun s =>
    let qid := qidOf c
    if qid = 0 || !((s.ctrl c.fn).sqs.any fun q => q.qid == qid) then s.complete c.ref .invalidQueueId
    else
      let mine := (s.ctrl c.fn).outstanding.filter fun o => o.cmd.sqid == qid
      let s := (mine.filter fun o => !o.started).foldl (fun (s : State) o => s.complete o.cmd.ref .abortedSqDeletion) s
      if mine.any (·.started) then s.unbegin c.ref
      else (s.modCtrl c.fn fun k => { k with sqs := k.sqs.filter (·.qid != qid) }).complete c.ref .success

/-- DELETE_IO_CQ: not while a submission queue uses it. -/
def execDeleteIoCq (c : Cmd) (s : State) : Out :=
  s.command c .admin fun s =>
    let qid := qidOf c
    if qid = 0 || !((s.ctrl c.fn).cqs.any fun q => q.qid == qid) then s.complete c.ref .invalidQueueId
    else if (s.ctrl c.fn).sqs.any fun q => q.cqid == qid then s.complete c.ref .invalidQueueDeletion
    else (s.modCtrl c.fn fun k => { k with cqs := k.cqs.filter (·.qid != qid) }).complete c.ref .success

end Sys2Proof.Machine
end

