-- ==== Sys2Proof/Machine/LogPages.lean ====
section
/-!
DEFINITION. LogPages.lean: what Get Log Page returns: the vendor pages 0xC0 to 0xC8 (R177, R191 to R194) and the NVMe
pages of Table 05-5. A field of an NVMe structure that the spec gives no value for holds `Config.standardByte`.
-/

namespace Sys2Proof.Machine

/-! ### Vendor pages (Tables 05-8 to 05-10, 20-9) -/

/-- Bytes of an entry. -/
def entryBytes (page : Nat) : Nat := if page = 0xC7 then 32 else 64

/-- The header of a vendor page. -/
def logHeader (newest oldest count size lost faults : Nat) : List Byte :=
  bytesOfLe 8 newest ++ bytesOfLe 8 oldest ++ bytesOfLe 4 count ++ bytesOfLe 2 size ++ [0, 0] ++ bytesOfLe 8 lost
    ++ bytesOfLe 8 faults ++ List.replicate 24 0

/-- An entry with its common fields. -/
def LogEntry.bytes (e : LogEntry) (size : Nat) : List Byte :=
  padTo size (bytesOfLe 8 e.seq ++ bytesOfLe 8 e.time ++ e.body)
/-- A deferred error log entry (Table 05-10). -/
def Deferred.bytes (d : Deferred) : List Byte :=
  bytesOfLe 8 d.seq ++ bytesOfLe 8 d.time ++ bytesOfLe 1 d.fn ++ bytesOfLe 1 (b2n d.carried + 2 * b2n d.readByOwner)
    ++ [0, 0] ++ bytesOfLe 4 d.nsid ++ bytesOfLe 8 d.slba ++ bytesOfLe 4 d.nlb ++ bytesOfLe 4 d.faultNo
    ++ bytesOfLe 2 d.carrierCid ++ bytesOfLe 2 d.carrierSqid ++ List.replicate 20 0

/-- Sequence numbers of the newest and oldest of the entries of a page; 0 where there are none. -/
def seqEnds (l : List Nat) : Nat × Nat := (l.getLast?.getD 0, l.head?.getD 0)

/-- The deferred entries a function sees: PF0 all, a VF its own (R193). -/
def State.deferredSeenBy (s : State) (fn : Nat) : List Deferred := s.logs.deferred.filter fun d => fn == 0 || d.fn == fn

/-- A vendor page as a function sees it, header first. -/
def State.vendorPage (s : State) (fn page : Nat) : List Byte :=
  let size := entryBytes page
  if page = 0xC3 then
    let es := s.deferredSeenBy fn
    let ends := seqEnds (es.map (·.seq))
    let newest := if fn = 0 then s.logs.deferredNext - 1 else ends.1
    logHeader newest ends.2 es.length size (if fn = 0 then s.logs.deferredLost else (s.logs.deferredLostOf.lookup fn).getD 0) 0 ++ es.flatMap Deferred.bytes
  else
    let p := s.logs.page page
    let es := p.entries.filter fun e => fn == 0 || e.owner == fn
    let ends := seqEnds (es.map (·.seq))
    let newest := if fn = 0 then p.nextSeq - 1 else ends.1
    let lost := if fn = 0 then p.lost else (p.lostOf.lookup fn).getD 0
    let faults := if fn = 0 then p.faults else (es.filter (·.fault)).length
    logHeader newest ends.2 es.length size lost faults ++ es.flatMap fun (e : LogEntry) => e.bytes size

/-- May a function read a vendor page (Table 05-9)? -/
def vendorVisible (fn page : Nat) : Bool := fn == 0 || page == 0xC3 || page == 0xC6

/-- A Get Log Page of 0xC3 has returned bytes `off … off + n - 1`: entries of the function in them count as read
(DESIGN CHOICE, log entry 18). -/
def State.deferredRead (s : State) (fn off n : Nat) : State :=
  let seen := (s.deferredSeenBy fn).zipIdx.filter fun d =>
    decide (off ≤ 64 + 64 * d.2) && decide (64 + 64 * d.2 + 64 ≤ off + n) && d.1.fn == fn
  let seqs := seen.map (·.1.seq)
  let mark (d : Deferred) : Deferred := if seqs.contains d.seq then { d with readByOwner := true } else d
  { s with logs := { s.logs with deferred := s.logs.deferred.map mark } }

/-- Release the held-back code of a page on a function (R191). -/
def State.releaseCode (s : State) (fn page : Nat) : State :=
  s.modCtrl fn fun k => { k with held := k.held.filter (· != page) }

/-! ### NVMe pages (Table 05-5, R159, R162, R190, R506, R593, R609) -/

/-- A structure of `n` bytes whose stated fields are given as offset, size and value
(DESIGN CHOICE, log entry 12). -/
def structureOf (id n : Nat) (fields : List (Nat × Nat × Nat)) : List Byte :=
  (List.range n).map fun (i : Nat) =>
    match fields.find? fun f => decide (f.1 ≤ i) && decide (i < f.1 + f.2.1) with
    | some f => BitVec.ofNat 8 (f.2.2 / 256 ^ (i - f.1) % 256)
    | none => Config.standardByte id i

/-- Blocks of the module that are good. -/
def State.allGood (s : State) : Nat := ((List.range 4).map s.goodBlocks).foldl (· + ·) 0
/-- SMART Percentage Used: the mean cycle count of good blocks in percent of the rated cycles, at most 255 (R506). -/
def State.percentUsed (s : State) : Nat :=
  let rated := if s.big then 1500 else 3000
  let total := ((s.media.cycles.filter fun c => s.blockGood c.1).map (·.2)).foldl (· + ·) 0
  if s.allGood = 0 then 0 else min (total * 100 / (s.allGood * rated)) 255
/-- Faults counted under R190, over every page. -/
def State.faultTotal (s : State) : Nat :=
  s.logs.c0.faults + s.logs.c1.faults + s.logs.c2.faults + s.logs.c4.faults + s.logs.c5.faults + s.logs.c6.faults
    + s.logs.c7.faults + s.logs.c8.faults

/-- Log 01h: 64 entries, newest first. -/
def State.errorPage (s : State) (fn : Nat) : List Byte :=
  let k := s.ctrl fn
  let entry (e : Nat × CmdRef × Nat) : List Byte :=
    structureOf 0x01 64 [(0, 8, e.1), (8, 2, e.2.1.sqid), (10, 2, e.2.1.cid), (12, 2, 2 * e.2.2)]
  padTo 4096 ((k.errorLog.take 64).flatMap entry)
/-- Log 02h. -/
def State.smartPage (s : State) (fn : Nat) : List Byte :=
  structureOf 0x02 512
    [(0, 1, s.pcie.criticalWarning.toNat), (1, 2, s.kelvin), (5, 1, s.percentUsed), (160, 16, s.faultTotal),
     (176, 16, s.faultTotal + (s.ctrl fn).errorCount)]
/-- Log 03h (R593): the running slot and, where it differs, the slot that the next reload runs. -/
def State.firmwarePage (s : State) : List Byte :=
  let run := if s.svc.runSlot = 2 then 0 else s.svc.runSlot + 1
  let next := match s.bootChoice with
    | some k => if k + 1 = run then 0 else k + 1
    | none => 0
  let rev (k : Nat) : Nat := match s.svc.nor.fw k with
    | some f => (fwRevision f.header).toNat
    | none => 0
  padTo 512 (bytesOfLe 8 (run + 16 * next) ++ bytesOfLe 8 (rev 0) ++ bytesOfLe 8 (rev 1))
/-- Log 04h: the namespaces that have changed. -/
def State.changedPage (s : State) (fn : Nat) : List Byte :=
  padTo 4096 (((s.ctrl fn).changedNs.mergeSort fun a b => decide (a ≤ b)).flatMap (bytesOfLe 4))
/-- Does a function support an admin opcode (Table 05-5, R587)? -/
def State.adminSupported (s : State) (fn op : Nat) : Bool :=
  if s.svc.runSlot = 2 then [0x02, 0x06, 0x10, 0x11].contains op
  else [0x00, 0x01, 0x02, 0x04, 0x05, 0x06, 0x08, 0x09, 0x0A, 0x0C, 0x0D, 0x15, 0x80].contains op
    || (fn == 0 && [0x10, 0x11, 0x14, 0x84, 0xC1, 0xC4, 0xC5, 0xC6, 0xC8, 0xCC].contains op)
/-- Does a function support an I/O opcode (Tables 05-5 and 06-2)? -/
def State.ioSupported (s : State) (fn op : Nat) : Bool :=
  s.svc.runSlot != 2 && ([0x00, 0x01, 0x02, 0x09].contains op
    || (fn == 0 && [0xB1, 0xB2, 0xB4].contains op)
    || (fn != 0 && [0x81, 0x84, 0x8B, 0x8F, 0x93, 0x94, 0x98, 0x9C, 0xA1, 0xA4, 0xAB].contains op))
/-- Log 05h: bit 0 of an opcode's entry says that it is supported. -/
def State.effectsPage (s : State) (fn : Nat) : List Byte :=
  let entry (id op : Nat) (ok : Bool) : List Byte :=
    if ok then
      (List.range 4).map fun (i : Nat) =>
        let b := Config.standardByte id (4 * op + i)
        if i = 0 then b ||| 1 else b
    else [0, 0, 0, 0]
  padTo 4096 ((List.range 256).flatMap (fun (op : Nat) => entry 0x105 op (s.adminSupported fn op))
    ++ (List.range 256).flatMap fun (op : Nat) => entry 0x205 op (s.ioSupported fn op))
/-- Log 06h: the running test, and up to 20 results, newest first. -/
def State.testPage (s : State) : List Byte :=
  let cur := match s.svc.test with
    | some (code, _) => code
    | none => 0
  let entry (k : Nat) : List Byte := match s.svc.testLog[k]? with
    | some t => structureOf 0x06 28 [(0, 1, t.result + 16 * t.code), (1, 1, t.segment)]
    | none => 0x0F :: List.replicate 27 0
  structureOf 0x106 4 [(0, 1, cur)] ++ (List.range 20).flatMap entry
/-- Log 81h: a sanitize that has completed. -/
def State.sanitizePage (s : State) : List Byte :=
  structureOf 0x81 512 [(0, 2, 0xFFFF), (2, 1, if s.media.sanitized then 1 else 0)]

/-- The whole of a log page as a function sees it; none where the function has no such page (R157, R193, R587). -/
def State.logPage (s : State) (fn lid : Nat) : Option (List Byte) :=
  if 0xC0 ≤ lid ∧ lid ≤ 0xC8 then if vendorVisible fn lid then some (s.vendorPage fn lid) else none
  else if lid = 0x01 then some (s.errorPage fn)
  else if lid = 0x02 then some (s.smartPage fn)
  else if lid = 0x04 then some (s.changedPage fn)
  else if lid = 0x05 then some (s.effectsPage fn)
  else if fn ≠ 0 then none
  else if lid = 0x03 then some s.firmwarePage
  else if lid = 0x06 then some s.testPage
  else if lid = 0x81 then some s.sanitizePage
  else none

/-- What a Get Log Page returns and leaves: the bytes asked for, zeros past the page's end; a code released unless Retain
Asynchronous Event is 1; entries of page 0xC3 read
(PRESUMED, log entry 19). -/
def State.readLog (s : State) (fn : Nat) (c : Cmd) : Status × List Byte × State :=
  let lid := bits c.cdw10.toNat 7 0
  let retain := c.cdw10.getLsbD 15
  let n := 4 * (bits c.cdw10.toNat 31 16 + 65536 * bits c.cdw11.toNat 15 0 + 1)
  let off := c.cdw12.toNat + 2 ^ 32 * c.cdw13.toNat
  if n > 16777216 then (.invalidField, [], s)
  else match s.logPage fn lid with
    | none => (.invalidLogPage, [], s)
    | some page =>
      if off % 4 ≠ 0 || off > page.length then (.invalidField, [], s)
      else
        let bs := padTo n (page.drop off)
        let s := if retain then s else s.releaseCode fn lid
        let s := if lid = 0xC3 then s.deferredRead fn off n else s
        let s := if lid = 0x04 && !retain then s.modCtrl fn fun k => { k with changedNs := [] } else s
        (.success, bs, s)

/-- GET_LOG_PAGE. -/
def execGetLogPage (c : Cmd) (s : State) : Out :=
  s.command c .admin fun s =>
    let (st, bs, s) : Status × List Byte × State := s.readLog c.fn c
    if st = .success then (s.dataOut c.fn c.prp1 c.prp2 bs).complete c.ref .success else s.complete c.ref st

end Sys2Proof.Machine
end

