-- ==== Sys2Proof/Machine/Admin.lean ====
section
/-!
DEFINITION. Admin.lean: Identify, Abort, Asynchronous Event Request and the features (Tables 05-4, 05-5 and 05-7, R184 to
R186, R191, R601).
-/

namespace Sys2Proof.Machine

/-! ### IDENTIFY (R42, R46, R150, R156, R589, R608) -/

/-- Identify Controller: the fields that the spec states, and 0 in the fields of what R15 and Table 05-5 make absent:
`CTRATT`, the read recovery levels, the host-controlled temperatures, the host memory buffer, replay protection, NVM Sets and
Endurance Groups, asymmetric access, the persistent event log, autonomous power states, reservations in `ONCS`, fused
operations, and every power state descriptor but the first. The maximum power of power state 0 stands from byte 2048 on, in
units of 0.01 W over three bytes: 850 W does not fit the two that NVMe gives it
(PRESUMED, log entry 13; DESIGN CHOICE, log entry 110). -/
def State.identifyController (s : State) (fn : Nat) : List Byte :=
  let oacs := if fn = 0 then 0x1E else 0x0A
  structureOf 0x1001 4096
    [(64, 8, s.svc.revision.toNat), (77, 1, 12), (78, 2, fn), (80, 4, 0x00020000), (88, 4, 200000), (96, 4, 0), (100, 2, 0),
     (256, 2, oacs), (258, 1, 3), (259, 1, 7), (260, 1, 0x04), (262, 1, 63), (263, 1, 0), (265, 1, 0), (272, 8, 0),
     (312, 4, 0), (316, 2, 30), (318, 1, 1), (319, 1, 1), (320, 2, 0), (322, 6, 0), (328, 4, 2), (332, 24, 0),
     (512, 1, 0x66), (513, 1, 0x44), (516, 4, 32), (520, 2, 0x54), (522, 2, 0), (524, 1, 0), (525, 1, 0), (531, 1, 0),
     (532, 2, 0), (536, 4, 0), (2048, 3, 85000), (2051, 1, 0), (2080, 992, 0)]

/-- Identify Namespace: one LBA format of 4,096 bytes, no metadata, no protection information; no sharing between
controllers, no reservations, no NVM Set and no Endurance Group. -/
def identifyNamespace (blocks : Nat) : List Byte :=
  structureOf 0x1000 4096
    [(0, 8, blocks), (8, 8, blocks), (25, 1, 0), (26, 1, 0), (27, 1, 0), (28, 1, 0), (29, 1, 0), (30, 1, 0), (31, 1, 0),
     (92, 4, 0), (99, 1, 0), (100, 2, 0), (102, 2, 0), (128, 4, 0x000C0000)]

/-- A list of numbers of `w` bytes each, in 4,096 bytes. -/
def idList (w : Nat) (l : List Nat) : List Byte := padTo 4096 ((l.mergeSort fun a b => decide (a ≤ b)).flatMap (bytesOfLe w))
/-- The controllers of the subsystem with an identifier of at least `first`. -/
def State.controllers (s : State) (first : Nat) : List Nat :=
  (List.range 17).filter fun fn => decide (fn ≥ first) && s.fnLive fn

/-- The structure that a `CNS` value names, as a function sees it
(DEDUCED, log entry 42). -/
def State.identifyData (s : State) (fn : Nat) (c : Cmd) : Status × List Byte :=
  let cns := bits c.cdw10.toNat 7 0
  let first := bits c.cdw10.toNat 31 16
  let nsid := c.nsid.toNat
  let own := s.media.namespaces.filter (·.fn == fn)
  let named := own.find? (·.nsid == nsid)
  let inRange := decide (1 ≤ nsid ∧ nsid ≤ 32)
  let zeros := List.replicate 4096 (0 : Byte)
  let list (l : List Nat) : List Byte := padTo 4096 (bytesOfLe 2 l.length ++ (idList 2 l))
  if cns = 0x01 then (.success, s.identifyController fn)
  else if cns = 0x00 then
    if nsid = 0xFFFFFFFF then (.success, identifyNamespace 0)
    else if !inRange then (.invalidNamespace, [])
    else match named with
      | some n => (.success, if n.attached then identifyNamespace n.blocks else zeros)
      | none => (.success, zeros)
  else if cns = 0x02 then
    (.success, idList 4 ((own.filter fun n => n.attached && decide (n.nsid > nsid)).map (·.nsid)))
  else if cns = 0x10 then (.success, idList 4 ((own.filter fun n => decide (n.nsid > nsid)).map (·.nsid)))
  else if cns = 0x11 then
    if !inRange then (.invalidNamespace, []) else match named with
      | some n => (.success, identifyNamespace n.blocks)
      | none => (.success, zeros)
  else if cns = 0x03 then match named with
    | some n => (.success, structureOf (0x2000 + n.nsid) 4096 [])
    | none => (.invalidNamespace, [])
  else if cns = 0x12 then match named with
    | some n => (.success, list (if n.attached && decide (fn ≥ first) then [fn] else []))
    | none => (.invalidNamespace, [])
  else if cns = 0x13 then (.success, list (s.controllers first))
  else (.invalidField, [])

/-- IDENTIFY. -/
def execIdentify (c : Cmd) (s : State) : Out :=
  s.command c .admin fun s =>
    let (st, bs) : Status × List Byte := s.identifyData c.fn c
    if st = .success then (s.dataOut c.fn c.prp1 c.prp2 bs).complete c.ref .success else s.complete c.ref st

/-! ### ABORT and ASYNCHRONOUS_EVENT_REQUEST (Tables 05-4, 05-13, R191) -/

/-- ABORT: a command that has not started, a held event request and a pending WAIT_GE are aborted; DW0 bit 0 is 1 for any
other one. At most four are outstanding
(DEDUCED, log entry 42). -/
def execAbort (c : Cmd) (s : State) : Out :=
  s.command c .admin fun s =>
    let k := s.ctrl c.fn
    let target : CmdRef := { fn := c.fn, sqid := bits c.cdw10.toNat 15 0, cid := bits c.cdw10.toNat 31 16 }
    let others := (k.earlier c).filter fun o => o.cmd.opcode == 0x08
    let may := (k.outstanding.any fun o => o.cmd.ref == target && !o.started)
      || (target.sqid == 0 && k.aers.contains target.cid)
      || (s.hostWaits c.fn).any fun w => w.ref == target
    if others.length ≥ 4 then s.complete c.ref .abortLimit
    else if may && target != c.ref then (s.complete target .abortRequested).complete c.ref .success 0
    else s.complete c.ref .success 1

/-- ASYNCHRONOUS_EVENT_REQUEST: held, at most eight on a controller, or completed by the oldest event that waits
(PRESUMED, log entry 85). -/
def execAsynchronousEventRequest (c : Cmd) (s : State) : Out :=
  s.command c .admin fun s =>
    let k := s.ctrl c.fn
    if k.aers.length ≥ 8 then s.complete c.ref .aerLimit
    else match k.waiting with
      | e :: rest =>
        (s.modCtrl c.fn fun k => { k with waiting := rest }).complete c.ref .success (e.aet + 256 * e.info + 65536 * e.page)
      | [] => s.modCtrl c.fn fun k => { k with aers := k.aers ++ [c.cid] }

/-! ### Features (Tables 05-5, 05-7) -/

/-- The features of Table 05-5
(PRESUMED, log entry 13). -/
def featureKnown (fid : Nat) : Bool :=
  [0x01, 0x02, 0x04, 0x07, 0x08, 0x09, 0x0A, 0x0B, 0x0E, 0xC0, 0xC1].contains fid
/-- Features that Set Features may save (R601). -/
def featureSaveable (fid : Nat) : Bool := [0x01, 0x04, 0x08, 0x0B, 0xC0, 0xC1].contains fid

/-- The value of a feature field in a set of features: feature, selector. -/
def Features.get (f : Features) (fid sel : Nat) : Nat :=
  if fid = 0x01 then f.ab + 2 ^ 8 * f.lpw + 2 ^ 16 * f.mpw + 2 ^ 24 * f.hpw
  else if fid = 0x04 then if sel = 0 then f.tempOver else f.tempUnder
  else if fid = 0x08 then f.coalesce.toNat
  else if fid = 0x0A then f.atomicity.toNat
  else if fid = 0x0B then f.asyncCfg.toNat
  else if fid = 0xC0 then f.deadlineMs + 2 ^ 16 * f.nvmTimeoutMs
  else 0

/-- The Timestamp of a controller: milliseconds counted on from the value set, or from its reset, and where it came from. -/
def State.timestampBytes (s : State) (fn : Nat) : List Byte :=
  let f := (s.ctrl fn).features
  bytesOfLe 6 (f.timestampBase + (s.now - f.timestampAt) / 1000) ++ bytesOfLe 1 (2 * f.timestampOrigin) ++ [0]

/-- Does the retry-budget rule hold under a floor: every lower-level budget below it, and every configured deadline and
timeout at least it (R185)? -/
def State.floorHolds (s : State) (floorMs : Nat) : Bool :=
  budgetHolds floorMs s.media.budgetUs s.peer.rtoUs s.peer.retryLimit
    && s.pcie.ctrls.all fun (k : Ctrl) => decide (floorMs ≤ k.features.deadlineMs) && decide (floorMs ≤ k.features.nvmTimeoutMs)

/-- Set a feature: its status and the state that has it; nothing changes under any other status. `sel` tells the two
thresholds of feature 04h apart
(PRESUMED, log entry 85; DEDUCED, log entry 94). -/
def State.featureSet (s : State) (c : Cmd) (fid : Nat) : Status × Nat × State :=
  let v := c.cdw11.toNat
  let put (sel v : Nat) : Status × Nat × State :=
    (.success, 0, s.modCtrl c.fn fun k => { k with features := k.features.put fid sel v })
  if fid = 0x01 then
    (.success, 0, s.modCtrl c.fn fun k => { k with features := k.features.put fid 0 v, wrrLeft := (0, 0, 0) })
  else if fid = 0x02 then if bits v 4 0 = 0 then (.success, 0, s) else (.invalidField, 0, s)
  else if fid = 0x04 then
    let tmp := bits v 19 16
    let th := bits v 21 20
    if (tmp ≠ 0 && tmp ≠ 15) || th > 1 then (.invalidField, 0, s) else put th (bits v 15 0)
  else if fid = 0x07 then
    let n := s.queueQuota c.fn - 1
    (.success, n + 65536 * n, s)
  else if fid = 0x09 then
    let iv := bits v 15 0
    if iv ≥ s.vectors c.fn then (.invalidField, 0, s)
    else (.success, 0, s.modCtrl c.fn fun k => { k with features := { k.features with
      vectorCfg := (iv, BitVec.ofNat 32 (bits v 16 0)) :: k.features.vectorCfg.filter (·.1 != iv) } })
  else if fid = 0x0E then
    let d := s.dataIn c.prp1 c.prp2 8
    (.success, 0, s.modCtrl c.fn fun k => { k with features := { k.features with
      timestampBase := readLe (listReader d) 0 6, timestampAt := s.now, timestampOrigin := 1 } })
  else if fid = 0xC0 then
    let ok (x : Nat) : Bool := decide (s.pcie.floorMs ≤ x ∧ x ≤ 60000)
    if ok (bits v 15 0) && ok (bits v 31 16) then put 0 v else (.invalidField, 0, s)
  else if fid = 0xC1 then
    let x := bits v 15 0
    if c.fn ≠ 0 || x = 0 || x > 1000 || !s.floorHolds x then (.invalidField, 0, s)
    else (.success, 0, s.modPcie fun p => { p with floorMs := x })
  else put 0 v

/-- Set Features of one feature: bit 31 of CDW10 saves it, which ends when the boot NOR has taken the record (R601). -/
def State.setFeature (s : State) (c : Cmd) (fid : Nat) : State :=
  let save := c.cdw10.getLsbD 31
  if !featureKnown fid then s.complete c.ref .invalidField
  else if save && (!featureSaveable fid || s.svc.bootSel) then s.complete c.ref .notSaveable
  else
    let (st, dw0, t) : Status × Nat × State := s.featureSet c fid
    if st = .success && save then
      let sel := if fid = 0x04 then bits c.cdw11.toNat 21 20 else 0
      t.norRequest (.features c.ref [(c.fn, fid, sel, if fid = 0x04 then bits c.cdw11.toNat 15 0 else c.cdw11.toNat)])
    else t.complete c.ref st dw0

/-- SET_FEATURES. -/
def execSetFeatures (c : Cmd) (s : State) : Out := s.command c .admin fun s => s.setFeature c (bits c.cdw10.toNat 7 0)
/-- SET_ARBITRATION (R166). -/
def execSetArbitration (c : Cmd) (s : State) : Out := s.command c .admin fun s => s.setFeature c 0x01
/-- SET_COMMAND_TIMEOUTS (R184, R186)
(DEDUCED, log entry 94). -/
def execSetCommandTimeouts (c : Cmd) (s : State) : Out := s.command c .admin fun s => s.setFeature c 0xC0
/-- SET_DEADLINE_FLOOR (R185, R186)
(DEDUCED, log entry 42). -/
def execSetDeadlineFloor (c : Cmd) (s : State) : Out := s.command c .admin fun s => s.setFeature c 0xC1

/-- The value of a feature as Get Features returns it: current, default or saved. -/
def State.featureValue (s : State) (fn fid : Nat) (v : Dword) (sel : Nat) : Nat :=
  let f := if sel = 0 then (s.ctrl fn).features else if sel = 2 then s.savedFeatures fn else {}
  if fid = 0x04 then f.get fid (bits v.toNat 21 20)
  else if fid = 0x07 then
    let n := s.queueQuota fn - 1
    n + 65536 * n
  else if fid = 0x09 then ((f.vectorCfg.lookup (bits v.toNat 15 0)).map (·.toNat)).getD (bits v.toNat 15 0)
  else if fid = 0xC1 then if sel = 0 then s.pcie.floorMs else if sel = 2 then s.savedFloor else 5
  else f.get fid 0

/-- GET_FEATURES: `SEL` 3 reports what the feature allows: saveable in bit 0, changeable in bit 2. -/
def execGetFeatures (c : Cmd) (s : State) : Out :=
  s.command c .admin fun s =>
    let fid := bits c.cdw10.toNat 7 0
    let sel := bits c.cdw10.toNat 10 8
    if !featureKnown fid || sel > 3 then s.complete c.ref .invalidField
    else if sel = 3 then
      s.complete c.ref .success (b2n (featureSaveable fid) + 4 * b2n (!(fid == 0xC1 && c.fn != 0)))
    else if fid = 0x0E then
      let bs := if sel = 0 then s.timestampBytes c.fn else List.replicate 8 0
      (s.dataOut c.fn c.prp1 c.prp2 bs).complete c.ref .success
    else if fid = 0x09 && bits c.cdw11.toNat 15 0 ≥ s.vectors c.fn then s.complete c.ref .invalidField
    else s.complete c.ref .success (s.featureValue c.fn fid c.cdw11 sel)

end Sys2Proof.Machine
end

