-- ==== Sys2Proof/Machine/Mi.lean ====
section
/-!
DEFINITION. Mi.lean: NVMe-MI over the sideband SMBus (R162): each command leaves its reply in `miReply`, a status byte, the
three bytes of the management response and the data. Bytes of an NVMe-MI structure that the spec gives no value for hold
`Config.standardByte`.
-/

namespace Sys2Proof.Machine

/-- NVMe-MI status codes that the module gives: success, invalid opcode, invalid parameter. -/
def miSuccess : Nat := 0
def miInvalidOpcode : Nat := 3
def miInvalidParameter : Nat := 4

/-- Does the endpoint answer: firmware or the ROM recovery controller runs, and the bus is driven? -/
def State.miAnswers (s : State) : Bool :=
  s.power.stage == .on && s.svc.running && !s.power.perst && s.pins.smbDriven

/-- Answer a command. -/
def State.miAnswer (s : State) (status : Nat) (response : List Byte) (data : List Byte) : State :=
  s.modPcie fun p => { p with miReply := bytesOfLe 1 status ++ padTo 3 response ++ data }
/-- Answer it, or leave it unanswered while the endpoint does not answer
(DESIGN CHOICE, log entry 47). -/
def State.mi (s : State) (f : State → State) : Out := if s.miAnswers then .next (f s) else .next s

/-- The 7-bit SMBus addresses of the MCTP endpoint and of the basic management command (R162). -/
def smbusEndpoint : Nat := 0x1D
/-- See `smbusEndpoint`. -/
def smbusBasic : Nat := 0x6A
/-- What a read of the basic management command at `smbusBasic` returns, up to the life used: the length of the status data,
the status flags with the drive ready in bit 6 inverted, the SMART warnings inverted, the composite temperature in °C and the
percentage used; none while the module does not answer. The table of commands has no row for it, and it changes nothing
(PRESUMED, log entry 111). -/
def State.basicManagement (s : State) : Option (List Byte) :=
  if s.miAnswers then
    some (bytesOfLe 1 6 ++ bytesOfLe 1 (0x3F + 0x80 + 0x40 * b2n (!(s.ctrl 0).ready))
      ++ [~~~s.pcie.criticalWarning] ++ bytesOfLe 1 (min s.power.tjMax 127) ++ bytesOfLe 1 s.percentUsed)
  else none

/-- The code of an SMBus frequency. -/
def smbusCode (khz : Nat) : Nat := if khz = 400 then 2 else 1

/-- MI_READ_DATA_STRUCTURE: subsystem information, port information, controller list, controller information and the list
of optional commands. Port 0 is PCIe and port 1 is SMBus: endpoint 0x1D, basic management command 0x6A, 400 kHz. -/
def execMiReadDataStructure (dtype portId ctrlId : Nat) (s : State) : Out :=
  s.mi fun s =>
    let ok (data : List Byte) : State := s.miAnswer miSuccess (bytesOfLe 2 data.length) data
    if dtype = 0 then ok (structureOf 0x3000 32 [(0, 1, 1), (1, 1, 1), (2, 1, 2)])
    else if dtype = 1 then
      if portId = 0 then ok (structureOf 0x3001 32 [(0, 1, 1)])
      else if portId = 1 then ok (structureOf 0x3002 32 [(0, 1, 2), (10, 1, 2 * smbusEndpoint), (11, 1, 2), (12, 1, 1)])
      else s.miAnswer miInvalidParameter [] []
    else if dtype = 2 then
      let ids := s.controllers ctrlId
      ok (bytesOfLe 2 ids.length ++ ids.flatMap (bytesOfLe 2))
    else if dtype = 3 then
      if s.fnLive ctrlId then ok (structureOf (0x3100 + ctrlId) 32 [(0, 1, 0)]) else s.miAnswer miInvalidParameter [] []
    else if dtype = 4 then ok (structureOf 0x3004 2 [])
    else s.miAnswer miInvalidParameter [] []

/-- MI_SUBSYSTEM_HEALTH_POLL: SMART warnings inverted, composite temperature in °C, life used. The change flags that
`clear` would clear are no state of the spec
(DESIGN CHOICE, log entry 47). -/
def execMiSubsystemHealthPoll (clear : Bool) (s : State) : Out :=
  s.mi fun s => match clear with
    | _ => s.miAnswer miSuccess []
        (structureOf 0x3200 8
          [(1, 1, (~~~s.pcie.criticalWarning).toNat), (2, 1, min s.power.tjMax 127), (3, 1, s.percentUsed)])

/-- One controller's entry: identifier, `CSTS`, composite temperature in kelvin, life used, Critical Warning. -/
def State.miController (s : State) (fn : Nat) : List Byte :=
  let k := s.ctrl fn
  structureOf (0x3300 + fn) 16
    [(0, 2, fn), (2, 2, b2n k.ready + 4 * k.shst), (4, 2, s.kelvin), (6, 1, s.percentUsed),
     (8, 1, s.pcie.criticalWarning.toNat)]
/-- MI_CONTROLLER_HEALTH_POLL: up to `max` controllers from identifier `first` on
(DESIGN CHOICE, log entry 47). -/
def execMiControllerHealthPoll (first max : Nat) (clear : Bool) (s : State) : Out :=
  s.mi fun s =>
    let ids := (s.controllers first).take max
    match clear with
    | _ => s.miAnswer miSuccess (List.replicate 2 0 ++ bytesOfLe 1 ids.length) (ids.flatMap s.miController)

/-- MI_CONFIGURATION_GET: the SMBus frequency, configuration 01h. -/
def execMiConfigurationGet (config port : Nat) (s : State) : Out :=
  s.mi fun s =>
    if config = 1 && port = 1 then s.miAnswer miSuccess (bytesOfLe 1 (smbusCode s.pcie.smbusKhz)) []
    else s.miAnswer miInvalidParameter [] []

/-- MI_CONFIGURATION_SET: 100 kHz or 400 kHz. -/
def execMiConfigurationSet (config port value : Nat) (s : State) : Out :=
  s.mi fun s =>
    if config = 1 && port = 1 && (value = 1 || value = 2) then
      (s.miAnswer miSuccess [] []).modPcie fun p => { p with smbusKhz := if value = 2 then 400 else 100 }
    else s.miAnswer miInvalidParameter [] []

/-- MI_VPD_READ. -/
def execMiVpdRead (offset length : Nat) (s : State) : Out :=
  s.mi fun s => s.miAnswer miSuccess [] ((List.range length).map fun (i : Nat) => Config.vpd (offset + i))

/-- MI_TUNNELED_ADMIN: Identify and Get Log Page only, as on PF0; the completion's status and the data are the reply. -/
def execMiTunneledAdmin (c : Cmd) (s : State) : Out :=
  s.mi fun s =>
    let reply (s : State) (st : Status) (bs : List Byte) : State :=
      s.miAnswer miSuccess [] (bytesOfLe 4 0 ++ bytesOfLe 4 0 ++ bytesOfLe 4 (65536 * (2 * (st.sc + 256 * st.sct))) ++ bs)
    let ident := s.identifyData 0 c
    let log := s.readLog 0 c
    if c.opcode = 0x06 then reply s ident.1 ident.2
    else if c.opcode = 0x02 then
      if s.svc.runSlot = 2 && !romAccepts c then reply s .invalidOpcode []
      else reply log.2.2 log.1 log.2.1
    else s.miAnswer miInvalidOpcode [] []

end Sys2Proof.Machine
end

