-- ==== Sys2Proof/Machine/Registers.lean ====
section
/-!
DEFINITION. Registers.lean: what a read of the module window, of a tenant window and of the controller registers returns
(Tables 05-3, 05-4, 20-2 to 20-6), and REGISTER_WRITE (R10 to R14, R154, R615 to R621).
-/

namespace Sys2Proof.Machine

/-! ### Reads of the module window -/

/-- Word `k` of four bytes of a number. -/
def wordOf (v k : Nat) : Nat := v / 2 ^ (32 * k) % 2 ^ 32

/-- The IDENT block (Table 20-2). -/
def State.identReg (s : State) (o : Nat) : Nat :=
  if o = 0x0 then 0x4D375856
  else if o = 0x4 then 0xB1 + 2 ^ 8 * 0x43 + 2 ^ 16 * b2n s.big + 2 ^ 24
  else if 0x8 ≤ o ∧ o < 0x18 then wordOf s.serial.toNat ((o - 0x8) / 4)
  else if 0x18 ≤ o ∧ o < 0x20 then wordOf s.svc.revision.toNat ((o - 0x18) / 4)
  else 0
/-- The PERS block (Tables 04-9 to 04-11); `o` is the offset in the block. -/
def State.persReg (s : State) (o : Nat) : Nat :=
  if o = 0x00 then s.persState
  else if o = 0x04 then s.persResult
  else if o = 0x08 then s.pers.stageBytes
  else if o = 0x0C then s.keyState
  else if o = 0x10 then s.pers.scrubPasses
  else if o = 0x14 then s.pers.scrubCorrected
  else if o = 0x18 then s.pers.scrubEssential
  else if o = 0x1C then s.pers.taintSlices.toNat
  else if o = 0x20 then s.pers.shellDiscards
  else if o = 0x24 then s.pers.shellOverruns
  else 0
/-- The CLKPWR block (Tables 02-5 to 02-11). -/
def State.clkpwrReg (s : State) (o : Nat) : Nat :=
  if o = 0x00 then s.clkCore
  else if o = 0x04 then s.pwrInput
  else if o = 0x08 then s.power.capW
  else if o = 0x0C then s.holdup
  else if o = 0x10 then s.therm
  else if o = 0x14 then s.power.resetCause.toNat
  else if o = 0x18 then s.sideband
  else 0
/-- A Rasp unit's registers (Table 13-9). -/
def State.raspReg (s : State) (c o : Nat) : Nat :=
  let x := s.rasp.getD c {}
  [s.raspHeld c, x.units, x.records, x.passed, x.inserts, x.nan, x.stall, x.aheadCount].getD (o / 4) 0
/-- A Burl engine's registers (Table 14-6). -/
def State.burlReg (s : State) (n o : Nat) : Nat :=
  let x := s.burl.getD n {}
  [x.images, x.rejCoding, x.rejCorrupt, x.rejSize, x.rejRange, x.fsUncorr, x.capped, x.keypoints].getD (o / 4) 0
/-- The ENGINE block (Tables 07-7 to 07-10). -/
def State.engineReg (s : State) (o : Nat) : Nat :=
  if o = 0x0000 then 0x01004E40
  else if 0x0004 ≤ o ∧ o < 0x0010 then s.engOffline ((o - 4) / 4)
  else if o = 0x0010 then s.engFaults
  else if o = 0x0014 then s.engSpills
  else if 0x0100 ≤ o ∧ o < 0x0300 then
    if o % 8 = 0 then s.spindleState ((o - 0x100) / 8) else s.spindlePos ((o - 0x100) / 8)
  else if 0x0400 ≤ o ∧ o < 0x0400 + 4 * 78 then s.queueOcc ((o - 0x400) / 4)
  else if 0x1000 ≤ o ∧ o < 0x1400 then s.raspReg ((o - 0x1000) / 0x20) (o % 0x20)
  else if 0x1400 ≤ o ∧ o < 0x1440 then s.burlReg ((o - 0x1400) / 0x20) (o % 0x20)
  else 0
/-- The MEMPROT block (Tables 17-10, 17-11). -/
def State.memReg (s : State) (o : Nat) : Nat :=
  if o < 0x80 then
    let k := o / 0x20
    let x := s.stack k
    [s.memStatus k, x.corrSoft, x.corrHard, x.uncorr, x.poisonReads, x.rmw, s.memScrub k].getD (o % 0x20 / 4) 0
  else if 0x100 ≤ o ∧ o < 0x300 then s.remapEntry ((o - 0x100) / 0x80) ((o - 0x100) % 0x80 / 4)
  else if 0x300 ≤ o ∧ o < 0x400 then s.retiredEntry ((o - 0x300) / 0x40) ((o - 0x300) % 0x40 / 4)
  else if 0x400 ≤ o ∧ o < 0x400 + 8 * 11 then
    let x := s.prot.sram.getD ((o - 0x400) / 8) {}
    if o % 8 = 0 then x.corr else x.uncorr
  else 0
/-- The MEDIA block (Tables 15-11 to 15-13, 16-6); its settable registers are read as settings are. -/
def State.mediaReg (s : State) (o : Nat) : Nat :=
  if [0x04, 0x08, 0x0C, 0x30, 0x40, 0x44].contains o then s.settingGet (0x040000 + o)
  else if o = 0x00 then s.mediaId
  else if o = 0x10 then s.chIsolated
  else if 0x14 ≤ o ∧ o < 0x2C then
    [s.media.retryReads, s.media.rebuilt, s.media.unreadable, s.media.suspends, s.media.diesRetired,
     s.media.calibrations].getD ((o - 0x14) / 4) 0
  else if o = 0x34 then s.norStatus
  else if o = 0x48 then s.dirtyLimitMib
  else if o = 0x4C then s.dirtyMib
  else if 0x80 ≤ o ∧ o < 0x90 then s.groupState ((o - 0x80) / 4)
  else if 0x100 ≤ o ∧ o < 0x180 then s.chStatus ((o - 0x100) / 4)
  else 0
/-- The PEER block (Tables 18-9 to 18-11). -/
def State.peerReg (s : State) (o : Nat) : Nat :=
  if o < 0x14 then s.settingGet (0x050000 + o)
  else if o = 0x14 then s.reorderUsed
  else if o = 0x18 then s.peer.reorderDrops
  else if o = 0x1C then s.peer.rxForeign
  else if 0x100 ≤ o ∧ o < 0x200 then
    let p := (o - 0x100) / 0x40
    let x := s.port p
    [s.portState p, x.txFrames, x.rxFrames, x.retx, x.transit, x.transitDrops, x.rxDiscards, x.linkDowns].getD
      (o % 0x40 / 4) 0
  else if 0x1000 ≤ o ∧ o < 0x3000 then
    let f := (o - 0x1000) / 8
    if o % 8 = 0 then s.flowState f else (s.flow f).retx
  else 0
/-- One register of a watermark (Table 09-9). -/
def Watermark.reg (w : Watermark) (o : Nat) : Nat :=
  [w.mark, b2n w.latch + 2 ^ 16 * w.count, w.level, w.peak].getD (o / 4) 0
/-- The WMARK block. -/
def State.wmarkReg (s : State) (o : Nat) : Nat :=
  match markAt (0x060000 + o / 16 * 16) with
  | some (t, w) => ((s.mark? t w).map fun (x : Watermark) => x.reg (o % 16)).getD 0
  | none => 0
/-- The SVCMBX block (Table 19-11). -/
def State.svcReg (s : State) (o : Nat) : Nat :=
  if o = 0x00 then s.svcState
  else if o = 0x04 then s.wdtStatus
  else if o = 0x08 then s.svc.wdtExpiries
  else if o = 0x0C then s.svc.shieldHolds
  else if o = 0x10 then 2 ^ 8 * b2n s.svc.settingsBusy
  else if o = 0x14 then s.monStatus
  else 0

/-- A 4-byte read of the module window. While a reset that reaches CORE is in progress only IDENT and CLKPWR answer
(R619); an offset that no table lists reads zero (R615)
(DESIGN CHOICE, log entry 23). -/
def State.moduleReg (s : State) (off : Nat) : Nat :=
  if off % 4 ≠ 0 then 0
  else if off < 0x1000 then s.identReg off
  else if 0x2000 ≤ off ∧ off < 0x3000 then s.clkpwrReg (off - 0x2000)
  else if s.power.perst then 0
  else if off < 0x2000 then s.persReg (off - 0x1000)
  else if 0x10000 ≤ off ∧ off < 0x20000 then wordOf (s.ctr ((off - 0x10000) / 8)) (off % 8 / 4)
  else if 0x20000 ≤ off ∧ off < 0x30000 then s.engineReg (off - 0x20000)
  else if 0x30000 ≤ off ∧ off < 0x40000 then s.memReg (off - 0x30000)
  else if 0x40000 ≤ off ∧ off < 0x50000 then s.mediaReg (off - 0x40000)
  else if 0x50000 ≤ off ∧ off < 0x60000 then s.peerReg (off - 0x50000)
  else if 0x60000 ≤ off ∧ off < 0x70000 then s.wmarkReg (off - 0x60000)
  else if 0x70000 ≤ off ∧ off < 0x80000 then s.svcReg (off - 0x70000)
  else 0

/-! ### Reads of a tenant window and of a controller's registers -/

/-- A 4-byte read of tenant `n`'s window (Table 20-6)
(DESIGN CHOICE, log entry 23). -/
def State.tenantReg (s : State) (n off : Nat) : Nat :=
  let t := s.tenant n
  match s.record n with
  | none => 0
  | some r =>
    if off % 4 ≠ 0 then 0
    else if off = 0x0000 then t.statRun
    else if off = 0x0004 then t.statSat
    else if 0x0100 ≤ off ∧ off < 0x0180 then
      ((s.mark? (some n) ((off - 0x100) / 16)).map fun (x : Watermark) => x.reg (off % 16)).getD 0
    else if off = 0x1000 then r.range
    else if off = 0x1004 then t.page
    else if off = 0x1010 then t.refused
    else if off = 0x1014 then t.lastRefusedIdx + 2 ^ 16 * t.lastRefusedWhy
    else if 0x1400 ≤ off ∧ off < 0x1800 then s.anchorWord n ((off - 0x1400) / 4)
    else if 0x4000 ≤ off ∧ off < 0x8000 then
      match s.slotCounter n ((off - 0x4000) / 8) with
      | some c => wordOf (s.ctr c) (off % 8 / 4)
      | none => 0
    else if off = 0x8000 then r.qosW0
    else if off = 0x8004 then r.qosW1
    else if off = 0x8008 then s.qosSpindles n
    else if off = 0x800C then s.qosTile n
    else 0

/-- `CAP` (Table 05-4): 4,096 entries, contiguous queues, weighted round robin with urgent class, a timeout of 20 s, the
NVM command set. -/
def capValue : Nat := 4095 + 2 ^ 16 + 2 ^ 17 + 2 ^ 24 * 40 + 2 ^ 37
/-- `CSTS` of a function. -/
def State.csts (s : State) (fn : Nat) : Nat := b2n (s.ctrl fn).ready + 2 ^ 2 * (s.ctrl fn).shst
/-- Word `k` of an MSI-X table entry. -/
def MsixEntry.word (e : MsixEntry) (k : Nat) : Nat :=
  [wordOf e.addr.toNat 0, wordOf e.addr.toNat 1, e.data.toNat, b2n e.masked].getD k 0
/-- A 4-byte read of BAR0 of a function (Table 05-3)
(DESIGN CHOICE, log entry 23). -/
def State.ctrlReg (s : State) (fn off : Nat) : Nat :=
  let k := s.ctrl fn
  if off % 4 ≠ 0 then 0
  else if off = 0x00 ∨ off = 0x04 then wordOf capValue (off / 4)
  else if off = 0x08 then 0x00020000
  else if off = 0x0C ∨ off = 0x10 then k.intMask.toNat
  else if off = 0x14 then k.cc.toNat
  else if off = 0x1C then s.csts fn
  else if off = 0x24 then k.aqa.toNat
  else if off = 0x28 ∨ off = 0x2C then wordOf k.asq.toNat ((off - 0x28) / 4)
  else if off = 0x30 ∨ off = 0x34 then wordOf k.acq.toNat ((off - 0x30) / 4)
  else if 0x2000 ≤ off ∧ off < 0x2000 + 16 * 129 then
    (k.msix.getD ((off - 0x2000) / 16) {}).word (off % 16 / 4)
  else if 0x3000 ≤ off ∧ off < 0x3018 then
    ((List.range 32).map fun (b : Nat) =>
      if k.msixPending.contains (8 * (off - 0x3000) + b) then 2 ^ b else 0).foldl (· + ·) 0
  else 0

/-- A read of `bytes` bytes at an offset of a window: 4 or 8 bytes, naturally aligned, and zero for any other width; the
eight bytes are one consistent value of one moment (R154). A tenant window is its own VF's (R155). -/
def State.readReg (s : State) (w : Window) (off bytes : Nat) : Nat :=
  let word (o : Nat) : Nat := match w with
    | .module => s.moduleReg o
    | .tenant n => if s.vfLive n then s.tenantReg n o else 0
    | .controller fn => if s.fnLive fn then s.ctrlReg fn o else 0
    | .config _ => 0
  if bytes = 4 && off % 4 = 0 then word off
  else if bytes = 8 && off % 8 = 0 then word off + 2 ^ 32 * word (off + 4)
  else 0

/-! ### REGISTER_WRITE -/

/-- Clear the bits of a field that a write holds at 1. -/
def clear1 {w : Nat} (old : BitVec w) (v : Nat) : BitVec w := old &&& ~~~(BitVec.ofNat w v)

/-- A write of `CLKPWR`: RW fields take defined values, W1C bits clear (Tables 02-5, 02-7 to 02-11). -/
def Power.write (p : Power) (o v : Nat) : Power :=
  if o = 0x00 then if bits v 4 0 ≤ 21 then { p with targetStep := bits v 4 0 } else p
  else if o = 0x08 then
    if 500 ≤ bits v 11 0 ∧ bits v 11 0 ≤ 850 then { p with capW := bits v 11 0 } else p
  else if o = 0x0C then { p with lowCap := p.lowCap && !bit v 26 }
  else if o = 0x10 then { p with throttled := p.throttled && !bit v 25 }
  else if o = 0x14 then { p with resetCause := clear1 p.resetCause (bits v 8 0) }
  else if o = 0x18 then
    { p with smbFault := p.smbFault && !bit v 17, ledFault := p.ledFault && !bit v 18, wakeFault := p.wakeFault && !bit v 19 }
  else p

/-- Settable registers of the module window without a row of their own. -/
def plainSetting (off : Nat) : Bool :=
  [0x040008, 0x04000C, 0x040040, 0x040044, 0x050000, 0x050004, 0x050008, 0x050010].contains off
/-- A write of settable fields: RWL fields are ignored while locked (R577). -/
def State.writeSetting (s : State) (off v : Nat) : State :=
  let fs := (settingFields off).filter fun f => !(f.locked && s.peer.locked)
  s.settingPut off (mergeFields (s.settingGet off) 0xFFFFFFFF v fs)

/-- A 4-byte write of the module window. -/
def State.moduleWrite (s : State) (off v : Nat) : State :=
  if 0x2000 ≤ off ∧ off < 0x3000 then s.modPower fun p => p.write (off - 0x2000) v
  else if s.power.perst then s
  else if off = 0x101C then s.modPers fun p => { p with taintSlices := clear1 p.taintSlices v }
  else if plainSetting off then s.writeSetting off v
  else s

/-- Anchors of a tenant after a write of one word; bits beyond the range stay 0 (R293). -/
def anchorsWith (old : List Nat) (count w v : Nat) : List Nat :=
  ((old.filter fun a => a / 32 != w) ++ ((List.range 32).filter fun (b : Nat) => bit v b).map fun (b : Nat) => 32 * w + b).filter
    fun a => decide (a < count)
/-- A 4-byte write of a tenant window. -/
def State.tenantWrite (s : State) (n off v : Nat) : State :=
  match s.record n with
  | none => s
  | some r =>
    if off = 0x1004 then s.modTenant n fun t => { t with page := bits v 1 0 }
    else if 0x1400 ≤ off ∧ off < 0x1800 then
      s.modTenant n fun t => { t with anchors := anchorsWith t.anchors r.counterCount ((off - 0x1400) / 4) v }
    else s

/-- Put a 32-bit half of a 64-bit register. -/
def putHalf (old : Qword) (k v : Nat) : Qword :=
  BitVec.ofNat 64 (if k = 0 then wordOf old.toNat 1 * 2 ^ 32 + v else v * 2 ^ 32 + wordOf old.toNat 0)
/-- Write one word of an MSI-X table entry. -/
def MsixEntry.put (e : MsixEntry) (k v : Nat) : MsixEntry :=
  if k = 0 then { e with addr := putHalf e.addr 0 v }
  else if k = 1 then { e with addr := putHalf e.addr 1 v }
  else if k = 2 then { e with data := BitVec.ofNat 32 v }
  else { e with masked := bit v 0 }
/-- A 4-byte write of BAR0 of a function. `CC` is stored where neither `EN` nor `SHN` acts; a vector unmasked with its
pending bit set sends its message. -/
def State.ctrlWrite (s : State) (fn off v : Nat) : State :=
  if off = 0x0C then s.modCtrl fn fun k => { k with intMask := k.intMask ||| BitVec.ofNat 32 v }
  else if off = 0x10 then s.modCtrl fn fun k => { k with intMask := clear1 k.intMask v }
  else if off = 0x14 then
    if bit v 0 = (s.ctrl fn).cc.getLsbD 0 && (bits v 15 14 = 0 || bits v 15 14 = 3) then
      s.modCtrl fn fun k => { k with cc := ccWritten k.cc v }
    else s
  else if off = 0x24 then s.modCtrl fn fun k => { k with aqa := BitVec.ofNat 32 v &&& 0x0FFF0FFF#32 }
  else if off = 0x28 ∨ off = 0x2C then
    s.modCtrl fn fun k => { k with asq := putHalf k.asq ((off - 0x28) / 4) v &&& 0xFFFFFFFFFFFFF000#64 }
  else if off = 0x30 ∨ off = 0x34 then
    s.modCtrl fn fun k => { k with acq := putHalf k.acq ((off - 0x30) / 4) v &&& 0xFFFFFFFFFFFFF000#64 }
  else if 0x2000 ≤ off ∧ off < 0x2000 + 16 * 129 then
    let e := (off - 0x2000) / 16
    let s := s.modCtrl fn fun k => { k with msix := k.msix.modify e fun (x : MsixEntry) => x.put (off % 16 / 4) v }
    if off % 16 = 12 && !bit v 0 && (s.ctrl fn).msixPending.contains e then
      (s.modCtrl fn fun k => { k with msixPending := k.msixPending.filter (· != e) }).interrupt fn e
    else s
  else s

/-- A base address register pair after a write of one half: 64-bit memory, not prefetchable, `size` bytes. -/
def barPut (old : Qword) (size half v : Nat) : Qword :=
  BitVec.ofNat 64 ((putHalf old half v).toNat / size * size)
/-- One half of a base address register pair as it reads: bits [2:1] are 2, a 64-bit memory BAR, and bit 3 is 0, not
prefetchable (Table 05-2). -/
def barWord (b : Qword) (half : Nat) : Nat := wordOf b.toNat half + if half = 0 then 4 else 0

/-- Change a function's configuration space. -/
def State.modConfig (s : State) (fn : Nat) (f : FnConfig → FnConfig) : State :=
  s.modPcie fun p => { p with config := p.config.modify fn f }
/-- A write of configuration space, in the model's own numbering: 0x0 Device Control, with Enable Relaxed Ordering in bit 4,
`Max_Payload_Size` in [7:5], at most 512 bytes, and `Max_Read_Request_Size` in [14:12], at most 4,096 bytes; 0x4 the tag
enables; 0x8 ASPM, L1 or none; 0x10 `NumVFs` of PF0, ignored while VF Enable is 1; 0x20 the BARs of PF0 and 0x40 the VF BARs
of its SR-IOV capability (R147, R148, R151, R152)
(DESIGN CHOICE, log entry 24). -/
def State.configWrite (s : State) (fn off v : Nat) : State :=
  if off = 0x0 then
    s.modConfig fn fun k => { k with
      relaxed := bit v 4
      maxPayload := if bits v 7 5 ≤ 2 then bits v 7 5 else k.maxPayload
      maxRead := if bits v 14 12 ≤ 5 then bits v 14 12 else k.maxRead }
  else if off = 0x4 then s.modConfig fn fun k => { k with tenBitTag := bit v 0, fourteenBitTag := bit v 1 }
  else if fn ≠ 0 then s
  else if off = 0x8 then
    s.modConfig 0 fun k => { k with aspmL1 := if bits v 1 0 = 2 then true else if bits v 1 0 = 0 then false else k.aspmL1 }
  else if off = 0x10 then if s.pcie.vfEnable then s else s.modPcie fun p => { p with numVfs := v % 65536 }
  else if off = 0x20 ∨ off = 0x24 then s.modConfig 0 fun k => { k with bar0 := barPut k.bar0 16384 ((off - 0x20) / 4) v }
  else if off = 0x28 ∨ off = 0x2C then s.modConfig 0 fun k => { k with bar2 := barPut k.bar2 4194304 ((off - 0x28) / 4) v }
  else if off = 0x40 ∨ off = 0x44 then
    s.modPcie fun p => { p with vfBar0 := barPut p.vfBar0 16384 ((off - 0x40) / 4) v }
  else if off = 0x48 ∨ off = 0x4C then
    s.modPcie fun p => { p with vfBar2 := barPut p.vfBar2 65536 ((off - 0x48) / 4) v }
  else s

/-- The capabilities of Table 05-1; no other is present. -/
inductive Capability where
  | pciExpress | powerManagement | msix | aer | ari | sriov | vendorSpecific
  deriving DecidableEq, Repr, Inhabited
/-- The capabilities of a function: SR-IOV and the vendor-specific one, which holds `PERS_DEADLINE`, are PF0's (R123,
R151). -/
def capabilities (fn : Nat) : List Capability :=
  [.pciExpress, .powerManagement, .msix, .aer, .ari] ++ if fn = 0 then [.sriov, .vendorSpecific] else []
/-- The place of a capability in the mask that the model's configuration space shows. -/
def Capability.place : Capability → Nat
  | .pciExpress => 0
  | .powerManagement => 1
  | .msix => 2
  | .aer => 3
  | .ari => 4
  | .sriov => 5
  | .vendorSpecific => 6

/-- A 4-byte read of configuration space, numbered as `State.configWrite` numbers it; none while it does not answer
(Table 02-2). From 0x60 on: the class code (R150), the largest payload, the link's rates, widths and ASPM support, the
capabilities (Table 05-1); and what PF0's SR-IOV capability reports (R151). Every other BAR reads zero (R152)
(DESIGN CHOICE, log entry 24). -/
def State.configReg (s : State) (fn off : Nat) : Option Nat :=
  let k := s.pcie.config.getD fn {}
  let vfs := s.pers.active.tenants.length
  if s.power.stage ≠ .on || s.power.perst || !s.pers.inPlace || !s.fnLive fn then none
  else if off = 0x0 then some (2 ^ 4 * b2n k.relaxed + 2 ^ 5 * k.maxPayload + 2 ^ 12 * k.maxRead)
  else if off = 0x4 then some (b2n k.tenBitTag + 2 * b2n k.fourteenBitTag)
  else if off = 0x60 then some 0x010802
  else if off = 0x64 then some 2
  else if off = 0x68 then some (0x3F + 2 ^ 8 * 0x1F + 2 ^ 16 * 2)
  else if off = 0x6C then some ((capabilities fn).map fun c => 2 ^ c.place).sum
  else if fn ≠ 0 then some 0
  else if off = 0x8 then some (2 * b2n k.aspmL1)
  else if off = 0x10 then some s.pcie.numVfs
  else if off = 0x20 ∨ off = 0x24 then some (barWord k.bar0 ((off - 0x20) / 4))
  else if off = 0x28 ∨ off = 0x2C then some (barWord k.bar2 ((off - 0x28) / 4))
  else if off = 0x40 ∨ off = 0x44 then some (barWord s.pcie.vfBar0 ((off - 0x40) / 4))
  else if off = 0x48 ∨ off = 0x4C then some (barWord s.pcie.vfBar2 ((off - 0x48) / 4))
  else if off = 0x70 ∨ off = 0x74 then some vfs
  else if off = 0x78 ∨ off = 0x7C ∨ off = 0x80 then some 1
  else if off = 0x84 then some (b2n s.pcie.vfEnable)
  else some 0

/-- One 4-byte write in a window. -/
def State.writeWord (s : State) (w : Window) (off v : Nat) : State :=
  match w with
  | .module => s.moduleWrite off v
  | .tenant n => if s.vfLive n && !s.power.perst then s.tenantWrite n off v else s
  | .controller fn => if s.fnLive fn && !s.power.perst then s.ctrlWrite fn off v else s
  | .config fn => if s.fnLive fn && !s.power.perst then s.configWrite fn off v else s

/-- REGISTER_WRITE: a write of a register that has no row of its own. An access to BAR0 or BAR2 is 4 or 8 bytes wide and
naturally aligned, or is ignored (R154); 8 bytes act as two writes, the lower half first (R620)
(DESIGN CHOICE, log entry 23; DEDUCED, log entry 25). -/
def execRegisterWrite (window : Window) (offset bytes : Nat) (value : Qword) (s : State) : Out :=
  let config := match window with
    | .config _ => true
    | _ => false
  if s.power.stage ≠ .on then .next s
  else if config then
    if (bytes = 1 ∨ bytes = 2 ∨ bytes = 4) ∧ offset % bytes = 0 then .next (s.writeWord window offset (value.toNat % 256 ^ bytes))
    else .next s
  else if bytes = 4 ∧ offset % 4 = 0 then .next (s.writeWord window offset (wordOf value.toNat 0))
  else if bytes = 8 ∧ offset % 8 = 0 then
    .next ((s.writeWord window offset (wordOf value.toNat 0)).writeWord window (offset + 4) (wordOf value.toNat 1))
  else .next s

end Sys2Proof.Machine
end

