-- ==== Sys2Proof/Machine/Monitor.lean ====
section
/-!
DEFINITION. Monitor.lean: the service monitor on the debug UART (R602 to R607). A row of this file is one line that the
UART received; what the monitor answers stands in `svc.monitor.reply`. The spec gives each reply's first word and what it
returns; the layout of the rest is the model's (log entry 44).
-/

namespace Sys2Proof.Machine

/-! ### Replies -/

/-- One hexadecimal digit. -/
def hexDigit (n : Nat) : Char := Char.ofNat (if n < 10 then 48 + n else 87 + n)
/-- The low `k` hexadecimal digits of `v`, the most significant first. -/
def hexChars : Nat → Nat → List Char
  | 0, _ => []
  | k + 1, v => hexDigit (v / 16 ^ k % 16) :: hexChars k v
/-- `k` hexadecimal digits after a space. -/
def hexWord (k v : Nat) : String := String.ofList (' ' :: hexChars k v)
/-- Bytes in hexadecimal, first byte first, after a space. -/
def hexBytes (l : List Byte) : String := String.ofList (' ' :: l.flatMap fun (b : Byte) => hexChars 2 b.toNat)

/-- The codes of an `ERR` reply (R602). -/
inductive MonErr where
  | unknown | badArgument | locked | lockout | busy | refused
  deriving DecidableEq, Repr, Inhabited

/-- The text of an `ERR` reply. -/
def MonErr.text : MonErr → String
  | .unknown => "ERR 1"
  | .badArgument => "ERR 2"
  | .locked => "ERR 3"
  | .lockout => "ERR 4"
  | .busy => "ERR 5"
  | .refused => "ERR 6"

/-- A change of the monitor. -/
def State.modMonitor (s : State) (f : Monitor → Monitor) : State := s.modSvc fun c => { c with monitor := f c.monitor }
/-- The monitor replies. -/
def State.reply (s : State) (text : String) : State := s.modMonitor fun m => { m with reply := text }
/-- The monitor replies `OK` and what it returns. -/
def State.ok (s : State) (text : String := "") : State := s.reply ("OK" ++ text)
/-- The monitor replies `ERR` and a code. -/
def State.err (s : State) (e : MonErr) : State := s.reply e.text

/-- A line has arrived: nothing answers while the service complex has no power or no firmware runs, but the monitor works
while `PERST_N` holds the module in reset (R63, Table 02-14); each command restarts the ten minutes of R604, after which the monitor is
locked. -/
def State.line (s : State) (f : State → State) : Out :=
  if s.power.stage = .on && (s.svc.running || (s.power.railsUp && s.power.perst)) then
    .next (f (s.modMonitor fun m => { m with
      lastAt := s.now, unlocked := m.unlocked && decide (s.now < m.lastAt + 600000000) }))
  else .next s
/-- A command that Table 19-7 marks as needing the monitor unlocked
(DEDUCED, log entry 45). -/
def State.unlockedLine (s : State) (f : State → State) : Out :=
  s.line fun s => if s.svc.monitor.unlocked then f s else s.err .locked

/-! ### Reading commands (Table 19-7) -/

/-- `id`: serial number, variant, stepping, hardware issue, running slot, revision
(DESIGN CHOICE, log entry 44). -/
def State.idText (s : State) : String :=
  hexBytes (bytesOfLe 16 s.serial.toNat) ++ hexWord 2 (b2n s.big) ++ hexWord 2 0xB1 ++ hexWord 2 0x43
    ++ hexWord 1 s.svc.runSlot ++ hexBytes (bytesOfLe 8 s.svc.revision.toNat)
/-- MONITOR_ID. -/
def execMonitorId (s : State) : Out := s.line fun s => s.ok s.idText

/-- `status`: `SVC_STATE`, `THERM`, `PWR_INPUT`, `HOLDUP`, the four port states, `CSTS` of PF0
(DESIGN CHOICE, log entry 44). -/
def State.statusText (s : State) : String :=
  hexWord 8 s.svcState ++ hexWord 8 s.therm ++ hexWord 8 s.pwrInput ++ hexWord 8 s.holdup
    ++ hexWord 8 (s.portState 0) ++ hexWord 8 (s.portState 1) ++ hexWord 8 (s.portState 2) ++ hexWord 8 (s.portState 3)
    ++ hexWord 8 (s.csts 0)
/-- MONITOR_STATUS. -/
def execMonitorStatus (s : State) : Out := s.line fun s => s.ok s.statusText

/-- The entries of a vendor page as PF0 reads them, in the page's order, without the page header. -/
def State.pageEntries (s : State) (page : Nat) : List (List Byte) :=
  if page = 0xC3 then (s.deferredSeenBy 0).map Deferred.bytes
  else (s.logs.page page).entries.map fun (e : LogEntry) => e.bytes (entryBytes page)
/-- MONITOR_LOG: the newest `n` entries of a vendor log page, 16 where no number is given
(DESIGN CHOICE, log entry 44). -/
def execMonitorLog (page : Nat) (count : Option Nat) (s : State) : Out :=
  s.line fun s =>
    if page < 0xC0 ∨ 0xC8 < page then s.err .badArgument
    else s.ok (((s.pageEntries page).take (count.getD 16)).foldl (fun (t : String) (e : List Byte) => t ++ hexBytes e) "")

/-- MONITOR_REG: one 4-byte read of the module window; a read has no side effect (R14)
(DESIGN CHOICE, log entry 44). -/
def execMonitorReg (offset : Nat) (s : State) : Out :=
  s.line fun s =>
    if offset % 4 ≠ 0 ∨ 0x80000 ≤ offset then s.err .badArgument else s.ok (hexWord 8 (s.moduleReg offset))

/-- MONITOR_KEYS: `KEY_ID` of the two vendor keys and the four owner key slots; an empty slot shows 0
(DESIGN CHOICE, log entry 44). -/
def execMonitorKeys (s : State) : Out :=
  s.line fun s => s.ok (hexWord 16 (Config.vendorKeyId 0).toNat ++ hexWord 16 (Config.vendorKeyId 1).toNat
    ++ (s.pers.ownerKeys.foldl (fun (t : String) (k : Option OwnerKey) =>
        t ++ hexWord 16 ((k.map fun (x : OwnerKey) => x.keyId.toNat).getD 0)) ""))

/-- MONITOR_BAUD. -/
def execMonitorBaud (rate : Nat) (s : State) : Out :=
  s.line fun s =>
    if [115200, 230400, 460800, 921600, 1500000, 3000000].contains rate then s.ok.modMonitor fun m => { m with baud := rate }
    else s.err .badArgument

/-- MONITOR_UNKNOWN_COMMAND: a line that names no command; a line outside 1 to 512 characters is a bad argument. -/
def execMonitorUnknownCommand (length : Nat) (s : State) : Out :=
  s.line fun s => if length < 1 ∨ 512 < length then s.err .badArgument else s.err .unknown

/-! ### Challenge, unlock, lock (R604 to R606) -/

/-- MONITOR_CHALLENGE: a fresh nonce, which the operand draws. -/
def execMonitorChallenge (nonce : BitVec 256) (s : State) : Out :=
  s.line fun s =>
    if s.lockedOut then s.err .lockout
    else (s.modMonitor fun m => { m with nonce := some nonce, nonceAt := s.now }).ok (hexWord 64 nonce.toNat)

/-- The message a response answers: "VXMON", the nonce, the serial number. -/
def State.challengeMessage (s : State) (nonce : BitVec 256) : List Byte :=
  [0x56, 0x58, 0x4D, 0x4F, 0x4E] ++ bytesOfBe 32 nonce.toNat ++ bytesOfLe 16 s.serial.toNat
/-- The nonce of the latest `challenge`, for 60 s. -/
def State.liveNonce (s : State) : Option (BitVec 256) :=
  if s.now ≤ s.svc.monitor.nonceAt + 60000000 then s.svc.monitor.nonce else none

/-- Seconds of the lockout that the `n`-th failure in a row starts; 0 below three
(DEDUCED, log entry 45). -/
def lockoutSeconds (n : Nat) : Nat := if n < 3 then 0 else min 3600 (60 * 2 ^ min (n - 3) 6)
/-- A correct response or a physical unlock. -/
def State.unlockDone (s : State) : State := (s.modMonitor fun m => { m with unlocked := true, fails := 0 }).ok
/-- A failed attempt: it is counted, and from the third in a row it starts a lockout
(DEDUCED, log entry 45). -/
def State.unlockFailed (s : State) : State :=
  let n := s.svc.monitor.fails + 1
  let t := lockoutSeconds n
  let s := s.modMonitor fun m => { m with fails := n }
  let s :=
    if t = 0 then s
    else
      (s.modMonitor fun m => { m with lockoutUntil := some (s.now + 1000000 * t), lockoutS := t }).health
        { event := 0x13, detail := bytesOfLe 4 t }
  s.err .refused
/-- One `unlock` attempt with a response: it uses the nonce up
(DEDUCED, log entry 45). -/
def State.attempt (s : State) (good : List Byte → Bool) : State :=
  if s.lockedOut then s.err .lockout
  else
    let answered := match s.liveNonce with
      | some n => good (s.challengeMessage n)
      | none => false
    let s := s.modMonitor fun m => { m with nonce := none }
    if answered then s.unlockDone else s.unlockFailed

/-- The key in an owner slot. -/
def State.ownerKey (s : State) (slot : Nat) : Option OwnerKey := (s.pers.ownerKeys.getD slot none)
/-- UNLOCK_OWNER: HMAC-SHA-384 of the message under the key of a slot; an empty slot answers no challenge. -/
def execUnlockOwner (slot : Nat) (tag : BitVec 384) (s : State) : Out :=
  s.line fun s =>
    if 3 < slot then s.err .badArgument
    else s.attempt fun msg => match s.ownerKey slot with
      | some k => decide (hmacSha384 (bytesOfBe 48 k.key.toNat) msg = bytesOfBe 48 tag.toNat)
      | none => false
/-- UNLOCK_VENDOR: an ECDSA P-384 signature over the message under either vendor key. -/
def execUnlockVendor (r v : BitVec 384) (s : State) : Out :=
  s.line fun s => s.attempt fun msg => [0, 1].any fun (k : Nat) => ecdsaVerify (Config.vendorKey k) msg r.toNat v.toNat
/-- UNLOCK_PHYSICAL. -/
def execUnlockPhysical (s : State) : Out :=
  s.line fun s =>
    if s.lockedOut then s.err .lockout
    else if s.pers.ownerKeys.all (·.isNone) && s.svc.bootSel then s.unlockDone
    else s.err .refused
/-- MONITOR_LOCK. -/
def execMonitorLock (s : State) : Out := s.line fun s => s.ok.modMonitor fun m => { m with unlocked := false }
/-- MONITOR_IDLE_TIMEOUT: ten minutes have passed without a command. -/
def execMonitorIdleTimeout (s : State) : Out :=
  if s.now < s.svc.monitor.lastAt + 600000000 then .next s else .next (s.modMonitor fun m => { m with unlocked := false })
/-- NONCE_EXPIRY, 60 s after the nonce was given (R604). -/
def execNonceExpiry (s : State) : Out :=
  if s.now ≤ s.svc.monitor.nonceAt + 60000000 then .next s else .next (s.modMonitor fun m => { m with nonce := none })
/-- LOCKOUT_END, once the lockout's time has passed: `challenge` and `unlock` are accepted again (R605). -/
def execLockoutEnd (s : State) : Out := if s.lockedOut then .next s else .next (s.modMonitor fun m => { m with lockoutUntil := none })

/-! ### Keys, settings, reset (R603, R607) -/

/-- The owner slot whose key checked the staged image's HMAC: the first that holds the `KEY_ID` of its trailer
(DEDUCED, log entry 95). -/
def State.stageKeySlot (s : State) : Option Nat :=
  let rd := s.stagedReader
  if readLe rd (hTrailer rd).off 1 != 2 then none
  else s.pers.ownerKeys.findIdx? fun (k : Option OwnerKey) =>
    (k.map fun (x : OwnerKey) => x.keyId.toNat) == some (readLe rd ((hTrailer rd).off + 8) 8)
/-- Put a key into an owner slot, or empty it: `KEY_STATE` follows, KEY_CHANGED is logged, and an image checked under the slot is
discarded, at once or when it is no longer in use
(DEDUCED, log entries 45, 95). -/
def State.changeKey (s : State) (slot : Nat) (key : Option OwnerKey) (keyId : Nat) : State :=
  let mine := s.stageKeySlot == some slot
  let s := s.modPers fun p => { p with ownerKeys := p.ownerKeys.set slot key }
  let s :=
    if mine && s.pers.stage == .valid then s.discardStage .empty
    else if mine && s.pers.stage == .inUse then s.modPers fun p => { p with discardAfter := true }
    else s
  (s.health { event := 0x14, detail := bytesOfLe 1 slot ++ bytesOfLe 8 keyId }).ok
/-- KEY_INSTALL. -/
def execKeyInstall (slot : Nat) (keyId : Qword) (key : BitVec 384) (s : State) : Out :=
  s.unlockedLine fun s =>
    if 3 < slot ∨ keyId = 0 then s.err .badArgument
    else s.changeKey slot (some { keyId := keyId, key := key }) keyId.toNat
/-- KEY_REVOKE: the entry names the `KEY_ID` that the slot held. -/
def execKeyRevoke (slot : Nat) (s : State) : Out :=
  s.unlockedLine fun s =>
    if 3 < slot then s.err .badArgument
    else s.changeKey slot none (((s.ownerKey slot).map fun (k : OwnerKey) => k.keyId.toNat).getD 0)
/-- MONITOR_SETTINGS_CLEAR: as `SETTINGS_CTRL.CLEAR`; busy where that write would be ignored. -/
def execMonitorSettingsClear (s : State) : Out :=
  s.unlockedLine fun s => if s.settingsMayWrite then (s.settingsStart .clear).ok else s.err .busy
/-- MONITOR_RESET: as MODULE_RESET, with a reply in place of a completion. -/
def execMonitorReset (s : State) : Out := s.unlockedLine fun s => s.ok.requestReset

end Sys2Proof.Machine
end

