-- ==== Sys2Proof/Machine/Jtag.lean ====
section
/-!
DEFINITION. Jtag.lean: the JTAG port (R641). No instruction of it reaches memory, registers, keys or the boot NOR: each
row changes `pins` alone. A row is one pass through the data register of its instruction; the bits that leave on `TDO`
stand in `pins.jtagOut`, the first bit out first (IEEE Std 1149.1, which R641 names).
-/

namespace Sys2Proof.Machine

/-- A change of the pins. -/
def State.modPins (s : State) (f : Pins → Pins) : State := { s with pins := f s.pins }

/-- What leaves a data register that held `cells` while `tdi` enters: its cells first, then what entered
(DESIGN CHOICE, log entry 46). -/
def shiftOut (cells tdi : List Bool) : List Bool := (cells ++ tdi).take tdi.length
/-- What a data register holds afterwards
(DESIGN CHOICE, log entry 46). -/
def shiftKept (cells tdi : List Bool) : List Bool := (cells ++ tdi).drop tdi.length

/-- The bypass register: one bit, which captures 0
(DESIGN CHOICE, log entry 46). -/
def Pins.bypass (p : Pins) (tdi : List Bool) : Pins := { p with jtagOut := shiftOut [false] tdi, jtagExtest := false, pinsDriven := [] }
/-- JTAG_BYPASS
(DESIGN CHOICE, log entry 46). -/
def execJtagBypass (tdi : List Bool) (s : State) : Out := .next (s.modPins fun p => p.bypass tdi)

/-- The identifier's bits, least significant first. -/
def idBits : List Bool := (List.range 32).map fun (k : Nat) => Config.jtagId.getLsbD k
/-- JTAG_IDCODE: `count` bits are shifted out; what enters behind them is 0. -/
def execJtagIdcode (count : Nat) (s : State) : Out :=
  .next (s.modPins fun p =>
    { p with jtagOut := shiftOut idBits (List.replicate count false), jtagExtest := false, pinsDriven := [] })

/-- JTAG_SAMPLE_PRELOAD: the boundary cells capture the pins, which shift out as the cells are loaded. -/
def execJtagSamplePreload (pins tdi : List Bool) (s : State) : Out :=
  .next (s.modPins fun p =>
    { p with jtagOut := shiftOut pins tdi, boundary := shiftKept pins tdi, jtagExtest := false, pinsDriven := [] })

/-- JTAG_EXTEST: with `BOOT_SEL` 1 at AON release and `PERST_N` asserted, the cells shift and then drive the pins; at any
other time it acts as BYPASS. -/
def execJtagExtest (tdi : List Bool) (s : State) : Out :=
  if s.svc.bootSel && s.power.perst then
    .next (s.modPins fun p =>
      let kept := shiftKept p.boundary tdi
      { p with jtagOut := shiftOut p.boundary tdi, boundary := kept, jtagExtest := true, pinsDriven := kept })
  else .next (s.modPins fun p => p.bypass tdi)

end Sys2Proof.Machine
end

