-- ==== Sys2Proof/Machine/Dispatch.lean ====
section
/-! DEFINITION. Dispatch.lean: one arm for each command of the table. -/

namespace Sys2Proof.Machine

def exec (i : Instr) (s : State) : Host.Outcome State Fault Refusal :=
  match i with
  | .powerOn => Sys2Proof.Machine.execPowerOn s
  | .aonRelease slotId slotOpen bootSel plnLow sfdpOk => Sys2Proof.Machine.execAonRelease slotId slotOpen bootSel plnLow sfdpOk s
  | .railsUp => Sys2Proof.Machine.execRailsUp s
  | .firmwareBoot badChunks => Sys2Proof.Machine.execFirmwareBoot badChunks s
  | .dramInitDone => Sys2Proof.Machine.execDramInitDone s
  | .mapReplay => Sys2Proof.Machine.execMapReplay s
  | .basePersonalityLoad badFrames => Sys2Proof.Machine.execBasePersonalityLoad badFrames s
  | .linkUp width rate => Sys2Proof.Machine.execLinkUp width rate s
  | .cstsReady fn => Sys2Proof.Machine.execCstsReady fn s
  | .holdupCharged => Sys2Proof.Machine.execHoldupCharged s
  | .holdupChargeTimeout => Sys2Proof.Machine.execHoldupChargeTimeout s
  | .holdupMeasure tenthsMf => Sys2Proof.Machine.execHoldupMeasure tenthsMf s
  | .inputUndervoltage => Sys2Proof.Machine.execInputUndervoltage s
  | .plnFall => Sys2Proof.Machine.execPlnFall s
  | .pwrdisAssert => Sys2Proof.Machine.execPwrdisAssert s
  | .pwrdisDeassert => Sys2Proof.Machine.execPwrdisDeassert s
  | .p1Shed => Sys2Proof.Machine.execP1Shed s
  | .p2Flush failed => Sys2Proof.Machine.execP2Flush failed s
  | .p3Metadata => Sys2Proof.Machine.execP3Metadata s
  | .p4RailsDown vin10mv => Sys2Proof.Machine.execP4RailsDown vin10mv s
  | .inputOvervoltage => Sys2Proof.Machine.execInputOvervoltage s
  | .inputOvercurrent => Sys2Proof.Machine.execInputOvercurrent s
  | .railTrip r => Sys2Proof.Machine.execRailTrip r s
  | .nandRailTrip group => Sys2Proof.Machine.execNandRailTrip group s
  | .cageEfuseTrip cage => Sys2Proof.Machine.execCageEfuseTrip cage s
  | .cablePresenceChange cage present supported => Sys2Proof.Machine.execCablePresenceChange cage present supported s
  | .sidebandPinFault pin => Sys2Proof.Machine.execSidebandPinFault pin s
  | .refclkLoss => Sys2Proof.Machine.execRefclkLoss s
  | .powerSample volts pin100mw => Sys2Proof.Machine.execPowerSample volts pin100mw s
  | .powerCeilingLower => Sys2Proof.Machine.execPowerCeilingLower s
  | .powerCeilingRaise => Sys2Proof.Machine.execPowerCeilingRaise s
  | .coreClockStep => Sys2Proof.Machine.execCoreClockStep s
  | .thermalLevelEnter tjMax coolantIn flowOk => Sys2Proof.Machine.execThermalLevelEnter tjMax coolantIn flowOk s
  | .thermalLevelLeave tjMax coolantIn flowOk => Sys2Proof.Machine.execThermalLevelLeave tjMax coolantIn flowOk s
  | .thermalCeilingStep => Sys2Proof.Machine.execThermalCeilingStep s
  | .flowLossTimeout => Sys2Proof.Machine.execFlowLossTimeout s
  | .dramRecalibration stack => Sys2Proof.Machine.execDramRecalibration stack s
  | .perstAssert => Sys2Proof.Machine.execPerstAssert s
  | .perstDeassert => Sys2Proof.Machine.execPerstDeassert s
  | .hotReset => Sys2Proof.Machine.execHotReset s
  | .controllerEnable fn cc => Sys2Proof.Machine.execControllerEnable fn cc s
  | .controllerDisable fn cc => Sys2Proof.Machine.execControllerDisable fn cc s
  | .shutdownNotification fn cc => Sys2Proof.Machine.execShutdownNotification fn cc s
  | .functionLevelReset fn => Sys2Proof.Machine.execFunctionLevelReset fn s
  | .vfEnableWrite enable => Sys2Proof.Machine.execVfEnableWrite enable s
  | .sqTailDoorbell fn qid value => Sys2Proof.Machine.execSqTailDoorbell fn qid value s
  | .cqHeadDoorbell fn qid value => Sys2Proof.Machine.execCqHeadDoorbell fn qid value s
  | .commandFetch => Sys2Proof.Machine.execCommandFetch s
  | .commandTimeout ref => Sys2Proof.Machine.execCommandTimeout ref s
  | .createIoSq c => Sys2Proof.Machine.execCreateIoSq c s
  | .deleteIoSq c => Sys2Proof.Machine.execDeleteIoSq c s
  | .createIoCq c => Sys2Proof.Machine.execCreateIoCq c s
  | .deleteIoCq c => Sys2Proof.Machine.execDeleteIoCq c s
  | .getLogPage c => Sys2Proof.Machine.execGetLogPage c s
  | .identify c => Sys2Proof.Machine.execIdentify c s
  | .abort c => Sys2Proof.Machine.execAbort c s
  | .setFeatures c => Sys2Proof.Machine.execSetFeatures c s
  | .setArbitration c => Sys2Proof.Machine.execSetArbitration c s
  | .setCommandTimeouts c => Sys2Proof.Machine.execSetCommandTimeouts c s
  | .setDeadlineFloor c => Sys2Proof.Machine.execSetDeadlineFloor c s
  | .getFeatures c => Sys2Proof.Machine.execGetFeatures c s
  | .asynchronousEventRequest c => Sys2Proof.Machine.execAsynchronousEventRequest c s
  | .namespaceManagement c => Sys2Proof.Machine.execNamespaceManagement c s
  | .namespaceAttachment c => Sys2Proof.Machine.execNamespaceAttachment c s
  | .formatNvm c => Sys2Proof.Machine.execFormatNvm c s
  | .sanitize c => Sys2Proof.Machine.execSanitize c s
  | .firmwareImageDownload c => Sys2Proof.Machine.execFirmwareImageDownload c s
  | .firmwareCommit c => Sys2Proof.Machine.execFirmwareCommit c s
  | .deviceSelfTest c => Sys2Proof.Machine.execDeviceSelfTest c s
  | .selfTestComplete failedSegment => Sys2Proof.Machine.execSelfTestComplete failedSegment s
  | .flush c => Sys2Proof.Machine.execFlush c s
  | .write c => Sys2Proof.Machine.execWrite c s
  | .read c => Sys2Proof.Machine.execRead c s
  | .datasetManagement c => Sys2Proof.Machine.execDatasetManagement c s
  | .miReadDataStructure dtype portId ctrlId => Sys2Proof.Machine.execMiReadDataStructure dtype portId ctrlId s
  | .miSubsystemHealthPoll clear => Sys2Proof.Machine.execMiSubsystemHealthPoll clear s
  | .miControllerHealthPoll first max clear => Sys2Proof.Machine.execMiControllerHealthPoll first max clear s
  | .miConfigurationGet config port => Sys2Proof.Machine.execMiConfigurationGet config port s
  | .miConfigurationSet config port value => Sys2Proof.Machine.execMiConfigurationSet config port value s
  | .miVpdRead offset length => Sys2Proof.Machine.execMiVpdRead offset length s
  | .miTunneledAdmin c => Sys2Proof.Machine.execMiTunneledAdmin c s
  | .loadPersonality c => Sys2Proof.Machine.execLoadPersonality c s
  | .activateOwner c => Sys2Proof.Machine.execActivateOwner c s
  | .commitBase c => Sys2Proof.Machine.execCommitBase c s
  | .discard c => Sys2Proof.Machine.execDiscard c s
  | .exchangeRegion c => Sys2Proof.Machine.execExchangeRegion c s
  | .exchangeDrainEnd => Sys2Proof.Machine.execExchangeDrainEnd s
  | .exchangeDrainTimeout => Sys2Proof.Machine.execExchangeDrainTimeout s
  | .configWriteDone badFrames => Sys2Proof.Machine.execConfigWriteDone badFrames s
  | .personalityStatus c => Sys2Proof.Machine.execPersonalityStatus c s
  | .persDeadlineWrite value => Sys2Proof.Machine.execPersDeadlineWrite value s
  | .ownerDeadlineExpiry => Sys2Proof.Machine.execOwnerDeadlineExpiry s
  | .shellTimerExpiry slice timer taken => Sys2Proof.Machine.execShellTimerExpiry slice timer taken s
  | .configScrubPass upsets => Sys2Proof.Machine.execConfigScrubPass upsets s
  | .retire c lost => Sys2Proof.Machine.execRetire c lost s
  | .moduleReset c => Sys2Proof.Machine.execModuleReset c s
  | .moduleResetStart => Sys2Proof.Machine.execModuleResetStart s
  | .admitModel c => Sys2Proof.Machine.execAdmitModel c s
  | .release c => Sys2Proof.Machine.execRelease c s
  | .invoke c => Sys2Proof.Machine.execInvoke c s
  | .search c => Sys2Proof.Machine.execSearch c s
  | .extract c => Sys2Proof.Machine.execExtract c s
  | .service c => Sys2Proof.Machine.execService c s
  | .alloc c => Sys2Proof.Machine.execAlloc c s
  | .free c => Sys2Proof.Machine.execFree c s
  | .counterRead c => Sys2Proof.Machine.execCounterRead c s
  | .counterBump c => Sys2Proof.Machine.execCounterBump c s
  | .counterWaitGe c => Sys2Proof.Machine.execCounterWaitGe c s
  | .counterWaitSatisfied ref => Sys2Proof.Machine.execCounterWaitSatisfied ref s
  | .runBegin c => Sys2Proof.Machine.execRunBegin c s
  | .runEnd c => Sys2Proof.Machine.execRunEnd c s
  | .publishBegin c => Sys2Proof.Machine.execPublishBegin c s
  | .publishData c => Sys2Proof.Machine.execPublishData c s
  | .publishVerify c => Sys2Proof.Machine.execPublishVerify c s
  | .publishCommit c => Sys2Proof.Machine.execPublishCommit c s
  | .publishAbandon c => Sys2Proof.Machine.execPublishAbandon c s
  | .mediaWrite c => Sys2Proof.Machine.execMediaWrite c s
  | .mediaRead c => Sys2Proof.Machine.execMediaRead c s
  | .mediaErase c => Sys2Proof.Machine.execMediaErase c s
  | .invocationAssign tenant slot => Sys2Proof.Machine.execInvocationAssign tenant slot s
  | .invocationDrained spindle => Sys2Proof.Machine.execInvocationDrained spindle s
  | .invocationPersisted spindle => Sys2Proof.Machine.execInvocationPersisted spindle s
  | .spindleIssueWord spindle => Sys2Proof.Machine.execSpindleIssueWord spindle s
  | .slotStallReleased spindle => Sys2Proof.Machine.execSlotStallReleased spindle s
  | .controlWaitPassed spindle => Sys2Proof.Machine.execControlWaitPassed spindle s
  | .endOp spindle => Sys2Proof.Machine.execEndOp spindle s
  | .loop spindle => Sys2Proof.Machine.execLoop spindle s
  | .endloop spindle => Sys2Proof.Machine.execEndloop spindle s
  | .call spindle => Sys2Proof.Machine.execCall spindle s
  | .ret spindle => Sys2Proof.Machine.execRet spindle s
  | .wait spindle => Sys2Proof.Machine.execWait spindle s
  | .bump spindle => Sys2Proof.Machine.execBump spindle s
  | .branchCtr spindle => Sys2Proof.Machine.execBranchCtr spindle s
  | .engineArbitrate queue => Sys2Proof.Machine.execEngineArbitrate queue s
  | .engineCommandEnd queue => Sys2Proof.Machine.execEngineCommandEnd queue s
  | .engineInternalFault queue => Sys2Proof.Machine.execEngineInternalFault queue s
  | .engineBist queue pass => Sys2Proof.Machine.execEngineBist queue pass s
  | .copy queue found => Sys2Proof.Machine.execCopy queue found s
  | .fillPattern queue => Sys2Proof.Machine.execFillPattern queue s
  | .gather queue found => Sys2Proof.Machine.execGather queue found s
  | .bringUpStart queue index => Sys2Proof.Machine.execBringUpStart queue index s
  | .mma row => Sys2Proof.Machine.execMma row s
  | .accZero queue => Sys2Proof.Machine.execAccZero queue s
  | .accLoad row => Sys2Proof.Machine.execAccLoad row s
  | .tile row => Sys2Proof.Machine.execTile row s
  | .tileReduce row => Sys2Proof.Machine.execTileReduce row s
  | .softmax row => Sys2Proof.Machine.execSoftmax row s
  | .stream row => Sys2Proof.Machine.execStream row s
  | .streamReduce row => Sys2Proof.Machine.execStreamReduce row s
  | .maskSet row => Sys2Proof.Machine.execMaskSet row s
  | .gougeRelease queue => Sys2Proof.Machine.execGougeRelease queue s
  | .listMerge row => Sys2Proof.Machine.execListMerge row s
  | .listEmit row => Sys2Proof.Machine.execListEmit row s
  | .loadCtx row => Sys2Proof.Machine.execLoadCtx row s
  | .scan queue run => Sys2Proof.Machine.execScan queue run s
  | .scanReadAhead queue index => Sys2Proof.Machine.execScanReadAhead queue index s
  | .emit row => Sys2Proof.Machine.execEmit row s
  | .ctxRelease queue => Sys2Proof.Machine.execCtxRelease queue s
  | .frameJpeg row => Sys2Proof.Machine.execFrameJpeg row s
  | .frameRaw row => Sys2Proof.Machine.execFrameRaw row s
  | .peerWrite queue => Sys2Proof.Machine.execPeerWrite queue s
  | .peerFrameSend row => Sys2Proof.Machine.execPeerFrameSend row s
  | .dataFrameReceived port frame => Sys2Proof.Machine.execDataFrameReceived port frame s
  | .ackReceived port frame => Sys2Proof.Machine.execAckReceived port frame s
  | .nakReceived port frame => Sys2Proof.Machine.execNakReceived port frame s
  | .ackTimer flow => Sys2Proof.Machine.execAckTimer flow s
  | .retransmitTimeout row seq => Sys2Proof.Machine.execRetransmitTimeout row seq s
  | .pfcPauseReceived port pause => Sys2Proof.Machine.execPfcPauseReceived port pause s
  | .helloTimer port => Sys2Proof.Machine.execHelloTimer port s
  | .helloReceived port frame => Sys2Proof.Machine.execHelloReceived port frame s
  | .portTrainingDone port linked => Sys2Proof.Machine.execPortTrainingDone port linked s
  | .portRetrainTimer port => Sys2Proof.Machine.execPortRetrainTimer port s
  | .portLinkLost port => Sys2Proof.Machine.execPortLinkLost port s
  | .peerRtoWrite value => Sys2Proof.Machine.execPeerRtoWrite value s
  | .channelTraining channel works => Sys2Proof.Machine.execChannelTraining channel works s
  | .pageReadDone channel die failing supervision => Sys2Proof.Machine.execPageReadDone channel die failing supervision s
  | .readRetryAttempt addr codeword decodes => Sys2Proof.Machine.execReadRetryAttempt addr codeword decodes s
  | .stripeRebuild addr codeword recovered => Sys2Proof.Machine.execStripeRebuild addr codeword recovered s
  | .programDone channel die failing => Sys2Proof.Machine.execProgramDone channel die failing s
  | .eraseDone channel die failing => Sys2Proof.Machine.execEraseDone channel die failing s
  | .operationResume channel die => Sys2Proof.Machine.execOperationResume channel die s
  | .busyTimeout channel die => Sys2Proof.Machine.execBusyTimeout channel die s
  | .targetResetDone channel die ready => Sys2Proof.Machine.execTargetResetDone channel die ready s
  | .programPromotion channel die => Sys2Proof.Machine.execProgramPromotion channel die s
  | .backgroundPromotion channel die => Sys2Proof.Machine.execBackgroundPromotion channel die s
  | .zoneCalibration channel die zone page set => Sys2Proof.Machine.execZoneCalibration channel die zone page set s
  | .mediaRrBudgetWrite value => Sys2Proof.Machine.execMediaRrBudgetWrite value s
  | .norCtrlWrite value => Sys2Proof.Machine.execNorCtrlWrite value s
  | .norOpDone verified => Sys2Proof.Machine.execNorOpDone verified s
  | .partialRowTimeout group => Sys2Proof.Machine.execPartialRowTimeout group s
  | .journalCheckpoint group => Sys2Proof.Machine.execJournalCheckpoint group s
  | .garbageCollection group => Sys2Proof.Machine.execGarbageCollection group s
  | .staticLevelling group => Sys2Proof.Machine.execStaticLevelling group s
  | .relocationSwitch superblock => Sys2Proof.Machine.execRelocationSwitch superblock s
  | .superblockErase superblock => Sys2Proof.Machine.execSuperblockErase superblock s
  | .patrolStep channel die worstBits result => Sys2Proof.Machine.execPatrolStep channel die worstBits result s
  | .cleanBlock tenant buffer block => Sys2Proof.Machine.execCleanBlock tenant buffer block s
  | .watermarkEvaluate tenant w => Sys2Proof.Machine.execWatermarkEvaluate tenant w s
  | .wmLatchClear tenant w => Sys2Proof.Machine.execWmLatchClear tenant w s
  | .wmMarkWrite tenant w value => Sys2Proof.Machine.execWmMarkWrite tenant w value s
  | .wmClrCount tenant w => Sys2Proof.Machine.execWmClrCount tenant w s
  | .tctrBump tenant value => Sys2Proof.Machine.execTctrBump tenant value s
  | .dramScrubStep stack errors => Sys2Proof.Machine.execDramScrubStep stack errors s
  | .sramScrubStep structure_ word badBits => Sys2Proof.Machine.execSramScrubStep structure_ word badBits s
  | .watchdogServe => Sys2Proof.Machine.execWatchdogServe s
  | .watchdogExpiry => Sys2Proof.Machine.execWatchdogExpiry s
  | .shieldRelease => Sys2Proof.Machine.execShieldRelease s
  | .shieldTimeout => Sys2Proof.Machine.execShieldTimeout s
  | .settingsSave => Sys2Proof.Machine.execSettingsSave s
  | .settingsClear => Sys2Proof.Machine.execSettingsClear s
  | .monitorId => Sys2Proof.Machine.execMonitorId s
  | .monitorStatus => Sys2Proof.Machine.execMonitorStatus s
  | .monitorLog page count => Sys2Proof.Machine.execMonitorLog page count s
  | .monitorReg offset => Sys2Proof.Machine.execMonitorReg offset s
  | .monitorKeys => Sys2Proof.Machine.execMonitorKeys s
  | .monitorBaud rate => Sys2Proof.Machine.execMonitorBaud rate s
  | .monitorChallenge nonce => Sys2Proof.Machine.execMonitorChallenge nonce s
  | .unlockOwner slot tag => Sys2Proof.Machine.execUnlockOwner slot tag s
  | .unlockVendor r v => Sys2Proof.Machine.execUnlockVendor r v s
  | .unlockPhysical => Sys2Proof.Machine.execUnlockPhysical s
  | .monitorLock => Sys2Proof.Machine.execMonitorLock s
  | .keyInstall slot keyId key => Sys2Proof.Machine.execKeyInstall slot keyId key s
  | .keyRevoke slot => Sys2Proof.Machine.execKeyRevoke slot s
  | .monitorSettingsClear => Sys2Proof.Machine.execMonitorSettingsClear s
  | .monitorReset => Sys2Proof.Machine.execMonitorReset s
  | .monitorIdleTimeout => Sys2Proof.Machine.execMonitorIdleTimeout s
  | .nonceExpiry => Sys2Proof.Machine.execNonceExpiry s
  | .lockoutEnd => Sys2Proof.Machine.execLockoutEnd s
  | .jtagBypass tdi => Sys2Proof.Machine.execJtagBypass tdi s
  | .jtagIdcode count => Sys2Proof.Machine.execJtagIdcode count s
  | .jtagSamplePreload pins tdi => Sys2Proof.Machine.execJtagSamplePreload pins tdi s
  | .jtagExtest tdi => Sys2Proof.Machine.execJtagExtest tdi s
  | .registerWrite window offset bytes value => Sys2Proof.Machine.execRegisterWrite window offset bytes value s
  | .plnGoesHigh => Sys2Proof.Machine.execPlnGoesHigh s
  | .temperatureThresholdCrossing kelvin => Sys2Proof.Machine.execTemperatureThresholdCrossing kelvin s
  | .monitorUnknownCommand length => Sys2Proof.Machine.execMonitorUnknownCommand length s

end Sys2Proof.Machine
end

