-- ==== Sys2Proof/Machine/Tick.lean ====
section
/-!
DEFINITION. Tick.lean: what one microsecond of the always-on clock changes when no command is given.
-/

namespace Sys2Proof.Machine

/-- The always-on timestamp counts microseconds while the always-on domain is powered (R42, R57); the watchdog
counts down while firmware runs (R594); frames that wait in a port's ingress buffer to be relayed leave (R561); a
REGION_SHARES exchange that every engine has applied completes (R133); commands of unknown opcodes that `ORD` kept waiting
end (R157); and the logic of the filter slices may act on its shell (R407)
(DESIGN CHOICE, log entries 3, 91). -/
def tick (s : State) : State :=
  if s.power.stage = .off then s
  else
    let s := if s.engines then s.drainIngress else s
    let s := if s.power.stage = .on then s.sharesEnd.sweepUnknown else s
    let s := if s.engines && s.pers.slices.any (!·.passAll) then (List.range 32).foldl State.logicActs s else s
    { s with
      now := s.now + 1
      svc := if s.svc.running then { s.svc with wdtLeftUs := s.svc.wdtLeftUs - 1 } else s.svc }

end Sys2Proof.Machine
end

