-- ==== Sys2Proof/Machine/Step.lean ====
section
/-!
DEFINITION. Step.lean: one step of the block: the command at the front of the queue acts on the state with the
rest of the queue; with no command waiting, one microsecond of the always-on clock passes.
-/

namespace Sys2Proof.Machine

/-- One step
(DESIGN CHOICE, log entries 2, 3). -/
def step (s : State) : Host.Outcome State Fault Refusal :=
  match s.pending with
  | [] => .next (tick s)
  | c :: rest => exec c { s with pending := rest }

/-- `s` with the command that a word spells put at the front of its queue
(DESIGN CHOICE, log entry 2). -/
def State.withFetchWord (s : State) (nbits w : Nat) : State :=
  match decodeTableWord nbits w with
  | some c => { s with pending := c :: s.pending }
  | none => s

end Sys2Proof.Machine
end

