-- ==== Sys2Proof/Safety.lean ====
section
/-!
DEFINITION. Safety.lean: what the claims about the module are stated in: the ranges that its mode and clock fields keep, what
P0 of a power-loss sequence leaves, and what a command leaves unchanged.
-/

namespace Sys2Proof.Safety

open Sys2Proof Sys2Proof.Machine

/-- What CORE runs at keeps to the defined values (Tables 02-5 and 02-9): clock steps 0 to 21 for the clock, the step it moves to and both ceilings, and a
thermal level 0 to 3. -/
def ClockLegal (p : Power) : Prop :=
  p.currentStep ≤ 21 ∧ p.powerCeiling ≤ 21 ∧ p.thermalCeiling ≤ 21 ∧ p.level ≤ 3 ∧ p.stepGoal ≤ 21

/-- The module's identity (R581): its variant and its serial number. -/
def SameModule (s t : State) : Prop := t.big = s.big ∧ t.serial = s.serial

/-- Nothing but the CLKPWR block differs. -/
def OnlyPower (s t : State) : Prop := { t with power := s.power } = s
/-- Nothing but the CLKPWR block and the service complex differs. -/
def OnlyPowerSvc (s t : State) : Prop := { t with power := s.power, svc := s.svc } = s
/-- Nothing but the service complex differs. -/
def OnlySvc (s t : State) : Prop := { t with svc := s.svc } = s
/-- Nothing but the pins differs. -/
def OnlyPins (s t : State) : Prop := { t with pins := s.pins } = s

/-- What P0 leaves (R38, R595): the cause is latched, the sequence has begun, and no boot NOR operation goes on. -/
def Detected (causes : BitVec 9) (s t : State) : Prop :=
  t.power.stage = .detected ∧ t.power.resetCause = s.power.resetCause ||| causes ∧ t.power.lossPending = true
    ∧ t.svc = { s.svc with nor := { s.svc.nor with queue := [], busy := false } } ∧ OnlyPowerSvc s t

/-! ### Commands and completions -/

/-- No work of an earlier command under the identifier `r` is still under way: NVMe requires a host to give a command an
identifier that no command of its queue holds. -/
def Fresh (s : State) (r : CmdRef) : Prop :=
  (∀ p ∈ s.media.flushes, p.ref ≠ r) ∧ (∀ p ∈ s.media.reads, p.ref ≠ r) ∧ (∀ b ∈ s.media.buffer, b.waiter ≠ some r)
    ∧ (∀ j ∈ s.media.jobs, j.kind ≠ .publish r) ∧ (∀ i ∈ s.invocations, i.ref ≠ r) ∧ ∀ x ∈ s.tenants, x.ending ≠ some r

/-- A command starts (R157, R158, R170, R587): the controller holds it now, and no common check ends it. `t` is the state in
which its own checks run. -/
def Starts (s : State) (c : Cmd) (k : CmdKind) (t : State) : Prop :=
  s.begin c = some t ∧ Fresh s c.ref ∧ t.refusal c k = none ∧ (k = .nvm → t.gatedBy c = none)

/-- A vendor I/O command starts (R198, R199): it passes the common checks and those that `early` names. -/
def StartsVendor (s : State) (c : Cmd) (owner needsRun : Bool) (early : State → Option Status) (t : State) : Prop :=
  s.begin c = some t ∧ Fresh s c.ref ∧ t.vendorRefusal c owner = none ∧ early t = none
    ∧ (needsRun = true → (t.tenant (c.fn - 1)).runOpen = true)

/-- The completion of a command with a status and its two dwords. -/
def completionOf (r : CmdRef) (st : Status) (dw0 dw1 : Nat) : Completion :=
  { fn := r.fn, sqid := r.sqid, cid := r.cid, sct := st.sct, sc := st.sc, dnr := st.dnr,
    dw0 := BitVec.ofNat 32 dw0, dw1 := BitVec.ofNat 32 dw1 }

/-- Between `s` and `t` the command of a place ended with this status and these dwords. -/
def EndsRef (s t : State) (r : CmdRef) (st : Status) (dw0 : Nat := 0) (dw1 : Nat := 0) : Prop :=
  ∃ l, t.pcie.completions = s.pcie.completions ++ l ∧ completionOf r st dw0 dw1 ∈ l
/-- Between `s` and `t` a command ended with this status and these dwords. -/
def Ends (s t : State) (c : Cmd) (st : Status) (dw0 : Nat := 0) (dw1 : Nat := 0) : Prop := EndsRef s t c.ref st dw0 dw1

/-- Between `s` and `t` no command ended. -/
def NoneEnds (s t : State) : Prop := t.pcie.completions = s.pcie.completions

/-! ### Invocations and engine commands -/

/-- The controller holds the command of a place, and completions are posted. -/
def Held (s : State) (r : CmdRef) : Prop :=
  s.power.stage = .on ∧ ((s.ctrl r.fn).outstanding.any fun o => o.cmd.ref == r) = true

/-- Spindle `sp` runs invocation `i` of model `m`, and its current word is `d`; no other invocation has its command. -/
def AtWord (s : State) (sp : Nat) (i : Invocation) (m : Model) (d : BitVec 512) : Prop :=
  s.engines = true ∧ s.onSpindle sp = some i ∧ s.model? i.tenant i.slot = some m ∧ s.programWord i i.word = some d
    ∧ ∀ j ∈ s.invocations, j.ref = i.ref → j = i

/-- The invocation of a place is over, or it only waits for the commands it has started. -/
def Stopped (t : State) (r : CmdRef) : Prop := ∀ j ∈ t.invocations, j.ref = r → j.phase = .stopping

/-- Entry `k` of queue `q` is the started command of operation `op` that a row of it acts on, and `i` its invocation. -/
def Running (s : State) (q cls op k : Nat) (e : QEntry) (i : Invocation) : Prop :=
  s.engines = true ∧ ((s.queue q).entries.findIdx? fun x =>
      x.origin == .word && x.outcome == .started && classOf x.desc == cls && opOf x.desc == op && !(cls == 5 && x.begun)) = some k
    ∧ (s.queue q).entries[k]? = some e ∧ s.invocation? e.tenant e.tag = some i

/-- Entry `k` of queue `q` has come to an outcome. -/
def Outcome (t : State) (q k : Nat) (o : CmdOutcome) : Prop := ((t.queue q).entries[k]?).map (·.outcome) = some o

/-- The flash keeps what it maps: extents, units, namespaces and superblocks are as before. -/
def FlashKept (s t : State) : Prop :=
  t.media.extents = s.media.extents ∧ t.media.units = s.media.units ∧ t.media.namespaces = s.media.namespaces
    ∧ t.media.superblocks = s.media.superblocks

/-! ### Memory and engine operations -/

/-- Do two names name one memory of a tenant? -/
def sameSpace : Space → Space → Bool
  | .home m, .home n => m == n
  | .buf x _, .buf y _ => x == y
  | _, _ => false
/-- One byte of a home, or of a buffer in the tile store or DRAM. -/
def byteOf (s : State) (t : Nat) : Space → Nat → Byte
  | .home m, o => (((s.tenant t).homes.lookup m).getD {}).at o
  | .buf x _, o => ((s.bufferAt t x).map fun b => b.data.at o).getD 0
  | _, _ => 0
/-- Every byte of every tenant's memory is as before, outside these pieces of tenant `u`. -/
def MemKept (s t : State) (u : Nat) (ps : List Span) : Prop :=
  ∀ v sp o, (∀ p ∈ ps, v = u → sameSpace (s.settle u p).space sp = true →
    o < (s.settle u p).off ∨ (s.settle u p).off + p.len ≤ o) → byteOf t v sp o = byteOf s v sp o

/-- A piece lies in a memory that exists and keeps its canonical form, and that may be written. -/
def Backed (s : State) (i : Invocation) (p : Span) : Prop :=
  match (s.settle i.tenant p).space with
  | .home m => i.tenant < s.tenants.length ∧ (((s.tenant i.tenant).homes.lookup m).getD {}).wf = true
  | .buf x pl => pl ≠ .readonly ∧ ∃ b, s.bufferAt i.tenant x = some b ∧ b.data.wf = true
  | .hostOut => i.silent = false
  | _ => False
/-- The bytes `bs` stand at a piece now; in the host's buffer, they were sent to its place. -/
def Stored (s t : State) (i : Invocation) (p : Span) (bs : List Byte) : Prop :=
  match (s.settle i.tenant p).space with
  | .hostOut => t.host = (s.bufferPut i.ref.fn i.prp1 i.prp2 i.dataBytes (i.outOffset + p.off) bs).host
  | _ => t.host = s.host ∧ t.spanGet i { p with len := bs.length } = bs

/-- No memory error is recorded: no DRAM block and no SRAM word is poisoned, and every published unit reads. -/
def Sound (s : State) : Prop :=
  (∀ k ∈ s.prot.dramStacks, k.poison = []) ∧ (∀ u ∈ s.prot.sram, u.poison = []) ∧ ∀ e ∈ s.media.extents, e.bad = []
/-- The Lathe and Gouge pairs have their tiles and registers, and the tiles keep their canonical form. -/
def PairsOk (s : State) : Prop :=
  s.pairs.length = 16 ∧ ∀ p ∈ s.pairs, p.acc.length = 8 ∧ p.tiles.length = 16 ∧ p.masks.length = 8
    ∧ (∀ a ∈ p.acc, a.data.wf = true) ∧ ∀ g ∈ p.tiles, g.data.wf = true
/-- The Rasp units have their contexts. -/
def RaspOk (s : State) : Prop := s.rasp.length = 32 ∧ ∀ u ∈ s.rasp, u.ctxs.length = 4

/-- Element (r, c) of an accumulator tile, and of a Gouge tile, of a queue's pair. -/
def AccAt (s : State) (q n r c : Nat) : Nat := ((s.pair q).acc.getD n {}).data.el r c
/-- See `AccAt`. -/
def TileAt (s : State) (q n r c : Nat) : Nat := ((s.pair q).tiles.getD n {}).data.el r c
/-- Every accumulator tile but those of one list, every Gouge tile but those of another, and every other pair are as before. -/
def PairKept (s t : State) (q : Nat) (accs tiles : List Nat) : Prop :=
  (∀ p, p ≠ pairOf q → t.pairs[p]? = s.pairs[p]?) ∧ (∀ j, j ∉ accs → (t.pair q).acc[j]? = (s.pair q).acc[j]?)
    ∧ ∀ j, j ∉ tiles → (t.pair q).tiles[j]? = (s.pair q).tiles[j]?

/-- Blocks that an engine operation leaves as they are: those of the host, the personality, the clocks, the counters, the
logs, the peer fabric, the flash and the service complex, and every other queue. -/
def Quiet (s t : State) (q : Nat) : Prop :=
  { t.pcie with dataRelaxed := s.pcie.dataRelaxed } = s.pcie ∧ t.pers = s.pers ∧ t.power = s.power ∧ t.ctrs = s.ctrs ∧ t.logs = s.logs ∧ t.peer = s.peer
    ∧ t.media = s.media ∧ t.svc = s.svc ∧ t.marks = s.marks ∧ ∀ p, p ≠ q → t.queue p = s.queue p
/-- The row `x` of queue `q` does the work of entry `k` and leaves other blocks as they are. -/
def Performs (x : Instr) (s : State) (q k : Nat) (post : State → Prop) : Prop :=
  ∃ t, exec x s = .next t ∧ Outcome t q k .done ∧ Quiet s t q ∧ post t

/-- A frame that an UP port receives is for this module: it passes steps 1 to 4 of Table 18-5. -/
def ForMe (s : State) (port : Nat) (f : PeerFrame) : Prop :=
  s.engines = true ∧ s.portUp port = true ∧ f.fcsOk = true ∧ f.etype = s.peer.etype ∧ f.field 0 7 4 = 1
    ∧ f.length ≤ f.payload.length ∧ f.field 4 31 0 = s.pers.active.systemId
    ∧ (s.peer.mode = 0 → bits f.src.toNat 7 0 = port) ∧ f.dstModule = s.moduleIndex
/-- The flow that a DATA frame names is bound to its sender, in the epoch that the receiver holds. -/
def OnFlow (s : State) (f : PeerFrame) (r : FlowRec) : Prop :=
  s.flowRec f.dstFlow = some r ∧ r.tenant = f.tenant ∧ r.remoteModule = f.srcModule ∧ r.remoteFlow = f.srcFlow
    ∧ f.epoch = (s.flow f.dstFlow).rxEpoch

end Sys2Proof.Safety
end

