-- ==== Sys2Proof/Certificates/Slice0/Obligations.lean ====
section
/-!
DEFINITION. Obligations.lean: the statements for the provers, in the order of OBLIGATIONS.json.
-/

open Sys2Proof Sys2Proof.Machine Sys2Proof.Safety

/-! ### The step -/

/-- A step takes the command at the front of the queue and runs it on the state with the queue's rest; on an empty queue one
microsecond of the always-on clock passes while the module has power (log entry 3). -/
def Obligations.FrontCommandRuns : Prop :=
  (∀ (c : Instr) (rest : List Instr) (s : State),
    step { s with pending := c :: rest } = exec c { s with pending := rest })
  ∧ ∀ (s : State), s.pending = [] → ∃ t, step s = .next t ∧ t.pending = [] ∧ (s.power.stage = .off → t = s)
    ∧ (s.power.stage ≠ .off → t.now = s.now + 1 ∧ (s.svc.running = true → t.svc.wdtLeftUs = s.svc.wdtLeftUs - 1)
      ∧ t.ctrs = s.ctrs ∧ t.invocations = s.invocations ∧ t.media = s.media ∧ t.logs = s.logs ∧ t.power = s.power)

/-! ### Chapters 02 and 21: power, clocks, thermal levels, pins -/

/-- P0 (R32, R38, R47, R595): each trigger of a powered module starts the power-loss sequence; while one runs, a further
trigger changes neither the phase nor what the first has latched. -/
def Obligations.PowerLossTriggers : Prop :=
  (∀ s : State, s.power.stage = .on →
    (∃ t, exec .inputUndervoltage s = .next t ∧ Detected 0x40 s t)
    ∧ (s.power.plnStuck = false → ∃ t, exec .plnFall s = .next t ∧ Detected 0x40 s t)
    ∧ (∃ t, exec .pwrdisAssert s = .next t ∧ Detected 0x40 s t ∧ t.power.pwrdis = true)
    ∧ (∃ t, exec .inputOvervoltage s = .next t ∧ Detected 0x40 s t ∧ t.power.holdOff = true)
    ∧ (∃ t, exec .inputOvercurrent s = .next t ∧ Detected 0x40 s t ∧ t.power.holdOff = true)
    ∧ ∀ r, ∃ t, exec (.railTrip r) s = .next t ∧ Detected 0x140 s t ∧ t.power.trippedRail = some r)
  ∧ (∀ s : State, s.power.plnStuck = true → exec .plnFall s = .next s)
  ∧ ∀ s : State, s.power.stage ≠ .on →
    ∀ c ∈ [Instr.inputUndervoltage, .plnFall, .pwrdisAssert, .inputOvervoltage, .inputOvercurrent,
        .railTrip .core, .railTrip .mem, .railTrip .hostx, .railTrip .svc, .railTrip .vis, .railTrip .peer],
      ∃ t, exec c s = .next t ∧ OnlyPower s t ∧ t.power.stage = s.power.stage
        ∧ t.power.resetCause = s.power.resetCause ∧ t.power.trigger = s.power.trigger

/-- P1 to P4 (R38, R41, R42, R503): each phase runs only after the one before it. P1 gates every slice, stops fetching, abandons
an exchange and sets CORE to step 0; P2 ends with its content programmed; P3 saves the timestamp and, unless CORE or MEM tripped,
programs each group's journal tail as a row of stripe set 0 of its metadata superblock (where the set has 8 live slots; log entry
118); P4 drops the rails, and the module starts again where the input lies within 42 to 60 V, `PWRDIS` is deasserted and no eFuse
is open. A phase out of its turn changes nothing. -/
def Obligations.PowerLossPhases : Prop :=
  ∀ (s : State),
    (s.power.stage = .detected → ∃ t, exec .p1Shed s = .next t ∧ t.power.stage = .shed ∧ t.power.currentStep = 0
      ∧ t.pcie.fetchStopped = true ∧ (∀ x ∈ t.pers.slices, x.clockGated = true) ∧ t.pers.job = .none
      ∧ t.logs = s.logs ∧ t.media = s.media ∧ t.invocations = s.invocations ∧ t.host = s.host)
    ∧ (∀ failed, s.power.stage = .shed → ∃ t, exec (.p2Flush failed) s = .next t ∧ t.power.stage = .flushed
      ∧ t.power.resetCause = s.power.resetCause ∧ { t with power := s.power, media := s.media } = s)
    ∧ (s.power.stage = .flushed → ∃ t, exec .p3Metadata s = .next t ∧ t.power = { s.power with stage := .saved }
      ∧ t.svc = { s.svc with nor := { s.svc.nor with savedTime := s.now } }
      ∧ { t with power := s.power, svc := s.svc, media := s.media, free := s.free } = s
      ∧ (s.power.trippedRail = some .core ∨ s.power.trippedRail = some .mem → t.media = s.media)
      ∧ (s.power.trippedRail ≠ some .core → s.power.trippedRail ≠ some .mem → s.media.groups.length = 4 →
        ∀ g, g < 4 → 8 ≤ (s.liveSlots g 0).length →
          let x := s.media.groups.getD g {}
          let y := t.media.groups.getD g {}
          y.metaTail = x.journalTail ∧ (x.metaRow < s.pagesPerBlock → y.metaRow = x.metaRow + 1 ∧ y.metaBlock = x.metaBlock
            ∧ ∀ k ∈ s.liveSlots g 0, ∀ p, p < 4 → ∃ z ∈ t.media.pages, z.addr.channel = (slotPlace g 0 k).1
              ∧ z.addr.die = (slotPlace g 0 k).2 ∧ z.addr.plane = p ∧ z.addr.block = x.metaBlock ∧ z.addr.page = x.metaRow)))
    ∧ (s.power.stage = .saved → ∀ v,
        (s.power.holdOff = true ∨ s.power.pwrdis = true ∨ v < 4200 ∨ (6000 < v ∧ s.power.trigger ≠ some .pwrdis) →
          ∃ t, exec (.p4RailsDown v) s = .next t ∧ t.power.stage = .off ∧ t.power.railsUp = false
            ∧ t.power.aonReleased = false ∧ t.svc.running = false ∧ OnlyPowerSvc s t)
        ∧ (s.power.holdOff = false → s.power.pwrdis = false → 4200 ≤ v → v ≤ 6000 →
          ∃ t, exec (.p4RailsDown v) s = .next t ∧ t.power.stage = .on ∧ t.power.resetCause.getLsbD 0 = true
            ∧ t.power.railsUp = false ∧ t.power.aonReleased = false ∧ SameModule s t))
    ∧ (s.power.stage ≠ .detected → exec .p1Shed s = .next s)
    ∧ (∀ failed, s.power.stage ≠ .shed → exec (.p2Flush failed) s = .next s)
    ∧ (s.power.stage ≠ .flushed → exec .p3Metadata s = .next s)
    ∧ ∀ up, s.power.stage ≠ .saved → exec (.p4RailsDown up) s = .next s

/-- Start-up (R32, R41, R42, R629, R634): a start needs the input above 42 V, no opened eFuse and `PWRDIS` deasserted; AON
release resumes the timestamp from the saved value plus 1 and samples the straps, of which an open one reads 1. `PLN_N` going high
clears `PLN_STUCK` (log entry 106). -/
def Obligations.StartUp : Prop :=
  ∀ (s : State),
    (s.power.stage = .off → s.power.holdOff = false → s.power.pwrdis = false →
      ∃ t, exec .powerOn s = .next t ∧ t.power.stage = .on ∧ t.power.resetCause.getLsbD 0 = true
        ∧ t.power.aonReleased = false ∧ t.power.charged = false ∧ t.power.writeThrough = true
        ∧ t.svc.wdtExpiries = 0 ∧ t.svc.shieldHolds = 0 ∧ t.invocations = [] ∧ t.tenants = []
        ∧ SameModule s t)
    ∧ (s.power.stage = .off → s.power.holdOff = false → s.power.inputUp = true →
      ∃ t, exec .pwrdisDeassert s = .next t ∧ t.power.stage = .on ∧ t.power.pwrdis = false)
    ∧ (s.power.stage = .off → s.power.holdOff = true → ∃ t, exec .powerOn s = .next t ∧ t.power.stage = .off)
    ∧ (s.power.stage = .off → s.power.pwrdis = true → ∃ t, exec .powerOn s = .next t ∧ t.power.stage = .off)
    ∧ (s.power.stage = .on → s.power.aonReleased = false → ∀ id op bs pl sf,
      ∃ t, exec (.aonRelease id op bs pl sf) s = .next t ∧ t.now = s.svc.nor.savedTime + 1
        ∧ t.power.aonReleased = true ∧ t.power.slotId = id ||| op ∧ t.power.slotOpen = op ∧ t.power.plnStuck = pl
        ∧ t.svc.bootSel = bs ∧ t.svc.nor.sfdpOk = sf)
    ∧ (s.power.stage = .on → s.power.aonReleased = true → exec .railsUp s = .next { s with power := { s.power with railsUp := true } })
    ∧ (s.power.stage = .on → s.power.railsUp = true → s.power.perst = false →
      exec .dramInitDone s = .next { s with power := { s.power with dramReady := true } })
    ∧ exec .plnGoesHigh s = .next { s with power := { s.power with plnStuck := false } }

/-- The CORE clock (R51, R52): one move is one step towards min(`TARGET_STEP`, `CEILING_STEP`), the ceiling being the lower of
the power-cap and the thermal ceiling; ten samples of 100 µs above the cap lower the ceiling by one step, a hundred below the
cap less 20 W raise it by one, never above 21 or the thermal ceiling. A move begins 20 µs or more after the one before it, `STEPPING` reads 1 until it ends, and it ends at the next step
event (log entry 26). A sample holds the input and the bank's voltage, which is 70 V or more, and 72 V at most, once the bank is
charged (log entry 93). DRAM recalibration (R60) leaves no status, log entry or event. -/
def Obligations.CoreClock : Prop :=
  (∀ (s : State) (stack : Nat), exec (.dramRecalibration stack) s = .next s) ∧ ∀ (s : State), s.power.stage = .on →
    let p := s.power
    let goal := min p.targetStep (min p.powerCeiling p.thermalCeiling)
    let rested : Prop := ∀ at_, p.stepAt = some at_ → at_ + 20 ≤ s.now
    let runs (x : Instr) (q : Power) : Prop := exec x s = .next { s with power := q }
    (p.stepping = true → runs .coreClockStep { p with currentStep := p.stepGoal, stepping := false })
    ∧ (p.stepping = false → rested →
      (p.currentStep < goal →
        runs .coreClockStep { p with stepping := true, stepGoal := p.currentStep + 1, stepAt := some s.now })
      ∧ (goal < p.currentStep →
        runs .coreClockStep { p with stepping := true, stepGoal := p.currentStep - 1, stepAt := some s.now }))
    ∧ (p.stepping = false → p.currentStep = goal ∨ ¬ rested → exec .coreClockStep s = .next s)
    ∧ (10 ≤ p.overSamples →
      runs .powerCeilingLower { p with powerCeiling := min p.powerCeiling p.thermalCeiling - 1, overSamples := 0 })
    ∧ (100 ≤ p.underSamples → p.powerCeiling < 21 → p.powerCeiling < p.thermalCeiling →
      runs .powerCeilingRaise { p with powerCeiling := p.powerCeiling + 1, underSamples := 0 })
    ∧ (100 ≤ p.underSamples → 21 ≤ p.powerCeiling ∨ p.thermalCeiling ≤ p.powerCeiling →
      runs .powerCeilingRaise { p with underSamples := 0 })
    ∧ (p.overSamples < 10 → exec .powerCeilingLower s = .next s)
    ∧ (p.underSamples < 100 → exec .powerCeilingRaise s = .next s)
    ∧ ∀ v w b, p.aonReleased = true → v < 65536 → w < 65536 → b ≤ 7200 → (p.charged = true ↔ 7000 ≤ b) →
      runs (.powerSample ⟨v, b⟩ w) { p with
        vin10mv := v, pin100mw := w, bank10mv := b
        overSamples := if 10 * p.capW < w then p.overSamples + 1 else 0
        underSamples := if w < 10 * (p.capW - 20) then p.underSamples + 1 else 0 }

/-- The hold-up bank (R36, R37, R44): a measurement below 12.0 mF, or a bank that has not charged after 1 s, sets `LOW_CAP` and
runs the write buffer write-through; write-through ends when the bank is charged and the measurement is good. `CAP_PCT` is the
percentage of 15.0 mF, rounded down, 255 at most (log entry 93). A measurement below 12.0 mF is logged. -/
def Obligations.HoldupBank : Prop :=
  ∀ (s : State), s.power.stage = .on → s.power.aonReleased = true →
    (∀ m, s.power.charged = true → m < 120 → ∃ t, exec (.holdupMeasure m) s = .next t
      ∧ t.power.capPct = m * 100 / 150 ∧ t.power.lowCap = true ∧ t.power.writeThrough = true ∧ t.power.capLow = true
      ∧ t.logs.c0.nextSeq = s.logs.c0.nextSeq + 1)
    ∧ (∀ m, s.power.charged = true → 120 ≤ m → exec (.holdupMeasure m) s = .next { s with power := { s.power with
        capPct := min 255 (m * 100 / 150), capLow := false, capGood := true, writeThrough := false } })
    ∧ (∀ m, s.power.charged = false → exec (.holdupMeasure m) s = .next s)
    ∧ (s.power.charged = false → s.power.chargeTimedOut = false → s.power.chargeStart + 1000000 ≤ s.now →
      ∃ t, exec .holdupChargeTimeout s = .next t ∧ t.power.lowCap = true ∧ t.power.chargeTimedOut = true
      ∧ t.power.writeThrough = true ∧ t.logs.c0.nextSeq = s.logs.c0.nextSeq + 1)
    ∧ (s.power.charged = true ∨ s.now < s.power.chargeStart + 1000000 → exec .holdupChargeTimeout s = .next s)
    ∧ (∃ t, exec .holdupCharged s = .next t ∧ OnlyPower s t ∧ t.power.charged = true ∧ 7000 ≤ t.power.bank10mv
      ∧ (s.power.capLow = false → s.power.chargeTimedOut = false → t.power.writeThrough = false)
      ∧ (s.power.capLow = true → t.power.writeThrough = true))

/-- Thermal levels (R62, Table 02-13): a reading enters the highest level whose condition holds, at once; level 1 lowers the
ceiling step by step, one every 1 ms, to step 8, level 2 sets it to 0 and halves VIS, level 3 starts the power-loss sequence. A
level is left once the temperature has been 5 °C below its threshold for 100 ms; 10 s without flow end in level 3. -/
def Obligations.ThermalLevels : Prop :=
  ∀ (s : State), s.power.stage = .on →
    (∀ tj c, 95 ≤ tj → tj < 105 → s.power.level = 0 → ∃ t, exec (.thermalLevelEnter tj c true) s = .next t
      ∧ t.power.level = 1 ∧ t.power.throttled = true ∧ t.power.stage = .on ∧ t.logs.c0.nextSeq = s.logs.c0.nextSeq + 1)
    ∧ (∀ tj c flow, tj < 115 → (105 ≤ tj ∨ flow = false) → s.power.level < 2 →
      ∃ t, exec (.thermalLevelEnter tj c flow) s = .next t ∧ t.power.level = 2 ∧ t.power.thermalCeiling = 0
        ∧ t.power.visHalved = true ∧ t.power.stage = .on)
    ∧ (∀ tj c flow, 115 ≤ tj → s.power.level < 3 → ∃ t, exec (.thermalLevelEnter tj c flow) s = .next t
      ∧ t.power.level = 3 ∧ t.power.stage = .detected ∧ t.power.resetCause = s.power.resetCause ||| 0xC0 ∧ t.power.holdOff = true)
    ∧ (∀ since, s.power.flowOk = false → s.power.flowLostAt = some since → s.power.level < 3 →
      (since + 10000000 ≤ s.now → ∃ t, exec .flowLossTimeout s = .next t
        ∧ t.power.level = 3 ∧ t.power.stage = .detected ∧ t.power.resetCause = s.power.resetCause ||| 0xC0)
      ∧ (s.now < since + 10000000 → exec .flowLossTimeout s = .next s))
    ∧ (∀ tj c a b, tj ≤ 90 → s.power.cool100At = some a → s.power.cool90At = some b → a ≤ b → b + 100000 ≤ s.now →
      s.power.level = 1 ∨ s.power.level = 2 → ∃ t, exec (.thermalLevelLeave tj c true) s = .next t
      ∧ t.power.level = 0 ∧ t.power.thermalCeiling = 21 ∧ t.power.visHalved = false ∧ t.logs.c0.nextSeq = s.logs.c0.nextSeq + 1)
    ∧ (∀ tj c a, 90 < tj → tj ≤ 100 → s.power.cool100At = some a → a + 100000 ≤ s.now → s.power.level = 2 →
      ∃ t, exec (.thermalLevelLeave tj c true) s = .next t
      ∧ t.power.level = 1 ∧ t.power.thermalCeiling = 8 ∧ t.power.visHalved = false ∧ t.logs.c0.nextSeq = s.logs.c0.nextSeq + 1)
    ∧ (s.power.level = 1 → s.power.ceilingAt + 1000 ≤ s.now →
      exec .thermalCeilingStep s = .next { s with power := { s.power with
        ceilingAt := s.now
        thermalCeiling := if 8 < s.power.thermalCeiling then s.power.thermalCeiling - 1 else s.power.thermalCeiling } })
    ∧ (s.power.level = 1 → s.now < s.power.ceilingAt + 1000 → exec .thermalCeilingStep s = .next s)

/-- What a reset that reaches CORE leaves (R54, Table 02-12), whatever its kind: counters, tenants, invocations and engines
start afresh, no structure is in place, no controller is enabled, and the monitor is locked; identity, straps and temperature
stay. -/
def CoreResetDone (s t : State) : Prop :=
  t.invocations = [] ∧ t.tenants = [] ∧ t.ctrs = {} ∧ t.pers.inPlace = false ∧ t.pers.stage = .empty
    ∧ (∀ k ∈ t.pcie.ctrls, k.ready = false ∧ k.cc = 0 ∧ k.outstanding = []) ∧ t.power.dramReady = false
    ∧ t.svc.monitor.unlocked = false ∧ t.svc.running = false ∧ t.svc.fwStageBytes = 0
    ∧ t.power.lowCap = s.power.lowCap ∧ t.power.throttled = s.power.throttled ∧ t.power.slotId = s.power.slotId
    ∧ SameModule s t

/-- Resets that reach CORE (R53, R54, R57, R58, R59, R594, R595): `PERST_N` takes the link down, MODULE_RESET and the watchdog keep
it with the configuration space; each sets its cause. While the boot NOR is busy a watchdog reset or a module reset is held and
nothing else changes; a held reset proceeds when `BUSY` falls, or at the 5 s limit, with the causes of all that merged into it.
MODULE_RESET with a non-zero reserved dword is Invalid Field in Command; otherwise it ends with success before its reset begins, and no
further entry is fetched. -/
def Obligations.CoreResets : Prop :=
  (∀ (s : State), s.power.stage = .on →
    (s.power.perst = false → s.svc.held = none → s.power.moduleResetPending = false →
      ∃ t, exec .perstAssert s = .next t ∧ CoreResetDone s t ∧ t.power.perst = true ∧ t.power.linkUp = false
        ∧ t.pcie.vfEnable = false ∧ t.power.resetCause = s.power.resetCause ||| 2)
    ∧ (s.power.moduleResetPending = true → s.svc.held = none →
      (s.svc.nor.busy = false → ∃ t, exec .moduleResetStart s = .next t ∧ CoreResetDone s t
        ∧ t.power.linkUp = s.power.linkUp ∧ t.pcie.vfEnable = s.pcie.vfEnable ∧ t.pcie.numVfs = s.pcie.numVfs
        ∧ t.power.resetCause = s.power.resetCause ||| 16)
      ∧ (s.svc.nor.busy = true → exec .moduleResetStart s = .next { s with
          power := { s.power with moduleResetPending := false }
          svc := { s.svc with held := some { watchdog := false, moduleReset := true, since := s.now }
                              shieldHolds := satAdd32 s.svc.shieldHolds 1 } }))
    ∧ (s.svc.running = true → s.svc.wdtLeftUs = 0 → s.svc.nor.busy = false → s.svc.held = none →
      s.power.moduleResetPending = false →
      ∃ t, exec .watchdogExpiry s = .next t ∧ CoreResetDone s t ∧ t.power.linkUp = s.power.linkUp
        ∧ t.power.resetCause = s.power.resetCause ||| 32 ∧ t.svc.wdtExpiries = satAdd32 s.svc.wdtExpiries 1
        ∧ t.svc.wdtNote = some s.svc.runSlot)
    ∧ (s.svc.running = true → s.svc.wdtLeftUs = 0 → s.svc.nor.busy = true → s.svc.held = none →
      exec .watchdogExpiry s = .next { s with svc := { s.svc with
        wdtExpiries := satAdd32 s.svc.wdtExpiries 1, wdtNote := some s.svc.runSlot
        held := some { watchdog := true, moduleReset := false, since := s.now }
        shieldHolds := satAdd32 s.svc.shieldHolds 1 } })
    ∧ (s.svc.wdtLeftUs ≠ 0 → exec .watchdogExpiry s = .next s)
    ∧ (∀ h, s.svc.held = some h → h.watchdog = true ∨ h.moduleReset = true → s.power.moduleResetPending = false →
      let causes := s.power.resetCause ||| (if h.moduleReset then 16 else 0) ||| (if h.watchdog then 32 else 0)
      (s.svc.nor.busy = true → exec .shieldRelease s = .next s)
      ∧ (s.svc.nor.busy = false → ∃ t, exec .shieldRelease s = .next t ∧ CoreResetDone s t
        ∧ t.svc.shieldNote = some (false, s.now - h.since) ∧ t.power.resetCause = causes)
      ∧ (h.since + 5000000 ≤ s.now → ∃ t, exec .shieldTimeout s = .next t ∧ CoreResetDone s t
        ∧ t.svc.shieldNote = some (true, s.now - h.since) ∧ t.svc.nor.busy = false ∧ t.power.resetCause = causes)
      ∧ (s.now < h.since + 5000000 → exec .shieldTimeout s = .next s))
    ∧ (s.svc.running = true → exec .watchdogServe s = .next { s with svc := { s.svc with wdtLeftUs := 2000000 } })
    ∧ exec .perstDeassert s = .next { s with
        power := { s.power with perst := false }, pins := { s.pins with jtagExtest := false, pinsDriven := [] } })
  ∧ ∀ (s t : State) (c : Cmd), s.begin c = some t → c.fn = 0 → c.sqid = 0 → s.svc.runSlot ≠ 2 →
    (c.cdw10 = 0 → c.cdw11 = 0 → c.cdw12 = 0 → c.cdw13 = 0 → c.cdw14 = 0 → c.cdw15 = 0 → s.svc.held = none →
      ∃ u, exec (.moduleReset c) s = .next u ∧ Ends s u c .success ∧ u.pcie.fetchStopped = true
        ∧ (s.svc.nor.busy = false → u.power = { s.power with moduleResetPending := true } ∧ u.svc = s.svc)
        ∧ (s.svc.nor.busy = true → u.power = s.power
          ∧ u.svc.held = some { watchdog := false, moduleReset := true, since := s.now }))
    ∧ (c.cdw10 ≠ 0 ∨ c.cdw11 ≠ 0 ∨ c.cdw12 ≠ 0 ∨ c.cdw13 ≠ 0 ∨ c.cdw14 ≠ 0 ∨ c.cdw15 ≠ 0 →
      ∃ u, exec (.moduleReset c) s = .next u ∧ Ends s u c .invalidField ∧ u.power = s.power ∧ u.svc = s.svc)

/-- Resets of one function (R55, R149, R174): the function's commands, queues and readiness go without a completion; a VF's
run ends with its counters frozen. Personality, flash maps, DRAM protection and every other tenant's window stay. -/
def Obligations.FunctionResets : Prop :=
  ∀ (s : State), s.power.stage = .on → s.pcie.ctrls.length = 17 →
    (∀ fn, 1 ≤ fn → fn ≤ 16 → s.vfLive (fn - 1) = true → fn - 1 < s.tenants.length →
      ∃ t, exec (.functionLevelReset fn) s = .next t ∧ (t.ctrl fn).ready = false ∧ (t.ctrl fn).outstanding = []
        ∧ (t.ctrl fn).sqs = [] ∧ (t.tenant (fn - 1)).runOpen = false ∧ (t.tenant (fn - 1)).frozen = true
        ∧ t.power.resetCause = s.power.resetCause ||| 8 ∧ t.pers = s.pers ∧ t.big = s.big)
    ∧ (∀ cc : Dword, (s.ctrl 0).cc.getLsbD 0 = true → cc.getLsbD 0 = false →
      ∃ t, exec (.controllerDisable 0 cc) s = .next t ∧ (t.ctrl 0).ready = false ∧ (t.ctrl 0).outstanding = []
        ∧ t.tenants = s.tenants ∧ t.invocations = s.invocations ∧ t.ctrs = s.ctrs
        ∧ t.power.resetCause = s.power.resetCause ||| 4)
    ∧ (∃ t, exec .hotReset s = .next t ∧ (t.ctrl 0).ready = false ∧ t.pcie.vfEnable = false ∧ t.pcie.numVfs = 0
        ∧ t.power.linkUp = false ∧ t.power.dramReady = s.power.dramReady ∧ t.big = s.big)
    ∧ (s.pers.inPlace = true → s.pcie.numVfs ≤ s.pers.active.tenants.length →
      exec (.vfEnableWrite true) s = .next { s with pcie := { s.pcie with vfEnable := true } })
    ∧ (s.pers.inPlace = true → s.pers.active.tenants.length < s.pcie.numVfs → exec (.vfEnableWrite true) s = .next s)

/-- Pins, link and cages (R63, R635 to R639, Table 02-14): a link narrower than x16 and the loss of the reference clock are
logged; a sideband fault sets its sticky bit and the pin is no longer driven; a cage whose eFuse trips is off with both its
ports; a NAND rail that trips isolates the eight channels of its group; a composite temperature beyond a threshold of PF0 sets its
Critical Warning bit, which clears between the thresholds (R159). `WAKE_N` held low while the module asserts it is no fault. -/
def Obligations.EnvironmentFaults : Prop :=
  ∀ (s : State), s.power.stage = .on →
    (s.power.railsUp = true → s.power.perst = false → ∀ w rate, w ∈ [1, 2, 4, 8, 16] →
      ∃ t, exec (.linkUp w rate) s = .next t ∧ t.power = { s.power with linkUp := true, linkWidth := w, linkRate := rate }
        ∧ t.logs.c0.nextSeq = s.logs.c0.nextSeq + (if w < 16 then 1 else 0))
    ∧ (∃ t, exec .refclkLoss s = .next t ∧ t.pins.refclk = false ∧ (s.power.linkUp = true → t.power.linkUp = false)
        ∧ t.logs.c0.nextSeq ≥ s.logs.c0.nextSeq + 1)
    ∧ (∃ t, exec (.sidebandPinFault .smb) s = .next t ∧ t.power = { s.power with smbFault := true }
        ∧ t.pins.smbDriven = false ∧ t.logs.c0.nextSeq = s.logs.c0.nextSeq + 1)
    ∧ (∃ t, exec (.sidebandPinFault .led) s = .next t ∧ t.power = { s.power with ledFault := true }
        ∧ t.pins.ledActDriven = false ∧ t.pins.ledFaultDriven = false ∧ t.logs.c0.nextSeq = s.logs.c0.nextSeq + 1)
    ∧ (∃ t, exec (.sidebandPinFault .smbAlert) s = .next t ∧ t.power = { s.power with smbFault := true }
        ∧ t.pins.smbAlertFault = true ∧ t.logs.c0.nextSeq = s.logs.c0.nextSeq + 1)
    ∧ (s.wakeAsserted = false → ∃ t, exec (.sidebandPinFault .wake) s = .next t ∧ t.power = { s.power with wakeFault := true }
        ∧ t.pins = s.pins ∧ t.logs.c0.nextSeq = s.logs.c0.nextSeq + 1)
    ∧ (s.wakeAsserted = true → exec (.sidebandPinFault .wake) s = .next s)
    ∧ (∀ cage, cage < 2 → s.peer.cageOn.getD cage false = true → s.peer.cageOn.length = 2 → s.peer.ports.length = 4 →
      ∃ t, exec (.cageEfuseTrip cage) s = .next t ∧ t.peer.cageOn.getD cage true = false
        ∧ (t.port (2 * cage)).state = .off ∧ (t.port (2 * cage + 1)).state = .off
        ∧ t.logs.c5.nextSeq ≥ s.logs.c5.nextSeq + 1 ∧ t.power = s.power)
    ∧ (∀ cage, cage < 2 → s.peer.cageOn.getD cage false = true → s.peer.cable.length = 2 → s.peer.ports.length = 4 →
      ∃ t, exec (.cablePresenceChange cage false true) s = .next t ∧ t.peer.cable.getD cage true = false
        ∧ (t.port (2 * cage)).state = .down ∧ (t.port (2 * cage + 1)).state = .down)
    ∧ (∀ g, g < 4 → s.media.channels.length = 32 → ∃ t, exec (.nandRailTrip g) s = .next t
        ∧ ∀ k, k < 8 → (t.channel (8 * g + k)).isolated = true)
    ∧ (∀ kelvin, 273 ≤ kelvin → kelvin ≤ 528 → ∃ t, exec (.temperatureThresholdCrossing kelvin) s = .next t
        ∧ t.power.tjMax = kelvin - 273 ∧ t.power.stage = .on
        ∧ ((s.ctrl 0).features.tempOver ≤ kelvin ∨ kelvin ≤ (s.ctrl 0).features.tempUnder →
            t.pcie.criticalWarning.getLsbD 1 = true)
        ∧ (kelvin < (s.ctrl 0).features.tempOver → (s.ctrl 0).features.tempUnder < kelvin →
            t.pcie.criticalWarning.getLsbD 1 = false))

/-! ### Chapters 03 and 04: the image and the personality -/

/-- LOAD_PERSONALITY (R113, R114): the checks in their order; a piece that passes them is staged; a final piece ends in VALID,
or in REJECTED with the bytes discarded, and DW0 holds the reason and the step. -/
def Obligations.LoadPersonality : Prop :=
  ∀ (s t : State) (c : Cmd), Starts s c .adminOwner t →
    let numd := c.cdw10.toNat
    let ofst := c.cdw11.toNat
    (t.pers.stage = .inUse → ∃ u, exec (.loadPersonality c) s = .next u ∧ Ends s u c .sequenceError
      ∧ u.pers.staged = s.pers.staged ∧ u.pers.stage = .inUse)
    ∧ (t.pers.stage ≠ .inUse → 262143 < numd → ∃ u, exec (.loadPersonality c) s = .next u ∧ Ends s u c .invalidField
      ∧ u.pers.staged = s.pers.staged)
    ∧ (t.pers.stage ≠ .inUse → numd ≤ 262143 → ofst ≠ 0 → 4 * ofst ≠ s.pers.stageBytes →
      ∃ u, exec (.loadPersonality c) s = .next u ∧ Ends s u c .invalidField ∧ u.pers.staged = s.pers.staged)
    ∧ (t.pers.stage = .receiving → numd ≤ 262143 → ofst ≠ 0 → 4 * ofst = s.pers.stageBytes → 67108864 < ofst + numd + 1 →
      ∃ u, exec (.loadPersonality c) s = .next u ∧ Ends s u c .imageTooLarge ∧ u.pers.staged = s.pers.staged)
    ∧ (t.pers.stage ≠ .inUse → numd ≤ 262143 → ofst = 0 → c.cdw12.getLsbD 0 = false →
      ∃ u, exec (.loadPersonality c) s = .next u ∧ Ends s u c .success ∧ u.pers.stage = .receiving
        ∧ u.pers.stageBytes = 4 * (numd + 1)
        ∧ u.pers.staged = Region.put {} 0 (s.dataIn c.prp1 c.prp2 (4 * (numd + 1)))
        ∧ u.pers.active = s.pers.active ∧ u.pers.slices = s.pers.slices)
    ∧ (t.pers.stage ≠ .inUse → numd < 1028 → ofst = 0 → c.cdw12.getLsbD 0 = true → s.prot.damaged = [] →
      ∃ u, exec (.loadPersonality c) s = .next u ∧ Ends s u c .personalityRejected (0x03 + 256 * 4)
        ∧ u.pers.stage = .rejected ∧ u.pers.stageBytes = 0 ∧ u.pers.resReason = 0x03 ∧ u.pers.resStep = 4
        ∧ u.logs.c8.nextSeq = s.logs.c8.nextSeq + 1)

/-- R105, R119, R120, R121: an ACTIVATE_OWNER that passes its checks gates every slice with its timers stopped and its edge
latches clear; once the frames are written, the OWNER image is active, every counter is 0, nothing is admitted or allocated,
`STAGE` is EMPTY, and published extents and namespaces are kept. A failed check leaves the active personality as it was. -/
def Obligations.ActivateOwner : Prop :=
  (∀ (s t : State) (c : Cmd), Starts s c .adminOwner t → bits c.cdw10.toNat 2 0 ≤ 2 → t.pers.job = .none →
    (t.activateFail kindOwner = none → ∃ u, exec (.activateOwner c) s = .next u ∧ NoneEnds s u
      ∧ u.pers.job = .activate c.ref ∧ u.pers.stage = .inUse
      ∧ ∀ x ∈ u.pers.slices, x.clockGated = true ∧ x.edgeLatch = 0 ∧ ∀ y ∈ x.timers, y.running = false)
    ∧ ∀ st reason step, t.activateFail kindOwner = some (st, reason, step) →
      ∃ u, exec (.activateOwner c) s = .next u ∧ Ends s u c st (reason + 256 * step)
        ∧ u.pers.active = s.pers.active ∧ u.pers.activeKind = s.pers.activeKind ∧ u.pers.slices = s.pers.slices)
  ∧ ∀ (s : State) (r : CmdRef), s.pers.job = .activate r →
    ∃ t, exec (.configWriteDone []) s = .next t ∧ t.pers.activeKind = 2 ∧ t.pers.stage = .empty ∧ t.pers.job = .none
      ∧ t.pers.ownerBuild = hBuild s.stagedReader ∧ t.ctrs = {} ∧ t.invocations = []
      ∧ (∀ x ∈ t.tenants, x.models = [] ∧ x.buffers = [] ∧ x.runOpen = false) ∧ t.peer.flows = [] ∧ t.peer.locked = true
      ∧ t.media.namespaces = s.media.namespaces

/-- R119, R122, R582: DISCARD empties the staging; COMMIT_BASE of a checked BASE image queues the programming of the slot other
than the running one; an image longer than 41,943,024 bytes completes with IMAGE_TOO_LARGE and leaves both base slots as they
are. -/
def Obligations.CommitAndDiscard : Prop :=
  ∀ (s t : State) (c : Cmd), Starts s c .adminOwner t → bits c.cdw10.toNat 2 0 ≤ 2 → t.pers.job = .none →
    (∃ u, exec (.discard c) s = .next u ∧ Ends s u c .success ∧ u.pers.stage = .empty ∧ u.pers.stageBytes = 0
      ∧ u.pers.active = s.pers.active ∧ u.svc = s.svc)
    ∧ (t.activateFail kindBase = none → 41943024 < t.pers.stageBytes → ∃ u, exec (.commitBase c) s = .next u
      ∧ Ends s u c .imageTooLarge ∧ u.svc.nor = s.svc.nor)
    ∧ (t.activateFail kindBase = none → t.pers.stageBytes ≤ 41943024 → s.svc.nor.queue = [] → ∃ u seq,
      exec (.commitBase c) s = .next u ∧ NoneEnds s u ∧ u.pers.stage = .inUse
        ∧ u.svc.nor.queue = [NorJob.base c.ref (if s.pers.baseSlot = 0 then 1 else if s.pers.baseSlot = 1 then 0 else s.commitSlot) seq])

/-- R128 to R134: an exchange that passes its checks drains the group first, or replaces the shares with the tenant's deficits at 0
and completes at a step of the always-on clock 2 µs later (log entry 34); a drain that outlasts its limit is abandoned with the old
logic in place and the image still VALID; at the end each slice of the group runs the frames that the image has for it, or pass-all
logic, and every other slice is as before. -/
def Obligations.ExchangeRegion : Prop :=
  (∀ (s t : State) (c : Cmd), Starts s c .adminOwner t → t.pers.job = .none → bits c.cdw10.toNat 15 0 ≤ 1000 →
    t.exchangeFail (BitVec.ofNat 128 (leOfBytes (t.dataIn c.prp1 c.prp2 16))) = none →
    (hKind t.stagedReader = kindFabric → ∃ u, exec (.exchangeRegion c) s = .next u ∧ NoneEnds s u
      ∧ u.pers.stage = .inUse ∧ u.pers.slices = s.pers.slices
      ∧ u.pers.job = .drain c.ref (hTarget t.stagedReader)
          (if bits c.cdw10.toNat 15 0 = 0 then 100 else bits c.cdw10.toNat 15 0) s.now)
    ∧ (hKind t.stagedReader = kindShares → ∃ u, exec (.exchangeRegion c) s = .next u ∧ NoneEnds s u
      ∧ u.pers.stage = .inUse ∧ u.pers.job = .shares c.ref (hTarget t.stagedReader) s.now
      ∧ (∀ q ∈ u.queues, q.deficits.getD (hTarget t.stagedReader) 0 = 0)
      ∧ u.pers.slices = s.pers.slices ∧ u.tenants = s.tenants))
  ∧ (∀ (s : State) (r : CmdRef) (x since : Nat), s.pending = [] → s.pers.job = .shares r x since → Held s r →
      (r.sqid = 0 → r.cid ∉ (s.ctrl r.fn).aers) → since + 2 ≤ s.now → ∃ t, step s = .next t ∧ EndsRef s t r .success
        ∧ t.pers.job = .none ∧ t.pers.stage = .empty ∧ t.pers.active = s.pers.active)
  ∧ (∀ (s : State) (r : CmdRef) (g : Nat), s.pers.job = .writing r g → s.pers.slices.length = 32 →
      ∃ t, exec (.configWriteDone []) s = .next t ∧ t.pers.job = .none ∧ t.pers.stage = .empty ∧ t.pers.active = s.pers.active
        ∧ ∀ k x, s.pers.slices[k]? = some x → ∃ y, t.pers.slices[k]? = some y ∧ (k / 8 ≠ g → y = x)
          ∧ (k / 8 = g → y.clockGated = false ∧ match (imageOf s.stagedReader).slices.find? fun z => z.slice == k with
            | some z => y.passAll = false ∧ y.frames = z.frames.filter (fun f => f.2 != 0) ∧ y.golden = y.frames
            | none => y.passAll = true ∧ y.frames = []))
  ∧ ∀ (s : State) (r : CmdRef) (g limit since : Nat), s.pers.job = .drain r g limit since →
    (s.groupScans g = true → exec .exchangeDrainEnd s = .next s)
    ∧ (s.groupScans g = false → ∃ t, exec .exchangeDrainEnd s = .next t ∧ t.pers.job = .writing r g
      ∧ (∀ k x, t.pers.slices[k]? = some x → k / 8 = g → x.clockGated = true)
      ∧ ∀ k, k / 8 ≠ g → t.pers.slices[k]? = s.pers.slices[k]?)
    ∧ (s.now < since + 1000 * limit → exec .exchangeDrainTimeout s = .next s)
    ∧ (since + 1000 * limit ≤ s.now → s.pers.discardAfter = false →
      ∃ t, exec .exchangeDrainTimeout s = .next t ∧ t.pers.job = .none ∧ t.pers.stage = .valid
      ∧ t.pers.slices = s.pers.slices ∧ t.pers.staged = s.pers.staged ∧ t.logs.c8.nextSeq = s.logs.c8.nextSeq + 1)

/-- The base load (R45, R107, R109, R124, R144): the base slots are tried in order, the first that passes every check is the active
personality, and the owner deadline is armed; with no slot that has a valid record, the load ends in recovery mode, with an entry
for each slot and one for the mode; `ACTIVE_KIND` then reads 0, `BASE_SLOT` 2, and no tenant exists. -/
def Obligations.BaseLoad : Prop :=
  ∀ (s : State) (bad : List (Nat × Nat)), s.power.stage = .on → s.power.perst = false → s.svc.running = true →
    s.svc.runSlot ≠ 2 → s.pers.inPlace = false →
    (s.svc.nor.baseA = none → s.svc.nor.baseB = none →
      ∃ t, exec (.basePersonalityLoad bad) s = .next t ∧ t.pers.recovery = true ∧ t.pers.activeKind = 0 ∧ t.pers.baseSlot = 2
        ∧ t.pers.inPlace = true ∧ t.tenants = [] ∧ t.pers.scrubPasses = 0 ∧ t.pers.taintSlices = 0
        ∧ t.logs.c8.nextSeq = s.logs.c8.nextSeq + 3 ∧ t.pers.ownerKeys = s.pers.ownerKeys)
    ∧ ∀ k b, s.svc.nor.base k = some b → (s.svc.nor.base (1 - k) = none ∨ ∃ x, s.svc.nor.base (1 - k) = some x ∧ x.seq < b.seq) →
        (((s.modPers Pers.restart).modPeer fun p => { p with locked := false }).install {}).baseFail k = none →
        ∃ t, exec (.basePersonalityLoad bad) s = .next t ∧ t.pers.recovery = false ∧ t.pers.activeKind = 1 ∧ t.pers.baseSlot = k
          ∧ t.pers.inPlace = true ∧ t.pers.armedAt = some s.now ∧ t.pers.baseBuild = hBuild (b.image.reader 64)
          ∧ t.invocations = [] ∧ t.ctrs = {} ∧ t.pers.ownerKeys = s.pers.ownerKeys

/-- R134, R139, R140: a frame is read back as it stands in configuration memory, or REGION_QUIESCING while its group is being
written; pages 0x00 and 0x02 are read whole; a frame address outside R96 and an undefined page are Invalid Field in Command. -/
def Obligations.FrameReadback : Prop :=
  ∀ (s t : State) (c : Cmd), Starts s c .adminOwner t →
    (∀ k f, k < 32 → f < 2048 → bits c.cdw10.toNat 7 0 = 1 → c.cdw11.toNat = 65536 * k + f →
      (∀ r, t.pers.job = .writing r (k / 8) → ∃ u, exec (.personalityStatus c) s = .next u ∧ Ends s u c .regionQuiescing)
      ∧ ((∀ r, t.pers.job ≠ .writing r (k / 8)) → exec (.personalityStatus c) s
        = .next ((t.dataOut c.fn c.prp1 c.prp2 (bytesOfLe 512 ((t.pers.slices.getD k {}).frame f).toNat)).complete c.ref .success)))
    ∧ (bits c.cdw10.toNat 7 0 = 0 → exec (.personalityStatus c) s
        = .next ((t.dataOut c.fn c.prp1 c.prp2 t.persSummary).complete c.ref .success))
    ∧ (bits c.cdw10.toNat 7 0 = 2 → exec (.personalityStatus c) s
        = .next ((t.dataOut c.fn c.prp1 c.prp2 t.persKeys).complete c.ref .success))
    ∧ (2 < bits c.cdw10.toNat 7 0 → ∃ u, exec (.personalityStatus c) s = .next u ∧ Ends s u c .invalidField)
    ∧ (bits c.cdw10.toNat 7 0 = 1 → bits c.cdw11.toNat 15 11 ≠ 0 → ∃ u,
      exec (.personalityStatus c) s = .next u ∧ Ends s u c .invalidField)

/-- The personality's timers (R124, R126, R136, R137): a deadline out of range, and any write once the deadline is met or missed,
leaves `DEADLINE_MS`; a deadline whose moment has come is missed: it sets `EXPIRED` and is logged. A running shell timer expires when
its count has passed, and starts over where it is periodic; an expiry of a timer whose slice is gated is held, one per timer, and a
further one is an overrun; one that the logic takes is delivered. -/
def Obligations.PersonalityTimers : Prop :=
  (∀ (s : State),
    (∀ v : Dword, bits v.toNat 15 0 < 1000 ∨ 60000 < bits v.toNat 15 0 → exec (.persDeadlineWrite v) s = .next s)
    ∧ (∀ v : Dword, s.pers.expired = true ∨ s.pers.activeKind = 2 → exec (.persDeadlineWrite v) s = .next s)
    ∧ (∀ v : Dword, s.power.stage = .on → s.power.perst = false → 1000 ≤ bits v.toNat 15 0 → bits v.toNat 15 0 ≤ 60000 →
      s.pers.expired = false → s.pers.activeKind = 1 →
      ∀ a, s.pers.armedAt = some a → s.now < a + 1000 * bits v.toNat 15 0 →
      exec (.persDeadlineWrite v) s = .next { s with pers := { s.pers with deadlineMs := bits v.toNat 15 0 } })
    ∧ (∀ (v : Dword) (a : Nat), s.power.stage = .on → s.power.perst = false → 1000 ≤ bits v.toNat 15 0 →
      bits v.toNat 15 0 ≤ 60000 → s.deadlineRuns = true → s.pers.armedAt = some a → a + 1000 * bits v.toNat 15 0 ≤ s.now →
      ∃ t, exec (.persDeadlineWrite v) s = .next t
        ∧ t.pers = { s.pers with deadlineMs := bits v.toNat 15 0, expired := true }
        ∧ t.logs.c8.nextSeq = s.logs.c8.nextSeq + 1)
    ∧ (∀ a, s.deadlineRuns = true → s.pers.armedAt = some a →
      (a + 1000 * s.pers.deadlineMs ≤ s.now → ∃ t, exec .ownerDeadlineExpiry s = .next t
        ∧ t.pers = { s.pers with expired := true } ∧ t.logs.c8.nextSeq = s.logs.c8.nextSeq + 1)
      ∧ (s.now < a + 1000 * s.pers.deadlineMs → exec .ownerDeadlineExpiry s = .next s))
    ∧ (s.deadlineRuns = false → exec .ownerDeadlineExpiry s = .next s))
  ∧ ∀ (s : State) (k n : Nat) (taken : Bool) (x : Slice) (y : ShellTimer), s.pers.slices[k]? = some x → x.timers[n]? = some y →
    (y.running = false ∨ s.now < y.since + y.count → exec (.shellTimerExpiry k n taken) s = .next s)
    ∧ (y.running = true → y.since + y.count ≤ s.now →
      ∃ t z, exec (.shellTimerExpiry k n taken) s = .next t ∧ t.pers.slices[k]? = some z
        ∧ z.timers[n]? = some { y with
            count := if y.periodic then y.reload else 0, since := s.now, running := y.periodic
            held := y.held || x.clockGated || !taken }
        ∧ (∀ j, j ≠ n → z.timers[j]? = x.timers[j]?)
        ∧ (x.clockGated = true → z.timerIn = x.timerIn
          ∧ t.pers.shellOverruns = (if y.held then satAdd32 s.pers.shellOverruns 1 else s.pers.shellOverruns))
        ∧ (x.clockGated = false → t.pers.shellOverruns = s.pers.shellOverruns
          ∧ z.timerIn = (if taken then x.timerIn ||| BitVec.ofNat 16 (2 ^ n) else x.timerIn))
        ∧ (∀ j, j ≠ k → t.pers.slices[j]? = s.pers.slices[j]?) ∧ { t with pers := s.pers } = s)

/-- R97, R141, R142: after a scrub pass every scrubbed frame of a slice that is not being exchanged equals its golden copy, with the
check bits that belong to it, whether DRAM is initialised or not, and the golden copies are as before. -/
def Obligations.ScrubRestoresFrames : Prop :=
  ∀ (s : State) (upsets : List (Nat × Nat × Nat)), s.pers.inPlace = true → s.power.stage = .on → s.pers.slices.length = 32 →
    ∃ t, exec (.configScrubPass upsets) s = .next t ∧ t.pers.scrubPasses = satAdd32 s.pers.scrubPasses 1
      ∧ ∀ k, k < 32 → ∃ x y, s.pers.slices[k]? = some x ∧ t.pers.slices[k]? = some y ∧ y.golden = x.golden
        ∧ (x.clockGated = false → ∀ f, scrubbed f = true → y.frame f = y.goldenFrame f
          ∧ y.checks f = frameChecks (y.goldenFrame f))

/-! ### Chapter 05: controllers, queues, events, logs, features -/

/-- A controller starts and shuts down (R11, R13, R44, R46): a write of `CC` stores its fields, of which reserved bits read zero and
one that would take a reserved encoding keeps its value; `CSTS.RDY` rises when firmware, a base structure, DRAM, the maps and the
hold-up bank (or its 1 s limit) are there, and the admin queues take the sizes of `AQA`; a shutdown that is normal or abrupt
ends with `SHST` 2 and the timestamp saved. -/
def Obligations.ControllerStart : Prop :=
  ∀ (s : State) (fn : Nat) (cc : Dword), s.power.stage = .on → s.power.perst = false → s.fnLive fn = true →
    fn < s.pcie.ctrls.length →
    ((s.ctrl fn).cc.getLsbD 0 = false → cc.getLsbD 0 = true →
      let new := ccWritten (s.ctrl fn).cc cc.toNat
      exec (.controllerEnable fn cc) s = .next (s.modCtrl fn fun k => { k with cc := new, enabling := true })
        ∧ new.getLsbD 0 = true ∧ bits new.toNat 3 1 = 0 ∧ bits new.toNat 31 24 = 0
        ∧ (∀ f ∈ [(13, 11, 1), (15, 14, 2), (19, 16, 15), (23, 20, 15)], bits new.toNat f.1 f.2.1
            = if bits cc.toNat f.1 f.2.1 ≤ f.2.2 then bits cc.toNat f.1 f.2.1 else bits (s.ctrl fn).cc.toNat f.1 f.2.1)
        ∧ ∀ f ∈ [(6, 4), (10, 7)], bits new.toNat f.1 f.2
            = if bits cc.toNat f.1 f.2 = 0 then 0 else bits (s.ctrl fn).cc.toNat f.1 f.2)
    ∧ ((s.ctrl fn).enabling = true → s.svc.running = true → s.pers.inPlace = true → s.power.dramReady = true →
      (∀ g ∈ s.media.groups, g.mapLoaded = true) →
      (s.power.charged = true ∨ s.power.chargeTimedOut = true ∨ s.power.chargeStart + 1000000 ≤ s.now) →
      ∃ t, exec (.cstsReady fn) s = .next t ∧ (t.ctrl fn).ready = true
        ∧ (t.ctrl fn).sqs = [{ qid := 0, base := (s.ctrl fn).asq, size := bits (s.ctrl fn).aqa.toNat 11 0 + 1 }]
        ∧ (t.ctrl fn).cqs
            = [{ qid := 0, base := (s.ctrl fn).acq, size := bits (s.ctrl fn).aqa.toNat 27 16 + 1, ien := true }]
        ∧ { t with pcie := s.pcie } = s ∧ ∀ g, g ≠ fn → t.ctrl g = s.ctrl g)
    ∧ (s.svc.runSlot ≠ 2 → s.pers.inPlace = false ∨ s.power.dramReady = false ∨ (∃ g ∈ s.media.groups, g.mapLoaded = false)
        ∨ (s.power.charged = false ∧ s.power.chargeTimedOut = false ∧ s.now < s.power.chargeStart + 1000000) →
      exec (.cstsReady fn) s = .next s)
    ∧ ((s.ctrl fn).ready = true → cc.getLsbD 0 = true → bits cc.toNat 15 14 = 1 ∨ bits cc.toNat 15 14 = 2 →
      (s.ctrl fn).shst = 0 → ∃ t, exec (.shutdownNotification fn cc) s = .next t ∧ (t.ctrl fn).shst = 2
        ∧ (t.ctrl fn).cc = ccWritten (s.ctrl fn).cc cc.toNat ∧ t.svc.nor.savedTime = s.now ∧ t.power = s.power)

/-- Doorbells and fetching (R153, R167, R168): a doorbell sets the tail or the head of the queue it names when the value is an
entry of it; a turn of a controller with admin entries, all of opcodes that the module has, fetches up to its Arbitration Burst from the
admin queue, oldest first; nothing is fetched once fetching has stopped. -/
def Obligations.DoorbellsAndFetch : Prop :=
  (∀ (s : State) (fn qid value : Nat), s.power.stage = .on → (s.ctrl fn).ready = true →
    (∃ t, exec (.sqTailDoorbell fn qid value) s = .next t ∧ { t with pcie := s.pcie } = s
      ∧ (t.ctrl fn).sqs.length = (s.ctrl fn).sqs.length ∧ (t.ctrl fn).cqs = (s.ctrl fn).cqs
      ∧ ∀ (i : Nat) (q : Sq), (s.ctrl fn).sqs[i]? = some q → (t.ctrl fn).sqs[i]?
          = some { q with tail := if q.qid = qid ∧ value < q.size then value else q.tail })
    ∧ ((s.ctrl fn).unposted = [] →
      ∃ t, exec (.cqHeadDoorbell fn qid value) s = .next t ∧ { t with pcie := s.pcie } = s
        ∧ (t.ctrl fn).sqs = (s.ctrl fn).sqs
        ∧ ∀ (i : Nat) (q : Cq), (s.ctrl fn).cqs[i]? = some q → (t.ctrl fn).cqs[i]?
            = some { q with head := if q.qid = qid ∧ value < q.size then value else q.head }))
  ∧ (∀ (s : State) (q : Sq), s.power.stage = .on → s.pcie.fetchStopped = false →
      let fn := (s.pcie.lastFn + 1) % 17
      (s.ctrl fn).ready = true → (s.ctrl fn).shst = 0 → (s.ctrl fn).sqs.find? (fun x => x.qid == 0) = some q →
      q.head < q.size → 0 < q.entries → (s.ctrl fn).features.ab < 7 →
      (∀ g, ∀ o ∈ (s.ctrl g).outstanding, o.started = true ∨ opcodeKnown o.cmd.sqid o.cmd.opcode = true) →
      (∀ j, opcodeKnown 0 (Cmd.ofBytes fn 0 (s.hostGet (q.base.toNat + 64 * ((q.head + j) % q.size)) 64)).opcode = true) →
      ∃ t new, exec .commandFetch s = .next t ∧ t.pcie.lastFn = fn
        ∧ (t.ctrl fn).outstanding = (s.ctrl fn).outstanding ++ new
        ∧ new.length = min (2 ^ (s.ctrl fn).features.ab) q.entries
        ∧ (∀ x ∈ new, x.started = false ∧ x.fetchedAt = s.now ∧ x.cmd.fn = fn ∧ x.cmd.sqid = 0)
        ∧ (new.map (·.cmd)).head? = some (Cmd.ofBytes fn 0 (s.hostGet (q.base.toNat + 64 * q.head) 64))
        ∧ t.pcie.completions = s.pcie.completions ∧ t.tenants = s.tenants ∧ t.media = s.media)
  ∧ ∀ s : State, s.pcie.fetchStopped = true → exec .commandFetch s = .next s

/-- Creating and deleting I/O queues (R163, R164, R165): a queue within the quota is created with its `COMPUTE` bit; a vector
beyond the function's count is Invalid Interrupt Vector; a completion queue goes only when no submission queue uses it; the
entries of a deleted submission queue that have not started are aborted. -/
def Obligations.IoQueues : Prop :=
  ∀ (s t : State) (c : Cmd), Starts s c .admin t →
    (qidOf c ≠ 0 → qidOf c ≤ s.queueQuota c.fn → (∀ q ∈ (s.ctrl c.fn).cqs, q.qid ≠ qidOf c) → 2 ≤ qsizeOf c → qsizeOf c ≤ 4096 →
      c.cdw11.getLsbD 0 = true →
      (bits c.cdw11.toNat 31 16 < s.vectors c.fn → ∃ u, exec (.createIoCq c) s = .next u ∧ Ends s u c .success
        ∧ (∃ q ∈ (u.ctrl c.fn).cqs, q.qid = qidOf c ∧ q.base = c.prp1 ∧ q.size = qsizeOf c
            ∧ q.vector = bits c.cdw11.toNat 31 16 ∧ q.ien = c.cdw11.getLsbD 1)
        ∧ (u.ctrl c.fn).sqs = (s.ctrl c.fn).sqs)
      ∧ (s.vectors c.fn ≤ bits c.cdw11.toNat 31 16 → ∃ u, exec (.createIoCq c) s = .next u
        ∧ Ends s u c .invalidVector ∧ ∀ q ∈ (u.ctrl c.fn).cqs, q.qid ≠ qidOf c))
    ∧ (qidOf c ≠ 0 → qidOf c ≤ s.queueQuota c.fn → (∀ q ∈ (s.ctrl c.fn).sqs, q.qid ≠ qidOf c) → 2 ≤ qsizeOf c → qsizeOf c ≤ 4096 →
      c.cdw11.getLsbD 0 = true → bits c.cdw11.toNat 31 16 ≠ 0 → bits c.cdw11.toNat 31 16 ≤ s.queueQuota c.fn →
      (∃ q ∈ (s.ctrl c.fn).cqs, q.qid = bits c.cdw11.toNat 31 16) →
      ∃ u, exec (.createIoSq c) s = .next u ∧ Ends s u c .success ∧ (u.ctrl c.fn).sqs = (s.ctrl c.fn).sqs ++
        [{ qid := qidOf c, base := c.prp1, size := qsizeOf c, cqid := bits c.cdw11.toNat 31 16,
           prio := prioOf (bits c.cdw11.toNat 2 1), compute := c.cdw11.getLsbD 3 }])
    ∧ (qidOf c ≠ 0 → (∃ q ∈ (s.ctrl c.fn).sqs, q.qid = qidOf c) →
      (∀ o ∈ (s.ctrl c.fn).outstanding, o.cmd.sqid = qidOf c → o.started = false) →
      (∀ o ∈ (s.ctrl c.fn).outstanding, o.cmd.fn = c.fn) →
      ∃ u, exec (.deleteIoSq c) s = .next u ∧ Ends s u c .success
        ∧ (u.ctrl c.fn).sqs = (s.ctrl c.fn).sqs.filter (·.qid != qidOf c)
        ∧ (∀ o ∈ (s.ctrl c.fn).outstanding, o.cmd.sqid = qidOf c → Ends s u o.cmd .abortedSqDeletion))
    ∧ (qidOf c ≠ 0 → (∃ q ∈ (s.ctrl c.fn).cqs, q.qid = qidOf c) →
      ((∀ q ∈ (s.ctrl c.fn).sqs, q.cqid ≠ qidOf c) → ∃ u, exec (.deleteIoCq c) s = .next u ∧ Ends s u c .success
        ∧ ∀ q ∈ (u.ctrl c.fn).cqs, q.qid ≠ qidOf c)
      ∧ ((∃ q ∈ (s.ctrl c.fn).sqs, q.cqid = qidOf c) → ∃ u, exec (.deleteIoCq c) s = .next u
        ∧ Ends s u c .invalidQueueDeletion ∧ ∃ q ∈ (u.ctrl c.fn).cqs, q.qid = qidOf c))

/-- Log pages and their events (R191, R192, R193): Get Log Page returns the page from its offset, zeros past its end, and with
Retain Asynchronous Event 1 leaves the held-back codes; entries of page 0xC3 that their function reads count as read; a VF reads only the pages 0xC3 and 0xC6 of the vendor's; an offset that
is no multiple of 4 is Invalid Field. While a code is held back on a function, no further event of it is raised there. -/
def Obligations.LogPages : Prop :=
  (∀ (s t : State) (c : Cmd) (page : List Byte), Starts s c .admin t →
    let lid := bits c.cdw10.toNat 7 0
    let n := 4 * (bits c.cdw10.toNat 31 16 + 65536 * bits c.cdw11.toNat 15 0 + 1)
    let off := c.cdw12.toNat + 2 ^ 32 * c.cdw13.toNat
    n ≤ 16777216 →
    (t.logPage c.fn lid = some page → off % 4 = 0 → off ≤ page.length →
      (c.cdw10.getLsbD 15 = true → lid ≠ 0xC3 →
        exec (.getLogPage c) s = .next ((t.dataOut c.fn c.prp1 c.prp2 (padTo n (page.drop off))).complete c.ref .success))
      ∧ (c.cdw10.getLsbD 15 = false → ∃ u, exec (.getLogPage c) s = .next u ∧ Ends s u c .success
        ∧ (u.ctrl c.fn).held = (s.ctrl c.fn).held.filter (· != lid))
      ∧ (lid = 0xC3 → off = 0 → page.length ≤ n → ∃ u, exec (.getLogPage c) s = .next u ∧ Ends s u c .success
        ∧ ∀ d ∈ u.logs.deferred, d.fn = c.fn → d.readByOwner = true))
    ∧ (t.logPage c.fn lid = some page → off % 4 ≠ 0 →
      ∃ u, exec (.getLogPage c) s = .next u ∧ Ends s u c .invalidField)
    ∧ (c.fn ≠ 0 → lid ∈ [0xC0, 0xC1, 0xC2, 0xC4, 0xC5, 0xC7, 0xC8, 0x03, 0x06, 0x81] →
      ∃ u, exec (.getLogPage c) s = .next u ∧ Ends s u c .invalidLogPage))
  ∧ (∀ (s : State) (page : Nat) (body : List Byte) (fault : Bool), page ∈ (s.ctrl 0).held →
      (s.log page body fault).pcie = s.pcie ∧ (s.log page body fault).logs.deferred = s.logs.deferred)
  ∧ ∀ (s : State) (page : Nat), page ∈ [0xC0, 0xC1, 0xC2, 0xC4, 0xC5, 0xC6, 0xC7, 0xC8] →
      (s.logs.page page).nextSeq ≤ 2 ^ 64 → (s.logs.page page).entries.length < 2 ^ 32 →
      leOfBytes ((s.vendorPage 0 page).take 8) = (s.logs.page page).nextSeq - 1
        ∧ leOfBytes (((s.vendorPage 0 page).drop 16).take 4) = (s.logs.page page).entries.length
        ∧ leOfBytes (((s.vendorPage 0 page).drop 20).take 2) = (if page = 0xC7 then 32 else 64)

/-- Features (R157, R163, R166, R184 to R186): Arbitration and Command Timeouts take their fields; a timeout below `FLOOR_MS` or
above 60,000, and a floor that would break the retry-budget rule or is set on a VF, are Invalid Field and change nothing; Get
Features returns what was set, and Number of Queues the quota less one. -/
def Obligations.FeatureValues : Prop :=
  ∀ (s t : State) (c : Cmd), Starts s c .admin t →
    let v := c.cdw11.toNat
    (c.cdw10.getLsbD 31 = false →
      (∃ u, exec (.setArbitration c) s = .next u ∧ Ends s u c .success ∧ (u.ctrl c.fn).features =
        { (s.ctrl c.fn).features with ab := bits v 2 0, lpw := bits v 15 8, mpw := bits v 23 16, hpw := bits v 31 24 })
      ∧ (s.pcie.floorMs ≤ bits v 15 0 → bits v 15 0 ≤ 60000 → s.pcie.floorMs ≤ bits v 31 16 → bits v 31 16 ≤ 60000 →
        ∃ u, exec (.setCommandTimeouts c) s = .next u ∧ Ends s u c .success ∧ u.pcie.floorMs = s.pcie.floorMs
          ∧ (u.ctrl c.fn).features = { (s.ctrl c.fn).features with deadlineMs := bits v 15 0, nvmTimeoutMs := bits v 31 16 })
      ∧ (bits v 15 0 < s.pcie.floorMs ∨ 60000 < bits v 31 16 → ∃ u, exec (.setCommandTimeouts c) s = .next u
        ∧ Ends s u c .invalidField ∧ (u.ctrl c.fn).features = (s.ctrl c.fn).features)
      ∧ (c.fn = 0 → 1 ≤ bits v 15 0 → bits v 15 0 ≤ 1000 → t.floorHolds (bits v 15 0) = true →
        ∃ u, exec (.setDeadlineFloor c) s = .next u ∧ Ends s u c .success ∧ u.pcie.floorMs = bits v 15 0)
      ∧ (c.fn ≠ 0 ∨ 1000 < bits v 15 0 ∨ 1000 * bits v 15 0 ≤ s.media.budgetUs → ∃ u, exec (.setDeadlineFloor c) s = .next u
        ∧ Ends s u c .invalidField ∧ u.pcie.floorMs = s.pcie.floorMs)
      ∧ (featureKnown (bits c.cdw10.toNat 7 0) = false → ∃ u, exec (.setFeatures c) s = .next u ∧ Ends s u c .invalidField
        ∧ (u.ctrl c.fn).features = (s.ctrl c.fn).features)
      ∧ (bits c.cdw10.toNat 7 0 = 0x0B → ∃ u, exec (.setFeatures c) s = .next u ∧ Ends s u c .success
        ∧ (u.ctrl c.fn).features = { (s.ctrl c.fn).features with asyncCfg := c.cdw11 })
      ∧ (bits c.cdw10.toNat 7 0 = 0x07 → ∃ u, exec (.setFeatures c) s = .next u
        ∧ Ends s u c .success (s.queueQuota c.fn - 1 + 65536 * (s.queueQuota c.fn - 1))
        ∧ (u.ctrl c.fn).features = (s.ctrl c.fn).features))
    ∧ (bits c.cdw10.toNat 10 8 = 0 → bits c.cdw10.toNat 7 0 = 0xC0 → ∃ u, exec (.getFeatures c) s = .next u
        ∧ Ends s u c .success ((s.ctrl c.fn).features.deadlineMs + 2 ^ 16 * (s.ctrl c.fn).features.nvmTimeoutMs))
    ∧ (bits c.cdw10.toNat 10 8 = 0 → bits c.cdw10.toNat 7 0 = 0x07 → ∃ u, exec (.getFeatures c) s = .next u
        ∧ Ends s u c .success (s.queueQuota c.fn - 1 + 65536 * (s.queueQuota c.fn - 1)))

/-- Asynchronous events and Abort (R191): a request is held while no event waits, completes the oldest event that waits, and
the ninth is refused; Abort ends a command that has not started, and leaves any other with DW0 bit 0 set. -/
def Obligations.EventsAndAbort : Prop :=
  ∀ (s t : State) (c : Cmd), Starts s c .admin t →
    ((s.ctrl c.fn).aers.length < 8 → (s.ctrl c.fn).waiting = [] → ∃ u, exec (.asynchronousEventRequest c) s = .next u
      ∧ NoneEnds s u ∧ (u.ctrl c.fn).aers = (s.ctrl c.fn).aers ++ [c.cid])
    ∧ (∀ e rest, (s.ctrl c.fn).aers.length < 8 → (s.ctrl c.fn).waiting = e :: rest →
      ∃ u, exec (.asynchronousEventRequest c) s = .next u ∧ Ends s u c .success (e.aet + 256 * e.info + 65536 * e.page)
        ∧ (u.ctrl c.fn).waiting = rest ∧ (u.ctrl c.fn).aers = (s.ctrl c.fn).aers)
    ∧ (8 ≤ (s.ctrl c.fn).aers.length → ∃ u, exec (.asynchronousEventRequest c) s = .next u ∧ Ends s u c .aerLimit)
    ∧ (let target : CmdRef := { fn := c.fn, sqid := bits c.cdw10.toNat 15 0, cid := bits c.cdw10.toNat 31 16 }
       (∀ o ∈ (s.ctrl c.fn).outstanding, o.cmd.opcode = 0x08 → o.cmd.ref = c.ref) →
       (∀ o ∈ (s.ctrl c.fn).outstanding, o.cmd.ref = target → o.started = false → target ≠ c.ref →
         ∃ u, exec (.abort c) s = .next u ∧ Ends s u o.cmd .abortRequested ∧ Ends s u c .success 0
           ∧ ∀ x ∈ (u.ctrl c.fn).outstanding, x.cmd.ref ≠ target)
       ∧ ((∀ o ∈ (s.ctrl c.fn).outstanding, o.cmd.ref ≠ target) → target ≠ c.ref → target.sqid ≠ 0 →
         ∃ u, exec (.abort c) s = .next u ∧ Ends s u c .success 1))

/-- Identify and NVMe-MI (R156, R162): Identify Controller states `MDTS` 12, `ACL` 3, `AERL` 7, `SGLS` 0 and 32 namespaces; over
the sideband the supported commands leave a reply and change nothing else but the SMBus frequency; other tunneled commands are
refused. -/
def Obligations.IdentifyAndMi : Prop :=
  (∀ (s t : State) (c : Cmd), Starts s c .admin t →
    (bits c.cdw10.toNat 7 0 = 1 → exec (.identify c) s
      = .next ((t.dataOut c.fn c.prp1 c.prp2 (t.identifyController c.fn)).complete c.ref .success))
    ∧ (t.identifyController c.fn)[77]? = some 12 ∧ (t.identifyController c.fn)[258]? = some 3
    ∧ (t.identifyController c.fn)[259]? = some 7 ∧ (t.identifyController c.fn)[525]? = some 0
    ∧ (t.identifyController c.fn)[516]? = some 32 ∧ (t.identifyController c.fn)[536]? = some 0)
  ∧ ∀ s : State, s.miAnswers = true →
    (∀ dtype portId ctrlId first max offset length config port value clear,
      ∀ x ∈ [Instr.miReadDataStructure dtype portId ctrlId, .miSubsystemHealthPoll clear, .miControllerHealthPoll first max clear,
          .miConfigurationGet config port, .miVpdRead offset length, .miConfigurationSet config port value],
        ∃ t, exec x s = .next t ∧ { t with pcie := s.pcie } = s ∧ 4 ≤ t.pcie.miReply.length
          ∧ ∃ khz, { t.pcie with miReply := s.pcie.miReply, smbusKhz := khz } = s.pcie)
    ∧ (∃ t, exec (.miConfigurationSet 1 1 2) s = .next t ∧ t.pcie.smbusKhz = 400 ∧ t.pcie.miReply.head? = some 0)
    ∧ (∃ t, exec (.miConfigurationSet 1 1 1) s = .next t ∧ t.pcie.smbusKhz = 100 ∧ t.pcie.miReply.head? = some 0)
    ∧ (∀ first max clear, ∃ t, exec (.miControllerHealthPoll first max clear) s = .next t ∧ t.pcie.miReply
        = [0, 0, 0] ++ bytesOfLe 1 (((s.controllers first).take max).length) ++ ((s.controllers first).take max).flatMap s.miController)
    ∧ (∀ offset length, ∃ t, exec (.miVpdRead offset length) s = .next t ∧ t.pcie.miReply.length = 4 + length)
    ∧ ∀ c : Cmd, (c.opcode = 0x06 → ∃ t, exec (.miTunneledAdmin c) s = .next t ∧ t.pcie.miReply
          = [0, 0, 0, 0] ++ bytesOfLe 8 0 ++ bytesOfLe 4 (65536 * (2 * ((s.identifyData 0 c).1.sc + 256 * (s.identifyData 0 c).1.sct)))
            ++ (s.identifyData 0 c).2)
        ∧ (c.opcode ≠ 0x06 → c.opcode ≠ 0x02 → ∃ t, exec (.miTunneledAdmin c) s = .next t
          ∧ t.pcie.miReply = [3, 0, 0, 0])

/-- A timeout (R187, R188, R190, R201): a command of an I/O queue that no invocation serves completes with DEADLINE_EXCEEDED once
its time has passed since its fetch, and DW0 carries the number of the oldest fault whose recovery runs under it, or 0; the health
log has an entry of the same number. An invocation is stopped with the same status once its deadline has come. Before its time
nothing happens. -/
def Obligations.CommandTimeouts : Prop :=
  ∀ (s : State) (o : Outstanding) (q : Sq) (ms : Nat), s.power.stage = .on → o.cmd.sqid ≠ 0 →
    (s.ctrl o.cmd.fn).outstanding.find? (fun x => x.cmd.ref == o.cmd.ref) = some o →
    (s.ctrl o.cmd.fn).sqs.find? (fun x => x.qid == o.cmd.sqid) = some q → s.timeoutMs o.cmd q.compute = some ms →
    ((∀ i ∈ s.invocations, i.ref ≠ o.cmd.ref) →
      (o.fetchedAt + 1000 * ms ≤ s.now →
        ∃ t, exec (.commandTimeout o.cmd.ref) s = .next t ∧ Ends s t o.cmd .deadlineExceeded (s.runningFault o.cmd.ref)
          ∧ t.logs.c0.nextSeq = s.logs.c0.nextSeq + 1 ∧ (∀ x ∈ (t.ctrl o.cmd.fn).outstanding, x.cmd.ref ≠ o.cmd.ref)
          ∧ (∀ r ∈ t.media.reads, r.ref ≠ o.cmd.ref) ∧ t.invocations = s.invocations ∧ FlashKept s t)
      ∧ (s.now < o.fetchedAt + 1000 * ms → exec (.commandTimeout o.cmd.ref) s = .next s))
    ∧ ∀ i d, s.invocations.find? (fun i => i.ref == o.cmd.ref) = some i → i.deadlineAt = some d → i.phase ≠ .stopping →
      (s.now < d → exec (.commandTimeout o.cmd.ref) s = .next s)
      ∧ (d ≤ s.now → i.tag = 0 → i.silent = false → ∃ t, exec (.commandTimeout o.cmd.ref) s = .next t
        ∧ EndsRef s t i.ref (.vendor 0x90) (s.runningFault o.cmd.ref) (i.flags.toNat)
        ∧ (∀ j ∈ t.invocations, j.ref ≠ i.ref) ∧ t.ctrs.values = s.ctrs.values)

/-- R170: a command with `ORD` = 1 starts only after every earlier command of its submission queue has had its completion
posted, and no later command of that queue starts until its own is posted. -/
def Obligations.OrderedCommands : Prop :=
  ∀ (s : State) (c : Cmd), c.sqid ≠ 0 →
    ((c.cdw0.getLsbD 10 = true ∧ ((s.ctrl c.fn).earlier c ≠ [] ∨ ∃ x ∈ (s.ctrl c.fn).unposted, x.sqid = c.sqid))
      ∨ (∃ o ∈ (s.ctrl c.fn).earlier c, o.cmd.cdw0.getLsbD 10 = true)
      ∨ ∃ x ∈ (s.ctrl c.fn).unposted, x.sqid = c.sqid ∧ x.ord = true) →
    ∀ x ∈ [Instr.flush c, .write c, .read c, .datasetManagement c, .admitModel c, .release c, .invoke c, .search c, .extract c,
        .service c, .alloc c, .free c, .counterRead c, .counterBump c, .counterWaitGe c, .runBegin c, .runEnd c,
        .publishBegin c, .publishData c, .publishVerify c, .publishCommit c, .publishAbandon c, .mediaWrite c, .mediaRead c,
        .mediaErase c], exec x s = .next s

/-- R177: while an entry of page 0xC3 that its function has not read gates a namespace, every I/O command of the function that
names it, or all namespaces, completes with DEFERRED_WRITE_ERROR and is not executed; DW0 carries the sequence number of the
oldest such entry, and the first such command is its carrier. An entry is read when a Get Log Page of 0xC3 on its function
returns it, and the namespace stays gated until every entry for it has been returned. -/
def Obligations.DeferredGate : Prop :=
  (∀ (s t : State) (c : Cmd) (o : Outstanding), s.begin c = some t → t.refusal c .nvm = none →
    (t.ctrl c.fn).outstanding.find? (fun o => o.cmd.ref == c.ref) = some o →
    s.logs.deferred.Pairwise (fun a b => a.seq < b.seq) →
    -- the entries that gate the command: those written before it was fetched (R178) and not read
    let gates (e : Deferred) : Prop := e ∈ s.logs.deferred ∧ e.fn = c.fn ∧ e.readByOwner = false ∧ e.seq ≤ o.deferredSeen
      ∧ (e.nsid = c.nsid.toNat ∨ c.nsid = 0xFFFFFFFF)
    (∀ d, gates d → (∀ e, gates e → d.seq ≤ e.seq) →
      ∀ x ∈ [Instr.flush c, .write c, .read c, .datasetManagement c],
        ∃ u, exec x s = .next u ∧ Ends s u c .deferredWriteError (d.seq % 2 ^ 32) ∧ u.media = s.media
          ∧ u.logs.deferred = s.logs.deferred.map fun e =>
            if e.seq = d.seq ∧ e.carried = false then { e with carried := true, carrierCid := c.cid, carrierSqid := c.sqid } else e)
    ∧ ((∀ e, ¬ gates e) → t.gatedBy c = none))
  ∧ ∀ (s t : State) (c : Cmd) (page : List Byte), Starts s c .admin t → s.logs.deferred.Pairwise (fun a b => a.seq < b.seq) →
    bits c.cdw10.toNat 7 0 = 0xC3 → t.logPage c.fn 0xC3 = some page →
    let n := 4 * (bits c.cdw10.toNat 31 16 + 65536 * bits c.cdw11.toNat 15 0 + 1)
    let off := c.cdw12.toNat + 2 ^ 32 * c.cdw13.toNat
    n ≤ 16777216 → off % 4 = 0 → off ≤ page.length →
    let returned (e : Deferred) : Prop := ∃ i, (s.deferredSeenBy c.fn)[i]? = some e ∧ e.fn = c.fn
      ∧ off ≤ 64 + 64 * i ∧ 128 + 64 * i ≤ off + n
    ∃ u, exec (.getLogPage c) s = .next u ∧ Ends s u c .success
      ∧ ∀ (j : Nat) e, s.logs.deferred[j]? = some e →
          (returned e → u.logs.deferred[j]? = some { e with readByOwner := true }) ∧ (¬ returned e → u.logs.deferred[j]? = some e)

/-- Read, Write, Flush and Deallocate (R183, R493, R498, R499, R514): blocks past the end are LBA Out of Range; blocks that lie
in the buffer, or were never written, are returned at once; a Write that fits under the dirty limit is acknowledged from the
buffer; a Flush with nothing of its function to program succeeds; Deallocate unmaps every unit that a range covers whole. -/
def Obligations.NvmCommands : Prop :=
  ∀ (s t : State) (c : Cmd) (n : Namespace), Starts s c .nvm t → s.target? c = some n →
    (nvmNlb c ≤ 4096 → n.blocks < nvmSlba c + nvmNlb c → ∀ x ∈ [Instr.read c, .write c],
      ∃ u, exec x s = .next u ∧ Ends s u c .lbaRange ∧ u.media = s.media)
    ∧ (nvmNlb c ≤ 4096 → nvmSlba c + nvmNlb c ≤ n.blocks →
      ((∀ l, nvmSlba c ≤ l → l < nvmSlba c + nvmNlb c → ∃ bs, s.locate c.fn n.nsid l = .here bs) →
        ∃ u, exec (.read c) s = .next u ∧ Ends s u c .success ∧ { u.media with mapCache := s.media.mapCache } = s.media
          ∧ (nvmNlb c = 1 → ∀ bs, s.locate c.fn n.nsid (nvmSlba c) = .here bs →
              let x := if (s.buffered c.fn n.nsid (nvmSlba c)).isNone then t.lookUp c.fn n.nsid (nvmSlba c / 4) else t
              u = (x.readBlock c.ref (nvmSlba c) (nvmSlba c) bs).complete c.ref .success))
      ∧ ((∃ l f, nvmSlba c ≤ l ∧ l < nvmSlba c + nvmNlb c ∧ s.locate c.fn n.nsid l = .lost f) →
        ∃ u, exec (.read c) s = .next u ∧ Ends s u c .unrecoveredRead)
      ∧ ((s.media.groups.getD n.group {}).readOnly = true → ∃ u, exec (.write c) s = .next u ∧ Ends s u c .writeProtected
        ∧ u.media = s.media)
      ∧ ((s.media.groups.getD n.group {}).readOnly = false → (s.media.groups.getD n.group {}).gcState ≠ 3 →
          s.writesThrough = false → 4096 * (s.dirtyBlocks + nvmNlb c) ≤ s.dirtyLimit →
        ∃ u, exec (.write c) s = .next u ∧ Ends s u c .success ∧ u.media.namespaces = s.media.namespaces))
    ∧ ((∀ b ∈ s.media.buffer, b.fn ≠ c.fn) → (∀ d ∈ s.logs.deferred, d.fn = c.fn → d.readByOwner = true) →
      ∃ u, exec (.flush c) s = .next u ∧ Ends s u c .success)
    ∧ (c.cdw11.getLsbD 2 = false → ∃ u, exec (.datasetManagement c) s = .next u ∧ Ends s u c .success ∧ u.media = s.media)
    ∧ (c.cdw11.getLsbD 2 = true →
      let nr := bits c.cdw10.toNat 7 0 + 1
      let bs := t.dataIn c.prp1 c.prp2 (16 * nr)
      let start (i : Nat) := readLe (listReader bs) (16 * i + 8) 8
      let len (i : Nat) := readLe (listReader bs) (16 * i + 4) 4
      (∀ i, i < nr → start i + len i ≤ n.blocks) →
      ∃ u, exec (.datasetManagement c) s = .next u ∧ Ends s u c .success
        ∧ ∀ x ∈ u.media.units, x.fn = c.fn → x.nsid = n.nsid →
            ∀ i, i < nr → ¬(start i ≤ 4 * x.unit ∧ 4 * x.unit + 4 ≤ start i + len i))

/-- Namespaces, Format and Sanitize (R157, R160, R161, R496, R518): a namespace is created in the LOG group with the most free
capacity, within the function's quota; it is attached to its own controller only; Format deallocates its units; Sanitize is
Block Erase only, waits for no open run, and clears every map and session. -/
def Obligations.NamespaceCommands : Prop :=
  ∀ (s t : State) (c : Cmd), Starts s c .admin t →
    (let d := t.dataIn c.prp1 c.prp2 4096
     let own := s.media.namespaces.filter (·.fn == c.fn)
     let nsze := readLe (listReader d) 0 8
     bits c.cdw10.toNat 3 0 = 0 → nsze ≠ 0 → readLe (listReader d) 8 8 = nsze → readLe (listReader d) 26 1 = 0 →
     ∀ i g, i < 32 → (∀ n ∈ own, n.nsid ≠ i + 1) → (∀ j, j < i → ∃ n ∈ own, n.nsid = j + 1) →
      pickBy (fun g => s.goodCapacity g - s.committed g) true (s.logGroupsOf c.fn) = some g →
      (own.foldl (fun a n => a + n.blocks) 0 + nsze ≤ s.nsQuota c.fn →
        ∃ u, exec (.namespaceManagement c) s = .next u ∧ Ends s u c .success (i + 1)
          ∧ u.media.namespaces = s.media.namespaces ++ [{ fn := c.fn, nsid := i + 1, blocks := nsze, group := g }])
      ∧ (s.nsQuota c.fn < own.foldl (fun a n => a + n.blocks) 0 + nsze →
        ∃ u, exec (.namespaceManagement c) s = .next u ∧ Ends s u c .nsCapacity ∧ u.media = s.media))
    ∧ (∀ n, bits c.cdw10.toNat 3 0 = 1 → c.nsid ≠ 0xFFFFFFFF → s.namespace? c.fn c.nsid.toNat = some n →
      ∃ u, exec (.namespaceManagement c) s = .next u ∧ Ends s u c .success
        ∧ (∀ x ∈ u.media.namespaces, ¬(x.fn = n.fn ∧ x.nsid = n.nsid))
        ∧ ∀ x ∈ u.media.units, ¬(x.fn = n.fn ∧ x.nsid = n.nsid))
    ∧ (∀ n, s.namespace? c.fn c.nsid.toNat = some n → bits c.cdw10.toNat 3 0 = 0 →
      (readLe (listReader (t.dataIn c.prp1 c.prp2 4096)) 0 2 = 1 → readLe (listReader (t.dataIn c.prp1 c.prp2 4096)) 2 2 = c.fn →
        n.attached = false → ∃ u, exec (.namespaceAttachment c) s = .next u ∧ Ends s u c .success
          ∧ u.namespace? c.fn c.nsid.toNat = some { n with attached := true })
      ∧ (readLe (listReader (t.dataIn c.prp1 c.prp2 4096)) 2 2 ≠ c.fn →
        ∃ u, exec (.namespaceAttachment c) s = .next u ∧ Ends s u c .invalidCtrlList ∧ u.media = s.media))
    ∧ (∀ n, bits c.cdw10.toNat 3 0 = 0 → bits c.cdw10.toNat 8 4 = 0 → c.nsid ≠ 0xFFFFFFFF →
      n ∈ s.media.namespaces → n.fn = c.fn → n.nsid = c.nsid.toNat →
      (bits c.cdw10.toNat 11 9 = 0 → ∃ u, exec (.formatNvm c) s = .next u ∧ Ends s u c .success
        ∧ (∀ x ∈ u.media.units, ¬(x.fn = c.fn ∧ x.nsid = c.nsid.toNat)) ∧ u.media.namespaces = s.media.namespaces)
      ∧ (bits c.cdw10.toNat 11 9 = 1 → ∃ u, exec (.formatNvm c) s = .next u ∧ Ends s u c .success)
      ∧ (2 ≤ bits c.cdw10.toNat 11 9 → ∃ u, exec (.formatNvm c) s = .next u ∧ Ends s u c .invalidField ∧ u.media = s.media))
    ∧ (c.fn = 0 → (bits c.cdw10.toNat 2 0 = 2 →
        ((∀ x ∈ s.tenants, x.runOpen = false) → ∃ u, exec (.sanitize c) s = .next u ∧ Ends s u c .success
          ∧ u.media.units = [] ∧ u.media.extents = [] ∧ u.media.superblocks = [] ∧ (∀ x ∈ u.tenants, x.session = none)
          ∧ u.media.namespaces = s.media.namespaces)
        ∧ ((∃ x ∈ s.tenants, x.runOpen = true) → ∃ u, exec (.sanitize c) s = .next u ∧ Ends s u c .sequenceError
          ∧ u.media = s.media))
      ∧ (bits c.cdw10.toNat 2 0 ≠ 2 → ∃ u, exec (.sanitize c) s = .next u ∧ Ends s u c .invalidField ∧ u.media = s.media))

/-- Register writes (R10 to R13, R154, R293, R615, R619, R620): an access that is neither 4 nor 8 bytes, or is not aligned, is
ignored; W1C bits clear where 1 is written; a reserved encoding leaves its field; RO registers stay; while a reset that reaches
CORE is in progress only the CLKPWR block takes writes; eight bytes act as two writes, the lower half first. -/
def Obligations.RegisterWrites : Prop :=
  ∀ s : State, s.power.stage = .on →
    (∀ w off bytes v, (∀ fn, w ≠ .config fn) → ¬((bytes = 4 ∧ off % 4 = 0) ∨ (bytes = 8 ∧ off % 8 = 0)) →
      exec (.registerWrite w off bytes v) s = .next s)
    ∧ (∀ v : Qword, exec (.registerWrite .module 0x2014 4 v) s = .next { s with power := { s.power with
        resetCause := s.power.resetCause &&& ~~~(BitVec.ofNat 9 (bits v.toNat 8 0)) } })
    ∧ (∀ v : Qword, bits v.toNat 4 0 ≤ 21 → exec (.registerWrite .module 0x2000 4 v) s
        = .next { s with power := { s.power with targetStep := bits v.toNat 4 0 } })
    ∧ (∀ v : Qword, 21 < bits v.toNat 4 0 → exec (.registerWrite .module 0x2000 4 v) s = .next s)
    ∧ (∀ v : Qword, bits v.toNat 11 0 < 500 ∨ 850 < bits v.toNat 11 0 → exec (.registerWrite .module 0x2008 4 v) s = .next s)
    ∧ (∀ off v, off % 4 = 0 → off < 0x1000 ∨ (0x3000 ≤ off ∧ off < 0x40000) ∨ 0x60000 ≤ off →
      exec (.registerWrite .module off 4 v) s = .next s)
    ∧ (s.power.perst = true → ∀ w off bytes v, w ≠ .module ∨ off < 0x2000 ∨ 0x3000 ≤ off →
      exec (.registerWrite w off bytes v) s = .next s)
    ∧ (∀ n r (v : Qword), s.power.perst = false → s.vfLive n = true → s.record n = some r → n < s.tenants.length →
      exec (.registerWrite (.tenant n) 0x1004 4 v) s = .next (s.modTenant n fun t => { t with page := bits v.toNat 1 0 }))
    ∧ ∀ w off t u (v : Qword), off % 8 = 0 → (∀ fn, w ≠ .config fn) →
      exec (.registerWrite w off 4 (v &&& 0xFFFFFFFF)) s = .next t → t.power.stage = .on →
      exec (.registerWrite w (off + 4) 4 (v >>> 32)) t = .next u → exec (.registerWrite w off 8 v) s = .next u

/-! ### Chapter 06: packages, buffers, invocations, counters, runs, publishing, direct media -/

/-- What every vendor I/O command meets first (R198, R199): on PF0 all but the direct-media commands are Invalid Command Opcode;
on a VF these three are DIRECT_MEDIA_PROTECTED; a non-zero `NSID` is Invalid Field, and so
is a reserved subcode of COUNTER or PUBLISH (step 3 of R199); a command that needs an open run gets RUN_NOT_OPEN without one. -/
def Obligations.VendorChecks : Prop :=
  ∀ (s t : State) (c : Cmd), s.begin c = some t → bits c.cdw0.toNat 9 8 = 0 → bits c.cdw0.toNat 15 14 = 0 →
    s.svc.runSlot ≠ 2 → c.sqid ≠ 0 → (∃ q ∈ (s.ctrl c.fn).sqs, q.qid = c.sqid ∧ q.compute = true) →
    (c.fn = 0 → ∀ x ∈ [Instr.admitModel c, .release c, .invoke c, .search c, .extract c, .service c, .alloc c, .free c,
        .counterRead c, .counterBump c, .counterWaitGe c, .runBegin c, .runEnd c, .publishBegin c, .publishData c,
        .publishVerify c, .publishCommit c, .publishAbandon c],
      ∃ u, exec x s = .next u ∧ Ends s u c .invalidOpcode ∧ u.tenants = s.tenants ∧ u.invocations = s.invocations)
    ∧ (c.fn ≠ 0 → ∀ x ∈ [Instr.mediaWrite c, .mediaRead c, .mediaErase c],
      ∃ u, exec x s = .next u ∧ Ends s u c .directMediaProtected ∧ u.media = s.media)
    ∧ (c.fn ≠ 0 → c.nsid ≠ 0 → ∀ x ∈ [Instr.admitModel c, .release c, .invoke c, .search c, .extract c, .service c, .alloc c,
        .free c, .counterRead c, .counterBump c, .counterWaitGe c, .runBegin c, .runEnd c, .publishBegin c, .publishData c,
        .publishVerify c, .publishCommit c, .publishAbandon c],
      ∃ u, exec x s = .next u ∧ Ends s u c .invalidField ∧ u.tenants = s.tenants ∧ u.invocations = s.invocations)
    ∧ (c.fn ≠ 0 → c.nsid = 0 →
      (bits c.cdw10.toNat 1 0 = 3 → ∃ u, exec (.counterRead c) s = .next u ∧ Ends s u c .invalidField ∧ u.tenants = s.tenants)
      ∧ (4 < bits c.cdw10.toNat 2 0 →
        ∃ u, exec (.publishBegin c) s = .next u ∧ Ends s u c .invalidField ∧ u.tenants = s.tenants))
    ∧ (c.fn ≠ 0 → c.nsid = 0 → (s.tenant (c.fn - 1)).runOpen = false →
      (∀ x ∈ [Instr.counterBump c, .runEnd c], ∃ u, exec x s = .next u ∧ Ends s u c .runNotOpen ∧ u.ctrs = s.ctrs)
      ∧ (ceilDiv (inBytesOf c) 4096 * 4096 + outBytesOf c ≤ 16777216 → deadlineOf c = 0 →
        ∀ x ∈ [Instr.invoke c, .search c, .extract c, .service c],
          ∃ u, exec x s = .next u ∧ Ends s u c .runNotOpen ∧ u.invocations = s.invocations))

/-- ADMIT and RELEASE (R205, R207): a piece of a wrong length, out of place, or that ends before the plan is refused with its
reason; a good first piece reserves and leaves the slot RECEIVING with the model's fields; the FINAL piece whose length and CRCs
hold leaves it ADMITTED; RELEASE empties the slot, and is BUFFER_BUSY while invocations of the model are there. While an exchange
of the tenant's shares is in progress both are REGION_QUIESCING. -/
def Obligations.PackageAdmission : Prop :=
  ∀ (s t : State) (c : Cmd), StartsVendor s c false false (fun _ => none) t → bits c.cdw10.toNat 24 0 ≤ 16777216 →
    c.fn - 1 < s.tenants.length →
    let n := bits c.cdw10.toNat 24 0
    let off := c.cdw11.toNat + 2 ^ 32 * c.cdw12.toNat
    let slot := bits c.cdw13.toNat 5 0
    let first := bits c.cdw14.toNat 12 0
    let held := s.model? (c.fn - 1) slot
    let bs := t.dataIn c.prp1 c.prp2 n
    (n < 4 ∨ n % 4 ≠ 0 → ∃ u, exec (.admitModel c) s = .next u ∧ Ends s u c .invalidField ∧ u.tenants = s.tenants)
    ∧ (s.sharesExchange (c.fn - 1) = true →
      (4 ≤ n → n % 4 = 0 → ∃ u, exec (.admitModel c) s = .next u ∧ Ends s u c .regionQuiescing ∧ u.tenants = s.tenants)
      ∧ ∃ u, exec (.release c) s = .next u ∧ Ends s u c .regionQuiescing ∧ u.tenants = s.tenants)
    ∧ (s.sharesExchange (c.fn - 1) = false →
    (4 ≤ n → n % 4 = 0 → off = 0 → (∃ m, held = some m ∧ m.state = .admitted) →
      ∃ u, exec (.admitModel c) s = .next u ∧ Ends s u c .sequenceError ∧ u.tenants = s.tenants)
    ∧ (4 ≤ n → n % 4 = 0 → off ≠ 0 → (∀ m, held = some m → m.state ≠ .receiving ∨ m.received ≠ off) →
      ∃ u, exec (.admitModel c) s = .next u ∧ Ends s u c .invalidField 0x0A ∧ u.tenants = s.tenants)
    ∧ (4 ≤ n → n % 4 = 0 → off = 0 → held = none → n < 4096 →
      ∃ u, exec (.admitModel c) s = .next u ∧ Ends s u c .invalidField 4 ∧ u.tenants = s.tenants)
    ∧ (4 ≤ n → n % 4 = 0 → off = 0 → held = none → t.firstPieceBad (c.fn - 1) bs first = none → c.cdw13.getLsbD 8 = false →
      ∃ u m, exec (.admitModel c) s = .next u ∧ Ends s u c .success slot ∧ u.model? (c.fn - 1) slot = some m
        ∧ m.state = .receiving ∧ m.received = n ∧ m.counterFirst = first ∧ m.batch = readLe (listReader bs) 0x20 2
        ∧ m.packageLength = readLe (listReader bs) 8 8 ∧ u.invocations = s.invocations ∧ u.ctrs = s.ctrs)
    ∧ (∀ m, 4 ≤ n → n % 4 = 0 → off ≠ 0 → held = some m → m.state = .receiving → m.received = off → c.cdw13.getLsbD 8 = true →
      let whole := m.package.put off bs
      (off + n ≠ m.packageLength →
        ∃ u, exec (.admitModel c) s = .next u ∧ Ends s u c .invalidField 9 ∧ u.model? (c.fn - 1) slot = none)
      ∧ (off + n = m.packageLength → (∀ x ∈ sectionsOf whole.at, 4 ≤ x.type → crc32c (whole.get x.off x.len) = x.crc) →
        ∃ u m', exec (.admitModel c) s = .next u ∧ Ends s u c .success slot ∧ u.model? (c.fn - 1) slot = some m'
          ∧ m'.state = .admitted ∧ m'.reservation = m.reservation ∧ m'.plan = m.plan ∧ m'.package = whole))
    ∧ (∀ m, s.model? (c.fn - 1) (bits c.cdw10.toNat 5 0) = some m →
      let n := (s.invocations.filter fun i => i.tenant == c.fn - 1 && i.slot == bits c.cdw10.toNat 5 0).length
      (m.state = .admitted → 0 < n → ∃ u, exec (.release c) s = .next u ∧ Ends s u c .bufferBusy n ∧ u.tenants = s.tenants)
      ∧ (n = 0 → ∃ u, exec (.release c) s = .next u ∧ Ends s u c .success ∧ u.model? (c.fn - 1) (bits c.cdw10.toNat 5 0) = none
        ∧ u.invocations = s.invocations))
    ∧ (s.model? (c.fn - 1) (bits c.cdw10.toNat 5 0) = none →
      ∃ u, exec (.release c) s = .next u ∧ Ends s u c .modelNotAdmitted ∧ u.tenants = s.tenants))

/-- ALLOC, FREE and the cleaner (R216, R217, R304, R305, R321): an allocation within the quota answers the handle and the
granules of a new buffer of the placement asked for; beyond it, RESERVATION_EXCEEDED; FREE ends the handle, and tells another
tenant's handle, a stale one and a plan buffer apart; the cleaner clears a dirty bit and leaves the content. -/
def Obligations.BufferCommands : Prop :=
  (∀ (s t : State) (c : Cmd), StartsVendor s c false false (fun _ => none) t → c.fn - 1 < s.tenants.length →
    (let x := s.tenant (c.fn - 1)
     let size := c.cdw11.toNat + 2 ^ 32 * c.cdw12.toNat
     let index := if x.nextIndex < 65536 then x.nextIndex else (x.freed.head?).getD 0
     ∀ p, c.cdw10.toNat < 64 → placementOf c.cdw10.toNat = some p → size ≠ 0 →
      (p = .readonly → bit c.cdw10.toNat 5 = false ∧ size % 1048576 = 0
        ∧ s.published (c.fn - 1) c.cdw13.toNat (size / 1048576) = true) →
      (x.buffers.filter (·.planOf.isNone)).length < 65536 → (∀ b ∈ x.buffers, b.index ≠ index) →
      (p = .readonly ∨ granulesOf size ≤ s.left (c.fn - 1) p →
        ∃ u b, exec (.alloc c) s = .next u
          ∧ Ends s u c .success (handleOf (c.fn - 1) (x.gen index) index) (granulesOf size)
          ∧ u.bufferAt (c.fn - 1) index = some b ∧ b.placement = p ∧ b.size = size ∧ b.granules = granulesOf size
          ∧ b.gen = x.gen index ∧ (bit c.cdw10.toNat 5 = true → b.data = {})
          ∧ u.invocations = s.invocations ∧ u.ctrs = s.ctrs)
      ∧ (p ≠ .readonly → s.left (c.fn - 1) p < granulesOf size →
        ∃ u, exec (.alloc c) s = .next u ∧ Ends s u c .reservationExceeded ∧ u.tenants = s.tenants))
    ∧ (64 ≤ c.cdw10.toNat → ∃ u, exec (.alloc c) s = .next u ∧ Ends s u c .invalidField ∧ u.tenants = s.tenants)
    ∧ (bits c.cdw10.toNat 31 28 ≠ c.fn - 1 → ∃ u, exec (.free c) s = .next u ∧ Ends s u c .bufferNotOwned
      ∧ ∀ k, (u.tenant k).buffers = (s.tenant k).buffers)
    ∧ (bits c.cdw10.toNat 31 28 = c.fn - 1 → s.handle? (c.fn - 1) c.cdw10.toNat = none →
      ∃ u, exec (.free c) s = .next u ∧ Ends s u c .bufferAlreadyFree ∧ u.tenants = s.tenants)
    ∧ (∀ b, bits c.cdw10.toNat 31 28 = c.fn - 1 → s.handle? (c.fn - 1) c.cdw10.toNat = some b →
      (b.planOf ≠ none → ∃ u, exec (.free c) s = .next u ∧ Ends s u c .bufferBusy ∧ u.tenants = s.tenants)
      ∧ (b.planOf = none → (∀ i ∈ s.invocations, i.tenant = c.fn - 1 → b.index ∉ s.references i) →
        ∃ u, exec (.free c) s = .next u ∧ Ends s u c .success ∧ u.handle? (c.fn - 1) c.cdw10.toNat = none
          ∧ (u.tenant (c.fn - 1)).gen b.index = (b.gen + 1) % 256)))
  ∧ ∀ (s : State) (n index k : Nat) (b : Buffer), s.power.stage = .on → n < s.tenants.length → s.bufferAt n index = some b → k ∈ b.dirty →
      (∀ x ∈ s.prot.dramStacks, x.poison = []) →
      ∃ u b', exec (.cleanBlock n index k) s = .next u ∧ u.bufferAt n index = some b' ∧ k ∉ b'.dirty ∧ b'.data = b.data
        ∧ b'.placement = b.placement ∧ u.ctrs = s.ctrs ∧ u.invocations = s.invocations

/-- INVOKE, SEARCH, EXTRACT and SERVICE (R210, R211): the checks of the model, its entry, the batch, the fields and the
bindings in their order; a command that passes them waits for a spindle as an invocation of its tenant, without a completion;
an empty batch of a variable model completes at once. -/
def Obligations.InvocationCommands : Prop :=
  ∀ (s t : State) (c : Cmd), StartsVendor s c false true (fun _ => none) t →
    ceilDiv (inBytesOf c) 4096 * 4096 + outBytesOf c ≤ 16777216 →
    (deadlineOf c = 0 ∨ (s.pcie.floorMs ≤ deadlineOf c ∧ deadlineOf c ≤ 60000)) →
    ∀ x ∈ [(Instr.invoke c, InvKind.invoke), (.search c, .search), (.extract c, .extract), (.service c, .service)],
      let slot := bits c.cdw12.toNat 5 0
      let ctr := bits c.cdw14.toNat 12 0
      (s.model? (c.fn - 1) slot = none → ∃ u, exec x.1 s = .next u ∧ Ends s u c .modelNotAdmitted ∧ u.invocations = s.invocations)
      ∧ ∀ m, s.model? (c.fn - 1) slot = some m → m.state = .admitted →
        (m.entryMask.getLsbD x.2.bit = false → ∃ u, exec x.1 s = .next u ∧ Ends s u c .invalidField
          ∧ u.invocations = s.invocations)
        ∧ (m.entryMask.getLsbD x.2.bit = true →
          (m.batch ≠ 0 ∧ batchOf c ≠ m.batch ∨ m.batch = 0 ∧ m.batchMax < batchOf c →
            ∃ u, exec x.1 s = .next u ∧ Ends s u c .batchMismatch ∧ u.invocations = s.invocations)
          ∧ (m.batch = batchOf c ∨ (m.batch = 0 ∧ batchOf c ≤ m.batchMax) →
            (c.cdw14.getLsbD 13 = true → s.ownsCtr (c.fn - 1) ctr = true) → t.invFieldsBad c x.2 m = false →
            (m.batch = 0 → batchOf c = 0 → c.cdw14.getLsbD 13 = false →
              ∃ u, exec x.1 s = .next u ∧ Ends s u c .success ∧ u.invocations = s.invocations)
            ∧ (¬(m.batch = 0 ∧ batchOf c = 0) →
              let hdr := t.bufferGet c.prp1 c.prp2 (dataBytes (inBytesOf c) (outBytesOf c)) 0 64
              (∀ k, k < 14 → t.bindBad (c.fn - 1) (readLe (listReader hdr) (4 * k) 4) = none) →
              (s.tenant (c.fn - 1)).ending = none →
              ∃ u i, exec x.1 s = .next u ∧ NoneEnds s u ∧ u.invocations = s.invocations ++ [i] ∧ i.ref = c.ref ∧ i.kind = x.2
                ∧ i.phase = .waiting ∧ i.tenant = c.fn - 1 ∧ i.slot = slot ∧ i.batch = batchOf c ∧ i.tag = 0
                ∧ u.tenants = s.tenants ∧ u.queues = s.queues ∧ u.ctrs = s.ctrs)))

/-- Counters (R218, R219, R266, R281 to R284, R294): READ returns the value; BUMP adds to one counter of the tenant's range and
returns the new value, and a sum above 2^48 - 1 leaves that value with the counter saturated; WAIT_GE completes once the
counter has reached its value, at once on a counter that has, and is refused on a saturated one; a write of `TCTR_BUMP` that
is not allowed is counted and changes no counter. -/
def Obligations.CounterCommands : Prop :=
  (∀ (s t : State) (c : Cmd), c.fn ≤ 16 → StartsVendor s c false false (fun _ => none) t →
    let k := counterOf c
    (bits c.cdw10.toNat 1 0 ≠ 3 → s.ownsCtr (c.fn - 1) k = false →
      ∃ u, exec (.counterRead c) s = .next u ∧ Ends s u c .counterOutOfRange)
    ∧ (bits c.cdw10.toNat 1 0 ≠ 3 → s.ownsCtr (c.fn - 1) k = true →
      ∃ u, exec (.counterRead c) s = .next u ∧ Ends s u c .success (s.ctr k % 2 ^ 32) (s.ctr k / 2 ^ 32) ∧ u.ctrs = s.ctrs)
    ∧ ((s.tenant (c.fn - 1)).runOpen = true → s.ownsCtr (c.fn - 1) k = true → s.ctrSat k = false → s.ctrPoison k = none →
      (s.ctr k + bits c.cdw12.toNat 15 0 ≤ ctrMax →
        let v := s.ctr k + bits c.cdw12.toNat 15 0
        ∃ u, exec (.counterBump c) s = .next u ∧ Ends s u c .success (v % 2 ^ 32) (v / 2 ^ 32) ∧ u.ctr k = v
          ∧ (∀ j, j ≠ k → u.ctr j = s.ctr j)
          ∧ (u.tenants.map fun (x : Tenant) => { x with outside := [] }) = s.tenants.map fun (x : Tenant) => { x with outside := [] })
      ∧ (ctrMax < s.ctr k + bits c.cdw12.toNat 15 0 → bits c.cdw10.toNat 1 0 = 1 →
        ∃ u, exec (.counterBump c) s = .next u ∧ Ends s u c .success (ctrMax % 2 ^ 32) (ctrMax / 2 ^ 32) ∧ u.ctr k = ctrMax
          ∧ u.ctrSat k = true ∧ ∀ j, j ≠ k → u.ctr j = s.ctr j))
    ∧ ((s.tenant (c.fn - 1)).runOpen = true → bits c.cdw14.toNat 15 0 = 0 → s.ownsCtr (c.fn - 1) k = true →
      (s.ctrSat k = true → ∃ u, exec (.counterWaitGe c) s = .next u ∧ Ends s u c .counterSaturated k)
      ∧ (s.ctrSat k = false → waitValue c ≤ s.ctr k → ∃ u, exec (.counterWaitGe c) s = .next u
        ∧ Ends s u c .success (s.ctr k % 2 ^ 32) (s.ctr k / 2 ^ 32))
      ∧ (s.ctrSat k = false → s.ctr k < waitValue c → (s.hostWaits c.fn).length < 64 → c.opcode = 0x9C →
          bits c.cdw10.toNat 1 0 = 2 →
        ∃ u, exec (.counterWaitGe c) s = .next u ∧ NoneEnds s u ∧ c ∈ u.hostWaits c.fn ∧ u.ctrs = s.ctrs)))
  ∧ (∀ (s : State) (w : Cmd), s.power.stage = .on → (s.hostWaits w.fn).find? (fun x => x.ref == w.ref) = some w →
      (waitValue w ≤ s.ctr (counterOf w) → ∃ u, exec (.counterWaitSatisfied w.ref) s = .next u
        ∧ Ends s u w .success (s.ctr (counterOf w) % 2 ^ 32) (s.ctr (counterOf w) / 2 ^ 32) ∧ u.ctrs = s.ctrs)
      ∧ (s.ctr (counterOf w) < waitValue w → exec (.counterWaitSatisfied w.ref) s = .next s))
  ∧ ∀ (s : State) (n : Nat) (v : Qword), n < 16 → s.power.stage = .on → s.power.perst = false → s.vfLive n = true → (s.record n).isSome = true → n < s.tenants.length →
      let k := bits v.toNat 12 0
      ((s.tenant n).runOpen = true → s.ownsCtr n k = true → s.ctrSat k = false → s.ctrPoison k = none →
        s.ctr k + bits v.toNat 47 32 ≤ ctrMax → ∃ u, exec (.tctrBump n v) s = .next u ∧ u.ctr k = s.ctr k + bits v.toNat 47 32
          ∧ (∀ j, j ≠ k → u.ctr j = s.ctr j) ∧ u.tenants = s.tenants)
      ∧ ((s.tenant n).runOpen = false ∨ s.ownsCtr n k = false → ∃ u, exec (.tctrBump n v) s = .next u ∧ u.ctrs = s.ctrs
        ∧ (u.tenant n).refused = satAdd32 (s.tenant n).refused 1 ∧ (u.tenant n).lastRefusedIdx = k)

/-- RUN BEGIN and RUN END (R220 to R222, R287): BEGIN is refused while a run with invocations is open or a publish session
holds one of the tenant's groups; else it zeroes every counter of the tenant in one step and opens the run under the next
sequence number. END closes a run without invocations and keeps the counters; with invocations it needs FORCE, which ends each
of them with ABORTED_BY_RECOVERY. -/
def Obligations.RunCommands : Prop :=
  ∀ (s t : State) (c : Cmd), c.fn ≤ 16 → StartsVendor s c false false (fun _ => none) t → c.fn - 1 < s.tenants.length →
    c.opcode = 0xA4 →
    let n := c.fn - 1
    let mine := s.invocations.filter (·.tenant == n)
    ((s.tenant n).runOpen = true → mine ≠ [] → ∃ u, exec (.runBegin c) s = .next u ∧ Ends s u c .sequenceError
      ∧ u.tenants = s.tenants ∧ u.ctrs = s.ctrs)
    ∧ (mine = [] → (∃ y ∈ s.tenants, ∃ k, y.session = some k ∧ bit (s.indexMask n) k.group = true) →
      ∃ u, exec (.runBegin c) s = .next u ∧ Ends s u c .indexPublishing ∧ u.tenants = s.tenants ∧ u.ctrs = s.ctrs)
    ∧ (mine = [] → (∀ y ∈ s.tenants, ∀ k, y.session = some k → bit (s.indexMask n) k.group = false) →
      ∃ u, exec (.runBegin c) s = .next u ∧ Ends s u c .success ∧ (u.tenant n).runOpen = true ∧ (u.tenant n).frozen = false
        ∧ (u.tenant n).runSeq = ((s.tenant n).runSeq + 1) % 65536 ∧ (u.tenant n).saturatedFlag = false
        ∧ (∀ k, s.ownsCtr n k = true → u.ctrs.values.lookup k = none ∧ u.ctrSat k = false)
        ∧ (u.tenant n).buffers = (s.tenant n).buffers ∧ (u.tenant n).models = (s.tenant n).models)
    ∧ ((s.tenant n).runOpen = true →
      (mine = [] → ∃ u, exec (.runEnd c) s = .next u ∧ Ends s u c .success ∧ (u.tenant n).runOpen = false ∧ u.ctrs = s.ctrs)
      ∧ (mine ≠ [] → c.cdw10.getLsbD 8 = false → ∃ u, exec (.runEnd c) s = .next u ∧ Ends s u c .sequenceError
        ∧ u.tenants = s.tenants ∧ u.invocations = s.invocations)
      ∧ (∀ i, mine = [i] → c.cdw10.getLsbD 8 = true → (s.tenant n).ending = none → i.phase = .waiting → i.tag = 0 →
          i.silent = false → ((s.ctrl i.ref.fn).outstanding.any fun o => o.cmd.ref == i.ref) = true →
        ∃ u, exec (.runEnd c) s = .next u ∧ Ends s u c .success ∧ (u.tenant n).runOpen = false ∧ (u.tenant n).ending = none
          ∧ (∀ j ∈ u.invocations, j.tenant ≠ n)
          ∧ ∃ x ∈ u.pcie.completions, x.fn = i.ref.fn ∧ x.cid = i.ref.cid ∧ x.sct = 7 ∧ x.sc = 0x95))

/-- PUBLISH (R223, R224, R516): BEGIN opens a session on an INDEX group of the tenant while its run is closed and no other
session holds the group; DATA takes whole units in order and VERIFY names the first extent that does not match; COMMIT
switches every extent of the range at once and ends the session; ABANDON ends it and leaves the published extents. -/
def Obligations.PublishCommands : Prop :=
  ∀ (s t : State) (c : Cmd), StartsVendor s c false false (fun _ => none) t → c.fn - 1 < s.tenants.length →
    let n := c.fn - 1
    (let g := bits c.cdw11.toNat 1 0
     bits c.cdw10.toNat 2 0 ≤ 4 → c.cdw13.toNat ≠ 0 → (s.tenant n).session = none → s.role g = some .index → bit (s.indexMask n) g = true →
     s.pers.job = .none → (∀ x ∈ s.tenants, ∀ k, x.session = some k → k.group ≠ g) →
     ((s.tenant n).runOpen = true → ∃ u, exec (.publishBegin c) s = .next u ∧ Ends s u c .sequenceError ∧ u.tenants = s.tenants)
     ∧ ((∀ j, j < 16 → (s.tenant j).runOpen = false) → (s.tenant n).runOpen = false →
        c.cdw12.toNat + c.cdw13.toNat ≤ ((s.record n).map (·.readonlyExtents)).getD 0 →
        s.committed g + c.cdw13.toNat * 1048576 + s.margin g ≤ s.goodCapacity g →
        ∃ u, exec (.publishBegin c) s = .next u ∧ Ends s u c .success
          ∧ (u.tenant n).session = some { group := g, first := c.cdw12.toNat, count := c.cdw13.toNat }
          ∧ u.media.extents = s.media.extents))
    ∧ ((s.tenant n).session = none → bits c.cdw12.toNat 24 0 ≤ 16777216 → 4 * c.cdw12.toNat ≤ 16777216 →
      ∀ x ∈ [Instr.publishData c, .publishVerify c, .publishCommit c],
        ∃ u, exec x s = .next u ∧ Ends s u c .sequenceError ∧ u.media = s.media)
    ∧ ∀ k, (s.tenant n).session = some k →
      (let b := bits c.cdw12.toNat 24 0
       b ≤ 16777216 →
       (b % 4096 ≠ 0 ∨ c.cdw11.toNat ≠ k.written → ∃ u, exec (.publishData c) s = .next u ∧ Ends s u c .invalidField
          ∧ u.media = s.media)
       ∧ (b % 4096 = 0 → c.cdw11.toNat = k.written → k.written + b / 4096 ≤ 256 * k.count → 0 < b →
          (∃ u k', exec (.publishData c) s = .next u ∧ (u.tenant n).session = some k' ∧ k'.written = k.written + b / 4096
            ∧ k'.data = k.data.put (4096 * k.written) (t.dataIn c.prp1 c.prp2 b) ∧ k'.group = k.group ∧ k'.first = k.first
            ∧ u.media.extents = s.media.extents)
          ∧ ((k.written + b / 4096) / 4 ≤ k.issued → ∃ u, exec (.publishData c) s = .next u ∧ Ends s u c .success)))
      ∧ (let first := c.cdw11.toNat
         let m := c.cdw12.toNat
         let crc (j : Nat) := readLe (listReader (t.dataIn c.prp1 c.prp2 (4 * m))) (4 * j) 4
         m ≤ 4194304 → 0 < m → first + m ≤ k.count → 256 * (first + m) ≤ k.written →
         (∀ j ∈ s.media.jobs, ∀ b ∈ k.superblocks, b.1 ≠ j.superblock) →
         ((∀ j, j < m → ∃ bs, s.sessionExtent k (first + j) = some bs ∧ crc32c bs = crc j) →
            ∃ u, exec (.publishVerify c) s = .next u ∧ Ends s u c .success 0xFFFFFFFF 0 ∧ u.media = s.media)
         ∧ (∀ j, j < m → s.sessionExtent k (first + j) = none → (∀ i, i < j → s.sessionExtent k (first + i) ≠ none) →
            ∃ u, exec (.publishVerify c) s = .next u ∧ Ends s u c .mediaUnreadable 0xFFFFFFFF (first + j)))
      ∧ (k.written < 256 * k.count → ∃ u, exec (.publishCommit c) s = .next u ∧ Ends s u c .invalidField ∧ u.media = s.media)
      ∧ (256 * k.count ≤ k.written → (∀ j ∈ s.media.jobs, ∀ b ∈ k.superblocks, b.1 ≠ j.superblock) →
        ∃ u, exec (.publishCommit c) s = .next u ∧ Ends s u c .success ∧ (u.tenant n).session = none
          ∧ (∀ e, e < k.count → ∀ b, k.superblocks.find? (fun b => decide (b.2.1 ≤ e) && decide (e < b.2.1 + b.2.2)) = some b →
              { tenant := n, extent := k.first + e, group := k.group, superblock := b.1, position := e - b.2.1 }
                ∈ u.media.extents)
          ∧ (∀ x ∈ s.media.extents, x.tenant ≠ n ∨ x.extent < k.first ∨ k.first + k.count ≤ x.extent → x ∈ u.media.extents))
      ∧ ∃ u, exec (.publishAbandon c) s = .next u ∧ Ends s u c .success ∧ (u.tenant n).session = none
          ∧ u.media.extents = s.media.extents

/-- Direct media (R227): an address out of range is Invalid Field; MEDIA_WRITE and MEDIA_ERASE of a block that is not retired
are DIRECT_MEDIA_PROTECTED; a command on an isolated channel or a retired die is ABORTED_BY_RECOVERY with the fault number of
that; any other waits for its operation on the die. -/
def Obligations.DirectMedia : Prop :=
  ∀ (s t : State) (c : Cmd), StartsVendor s c true false (fun _ => none) t → s.media.dies.length = 1024 →
    let a := directAddr c
    let there (u : State) (k : DieOpKind) : Prop :=
      (∃ o ∈ (u.die a.channel a.die).queue, o.kind = k) ∨ ∃ o, (u.die a.channel a.die).running = some o ∧ o.kind = k
    (s.diesPerChannel ≤ a.die ∨ 2048 ≤ a.block → ∀ x ∈ [Instr.mediaWrite c, .mediaRead c, .mediaErase c],
      ∃ u, exec x s = .next u ∧ Ends s u c .invalidField ∧ u.media = s.media)
    ∧ (a.die < s.diesPerChannel → a.block < 2048 → a.page < s.pagesPerBlock →
      (s.deadFault a.channel a.die = none → ∃ u, exec (.mediaRead c) s = .next u ∧ NoneEnds s u ∧ there u (.read a [0, 1, 2, 3] (.media c.ref))
        ∧ FlashKept s u)
      ∧ (∀ f, s.deadFault a.channel a.die = some f →
        (∃ u, exec (.mediaRead c) s = .next u ∧ Ends s u c .abortedByRecovery f ∧ u.media = s.media)
        ∧ (a.blockAddr ∈ s.media.retiredBlocks ∨ (s.die a.channel a.die).retired = true →
          ∀ x ∈ [Instr.mediaWrite c, .mediaErase c], ∃ u, exec x s = .next u ∧ Ends s u c .abortedByRecovery f
            ∧ u.media = s.media))
      ∧ (a.blockAddr ∉ s.media.retiredBlocks → (s.die a.channel a.die).retired = false →
        ∀ x ∈ [Instr.mediaWrite c, .mediaErase c], ∃ u, exec x s = .next u ∧ Ends s u c .directMediaProtected
          ∧ u.media = s.media)
      ∧ (a.blockAddr ∈ s.media.retiredBlocks → s.deadFault a.channel a.die = none →
        (∃ u, exec (.mediaErase c) s = .next u ∧ NoneEnds s u ∧ there u (.directErase (some c.ref) a.blockAddr) ∧ FlashKept s u)
        ∧ ∃ u, exec (.mediaWrite c) s = .next u ∧ NoneEnds s u ∧ FlashKept s u
          ∧ there u (.directProgram (some c.ref) a (if c.cdw13.getLsbD 0 then Region.ofBytes (t.dataIn c.prp1 c.prp2 18432)
              else encodePage (t.dataIn c.prp1 c.prp2 16384)))))

/-! ### Chapter 07: invocations, spindles, engine queues -/

/-- Phases of an invocation (R21, R212, R255, R256, R273): a free spindle of the model takes the oldest that waits, gives it
the next tag, its lane and the bases of its counters, 0 for an anchored one; once everything it issued has ended, its completion
bump is applied and its completion posted with success, `DW0` the bytes of its output and `DW1` its flags and tag. -/
def Obligations.InvocationPhases : Prop :=
  (∀ (s : State) (n slot sp lane : Nat) (m : Model) (i : Invocation), s.engines = true → s.model? n slot = some m →
    s.invocations.find? (fun i => i.tenant == n && i.slot == slot && i.phase == .waiting) = some i →
    m.bound.zipIdx.find? (fun b => (s.onSpindle b.1).isNone) = some (sp, lane) → n < s.tenants.length →
    (∀ d ∈ s.prot.damaged, ¬(d.1 = n ∧ d.2.1 = slot)) → (s.tenant n).lastTag < 0xFFFF →
    (∀ j ∈ s.invocations, j.tenant = n → j.tag ≠ (s.tenant n).lastTag + 1) →
    ∃ t j, exec (.invocationAssign n slot) s = .next t ∧ j ∈ t.invocations ∧ j.ref = i.ref ∧ j.spindle = sp ∧ j.lane = lane
      ∧ j.tag = (s.tenant n).lastTag + 1 ∧ j.word = m.entryWord ∧ j.phase ∈ [.waitHome, .loading, .running]
      ∧ j.bases.length = m.reservation.counters
      ∧ (∀ k r, k < m.reservation.counters → s.record n = some r →
          j.bases[k]? = some (if (s.tenant n).anchors.contains (m.counterFirst + k - r.counterBase) then 0
            else s.ctr (m.counterFirst + k)))
      ∧ t.ctrs = s.ctrs ∧ NoneEnds s t)
  ∧ ∀ (s : State) (sp : Nat) (i : Invocation) (m : Model), s.engines = true → s.onSpindle sp = some i →
      (∀ j ∈ s.invocations, j.ref = i.ref → j = i) → s.hasCommands i = false → Held s i.ref → i.silent = false →
      s.model? i.tenant i.slot = some m →
      (∀ x, x = (Instr.invocationPersisted sp, InvPhase.persisting)
          ∨ (x = (Instr.invocationDrained sp, InvPhase.draining) ∧ (m.persistBytes = 0 ∨ m.imageLen = 0)
            ∧ headerBump m (s.wordAt i) = none) →
        i.phase = x.2 →
        ∃ t, exec x.1 s = .next t ∧ EndsRef s t i.ref .success i.hostOutHigh (i.flags.toNat + 65536 * i.tag)
          ∧ (∀ j ∈ t.invocations, j.ref ≠ i.ref)
          ∧ (i.cbump = none → t.ctrs.values = s.ctrs.values ∧ t.ctrs.saturated = s.ctrs.saturated)
          ∧ ∀ c n, i.cbump = some (c, n) → i.tenant < 16 → (s.tenant i.tenant).runOpen = true → s.ownsCtr i.tenant c = true →
              s.ctrSat c = false → s.ctrPoison c = none → s.ctr c + n ≤ ctrMax → t.ctr c = s.ctr c + n)
      ∧ (i.phase = .draining → 0 < m.persistBytes → 0 < m.imageLen → (∃ q, q < 8 ∧ s.slotFree i.tenant q = true) →
          s.queues.length = 78 → ∃ t j, exec (.invocationDrained sp) s = .next t ∧ j ∈ t.invocations ∧ j.ref = i.ref
            ∧ j.phase ∈ [.drained, .persisting] ∧ j.stack = [] ∧ j.spilled = []
            ∧ (headerBump m (s.wordAt i) = none → (∀ x ∈ s.invocations, x.phase ≠ .drained) → j.phase = .persisting))

/-- A spindle issues a word (R20, R234, R237, R245, R246, R259): an engine word goes to the queue of its instance with the
tenant, tag, iterations and absolute counters written, and the spindle goes on; with the tenant's slots full it stalls without a
status; a word past the program, of a reserved class or of a class that the model does not declare stops the invocation. -/
def Obligations.SpindleIssue : Prop :=
  ∀ (s : State) (sp : Nat) (i : Invocation) (m : Model) (d : BitVec 512), AtWord s sp i m d → s.queues.length = 78 →
    (∀ q, classOf d ≤ 5 → queueOf (classOf d) (instanceOf d) = some q → m.engineMask.getLsbD (classOf d) = true →
      waitEn d = false → (fld d 12 15 15 = 1 → fld d 12 12 0 < m.reservation.counters) → (s.queue q).offline = none →
      ∀ x ∈ [(Instr.spindleIssueWord sp, InvPhase.running), (.slotStallReleased sp, .stalled)], i.phase = x.2 →
        (s.slotFree i.tenant q = true → ∃ t j e, exec x.1 s = .next t ∧ (t.queue q).entries = (s.queue q).entries ++ [e]
          ∧ e.tenant = i.tenant ∧ e.tag = i.tag ∧ e.desc = issued d i ∧ e.iter0 = i.iters.1 ∧ e.iter1 = i.iters.2
          ∧ e.lane = i.lane ∧ e.word = i.word ∧ e.wait = none ∧ e.bump = headerBump m d ∧ e.outcome = .queued
          ∧ (∀ p, p ≠ q → t.queue p = s.queue p) ∧ t.onSpindle sp = some j
          ∧ j = { i with phase := .running, word := i.word + 1, issued := i.issued + 1 } ∧ e.ord = i.issued ∧ e.knows = i.knows
          ∧ t.ctrs = s.ctrs ∧ t.tenants = s.tenants)
        ∧ (s.slotFree i.tenant q = false → ∃ t, exec x.1 s = .next t ∧ t.queues = s.queues
          ∧ t.onSpindle sp = some { i with phase := .stalled } ∧ NoneEnds s t ∧ t.logs = s.logs))
    ∧ (i.phase = .running → 6 < classOf d ∨ (classOf d = 6 ∧ 7 < opOf d)
        ∨ (classOf d ≤ 5 ∧ queueOf (classOf d) (instanceOf d) = none)
        ∨ (classOf d ≤ 5 ∧ m.engineMask.getLsbD (classOf d) = false) →
      ∃ t, exec (.spindleIssueWord sp) s = .next t ∧ Stopped t i.ref ∧ t.engFaults = satAdd32 s.engFaults 1
        ∧ t.logs.faultNo = s.newFault.1 ∧ t.ctrs.values = s.ctrs.values)
    ∧ (i.phase = .waitCtr → i.met = false → classOf d = 6 → opOf d = 5 → waitEn d = true →
        fld d 6 12 0 < m.reservation.counters → fld d 12 15 15 = 0 →
      let c := m.counterFirst + fld d 6 12 0
      let v := i.target (fld d 6 12 0) (fld d 8 31 0) (iterScale d)
      (v ≤ s.ctr c → ∃ t, exec (.controlWaitPassed sp) s = .next t
        ∧ t.onSpindle sp = some { i.learn (s.after c) with phase := .running, word := i.word + 1 } ∧ t.ctrs = s.ctrs
        ∧ t.queues = s.queues)
      ∧ (s.ctr c < v → ∃ t, exec (.controlWaitPassed sp) s = .next t ∧ t.onSpindle sp = some i ∧ t.ctrs = s.ctrs))

/-- The control operations of a spindle (R247, R248, R249, R250, R251, Table 07-4), each without a header wait: END drains; LOOP
pushes its frame or jumps past a body of count 0; ENDLOOP repeats or pops, and a pop that empties the stack takes back the newest
spilled frame; CALL and RET keep the return word; WAIT goes on; BUMP adds to its counter; BRANCH_CTR jumps when its counter has
reached its target. A frame of the other kind stops the invocation. -/
def Obligations.ControlOperations : Prop :=
  ∀ (s : State) (sp : Nat) (i : Invocation) (m : Model) (d : BitVec 512), AtWord s sp i m d → i.phase = .running →
    classOf d = 6 → waitEn d = false →
    let goes (x : Instr) (j : Invocation) : Prop := ∃ t, exec x s = .next t ∧ t.onSpindle sp = some j ∧ t.ctrs = s.ctrs
      ∧ t.queues = s.queues ∧ t.tenants = s.tenants ∧ t.pcie = s.pcie ∧ t.logs = s.logs
    let stops (x : Instr) : Prop := ∃ t, exec x s = .next t ∧ Stopped t i.ref ∧ t.engFaults = satAdd32 s.engFaults 1
      ∧ t.ctrs.values = s.ctrs.values
    -- the invocation as it goes on: what it knows, each thing once, and no wait held
    let i0 : Invocation := { i.learn [] with met := false }
    (fld d 12 15 15 = 0 →
      (opOf d = 0 → goes (.endOp sp) { i0 with phase := .draining, met := true })
      ∧ (opOf d = 1 → (fld d 16 31 0 = 0 → goes (.loop sp) { i0 with word := fld d 20 31 0 })
        ∧ (fld d 16 31 0 ≠ 0 → i.stack.length < 8 →
          goes (.loop sp) { i0 with word := i.word + 1, stack := .loop (i.word + 1) (fld d 16 31 0) 0 :: i.stack })
        ∧ (fld d 16 31 0 ≠ 0 → 8 ≤ i.stack.length → spillBudget m ≤ i.spilled.length → stops (.loop sp)))
      ∧ (opOf d = 2 →
        (∀ start count k rest, i.stack = .loop start count k :: rest →
          (k + 1 < count → goes (.endloop sp) { i0 with word := start, stack := .loop start count (k + 1) :: rest })
          ∧ (count ≤ k + 1 → rest ≠ [] ∨ i.spilled = [] → goes (.endloop sp) { i0 with word := i.word + 1, stack := rest })
          ∧ (count ≤ k + 1 → rest = [] → ∀ f fs, i.spilled = f :: fs →
              goes (.endloop sp) { i0 with word := i.word + 1, stack := [f], spilled := fs }))
        ∧ ((∀ start count k rest, i.stack ≠ .loop start count k :: rest) → stops (.endloop sp)))
      ∧ (opOf d = 3 → i.stack.length < 8 → goes (.call sp) { i0 with word := fld d 16 31 0, stack := .call (i.word + 1) :: i.stack })
      ∧ (opOf d = 4 → (∀ r rest, i.stack = .call r :: rest → rest ≠ [] ∨ i.spilled = [] →
          goes (.ret sp) { i0 with word := r, stack := rest })
        ∧ ((∀ r rest, i.stack ≠ .call r :: rest) → stops (.ret sp)))
      ∧ (opOf d = 5 → goes (.wait sp) { i0 with word := i.word + 1 })
      ∧ (opOf d = 6 → goes (.bump sp) { i0 with word := i.word + 1 })
      ∧ (opOf d = 7 → fld d 16 12 0 < m.reservation.counters →
        s.ctrPoison (m.counterFirst + fld d 16 12 0) = none → s.ctrSat (m.counterFirst + fld d 16 12 0) = false →
        let v := i.bases.getD (fld d 16 12 0) 0 + (if iterScale d then fld d 20 31 0 * (i.iters.1 + 1) else fld d 20 31 0)
        let c := m.counterFirst + fld d 16 12 0
        goes (.branchCtr sp) (if v ≤ s.ctr c then { i0.learn (s.after c) with word := fld d 24 31 0 }
          else { i0 with word := i.word + 1 })))
    ∧ (fld d 12 15 15 = 1 → opOf d = 6 → fld d 12 12 0 < m.reservation.counters → i.tenant < 16 →
        (s.tenant i.tenant).runOpen = true → s.ownsCtr i.tenant (m.counterFirst + fld d 12 12 0) = true →
        s.ctrSat (m.counterFirst + fld d 12 12 0) = false → s.ctrPoison (m.counterFirst + fld d 12 12 0) = none →
        s.ctr (m.counterFirst + fld d 12 12 0) + fld d 14 15 0 ≤ ctrMax →
      ∃ t, exec (.bump sp) s = .next t ∧ t.onSpindle sp = some { i0 with word := i.word + 1 }
        ∧ t.ctr (m.counterFirst + fld d 12 12 0) = s.ctr (m.counterFirst + fld d 12 12 0) + fld d 14 15 0)

/-- Arbitration and the end of commands (R242, R243, R259, R261, R266, R610): the tenant at the pointer starts its oldest
expedited, else its oldest ready command while its deficit is positive, and is charged its cost; the tiles, register and context
that it claims are its invocation's as it starts, and a peer command takes its flow; a command that has done its work
leaves its slot and applies its bump once; one that has failed stops its invocation and applies none; an internal fault takes the
instance offline under one new fault number and empties its queue; self-test takes an idle instance out and gives it back. -/
def Obligations.EngineArbitration : Prop :=
  (∀ (s : State) (q k : Nat) (e : QEntry) (w : Work), s.engines = true → q < s.queues.length → (s.queue q).offline = none →
    s.instanceFree q = true → (s.queue q).entries[k]? = some e → s.ready q k e = true → e.tenant = (s.queue q).pointer → PairsOk s → RaspOk s →
    (s.queue q).deficits.length = 16 → 0 < (s.queue q).deficits.getD e.tenant 0 → s.entryWork q e = .ok w →
    (∀ j f, (s.queue q).entries[j]? = some f → f.tenant = e.tenant → s.ready q j f = true →
      (e.expedite = true ∧ (f.expedite = true → k ≤ j)) ∨ (f.expedite = false ∧ k ≤ j)) →
    ∃ t, exec (.engineArbitrate q) s = .next t ∧ Outcome t q k .started ∧ (t.queue q).pointer = (s.queue q).pointer
      ∧ (t.queue q).deficits = (s.queue q).deficits.modify e.tenant (· - (w.cost : Int))
      ∧ (t.queue q).entries.length = (s.queue q).entries.length ∧ t.ctrs = s.ctrs
      ∧ (let place (i : Invocation) : CmdRef × InvPhase × Nat := (i.ref, i.phase, i.word)
         t.invocations.map place = s.invocations.map place)
      ∧ (8 ≤ q → q < 40 →
        (∀ n kind, w.claimAcc = some (n, kind) → n < 8 → ((t.pair q).acc.getD n {}).holder = some e.holder
          ∧ ((t.pair q).acc.getD n {}).kind = kind)
        ∧ (∀ n, w.claimTile = some n → n < 16 → ((t.pair q).tiles.getD n {}).holder = some e.holder)
        ∧ ∀ n, w.claimMask = some n → n < 8 → ((t.pair q).masks.getD n {}).holder = some e.holder)
      ∧ (40 ≤ q → q < 72 → ∀ n, w.claimCtx = some n → n < 4 → (t.context q n).holder = some e.holder)
      ∧ (w.flow = none → t.peer = s.peer)
      ∧ (w.flow ≠ none → ∃ h, (t.flow (peerFlow e)).holder = some h ∧ h.queue = q ∧ h.tenant = e.tenant ∧ h.tag = e.tag
          ∧ h.sent = 0 ∧ h.frames = s.peerFrames e ∧ h.bytes = peerBytes e ∧ (t.flow (peerFlow e)).inFlight = (s.flow (peerFlow e)).inFlight
          ∧ ∀ f, f ≠ peerFlow e → t.flow f = s.flow f))
  ∧ (∀ (s : State) (q : Nat), s.engines = true → (∀ e ∈ (s.queue q).entries, e.outcome = .started ∧ e.begun = false) →
      (s.queue q).entries ≠ [] → (s.queue q).offline = none → exec (.engineArbitrate q) s = .next s)
  ∧ (∀ (s : State) (q : Nat) (e : QEntry) (rest : List QEntry) (i : Invocation), s.engines = true → q < s.queues.length →
      (s.queue q).entries = e :: rest → e.origin = .word → s.invocation? e.tenant e.tag = some i → i.phase = .running →
      (∀ j ∈ s.invocations, j.phase ≠ .waitHome ∧ j.phase ≠ .drained) →
      (e.outcome = .done → i.raced = false →
        (e.discard = true ∨ e.bump = none → ∃ t, exec (.engineCommandEnd q) s = .next t ∧ (t.queue q).entries = rest
          ∧ NoneEnds s t ∧ t.ctrs = s.ctrs)
        ∧ ∀ c n, e.bump = some (c, n) → e.discard = false → e.tenant < 16 → (s.tenant e.tenant).runOpen = true →
            s.ownsCtr e.tenant c = true → s.ctrSat c = false → s.ctrPoison c = none → s.ctr c + n ≤ ctrMax →
            ∃ t, exec (.engineCommandEnd q) s = .next t ∧ (t.queue q).entries = rest ∧ NoneEnds s t ∧ t.ctr c = s.ctr c + n)
      ∧ (∀ why f, e.outcome = .failed why f → (∀ j ∈ s.invocations, j.ref = i.ref → j = i) →
        ∃ t, exec (.engineCommandEnd q) s = .next t ∧ Stopped t i.ref ∧ t.engFaults = satAdd32 s.engFaults 1
          ∧ t.ctrs.values = s.ctrs.values))
  ∧ (∀ (s : State) (q : Nat), s.engines = true → q < s.queues.length → q < 78 → (s.queue q).offline = none →
      ∃ t, exec (.engineInternalFault q) s = .next t ∧ (t.queue q).offline = some s.newFault.1
        ∧ t.ctrs.values = s.ctrs.values
        ∧ t.logs.c0.nextSeq ≥ s.logs.c0.nextSeq + 1 ∧ t.logs.c0.faults = s.logs.c0.faults + 1)
  ∧ ∀ (s : State) (q : Nat) (pass : Bool), s.engines = true → s.queues.length = 78 →
      (s.bistMayTake q = true → ∃ t, exec (.engineBist q pass) s = .next t ∧ (t.queue q).bist = true
        ∧ (∀ p, some p ≠ pairQueue q → p ≠ q → t.queue p = s.queue p) ∧ t.ctrs = s.ctrs)
      ∧ (q < 78 → (s.queue q).bist = true → pass = true → ∃ t, exec (.engineBist q pass) s = .next t
        ∧ (t.queue q).bist = false ∧ (t.queue q).offline = (s.queue q).offline ∧ t.ctrs = s.ctrs)

/-! ### Chapters 09 to 14: the operations of the engines -/

/-- The DMA and Burl engines, and the start checks of every engine (R259, R310, R312, R315, R367, R396, R423, R434, R446, R447):
a command whose start checks fail ends before any access. COPY, FILL and GATHER store what they read or their pattern and
nothing else; a bring-up starts the read of a missing unit; a Burl engine writes one image result, and a rejected stream stops
nothing. -/
def Obligations.DmaAndBurlOperations : Prop :=
  (∀ (s : State) (q k : Nat) (e : QEntry) (i : Invocation) (r : StopReason) (found : List BlockRead) (bad : List WordRead)
      (stalled streamed : Nat) (retried : List Nat),
    ∀ x ∈ ([(0, 1, .copy q ⟨found, bad⟩, State.copyWork), (0, 2, .fillPattern q, State.fillWork), (0, 3, .gather q ⟨found, bad⟩, State.gatherWork),
        (1, 1, .mma ⟨q, bad⟩, State.mmaWork q), (1, 2, .accZero q, State.accZeroWork), (1, 3, .accLoad ⟨q, bad⟩, State.accLoadWork),
        (2, 1, .tile ⟨q, bad⟩, State.tileWork q), (2, 2, .tileReduce ⟨q, bad⟩, State.tileReduceWork q),
        (2, 3, .softmax ⟨q, bad⟩, State.softmaxWork q),
        (2, 4, .stream ⟨q, bad⟩, State.streamWork q), (2, 5, .streamReduce ⟨q, bad⟩, State.streamReduceWork q),
        (2, 6, .maskSet ⟨q, bad⟩, State.maskSetWork),
        (2, 7, .gougeRelease q, State.gougeReleaseWork), (2, 8, .listMerge ⟨q, bad⟩, State.listWork false),
        (2, 9, .listEmit ⟨q, bad⟩, State.listWork true), (3, 1, .loadCtx ⟨q, bad⟩, State.loadCtxWork q),
        (3, 2, .scan q ⟨stalled, streamed, retried, bad⟩, State.scanWork q),
        (3, 3, .emit ⟨q, bad⟩, State.emitWork q), (3, 4, .ctxRelease q, State.ctxReleaseWork), (4, 1, .frameJpeg ⟨q, bad⟩, State.burlWork),
        (4, 2, .frameRaw ⟨q, bad⟩, State.burlWork), (5, 1, .peerWrite q, State.peerWork)] :
        List (Nat × Nat × Instr × (State → Invocation → QEntry → Except StopReason Work))),
      Running s q x.1 x.2.1 k e i → x.2.2.2 s i e = .error r →
        exec x.2.2.1 s = .next (s.modEntry q k fun y => { y with outcome := .failed r 0 }))
  ∧ (∀ (s : State) (q k : Nat) (e : QEntry) (i : Invocation) (w : Work), Sound s → i.silent = false →
      (∀ p ∈ w.writes, 0 < p.len → Backed s i p) → (∀ x ∈ w.units, s.unitReady i.tenant x = true) →
      let moves (x : Instr) (bs : List Byte) : Prop := Performs x s q k fun t =>
        MemKept s t i.tenant w.writes ∧ t.pairs = s.pairs ∧ t.rasp = s.rasp ∧ t.burl = s.burl
          ∧ ∀ p ∈ w.writes, 0 < p.len → Stored s t i p bs
      (Running s q 0 1 k e i → s.copyWork i e = .ok w → moves (.copy q {}) (w.reads.flatMap (s.spanGet i)))
      ∧ (Running s q 0 2 k e i → s.fillWork i e = .ok w →
          moves (.fillPattern q) (List.replicate (fld e.desc 32 31 0 / 4) (bytesOfLe 4 (fld e.desc 48 31 0))).flatten)
      ∧ (Running s q 0 3 k e i → s.gatherWork i e = .ok w →
          moves (.gather q {}) ((w.reads.drop 1).flatMap (s.spanGet i))))
  ∧ (∀ (s : State) (q n : Nat) (e : QEntry) (i : Invocation) (w : Work), q < 8 → (s.queue q).entries[n]? = some e →
      e.origin = .word → e.outcome = .queued → s.waitMet e = true → s.invocation? e.tenant e.tag = some i →
      s.dmaWork i e = .ok w → e.tenant < s.tenants.length → (∀ c d, s.dieLive c d = true) →
      ∃ t, exec (.bringUpStart q n) s = .next t ∧ (t.queue q).entries[n]? = some { e with begun := true } ∧ t.ctrs = s.ctrs
        ∧ (w.units = [] → t = s.modEntry q n fun y => { y with begun := true })
        ∧ ∀ x, w.units = [x] → s.unitReady e.tenant x = false → x.2 ∉ (s.pool e.tenant x.1).coming →
            (s.pool e.tenant x.1).units.length + (s.pool e.tenant x.1).coming.length < s.poolUnits e.tenant x.1 →
            x.2 ∈ (t.pool e.tenant x.1).coming ∧ (t.tenant e.tenant).roMisses = s.now :: (s.tenant e.tenant).roMisses)
  ∧ ∀ (s : State) (q k : Nat) (e : QEntry) (i : Invocation) (w : Work), Sound s → i.phase ≠ .stopping → 72 ≤ q → q < 74 →
      s.burl.length = 2 → s.burlWork i e = .ok w → (∀ p ∈ w.writes, Backed s i p) → i ∈ s.invocations →
      let n := maxKp i e
      let b (x : State) : Burl := x.burl.getD (q - 72) {}
      let makes (status width height : Nat) (records : List (List Byte)) (flags : BitVec 8) (post : State → Prop) : Prop :=
        ∀ x ∈ [(Instr.frameJpeg ⟨q, []⟩, 1), (.frameRaw ⟨q, []⟩, 2)], Running s q 4 x.2 k e i → Performs x.1 s q k fun t =>
          (∀ p ∈ w.writes, Stored s t i p (imageResult status width height n records)) ∧ MemKept s t i.tenant w.writes
            ∧ (∃ j ∈ t.invocations, j.ref = i.ref ∧ j.flags = i.flags ||| flags ∧ j.phase = i.phase) ∧ post t
      (s.burlImage i e w = none → makes 0x94 0 0 [] 0x40 fun t => (b t).rejRange = satAdd32 (b s).rejRange 1)
      ∧ (∀ x, s.burlImage i e w = some (.error x) → makes 0x94 x.width x.height [] 0x40 fun t =>
          (b t).images = (b s).images ∧ (b t).rejCoding = satAdd32 (b s).rejCoding (b2n (x.why == .coding))
            ∧ (b t).rejCorrupt = satAdd32 (b s).rejCorrupt (b2n (x.why == .corrupt))
            ∧ (b t).rejSize = satAdd32 (b s).rejSize (b2n (x.why == .size)))
      ∧ ∀ m took, s.burlImage i e w = some (.ok (m, took)) →
          let levels := pyramid (fld e.desc 42 3 0) m
          let all := levels.zipIdx.flatMap fun l =>
            survivors (l.1.candidates l.2 (fld e.desc 43 7 0) (fld e.desc 44 3 0) (fld e.desc 48 31 0))
          let kept := (all.mergeSort fun a b => a.before b).take n
          makes 0 m.width m.height (kept.map fun x => x.record (levels.getD x.level m)) (if n < all.length then 0x80 else 0)
            fun t => (b t).images = satAdd32 (b s).images 1 ∧ (b t).keypoints = satAdd32 (b s).keypoints kept.length

/-- The Lathe units (R353, R354, R357, R358, R359, R360, R365, R367): MMA adds its products, step after step, into the elements
inside its bounds and changes no other; ACC_ZERO clears and ACC_LOAD copies a whole tile, which its invocation has held since the
command started; nothing else changes. -/
def Obligations.LatheOperations : Prop :=
  ∀ (s : State) (q k : Nat) (e : QEntry) (i : Invocation) (w : Work), Sound s → PairsOk s → 8 ≤ q → q < 24 →
    let d := e.desc
    let n := accTile e
    let only (t : State) : Prop := MemKept s t i.tenant [] ∧ t.host = s.host ∧ t.invocations = s.invocations ∧ PairKept s t q [n] []
    let held (t : State) : Prop := ((t.pair q).acc.getD n {}).holder = ((s.pair q).acc.getD n {}).holder
      ∧ ((t.pair q).acc.getD n {}).kind = ((s.pair q).acc.getD n {}).kind
    (Running s q 1 1 k e i → s.mmaWork q i e = .ok w → Performs (.mma ⟨q, []⟩) s q k fun t =>
      only t ∧ held t ∧ (fld d 32 16 0 = 0 → t.pairs = s.pairs) ∧ ∀ a b kind, w.reads = [a, b] →
        mmaKind (fld d 36 3 0) (fld d 36 7 4) = some kind →
        (∀ r c, r ≤ fld d 38 6 0 → c ≤ fld d 39 6 0 →
            let el (f : Nat) (p : Span) (j x : Nat) : Nat :=
              elemAt f (fun o => listReader (s.spanGet i p) (x * panelPitch f + o)) j
            AccAt t q n r c = mmaElement kind (fld d 36 3 0) (fld d 36 7 4)
              (el (fld d 36 3 0) a r) (el (fld d 36 7 4) b c) (fld d 32 16 0)
              (if fld d 37 3 3 = 1 then 0 else AccAt s q n r c) % 2 ^ 32)
        ∧ ∀ r c, r < 128 → c < 128 → fld d 38 6 0 < r ∨ fld d 39 6 0 < c → AccAt t q n r c = AccAt s q n r c)
    ∧ (Running s q 1 2 k e i → s.accZeroWork i e = .ok w → Performs (.accZero q) s q k fun t =>
      only t ∧ held t ∧ ∀ r c, r < 128 → c < 128 → AccAt t q n r c = 0)
    ∧ (Running s q 1 3 k e i → s.accLoadWork i e = .ok w → Performs (.accLoad ⟨q, []⟩) s q k fun t =>
      only t ∧ held t ∧ ∀ a, w.reads = [a] → ∀ r c, r < 128 → c < 128 →
        AccAt t q n r c = readLe (listReader (s.spanGet i a)) (4 * (128 * r + c)) 4)

/-- The Gouge slices (R372, R376, R377, R379, R381, R382, R383, R384, R385, R388, R390, R393): each operation stores its lane values in its
destination, a Gouge tile as FP32 or the tile store in its format, and nothing else. TILE, STREAM and SOFTMAX store each row or
group before they read the next, so `apart` names the commands whose later rows do not read what an earlier one has stored. -/
def Obligations.GougeOperations : Prop :=
  ∀ (s : State) (q k : Nat) (e : QEntry) (i : Invocation) (w : Work), Sound s → PairsOk s → 24 ≤ q → q < 40 →
    (∀ p ∈ w.writes, 0 < p.len → Backed s i p) →
    let d := e.desc
    let n := dstTile e
    let f := dstFmt d
    let only (t : State) : Prop := MemKept s t i.tenant w.writes ∧ t.host = s.host
      ∧ PairKept s t q [] (if dstKind d = 1 then [n] else []) ∧ (t.pair q).masks = (s.pair q).masks
      ∧ ((t.pair q).tiles.getD n {}).holder = ((s.pair q).tiles.getD n {}).holder
    let apart (steps : Nat) : Prop := (dstKind d = 1 → ∀ v ∈ chainOf d steps, opndOf v = 2 → idxOf v ≠ n)
      ∧ (dstKind d = 2 → ∀ p ∈ w.writes, ∀ x ∈ w.reads, s.overlap i.tenant p x = false)
    let source (stream : Bool) (r j : Nat) : Nat :=
      s.sourceRow q i e w stream r (if stream then streamCols d r else cLast d + 1) j
    let value (steps : Nat) (stream : Bool) (r j : Nat) : Nat :=
      (s.pair q).chain s.free (chainOf d steps) r j (source stream r j)
    -- `len` values on each of `count` lines in the tile store, `pitch` bytes apart; half a byte left over keeps its upper bits
    let lines (t : State) (count len pitch : Nat) (v : Nat → Nat → Nat) : Prop :=
      ∀ p ∈ w.writes, elemBytes f len ≤ pitch ∨ count = 1 → ∀ l, l < count →
        let line : Span := { p with off := p.off + l * pitch, len := elemBytes f len }
        t.spanGet i line = packElems f (listReader (s.spanGet i line) (elemBytes f len - 1))
          ((List.range len).map fun j => convert f (cvtOf d) (v l j))
    -- the rows of a tile, in a Gouge tile or, transposed or not, in the tile store
    let stores (t : State) (v : Nat → Nat → Nat) : Prop :=
      (dstKind d = 1 → ∀ r j, r ≤ rLast d → j ≤ cLast d → TileAt t q n r j = v r j % 2 ^ 32)
      ∧ (dstKind d = 2 → transposed d = false → lines t (rLast d + 1) (cLast d + 1) (dstPitch d) v)
      ∧ (dstKind d = 2 → transposed d = true → lines t (cLast d + 1) (rLast d + 1) (dstPitch d) fun l j => v j l)
    -- the elements of the tile that the command does not write
    let kept (t : State) (written : Nat → Nat → Prop) : Prop :=
      dstKind d = 1 → ∀ r j, r < 128 → j < 128 → ¬ written r j →
        TileAt t q n r j = TileAt s q n r j
    (Running s q 2 1 k e i → s.tileWork q i e = .ok w → apart 4 → Performs (.tile ⟨q, []⟩) s q k fun t =>
      only t ∧ t.invocations = s.invocations ∧ stores t (value 4 false) ∧ kept t fun r j => r ≤ rLast d ∧ j ≤ cLast d)
    ∧ (Running s q 2 3 k e i → s.softmaxWork q i e = .ok w → apart 0 → Performs (.softmax ⟨q, []⟩) s q k fun t =>
      let row (r : Nat) : List Nat × BitVec 8 := softmaxRow ((List.range (cLast d + 1)).map fun j =>
        if (s.pair q).active (fld d 52 3 0) r j && (s.pair q).active (fld d 52 7 4) r j
        then some (mul32 (source false r j) (fld d 48 31 0)) else none)
        fun j => (Config.approx s.free (128 * r + j)).toNat
      only t ∧ stores t (fun r j => (row r).1.getD j 0) ∧ kept t (fun r j => r ≤ rLast d ∧ j ≤ cLast d)
        ∧ t.invocations = (s.modInv i.ref fun x => { x with
            flags := (List.range (rLast d + 1)).foldl (fun a r => a ||| (row r).2) x.flags }).invocations)
    ∧ (Running s q 2 4 k e i → s.streamWork q i e = .ok w → apart 4 → Performs (.stream ⟨q, []⟩) s q k fun t =>
      only t ∧ t.invocations = s.invocations ∧ (countOf d = 0 → t.pairs = s.pairs)
        ∧ (dstKind d = 1 → ∀ x, x < countOf d → TileAt t q n (x / 128) (x % 128) = value 4 true (x / 128) (x % 128) % 2 ^ 32)
        ∧ (dstKind d = 2 → 0 < countOf d → lines t 1 (countOf d) 0 fun _ x => value 4 true (x / 128) (x % 128))
        ∧ kept t fun r j => 128 * r + j < countOf d)
    ∧ (Running s q 2 2 k e i → s.tileReduceWork q i e = .ok w → Performs (.tileReduce ⟨q, []⟩) s q k fun t =>
      let enter (r j : Nat) : Nat := redEnter (redOf d) ((s.pair q).active (rmaskOf d) r j) (value 3 false r j)
      let out (x : Nat) : Nat := if axisOf d = 0 then laneTree (redOf d) 7 (lanes (redOf d) ((List.range (cLast d + 1)).map (enter x)))
        else redFold (redOf d) ((List.range (rLast d + 1)).map fun r => enter r x)
      let len := if axisOf d = 0 then rLast d + 1 else cLast d + 1
      let place (x : Nat) : Nat × Nat := if outCol d then (x, fld d 60 10 4) else (fld d 60 10 4, x)
      only t ∧ t.invocations = s.invocations
        ∧ (dstKind d = 1 → ∀ x, x < len → TileAt t q n (place x).1 (place x).2 = out x % 2 ^ 32)
        ∧ (dstKind d = 2 → lines t 1 len 0 fun _ x => out x) ∧ kept t fun r j => ∃ x, x < len ∧ place x = (r, j))
    ∧ (Running s q 2 5 k e i → s.streamReduceWork q i e = .ok w → Performs (.streamReduce ⟨q, []⟩) s q k fun t =>
      let enter (x : Nat) : Nat := redEnter (redOf d) ((s.pair q).active (rmaskOf d) (x / 128) (x % 128)) (value 3 true (x / 128) (x % 128))
      let lane (j : Nat) : Nat := redFold (redOf d) (((List.range (countOf d)).filter fun x => x % 128 == j).map enter)
      let out := laneTree (redOf d) 7 ((List.range 128).map lane)
      let x := fld d 60 17 4
      only t ∧ t.invocations = s.invocations ∧ (dstKind d = 1 → TileAt t q n (x / 128) (x % 128) = out % 2 ^ 32)
        ∧ (dstKind d = 2 → lines t 1 1 0 fun _ _ => out) ∧ kept t fun r j => 128 * r + j = x)
    ∧ (Running s q 2 6 k e i → s.maskSetWork i e = .ok w → Performs (.maskSet ⟨q, []⟩) s q k fun t =>
      let m := fld d 16 2 0
      let mask (x : State) : MaskReg := (x.pair q).masks.getD m {}
      (mask t).holder = (mask s).holder ∧ (fld d 17 1 0 = 0 → (mask t).mask = BitVec.ofNat 128 (fld d 32 127 0))
        ∧ (fld d 17 1 0 = 1 → ∀ j, j < 128 → (mask t).mask.getLsbD j = decide (j < fld d 18 7 0))
        ∧ (fld d 17 1 0 = 2 → ∀ p, w.reads = [p] → (mask t).mask = BitVec.ofNat 128 (leOfBytes (s.spanGet i p)))
        ∧ (∀ j, j ≠ m → (t.pair q).masks[j]? = (s.pair q).masks[j]?) ∧ PairKept s t q [] [] ∧ MemKept s t i.tenant []
        ∧ t.invocations = s.invocations)
    ∧ (Running s q 2 7 k e i → s.gougeReleaseWork i e = .ok w → Performs (.gougeRelease q) s q k fun t =>
      (∀ j g, (s.pair q).tiles[j]? = some g → (t.pair q).tiles[j]?
          = some (if bit (fld d 16 15 0) j && g.holder = some e.holder then { g with holder := none } else g))
        ∧ (∀ j g, (s.pair q).masks[j]? = some g → (t.pair q).masks[j]?
          = some (if bit (fld d 18 7 0) j && g.holder = some e.holder then { g with holder := none } else g))
        ∧ (t.pair q).acc = (s.pair q).acc ∧ MemKept s t i.tenant [] ∧ t.invocations = s.invocations)
    ∧ ∀ emit : Bool, Running s q 2 (if emit then 9 else 8) k e i → s.listWork emit i e = .ok w →
      Performs (if emit then .listEmit ⟨q, []⟩ else .listMerge ⟨q, []⟩) s q k fun t =>
        t.pairs = s.pairs ∧ MemKept s t i.tenant w.writes ∧ (listN d = 0 → t.host = s.host ∧ t.invocations = s.invocations)
        ∧ ∀ p, w.writes = [p] →
          let l := w.reads.map (s.entriesOf i)
          let kind := ((w.reads.head?).map fun p => readLe (listReader (s.spanGet i p)) 4 1).getD 0
          (∀ x ∈ l, rankSort (kind == 0) (listSmall d) x = x) →
          let out := (rankSort (kind == 0) (listSmall d) l.flatten).take (listK d)
          Stored s t i p (listBytes kind out ++ (if emit then List.replicate (16 * (listK d - out.length)) 0 else []))
          ∧ (emit = true → p.space = .hostOut → i.kind = .search → i ∈ s.invocations →
              ∃ j ∈ t.invocations, j.ref = i.ref ∧ j.flags
                = i.flags ||| ((if out.length < i.k then 2 else 0) ||| (if out.isEmpty then 4 else 0)))

/-- The Rasp units (R404, R406, R418, R419, R420, R423, R426): LOAD_CTX gives a context its table, parameters, kind and form and
clears its heap unless it is to be kept; a SCAN scores the units of its plan in order and charges for each it streams; EMIT writes
each heap as a list; CTX_RELEASE frees what its invocation holds; outside the scan groups of its invocation a command is skipped,
and EMIT then writes empty lists. -/
def Obligations.RaspOperations : Prop :=
  ∀ (s : State) (q k : Nat) (e : QEntry) (i : Invocation) (w : Work), Sound s → RaspOk s → 40 ≤ q → q < 72 →
    (∀ p ∈ w.writes, Backed s i p) →
    let d := e.desc
    let ctx (x : State) (n : Nat) : Context := x.context q n
    let only (t : State) : Prop := MemKept s t i.tenant w.writes ∧ t.host = s.host ∧ t.invocations = s.invocations ∧ t.pairs = s.pairs
      ∧ ∀ p, p ≠ q - 40 → t.rasp[p]? = s.rasp[p]?
    (Running s q 3 1 k e i → State.loadCtxWork q s i e = .ok w → Performs (.loadCtx ⟨q, []⟩) s q k fun t =>
      only t ∧ (s.scanGroup i (groupOf q) = false → t.rasp = s.rasp)
      ∧ (s.scanGroup i (groupOf q) = true → (∀ n, n ≠ loadCtx e → ctx t n = ctx s n)
        ∧ (ctx t (loadCtx e)).holder = (ctx s (loadCtx e)).holder ∧ (ctx t (loadCtx e)).kind = fld d 33 1 0
        ∧ (ctx t (loadCtx e)).form = fld d 33 3 2 ∧ (ctx t (loadCtx e)).codeBytes = fld d 34 7 0
        ∧ (fld d 33 4 4 = 0 → (ctx t (loadCtx e)).heap = [] ∧ (ctx t (loadCtx e)).heapK = fld d 36 10 0)
        ∧ (fld d 33 4 4 = 1 → (ctx t (loadCtx e)).heap = (ctx s (loadCtx e)).heap)
        ∧ ∀ src rest, w.reads = src :: rest → (ctx t (loadCtx e)).table.get 0 src.len = s.spanGet i src
          ∧ (fld d 33 5 5 = 0 → (ctx t (loadCtx e)).param = List.replicate 64 0)
          ∧ ∀ par, rest = [par] → (ctx t (loadCtx e)).param = s.spanGet i par))
    ∧ (∀ stalled streamed retried, Running s q 3 2 k e i → s.scanWork q i e = .ok w →
        (i.phase = .stopping → i.endSc = 0x90 ∨ i.endSc = 0x95 → i.silent = false →
          ∃ t, exec (.scan q ⟨stalled, streamed, retried, []⟩) s = .next t ∧ Outcome t q k .cancelled ∧ t.ctrs = s.ctrs)
        ∧ (i.phase ≠ .stopping → s.scanGroup i (groupOf q) = false →
          Performs (.scan q ⟨stalled, streamed, retried, []⟩) s q k fun t => only t ∧ t.rasp = s.rasp)
        ∧ ∀ plan lists l, i.phase ≠ .stopping → w.reads = [plan] → s.piece i (fld d 24 63 0) 0 0 = .ok lists → s.scanLayout q e = some l →
            let plans := (List.range (fld d 36 31 0)).map fun n => scanEntry (listReader (s.spanGet i plan)) (32 * n)
            let walked := (s.modUnit q fun u => { u with stall := satAdd32 u.stall stalled, units := 0, records := 0 }).walkPlan q i
              (fld d 40 3 0) l lists (fld d 40 7 4) retried none plans
            ∃ t, exec (.scan q ⟨stalled, streamed, retried, []⟩) s = .next t ∧ Outcome t q k walked.2 ∧ (∀ n, ctx t n = ctx walked.1 n)
              ∧ (t.unit q).units = satAdd32 (s.unit q).units (walked.1.unit q).units
              ∧ (t.unit q).stall = satAdd32 (s.unit q).stall stalled
              ∧ (t.queue q).deficits = (walked.1.queue q).deficits.modify i.tenant (· - (576 * (walked.1.unit q).units : Nat))
              ∧ { t with rasp := walked.1.rasp, queues := walked.1.queues } = walked.1 ∧ (∀ p, p ≠ q → t.queue p = walked.1.queue p)
              ∧ t.ctrs = s.ctrs ∧ t.pairs = s.pairs)
    ∧ (Running s q 3 3 k e i → s.emitWork q i e = .ok w → (∀ n, (ctx s n).heap.length ≤ (ctx s n).heapK) →
        Performs (.emit ⟨q, []⟩) s q k fun t => MemKept s t i.tenant w.writes ∧ t.host = s.host ∧ t.invocations = s.invocations
          ∧ (∀ n, bit (fld d 28 3 0) n = true →
            let list := if s.scanGroup i (groupOf q) then listBytes (if (ctx s n).kind = 3 then 1 else 0) (ctx s n).heap
              else listBytes (fld d 28 6 6) []
            ∀ p, s.emitPiece i e n list.length = .ok p → t.spanGet i p = list)
          ∧ ∀ n, ctx t n = if s.scanGroup i (groupOf q) && bit (fld d 28 3 0) n && fld d 28 5 5 == 0
              then { ctx s n with heap := [] } else ctx s n)
    ∧ (Running s q 3 4 k e i → s.ctxReleaseWork i e = .ok w → Performs (.ctxRelease q) s q k fun t =>
      only t ∧ ∀ n, ctx t n = if s.scanGroup i (groupOf q) && bit (fld d 16 3 0) n && s.holdsCtx q e n
        then { ctx s n with holder := none } else ctx s n)
    ∧ ∀ n, (s.queue q).entries[n]? = some e → e.origin = .word → classOf d = 3 → opOf d = 2 → s.waitMet e = true →
        (∀ m f, m < n → (s.queue q).entries[m]? = some f → ¬ (f.tenant = e.tenant ∧ classOf f.desc = 3 ∧ opOf f.desc = 2)) →
        s.invocation? e.tenant e.tag = some i → (∀ c d, s.dieLive c d = true) →
        ∀ plan lists, s.scanPieces q i e = some (plan, lists) →
          ∃ t, exec (.scanReadAhead q n) s = .next t ∧ (t.queue q).entries[n]? = some { e with begun := true }
            ∧ (∀ m, ctx t m = ctx s m) ∧ t.ctrs = s.ctrs ∧ t.pairs = s.pairs ∧ t.host = s.host ∧ MemKept s t i.tenant []

/-- A heap keeps the best (R414, R415): whatever the order in which candidates are offered to a cleared heap, it holds the first
`HEAP_K` of them in the order of scores. -/
def Obligations.HeapKeepsTheBest : Prop :=
  ∀ (c : Context) (l : List ListEntry), 1 ≤ c.heapK →
    (l.foldl (fun (x : Context) e => (x.offer e).1) { c with heap := [] }).heap
      = (rankSort (c.kind != 3) (decide (c.kind ≥ 2)) l).take c.heapK

/-! ### Chapter 18: the peer fabric -/

/-- Peer frames (R562 to R566, R568, R570 to R574): a WRITE with nothing to send ends and frees its flow, any other lets its
frames leave in sequence; a frame is sent again when its timer is due, and no earlier; an ACK frees what it
covers and ends a command all of whose frames are covered; a fatal NAK, or a frame sent `RETRY_LIMIT` + 1 times, stops the
invocation; the receiver applies the expected frame of an open run, payload and bump, and consumes it, and leaves a frame of a
closed run unconsumed. -/
def Obligations.PeerFrames : Prop :=
  ∀ (s : State), s.engines = true → s.peer.ports.length = 4 →
    (∀ (q k : Nat) (e : QEntry) (i : Invocation) (w : Work), Running s q 5 1 k e i → s.peerWork i e = .ok w →
      (s.peerFrames e = 0 → exec (.peerWrite q) s
        = .next ((s.modFlow (peerFlow e) fun f => { f with holder := none }).modEntry q k fun x => { x with outcome := .done }))
      ∧ (0 < s.peerFrames e → ∃ t, exec (.peerWrite q) s = .next t ∧ t.peer = s.peer
          ∧ (t.queue q).entries[k]? = some { e with begun := true, outcome := .started } ∧ (∀ p, p ≠ q → t.queue p = s.queue p)
          ∧ t.ctrs = s.ctrs ∧ t.logs = s.logs ∧ t.invocations = s.invocations ∧ t.tenants = s.tenants))
    ∧ (∀ (f : Nat) (r : FlowRec) (h : PeerSend), s.flowRec f = some r → (s.flow f).holder = some h →
        let x := s.flow f
        let port := s.flowPort f r.portMask r.remoteModule
        (h.sent < h.frames → x.inFlight.length < 64 → s.cancelled h = false → s.pausedPort port = false →
          (s.queue h.queue).entries.any (h.owns f) = true →
          ∀ bs, s.payload h (h.sent * s.peer.frameMax) (min s.peer.frameMax (h.bytes - h.sent * s.peer.frameMax)) [] []
              = (s, .bytes bs) →
            ∃ t, exec (.peerFrameSend ⟨f, {}⟩) s = .next t ∧ (t.flow f).nextSeq = (x.nextSeq + 1) % 2 ^ 32
              ∧ (t.flow f).holder = some { h with sent := h.sent + 1 }
              ∧ (∃ z, (t.flow f).inFlight = x.inFlight ++ [z] ∧ z.seq = x.nextSeq ∧ z.sends = 1 ∧ z.sacked = false
                ∧ z.off = h.sent * s.peer.frameMax ∧ (z.first = true ↔ h.sent = 0) ∧ (z.last = true ↔ h.sent + 1 = h.frames))
              ∧ (port = none → t.peer.wire = s.peer.wire)
              ∧ (∀ p, port = some p → ∃ y, t.peer.wire = s.peer.wire ++ [(p, y)] ∧ y.payload = bs ∧ y.dstModule = r.remoteModule % 256
                ∧ y.seq = x.nextSeq % 2 ^ 32)
              ∧ MemKept s t 0 [] ∧ t.ctrs = s.ctrs ∧ t.queues = s.queues)
        ∧ (∀ n z, x.inFlight.find? (fun y => y.seq == n && !y.sacked) = some z → s.cancelled h = false →
            (s.now < z.sentAt + s.peer.rtoUs → exec (.retransmitTimeout ⟨f, {}⟩ n) s = .next s)
            ∧ (z.sentAt + s.peer.rtoUs ≤ s.now → z.sends ≤ s.peer.retryLimit → port = none →
                ∃ t, exec (.retransmitTimeout ⟨f, {}⟩ n) s = .next t ∧ t.peer.wire = s.peer.wire
              ∧ ∃ y ∈ (t.flow f).inFlight, y = { z with sends := z.sends + 1, sentAt := s.now })
            ∧ (z.sentAt + s.peer.rtoUs ≤ s.now → z.sends ≤ s.peer.retryLimit → ∀ p bs, port = some p → s.pausedPort port = false →
                s.payload h z.off z.length [] [] = (s, .bytes bs) → ∃ t y, exec (.retransmitTimeout ⟨f, {}⟩ n) s = .next t
                  ∧ t.peer.wire = s.peer.wire ++ [(p, y)] ∧ y.payload = bs
                  ∧ { z with sends := z.sends + 1, sentAt := s.now } ∈ (t.flow f).inFlight)
            ∧ (z.sentAt + s.peer.rtoUs ≤ s.now → s.peer.retryLimit < z.sends → ∀ i, s.invocation? h.tenant h.tag = some i → i.phase ≠ .stopping →
                (∀ j ∈ s.invocations, j.ref = i.ref → j = i) → ∃ t, exec (.retransmitTimeout ⟨f, {}⟩ n) s = .next t ∧ Stopped t i.ref
                  ∧ (t.flow f).holder = none ∧ (t.flow f).txEpoch = (x.txEpoch + 1) % 16 ∧ (t.flow f).nextSeq = 0
                  ∧ t.logs.faultNo = s.newFault.1)))
    ∧ (∀ (port : Nat) (x : PeerFrame), ForMe s port x →
        (x.type = 1 → ∀ r, s.controlFlow x = some r → ∃ t, exec (.ackReceived port x) s = .next t ∧ t.ctrs = s.ctrs
          ∧ (∀ z ∈ (t.flow r.flow).inFlight, seqBelow z.seq (x.field 16 31 0) = false)
          ∧ (∀ h, (s.flow r.flow).holder = some h → h.sent = h.frames →
              (∀ z ∈ (s.flow r.flow).inFlight, seqBelow z.seq (x.field 16 31 0) = true) → (t.flow r.flow).holder = none
                ∧ ∀ k e, (s.queue h.queue).entries[k]? = some e → h.owns r.flow e = true → Outcome t h.queue k .done))
        ∧ (x.type = 2 → ∀ r h i, s.controlFlow x = some r → (s.flow r.flow).holder = some h → s.invocation? h.tenant h.tag = some i →
            i.phase ≠ .stopping → (∀ j ∈ s.invocations, j.ref = i.ref → j = i) →
            (s.flow r.flow).inFlight.any (·.seq == x.field 16 31 0) = true →
            (x.field 20 7 0 ∈ [1, 3, 4, 5] → ∃ t, exec (.nakReceived port x) s = .next t ∧ Stopped t i.ref
              ∧ (t.flow r.flow).holder = none ∧ (t.flow r.flow).txEpoch = ((s.flow r.flow).txEpoch + 1) % 16)
            ∧ (x.field 20 7 0 = 2 → ∃ t, exec (.nakReceived port x) s = .next t ∧ t.flow r.flow = s.flow r.flow
              ∧ t.invocations = s.invocations))
        ∧ (x.type = 0 → ∀ r, OnFlow s x r → x.seq = (s.flow x.dstFlow).expected → (s.flow x.dstFlow).heldFrames = [] →
            let f := x.dstFlow
            ((s.tenant r.tenant).runOpen = false → (s.flow f).poisoned = false ∨ x.first = true →
              ∃ t, exec (.dataFrameReceived port x) s = .next t ∧ (t.flow f).expected = (s.flow f).expected ∧ t.ctrs = s.ctrs
                ∧ t.tenants = s.tenants)
            ∧ ((s.flow f).poisoned = true → x.first = false → ∃ t, exec (.dataFrameReceived port x) s = .next t
                ∧ (t.flow f).expected = ((s.flow f).expected + 1) % 2 ^ 32 ∧ t.ctrs = s.ctrs ∧ t.tenants = s.tenants)
            ∧ ((s.tenant r.tenant).runOpen = true → (s.flow f).poisoned = false ∨ x.first = true →
                (∀ c, s.frameTarget r.tenant x = .error c → 0 < x.length → ∃ t, exec (.dataFrameReceived port x) s = .next t
                  ∧ (t.flow f).expected = ((s.flow f).expected + 1) % 2 ^ 32 ∧ (t.flow f).poisoned = true ∧ t.ctrs = s.ctrs
                  ∧ t.tenants = s.tenants)
                ∧ ∀ p, s.frameTarget r.tenant x = .ok p → Sound s → Backed s { (default : Invocation) with tenant := r.tenant } p →
                    (x.bumpValid = true → s.ownsCtr r.tenant (x.field 20 12 0) = true ∧ s.ctrSat (x.field 20 12 0) = false
                      ∧ s.ctrPoison (x.field 20 12 0) = none ∧ s.ctr (x.field 20 12 0) + x.field 22 15 0 ≤ ctrMax) →
                    ∃ t, exec (.dataFrameReceived port x) s = .next t ∧ (t.flow f).poisoned = false
                      ∧ (t.flow f).expected = ((s.flow f).expected + 1) % 2 ^ 32
                      ∧ Stored s t { (default : Invocation) with tenant := r.tenant } p (x.payload.take x.length)
                      ∧ MemKept s t r.tenant [p] ∧ (x.bumpValid = false → t.ctrs = s.ctrs)
                      ∧ (x.bumpValid = true → t.ctr (x.field 20 12 0) = s.ctr (x.field 20 12 0) + x.field 22 15 0))))
    ∧ ∀ f r, s.flowRec f = some r → 0 < (s.flow f).ackOwed → ∃ t, exec (.ackTimer f) s = .next t ∧ (t.flow f).ackOwed = 0
        ∧ (t.flow f).expected = (s.flow f).expected ∧ ∀ p, s.flowPort f r.portMask r.remoteModule = some p →
          ∃ y, t.peer.wire = s.peer.wire ++ [(p, y)] ∧ y.type = 1 ∧ y.seq = (s.flow f).expected % 2 ^ 32

/-- Peer ports (R551, R556, R557, R558, R567, Tables 18-1 and 18-4): training, discovery, the judgement of a HELLO, loss of the
link, PFC and the retry budget. -/
def Obligations.PeerPorts : Prop :=
  ∀ (s : State) (port : Nat), s.engines = true → s.peer.ports.length = 4 → port < 4 →
    let st := (s.port port).state
    let others (t : State) : Prop := (∀ p, p ≠ port → t.port p = s.port p) ∧ t.peer.flows = s.peer.flows ∧ t.ctrs = s.ctrs
      ∧ t.invocations = s.invocations ∧ t.tenants = s.tenants
    (∀ pause, s.peer.pfcEn = true → s.peer.mode = 0 → ∃ t, exec (.pfcPauseReceived port pause) s = .next t
      ∧ (t.port port).paused = pause ∧ others t)
    ∧ (∀ a, (s.port port).helloAt = some a → s.now < a + 1000 → exec (.helloTimer port) s = .next s)
    ∧ (s.peer.mode ≠ 0 → st ∈ [.discovery, .held, .up] → (∀ a, (s.port port).helloAt = some a → a + 1000 ≤ s.now) →
        ∃ t y, exec (.helloTimer port) s = .next t ∧ (t.port port).helloAt = some s.now
        ∧ t.peer.wire = s.peer.wire ++ [(port, y)] ∧ y.type = 3 ∧ y.dst = BitVec.allOnes 48 ∧ others t)
    ∧ (∀ x : PeerFrame, st ∈ [.discovery, .held, .up] → x.type = 3 → x.fcsOk = true → x.etype = s.peer.etype → x.field 0 7 4 = 1 →
        ∃ t, exec (.helloReceived port x) s = .next t ∧ (t.port port).nbrModule = x.srcModule ∧ (t.port port).nbrValid = true
          ∧ others t ∧ (∀ c, s.helloCause port x = some c → (t.port port).state = .held ∧ (t.port port).heldCause = c)
          ∧ (s.helloCause port x = none → (t.port port).state = .up ∧ (t.port port).heldCause = 0)
          ∧ (x.field 4 31 0 ≠ s.pers.active.systemId → (t.port port).heldCause = 2)
          ∧ (s.peer.mode = 1 → x.field 4 31 0 = s.pers.active.systemId → x.field 12 3 2 = 1 →
              x.srcModule = (s.moduleIndex + (if port % 2 = 0 then 1 else s.pers.active.systemSize - 1)) % s.pers.active.systemSize →
              0 < s.pers.active.systemSize → x.field 12 1 0 = (if port % 2 = 0 then port + 1 else port - 1) →
              (t.port port).state = .up))
    ∧ (st = .training → (∃ t, exec (.portTrainingDone port true) s = .next t ∧ (t.port port).state = .discovery ∧ others t)
        ∧ ∃ t, exec (.portTrainingDone port false) s = .next t ∧ (t.port port).state = .down
          ∧ (t.port port).linkDowns = satAdd32 (s.port port).linkDowns 1 ∧ others t)
    ∧ (∀ a, (s.port port).downAt = some a → s.now < a + 1000000 → exec (.portRetrainTimer port) s = .next s)
    ∧ ((∀ a, (s.port port).downAt = some a → a + 1000000 ≤ s.now) → st = .down → s.unusedPort port = false → s.peer.cageOn.getD (port / 2) false = true →
        s.peer.cable.getD (port / 2) false = true → s.power.railsUp = true → ∃ t, exec (.portRetrainTimer port) s = .next t
          ∧ (t.port port).state = .training ∧ others t)
    ∧ (st ∈ [.discovery, .held, .up] → ∃ t, exec (.portLinkLost port) s = .next t ∧ (t.port port).state = .down
        ∧ (t.port port).linkDowns = satAdd32 (s.port port).linkDowns 1 ∧ others t)
    ∧ ∀ value : Dword, s.power.stage = .on → s.power.perst = false →
        let rto := if 10 ≤ bits value.toNat 13 0 ∧ bits value.toNat 13 0 ≤ 10000 then bits value.toNat 13 0 else s.peer.rtoUs
        let limit := if 1 ≤ bits value.toNat 21 16 then bits value.toNat 21 16 else s.peer.retryLimit
        (rto * (limit + 1) < 1000 * s.pcie.floorMs →
          exec (.peerRtoWrite value) s = .next { s with peer := { s.peer with rtoUs := rto, retryLimit := limit } })
        ∧ (1000 * s.pcie.floorMs ≤ rto * (limit + 1) → ∃ t, exec (.peerRtoWrite value) s = .next t ∧ t.peer = s.peer ∧ t.ctrs = s.ctrs)

/-! ### Chapters 15 and 16: flash -/

/-- Channels and dies (R453, R454, R456, R457, R459, R462, R463, R467, R469 to R472, R474, R475, R476, R477, R490, R186): training,
the end of reads, programs and erases, read-retry and rebuild, suspension, timeouts, promotion and calibration; no operation of a
die changes a counter, an invocation, the memory protection, the peer fabric, the clocks or the service complex. What a mode
without data, or a target in reset, leaves a die to do is nothing. -/
def Obligations.FlashOperations : Prop :=
  ∀ (s : State) (c d : Nat), s.media.channels.length = 32 → s.media.dies.length = 1024 → c < 32 → d < 32 →
    let die := s.die c d
    let ch := s.channel c
    let kept (t : State) : Prop := t.ctrs = s.ctrs ∧ t.invocations = s.invocations ∧ t.prot = s.prot ∧ t.peer = s.peer
      ∧ t.power = s.power ∧ t.svc = s.svc ∧ ∀ k, k ≠ c → t.channel k = s.channel k
    let isolates (x : Instr) (cause : Nat) : Prop := ch.isolated = false → ∃ t, exec x s = .next t ∧ kept t
      ∧ (t.channel c).isolated = true ∧ (t.channel c).cause = cause ∧ (t.channel c).isolateFault = s.newFault.1
      ∧ ∀ k, k < s.diesPerChannel → (t.die c k).running = none ∧ (t.die c k).suspended = none ∧ (t.die c k).queue = []
    let ends (x : Instr) (r : CmdRef) (st : Status) (dw0 : Nat) (post : State → Prop) : Prop :=
      ∃ t, exec x s = .next t ∧ kept t ∧ EndsRef s t r st dw0 ∧ post t
    let runs : Option DieOp := s.running c d
    -- only a target out of reset and a mode that carries data run an operation
    (s.targetResets c d = true ∨ ch.mode = 0 → ∀ failing n,
      exec (.pageReadDone c d failing n) s = .next s ∧ exec (.programDone c d failing) s = .next s
        ∧ exec (.eraseDone c d failing) s = .next s ∧ exec (.busyTimeout c d) s = .next s)
    -- training
    ∧ (s.power.stage = .on → ch.trained = true → ∀ m, exec (.channelTraining c m) s = .next s)
    ∧ (s.power.stage = .on → ch.trained = false → s.power.railsUp = true →
      (∀ m, 0 < m → ∃ t, exec (.channelTraining c (some m)) s = .next t ∧ kept t ∧ (t.channel c).trained = true
        ∧ (t.channel c).mode = min m s.media.maxMode ∧ (t.channel c).isolated = false ∧ (t.channel c).cause = 0
        ∧ ((t.channel c).belowCap = true ↔ m < s.media.maxMode))
      ∧ isolates (.channelTraining c none) 4 ∧ isolates (.channelTraining c (some 0)) 4)
    -- the end of a read
    ∧ (∀ o a w x pg, runs = some o → o.kind = .read a [w] x → s.flashPage a = some pg → pg.bad = false →
        isolates (.pageReadDone c d [] 1) 1
        ∧ (∀ r lba p, x = .nvm r lba → s.media.reads.find? (·.ref == r) = some p → p.missing = [lba] → Held s r →
            ends (.pageReadDone c d [] 0) r .success 0 fun t => t.media.reads = s.media.reads.filter (·.ref != r)
              ∧ t.media.pages = s.media.pages ∧ t.media.recoveries = s.media.recoveries)
        ∧ (∀ tn m u, x = .bringUp tn m u → tn < s.tenants.length → ∃ t, exec (.pageReadDone c d [] 0) s = .next t ∧ kept t
            ∧ NoneEnds s t
            ∧ (u ∈ (s.pool tn m).coming → u ∈ (t.pool tn m).units ∧ u ∉ (t.pool tn m).coming)
            ∧ (u ∉ (s.pool tn m).coming → t.pool tn m = s.pool tn m))
        ∧ (∀ r lba, x = .nvm r lba → s.recovery? a w = none → 500 ≤ s.media.budgetUs → a.channel < 32 → a.die < 32 →
            ∃ t, exec (.pageReadDone c d [w] 0) s = .next t ∧ t.ctrs = s.ctrs ∧ NoneEnds s t ∧ t.host = s.host
              ∧ t.recovery? a w
                = some { addr := a, codeword := w, faultNo := s.newFault.1, since := s.now, readers := [x] }
              ∧ t.hasOp a.channel a.die (· == .retry a w) = true)
        ∧ (ch.isolated = false → (∀ r, x ≠ .media r) →
            3 ≤ (ch.firstFails.filter fun f => f.1 != d && decide (s.now < f.2 + 1000)).length →
            ∃ t, exec (.pageReadDone c d [w] 2) s = .next t ∧ (t.channel c).isolated = true ∧ (t.channel c).cause = 2))
    -- read-retry, then rebuild
    ∧ (∀ a w rc r lba p, s.recovery? a w = some rc → rc.readers.filter s.readerWaits = [.nvm r lba] →
        s.media.reads.find? (·.ref == r) = some p → p.missing = [lba] → Held s r → r.sqid ≠ 0 → a.channel < 32 → a.die < 32 →
        let spent := 10 * (s.now - rc.since)
        let now (tried : Nat) : Recovery := { rc with readers := [.nvm r lba], tried := tried }
        (rc.rebuilding = false → (s.running a.channel a.die).map (·.kind) = some (.retry a w) →
          (∀ pg, s.flashPage a = some pg → pg.bad = false → ends (.readRetryAttempt a w true) r .success 0 fun t =>
            t.recovery? a w = none ∧ t.zoneSet a = (retrySets (s.zoneSet a)).getD rc.tried 0
              ∧ t.media.retryReads = if rc.tried = 0 then satAdd32 s.media.retryReads 1 else s.media.retryReads)
          ∧ (rc.tried + 1 < (retrySets (s.zoneSet a)).length → spent + s.attemptMax + s.rebuildReserve ≤ 10 * s.media.budgetUs →
              ∃ t, exec (.readRetryAttempt a w false) s = .next t ∧ kept t ∧ NoneEnds s t
                ∧ t.recovery? a w = some (now (rc.tried + 1)))
          ∧ (10 * s.media.budgetUs < spent + s.attemptMax + s.rebuildReserve → spent + s.rebuildReserve ≤ 10 * s.media.budgetUs →
              ∃ t, exec (.readRetryAttempt a w false) s = .next t ∧ kept t ∧ NoneEnds s t
                ∧ t.recovery? a w = some { now (rc.tried + 1) with rebuilding := true, waits := s.rowMates a })
          ∧ (10 * s.media.budgetUs < spent + s.rebuildReserve → ends (.readRetryAttempt a w false) r .unrecoveredRead 0 fun t =>
              t.recovery? a w = none ∧ t.media.unreadable = satAdd32 s.media.unreadable 1))
        ∧ (rc.rebuilding = true → rc.waits ≠ [] → ∀ ok, exec (.stripeRebuild a w ok) s = .next s)
        ∧ (rc.rebuilding = true → rc.waits = [] →
          (∀ b q bs, s.dataPageAt a = some (b, q) →
            s.rebuild b (b.locate q).2.1 (b.locate q).2.2 (b.locate q).1 rc.erased = some bs →
            ends (.stripeRebuild a w true) r .success 0 fun t => t.recovery? a w = none
              ∧ t.media.rebuilt = satAdd32 s.media.rebuilt 1 ∧ (t.superblock b.id).map (·.refresh) = some true)
          ∧ ends (.stripeRebuild a w false) r .unrecoveredRead 0 fun t =>
              t.recovery? a w = none ∧ t.media.unreadable = satAdd32 s.media.unreadable 1))
    -- the end of a program
    ∧ (∀ o r a content, runs = some o → o.kind = .directProgram (some r) a content → Held s r →
        (s.outOfOrder a = false → ends (.programDone c d []) r .success 0 fun t =>
          t.flashPage a = some { addr := a, raw := content })
        ∧ (s.outOfOrder a = false → ends (.programDone c d [a.plane]) r .writeFault 0 fun t =>
          t.flashPage a = some { addr := a, raw := content, bad := true })
        ∧ (s.outOfOrder a = true → ends (.programDone c d []) r .writeFault 0 fun t => t.media.pages = s.media.pages))
    ∧ (∀ o job slot planes j b, runs = some o → o.kind = .program job slot planes →
        s.media.jobs.find? (·.id == job) = some j → s.superblock j.superblock = some b →
        ∀ m ∈ j.members, m.slot = slot → m.plane ∈ planes → (∀ n ∈ j.members, n.slot = slot → n.plane = m.plane → n = m) →
          (s.outOfOrder (b.page slot m.plane j.row) = false → ∃ t, exec (.programDone c d []) s = .next t ∧ t.ctrs = s.ctrs
            ∧ t.flashPage (b.page slot m.plane j.row) = some { addr := b.page slot m.plane j.row, raw := m.content })
          ∧ ∀ failing, m.plane ∈ failing ∨ s.outOfOrder (b.page slot m.plane j.row) = true →
            ∃ t, exec (.programDone c d failing) s = .next t ∧ t.ctrs = s.ctrs
            ∧ (b.page slot m.plane j.row).blockAddr ∈ t.media.retiredBlocks
            ∧ (t.superblock b.id).map (·.refresh) = some true)
    -- the end of an erase
    ∧ (∀ o r a, runs = some o → o.kind = .directErase (some r) a → Held s r →
        (ends (.eraseDone c d []) r .success 0 fun t => (∀ p ∈ t.media.pages, p.addr.blockAddr ≠ a)
          ∧ (∀ p ∈ s.media.pages, p.addr.blockAddr ≠ a → p ∈ t.media.pages) ∧ t.cyclesOf a = s.cyclesOf a + 1)
        ∧ ends (.eraseDone c d [a.plane]) r .writeFault 0 fun t => t.media.pages = s.media.pages)
    ∧ (∀ o sb slot b, runs = some o → o.kind = .erase sb slot → s.superblock sb = some b → b.erasing = [slot] →
        ∃ t, exec (.eraseDone c d []) s = .next t ∧ t.superblock sb = none ∧ t.media.retiredBlocks = s.media.retiredBlocks
          ∧ ∀ a ∈ b.slotBlocks slot, ∀ p ∈ t.media.pages, p.addr.blockAddr ≠ a)
    -- suspension, timeouts, promotion
    ∧ (∀ o, die.suspended = some o → die.running = none → s.targetResets c d = false →
        (∀ x ∈ die.queue, x.isRead = true → x.cls ≤ 2 → x.late = true) →
        (s.throttled c o = false → exec (.operationResume c d) s
          = .next (s.modDie c d fun x => { x with running := some { o with since := s.now }, suspended := none }))
        ∧ (s.throttled c o = true → exec (.operationResume c d) s = .next s))
    ∧ (∀ o, runs = some o →
        (s.ranFor o ≤ s.busyTimeout o → exec (.busyTimeout c d) s = .next s)
        ∧ (s.busyTimeout o < s.ranFor o → ∃ t, exec (.busyTimeout c d) s = .next t ∧ kept t ∧ (t.die c d).running = none
          ∧ (t.die c d).resetting = some o ∧ (t.die c d).queue = die.queue ∧ t.targetResets c d = true
          ∧ t.media.pages = s.media.pages))
    ∧ (∀ o r a content, die.resetting = some o → o.kind = .directProgram (some r) a content → Held s r → r.sqid ≠ 0 →
        die.running = none → die.suspended = none →
        (die.timedOutAt = none → ends (.targetResetDone c d true) r .abortedByRecovery s.newFault.1 fun t =>
          (t.die c d).resetting = none ∧ (t.die c d).timedOutAt = some s.now ∧ (t.die c d).retired = die.retired)
        ∧ (ends (.targetResetDone c d false) r .abortedByRecovery s.newFault.1 fun t =>
            (t.die c d).retired = true ∧ (t.die c d).retireFault = s.newFault.1 ∧ (t.die c d).queue = [])
        ∧ ∀ at_, die.timedOutAt = some at_ → s.now < at_ + 86400000000 →
            exec (.targetResetDone c d true) s = exec (.targetResetDone c d false) s)
    ∧ (∀ x o : DieOp, s.dieLive c d = true → ch.mode ≠ 0 → s.power.level < 2 → die.running = none →
        s.targetResets c d = false → die.suspended = none → die.queue = [x, o] → x.promoted = false →
        let runsNext (i : Instr) : Prop := ∃ t, exec i s = .next t ∧ kept t ∧ (t.die c d).queue = [x]
          ∧ (t.die c d).running = some { o with promoted := true, nested := false, since := s.now, ran := 0 }
        (x.cls = 2 → o.cls = 3 → o.arrived + 10000 ≤ s.now → runsNext (.programPromotion c d))
        ∧ (x.cls ∈ [3, 4] → o.cls = 5 → o.arrived + 50000 ≤ s.now → runsNext (.backgroundPromotion c d)))
    ∧ (∀ zone page set, s.power.stage = .on → s.dieLive c d = true → set ≤ 8 → zone < 128 → page < 64 * s.pagesPerBlock →
        let mine := (· == DieOpKind.calibrate zone)
        (s.hasOp c d mine = false → s.calibrationDue c d zone = false → exec (.zoneCalibration c d zone page set) s = .next s)
        ∧ (s.hasOp c d mine = false → s.calibrationDue c d zone = true → die.running ≠ none →
          exec (.zoneCalibration c d zone page set) s = .next (s.enqueue c d { cls := 5, kind := .calibrate zone }))
        ∧ (runs.map (·.kind) = some (.calibrate zone) →
          ∃ t, exec (.zoneCalibration c d zone page set) s = .next t ∧ kept t ∧ ((t.die c d).zoneSets.lookup zone).getD 0 = set
          ∧ (∀ z, z ≠ zone → (t.die c d).zoneSets.lookup z = die.zoneSets.lookup z)
          ∧ t.media.calibrations = satAdd32 s.media.calibrations 1))
    -- the retry budget
    ∧ ∀ value : Dword, s.power.stage = .on → s.power.perst = false →
        let v := bits value.toNat 19 0
        (500 ≤ v → v ≤ 999999 → v < 1000 * s.pcie.floorMs →
          exec (.mediaRrBudgetWrite value) s = .next (s.modMedia fun m => { m with budgetUs := v }))
        ∧ (v < 500 ∨ 999999 < v → exec (.mediaRrBudgetWrite value) s = .next s)
        ∧ (1000 * s.pcie.floorMs ≤ v → ∃ t, exec (.mediaRrBudgetWrite value) s = .next t ∧ kept t ∧ t.media = s.media)

/-- Media management (R400, R454, R495, R497, R500, R502, R504, R508, R509, R510, R514): a checkpoint goes to the other metadata
superblock and empties the journal tail; a row timeout places what waits, once it is due; collection and levelling read their
source at class 5 and then only copy, and a switch moves map entries to the copies, unless that would move an extent of a mapped
group to another channel; an empty superblock is erased; the patrol reads, classifies and refreshes; the flush of a power loss
leaves no dirty block that is neither mapped nor listed as lost. -/
def Obligations.MediaManagement : Prop :=
  ∀ (s : State),
    let kept (t : State) : Prop := t.ctrs = s.ctrs ∧ t.invocations = s.invocations ∧ t.tenants = s.tenants ∧ t.prot = s.prot
      ∧ t.peer = s.peer ∧ t.power = s.power ∧ t.svc = s.svc
    let maps (t : State) : Prop := kept t ∧ t.media.units = s.media.units ∧ t.media.extents = s.media.extents
      ∧ t.media.pages = s.media.pages ∧ t.media.namespaces = s.media.namespaces ∧ t.media.buffer = s.media.buffer
    let copying (t : State) (b new : Superblock) : Prop := ∃ j ∈ t.media.jobs, j.kind = .relocation b.id ∧ j.superblock = new.id
      ∧ j.row = 0 ∧ ∀ x, (s.validItems b).head? = some x → x.1 ∈ j.members.map (·.item)
    -- the source reads of superblock `b`: each valid page of a live slot is read at class 5, planes of one page together
    let sourcing (t : State) (b : Superblock) (worn : Bool) : Prop := (t.superblock b.id).map (·.sourcing) = some (some worn)
      ∧ ∀ x ∈ s.validItems b, let l := b.locate x.2; let p := slotPlace b.group b.set l.2.1
        s.dieLive p.1 p.2 = true → 32 * p.1 + p.2 < s.media.dies.length →
          ∃ planes, l.2.2 ∈ planes ∧ t.hasOp p.1 p.2 (· == .sourceRead b.id l.2.1 l.1 planes) = true
    (s.power.stage = .on → s.power.dramReady = true → exec .mapReplay s
      = .next { s with media := { s.media with groups := s.media.groups.map fun g => { g with mapLoaded := true } } })
    ∧ (∀ g, s.power.stage = .on → g < s.media.groups.length → ∃ t, exec (.journalCheckpoint g) s = .next t ∧ kept t
        ∧ (let x := s.media.groups.getD g {}
           t.media.groups.getD g {} = { x with journalTail := 0, metaTail := 0, checkpoints := x.checkpoints + 1
                                               metaBlock := 1 - x.metaBlock, metaRow := 0 })
        ∧ (∀ h, h ≠ g → t.media.groups.getD h {} = s.media.groups.getD h {})
        ∧ t.media.units = s.media.units ∧ t.media.extents = s.media.extents
        ∧ ∀ p ∈ s.media.pages, metadataBlock p.addr.blockAddr = false → p ∈ t.media.pages)
    ∧ (∀ g, s.power.stage = .on → s.now < (s.media.groups.getD g {}).lastData + 2000 → exec (.partialRowTimeout g) s = .next s)
    ∧ (∀ g x b s1, s.power.stage = .on → (s.media.groups.getD g {}).lastData + 2000 ≤ s.now → s.media.buffer = [x] →
        x.job = none → x.fn < shadowBase →
        s.unitGroup x.fn x.nsid = some g → s.target g .writes (s.rotation g) = some (b, s1) → 2 < b.slots.length →
        ∃ t, exec (.partialRowTimeout g) s = .next t ∧ kept t ∧ NoneEnds s t ∧ t.media.units = s.media.units
          ∧ t.media.buffer = [{ x with job := some s.media.nextJob }]
          ∧ ∃ j ∈ t.media.jobs, j.id = s.media.nextJob ∧ j.superblock = b.id ∧ j.kind = .writes
            ∧ .unit x.fn x.nsid (x.lba / 4) ∈ j.members.map (·.item))
    ∧ (∀ g, s.power.stage = .on → g < s.media.groups.length → (∀ b ∈ s.media.superblocks, b.id < s.media.nextSuperblock) →
        500 ≤ s.media.budgetUs →
        let old := (s.media.groups.getD g {}).gcState
        ∃ t, exec (.garbageCollection g) s = .next t ∧ maps t
          ∧ (t.media.groups.getD g {}).gcState = gcNext old (s.freeLevel g)
          ∧ t.logs.c2.nextSeq = s.logs.c2.nextSeq + (if gcNext old (s.freeLevel g) = 3 ∧ old ≠ 3 then 1 else 0)
          ∧ (∀ b, s.sourced g false = none →
            (s.media.superblocks.filter fun y => y.group == g && s.idleSuperblock y && y.refresh) = [b] → sourcing t b false)
          ∧ ∀ b new s1 x bs, s.sourced g false = some b → b.group = g → s.sourcesRun b.id = false → s.role g = some .index →
            s.groupMapped g = false →
            s.openSuperblock g b.set .relocation false = some (new, s1) → (s.validItems b).head? = some x →
            s.content b.id x.2 = some bs → copying t b new)
    ∧ (∀ g, s.power.stage = .on → g < s.media.groups.length → (∀ b ∈ s.media.superblocks, b.id < s.media.nextSuperblock) →
        500 ≤ s.media.budgetUs →
        let w := s.wearBounds g
        let due := (s.media.groups.getD g {}).levelledAt + 600000000 ≤ s.now
        (s.sourced g true = none →
          (s.role g ≠ some .index ∨ ¬ due → exec (.staticLevelling g) s = .next s)
          ∧ (s.role g = some .index → due → w.1 - w.2 ≤ s.media.wearSpread → exec (.staticLevelling g) s
              = .next (s.modGroup g fun x => { x with levelledAt := s.now }))
          ∧ (s.role g = some .index → due → s.media.wearSpread < w.1 - w.2 → ∃ t, exec (.staticLevelling g) s = .next t ∧ maps t
            ∧ (t.media.groups.getD g {}).levelledAt = s.now
            ∧ ∀ b, s.media.superblocks = [b] → b.group = g → b.closed = true → s.idleSuperblock b = true →
              (∃ k ∈ b.slots, ∃ a ∈ b.slotBlocks k, s.cyclesOf a = w.2) → sourcing t b true))
        ∧ ∀ b, s.sourced g true = some b →
          (s.sourcesRun b.id = true → exec (.staticLevelling g) s = .next s)
          ∧ (s.sourcesRun b.id = false → ∃ t, exec (.staticLevelling g) s = .next t ∧ maps t
            ∧ ∀ new s1 x bs, b.group = g → s.role g = some .index → s.groupMapped g = false →
              s.openSuperblock g b.set .relocation true = some (new, s1) → (s.validItems b).head? = some x →
              s.content b.id x.2 = some bs → copying t b new))
    ∧ (∀ sb, s.power.stage = .on → (∀ j ∈ s.media.jobs, j.kind ≠ .relocation sb) →
        ((∃ c ∈ s.media.copied, c.source = sb ∧ s.movesChannel c = true) → exec (.relocationSwitch sb) s = .next s)
        ∧ ((∀ c ∈ s.media.copied, c.source = sb → s.movesChannel c = false) →
          ∃ t, exec (.relocationSwitch sb) s = .next t ∧ kept t ∧ t.media.pages = s.media.pages
          ∧ (∀ c ∈ t.media.copied, c.source ≠ sb) ∧ (∀ c ∈ s.media.copied, c.source ≠ sb → c ∈ t.media.copied)
          ∧ (∀ u ∈ s.media.units, (∀ q, u.place ≠ .at sb q) → u ∈ t.media.units)
          ∧ ∀ u ∈ s.media.units, ∀ q, u.place = .at sb q → ∀ c ∈ s.media.copied, c.source = sb → c.superblock ≠ sb →
            c.item = .unit u.fn u.nsid u.unit →
            (∀ y ∈ s.media.copied, y.source = sb → y.item = c.item → y = c) →
              { u with place := .at c.superblock c.page } ∈ t.media.units))
    ∧ (∀ sb b, s.power.stage = .on → s.superblock sb = some b →
        let live := b.slots.filter fun k => s.dieLive (slotPlace b.group b.set k).1 (slotPlace b.group b.set k).2
        (b.closed = true → s.validItems b = [] → s.idleSuperblock b = true → s.readsRun b = false → live ≠ [] →
          s.media.dies.length = 1024 → (∀ k ∈ live, 32 * (slotPlace b.group b.set k).1 + (slotPlace b.group b.set k).2 < 1024) →
          ∃ t, exec (.superblockErase sb) s = .next t ∧ maps t ∧ (t.superblock sb).map (·.erasing) = some live
            ∧ ∀ k ∈ live, let d := t.die (slotPlace b.group b.set k).1 (slotPlace b.group b.set k).2
              ∃ o ∈ d.running.toList ++ d.queue, o.kind = .erase b.id k)
        ∧ (b.closed = false ∨ s.validItems b ≠ [] ∨ s.idleSuperblock b = false ∨ s.readsRun b = true →
            exec (.superblockErase sb) s = .next s))
    ∧ (∀ c d bits_ result, s.power.stage = .on → s.dieLive c d = true → s.media.dies.length = 1024 → 32 * c + d < 1024 →
        let x := s.die c d
        let i := x.patrolNext
        let a := s.patrolPage c d i
        let mine := (· == DieOpKind.patrol i)
        0 < i → i + 1 < s.patrolPages →
          (s.hasOp c d mine = false → s.now < x.patrolStart + i * (x.patrolDays * 86400000000 / s.patrolPages) →
            exec (.patrolStep c d bits_ result) s = .next s)
          ∧ (s.hasOp c d mine = false → x.patrolStart + i * (x.patrolDays * 86400000000 / s.patrolPages) ≤ s.now →
            (s.patrols a = false →
              exec (.patrolStep c d bits_ result) s = .next (s.modDie c d fun x => { x with patrolNext := i + 1 }))
            ∧ (s.patrols a = true → x.running ≠ none →
              exec (.patrolStep c d bits_ result) s = .next (s.enqueue c d { cls := 5, kind := .patrol i })))
          ∧ ((s.running c d).map (·.kind) = some (.patrol i) →
            (result = 0 → bits_ ≤ 120 → exec (.patrolStep c d bits_ result) s
              = .next (((s.endRunning c d).modDie c d fun x => { x with patrolNext := i + 1 }).kick c d))
            ∧ ∀ b pg, s.flashPage a = some pg → pg.lost = [] → s.holderOf a.blockAddr = some b → s.superblock b.id = some b →
              ∃ t, exec (.patrolStep c d bits_ result) s = .next t ∧ kept t ∧ (t.die c d).patrolNext = i + 1
                ∧ (result ≤ 3 → t.media.pages = s.media.pages ∧ t.media.units = s.media.units ∧ t.media.extents = s.media.extents)
                ∧ (result ≠ 0 ∨ 120 < bits_ → (t.superblock b.id).map (·.refresh) = some true)
                ∧ (result = 3 → t.media.rebuilt = satAdd32 s.media.rebuilt 4)
                ∧ (3 < result → t.media.unreadable = satAdd32 s.media.unreadable 4
                  ∧ (t.flashPage a).map (·.lost) = some [3, 2, 1, 0])))
    ∧ (∀ failed, s.power.stage = .shed → s.power.trippedRail = none → (∀ b ∈ s.media.superblocks, 8 ≤ b.slots.length) →
        (∀ u ∈ s.media.units, u.stamp < s.media.nextJob) →
        ∃ t, exec (.p2Flush failed) s = .next t ∧ t.power = { s.power with stage := .flushed } ∧ t.ctrs = s.ctrs
          ∧ t.pcie = s.pcie ∧ t.host = s.host ∧ t.tenants = s.tenants
          ∧ (∀ d ∈ t.media.dies, d.queue = [] ∧ d.running = none ∧ d.suspended = none)
          ∧ (∀ x ∈ t.media.buffer, x ∈ (s.media.buffer.map fun y => { y with job := none }) ∧ x.dirty = true)
          ∧ ∀ x ∈ s.media.buffer, x.dirty = true → ∀ g, g < 4 → s.unitGroup x.fn x.nsid = some g →
            (x.fn, x.nsid, x.lba, x.seq) ∈ t.media.lostBlocks ∨ ∃ u ∈ t.media.units, u.fn = x.fn ∧ u.nsid = x.nsid
              ∧ u.unit = x.lba / 4 ∧ s.media.nextJob ≤ u.stamp ∧ ∃ sb q, u.place = .at sb q)

/-! ### Chapters 09 and 17: watermarks, memory protection -/

/-- Watermarks (R325, R326): an upward crossing counts and, with the latch clear, latches with one entry of page 0xC6 of kind
CROSSING and an event; clearing the latch takes `PEAK` to the level and, while the level is at or above the mark, latches again
with an entry of kind RELATCH, an event and the count as it was; a mark taken to or below the level is a crossing, whatever it was
before (log entry 20). -/
def Obligations.Watermarks : Prop :=
  ∀ (s : State) (tenant : Option Nat) (w : Nat) (x : Watermark), s.power.stage = .on → s.mark? tenant w = some x →
    -- `kind` is the kind of the entry, 1 CROSSING or 2 RELATCH, or 0 where none is written; an event is code 0xC6, held back after
    let sets (i : Instr) (y : Watermark) (kind : Nat) : Prop := ∃ t, exec i s = .next t ∧ t.mark? tenant w = some y
      ∧ (∀ tn v, (tn, v) ≠ (tenant, w) → t.mark? tn v = s.mark? tn v)
      ∧ t.ctrs = s.ctrs ∧ t.media = s.media ∧ t.invocations = s.invocations ∧ t.power = s.power
      ∧ (kind = 0 → t.logs = s.logs ∧ t.pcie = s.pcie)
      ∧ (kind ≠ 0 → t.logs.c6.nextSeq = s.logs.c6.nextSeq + 1
        ∧ (∃ e ∈ t.logs.c6.entries, e.seq = s.logs.c6.nextSeq ∧ e.time = s.now
          ∧ e.body = watermarkEntry kind (if tenant.isSome then 1 else 0) (tenant.getD 0) w y 0 0)
        ∧ (0 < s.pcie.ctrls.length → 0xC6 ∈ (t.ctrl 0).held)
        ∧ ∀ tn, tenant = some tn → tn + 1 < s.pcie.ctrls.length → 0xC6 ∈ (t.ctrl (tn + 1)).held)
    let crossed (y : Watermark) : Watermark := { y with count := min (y.count + 1) 0xFFFF, latch := true }
    let once : Nat := if x.latch then 0 else 1
    let v := match tenant with
      | none => s.moduleLevel w
      | some t => s.tenantLevel t w
    let seen : Watermark := { x with level := v, peak := max x.peak v }
    (x.level < x.mark → x.mark ≤ v → x.mark ≠ 0xFFFFFFFF → sets (.watermarkEvaluate tenant w) (crossed seen) once)
    ∧ (v < x.mark ∨ x.mark ≤ x.level ∨ x.mark = 0xFFFFFFFF → sets (.watermarkEvaluate tenant w) seen 0)
    ∧ (s.power.perst = false →
      (x.level < x.mark ∨ x.mark = 0xFFFFFFFF →
        sets (.wmLatchClear tenant w) { x with latch := false, peak := x.level } 0)
      ∧ (x.mark ≤ x.level → x.mark ≠ 0xFFFFFFFF →
          sets (.wmLatchClear tenant w) { x with latch := true, peak := x.level } 2)
      ∧ (∀ value : Dword, value.toNat ≤ x.level → value.toNat ≠ 0xFFFFFFFF →
          sets (.wmMarkWrite tenant w value) (crossed { x with mark := value.toNat }) once)
      ∧ (∀ value : Dword, x.level < value.toNat ∨ value.toNat = 0xFFFFFFFF →
          sets (.wmMarkWrite tenant w value) { x with mark := value.toNat } 0)
      ∧ sets (.wmClrCount tenant w) { x with count := 0 } 0)

/-- Memory protection (R521, R522, R523, R525, R528, R531, R533, R535, R537, R539, R541, R542, Tables 17-1 to 17-5): a scrub step corrects,
classifies, remaps or poisons; the third hard bank of a die marks it; RETIRE redirects a page; a word with one bit in error is
corrected and one with two is poisoned. The code of a block and its poison pattern are those of the spec. -/
def Obligations.MemoryProtection : Prop :=
  (∀ (s : State) (k : Nat) (e : BlockErrors), s.power.stage = .on → s.power.dramReady = true → s.prot.dramStacks.length = 4 → k < 4 →
    let x := s.stack k
    let b := x.scrubBlock
    b + 1 < stackBlocks → (b + 1) % pageBlocks ≠ 0 → x.scrubFound = none → x.poison.lookup b = none →
    (∀ r ∈ x.remap, r.2.1 ≠ b) →
    let c := outside x.failedDie e.check
    let hard (post : State → Prop) : Prop := decodeBlock x.failedDie e.first = .corrected → c ≠ [] →
      ∃ t, exec (.dramScrubStep k e) s = .next t ∧ (t.stack k).scrubBlock = b + 1 ∧ (t.stack k).corrHard = satAdd32 x.corrHard 1
        ∧ (t.stack k).poison = x.poison ∧ (∀ j, j ≠ k → t.stack j = s.stack j) ∧ t.prot.sram = s.prot.sram ∧ t.media = s.media
        ∧ t.tenants = s.tenants ∧ post t
    (decodeBlock x.failedDie e.first = .clean →
      exec (.dramScrubStep k e) s = .next (s.modStack k fun y => { y with scrubBlock := b + 1 }))
    ∧ (decodeBlock x.failedDie e.first = .corrected → c = [] → exec (.dramScrubStep k e) s
        = .next (s.modStack k fun y => { y with scrubBlock := b + 1, corrSoft := satAdd32 y.corrSoft 1 }))
    ∧ (x.errors = [] → ∀ n, n < 32 → (∀ r ∈ x.remap, r.1 ≠ n) → (∀ m, m < n → ∃ r ∈ x.remap, r.1 = m) →
        hard fun t => (t.stack k).remap = x.remap ++ [(n, b, oneDie c)] ∧ (t.stack k).failedDie = x.failedDie
          ∧ t.logs.c1.nextSeq = s.logs.c1.nextSeq + 2)
    ∧ (∀ d y z, x.failedDie = none → oneDie c = some d → y ∈ x.errors → z ∈ x.errors → y.hard = true → z.hard = true →
        y.die = some d → z.die = some d → s.now ≤ y.time + 1000000 → s.now ≤ z.time + 1000000 →
        blockBank y.block ≠ blockBank z.block → blockBank y.block ≠ blockBank b → blockBank z.block ≠ blockBank b →
        hard fun t => (t.stack k).failedDie = some d ∧ (∀ r ∈ (t.stack k).remap, r.2.2 ≠ some d)
          ∧ t.pcie.criticalWarning.getLsbD 2 = true)
    ∧ (∀ d y z, x.failedDie.isSome = true → x.failedDie ≠ some d → oneDie c = some d → y ∈ x.errors → z ∈ x.errors →
        y.hard = true → z.hard = true → y.die = some d → z.die = some d → s.now ≤ y.time + 1000000 → s.now ≤ z.time + 1000000 →
        blockBank y.block ≠ blockBank z.block → blockBank y.block ≠ blockBank b → blockBank z.block ≠ blockBank b →
        hard fun t => (t.stack k).failedDie = x.failedDie ∧ (t.stack k).secondDie = true)
    ∧ (decodeBlock x.failedDie e.first = .uncorrectable → decodeBlock x.failedDie e.second = .uncorrectable →
        s.blockHolder k b = none → s.poolHolder k b = none → b / 128 < tenantGranules → ∃ t, exec (.dramScrubStep k e) s = .next t
          ∧ (t.stack k).poison.lookup b = some s.newFault.1 ∧ (t.stack k).uncorr = satAdd32 x.uncorr 1
          ∧ (t.stack k).scrubBlock = b + 1
          ∧ (t.stack k).scrubFound = some (s.newFault.1, b, (outside x.failedDie e.first).length, 1)
          ∧ (∀ j, j ≠ k → t.stack j = s.stack j) ∧ t.media = s.media ∧ t.tenants = s.tenants)
    ∧ (decodeBlock x.failedDie e.first = .uncorrectable → decodeBlock x.failedDie e.second = .uncorrectable →
        ∀ tn m u n, s.blockHolder k b = none → s.poolHolder k b = some (tn, m, u, n) → u ∉ (s.pool tn m).coming →
          tn < s.tenants.length → ∃ t, exec (.dramScrubStep k e) s = .next t ∧ u ∉ (t.pool tn m).units
            ∧ (t.stack k).poison = x.poison ∧ (t.stack k).uncorr = satAdd32 x.uncorr 1 ∧ (t.stack k).scrubBlock = b + 1))
  -- the code of a block: 256 data symbols, then 32 check symbols; a poisoned one is recognised with its fault number
  ∧ (∀ data : List Byte, data.length = 512 → (blockWord data).length = 288 ∧ (blockWord data).take 256 = symbolsOf data
      ∧ (blockWord data).drop 256 = rsCheck (symbolsOf data))
  ∧ (∀ (s : State) (k b f : Nat), (s.prot.dramStacks.getD k {}).poison.lookup b = some f → f < 2 ^ 32 →
      s.storedWord k b = some (poisonWord f) ∧ poisonOf (poisonWord f) = some f)
  ∧ (∀ (s : State) (k w bit_ : Nat), s.power.stage = .on → s.prot.sram.length = 11 → k < 11 →
      let u := s.sramUnit k
      u.poison.lookup w = none →
      let others (t : State) : Prop := (∀ j, j ≠ k → t.sramUnit j = s.sramUnit j) ∧ t.prot.damaged = s.prot.damaged
      ((w, bit_) ∉ u.seen → ∃ t, exec (.sramScrubStep k w [bit_]) s = .next t ∧ others t ∧ t.logs = s.logs
        ∧ (t.sramUnit k).corr = satAdd32 u.corr 1 ∧ (w, bit_) ∈ (t.sramUnit k).seen ∧ (t.sramUnit k).poison = u.poison)
      ∧ ((w, bit_) ∈ u.seen → (∀ h ∈ u.hard, h.1 ≠ w) → ∃ t, exec (.sramScrubStep k w [bit_]) s = .next t ∧ others t
          ∧ (t.sramUnit k).corr = satAdd32 u.corr 1 ∧ (w, bit_, s.now) ∈ (t.sramUnit k).hard
          ∧ t.logs.c1.nextSeq = s.logs.c1.nextSeq + 1)
      ∧ ∀ two, two ≠ bit_ → k ∈ [0, 1, 2, 3, 4, 8] → ∃ t, exec (.sramScrubStep k w [bit_, two]) s = .next t ∧ others t
          ∧ (t.sramUnit k).uncorr = satAdd32 u.uncorr 1 ∧ (t.sramUnit k).poison.lookup w = some s.newFault.1
          ∧ t.logs.c1.nextSeq = s.logs.c1.nextSeq + 1 ∧ t.invocations = s.invocations ∧ t.tenants = s.tenants)
  ∧ ∀ (s s1 : State) (c : Cmd), Starts s c .adminOwner s1 → s.prot.dramStacks.length = 4 →
      let k := bits c.cdw10.toNat 1 0
      let page := c.cdw11.toNat
      let x := s.stack k
      (4 ≤ c.cdw10.toNat ∨ 24575 < page → ∃ t, exec (.retire c []) s = .next t ∧ Ends s t c .invalidField ∧ t.prot = s.prot)
      ∧ (c.cdw10.toNat < 4 → page ≤ 24575 →
        ((∃ r ∈ x.retired, r.2 = page) → ∃ t, exec (.retire c []) s = .next t ∧ Ends s t c .success 1 ∧ t.prot = s.prot)
        ∧ ((∀ r ∈ x.retired, r.2 ≠ page) →
          (16 ≤ x.retired.length → ∃ t, exec (.retire c []) s = .next t ∧ Ends s t c .reservationExceeded ∧ t.prot = s.prot)
          ∧ ∀ n, n < 16 → x.retired.length < 16 → (∀ r ∈ x.retired, r.1 ≠ n) → (∀ m, m < n → ∃ r ∈ x.retired, r.1 = m) →
            ∃ t, exec (.retire c []) s = .next t
              ∧ Ends s t c .success 0 (x.poison.filter fun p => p.1 / pageBlocks == page).length
              ∧ (t.stack k).retired = x.retired ++ [(n, page)]
              ∧ (∀ r ∈ (t.stack k).remap, r.2.1 / pageBlocks ≠ page) ∧ (t.stack k).poison = x.poison
              ∧ (∀ j, j ≠ k → t.stack j = s.stack j) ∧ t.tenants = s.tenants))

/-! ### Chapter 19: firmware, settings, self-test -/

/-- Firmware, the boot NOR, settings and self-test (R482, R483, R583, R587, R589, R590, R591, R592, R601, R608, R609, R611): with no slot to
run, boot ROM presents the ROM recovery controller; a download stages its bytes; a commit waits for its turn at the boot NOR and,
verified, leaves the slot ELIGIBLE or STAGED, one number above the other slot; settings are saved and superseded; a self-test
runs and ends. -/
def Obligations.FirmwareAndSettings : Prop :=
  (∀ (s : State) (bad : List (Nat × Nat)),
    (s.power.stage = .on → s.power.railsUp = true → s.power.perst = false → s.svc.running = false → s.bootChoice = none →
      exec (.firmwareBoot bad) s = .next { s with svc := { s.svc with
        running := true, runSlot := 2, revision := 0x59525643524D4F52, wdtLeftUs := 2000000 } })
    ∧ (∀ k, s.power.stage = .on → s.power.railsUp = true → s.power.perst = false → s.svc.running = false → s.bootChoice = some k →
        s.badChunk bad k = none →
        let rev := fwRevision (((s.svc.nor.fw k).map FwSlot.header).getD [])
        s.svc.bootSel = true ∨ s.svc.nor.unreadable rev = none →
        ∃ t, exec (.firmwareBoot bad) s = .next t ∧ t.svc.runSlot = k ∧ t.svc.revision = rev ∧ t.svc.running = true
          ∧ t.svc.dataPath = true ∧ t.svc.wdtLeftUs = 2000000 ∧ t.power.lossPending = false ∧ t.svc.shieldNote = none)
    ∧ (s.power.railsUp = false ∨ s.power.perst = true ∨ s.svc.running = true → exec (.firmwareBoot bad) s = .next s))
  ∧ (∀ (s : State) (value : Dword), s.power.stage = .on → s.power.perst = false →
      let v := value.toNat
      (∀ m, dummyMin s.svc.nor.vio (bits v 2 0) = some m → m ≤ bits v 7 4 → bits v 9 8 = 0 ∨ bits v 9 8 = 1 ∧ s.svc.nor.sfdpOk = true →
        exec (.norCtrlWrite value) s = .next { s with svc := { s.svc with nor := { s.svc.nor with
          clkSel := bits v 2 0, dummy := bits v 7 4, mode := bits v 9 8 } } })
      ∧ (dummyMin s.svc.nor.vio (bits v 2 0) = none ∨ (∃ m, dummyMin s.svc.nor.vio (bits v 2 0) = some m ∧ bits v 7 4 < m)
            ∨ bits v 9 8 > 1 ∨ bits v 9 8 = 1 ∧ s.svc.nor.sfdpOk = false →
        exec (.norCtrlWrite value) s = .next { s with svc := { s.svc with nor := { s.svc.nor with
          refused := min (s.svc.nor.refused + 1) 0xFFFF } } }))
  ∧ (∀ (s t : State) (c : Cmd), Starts s c .adminOwner t → s.svc.runSlot ≠ 2 →
      let len := 4 * (c.cdw10.toNat + 1)
      let off := 4 * c.cdw11.toNat
      let code := bits c.cdw10.toNat 3 0
      let bs := s.dataIn c.prp1 c.prp2 len
      (off + len ≤ 16711680 → off = 0 ∨ off = s.svc.fwStageBytes ∧ s.svc.fwStageBytes % 4096 = 0 → s.svc.fwStage.wf = true →
        ∃ u, exec (.firmwareImageDownload c) s = .next u ∧ Ends s u c .success ∧ u.svc.fwStageBytes = off + len
          ∧ u.svc.fwStage.get off bs.length = bs ∧ ∀ n, n < off → u.svc.fwStage.at n = s.svc.fwStage.at n)
      ∧ (off ≠ 0 → off ≠ s.svc.fwStageBytes ∨ s.svc.fwStageBytes % 4096 ≠ 0 →
          ∃ u, exec (.firmwareImageDownload c) s = .next u ∧ Ends s u c .invalidField ∧ u.svc = s.svc)
      ∧ (16711680 < off + len → ∃ u, exec (.firmwareImageDownload c) s = .next u ∧ Ends s u c .invalidField ∧ u.svc = s.svc)
      -- Firmware Commit
      ∧ ([c.cdw11, c.cdw12, c.cdw13, c.cdw14, c.cdw15] = List.replicate 5 0 → c.cdw10.toNat < 64 →
          let fs := bits c.cdw10.toNat 2 0
          (2 < bits c.cdw10.toNat 5 3 → ∃ u, exec (.firmwareCommit c) s = .next u ∧ Ends s u c .invalidField ∧ u.svc = s.svc)
          ∧ (bits c.cdw10.toNat 5 3 ≤ 2 → 2 < fs →
              ∃ u, exec (.firmwareCommit c) s = .next u ∧ Ends s u c .invalidFwSlot ∧ u.svc = s.svc)
          ∧ (bits c.cdw10.toNat 5 3 ≤ 1 → fs = s.svc.runSlot + 1 →
              ∃ u, exec (.firmwareCommit c) s = .next u ∧ Ends s u c .invalidFwSlot ∧ u.svc = s.svc)
          ∧ (bits c.cdw10.toNat 5 3 ≤ 1 → fs = 0 → fwImageOk s.svc.fwStage s.svc.fwStageBytes = false →
              ∃ u, exec (.firmwareCommit c) s = .next u ∧ Ends s u c .invalidFwImage ∧ u.svc = s.svc)
          ∧ (bits c.cdw10.toNat 5 3 ≤ 1 → 1 ≤ fs → fs ≤ 2 → fs ≠ s.svc.runSlot + 1 →
              fwImageOk s.svc.fwStage s.svc.fwStageBytes = true → ∃ u, exec (.firmwareCommit c) s = .next u ∧ NoneEnds s u
                ∧ u.svc.nor.queue = s.svc.nor.queue ++ [.commit c.ref (fs - 1) (bits c.cdw10.toNat 5 3)
                  (fwLength (s.svc.fwStage.get 0 4096)) s.svc.fwStage])
          ∧ (bits c.cdw10.toNat 5 3 = 2 → 1 ≤ fs → fs ≤ 2 → fs ≠ s.svc.runSlot + 1 → ∀ f, s.svc.nor.fw (fs - 1) = some f →
              (f.state = .demoted → ∃ u, exec (.firmwareCommit c) s = .next u ∧ Ends s u c .invalidFwImage ∧ u.svc = s.svc)
              ∧ (f.state = .staged → ∃ u, exec (.firmwareCommit c) s = .next u ∧ NoneEnds s u
                ∧ u.svc.nor.queue = s.svc.nor.queue ++ [.promote c.ref (fs - 1)]
                ∧ (s.svc.nor.queue = [] → ∀ k, u.svc.nor.fw k = s.svc.nor.fw k))))
      -- Device Self-test
      ∧ ((code = 1 ∨ code = 2) → s.testBusy = false → s.svc.test = none → ∃ u, exec (.deviceSelfTest c) s = .next u
          ∧ Ends s u c .success ∧ u.svc = { s.svc with test := some (code, 0) })
      ∧ ((code = 1 ∨ code = 2) → s.testBusy = true →
          ∃ u, exec (.deviceSelfTest c) s = .next u ∧ Ends s u c .selfTestBusy ∧ u.svc = s.svc)
      ∧ ((code = 1 ∨ code = 2) → s.testBusy = false → s.svc.test.isSome = true →
          ∃ u, exec (.deviceSelfTest c) s = .next u ∧ Ends s u c .selfTestRunning ∧ u.svc = s.svc)
      ∧ (code = 0xF → ∃ u, exec (.deviceSelfTest c) s = .next u ∧ Ends s u c .success ∧ u.svc.test = none))
  ∧ (∀ (s : State) (k n : Nat) (failed : Option Nat), s.power.stage = .on → s.svc.test = some (k, n) →
      ∃ t r, exec (.selfTestComplete failed) s = .next t ∧ t.svc.test = none ∧ t.svc.testLog.head? = some r ∧ r.code = k
        ∧ r.result = (if failed.isSome then 7 else 0) ∧ r.segment = failed.getD 0 ∧ r.time = s.now
        ∧ t.logs.c0.nextSeq = s.logs.c0.nextSeq + 1)
  -- the boot NOR's operations
  ∧ (∀ (s : State) (j : NorJob), s.power.stage = .on → s.svc.nor.busy = true → s.svc.nor.queue = [j] → s.svc.held = none →
      let done (t : State) : Prop := t.svc.nor.queue = [] ∧ t.svc.nor.busy = false
      (∀ r slot action len im, j = .commit r slot action len im → slot < 2 → action < 2 → s.svc.runSlot < 2 → Held s r → r.sqid = 0 →
          (∀ a ∈ (s.ctrl 0).aers, a ≠ r.cid) →
          let seq := ((s.svc.nor.fw (1 - slot)).map (·.seq)).getD 0 + 1
          let leaves (ok : Bool) (st : FwState) (status : Status) : Prop := ∃ t, exec (.norOpDone ok) s = .next t ∧ done t
            ∧ EndsRef s t r status ∧ t.svc.nor.fw (1 - slot) = s.svc.nor.fw (1 - slot) ∧ t.svc.nor.intent = none
            ∧ t.svc.nor.fw slot = some { seq := seq, length := len, hdrCrc := crc32c (im.get 0 4096), state := st, image := im }
          leaves true (if action = 0 then .staged else .eligible) .success ∧ leaves false .demoted .invalidFwImage)
      ∧ (∀ r slot f, j = .promote r slot → slot < 2 → s.svc.nor.fw slot = some f → Held s r → r.sqid = 0 →
          (∀ a ∈ (s.ctrl 0).aers, a ≠ r.cid) →
          ∃ t, exec (.norOpDone true) s = .next t ∧ done t ∧ EndsRef s t r .success
            ∧ t.svc.nor.fw slot = some { f with state := .eligible })
      ∧ (∀ r slot seq, j = .base r slot seq → Held s r → r.sqid = 0 → (∀ a ∈ (s.ctrl 0).aers, a ≠ r.cid) →
          (∃ t, exec (.norOpDone true) s = .next t ∧ done t ∧ EndsRef s t r .success
            ∧ (t.svc.nor.base slot).map (·.seq) = some seq ∧ (t.svc.nor.base slot).map (·.image) = some s.pers.staged
            ∧ t.pers.job = .none)
          ∧ exec (.norOpDone false) s = .next s)
      ∧ (j = .save → ∃ t, exec (.norOpDone true) s = .next t ∧ done t ∧ t.svc.settingsBusy = false
          ∧ t.svc.regSaved = s.settingOffsets.map (fun o => (o, s.settingGet o)) ∧ OnlySvc s t)
      ∧ (j = .clear → ∃ t, exec (.norOpDone true) s = .next t ∧ done t ∧ t.svc.settingsBusy = false ∧ t.svc.regSaved = []
          ∧ t.svc.featSaved = [] ∧ OnlySvc s t)
      ∧ (∀ r fn f sel v, j = .features r [(fn, f, sel, v)] → Held s r → ∃ t, exec (.norOpDone true) s = .next t ∧ done t
          ∧ EndsRef s t r .success ∧ (fn, f, sel, v) ∈ t.svc.featSaved
          ∧ ∀ y ∈ s.svc.featSaved, (y.1, y.2.1, y.2.2.1) ≠ (fn, f, sel) → y ∈ t.svc.featSaved))
  ∧ ∀ s : State,
      (s.settingsMayWrite = true → ∀ x ∈ [(Instr.settingsSave, NorJob.save), (.settingsClear, .clear)],
        ∃ t, exec x.1 s = .next t ∧ t.svc.settingsBusy = true ∧ t.svc.nor.queue = s.svc.nor.queue ++ [x.2] ∧ OnlySvc s t)
      ∧ (s.settingsMayWrite = false → exec .settingsSave s = .next s ∧ exec .settingsClear s = .next s)

/-! ### Chapters 19 and 21: the service monitor, JTAG -/

/-- The service monitor (R63, R602 to R607, R14): while firmware runs, or `PERST_N` alone holds the module in reset, each line is
answered and restarts the ten minutes that the monitor stays unlocked, and else nothing happens; a command that needs the monitor unlocked answers ERR 3 and changes nothing else; a right response
or a physical unlock unlocks and clears the failures, a wrong response counts, and the third in a row starts a lockout that doubles
from 60 s to 3600 s. -/
def Obligations.MonitorCommands : Prop :=
  ∀ (s : State), s.power.stage = .on →
    let mon : Monitor := s.svc.monitor
    let with_ (m : Monitor) : State := { s with svc := { s.svc with monitor := m } }
    let answers (x : Instr) (m : Monitor) : Prop := exec x s = .next (with_ m)
    let live : Bool := mon.unlocked && decide (s.now < mon.lastAt + 600000000)
    let said (text : String) : Monitor := { mon with lastAt := s.now, unlocked := live, reply := text }
    -- the state in which a line is answered
    let heard : State := with_ { mon with lastAt := s.now, unlocked := live }
    let answering : Prop := s.svc.running = true ∨ s.power.railsUp = true ∧ s.power.perst = true
    (¬ answering → ∀ p n o b nn k t r v len id key, ∀ x ∈ [Instr.monitorId, .monitorStatus, .monitorLog p n, .monitorReg o, .monitorKeys,
        .monitorBaud b, .monitorChallenge nn, .unlockOwner k t, .unlockVendor r v, .unlockPhysical, .monitorLock, .keyInstall k id key,
        .keyRevoke k, .monitorSettingsClear, .monitorReset, .monitorUnknownCommand len], exec x s = .next s)
    ∧ (answering →
      answers .monitorId (said ("OK" ++ s.idText)) ∧ answers .monitorStatus (said ("OK" ++ heard.statusText))
      ∧ (∀ page n, 0xC0 ≤ page → page ≤ 0xC8 → ∃ text, answers (.monitorLog page n) (said ("OK" ++ text)))
      ∧ (∀ page n, page < 0xC0 ∨ 0xC8 < page → answers (.monitorLog page n) (said "ERR 2"))
      ∧ (∀ o, o % 4 = 0 → o < 0x80000 → answers (.monitorReg o) (said ("OK" ++ hexWord 8 (heard.moduleReg o))))
      ∧ (∀ o, o % 4 ≠ 0 ∨ 0x80000 ≤ o → answers (.monitorReg o) (said "ERR 2"))
      ∧ (∃ text, answers .monitorKeys (said ("OK" ++ text)))
      ∧ (∀ b ∈ [115200, 230400, 460800, 921600, 1500000, 3000000], answers (.monitorBaud b) { said "OK" with baud := b })
      ∧ (∀ b, b ∉ [115200, 230400, 460800, 921600, 1500000, 3000000] → answers (.monitorBaud b) (said "ERR 2"))
      ∧ (∀ len, 1 ≤ len → len ≤ 512 → answers (.monitorUnknownCommand len) (said "ERR 1"))
      ∧ (∀ len, len < 1 ∨ 512 < len → answers (.monitorUnknownCommand len) (said "ERR 2"))
      ∧ answers .monitorLock { said "OK" with unlocked := false }
      -- challenge and unlock
      ∧ (s.lockedOut = true → ∀ nn k t r v, k ≤ 3 →
          ∀ x ∈ [Instr.monitorChallenge nn, .unlockOwner k t, .unlockVendor r v, .unlockPhysical], answers x (said "ERR 4"))
      ∧ (∀ k t, 3 < k → answers (.unlockOwner k t) (said "ERR 2"))
      ∧ (s.lockedOut = false →
        (∀ nn, answers (.monitorChallenge nn) { said ("OK" ++ hexWord 64 nn.toNat) with nonce := some nn, nonceAt := s.now })
        ∧ (∀ k t, k ≤ 3 →
          let right : Prop := ∃ key nn, s.ownerKey k = some key ∧ mon.nonce = some nn ∧ s.now ≤ mon.nonceAt + 60000000
            ∧ hmacSha384 (bytesOfBe 48 key.key.toNat) (s.challengeMessage nn) = bytesOfBe 48 t.toNat
          (right → answers (.unlockOwner k t) { said "OK" with nonce := none, unlocked := true, fails := 0 })
          ∧ (¬ right → mon.fails < 2 → answers (.unlockOwner k t) { said "ERR 6" with nonce := none, fails := mon.fails + 1 })
          ∧ (¬ right → 2 ≤ mon.fails → ∃ u, exec (.unlockOwner k t) s = .next u ∧ u.svc.monitor =
              let l := min 3600 (60 * 2 ^ min (mon.fails - 2) 6)
              { said "ERR 6" with nonce := none, fails := mon.fails + 1, lockoutS := l, lockoutUntil := some (s.now + 1000000 * l) }))
        ∧ (∀ r v, mon.nonce = none ∨ mon.nonceAt + 60000000 < s.now → mon.fails < 2 →
          answers (.unlockVendor r v) { said "ERR 6" with nonce := none, fails := mon.fails + 1 })
        ∧ (∀ r v nn, mon.nonce = some nn → s.now ≤ mon.nonceAt + 60000000 →
          (∃ k, k < 2 ∧ ecdsaVerify (Config.vendorKey k) (s.challengeMessage nn) r.toNat v.toNat = true) →
          answers (.unlockVendor r v) { said "OK" with nonce := none, unlocked := true, fails := 0 })
        ∧ (s.pers.ownerKeys.all (·.isNone) = true → s.svc.bootSel = true →
          answers .unlockPhysical { said "OK" with unlocked := true, fails := 0 })
        ∧ (s.pers.ownerKeys.all (·.isNone) = false ∨ s.svc.bootSel = false → answers .unlockPhysical (said "ERR 6")))
      -- commands that need the monitor unlocked
      ∧ (live = false → ∀ k id key,
          ∀ x ∈ [Instr.keyInstall k id key, .keyRevoke k, .monitorSettingsClear, .monitorReset], answers x (said "ERR 3"))
      ∧ (live = true →
        (∀ k id key, 3 < k ∨ id = 0 → answers (.keyInstall k id key) (said "ERR 2"))
        ∧ (∀ k, 3 < k → answers (.keyRevoke k) (said "ERR 2"))
        ∧ (∀ k id key, k ≤ 3 → id ≠ 0 → s.pers.stage = .empty → ∃ t, exec (.keyInstall k id key) s = .next t
            ∧ t.svc.monitor = said "OK" ∧ t.pers = { s.pers with ownerKeys := s.pers.ownerKeys.set k (some { keyId := id, key := key }) }
            ∧ t.logs.c0.nextSeq = s.logs.c0.nextSeq + 1)
        ∧ (∀ k, k ≤ 3 → s.pers.stage = .empty → ∃ t, exec (.keyRevoke k) s = .next t ∧ t.svc.monitor = said "OK"
            ∧ t.pers = { s.pers with ownerKeys := s.pers.ownerKeys.set k none } ∧ t.logs.c0.nextSeq = s.logs.c0.nextSeq + 1)
        ∧ (s.settingsMayWrite = true → ∃ t, exec .monitorSettingsClear s = .next t ∧ t.svc.monitor = said "OK"
            ∧ t.svc.settingsBusy = true ∧ t.svc.nor.queue = s.svc.nor.queue ++ [.clear] ∧ OnlySvc s t)
        ∧ (s.settingsMayWrite = false → answers .monitorSettingsClear (said "ERR 5"))
        ∧ (s.svc.held = none → ∃ t, exec .monitorReset s = .next t ∧ t.svc.monitor = said "OK" ∧ t.pcie.fetchStopped = true
            ∧ (s.svc.nor.busy = false → t.power.moduleResetPending = true)
            ∧ (s.svc.nor.busy = true → t.svc.held = some { watchdog := false, moduleReset := true, since := s.now }))))
    ∧ (mon.lastAt + 600000000 ≤ s.now → answers .monitorIdleTimeout { mon with unlocked := false })
    ∧ (s.now < mon.lastAt + 600000000 → exec .monitorIdleTimeout s = .next s)
    ∧ (mon.nonceAt + 60000000 < s.now → answers .nonceExpiry { mon with nonce := none })
    ∧ (s.now ≤ mon.nonceAt + 60000000 → exec .nonceExpiry s = .next s)
    ∧ (s.lockedOut = false → answers .lockoutEnd { mon with lockoutUntil := none })
    ∧ (s.lockedOut = true → exec .lockoutEnd s = .next s)

/-- JTAG (R641): each of the four instructions changes the JTAG port and nothing else of the module; EXTEST drives the pins only
with `BOOT_SEL` 1 at AON release and `PERST_N` asserted, and otherwise acts as BYPASS. -/
def Obligations.JtagReachesNothing : Prop :=
  ∀ (s : State) (pins tdi : List Bool) (n : Nat),
    let port (x : Instr) (out boundary driven : List Bool) (extest : Bool) : Prop := exec x s = .next { s with pins :=
      { s.pins with jtagOut := out, boundary := boundary, pinsDriven := driven, jtagExtest := extest } }
    let shift (cells : List Bool) : List Bool := (cells ++ tdi).take tdi.length
    let left (cells : List Bool) : List Bool := (cells ++ tdi).drop tdi.length
    port (.jtagBypass tdi) (shift [false]) s.pins.boundary [] false
    ∧ (n ≤ 32 → port (.jtagIdcode n) ((List.range n).map fun k => Config.jtagId.getLsbD k) s.pins.boundary [] false)
    ∧ port (.jtagSamplePreload pins tdi) (shift pins) (left pins) [] false
    ∧ (s.svc.bootSel = true → s.power.perst = true →
        port (.jtagExtest tdi) (shift s.pins.boundary) (left s.pins.boundary) (left s.pins.boundary) true)
    ∧ (s.svc.bootSel = false ∨ s.power.perst = false → exec (.jtagExtest tdi) s = exec (.jtagBypass tdi) s)

/-! ### The whole module -/

/-- R581: every command and every event completes, whatever the state, and none changes the module's variant or its serial
number; so does every step, an idle one too. -/
def Obligations.IdentityNeverChanges : Prop :=
  (∀ (c : Instr) (s : State), ∃ t, exec c s = .next t ∧ SameModule s t) ∧ ∀ s : State, ∃ t, step s = .next t ∧ SameModule s t

/-- The mode and clock fields keep to their defined values (R13, R51, R62, Tables 02-5, 02-9): whatever is commanded, the CORE clock, the
step it moves to and both of its ceilings stay at steps 0 to 21, and the thermal level at 0 to 3. -/
def Obligations.ClocksStayLegal : Prop :=
  ∀ (s t : State), ClockLegal s.power → step s = .next t → ClockLegal t.power

/-- The reset state (Tables 02-5 to 02-11): the power-on cause alone is latched, CORE is at step 18 below ceilings of 21, the cap is 850 W, no
thermal level holds, the timestamp is 0, nothing waits, and the clock fields are legal. -/
def Obligations.ResetState : Prop :=
  ClockLegal State.reset.power ∧ State.reset.power.resetCause = 1 ∧ State.reset.power.targetStep = 18
    ∧ State.reset.power.currentStep = 18 ∧ State.reset.power.ceiling = 21 ∧ State.reset.power.capW = 850
    ∧ State.reset.power.level = 0 ∧ State.reset.now = 0 ∧ State.reset.pending = [] ∧ State.reset.pers.activeKind = 0
    ∧ State.reset.pers.deadlineMs = 10000 ∧ State.reset.media.budgetUs = 2000 ∧ State.reset.peer.retryLimit = 12
end

