-- ==== Sys2Proof/Laws/State.lean ====
section
/-!
SUPPORT. State.lean: each shared update of the state against each field, so that no proof unfolds a record update.
-/

namespace Sys2Proof.Machine

variable (s : State)

/-! ### `State.modPower` -/

@[simp] theorem State.modPower_big (f : Power → Power) : (s.modPower f).big = s.big := rfl
@[simp] theorem State.modPower_serial (f : Power → Power) : (s.modPower f).serial = s.serial := rfl
@[simp] theorem State.modPower_now (f : Power → Power) : (s.modPower f).now = s.now := rfl
@[simp] theorem State.modPower_power (f : Power → Power) : (s.modPower f).power = f s.power := rfl
@[simp] theorem State.modPower_pers (f : Power → Power) : (s.modPower f).pers = s.pers := rfl
@[simp] theorem State.modPower_pcie (f : Power → Power) : (s.modPower f).pcie = s.pcie := rfl
@[simp] theorem State.modPower_logs (f : Power → Power) : (s.modPower f).logs = s.logs := rfl
@[simp] theorem State.modPower_invocations (f : Power → Power) : (s.modPower f).invocations = s.invocations := rfl
@[simp] theorem State.modPower_queues (f : Power → Power) : (s.modPower f).queues = s.queues := rfl
@[simp] theorem State.modPower_engFaults (f : Power → Power) : (s.modPower f).engFaults = s.engFaults := rfl
@[simp] theorem State.modPower_engSpills (f : Power → Power) : (s.modPower f).engSpills = s.engSpills := rfl
@[simp] theorem State.modPower_ctrs (f : Power → Power) : (s.modPower f).ctrs = s.ctrs := rfl
@[simp] theorem State.modPower_tenants (f : Power → Power) : (s.modPower f).tenants = s.tenants := rfl
@[simp] theorem State.modPower_pairs (f : Power → Power) : (s.modPower f).pairs = s.pairs := rfl
@[simp] theorem State.modPower_rasp (f : Power → Power) : (s.modPower f).rasp = s.rasp := rfl
@[simp] theorem State.modPower_burl (f : Power → Power) : (s.modPower f).burl = s.burl := rfl
@[simp] theorem State.modPower_media (f : Power → Power) : (s.modPower f).media = s.media := rfl
@[simp] theorem State.modPower_prot (f : Power → Power) : (s.modPower f).prot = s.prot := rfl
@[simp] theorem State.modPower_peer (f : Power → Power) : (s.modPower f).peer = s.peer := rfl
@[simp] theorem State.modPower_svc (f : Power → Power) : (s.modPower f).svc = s.svc := rfl
@[simp] theorem State.modPower_pins (f : Power → Power) : (s.modPower f).pins = s.pins := rfl
@[simp] theorem State.modPower_marks (f : Power → Power) : (s.modPower f).marks = s.marks := rfl
@[simp] theorem State.modPower_host (f : Power → Power) : (s.modPower f).host = s.host := rfl
@[simp] theorem State.modPower_free (f : Power → Power) : (s.modPower f).free = s.free := rfl
@[simp] theorem State.modPower_pending (f : Power → Power) : (s.modPower f).pending = s.pending := rfl

/-! ### `State.modPers` -/

@[simp] theorem State.modPers_big (f : Pers → Pers) : (s.modPers f).big = s.big := rfl
@[simp] theorem State.modPers_serial (f : Pers → Pers) : (s.modPers f).serial = s.serial := rfl
@[simp] theorem State.modPers_now (f : Pers → Pers) : (s.modPers f).now = s.now := rfl
@[simp] theorem State.modPers_power (f : Pers → Pers) : (s.modPers f).power = s.power := rfl
@[simp] theorem State.modPers_pers (f : Pers → Pers) : (s.modPers f).pers = f s.pers := rfl
@[simp] theorem State.modPers_pcie (f : Pers → Pers) : (s.modPers f).pcie = s.pcie := rfl
@[simp] theorem State.modPers_logs (f : Pers → Pers) : (s.modPers f).logs = s.logs := rfl
@[simp] theorem State.modPers_invocations (f : Pers → Pers) : (s.modPers f).invocations = s.invocations := rfl
@[simp] theorem State.modPers_queues (f : Pers → Pers) : (s.modPers f).queues = s.queues := rfl
@[simp] theorem State.modPers_engFaults (f : Pers → Pers) : (s.modPers f).engFaults = s.engFaults := rfl
@[simp] theorem State.modPers_engSpills (f : Pers → Pers) : (s.modPers f).engSpills = s.engSpills := rfl
@[simp] theorem State.modPers_ctrs (f : Pers → Pers) : (s.modPers f).ctrs = s.ctrs := rfl
@[simp] theorem State.modPers_tenants (f : Pers → Pers) : (s.modPers f).tenants = s.tenants := rfl
@[simp] theorem State.modPers_pairs (f : Pers → Pers) : (s.modPers f).pairs = s.pairs := rfl
@[simp] theorem State.modPers_rasp (f : Pers → Pers) : (s.modPers f).rasp = s.rasp := rfl
@[simp] theorem State.modPers_burl (f : Pers → Pers) : (s.modPers f).burl = s.burl := rfl
@[simp] theorem State.modPers_media (f : Pers → Pers) : (s.modPers f).media = s.media := rfl
@[simp] theorem State.modPers_prot (f : Pers → Pers) : (s.modPers f).prot = s.prot := rfl
@[simp] theorem State.modPers_peer (f : Pers → Pers) : (s.modPers f).peer = s.peer := rfl
@[simp] theorem State.modPers_svc (f : Pers → Pers) : (s.modPers f).svc = s.svc := rfl
@[simp] theorem State.modPers_pins (f : Pers → Pers) : (s.modPers f).pins = s.pins := rfl
@[simp] theorem State.modPers_marks (f : Pers → Pers) : (s.modPers f).marks = s.marks := rfl
@[simp] theorem State.modPers_host (f : Pers → Pers) : (s.modPers f).host = s.host := rfl
@[simp] theorem State.modPers_free (f : Pers → Pers) : (s.modPers f).free = s.free := rfl
@[simp] theorem State.modPers_pending (f : Pers → Pers) : (s.modPers f).pending = s.pending := rfl

/-! ### `State.modMedia` -/

@[simp] theorem State.modMedia_big (f : Media → Media) : (s.modMedia f).big = s.big := rfl
@[simp] theorem State.modMedia_serial (f : Media → Media) : (s.modMedia f).serial = s.serial := rfl
@[simp] theorem State.modMedia_now (f : Media → Media) : (s.modMedia f).now = s.now := rfl
@[simp] theorem State.modMedia_power (f : Media → Media) : (s.modMedia f).power = s.power := rfl
@[simp] theorem State.modMedia_pers (f : Media → Media) : (s.modMedia f).pers = s.pers := rfl
@[simp] theorem State.modMedia_pcie (f : Media → Media) : (s.modMedia f).pcie = s.pcie := rfl
@[simp] theorem State.modMedia_logs (f : Media → Media) : (s.modMedia f).logs = s.logs := rfl
@[simp] theorem State.modMedia_invocations (f : Media → Media) : (s.modMedia f).invocations = s.invocations := rfl
@[simp] theorem State.modMedia_queues (f : Media → Media) : (s.modMedia f).queues = s.queues := rfl
@[simp] theorem State.modMedia_engFaults (f : Media → Media) : (s.modMedia f).engFaults = s.engFaults := rfl
@[simp] theorem State.modMedia_engSpills (f : Media → Media) : (s.modMedia f).engSpills = s.engSpills := rfl
@[simp] theorem State.modMedia_ctrs (f : Media → Media) : (s.modMedia f).ctrs = s.ctrs := rfl
@[simp] theorem State.modMedia_tenants (f : Media → Media) : (s.modMedia f).tenants = s.tenants := rfl
@[simp] theorem State.modMedia_pairs (f : Media → Media) : (s.modMedia f).pairs = s.pairs := rfl
@[simp] theorem State.modMedia_rasp (f : Media → Media) : (s.modMedia f).rasp = s.rasp := rfl
@[simp] theorem State.modMedia_burl (f : Media → Media) : (s.modMedia f).burl = s.burl := rfl
@[simp] theorem State.modMedia_media (f : Media → Media) : (s.modMedia f).media = f s.media := rfl
@[simp] theorem State.modMedia_prot (f : Media → Media) : (s.modMedia f).prot = s.prot := rfl
@[simp] theorem State.modMedia_peer (f : Media → Media) : (s.modMedia f).peer = s.peer := rfl
@[simp] theorem State.modMedia_svc (f : Media → Media) : (s.modMedia f).svc = s.svc := rfl
@[simp] theorem State.modMedia_pins (f : Media → Media) : (s.modMedia f).pins = s.pins := rfl
@[simp] theorem State.modMedia_marks (f : Media → Media) : (s.modMedia f).marks = s.marks := rfl
@[simp] theorem State.modMedia_host (f : Media → Media) : (s.modMedia f).host = s.host := rfl
@[simp] theorem State.modMedia_free (f : Media → Media) : (s.modMedia f).free = s.free := rfl
@[simp] theorem State.modMedia_pending (f : Media → Media) : (s.modMedia f).pending = s.pending := rfl

/-! ### `State.modPeer` -/

@[simp] theorem State.modPeer_big (f : Peer → Peer) : (s.modPeer f).big = s.big := rfl
@[simp] theorem State.modPeer_serial (f : Peer → Peer) : (s.modPeer f).serial = s.serial := rfl
@[simp] theorem State.modPeer_now (f : Peer → Peer) : (s.modPeer f).now = s.now := rfl
@[simp] theorem State.modPeer_power (f : Peer → Peer) : (s.modPeer f).power = s.power := rfl
@[simp] theorem State.modPeer_pers (f : Peer → Peer) : (s.modPeer f).pers = s.pers := rfl
@[simp] theorem State.modPeer_pcie (f : Peer → Peer) : (s.modPeer f).pcie = s.pcie := rfl
@[simp] theorem State.modPeer_logs (f : Peer → Peer) : (s.modPeer f).logs = s.logs := rfl
@[simp] theorem State.modPeer_invocations (f : Peer → Peer) : (s.modPeer f).invocations = s.invocations := rfl
@[simp] theorem State.modPeer_queues (f : Peer → Peer) : (s.modPeer f).queues = s.queues := rfl
@[simp] theorem State.modPeer_engFaults (f : Peer → Peer) : (s.modPeer f).engFaults = s.engFaults := rfl
@[simp] theorem State.modPeer_engSpills (f : Peer → Peer) : (s.modPeer f).engSpills = s.engSpills := rfl
@[simp] theorem State.modPeer_ctrs (f : Peer → Peer) : (s.modPeer f).ctrs = s.ctrs := rfl
@[simp] theorem State.modPeer_tenants (f : Peer → Peer) : (s.modPeer f).tenants = s.tenants := rfl
@[simp] theorem State.modPeer_pairs (f : Peer → Peer) : (s.modPeer f).pairs = s.pairs := rfl
@[simp] theorem State.modPeer_rasp (f : Peer → Peer) : (s.modPeer f).rasp = s.rasp := rfl
@[simp] theorem State.modPeer_burl (f : Peer → Peer) : (s.modPeer f).burl = s.burl := rfl
@[simp] theorem State.modPeer_media (f : Peer → Peer) : (s.modPeer f).media = s.media := rfl
@[simp] theorem State.modPeer_prot (f : Peer → Peer) : (s.modPeer f).prot = s.prot := rfl
@[simp] theorem State.modPeer_peer (f : Peer → Peer) : (s.modPeer f).peer = f s.peer := rfl
@[simp] theorem State.modPeer_svc (f : Peer → Peer) : (s.modPeer f).svc = s.svc := rfl
@[simp] theorem State.modPeer_pins (f : Peer → Peer) : (s.modPeer f).pins = s.pins := rfl
@[simp] theorem State.modPeer_marks (f : Peer → Peer) : (s.modPeer f).marks = s.marks := rfl
@[simp] theorem State.modPeer_host (f : Peer → Peer) : (s.modPeer f).host = s.host := rfl
@[simp] theorem State.modPeer_free (f : Peer → Peer) : (s.modPeer f).free = s.free := rfl
@[simp] theorem State.modPeer_pending (f : Peer → Peer) : (s.modPeer f).pending = s.pending := rfl

/-! ### `State.modSvc` -/

@[simp] theorem State.modSvc_big (f : Service → Service) : (s.modSvc f).big = s.big := rfl
@[simp] theorem State.modSvc_serial (f : Service → Service) : (s.modSvc f).serial = s.serial := rfl
@[simp] theorem State.modSvc_now (f : Service → Service) : (s.modSvc f).now = s.now := rfl
@[simp] theorem State.modSvc_power (f : Service → Service) : (s.modSvc f).power = s.power := rfl
@[simp] theorem State.modSvc_pers (f : Service → Service) : (s.modSvc f).pers = s.pers := rfl
@[simp] theorem State.modSvc_pcie (f : Service → Service) : (s.modSvc f).pcie = s.pcie := rfl
@[simp] theorem State.modSvc_logs (f : Service → Service) : (s.modSvc f).logs = s.logs := rfl
@[simp] theorem State.modSvc_invocations (f : Service → Service) : (s.modSvc f).invocations = s.invocations := rfl
@[simp] theorem State.modSvc_queues (f : Service → Service) : (s.modSvc f).queues = s.queues := rfl
@[simp] theorem State.modSvc_engFaults (f : Service → Service) : (s.modSvc f).engFaults = s.engFaults := rfl
@[simp] theorem State.modSvc_engSpills (f : Service → Service) : (s.modSvc f).engSpills = s.engSpills := rfl
@[simp] theorem State.modSvc_ctrs (f : Service → Service) : (s.modSvc f).ctrs = s.ctrs := rfl
@[simp] theorem State.modSvc_tenants (f : Service → Service) : (s.modSvc f).tenants = s.tenants := rfl
@[simp] theorem State.modSvc_pairs (f : Service → Service) : (s.modSvc f).pairs = s.pairs := rfl
@[simp] theorem State.modSvc_rasp (f : Service → Service) : (s.modSvc f).rasp = s.rasp := rfl
@[simp] theorem State.modSvc_burl (f : Service → Service) : (s.modSvc f).burl = s.burl := rfl
@[simp] theorem State.modSvc_media (f : Service → Service) : (s.modSvc f).media = s.media := rfl
@[simp] theorem State.modSvc_prot (f : Service → Service) : (s.modSvc f).prot = s.prot := rfl
@[simp] theorem State.modSvc_peer (f : Service → Service) : (s.modSvc f).peer = s.peer := rfl
@[simp] theorem State.modSvc_svc (f : Service → Service) : (s.modSvc f).svc = f s.svc := rfl
@[simp] theorem State.modSvc_pins (f : Service → Service) : (s.modSvc f).pins = s.pins := rfl
@[simp] theorem State.modSvc_marks (f : Service → Service) : (s.modSvc f).marks = s.marks := rfl
@[simp] theorem State.modSvc_host (f : Service → Service) : (s.modSvc f).host = s.host := rfl
@[simp] theorem State.modSvc_free (f : Service → Service) : (s.modSvc f).free = s.free := rfl
@[simp] theorem State.modSvc_pending (f : Service → Service) : (s.modSvc f).pending = s.pending := rfl

/-! ### `State.modPcie` -/

@[simp] theorem State.modPcie_big (f : Pcie → Pcie) : (s.modPcie f).big = s.big := rfl
@[simp] theorem State.modPcie_serial (f : Pcie → Pcie) : (s.modPcie f).serial = s.serial := rfl
@[simp] theorem State.modPcie_now (f : Pcie → Pcie) : (s.modPcie f).now = s.now := rfl
@[simp] theorem State.modPcie_power (f : Pcie → Pcie) : (s.modPcie f).power = s.power := rfl
@[simp] theorem State.modPcie_pers (f : Pcie → Pcie) : (s.modPcie f).pers = s.pers := rfl
@[simp] theorem State.modPcie_pcie (f : Pcie → Pcie) : (s.modPcie f).pcie = f s.pcie := rfl
@[simp] theorem State.modPcie_logs (f : Pcie → Pcie) : (s.modPcie f).logs = s.logs := rfl
@[simp] theorem State.modPcie_invocations (f : Pcie → Pcie) : (s.modPcie f).invocations = s.invocations := rfl
@[simp] theorem State.modPcie_queues (f : Pcie → Pcie) : (s.modPcie f).queues = s.queues := rfl
@[simp] theorem State.modPcie_engFaults (f : Pcie → Pcie) : (s.modPcie f).engFaults = s.engFaults := rfl
@[simp] theorem State.modPcie_engSpills (f : Pcie → Pcie) : (s.modPcie f).engSpills = s.engSpills := rfl
@[simp] theorem State.modPcie_ctrs (f : Pcie → Pcie) : (s.modPcie f).ctrs = s.ctrs := rfl
@[simp] theorem State.modPcie_tenants (f : Pcie → Pcie) : (s.modPcie f).tenants = s.tenants := rfl
@[simp] theorem State.modPcie_pairs (f : Pcie → Pcie) : (s.modPcie f).pairs = s.pairs := rfl
@[simp] theorem State.modPcie_rasp (f : Pcie → Pcie) : (s.modPcie f).rasp = s.rasp := rfl
@[simp] theorem State.modPcie_burl (f : Pcie → Pcie) : (s.modPcie f).burl = s.burl := rfl
@[simp] theorem State.modPcie_media (f : Pcie → Pcie) : (s.modPcie f).media = s.media := rfl
@[simp] theorem State.modPcie_prot (f : Pcie → Pcie) : (s.modPcie f).prot = s.prot := rfl
@[simp] theorem State.modPcie_peer (f : Pcie → Pcie) : (s.modPcie f).peer = s.peer := rfl
@[simp] theorem State.modPcie_svc (f : Pcie → Pcie) : (s.modPcie f).svc = s.svc := rfl
@[simp] theorem State.modPcie_pins (f : Pcie → Pcie) : (s.modPcie f).pins = s.pins := rfl
@[simp] theorem State.modPcie_marks (f : Pcie → Pcie) : (s.modPcie f).marks = s.marks := rfl
@[simp] theorem State.modPcie_host (f : Pcie → Pcie) : (s.modPcie f).host = s.host := rfl
@[simp] theorem State.modPcie_free (f : Pcie → Pcie) : (s.modPcie f).free = s.free := rfl
@[simp] theorem State.modPcie_pending (f : Pcie → Pcie) : (s.modPcie f).pending = s.pending := rfl

/-! ### `State.modProt` -/

@[simp] theorem State.modProt_big (f : MemProt → MemProt) : (s.modProt f).big = s.big := rfl
@[simp] theorem State.modProt_serial (f : MemProt → MemProt) : (s.modProt f).serial = s.serial := rfl
@[simp] theorem State.modProt_now (f : MemProt → MemProt) : (s.modProt f).now = s.now := rfl
@[simp] theorem State.modProt_power (f : MemProt → MemProt) : (s.modProt f).power = s.power := rfl
@[simp] theorem State.modProt_pers (f : MemProt → MemProt) : (s.modProt f).pers = s.pers := rfl
@[simp] theorem State.modProt_pcie (f : MemProt → MemProt) : (s.modProt f).pcie = s.pcie := rfl
@[simp] theorem State.modProt_logs (f : MemProt → MemProt) : (s.modProt f).logs = s.logs := rfl
@[simp] theorem State.modProt_invocations (f : MemProt → MemProt) : (s.modProt f).invocations = s.invocations := rfl
@[simp] theorem State.modProt_queues (f : MemProt → MemProt) : (s.modProt f).queues = s.queues := rfl
@[simp] theorem State.modProt_engFaults (f : MemProt → MemProt) : (s.modProt f).engFaults = s.engFaults := rfl
@[simp] theorem State.modProt_engSpills (f : MemProt → MemProt) : (s.modProt f).engSpills = s.engSpills := rfl
@[simp] theorem State.modProt_ctrs (f : MemProt → MemProt) : (s.modProt f).ctrs = s.ctrs := rfl
@[simp] theorem State.modProt_tenants (f : MemProt → MemProt) : (s.modProt f).tenants = s.tenants := rfl
@[simp] theorem State.modProt_pairs (f : MemProt → MemProt) : (s.modProt f).pairs = s.pairs := rfl
@[simp] theorem State.modProt_rasp (f : MemProt → MemProt) : (s.modProt f).rasp = s.rasp := rfl
@[simp] theorem State.modProt_burl (f : MemProt → MemProt) : (s.modProt f).burl = s.burl := rfl
@[simp] theorem State.modProt_media (f : MemProt → MemProt) : (s.modProt f).media = s.media := rfl
@[simp] theorem State.modProt_prot (f : MemProt → MemProt) : (s.modProt f).prot = f s.prot := rfl
@[simp] theorem State.modProt_peer (f : MemProt → MemProt) : (s.modProt f).peer = s.peer := rfl
@[simp] theorem State.modProt_svc (f : MemProt → MemProt) : (s.modProt f).svc = s.svc := rfl
@[simp] theorem State.modProt_pins (f : MemProt → MemProt) : (s.modProt f).pins = s.pins := rfl
@[simp] theorem State.modProt_marks (f : MemProt → MemProt) : (s.modProt f).marks = s.marks := rfl
@[simp] theorem State.modProt_host (f : MemProt → MemProt) : (s.modProt f).host = s.host := rfl
@[simp] theorem State.modProt_free (f : MemProt → MemProt) : (s.modProt f).free = s.free := rfl
@[simp] theorem State.modProt_pending (f : MemProt → MemProt) : (s.modProt f).pending = s.pending := rfl

/-! ### `State.modPins` -/

@[simp] theorem State.modPins_big (f : Pins → Pins) : (s.modPins f).big = s.big := rfl
@[simp] theorem State.modPins_serial (f : Pins → Pins) : (s.modPins f).serial = s.serial := rfl
@[simp] theorem State.modPins_now (f : Pins → Pins) : (s.modPins f).now = s.now := rfl
@[simp] theorem State.modPins_power (f : Pins → Pins) : (s.modPins f).power = s.power := rfl
@[simp] theorem State.modPins_pers (f : Pins → Pins) : (s.modPins f).pers = s.pers := rfl
@[simp] theorem State.modPins_pcie (f : Pins → Pins) : (s.modPins f).pcie = s.pcie := rfl
@[simp] theorem State.modPins_logs (f : Pins → Pins) : (s.modPins f).logs = s.logs := rfl
@[simp] theorem State.modPins_invocations (f : Pins → Pins) : (s.modPins f).invocations = s.invocations := rfl
@[simp] theorem State.modPins_queues (f : Pins → Pins) : (s.modPins f).queues = s.queues := rfl
@[simp] theorem State.modPins_engFaults (f : Pins → Pins) : (s.modPins f).engFaults = s.engFaults := rfl
@[simp] theorem State.modPins_engSpills (f : Pins → Pins) : (s.modPins f).engSpills = s.engSpills := rfl
@[simp] theorem State.modPins_ctrs (f : Pins → Pins) : (s.modPins f).ctrs = s.ctrs := rfl
@[simp] theorem State.modPins_tenants (f : Pins → Pins) : (s.modPins f).tenants = s.tenants := rfl
@[simp] theorem State.modPins_pairs (f : Pins → Pins) : (s.modPins f).pairs = s.pairs := rfl
@[simp] theorem State.modPins_rasp (f : Pins → Pins) : (s.modPins f).rasp = s.rasp := rfl
@[simp] theorem State.modPins_burl (f : Pins → Pins) : (s.modPins f).burl = s.burl := rfl
@[simp] theorem State.modPins_media (f : Pins → Pins) : (s.modPins f).media = s.media := rfl
@[simp] theorem State.modPins_prot (f : Pins → Pins) : (s.modPins f).prot = s.prot := rfl
@[simp] theorem State.modPins_peer (f : Pins → Pins) : (s.modPins f).peer = s.peer := rfl
@[simp] theorem State.modPins_svc (f : Pins → Pins) : (s.modPins f).svc = s.svc := rfl
@[simp] theorem State.modPins_pins (f : Pins → Pins) : (s.modPins f).pins = f s.pins := rfl
@[simp] theorem State.modPins_marks (f : Pins → Pins) : (s.modPins f).marks = s.marks := rfl
@[simp] theorem State.modPins_host (f : Pins → Pins) : (s.modPins f).host = s.host := rfl
@[simp] theorem State.modPins_free (f : Pins → Pins) : (s.modPins f).free = s.free := rfl
@[simp] theorem State.modPins_pending (f : Pins → Pins) : (s.modPins f).pending = s.pending := rfl

/-! ### `State.modTenant` -/

@[simp] theorem State.modTenant_big (n : Nat) (f : Tenant → Tenant) : (s.modTenant n f).big = s.big := rfl
@[simp] theorem State.modTenant_serial (n : Nat) (f : Tenant → Tenant) : (s.modTenant n f).serial = s.serial := rfl
@[simp] theorem State.modTenant_now (n : Nat) (f : Tenant → Tenant) : (s.modTenant n f).now = s.now := rfl
@[simp] theorem State.modTenant_power (n : Nat) (f : Tenant → Tenant) : (s.modTenant n f).power = s.power := rfl
@[simp] theorem State.modTenant_pers (n : Nat) (f : Tenant → Tenant) : (s.modTenant n f).pers = s.pers := rfl
@[simp] theorem State.modTenant_pcie (n : Nat) (f : Tenant → Tenant) : (s.modTenant n f).pcie = s.pcie := rfl
@[simp] theorem State.modTenant_logs (n : Nat) (f : Tenant → Tenant) : (s.modTenant n f).logs = s.logs := rfl
@[simp] theorem State.modTenant_invocations (n : Nat) (f : Tenant → Tenant) : (s.modTenant n f).invocations = s.invocations := rfl
@[simp] theorem State.modTenant_queues (n : Nat) (f : Tenant → Tenant) : (s.modTenant n f).queues = s.queues := rfl
@[simp] theorem State.modTenant_engFaults (n : Nat) (f : Tenant → Tenant) : (s.modTenant n f).engFaults = s.engFaults := rfl
@[simp] theorem State.modTenant_engSpills (n : Nat) (f : Tenant → Tenant) : (s.modTenant n f).engSpills = s.engSpills := rfl
@[simp] theorem State.modTenant_ctrs (n : Nat) (f : Tenant → Tenant) : (s.modTenant n f).ctrs = s.ctrs := rfl
@[simp] theorem State.modTenant_tenants (n : Nat) (f : Tenant → Tenant) : (s.modTenant n f).tenants = s.tenants.modify n f := rfl
@[simp] theorem State.modTenant_pairs (n : Nat) (f : Tenant → Tenant) : (s.modTenant n f).pairs = s.pairs := rfl
@[simp] theorem State.modTenant_rasp (n : Nat) (f : Tenant → Tenant) : (s.modTenant n f).rasp = s.rasp := rfl
@[simp] theorem State.modTenant_burl (n : Nat) (f : Tenant → Tenant) : (s.modTenant n f).burl = s.burl := rfl
@[simp] theorem State.modTenant_media (n : Nat) (f : Tenant → Tenant) : (s.modTenant n f).media = s.media := rfl
@[simp] theorem State.modTenant_prot (n : Nat) (f : Tenant → Tenant) : (s.modTenant n f).prot = s.prot := rfl
@[simp] theorem State.modTenant_peer (n : Nat) (f : Tenant → Tenant) : (s.modTenant n f).peer = s.peer := rfl
@[simp] theorem State.modTenant_svc (n : Nat) (f : Tenant → Tenant) : (s.modTenant n f).svc = s.svc := rfl
@[simp] theorem State.modTenant_pins (n : Nat) (f : Tenant → Tenant) : (s.modTenant n f).pins = s.pins := rfl
@[simp] theorem State.modTenant_marks (n : Nat) (f : Tenant → Tenant) : (s.modTenant n f).marks = s.marks := rfl
@[simp] theorem State.modTenant_host (n : Nat) (f : Tenant → Tenant) : (s.modTenant n f).host = s.host := rfl
@[simp] theorem State.modTenant_free (n : Nat) (f : Tenant → Tenant) : (s.modTenant n f).free = s.free := rfl
@[simp] theorem State.modTenant_pending (n : Nat) (f : Tenant → Tenant) : (s.modTenant n f).pending = s.pending := rfl

/-! ### `State.modQueue` -/

@[simp] theorem State.modQueue_big (n : Nat) (f : Queue → Queue) : (s.modQueue n f).big = s.big := rfl
@[simp] theorem State.modQueue_serial (n : Nat) (f : Queue → Queue) : (s.modQueue n f).serial = s.serial := rfl
@[simp] theorem State.modQueue_now (n : Nat) (f : Queue → Queue) : (s.modQueue n f).now = s.now := rfl
@[simp] theorem State.modQueue_power (n : Nat) (f : Queue → Queue) : (s.modQueue n f).power = s.power := rfl
@[simp] theorem State.modQueue_pers (n : Nat) (f : Queue → Queue) : (s.modQueue n f).pers = s.pers := rfl
@[simp] theorem State.modQueue_pcie (n : Nat) (f : Queue → Queue) : (s.modQueue n f).pcie = s.pcie := rfl
@[simp] theorem State.modQueue_logs (n : Nat) (f : Queue → Queue) : (s.modQueue n f).logs = s.logs := rfl
@[simp] theorem State.modQueue_invocations (n : Nat) (f : Queue → Queue) : (s.modQueue n f).invocations = s.invocations := rfl
@[simp] theorem State.modQueue_queues (n : Nat) (f : Queue → Queue) : (s.modQueue n f).queues = s.queues.modify n f := rfl
@[simp] theorem State.modQueue_engFaults (n : Nat) (f : Queue → Queue) : (s.modQueue n f).engFaults = s.engFaults := rfl
@[simp] theorem State.modQueue_engSpills (n : Nat) (f : Queue → Queue) : (s.modQueue n f).engSpills = s.engSpills := rfl
@[simp] theorem State.modQueue_ctrs (n : Nat) (f : Queue → Queue) : (s.modQueue n f).ctrs = s.ctrs := rfl
@[simp] theorem State.modQueue_tenants (n : Nat) (f : Queue → Queue) : (s.modQueue n f).tenants = s.tenants := rfl
@[simp] theorem State.modQueue_pairs (n : Nat) (f : Queue → Queue) : (s.modQueue n f).pairs = s.pairs := rfl
@[simp] theorem State.modQueue_rasp (n : Nat) (f : Queue → Queue) : (s.modQueue n f).rasp = s.rasp := rfl
@[simp] theorem State.modQueue_burl (n : Nat) (f : Queue → Queue) : (s.modQueue n f).burl = s.burl := rfl
@[simp] theorem State.modQueue_media (n : Nat) (f : Queue → Queue) : (s.modQueue n f).media = s.media := rfl
@[simp] theorem State.modQueue_prot (n : Nat) (f : Queue → Queue) : (s.modQueue n f).prot = s.prot := rfl
@[simp] theorem State.modQueue_peer (n : Nat) (f : Queue → Queue) : (s.modQueue n f).peer = s.peer := rfl
@[simp] theorem State.modQueue_svc (n : Nat) (f : Queue → Queue) : (s.modQueue n f).svc = s.svc := rfl
@[simp] theorem State.modQueue_pins (n : Nat) (f : Queue → Queue) : (s.modQueue n f).pins = s.pins := rfl
@[simp] theorem State.modQueue_marks (n : Nat) (f : Queue → Queue) : (s.modQueue n f).marks = s.marks := rfl
@[simp] theorem State.modQueue_host (n : Nat) (f : Queue → Queue) : (s.modQueue n f).host = s.host := rfl
@[simp] theorem State.modQueue_free (n : Nat) (f : Queue → Queue) : (s.modQueue n f).free = s.free := rfl
@[simp] theorem State.modQueue_pending (n : Nat) (f : Queue → Queue) : (s.modQueue n f).pending = s.pending := rfl

/-! ### `State.modCtrl` -/

@[simp] theorem State.modCtrl_big (n : Nat) (f : Ctrl → Ctrl) : (s.modCtrl n f).big = s.big := rfl
@[simp] theorem State.modCtrl_serial (n : Nat) (f : Ctrl → Ctrl) : (s.modCtrl n f).serial = s.serial := rfl
@[simp] theorem State.modCtrl_now (n : Nat) (f : Ctrl → Ctrl) : (s.modCtrl n f).now = s.now := rfl
@[simp] theorem State.modCtrl_power (n : Nat) (f : Ctrl → Ctrl) : (s.modCtrl n f).power = s.power := rfl
@[simp] theorem State.modCtrl_pers (n : Nat) (f : Ctrl → Ctrl) : (s.modCtrl n f).pers = s.pers := rfl
@[simp] theorem State.modCtrl_pcie (n : Nat) (f : Ctrl → Ctrl) : (s.modCtrl n f).pcie = { s.pcie with ctrls := s.pcie.ctrls.modify n f } := rfl
@[simp] theorem State.modCtrl_logs (n : Nat) (f : Ctrl → Ctrl) : (s.modCtrl n f).logs = s.logs := rfl
@[simp] theorem State.modCtrl_invocations (n : Nat) (f : Ctrl → Ctrl) : (s.modCtrl n f).invocations = s.invocations := rfl
@[simp] theorem State.modCtrl_queues (n : Nat) (f : Ctrl → Ctrl) : (s.modCtrl n f).queues = s.queues := rfl
@[simp] theorem State.modCtrl_engFaults (n : Nat) (f : Ctrl → Ctrl) : (s.modCtrl n f).engFaults = s.engFaults := rfl
@[simp] theorem State.modCtrl_engSpills (n : Nat) (f : Ctrl → Ctrl) : (s.modCtrl n f).engSpills = s.engSpills := rfl
@[simp] theorem State.modCtrl_ctrs (n : Nat) (f : Ctrl → Ctrl) : (s.modCtrl n f).ctrs = s.ctrs := rfl
@[simp] theorem State.modCtrl_tenants (n : Nat) (f : Ctrl → Ctrl) : (s.modCtrl n f).tenants = s.tenants := rfl
@[simp] theorem State.modCtrl_pairs (n : Nat) (f : Ctrl → Ctrl) : (s.modCtrl n f).pairs = s.pairs := rfl
@[simp] theorem State.modCtrl_rasp (n : Nat) (f : Ctrl → Ctrl) : (s.modCtrl n f).rasp = s.rasp := rfl
@[simp] theorem State.modCtrl_burl (n : Nat) (f : Ctrl → Ctrl) : (s.modCtrl n f).burl = s.burl := rfl
@[simp] theorem State.modCtrl_media (n : Nat) (f : Ctrl → Ctrl) : (s.modCtrl n f).media = s.media := rfl
@[simp] theorem State.modCtrl_prot (n : Nat) (f : Ctrl → Ctrl) : (s.modCtrl n f).prot = s.prot := rfl
@[simp] theorem State.modCtrl_peer (n : Nat) (f : Ctrl → Ctrl) : (s.modCtrl n f).peer = s.peer := rfl
@[simp] theorem State.modCtrl_svc (n : Nat) (f : Ctrl → Ctrl) : (s.modCtrl n f).svc = s.svc := rfl
@[simp] theorem State.modCtrl_pins (n : Nat) (f : Ctrl → Ctrl) : (s.modCtrl n f).pins = s.pins := rfl
@[simp] theorem State.modCtrl_marks (n : Nat) (f : Ctrl → Ctrl) : (s.modCtrl n f).marks = s.marks := rfl
@[simp] theorem State.modCtrl_host (n : Nat) (f : Ctrl → Ctrl) : (s.modCtrl n f).host = s.host := rfl
@[simp] theorem State.modCtrl_free (n : Nat) (f : Ctrl → Ctrl) : (s.modCtrl n f).free = s.free := rfl
@[simp] theorem State.modCtrl_pending (n : Nat) (f : Ctrl → Ctrl) : (s.modCtrl n f).pending = s.pending := rfl

/-! ### `State.modNor` -/

@[simp] theorem State.modNor_big (f : Nor → Nor) : (s.modNor f).big = s.big := rfl
@[simp] theorem State.modNor_serial (f : Nor → Nor) : (s.modNor f).serial = s.serial := rfl
@[simp] theorem State.modNor_now (f : Nor → Nor) : (s.modNor f).now = s.now := rfl
@[simp] theorem State.modNor_power (f : Nor → Nor) : (s.modNor f).power = s.power := rfl
@[simp] theorem State.modNor_pers (f : Nor → Nor) : (s.modNor f).pers = s.pers := rfl
@[simp] theorem State.modNor_pcie (f : Nor → Nor) : (s.modNor f).pcie = s.pcie := rfl
@[simp] theorem State.modNor_logs (f : Nor → Nor) : (s.modNor f).logs = s.logs := rfl
@[simp] theorem State.modNor_invocations (f : Nor → Nor) : (s.modNor f).invocations = s.invocations := rfl
@[simp] theorem State.modNor_queues (f : Nor → Nor) : (s.modNor f).queues = s.queues := rfl
@[simp] theorem State.modNor_engFaults (f : Nor → Nor) : (s.modNor f).engFaults = s.engFaults := rfl
@[simp] theorem State.modNor_engSpills (f : Nor → Nor) : (s.modNor f).engSpills = s.engSpills := rfl
@[simp] theorem State.modNor_ctrs (f : Nor → Nor) : (s.modNor f).ctrs = s.ctrs := rfl
@[simp] theorem State.modNor_tenants (f : Nor → Nor) : (s.modNor f).tenants = s.tenants := rfl
@[simp] theorem State.modNor_pairs (f : Nor → Nor) : (s.modNor f).pairs = s.pairs := rfl
@[simp] theorem State.modNor_rasp (f : Nor → Nor) : (s.modNor f).rasp = s.rasp := rfl
@[simp] theorem State.modNor_burl (f : Nor → Nor) : (s.modNor f).burl = s.burl := rfl
@[simp] theorem State.modNor_media (f : Nor → Nor) : (s.modNor f).media = s.media := rfl
@[simp] theorem State.modNor_prot (f : Nor → Nor) : (s.modNor f).prot = s.prot := rfl
@[simp] theorem State.modNor_peer (f : Nor → Nor) : (s.modNor f).peer = s.peer := rfl
@[simp] theorem State.modNor_svc (f : Nor → Nor) : (s.modNor f).svc = { s.svc with nor := f s.svc.nor } := rfl
@[simp] theorem State.modNor_pins (f : Nor → Nor) : (s.modNor f).pins = s.pins := rfl
@[simp] theorem State.modNor_marks (f : Nor → Nor) : (s.modNor f).marks = s.marks := rfl
@[simp] theorem State.modNor_host (f : Nor → Nor) : (s.modNor f).host = s.host := rfl
@[simp] theorem State.modNor_free (f : Nor → Nor) : (s.modNor f).free = s.free := rfl
@[simp] theorem State.modNor_pending (f : Nor → Nor) : (s.modNor f).pending = s.pending := rfl

/-! ### `State.modMonitor` -/

@[simp] theorem State.modMonitor_big (f : Monitor → Monitor) : (s.modMonitor f).big = s.big := rfl
@[simp] theorem State.modMonitor_serial (f : Monitor → Monitor) : (s.modMonitor f).serial = s.serial := rfl
@[simp] theorem State.modMonitor_now (f : Monitor → Monitor) : (s.modMonitor f).now = s.now := rfl
@[simp] theorem State.modMonitor_power (f : Monitor → Monitor) : (s.modMonitor f).power = s.power := rfl
@[simp] theorem State.modMonitor_pers (f : Monitor → Monitor) : (s.modMonitor f).pers = s.pers := rfl
@[simp] theorem State.modMonitor_pcie (f : Monitor → Monitor) : (s.modMonitor f).pcie = s.pcie := rfl
@[simp] theorem State.modMonitor_logs (f : Monitor → Monitor) : (s.modMonitor f).logs = s.logs := rfl
@[simp] theorem State.modMonitor_invocations (f : Monitor → Monitor) : (s.modMonitor f).invocations = s.invocations := rfl
@[simp] theorem State.modMonitor_queues (f : Monitor → Monitor) : (s.modMonitor f).queues = s.queues := rfl
@[simp] theorem State.modMonitor_engFaults (f : Monitor → Monitor) : (s.modMonitor f).engFaults = s.engFaults := rfl
@[simp] theorem State.modMonitor_engSpills (f : Monitor → Monitor) : (s.modMonitor f).engSpills = s.engSpills := rfl
@[simp] theorem State.modMonitor_ctrs (f : Monitor → Monitor) : (s.modMonitor f).ctrs = s.ctrs := rfl
@[simp] theorem State.modMonitor_tenants (f : Monitor → Monitor) : (s.modMonitor f).tenants = s.tenants := rfl
@[simp] theorem State.modMonitor_pairs (f : Monitor → Monitor) : (s.modMonitor f).pairs = s.pairs := rfl
@[simp] theorem State.modMonitor_rasp (f : Monitor → Monitor) : (s.modMonitor f).rasp = s.rasp := rfl
@[simp] theorem State.modMonitor_burl (f : Monitor → Monitor) : (s.modMonitor f).burl = s.burl := rfl
@[simp] theorem State.modMonitor_media (f : Monitor → Monitor) : (s.modMonitor f).media = s.media := rfl
@[simp] theorem State.modMonitor_prot (f : Monitor → Monitor) : (s.modMonitor f).prot = s.prot := rfl
@[simp] theorem State.modMonitor_peer (f : Monitor → Monitor) : (s.modMonitor f).peer = s.peer := rfl
@[simp] theorem State.modMonitor_svc (f : Monitor → Monitor) : (s.modMonitor f).svc = { s.svc with monitor := f s.svc.monitor } := rfl
@[simp] theorem State.modMonitor_pins (f : Monitor → Monitor) : (s.modMonitor f).pins = s.pins := rfl
@[simp] theorem State.modMonitor_marks (f : Monitor → Monitor) : (s.modMonitor f).marks = s.marks := rfl
@[simp] theorem State.modMonitor_host (f : Monitor → Monitor) : (s.modMonitor f).host = s.host := rfl
@[simp] theorem State.modMonitor_free (f : Monitor → Monitor) : (s.modMonitor f).free = s.free := rfl
@[simp] theorem State.modMonitor_pending (f : Monitor → Monitor) : (s.modMonitor f).pending = s.pending := rfl

/-! ### `State.reply` -/

@[simp] theorem State.reply_big (f : String) : (s.reply f).big = s.big := rfl
@[simp] theorem State.reply_serial (f : String) : (s.reply f).serial = s.serial := rfl
@[simp] theorem State.reply_now (f : String) : (s.reply f).now = s.now := rfl
@[simp] theorem State.reply_power (f : String) : (s.reply f).power = s.power := rfl
@[simp] theorem State.reply_pers (f : String) : (s.reply f).pers = s.pers := rfl
@[simp] theorem State.reply_pcie (f : String) : (s.reply f).pcie = s.pcie := rfl
@[simp] theorem State.reply_logs (f : String) : (s.reply f).logs = s.logs := rfl
@[simp] theorem State.reply_invocations (f : String) : (s.reply f).invocations = s.invocations := rfl
@[simp] theorem State.reply_queues (f : String) : (s.reply f).queues = s.queues := rfl
@[simp] theorem State.reply_engFaults (f : String) : (s.reply f).engFaults = s.engFaults := rfl
@[simp] theorem State.reply_engSpills (f : String) : (s.reply f).engSpills = s.engSpills := rfl
@[simp] theorem State.reply_ctrs (f : String) : (s.reply f).ctrs = s.ctrs := rfl
@[simp] theorem State.reply_tenants (f : String) : (s.reply f).tenants = s.tenants := rfl
@[simp] theorem State.reply_pairs (f : String) : (s.reply f).pairs = s.pairs := rfl
@[simp] theorem State.reply_rasp (f : String) : (s.reply f).rasp = s.rasp := rfl
@[simp] theorem State.reply_burl (f : String) : (s.reply f).burl = s.burl := rfl
@[simp] theorem State.reply_media (f : String) : (s.reply f).media = s.media := rfl
@[simp] theorem State.reply_prot (f : String) : (s.reply f).prot = s.prot := rfl
@[simp] theorem State.reply_peer (f : String) : (s.reply f).peer = s.peer := rfl
@[simp] theorem State.reply_svc (f : String) : (s.reply f).svc = { s.svc with monitor := { s.svc.monitor with reply := f } } := rfl
@[simp] theorem State.reply_pins (f : String) : (s.reply f).pins = s.pins := rfl
@[simp] theorem State.reply_marks (f : String) : (s.reply f).marks = s.marks := rfl
@[simp] theorem State.reply_host (f : String) : (s.reply f).host = s.host := rfl
@[simp] theorem State.reply_free (f : String) : (s.reply f).free = s.free := rfl
@[simp] theorem State.reply_pending (f : String) : (s.reply f).pending = s.pending := rfl

/-! ### `State.hostPut` -/

@[simp] theorem State.hostPut_big (a : Nat) (b : List Byte) : (s.hostPut a b).big = s.big := rfl
@[simp] theorem State.hostPut_serial (a : Nat) (b : List Byte) : (s.hostPut a b).serial = s.serial := rfl
@[simp] theorem State.hostPut_now (a : Nat) (b : List Byte) : (s.hostPut a b).now = s.now := rfl
@[simp] theorem State.hostPut_power (a : Nat) (b : List Byte) : (s.hostPut a b).power = s.power := rfl
@[simp] theorem State.hostPut_pers (a : Nat) (b : List Byte) : (s.hostPut a b).pers = s.pers := rfl
@[simp] theorem State.hostPut_pcie (a : Nat) (b : List Byte) : (s.hostPut a b).pcie = s.pcie := rfl
@[simp] theorem State.hostPut_logs (a : Nat) (b : List Byte) : (s.hostPut a b).logs = s.logs := rfl
@[simp] theorem State.hostPut_invocations (a : Nat) (b : List Byte) : (s.hostPut a b).invocations = s.invocations := rfl
@[simp] theorem State.hostPut_queues (a : Nat) (b : List Byte) : (s.hostPut a b).queues = s.queues := rfl
@[simp] theorem State.hostPut_engFaults (a : Nat) (b : List Byte) : (s.hostPut a b).engFaults = s.engFaults := rfl
@[simp] theorem State.hostPut_engSpills (a : Nat) (b : List Byte) : (s.hostPut a b).engSpills = s.engSpills := rfl
@[simp] theorem State.hostPut_ctrs (a : Nat) (b : List Byte) : (s.hostPut a b).ctrs = s.ctrs := rfl
@[simp] theorem State.hostPut_tenants (a : Nat) (b : List Byte) : (s.hostPut a b).tenants = s.tenants := rfl
@[simp] theorem State.hostPut_pairs (a : Nat) (b : List Byte) : (s.hostPut a b).pairs = s.pairs := rfl
@[simp] theorem State.hostPut_rasp (a : Nat) (b : List Byte) : (s.hostPut a b).rasp = s.rasp := rfl
@[simp] theorem State.hostPut_burl (a : Nat) (b : List Byte) : (s.hostPut a b).burl = s.burl := rfl
@[simp] theorem State.hostPut_media (a : Nat) (b : List Byte) : (s.hostPut a b).media = s.media := rfl
@[simp] theorem State.hostPut_prot (a : Nat) (b : List Byte) : (s.hostPut a b).prot = s.prot := rfl
@[simp] theorem State.hostPut_peer (a : Nat) (b : List Byte) : (s.hostPut a b).peer = s.peer := rfl
@[simp] theorem State.hostPut_svc (a : Nat) (b : List Byte) : (s.hostPut a b).svc = s.svc := rfl
@[simp] theorem State.hostPut_pins (a : Nat) (b : List Byte) : (s.hostPut a b).pins = s.pins := rfl
@[simp] theorem State.hostPut_marks (a : Nat) (b : List Byte) : (s.hostPut a b).marks = s.marks := rfl
@[simp] theorem State.hostPut_host (a : Nat) (b : List Byte) : (s.hostPut a b).host = Mem.put false s.host a b := rfl
@[simp] theorem State.hostPut_free (a : Nat) (b : List Byte) : (s.hostPut a b).free = s.free := rfl
@[simp] theorem State.hostPut_pending (a : Nat) (b : List Byte) : (s.hostPut a b).pending = s.pending := rfl

end Sys2Proof.Machine
end

