-- ==== Sys2Proof/Laws/Ops.lean ====
section
/-!
SUPPORT. Ops.lean: one lemma for everything a shared operation of Machine/Ops.lean does, so that a proof about a command cites it and
does not unfold the operation: parts by number, log entries, events, completions, the start of a command.
-/

set_option Elab.async false

namespace Sys2Proof.Machine

open Sys2Proof.Safety

/-! ### Parts by number -/

theorem getD_modify_self {α : Type} (l : List α) (i : Nat) (f : α → α) (d : α) (h : i < l.length) :
    (l.modify i f).getD i d = f (l.getD i d) := by
  simp [List.getD_eq_getElem?_getD, h]
theorem getD_modify_ne {α : Type} (l : List α) {i j : Nat} (f : α → α) (d : α) (h : j ≠ i) :
    (l.modify i f).getD j d = l.getD j d := by
  simp [List.getD_eq_getElem?_getD, h.symm]
theorem getD_modify_const {α : Type} (l : List α) (i j : Nat) (f : α → α) (d : α) (h : f d = d) :
    (l.modify i f).getD j d = if j = i then f (l.getD i d) else l.getD j d := by
  by_cases hj : j = i
  · subst hj
    rw [if_pos rfl]
    by_cases hl : j < l.length
    · exact getD_modify_self l j f d hl
    · simp [List.getD_eq_getElem?_getD, hl, h]
  · rw [if_neg hj, getD_modify_ne l f d hj]

theorem State.ctrl_modCtrl (s : State) {fn : Nat} (f : Ctrl → Ctrl) (h : fn < s.pcie.ctrls.length) :
    (s.modCtrl fn f).ctrl fn = f (s.ctrl fn) := getD_modify_self _ _ _ _ h
@[simp] theorem State.ctrl_modCtrl_ne (s : State) {fn g : Nat} (f : Ctrl → Ctrl) (h : g ≠ fn) :
    (s.modCtrl fn f).ctrl g = s.ctrl g := getD_modify_ne _ _ _ h
@[simp] theorem State.modCtrl_completions (s : State) (fn : Nat) (f : Ctrl → Ctrl) :
    (s.modCtrl fn f).pcie.completions = s.pcie.completions := rfl
@[simp] theorem State.modCtrl_ctrls_length (s : State) (fn : Nat) (f : Ctrl → Ctrl) :
    (s.modCtrl fn f).pcie.ctrls.length = s.pcie.ctrls.length := List.length_modify ..
theorem State.tenant_modTenant (s : State) {n : Nat} (f : Tenant → Tenant) (h : n < s.tenants.length) :
    (s.modTenant n f).tenant n = f (s.tenant n) := getD_modify_self _ _ _ _ h
@[simp] theorem State.tenant_modTenant_ne (s : State) {n k : Nat} (f : Tenant → Tenant) (h : k ≠ n) :
    (s.modTenant n f).tenant k = s.tenant k := getD_modify_ne _ _ _ h
theorem State.queue_modQueue (s : State) {q : Nat} (f : Queue → Queue) (h : q < s.queues.length) :
    (s.modQueue q f).queue q = f (s.queue q) := getD_modify_self _ _ _ _ h
@[simp] theorem State.queue_modQueue_ne (s : State) {q p : Nat} (f : Queue → Queue) (h : p ≠ q) :
    (s.modQueue q f).queue p = s.queue p := getD_modify_ne _ _ _ h

/-- A controller that holds a command is one of the module's. -/
theorem State.lt_of_outstanding {s : State} {fn : Nat} (h : (s.ctrl fn).outstanding ≠ []) : fn < s.pcie.ctrls.length := by
  by_contra hl
  exact h (by simp [State.ctrl, List.getD_eq_getElem?_getD, List.getElem?_eq_none (Nat.le_of_not_lt hl)])
/-- A controller that is ready is one of the module's. -/
theorem State.lt_of_ready {s : State} {fn : Nat} (h : (s.ctrl fn).ready = true) : fn < s.pcie.ctrls.length := by
  by_contra hl
  simp [State.ctrl, List.getD_eq_getElem?_getD, List.getElem?_eq_none (Nat.le_of_not_lt hl)] at h

/-! ### Only the PCIe block and host memory -/

/-- Nothing but the PCIe block and host memory differs. -/
def State.OnlyHost (s t : State) : Prop := { t with pcie := s.pcie, host := s.host } = s

theorem State.OnlyHost.refl (s : State) : s.OnlyHost s := rfl
theorem State.OnlyHost.trans {s t u : State} (h : s.OnlyHost t) (k : t.OnlyHost u) : s.OnlyHost u := by
  obtain ⟨⟩ := s; obtain ⟨⟩ := t; obtain ⟨⟩ := u
  simp only [State.OnlyHost, State.mk.injEq] at h k ⊢
  simp_all
theorem State.modCtrl_onlyHost (s : State) (fn : Nat) (f : Ctrl → Ctrl) : s.OnlyHost (s.modCtrl fn f) := rfl
theorem State.modPcie_onlyHost (s : State) (f : Pcie → Pcie) : s.OnlyHost (s.modPcie f) := rfl
theorem State.hostPut_onlyHost (s : State) (a : Nat) (bs : List Byte) : s.OnlyHost (s.hostPut a bs) := rfl

/-- The Relaxed Ordering attribute of a transfer is the PCIe block's. -/
theorem State.relax_onlyHost (s : State) (fn : Nat) : s.OnlyHost (s.relax fn) := rfl
theorem State.putPieces_onlyHost (s : State) (ps : List (Nat × Nat)) (bs : List Byte) : s.OnlyHost (s.putPieces ps bs) := by
  induction ps generalizing s bs with
  | nil => exact State.OnlyHost.refl s
  | cons p ps ih => exact (s.hostPut_onlyHost _ _).trans (ih _ _)
/-- A transfer to the host writes host memory and nothing else. -/
theorem State.putPieces_spec (s : State) (ps : List (Nat × Nat)) (bs : List Byte) :
    { s.putPieces ps bs with host := s.host } = s := by
  induction ps generalizing s bs with
  | nil => rfl
  | cons p ps ih =>
    have h := ih (s.hostPut p.1 (bs.take p.2)) (bs.drop p.2)
    have : State.putPieces s (p :: ps) bs = (s.hostPut p.1 (bs.take p.2)).putPieces ps (bs.drop p.2) := by cases p; rfl
    rw [this]
    generalize (s.hostPut p.1 (bs.take p.2)).putPieces ps (bs.drop p.2) = t at h
    obtain ⟨⟩ := s; obtain ⟨⟩ := t
    simp only [State.hostPut, State.mk.injEq] at h ⊢
    simp_all
theorem State.dataOut_onlyHost (s : State) (fn : Nat) (prp1 prp2 : Qword) (bs : List Byte) :
    s.OnlyHost (s.dataOut fn prp1 prp2 bs) := (s.relax_onlyHost fn).trans (State.putPieces_onlyHost _ _ _)

/-! ### Interrupts and completions -/

/-- An interrupt is a message or a pending bit. -/
theorem State.interrupt_spec (s : State) (fn v : Nat) :
    s.OnlyHost (s.interrupt fn v) ∧ (s.interrupt fn v).pcie.completions = s.pcie.completions
      ∧ (s.interrupt fn v).pcie.ctrls.length = s.pcie.ctrls.length := by
  unfold State.interrupt
  split
  · exact ⟨rfl, rfl, rfl⟩
  · split
    · exact ⟨rfl, rfl, s.modCtrl_ctrls_length _ _⟩
    · exact ⟨rfl, rfl, rfl⟩
/-- Posting writes the entry, moves the tail and interrupts, or holds the completion back. -/
theorem State.post_spec (s : State) (c : Completion) :
    s.OnlyHost (s.post c) ∧ (s.post c).pcie.completions = s.pcie.completions
      ∧ (s.post c).pcie.ctrls.length = s.pcie.ctrls.length := by
  unfold State.post
  extract_lets k
  split
  · exact ⟨rfl, rfl, rfl⟩
  split
  · exact ⟨rfl, rfl, rfl⟩
  split
  · exact ⟨rfl, rfl, s.modCtrl_ctrls_length _ _⟩
  · extract_lets s1 wrap s2
    have h2 : s.OnlyHost s2 ∧ s2.pcie.completions = s.pcie.completions ∧ s2.pcie.ctrls.length = s.pcie.ctrls.length :=
      ⟨rfl, rfl, s1.modCtrl_ctrls_length _ _⟩
    split
    · have h := s2.interrupt_spec c.fn (by assumption : Cq).vector
      exact ⟨h2.1.trans h.1, h.2.1.trans h2.2.1, h.2.2.trans h2.2.2⟩
    · exact h2
/-- Ending a command changes only the PCIe block and host memory. -/
theorem State.complete_onlyHost (s : State) (r : CmdRef) (st : Status) (a b : Nat) : s.OnlyHost (s.complete r st a b) := by
  unfold State.complete
  extract_lets held
  split
  · exact (s.modCtrl_onlyHost _ _).trans ((State.modPcie_onlyHost _ _).trans (State.post_spec _ _).1)
  · exact State.OnlyHost.refl s
/-- A command that the controller holds ends: its completion is recorded. -/
theorem State.complete_held {s : State} {r : CmdRef} (h : Held s r) (st : Status) (a b : Nat) :
    (s.complete r st a b).pcie.completions = s.pcie.completions ++ [completionOf r st a b] := by
  unfold State.complete
  extract_lets held c ord s1 s2
  rw [if_pos (by simp only [held, h.2, h.1]; rfl), (State.post_spec _ _).2.1]
  rfl
/-- A command that the controller does not hold ends without a trace. -/
theorem State.complete_not_held {s : State} {r : CmdRef} (h : ((s.ctrl r.fn).outstanding.any fun o => o.cmd.ref == r) = false)
    (st : Status) (a b : Nat) : s.complete r st a b = s := by
  unfold State.complete
  extract_lets held c ord s1 s2
  rw [if_neg (by simp [held, h])]
theorem State.complete_ends {s : State} {r : CmdRef} (h : Held s r) (st : Status) (a b : Nat) :
    EndsRef s (s.complete r st a b) r st a b :=
  ⟨_, s.complete_held h st a b, List.mem_singleton.mpr rfl⟩

/-! ### Events and log pages -/

theorem State.raise_onlyHost (s : State) (fn : Nat) (e : Event) : s.OnlyHost (s.raise fn e) := by
  unfold State.raise
  extract_lets k
  split
  · exact State.OnlyHost.refl s
  · split
    · exact (s.modCtrl_onlyHost _ _).trans (State.modCtrl_onlyHost _ _ _)
    · exact (s.modCtrl_onlyHost _ _).trans (State.complete_onlyHost _ _ _ _ _)
/-- While a page is unread no further event of it is raised (R191). -/
theorem State.raise_held {s : State} {fn : Nat} {e : Event} (h : e.page ∈ (s.ctrl fn).held) : s.raise fn e = s := by
  unfold State.raise
  extract_lets k
  exact if_pos (List.contains_iff_mem.mpr h)

/-- An entry appends to its page under the next sequence number, and raises events. -/
theorem State.log_spec (s : State) (page : Nat) (body : List Byte) (fault : Bool) (owner : Nat) (event : Bool) :
    State.OnlyHost { s with logs := s.logs.setPage page ((s.logs.page page).add (logCapacity page) s.now owner fault body) }
      (s.log page body fault owner event) := by
  unfold State.log
  extract_lets p s1 s2
  have h2 : s1.OnlyHost s2 := by
    by_cases h : event = true
    · simp only [s2, if_pos h]; exact State.raise_onlyHost _ _ _
    · simp only [s2, if_neg h]; exact State.OnlyHost.refl s1
  split
  · exact h2.trans (State.raise_onlyHost _ _ _)
  · exact h2
@[simp] theorem LogPage.add_nextSeq (p : LogPage) (cap : Option Nat) (time owner : Nat) (fault : Bool) (body : List Byte) :
    (p.add cap time owner fault body).nextSeq = p.nextSeq + 1 := by
  unfold LogPage.add
  dsimp only
  split <;> [split; skip] <;> rfl
theorem LogPage.add_last (p : LogPage) (cap : Option Nat) (time owner : Nat) (fault : Bool) (body : List Byte) :
    (p.add cap time owner fault body).entries.getLast?
      = some { seq := p.nextSeq, time := time, owner := owner, fault := fault, body := body } := by
  unfold LogPage.add
  dsimp only
  split <;> [split; skip] <;> simp
@[simp] theorem Logs.page_setPage (l : Logs) {n : Nat} (h : n ∈ [0xC0, 0xC1, 0xC2, 0xC4, 0xC5, 0xC6, 0xC7, 0xC8]) (p : LogPage) :
    (l.setPage n p).page n = p := by
  simp only [List.mem_cons, List.not_mem_nil, or_false] at h
  rcases h with rfl | rfl | rfl | rfl | rfl | rfl | rfl | rfl <;> rfl
/-- The sequence number after an entry of a page. -/
theorem State.log_nextSeq (s : State) {page : Nat} (h : page ∈ [0xC0, 0xC1, 0xC2, 0xC4, 0xC5, 0xC6, 0xC7, 0xC8]) (body : List Byte)
    (fault : Bool) (owner : Nat) (event : Bool) :
    ((s.log page body fault owner event).logs.page page).nextSeq = (s.logs.page page).nextSeq + 1 := by
  have k := congrArg State.logs (s.log_spec page body fault owner event)
  dsimp only at k
  rw [k, Logs.page_setPage _ h, LogPage.add_nextSeq]

/-- A new fault number changes nothing but the last number given; it is never 0 (R190). -/
theorem State.newFault_spec (s : State) :
    { s.newFault.2 with logs := s.logs } = s ∧ s.newFault.2.logs = { s.logs with faultNo := s.newFault.1 } ∧ s.newFault.1 ≠ 0 := by
  unfold State.newFault
  refine ⟨rfl, rfl, ?_⟩
  dsimp only
  split <;> omega

/-! ### The start of a command -/

/-- What the start of a command leaves: only its controller differs, which now holds it, started. -/
theorem State.begin_spec {s t : State} {c : Cmd} (h : s.begin c = some t) :
    { t with pcie := s.pcie } = s ∧ t.pcie.completions = s.pcie.completions ∧ Held t c.ref
      ∧ (∀ g, g ≠ c.fn → t.ctrl g = s.ctrl g) ∧ { t.ctrl c.fn with outstanding := (s.ctrl c.fn).outstanding } = s.ctrl c.fn := by
  unfold State.begin at h
  extract_lets k known compute activating parked waits at h
  split at h
  · cases h
  rename_i hc
  simp only [Bool.or_eq_true, not_or, Bool.not_eq_true, bne_eq_false_iff_eq, Bool.not_eq_false'] at hc
  obtain ⟨⟨⟨⟨⟨⟨hr, -⟩, hon⟩, -⟩, -⟩, -⟩, -⟩ := hc
  have hl := State.lt_of_ready (s := s) (fn := c.fn) hr
  obtain hk | ⟨o, ho⟩ : known = none ∨ ∃ o, known = some o := by cases known <;> simp
  · rw [hk] at h
    cases h
    refine ⟨rfl, rfl, ⟨hon, ?_⟩, fun g hg => s.ctrl_modCtrl_ne _ hg, ?_⟩
    · show ((s.modCtrl c.fn _).ctrl c.fn).outstanding.any _ = true
      rw [s.ctrl_modCtrl _ hl]
      simp
    · rw [s.ctrl_modCtrl _ hl]
  · rw [ho] at h
    dsimp only at h
    split at h
    · cases h
    cases h
    refine ⟨rfl, rfl, ⟨hon, ?_⟩, fun g hg => s.ctrl_modCtrl_ne _ hg, ?_⟩
    · show ((s.modCtrl c.fn _).ctrl c.fn).outstanding.any _ = true
      rw [s.ctrl_modCtrl _ hl]
      have hm := List.mem_of_find?_eq_some ho
      have hp := List.find?_some ho
      refine List.any_eq_true.mpr ⟨_, List.mem_map.mpr ⟨o, hm, rfl⟩, ?_⟩
      split <;> exact hp
    · rw [s.ctrl_modCtrl _ hl]

/-- A command that starts runs its own checks and effect. -/
theorem State.command_of_starts {s t : State} {c : Cmd} {k : CmdKind} (h : Starts s c k t) (f : State → State) :
    s.command c k f = .next (f t) := by
  obtain ⟨h1, -, h2, h3⟩ := h
  unfold State.command
  rw [h1]
  dsimp only
  rw [h2]
  dsimp only
  by_cases hk : k = .nvm
  · rw [if_pos hk, h3 hk]
  · rw [if_neg hk]
/-- A command that a common check ends. -/
theorem State.command_of_refusal {s t : State} {c : Cmd} {k : CmdKind} {st : Status} (h : s.begin c = some t) (h2 : t.refusal c k = some st)
    (f : State → State) : s.command c k f = .next (t.complete c.ref st) := by
  unfold State.command
  rw [h]
  dsimp only
  rw [h2]
/-- A command that waits. -/
theorem State.command_of_wait {s : State} {c : Cmd} (h : s.begin c = none) (k : CmdKind) (f : State → State) :
    s.command c k f = .next s := by
  unfold State.command
  rw [h]
/-- A command always answers a next state. -/
theorem State.command_next (s : State) (c : Cmd) (k : CmdKind) (f : State → State) : ∃ t, s.command c k f = .next t := by
  unfold State.command
  split
  · exact ⟨_, rfl⟩
  split
  · exact ⟨_, rfl⟩
  split
  · split <;> exact ⟨_, rfl⟩
  · exact ⟨_, rfl⟩

/-- A vendor I/O command that starts has its effect. -/
theorem State.vendor_of_starts {s t : State} {c : Cmd} {owner needsRun : Bool} {early : State → Option Status}
    (h : StartsVendor s c owner needsRun early t) (f : State → State) : s.vendor c owner needsRun early f = .next (f t) := by
  obtain ⟨h1, -, h2, h3, h4⟩ := h
  unfold State.vendor
  rw [h1]
  dsimp only
  rw [h2, h3]
  dsimp only [Option.or]
  rw [if_neg]
  cases needsRun with
  | false => simp
  | true => simp [h4 rfl]
/-- A vendor I/O command that waits. -/
theorem State.vendor_of_wait {s : State} {c : Cmd} (h : s.begin c = none) (owner needsRun : Bool) (early : State → Option Status)
    (f : State → State) : s.vendor c owner needsRun early f = .next s := by
  unfold State.vendor
  rw [h]
/-- A vendor I/O command always answers a next state. -/
theorem State.vendor_next (s : State) (c : Cmd) (owner needsRun : Bool) (early : State → Option Status) (f : State → State) :
    ∃ t, s.vendor c owner needsRun early f = .next t := by
  unfold State.vendor
  split
  · exact ⟨_, rfl⟩
  split
  · exact ⟨_, rfl⟩
  split <;> exact ⟨_, rfl⟩

/-- A command that waits for one with `ORD`, or that has `ORD` itself and is not the oldest of its queue, does not start (R170). -/
theorem State.begin_of_ord {s : State} {c : Cmd}
    (h : (c.ord = true ∧ (s.ctrl c.fn).earlier c ≠ []) ∨ ∃ o ∈ (s.ctrl c.fn).earlier c, o.cmd.ord = true) : s.begin c = none := by
  unfold State.begin
  extract_lets k known compute activating parked waits
  refine if_pos ?_
  have : waits = true := by
    rcases h with ⟨h1, h2⟩ | ⟨o, ho, hr⟩
    · have : (k.earlier c).isEmpty = false := by simpa using h2
      simp [waits, h1, this]
    · have : ((k.earlier c).any fun o => o.cmd.ord) = true := List.any_eq_true.mpr ⟨o, ho, hr⟩
      simp [waits, this]
  simp [this]

end Sys2Proof.Machine
end

