-- ==== Sys2Proof/Laws/Engine.lean ====
section
/-!
SUPPORT. Engine.lean: what the shared operation of the engine rows does with the command that it performs, and what a bump of a
counter leaves.
-/

namespace Sys2Proof.Machine

open Sys2Proof.Safety

/-! ### The command that an engine row performs -/

/-- The command passes its checks: its operation runs, and the entry takes the outcome. -/
theorem State.runOp_of_running {s : State} {q cls op k : Nat} {e : QEntry} {i : Invocation} (h : Running s q cls op k e i)
    (work : State → Invocation → QEntry → Except StopReason Work) (run : State → Invocation → QEntry → Work → State × CmdOutcome)
    {w : Work} (hw : work s i e = .ok w) :
    s.runOp q cls op work run = (run s i e w).1.modEntry q k fun x => { x with outcome := (run s i e w).2 } := by
  obtain ⟨h1, h2, h3, h4⟩ := h
  unfold State.runOp
  rw [h1, h2]
  simp only [Bool.not_true, Bool.false_eq_true, if_false]
  rw [h3]
  dsimp only
  rw [h4]
  dsimp only
  rw [hw]
/-- A start check fails: nothing but the entry's outcome changes. -/
theorem State.runOp_of_error {s : State} {q cls op k : Nat} {e : QEntry} {i : Invocation} (h : Running s q cls op k e i)
    (work : State → Invocation → QEntry → Except StopReason Work) (run : State → Invocation → QEntry → Work → State × CmdOutcome)
    {r : StopReason} (hw : work s i e = .error r) :
    s.runOp q cls op work run = s.modEntry q k fun x => { x with outcome := .failed r 0 } := by
  obtain ⟨h1, h2, h3, h4⟩ := h
  unfold State.runOp
  rw [h1, h2]
  simp only [Bool.not_true, Bool.false_eq_true, if_false]
  rw [h3]
  dsimp only
  rw [h4]
  dsimp only
  rw [hw]
@[simp] theorem State.queue_modEntry_ne (s : State) {q p : Nat} (k : Nat) (f : QEntry → QEntry) (h : p ≠ q) :
    (s.modEntry q k f).queue p = s.queue p := s.queue_modQueue_ne _ h
theorem State.queue_modEntry (s : State) {q : Nat} (k : Nat) (f : QEntry → QEntry) (h : q < s.queues.length) :
    (s.modEntry q k f).queue q = { s.queue q with entries := (s.queue q).entries.modify k f } := s.queue_modQueue _ h
/-- A queue that holds an entry is one of the module's. -/
theorem State.lt_of_entry {s : State} {q k : Nat} {e : QEntry} (h : (s.queue q).entries[k]? = some e) : q < s.queues.length := by
  by_contra hl
  simp [State.queue, List.getD_eq_getElem?_getD, List.getElem?_eq_none (Nat.le_of_not_lt hl)] at h
/-- The entry's outcome after it is set. -/
theorem State.outcome_modEntry {s : State} {q k : Nat} {e : QEntry} (h : (s.queue q).entries[k]? = some e) (o : CmdOutcome) :
    Outcome (s.modEntry q k fun x => { x with outcome := o }) q k o := by
  unfold Outcome
  rw [s.queue_modEntry k _ (State.lt_of_entry h)]
  simp [h]

/-! ### Counters -/

theorem lookup_filter_of {p : Nat × Nat → Bool} {l : List (Nat × Nat)} {c : Nat} (h : ∀ v, p (c, v) = true) :
    (l.filter p).lookup c = l.lookup c := by
  induction l with
  | nil => rfl
  | cons x l ih =>
    obtain ⟨a, v⟩ := x
    by_cases ha : c = a
    · subst ha
      rw [List.filter_cons_of_pos (h v), List.lookup_cons_self, List.lookup_cons_self]
    · have hb : (c == a) = false := by simpa using ha
      by_cases hp : p (a, v) = true
      · rw [List.filter_cons_of_pos hp, List.lookup_cons, List.lookup_cons, hb, ih]
      · rw [List.filter_cons_of_neg hp, List.lookup_cons, hb, ih]
theorem lookup_filter_none {p : Nat × Nat → Bool} {l : List (Nat × Nat)} {c : Nat} (h : ∀ v, p (c, v) = false) :
    (l.filter p).lookup c = none := by
  induction l with
  | nil => rfl
  | cons x l ih =>
    obtain ⟨a, v⟩ := x
    by_cases hp : p (a, v) = true
    · have hb : (c == a) = false := by
        rw [beq_eq_false_iff_ne]
        rintro rfl
        rw [h v] at hp; cases hp
      rw [List.filter_cons_of_pos hp, List.lookup_cons, hb, ih]
    · rw [List.filter_cons_of_neg hp, ih]
/-- A counter that is set reads the value, and every other reads as before. -/
theorem CtrPool.lookup_set (p : CtrPool) (c v j : Nat) :
    ((p.set c v).values.lookup j).getD 0 = if j = c then v else (p.values.lookup j).getD 0 := by
  unfold CtrPool.set
  rw [List.lookup_append, List.lookup_append]
  by_cases hj : j = c
  · subst hj
    rw [if_pos rfl, lookup_filter_none (fun v => by simp), lookup_filter_none (fun v => by simp)]
    by_cases hv : v = 0
    · simp [hv]
    · simp [hv]
  · rw [if_neg hj]
    have hm : List.lookup j (if v = 0 then [] else [(c, v)]) = none := by
      split
      · rfl
      · rw [List.lookup_cons, (by simpa using hj : (j == c) = false)]; rfl
    rw [hm]
    rcases Nat.lt_or_gt_of_ne hj with h | h
    · rw [lookup_filter_of (fun v => by simpa using h), lookup_filter_none (l := p.values) (p := fun x => decide (c < x.1)) (fun v => by simpa using Nat.le_of_lt h)]
      simp
    · rw [lookup_filter_none (l := p.values) (p := fun x => decide (x.1 < c)) (fun v => by simpa using Nat.le_of_lt h), lookup_filter_of (fun v => by simpa using h)]
      simp
/-- A bump that the tenant may make and that does not pass 2^48 - 1 adds to its counter and changes nothing else. -/
theorem State.bump_ok {s : State} {t c n : Nat} (ht : t < 16) (hr : (s.tenant t).runOpen = true) (ho : s.ownsCtr t c = true)
    (hs : s.ctrSat c = false) (hp : s.ctrPoison c = none) (hv : s.ctr c + n ≤ ctrMax) :
    s.bump t c n = { s with ctrs := s.ctrs.set c (s.ctr c + n) } ∧ (s.bump t c n).ctr c = s.ctr c + n
      ∧ ∀ j, j ≠ c → (s.bump t c n).ctr j = s.ctr j := by
  have hb : s.bump t c n = { s with ctrs := s.ctrs.set c (s.ctr c + n) } := by
    unfold State.bump
    rw [if_neg (by simp [hr, ho, hs, hp])]
    exact if_pos hv
  have key : ∀ j, (s.bump t c n).ctr j = if (List.range 16).any (s.ownsCtr · j) = true then
      (if (s.ctrPoison j).isSome = true then ctrMax else if j = c then s.ctr c + n else (s.ctrs.values.lookup j).getD 0) else 0 := by
    intro j
    rw [hb]
    show (if (!(List.range 16).any (s.ownsCtr · j)) = true then 0 else if (s.ctrPoison j).isSome = true then ctrMax
      else ((s.ctrs.set c (s.ctr c + n)).values.lookup j).getD 0) = _
    rw [CtrPool.lookup_set]
    by_cases h : (List.range 16).any (s.ownsCtr · j) = true <;> simp [h]
  refine ⟨hb, ?_, fun j hj => ?_⟩
  · have : (List.range 16).any (s.ownsCtr · c) = true := List.any_eq_true.mpr ⟨t, List.mem_range.mpr ht, ho⟩
    rw [key c, if_pos this, hp]
    simp
  · rw [key j, if_neg hj]
    unfold State.ctr
    by_cases h : (List.range 16).any (s.ownsCtr · j) = true <;> simp [h]

end Sys2Proof.Machine
end

