-- ==== Sys2Proof/Laws/Frames.lean ====
section
/-!
SUPPORT. Frames.lean: which operations leave the module's identity and its CLKPWR block as they are (nearly all: one lemma
`<operation>_key` each), and, of the few that do change the CLKPWR block, that they keep the identity and the legal clock fields
(`Keeps`). An invariant of the whole module over one of these fields needs nothing else about them.
-/

set_option Elab.async false
set_option linter.all false

namespace Sys2Proof.Machine

/-- What almost every operation leaves as it is: the module's identity and the CLKPWR block. -/
def State.key (s : State) : Bool × Id128 × Power := (s.big, s.serial, s.power)
@[simp] theorem State.modPers_key (s : State) (f : Pers → Pers) : (s.modPers f).key = s.key := rfl
@[simp] theorem State.modMedia_key (s : State) (f : Media → Media) : (s.modMedia f).key = s.key := rfl
@[simp] theorem State.modPeer_key (s : State) (f : Peer → Peer) : (s.modPeer f).key = s.key := rfl
@[simp] theorem State.modSvc_key (s : State) (f : Service → Service) : (s.modSvc f).key = s.key := rfl
@[simp] theorem State.modPcie_key (s : State) (f : Pcie → Pcie) : (s.modPcie f).key = s.key := rfl
@[simp] theorem State.modProt_key (s : State) (f : MemProt → MemProt) : (s.modProt f).key = s.key := rfl
@[simp] theorem State.modPins_key (s : State) (f : Pins → Pins) : (s.modPins f).key = s.key := rfl
@[simp] theorem State.modTenant_key (s : State) (n : Nat) (f : Tenant → Tenant) : (s.modTenant n f).key = s.key := rfl
@[simp] theorem State.modQueue_key (s : State) (n : Nat) (f : Queue → Queue) : (s.modQueue n f).key = s.key := rfl
@[simp] theorem State.modCtrl_key (s : State) (n : Nat) (f : Ctrl → Ctrl) : (s.modCtrl n f).key = s.key := rfl
@[simp] theorem State.modNor_key (s : State) (f : Nor → Nor) : (s.modNor f).key = s.key := rfl
@[simp] theorem State.modMonitor_key (s : State) (f : Monitor → Monitor) : (s.modMonitor f).key = s.key := rfl
@[simp] theorem State.reply_key (s : State) (f : String) : (s.reply f).key = s.key := rfl
@[simp] theorem State.hostPut_key (s : State) (a : Nat) (b : List Byte) : (s.hostPut a b).key = s.key := rfl

/-- The key of a state that is written out. -/
@[simp] theorem State.key_mk (big serial now power pers pcie logs invocations queues engFaults engSpills ctrs tenants pairs rasp burl media prot peer svc pins marks host free pending) :
  State.key { big := big, serial := serial, now := now, power := power, pers := pers, pcie := pcie, logs := logs, invocations := invocations, queues := queues, engFaults := engFaults, engSpills := engSpills, ctrs := ctrs, tenants := tenants, pairs := pairs, rasp := rasp, burl := burl, media := media, prot := prot, peer := peer, svc := svc, pins := pins, marks := marks, host := host, free := free, pending := pending } = (big, serial, power) := rfl
@[simp] theorem State.key_eta (s : State) : (s.big, s.serial, s.power) = s.key := rfl
theorem State.key_with {s t : State} (h : s.key = t.key) : (s.big, s.serial, s.power) = t.key := h
/-- The key of a component of a pair that a match has named. -/
theorem State.snd_key {α : Type} {p : α × State} {a : α} {t : State} (h : p = (a, t)) : t.key = p.2.key := by rw [h]
/-- See `State.snd_key`. -/
theorem State.fst_key {α : Type} {p : State × α} {a : α} {t : State} (h : p = (t, a)) : t.key = p.1.key := by rw [h]
theorem State.ite_key {p : Prop} [Decidable p] {a b s : State} (ha : a.key = s.key) (hb : b.key = s.key) :
    (if p then a else b).key = s.key := by split <;> assumption
/-- A fold of operations that keep the key keeps it. -/
theorem foldl_key {α : Type} (f : State → α → State) (l : List α) (s : State) (h : ∀ s a, (f s a).key = s.key) : (l.foldl f s).key = s.key := by
  induction l generalizing s with
  | nil => rfl
  | cons a l ih => rw [List.foldl_cons, ih, h]
/-- See `foldl_key`. -/
theorem foldl_fst_key {α β : Type} (f : State × β → α → State × β) (l : List α) (p : State × β)
    (h : ∀ p a, (f p a).1.key = p.1.key) : (l.foldl f p).1.key = p.1.key := by
  induction l generalizing p with
  | nil => rfl
  | cons a l ih => rw [List.foldl_cons, ih, h]
/-- See `foldl_key`. -/
theorem foldl_snd_key {α β : Type} (f : β × State → α → β × State) (l : List α) (p : β × State)
    (h : ∀ p a, (f p a).2.key = p.2.key) : (l.foldl f p).2.key = p.2.key := by
  induction l generalizing p with
  | nil => rfl
  | cons a l ih => rw [List.foldl_cons, ih, h]

/-! ### Mem.lean -/

@[simp] theorem State.drawWord_key (s : State) : (State.drawWord s).2.key = s.key := rfl
@[simp] theorem State.drawBool_key (s : State) : (State.drawBool s).2.key = s.key := rfl
@[simp] theorem State.drawRegion_key (s : State) : (State.drawRegion s).2.key = s.key := rfl

/-! ### Ops.lean -/

@[simp] theorem State.interrupt_key (s : State) (fn vector : Nat) : (State.interrupt s fn vector).key = s.key := by
  unfold State.interrupt
  repeat' (first | with_reducible rfl | split | simp)
@[simp] theorem State.post_key (s : State) (c : Completion) : (State.post s c).key = s.key := by
  unfold State.post
  repeat' (first | with_reducible rfl | split | simp)
@[simp] theorem State.complete_key (s : State) (r : CmdRef) (st : Status) (dw0 dw1 : Nat) : (State.complete s r st dw0 dw1).key = s.key := by
  unfold State.complete
  repeat' (first | with_reducible rfl | split | simp)
@[simp] theorem State.raise_key (s : State) (fn : Nat) (e : Event) : (State.raise s fn e).key = s.key := by
  unfold State.raise
  repeat' (first | with_reducible rfl | split | simp)
@[simp] theorem State.raiseLog_key (s : State) (fn page : Nat) : (State.raiseLog s fn page).key = s.key := by simp [State.raiseLog]
@[simp] theorem State.raiseSmart_key (s : State) (fn info bitNo : Nat) : (State.raiseSmart s fn info bitNo).key = s.key := by
  unfold State.raiseSmart
  split <;> simp
@[simp] theorem State.log_key (s : State) (page : Nat) (body : List Byte) (fault : Bool) (owner : Nat) (event : Bool) : (State.log s page body fault owner event).key = s.key := by
  unfold State.log
  repeat' (first | with_reducible rfl | split | simp)
@[simp] theorem State.newFault_key (s : State) : (State.newFault s).2.key = s.key := rfl
@[simp] theorem State.health_key (s : State) (h : Health) : (State.health s h).key = s.key := by simp [State.health]
theorem State.begin_key (s : State) (c : Cmd) {u : State} (h : (State.begin s c) = some u) : u.key = s.key := by
  unfold State.begin at h
  try dsimp only at h
  repeat' (first | cases h | split at h | with_reducible rfl | split | simp | (with_reducible refine (State.snd_key (by assumption)).trans ?_) | fail)
@[simp] theorem State.unbegin_key (s : State) (r : CmdRef) : (State.unbegin s r).key = s.key := rfl
@[simp] theorem State.carry_key (s : State) (d : Deferred) (r : CmdRef) : (State.carry s d r).key = s.key := rfl
@[simp] theorem State.putPieces_key (s : State) (x0 : List (Nat × Nat)) (x1 : List Byte) : (State.putPieces s x0 x1).key = s.key := by
  fun_induction State.putPieces s x0 x1 <;> simp_all
@[simp] theorem State.relax_key (s : State) (fn : Nat) : (State.relax s fn).key = s.key := by
  unfold State.relax
  repeat' (first | with_reducible rfl | split | (with_reducible refine (foldl_key _ _ _ fun s a => ?_).trans ?_) | (with_reducible refine (foldl_fst_key _ _ _ fun s a => ?_).trans ?_) | (with_reducible refine (foldl_snd_key _ _ _ fun s a => ?_).trans ?_) | simp | (with_reducible refine (State.snd_key (by assumption)).trans ?_) | (with_reducible refine (State.fst_key (by assumption)).trans ?_) | fail)
@[simp] theorem State.bufferPut_key (s : State) (fn : Nat) (prp1 prp2 : Qword) (total off : Nat) (bs : List Byte) : (State.bufferPut s fn prp1 prp2 total off bs).key = s.key := by
  unfold State.bufferPut
  repeat' (first | with_reducible rfl | split | (with_reducible refine (foldl_key _ _ _ fun s a => ?_).trans ?_) | (with_reducible refine (foldl_fst_key _ _ _ fun s a => ?_).trans ?_) | (with_reducible refine (foldl_snd_key _ _ _ fun s a => ?_).trans ?_) | simp | (with_reducible refine (State.snd_key (by assumption)).trans ?_) | (with_reducible refine (State.fst_key (by assumption)).trans ?_) | fail)
@[simp] theorem State.dataOut_key (s : State) (fn : Nat) (prp1 prp2 : Qword) (bs : List Byte) : (State.dataOut s fn prp1 prp2 bs).key = s.key := by
  unfold State.dataOut
  repeat' (first | with_reducible rfl | split | (with_reducible refine (foldl_key _ _ _ fun s a => ?_).trans ?_) | (with_reducible refine (foldl_fst_key _ _ _ fun s a => ?_).trans ?_) | (with_reducible refine (foldl_snd_key _ _ _ fun s a => ?_).trans ?_) | simp | (with_reducible refine (State.snd_key (by assumption)).trans ?_) | (with_reducible refine (State.fst_key (by assumption)).trans ?_) | fail)

/-! ### Flash.lean -/

@[simp] theorem State.modDie_key (s : State) (c d : Nat) (f : Die → Die) : (State.modDie s c d f).key = s.key := rfl
@[simp] theorem State.modChannel_key (s : State) (c : Nat) (f : Channel → Channel) : (State.modChannel s c f).key = s.key := rfl
@[simp] theorem State.modGroup_key (s : State) (g : Nat) (f : Group → Group) : (State.modGroup s g f).key = s.key := rfl
@[simp] theorem State.modSuperblock_key (s : State) (id : Nat) (f : Superblock → Superblock) : (State.modSuperblock s id f).key = s.key := rfl
@[simp] theorem State.mediaLog_key (s : State) (e : MediaEntry) (fault : Bool) : (State.mediaLog s e fault).key = s.key := by simp [State.mediaLog]
@[simp] theorem State.retireLog_key (s : State) (kind cause faultNo unit die plane index detail : Nat) : (State.retireLog s kind cause faultNo unit die plane index detail).key = s.key := by simp [State.retireLog]
@[simp] theorem State.warn_key (s : State) (bitNo : Nat) (info : Nat) : (State.warn s bitNo info).key = s.key := by
  unfold State.warn
  split <;> simp
@[simp] theorem State.addCycle_key (s : State) (a : BlockAddr) : (State.addCycle s a).key = s.key := rfl
theorem State.openSuperblock_key (s : State) (g j : Nat) (use : SbUse) (most : Bool) {a0 : Superblock} {u : State} (h : (State.openSuperblock s g j use most) = some (a0, u)) : u.key = s.key := by
  unfold State.openSuperblock at h
  try dsimp only at h
  repeat' (first | cases h | split at h | with_reducible rfl | split | simp | (with_reducible refine (State.snd_key (by assumption)).trans ?_) | fail)
@[simp] theorem State.retireBlock_key (s : State) (a : BlockAddr) (cause faultNo : Nat) : (State.retireBlock s a cause faultNo).key = s.key := by
  unfold State.retireBlock
  split <;> simp
@[simp] theorem State.judgeReadOnly_key (s : State) (g : Nat) : (State.judgeReadOnly s g).key = s.key := by
  unfold State.judgeReadOnly
  repeat' (first | with_reducible rfl | split | simp)
@[simp] theorem State.kick_key (s : State) (c d : Nat) : (State.kick s c d).key = s.key := by
  unfold State.kick
  repeat' (first | with_reducible rfl | split | simp)
@[simp] theorem State.suspend_key (s : State) (c d : Nat) : (State.suspend s c d).key = s.key := rfl
@[simp] theorem State.enqueue_key (s : State) (c d : Nat) (o : DieOp) : (State.enqueue s c d o).key = s.key := by
  unfold State.enqueue
  repeat' (first | with_reducible rfl | split | simp)
@[simp] theorem State.kickGroup_key (s : State) (g : Nat) : (State.kickGroup s g).key = s.key := by
  unfold State.kickGroup
  repeat' (first | with_reducible rfl | split | (with_reducible refine (foldl_key _ _ _ fun s a => ?_).trans ?_) | simp | fail)
@[simp] theorem State.endRunning_key (s : State) (c d : Nat) : (State.endRunning s c d).key = s.key := rfl

/-! ### Dram.lean -/

@[simp] theorem State.modMapCache_key (s : State) (f : List (Nat × Nat × Nat × Nat × Nat) → List (Nat × Nat × Nat × Nat × Nat)) : (State.modMapCache s f).key = s.key := by
  unfold State.modMapCache
  repeat' (first | with_reducible rfl | split | (with_reducible refine (foldl_key _ _ _ fun s a => ?_).trans ?_) | (with_reducible refine (foldl_fst_key _ _ _ fun s a => ?_).trans ?_) | (with_reducible refine (foldl_snd_key _ _ _ fun s a => ?_).trans ?_) | simp | (with_reducible refine (State.snd_key (by assumption)).trans ?_) | (with_reducible refine (State.fst_key (by assumption)).trans ?_) | fail)
@[simp] theorem State.mapLookup_key (s : State) (g fn nsid unit : Nat) : (State.mapLookup s g fn nsid unit).key = s.key := by
  unfold State.mapLookup
  repeat' (first | with_reducible rfl | split | (with_reducible refine (foldl_key _ _ _ fun s a => ?_).trans ?_) | (with_reducible refine (foldl_fst_key _ _ _ fun s a => ?_).trans ?_) | (with_reducible refine (foldl_snd_key _ _ _ fun s a => ?_).trans ?_) | simp | (with_reducible refine (State.snd_key (by assumption)).trans ?_) | (with_reducible refine (State.fst_key (by assumption)).trans ?_) | fail)
@[simp] theorem State.trimMapCache_key (s : State) : (State.trimMapCache s).key = s.key := by
  unfold State.trimMapCache
  repeat' (first | with_reducible rfl | split | (with_reducible refine (foldl_key _ _ _ fun s a => ?_).trans ?_) | (with_reducible refine (foldl_fst_key _ _ _ fun s a => ?_).trans ?_) | (with_reducible refine (foldl_snd_key _ _ _ fun s a => ?_).trans ?_) | simp | (with_reducible refine (State.snd_key (by assumption)).trans ?_) | (with_reducible refine (State.fst_key (by assumption)).trans ?_) | fail)

/-! ### Media.lean -/

@[simp] theorem State.lookUp_key (s : State) (fn nsid unit : Nat) : (State.lookUp s fn nsid unit).key = s.key := by
  unfold State.lookUp
  repeat' (first | with_reducible rfl | split | (with_reducible refine (foldl_key _ _ _ fun s a => ?_).trans ?_) | (with_reducible refine (foldl_fst_key _ _ _ fun s a => ?_).trans ?_) | (with_reducible refine (foldl_snd_key _ _ _ fun s a => ?_).trans ?_) | simp | (with_reducible refine (State.snd_key (by assumption)).trans ?_) | (with_reducible refine (State.fst_key (by assumption)).trans ?_) | fail)
@[simp] theorem State.journal_key (s : State) (g : Nat) : (State.journal s g).key = s.key := rfl
@[simp] theorem State.mapUnit_key (s : State) (fn nsid unit sb page stamp : Nat) : (State.mapUnit s fn nsid unit sb page stamp).key = s.key := by
  unfold State.mapUnit
  repeat' (first | with_reducible rfl | split | simp)
@[simp] theorem State.unmapUnit_key (s : State) (fn nsid unit : Nat) : (State.unmapUnit s fn nsid unit).key = s.key := rfl
@[simp] theorem State.buffer_key (s : State) (b : WbBlock) : (State.buffer s b).key = s.key := by
  unfold State.buffer
  extract_lets same s1
  split <;> rfl
theorem State.target_key (s : State) (g : Nat) (use : SbUse) (x0 : List Nat) {a0 : Superblock} {u : State} (h : (State.target s g use x0) = some (a0, u)) : u.key = s.key := by
  fun_induction State.target s g use x0 <;> repeat' (first | cases h | split at h | solve_by_elim | first | done | with_reducible rfl | assumption | split | (with_reducible refine (foldl_key _ _ _ (fun s a => ?_)).trans ?_) | (with_reducible refine (foldl_fst_key _ _ _ (fun s a => ?_)).trans ?_) | (with_reducible refine (foldl_snd_key _ _ _ (fun s a => ?_)).trans ?_) | (with_reducible refine State.key_with ?_) | simp only [State.key_eta] | simp | (with_reducible refine (State.openSuperblock_key (h := by assumption)).trans ?_) | (with_reducible refine (State.snd_key (by assumption)).trans ?_) | (with_reducible refine (State.fst_key (by assumption)).trans ?_) | fail)
@[simp] theorem State.advance_key (s : State) (id : Nat) : (State.advance s id).key = s.key := rfl
@[simp] theorem State.recordRole_key (s : State) (g : Nat) : (State.recordRole s g).key = s.key := by
  unfold State.recordRole
  split <;> simp
@[simp] theorem State.startRow_key (s : State) (b : Superblock) (row : Nat) (kind : JobKind) (members : List Member) : (State.startRow s b row kind members).key = s.key := by
  unfold State.startRow
  repeat' (first | with_reducible rfl | split | (with_reducible refine (foldl_key _ _ _ fun s a => ?_).trans ?_) | simp | fail)
theorem State.placeRow_key (s : State) (g : Nat) (shadows : Bool) {u : State} (h : (State.placeRow s g shadows) = some u) : u.key = s.key := by
  unfold State.placeRow at h
  try dsimp only at h
  repeat' (first | cases h | split at h | with_reducible rfl | split | simp | (with_reducible refine (State.target_key (h := by assumption)).trans ?_) | (with_reducible refine (State.snd_key (by assumption)).trans ?_) | fail)
@[simp] theorem State.fillRows_key (s : State) (g : Nat) (shadows force : Bool) (x0 : Nat) : (State.fillRows s g shadows force x0).key = s.key := by
  fun_induction State.fillRows s g shadows force x0 <;> repeat' (first | done | with_reducible rfl | assumption | split | simp_all | (simp +zetaDelta; done) | (with_reducible refine (State.target_key (h := by assumption)).trans ?_) | (with_reducible refine (State.placeRow_key (h := by assumption)).trans ?_) | (with_reducible refine (State.snd_key (by assumption)).trans ?_) | (with_reducible refine (State.fst_key (by assumption)).trans ?_) | fail)
@[simp] theorem State.fill_key (s : State) (g : Nat) (force : Bool) : (State.fill s g force).key = s.key := by simp [State.fill]
@[simp] theorem State.defer_key (s : State) (fn nsid slba nlb arrival : Nat) : (State.defer s fn nsid slba nlb arrival).key = s.key := by
  unfold State.defer
  repeat' (first | with_reducible rfl | split | (with_reducible refine (foldl_key _ _ _ fun s a => ?_).trans ?_) | (with_reducible refine (foldl_fst_key _ _ _ fun s a => ?_).trans ?_) | (with_reducible refine (foldl_snd_key _ _ _ fun s a => ?_).trans ?_) | simp | (with_reducible refine (State.snd_key (by assumption)).trans ?_) | (with_reducible refine (State.fst_key (by assumption)).trans ?_) | fail)
@[simp] theorem State.deferAll_key (s : State) (lost : List (Nat × Nat × Nat × Nat)) : (State.deferAll s lost).key = s.key := by
  unfold State.deferAll
  repeat' (first | with_reducible rfl | split | (with_reducible refine (foldl_key _ _ _ fun s a => ?_).trans ?_) | (with_reducible refine (foldl_fst_key _ _ _ fun s a => ?_).trans ?_) | (with_reducible refine (foldl_snd_key _ _ _ fun s a => ?_).trans ?_) | simp | (with_reducible refine (State.snd_key (by assumption)).trans ?_) | (with_reducible refine (State.fst_key (by assumption)).trans ?_) | fail)
@[simp] theorem State.ackWriters_key (s : State) (refs : List CmdRef) : (State.ackWriters s refs).key = s.key := by
  unfold State.ackWriters
  repeat' (first | with_reducible rfl | split | (with_reducible refine (foldl_key _ _ _ fun s a => ?_).trans ?_) | simp | fail)
@[simp] theorem State.ackFlushes_key (s : State) : (State.ackFlushes s).key = s.key := by
  unfold State.ackFlushes
  repeat' (first | with_reducible rfl | split | (with_reducible refine (foldl_key _ _ _ fun s a => ?_).trans ?_) | simp | fail)
@[simp] theorem State.unitFailed_key (s : State) (job fn nsid unit : Nat) : (State.unitFailed s job fn nsid unit).1.key = s.key := by
  unfold State.unitFailed
  repeat' (first | with_reducible rfl | split | (with_reducible refine (foldl_key _ _ _ fun s a => ?_).trans ?_) | simp | fail)
@[simp] theorem State.unitDone_key (s : State) (job fn nsid unit sb page : Nat) : (State.unitDone s job fn nsid unit sb page).key = s.key := by
  unfold State.unitDone
  split <;> simp
@[simp] theorem State.finishJob_key (s : State) (j : RowJob) : (State.finishJob s j).key = s.key := by
  unfold State.finishJob
  repeat' (first | with_reducible rfl | split | (with_reducible refine (foldl_fst_key _ _ _ fun s a => ?_).trans ?_) | simp | fail)
@[simp] theorem State.report_key (s : State) (job slot : Nat) (planes : List Nat) (ok : Nat → Bool) : (State.report s job slot planes ok).key = s.key := by
  unfold State.report
  repeat' (first | with_reducible rfl | split | simp)
@[simp] theorem State.storeMembers_key (s : State) (j : RowJob) (slot : Nat) (planes : List Nat) (bad : Nat → Bool) : (State.storeMembers s j slot planes bad).key = s.key := by
  unfold State.storeMembers
  repeat' (first | with_reducible rfl | split | (with_reducible refine (foldl_key _ _ _ fun s a => ?_).trans ?_) | simp | fail)
@[simp] theorem State.readBlock_key (s : State) (r : CmdRef) (slba lba : Nat) (bs : List Byte) : (State.readBlock s r slba lba bs).key = s.key := by
  unfold State.readBlock
  split <;> simp
@[simp] theorem State.readArrived_key (s : State) (r : CmdRef) (lba : Nat) (bs : List Byte) : (State.readArrived s r lba bs).key = s.key := by
  unfold State.readArrived
  repeat' (first | with_reducible rfl | split | simp)
@[simp] theorem State.modPool_key (s : State) (tenant : Nat) (model : Option Nat) (f : Pool → Pool) : (State.modPool s tenant model f).key = s.key := rfl
@[simp] theorem State.deliver_key (s : State) (r : Reader) (bs : List Byte) : (State.deliver s r bs).key = s.key := by
  unfold State.deliver
  split <;> simp
@[simp] theorem State.mediaReadDone_key (s : State) (c : CmdRef) (a : PageAddr) : (State.mediaReadDone s c a).key = s.key := by
  unfold State.mediaReadDone
  dsimp only
  split
  · rfl
  split
  · rfl
  rw [State.complete_key, State.dataOut_key]
@[simp] theorem State.markUnreadable_key (s : State) (a : PageAddr) (cw faultNo : Nat) : (State.markUnreadable s a cw faultNo).key = s.key := by
  unfold State.markUnreadable
  extract_lets s1
  split <;> rfl
@[simp] theorem State.readerFails_key (s : State) (r : Reader) (faultNo : Nat) : (State.readerFails s r faultNo).key = s.key := by
  unfold State.readerFails
  split <;> simp
@[simp] theorem State.stillWaiting_key (s : State) (r : Recovery) : (State.stillWaiting s r).2.key = s.key := by
  unfold State.stillWaiting
  repeat' (first | with_reducible rfl | split | (with_reducible refine (foldl_key _ _ _ fun s a => ?_).trans ?_) | (with_reducible refine (foldl_fst_key _ _ _ fun s a => ?_).trans ?_) | (with_reducible refine (foldl_snd_key _ _ _ fun s a => ?_).trans ?_) | simp | (with_reducible refine (State.snd_key (by assumption)).trans ?_) | (with_reducible refine (State.fst_key (by assumption)).trans ?_) | fail)
@[simp] theorem State.completeOpt_key (s : State) (c : Option CmdRef) (st : Status) (dw0 : Nat) : (State.completeOpt s c st dw0).key = s.key := by
  unfold State.completeOpt
  repeat' (first | with_reducible rfl | split | (with_reducible refine (foldl_key _ _ _ fun s a => ?_).trans ?_) | (with_reducible refine (foldl_fst_key _ _ _ fun s a => ?_).trans ?_) | (with_reducible refine (foldl_snd_key _ _ _ fun s a => ?_).trans ?_) | simp | (with_reducible refine (State.snd_key (by assumption)).trans ?_) | (with_reducible refine (State.fst_key (by assumption)).trans ?_) | fail)
@[simp] theorem State.dropReaders_key (s : State) (gone : CmdRef → Bool) : (State.dropReaders s gone).key = s.key := by
  unfold State.dropReaders
  repeat' (first | with_reducible rfl | split | (with_reducible refine (foldl_key _ _ _ fun s a => ?_).trans ?_) | (with_reducible refine (foldl_fst_key _ _ _ fun s a => ?_).trans ?_) | (with_reducible refine (foldl_snd_key _ _ _ fun s a => ?_).trans ?_) | simp | (with_reducible refine (State.snd_key (by assumption)).trans ?_) | (with_reducible refine (State.fst_key (by assumption)).trans ?_) | fail)
@[simp] theorem State.setZone_key (s : State) (c d zone set : Nat) : (State.setZone s c d zone set).key = s.key := rfl
@[simp] theorem State.recoveryLog_key (s : State) (r : Recovery) (outcome set : Nat) : (State.recoveryLog s r outcome set).key = s.key := by simp [State.recoveryLog]
@[simp] theorem State.dropRecovery_key (s : State) (r : Recovery) : (State.dropRecovery s r).key = s.key := rfl
@[simp] theorem State.putRecovery_key (s : State) (r : Recovery) : (State.putRecovery s r).key = s.key := rfl
@[simp] theorem State.shellEdge_key (s : State) (k line : Nat) : (State.shellEdge s k line).key = s.key := rfl
@[simp] theorem State.logicActs_key (s : State) (k : Nat) : (State.logicActs s k).key = s.key := by
  unfold State.logicActs
  repeat' (first | with_reducible rfl | split | (with_reducible refine (foldl_key _ _ _ fun s a => ?_).trans ?_) | (with_reducible refine (foldl_fst_key _ _ _ fun s a => ?_).trans ?_) | (with_reducible refine (foldl_snd_key _ _ _ fun s a => ?_).trans ?_) | simp | (with_reducible refine (State.snd_key (by assumption)).trans ?_) | (with_reducible refine (State.fst_key (by assumption)).trans ?_) | fail)
@[simp] theorem State.recovered_key (s : State) (r : Recovery) (bs : List Byte) : (State.recovered s r bs).key = s.key := by
  unfold State.recovered
  repeat' (first | with_reducible rfl | split | (with_reducible refine (foldl_key _ _ _ fun s a => ?_).trans ?_) | simp | fail)
@[simp] theorem State.recoveryCancelled_key (s : State) (r : Recovery) : (State.recoveryCancelled s r).key = s.key := by
  unfold State.recoveryCancelled
  repeat' (first | with_reducible rfl | split | (with_reducible refine (foldl_key _ _ _ fun s a => ?_).trans ?_) | (with_reducible refine (foldl_fst_key _ _ _ fun s a => ?_).trans ?_) | (with_reducible refine (foldl_snd_key _ _ _ fun s a => ?_).trans ?_) | simp | (with_reducible refine (State.snd_key (by assumption)).trans ?_) | (with_reducible refine (State.fst_key (by assumption)).trans ?_) | fail)
@[simp] theorem State.unrecovered_key (s : State) (r : Recovery) : (State.unrecovered s r).key = s.key := by
  unfold State.unrecovered
  repeat' (first | with_reducible rfl | split | (with_reducible refine (foldl_key _ _ _ fun s a => ?_).trans ?_) | simp | fail)
@[simp] theorem State.startRebuild_key (s : State) (r : Recovery) : (State.startRebuild s r).key = s.key := by
  unfold State.startRebuild
  repeat' (first | with_reducible rfl | split | (with_reducible refine (foldl_key _ _ _ fun s a => ?_).trans ?_) | (with_reducible refine (foldl_fst_key _ _ _ fun s a => ?_).trans ?_) | (with_reducible refine (foldl_snd_key _ _ _ fun s a => ?_).trans ?_) | simp | (with_reducible refine (State.snd_key (by assumption)).trans ?_) | (with_reducible refine (State.fst_key (by assumption)).trans ?_) | fail)
@[simp] theorem State.nextRecovery_key (s : State) (r : Recovery) : (State.nextRecovery s r).key = s.key := by
  unfold State.nextRecovery
  extract_lets spent budget sets
  split
  · rw [State.enqueue_key, State.putRecovery_key]
  split
  · dsimp only
    exact (foldl_key _ _ _ fun s x => State.readerFails_key _ _ _).trans (State.startRebuild_key _ _)
  · rw [State.unrecovered_key]
@[simp] theorem State.startRecovery_key (s : State) (a : PageAddr) (cw : Nat) (x : Reader) (rebuilding : Bool) (found : Option Nat) : (State.startRecovery s a cw x rebuilding found).key = s.key := by
  unfold State.startRecovery
  repeat' (first | with_reducible rfl | split | (with_reducible refine (foldl_key _ _ _ fun s a => ?_).trans ?_) | (with_reducible refine (foldl_fst_key _ _ _ fun s a => ?_).trans ?_) | (with_reducible refine (foldl_snd_key _ _ _ fun s a => ?_).trans ?_) | simp | (with_reducible refine (State.snd_key (by assumption)).trans ?_) | (with_reducible refine (State.fst_key (by assumption)).trans ?_) | fail)
@[simp] theorem State.mateRead_key (s : State) (a : PageAddr) (cw : Nat) (m : PageAddr) (decodes : Bool) : (State.mateRead s a cw m decodes).key = s.key := by
  unfold State.mateRead
  repeat' (first | with_reducible rfl | split | (with_reducible refine (foldl_key _ _ _ fun s a => ?_).trans ?_) | (with_reducible refine (foldl_fst_key _ _ _ fun s a => ?_).trans ?_) | (with_reducible refine (foldl_snd_key _ _ _ fun s a => ?_).trans ?_) | simp | (with_reducible refine (State.snd_key (by assumption)).trans ?_) | (with_reducible refine (State.fst_key (by assumption)).trans ?_) | fail)
@[simp] theorem State.sourceFails_key (s : State) (sb slot row : Nat) (planes : List Nat) (bad : Nat → Nat → Bool) (rebuilding : Bool) (found : Option Nat) : (State.sourceFails s sb slot row planes bad rebuilding found).key = s.key := by
  unfold State.sourceFails
  repeat' (first | with_reducible rfl | split | (with_reducible refine (foldl_key _ _ _ fun s a => ?_).trans ?_) | (with_reducible refine (foldl_fst_key _ _ _ fun s a => ?_).trans ?_) | (with_reducible refine (foldl_snd_key _ _ _ fun s a => ?_).trans ?_) | simp | (with_reducible refine (State.snd_key (by assumption)).trans ?_) | (with_reducible refine (State.fst_key (by assumption)).trans ?_) | fail)
@[simp] theorem State.abortDirect_key (s : State) (r : Recovery) (faultNo : Nat) : (State.abortDirect s r faultNo).2.key = s.key := by
  unfold State.abortDirect
  repeat' (first | with_reducible rfl | split | (with_reducible refine (foldl_key _ _ _ fun s a => ?_).trans ?_) | (with_reducible refine (foldl_fst_key _ _ _ fun s a => ?_).trans ?_) | (with_reducible refine (foldl_snd_key _ _ _ fun s a => ?_).trans ?_) | simp | (with_reducible refine (State.snd_key (by assumption)).trans ?_) | (with_reducible refine (State.fst_key (by assumption)).trans ?_) | fail)
@[simp] theorem State.cutOp_key (s : State) (o : DieOp) (faultNo : Nat) : (State.cutOp s o faultNo).key = s.key := by
  unfold State.cutOp
  repeat' (first | with_reducible rfl | split | (with_reducible refine (foldl_key _ _ _ fun s a => ?_).trans ?_) | simp | fail)
@[simp] theorem State.cutRecovery_key (s : State) (r : Recovery) (faultNo : Nat) : (State.cutRecovery s r faultNo).key = s.key := by
  unfold State.cutRecovery
  repeat' (first | with_reducible rfl | split | (with_reducible refine (foldl_key _ _ _ fun s a => ?_).trans ?_) | (with_reducible refine (foldl_fst_key _ _ _ fun s a => ?_).trans ?_) | (with_reducible refine (foldl_snd_key _ _ _ fun s a => ?_).trans ?_) | simp | (with_reducible refine (State.snd_key (by assumption)).trans ?_) | (with_reducible refine (State.fst_key (by assumption)).trans ?_) | fail)
@[simp] theorem State.cutDie_key (s : State) (c d faultNo : Nat) : (State.cutDie s c d faultNo).key = s.key := by
  unfold State.cutDie
  repeat' (first | with_reducible rfl | split | (with_reducible refine (foldl_key _ _ _ fun s a => ?_).trans ?_) | simp | fail)
@[simp] theorem State.isolateOn_key (s : State) (c cause : Nat) : (State.isolateOn s c cause).key = s.key := by
  unfold State.isolateOn
  repeat' (first | with_reducible rfl | split | (with_reducible refine (foldl_key _ _ _ fun s a => ?_).trans ?_) | (with_reducible refine (foldl_fst_key _ _ _ fun s a => ?_).trans ?_) | (with_reducible refine (foldl_snd_key _ _ _ fun s a => ?_).trans ?_) | simp | (with_reducible refine (State.snd_key (by assumption)).trans ?_) | (with_reducible refine (State.fst_key (by assumption)).trans ?_) | fail)
@[simp] theorem State.isolate_key (s : State) (c cause : Nat) : (State.isolate s c cause).key = s.key := by
  unfold State.isolate
  repeat' (first | with_reducible rfl | split | (with_reducible refine (foldl_key _ _ _ fun s a => ?_).trans ?_) | simp | (with_reducible refine (State.snd_key (by assumption)).trans ?_) | (with_reducible refine (State.fst_key (by assumption)).trans ?_) | fail)
@[simp] theorem State.retireDie_key (s : State) (c d : Nat) : (State.retireDie s c d).key = s.key := by
  unfold State.retireDie
  rcases hf : s.newFault with ⟨f, s1⟩
  have e := State.snd_key hf
  rw [State.newFault_key] at e
  dsimp only
  rw [State.judgeReadOnly_key, State.cutDie_key, State.retireLog_key, State.mediaLog_key, State.modMedia_key, State.modDie_key, e]
@[simp] theorem State.programFailed_key (s : State) (b : Superblock) (slot plane row : Nat) (found : Option Nat) : (State.programFailed s b slot plane row found).key = s.key := by
  unfold State.programFailed
  repeat' (first | with_reducible rfl | split | (with_reducible refine (foldl_key _ _ _ fun s a => ?_).trans ?_) | (with_reducible refine (foldl_fst_key _ _ _ fun s a => ?_).trans ?_) | (with_reducible refine (foldl_snd_key _ _ _ fun s a => ?_).trans ?_) | simp | (with_reducible refine (State.snd_key (by assumption)).trans ?_) | (with_reducible refine (State.fst_key (by assumption)).trans ?_) | fail)
theorem State.flushAttempt_key (s : State) (g k : Nat) (failed : List (Nat × Nat)) (sets : List Nat) {a0 : Bool} {a1 : List (Nat × Nat × Nat)} {a2 : Nat} {u : State} (h : (State.flushAttempt s g k failed sets) = some (a0, a1, a2, u)) : u.key = s.key := by
  unfold State.flushAttempt at h
  try dsimp only at h
  repeat' (first | cases h | split at h | first | done | with_reducible rfl | assumption | split | (with_reducible refine (foldl_key _ _ _ (fun s a => ?_)).trans ?_) | (with_reducible refine (foldl_fst_key _ _ _ (fun s a => ?_)).trans ?_) | (with_reducible refine (foldl_snd_key _ _ _ (fun s a => ?_)).trans ?_) | (with_reducible refine State.key_with ?_) | simp only [State.key_eta] | simp | (with_reducible refine (State.target_key (h := by assumption)).trans ?_) | (with_reducible refine (State.snd_key (by assumption)).trans ?_) | (with_reducible refine (State.fst_key (by assumption)).trans ?_) | fail)
@[simp] theorem State.flushed_key (s : State) (us : List (Nat × Nat × Nat)) (lost : Bool) : (State.flushed s us lost).key = s.key := rfl
theorem State.flushRow_key (s : State) (g k : Nat) (failed : List (Nat × Nat)) {u : State} {a1 : Nat} (h : (State.flushRow s g k failed) = some (u, a1)) : u.key = s.key := by
  unfold State.flushRow at h
  try dsimp only at h
  repeat' (first | cases h | split at h | with_reducible rfl | split | simp | (with_reducible refine (State.flushAttempt_key (h := by assumption)).trans ?_) | (with_reducible refine (State.snd_key (by assumption)).trans ?_) | fail)
@[simp] theorem State.flushGroup_key (s : State) (g : Nat) (failed : List (Nat × Nat)) (x0 : Nat) (x1 : Nat) : (State.flushGroup s g failed x0 x1).1.key = s.key := by
  fun_induction State.flushGroup s g failed x0 x1 <;> repeat' (first | done | with_reducible rfl | assumption | split | simp_all | (simp +zetaDelta; done) | (with_reducible refine (State.flushRow_key (h := by assumption)).trans ?_) | (with_reducible refine (State.snd_key (by assumption)).trans ?_) | (with_reducible refine (State.fst_key (by assumption)).trans ?_) | fail)
@[simp] theorem State.flushAll_key (s : State) (failed : List (Nat × Nat)) : (State.flushAll s failed).key = s.key := by
  unfold State.flushAll
  repeat' (first | with_reducible rfl | split | (with_reducible refine (foldl_fst_key _ _ _ fun s a => ?_).trans ?_) | simp | fail)

/-! ### Invocations.lean -/

@[simp] theorem State.modModel_key (s : State) (t m : Nat) (f : Model → Model) : (State.modModel s t m f).key = s.key := rfl
@[simp] theorem State.modBuffer_key (s : State) (t index : Nat) (f : Buffer → Buffer) : (State.modBuffer s t index f).key = s.key := rfl
@[simp] theorem State.modInv_key (s : State) (r : CmdRef) (f : Invocation → Invocation) : (State.modInv s r f).key = s.key := rfl
@[simp] theorem State.zeroCounters_key (s : State) (t : Nat) : (State.zeroCounters s t).key = s.key := rfl
@[simp] theorem State.teach_key (s : State) (c : Nat) (l : List (Nat × Nat)) : (State.teach s c l).key = s.key := by
  unfold State.teach
  repeat' (first | with_reducible rfl | split | (with_reducible refine (foldl_key _ _ _ fun s a => ?_).trans ?_) | (with_reducible refine (foldl_fst_key _ _ _ fun s a => ?_).trans ?_) | (with_reducible refine (foldl_snd_key _ _ _ fun s a => ?_).trans ?_) | simp | (with_reducible refine (State.snd_key (by assumption)).trans ?_) | (with_reducible refine (State.fst_key (by assumption)).trans ?_) | fail)
@[simp] theorem State.tell_key (s : State) (t : Nat) (l : List (Nat × Nat)) : (State.tell s t l).key = s.key := by
  unfold State.tell
  repeat' (first | with_reducible rfl | split | (with_reducible refine (foldl_key _ _ _ fun s a => ?_).trans ?_) | (with_reducible refine (foldl_fst_key _ _ _ fun s a => ?_).trans ?_) | (with_reducible refine (foldl_snd_key _ _ _ fun s a => ?_).trans ?_) | simp | (with_reducible refine (State.snd_key (by assumption)).trans ?_) | (with_reducible refine (State.fst_key (by assumption)).trans ?_) | fail)
@[simp] theorem State.forget_key (s : State) (t tag : Nat) : (State.forget s t tag).key = s.key := by
  unfold State.forget
  repeat' (first | with_reducible rfl | split | (with_reducible refine (foldl_key _ _ _ fun s a => ?_).trans ?_) | (with_reducible refine (foldl_fst_key _ _ _ fun s a => ?_).trans ?_) | (with_reducible refine (foldl_snd_key _ _ _ fun s a => ?_).trans ?_) | simp | (with_reducible refine (State.snd_key (by assumption)).trans ?_) | (with_reducible refine (State.fst_key (by assumption)).trans ?_) | fail)
theorem State.placeMove_key (s : State) (i : Invocation) (o : CmdOrigin) {u : State} (h : (State.placeMove s i o) = some u) : u.key = s.key := by
  unfold State.placeMove at h
  obtain ⟨q, -, rfl⟩ := Option.map_eq_some_iff.mp h
  simp
@[simp] theorem State.zeroPoison_key (s : State) (t : Nat) (b : Buffer) : (State.zeroPoison s t b).key = s.key := by
  unfold State.zeroPoison
  repeat' (first | with_reducible rfl | split | (with_reducible refine (foldl_key _ _ _ fun s a => ?_).trans ?_) | (with_reducible refine (foldl_fst_key _ _ _ fun s a => ?_).trans ?_) | (with_reducible refine (foldl_snd_key _ _ _ fun s a => ?_).trans ?_) | simp | (with_reducible refine (State.snd_key (by assumption)).trans ?_) | (with_reducible refine (State.fst_key (by assumption)).trans ?_) | fail)
@[simp] theorem State.beginRun_key (s : State) (i : Invocation) : (State.beginRun s i).key = s.key := by
  unfold State.beginRun
  repeat' (first | with_reducible rfl | split | (with_reducible refine (foldl_key _ _ _ fun s a => ?_).trans ?_) | simp | fail)
@[simp] theorem State.pumpHome_key (s : State) (t m : Nat) : (State.pumpHome s t m).key = s.key := by
  unfold State.pumpHome
  repeat' (first | done | with_reducible rfl | assumption | split | (with_reducible refine (foldl_key _ _ _ (fun s a => ?_)).trans ?_) | (with_reducible refine (foldl_fst_key _ _ _ (fun s a => ?_)).trans ?_) | (with_reducible refine (foldl_snd_key _ _ _ (fun s a => ?_)).trans ?_) | (with_reducible refine State.key_with ?_) | simp only [State.key_eta] | simp | (with_reducible refine (State.placeMove_key (h := by assumption)).trans ?_) | (with_reducible refine (State.snd_key (by assumption)).trans ?_) | (with_reducible refine (State.fst_key (by assumption)).trans ?_) | fail)
@[simp] theorem State.pumpWaiters_key (s : State) : (State.pumpWaiters s).key = s.key := by
  unfold State.pumpWaiters
  refine (foldl_key _ _ _ fun s x => State.pumpHome_key _ _ _).trans (foldl_key _ _ _ fun s i => ?_)
  split
  · rfl
  · rw [State.modInv_key, State.placeMove_key (h := by assumption)]
@[simp] theorem State.closeRun_key (s : State) (t : Nat) : (State.closeRun s t).key = s.key := by
  unfold State.closeRun
  repeat' (first | with_reducible rfl | split | (with_reducible refine (foldl_key _ _ _ fun s a => ?_).trans ?_) | simp | fail)
@[simp] theorem State.releaseHeld_key (s : State) (t tag : Nat) : (State.releaseHeld s t tag).key = s.key := rfl
@[simp] theorem State.endInv_key (s : State) (i : Invocation) (st : Status) (dw0 : Nat) : (State.endInv s i st dw0).key = s.key := by
  unfold State.endInv
  repeat' (first | with_reducible rfl | split | simp)
@[simp] theorem State.stopInv_key (s : State) (i : Invocation) (sc dw0 : Nat) (silent : Bool) : (State.stopInv s i sc dw0 silent).key = s.key := by
  unfold State.stopInv
  repeat' (first | with_reducible rfl | split | simp)
@[simp] theorem State.faultInv_key (s : State) (i : Invocation) (why : StopReason) (faultNo queue word : Nat) : (State.faultInv s i why faultNo queue word).key = s.key := by
  unfold State.faultInv
  repeat' (first | with_reducible rfl | split | simp | (with_reducible refine (State.snd_key (by assumption)).trans ?_) | fail)
@[simp] theorem State.satInv_key (s : State) (i : Invocation) (c queue word : Nat) : (State.satInv s i c queue word).key = s.key := by
  unfold State.satInv
  split <;> simp
@[simp] theorem State.saturate_key (s : State) (t c : Nat) : (State.saturate s t c).key = s.key := by
  unfold State.saturate
  repeat' (first | with_reducible rfl | split | (with_reducible refine (foldl_key _ _ _ fun s a => ?_).trans ?_) | simp | fail)
@[simp] theorem State.bump_key (s : State) (t c inc : Nat) : (State.bump s t c inc).key = s.key := by
  unfold State.bump
  repeat' (first | with_reducible rfl | split | simp)
@[simp] theorem State.bumpAfter_key (s : State) (t : Nat) (l : List (Nat × Nat)) (x0 : Option (Nat × Nat)) : (State.bumpAfter s t l x0).key = s.key := by
  cases x0 <;> simp [State.bumpAfter]
@[simp] theorem State.bumpOpt_key (s : State) (t : Nat) (x0 : Option (Nat × Nat)) : (State.bumpOpt s t x0).key = s.key := by cases x0 <;> simp [State.bumpOpt]

/-! ### Counters.lean -/

@[simp] theorem State.completeValue_key (s : State) (c : Cmd) : (State.completeValue s c).key = s.key := by simp [State.completeValue]

/-! ### MediaMgmt.lean -/

@[simp] theorem State.kickChannel_key (s : State) (c : Nat) : (State.kickChannel s c).key = s.key := by
  unfold State.kickChannel
  repeat' (first | with_reducible rfl | split | (with_reducible refine (foldl_key _ _ _ fun s a => ?_).trans ?_) | (with_reducible refine (foldl_fst_key _ _ _ fun s a => ?_).trans ?_) | (with_reducible refine (foldl_snd_key _ _ _ fun s a => ?_).trans ?_) | simp | (with_reducible refine (State.snd_key (by assumption)).trans ?_) | (with_reducible refine (State.fst_key (by assumption)).trans ?_) | fail)
@[simp] theorem State.firstFail_key (s : State) (c d : Nat) : (State.firstFail s c d).key = s.key := by
  unfold State.firstFail
  repeat' (first | with_reducible rfl | split | (with_reducible refine (foldl_key _ _ _ fun s a => ?_).trans ?_) | (with_reducible refine (foldl_fst_key _ _ _ fun s a => ?_).trans ?_) | (with_reducible refine (foldl_snd_key _ _ _ fun s a => ?_).trans ?_) | simp | (with_reducible refine (State.snd_key (by assumption)).trans ?_) | (with_reducible refine (State.fst_key (by assumption)).trans ?_) | fail)
@[simp] theorem State.pageRead_key (s : State) (c d : Nat) (a : PageAddr) (cws : List Nat) (x : Reader) (failing : List Nat) : (State.pageRead s c d a cws x failing).key = s.key := by
  unfold State.pageRead
  repeat' (first | with_reducible rfl | split | (with_reducible refine (foldl_key _ _ _ fun s a => ?_).trans ?_) | simp | fail)
@[simp] theorem State.attempted_key (s : State) (r : Recovery) (decodes : Bool) : (State.attempted s r decodes).key = s.key := by
  unfold State.attempted
  repeat' (first | with_reducible rfl | split | (with_reducible refine (foldl_key _ _ _ fun s a => ?_).trans ?_) | (with_reducible refine (foldl_fst_key _ _ _ fun s a => ?_).trans ?_) | (with_reducible refine (foldl_snd_key _ _ _ fun s a => ?_).trans ?_) | simp | (with_reducible refine (State.snd_key (by assumption)).trans ?_) | (with_reducible refine (State.fst_key (by assumption)).trans ?_) | fail)
@[simp] theorem State.eraseBlock_key (s : State) (a : BlockAddr) : (State.eraseBlock s a).key = s.key := rfl
@[simp] theorem State.slotErased_key (s : State) (sb slot : Nat) : (State.slotErased s sb slot).key = s.key := by
  unfold State.slotErased
  repeat' (first | with_reducible rfl | split | simp)
@[simp] theorem State.eraseFailed_key (s : State) (a : BlockAddr) (found : Option Nat) : (State.eraseFailed s a found).key = s.key := by
  unfold State.eraseFailed
  repeat' (first | with_reducible rfl | split | (with_reducible refine (foldl_key _ _ _ fun s a => ?_).trans ?_) | (with_reducible refine (foldl_fst_key _ _ _ fun s a => ?_).trans ?_) | (with_reducible refine (foldl_snd_key _ _ _ fun s a => ?_).trans ?_) | simp | (with_reducible refine (State.snd_key (by assumption)).trans ?_) | (with_reducible refine (State.fst_key (by assumption)).trans ?_) | fail)
@[simp] theorem State.classify_key (s : State) (a : PageAddr) (worstBits result : Nat) : (State.classify s a worstBits result).key = s.key := by
  unfold State.classify
  repeat' (first | with_reducible rfl | split | (with_reducible refine (foldl_key _ _ _ fun s a => ?_).trans ?_) | (with_reducible refine (foldl_fst_key _ _ _ fun s a => ?_).trans ?_) | (with_reducible refine (foldl_snd_key _ _ _ fun s a => ?_).trans ?_) | simp | (with_reducible refine (State.snd_key (by assumption)).trans ?_) | (with_reducible refine (State.fst_key (by assumption)).trans ?_) | fail)
@[simp] theorem State.patrolNextPage_key (s : State) (c d i : Nat) : (State.patrolNextPage s c d i).key = s.key := by
  unfold State.patrolNextPage
  repeat' (first | with_reducible rfl | split | (with_reducible refine (foldl_key _ _ _ fun s a => ?_).trans ?_) | (with_reducible refine (foldl_fst_key _ _ _ fun s a => ?_).trans ?_) | (with_reducible refine (foldl_snd_key _ _ _ fun s a => ?_).trans ?_) | simp | (with_reducible refine (State.snd_key (by assumption)).trans ?_) | (with_reducible refine (State.fst_key (by assumption)).trans ?_) | fail)
@[simp] theorem State.patrolEnds_key (s : State) (c d i worstBits result : Nat) : (State.patrolEnds s c d i worstBits result).key = s.key := by
  unfold State.patrolEnds
  repeat' (first | with_reducible rfl | split | (with_reducible refine (foldl_key _ _ _ fun s a => ?_).trans ?_) | (with_reducible refine (foldl_fst_key _ _ _ fun s a => ?_).trans ?_) | (with_reducible refine (foldl_snd_key _ _ _ fun s a => ?_).trans ?_) | simp | (with_reducible refine (State.snd_key (by assumption)).trans ?_) | (with_reducible refine (State.fst_key (by assumption)).trans ?_) | fail)
@[simp] theorem State.kickTarget_key (s : State) (c d : Nat) : (State.kickTarget s c d).key = s.key := by
  unfold State.kickTarget
  repeat' (first | with_reducible rfl | split | (with_reducible refine (foldl_key _ _ _ fun s a => ?_).trans ?_) | (with_reducible refine (foldl_fst_key _ _ _ fun s a => ?_).trans ?_) | (with_reducible refine (foldl_snd_key _ _ _ fun s a => ?_).trans ?_) | simp | (with_reducible refine (State.snd_key (by assumption)).trans ?_) | (with_reducible refine (State.fst_key (by assumption)).trans ?_) | fail)
@[simp] theorem State.failOp_key (s : State) (c d : Nat) (o : DieOp) (faultNo : Nat) : (State.failOp s c d o faultNo).key = s.key := by
  unfold State.failOp
  split
  · split
    · rw [State.complete_key]
    · rfl
    · exact foldl_key _ _ _ fun s x => State.startRecovery_key _ _ _ _ _ _
  · split
    · rfl
    · dsimp only
      rw [State.attempted_key, State.abortDirect_key]
  · rw [State.mateRead_key]
  · rw [State.sourceFails_key]
  · rw [State.patrolEnds_key]
  · rfl
  · split
    · rfl
    · extract_lets s1 s2
      rw [State.report_key]
      have h1 : s1.key = s.key := State.storeMembers_key _ _ _ _ _
      have h2 : s2.key = s1.key := by
        show State.key (match s1.superblock _ with | some b => _ | none => _) = _
        split
        · exact foldl_key _ _ _ fun s x => State.programFailed_key _ _ _ _ _ _
        · rfl
      exact h2.trans h1
  · split
    · rfl
    · rw [State.slotErased_key]
      exact foldl_key _ _ _ fun s x => State.eraseFailed_key _ _ _
  · rw [State.completeOpt_key]
  · rw [State.completeOpt_key]
@[simp] theorem State.budgetRefused_key (s : State) (offset value : Nat) : (State.budgetRefused s offset value).key = s.key := by simp [State.budgetRefused]
@[simp] theorem State.turnMetadata_key (s : State) (g : Nat) : (State.turnMetadata s g).key = s.key := by
  unfold State.turnMetadata
  repeat' (first | with_reducible rfl | split | (with_reducible refine (foldl_key _ _ _ fun s a => ?_).trans ?_) | (with_reducible refine (foldl_fst_key _ _ _ fun s a => ?_).trans ?_) | (with_reducible refine (foldl_snd_key _ _ _ fun s a => ?_).trans ?_) | simp | (with_reducible refine (State.snd_key (by assumption)).trans ?_) | (with_reducible refine (State.fst_key (by assumption)).trans ?_) | fail)
@[simp] theorem State.programTail_key (s : State) (g : Nat) : (State.programTail s g).key = s.key := by
  unfold State.programTail
  split
  · rfl
  extract_lets x s1 y slots b0 place
  have h1 : s1.key = s.key := State.ite_key (State.turnMetadata_key _ _) rfl
  obtain ⟨pl, hp⟩ : ∃ pl, place = pl := ⟨_, rfl⟩
  rw [hp]
  obtain _ | ⟨b, t⟩ := pl
  · exact h1
  have ht : t.key = s1.key := by
    simp only [place] at hp
    split at hp
    · cases hp; rfl
    · obtain ⟨r, hr, he⟩ := Option.map_eq_some_iff.mp hp
      cases he
      rw [State.advance_key, State.openSuperblock_key (h := hr)]
  dsimp only
  rw [State.modGroup_key]
  refine (foldl_key _ _ _ fun s x => ?_).trans (ht.trans h1)
  rfl
@[simp] theorem State.copyRows_key (s : State) (b : Superblock) (source : Nat) (x0 : Nat) (x1 : List (Item × List Byte)) : (State.copyRows s b source x0 x1).key = s.key := by
  fun_induction State.copyRows s b source x0 x1 <;> repeat' (first | done | with_reducible rfl | assumption | split | simp_all | (simp +zetaDelta; done) | (with_reducible refine (State.snd_key (by assumption)).trans ?_) | (with_reducible refine (State.fst_key (by assumption)).trans ?_) | fail)
theorem State.relocate_key (s : State) (b : Superblock) (dst : Option (Superblock × State)) (h : ∀ b t, dst = some (b, t) → t.key = s.key) : (State.relocate s b dst).key = s.key := by
  unfold State.relocate
  extract_lets items
  split
  · rfl
  · extract_lets copies placed
    rw [State.copyRows_key]
    exact h _ _ rfl
@[simp] theorem State.readSources_key (s : State) (b : Superblock) (worn : Bool) : (State.readSources s b worn).key = s.key := by
  unfold State.readSources
  repeat' (first | with_reducible rfl | split | (with_reducible refine (foldl_key _ _ _ fun s a => ?_).trans ?_) | (with_reducible refine (foldl_fst_key _ _ _ fun s a => ?_).trans ?_) | (with_reducible refine (foldl_snd_key _ _ _ fun s a => ?_).trans ?_) | simp | (with_reducible refine (State.snd_key (by assumption)).trans ?_) | (with_reducible refine (State.fst_key (by assumption)).trans ?_) | fail)
@[simp] theorem State.copySourced_key (s : State) (b : Superblock) (worn : Bool) : (State.copySourced s b worn).key = s.key := by
  unfold State.copySourced
  refine State.ite_key rfl ?_
  extract_lets s1
  refine State.ite_key ?_ ?_
  · rw [State.relocate_key]
    · rfl
    · intro b t h; exact State.openSuperblock_key (h := h)
  · rw [State.relocate_key]
    · rfl
    · intro b t h; exact State.target_key (h := h)
@[simp] theorem State.switchUnit_key (s : State) (c : Copied) : (State.switchUnit s c).key = s.key := by
  unfold State.switchUnit
  repeat' (first | with_reducible rfl | split | simp)

/-! ### Nvm.lean -/

@[simp] theorem State.endTest_key (s : State) (result segment : Nat) : (State.endTest s result segment).key = s.key := by
  unfold State.endTest
  split <;> simp
@[simp] theorem State.abortTest_key (s : State) (result : Nat) : (State.abortTest s result).key = s.key := by
  unfold State.abortTest
  split <;> simp
@[simp] theorem State.request_key (s : State) (sb q cw : Nat) (x : Reader) : (State.request s sb q cw x).key = s.key := by
  unfold State.request
  repeat' (first | with_reducible rfl | split | simp)
@[simp] theorem State.deallocate_key (s : State) (fn nsid : Nat) (unit : Nat → Bool) : (State.deallocate s fn nsid unit).key = s.key := by simp [State.deallocate]
@[simp] theorem State.nsChanged_key (s : State) (fn nsid : Nat) : (State.nsChanged s fn nsid).key = s.key := by
  unfold State.nsChanged
  repeat' (first | with_reducible rfl | split | simp)
@[simp] theorem State.deleteNamespace_key (s : State) (n : Namespace) : (State.deleteNamespace s n).key = s.key := by simp [State.deleteNamespace]
@[simp] theorem State.evacuate_key (s : State) (b : Superblock) : (State.evacuate s b).key = s.key := by
  unfold State.evacuate
  repeat' (first | done | with_reducible rfl | assumption | split | (with_reducible refine (foldl_key _ _ _ (fun s a => ?_)).trans ?_) | (with_reducible refine (foldl_fst_key _ _ _ (fun s a => ?_)).trans ?_) | (with_reducible refine (foldl_snd_key _ _ _ (fun s a => ?_)).trans ?_) | (with_reducible refine State.key_with ?_) | simp only [State.key_eta] | simp | (with_reducible refine (State.target_key (h := by assumption)).trans ?_) | (with_reducible refine (State.snd_key (by assumption)).trans ?_) | (with_reducible refine (State.fst_key (by assumption)).trans ?_) | fail)
@[simp] theorem State.formatNs_key (s : State) (n : Namespace) (erase : Bool) : (State.formatNs s n erase).key = s.key := by
  unfold State.formatNs
  repeat' (first | with_reducible rfl | split | (with_reducible refine (foldl_key _ _ _ fun s a => ?_).trans ?_) | simp | fail)
@[simp] theorem State.endMediaWork_key (s : State) : (State.endMediaWork s).key = s.key := by
  unfold State.endMediaWork
  dsimp only
  rw [State.ackFlushes_key, State.ackWriters_key]
  refine (foldl_key _ _ _ fun s a => by rw [State.complete_key]).trans ?_
  refine (foldl_key _ _ _ fun s a => ?_).trans rfl
  rw [State.complete_key]
  exact foldl_key _ _ _ fun s a => by rw [State.readBlock_key]

/-! ### Buffers.lean -/

@[simp] theorem State.clearTiles_key (s : State) (place : List Nat) : (State.clearTiles s place).key = s.key := by
  unfold State.clearTiles
  repeat' (first | with_reducible rfl | split | (with_reducible refine (foldl_key _ _ _ fun s a => ?_).trans ?_) | (with_reducible refine (foldl_fst_key _ _ _ fun s a => ?_).trans ?_) | (with_reducible refine (foldl_snd_key _ _ _ fun s a => ?_).trans ?_) | simp | (with_reducible refine (State.snd_key (by assumption)).trans ?_) | (with_reducible refine (State.fst_key (by assumption)).trans ?_) | fail)
@[simp] theorem State.clearPoison_key (s : State) (place : List Granule) : (State.clearPoison s place).key = s.key := rfl
@[simp] theorem State.trimShared_key (s : State) (t : Nat) : (State.trimShared s t).key = s.key := rfl
@[simp] theorem State.newBuffer_key (s : State) (t index : Nat) (p : Placement) (size firstExtent : Nat) (content : Option Region) (planOf : Option (Nat × Nat)) : (State.newBuffer s t index p size firstExtent content planOf).key = s.key := by
  unfold State.newBuffer
  repeat' (first | with_reducible rfl | split | simp | (with_reducible refine (State.snd_key (by assumption)).trans ?_) | fail)
@[simp] theorem State.endBuffer_key (s : State) (t : Nat) (b : Buffer) : (State.endBuffer s t b).key = s.key := by
  unfold State.endBuffer
  split <;> simp
@[simp] theorem State.errorEntry_key (s : State) (fn : Nat) (r : CmdRef) (st : Status) : (State.errorEntry s fn r st).key = s.key := rfl
@[simp] theorem State.foreignFree_key (s : State) (by_ named handle : Nat) : (State.foreignFree s by_ named handle).key = s.key := by
  unfold State.foreignFree
  split <;> simp
@[simp] theorem State.spanStore_key (s : State) (i : Invocation) (q : Span) (bs : List Byte) : (State.spanStore s i q bs).key = s.key := by
  unfold State.spanStore
  repeat' (first | with_reducible rfl | split | simp)

/-! ### Packages.lean -/

@[simp] theorem State.dropModel_key (s : State) (t slot : Nat) : (State.dropModel s t slot).key = s.key := by
  unfold State.dropModel
  repeat' (first | with_reducible rfl | split | (with_reducible refine (foldl_key _ _ _ fun s a => ?_).trans ?_) | simp | fail)
@[simp] theorem State.reserveModel_key (s : State) (t slot : Nat) (bs : List Byte) (counterFirst : Nat) : (State.reserveModel s t slot bs counterFirst).key = s.key := by
  unfold State.reserveModel
  repeat' (first | with_reducible rfl | split | (with_reducible refine (foldl_key _ _ _ fun s a => ?_).trans ?_) | simp | (with_reducible refine (State.snd_key (by assumption)).trans ?_) | (with_reducible refine (State.fst_key (by assumption)).trans ?_) | fail)
@[simp] theorem State.admitModel_key (s : State) (t slot : Nat) : (State.admitModel s t slot).key = s.key := by
  unfold State.admitModel
  repeat' (first | with_reducible rfl | split | (with_reducible refine (foldl_key _ _ _ fun s a => ?_).trans ?_) | simp | fail)

/-! ### Invoke.lean -/

@[simp] theorem State.groupEdge_key (s : State) (g line : Nat) : (State.groupEdge s g line).key = s.key := by
  unfold State.groupEdge
  repeat' (first | with_reducible rfl | split | (with_reducible refine (foldl_key _ _ _ fun s a => ?_).trans ?_) | simp | fail)
@[simp] theorem State.modSession_key (s : State) (t : Nat) (f : Session → Session) : (State.modSession s t f).key = s.key := rfl
@[simp] theorem State.abandonSession_key (s : State) (t : Nat) : (State.abandonSession s t).key = s.key := by
  unfold State.abandonSession
  repeat' (first | with_reducible rfl | split | (with_reducible refine (foldl_key _ _ _ fun s a => ?_).trans ?_) | simp | fail)
theorem State.sessionBlock_key (s : State) (t : Nat) (k : Session) (e : Nat) {a0 : (Superblock × Nat)} {u : State} (h : (State.sessionBlock s t k e) = some (a0, u)) : u.key = s.key := by
  unfold State.sessionBlock at h
  split at h
  · obtain ⟨x, -, hx⟩ := Option.map_eq_some_iff.mp h
    cases hx; rfl
  · split at h
    · cases h
    · rename_i hf
      obtain ⟨j, -, hj⟩ := List.exists_of_findSome?_eq_some hf
      cases h
      simpa using State.openSuperblock_key (h := hj)
@[simp] theorem State.issuePages_key (s : State) (t : Nat) (r : CmdRef) (limit : Nat) (x0 : Nat) : (State.issuePages s t r limit x0).key = s.key := by
  induction x0 generalizing s with
  | zero => rfl
  | succ n ih =>
    unfold State.issuePages
    split
    · rfl
    split
    · rfl
    split
    · rfl
    · rename_i h
      dsimp only
      rw [ih, State.modSession_key]
      refine State.ite_key ?_ ?_
      · rw [State.advance_key, State.startRow_key, State.sessionBlock_key (h := h)]
      · rw [State.startRow_key, State.sessionBlock_key (h := h)]
@[simp] theorem State.finishInv_key (s : State) (i : Invocation) : (State.finishInv s i).key = s.key := by
  unfold State.finishInv
  split <;> simp

/-! ### Spindle.lean -/

theorem State.push_key (s : State) (i : Invocation) (m : Model) (f : WinFrame) {u : State} (h : (State.push s i m f) = some u) : u.key = s.key := by
  unfold State.push at h
  try dsimp only at h
  repeat' (first | cases h | split at h | with_reducible rfl | split | simp | (with_reducible refine (State.snd_key (by assumption)).trans ?_) | fail)
@[simp] theorem State.pop_key (s : State) (i : Invocation) : (State.pop s i).key = s.key := rfl
theorem State.deadCounter_key (s : State) (i : Invocation) (c queue : Nat) {u : State} (h : (State.deadCounter s i c queue) = some u) : u.key = s.key := by
  unfold State.deadCounter at h
  try dsimp only at h
  repeat' (first | cases h | split at h | with_reducible rfl | split | simp | (with_reducible refine (State.snd_key (by assumption)).trans ?_) | fail)
@[simp] theorem State.jump_key (s : State) (i : Invocation) (w : Nat) : (State.jump s i w).key = s.key := rfl
@[simp] theorem State.act_key (s : State) (i : Invocation) (m : Model) (d : BitVec 512) : (State.act s i m d).1.key = s.key := by
  unfold State.act
  repeat' (first | with_reducible rfl | split | simp | (with_reducible refine (State.target_key (h := by assumption)).trans ?_) | (with_reducible refine (State.push_key (h := by assumption)).trans ?_) | (with_reducible refine (State.deadCounter_key (h := by assumption)).trans ?_) | (with_reducible refine (State.snd_key (by assumption)).trans ?_) | (with_reducible refine (State.fst_key (by assumption)).trans ?_) | fail)
theorem State.judge_key {s : State} {i : Invocation} {m : Model} {d : BitVec 512} {queue : Nat} {t : State}
    (h : s.judge i m d queue = .bad t) : t.key = s.key := by
  unfold State.judge at h
  dsimp only at h
  split at h
  · cases h; rw [State.faultInv_key]
  · split at h
    · rename_i hx
      cases h
      split at hx
      · exact State.deadCounter_key (h := hx)
      · cases hx
    · cases h
@[simp] theorem State.control_key (s : State) (i : Invocation) (m : Model) (d : BitVec 512) : (State.control s i m d).key = s.key := by
  unfold State.control
  split
  · exact State.judge_key (by assumption)
  · dsimp only
    refine State.ite_key (State.modInv_key _ _ _) (State.ite_key ?_ ?_)
    · rw [State.bumpAfter_key, State.act_key, State.modInv_key]
    · rw [State.act_key, State.modInv_key]
@[simp] theorem State.controlOp_key (s : State) (spindle op : Nat) : (State.controlOp s spindle op).key = s.key := by
  unfold State.controlOp
  repeat' (first | with_reducible rfl | split | simp)

/-! ### MemProt.lean -/

@[simp] theorem State.memLog_key (s : State) (e : MemEntry) : (State.memLog s e).key = s.key := by simp [State.memLog]
@[simp] theorem State.modStack_key (s : State) (k : Nat) (f : MemStack → MemStack) : (State.modStack s k f).key = s.key := rfl
@[simp] theorem State.pattern_key (s : State) (stack kind key block : Nat) (die : Option Nat) (pages : List Nat) : (State.pattern s stack kind key block die pages).key = s.key := by
  unfold State.pattern
  split <;> simp
@[simp] theorem State.patterns_key (s : State) (stack block : Nat) (die : Option Nat) : (State.patterns s stack block die).key = s.key := by
  unfold State.patterns
  repeat' (first | with_reducible rfl | split | simp)
@[simp] theorem State.judgeDie_key (s : State) (stack block : Nat) (die : Option Nat) : (State.judgeDie s stack block die).key = s.key := by
  unfold State.judgeDie
  repeat' (first | with_reducible rfl | split | simp)
@[simp] theorem State.remapBlock_key (s : State) (stack block : Nat) (die : Option Nat) (symbols : Nat) : (State.remapBlock s stack block die symbols).key = s.key := by
  unfold State.remapBlock
  repeat' (first | with_reducible rfl | split | simp)
@[simp] theorem State.hardBlock_key (s : State) (stack block : Nat) (e : List Nat) (tenant tag : Nat) : (State.hardBlock s stack block e tenant tag).key = s.key := by simp [State.hardBlock]
@[simp] theorem State.renewUnit_key (s : State) (t : Nat) (m : Option Nat) (u : Nat) : (State.renewUnit s t m u).key = s.key := by
  unfold State.renewUnit
  repeat' (first | with_reducible rfl | split | (with_reducible refine (foldl_key _ _ _ fun s a => ?_).trans ?_) | (with_reducible refine (foldl_fst_key _ _ _ fun s a => ?_).trans ?_) | (with_reducible refine (foldl_snd_key _ _ _ fun s a => ?_).trans ?_) | simp | (with_reducible refine (State.snd_key (by assumption)).trans ?_) | (with_reducible refine (State.fst_key (by assumption)).trans ?_) | fail)
@[simp] theorem State.publishLost_key (s : State) (c : Cmd) (faultNo : Nat) : (State.publishLost s c faultNo).key = s.key := by
  unfold State.publishLost
  repeat' (first | with_reducible rfl | split | (with_reducible refine (foldl_key _ _ _ fun s a => ?_).trans ?_) | (with_reducible refine (foldl_fst_key _ _ _ fun s a => ?_).trans ?_) | (with_reducible refine (foldl_snd_key _ _ _ fun s a => ?_).trans ?_) | simp | (with_reducible refine (State.snd_key (by assumption)).trans ?_) | (with_reducible refine (State.fst_key (by assumption)).trans ?_) | fail)
@[simp] theorem State.logsLost_key (s : State) (j block : Nat) : (State.logsLost s j block).key = s.key := by
  unfold State.logsLost
  repeat' (first | with_reducible rfl | split | (with_reducible refine (foldl_key _ _ _ fun s a => ?_).trans ?_) | (with_reducible refine (foldl_fst_key _ _ _ fun s a => ?_).trans ?_) | (with_reducible refine (foldl_snd_key _ _ _ fun s a => ?_).trans ?_) | simp | (with_reducible refine (State.snd_key (by assumption)).trans ?_) | (with_reducible refine (State.fst_key (by assumption)).trans ?_) | fail)
@[simp] theorem State.writeBufferLost_key (s : State) (faultNo : Nat) : (State.writeBufferLost s faultNo).key = s.key := by
  unfold State.writeBufferLost
  repeat' (first | with_reducible rfl | split | (with_reducible refine (foldl_key _ _ _ fun s a => ?_).trans ?_) | (with_reducible refine (foldl_fst_key _ _ _ fun s a => ?_).trans ?_) | (with_reducible refine (foldl_snd_key _ _ _ fun s a => ?_).trans ?_) | simp | (with_reducible refine (State.snd_key (by assumption)).trans ?_) | (with_reducible refine (State.fst_key (by assumption)).trans ?_) | fail)
@[simp] theorem State.damage_key (s : State) (t slot faultNo : Nat) : (State.damage s t slot faultNo).key = s.key := by
  unfold State.damage
  repeat' (first | with_reducible rfl | split | (with_reducible refine (foldl_key _ _ _ fun s a => ?_).trans ?_) | (with_reducible refine (foldl_fst_key _ _ _ fun s a => ?_).trans ?_) | (with_reducible refine (foldl_snd_key _ _ _ fun s a => ?_).trans ?_) | simp | (with_reducible refine (State.snd_key (by assumption)).trans ?_) | (with_reducible refine (State.fst_key (by assumption)).trans ?_) | fail)
@[simp] theorem State.systemLoss_key (s : State) (stack block faultNo : Nat) : (State.systemLoss s stack block faultNo).key = s.key := by
  unfold State.systemLoss
  repeat' (first | with_reducible rfl | split | (with_reducible refine (foldl_key _ _ _ fun s a => ?_).trans ?_) | (with_reducible refine (foldl_fst_key _ _ _ fun s a => ?_).trans ?_) | (with_reducible refine (foldl_snd_key _ _ _ fun s a => ?_).trans ?_) | simp | (with_reducible refine (State.snd_key (by assumption)).trans ?_) | (with_reducible refine (State.fst_key (by assumption)).trans ?_) | fail)
@[simp] theorem State.lostBlock_key (s : State) (stack block : Nat) (e : List Nat) (faultNo tenant tag : Nat) (scrub : Bool) : (State.lostBlock s stack block e faultNo tenant tag scrub).1.key = s.key := by
  unfold State.lostBlock
  repeat' (first | with_reducible rfl | split | simp)
@[simp] theorem State.scramble_key (s : State) (stack block : Nat) : (State.scramble s stack block).key = s.key := by
  unfold State.scramble
  extract_lets g s1
  split
  · split <;> rfl
  · rfl
@[simp] theorem State.readDram_key (s : State) (stack block : Nat) (e : BlockErrors) (tag : Nat) (fault : Option Nat) (scrub : Bool) : (State.readDram s stack block e tag fault scrub).1.key = s.key := by
  unfold State.readDram
  repeat' (first | with_reducible rfl | split | simp | (with_reducible refine (State.snd_key (by assumption)).trans ?_) | fail)
@[simp] theorem State.scrubEntry_key (s : State) (stack : Nat) : (State.scrubEntry s stack).key = s.key := by
  unfold State.scrubEntry
  split <;> simp
@[simp] theorem State.modSram_key (s : State) (k : Nat) (f : SramUnit → SramUnit) : (State.modSram s k f).key = s.key := rfl
@[simp] theorem State.scrambleWord_key (s : State) (k w : Nat) : (State.scrambleWord s k w).key = s.key := by
  unfold State.scrambleWord
  split <;> simp
@[simp] theorem State.taintSlice_key (s : State) (slice frame changed essential : Nat) : (State.taintSlice s slice frame changed essential).key = s.key := by simp [State.taintSlice]
@[simp] theorem State.dropHeld_key (s : State) (n : Nat) : (State.dropHeld s n).key = s.key := by
  unfold State.dropHeld
  split <;> simp
@[simp] theorem State.lostWord_key (s : State) (k w faultNo : Nat) : (State.lostWord s k w faultNo).key = s.key := by
  unfold State.lostWord
  repeat' (first | with_reducible rfl | split | (with_reducible refine (foldl_key _ _ _ fun s a => ?_).trans ?_) | simp | fail)
@[simp] theorem State.sramRead_key (s : State) (k w : Nat) (badBits : List Nat) (tag : Nat) : (State.sramRead s k w badBits tag).1.key = s.key := by
  unfold State.sramRead
  repeat' (first | with_reducible rfl | split | (with_reducible refine (foldl_key _ _ _ fun s a => ?_).trans ?_) | (with_reducible refine (foldl_fst_key _ _ _ fun s a => ?_).trans ?_) | (with_reducible refine (foldl_snd_key _ _ _ fun s a => ?_).trans ?_) | simp | (with_reducible refine (State.snd_key (by assumption)).trans ?_) | (with_reducible refine (State.fst_key (by assumption)).trans ?_) | fail)

/-! ### Engine.lean -/

@[simp] theorem State.modPair_key (s : State) (q : Nat) (f : Pair → Pair) : (State.modPair s q f).key = s.key := rfl
@[simp] theorem State.modUnit_key (s : State) (q : Nat) (f : RaspUnit → RaspUnit) : (State.modUnit s q f).key = s.key := by simp [State.modUnit]
@[simp] theorem State.modEntry_key (s : State) (q k : Nat) (f : QEntry → QEntry) : (State.modEntry s q k f).key = s.key := rfl
@[simp] theorem State.demand_key (s : State) (t tag : Nat) (ps : List Span) (found : List BlockRead) : (State.demand s t tag ps found).1.key = s.key := by
  unfold State.demand
  repeat' (first | with_reducible rfl | split | (with_reducible refine (foldl_fst_key _ _ _ fun s a => ?_).trans ?_) | simp | fail)
@[simp] theorem State.fetch_key (s : State) (i : Invocation) (ps : List Span) (words : List (Nat × Nat × Nat)) (found : List BlockRead) (bad : List WordRead) : (State.fetch s i ps words found bad).1.key = s.key := by
  unfold State.fetch
  repeat' (first | with_reducible rfl | split | (with_reducible refine (foldl_key _ _ _ fun s a => ?_).trans ?_) | (with_reducible refine (foldl_fst_key _ _ _ fun s a => ?_).trans ?_) | (with_reducible refine (foldl_snd_key _ _ _ fun s a => ?_).trans ?_) | simp | (with_reducible refine (State.snd_key (by assumption)).trans ?_) | (with_reducible refine (State.fst_key (by assumption)).trans ?_) | fail)
@[simp] theorem State.spanWrite_key (s : State) (i : Invocation) (p : Span) (bs : List Byte) (found : List BlockRead) : (State.spanWrite s i p bs found).1.key = s.key := by
  unfold State.spanWrite
  repeat' (first | with_reducible rfl | split | (with_reducible refine (foldl_fst_key _ _ _ fun s a => ?_).trans ?_) | simp | fail)
@[simp] theorem State.spanWrites_key (s : State) (i : Invocation) (l : List (Span × List Byte)) : (State.spanWrites s i l).1.key = s.key := by
  unfold State.spanWrites
  repeat' (first | with_reducible rfl | split | (with_reducible refine (foldl_fst_key _ _ _ fun s a => ?_).trans ?_) | simp | fail)
@[simp] theorem State.drawBytes_key (s : State) (n : Nat) : (State.drawBytes s n).2.key = s.key := rfl
@[simp] theorem State.blur_key (s : State) (i : Invocation) (l : List Span) : (State.blur s i l).key = s.key := by
  unfold State.blur
  repeat' (first | with_reducible rfl | split | (with_reducible refine (foldl_key _ _ _ fun s a => ?_).trans ?_) | simp | (with_reducible refine (State.snd_key (by assumption)).trans ?_) | (with_reducible refine (State.fst_key (by assumption)).trans ?_) | fail)
@[simp] theorem State.claim_key (s : State) (q : Nat) (e : QEntry) (w : Work) : (State.claim s q e w).key = s.key := by
  unfold State.claim
  repeat' (first | with_reducible rfl | split | simp | (with_reducible refine (State.snd_key (by assumption)).trans ?_) | fail)
@[simp] theorem State.clearWords_key (s : State) (k first n : Nat) : (State.clearWords s k first n).key = s.key := by
  unfold State.clearWords
  split <;> simp
@[simp] theorem State.charge_key (s : State) (q t cost : Nat) : (State.charge s q t cost).key = s.key := rfl
theorem State.runOp_key {s : State} {q cls op : Nat} {work : State → Invocation → QEntry → Except StopReason Work} {run : State → Invocation → QEntry → Work → State × CmdOutcome} (hr : ∀ s i e w, (run s i e w).1.key = s.key) : (State.runOp s q cls op work run).key = s.key := by
  unfold State.runOp
  repeat' (first | with_reducible rfl | split | (with_reducible refine (State.modEntry_key _ _ _ _).trans ?_) | (with_reducible refine (hr _ _ _ _).trans ?_) | (with_reducible exact State.claim_key _ _ _ _) | fail)

/-! ### Burl.lean -/

@[simp] theorem State.modBurl_key (s : State) (q : Nat) (f : Burl → Burl) : (State.modBurl s q f).key = s.key := by simp [State.modBurl]
@[simp] theorem State.burlEnd_key (s : State) (q : Nat) (i : Invocation) (w : Work) (status width height n work : Nat) (records : List (List Byte)) (capped : Bool) : (State.burlEnd s q i w status width height n work records capped).1.key = s.key := by
  unfold State.burlEnd
  repeat' (first | with_reducible rfl | split | simp)
@[simp] theorem State.burlRun_key (q : Nat) (bad : List WordRead) (s : State) (i : Invocation) (e : QEntry) (w : Work) : (State.burlRun q bad s i e w).1.key = s.key := by
  unfold State.burlRun
  repeat' (first | with_reducible rfl | split | (with_reducible refine (foldl_key _ _ _ fun s a => ?_).trans ?_) | (with_reducible refine (foldl_fst_key _ _ _ fun s a => ?_).trans ?_) | (with_reducible refine (foldl_snd_key _ _ _ fun s a => ?_).trans ?_) | simp | (with_reducible refine (State.snd_key (by assumption)).trans ?_) | (with_reducible refine (State.fst_key (by assumption)).trans ?_) | fail)

/-! ### Dma.lean -/

@[simp] theorem State.useUnits_key (s : State) (t : Nat) (us : List (Option Nat × Nat)) : (State.useUnits s t us).key = s.key := by
  unfold State.useUnits
  repeat' (first | with_reducible rfl | split | (with_reducible refine (foldl_key _ _ _ fun s a => ?_).trans ?_) | simp | fail)
@[simp] theorem State.move_key (s : State) (i : Invocation) (w : Work) (found : List BlockRead) (bad : List WordRead) (make : State → List Byte) : (State.move s i w found bad make).1.key = s.key := by
  unfold State.move
  repeat' (first | with_reducible rfl | split | (with_reducible refine (foldl_key _ _ _ fun s a => ?_).trans ?_) | (with_reducible refine (foldl_fst_key _ _ _ fun s a => ?_).trans ?_) | (with_reducible refine (foldl_snd_key _ _ _ fun s a => ?_).trans ?_) | simp | (with_reducible refine (State.snd_key (by assumption)).trans ?_) | (with_reducible refine (State.fst_key (by assumption)).trans ?_) | fail)

/-! ### Peer.lean -/

@[simp] theorem State.modFlow_key (s : State) (f : Nat) (g : Flow → Flow) : (State.modFlow s f g).key = s.key := rfl
@[simp] theorem State.modPort_key (s : State) (p : Nat) (f : Port → Port) : (State.modPort s p f).key = s.key := rfl
@[simp] theorem State.peerLog_key (s : State) (e : PeerEntry) (fault : Bool) : (State.peerLog s e fault).key = s.key := by simp [State.peerLog]
@[simp] theorem State.peerLogLimited_key (s : State) (place : Nat) (e : PeerEntry) : (State.peerLogLimited s place e).key = s.key := by
  unfold State.peerLogLimited
  repeat' (first | with_reducible rfl | split | simp)
@[simp] theorem State.turnFlow_key (s : State) (f p : Nat) : (State.turnFlow s f p).key = s.key := rfl
@[simp] theorem State.transmit_key (s : State) (port : Nat) (f : PeerFrame) : (State.transmit s port f).key = s.key := rfl
@[simp] theorem State.sendControl_key (s : State) (f : Nat) (r : FlowRec) (type epoch : Nat) (extra : List (Nat × Nat × Nat × Nat)) : (State.sendControl s f r type epoch extra).key = s.key := by
  unfold State.sendControl
  split <;> simp
@[simp] theorem State.sendAck_key (s : State) (f : Nat) : (State.sendAck s f).key = s.key := by
  unfold State.sendAck
  split <;> simp
@[simp] theorem State.refuse_key (s : State) (f : Nat) (r : FlowRec) (x : PeerFrame) (cause : Nat) : (State.refuse s f r x cause).key = s.key := by simp [State.refuse]
@[simp] theorem State.takeFlow_key (s : State) (q : Nat) (e : QEntry) : (State.takeFlow s q e).key = s.key := by
  unfold State.takeFlow
  repeat' (first | with_reducible rfl | split | (with_reducible refine (foldl_key _ _ _ fun s a => ?_).trans ?_) | (with_reducible refine (foldl_fst_key _ _ _ fun s a => ?_).trans ?_) | (with_reducible refine (foldl_snd_key _ _ _ fun s a => ?_).trans ?_) | simp | (with_reducible refine (State.snd_key (by assumption)).trans ?_) | (with_reducible refine (State.fst_key (by assumption)).trans ?_) | fail)
@[simp] theorem State.peerOutcome_key (s : State) (f : Nat) (h : PeerSend) (o : CmdOutcome) : (State.peerOutcome s f h o).key = s.key := rfl
@[simp] theorem State.endFlow_key (s : State) (f : Nat) : (State.endFlow s f).key = s.key := rfl
theorem State.failFlow_key (s : State) (f : Nat) (h : PeerSend) (stop : State → Invocation → State) (hs : ∀ s i, (stop s i).key = s.key) : (State.failFlow s f h stop).key = s.key := by
  unfold State.failFlow
  dsimp only
  split
  · rw [State.modQueue_key, State.endFlow_key]
  · rw [hs, State.modQueue_key, State.endFlow_key]
@[simp] theorem State.unreachable_key (s : State) (i : Invocation) (faultNo queue word : Nat) : (State.unreachable s i faultNo queue word).key = s.key := by
  unfold State.unreachable
  split <;> simp
@[simp] theorem State.payload_key (s : State) (h : PeerSend) (off len : Nat) (found : List BlockRead) (bad : List WordRead) : (State.payload s h off len found bad).1.key = s.key := by
  unfold State.payload
  repeat' (first | with_reducible rfl | split | (with_reducible refine (foldl_key _ _ _ fun s a => ?_).trans ?_) | (with_reducible refine (foldl_fst_key _ _ _ fun s a => ?_).trans ?_) | (with_reducible refine (foldl_snd_key _ _ _ fun s a => ?_).trans ?_) | simp | (with_reducible refine (State.snd_key (by assumption)).trans ?_) | (with_reducible refine (State.fst_key (by assumption)).trans ?_) | fail)
@[simp] theorem State.tellPeer_key (s : State) (h : PeerSend) : (State.tellPeer s h).key = s.key := by
  unfold State.tellPeer
  repeat' (first | with_reducible rfl | split | (with_reducible refine (foldl_key _ _ _ fun s a => ?_).trans ?_) | (with_reducible refine (foldl_fst_key _ _ _ fun s a => ?_).trans ?_) | (with_reducible refine (foldl_snd_key _ _ _ fun s a => ?_).trans ?_) | simp | (with_reducible refine (State.snd_key (by assumption)).trans ?_) | (with_reducible refine (State.fst_key (by assumption)).trans ?_) | fail)
@[simp] theorem State.relayNow_key (s : State) (port : Nat) (f : PeerFrame) : (State.relayNow s port f).key = s.key := by
  unfold State.relayNow
  split <;> simp
@[simp] theorem State.relay_key (s : State) (port : Nat) (f : PeerFrame) : (State.relay s port f).key = s.key := by
  unfold State.relay
  repeat' (first | with_reducible rfl | split | simp)
@[simp] theorem State.drainIngress_key (s : State) : (State.drainIngress s).key = s.key := by
  unfold State.drainIngress
  repeat' (first | with_reducible rfl | split | (with_reducible refine (foldl_key _ _ _ fun s a => ?_).trans ?_) | simp | fail)
@[simp] theorem State.admitFrame_key (s : State) (port : Nat) (f : PeerFrame) : (State.admitFrame s port f).1.key = s.key := by
  unfold State.admitFrame
  repeat' (first | with_reducible rfl | split | simp)
@[simp] theorem State.consume_key (s : State) (f : Nat) : (State.consume s f).key = s.key := rfl
@[simp] theorem State.applyFrame_key (s : State) (f : Nat) (r : FlowRec) (x : PeerFrame) : (State.applyFrame s f r x).1.key = s.key := by
  unfold State.applyFrame
  repeat' (first | with_reducible rfl | split | simp)
@[simp] theorem State.drainHeld_key (s : State) (f : Nat) (r : FlowRec) (x0 : Nat) : (State.drainHeld s f r x0).1.key = s.key := by
  induction x0 generalizing s with
  | zero => rfl
  | succ n ih =>
    unfold State.drainHeld
    split
    · rfl
    split
    · rename_i h
      exact (State.fst_key h).trans (State.applyFrame_key _ _ _ _)
    · rename_i h
      dsimp only
      rw [ih, State.modFlow_key]
      exact (State.fst_key h).trans (State.applyFrame_key _ _ _ _)
theorem State.adopt_key (s : State) (f : Nat) (x : PeerFrame) {u : State} (h : (State.adopt s f x) = some u) : u.key = s.key := by
  unfold State.adopt at h
  try dsimp only at h
  repeat' (first | cases h | split at h | with_reducible rfl | split | simp | (with_reducible refine (State.snd_key (by assumption)).trans ?_) | fail)
@[simp] theorem State.portDown_key (s : State) (port : Nat) : (State.portDown s port).key = s.key := rfl
@[simp] theorem State.linkLost_key (s : State) (port : Nat) : (State.linkLost s port).key = s.key := by
  unfold State.linkLost
  repeat' (first | with_reducible rfl | split | simp)

/-! ### Lathe.lean -/

@[simp] theorem State.mmaRun_key (q : Nat) (bad : List WordRead) (s : State) (i : Invocation) (e : QEntry) (w : Work) : (State.mmaRun q bad s i e w).1.key = s.key := by
  unfold State.mmaRun
  repeat' (first | with_reducible rfl | split | (with_reducible refine (foldl_key _ _ _ fun s a => ?_).trans ?_) | (with_reducible refine (foldl_fst_key _ _ _ fun s a => ?_).trans ?_) | (with_reducible refine (foldl_snd_key _ _ _ fun s a => ?_).trans ?_) | simp | (with_reducible refine (State.snd_key (by assumption)).trans ?_) | (with_reducible refine (State.fst_key (by assumption)).trans ?_) | fail)
@[simp] theorem State.putTile_key (s : State) (q t : Nat) (r : Region) : (State.putTile s q t r).key = s.key := by simp [State.putTile]

/-! ### Gouge.lean -/

@[simp] theorem State.gougeFetch_key (s : State) (q : Nat) (i : Invocation) (e : QEntry) (w : Work) (c : List Nat) (rows : Nat) (cols : Nat → Nat) (pieces : List Span) (bad : List WordRead) : (State.gougeFetch s q i e w c rows cols pieces bad).1.key = s.key := by
  unfold State.gougeFetch
  repeat' (first | with_reducible rfl | split | (with_reducible refine (foldl_key _ _ _ fun s a => ?_).trans ?_) | (with_reducible refine (foldl_fst_key _ _ _ fun s a => ?_).trans ?_) | (with_reducible refine (foldl_snd_key _ _ _ fun s a => ?_).trans ?_) | simp | (with_reducible refine (State.snd_key (by assumption)).trans ?_) | (with_reducible refine (State.fst_key (by assumption)).trans ?_) | fail)
@[simp] theorem State.putGouge_key (s : State) (q t : Nat) (rows : List (Nat × List Nat)) : (State.putGouge s q t rows).key = s.key := by
  unfold State.putGouge
  repeat' (first | with_reducible rfl | split | (with_reducible refine (foldl_key _ _ _ fun s a => ?_).trans ?_) | simp | fail)
@[simp] theorem State.putElems_key (s : State) (i : Invocation) (p : Span) (fmt k : Nat) (codes : List Nat) : (State.putElems s i p fmt k codes).key = s.key := by
  unfold State.putElems
  repeat' (first | with_reducible rfl | split | (with_reducible refine (foldl_key _ _ _ fun s a => ?_).trans ?_) | (with_reducible refine (foldl_fst_key _ _ _ fun s a => ?_).trans ?_) | (with_reducible refine (foldl_snd_key _ _ _ fun s a => ?_).trans ?_) | simp | (with_reducible refine (State.snd_key (by assumption)).trans ?_) | (with_reducible refine (State.fst_key (by assumption)).trans ?_) | fail)
@[simp] theorem State.storeRow_key (s : State) (q : Nat) (i : Invocation) (e : QEntry) (w : Work) (stream : Bool) (r : Nat) (codes : List Nat) : (State.storeRow s q i e w stream r codes).key = s.key := by
  unfold State.storeRow
  repeat' (first | with_reducible rfl | split | (with_reducible refine (foldl_key _ _ _ fun s a => ?_).trans ?_) | (with_reducible refine (foldl_fst_key _ _ _ fun s a => ?_).trans ?_) | (with_reducible refine (foldl_snd_key _ _ _ fun s a => ?_).trans ?_) | simp | (with_reducible refine (State.snd_key (by assumption)).trans ?_) | (with_reducible refine (State.fst_key (by assumption)).trans ?_) | fail)
@[simp] theorem State.clearLines_key (s : State) (t : Nat) (l : List Span) : (State.clearLines s t l).key = s.key := by
  unfold State.clearLines
  repeat' (first | with_reducible rfl | split | (with_reducible refine (foldl_key _ _ _ fun s a => ?_).trans ?_) | (with_reducible refine (foldl_fst_key _ _ _ fun s a => ?_).trans ?_) | (with_reducible refine (foldl_snd_key _ _ _ fun s a => ?_).trans ?_) | simp | (with_reducible refine (State.snd_key (by assumption)).trans ?_) | (with_reducible refine (State.fst_key (by assumption)).trans ?_) | fail)
@[simp] theorem State.runRows_key (s : State) (q : Nat) (i : Invocation) (e : QEntry) (w : Work) (stream : Bool) (rows : Nat) (cols : Nat → Nat) (f : State → Nat → List Nat) : (State.runRows s q i e w stream rows cols f).key = s.key := by
  unfold State.runRows
  repeat' (first | with_reducible rfl | split | (with_reducible refine (foldl_key _ _ _ fun s a => ?_).trans ?_) | (with_reducible refine (foldl_fst_key _ _ _ fun s a => ?_).trans ?_) | (with_reducible refine (foldl_snd_key _ _ _ fun s a => ?_).trans ?_) | simp | (with_reducible refine (State.snd_key (by assumption)).trans ?_) | (with_reducible refine (State.fst_key (by assumption)).trans ?_) | fail)
@[simp] theorem State.freeRows_key (s : State) (q : Nat) (i : Invocation) (e : QEntry) (w : Work) (stream : Bool) (rows : Nat) (cols : Nat → Nat) : (State.freeRows s q i e w stream rows cols).key = s.key := by
  unfold State.freeRows
  repeat' (first | with_reducible rfl | split | (with_reducible refine (foldl_key _ _ _ fun s a => ?_).trans ?_) | (with_reducible refine (foldl_fst_key _ _ _ fun s a => ?_).trans ?_) | (with_reducible refine (foldl_snd_key _ _ _ fun s a => ?_).trans ?_) | simp | (with_reducible refine (State.snd_key (by assumption)).trans ?_) | (with_reducible refine (State.fst_key (by assumption)).trans ?_) | fail)
@[simp] theorem State.tileRun_key (q : Nat) (bad : List WordRead) (s : State) (i : Invocation) (e : QEntry) (w : Work) : (State.tileRun q bad s i e w).1.key = s.key := by
  unfold State.tileRun
  repeat' (first | with_reducible rfl | split | (with_reducible refine (foldl_key _ _ _ fun s a => ?_).trans ?_) | (with_reducible refine (foldl_fst_key _ _ _ fun s a => ?_).trans ?_) | (with_reducible refine (foldl_snd_key _ _ _ fun s a => ?_).trans ?_) | simp | (with_reducible refine (State.snd_key (by assumption)).trans ?_) | (with_reducible refine (State.fst_key (by assumption)).trans ?_) | fail)
@[simp] theorem State.streamRun_key (q : Nat) (bad : List WordRead) (s : State) (i : Invocation) (e : QEntry) (w : Work) : (State.streamRun q bad s i e w).1.key = s.key := by
  unfold State.streamRun
  repeat' (first | with_reducible rfl | split | (with_reducible refine (foldl_key _ _ _ fun s a => ?_).trans ?_) | (with_reducible refine (foldl_fst_key _ _ _ fun s a => ?_).trans ?_) | (with_reducible refine (foldl_snd_key _ _ _ fun s a => ?_).trans ?_) | simp | (with_reducible refine (State.snd_key (by assumption)).trans ?_) | (with_reducible refine (State.fst_key (by assumption)).trans ?_) | fail)
@[simp] theorem State.storeOut_key (s : State) (q : Nat) (i : Invocation) (e : QEntry) (w : Work) (column : Bool) (k : Nat) (out : List Nat) : (State.storeOut s q i e w column k out).key = s.key := by
  unfold State.storeOut
  repeat' (first | with_reducible rfl | split | (with_reducible refine (foldl_key _ _ _ fun s a => ?_).trans ?_) | (with_reducible refine (foldl_fst_key _ _ _ fun s a => ?_).trans ?_) | (with_reducible refine (foldl_snd_key _ _ _ fun s a => ?_).trans ?_) | simp | (with_reducible refine (State.snd_key (by assumption)).trans ?_) | (with_reducible refine (State.fst_key (by assumption)).trans ?_) | fail)
@[simp] theorem State.freeOut_key (s : State) (q : Nat) (i : Invocation) (e : QEntry) (w : Work) (column : Bool) (k n : Nat) : (State.freeOut s q i e w column k n).key = s.key := by
  unfold State.freeOut
  repeat' (first | with_reducible rfl | split | (with_reducible refine (foldl_key _ _ _ fun s a => ?_).trans ?_) | (with_reducible refine (foldl_fst_key _ _ _ fun s a => ?_).trans ?_) | (with_reducible refine (foldl_snd_key _ _ _ fun s a => ?_).trans ?_) | simp | (with_reducible refine (State.snd_key (by assumption)).trans ?_) | (with_reducible refine (State.fst_key (by assumption)).trans ?_) | fail)
@[simp] theorem State.tileReduceRun_key (q : Nat) (bad : List WordRead) (s : State) (i : Invocation) (e : QEntry) (w : Work) : (State.tileReduceRun q bad s i e w).1.key = s.key := by
  unfold State.tileReduceRun
  repeat' (first | with_reducible rfl | split | (with_reducible refine (foldl_key _ _ _ fun s a => ?_).trans ?_) | (with_reducible refine (foldl_fst_key _ _ _ fun s a => ?_).trans ?_) | (with_reducible refine (foldl_snd_key _ _ _ fun s a => ?_).trans ?_) | simp | (with_reducible refine (State.snd_key (by assumption)).trans ?_) | (with_reducible refine (State.fst_key (by assumption)).trans ?_) | fail)
@[simp] theorem State.streamReduceRun_key (q : Nat) (bad : List WordRead) (s : State) (i : Invocation) (e : QEntry) (w : Work) : (State.streamReduceRun q bad s i e w).1.key = s.key := by
  unfold State.streamReduceRun
  repeat' (first | with_reducible rfl | split | (with_reducible refine (foldl_key _ _ _ fun s a => ?_).trans ?_) | (with_reducible refine (foldl_fst_key _ _ _ fun s a => ?_).trans ?_) | (with_reducible refine (foldl_snd_key _ _ _ fun s a => ?_).trans ?_) | simp | (with_reducible refine (State.snd_key (by assumption)).trans ?_) | (with_reducible refine (State.fst_key (by assumption)).trans ?_) | fail)
@[simp] theorem State.softmaxRun_key (q : Nat) (bad : List WordRead) (s : State) (i : Invocation) (e : QEntry) (w : Work) : (State.softmaxRun q bad s i e w).1.key = s.key := by
  unfold State.softmaxRun
  repeat' (first | with_reducible rfl | split | (with_reducible refine (foldl_key _ _ _ fun s a => ?_).trans ?_) | (with_reducible refine (foldl_fst_key _ _ _ fun s a => ?_).trans ?_) | (with_reducible refine (foldl_snd_key _ _ _ fun s a => ?_).trans ?_) | simp | (with_reducible refine (State.snd_key (by assumption)).trans ?_) | (with_reducible refine (State.fst_key (by assumption)).trans ?_) | fail)

/-! ### Lists.lean -/

@[simp] theorem State.shuffle_key (s : State) (l : List ListEntry) : (State.shuffle s l).2.key = s.key := rfl
@[simp] theorem State.listRun_key (emit : Bool) (bad : List WordRead) (s : State) (i : Invocation) (e : QEntry) (w : Work) : (State.listRun emit bad s i e w).1.key = s.key := by
  unfold State.listRun
  repeat' (first | with_reducible rfl | split | (with_reducible refine (foldl_key _ _ _ fun s a => ?_).trans ?_) | (with_reducible refine (foldl_fst_key _ _ _ fun s a => ?_).trans ?_) | (with_reducible refine (foldl_snd_key _ _ _ fun s a => ?_).trans ?_) | simp | (with_reducible refine (State.snd_key (by assumption)).trans ?_) | (with_reducible refine (State.fst_key (by assumption)).trans ?_) | fail)

/-! ### Rasp.lean -/

@[simp] theorem State.modContext_key (s : State) (q x : Nat) (f : Context → Context) : (State.modContext s q x f).key = s.key := by simp [State.modContext]
@[simp] theorem State.streamUnit_key (s : State) (q t layout : Nat) (l : Layout) (p : ScanEntry) (mask k n : Nat) (bs : List Byte) : (State.streamUnit s q t layout l p mask k n bs).key = s.key := by
  unfold State.streamUnit
  repeat' (first | with_reducible rfl | split | (with_reducible refine (foldl_key _ _ _ fun s a => ?_).trans ?_) | (with_reducible refine (foldl_fst_key _ _ _ fun s a => ?_).trans ?_) | (with_reducible refine (foldl_snd_key _ _ _ fun s a => ?_).trans ?_) | simp | (with_reducible refine (State.snd_key (by assumption)).trans ?_) | (with_reducible refine (State.fst_key (by assumption)).trans ?_) | fail)
@[simp] theorem State.takeUnit_key (s : State) (q t tag u : Nat) (retried : List Nat) : (State.takeUnit s q t tag u retried).1.key = s.key := by
  unfold State.takeUnit
  repeat' (first | with_reducible rfl | split | (with_reducible refine (foldl_key _ _ _ fun s a => ?_).trans ?_) | (with_reducible refine (foldl_fst_key _ _ _ fun s a => ?_).trans ?_) | (with_reducible refine (foldl_snd_key _ _ _ fun s a => ?_).trans ?_) | simp | (with_reducible refine (State.snd_key (by assumption)).trans ?_) | (with_reducible refine (State.fst_key (by assumption)).trans ?_) | fail)
@[simp] theorem State.walkUnits_key (s : State) (q : Nat) (i : Invocation) (layout : Nat) (l : Layout) (p : ScanEntry) (mask : Nat) (retried : List Nat) (limit : Option Nat) (x0 : List (Nat × Nat)) : (State.walkUnits s q i layout l p mask retried limit x0).1.key = s.key := by
  induction x0 generalizing s with
  | nil => rfl
  | cons x xs ih =>
    unfold State.walkUnits
    split
    · exact ih s
    split
    · rfl
    split
    · rename_i h
      exact (State.fst_key h).trans (State.takeUnit_key _ _ _ _ _ _)
    · rename_i h
      dsimp only
      rw [ih, State.streamUnit_key]
      exact (State.fst_key h).trans (State.takeUnit_key _ _ _ _ _ _)
@[simp] theorem State.walkPlan_key (s : State) (q : Nat) (i : Invocation) (layout : Nat) (l : Layout) (lists : Span) (enable : Nat) (retried : List Nat) (limit : Option Nat) (x0 : List ScanEntry) : (State.walkPlan s q i layout l lists enable retried limit x0).1.key = s.key := by
  induction x0 generalizing s with
  | nil => rfl
  | cons p ps ih =>
    unfold State.walkPlan
    split
    · rfl
    split
    · rfl
    dsimp only
    split
    · rename_i h
      exact (State.fst_key h).trans (State.walkUnits_key ..)
    · rename_i h
      rw [ih]
      exact (State.fst_key h).trans (State.walkUnits_key ..)
@[simp] theorem State.dropAhead_key (s : State) (q t tag : Nat) : (State.dropAhead s q t tag).key = s.key := by
  unfold State.dropAhead
  repeat' (first | with_reducible rfl | split | (with_reducible refine (foldl_key _ _ _ fun s a => ?_).trans ?_) | (with_reducible refine (foldl_fst_key _ _ _ fun s a => ?_).trans ?_) | (with_reducible refine (foldl_snd_key _ _ _ fun s a => ?_).trans ?_) | simp | (with_reducible refine (State.snd_key (by assumption)).trans ?_) | (with_reducible refine (State.fst_key (by assumption)).trans ?_) | fail)
@[simp] theorem State.scanRun_key (q stalled : Nat) (limit : Option Nat) (retried : List Nat) (bad : List WordRead) (s : State) (i : Invocation) (e : QEntry) (w : Work) : (State.scanRun q stalled limit retried bad s i e w).1.key = s.key := by
  unfold State.scanRun
  repeat' (first | with_reducible rfl | split | (with_reducible refine (foldl_key _ _ _ fun s a => ?_).trans ?_) | (with_reducible refine (foldl_fst_key _ _ _ fun s a => ?_).trans ?_) | (with_reducible refine (foldl_snd_key _ _ _ fun s a => ?_).trans ?_) | simp | (with_reducible refine (State.snd_key (by assumption)).trans ?_) | (with_reducible refine (State.fst_key (by assumption)).trans ?_) | fail)
@[simp] theorem State.freeCtxs_key (s : State) (q : Nat) (e : QEntry) (xs : List Nat) : (State.freeCtxs s q e xs).key = s.key := by
  unfold State.freeCtxs
  repeat' (first | with_reducible rfl | split | (with_reducible refine (foldl_key _ _ _ fun s a => ?_).trans ?_) | simp | fail)

/-! ### Engines.lean -/

@[simp] theorem State.placeUnit_key (s : State) (t : Nat) (m : Option Nat) (u : Nat) : (State.placeUnit s t m u).key = s.key := by
  unfold State.placeUnit
  repeat' (first | with_reducible rfl | split | (with_reducible refine (foldl_key _ _ _ fun s a => ?_).trans ?_) | (with_reducible refine (foldl_fst_key _ _ _ fun s a => ?_).trans ?_) | (with_reducible refine (foldl_snd_key _ _ _ fun s a => ?_).trans ?_) | simp | (with_reducible refine (State.snd_key (by assumption)).trans ?_) | (with_reducible refine (State.fst_key (by assumption)).trans ?_) | fail)
@[simp] theorem State.bringUp_key (s : State) (t : Nat) (x : Option Nat × Nat) : (State.bringUp s t x).key = s.key := by
  unfold State.bringUp
  extract_lets p
  refine State.ite_key rfl ?_
  split
  · rfl
  refine State.ite_key rfl ?_
  extract_lets full held victim s1 s2
  refine State.ite_key rfl ?_
  rw [State.request_key, State.modTenant_key, State.placeUnit_key, State.modPool_key]
@[simp] theorem State.blurWork_key (s : State) (i : Invocation) (q : Nat) (w : Work) : (State.blurWork s i q w).key = s.key := by
  unfold State.blurWork
  repeat' (first | with_reducible rfl | split | (with_reducible refine (foldl_key _ _ _ fun s a => ?_).trans ?_) | (with_reducible refine (foldl_fst_key _ _ _ fun s a => ?_).trans ?_) | (with_reducible refine (foldl_snd_key _ _ _ fun s a => ?_).trans ?_) | simp | (with_reducible refine (State.snd_key (by assumption)).trans ?_) | (with_reducible refine (State.fst_key (by assumption)).trans ?_) | fail)
@[simp] theorem State.order_key (s : State) (q : Nat) (e : QEntry) (w : Work) : (State.order s q e w).key = s.key := by
  unfold State.order
  repeat' (first | with_reducible rfl | split | (with_reducible refine (foldl_key _ _ _ fun s a => ?_).trans ?_) | (with_reducible refine (foldl_fst_key _ _ _ fun s a => ?_).trans ?_) | (with_reducible refine (foldl_snd_key _ _ _ fun s a => ?_).trans ?_) | simp | (with_reducible refine (State.snd_key (by assumption)).trans ?_) | (with_reducible refine (State.fst_key (by assumption)).trans ?_) | fail)
@[simp] theorem State.reap_key (s : State) (t tag : Nat) : (State.reap s t tag).key = s.key := by
  unfold State.reap
  repeat' (first | with_reducible rfl | split | simp)
@[simp] theorem State.dropEntry_key (s : State) (q k : Nat) : (State.dropEntry s q k).key = s.key := by
  unfold State.dropEntry
  repeat' (first | with_reducible rfl | split | (with_reducible refine (foldl_key _ _ _ fun s a => ?_).trans ?_) | simp | fail)
@[simp] theorem State.failEntry_key (s : State) (q k : Nat) (e : QEntry) (why : StopReason) (faultNo : Nat) : (State.failEntry s q k e why faultNo).key = s.key := by
  unfold State.failEntry
  repeat' (first | with_reducible rfl | split | simp)
@[simp] theorem State.startEntry_key (s : State) (q k : Nat) (e : QEntry) : (State.startEntry s q k e).key = s.key := by
  unfold State.startEntry
  split
  · rw [State.failEntry_key, State.charge_key]
  · extract_lets s1 s2 s3
    have h2 : s2.key = s.key := by rw [State.claim_key, State.order_key, State.modEntry_key, State.charge_key]
    have h3 : s3.key = s2.key := State.ite_key (State.takeFlow_key _ _ _) rfl
    refine State.ite_key ?_ (State.ite_key ?_ ?_)
    · rw [State.shellEdge_key, h3, h2]
    · rw [State.clearWords_key, h3, h2]
    · rw [h3, h2]
@[simp] theorem State.freeAcc_key (s : State) (q t : Nat) (e : QEntry) : (State.freeAcc s q t e).key = s.key := rfl
@[simp] theorem State.freeTile_key (s : State) (q t : Nat) (e : QEntry) : (State.freeTile s q t e).key = s.key := rfl
@[simp] theorem State.scanEnds_key (s : State) (q : Nat) (e : QEntry) : (State.scanEnds s q e).key = s.key := by
  unfold State.scanEnds
  repeat' (first | with_reducible rfl | split | (with_reducible refine (foldl_key _ _ _ fun s a => ?_).trans ?_) | (with_reducible refine (foldl_fst_key _ _ _ fun s a => ?_).trans ?_) | (with_reducible refine (foldl_snd_key _ _ _ fun s a => ?_).trans ?_) | simp | (with_reducible refine (State.snd_key (by assumption)).trans ?_) | (with_reducible refine (State.fst_key (by assumption)).trans ?_) | fail)
@[simp] theorem State.releases_key (s : State) (q : Nat) (e : QEntry) : (State.releases s q e).key = s.key := by
  unfold State.releases
  repeat' (first | with_reducible rfl | split | simp)
@[simp] theorem State.ends_key (s : State) (q : Nat) (e : QEntry) : (State.ends s q e).key = s.key := by
  unfold State.ends
  split
  · rfl
  · extract_lets x s1
    have h : s1.key = s.key := State.ite_key (State.blurWork_key _ _ _ _) rfl
    exact State.ite_key h (by rw [State.bumpAfter_key, h])
@[simp] theorem State.loadEnds_key (s : State) (q k : Nat) (e : QEntry) : (State.loadEnds s q k e).key = s.key := by
  unfold State.loadEnds
  repeat' (first | with_reducible rfl | split | simp)
@[simp] theorem State.persistEnds_key (s : State) (q k : Nat) (e : QEntry) : (State.persistEnds s q k e).key = s.key := by
  unfold State.persistEnds
  repeat' (first | with_reducible rfl | split | simp | (with_reducible refine (State.fst_key (by assumption)).trans ?_) | fail)
@[simp] theorem State.freshPair_key (s : State) (q : Nat) : (State.freshPair s q).key = s.key := rfl
@[simp] theorem State.goOffline_key (s : State) (q : Nat) : (State.goOffline s q).key = s.key := by
  unfold State.goOffline
  split
  · rfl
  rcases hf : s.newFault with ⟨f, s1⟩
  have e := State.snd_key hf
  rw [State.newFault_key] at e
  dsimp only
  rw [State.pumpWaiters_key]
  refine (foldl_key _ _ _ fun s a => by rw [State.reap_key]; split <;> simp).trans ?_
  refine (foldl_key _ _ _ fun s a => by split <;> simp).trans ?_
  have h2 : ∀ t : State, t.key = s.key → (if (pairQueue q).isSome then t.freshPair q else t).key = s.key := by
    intro t ht; split
    · rw [State.freshPair_key, ht]
    · exact ht
  refine h2 _ ((foldl_key _ _ _ fun s a => by rw [State.modQueue_key]).trans ?_)
  rw [State.health_key, e]

/-! ### Watermark.lean -/

@[simp] theorem State.setMark_key (s : State) (tenant : Option Nat) (w : Nat) (x : Watermark) : (State.setMark s tenant w x).key = s.key := by
  unfold State.setMark
  split <;> simp
@[simp] theorem State.markEntry_key (s : State) (kind : Nat) (tenant : Option Nat) (w : Nat) (x : Watermark) : (State.markEntry s kind tenant w x).key = s.key := by
  unfold State.markEntry
  split <;> simp
@[simp] theorem State.crossing_key (s : State) (tenant : Option Nat) (w : Nat) (x : Watermark) : (State.crossing s tenant w x).key = s.key := by
  unfold State.crossing
  repeat' (first | with_reducible rfl | split | simp)

/-! ### Settings.lean -/

@[simp] theorem State.settingPut_key (s : State) (off v : Nat) : (State.settingPut s off v).key = s.key := by
  unfold State.settingPut
  iterate 11 refine State.ite_key rfl ?_
  split
  · split
    · rw [State.setMark_key]
    · rfl
  · rfl
@[simp] theorem State.settingWrite_key (s : State) (off mask value : Nat) : (State.settingWrite s off mask value).key = s.key := by
  unfold State.settingWrite
  repeat' (first | with_reducible rfl | split | simp)
@[simp] theorem State.applySettings_key (s : State) (entries : List (Nat × Nat × Nat)) : (State.applySettings s entries).key = s.key := by
  unfold State.applySettings
  repeat' (first | with_reducible rfl | split | (with_reducible refine (foldl_key _ _ _ fun s a => ?_).trans ?_) | simp | fail)
@[simp] theorem State.readStore_key (s : State) : (State.readStore s).key = s.key := by
  unfold State.readStore
  split <;> simp
@[simp] theorem State.norStart_key (s : State) : (State.norStart s).key = s.key := by
  unfold State.norStart
  repeat' (first | with_reducible rfl | split | simp)
@[simp] theorem State.norRequest_key (s : State) (j : NorJob) : (State.norRequest s j).key = s.key := by simp [State.norRequest]

/-! ### Personality.lean -/

@[simp] theorem State.persLog_key (s : State) (e : PersEvent) : (State.persLog s e).key = s.key := by simp [State.persLog]
@[simp] theorem State.persNote_key (s : State) (op : Nat) (st : Status) (reason step : Nat) : (State.persNote s op st reason step).key = s.key := rfl
@[simp] theorem State.persEnd_key (s : State) (r : CmdRef) (op : Nat) (st : Status) (reason step : Nat) : (State.persEnd s r op st reason step).key = s.key := by simp [State.persEnd]
@[simp] theorem State.discardStage_key (s : State) (g : Stage) : (State.discardStage s g).key = s.key := rfl
@[simp] theorem State.setStage_key (s : State) (g : Stage) : (State.setStage s g).key = s.key := rfl
@[simp] theorem State.finalLoad_key (s : State) (c : Cmd) : (State.finalLoad s c).key = s.key := by
  unfold State.finalLoad
  repeat' (first | with_reducible rfl | split | simp)
@[simp] theorem State.exchangeEnd_key (s : State) (r : CmdRef) (st : Status) (reason step detail : Nat) (build : Id128) : (State.exchangeEnd s r st reason step detail build).key = s.key := by simp [State.exchangeEnd]
@[simp] theorem State.exchangeShares_key (s : State) (c : Cmd) : (State.exchangeShares s c).key = s.key := by simp [State.exchangeShares]
@[simp] theorem State.sharesEnd_key (s : State) : (State.sharesEnd s).key = s.key := by
  unfold State.sharesEnd
  repeat' (first | with_reducible rfl | split | (with_reducible refine (foldl_key _ _ _ fun s a => ?_).trans ?_) | (with_reducible refine (foldl_fst_key _ _ _ fun s a => ?_).trans ?_) | (with_reducible refine (foldl_snd_key _ _ _ fun s a => ?_).trans ?_) | simp | (with_reducible refine (State.snd_key (by assumption)).trans ?_) | (with_reducible refine (State.fst_key (by assumption)).trans ?_) | fail)
@[simp] theorem State.verifyEntry_key (s : State) (k f changed essential : Nat) : (State.verifyEntry s k f changed essential).key = s.key := by simp [State.verifyEntry]
@[simp] theorem State.badFrame_key (s : State) (k f : Nat) : (State.badFrame s k f).key = s.key := by simp [State.badFrame]
@[simp] theorem State.writeSlices_key (s : State) (ks : List Nat) (im : List SliceImage) (bad : List (Nat × Nat)) : (State.writeSlices s ks im bad).key = s.key := by
  unfold State.writeSlices
  repeat' (first | with_reducible rfl | split | (with_reducible refine (foldl_key _ _ _ fun s a => ?_).trans ?_) | simp | fail)
@[simp] theorem State.endTenants_key (s : State) : (State.endTenants s).key = s.key := by
  unfold State.endTenants
  repeat' (first | with_reducible rfl | split | (with_reducible refine (foldl_key _ _ _ fun s a => ?_).trans ?_) | simp | fail)
@[simp] theorem State.install_key (s : State) (x : Structure) : (State.install s x).key = s.key := by
  unfold State.install
  repeat' (first | with_reducible rfl | split | (with_reducible refine (foldl_key _ _ _ fun s a => ?_).trans ?_) | simp | fail)
@[simp] theorem State.recordRoles_key (s : State) (roles : List Role) : (State.recordRoles s roles).key = s.key := rfl
@[simp] theorem State.exchangeFabricEnd_key (s : State) (r : CmdRef) (g : Nat) (bad : List (Nat × Nat)) : (State.exchangeFabricEnd s r g bad).key = s.key := by
  unfold State.exchangeFabricEnd
  repeat' (first | with_reducible rfl | split | simp)
@[simp] theorem State.missDeadline_key (s : State) : (State.missDeadline s).key = s.key := by simp [State.missDeadline]
@[simp] theorem State.scrubFrame_key (s : State) (k f : Nat) : (State.scrubFrame s k f).key = s.key := by
  unfold State.scrubFrame
  dsimp only
  split
  · rfl
  split
  · rfl
  · rw [State.taintSlice_key]; rfl
@[simp] theorem State.tryBase_key (s : State) (x0 : List Nat) : (State.tryBase s x0).1.key = s.key := by
  fun_induction State.tryBase s x0 <;> repeat' (first | done | with_reducible rfl | assumption | split | simp_all | (simp +zetaDelta; done) | (with_reducible refine (State.snd_key (by assumption)).trans ?_) | (with_reducible refine (State.fst_key (by assumption)).trans ?_) | fail)
@[simp] theorem State.baseRoles_key (s : State) (x : Structure) (build : Id128) : (State.baseRoles s x build).1.key = s.key := by
  unfold State.baseRoles
  repeat' (first | with_reducible rfl | split | (with_reducible refine (foldl_key _ _ _ fun s a => ?_).trans ?_) | simp | fail)

/-! ### Reset.lean -/

@[simp] theorem State.resetTenant_key (s : State) (t : Nat) : (State.resetTenant s t).key = s.key := by
  unfold State.resetTenant
  repeat' (first | with_reducible rfl | split | (with_reducible refine (foldl_key _ _ _ fun s a => ?_).trans ?_) | simp | fail)
@[simp] theorem State.dropNor_key (s : State) (mine : NorJob → Bool) : (State.dropNor s mine).key = s.key := by simp [State.dropNor]
@[simp] theorem State.resetFunction_key (s : State) (fn : Nat) (flr : Bool) : (State.resetFunction s fn flr).key = s.key := by
  unfold State.resetFunction
  repeat' (first | with_reducible rfl | split | simp)

/-! ### Power.lean -/

@[simp] theorem State.linkDegraded_key (s : State) (width rate : Nat) : (State.linkDegraded s width rate).key = s.key := by simp [State.linkDegraded]

/-! ### Firmware.lean -/

@[simp] theorem State.demote_key (s : State) (slot : Nat) : (State.demote s slot).key = s.key := rfl
@[simp] theorem State.bootRom_key (s : State) (bad : List (Nat × Nat)) (x0 : Nat) : (State.bootRom s bad x0).1.key = s.key := by
  fun_induction State.bootRom s bad x0 <;> simp_all
@[simp] theorem State.romRecovery_key (s : State) : (State.romRecovery s).key = s.key := rfl
@[simp] theorem State.startMedia_key (s : State) : (State.startMedia s).key = s.key := by
  unfold State.startMedia
  repeat' (first | with_reducible rfl | split | (with_reducible refine (foldl_key _ _ _ fun s a => ?_).trans ?_) | simp | fail)
@[simp] theorem State.settingsStart_key (s : State) (j : NorJob) : (State.settingsStart s j).key = s.key := by simp [State.settingsStart]

/-! ### Queues.lean -/

@[simp] theorem State.abortAll_key (s : State) (fn : Nat) : (State.abortAll s fn).key = s.key := by
  unfold State.abortAll
  repeat' (first | with_reducible rfl | split | (with_reducible refine (foldl_key _ _ _ fun s a => ?_).trans ?_) | simp | fail)
@[simp] theorem State.flushNow_key (s : State) : (State.flushNow s).key = s.key := by
  unfold State.flushNow
  repeat' (first | with_reducible rfl | split | (with_reducible refine (foldl_fst_key _ _ _ fun s a => ?_).trans ?_) | simp | fail)
@[simp] theorem State.fetchOne_key (s : State) (fn qid : Nat) : (State.fetchOne s fn qid).key = s.key := by
  unfold State.fetchOne
  split <;> simp
@[simp] theorem State.fetchMany_key (s : State) (fn qid : Nat) (x0 : Nat) : (State.fetchMany s fn qid x0).1.key = s.key := by
  induction x0 generalizing s with
  | zero => rfl
  | succ n ih =>
    unfold State.fetchMany
    split
    · rfl
    split
    · dsimp only
      rw [ih, State.fetchOne_key]
    · rfl
@[simp] theorem State.unknownEnds_key (s : State) (c : Cmd) : (State.unknownEnds s c).key = s.key := by
  unfold State.unknownEnds
  split
  · rfl
  · rw [State.complete_key, State.begin_key (h := by assumption)]
@[simp] theorem State.sweepUnknown_key (s : State) : (State.sweepUnknown s).key = s.key := by
  unfold State.sweepUnknown
  repeat' (first | with_reducible rfl | split | (with_reducible refine (foldl_key _ _ _ fun s a => ?_).trans ?_) | (with_reducible refine (foldl_fst_key _ _ _ fun s a => ?_).trans ?_) | (with_reducible refine (foldl_snd_key _ _ _ fun s a => ?_).trans ?_) | simp | (with_reducible refine (State.snd_key (by assumption)).trans ?_) | (with_reducible refine (State.fst_key (by assumption)).trans ?_) | fail)

/-! ### LogPages.lean -/

@[simp] theorem State.deferredRead_key (s : State) (fn off n : Nat) : (State.deferredRead s fn off n).key = s.key := rfl
@[simp] theorem State.releaseCode_key (s : State) (fn page : Nat) : (State.releaseCode s fn page).key = s.key := rfl
@[simp] theorem State.readLog_key (s : State) (fn : Nat) (c : Cmd) : (State.readLog s fn c).2.2.key = s.key := by
  unfold State.readLog
  repeat' (first | with_reducible rfl | split | simp)

/-! ### Admin.lean -/


/-! ### Mi.lean -/

@[simp] theorem State.miAnswer_key (s : State) (status : Nat) (response : List Byte) (data : List Byte) : (State.miAnswer s status response data).key = s.key := rfl

/-! ### Registers.lean -/

@[simp] theorem State.writeSetting_key (s : State) (off v : Nat) : (State.writeSetting s off v).key = s.key := by simp [State.writeSetting]
@[simp] theorem State.tenantWrite_key (s : State) (n off v : Nat) : (State.tenantWrite s n off v).key = s.key := by
  unfold State.tenantWrite
  repeat' (first | with_reducible rfl | split | simp)
@[simp] theorem State.ctrlWrite_key (s : State) (fn off v : Nat) : (State.ctrlWrite s fn off v).key = s.key := by
  unfold State.ctrlWrite
  repeat' (first | with_reducible rfl | split | simp)
@[simp] theorem State.modConfig_key (s : State) (fn : Nat) (f : FnConfig → FnConfig) : (State.modConfig s fn f).key = s.key := by
  unfold State.modConfig
  repeat' (first | with_reducible rfl | split | (with_reducible refine (foldl_key _ _ _ fun s a => ?_).trans ?_) | (with_reducible refine (foldl_fst_key _ _ _ fun s a => ?_).trans ?_) | (with_reducible refine (foldl_snd_key _ _ _ fun s a => ?_).trans ?_) | simp | (with_reducible refine (State.snd_key (by assumption)).trans ?_) | (with_reducible refine (State.fst_key (by assumption)).trans ?_) | fail)
@[simp] theorem State.configWrite_key (s : State) (fn off v : Nat) : (State.configWrite s fn off v).key = s.key := by
  unfold State.configWrite
  repeat' (first | with_reducible rfl | split | simp)

/-! ### Monitor.lean -/

@[simp] theorem State.ok_key (s : State) (text : String) : (State.ok s text).key = s.key := rfl
@[simp] theorem State.err_key (s : State) (e : MonErr) : (State.err s e).key = s.key := rfl
@[simp] theorem State.unlockDone_key (s : State) : (State.unlockDone s).key = s.key := rfl
@[simp] theorem State.unlockFailed_key (s : State) : (State.unlockFailed s).key = s.key := by
  unfold State.unlockFailed
  repeat' (first | with_reducible rfl | split | simp)
@[simp] theorem State.attempt_key (s : State) (good : List Byte → Bool) : (State.attempt s good).key = s.key := by
  unfold State.attempt
  repeat' (first | with_reducible rfl | split | simp)
@[simp] theorem State.changeKey_key (s : State) (slot : Nat) (key : Option OwnerKey) (keyId : Nat) : (State.changeKey s slot key keyId).key = s.key := by
  unfold State.changeKey
  repeat' (first | with_reducible rfl | split | simp)

/-! ### Tick.lean -/

@[simp] theorem tick_key (s : State) : (tick s).key = s.key := by
  unfold tick
  refine State.ite_key rfl ?_
  extract_lets s1 s2 s3
  have h1 : s1.key = s.key := State.ite_key s.drainIngress_key rfl
  have h2 : s2.key = s1.key := State.ite_key (by rw [State.sweepUnknown_key, State.sharesEnd_key]) rfl
  have h3 : s3.key = s2.key := State.ite_key (foldl_key _ _ _ fun s k => State.logicActs_key s k) rfl
  exact h3.trans (h2.trans h1)

/-! ### The operations that are left, and what the changers of the CLKPWR block keep -/

theorem State.ite_snd_snd_key {α β : Type} {p : Prop} [Decidable p] {a b : α × β × State} {s : State} (ha : a.2.2.key = s.key)
    (hb : b.2.2.key = s.key) : (if p then a else b).2.2.key = s.key := by split <;> assumption
@[simp] theorem State.featureSet_key (s : State) (c : Cmd) (fid : Nat) : (State.featureSet s c fid).2.2.key = s.key := by
  unfold State.featureSet
  repeat' refine State.ite_snd_snd_key ?_ ?_
  all_goals rfl
@[simp] theorem State.setFeature_key (s : State) (c : Cmd) (fid : Nat) : (State.setFeature s c fid).key = s.key := by
  unfold State.setFeature
  dsimp only
  refine State.ite_key (by simp) (State.ite_key (by simp) (State.ite_key ?_ ?_))
  · rw [State.norRequest_key, State.featureSet_key]
  · rw [State.complete_key, State.featureSet_key]
@[simp] theorem State.issueWord_key (s : State) (i : Invocation) : (State.issueWord s i).key = s.key := by
  unfold State.issueWord
  dsimp only
  split
  · rfl
  · rw [State.faultInv_key]
  refine State.ite_key (State.faultInv_key _ _ _ _ _ _) (State.ite_key ?_ ?_)
  · split
    · exact State.judge_key (by assumption)
    · rw [State.modInv_key]
  split
  · rw [State.faultInv_key]
  refine State.ite_key (State.faultInv_key _ _ _ _ _ _) ?_
  split
  · exact State.judge_key (by assumption)
  split
  · rw [State.faultInv_key]
  exact State.ite_key (State.modInv_key _ _ _) (by rw [State.modInv_key, State.modQueue_key])

/-- From `s` to `t` the module's identity stays, and clock fields that are legal stay legal. -/
def State.Keeps (s t : State) : Prop := Safety.SameModule s t ∧ (Safety.ClockLegal s.power → Safety.ClockLegal t.power)

theorem State.Keeps.refl (s : State) : s.Keeps s := ⟨⟨rfl, rfl⟩, id⟩
theorem State.Keeps.trans {s t u : State} (h : s.Keeps t) (k : t.Keeps u) : s.Keeps u :=
  ⟨⟨k.1.1.trans h.1.1, k.1.2.trans h.1.2⟩, fun x => k.2 (h.2 x)⟩
theorem State.keeps_of_key {s t : State} (h : t.key = s.key) : s.Keeps t := by
  simp only [State.key, Prod.mk.injEq] at h
  exact ⟨⟨h.1, h.2.1⟩, fun x => h.2.2 ▸ x⟩
theorem State.modPower_keeps (s : State) (f : Power → Power) (h : Safety.ClockLegal s.power → Safety.ClockLegal (f s.power)) :
    s.Keeps (s.modPower f) := ⟨⟨rfl, rfl⟩, h⟩
theorem State.ite_keeps {p : Prop} [Decidable p] {s a b : State} (ha : s.Keeps a) (hb : s.Keeps b) :
    s.Keeps (if p then a else b) := by split <;> assumption
theorem foldl_keeps {α : Type} (f : State → α → State) (l : List α) (s : State) (h : ∀ s a, State.Keeps s (f s a)) :
    s.Keeps (l.foldl f s) := by
  induction l generalizing s with
  | nil => exact State.Keeps.refl s
  | cons a l ih => exact (h s a).trans (ih _)

theorem State.cause_keeps (s : State) (n : Nat) : s.Keeps (s.cause n) := s.modPower_keeps _ id
theorem State.sense_keeps (s : State) (tj c : Nat) (flow : Bool) : s.Keeps (s.sense tj c flow) := s.modPower_keeps _ id
theorem State.openFuse_keeps (s : State) : s.Keeps s.openFuse :=
  State.ite_keeps (State.Keeps.refl s) (s.modPower_keeps _ id)
@[simp] theorem State.dropCommands_key (s : State) : (State.dropCommands s).key = s.key := rfl
@[simp] theorem State.shield_key (s : State) (watchdog : Bool) : (State.shield s watchdog).key = s.key := by
  unfold State.shield
  split <;> rfl
theorem State.requestReset_keeps (s : State) : s.Keeps s.requestReset := by
  unfold State.requestReset
  extract_lets s1
  have h1 : s.Keeps s1 := State.keeps_of_key (s.modPcie_key _)
  exact h1.trans (State.ite_keeps (State.keeps_of_key (State.shield_key _ _)) (State.modPower_keeps _ _ id))
theorem State.loss_keeps (s : State) (t : LossTrigger) (rail : Option Rail) : s.Keeps (s.loss t rail) := by
  unfold State.loss
  refine State.ite_keeps (State.Keeps.refl s) ?_
  have h : s.Keeps (((s.modNor fun n => { n with queue := [], busy := false }).modPower fun p => { p with
      stage := .detected, trigger := some t, trippedRail := rail, lossPending := true
      holdOff := p.holdOff || t == .thermal }).cause 6) :=
    ((State.keeps_of_key (s.modNor_key _)).trans (State.modPower_keeps _ _ id)).trans (State.cause_keeps _ 6)
  dsimp only
  split
  · exact h.trans (State.cause_keeps _ 7)
  · exact h.trans (State.cause_keeps _ 8)
  · exact h
theorem State.setLevel_keeps (s : State) {n : Nat} (hn : n ≤ 3) : s.Keeps (s.setLevel n) := by
  unfold State.setLevel
  extract_lets old s1 d s2 s3
  have h : s.Keeps s1 := by
    refine s.modPower_keeps _ fun x => ⟨x.1, x.2.1, ?_, hn, x.2.2.2.2⟩
    have := x.2.2.1
    dsimp only
    split_ifs <;> omega
  have a : s.Keeps s3 := h.trans (State.ite_keeps
    ((State.keeps_of_key (State.health_key _ _)).trans (State.keeps_of_key (State.abortTest_key _ 8)))
    (State.keeps_of_key (State.health_key _ _)))
  exact State.ite_keeps (a.trans (State.loss_keeps _ _ _)) a
theorem State.applyClock_keeps (s : State) (c : Option (Nat × Nat × Nat)) : s.Keeps (s.applyClock c) := by
  cases c with
  | none => exact State.Keeps.refl s
  | some c => exact s.modPower_keeps _ id
theorem State.scopeReset_keeps (s : State) (perst : Bool) : s.Keeps (s.scopeReset perst) := by
  have k : ((s.abortTest 8).endTenants).key = s.key := by rw [State.endTenants_key, State.abortTest_key]
  refine (State.keeps_of_key k).trans ⟨⟨rfl, rfl⟩, fun h => ?_⟩
  exact ⟨Nat.le_trans (Nat.min_le_left _ _) (by decide), Nat.le_refl _, h.2.2.1, h.2.2.2.1, (by decide : (18 : Nat) ≤ 21)⟩
theorem State.powerOn_keeps (s : State) : s.Keeps s.powerOn := by
  have k := s.scopeReset_keeps true
  exact ⟨k.1, fun _ => (by decide : (18 : Nat) ≤ 21 ∧ (21 : Nat) ≤ 21 ∧ (21 : Nat) ≤ 21 ∧ (0 : Nat) ≤ 3 ∧ (18 : Nat) ≤ 21)⟩
theorem State.resetNow_keeps (s : State) (kind : ResetKind) : s.Keeps (s.resetNow kind) := by
  unfold State.resetNow
  refine State.ite_keeps (State.Keeps.refl s) ?_
  extract_lets held module dog s1 s2 s3
  have h1 : s.Keeps s1 := (State.keeps_of_key (by rw [State.flushAll_key, State.dropCommands_key])).trans
    (State.scopeReset_keeps _ (kind == .perst))
  have h2 : s1.Keeps s2 := State.ite_keeps (State.cause_keeps _ 4) (State.Keeps.refl _)
  have h3 : s2.Keeps s3 := State.ite_keeps (State.cause_keeps _ 5) (State.Keeps.refl _)
  exact (h1.trans (h2.trans h3)).trans (State.ite_keeps (State.cause_keeps _ 1) (State.Keeps.refl _))
theorem State.releaseShield_keeps (s : State) (expired : Bool) : s.Keeps (s.releaseShield expired) := by
  unfold State.releaseShield
  split
  · exact State.Keeps.refl s
  · exact State.ite_keeps (State.Keeps.refl s) ((State.keeps_of_key (s.modSvc_key _)).trans (State.resetNow_keeps _ _))
theorem State.hotReset_keeps (s : State) : s.Keeps s.hotReset := by
  have h (t : State) (n bit_ : Nat) : t.Keeps ((t.resetFunction n true).cause bit_) :=
    (State.keeps_of_key (t.resetFunction_key n true)).trans (State.cause_keeps _ bit_)
  exact (h s 0 2).trans <| (foldl_keeps _ _ _ fun s a => h s (a + 1) 3).trans <|
    (State.keeps_of_key (State.modPcie_key _ _)).trans (State.modPower_keeps _ _ id)

theorem State.writeWord_keeps (s : State) (w : Window) (off v : Nat) : s.Keeps (s.writeWord w off v) := by
  have hp : s.Keeps (s.modPower fun p => p.write (off - 0x2000) v) := by
    refine s.modPower_keeps _ fun x => ?_
    unfold Power.write
    repeat' split
    all_goals exact ⟨x.1, x.2.1, x.2.2.1, x.2.2.2⟩
  have hm : s.Keeps (s.moduleWrite off v) :=
    State.ite_keeps hp (State.ite_keeps (State.Keeps.refl s) (State.ite_keeps (State.keeps_of_key (s.modPers_key _))
      (State.ite_keeps (State.keeps_of_key (s.writeSetting_key _ _)) (State.Keeps.refl s))))
  cases w with
  | module => exact hm
  | tenant n => exact State.ite_keeps (State.keeps_of_key (s.tenantWrite_key _ _ _)) (State.Keeps.refl s)
  | controller fn => exact State.ite_keeps (State.keeps_of_key (s.ctrlWrite_key _ _ _)) (State.Keeps.refl s)
  | config fn => exact State.ite_keeps (State.keeps_of_key (s.configWrite_key _ _ _)) (State.Keeps.refl s)
theorem State.startNotes_keeps (s : State) : s.Keeps s.startNotes := by
  unfold State.startNotes
  extract_lets c s1 s2 s3 s4 s5 seq s6
  have h1 : s.Keeps s1 := State.ite_keeps ((State.keeps_of_key (s.health_key _)).trans (State.modPower_keeps _ _ id))
    (State.Keeps.refl s)
  have h2 : s2.key = s1.key := by
    show State.key (match c.wdtNote with | some k => _ | none => _) = _
    split
    · rw [State.health_key]
    · rfl
  have h3 : s3.key = s2.key := by
    show State.key (match c.shieldNote with | some (false, t) => _ | some (true, _) => _ | none => _) = _
    split
    · rw [State.health_key]
    · rw [State.health_key, State.drawWord_key]
    · rfl
  have h4 : s4.key = s3.key := by
    show State.key (match c.nor.intent with | some k => _ | none => _) = _
    split
    · rw [State.health_key]
    · rfl
  have h5 : s5.key = s4.key := State.ite_key (State.health_key _ _) rfl
  have h6 : s6.key = s5.key := State.ite_key (State.health_key _ _) rfl
  refine h1.trans (State.keeps_of_key ?_)
  rw [State.modNor_key, State.modSvc_key, h6, h5, h4, h3, h2]
theorem State.activateEnd_keeps (s : State) (r : CmdRef) (bad : List (Nat × Nat)) : s.Keeps (s.activateEnd r bad) := by
  unfold State.activateEnd
  extract_lets im bad x s1 s2 s3 s4 s5 s6 s7 st reason
  have h3 : s3.key = s.key := by
    rw [State.modPers_key, State.recordRoles_key, State.install_key, State.endTenants_key, State.writeSlices_key]
  have h4 : s.Keeps s4 := (State.keeps_of_key (h3 ▸ s3.applySettings_key _)).trans (State.applyClock_keeps _ _)
  have h7 : s7.key = s4.key := by
    rw [State.modProt_key, State.modPers_key, State.discardStage_key, State.modPeer_key]
  refine h4.trans (State.keeps_of_key ?_)
  rw [State.persEnd_key, State.persLog_key, h7]
theorem State.baseEnd_keeps (s : State) (slot : Nat) (b : BaseSlot) (bad : List (Nat × Nat)) : s.Keeps (s.baseEnd slot b bad) := by
  unfold State.baseEnd
  extract_lets im x r s1 index slices bad s2 s3 s4
  have h3 : s3.key = s.key := by
    rw [State.modPers_key, State.install_key, State.writeSlices_key, State.baseRoles_key]
  have h4 : s.Keeps s4 := (State.keeps_of_key (h3 ▸ s3.applySettings_key _)).trans (State.applyClock_keeps _ _)
  exact h4.trans (State.keeps_of_key (s4.persLog_key _))
theorem State.startFirmware_keeps (s : State) (old : Option Qword) : s.Keeps (s.startFirmware old) := by
  unfold State.startFirmware
  extract_lets s1 s2 s3 s4 s5
  have h3 : s3.key = s.key := by rw [State.modPcie_key, State.modSvc_key, State.readStore_key]
  have h5 : s5.key = s4.key := by
    show State.key (match old with | some r => _ | none => _) = _
    split
    · rw [State.health_key]
    · rfl
  exact (State.keeps_of_key h3).trans (s3.startNotes_keeps.trans (State.keeps_of_key (by rw [State.startMedia_key, h5])))
theorem State.bootFirmware_keeps (bad : List (Nat × Nat)) (n : Nat) (s : State) (old : Option Qword) :
    s.Keeps (s.bootFirmware bad n old) := by
  induction n generalizing s old with
  | zero => exact State.keeps_of_key s.romRecovery_key
  | succ n ih =>
    unfold State.bootFirmware
    split
    · rename_i h
      exact State.keeps_of_key (by rw [State.romRecovery_key, State.fst_key h, State.bootRom_key])
    · rename_i h
      extract_lets rev s1
      have h1 : s1.key = s.key := by rw [State.modSvc_key, State.fst_key h, State.bootRom_key]
      split
      · exact (State.keeps_of_key h1).trans (s1.startFirmware_keeps _)
      · extract_lets s2
        have h2 : s2.key = s.key := by rw [State.health_key, h1]
        exact State.ite_keeps ((State.keeps_of_key (by rw [State.demote_key, h2])).trans (ih _ _))
          (State.keeps_of_key (by rw [State.romRecovery_key, h2]))
theorem State.norEnd_keeps (s : State) (j : NorJob) (verified : Bool) : s.Keeps (s.norEnd j verified) := by
  cases j with
  | commit c slot action len im =>
    unfold State.norEnd
    extract_lets other f s1
    refine State.ite_keeps (State.keeps_of_key (by rw [State.complete_key, State.modNor_key])) ?_
    extract_lets s2 s3
    have h : s3.key = s.key := by rw [State.complete_key, State.health_key, State.modNor_key]
    refine State.ite_keeps ?_ (State.keeps_of_key h)
    exact (State.keeps_of_key (by rw [State.flushAll_key, State.dropCommands_key, h])).trans (State.scopeReset_keeps _ false)
  | promote c slot => exact State.keeps_of_key (by simp [State.norEnd])
  | base c slot seq => exact State.keeps_of_key (by simp [State.norEnd])
  | save => exact State.keeps_of_key (by simp [State.norEnd])
  | clear => exact State.keeps_of_key (by simp [State.norEnd])
  | features c new => exact State.keeps_of_key (by simp [State.norEnd])

end Sys2Proof.Machine
end

