-- ==== Sys2Proof/Laws/Memory.lean ====
section
/-!
SUPPORT. Memory.lean: sparse memories keep their canonical form, a read after a write gives what was written, and a write leaves
every other place alone.
-/

namespace Sys2Proof.Machine

/-! ### The canonical form -/

/-- The canonical form, said of all pairs of cells and of each cell. -/
theorem Memory.wf_iff (k : Bool) (m : Mem) :
    Memory.wf k m = true ↔ m.Pairwise (fun c d => c.1 < d.1) ∧ ∀ c ∈ m, (k || c.2 != 0) = true := by
  induction m with
  | nil => simp [Memory.wf]
  | cons c r ih =>
    cases r with
    | nil => simp [Memory.wf]
    | cons d r =>
      rw [show Memory.wf k (c :: d :: r) = ((k || c.2 != 0) && decide (c.1 < d.1) && Memory.wf k (d :: r)) from rfl]
      rw [Bool.and_eq_true, Bool.and_eq_true, ih, decide_eq_true_eq, List.pairwise_cons (a := c)]
      constructor
      · rintro ⟨⟨hc, hcd⟩, hp, ha⟩
        refine ⟨⟨fun e he => ?_, hp⟩, fun e he => ?_⟩
        · rcases List.mem_cons.mp he with rfl | he'
          · exact hcd
          · exact Nat.lt_trans hcd ((List.pairwise_cons.mp hp).1 e he')
        · rcases List.mem_cons.mp he with rfl | he'
          · exact hc
          · exact ha e he'
      · rintro ⟨⟨hlt, hp⟩, ha⟩
        exact ⟨⟨ha c (by simp), hlt d (by simp)⟩, hp, fun e he => ha e (List.mem_cons_of_mem _ he)⟩

/-- The empty memory is canonical. -/
@[simp] theorem Memory.wf_nil (k : Bool) : Memory.wf k [] = true := rfl

/-- Every cell of a written string lies in its range. -/
theorem cellsOf_range {k : Bool} {bs : List Byte} {a : Nat} {c : Host.Cell} (h : c ∈ cellsOf k a bs) :
    a ≤ c.1 ∧ c.1 < a + bs.length := by
  induction bs generalizing a with
  | nil => simp [cellsOf] at h
  | cons b bs ih =>
    simp only [cellsOf] at h
    split at h
    · rcases List.mem_cons.mp h with rfl | h
      · simp
      · have := ih h
        simp only [List.length_cons]
        omega
    · have := ih h
      simp only [List.length_cons]
      omega

/-- The cells of a written string are canonical. -/
theorem cellsOf_wf (k : Bool) (bs : List Byte) (a : Nat) : Memory.wf k (cellsOf k a bs) = true := by
  rw [Memory.wf_iff]
  induction bs generalizing a with
  | nil => simp [cellsOf]
  | cons b bs ih =>
    simp only [cellsOf]
    split
    · rename_i hb
      refine ⟨List.pairwise_cons.mpr ⟨fun c hc => ?_, (ih _).1⟩, fun c hc => ?_⟩
      · have := (cellsOf_range hc).1
        show a < c.1
        omega
      · rcases List.mem_cons.mp hc with rfl | hc
        · exact hb
        · exact (ih _).2 c hc
    · exact ih _

/-- A write keeps the canonical form. -/
theorem Mem.put_wf {k : Bool} {m : Mem} (h : Memory.wf k m = true) (a : Nat) (bs : List Byte) :
    Memory.wf k (Mem.put k m a bs) = true := by
  rw [Memory.wf_iff] at h ⊢
  have hc := (Memory.wf_iff k _).mp (cellsOf_wf k bs a)
  refine ⟨?_, fun c hcm => ?_⟩
  · rw [Mem.put, List.pairwise_append, List.pairwise_append]
    refine ⟨⟨h.1.filter _, hc.1, fun x hx y hy => ?_⟩, h.1.filter _, fun x hx y hy => ?_⟩
    · have := (cellsOf_range hy).1
      have hx' := (List.mem_filter.mp hx).2
      simp only [decide_eq_true_eq] at hx'
      omega
    · have hy' := (List.mem_filter.mp hy).2
      simp only [decide_eq_true_eq] at hy'
      rcases List.mem_append.mp hx with hx | hx
      · have hx' := (List.mem_filter.mp hx).2
        simp only [decide_eq_true_eq] at hx'
        omega
      · have := (cellsOf_range hx).2
        omega
  · rcases List.mem_append.mp hcm with hcm | hcm
    · rcases List.mem_append.mp hcm with hcm | hcm
      · exact h.2 c (List.mem_filter.mp hcm).1
      · exact hc.2 c hcm
    · exact h.2 c (List.mem_filter.mp hcm).1

/-! ### Reads -/

/-- A byte outside every cell of a list reads what an unlisted byte reads. -/
theorem Mem.at_of_not_mem {d : Nat → Byte} {m : Mem} {x : Nat} (h : ∀ c ∈ m, c.1 ≠ x) : Mem.at d m x = d x := by
  have : m.find? (fun c => c.1 == x) = none := List.find?_eq_none.mpr fun c hc => by simpa using h c hc
  simp [Mem.at, this]

/-- A read skips cells that lie elsewhere. -/
theorem Mem.at_append {d : Nat → Byte} {m n : Mem} {x : Nat} (h : ∀ c ∈ m, c.1 ≠ x) : Mem.at d (m ++ n) x = Mem.at d n x := by
  have : m.find? (fun c => c.1 == x) = none := List.find?_eq_none.mpr fun c hc => by simpa using h c hc
  simp [Mem.at, List.find?_append, this]

/-- A read stops at the first list that has a cell, or reads on. -/
theorem Mem.at_append_left {d : Nat → Byte} {m n : Mem} {x : Nat} (h : ∀ c ∈ n, c.1 ≠ x) : Mem.at d (m ++ n) x = Mem.at d m x := by
  have : n.find? (fun c => c.1 == x) = none := List.find?_eq_none.mpr fun c hc => by simpa using h c hc
  simp [Mem.at, List.find?_append, this]

/-- Dropping cells that lie elsewhere changes no read. -/
theorem Mem.at_filter {d : Nat → Byte} {p : Host.Cell → Bool} {m : Mem} {x : Nat} (h : ∀ c ∈ m, c.1 = x → p c = true) :
    Mem.at d (m.filter p) x = Mem.at d m x := by
  have : (m.filter p).find? (fun c => c.1 == x) = m.find? (fun c => c.1 == x) := by
    induction m with
    | nil => rfl
    | cons c r ih =>
      have ih := ih fun e he => h e (List.mem_cons_of_mem _ he)
      by_cases hx : c.1 = x
      · simp [h c (by simp) hx, hx]
      · by_cases hp : p c = true
        · simp [hp, hx, ih]
        · simp [hp, hx, ih]
  simp only [Mem.at, this]

/-- A byte that a written string covers. -/
theorem cellsOf_at {d : Nat → Byte} {k : Bool} (hd : k = true ∨ ∀ x, d x = 0) {bs : List Byte} {a x : Nat}
    (h₁ : a ≤ x) (h₂ : x < a + bs.length) : Mem.at d (cellsOf k a bs) x = bs.getD (x - a) 0 := by
  induction bs generalizing a with
  | nil => simp at h₂; omega
  | cons b bs ih =>
    simp only [List.length_cons] at h₂
    by_cases hx : a = x
    · subst hx
      simp only [cellsOf, Nat.sub_self, List.getD_cons_zero]
      split
      · simp [Mem.at]
      · rename_i hb
        have hk : k = false := by simpa using (by simpa using hb : k = false ∧ b = 0).1
        have hb0 : b = 0 := (by simpa using hb : k = false ∧ b = 0).2
        rw [Mem.at_of_not_mem fun c hc => by have := (cellsOf_range hc).1; omega, hb0]
        rcases hd with hd | hd
        · simp [hk] at hd
        · exact hd a
    · have e : x - a = (x - (a + 1)) + 1 := by omega
      have ih := ih (a := a + 1) (by omega) (by omega)
      rw [e, List.getD_cons_succ, ← ih]
      simp only [cellsOf]
      split
      · exact Mem.at_append (m := [(a, b)]) fun c hc => by
          rcases List.mem_singleton.mp hc with rfl
          exact hx
      · rfl

/-- A read after a write: the byte written, or the byte that was there. -/
theorem Mem.at_put {d : Nat → Byte} {k : Bool} (hd : k = true ∨ ∀ x, d x = 0) (m : Mem) (a : Nat) (bs : List Byte) (x : Nat) :
    Mem.at d (Mem.put k m a bs) x = if a ≤ x ∧ x < a + bs.length then bs.getD (x - a) 0 else Mem.at d m x := by
  have low : ∀ c ∈ m.filter (fun c => decide (c.1 < a)), c.1 < a := fun c hc => by
    simpa using (List.mem_filter.mp hc).2
  have high : ∀ c ∈ m.filter (fun c => decide (a + bs.length ≤ c.1)), a + bs.length ≤ c.1 := fun c hc => by
    simpa using (List.mem_filter.mp hc).2
  rw [Mem.put]
  split
  · rename_i h
    rw [Mem.at_append_left fun c hc => by have := high c hc; omega,
      Mem.at_append fun c hc => by have := low c hc; omega, cellsOf_at hd h.1 h.2]
  · rename_i h
    by_cases hx : x < a
    · rw [Mem.at_append_left fun c hc => by have := high c hc; omega,
        Mem.at_append_left fun c hc => by have := (cellsOf_range hc).1; omega]
      exact Mem.at_filter fun c _ hc => by simp [hc, hx]
    · have hx' : a + bs.length ≤ x := by
        rcases Nat.lt_or_ge x (a + bs.length) with h' | h'
        · exact absurd ⟨by omega, h'⟩ h
        · exact h'
      rw [List.append_assoc, Mem.at_append fun c hc => by have := low c hc; omega,
        Mem.at_append fun c hc => by have := (cellsOf_range hc).2; omega]
      exact Mem.at_filter fun c _ hc => by simp [hc, hx']

/-- Reading a run of bytes off sorted cells reads each byte. -/
theorem Mem.run_eq (d : Nat → Byte) {m : Mem} (hp : m.Pairwise fun c e => c.1 < e.1) {a : Nat} (ha : ∀ c ∈ m, a ≤ c.1) (n : Nat) :
    Mem.run d a n m = (List.range n).map fun i => Mem.at d m (a + i) := by
  induction n generalizing a m with
  | zero => cases m <;> rfl
  | succ n ih =>
    have step : (List.range (n + 1)).map (fun i => Mem.at d m (a + i))
        = Mem.at d m a :: (List.range n).map fun i => Mem.at d m (a + 1 + i) := by
      rw [List.range_succ_eq_map, List.map_cons, List.map_map]
      simp only [Nat.add_zero, List.cons.injEq, true_and]
      exact List.map_congr_left fun i _ => by simp only [Function.comp]; congr 1; omega
    rw [step]
    cases m with
    | nil =>
      rw [show Mem.run d a (n + 1) [] = d a :: Mem.run d (a + 1) n [] from rfl, ih List.Pairwise.nil (by simp)]
      rfl
    | cons c r =>
      have hr := (List.pairwise_cons.mp hp)
      rw [show Mem.run d a (n + 1) (c :: r)
        = if c.1 = a then c.2 :: Mem.run d (a + 1) n r else d a :: Mem.run d (a + 1) n (c :: r) from rfl]
      split
      · rename_i hc
        have hlow : ∀ e ∈ r, a + 1 ≤ e.1 := fun e he => by have := hr.1 e he; omega
        rw [ih hr.2 hlow, show Mem.at d (c :: r) a = c.2 by simp [Mem.at, hc]]
        congr 1
        refine List.map_congr_left fun i _ => ?_
        exact (Mem.at_append (m := [c]) fun e he => by rcases List.mem_singleton.mp he with rfl; omega).symm
      · rename_i hc
        have hlow : ∀ e ∈ c :: r, a + 1 ≤ e.1 := fun e he => by
          have hc' := ha c (by simp)
          rcases List.mem_cons.mp he with rfl | he
          · omega
          · have := hr.1 e he; omega
        rw [ih hp hlow, Mem.at_of_not_mem (m := c :: r) fun e he => by have := hlow e he; omega]

/-- A read of several bytes of a canonical memory reads each byte. -/
theorem Mem.get_eq (d : Nat → Byte) {k : Bool} {m : Mem} (h : Memory.wf k m = true) (a n : Nat) :
    Mem.get d m a n = (List.range n).map fun i => Mem.at d m (a + i) := by
  rw [Mem.get, Mem.run_eq d (((Memory.wf_iff k m).mp h).1.filter _) fun c hc => by simpa using (List.mem_filter.mp hc).2]
  refine List.map_congr_left fun i _ => Mem.at_filter fun c _ hc => ?_
  simp only [decide_eq_true_eq]
  omega

/-- The bytes just written are read back. -/
theorem Mem.get_put {d : Nat → Byte} {k : Bool} (hd : k = true ∨ ∀ x, d x = 0) {m : Mem} (h : Memory.wf k m = true) (a : Nat)
    (bs : List Byte) : Mem.get d (Mem.put k m a bs) a bs.length = bs := by
  rw [Mem.get_eq d (Mem.put_wf h a bs)]
  apply List.ext_getElem
  · simp
  · intro i h₁ h₂
    simp only [List.getElem_map, List.getElem_range]
    rw [Mem.at_put hd]
    simp [h₂]

/-! ### Regions and host memory -/

/-- What an unlisted byte of a region reads matches how its cells are kept. -/
theorem Region.dflt_ok (r : Region) : (r.gen != 0) = true ∨ ∀ x, r.dflt x = 0 := by
  cases h : r.gen with
  | zero => exact .inr fun x => by simp [Region.dflt, h]
  | succ n => exact .inl rfl

/-- A write keeps a region canonical. -/
theorem Region.put_wf {r : Region} (h : r.wf = true) (a : Nat) (bs : List Byte) : (r.put a bs).wf = true := Mem.put_wf h a bs

/-- A region made of bytes is canonical. -/
@[simp] theorem Region.ofBytes_wf (bs : List Byte) : (Region.ofBytes bs).wf = true := cellsOf_wf false bs 0

/-- A read of a region after a write. -/
theorem Region.at_put (r : Region) (a : Nat) (bs : List Byte) (x : Nat) :
    (r.put a bs).at x = if a ≤ x ∧ x < a + bs.length then bs.getD (x - a) 0 else r.at x := by
  have := Mem.at_put r.dflt_ok r.cells a bs x
  exact this

/-- The bytes just written into a canonical region are read back. -/
theorem Region.get_put {r : Region} (h : r.wf = true) (a : Nat) (bs : List Byte) : (r.put a bs).get a bs.length = bs :=
  Mem.get_put r.dflt_ok h a bs

/-- A read of several bytes of a canonical region. -/
theorem Region.get_eq {r : Region} (h : r.wf = true) (a n : Nat) : r.get a n = (List.range n).map fun i => r.at (a + i) :=
  Mem.get_eq r.dflt h a n

/-- A write keeps host memory canonical. -/
theorem State.hostPut_wf {s : State} (h : Memory.wf false s.host = true) (a : Nat) (bs : List Byte) :
    Memory.wf false (s.hostPut a bs).host = true := Mem.put_wf h a bs

/-- Host memory is canonical at reset. -/
theorem State.reset_host_wf : Memory.wf false State.reset.host = true := rfl

end Sys2Proof.Machine
end

