-- ==== Sys2Proof/WellFormed.lean ====
section
/-!
DEFINITION. WellFormed.lean: which commands and events the world can give: numbers name something the module has, and an NVMe
command carries the opcode of its row, and the subcode where several rows share one opcode (log entry 1).
-/

namespace Sys2Proof

/-- An NVMe command of one of the 17 functions with this opcode. -/
def Cmd.names (c : Cmd) (opcode : Nat) : Bool := decide (c.fn < 17) && c.opcode == opcode
/-- A page of the larger variant: 32 channels of 32 dies, 4 planes of 2,048 blocks of 2,048 pages (Table 15-1). -/
def PageAddr.wf (a : PageAddr) : Bool :=
  decide (a.channel < 32) && decide (a.die < 32) && decide (a.plane < 4) && decide (a.block < 2048) && decide (a.page < 2048)
/-- A block of one of the four stacks, with symbols that its code has (R521, R524). -/
def BlockRead.wf (b : BlockRead) : Bool :=
  decide (b.stack < 4) && decide (b.block < 100663296)
    && (b.errors.first ++ b.errors.check ++ b.errors.second).all fun k => decide (k < 288)
/-- A word of one of the 11 SRAM structures, whose errors are among its 64 data and 8 check bits (R542). -/
def WordRead.wf (w : WordRead) : Bool := decide (w.structure_ < 11) && w.bits.all fun k => decide (k < 72)
/-- What reads find in error is well formed. -/
def Reads.wf (r : Reads) : Bool := r.blocks.all BlockRead.wf && r.words.all WordRead.wf
/-- The row of an engine queue is well formed. -/
def EngineRow.wf (r : EngineRow) : Bool := decide (r.queue < 78) && r.bad.all WordRead.wf
/-- A window of one of the 16 tenants or the 17 functions. -/
def Window.wf : Window → Bool
  | .module => true
  | .tenant n => decide (n < 16)
  | .controller fn => decide (fn < 17)
  | .config fn => decide (fn < 17)

/-- The NVMe command that a row carries. -/
def Instr.cmd? : Instr → Option Cmd
  | .powerOn => none
  | .aonRelease _ _ _ _ _ => none
  | .railsUp => none
  | .firmwareBoot _ => none
  | .dramInitDone => none
  | .mapReplay => none
  | .basePersonalityLoad _ => none
  | .linkUp _ _ => none
  | .cstsReady _ => none
  | .holdupCharged => none
  | .holdupChargeTimeout => none
  | .holdupMeasure _ => none
  | .inputUndervoltage => none
  | .plnFall => none
  | .pwrdisAssert => none
  | .pwrdisDeassert => none
  | .p1Shed => none
  | .p2Flush _ => none
  | .p3Metadata => none
  | .p4RailsDown _ => none
  | .inputOvervoltage => none
  | .inputOvercurrent => none
  | .railTrip _ => none
  | .nandRailTrip _ => none
  | .cageEfuseTrip _ => none
  | .cablePresenceChange _ _ _ => none
  | .sidebandPinFault _ => none
  | .refclkLoss => none
  | .powerSample _ _ => none
  | .powerCeilingLower => none
  | .powerCeilingRaise => none
  | .coreClockStep => none
  | .thermalLevelEnter _ _ _ => none
  | .thermalLevelLeave _ _ _ => none
  | .thermalCeilingStep => none
  | .flowLossTimeout => none
  | .dramRecalibration _ => none
  | .perstAssert => none
  | .perstDeassert => none
  | .hotReset => none
  | .controllerEnable _ _ => none
  | .controllerDisable _ _ => none
  | .shutdownNotification _ _ => none
  | .functionLevelReset _ => none
  | .vfEnableWrite _ => none
  | .sqTailDoorbell _ _ _ => none
  | .cqHeadDoorbell _ _ _ => none
  | .commandFetch => none
  | .commandTimeout _ => none
  | .createIoSq c => some c
  | .deleteIoSq c => some c
  | .createIoCq c => some c
  | .deleteIoCq c => some c
  | .getLogPage c => some c
  | .identify c => some c
  | .abort c => some c
  | .setFeatures c => some c
  | .setArbitration c => some c
  | .setCommandTimeouts c => some c
  | .setDeadlineFloor c => some c
  | .getFeatures c => some c
  | .asynchronousEventRequest c => some c
  | .namespaceManagement c => some c
  | .namespaceAttachment c => some c
  | .formatNvm c => some c
  | .sanitize c => some c
  | .firmwareImageDownload c => some c
  | .firmwareCommit c => some c
  | .deviceSelfTest c => some c
  | .selfTestComplete _ => none
  | .flush c => some c
  | .write c => some c
  | .read c => some c
  | .datasetManagement c => some c
  | .miReadDataStructure _ _ _ => none
  | .miSubsystemHealthPoll _ => none
  | .miControllerHealthPoll _ _ _ => none
  | .miConfigurationGet _ _ => none
  | .miConfigurationSet _ _ _ => none
  | .miVpdRead _ _ => none
  | .miTunneledAdmin c => some c
  | .loadPersonality c => some c
  | .activateOwner c => some c
  | .commitBase c => some c
  | .discard c => some c
  | .exchangeRegion c => some c
  | .exchangeDrainEnd => none
  | .exchangeDrainTimeout => none
  | .configWriteDone _ => none
  | .personalityStatus c => some c
  | .persDeadlineWrite _ => none
  | .ownerDeadlineExpiry => none
  | .shellTimerExpiry _ _ _ => none
  | .configScrubPass _ => none
  | .retire c _ => some c
  | .moduleReset c => some c
  | .moduleResetStart => none
  | .admitModel c => some c
  | .release c => some c
  | .invoke c => some c
  | .search c => some c
  | .extract c => some c
  | .service c => some c
  | .alloc c => some c
  | .free c => some c
  | .counterRead c => some c
  | .counterBump c => some c
  | .counterWaitGe c => some c
  | .counterWaitSatisfied _ => none
  | .runBegin c => some c
  | .runEnd c => some c
  | .publishBegin c => some c
  | .publishData c => some c
  | .publishVerify c => some c
  | .publishCommit c => some c
  | .publishAbandon c => some c
  | .mediaWrite c => some c
  | .mediaRead c => some c
  | .mediaErase c => some c
  | .invocationAssign _ _ => none
  | .invocationDrained _ => none
  | .invocationPersisted _ => none
  | .spindleIssueWord _ => none
  | .slotStallReleased _ => none
  | .controlWaitPassed _ => none
  | .endOp _ => none
  | .loop _ => none
  | .endloop _ => none
  | .call _ => none
  | .ret _ => none
  | .wait _ => none
  | .bump _ => none
  | .branchCtr _ => none
  | .engineArbitrate _ => none
  | .engineCommandEnd _ => none
  | .engineInternalFault _ => none
  | .engineBist _ _ => none
  | .copy _ _ => none
  | .fillPattern _ => none
  | .gather _ _ => none
  | .bringUpStart _ _ => none
  | .mma _ => none
  | .accZero _ => none
  | .accLoad _ => none
  | .tile _ => none
  | .tileReduce _ => none
  | .softmax _ => none
  | .stream _ => none
  | .streamReduce _ => none
  | .maskSet _ => none
  | .gougeRelease _ => none
  | .listMerge _ => none
  | .listEmit _ => none
  | .loadCtx _ => none
  | .scan _ _ => none
  | .scanReadAhead _ _ => none
  | .emit _ => none
  | .ctxRelease _ => none
  | .frameJpeg _ => none
  | .frameRaw _ => none
  | .peerWrite _ => none
  | .peerFrameSend _ => none
  | .dataFrameReceived _ _ => none
  | .ackReceived _ _ => none
  | .nakReceived _ _ => none
  | .ackTimer _ => none
  | .retransmitTimeout _ _ => none
  | .pfcPauseReceived _ _ => none
  | .helloTimer _ => none
  | .helloReceived _ _ => none
  | .portTrainingDone _ _ => none
  | .portRetrainTimer _ => none
  | .portLinkLost _ => none
  | .peerRtoWrite _ => none
  | .channelTraining _ _ => none
  | .pageReadDone _ _ _ _ => none
  | .readRetryAttempt _ _ _ => none
  | .stripeRebuild _ _ _ => none
  | .programDone _ _ _ => none
  | .eraseDone _ _ _ => none
  | .operationResume _ _ => none
  | .busyTimeout _ _ => none
  | .targetResetDone _ _ _ => none
  | .programPromotion _ _ => none
  | .backgroundPromotion _ _ => none
  | .zoneCalibration _ _ _ _ _ => none
  | .mediaRrBudgetWrite _ => none
  | .norCtrlWrite _ => none
  | .norOpDone _ => none
  | .partialRowTimeout _ => none
  | .journalCheckpoint _ => none
  | .garbageCollection _ => none
  | .staticLevelling _ => none
  | .relocationSwitch _ => none
  | .superblockErase _ => none
  | .patrolStep _ _ _ _ => none
  | .cleanBlock _ _ _ => none
  | .watermarkEvaluate _ _ => none
  | .wmLatchClear _ _ => none
  | .wmMarkWrite _ _ _ => none
  | .wmClrCount _ _ => none
  | .tctrBump _ _ => none
  | .dramScrubStep _ _ => none
  | .sramScrubStep _ _ _ => none
  | .watchdogServe => none
  | .watchdogExpiry => none
  | .shieldRelease => none
  | .shieldTimeout => none
  | .settingsSave => none
  | .settingsClear => none
  | .monitorId => none
  | .monitorStatus => none
  | .monitorLog _ _ => none
  | .monitorReg _ => none
  | .monitorKeys => none
  | .monitorBaud _ => none
  | .monitorChallenge _ => none
  | .unlockOwner _ _ => none
  | .unlockVendor _ _ => none
  | .unlockPhysical => none
  | .monitorLock => none
  | .keyInstall _ _ _ => none
  | .keyRevoke _ => none
  | .monitorSettingsClear => none
  | .monitorReset => none
  | .monitorIdleTimeout => none
  | .nonceExpiry => none
  | .lockoutEnd => none
  | .jtagBypass _ => none
  | .jtagIdcode _ => none
  | .jtagSamplePreload _ _ => none
  | .jtagExtest _ => none
  | .registerWrite _ _ _ _ => none
  | .plnGoesHigh => none
  | .temperatureThresholdCrossing _ => none
  | .monitorUnknownCommand _ => none

/-- Well-formed commands and events. -/
def Instr.wf : Instr → Bool
  | .powerOn => true
  | .aonRelease _ _ _ _ _ => true
  | .railsUp => true
  | .firmwareBoot _ => true
  | .dramInitDone => true
  | .mapReplay => true
  | .basePersonalityLoad _ => true
  | .linkUp _ _ => true
  | .cstsReady fn => decide (fn < 17)
  | .holdupCharged => true
  | .holdupChargeTimeout => true
  | .holdupMeasure _ => true
  | .inputUndervoltage => true
  | .plnFall => true
  | .pwrdisAssert => true
  | .pwrdisDeassert => true
  | .p1Shed => true
  | .p2Flush _ => true
  | .p3Metadata => true
  | .p4RailsDown _ => true
  | .inputOvervoltage => true
  | .inputOvercurrent => true
  | .railTrip _ => true
  | .nandRailTrip group => decide (group < 4)
  | .cageEfuseTrip cage => decide (cage < 2)
  | .cablePresenceChange cage _ _ => decide (cage < 2)
  | .sidebandPinFault _ => true
  | .refclkLoss => true
  | .powerSample _ _ => true
  | .powerCeilingLower => true
  | .powerCeilingRaise => true
  | .coreClockStep => true
  | .thermalLevelEnter _ _ _ => true
  | .thermalLevelLeave _ _ _ => true
  | .thermalCeilingStep => true
  | .flowLossTimeout => true
  | .dramRecalibration stack => decide (stack < 4)
  | .perstAssert => true
  | .perstDeassert => true
  | .hotReset => true
  | .controllerEnable fn _ => decide (fn < 17)
  | .controllerDisable fn _ => decide (fn < 17)
  | .shutdownNotification fn _ => decide (fn < 17)
  | .functionLevelReset fn => decide (fn < 17)
  | .vfEnableWrite _ => true
  | .sqTailDoorbell fn _ _ => decide (fn < 17)
  | .cqHeadDoorbell fn _ _ => decide (fn < 17)
  | .commandFetch => true
  | .commandTimeout ref => decide (ref.fn < 17)
  | .createIoSq c => c.names 0x01
  | .deleteIoSq c => c.names 0x00
  | .createIoCq c => c.names 0x05
  | .deleteIoCq c => c.names 0x04
  | .getLogPage c => c.names 0x02
  | .identify c => c.names 0x06
  | .abort c => c.names 0x08
  | .setFeatures c => c.names 0x09
  | .setArbitration c => c.names 0x09 && bits c.cdw10.toNat 7 0 == 1
  | .setCommandTimeouts c => c.names 0x09 && bits c.cdw10.toNat 7 0 == 192
  | .setDeadlineFloor c => c.names 0x09 && bits c.cdw10.toNat 7 0 == 193
  | .getFeatures c => c.names 0x0A
  | .asynchronousEventRequest c => c.names 0x0C
  | .namespaceManagement c => c.names 0x0D
  | .namespaceAttachment c => c.names 0x15
  | .formatNvm c => c.names 0x80
  | .sanitize c => c.names 0x84
  | .firmwareImageDownload c => c.names 0x11
  | .firmwareCommit c => c.names 0x10
  | .deviceSelfTest c => c.names 0x14
  | .selfTestComplete _ => true
  | .flush c => c.names 0x00
  | .write c => c.names 0x01
  | .read c => c.names 0x02
  | .datasetManagement c => c.names 0x09
  | .miReadDataStructure _ _ _ => true
  | .miSubsystemHealthPoll _ => true
  | .miControllerHealthPoll _ _ _ => true
  | .miConfigurationGet _ port => decide (port < 4)
  | .miConfigurationSet _ port _ => decide (port < 4)
  | .miVpdRead _ _ => true
  | .miTunneledAdmin c => decide (c.fn = 0)
  | .loadPersonality c => c.names 0xC1
  | .activateOwner c => c.names 0xC4
  | .commitBase c => c.names 0xC4 && bits c.cdw10.toNat 2 0 == 1
  | .discard c => c.names 0xC4 && bits c.cdw10.toNat 2 0 == 2
  | .exchangeRegion c => c.names 0xC5
  | .exchangeDrainEnd => true
  | .exchangeDrainTimeout => true
  | .configWriteDone _ => true
  | .personalityStatus c => c.names 0xC6
  | .persDeadlineWrite _ => true
  | .ownerDeadlineExpiry => true
  | .shellTimerExpiry slice timer _ => decide (slice < 32) && decide (timer < 16)
  | .configScrubPass _ => true
  | .retire c _ => c.names 0xC8
  | .moduleReset c => c.names 0xCC
  | .moduleResetStart => true
  | .admitModel c => c.names 0x81
  | .release c => c.names 0x84
  | .invoke c => c.names 0x8B
  | .search c => c.names 0x8F
  | .extract c => c.names 0x93
  | .service c => c.names 0xAB
  | .alloc c => c.names 0x94
  | .free c => c.names 0x98
  | .counterRead c => c.names 0x9C && (bits c.cdw10.toNat 1 0 == 0 || bits c.cdw10.toNat 1 0 == 3)
  | .counterBump c => c.names 0x9C && bits c.cdw10.toNat 1 0 == 1
  | .counterWaitGe c => c.names 0x9C && bits c.cdw10.toNat 1 0 == 2
  | .counterWaitSatisfied ref => decide (ref.fn < 17)
  | .runBegin c => c.names 0xA4 && bits c.cdw10.toNat 0 0 == 0
  | .runEnd c => c.names 0xA4 && bits c.cdw10.toNat 0 0 == 1
  | .publishBegin c => c.names 0xA1 && (bits c.cdw10.toNat 2 0 == 0 || decide (bits c.cdw10.toNat 2 0 > 4))
  | .publishData c => c.names 0xA1 && bits c.cdw10.toNat 2 0 == 1
  | .publishVerify c => c.names 0xA1 && bits c.cdw10.toNat 2 0 == 2
  | .publishCommit c => c.names 0xA1 && bits c.cdw10.toNat 2 0 == 3
  | .publishAbandon c => c.names 0xA1 && bits c.cdw10.toNat 2 0 == 4
  | .mediaWrite c => c.names 0xB1
  | .mediaRead c => c.names 0xB2
  | .mediaErase c => c.names 0xB4
  | .invocationAssign tenant slot => decide (tenant < 16) && decide (slot < 64)
  | .invocationDrained spindle => decide (spindle < 64)
  | .invocationPersisted spindle => decide (spindle < 64)
  | .spindleIssueWord spindle => decide (spindle < 64)
  | .slotStallReleased spindle => decide (spindle < 64)
  | .controlWaitPassed spindle => decide (spindle < 64)
  | .endOp spindle => decide (spindle < 64)
  | .loop spindle => decide (spindle < 64)
  | .endloop spindle => decide (spindle < 64)
  | .call spindle => decide (spindle < 64)
  | .ret spindle => decide (spindle < 64)
  | .wait spindle => decide (spindle < 64)
  | .bump spindle => decide (spindle < 64)
  | .branchCtr spindle => decide (spindle < 64)
  | .engineArbitrate queue => decide (queue < 78)
  | .engineCommandEnd queue => decide (queue < 78)
  | .engineInternalFault queue => decide (queue < 78)
  | .engineBist queue _ => decide (queue < 78)
  | .copy queue found => decide (queue < 78) && found.wf
  | .fillPattern queue => decide (queue < 78)
  | .gather queue found => decide (queue < 78) && found.wf
  | .bringUpStart queue _ => decide (queue < 78)
  | .mma row => row.wf
  | .accZero queue => decide (queue < 78)
  | .accLoad row => row.wf
  | .tile row => row.wf
  | .tileReduce row => row.wf
  | .softmax row => row.wf
  | .stream row => row.wf
  | .streamReduce row => row.wf
  | .maskSet row => row.wf
  | .gougeRelease queue => decide (queue < 78)
  | .listMerge row => row.wf
  | .listEmit row => row.wf
  | .loadCtx row => row.wf
  | .scan queue run => decide (queue < 78) && run.bad.all WordRead.wf
  | .scanReadAhead queue _ => decide (queue < 78)
  | .emit row => row.wf
  | .ctxRelease queue => decide (queue < 78)
  | .frameJpeg row => row.wf
  | .frameRaw row => row.wf
  | .peerWrite queue => decide (queue < 78)
  | .peerFrameSend row => row.found.wf
  | .dataFrameReceived port _ => decide (port < 4)
  | .ackReceived port _ => decide (port < 4)
  | .nakReceived port _ => decide (port < 4)
  | .ackTimer _ => true
  | .retransmitTimeout row _ => row.found.wf
  | .pfcPauseReceived port _ => decide (port < 4)
  | .helloTimer port => decide (port < 4)
  | .helloReceived port _ => decide (port < 4)
  | .portTrainingDone port _ => decide (port < 4)
  | .portRetrainTimer port => decide (port < 4)
  | .portLinkLost port => decide (port < 4)
  | .peerRtoWrite _ => true
  | .channelTraining channel _ => decide (channel < 32)
  | .pageReadDone channel die _ supervision => decide (channel < 32) && decide (die < 32) && decide (supervision < 3)
  | .readRetryAttempt addr codeword _ => addr.wf && decide (codeword < 4)
  | .stripeRebuild addr codeword _ => addr.wf && decide (codeword < 4)
  | .programDone channel die _ => decide (channel < 32) && decide (die < 32)
  | .eraseDone channel die _ => decide (channel < 32) && decide (die < 32)
  | .operationResume channel die => decide (channel < 32) && decide (die < 32)
  | .busyTimeout channel die => decide (channel < 32) && decide (die < 32)
  | .targetResetDone channel die _ => decide (channel < 32) && decide (die < 32)
  | .programPromotion channel die => decide (channel < 32) && decide (die < 32)
  | .backgroundPromotion channel die => decide (channel < 32) && decide (die < 32)
  | .zoneCalibration channel die zone _ _ => decide (channel < 32) && decide (die < 32) && decide (zone < 128)
  | .mediaRrBudgetWrite _ => true
  | .norCtrlWrite _ => true
  | .norOpDone _ => true
  | .partialRowTimeout group => decide (group < 4)
  | .journalCheckpoint group => decide (group < 4)
  | .garbageCollection group => decide (group < 4)
  | .staticLevelling group => decide (group < 4)
  | .relocationSwitch _ => true
  | .superblockErase _ => true
  | .patrolStep channel die _ result => decide (channel < 32) && decide (die < 32) && decide (result < 5)
  | .cleanBlock tenant _ _ => decide (tenant < 16)
  | .watermarkEvaluate tenant watermark => (tenant.all fun t => decide (t < 16)) && decide (watermark < (if tenant.isSome then 8 else 26))
  | .wmLatchClear tenant watermark => (tenant.all fun t => decide (t < 16)) && decide (watermark < (if tenant.isSome then 8 else 26))
  | .wmMarkWrite tenant watermark _ => (tenant.all fun t => decide (t < 16)) && decide (watermark < (if tenant.isSome then 8 else 26))
  | .wmClrCount tenant watermark => (tenant.all fun t => decide (t < 16)) && decide (watermark < (if tenant.isSome then 8 else 26))
  | .tctrBump tenant _ => decide (tenant < 16)
  | .dramScrubStep stack _ => decide (stack < 4)
  | .sramScrubStep structure_ _ _ => decide (structure_ < 11)
  | .watchdogServe => true
  | .watchdogExpiry => true
  | .shieldRelease => true
  | .shieldTimeout => true
  | .settingsSave => true
  | .settingsClear => true
  | .monitorId => true
  | .monitorStatus => true
  | .monitorLog _ _ => true
  | .monitorReg _ => true
  | .monitorKeys => true
  | .monitorBaud _ => true
  | .monitorChallenge _ => true
  | .unlockOwner _ _ => true
  | .unlockVendor _ _ => true
  | .unlockPhysical => true
  | .monitorLock => true
  | .keyInstall _ _ _ => true
  | .keyRevoke _ => true
  | .monitorSettingsClear => true
  | .monitorReset => true
  | .monitorIdleTimeout => true
  | .nonceExpiry => true
  | .lockoutEnd => true
  | .jtagBypass _ => true
  | .jtagIdcode _ => true
  | .jtagSamplePreload _ _ => true
  | .jtagExtest _ => true
  | .registerWrite window _ bytes _ => window.wf && ([1, 2, 4, 8].contains bytes)
  | .plnGoesHigh => true
  | .temperatureThresholdCrossing _ => true
  | .monitorUnknownCommand _ => true

end Sys2Proof
end

