-- ==== Sys2Proof/Laws/PerInstr.lean ====
section
/-!
SUPPORT. PerInstr.lean: one lemma per constructor: a well-formed command that comes through a submission queue names one of the 17
functions, so its controller, or its tenant, is one the module has (R150).
-/

namespace Sys2Proof.Laws.Sender

/-- The sender of a well-formed command is one of the 17 functions, and a VF's tenant is one of 16. -/
def Statement (i : Instr) : Prop := i.wf = true → ∀ c, i.cmd? = some c → c.fn < 17 ∧ c.tenant < 16

/-- A row that carries no command says nothing. -/
theorem of_none {i : Instr} (h : i.cmd? = none) : Statement i := by
  intro _ c hc
  rw [h] at hc
  cases hc
/-- A row whose command names one of the 17 functions. -/
theorem of_cmd {i : Instr} {c : Cmd} (hc : i.cmd? = some c) (h : i.wf = true → c.fn < 17) : Statement i := by
  intro w d hd
  rw [hc] at hd
  cases hd
  refine ⟨h w, ?_⟩
  have := h w
  simp only [Cmd.tenant]
  omega
/-- The function that a command with an opcode comes from. -/
theorem names_fn {c : Cmd} {n : Nat} (h : c.names n = true) : c.fn < 17 := by
  simp only [Cmd.names, Bool.and_eq_true, decide_eq_true_eq] at h
  exact h.1
/-- See `names_fn`; the row also fixes a subcode. -/
theorem names_sub {c : Cmd} {n : Nat} {b : Bool} (h : (c.names n && b) = true) : c.fn < 17 := by
  simp only [Bool.and_eq_true] at h
  exact names_fn h.1

theorem powerOn : Statement .powerOn := of_none rfl
theorem aonRelease (slotId : BitVec 8) (slotOpen : BitVec 8) (bootSel : Bool) (plnLow : Bool) (sfdpOk : Bool) : Statement (.aonRelease slotId slotOpen bootSel plnLow sfdpOk) := of_none rfl
theorem railsUp : Statement .railsUp := of_none rfl
theorem firmwareBoot (badChunks : List (Nat × Nat)) : Statement (.firmwareBoot badChunks) := of_none rfl
theorem dramInitDone : Statement .dramInitDone := of_none rfl
theorem mapReplay : Statement .mapReplay := of_none rfl
theorem basePersonalityLoad (badFrames : List (Nat × Nat)) : Statement (.basePersonalityLoad badFrames) := of_none rfl
theorem linkUp (width : Nat) (rate : Nat) : Statement (.linkUp width rate) := of_none rfl
theorem cstsReady (fn : Nat) : Statement (.cstsReady fn) := of_none rfl
theorem holdupCharged : Statement .holdupCharged := of_none rfl
theorem holdupChargeTimeout : Statement .holdupChargeTimeout := of_none rfl
theorem holdupMeasure (tenthsMf : Nat) : Statement (.holdupMeasure tenthsMf) := of_none rfl
theorem inputUndervoltage : Statement .inputUndervoltage := of_none rfl
theorem plnFall : Statement .plnFall := of_none rfl
theorem pwrdisAssert : Statement .pwrdisAssert := of_none rfl
theorem pwrdisDeassert : Statement .pwrdisDeassert := of_none rfl
theorem p1Shed : Statement .p1Shed := of_none rfl
theorem p2Flush (failed : List (Nat × Nat)) : Statement (.p2Flush failed) := of_none rfl
theorem p3Metadata : Statement .p3Metadata := of_none rfl
theorem p4RailsDown (vin10mv : Nat) : Statement (.p4RailsDown vin10mv) := of_none rfl
theorem inputOvervoltage : Statement .inputOvervoltage := of_none rfl
theorem inputOvercurrent : Statement .inputOvercurrent := of_none rfl
theorem railTrip (r : Rail) : Statement (.railTrip r) := of_none rfl
theorem nandRailTrip (group : Nat) : Statement (.nandRailTrip group) := of_none rfl
theorem cageEfuseTrip (cage : Nat) : Statement (.cageEfuseTrip cage) := of_none rfl
theorem cablePresenceChange (cage : Nat) (present : Bool) (supported : Bool) : Statement (.cablePresenceChange cage present supported) := of_none rfl
theorem sidebandPinFault (pin : SidebandPin) : Statement (.sidebandPinFault pin) := of_none rfl
theorem refclkLoss : Statement .refclkLoss := of_none rfl
theorem powerSample (volts : Volts) (pin100mw : Nat) : Statement (.powerSample volts pin100mw) := of_none rfl
theorem powerCeilingLower : Statement .powerCeilingLower := of_none rfl
theorem powerCeilingRaise : Statement .powerCeilingRaise := of_none rfl
theorem coreClockStep : Statement .coreClockStep := of_none rfl
theorem thermalLevelEnter (tjMax : Nat) (coolantIn : Nat) (flowOk : Bool) : Statement (.thermalLevelEnter tjMax coolantIn flowOk) := of_none rfl
theorem thermalLevelLeave (tjMax : Nat) (coolantIn : Nat) (flowOk : Bool) : Statement (.thermalLevelLeave tjMax coolantIn flowOk) := of_none rfl
theorem thermalCeilingStep : Statement .thermalCeilingStep := of_none rfl
theorem flowLossTimeout : Statement .flowLossTimeout := of_none rfl
theorem dramRecalibration (stack : Nat) : Statement (.dramRecalibration stack) := of_none rfl
theorem perstAssert : Statement .perstAssert := of_none rfl
theorem perstDeassert : Statement .perstDeassert := of_none rfl
theorem hotReset : Statement .hotReset := of_none rfl
theorem controllerEnable (fn : Nat) (cc : Dword) : Statement (.controllerEnable fn cc) := of_none rfl
theorem controllerDisable (fn : Nat) (cc : Dword) : Statement (.controllerDisable fn cc) := of_none rfl
theorem shutdownNotification (fn : Nat) (cc : Dword) : Statement (.shutdownNotification fn cc) := of_none rfl
theorem functionLevelReset (fn : Nat) : Statement (.functionLevelReset fn) := of_none rfl
theorem vfEnableWrite (enable : Bool) : Statement (.vfEnableWrite enable) := of_none rfl
theorem sqTailDoorbell (fn : Nat) (qid : Nat) (value : Nat) : Statement (.sqTailDoorbell fn qid value) := of_none rfl
theorem cqHeadDoorbell (fn : Nat) (qid : Nat) (value : Nat) : Statement (.cqHeadDoorbell fn qid value) := of_none rfl
theorem commandFetch : Statement .commandFetch := of_none rfl
theorem commandTimeout (ref : CmdRef) : Statement (.commandTimeout ref) := of_none rfl
theorem createIoSq (c : Cmd) : Statement (.createIoSq c) := of_cmd rfl fun h => names_fn h
theorem deleteIoSq (c : Cmd) : Statement (.deleteIoSq c) := of_cmd rfl fun h => names_fn h
theorem createIoCq (c : Cmd) : Statement (.createIoCq c) := of_cmd rfl fun h => names_fn h
theorem deleteIoCq (c : Cmd) : Statement (.deleteIoCq c) := of_cmd rfl fun h => names_fn h
theorem getLogPage (c : Cmd) : Statement (.getLogPage c) := of_cmd rfl fun h => names_fn h
theorem identify (c : Cmd) : Statement (.identify c) := of_cmd rfl fun h => names_fn h
theorem abort (c : Cmd) : Statement (.abort c) := of_cmd rfl fun h => names_fn h
theorem setFeatures (c : Cmd) : Statement (.setFeatures c) := of_cmd rfl fun h => names_fn h
theorem setArbitration (c : Cmd) : Statement (.setArbitration c) := of_cmd rfl fun h => names_sub h
theorem setCommandTimeouts (c : Cmd) : Statement (.setCommandTimeouts c) := of_cmd rfl fun h => names_sub h
theorem setDeadlineFloor (c : Cmd) : Statement (.setDeadlineFloor c) := of_cmd rfl fun h => names_sub h
theorem getFeatures (c : Cmd) : Statement (.getFeatures c) := of_cmd rfl fun h => names_fn h
theorem asynchronousEventRequest (c : Cmd) : Statement (.asynchronousEventRequest c) := of_cmd rfl fun h => names_fn h
theorem namespaceManagement (c : Cmd) : Statement (.namespaceManagement c) := of_cmd rfl fun h => names_fn h
theorem namespaceAttachment (c : Cmd) : Statement (.namespaceAttachment c) := of_cmd rfl fun h => names_fn h
theorem formatNvm (c : Cmd) : Statement (.formatNvm c) := of_cmd rfl fun h => names_fn h
theorem sanitize (c : Cmd) : Statement (.sanitize c) := of_cmd rfl fun h => names_fn h
theorem firmwareImageDownload (c : Cmd) : Statement (.firmwareImageDownload c) := of_cmd rfl fun h => names_fn h
theorem firmwareCommit (c : Cmd) : Statement (.firmwareCommit c) := of_cmd rfl fun h => names_fn h
theorem deviceSelfTest (c : Cmd) : Statement (.deviceSelfTest c) := of_cmd rfl fun h => names_fn h
theorem selfTestComplete (failedSegment : Option Nat) : Statement (.selfTestComplete failedSegment) := of_none rfl
theorem flush (c : Cmd) : Statement (.flush c) := of_cmd rfl fun h => names_fn h
theorem write (c : Cmd) : Statement (.write c) := of_cmd rfl fun h => names_fn h
theorem read (c : Cmd) : Statement (.read c) := of_cmd rfl fun h => names_fn h
theorem datasetManagement (c : Cmd) : Statement (.datasetManagement c) := of_cmd rfl fun h => names_fn h
theorem miReadDataStructure (dtype : Nat) (portId : Nat) (ctrlId : Nat) : Statement (.miReadDataStructure dtype portId ctrlId) := of_none rfl
theorem miSubsystemHealthPoll (clear : Bool) : Statement (.miSubsystemHealthPoll clear) := of_none rfl
theorem miControllerHealthPoll (first : Nat) (max : Nat) (clear : Bool) : Statement (.miControllerHealthPoll first max clear) := of_none rfl
theorem miConfigurationGet (config : Nat) (port : Nat) : Statement (.miConfigurationGet config port) := of_none rfl
theorem miConfigurationSet (config : Nat) (port : Nat) (value : Nat) : Statement (.miConfigurationSet config port value) := of_none rfl
theorem miVpdRead (offset : Nat) (length : Nat) : Statement (.miVpdRead offset length) := of_none rfl
theorem miTunneledAdmin (c : Cmd) : Statement (.miTunneledAdmin c) := of_cmd rfl fun h => Nat.lt_of_le_of_lt (Nat.le_of_eq (of_decide_eq_true h)) (by decide)
theorem loadPersonality (c : Cmd) : Statement (.loadPersonality c) := of_cmd rfl fun h => names_fn h
theorem activateOwner (c : Cmd) : Statement (.activateOwner c) := of_cmd rfl fun h => names_fn h
theorem commitBase (c : Cmd) : Statement (.commitBase c) := of_cmd rfl fun h => names_sub h
theorem discard (c : Cmd) : Statement (.discard c) := of_cmd rfl fun h => names_sub h
theorem exchangeRegion (c : Cmd) : Statement (.exchangeRegion c) := of_cmd rfl fun h => names_fn h
theorem exchangeDrainEnd : Statement .exchangeDrainEnd := of_none rfl
theorem exchangeDrainTimeout : Statement .exchangeDrainTimeout := of_none rfl
theorem configWriteDone (badFrames : List (Nat × Nat)) : Statement (.configWriteDone badFrames) := of_none rfl
theorem personalityStatus (c : Cmd) : Statement (.personalityStatus c) := of_cmd rfl fun h => names_fn h
theorem persDeadlineWrite (value : Dword) : Statement (.persDeadlineWrite value) := of_none rfl
theorem ownerDeadlineExpiry : Statement .ownerDeadlineExpiry := of_none rfl
theorem shellTimerExpiry (slice : Nat) (timer : Nat) (taken : Bool) : Statement (.shellTimerExpiry slice timer taken) := of_none rfl
theorem configScrubPass (upsets : List (Nat × Nat × Nat)) : Statement (.configScrubPass upsets) := of_none rfl
theorem retire (c : Cmd) (lost : List Nat) : Statement (.retire c lost) := of_cmd rfl fun h => names_fn h
theorem moduleReset (c : Cmd) : Statement (.moduleReset c) := of_cmd rfl fun h => names_fn h
theorem moduleResetStart : Statement .moduleResetStart := of_none rfl
theorem admitModel (c : Cmd) : Statement (.admitModel c) := of_cmd rfl fun h => names_fn h
theorem release (c : Cmd) : Statement (.release c) := of_cmd rfl fun h => names_fn h
theorem invoke (c : Cmd) : Statement (.invoke c) := of_cmd rfl fun h => names_fn h
theorem search (c : Cmd) : Statement (.search c) := of_cmd rfl fun h => names_fn h
theorem extract (c : Cmd) : Statement (.extract c) := of_cmd rfl fun h => names_fn h
theorem service (c : Cmd) : Statement (.service c) := of_cmd rfl fun h => names_fn h
theorem alloc (c : Cmd) : Statement (.alloc c) := of_cmd rfl fun h => names_fn h
theorem free (c : Cmd) : Statement (.free c) := of_cmd rfl fun h => names_fn h
theorem counterRead (c : Cmd) : Statement (.counterRead c) := of_cmd rfl fun h => names_sub h
theorem counterBump (c : Cmd) : Statement (.counterBump c) := of_cmd rfl fun h => names_sub h
theorem counterWaitGe (c : Cmd) : Statement (.counterWaitGe c) := of_cmd rfl fun h => names_sub h
theorem counterWaitSatisfied (ref : CmdRef) : Statement (.counterWaitSatisfied ref) := of_none rfl
theorem runBegin (c : Cmd) : Statement (.runBegin c) := of_cmd rfl fun h => names_sub h
theorem runEnd (c : Cmd) : Statement (.runEnd c) := of_cmd rfl fun h => names_sub h
theorem publishBegin (c : Cmd) : Statement (.publishBegin c) := of_cmd rfl fun h => names_sub h
theorem publishData (c : Cmd) : Statement (.publishData c) := of_cmd rfl fun h => names_sub h
theorem publishVerify (c : Cmd) : Statement (.publishVerify c) := of_cmd rfl fun h => names_sub h
theorem publishCommit (c : Cmd) : Statement (.publishCommit c) := of_cmd rfl fun h => names_sub h
theorem publishAbandon (c : Cmd) : Statement (.publishAbandon c) := of_cmd rfl fun h => names_sub h
theorem mediaWrite (c : Cmd) : Statement (.mediaWrite c) := of_cmd rfl fun h => names_fn h
theorem mediaRead (c : Cmd) : Statement (.mediaRead c) := of_cmd rfl fun h => names_fn h
theorem mediaErase (c : Cmd) : Statement (.mediaErase c) := of_cmd rfl fun h => names_fn h
theorem invocationAssign (tenant : Nat) (slot : Nat) : Statement (.invocationAssign tenant slot) := of_none rfl
theorem invocationDrained (spindle : Nat) : Statement (.invocationDrained spindle) := of_none rfl
theorem invocationPersisted (spindle : Nat) : Statement (.invocationPersisted spindle) := of_none rfl
theorem spindleIssueWord (spindle : Nat) : Statement (.spindleIssueWord spindle) := of_none rfl
theorem slotStallReleased (spindle : Nat) : Statement (.slotStallReleased spindle) := of_none rfl
theorem controlWaitPassed (spindle : Nat) : Statement (.controlWaitPassed spindle) := of_none rfl
theorem endOp (spindle : Nat) : Statement (.endOp spindle) := of_none rfl
theorem loop (spindle : Nat) : Statement (.loop spindle) := of_none rfl
theorem endloop (spindle : Nat) : Statement (.endloop spindle) := of_none rfl
theorem call (spindle : Nat) : Statement (.call spindle) := of_none rfl
theorem ret (spindle : Nat) : Statement (.ret spindle) := of_none rfl
theorem wait (spindle : Nat) : Statement (.wait spindle) := of_none rfl
theorem bump (spindle : Nat) : Statement (.bump spindle) := of_none rfl
theorem branchCtr (spindle : Nat) : Statement (.branchCtr spindle) := of_none rfl
theorem engineArbitrate (queue : Nat) : Statement (.engineArbitrate queue) := of_none rfl
theorem engineCommandEnd (queue : Nat) : Statement (.engineCommandEnd queue) := of_none rfl
theorem engineInternalFault (queue : Nat) : Statement (.engineInternalFault queue) := of_none rfl
theorem engineBist (queue : Nat) (pass : Bool) : Statement (.engineBist queue pass) := of_none rfl
theorem copy (queue : Nat) (found : Reads) : Statement (.copy queue found) := of_none rfl
theorem fillPattern (queue : Nat) : Statement (.fillPattern queue) := of_none rfl
theorem gather (queue : Nat) (found : Reads) : Statement (.gather queue found) := of_none rfl
theorem bringUpStart (queue : Nat) (index : Nat) : Statement (.bringUpStart queue index) := of_none rfl
theorem mma (row : EngineRow) : Statement (.mma row) := of_none rfl
theorem accZero (queue : Nat) : Statement (.accZero queue) := of_none rfl
theorem accLoad (row : EngineRow) : Statement (.accLoad row) := of_none rfl
theorem tile (row : EngineRow) : Statement (.tile row) := of_none rfl
theorem tileReduce (row : EngineRow) : Statement (.tileReduce row) := of_none rfl
theorem softmax (row : EngineRow) : Statement (.softmax row) := of_none rfl
theorem stream (row : EngineRow) : Statement (.stream row) := of_none rfl
theorem streamReduce (row : EngineRow) : Statement (.streamReduce row) := of_none rfl
theorem maskSet (row : EngineRow) : Statement (.maskSet row) := of_none rfl
theorem gougeRelease (queue : Nat) : Statement (.gougeRelease queue) := of_none rfl
theorem listMerge (row : EngineRow) : Statement (.listMerge row) := of_none rfl
theorem listEmit (row : EngineRow) : Statement (.listEmit row) := of_none rfl
theorem loadCtx (row : EngineRow) : Statement (.loadCtx row) := of_none rfl
theorem scan (queue : Nat) (run : ScanRow) : Statement (.scan queue run) := of_none rfl
theorem scanReadAhead (queue : Nat) (index : Nat) : Statement (.scanReadAhead queue index) := of_none rfl
theorem emit (row : EngineRow) : Statement (.emit row) := of_none rfl
theorem ctxRelease (queue : Nat) : Statement (.ctxRelease queue) := of_none rfl
theorem frameJpeg (row : EngineRow) : Statement (.frameJpeg row) := of_none rfl
theorem frameRaw (row : EngineRow) : Statement (.frameRaw row) := of_none rfl
theorem peerWrite (queue : Nat) : Statement (.peerWrite queue) := of_none rfl
theorem peerFrameSend (row : FlowRow) : Statement (.peerFrameSend row) := of_none rfl
theorem dataFrameReceived (port : Nat) (frame : PeerFrame) : Statement (.dataFrameReceived port frame) := of_none rfl
theorem ackReceived (port : Nat) (frame : PeerFrame) : Statement (.ackReceived port frame) := of_none rfl
theorem nakReceived (port : Nat) (frame : PeerFrame) : Statement (.nakReceived port frame) := of_none rfl
theorem ackTimer (flow : Nat) : Statement (.ackTimer flow) := of_none rfl
theorem retransmitTimeout (row : FlowRow) (seq : Nat) : Statement (.retransmitTimeout row seq) := of_none rfl
theorem pfcPauseReceived (port : Nat) (pause : Bool) : Statement (.pfcPauseReceived port pause) := of_none rfl
theorem helloTimer (port : Nat) : Statement (.helloTimer port) := of_none rfl
theorem helloReceived (port : Nat) (frame : PeerFrame) : Statement (.helloReceived port frame) := of_none rfl
theorem portTrainingDone (port : Nat) (linked : Bool) : Statement (.portTrainingDone port linked) := of_none rfl
theorem portRetrainTimer (port : Nat) : Statement (.portRetrainTimer port) := of_none rfl
theorem portLinkLost (port : Nat) : Statement (.portLinkLost port) := of_none rfl
theorem peerRtoWrite (value : Dword) : Statement (.peerRtoWrite value) := of_none rfl
theorem channelTraining (channel : Nat) (works : Option Nat) : Statement (.channelTraining channel works) := of_none rfl
theorem pageReadDone (channel : Nat) (die : Nat) (failing : List Nat) (supervision : Nat) : Statement (.pageReadDone channel die failing supervision) := of_none rfl
theorem readRetryAttempt (addr : PageAddr) (codeword : Nat) (decodes : Bool) : Statement (.readRetryAttempt addr codeword decodes) := of_none rfl
theorem stripeRebuild (addr : PageAddr) (codeword : Nat) (recovered : Bool) : Statement (.stripeRebuild addr codeword recovered) := of_none rfl
theorem programDone (channel : Nat) (die : Nat) (failing : List Nat) : Statement (.programDone channel die failing) := of_none rfl
theorem eraseDone (channel : Nat) (die : Nat) (failing : List Nat) : Statement (.eraseDone channel die failing) := of_none rfl
theorem operationResume (channel : Nat) (die : Nat) : Statement (.operationResume channel die) := of_none rfl
theorem busyTimeout (channel : Nat) (die : Nat) : Statement (.busyTimeout channel die) := of_none rfl
theorem targetResetDone (channel : Nat) (die : Nat) (ready : Bool) : Statement (.targetResetDone channel die ready) := of_none rfl
theorem programPromotion (channel : Nat) (die : Nat) : Statement (.programPromotion channel die) := of_none rfl
theorem backgroundPromotion (channel : Nat) (die : Nat) : Statement (.backgroundPromotion channel die) := of_none rfl
theorem zoneCalibration (channel : Nat) (die : Nat) (zone : Nat) (page : Nat) (set : Nat) : Statement (.zoneCalibration channel die zone page set) := of_none rfl
theorem mediaRrBudgetWrite (value : Dword) : Statement (.mediaRrBudgetWrite value) := of_none rfl
theorem norCtrlWrite (value : Dword) : Statement (.norCtrlWrite value) := of_none rfl
theorem norOpDone (verified : Bool) : Statement (.norOpDone verified) := of_none rfl
theorem partialRowTimeout (group : Nat) : Statement (.partialRowTimeout group) := of_none rfl
theorem journalCheckpoint (group : Nat) : Statement (.journalCheckpoint group) := of_none rfl
theorem garbageCollection (group : Nat) : Statement (.garbageCollection group) := of_none rfl
theorem staticLevelling (group : Nat) : Statement (.staticLevelling group) := of_none rfl
theorem relocationSwitch (superblock : Nat) : Statement (.relocationSwitch superblock) := of_none rfl
theorem superblockErase (superblock : Nat) : Statement (.superblockErase superblock) := of_none rfl
theorem patrolStep (channel : Nat) (die : Nat) (worstBits : Nat) (result : Nat) : Statement (.patrolStep channel die worstBits result) := of_none rfl
theorem cleanBlock (tenant : Nat) (buffer : Nat) (block : Nat) : Statement (.cleanBlock tenant buffer block) := of_none rfl
theorem watermarkEvaluate (tenant : Option Nat) (w : Nat) : Statement (.watermarkEvaluate tenant w) := of_none rfl
theorem wmLatchClear (tenant : Option Nat) (w : Nat) : Statement (.wmLatchClear tenant w) := of_none rfl
theorem wmMarkWrite (tenant : Option Nat) (w : Nat) (value : Dword) : Statement (.wmMarkWrite tenant w value) := of_none rfl
theorem wmClrCount (tenant : Option Nat) (w : Nat) : Statement (.wmClrCount tenant w) := of_none rfl
theorem tctrBump (tenant : Nat) (value : Qword) : Statement (.tctrBump tenant value) := of_none rfl
theorem dramScrubStep (stack : Nat) (errors : BlockErrors) : Statement (.dramScrubStep stack errors) := of_none rfl
theorem sramScrubStep (structure_ : Nat) (word : Nat) (badBits : List Nat) : Statement (.sramScrubStep structure_ word badBits) := of_none rfl
theorem watchdogServe : Statement .watchdogServe := of_none rfl
theorem watchdogExpiry : Statement .watchdogExpiry := of_none rfl
theorem shieldRelease : Statement .shieldRelease := of_none rfl
theorem shieldTimeout : Statement .shieldTimeout := of_none rfl
theorem settingsSave : Statement .settingsSave := of_none rfl
theorem settingsClear : Statement .settingsClear := of_none rfl
theorem monitorId : Statement .monitorId := of_none rfl
theorem monitorStatus : Statement .monitorStatus := of_none rfl
theorem monitorLog (page : Nat) (count : Option Nat) : Statement (.monitorLog page count) := of_none rfl
theorem monitorReg (offset : Nat) : Statement (.monitorReg offset) := of_none rfl
theorem monitorKeys : Statement .monitorKeys := of_none rfl
theorem monitorBaud (rate : Nat) : Statement (.monitorBaud rate) := of_none rfl
theorem monitorChallenge (nonce : BitVec 256) : Statement (.monitorChallenge nonce) := of_none rfl
theorem unlockOwner (slot : Nat) (tag : BitVec 384) : Statement (.unlockOwner slot tag) := of_none rfl
theorem unlockVendor (r : BitVec 384) (v : BitVec 384) : Statement (.unlockVendor r v) := of_none rfl
theorem unlockPhysical : Statement .unlockPhysical := of_none rfl
theorem monitorLock : Statement .monitorLock := of_none rfl
theorem keyInstall (slot : Nat) (keyId : Qword) (key : BitVec 384) : Statement (.keyInstall slot keyId key) := of_none rfl
theorem keyRevoke (slot : Nat) : Statement (.keyRevoke slot) := of_none rfl
theorem monitorSettingsClear : Statement .monitorSettingsClear := of_none rfl
theorem monitorReset : Statement .monitorReset := of_none rfl
theorem monitorIdleTimeout : Statement .monitorIdleTimeout := of_none rfl
theorem nonceExpiry : Statement .nonceExpiry := of_none rfl
theorem lockoutEnd : Statement .lockoutEnd := of_none rfl
theorem jtagBypass (tdi : List Bool) : Statement (.jtagBypass tdi) := of_none rfl
theorem jtagIdcode (count : Nat) : Statement (.jtagIdcode count) := of_none rfl
theorem jtagSamplePreload (pins : List Bool) (tdi : List Bool) : Statement (.jtagSamplePreload pins tdi) := of_none rfl
theorem jtagExtest (tdi : List Bool) : Statement (.jtagExtest tdi) := of_none rfl
theorem registerWrite (window : Window) (offset : Nat) (bytes : Nat) (value : Qword) : Statement (.registerWrite window offset bytes value) := of_none rfl
theorem plnGoesHigh : Statement .plnGoesHigh := of_none rfl
theorem temperatureThresholdCrossing (kelvin : Nat) : Statement (.temperatureThresholdCrossing kelvin) := of_none rfl
theorem monitorUnknownCommand (length : Nat) : Statement (.monitorUnknownCommand length) := of_none rfl

end Sys2Proof.Laws.Sender
end

