-- ==== Sys2Proof/Tests/Slice0.lean ====
section
/-!
SUPPORT. Slice0.lean: the smoke test of the well-formedness checks, values that the spec states, and for every statement that has
hypotheses a witness: a concrete state and operands that meet them, clause by clause, at the edges of their ranges.
-/

set_option Elab.async false
set_option maxRecDepth 100000

namespace Sys2Proof.Tests

open Sys2Proof Sys2Proof.Machine Sys2Proof.Safety

/-! ### The small states that the witnesses stand on -/

/-- A command with its opcode, function, queue and dwords 10 to 14, and identifier 7. -/
def cmd (op fn sqid : Nat) (d10 d11 d12 d13 d14 nsid : Nat := 0) : Cmd :=
  { fn := fn, sqid := sqid, cdw0 := BitVec.ofNat 32 (op + 65536 * 7), nsid := BitVec.ofNat 32 nsid
    cdw10 := BitVec.ofNat 32 d10, cdw11 := BitVec.ofNat 32 d11, cdw12 := BitVec.ofNat 32 d12
    cdw13 := BitVec.ofNat 32 d13, cdw14 := BitVec.ofNat 32 d14 }
/-- A controller that is ready: its admin queue, compute queue 1 and storage queue 2. -/
def demoCtrl : Ctrl :=
  { ready := true, cc := 1
    sqs := [{ qid := 0, base := 0x10000, size := 32 }, { qid := 1, base := 0x20000, size := 32, cqid := 1, compute := true },
      { qid := 2, base := 0x30000, size := 32, cqid := 2 }]
    cqs := [{ qid := 0, base := 0x40000, size := 32 }, { qid := 1, base := 0x50000, size := 32 },
      { qid := 2, base := 0x60000, size := 32 }] }
/-- The record of the one tenant. -/
def demoRec : TenantRec :=
  { spindles := 2, queuePairs := 2, queueSlots := 4, counterBase := 0, counterCount := 16, tileGranules := 16
    groupMask := 0xE1, weights := { dma := 1, lathe := 1, gouge := 1, rasp := 1, burl := 1, peer := 1 }
    dramPinned := 64, dramWriteback := 64, dramScratch := 64, dramRocache := 64, spillGranules := 1
    readonlyExtents := 4, nsUnits := 1 }
/-- Group 0 is INDEX, the others are LOG; flow 0 goes to flow 0 of module 0 through port 0. -/
def demoStructure : Structure :=
  { groupRole := [.index, .log, .log, .log], ownerQueuePairs := 2, systemId := 5, ownerNsUnits := 1
    tenants := [demoRec], flows := [{ flow := 0, tenant := 0, portMask := 1, remoteModule := 0, remoteFlow := 0 }] }
/-- A module at work: powered, charged, with its base personality, firmware of slot A, one VF with an open run. -/
def demo : State :=
  { power := { aonReleased := true, railsUp := true, dramReady := true, linkUp := true, linkWidth := 16, charged := true
               writeThrough := false, capGood := true }
    pers := { active := demoStructure, activeKind := 1, baseSlot := 0, inPlace := true, armedAt := some 0 }
    pcie := { vfEnable := true, numVfs := 1, ctrls := List.replicate 17 demoCtrl }
    svc := { runSlot := 0, running := true, dataPath := true }
    media := { groups := List.replicate 4 { mapLoaded := true } }
    peer := { ports := List.replicate 4 { state := .up } }
    tenants := [{ runOpen := true }] }
/-- The same with its power block changed. -/
def demoP (f : Power → Power) : State := { demo with power := f demo.power }
/-- The module with one controller changed. -/
def demoC (fn : Nat) (f : Ctrl → Ctrl) : State := demo.modCtrl fn f
/-- A command that the controller holds, in the place of `cmd`. -/
def demoHeld (c : Cmd) (started : Bool) : State := demoC c.fn fun k => { k with outstanding := [{ cmd := c, fetchedAt := 0, started := started }] }
/-- `Held`, as a program. -/
def heldB (s : State) (r : CmdRef) : Bool := s.power.stage == .on && (s.ctrl r.fn).outstanding.any fun o => o.cmd.ref == r
/-- The state in which a command's own checks run. -/
def begun (s : State) (c : Cmd) : State := (s.begin c).getD s

/-- `Fresh`, as a program. -/
def freshB (s : State) (r : CmdRef) : Bool :=
  (s.media.flushes.all fun p => p.ref != r) && (s.media.reads.all fun p => p.ref != r)
    && (s.media.buffer.all fun b => b.waiter != some r) && (s.media.jobs.all fun j => j.kind != .publish r)
    && (s.invocations.all fun i => i.ref != r) && s.tenants.all fun x => x.ending != some r
theorem fresh_of {s : State} {r : CmdRef} (h : freshB s r = true) : Fresh s r := by
  simpa [freshB, Fresh, and_assoc, List.all_eq_true] using h
/-- `Starts`, as a program. -/
def startsB (s : State) (c : Cmd) (k : CmdKind) : Bool :=
  (s.begin c).isSome && freshB s c.ref && ((begun s c).refusal c k).isNone && (k != .nvm || ((begun s c).gatedBy c).isNone)
theorem starts_of {s : State} {c : Cmd} {k : CmdKind} (h : startsB s c k = true) : Starts s c k (begun s c) := by
  simp only [startsB, Bool.and_eq_true, Option.isNone_iff_eq_none, Bool.or_eq_true] at h
  obtain ⟨⟨⟨h1, h2⟩, h3⟩, h4⟩ := h
  obtain ⟨t, ht⟩ := Option.isSome_iff_exists.mp h1
  have hb : begun s c = t := by simp [begun, ht]
  refine ⟨hb ▸ ht, fresh_of h2, h3, fun hk => ?_⟩
  rcases h4 with h4 | h4
  · simp [hk] at h4
  · exact h4
/-- `StartsVendor` without further checks, as a program. -/
def vendorB (s : State) (c : Cmd) (owner needsRun : Bool) : Bool :=
  (s.begin c).isSome && freshB s c.ref && ((begun s c).vendorRefusal c owner).isNone
    && (!needsRun || ((begun s c).tenant (c.fn - 1)).runOpen)
theorem vendor_of {s : State} {c : Cmd} {owner needsRun : Bool} (h : vendorB s c owner needsRun = true) :
    StartsVendor s c owner needsRun (fun _ => none) (begun s c) := by
  simp only [vendorB, Bool.and_eq_true, Option.isNone_iff_eq_none, Bool.or_eq_true, Bool.not_eq_true'] at h
  obtain ⟨⟨⟨h1, h2⟩, h3⟩, h4⟩ := h
  obtain ⟨t, ht⟩ := Option.isSome_iff_exists.mp h1
  have hb : begun s c = t := by simp [begun, ht]
  refine ⟨hb ▸ ht, fresh_of h2, h3, rfl, fun hr => ?_⟩
  rcases h4 with h4 | h4
  · rw [hr] at h4; cases h4
  · exact h4

/-! ### The smoke test of `WellFormed`: each list holds terms that a check refuses -/

theorem test_wf_refuses_0 : ([
  .cstsReady 17, .nandRailTrip 4, .cageEfuseTrip 2, .cablePresenceChange 2 false false, .dramRecalibration 4, .controllerEnable 17 0,
  .controllerDisable 17 0, .shutdownNotification 17 0, .functionLevelReset 17, .sqTailDoorbell 17 0 0, .cqHeadDoorbell 17 0 0,
  .commandTimeout { fn := 17, sqid := 0, cid := 0 }, .createIoSq { cdw0 := 0x00 }, .createIoSq { fn := 17, cdw0 := 0x01 },
  .deleteIoSq { cdw0 := 0x01 }, .deleteIoSq { fn := 17, cdw0 := 0x00 }, .createIoCq { cdw0 := 0x04 }, .createIoCq { fn := 17, cdw0 := 0x05 },
  .deleteIoCq { cdw0 := 0x05 }, .deleteIoCq { fn := 17, cdw0 := 0x04 }, .getLogPage { cdw0 := 0x03 }, .getLogPage { fn := 17, cdw0 := 0x02 },
  .identify { cdw0 := 0x07 }, .identify { fn := 17, cdw0 := 0x06 }, .abort { cdw0 := 0x09 }, .abort { fn := 17, cdw0 := 0x08 },
  .setFeatures { cdw0 := 0x08 }, .setFeatures { fn := 17, cdw0 := 0x09 }, .setArbitration { cdw0 := 0x08 }, .setArbitration { fn := 17, cdw0 := 0x09 }] : List Instr).all (fun i => i.wf == false) = true := by decide +kernel
theorem test_wf_refuses_1 : ([
  .setArbitration { cdw0 := 0x09, cdw10 := 0 }, .setCommandTimeouts { cdw0 := 0x08 }, .setCommandTimeouts { fn := 17, cdw0 := 0x09 },
  .setCommandTimeouts { cdw0 := 0x09, cdw10 := 193 }, .setDeadlineFloor { cdw0 := 0x08 }, .setDeadlineFloor { fn := 17, cdw0 := 0x09 },
  .setDeadlineFloor { cdw0 := 0x09, cdw10 := 192 }, .getFeatures { cdw0 := 0x0B }, .getFeatures { fn := 17, cdw0 := 0x0A },
  .asynchronousEventRequest { cdw0 := 0x0D }, .asynchronousEventRequest { fn := 17, cdw0 := 0x0C }, .namespaceManagement { cdw0 := 0x0C },
  .namespaceManagement { fn := 17, cdw0 := 0x0D }, .namespaceAttachment { cdw0 := 0x14 }, .namespaceAttachment { fn := 17, cdw0 := 0x15 },
  .formatNvm { cdw0 := 0x81 }, .formatNvm { fn := 17, cdw0 := 0x80 }, .sanitize { cdw0 := 0x85 }, .sanitize { fn := 17, cdw0 := 0x84 },
  .firmwareImageDownload { cdw0 := 0x10 }, .firmwareImageDownload { fn := 17, cdw0 := 0x11 }, .firmwareCommit { cdw0 := 0x11 },
  .firmwareCommit { fn := 17, cdw0 := 0x10 }, .deviceSelfTest { cdw0 := 0x15 }, .deviceSelfTest { fn := 17, cdw0 := 0x14 }, .flush { cdw0 := 0x01 },
  .flush { fn := 17, cdw0 := 0x00 }, .write { cdw0 := 0x00 }, .write { fn := 17, cdw0 := 0x01 }, .read { cdw0 := 0x03 }] : List Instr).all (fun i => i.wf == false) = true := by decide +kernel
theorem test_wf_refuses_2 : ([
  .read { fn := 17, cdw0 := 0x02 }, .datasetManagement { cdw0 := 0x08 }, .datasetManagement { fn := 17, cdw0 := 0x09 }, .miConfigurationGet 0 4,
  .miConfigurationSet 0 4 0, .miTunneledAdmin { fn := 1 }, .loadPersonality { cdw0 := 0xC0 }, .loadPersonality { fn := 17, cdw0 := 0xC1 },
  .activateOwner { cdw0 := 0xC5 }, .activateOwner { fn := 17, cdw0 := 0xC4 }, .commitBase { cdw0 := 0xC5 }, .commitBase { fn := 17, cdw0 := 0xC4 },
  .commitBase { cdw0 := 0xC4, cdw10 := 0 }, .discard { cdw0 := 0xC5 }, .discard { fn := 17, cdw0 := 0xC4 }, .discard { cdw0 := 0xC4, cdw10 := 3 },
  .exchangeRegion { cdw0 := 0xC4 }, .exchangeRegion { fn := 17, cdw0 := 0xC5 }, .personalityStatus { cdw0 := 0xC7 },
  .personalityStatus { fn := 17, cdw0 := 0xC6 }, .shellTimerExpiry 32 0 false, .shellTimerExpiry 0 16 false, .retire { cdw0 := 0xC9 } [],
  .retire { fn := 17, cdw0 := 0xC8 } [], .moduleReset { cdw0 := 0xCD }, .moduleReset { fn := 17, cdw0 := 0xCC }, .admitModel { cdw0 := 0x80 },
  .admitModel { fn := 17, cdw0 := 0x81 }, .release { cdw0 := 0x85 }, .release { fn := 17, cdw0 := 0x84 }] : List Instr).all (fun i => i.wf == false) = true := by decide +kernel
theorem test_wf_refuses_3 : ([
  .invoke { cdw0 := 0x8A }, .invoke { fn := 17, cdw0 := 0x8B }, .search { cdw0 := 0x8E }, .search { fn := 17, cdw0 := 0x8F },
  .extract { cdw0 := 0x92 }, .extract { fn := 17, cdw0 := 0x93 }, .service { cdw0 := 0xAA }, .service { fn := 17, cdw0 := 0xAB },
  .alloc { cdw0 := 0x95 }, .alloc { fn := 17, cdw0 := 0x94 }, .free { cdw0 := 0x99 }, .free { fn := 17, cdw0 := 0x98 },
  .counterRead { cdw0 := 0x9D }, .counterRead { fn := 17, cdw0 := 0x9C }, .counterRead { cdw0 := 0x9C, cdw10 := 1 }, .counterBump { cdw0 := 0x9D },
  .counterBump { fn := 17, cdw0 := 0x9C }, .counterBump { cdw0 := 0x9C, cdw10 := 0 }, .counterWaitGe { cdw0 := 0x9D },
  .counterWaitGe { fn := 17, cdw0 := 0x9C }, .counterWaitGe { cdw0 := 0x9C, cdw10 := 3 }, .counterWaitSatisfied { fn := 17, sqid := 0, cid := 0 },
  .runBegin { cdw0 := 0xA5 }, .runBegin { fn := 17, cdw0 := 0xA4 }, .runBegin { cdw0 := 0xA4, cdw10 := 1 }, .runEnd { cdw0 := 0xA5 },
  .runEnd { fn := 17, cdw0 := 0xA4 }, .runEnd { cdw0 := 0xA4, cdw10 := 0 }, .publishBegin { cdw0 := 0xA0 }, .publishBegin { fn := 17, cdw0 := 0xA1 }] : List Instr).all (fun i => i.wf == false) = true := by decide +kernel
theorem test_wf_refuses_4 : ([
  .publishBegin { cdw0 := 0xA1, cdw10 := 1 }, .publishData { cdw0 := 0xA0 }, .publishData { fn := 17, cdw0 := 0xA1 },
  .publishData { cdw0 := 0xA1, cdw10 := 0 }, .publishVerify { cdw0 := 0xA0 }, .publishVerify { fn := 17, cdw0 := 0xA1 },
  .publishVerify { cdw0 := 0xA1, cdw10 := 3 }, .publishCommit { cdw0 := 0xA0 }, .publishCommit { fn := 17, cdw0 := 0xA1 },
  .publishCommit { cdw0 := 0xA1, cdw10 := 2 }, .publishAbandon { cdw0 := 0xA0 }, .publishAbandon { fn := 17, cdw0 := 0xA1 },
  .publishAbandon { cdw0 := 0xA1, cdw10 := 5 }, .mediaWrite { cdw0 := 0xB0 }, .mediaWrite { fn := 17, cdw0 := 0xB1 }, .mediaRead { cdw0 := 0xB3 },
  .mediaRead { fn := 17, cdw0 := 0xB2 }, .mediaErase { cdw0 := 0xB5 }, .mediaErase { fn := 17, cdw0 := 0xB4 }, .invocationAssign 16 0,
  .invocationAssign 0 64, .invocationDrained 64, .invocationPersisted 64, .spindleIssueWord 64, .slotStallReleased 64, .controlWaitPassed 64,
  .endOp 64, .loop 64, .endloop 64, .call 64] : List Instr).all (fun i => i.wf == false) = true := by decide +kernel
theorem test_wf_refuses_5 : ([
  .ret 64, .wait 64, .bump 64, .branchCtr 64, .engineArbitrate 78, .engineCommandEnd 78, .engineInternalFault 78, .engineBist 78 false, .copy 78 {},
  .copy 0 ⟨[{ stack := 4, block := 0, errors := {} }], []⟩, .copy 0 ⟨[], [{ structure_ := 11, word := 0, bits := [] }]⟩, .fillPattern 78, .gather 78 {},
  .gather 0 ⟨[{ stack := 0, block := 0, errors := { first := [288] } }], []⟩, .gather 0 ⟨[], [{ structure_ := 0, word := 0, bits := [72] }]⟩,
  .bringUpStart 78 0, .mma ⟨78, []⟩, .accZero 78, .accLoad ⟨78, []⟩, .tile ⟨78, []⟩, .tileReduce ⟨78, []⟩, .softmax ⟨78, []⟩, .stream ⟨78, []⟩, .streamReduce ⟨78, []⟩,
  .maskSet ⟨78, []⟩, .gougeRelease 78, .listMerge ⟨78, []⟩, .listEmit ⟨78, []⟩, .loadCtx ⟨78, []⟩, .scan 78 {}, .scanReadAhead 78 0, .emit ⟨78, []⟩] : List Instr).all (fun i => i.wf == false) = true := by decide +kernel
theorem test_wf_refuses_6 : ([
  .mma ⟨0, [{ structure_ := 11, word := 0, bits := [] }]⟩, .accLoad ⟨0, [{ structure_ := 0, word := 0, bits := [72] }]⟩,
  .tile ⟨0, [{ structure_ := 11, word := 0, bits := [] }]⟩, .tileReduce ⟨0, [{ structure_ := 0, word := 0, bits := [72] }]⟩,
  .softmax ⟨0, [{ structure_ := 11, word := 0, bits := [] }]⟩, .stream ⟨0, [{ structure_ := 0, word := 0, bits := [72] }]⟩,
  .streamReduce ⟨0, [{ structure_ := 11, word := 0, bits := [] }]⟩, .maskSet ⟨0, [{ structure_ := 0, word := 0, bits := [72] }]⟩,
  .listMerge ⟨0, [{ structure_ := 11, word := 0, bits := [] }]⟩, .listEmit ⟨0, [{ structure_ := 0, word := 0, bits := [72] }]⟩,
  .loadCtx ⟨0, [{ structure_ := 11, word := 0, bits := [] }]⟩, .scan 0 ⟨0, 0, [], [{ structure_ := 0, word := 0, bits := [72] }]⟩,
  .emit ⟨0, [{ structure_ := 11, word := 0, bits := [] }]⟩, .frameJpeg ⟨0, [{ structure_ := 0, word := 0, bits := [72] }]⟩,
  .frameRaw ⟨0, [{ structure_ := 11, word := 0, bits := [] }]⟩, .peerFrameSend ⟨0, [], [{ structure_ := 0, word := 0, bits := [72] }]⟩,
  .peerFrameSend ⟨0, [{ stack := 4, block := 0, errors := {} }], []⟩, .retransmitTimeout ⟨0, [], [{ structure_ := 11, word := 0, bits := [] }]⟩ 0,
  .retransmitTimeout ⟨0, [{ stack := 0, block := 100663296, errors := {} }], []⟩ 0, .copy 0 ⟨[{ stack := 0, block := 0, errors := { second := [288] } }], []⟩,
  .gather 0 ⟨[{ stack := 0, block := 0, errors := { check := [288] } }], []⟩] : List Instr).all (fun i => i.wf == false) = true := by decide +kernel
theorem test_wf_refuses_7 : ([
  .ctxRelease 78, .frameJpeg ⟨78, []⟩, .frameRaw ⟨78, []⟩, .peerWrite 78, .dataFrameReceived 4 {}, .ackReceived 4 {}, .nakReceived 4 {},
  .pfcPauseReceived 4 false, .helloTimer 4, .helloReceived 4 {}, .portTrainingDone 4 false, .portRetrainTimer 4, .portLinkLost 4,
  .channelTraining 32 none, .pageReadDone 32 0 [] 0, .pageReadDone 0 32 [] 0, .pageReadDone 0 0 [] 3,
  .readRetryAttempt { channel := 0, die := 0, plane := 0, block := 0, page := 0 } 4 false,
  .readRetryAttempt { channel := 32, die := 0, plane := 0, block := 0, page := 0 } 0 false,
  .stripeRebuild { channel := 0, die := 0, plane := 0, block := 0, page := 0 } 4 false,
  .stripeRebuild { channel := 32, die := 0, plane := 0, block := 0, page := 0 } 0 false, .programDone 32 0 [], .programDone 0 32 [],
  .eraseDone 32 0 [], .eraseDone 0 32 [], .operationResume 32 0, .operationResume 0 32, .busyTimeout 32 0, .busyTimeout 0 32,
  .targetResetDone 32 0 false] : List Instr).all (fun i => i.wf == false) = true := by decide +kernel
theorem test_wf_refuses_8 : ([
  .targetResetDone 0 32 false, .programPromotion 32 0, .programPromotion 0 32, .backgroundPromotion 32 0, .backgroundPromotion 0 32,
  .zoneCalibration 32 0 0 0 0, .zoneCalibration 0 32 0 0 0, .zoneCalibration 0 0 128 0 0, .partialRowTimeout 4, .journalCheckpoint 4,
  .garbageCollection 4, .staticLevelling 4, .patrolStep 32 0 0 0, .patrolStep 0 32 0 0, .patrolStep 0 0 0 5, .cleanBlock 16 0 0,
  .watermarkEvaluate none 26, .wmLatchClear none 26, .wmMarkWrite none 26 0, .wmClrCount none 26, .tctrBump 16 0, .dramScrubStep 4 {},
  .sramScrubStep 11 0 [], .registerWrite (.tenant 16) 0 0 0, .registerWrite (.controller 17) 0 0 0, .registerWrite (.config 17) 0 0 0,
  .watermarkEvaluate (some 16) 0, .wmLatchClear (some 16) 0, .wmMarkWrite (some 16) 0 0, .wmClrCount (some 16) 0, .watermarkEvaluate (some 0) 8] : List Instr).all (fun i => i.wf == false) = true := by decide +kernel
theorem test_wf_refuses_9 : ([
  .registerWrite .module 0 3 0] : List Instr).all (fun i => i.wf == false) = true := by decide +kernel

/-! ### Values that the spec states -/

/-- The CRC of the nine ASCII bytes "123456789" (R74). -/
theorem test_crc32c : crc32c ([0x31, 0x32, 0x33, 0x34, 0x35, 0x36, 0x37, 0x38, 0x39] : List Byte) = 0xE3069283 := by decide +kernel
/-- Chapter 10, "Worked case: storing six lane values": 0.3, 300, 500, 0.001, -∞ and a NaN, to E4M3 with `CVT` 0b01. -/
theorem test_store_e4m3 : ([0x3E99999A, 0x43960000, 0x43FA0000, 0x3A83126F, 0xFF800000, 0xFF812345].map fun v => convert 3 1 v)
    = [0x2A, 0x79, 0x7E, 0x01, 0xFE, 0x7F] := by decide +kernel
/-- The same to E5M2 with `CVT` 0b00. -/
theorem test_store_e5m2 : ([0x3E99999A, 0x43960000, 0x43FA0000, 0x3A83126F, 0xFF800000, 0xFF812345].map fun v => convert 4 0 v)
    = [0x35, 0x5D, 0x60, 0x14, 0xFC, 0x7E] := by decide +kernel
/-- The same case, steps 1, 3 and 5: the other modes. -/
theorem test_store_modes : convert 3 3 0x3E99999A = 0x29 ∧ convert 3 0 0x43FA0000 = 0x7F ∧ convert 3 0 0xFF800000 = 0x7F
    ∧ convert 4 1 0xFF800000 = 0xFB := by decide +kernel
/-- Chapter 11, "Worked case: one encoder layer": K 2,048 of E4M3 costs 2,064 clocks, K 128 costs 144. -/
theorem test_mma_cost : 16 + mmaClocks 3 2048 = 2064 ∧ 16 + mmaClocks 3 8192 = 8208 ∧ 16 + mmaClocks 3 128 = 144 := by decide +kernel
/-- Chapter 14, "Worked case: one 24-megapixel photograph": moments of 1,000 and 1,000 give angle step 4. -/
theorem test_angle_step : angleStep 1000 1000 = some 4 := by decide +kernel
/-- The same case: the records at (1,000, 700) of level 2 and (5,000, 1,200) of level 0 begin with these coordinates. -/
theorem test_keypoint_place : (16 * 1000 * 2 ^ 2 + 8 * (2 ^ 2 - 1) = 0xFA18) ∧ bytesOfLe 2 (16 * 5000) = bytesOfLe 2 0x3880 := by decide +kernel
/-- Chapter 07, "Worked case: two tenants on one Lathe unit": `SPILL` 16 and 8 spindles give 8,192 frames to each invocation. -/
theorem test_spill_budget : spillBudget { slot := 0, reservation := { spindles := 8, spill := 16 } } = 8192 := by decide +kernel
/-- JTAG acts only where R641 says: EXTEST without `BOOT_SEL` is BYPASS, one bit of delay. -/
theorem test_jtag_bypass : execJtagExtest [true, false, true] demo = .next { demo with pins := { demo.pins with jtagOut := [false, true, false] } } := rfl
/-- The table gives its rows no bits, so a word spells no command and changes no queue. -/
theorem test_no_words : decodeTableWord 32 0xFFFFFFFF = none ∧ demo.withFetchWord 32 0xFFFFFFFF = demo := by decide +kernel
/-- An empty queue: one microsecond passes (log entry 3). -/
theorem test_idle_tick : (match step State.reset with
    | .next t => t.now
    | _ => 0) = 1 := by decide +kernel

/-! ### Witnesses: power, clocks, thermal levels, pins -/

theorem witness_FrontCommandRuns : demo.pending = [] ∧ demo.power.stage ≠ .off ∧ demo.svc.running = true
    ∧ (demoP fun p => { p with stage := .off }).pending = [] ∧ (demoP fun p => { p with stage := .off }).power.stage = .off := by
  decide +kernel
theorem witness_PowerLossTriggers : demo.power.stage = .on ∧ demo.power.plnStuck = false
    ∧ (demoP fun p => { p with plnStuck := true }).power.plnStuck = true
    ∧ (demoP fun p => { p with stage := .detected }).power.stage ≠ .on := by decide +kernel
theorem witness_PowerLossPhases : (demoP fun p => { p with stage := .detected }).power.stage = .detected
    ∧ (∀ rail ∈ [none, some Rail.core, some .mem, some .vis], let s := demoP fun p => { p with stage := .flushed, trippedRail := rail }
       s.power.stage = .flushed ∧ s.power.trippedRail = rail ∧ s.media.groups.length = 4 ∧ (∀ g, g < 4 → 8 ≤ (s.liveSlots g 0).length)
         ∧ (∀ g, g < 4 → (s.media.groups.getD g {}).metaRow < s.pagesPerBlock))
    ∧ (let s := demoP fun p => { p with stage := .saved, trigger := some .thermal, holdOff := true }
       s.power.stage = .saved ∧ s.power.trigger = some .thermal ∧ s.power.holdOff = true)
    ∧ (demoP fun p => { p with stage := .saved, pwrdis := true }).power.pwrdis = true
    ∧ (∀ v ∈ [4199, 4200, 6000, 6001], let s := demoP fun p => { p with stage := .saved, trigger := some .inputLow }
       s.power.stage = .saved ∧ s.power.holdOff = false ∧ s.power.pwrdis = false
         ∧ ((v < 4200 ∨ (6000 < v ∧ s.power.trigger ≠ some .pwrdis)) ∨ (4200 ≤ v ∧ v ≤ 6000)))
    ∧ demo.power.stage ≠ .detected ∧ demo.power.stage ≠ .shed ∧ demo.power.stage ≠ .flushed ∧ demo.power.stage ≠ .saved := by
  decide +kernel
theorem witness_StartUp :
    (let s := demoP fun p => { p with stage := .off }
     s.power.stage = .off ∧ s.power.holdOff = false ∧ s.power.pwrdis = false ∧ s.power.inputUp = true)
    ∧ (demoP fun p => { p with stage := .off, holdOff := true }).power.holdOff = true
    ∧ (demoP fun p => { p with stage := .off, pwrdis := true }).power.pwrdis = true
    ∧ (State.reset.power.stage = .on ∧ State.reset.power.aonReleased = false)
    ∧ (demo.power.stage = .on ∧ demo.power.aonReleased = true ∧ demo.power.railsUp = true ∧ demo.power.perst = false) := by
  decide +kernel
theorem witness_CoreClock : demo.power.stage = .on ∧ demo.power.aonReleased = true
    ∧ (∀ f ∈ [(17, 18), (18, 18), (21, 18)], ∀ s, s = demoP (fun p => { p with currentStep := f.1, targetStep := f.2 }) →
        s.power.currentStep = f.1 ∧ min s.power.targetStep (min s.power.powerCeiling s.power.thermalCeiling) = 18
          ∧ s.power.stepping = false ∧ s.power.stepAt = none)
    -- a move under way; a move begun 20 µs ago, and 19 µs ago
    ∧ (demoP fun p => { p with stepping := true, stepGoal := 20, stepAt := some 0 }).power.stepping = true
    ∧ (∀ now ∈ [19, 20], let s : State := { demoP fun p => { p with stepAt := some 0, targetStep := 18 } with now := now }
        s.power.stepping = false ∧ s.power.stepAt = some 0 ∧ (0 + 20 ≤ s.now ↔ now = 20))
    ∧ 10 ≤ (demoP fun p => { p with overSamples := 10 }).power.overSamples
    ∧ (let s := demoP fun p => { p with underSamples := 100, powerCeiling := 20 }
       100 ≤ s.power.underSamples ∧ s.power.powerCeiling < 21 ∧ s.power.powerCeiling < s.power.thermalCeiling)
    ∧ (demoP fun p => { p with overSamples := 9 }).power.overSamples < 10
    ∧ (∀ c ∈ [(20, 20), (21, 21)], let s := demoP fun p => { p with underSamples := 100, powerCeiling := c.1, thermalCeiling := c.2 }
       100 ≤ s.power.underSamples ∧ (21 ≤ s.power.powerCeiling ∨ s.power.thermalCeiling ≤ s.power.powerCeiling))
    ∧ (demoP fun p => { p with underSamples := 99 }).power.underSamples < 100 ∧ 65535 < 65536
    ∧ (∀ b ∈ [7000, 7200], b ≤ 7200 ∧ (demo.power.charged = true ↔ 7000 ≤ b))
    ∧ (∀ b ∈ [0, 6999], b ≤ 7200 ∧ ((demoP fun p => { p with charged := false }).power.charged = true ↔ 7000 ≤ b)) := by
  refine ⟨rfl, rfl, ?_, by decide, by decide +kernel, by decide, by decide, by decide, by decide, by decide, by decide, by decide, by decide⟩
  rintro f hf s rfl
  simp only [List.mem_cons, List.not_mem_nil, or_false] at hf
  rcases hf with rfl | rfl | rfl <;> decide
theorem witness_HoldupBank : demo.power.stage = .on ∧ demo.power.aonReleased = true ∧ demo.power.charged = true
    ∧ (119 < 120 ∧ 120 ≤ 120 ∧ 120 ≤ 382 ∧ 382 ≤ 382)
    ∧ (let s : State := { demoP fun p => { p with charged := false } with now := 1000000 }
       s.power.charged = false ∧ s.power.chargeTimedOut = false ∧ s.power.capLow = false ∧ s.power.chargeStart + 1000000 ≤ s.now)
    ∧ (let s : State := { demoP fun p => { p with charged := false } with now := 999999 }
       s.now < s.power.chargeStart + 1000000)
    ∧ (demoP fun p => { p with charged := false, capLow := true }).power.capLow = true := by decide +kernel
theorem witness_ThermalLevels : demo.power.stage = .on ∧ demo.power.level = 0 ∧ (95 ≤ 95 ∧ 104 < 105 ∧ 105 ≤ 114 ∧ 114 < 115 ∧ 115 ≤ 115)
    ∧ (let s := demoP fun p => { p with level := 1 }
       s.power.level < 2 ∧ s.power.level < 3 ∧ s.power.level = 1 ∧ 8 < s.power.thermalCeiling)
    ∧ (demoP fun p => { p with level := 1, thermalCeiling := 8 }).power.thermalCeiling ≤ 8
    ∧ (∀ now ∈ [999, 1000], let s : State := { demoP fun p => { p with level := 1 } with now := now }
       s.power.level = 1 ∧ (s.power.ceilingAt + 1000 ≤ s.now ↔ now = 1000))
    ∧ (∀ now ∈ [9999999, 10000000], let s : State := { demoP fun p => { p with level := 2, flowOk := false, flowLostAt := some 0 } with now := now }
       s.power.flowOk = false ∧ s.power.flowLostAt = some 0 ∧ s.power.level < 3 ∧ (0 + 10000000 ≤ s.now ↔ now = 10000000))
    ∧ (∀ level ∈ [1, 2], let s : State := { demoP fun p => { p with level := level, cool100At := some 0, cool90At := some 0 } with now := 100000 }
       s.power.cool100At = some 0 ∧ s.power.cool90At = some 0 ∧ 0 + 100000 ≤ s.now ∧ (s.power.level = 1 ∨ s.power.level = 2))
    ∧ (let s : State := { demoP fun p => { p with level := 2, cool100At := some 0 } with now := 100000 }
       90 < 91 ∧ 100 ≤ 100 ∧ s.power.cool100At = some 0 ∧ 0 + 100000 ≤ s.now ∧ s.power.level = 2) := by decide +kernel
theorem witness_CoreResets :
    (demo.power.stage = .on ∧ demo.power.perst = false ∧ demo.svc.held = none ∧ demo.power.moduleResetPending = false
      ∧ demo.svc.running = true ∧ demo.svc.nor.busy = false)
    ∧ (demoP fun p => { p with moduleResetPending := true }).power.moduleResetPending = true
    ∧ (∀ b : Bool, ∀ h ∈ [({ watchdog := true, since := 0 } : HeldReset), { moduleReset := true, since := 0 }],
       let s : State := { demo with svc := { demo.svc with held := some h, nor := { busy := b } } }
       s.svc.held = some h ∧ (h.watchdog = true ∨ h.moduleReset = true) ∧ s.power.moduleResetPending = false ∧ s.svc.nor.busy = b)
    ∧ (∀ now ∈ [4999999, 5000000], 0 + 5000000 ≤ now ↔ now = 5000000)
    ∧ (demo.modSvc fun v => { v with wdtLeftUs := 0 }).svc.wdtLeftUs = 0 ∧ demo.svc.wdtLeftUs ≠ 0 ∧ demo.svc.runSlot ≠ 2
    ∧ (∀ b : Bool, let s : State := { demo with svc := { demo.svc with nor := { busy := b } } }
       (s.begin (cmd 0xCC 0 0)).isSome = true ∧ (cmd 0xCC 0 0).fn = 0 ∧ (cmd 0xCC 0 0).sqid = 0)
    ∧ (let s : State := { demo with svc := { demo.svc with nor := { busy := true } } }
       s.svc.running = true ∧ s.svc.nor.busy = true ∧ s.svc.held = none)
    ∧ (let c := cmd 0xCC 0 0
       c.cdw10 = 0 ∧ c.cdw11 = 0 ∧ c.cdw12 = 0 ∧ c.cdw13 = 0 ∧ c.cdw14 = 0 ∧ c.cdw15 = 0)
    ∧ (demo.begin (cmd 0xCC 0 0 1)).isSome = true ∧ (cmd 0xCC 0 0 1).cdw10 ≠ 0 := by decide +kernel
theorem witness_FunctionResets : demo.power.stage = .on ∧ demo.pcie.ctrls.length = 17 ∧ demo.vfLive (1 - 1) = true
    ∧ 1 - 1 < demo.tenants.length ∧ (demo.ctrl 0).cc.getLsbD 0 = true ∧ (0 : Dword).getLsbD 0 = false ∧ demo.pers.inPlace = true
    ∧ demo.pcie.numVfs ≤ demo.pers.active.tenants.length
    ∧ (let s : State := { demo with pcie := { demo.pcie with numVfs := 2 } }
       s.pers.inPlace = true ∧ s.pers.active.tenants.length < s.pcie.numVfs) := by decide +kernel
theorem witness_EnvironmentFaults : demo.power.stage = .on ∧ demo.power.railsUp = true ∧ demo.power.perst = false
    ∧ demo.power.linkUp = true
    ∧ (∀ cage, cage < 2 → demo.peer.cageOn.getD cage false = true) ∧ demo.peer.cageOn.length = 2 ∧ demo.peer.cable.length = 2
    ∧ demo.peer.ports.length = 4 ∧ demo.media.channels.length = 32 ∧ (demo.ctrl 0).features.tempOver ≤ 368 := by decide +kernel

/-! ### Witnesses: the personality -/

/-- A staged image: its kind and target, and a STRUCTURE section with this many copies of the demo tenant. -/
def demoStaged (kind target tenants : Nat) : Region :=
  ((((({} : Region).put 6 [BitVec.ofNat 8 kind, BitVec.ofNat 8 target]).put 0x0C [1, 0]).put 0x40 [1, 0, 0, 0, 0x60, 0, 0, 0, 0x60, 1]).put
    0x62 [1, 0, 0, 0, BitVec.ofNat 8 tenants, 0, 0, 1, 1, 1, 0, 0, 2]).put 0x70 [5, 0, 0, 0, 1]
/-- The module with such an image staged and checked, its run closed. -/
def demoImage (kind tenants bytes : Nat) : State :=
  { demo.modPers fun p => { p with stage := .valid, staged := demoStaged kind 0 tenants, stageBytes := bytes } with tenants := [{}] }

theorem witness_LoadPersonality :
    (let s := demo.modPers fun p => { p with stage := .inUse }
     Starts s (cmd 0xC1 0 0) .adminOwner (begun s (cmd 0xC1 0 0)) ∧ (begun s (cmd 0xC1 0 0)).pers.stage = .inUse)
    ∧ (let c := cmd 0xC1 0 0 262144
       Starts demo c .adminOwner (begun demo c) ∧ (begun demo c).pers.stage ≠ .inUse ∧ 262143 < c.cdw10.toNat)
    ∧ (let c := cmd 0xC1 0 0 262143 1
       Starts demo c .adminOwner (begun demo c) ∧ (begun demo c).pers.stage ≠ .inUse ∧ c.cdw10.toNat ≤ 262143 ∧ c.cdw11.toNat ≠ 0
         ∧ 4 * c.cdw11.toNat ≠ demo.pers.stageBytes)
    ∧ (let c := cmd 0xC1 0 0 1 67108863
       let s := demo.modPers fun p => { p with stage := .receiving, stageBytes := 4 * 67108863 }
       Starts s c .adminOwner (begun s c) ∧ (begun s c).pers.stage = .receiving ∧ c.cdw10.toNat ≤ 262143 ∧ c.cdw11.toNat ≠ 0
         ∧ 4 * c.cdw11.toNat = s.pers.stageBytes ∧ 67108864 < c.cdw11.toNat + c.cdw10.toNat + 1)
    ∧ (let c := cmd 0xC1 0 0 262143
       Starts demo c .adminOwner (begun demo c) ∧ (begun demo c).pers.stage ≠ .inUse ∧ c.cdw10.toNat ≤ 262143 ∧ c.cdw11.toNat = 0
         ∧ c.cdw12.getLsbD 0 = false)
    ∧ (let c := cmd 0xC1 0 0 1027 0 1
       Starts demo c .adminOwner (begun demo c) ∧ (begun demo c).pers.stage ≠ .inUse ∧ c.cdw10.toNat < 1028 ∧ c.cdw11.toNat = 0
         ∧ c.cdw12.getLsbD 0 = true ∧ demo.prot.damaged = []) :=
  ⟨⟨starts_of (by decide +kernel), by decide +kernel⟩, ⟨starts_of (by decide +kernel), by decide +kernel⟩,
    ⟨starts_of (by decide +kernel), by decide +kernel⟩, ⟨starts_of (by decide +kernel), by decide +kernel⟩,
    ⟨starts_of (by decide +kernel), by decide +kernel⟩, ⟨starts_of (by decide +kernel), by decide +kernel⟩⟩

theorem witness_ActivateOwner :
    (let c := cmd 0xC2 0 0
     Starts (demoImage 2 1 512) c .adminOwner (begun (demoImage 2 1 512) c) ∧ bits c.cdw10.toNat 2 0 ≤ 2
       ∧ (begun (demoImage 2 1 512) c).pers.job = .none ∧ (begun (demoImage 2 1 512) c).activateFail kindOwner = none)
    ∧ (let c := cmd 0xC2 0 0 2
       Starts demo c .adminOwner (begun demo c) ∧ bits c.cdw10.toNat 2 0 ≤ 2 ∧ (begun demo c).pers.job = .none
       ∧ (begun demo c).activateFail kindOwner = some (.personalityRejected, 0x46, 0))
    ∧ ((demoImage 2 1 512).modPers fun p => { p with job := .activate { fn := 0, sqid := 0, cid := 7 } }).pers.job
        = .activate { fn := 0, sqid := 0, cid := 7 } :=
  ⟨⟨starts_of (by decide +kernel), by decide +kernel⟩, ⟨starts_of (by decide +kernel), by decide +kernel⟩, rfl⟩

theorem witness_CommitAndDiscard :
    (let c := cmd 0xC2 0 0 1
     Starts (demoImage 1 0 41943024) c .adminOwner (begun (demoImage 1 0 41943024) c) ∧ bits c.cdw10.toNat 2 0 ≤ 2
       ∧ (begun (demoImage 1 0 41943024) c).pers.job = .none ∧ (begun (demoImage 1 0 41943024) c).pers.stageBytes ≤ 41943024)
    ∧ (let c := cmd 0xC2 0 0 1
       Starts (demoImage 1 0 512) c .adminOwner (begun (demoImage 1 0 512) c) ∧ bits c.cdw10.toNat 2 0 ≤ 2
       ∧ (begun (demoImage 1 0 512) c).pers.job = .none ∧ (begun (demoImage 1 0 512) c).pers.stageBytes ≤ 41943024
       ∧ (demoImage 1 0 512).svc.nor.queue = [] ∧ (begun (demoImage 1 0 512) c).activateFail kindBase = none) :=
  ⟨⟨starts_of (by decide +kernel), by decide +kernel⟩, ⟨starts_of (by decide +kernel), by decide +kernel⟩⟩

/-- The staged bytes as a function of the offset. -/
theorem stagedReader_eq {s : State} (h : s.pers.staged.wf = true) :
    s.stagedReader = fun i => if i < s.pers.stageBytes then s.pers.staged.at i else 0 := by
  funext i
  simp only [State.stagedReader, Array.getD_eq_getD_getElem?, List.getElem?_toArray, Region.get_eq h, List.getElem?_map]
  by_cases hi : i < s.pers.stageBytes
  · simp [hi]
  · simp [hi]
theorem witness_CommitBaseTooLarge :
    let c := cmd 0xC2 0 0 1
    let s := demoImage 1 0 41943025
    Starts s c .adminOwner (begun s c) ∧ bits c.cdw10.toNat 2 0 ≤ 2 ∧ (begun s c).pers.job = .none
      ∧ 41943024 < (begun s c).pers.stageBytes ∧ (begun s c).activateFail kindBase = none := by
  refine ⟨starts_of (by decide +kernel), by decide +kernel, by decide +kernel, by decide +kernel, ?_⟩
  unfold State.activateFail
  rw [stagedReader_eq (by decide +kernel)]
  decide +kernel

/-- The module with a region image staged over an owner personality. -/
def demoRegion (kind : Nat) : State :=
  demo.modPers fun p => { p with stage := .valid, activeKind := 2, stageBytes := 512, staged := ({} : Region).put 6 [BitVec.ofNat 8 kind, 0] }
/-- A word of a program: its class, operation and instance. -/
def word (cls op inst : Nat) : BitVec 512 := BitVec.ofNat 512 (op + 256 * cls + 2 ^ 24 * inst)
/-- The module with an entry of this word at queue `q`, at this outcome, and a drain of group 0 under way. -/
def demoDrain (entry : Bool) : State :=
  { demo.modPers fun p => { p with job := .drain { fn := 0, sqid := 0, cid := 7 } 0 100 0, stage := .inUse } with
    queues := (List.replicate 78 {}).set 40 { entries := if entry then [{ tenant := 0, tag := 1, desc := word 3 2 0, outcome := .started }] else [] } }

theorem witness_ExchangeRegion :
    (∀ kind ∈ [kindFabric, kindShares], let c := cmd 0xC3 0 0 1000
      let s := demoRegion kind
      startsB s c .adminOwner = true ∧ (begun s c).pers.job = .none ∧ bits c.cdw10.toNat 15 0 ≤ 1000
        ∧ (begun s c).exchangeFail (BitVec.ofNat 128 (leOfBytes ((begun s c).dataIn c.prp1 c.prp2 16))) = none
        ∧ hKind (begun s c).stagedReader = kind)
    ∧ (demoDrain true).pers.job = .drain { fn := 0, sqid := 0, cid := 7 } 0 100 0 ∧ (demoDrain true).groupScans 0 = true
    ∧ (demoDrain false).groupScans 0 = false ∧ (demoDrain false).pers.discardAfter = false
    ∧ (∀ now ∈ [99999, 100000], now < 0 + 1000 * 100 ↔ now = 99999)
    -- shares exchanged 2 µs ago, and a group that is being written
    ∧ (let r : CmdRef := { fn := 0, sqid := 0, cid := 7 }
       let s : State := { (demoHeld (cmd 0xC3 0 0) true).modPers fun p => { p with job := .shares r 0 0, stage := .inUse } with now := 2 }
       s.pending = [] ∧ s.pers.job = .shares r 0 0 ∧ heldB s r = true ∧ r.cid ∉ (s.ctrl r.fn).aers ∧ 0 + 2 ≤ s.now)
    ∧ (let s := demo.modPers fun p => { p with job := .writing { fn := 0, sqid := 0, cid := 7 } 3 }
       s.pers.job = .writing { fn := 0, sqid := 0, cid := 7 } 3 ∧ s.pers.slices.length = 32 ∧ 31 / 8 = 3) := by decide +kernel

/-- The module whose firmware runs and whose base structure is not in place yet. -/
def demoBoot : State := (demo.modPers fun p => { p with inPlace := false }).modSvc fun v => { v with
  nor := { v.nor with baseA := some { seq := 1, length := 4116 } } }
theorem witness_BaseLoad :
    (let s := demo.modPers fun p => { p with inPlace := false }
     s.power.stage = .on ∧ s.power.perst = false ∧ s.svc.running = true ∧ s.svc.runSlot ≠ 2 ∧ s.pers.inPlace = false
       ∧ s.svc.nor.baseA = none ∧ s.svc.nor.baseB = none)
    ∧ demoBoot.pers.inPlace = false ∧ demoBoot.svc.nor.base 0 = some { seq := 1, length := 4116 }
    ∧ demoBoot.svc.nor.base (1 - 0) = none := by decide +kernel

theorem witness_FrameReadback :
    (∀ x ∈ [(0, 0), (31, 2047)], let c := cmd 0xC0 0 0 1 (65536 * x.1 + x.2)
      startsB demo c .adminOwner = true ∧ x.1 < 32 ∧ x.2 < 2048 ∧ bits c.cdw10.toNat 7 0 = 1 ∧ c.cdw11.toNat = 65536 * x.1 + x.2
        ∧ (begun demo c).pers.job = .none
        ∧ (begun (demo.modPers fun p => { p with job := .writing { fn := 0, sqid := 0, cid := 8 } (x.1 / 8) }) c).pers.job
            = .writing { fn := 0, sqid := 0, cid := 8 } (x.1 / 8))
    ∧ (∀ page ∈ [0, 2], let c := cmd 0xC0 0 0 page
      startsB demo c .adminOwner = true ∧ bits c.cdw10.toNat 7 0 = page)
    ∧ (let c := cmd 0xC0 0 0 3
       startsB demo c .adminOwner = true ∧ 2 < bits c.cdw10.toNat 7 0)
    ∧ (let c := cmd 0xC0 0 0 1 2048
       startsB demo c .adminOwner = true ∧ bits c.cdw10.toNat 7 0 = 1 ∧ bits c.cdw11.toNat 15 11 ≠ 0) := by decide +kernel

/-- A slice with its clock gated or not, timer 0 with an expiry held or not. -/
def demoSlice (gated held : Bool) : State :=
  let y : ShellTimer := { running := true, periodic := held, count := 9, reload := 9, held := held }
  demo.modPers fun p => { p with slices := p.slices.set 3 { clockGated := gated, timers := (List.replicate 16 {}).set 0 y } }
theorem witness_PersonalityTimers :
    (∀ ms ∈ [999, 60001], bits (BitVec.ofNat 32 ms).toNat 15 0 < 1000 ∨ 60000 < bits (BitVec.ofNat 32 ms).toNat 15 0)
    ∧ (demo.modPers fun p => { p with expired := true }).pers.expired = true
    ∧ (∀ ms ∈ [1000, 60000], 1000 ≤ bits (BitVec.ofNat 32 ms).toNat 15 0 ∧ bits (BitVec.ofNat 32 ms).toNat 15 0 ≤ 60000
        ∧ demo.now < 0 + 1000 * bits (BitVec.ofNat 32 ms).toNat 15 0)
    ∧ demo.power.stage = .on ∧ demo.power.perst = false ∧ demo.pers.expired = false ∧ demo.pers.activeKind = 1 ∧ demo.pers.armedAt = some 0
    ∧ demo.deadlineRuns = true ∧ (demo.modPers fun p => { p with expired := true }).deadlineRuns = false
    ∧ (∀ now ∈ [999999, 1000000], 0 + 1000 * bits (BitVec.ofNat 32 1000).toNat 15 0 ≤ now ↔ now = 1000000)
    ∧ 0 + 1000 * demo.pers.deadlineMs ≤ 1000 * demo.pers.deadlineMs
    ∧ (∀ gated ∈ [true, false], ∀ held ∈ [true, false], ∃ x, (demoSlice gated held).pers.slices[3]? = some x ∧ x.clockGated = gated
        ∧ ∃ y, x.timers[0]? = some y ∧ y.held = held ∧ y.running = true ∧ (8 < y.since + y.count ∧ y.since + y.count ≤ 9))
    ∧ (∃ x, (demoSlice true true).pers.slices[3]? = some x ∧ ∃ y, x.timers[15]? = some y ∧ y.running = false) := by
  refine ⟨by decide +kernel, rfl, by decide +kernel, rfl, rfl, rfl, rfl, rfl, by decide +kernel, by decide +kernel, by decide, by decide, ?_,
    _, rfl, _, rfl, rfl⟩
  intro gated _ held _
  exact ⟨_, rfl, rfl, _, rfl, rfl, rfl, Nat.lt_succ_self 8, Nat.le_refl 9⟩

theorem witness_ScrubRestoresFrames : demo.pers.inPlace = true ∧ demo.power.dramReady = true ∧ demo.power.stage = .on
    ∧ demo.pers.slices.length = 32 ∧ (∀ x, demo.pers.slices[31]? = some x → x.clockGated = false)
    ∧ scrubbed 0 = true ∧ scrubbed 1791 = true ∧ scrubbed 1920 = true ∧ scrubbed 2047 = true := by
  refine ⟨rfl, rfl, rfl, by decide +kernel, ?_, by decide, by decide, by decide, by decide⟩
  intro x hx
  have : demo.pers.slices[31]? = some ({} : Slice) := by decide +kernel
  rw [this] at hx
  cases hx
  rfl

/-! ### Witnesses: controllers, queues, logs, features -/

theorem witness_ControllerStart : demo.power.stage = .on ∧ demo.power.perst = false ∧ demo.fnLive 0 = true ∧ demo.fnLive 1 = true
    ∧ 1 < demo.pcie.ctrls.length
    ∧ ((demoC 1 fun k => { k with cc := 0 }).ctrl 1).cc.getLsbD 0 = false ∧ (1 : Dword).getLsbD 0 = true
    ∧ (let s := demoC 1 fun k => { k with enabling := true, ready := false }
       (s.ctrl 1).enabling = true ∧ s.svc.running = true ∧ s.pers.inPlace = true ∧ s.power.dramReady = true
         ∧ (∀ g ∈ s.media.groups, g.mapLoaded = true) ∧ s.power.charged = true)
    ∧ (demoP fun p => { p with charged := false, chargeTimedOut := true }).power.chargeTimedOut = true
    ∧ demo.svc.runSlot ≠ 2 ∧ (demo.modPers fun p => { p with inPlace := false }).pers.inPlace = false
    ∧ (demoP fun p => { p with dramReady := false }).power.dramReady = false
    ∧ (∃ g ∈ (demo.modMedia fun m => { m with groups := [{}] }).media.groups, g.mapLoaded = false)
    ∧ (∀ n ∈ [0x4001, 0x8001], let cc := BitVec.ofNat 32 n
        (demo.ctrl 0).ready = true ∧ cc.getLsbD 0 = true ∧ (bits cc.toNat 15 14 = 1 ∨ bits cc.toNat 15 14 = 2) ∧ (demo.ctrl 0).shst = 0)
    -- fields just within their ranges, and reserved encodings of AMS, SHN, MPS and CSS
    ∧ (∀ f ∈ [(13, 11, 1), (15, 14, 2), (19, 16, 15), (23, 20, 15)], bits (2 ^ f.2.1 * f.2.2) f.1 f.2.1 ≤ f.2.2)
    ∧ (∀ f ∈ [(13, 11, 1), (15, 14, 2)], ¬ bits (2 ^ f.2.1 * (f.2.2 + 1)) f.1 f.2.1 ≤ f.2.2)
    ∧ (∀ f ∈ [(6, 4), (10, 7)], bits 1 f.1 f.2 = 0 ∧ bits (1 + 2 ^ f.2) f.1 f.2 ≠ 0) := by decide +kernel
/-- The limit of 1 s just reached, and one microsecond before it. -/
theorem witness_ControllerStart_limit (s : State) (hs : s = { demoP (fun p => { p with charged := false }) with now := s.now }) :
    s.power.charged = false ∧ s.power.chargeTimedOut = false ∧ (s.now = 1000000 → s.power.chargeStart + 1000000 ≤ s.now)
      ∧ (s.now = 999999 → s.now < s.power.chargeStart + 1000000) := by
  have h : s.power.chargeStart = 0 := by rw [hs]; rfl
  refine ⟨by rw [hs]; rfl, by rw [hs]; rfl, ?_, ?_⟩ <;> omega

/-- The admin queue of controller 1 holds this many entries. -/
def demoQueue (n : Nat) : State := demoC 1 fun k => { k with sqs := k.sqs.map fun q => { q with tail := n } }
theorem witness_DoorbellsAndFetch : demo.power.stage = .on ∧ (demo.ctrl 1).ready = true ∧ (demo.ctrl 1).unposted = []
    ∧ (∀ n ∈ [1, 31], let s := demoQueue n
        s.power.stage = .on ∧ s.pcie.fetchStopped = false ∧ (s.pcie.lastFn + 1) % 17 = 1 ∧ (s.ctrl 1).ready = true ∧ (s.ctrl 1).shst = 0
        ∧ (s.ctrl 1).sqs.find? (fun x => x.qid == 0) = some { qid := 0, base := 0x10000, size := 32, tail := n }
        ∧ (0 < 32) ∧ 0 < ({ qid := 0, base := 0x10000, size := 32, tail := n } : Sq).entries ∧ (s.ctrl 1).features.ab < 7)
    ∧ (demo.modPcie fun p => { p with fetchStopped := true }).pcie.fetchStopped = true := by decide +kernel
/-- Host memory that lists nothing reads as zeros, and opcode 0 of an admin queue is known; no controller holds a command. -/
theorem witness_DoorbellsAndFetch_entries (n : Nat) (q : Sq) :
    (∀ g, ∀ o ∈ ((demoQueue n).ctrl g).outstanding, o.started = true ∨ opcodeKnown o.cmd.sqid o.cmd.opcode = true)
      ∧ ∀ j, opcodeKnown 0 (Cmd.ofBytes 1 0 ((demoQueue n).hostGet (q.base.toNat + 64 * ((q.head + j) % q.size)) 64)).opcode = true := by
  constructor
  · intro g o ho
    have : ((demoQueue n).ctrl g).outstanding = [] := by
      by_cases h : g < 17
      · interval_cases g <;> rfl
      · have : (demoQueue n).pcie.ctrls.length ≤ g := by
          have : (demoQueue n).pcie.ctrls.length = 17 := rfl
          omega
        simp [State.ctrl, List.getD_eq_getElem?_getD, List.getElem?_eq_none this]
    rw [this] at ho
    cases ho
  · intro j
    have : (demoQueue n).hostGet (q.base.toNat + 64 * ((q.head + j) % q.size)) 64 = List.replicate 64 0 := by
      have h : Memory.wf false (demoQueue n).host = true := rfl
      simp only [State.hostGet, Mem.get_eq _ h]
      rfl
    rw [this]
    decide +kernel

/-- VF 0's controller with its admin queue only. -/
def demoBare : State := demoC 1 fun k => { k with sqs := k.sqs.take 1, cqs := k.cqs.take 1 }
theorem witness_IoQueues :
    (∀ v ∈ [0, 2], let c := cmd 0x05 1 0 (2 + 65536 * 4095) (3 + 65536 * v)
      startsB demoBare c .admin = true ∧ qidOf c ≠ 0 ∧ qidOf c ≤ demoBare.queueQuota c.fn ∧ (∀ q ∈ (demoBare.ctrl c.fn).cqs, q.qid ≠ qidOf c)
        ∧ 2 ≤ qsizeOf c ∧ qsizeOf c ≤ 4096 ∧ c.cdw11.getLsbD 0 = true ∧ bits c.cdw11.toNat 31 16 < demoBare.vectors c.fn)
    ∧ (let c := cmd 0x05 1 0 (1 + 65536) (3 + 65536 * 3)
       startsB demoBare c .admin = true ∧ qidOf c ≠ 0 ∧ 2 ≤ qsizeOf c ∧ c.cdw11.getLsbD 1 = true
         ∧ demoBare.vectors c.fn ≤ bits c.cdw11.toNat 31 16)
    ∧ (let c := cmd 0x05 1 0 (1 + 65536) (1 + 65536 * 3)
       c.cdw11.getLsbD 0 = true ∧ c.cdw11.getLsbD 1 = false ∧ demoBare.vectors c.fn ≤ bits c.cdw11.toNat 31 16)
    ∧ (let c := cmd 0x01 1 0 (2 + 65536) (0xD + 65536 * 2)
       let s := demoC 1 fun k => { k with sqs := k.sqs.take 2 }
       startsB s c .admin = true ∧ qidOf c ≠ 0 ∧ qidOf c ≤ s.queueQuota c.fn ∧ (∀ q ∈ (s.ctrl c.fn).sqs, q.qid ≠ qidOf c)
         ∧ 2 ≤ qsizeOf c ∧ qsizeOf c ≤ 4096 ∧ c.cdw11.getLsbD 0 = true ∧ bits c.cdw11.toNat 31 16 ≠ 0
         ∧ bits c.cdw11.toNat 31 16 ≤ s.queueQuota c.fn ∧ (∃ q ∈ (s.ctrl c.fn).cqs, q.qid = bits c.cdw11.toNat 31 16))
    ∧ (let c := cmd 0x00 1 0 1
       let s := demoC 1 fun k => { k with outstanding := [{ cmd := { cmd 0x9A 1 1 with cdw0 := 0x9A }, fetchedAt := 0 }] }
       startsB s c .admin = true ∧ qidOf c ≠ 0 ∧ (∃ q ∈ (s.ctrl c.fn).sqs, q.qid = qidOf c)
         ∧ (∀ o ∈ (s.ctrl c.fn).outstanding, o.cmd.sqid = qidOf c → o.started = false)
         ∧ (∀ o ∈ (s.ctrl c.fn).outstanding, o.cmd.fn = c.fn))
    ∧ (let c := cmd 0x04 1 0 1
       let s := demoC 1 fun k => { k with sqs := k.sqs.take 1 }
       startsB s c .admin = true ∧ qidOf c ≠ 0 ∧ (∃ q ∈ (s.ctrl c.fn).cqs, q.qid = qidOf c) ∧ (∀ q ∈ (s.ctrl c.fn).sqs, q.cqid ≠ qidOf c))
    ∧ (let c := cmd 0x04 1 0 1
       startsB demo c .admin = true ∧ qidOf c ≠ 0 ∧ (∃ q ∈ (demo.ctrl c.fn).cqs, q.qid = qidOf c)
         ∧ (∃ q ∈ (demo.ctrl c.fn).sqs, q.cqid = qidOf c)) := by decide +kernel

theorem witness_LogPages :
    -- Retain Asynchronous Event 1 and 0, at offset 0 and at the page's end; the page of deferred errors
    (∀ x ∈ [(0, 0xC0, 0, 0x8000), (0, 0xC0, 32, 0x8000), (1, 0xC6, 0, 0), (1, 0xC3, 0, 0x8000)], let c := cmd 0x02 x.1 0 (x.2.1 + x.2.2.2 + 65536 * 1023) 0 x.2.2.1
      startsB demo c .admin = true ∧ bits c.cdw10.toNat 7 0 = x.2.1
        ∧ 4 * (bits c.cdw10.toNat 31 16 + 65536 * bits c.cdw11.toNat 15 0 + 1) ≤ 16777216 ∧ c.cdw10.getLsbD 15 = (x.2.2.2 == 0x8000)
        ∧ (c.cdw12.toNat + 2 ^ 32 * c.cdw13.toNat) % 4 = 0
        ∧ (((begun demo c).logPage c.fn x.2.1).map fun p =>
          decide (c.cdw12.toNat + 2 ^ 32 * c.cdw13.toNat ≤ p.length) && decide (p.length ≤ 4096)) = some true)
    ∧ (let c := cmd 0x02 0 0 0xC0 0 2
       startsB demo c .admin = true ∧ ((begun demo c).logPage c.fn 0xC0).isSome = true ∧ (c.cdw12.toNat + 2 ^ 32 * c.cdw13.toNat) % 4 ≠ 0)
    ∧ (∀ lid ∈ [0xC0, 0xC1, 0xC2, 0xC4, 0xC5, 0xC7, 0xC8, 0x03, 0x06, 0x81], let c := cmd 0x02 1 0 lid
        startsB demo c .admin = true ∧ c.fn ≠ 0 ∧ bits c.cdw10.toNat 7 0 = lid)
    ∧ 0xC0 ∈ ((demoC 0 fun k => { k with held := [0xC0] }).ctrl 0).held
    ∧ (demo.logs.page 0xC7).nextSeq ≤ 2 ^ 64 ∧ (demo.logs.page 0xC7).entries.length < 2 ^ 32 := by decide +kernel

theorem witness_FeatureValues :
    (∀ v ∈ [5 + 65536 * 5, 60000 + 65536 * 60000], let c := cmd 0x09 1 0 0xC0 v
      startsB demo c .admin = true ∧ c.cdw10.getLsbD 31 = false ∧ demo.pcie.floorMs ≤ bits v 15 0 ∧ bits v 15 0 ≤ 60000
        ∧ demo.pcie.floorMs ≤ bits v 31 16 ∧ bits v 31 16 ≤ 60000)
    ∧ (∀ v ∈ [4 + 65536 * 5, 5 + 65536 * 60001], let c := cmd 0x09 1 0 0xC0 v
      startsB demo c .admin = true ∧ (bits v 15 0 < demo.pcie.floorMs ∨ 60000 < bits v 31 16))
    ∧ (let c := cmd 0x09 0 0 0xC1 1000
       startsB demo c .admin = true ∧ c.fn = 0 ∧ 1 ≤ bits 1000 15 0 ∧ bits 1000 15 0 ≤ 1000 ∧ (begun demo c).floorHolds 1000 = true)
    ∧ (∀ x ∈ [(1, 100), (0, 1001), (0, 2)], let c := cmd 0x09 x.1 0 0xC1 x.2
        startsB demo c .admin = true ∧ (c.fn ≠ 0 ∨ 1000 < bits x.2 15 0 ∨ 1000 * bits x.2 15 0 ≤ demo.media.budgetUs))
    ∧ (∀ fn ∈ [0, 1], startsB demo (cmd 0x09 fn 0 7 0xFFFFFFFF) .admin = true)
    ∧ featureKnown 0x03 = false ∧ startsB demo (cmd 0x09 0 0 3) .admin = true ∧ startsB demo (cmd 0x09 0 0 0x0B 0x1FF) .admin = true
    ∧ startsB demo (cmd 0x0A 0 0 0xC0) .admin = true ∧ startsB demo (cmd 0x0A 1 0 7) .admin = true
    ∧ bits (cmd 0x0A 1 0 7).cdw10.toNat 10 8 = 0 := by decide +kernel

theorem witness_EventsAndAbort :
    (∀ n ∈ [0, 7], let c := cmd 0x0C 0 0
      let s := demoC 0 fun k => { k with aers := (List.range n).map (100 + ·) }
      startsB s c .admin = true ∧ (s.ctrl c.fn).aers.length < 8 ∧ (s.ctrl c.fn).waiting = [])
    ∧ (let c := cmd 0x0C 0 0
       let s := demoC 0 fun k => { k with waiting := [{ aet := 7, info := 0xC0, page := 0xC0 }] }
       startsB s c .admin = true ∧ (s.ctrl c.fn).aers.length < 8 ∧ (s.ctrl c.fn).waiting = [{ aet := 7, info := 0xC0, page := 0xC0 }])
    ∧ (let c := cmd 0x0C 0 0
       let s := demoC 0 fun k => { k with aers := (List.range 8).map (100 + ·) }
       startsB s c .admin = true ∧ 8 ≤ (s.ctrl c.fn).aers.length)
    ∧ (let c := cmd 0x08 0 0 (2 + 65536 * 7)
       let o : Outstanding := { cmd := cmd 0x02 0 2, fetchedAt := 0 }
       let s := demoC 0 fun k => { k with outstanding := [o] }
       startsB s c .admin = true ∧ (∀ o ∈ (s.ctrl c.fn).outstanding, o.cmd.opcode = 0x08 → o.cmd.ref = c.ref)
         ∧ o ∈ (s.ctrl c.fn).outstanding ∧ o.cmd.ref = { fn := 0, sqid := bits c.cdw10.toNat 15 0, cid := bits c.cdw10.toNat 31 16 }
         ∧ o.started = false ∧ o.cmd.ref ≠ c.ref)
    ∧ (let c := cmd 0x08 0 0 (2 + 65536 * 7)
       startsB demo c .admin = true ∧ (demo.ctrl c.fn).outstanding = [] ∧ bits c.cdw10.toNat 15 0 ≠ 0 ∧ bits c.cdw10.toNat 15 0 ≠ c.sqid) := by
  decide +kernel

theorem witness_IdentifyAndMi : (let c := cmd 0x06 1 0 1
      startsB demo c .admin = true ∧ bits c.cdw10.toNat 7 0 = 1) ∧ demo.miAnswers = true ∧ (cmd 0x06 0 0 1).opcode = 0x06
    ∧ (cmd 0x0A 0 0).opcode ≠ 0x06 ∧ (cmd 0x0A 0 0).opcode ≠ 0x02 := by decide +kernel

theorem witness_CommandTimeouts : (∀ x ∈ [(1, 0x9C, 1000), (2, 0x02, 2000)], let c := cmd x.2.1 1 x.1
      let s := demoHeld c true
      let q : Sq := if x.1 = 1 then { qid := 1, base := 0x20000, size := 32, cqid := 1, compute := true }
        else { qid := 2, base := 0x30000, size := 32, cqid := 2 }
      s.power.stage = .on ∧ c.sqid ≠ 0
        ∧ (s.ctrl c.fn).outstanding.find? (fun y => y.cmd.ref == c.ref) = some { cmd := c, fetchedAt := 0, started := true }
        ∧ (s.ctrl c.fn).sqs.find? (fun y => y.qid == c.sqid) = some q ∧ s.timeoutMs c q.compute = some x.2.2 ∧ s.invocations = []
        ∧ 0 + 1000 * x.2.2 ≤ 1000 * x.2.2 ∧ 1000 * x.2.2 - 1 < 0 + 1000 * x.2.2)
    -- an invocation whose deadline has come, and one whose deadline is 1 µs away
    ∧ (∀ now ∈ [999, 1000], let c := cmd 0x88 1 1
      let i : Invocation := { ref := c.ref, kind := .invoke, tenant := 0, slot := 3, deadlineAt := some 1000 }
      let s : State := { demoHeld c true with invocations := [i], now := now }
      s.timeoutMs c true ≠ none ∧ s.invocations.find? (fun i => i.ref == c.ref) = some i ∧ i.deadlineAt = some 1000 ∧ i.phase ≠ .stopping
        ∧ i.tag = 0 ∧ i.silent = false ∧ (1000 ≤ s.now ↔ now = 1000)) := by decide +kernel

theorem witness_OrderedCommands :
    (let c := cmd (0x9A + 0x400) 1 1
     let s := demoC 1 fun k => { k with outstanding := [{ cmd := { c with cdw0 := 0x9C }, fetchedAt := 0 }] }
     c.sqid ≠ 0 ∧ c.cdw0.getLsbD 10 = true ∧ (s.ctrl c.fn).earlier c ≠ [])
    ∧ (let c := cmd 0x9A 1 1
       let s := demoC 1 fun k => { k with outstanding := [{ cmd := { c with cdw0 := 0x49C }, fetchedAt := 0, started := true }] }
       c.sqid ≠ 0 ∧ ∃ o ∈ (s.ctrl c.fn).earlier c, o.cmd.cdw0.getLsbD 10 = true)
    -- a completion of the queue that waits for room, of a command with ORD or without
    ∧ (∀ ord ∈ [true, false], let c := cmd (0x9A + if ord then 0 else 0x400) 1 1
       let x : Completion := { completionOf { fn := 1, sqid := 1, cid := 9 } .success 0 0 with ord := ord }
       let s := demoC 1 fun k => { k with unposted := [x] }
       c.sqid ≠ 0 ∧ x ∈ (s.ctrl c.fn).unposted ∧ x.sqid = c.sqid ∧ x.ord = ord ∧ c.cdw0.getLsbD 10 = !ord) := by decide +kernel

/-- A deferred write error of namespace 1 of VF 0 that its function has not read. -/
def demoDeferred : Deferred := { seq := 1, time := 0, fn := 1, nsid := 1, slba := 0, nlb := 1, faultNo := 3 }
/-- The module with a namespace of 8 blocks of VF 0, and the deferred error or not. -/
def demoNs (deferred : Bool) : State :=
  { demo.modMedia fun m => { m with namespaces := [{ fn := 1, nsid := 1, blocks := 8, group := 1, attached := true }] } with
    logs := if deferred then { deferred := [demoDeferred], deferredNext := 2 } else {} }
/-- Such an entry, written before the command was fetched, read or not; two of them, the second of which a read from offset 128
returns. -/
def demoSeen (d : Deferred) : State := { demoNs true with logs := { deferred := [d], deferredNext := 2 } }
def demoTwo : State :=
  { demoNs true with logs := { deferred := [demoDeferred, { demoDeferred with seq := 2 }], deferredNext := 3 } }
theorem witness_DeferredGate :
    (∀ n ∈ [1, 0xFFFFFFFF], ∀ r ∈ [true, false], let c := cmd 0x02 1 2 0 0 0 0 0 n
      let s := demoSeen { demoDeferred with readByOwner := r }
      s.begin c = some (begun s c) ∧ (begun s c).refusal c .nvm = none
        ∧ (∃ o, ((begun s c).ctrl c.fn).outstanding.find? (fun o => o.cmd.ref == c.ref) = some o ∧ demoDeferred.seq ≤ o.deferredSeen)
        ∧ demoDeferred.fn = c.fn ∧ (demoDeferred.nsid = c.nsid.toNat ∨ c.nsid = 0xFFFFFFFF))
    ∧ (∀ off ∈ [64, 128], let c := cmd 0x02 1 0 (0xC3 + 65536 * 15) 0 off
      startsB demoTwo c .admin = true ∧ bits c.cdw10.toNat 7 0 = 0xC3
        ∧ 4 * (bits c.cdw10.toNat 31 16 + 65536 * bits c.cdw11.toNat 15 0 + 1) = 64 ∧ c.cdw12.toNat + 2 ^ 32 * c.cdw13.toNat = off
        ∧ ((begun demoTwo c).logPage c.fn 0xC3).map List.length = some 192)
    ∧ demoTwo.logs.deferred.Pairwise (fun a b => a.seq < b.seq)
    -- a command fetched before the entry was written
    ∧ (let c := cmd 0x02 1 2 0 0 0 0 0 1
       let s : State := { demoSeen demoDeferred with pcie := (demoHeld c false).pcie }
       s.begin c = some (begun s c) ∧ (begun s c).refusal c .nvm = none
        ∧ (∃ o, ((begun s c).ctrl c.fn).outstanding.find? (fun o => o.cmd.ref == c.ref) = some o ∧ ¬ demoDeferred.seq ≤ o.deferredSeen)) := by decide +kernel

/-- The module with that namespace, its unit 0 unreadable, or its group read-only. -/
def demoLost : State := (demoNs false).modMedia fun m => { m with units := [{ fn := 1, nsid := 1, unit := 0, place := .unreadable 9 }] }
theorem witness_NvmCommands :
    (let c := cmd 0x02 1 2 8 0 0 0 0 1
     startsB (demoNs false) c .nvm = true ∧ (demoNs false).target? c = some { fn := 1, nsid := 1, blocks := 8, group := 1, attached := true }
       ∧ nvmNlb c ≤ 4096 ∧ 8 < nvmSlba c + nvmNlb c)
    ∧ (let c := cmd 0x02 1 2 0 0 7 0 0 1
       startsB (demoNs false) c .nvm = true ∧ ((demoNs false).target? c).isSome = true ∧ nvmNlb c ≤ 4096 ∧ nvmSlba c + nvmNlb c ≤ 8)
    ∧ (∀ l, ∃ bs, (demoNs false).locate 1 1 l = .here bs)
    ∧ (let c := cmd 0x02 1 2 3 0 0 0 0 1
       startsB demoLost c .nvm = true ∧ nvmSlba c ≤ 3 ∧ 3 < nvmSlba c + nvmNlb c ∧ demoLost.locate 1 1 3 = .lost 9)
    ∧ (let c := cmd 0x01 1 2 0 0 7 0 0 1
       startsB (demoNs false) c .nvm = true ∧ ((demoNs false).media.groups.getD 1 {}).readOnly = false
         ∧ ((demoNs false).media.groups.getD 1 {}).gcState ≠ 3 ∧ (demoNs false).writesThrough = false
         ∧ 4096 * ((demoNs false).dirtyBlocks + nvmNlb c) ≤ (demoNs false).dirtyLimit)
    ∧ (let s := (demoNs false).modMedia fun m => { m with groups := List.replicate 4 { readOnly := true } }
       startsB s (cmd 0x01 1 2 0 0 7 0 0 1) .nvm = true ∧ (s.media.groups.getD 1 {}).readOnly = true)
    ∧ (startsB (demoNs false) (cmd 0x00 1 2 0 0 0 0 0 1) .nvm = true ∧ (demoNs false).media.buffer = [] ∧ (demoNs false).logs.deferred = [])
    ∧ (startsB (demoNs false) (cmd 0x09 1 2 0 0 0 0 0 1) .nvm = true ∧ (cmd 0x09 1 2 0 0 0 0 0 1).cdw11.getLsbD 2 = false)
    ∧ (let c : Cmd := { cmd 0x09 1 2 0 4 0 0 0 1 with prp1 := 0x100000 }
       let s : State := { demoNs false with host := [(0x100004, 8)] }
       startsB s c .nvm = true ∧ (s.target? c).isSome = true ∧ c.cdw11.getLsbD 2 = true ∧ bits c.cdw10.toNat 7 0 + 1 = 1
         ∧ readLe (listReader ((begun s c).dataIn c.prp1 c.prp2 16)) 8 8 + readLe (listReader ((begun s c).dataIn c.prp1 c.prp2 16)) 4 4 = 8) :=
  ⟨by decide +kernel, by decide +kernel, fun _ => ⟨_, rfl⟩, by decide +kernel, by decide +kernel, by decide +kernel, by decide +kernel,
    by decide +kernel, by decide +kernel⟩

/-- Host memory that asks for a namespace of the quota, or of one block more. -/
def demoAsk (more : Nat) : State :=
  { demo with host := if more = 0 then [(2, 4), (10, 4)] else [(0, 1), (2, 4), (8, 1), (10, 4)] }
/-- The module with namespace 1 of VF 0, attached or not, and a list of controllers in host memory. -/
def demoList (attached : Bool) (ctrl : Nat) : State :=
  { demo.modMedia fun m => { m with namespaces := [{ fn := 1, nsid := 1, blocks := 8, group := 1, attached := attached }] } with
    host := [(0, 1), (2, BitVec.ofNat 8 ctrl)] }
theorem witness_NamespaceCommands :
    (∀ more ∈ [0, 1], let c := cmd 0x0D 1 0 0
      let s := demoAsk more
      let d := (begun s c).dataIn c.prp1 c.prp2 4096
      startsB s c .admin = true ∧ bits c.cdw10.toNat 3 0 = 0 ∧ readLe (listReader d) 0 8 = 262144 + more
        ∧ readLe (listReader d) 8 8 = 262144 + more ∧ readLe (listReader d) 26 1 = 0 ∧ s.media.namespaces = []
        ∧ (pickBy (fun g => s.goodCapacity g - s.committed g) true (s.logGroupsOf c.fn)).isSome = true ∧ s.nsQuota c.fn = 262144)
    ∧ (let c := cmd 0x0D 1 0 1 0 0 0 0 1
       startsB (demoNs false) c .admin = true ∧ bits c.cdw10.toNat 3 0 = 1 ∧ c.nsid ≠ 0xFFFFFFFF
         ∧ ((demoNs false).namespace? c.fn c.nsid.toNat).isSome = true)
    ∧ (∀ ctrl ∈ [1, 2], let c := cmd 0x15 1 0 0 0 0 0 0 1
       let s := demoList false ctrl
       startsB s c .admin = true ∧ s.namespace? c.fn c.nsid.toNat = some { fn := 1, nsid := 1, blocks := 8, group := 1 }
         ∧ bits c.cdw10.toNat 3 0 = 0 ∧ readLe (listReader ((begun s c).dataIn c.prp1 c.prp2 4096)) 0 2 = 1
         ∧ readLe (listReader ((begun s c).dataIn c.prp1 c.prp2 4096)) 2 2 = ctrl)
    ∧ (∀ ses ∈ [0, 1, 2], let c := cmd 0x80 1 0 (512 * ses) 0 0 0 0 1
       startsB (demoNs false) c .admin = true ∧ bits c.cdw10.toNat 3 0 = 0 ∧ bits c.cdw10.toNat 8 4 = 0 ∧ c.nsid ≠ 0xFFFFFFFF
         ∧ bits c.cdw10.toNat 11 9 = ses ∧ (demoNs false).media.namespaces = [{ fn := 1, nsid := 1, blocks := 8, group := 1, attached := true }])
    ∧ (let c := cmd 0x84 0 0 2
       startsB { demo with tenants := [{}] } c .admin = true ∧ bits c.cdw10.toNat 2 0 = 2)
    ∧ (let c := cmd 0x84 0 0 2
       startsB demo c .admin = true ∧ ∃ x ∈ demo.tenants, x.runOpen = true)
    ∧ (let c := cmd 0x84 0 0 3
       startsB demo c .admin = true ∧ bits c.cdw10.toNat 2 0 ≠ 2) := by decide +kernel

theorem witness_RegisterWrites : demo.power.stage = .on
    ∧ (∀ x ∈ [(4, 2), (8, 4), (2, 0), (5, 0)], ¬((x.1 = 4 ∧ x.2 % 4 = 0) ∨ (x.1 = 8 ∧ x.2 % 8 = 0)))
    ∧ bits (21 : Qword).toNat 4 0 ≤ 21 ∧ 21 < bits (22 : Qword).toNat 4 0 ∧ bits (499 : Qword).toNat 11 0 < 500
    ∧ 850 < bits (851 : Qword).toNat 11 0 ∧ (0xFFC % 4 = 0 ∧ 0xFFC < 0x1000) ∧ (0x3FFFC % 4 = 0 ∧ 0x3FFFC < 0x40000) ∧ 0x60000 % 4 = 0
    ∧ (demoP fun p => { p with perst := true }).power.perst = true ∧ demo.power.perst = false ∧ demo.vfLive 0 = true
    ∧ demo.record 0 = some demoRec ∧ 0 < demo.tenants.length
    ∧ exec (.registerWrite .module 0x2000 4 ((20 : Qword) &&& 0xFFFFFFFF)) demo = .next (demoP fun p => { p with targetStep := 20 })
    ∧ exec (.registerWrite .module (0x2000 + 4) 4 ((20 : Qword) >>> 32)) (demoP fun p => { p with targetStep := 20 })
        = .next (demoP fun p => { p with targetStep := 20 }) := by
  refine ⟨rfl, by decide, by decide, by decide, by decide, by decide, by decide, by decide, by decide, rfl, rfl, by decide +kernel,
    by decide +kernel, by decide +kernel, by rfl, by rfl⟩

/-! ### Witnesses: packages, buffers, invocations, counters, runs, publishing, direct media -/

theorem witness_VendorChecks :
    (∀ x ∈ [(0x90, 0, 0), (0x92, 1, 0), (0xA0, 1, 1)], let c := cmd x.1 x.2.1 1 0 0 0 0 0 x.2.2
      (demo.begin c).isSome = true ∧ bits c.cdw0.toNat 9 8 = 0 ∧ bits c.cdw0.toNat 15 14 = 0 ∧ demo.svc.runSlot ≠ 2 ∧ c.sqid ≠ 0
        ∧ (∃ q ∈ (demo.ctrl c.fn).sqs, q.qid = c.sqid ∧ q.compute = true))
    ∧ (∀ x ∈ [(0x9C, 3), (0xA1, 5), (0xA1, 7)], let c := cmd x.1 1 1 x.2
      (demo.begin c).isSome = true ∧ c.fn ≠ 0 ∧ c.nsid = 0 ∧ (x.1 = 0x9C → bits c.cdw10.toNat 1 0 = 3)
        ∧ (x.1 = 0xA1 → 4 < bits c.cdw10.toNat 2 0))
    ∧ (let s : State := { demo with tenants := [{}] }
       let c := cmd 0x88 1 1 16773120 4096
       (s.begin c).isSome = true ∧ c.fn ≠ 0 ∧ c.nsid = 0 ∧ (s.tenant (c.fn - 1)).runOpen = false
         ∧ ceilDiv (inBytesOf c) 4096 * 4096 + outBytesOf c ≤ 16777216 ∧ deadlineOf c = 0) := by decide +kernel

/-- The zero bytes of a number in `n` bytes have no cell: the host memory that holds these numbers at these places. -/
def hostOf (l : List (Nat × Nat × Nat)) : Mem := l.flatMap fun x => cellsOf false x.1 (bytesOfLe x.2.1 x.2.2)
/-- The first piece of a package at 0x100000, its header's CRC `h` and the CRCs of its first three sections: DESCRIPTION,
RESERVATION, BUFFER_PLAN and PROGRAM at 4096, 8192, 12288 and 16384; entry masks 0xF, batch 1. -/
def demoPackage (h a b p : Nat) : Mem := hostOf [(0x100000, 8, 0x0F_B1_00_01_504D5856), (0x100008, 8, 16448), (0x100020, 4, 0x10001),
  (0x100024, 4, 64), (0x100028, 4, 64), (0x10002E, 2, 4), (0x100040, 8, 1 + 2 ^ 32 * a), (0x100048, 8, 4096), (0x100050, 8, 64),
  (0x100060, 8, 2 + 2 ^ 32 * b), (0x100068, 8, 8192), (0x100070, 8, 32), (0x100080, 8, 3 + 2 ^ 32 * p), (0x100088, 8, 12288),
  (0x100090, 8, 16), (0x1000A0, 8, 4), (0x1000A8, 8, 16384), (0x1000B0, 8, 64), (0x100FFC, 4, h), (0x102002, 1, 1), (0x102004, 1, 1), (0x200000, 8, 0x101000),
  (0x200008, 8, 0x102000), (0x200010, 8, 0x103000)]
/-- The commands and states of the witness: a first piece, and a second one of a model that has `got` bytes. -/
def demoAdmit (n off flags : Nat) : Cmd := { cmd 0x82 1 1 n off 0 (3 + flags) 0 with prp1 := 0x100000, prp2 := 0x200000 }
/-- The module with one model in slot 3 of VF 0. -/
def demoModel (m : Model) (invs : List Invocation := []) : State := { demo with tenants := [{ runOpen := true, models := [m] }], invocations := invs }
/-- A model that has received 12,304 bytes of a package of 16,448 with one section, of the type PROGRAM, at 4096. -/
def demoGot (length : Nat) : Model := { slot := 3, state := .receiving, received := 12304, packageLength := length
                                        package := { cells := hostOf [(0x2E, 2, 1), (0x40, 8, 4 + 2 ^ 32 * 0x48674BC7), (0x48, 8, 4096), (0x50, 8, 4)] } }
/-- An invocation of the model in slot 3. -/
def demoInv : Invocation := { ref := { fn := 1, sqid := 1, cid := 9 }, kind := .invoke, tenant := 0, slot := 3 }
theorem witness_PackageAdmission_pieces :
    (∀ n ∈ [3, 5], let c := demoAdmit n 0 0
      vendorB demo c false false = true ∧ bits c.cdw10.toNat 24 0 ≤ 16777216 ∧ c.fn - 1 < demo.tenants.length ∧ (n < 4 ∨ n % 4 ≠ 0))
    ∧ (let s := demo.modPers fun p => { p with job := .shares { fn := 0, sqid := 0, cid := 7 } 0 0 }
       vendorB s (demoAdmit 4 0 0) false false = true ∧ s.sharesExchange 0 = true ∧ demo.sharesExchange 0 = false)
    ∧ (let s := demoModel { slot := 3, state := .admitted }
       vendorB s (demoAdmit 4 0 0) false false = true ∧ (s.model? 0 3).map (·.state) = some .admitted)
    ∧ vendorB demo (demoAdmit 4 8 0) false false = true ∧ demo.model? 0 3 = none ∧ vendorB demo (demoAdmit 4092 0 0) false false = true
    ∧ (∀ length ∈ [16448, 16452], let s := demoModel (demoGot length)
       let c := demoAdmit 4144 12304 256
       let whole := (demoGot length).package.put 12304 ((begun s c).dataIn c.prp1 c.prp2 4144)
       vendorB s c false false = true ∧ s.model? 0 3 = some (demoGot length) ∧ c.cdw13.getLsbD 8 = true
         ∧ (∀ x ∈ sectionsOf whole.at, 4 ≤ x.type → crc32c (whole.get x.off x.len) = x.crc))
    ∧ (let s := demoModel { slot := 3, state := .admitted } [demoInv]
       vendorB s (cmd 0x84 1 1 3) false false = true ∧ (s.model? 0 3).map (·.state) = some .admitted
         ∧ 0 < (s.invocations.filter fun i => i.tenant == 0 && i.slot == 3).length)
    ∧ (let s := demoModel { slot := 3, state := .receiving }
       vendorB s (cmd 0x84 1 1 3) false false = true ∧ (s.model? 0 3).isSome = true ∧ s.invocations = [])
    ∧ (vendorB demo (cmd 0x84 1 1 3) false false = true ∧ demo.model? 0 3 = none) := by decide +kernel
/-- Neighbouring pieces of host memory are one piece. -/
theorem hostGet_append {s : State} (h : Memory.wf false s.host = true) (a m n : Nat) :
    s.hostGet a m ++ s.hostGet (a + m) n = s.hostGet a (m + n) := by
  simp only [State.hostGet, Mem.get_eq _ h, List.range_add, List.map_append, List.map_map, Function.comp_def, Nat.add_assoc]
/-- A reader of one piece of host memory. -/
theorem listReader_hostGet {s : State} (h : Memory.wf false s.host = true) (a n : Nat) :
    listReader (s.hostGet a n) = fun i => if i < n then Mem.at (fun _ => 0) s.host (a + i) else 0 := by
  funext i
  simp only [listReader, State.hostGet, Mem.get_eq _ h, List.getD_eq_getElem?_getD, List.getElem?_map]
  by_cases hi : i < n
  · simp [hi]
  · simp [hi]
theorem witness_PackageAdmission_first :
    let s : State := { demo with host := demoPackage 853770086 63499111 1027603607 1114675946 }
    let c := demoAdmit 12304 0 0
    vendorB s c false false = true ∧ s.model? 0 3 = none ∧ c.cdw13.getLsbD 8 = false
      ∧ ((begun s c).firstPieceBad 0 ((begun s c).dataIn c.prp1 c.prp2 12304) 0).isNone = true := by
  intro s c
  refine ⟨by decide +kernel, by decide +kernel, by decide +kernel, ?_⟩
  have hw : Memory.wf false (begun s c).host = true := by decide +kernel
  have hp : (begun s c).dataIn c.prp1 c.prp2 12304 = (begun s c).hostGet 0x100000 12304 := by
    have h : (begun s c).prps c.prp1 c.prp2 12304 = [(0x100000, 4096), (0x101000, 4096), (0x102000, 4096), (0x103000, 16)] := by decide +kernel
    have e1 := hostGet_append hw 0x100000 4096 (4096 + (4096 + 16))
    have e2 := hostGet_append hw 0x101000 4096 (4096 + 16)
    have e3 := hostGet_append hw 0x102000 4096 16
    rw [State.dataIn, h]
    simp only [List.flatMap_cons, List.flatMap_nil, List.append_nil]
    exact (congrArg _ ((congrArg _ e3).trans e2)).trans e1
  rw [hp]
  unfold State.firstPieceBad
  rw [listReader_hostGet hw]
  decide +kernel

/-- A 64 KiB buffer of VF 0 at index 5. -/
def demoBuf (plan : Option (Nat × Nat)) : Buffer := { index := 5, gen := 0, placement := .writeback, size := 65536, granules := 1, planOf := plan, dirty := [15] }
/-- The module with that buffer. -/
def demoB (plan : Option (Nat × Nat)) (invs : List Invocation := []) : State :=
  { demo with tenants := [{ runOpen := true, buffers := [demoBuf plan] }], invocations := invs }
theorem witness_BufferCommands :
    -- the whole quota of a placement, one granule more, and published extents
    (∀ size ∈ [64 * 65536, 64 * 65536 + 1], let c := cmd 0x98 1 1 (2 + 32) size
      vendorB demo c false false = true ∧ c.fn - 1 < demo.tenants.length ∧ c.cdw10.toNat < 64 ∧ placementOf c.cdw10.toNat = some .pinned
        ∧ c.cdw11.toNat + 2 ^ 32 * c.cdw12.toNat = size ∧ (demo.tenant (c.fn - 1)).buffers = []
        ∧ (granulesOf size ≤ demo.left (c.fn - 1) .pinned ↔ size = 64 * 65536))
    ∧ (let c := cmd 0x98 1 1 8 1048576
       let s := demo.modMedia fun m => { m with extents := [{ tenant := 0, extent := 0, group := 0, superblock := 1, position := 0 }] }
       vendorB s c false false = true ∧ placementOf c.cdw10.toNat = some .readonly ∧ bit c.cdw10.toNat 5 = false
         ∧ 1048576 % 1048576 = 0 ∧ s.published (c.fn - 1) c.cdw13.toNat (1048576 / 1048576) = true)
    ∧ (vendorB demo (cmd 0x98 1 1 64 4096) false false = true ∧ 64 ≤ (cmd 0x98 1 1 64 4096).cdw10.toNat)
    ∧ (let c := cmd 0x9A 1 1 (2 ^ 28 + 5)
       vendorB (demoB none) c false false = true ∧ bits c.cdw10.toNat 31 28 ≠ c.fn - 1)
    ∧ (let c := cmd 0x9A 1 1 (2 ^ 20 + 5)
       vendorB (demoB none) c false false = true ∧ bits c.cdw10.toNat 31 28 = c.fn - 1 ∧ (demoB none).handle? (c.fn - 1) c.cdw10.toNat = none)
    ∧ (∀ plan ∈ [none, some (3, 0)], let c := cmd 0x9A 1 1 5
       vendorB (demoB plan) c false false = true ∧ bits c.cdw10.toNat 31 28 = c.fn - 1
         ∧ (demoB plan).handle? (c.fn - 1) c.cdw10.toNat = some (demoBuf plan) ∧ (demoB plan).invocations = [])
    ∧ demo.power.stage = .on ∧ 0 < demo.tenants.length ∧ (demoB none).bufferAt 0 5 = some (demoBuf none) ∧ 15 ∈ (demoBuf none).dirty
    ∧ (∀ x ∈ demo.prot.dramStacks, x.poison = []) := by decide +kernel

/-- A model that admits each of the four commands, of a fixed batch or a variable one. -/
def demoMod (batch : Nat) : Model :=
  { slot := 3, state := .admitted, entryMask := 0xF, batch := batch, batchMax := 4, inItemBytes := 64, outItemBytes := 64
    engineMask := 0x3F, reservation := { spindles := 1, counters := 4, spill := 1, tile := 16 }, bound := [0] }
/-- INVOKE, SEARCH, EXTRACT or SERVICE of slot 3 with a batch, 1 as its parameter, and a completion bump or not. -/
def demoCall (batch bump : Nat) : Cmd := { cmd 0x88 1 1 (64 + 64 * batch) 4096 (3 + 256 * batch) 0 bump with cdw15 := 1, prp1 := 0x100000 }
/-- The module with that model, and 14 bindings of no buffer at 0x100000. -/
def demoM (m : Model) : State := { demoModel m with host := (List.range 56).map fun k => (0x100000 + k, 0xFF) }
theorem witness_InvocationCommands :
    (vendorB demo (demoCall 1 0) false true = true ∧ demo.model? 0 3 = none)
    ∧ (let s := demoM { demoMod 1 with entryMask := 0 }
       vendorB s (demoCall 1 0) false true = true ∧ s.model? 0 3 = some { demoMod 1 with entryMask := 0 })
    ∧ (∀ x ∈ [(1, 2), (0, 5)], vendorB (demoM (demoMod x.1)) (demoCall x.2 0) false true = true ∧ batchOf (demoCall x.2 0) = x.2)
    ∧ (let c := demoCall 0 0
       vendorB (demoM (demoMod 0)) c false true = true ∧ batchOf c = 0 ∧ c.cdw14.getLsbD 13 = false
         ∧ ∀ k ∈ [InvKind.invoke, .search, .extract, .service], (begun (demoM (demoMod 0)) c).invFieldsBad c k (demoMod 0) = false)
    ∧ (∀ x ∈ [(1, 1), (0, 4)], let c := demoCall x.2 0x2000
       let s := demoM (demoMod x.1)
       vendorB s c false true = true ∧ batchOf c = x.2 ∧ c.cdw14.getLsbD 13 = true ∧ s.ownsCtr (c.fn - 1) 0 = true
         ∧ ceilDiv (inBytesOf c) 4096 * 4096 + outBytesOf c ≤ 16777216 ∧ deadlineOf c = 0
         ∧ (∀ k ∈ [InvKind.invoke, .search, .extract, .service], (begun s c).invFieldsBad c k (demoMod x.1) = false)
         ∧ (∀ k, k < 14 → (begun s c).bindBad (c.fn - 1) (readLe (listReader ((begun s c).bufferGet c.prp1 c.prp2 (dataBytes (inBytesOf c) (outBytesOf c)) 0 64)) (4 * k) 4) = none)
         ∧ (s.tenant (c.fn - 1)).ending = none) := by decide +kernel

/-- The module with counter 0 of VF 0 at a value, saturated or not. -/
def demoCtr (v : Nat) (sat : Bool) : State := { demo with ctrs := { values := [(0, v)], saturated := if sat then [0] else [] } }
theorem witness_CounterCommands :
    (∀ x ∈ [(0, true), (15, true), (16, false)], let c := cmd 0x9C 1 1 0 x.1
      vendorB demo c false false = true ∧ bits c.cdw10.toNat 1 0 ≠ 3 ∧ counterOf c = x.1 ∧ demo.ownsCtr (c.fn - 1) x.1 = x.2)
    ∧ (∀ x ∈ [(0xFFFF, true), (0, false)], let c := cmd 0x9C 1 1 1 0 0xFFFF
      let s := demoCtr (2 ^ 48 - 1 - x.1) false
      vendorB s c false false = true ∧ (s.tenant 0).runOpen = true ∧ s.ownsCtr 0 0 = true ∧ s.ctrSat 0 = false ∧ s.ctrPoison 0 = none
        ∧ bits c.cdw10.toNat 1 0 = 1 ∧ bits c.cdw12.toNat 15 0 = 0xFFFF ∧ s.ctr 0 = 2 ^ 48 - 1 - x.1
        ∧ decide (s.ctr 0 + bits c.cdw12.toNat 15 0 ≤ ctrMax) = x.2)
    ∧ (∀ x ∈ [(5, true), (5, false), (4, false)], let c := cmd 0x9C 1 1 2 0 5
      let s := demoCtr x.1 x.2
      vendorB s c false false = true ∧ bits c.cdw14.toNat 15 0 = 0 ∧ s.ownsCtr 0 0 = true ∧ s.ctrSat 0 = x.2 ∧ waitValue c = 5
        ∧ s.ctr 0 = x.1 ∧ s.hostWaits 1 = [] ∧ c.opcode = 0x9C ∧ bits c.cdw10.toNat 1 0 = 2)
    ∧ (∀ v ∈ [5, 4], let w := cmd 0x9C 1 1 2 0 5
      let s := { demoHeld w true with ctrs := (demoCtr v false).ctrs }
      s.power.stage = .on ∧ (s.hostWaits w.fn).find? (fun x => x.ref == w.ref) = some w ∧ s.ctr (counterOf w) = v ∧ waitValue w = 5)
    ∧ (demo.power.perst = false ∧ demo.vfLive 0 = true ∧ (demo.record 0).isSome = true ∧ demo.ownsCtr 0 15 = true ∧ demo.ownsCtr 0 16 = false
        ∧ (demo.tenant 0).runOpen = true ∧ demo.ctrSat 15 = false ∧ demo.ctrPoison 15 = none ∧ demo.ctr 15 = 0) := by decide +kernel

/-- A publish session of one extent of index group 0. -/
def demoSession : Session := { group := 0, first := 1, count := 1 }
/-- The module with a closed run of VF 0 and, perhaps, a session. -/
def demoQuiet (k : Option Session) : State := { demo with tenants := [{ session := k }] }
theorem witness_RunCommands :
    (vendorB (demoModel (demoMod 1) [demoInv]) (cmd 0xA4 1 1) false false = true
      ∧ ((demoModel (demoMod 1) [demoInv]).tenant 0).runOpen = true ∧ (cmd 0xA4 1 1).opcode = 0xA4)
    ∧ (vendorB (demoQuiet (some demoSession)) (cmd 0xA4 1 1) false false = true ∧ (demoQuiet (some demoSession)).invocations = []
      ∧ bit ((demoQuiet (some demoSession)).indexMask 0) demoSession.group = true)
    ∧ (vendorB demo (cmd 0xA4 1 1) false false = true ∧ demo.invocations = [] ∧ (∀ y ∈ demo.tenants, y.session = none))
    ∧ (vendorB demo (cmd 0xA4 1 1 1) false false = true ∧ (demo.tenant 0).runOpen = true)
    ∧ (let s : State := { demoModel (demoMod 1) [demoInv] with pcie := (demoHeld { cmd 0x88 1 1 with cdw0 := 0x90088 } true).pcie }
       vendorB s (cmd 0xA4 1 1 1) false false = true ∧ (cmd 0xA4 1 1 1).cdw10.getLsbD 8 = false
         ∧ vendorB s (cmd 0xA4 1 1 257) false false = true ∧ (cmd 0xA4 1 1 257).cdw10.getLsbD 8 = true
         ∧ s.invocations.filter (·.tenant == 0) = [demoInv] ∧ (s.tenant 0).ending = none ∧ demoInv.phase = .waiting ∧ demoInv.tag = 0
         ∧ demoInv.silent = false ∧ ((s.ctrl 1).outstanding.any fun o => o.cmd.ref == demoInv.ref) = true) := by decide +kernel

/-- The module with a session of VF 0 that has its 256 units, in superblock 1 of group 0, whose 64 pages are programmed when
`whole`; in host memory at 0x100000 these bytes. -/
def demoPub (written : Nat) (whole : Bool) (host : Mem) : State :=
  let b : Superblock := { id := 1, group := 0, set := 0, use := .publish 0, slots := List.range 16, blocks := List.replicate 64 2 }
  { demo.modMedia fun m => { m with
      superblocks := [b], pages := if whole then (List.range 64).map fun q => let l := b.locate q
        { addr := b.page l.2.1 l.2.2 l.1, raw := {} } else [] } with
    tenants := [{ session := some { demoSession with written := written, superblocks := [(1, 0, 14)], issued := 0 } }], host := host }
/-- The session of `demoPub`. -/
def demoPubSession (written : Nat) : Session := { demoSession with written := written, superblocks := [(1, 0, 14)], issued := 0 }
theorem crcStep_lt {p c : Nat} (hp : p < 2 ^ 32) (h : c < 2 ^ 32) : crcStep p c < 2 ^ 32 := by
  unfold crcStep
  split
  · exact Nat.xor_lt_two_pow (by omega) hp
  · omega
theorem crcByte_lt {p c : Nat} (hp : p < 2 ^ 32) (b : Byte) (h : c < 2 ^ 32) : crcByte p c b < 2 ^ 32 := by
  have hb : b.toNat < 2 ^ 32 := by have := b.isLt; omega
  have : ∀ (n : Nat) (x : Nat), x < 2 ^ 32 → Nat.repeat (crcStep p) n x < 2 ^ 32 := by
    intro n
    induction n with
    | zero => exact fun _ h => h
    | succ n ih => exact fun x h => crcStep_lt hp (ih x h)
  exact this 8 _ (Nat.xor_lt_two_pow h hb)
/-- A CRC-32C is a 32-bit number. -/
theorem crc32c_lt (bs : List Byte) : crc32c bs < 2 ^ 32 := by
  refine Nat.xor_lt_two_pow ?_ (by decide)
  have : ∀ (l : List Byte) (c : Nat), c < 2 ^ 32 → l.foldl (crcByte 0x82F63B78) c < 2 ^ 32 := by
    intro l
    induction l with
    | nil => exact fun _ h => h
    | cons b bs ih => exact fun c h => ih _ (crcByte_lt (by decide) b h)
  exact this bs _ (by decide)
theorem leOfBytes_bytesOfLe (n v : Nat) (h : v < 256 ^ n) : leOfBytes (bytesOfLe n v) = v := by
  induction n generalizing v with
  | zero => simp at h; simp [bytesOfLe, leOfBytes, h]
  | succ n ih =>
    have : v / 256 < 256 ^ n := by rw [Nat.div_lt_iff_lt_mul (by decide)]; rw [Nat.pow_succ] at h; exact h
    simp only [bytesOfLe, leOfBytes, ih _ this, BitVec.toNat_ofNat]
    omega

theorem witness_PublishCommands :
    (let c := cmd 0xA6 1 1 0 0 3 1
     (vendorB demo c false false && decide (bits c.cdw10.toNat 2 0 ≤ 4)) = true ∧ c.cdw13.toNat ≠ 0 ∧ (demo.tenant 0).session = none ∧ demo.role (bits c.cdw11.toNat 1 0) = some .index
       ∧ bit (demo.indexMask 0) (bits c.cdw11.toNat 1 0) = true ∧ demo.pers.job = .none ∧ (∀ x ∈ demo.tenants, x.session = none)
       ∧ (demo.tenant 0).runOpen = true)
    ∧ (let c := cmd 0xA6 1 1 0 0 3 1
       let s := demoQuiet none
       vendorB s c false false = true ∧ s.role 0 = some .index ∧ bit (s.indexMask 0) 0 = true ∧ (∀ j, j < 16 → (s.tenant j).runOpen = false)
         ∧ c.cdw12.toNat + c.cdw13.toNat ≤ ((s.record 0).map (·.readonlyExtents)).getD 0
         ∧ s.committed 0 + c.cdw13.toNat * 1048576 + s.margin 0 ≤ s.goodCapacity 0)
    ∧ (let c := cmd 0xA6 1 1 1 0 4194304
       vendorB demo c false false = true ∧ (demo.tenant 0).session = none ∧ bits c.cdw12.toNat 24 0 ≤ 16777216 ∧ 4 * c.cdw12.toNat ≤ 16777216)
    ∧ (∀ x ∈ [(0, 4095), (1, 4096)], let c := cmd 0xA6 1 1 1 x.1 x.2
       vendorB (demoPub 0 true []) c false false = true ∧ ((demoPub 0 true []).tenant 0).session = some (demoPubSession 0)
         ∧ (bits c.cdw12.toNat 24 0 % 4096 ≠ 0 ∨ c.cdw11.toNat ≠ 0))
    ∧ (∀ w ∈ [0, 255], let c := cmd 0xA6 1 1 1 w 4096
       vendorB (demoPub w true []) c false false = true ∧ bits c.cdw12.toNat 24 0 % 4096 = 0 ∧ c.cdw11.toNat = w ∧ w + 4096 / 4096 ≤ 256 * 1
         ∧ 0 < bits c.cdw12.toNat 24 0 ∧ (w = 0 → (w + 4096 / 4096) / 4 ≤ (demoPubSession w).issued))
    ∧ (∀ whole ∈ [true, false], ∀ op ∈ [2, 3, 4], let c := cmd 0xA6 1 1 op 0 1
       vendorB (demoPub 256 whole []) c false false = true ∧ ((demoPub 256 whole []).tenant 0).session = some (demoPubSession 256)
         ∧ c.cdw12.toNat ≤ 4194304 ∧ 0 < c.cdw12.toNat ∧ c.cdw11.toNat + c.cdw12.toNat ≤ (demoPubSession 256).count
         ∧ 256 * (c.cdw11.toNat + c.cdw12.toNat) ≤ (demoPubSession 256).written ∧ (demoPub 256 whole []).media.jobs = [])
    ∧ (demoPubSession 255).written < 256 * (demoPubSession 255).count := by decide +kernel
theorem witness_PublishVerify_unreadable :
    (demoPub 256 false []).sessionExtent (demoPubSession 256) 0 = none := by decide +kernel
theorem witness_PublishVerify_same : ∃ bs host, (demoPub 256 true host).sessionExtent (demoPubSession 256) 0 = some bs
    ∧ crc32c bs = readLe (listReader ((begun (demoPub 256 true host) { cmd 0xA6 1 1 2 0 1 with prp1 := 0x100000 }).dataIn 0x100000 0 4)) 0 4 := by
  have h : ((demoPub 256 true []).sessionExtent (demoPubSession 256) 0).isSome = true := by decide +kernel
  obtain ⟨bs, hbs⟩ := Option.isSome_iff_exists.mp h
  have hd : ∀ b0 b1 b2 b3 : Byte, (begun (demoPub 256 true [(0x100000, b0), (0x100001, b1), (0x100002, b2), (0x100003, b3)])
      { cmd 0xA6 1 1 2 0 1 with prp1 := 0x100000 }).dataIn 0x100000 0 4 = [b0, b1, b2, b3] := fun _ _ _ _ => rfl
  let v := crc32c bs
  refine ⟨bs, [(0x100000, BitVec.ofNat 8 (v % 256)), (0x100001, BitVec.ofNat 8 (v / 256 % 256)),
    (0x100002, BitVec.ofNat 8 (v / 256 / 256 % 256)), (0x100003, BitVec.ofNat 8 (v / 256 / 256 / 256 % 256))], hbs, ?_⟩
  rw [hd]
  exact (leOfBytes_bytesOfLe 4 v (crc32c_lt bs)).symm

/-- The module with a retired block, an isolated channel and a retired die. -/
def demoDirect : State := demo.modMedia fun m => { m with
  retiredBlocks := [{ channel := 1, die := 15, plane := 3, block := 2047 }]
  channels := (List.replicate 32 {}).set 2 { isolated := true, isolateFault := 6 }, dies := (List.replicate 1024 {}).set 96 { retired := true, retireFault := 8 } }
theorem witness_DirectMedia : demoDirect.media.dies.length = 1024
    ∧ (∀ x ∈ [(4096, 0), (0, 2048)], vendorB demoDirect (cmd 0x92 0 1 x.1 x.2) true false = true
        ∧ (demoDirect.diesPerChannel ≤ (directAddr (cmd 0x92 0 1 x.1 x.2)).die ∨ 2048 ≤ (directAddr (cmd 0x92 0 1 x.1 x.2)).block))
    ∧ (let c := cmd 0x92 0 1 (1 + 256 * 15 + 65536 * 3) 2047 1023
       let a := directAddr c
       vendorB demoDirect c true false = true ∧ a.die < demoDirect.diesPerChannel ∧ a.block < 2048 ∧ a.page < demoDirect.pagesPerBlock
         ∧ demoDirect.deadFault a.channel a.die = none ∧ a.blockAddr ∈ demoDirect.media.retiredBlocks)
    ∧ (∀ x ∈ [(2, 6), (3, 8)], demoDirect.deadFault x.1 0 = some x.2 ∧ (directAddr (cmd 0x92 0 1 x.1)).channel = x.1)
    ∧ (demoDirect.die 3 0).retired = true
    ∧ (directAddr (cmd 0x92 0 1)).blockAddr ∉ demoDirect.media.retiredBlocks ∧ (demoDirect.die 0 0).retired = false := by decide +kernel

/-! ### Witnesses: invocations, spindles, engine queues -/

/-- `AtWord`, as a program. -/
def atWordB (s : State) (sp : Nat) (i : Invocation) (m : Model) (d : BitVec 512) : Bool :=
  s.engines && s.onSpindle sp == some i && s.model? i.tenant i.slot == some m && s.programWord i i.word == some d
    && s.invocations.all fun j => j.ref != i.ref || j == i
theorem atWord_of {s : State} {sp : Nat} {i : Invocation} {m : Model} {d : BitVec 512} (h : atWordB s sp i m d = true) : AtWord s sp i m d := by
  simp only [atWordB, Bool.and_eq_true, List.all_eq_true, Bool.or_eq_true, bne_iff_ne, beq_iff_eq] at h
  obtain ⟨⟨⟨⟨h1, h2⟩, h3⟩, h4⟩, h5⟩ := h
  exact ⟨h1, h2, h3, h4, fun j hj hr => (h5 j hj).resolve_left fun hn => hn hr⟩
/-- A model of one program word. -/
def demoProgram (d : BitVec 512) (spill : Nat := 1) : Model :=
  { demoMod 1 with programLen := 64, package := Region.ofBytes (bytesOfLe 64 d.toNat), reservation := { spindles := 1, counters := 4, spill := spill } }
/-- The module whose spindle 0 is at that word, with `slots` entries of the tenant at DMA queue 0 and counter 0 at `v`. -/
def demoAt (m : Model) (i : Invocation) (slots : Nat := 0) (v : Nat := 0) : State :=
  { demoModel m [i] with
    pcie := (demoHeld { cmd 0x88 1 1 with cdw0 := 0x90088 } true).pcie
    queues := (List.replicate 78 {}).set 0 { entries := List.replicate slots { tenant := 0, tag := 1 } }
    ctrs := (demoCtr v false).ctrs }
/-- The invocation on spindle 0. -/
def demoOn (phase : InvPhase) (stack spilled : List WinFrame := []) : Invocation :=
  { demoInv with phase := phase, tag := 1, bases := [0, 0, 0, 0], stack := stack, spilled := spilled }

theorem witness_InvocationPhases :
    (∀ last ∈ [0, 0xFFFE], let m := { demoMod 1 with bound := [0, 1] }
      let s : State := { demoModel m [demoInv] with tenants := [{ runOpen := true, models := [m], lastTag := last, anchors := [0] }] }
      s.engines = true ∧ s.model? 0 3 = some m ∧ s.invocations.find? (fun i => i.tenant == 0 && i.slot == 3 && i.phase == .waiting) = some demoInv
        ∧ m.bound.zipIdx.find? (fun b => (s.onSpindle b.1).isNone) = some (0, 0) ∧ 0 < s.tenants.length ∧ s.prot.damaged = []
        ∧ (s.tenant 0).lastTag < 0xFFFF ∧ (∀ j ∈ s.invocations, j.tenant = 0 → j.tag ≠ (s.tenant 0).lastTag + 1)
        ∧ m.reservation.counters = 4)
    ∧ (∀ x ∈ [(InvPhase.persisting, none), (.persisting, some (0, 5)), (.draining, none), (.draining, some (15, 5))],
        let i := { demoOn x.1 with cbump := x.2 }
        let m := demoProgram 0
        let s := demoAt m i
        s.engines = true ∧ s.onSpindle 0 = some i ∧ (∀ j ∈ s.invocations, j.ref = i.ref → j = i) ∧ s.hasCommands i = false ∧ heldB s i.ref = true
          ∧ i.silent = false ∧ s.model? 0 3 = some m ∧ m.persistBytes = 0 ∧ headerBump m (s.wordAt i) = none ∧ (s.tenant 0).runOpen = true
          ∧ (∀ c ∈ [0, 15], s.ownsCtr 0 c = true ∧ s.ctrSat c = false ∧ s.ctrPoison c = none ∧ s.ctr c + 5 ≤ ctrMax))
    ∧ (let i := demoOn .draining
       let m := { demoProgram 0 with persistBytes := 64, imageLen := 64 }
       let s := demoAt m i
       s.onSpindle 0 = some i ∧ s.hasCommands i = false ∧ s.model? 0 3 = some m ∧ 0 < m.persistBytes ∧ 0 < m.imageLen
         ∧ s.slotFree 0 0 = true ∧ s.queues.length = 78 ∧ headerBump m (s.wordAt i) = none ∧ (∀ x ∈ s.invocations, x.phase ≠ .drained)) := by
  decide +kernel

theorem witness_SpindleIssue :
    (∀ cls ∈ [0, 1, 2, 3, 4, 5], ∀ phase ∈ [InvPhase.running, .stalled], let d := word cls 1 1
      let i := demoOn phase
      let s := demoAt (demoProgram d) i
      atWordB s 0 i (demoProgram d) d = true ∧ s.queues.length = 78 ∧ classOf d = cls ∧ (queueOf (classOf d) (instanceOf d)).isSome = true
        ∧ (demoProgram d).engineMask.getLsbD (classOf d) = true ∧ waitEn d = false ∧ fld d 12 15 15 ≠ 1
        ∧ ∀ q, q < 78 → (s.queue q).offline = none ∧ s.slotFree 0 q = true)
    ∧ (∀ x ∈ [(4, false), (3, true)], let d := word 0 1 0
       let i := demoOn .running
       let s := demoAt (demoProgram d) i x.1
       atWordB s 0 i (demoProgram d) d = true ∧ queueOf (classOf d) (instanceOf d) = some 0 ∧ s.slotFree 0 0 = x.2)
    ∧ (∀ x ∈ [(7, 0, 0), (6, 8, 0), (0, 1, 8)], let d := word x.1 x.2.1 x.2.2
       let i := demoOn .running
       atWordB (demoAt (demoProgram d) i) 0 i (demoProgram d) d = true ∧ (6 < classOf d ∨ (classOf d = 6 ∧ 7 < opOf d)
         ∨ (classOf d ≤ 5 ∧ queueOf (classOf d) (instanceOf d) = none)))
    ∧ (let d := word 0 1 0
       let i := demoOn .running
       let m := { demoProgram d with engineMask := 0x3E }
       atWordB (demoAt m i) 0 i m d = true ∧ classOf d ≤ 5 ∧ m.engineMask.getLsbD (classOf d) = false)
    ∧ (∀ v ∈ [5, 4], let d := word 6 5 0 + BitVec.ofNat 512 (2 ^ 12 + 5 * 2 ^ 64)
       let i := demoOn .waitCtr
       let m := demoProgram d
       let s := demoAt m i 0 v
       atWordB s 0 i m d = true ∧ i.met = false ∧ classOf d = 6 ∧ opOf d = 5 ∧ waitEn d = true ∧ fld d 6 12 0 < m.reservation.counters ∧ fld d 12 15 15 = 0
         ∧ s.ctrPoison 0 = none ∧ s.ctrSat 0 = false ∧ i.target (fld d 6 12 0) (fld d 8 31 0) (iterScale d) = 5 ∧ s.ctr 0 = v) := by
  decide +kernel

/-- A frame of a loop, and a stack of `n` of them. -/
def demoFrame (iter : Nat) : WinFrame := .loop 4 2 iter
/-- A control word: its operation, and its bytes 16 on. -/
def control (op body : Nat) : BitVec 512 := word 6 op 0 + BitVec.ofNat 512 (2 ^ 128 * body)
theorem witness_ControlOperations :
    (∀ x ∈ [(0, 0, []), (1, 0, []), (1, 1, []), (1, 2, List.replicate 7 (demoFrame 0)), (2, 0, [demoFrame 0]), (2, 0, [demoFrame 1]),
        (2, 0, [demoFrame 1, demoFrame 0]), (2, 0, []), (2, 0, [.call 3]), (3, 9, List.replicate 7 (demoFrame 0)), (4, 0, [.call 3]),
        (4, 0, [.call 3, demoFrame 0]), (4, 0, [demoFrame 0]), (4, 0, []), (5, 0, []), (6, 0, []), (7, 3, []), (7, 2 ^ 32 * 1, []),
        (7, 2 ^ 32 * 5, [])], let d := control x.1 x.2.1
      let i := demoOn .running x.2.2
      let s := demoAt (demoProgram d) i 0 4
      atWordB s 0 i (demoProgram d) d = true ∧ i.phase = .running ∧ classOf d = 6 ∧ waitEn d = false ∧ fld d 12 15 15 = 0 ∧ opOf d = x.1
        ∧ fld d 16 31 0 = x.2.1 % 2 ^ 32 ∧ (x.1 = 7 → fld d 16 12 0 < 4 ∧ s.ctrPoison (fld d 16 12 0) = none ∧ s.ctrSat (fld d 16 12 0) = false))
    ∧ (let d := control 1 1
       let i := demoOn .running (List.replicate 8 (demoFrame 0))
       let m := demoProgram d 0
       atWordB (demoAt m i) 0 i m d = true ∧ fld d 16 31 0 ≠ 0 ∧ 8 ≤ i.stack.length ∧ spillBudget m ≤ i.spilled.length)
    ∧ (∀ x ∈ [(2, [demoFrame 1]), (2, [demoFrame 1, demoFrame 0]), (4, [.call 3, demoFrame 0])], let d := control x.1 0
       let i := demoOn .running x.2 [demoFrame 0]
       atWordB (demoAt (demoProgram d) i) 0 i (demoProgram d) d = true ∧ opOf d = x.1)
    ∧ (let d := control 6 0 + BitVec.ofNat 512 (2 ^ 96 * (3 + 2 ^ 15 + 2 ^ 16 * 65535))
       let i := demoOn .running
       let s := demoAt (demoProgram d) i
       atWordB s 0 i (demoProgram d) d = true ∧ fld d 12 15 15 = 1 ∧ opOf d = 6 ∧ fld d 12 12 0 = 3 ∧ fld d 14 15 0 = 65535
         ∧ (s.tenant 0).runOpen = true ∧ s.ownsCtr 0 3 = true ∧ s.ctrSat 3 = false ∧ s.ctrPoison 3 = none ∧ s.ctr 3 + 65535 ≤ ctrMax) := by
  decide +kernel

/-- The module with these entries at DMA queue 0, and the invocation they belong to running. -/
def demoQ (es : List QEntry) (i : Invocation) (deficits : List Int := List.replicate 16 1) : State :=
  { demoAt (demoProgram (word 0 1 0)) i with queues := (List.replicate 78 {}).set 0 { entries := es, deficits := deficits } }
/-- An entry of a word, FILL of no bytes unless it is given. -/
def demoEntry (outcome : CmdOutcome) (expedite : Bool := false) : QEntry :=
  { tenant := 0, tag := 1, desc := word 0 2 0 + BitVec.ofNat 512 (2 ^ 192 * 0), outcome := outcome, expedite := expedite }
/-- An `Except` holds a value that passes. -/
def okB (x : Except StopReason Work) (p : Work → Bool) : Bool := match x with
  | .ok w => p w
  | .error _ => false
/-- The work of a start check that passes. -/
theorem ok_of {x : Except StopReason Work} {p : Work → Bool} (h : okB x p = true) : ∃ w, x = .ok w ∧ p w = true := by
  cases x with
  | ok w => exact ⟨w, rfl, h⟩
  | error r => cases h

theorem witness_EngineArbitration_start :
    -- the oldest of one kind starts, an expedited one before older ones
    ∀ x ∈ [([demoEntry .queued, demoEntry .queued], 0, demoEntry .queued), ([demoEntry .queued, demoEntry .queued true], 1, demoEntry .queued true)],
      let s := demoQ x.1 (demoOn .running)
      s.engines = true ∧ 0 < s.queues.length ∧ (s.queue 0).offline = none ∧ s.instanceFree 0 = true ∧ (s.queue 0).entries = x.1
        ∧ (s.queue 0).entries[x.2.1]? = some x.2.2 ∧ s.ready 0 x.2.1 x.2.2 = true ∧ x.2.2.tenant = (s.queue 0).pointer
        ∧ (s.queue 0).deficits.length = 16 ∧ 0 < (s.queue 0).deficits.getD x.2.2.tenant 0 ∧ okB (s.entryWork 0 x.2.2) (fun _ => true) = true
        ∧ x.1.zipIdx.all (fun f => (x.2.2.expedite && (!f.1.expedite || decide (x.2.1 ≤ f.2))) || (!f.1.expedite && decide (x.2.1 ≤ f.2))) = true := by
  decide +kernel
theorem witness_EngineArbitration_end :
    (let s := demoQ [demoEntry .started] (demoOn .running)
     s.engines = true ∧ (∀ e ∈ (s.queue 0).entries, e.outcome = .started ∧ e.begun = false) ∧ (s.queue 0).entries ≠ []
       ∧ (s.queue 0).offline = none)
    ∧ (∀ e ∈ [demoEntry .done, { demoEntry .done with bump := some (15, 65535) }, { demoEntry .done with bump := some (0, 1), discard := true },
        demoEntry (.failed .badBody 0)], let i := demoOn .running
      let s := demoQ [e] i
      s.engines = true ∧ 0 < s.queues.length ∧ (s.queue 0).entries = [e] ∧ e.origin = .word ∧ s.invocation? 0 1 = some i ∧ i.phase = .running
        ∧ (∀ j ∈ s.invocations, j.phase ≠ .waitHome ∧ j.phase ≠ .drained ∧ (j.ref = i.ref → j = i)) ∧ i.raced = false ∧ (s.tenant 0).runOpen = true
        ∧ s.ownsCtr 0 15 = true ∧ s.ctrSat 15 = false ∧ s.ctrPoison 15 = none ∧ s.ctr 15 + 65535 ≤ ctrMax)
    ∧ (∀ q ∈ [0, 77], (demo.queue q).offline = none ∧ q < demo.queues.length)
    ∧ demo.queues.length = 78 ∧ demo.bistMayTake 0 = true
    ∧ (let s := demo.modQueue 77 fun x => { x with bist := true }
       s.engines = true ∧ (s.queue 77).bist = true) := by decide +kernel

/-! ### Witnesses: the operations of the engines -/

/-- `Running`, as a program. -/
def runB (s : State) (q cls op k : Nat) (e : QEntry) (i : Invocation) : Bool :=
  s.engines && ((s.queue q).entries.findIdx? fun x =>
      x.origin == .word && x.outcome == .started && classOf x.desc == cls && opOf x.desc == op && !(cls == 5 && x.begun)) == some k
    && (s.queue q).entries[k]? == some e && s.invocation? e.tenant e.tag == some i
theorem running_of {s : State} {q cls op k : Nat} {e : QEntry} {i : Invocation} (h : runB s q cls op k e i = true) :
    Running s q cls op k e i := by
  simp only [runB, Bool.and_eq_true, beq_iff_eq] at h
  exact ⟨h.1.1.1, by simpa using h.1.1.2, h.1.2, h.2⟩
/-- `Sound`, as a program. -/
def soundB (s : State) : Bool :=
  (s.prot.dramStacks.all fun k => k.poison == []) && (s.prot.sram.all fun u => u.poison == []) && s.media.extents.all fun e => e.bad == []
theorem sound_of {s : State} (h : soundB s = true) : Sound s := by
  simpa [soundB, Sound, and_assoc, List.all_eq_true] using h
/-- `Backed`, as a program. -/
def backedB (s : State) (i : Invocation) (p : Span) : Bool :=
  match (s.settle i.tenant p).space with
  | .home m => decide (i.tenant < s.tenants.length) && (((s.tenant i.tenant).homes.lookup m).getD {}).wf
  | .buf x pl => pl != .readonly && match s.bufferAt i.tenant x with
    | some b => b.data.wf
    | none => false
  | .hostOut => !i.silent
  | _ => false
theorem backed_of {s : State} {i : Invocation} {p : Span} (h : backedB s i p = true) : Backed s i p := by
  unfold backedB at h
  unfold Backed
  split at h <;> simp_all
  split at h <;> simp_all
/-- `PairsOk` and `RaspOk`, as programs. -/
def pairsB (s : State) : Bool :=
  s.pairs.length == 16 && s.pairs.all fun p => p.acc.length == 8 && p.tiles.length == 16 && p.masks.length == 8
    && p.acc.all (fun a => a.data.wf) && p.tiles.all fun g => g.data.wf
theorem pairs_of {s : State} (h : pairsB s = true) : PairsOk s := by
  simpa [pairsB, PairsOk, and_assoc, List.all_eq_true] using h
/-- See `pairsB`. -/
def raspB (s : State) : Bool := s.rasp.length == 32 && s.rasp.all fun u => u.ctxs.length == 4
theorem rasp_of {s : State} (h : raspB s = true) : RaspOk s := by
  simpa [raspB, RaspOk, List.all_eq_true] using h

/-- An engine word: its class, its operation, and bytes 16 on given as byte offset and value. -/
def opWord (cls op : Nat) (fields : List (Nat × Nat)) : BitVec 512 :=
  word cls op 0 + BitVec.ofNat 512 (fields.foldl (fun a f => a + 2 ^ (8 * f.1) * f.2) 0)
/-- The started entry of that word. -/
def opEntry (d : BitVec 512) : QEntry := { tenant := 0, tag := 1, desc := d, outcome := .started }
/-- The invocation of those words: 4 KiB of input and of output, two buffers bound. -/
def opInv : Invocation := { demoOn .running with inBytes := 4096, outBytes := 4096, binds := [5, 6] }
/-- The pairs: accumulator tiles 0 and 1, Gouge tile 0 and mask register 0 are the invocation's. -/
def demoPair : Pair :=
  let h : Option Holder := some { tenant := 0, tag := 1 }
  { acc := { holder := h } :: { holder := h, kind := .int32 } :: List.replicate 6 {}, tiles := { holder := h } :: List.replicate 15 {}
    masks := { holder := h, mask := 5 } :: List.replicate 7 {} }
/-- The Rasp units: contexts 0 and 1 are the invocation's, of the layout of group 0. -/
def demoRasp : RaspUnit :=
  let c : Context := { holder := some { tenant := 0, tag := 1 }, codeBytes := 8, heapK := 1024 }
  { ctxs := [c, { c with kind := 2, heapK := 1 }, {}, {}] }
/-- A layout of 64-byte records with 8-byte codes. -/
def demoLayout : Layout := { recordBytes := 64, codeOffset := 0, codeBytes := 8, subcodeBits := 8, normOffset := none, idOffset := 8, idBytes := 8 }
/-- The module with an entry at queue `q`: buffer 5 in DRAM, buffer 6 read-only, one published extent. -/
def demoOp (q : Nat) (e : QEntry) : State :=
  { demo with
    tenants := [{ runOpen := true, models := [{ demoProgram e.desc with reservation := { spindles := 1, counters := 4, spill := 1, tile := 16 } }], anchors := [0], homes := [(3, {})]
                  buffers := [demoBuf none, { demoBuf none with index := 6, placement := .readonly }] }]
    invocations := [opInv], pairs := List.replicate 16 demoPair, rasp := List.replicate 32 demoRasp
    pers := { demo.pers with layouts := [[demoLayout], [], [], []] }
    media := { demo.media with extents := [{ tenant := 0, extent := 0, group := 1, superblock := 1, position := 0 }] }
    queues := (List.replicate 78 {}).set q { entries := [e], deficits := List.replicate 16 1 } }
/-- Buffer addresses: the home, binding 0 or 1, the host's input and output. -/
def aHome (off : Nat) : Nat := off
/-- See `aHome`. -/
def aBind (n off : Nat) : Nat := 2 ^ 60 + 2 ^ 48 * n + off
/-- See `aHome`. -/
def aIn (off : Nat) : Nat := 3 * 2 ^ 60 + off
/-- See `aHome`. -/
def aOut (off : Nat) : Nat := 4 * 2 ^ 60 + off
/-- A queued command whose start gives its invocation a tile, a register, a context or a flow, by its queue: work that passes and
claims as `p` says. -/
def claimB (q : Nat) (d : BitVec 512) (p : Work → Bool) : Bool :=
  let e := { opEntry d with outcome := .queued }
  let s := demoOp q e
  s.engines && decide (q < s.queues.length) && (s.queue q).offline == none && s.instanceFree q && s.ready q 0 e && pairsB s && raspB s
    && (s.queue q).deficits.length == 16 && decide (0 < (s.queue q).deficits.getD 0 0) && okB (s.entryWork q e) p
theorem witness_EngineArbitration_claims :
    (∀ q ∈ [8, 23], claimB q (opWord 1 2 [(36, 8), (37, 7)]) (fun w => w.claimAcc == some (7, .int32) && w.flow == none) = true)
    ∧ (∀ q ∈ [24, 39], claimB q (opWord 2 4 [(16, 1), (18, 1), (19, 15), (36, 1)]) (fun w => w.claimTile == some 15) = true
      ∧ claimB q (opWord 2 6 [(16, 7), (17, 1), (18, 3)]) (fun w => w.claimMask == some 7) = true)
    ∧ (∀ q ∈ [40, 47], claimB q (opWord 3 1 [(32, 3 + 2 ^ 16 * 8), (36, 1)]) (fun w => w.claimCtx == some 3) = true)
    ∧ (∀ q ∈ [74, 77], claimB q (opWord 5 1 [(24, 4), (32, 5)]) (fun w => w.flow != none) = true) := by decide +kernel

/-- What a command meets that may start: a sound module, and pieces it may write. -/
def startB (q cls op : Nat) (d : BitVec 512) (work : State → Invocation → QEntry → Except StopReason Work) (p : Work → Bool := fun _ => true) : Bool :=
  let s := demoOp q (opEntry d)
  runB s q cls op 0 (opEntry d) opInv && soundB s
    && pairsB s && raspB s && okB (work s opInv (opEntry d)) fun w => w.writes.all (fun p => p.len == 0 || backedB s opInv p) && p w

/-- The start checks of every operation. -/
def checksOf : List (Nat × Nat × Nat × (State → Invocation → QEntry → Except StopReason Work)) :=
  [(0, 0, 1, State.copyWork), (0, 0, 2, State.fillWork), (0, 0, 3, State.gatherWork), (8, 1, 1, State.mmaWork 8), (8, 1, 2, State.accZeroWork),
    (8, 1, 3, State.accLoadWork), (24, 2, 1, State.tileWork 24), (24, 2, 2, State.tileReduceWork 24), (24, 2, 3, State.softmaxWork 24),
    (24, 2, 4, State.streamWork 24), (24, 2, 5, State.streamReduceWork 24), (24, 2, 6, State.maskSetWork), (24, 2, 7, State.gougeReleaseWork),
    (24, 2, 8, State.listWork false), (24, 2, 9, State.listWork true), (40, 3, 1, State.loadCtxWork 40), (40, 3, 2, State.scanWork 40),
    (40, 3, 3, State.emitWork 40), (40, 3, 4, State.ctxReleaseWork), (72, 4, 1, State.burlWork), (72, 4, 2, State.burlWork), (74, 5, 1, State.peerWork)]
theorem witness_DmaAndBurlOperations_checks : ∀ x ∈ checksOf, let d := opWord x.2.1 x.2.2.1 [(16, 2 ^ 384 - 1)]
    runB (demoOp x.1 (opEntry d)) x.1 x.2.1 x.2.2.1 0 (opEntry d) opInv = true
      ∧ okB (x.2.2.2 (demoOp x.1 (opEntry d)) opInv (opEntry d)) (fun _ => true) = false := by decide +kernel

theorem witness_DmaAndBurlOperations_dma :
    opInv.silent = false
    -- COPY between each two spaces, to the last byte; none at all
    ∧ (∀ x ∈ [(aIn 0, aHome 0, 4096), (aHome 1048572, aOut 4092, 4), (aBind 0 65532, aHome 2, 4), (aHome 2, aBind 0 0, 65536),
        (aBind 1 0, aHome 0, 4), (aBind 0 0, aBind 0 4, 8), (aBind 0 0, aHome 0, 0)],
        startB 0 0 1 (opWord 0 1 [(16, x.1), (24, x.2.1), (32, x.2.2)]) State.copyWork = true)
    ∧ (∀ x ∈ [(aHome 0, 4), (aHome 1048572, 4), (aBind 0 65532, 4), (aHome 0, 0)],
        startB 7 0 2 (opWord 0 2 [(24, x.1), (32, x.2), (48, 0xDEADBEEF)]) State.fillWork = true)
    ∧ (∀ x ∈ [(0, 4), (1, 65536), (2, 4)],
        startB 0 0 3 (opWord 0 3 [(16, aBind 0 0), (24, aHome 0), (32, x.2), (48, aHome 65536), (56, x.1)]) State.gatherWork = true) := by decide +kernel
/-- Every die is in use, as a program. -/
def liveB (s : State) : Bool := (s.media.dies.all fun x => !x.retired) && s.media.channels.all fun x => !x.isolated
theorem live_of {s : State} (h : liveB s = true) (c d : Nat) : s.dieLive c d = true := by
  simp only [liveB, Bool.and_eq_true, List.all_eq_true, Bool.not_eq_true'] at h
  simp only [State.dieLive, State.die, State.channel, Bool.and_eq_true, Bool.not_eq_true']
  constructor
  · rw [List.getD_eq_getElem?_getD]; cases hx : s.media.dies[32 * c + d]? with
    | none => rfl
    | some x => exact h.1 x (List.mem_of_getElem? hx)
  · rw [List.getD_eq_getElem?_getD]; cases hx : s.media.channels[c]? with
    | none => rfl
    | some x => exact h.2 x (List.mem_of_getElem? hx)
theorem witness_DmaAndBurlOperations_bringUp :
    (∀ x ∈ [aIn 0, aBind 1 0], let d := opWord 0 1 [(16, x), (24, aHome 64), (32, 4)]
      let e := { opEntry d with outcome := .queued }
      let s := demoOp 0 e
      (s.queue 0).entries[0]? = some e ∧ e.origin = .word ∧ s.waitMet e = true ∧ s.invocation? e.tenant e.tag = some opInv
        ∧ e.tenant < s.tenants.length ∧ liveB s = true
        ∧ okB (s.dmaWork opInv e) (fun w => w.units == if x = aIn 0 then [] else [(none, 0)]) = true
        ∧ s.unitReady e.tenant (none, 0) = false ∧ (s.pool e.tenant none).coming = []
        ∧ (s.pool e.tenant none).units.length + (s.pool e.tenant none).coming.length < s.poolUnits e.tenant none) := by decide +kernel

/-- A Burl command: a directory at 8, a result at 64, `MAX_KP`, 4 levels, thresholds; `more` are its other fields. -/
def burlWord (op n : Nat) (more : List (Nat × Nat)) : BitVec 512 := opWord 4 op ([(32, 64), (40, n), (42, 4), (43, 20), (44, 9)] ++ more)
/-- A JPEG stream of 48 by 48 grey pixels: one quantiser, one code in each table, 36 blocks of 2 bits. -/
def greyStream (marker : Nat) : List Nat :=
  [0xFF, 0xD8, 0xFF, 0xDB, 0, 67, 0] ++ List.replicate 64 1 ++ [0xFF, marker, 0, 11, 8, 0, 48, 0, 48, 1, 1, 0x11, 0]
    ++ [0xFF, 0xC4, 0, 20, 0, 1] ++ List.replicate 15 0 ++ [0] ++ [0xFF, 0xC4, 0, 20, 0x10, 1] ++ List.replicate 15 0 ++ [0]
    ++ [0xFF, 0xDA, 0, 8, 1, 1, 0, 0, 63, 0] ++ List.replicate 9 0 ++ [0xFF, 0xD9]
/-- The module of a FRAME_JPEG whose stream stands at 8192 of the home, named by the directory at 8. -/
def demoJpeg (q : Nat) (d : BitVec 512) (bs : List Nat) : State :=
  let s := demoOp q (opEntry d)
  { s with tenants := s.tenants.map fun t => { t with homes := [(3, Region.ofBytes (List.replicate 8 0 ++ bytesOfLe 4 8192 ++ bytesOfLe 4 bs.length
      ++ List.replicate 8176 0 ++ bs.map (BitVec.ofNat 8)))] } }
theorem witness_DmaAndBurlOperations_burl : opInv.phase ≠ .stopping ∧ opInv.silent = false ∧ demo.burl.length = 2
    -- a directory entry of no bytes
    ∧ (∀ q ∈ [72, 73], let d := burlWord 1 1 [(24, 8)]
      let s := demoJpeg q d []
      runB s q 4 1 0 (opEntry d) opInv = true ∧ soundB s = true ∧ opInv ∈ s.invocations
        ∧ okB (s.burlWork opInv (opEntry d)) (fun w => w.writes.all (backedB s opInv) && s.burlImage opInv (opEntry d) w == none) = true)
    -- a stream that is progressive
    ∧ (let d := burlWord 1 1 [(24, 8)]
       let s := demoJpeg 72 d (greyStream 0xC2)
       runB s 72 4 1 0 (opEntry d) opInv = true ∧ soundB s = true
         ∧ okB (s.burlWork opInv (opEntry d)) (fun w => w.writes.all (backedB s opInv) && match s.burlImage opInv (opEntry d) w with
           | some (.error x) => x.why == .coding
           | _ => false) = true)
    -- a raw frame of the least size
    ∧ (let d := burlWord 2 8192 [(16, 524288), (56, 48), (58, 48), (60, 48)]
       let s := demoOp 72 (opEntry d)
       runB s 72 4 2 0 (opEntry d) opInv = true ∧ soundB s = true
         ∧ okB (s.burlWork opInv (opEntry d)) (fun w => w.writes.all (backedB s opInv) && match s.burlImage opInv (opEntry d) w with
           | some (.ok x) => x.1.width == 48 && x.1.height == 48
           | _ => false) = true) := by decide +kernel

/-- The fields of a Lathe word: its operands at 0 and 64 of the home. -/
def latheFields (k fa fb tile clear m n : Nat) : List (Nat × Nat) :=
  [(16, 0), (24, 64), (32, k), (36, fa + 16 * fb), (37, tile + 8 * clear), (38, m), (39, n)]
theorem witness_LatheOperations :
    (∀ q ∈ [8, 23],
      (∀ x ∈ [(0, 3, 3, 0, 0, 0, 0), (1, 3, 4, 0, 0, 127, 127), (1, 1, 1, 0, 1, 0, 127), (2, 2, 2, 7, 1, 127, 0), (4095, 4, 3, 0, 0, 5, 6),
          (4, 5, 6, 1, 0, 127, 127), (16383, 7, 7, 1, 1, 0, 0)],
        startB q 1 1 (opWord 1 1 (latheFields x.1 x.2.1 x.2.2.1 x.2.2.2.1 x.2.2.2.2.1 x.2.2.2.2.2.1 x.2.2.2.2.2.2)) (State.mmaWork q)
          (fun w => x.1 == 0 || w.reads.length == 2) = true)
      ∧ (∀ x ∈ [(0, 0), (8, 7)], startB q 1 2 (opWord 1 2 [(36, x.1), (37, x.2)]) State.accZeroWork = true)
      ∧ (∀ x ∈ [(0, 0, 0), (983040, 8, 7)], startB q 1 3 (opWord 1 3 [(16, x.1), (36, x.2.1), (37, x.2.2)]) State.accLoadWork
          (fun w => w.reads.length == 1) = true)) := by decide +kernel

/-- The fields of a Gouge word: source kind, format and tile, destination kind, format and tile; addresses 0 and 131072. -/
def gougeFields (sk sf st dk df dt : Nat) : List (Nat × Nat) :=
  [(16, sk + 16 * sf), (17, st), (18, dk + 16 * df), (19, dt), (20, 0), (28, if dk = 2 then 131072 else 0)]
/-- A Gouge command that may start, and whose later rows do not read what an earlier one stores. -/
def apartB (q op : Nat) (fields : List (Nat × Nat)) (work : State → Invocation → QEntry → Except StopReason Work) (steps : Nat) : Bool :=
  let d := opWord 2 op fields
  startB q 2 op d work fun w => (dstKind d != 1 || (chainOf d steps).all fun v => opndOf v != 2 || idxOf v != dstTile (opEntry d))
    && (dstKind d != 2 || w.writes.all fun p => w.reads.all fun x => !(demoOp q (opEntry d)).overlap 0 p x)
theorem witness_GougeOperations_tile : ∀ q ∈ [24, 39],
    (∀ x ∈ [(gougeFields 0 0 0 1 0 15, 0, 0, 0), (gougeFields 0 0 1 2 0 0, 127, 127, 0), (gougeFields 1 0 0 1 0 0, 127, 127, 0),
        (gougeFields 1 0 0 2 7 0, 0, 2, 0), (gougeFields 2 7 0 1 0 3, 2, 126, 0), (gougeFields 2 8 0 2 3 16, 127, 0, 0),
        (gougeFields 2 3 0 2 1 0, 3, 3, 1 + 2 ^ 16 * 0x3F80), (gougeFields 2 0 0 1 0 0, 0, 0, 3 + 2 ^ 6 * 1 + 2 ^ 8 * 1)],
      apartB q 1 (x.1 ++ [(36, x.2.1), (37, x.2.2.1), (48, x.2.2.2)]) (State.tileWork q) 4 = true)
    ∧ (∀ x ∈ [(gougeFields 0 0 0 1 0 15, 0, 0, 0), (gougeFields 1 0 0 2 1 0, 127, 127, 1), (gougeFields 2 2 0 2 0 16, 3, 126, 0x1B)],
      apartB q 3 (x.1 ++ [(36, x.2.1), (37, x.2.2.1), (48, 0x3F800000), (52, x.2.2.2)]) (State.softmaxWork q) 0 = true)
    ∧ (∀ x ∈ [(gougeFields 1 0 0 1 0 15, 0), (gougeFields 2 0 0 1 0 15, 1), (gougeFields 1 0 0 1 0 0, 16384), (gougeFields 2 7 0 2 7 0, 3),
        (gougeFields 1 0 0 2 3 0, 129)],
      apartB q 4 (x.1 ++ [(36, x.2)]) (State.streamWork q) 4 = true)
    ∧ (∀ x ∈ [(gougeFields 0 0 0 1 0 15, 0, 0, 0), (gougeFields 1 0 0 2 1 0, 127, 127, 1 + 4), (gougeFields 2 2 0 1 0 3, 3, 126, 3 + 8 + 2 ^ 4 * 127),
        (gougeFields 0 0 0 0 0 0, 1, 1, 2 + 2 ^ 18 * 9), (gougeFields 1 0 0 1 0 0, 5, 6, 4 + 2 ^ 4 * 3)],
      startB q 2 2 (opWord 2 2 (x.1 ++ [(36, x.2.1), (37, x.2.2.1), (60, x.2.2.2)])) (State.tileReduceWork q) = true)
    ∧ (∀ x ∈ [(gougeFields 1 0 0 1 0 15, 0, 0), (gougeFields 2 0 0 1 0 15, 1, 1 + 2 ^ 4 * 16383), (gougeFields 1 0 0 2 3 0, 16384, 2 + 2 ^ 18)],
      startB q 2 5 (opWord 2 5 (x.1 ++ [(36, x.2.1), (60, x.2.2)])) (State.streamReduceWork q) = true)
    ∧ (∀ x ∈ [[(16, 0), (32, 2 ^ 128 - 1)], [(16, 7), (17, 1), (18, 0)], [(16, 7), (17, 1), (18, 128)], [(16, 1), (17, 2), (24, 1048560)]],
      startB q 2 6 (opWord 2 6 x) State.maskSetWork (fun w => fld (opWord 2 6 x) 17 1 0 != 2 || w.reads.length == 1) = true)
    ∧ (∀ x ∈ [(0, 0), (65535, 255)], startB q 2 7 (opWord 2 7 [(16, x.1), (18, x.2)]) State.gougeReleaseWork = true) := by decide +kernel
theorem witness_GougeOperations_lists : ∀ q ∈ [24, 39], ∀ x ∈ [(false, 0, aHome 131072, 1), (false, 1, aHome 131072, 1), (false, 32, aHome 131072, 1024),
      (true, 1, aHome 131072, 1), (true, 2, aOut 0, 4), (true, 32, aOut 0, 254)],
    let d := opWord 2 (if x.1 then 9 else 8) [(16, 0), (24, x.2.2.1), (32, 64), (36, x.2.1), (38, x.2.2.2)]
    startB q 2 (if x.1 then 9 else 8) d (State.listWork x.1) (fun w => x.2.1 == 0 || w.writes.length == 1
      && w.reads.all fun p => ((demoOp q (opEntry d)).entriesOf opInv p).isEmpty) = true := by decide +kernel

theorem witness_RaspOperations :
    (∀ x ∈ [(40, true), (47, true), (48, false), (71, false)], let q := x.1
      (demoOp q (opEntry (opWord 3 4 []))).scanGroup opInv (groupOf q) = x.2
      -- LOAD_CTX: contexts 0 and 3, with and without parameters, keeping its heap
      ∧ (∀ y ∈ [(3 + 2 ^ 8 * (1 + 32) + 2 ^ 16 * 8, 64, 1), (3 + 2 ^ 8 * (3 + 8) + 2 ^ 16 * 128, 0, 1024), (2 + 2 ^ 16 * 8, 0, 1024)],
          startB q 3 1 (opWord 3 1 [(16, 0), (24, y.2.1), (32, y.1), (36, y.2.2)]) (State.loadCtxWork q) = true)
      ∧ startB q 3 1 (opWord 3 1 [(32, 2 ^ 12 + 2 ^ 16 * 8)]) (State.loadCtxWork q) = true
      ∧ (∀ y ∈ [0, 1, 2], startB q 3 2 (opWord 3 2 [(16, 0), (24, aBind 1 0), (36, y), (40, 16 * 3)]) (State.scanWork q)
          (fun w => !x.2 || (w.reads.length == 1
            && let e := opEntry (opWord 3 2 [(16, 0), (24, aBind 1 0), (36, y), (40, 16 * 3)])
               let s := demoOp q e
               (s.scanLayout q e).isSome && match s.piece opInv (fld e.desc 24 63 0) 0 0 with
                 | .ok _ => true
                 | .error _ => false)) = true)
      ∧ (∀ y ∈ [(0, 0), (1, 0), (3, 32), (2, 64)], startB q 3 3 (opWord 3 3 [(16, 0), (24, 32768), (28, y.1 + y.2)]) (State.emitWork q)
          (fun w => w.writes.all (backedB (demoOp q (opEntry (opWord 3 3 [(16, 0), (24, 32768), (28, y.1 + y.2)]))) opInv)) = true)
      ∧ (∀ y ∈ [0, 15], startB q 3 4 (opWord 3 4 [(16, y)]) State.ctxReleaseWork = true))
    ∧ opInv.phase ≠ .stopping
    ∧ (let i := { opInv with phase := .stopping, endSc := 0x90 }
       i.phase = .stopping ∧ i.endSc = 0x90 ∧ i.silent = false)
    ∧ (let d := opWord 3 2 []
       (List.range 4).all (fun n => decide (((demoOp 40 (opEntry d)).context 40 n).heap.length ≤ ((demoOp 40 (opEntry d)).context 40 n).heapK)) = true)
    ∧ (let d := opWord 3 2 [(16, 0), (24, aBind 1 0), (36, 1), (40, 16 * 3)]
       let e := { opEntry d with outcome := .queued }
       let s := demoOp 40 e
       (s.queue 40).entries[0]? = some e ∧ e.origin = .word ∧ classOf d = 3 ∧ opOf d = 2 ∧ s.waitMet e = true ∧ s.invocation? e.tenant e.tag = some opInv
         ∧ (s.scanPieces 40 opInv e).isSome = true ∧ liveB s = true) := by decide +kernel

theorem witness_HeapKeepsTheBest : ∀ k ∈ [1, 1024], 1 ≤ ({ heapK := k } : Context).heapK := by decide +kernel

/-! ### Witnesses: the peer fabric -/

/-- A frame of flow 0 that port 0 receives from module 0 for this module: its type, fields beside the common ones, payload. -/
def demoFrame4 (type : Nat) (more : List (Nat × Nat × Nat × Nat)) (payload : List Byte := []) : PeerFrame :=
  { etype := 0x88B5, hdr := headerOf ([(0, 3, 0, type), (0, 7, 4, 1), (4, 31, 0, 5)] ++ more), payload := payload }
/-- The word of a WRITE of `n` bytes of the home to buffer 5, and the command that has sent `sent` frames of it. -/
def peerWord (n : Nat) (bump : Bool := false) : BitVec 512 := opWord 5 1 [(16, 0), (24, n), (28, 0), (30, b2n bump), (32, 5)]
/-- See `peerWord`. -/
def demoSend (n sent : Nat) : PeerSend :=
  { queue := 74, tenant := 0, tag := 1, src := 0, bytes := n, handle := 5, offset := 0, sent := sent, frames := ceilDiv n 8192 }
/-- A frame in flight. -/
def demoFlight (seq sends : Nat) : InFlight := { seq := seq, first := true, last := true, off := 0, length := 4, sends := sends }
/-- The module whose flow 0 carries that command. -/
def demoFlow (n sent : Nat) (inFlight : List InFlight) (seq : Nat := 0) (up : Bool := true) : State :=
  let s := demoOp 74 { opEntry (peerWord n) with begun := true }
  { s with peer := { s.peer with ports := List.replicate 4 { state := if up then .up else .down }
                                 flows := [{ flow := 0, nextSeq := seq, inFlight := inFlight, holder := some (demoSend n sent) }] } }
/-- `ForMe`, as a program. -/
def forMeB (s : State) (port : Nat) (f : PeerFrame) : Bool :=
  s.engines && s.portUp port && f.fcsOk && f.etype == s.peer.etype && f.field 0 7 4 == 1 && decide (f.length ≤ f.payload.length)
    && f.field 4 31 0 == s.pers.active.systemId && (s.peer.mode != 0 || bits f.src.toNat 7 0 == port) && f.dstModule == s.moduleIndex
theorem forMe_of {s : State} {port : Nat} {f : PeerFrame} (h : forMeB s port f = true) : ForMe s port f := by
  simp only [forMeB, Bool.and_eq_true, decide_eq_true_eq, beq_iff_eq, Bool.or_eq_true, bne_iff_ne] at h
  obtain ⟨⟨⟨⟨⟨⟨⟨⟨h1, h2⟩, h3⟩, h4⟩, h5⟩, h6⟩, h7⟩, h8⟩, h9⟩ := h
  exact ⟨h1, h2, h3, h4, h5, h6, h7, fun hm => h8.resolve_left fun hn => hn hm, h9⟩
/-- Is the payload of a frame read, and nothing changed by it? -/
def readsB (s : State) (h : PeerSend) (off len : Nat) : Bool :=
  match s.payload h off len [] [] with
  | (t, .bytes bs) => t == s && bs.length == len
  | _ => false

theorem witness_PeerFrames_command :
    demo.engines = true ∧ demo.peer.ports.length = 4
    ∧ (∀ q ∈ [74, 77], ∀ x ∈ [(0, false), (0, true), (4, false), (1048576, false)],
      startB q 5 1 (peerWord x.1 x.2) State.peerWork = true
        ∧ (demoOp q (opEntry (peerWord x.1 x.2))).peerFrames (opEntry (peerWord x.1 x.2)) = if x.1 = 0 then b2n x.2 else ceilDiv x.1 8192)
    ∧ (∀ up ∈ [true, false], ∀ x ∈ [(4, 0, 0), (16384, 1, 2 ^ 32 - 1)], let s := demoFlow x.1 x.2.1 [] x.2.2 up
      (s.flowRec 0).isSome = true ∧ (s.flow 0).holder = some (demoSend x.1 x.2.1) ∧ x.2.1 < (demoSend x.1 x.2.1).frames
        ∧ s.cancelled (demoSend x.1 x.2.1) = false ∧ s.flowPort 0 1 0 = (if up then some 0 else none) ∧ s.pausedPort (s.flowPort 0 1 0) = false
        ∧ s.peer.frameMax = 8192 ∧ (s.queue 74).entries.any ((demoSend x.1 x.2.1).owns 0) = true
        ∧ readsB s (demoSend x.1 x.2.1) (x.2.1 * 8192) (min 8192 (x.1 - x.2.1 * 8192)) = true)
    ∧ (∀ up ∈ [true, false], ∀ sends ∈ [1, 12, 13], let z := demoFlight 7 sends
      let s := demoFlow 4 1 [z] 8 up
      (s.flow 0).inFlight.find? (fun y => y.seq == 7 && !y.sacked) = some z ∧ s.cancelled (demoSend 4 1) = false
        ∧ s.flowPort 0 1 0 = (if up then some 0 else none) ∧ s.pausedPort (s.flowPort 0 1 0) = false ∧ readsB s (demoSend 4 1) 0 4 = true
        ∧ (s.peer.retryLimit < z.sends ↔ sends = 13) ∧ s.invocation? 0 1 = some opInv ∧ s.invocations = [opInv]) := by decide +kernel
/-- A frame's timer that is just due, and one microsecond before it. -/
theorem witness_PeerFrames_due : opInv.phase ≠ .stopping ∧ ∀ now ∈ [demo.peer.rtoUs - 1, demo.peer.rtoUs],
    (demoFlight 7 1).sentAt + demo.peer.rtoUs ≤ now ↔ now = demo.peer.rtoUs := by decide +kernel

theorem witness_PeerFrames_control :
    -- an ACK that covers nothing, and one that covers all
    (∀ cum ∈ [7, 8], let x := demoFrame4 1 [(16, 31, 0, cum)]
      let s := demoFlow 4 1 [demoFlight 7 1] 8
      forMeB s 0 x = true ∧ x.type = 1 ∧ (s.controlFlow x).map (·.flow) = some 0 ∧ (s.flow 0).holder = some (demoSend 4 1)
        ∧ (demoSend 4 1).sent = (demoSend 4 1).frames ∧ seqBelow 7 (x.field 16 31 0) = decide (cum = 8)
        ∧ ((s.queue 74).entries[0]?).map ((demoSend 4 1).owns 0) = some true)
    ∧ (∀ cause ∈ [1, 2, 3, 4, 5], let x := demoFrame4 2 [(16, 31, 0, 7), (20, 7, 0, cause)]
      let s := demoFlow 4 1 [demoFlight 7 1] 8
      forMeB s 0 x = true ∧ x.type = 2 ∧ (s.controlFlow x).map (·.flow) = some 0 ∧ s.invocation? 0 1 = some opInv ∧ s.invocations = [opInv]
        ∧ (s.flow 0).inFlight.any (·.seq == x.field 16 31 0) = true ∧ x.field 20 7 0 = cause)
    ∧ (let s := demoOp 74 (opEntry 0)
       let t := { s with peer := { s.peer with flows := [{ flow := 0, ackOwed := 1, expected := 2 ^ 32 - 1 }] } }
       (t.flowRec 0).isSome = true ∧ 0 < (t.flow 0).ackOwed ∧ t.flowPort 0 1 0 = some 0) := by decide +kernel

/-- The module whose flow 0 expects frame `seq`, with its tenant's run open or not. -/
def demoRx (run poisoned : Bool) (seq : Nat) : State :=
  let s := demoOp 74 (opEntry 0)
  { s with tenants := s.tenants.map fun t => { t with runOpen := run }
           peer := { s.peer with flows := [{ flow := 0, expected := seq, rxAny := true, poisoned := poisoned }] } }
/-- A data frame of `n` bytes to the handle `h` at `off` times 64 bytes, with a bump of counter 15 or not. -/
def demoData (seq : Nat) (first bump : Bool) (h off n : Nat) : PeerFrame :=
  demoFrame4 0 [(8, 14, 14, 1), (8, 15, 15, b2n bump), (10, 10, 10, b2n first), (14, 13, 0, n), (16, 31, 0, seq), (20, 12, 0, 15), (22, 15, 0, 65535),
    (24, 31, 0, h), (28, 31, 0, off)] (List.replicate n 0xA5)
/-- `OnFlow`, as a program. -/
def onFlowB (s : State) (f : PeerFrame) : Bool := match s.flowRec f.dstFlow with
  | some r => r.tenant == f.tenant && r.remoteModule == f.srcModule && r.remoteFlow == f.srcFlow && f.epoch == (s.flow f.dstFlow).rxEpoch
  | none => false
theorem onFlow_of {s : State} {f : PeerFrame} (h : onFlowB s f = true) : ∃ r, OnFlow s f r := by
  unfold onFlowB at h
  split at h
  · next r hr => simp only [Bool.and_eq_true, beq_iff_eq] at h; exact ⟨r, hr, h.1.1.1, h.1.1.2, h.1.2, h.2⟩
  · cases h
/-- The piece a frame is for, or the cause of its refusal. -/
def targetB (s : State) (f : PeerFrame) (ok : Bool) : Bool := match s.frameTarget 0 f with
  | .ok p => ok && backedB s { (default : Invocation) with tenant := 0 } p
  | .error _ => !ok
theorem witness_PeerFrames_data :
    -- a closed run, a poisoned flow, a range that is refused, and frames that are applied, to the buffer's last byte
    (∀ x ∈ [(false, false, false, 5, 0, 4, true), (false, true, true, 5, 0, 4, true), (true, true, false, 5, 0, 4, true), (true, false, false, 0, 0, 4, false),
        (true, false, false, 5, 1023, 65, false), (true, false, true, 5, 0, 4, true), (true, true, true, 5, 1023, 64, true)],
      ∀ bump ∈ [true, false], ∀ seq ∈ [0, 2 ^ 32 - 1],
      let s := demoRx x.1 x.2.1 seq
      let f := demoData seq x.2.2.1 bump x.2.2.2.1 x.2.2.2.2.1 x.2.2.2.2.2.1
      forMeB s 0 f = true ∧ f.type = 0 ∧ onFlowB s f = true ∧ f.dstFlow = 0 ∧ f.seq = (s.flow 0).expected ∧ (s.flow 0).heldFrames = []
        ∧ (s.tenant 0).runOpen = x.1 ∧ (s.flow 0).poisoned = x.2.1 ∧ f.first = x.2.2.1 ∧ targetB s f x.2.2.2.2.2.2 = true ∧ 0 < f.length
        ∧ f.bumpValid = bump ∧ f.field 20 12 0 = 15 ∧ s.ownsCtr 0 15 = true ∧ s.ctrSat 15 = false ∧ s.ctrPoison 15 = none
        ∧ s.ctr 15 + f.field 22 15 0 ≤ ctrMax ∧ soundB s = true) := by decide +kernel

/-- The module whose port `port` is in a state, in a mode of the topology, of two modules. -/
def demoPort (port mode : Nat) (st : PortState) (pfc : Bool := false) : State :=
  { demo with peer := { demo.peer with mode := mode, pfcEn := pfc, ports := (List.replicate 4 {}).set port { state := st } }
              pers := { demo.pers with active := { demoStructure with systemSize := 2 } } }
theorem witness_PeerPorts : ∀ port ∈ [0, 1, 2, 3],
    (let s := demoPort port 0 .up true
     s.engines = true ∧ s.peer.ports.length = 4 ∧ s.peer.pfcEn = true ∧ s.peer.mode = 0)
    -- a HELLO sent, and a link lost, one microsecond less than its time ago, and just its time ago
    ∧ (∀ now ∈ [999, 1000], let s : State := { demo with peer := { demo.peer with ports := (List.replicate 4 {}).set port { state := .up, helloAt := some 0 } }
                                                         now := now }
       (s.port port).helloAt = some 0 ∧ (s.now < 0 + 1000 ↔ now = 999))
    ∧ (∀ now ∈ [999999, 1000000], let s : State := { demo with peer := { demo.peer with ports := (List.replicate 4 {}).set port { downAt := some 0 } }
                                                               now := now }
       (s.port port).downAt = some 0 ∧ (s.now < 0 + 1000000 ↔ now = 999999))
    ∧ (∀ st ∈ [PortState.discovery, .held, .up], ∀ mode ∈ [1, 2], let s := demoPort port mode st
       s.engines = true ∧ s.peer.mode ≠ 0 ∧ (s.port port).state = st)
    ∧ (∀ st ∈ [PortState.discovery, .held, .up], ∀ x ∈ [(5, 1, none), (6, 1, some 2), (5, 2, some 3), (5, 0, some 3)],
       let s := demoPort port 1 st
       let f := demoFrame4 3 [(2, 7, 0, 1), (4, 31, 0, x.1 - 5), (12, 1, 0, if port % 2 = 0 then port + 1 else port - 1), (12, 3, 2, x.2.1)]
       f.type = 3 ∧ f.fcsOk = true ∧ f.etype = s.peer.etype ∧ f.field 0 7 4 = 1 ∧ f.field 4 31 0 = x.1 ∧ s.helloCause port f = x.2.2
         ∧ f.srcModule = (s.moduleIndex + (if port % 2 = 0 then 1 else s.pers.active.systemSize - 1)) % s.pers.active.systemSize)
    ∧ (demoPort port 0 .training).engines = true ∧ ((demoPort port 0 .training).port port).state = .training
    ∧ (let s := demoPort port 0 .down
       (s.port port).state = .down ∧ s.unusedPort port = false ∧ s.peer.cageOn.getD (port / 2) false = true ∧ s.peer.cable.getD (port / 2) false = true
         ∧ s.power.railsUp = true ∧ s.power.stage = .on ∧ s.power.perst = false)
    ∧ (∀ x ∈ [(10, 1, true), (10000, 63, false), (9, 0, true), (10001, 0, true)], let v := BitVec.ofNat 32 (x.1 + 2 ^ 16 * x.2.1)
       let rto := if 10 ≤ bits v.toNat 13 0 ∧ bits v.toNat 13 0 ≤ 10000 then bits v.toNat 13 0 else demo.peer.rtoUs
       let limit := if 1 ≤ bits v.toNat 21 16 then bits v.toNat 21 16 else demo.peer.retryLimit
       decide (rto * (limit + 1) < 1000 * demo.pcie.floorMs) = x.2.2) := by decide +kernel

/-! ### Witnesses: flash -/

/-- A command that waits for flash, and the superblock of group 0 whose blocks are all number 2. -/
def flashRef : CmdRef := (cmd 2 1 2).ref
/-- See `flashRef`. -/
def flashSb : Superblock := { id := 1, group := 0, set := 0, use := .writes, slots := List.range 16, blocks := List.replicate 64 2, closed := true }
/-- The page of data page `q` of that superblock. -/
def flashAddr (q : Nat) : PageAddr := let l := flashSb.locate q; flashSb.page l.2.1 l.2.2 l.1
/-- Channels that have trained, in mode 5. -/
def flashChannels : List Channel := List.replicate 32 { mode := 5, trained := true }
/-- The module that holds that command, with die 0 of channel 0 like this, at a time, and its media block changed. -/
def demoFlash (die : Die) (now : Nat := 0) (f : Media → Media := id) : State :=
  let s := demoHeld (cmd 2 1 2) true
  { s with now := now, media := f { s.media with superblocks := [flashSb], dies := (List.replicate 1024 {}).set 0 die, channels := flashChannels
                                                 reads := [{ ref := flashRef, slba := 0, missing := [5] }]
                                                 pages := (List.range 64).map fun k => { addr := flashSb.page (k % 16) (k / 16) 0, raw := {} } } }
/-- A die that runs an operation. -/
def running (kind : DieOpKind) (cls : Nat := 2) : Die := { running := some { cls := cls, kind := kind } }
theorem held_of {s : State} {r : CmdRef} (h : heldB s r = true) : Held s r := by
  simpa [heldB, Held] using h

theorem witness_FlashOperations_read :
    demo.media.channels.length = 32 ∧ demo.media.dies.length = 1024 ∧ demo.power.stage = .on ∧ demo.power.railsUp = true
    -- a channel without data, a target in reset, and a channel that has not trained
    ∧ (demo.channel 31).mode = 0 ∧ (demo.channel 31).trained = false ∧ (demo.channel 31).isolated = false
    ∧ (let s := demoFlash { resetting := some { cls := 2, kind := .erase 1 2 } }
       s.targetResets 0 0 = true ∧ (s.channel 0).mode = 5 ∧ (s.channel 0).trained = true)
    ∧ (∀ w ∈ [0, 3], ∀ x ∈ [Reader.nvm flashRef 5, .bringUp 0 none 7, .scan 0 1 7 0], let s := demoFlash (running (.read (flashAddr 0) [w] x))
      s.running 0 0 = some { cls := 2, kind := .read (flashAddr 0) [w] x } ∧ (s.flashPage (flashAddr 0)).map (·.bad) = some false
        ∧ (s.channel 0).isolated = false ∧ (s.media.reads.find? (·.ref == flashRef)).map (·.missing) = some [5] ∧ heldB s flashRef = true
        ∧ 0 < s.tenants.length ∧ s.recovery? (flashAddr 0) w = none ∧ 500 ≤ s.media.budgetUs ∧ (flashAddr 0).channel < 32 ∧ (flashAddr 0).die < 32)
    ∧ (∀ coming ∈ [[], [7]], let s : State := { demoFlash (running (.read (flashAddr 0) [0] (.bringUp 0 none 7))) with
          tenants := [{ runOpen := true, sharedPool := { coming := coming } }] }
       (s.running 0 0).isSome = true ∧ (s.pool 0 none).coming = coming)
    ∧ (∀ t ∈ [999, 0], let s := demoFlash (running (.read (flashAddr 0) [0] (.nvm flashRef 5))) t fun m =>
        { m with channels := flashChannels.set 0 { mode := 5, trained := true, firstFails := [(1, 0), (2, 0), (15, 0)] } }
       (s.running 0 0).isSome = true ∧ 3 ≤ ((s.channel 0).firstFails.filter fun f => f.1 != 0 && decide (s.now < f.2 + 1000)).length) := by
  decide +kernel

/-- A recovery of codeword 3 of page 0 for the waiting read. -/
def demoRec4 (tried : Nat) (rebuilding : Bool) (waits : List PageAddr := []) : Recovery :=
  { addr := flashAddr 0, codeword := 3, faultNo := 4, since := 0, tried := tried, rebuilding := rebuilding, waits := waits, readers := [.nvm flashRef 5] }
/-- The module with that recovery, at a time, while the page's die runs its attempt. -/
def demoRetry (rc : Recovery) (now : Nat) : State := demoFlash {} now fun m => { m with
  recoveries := [rc]
  dies := m.dies.set (32 * (flashAddr 0).channel + (flashAddr 0).die) (running (.retry (flashAddr 0) 3) 1) }
theorem witness_FlashOperations_recovery :
    (∀ x ∈ [(0, 0), (1780, 0), (1781, 1), (1880, 1), (1881, 2)], let rc := demoRec4 6 false
      let s := demoRetry rc x.1
      s.recovery? (flashAddr 0) 3 = some rc ∧ rc.readers.filter s.readerWaits = [.nvm flashRef 5]
        ∧ (s.running (flashAddr 0).channel (flashAddr 0).die).map (·.kind) = some (.retry (flashAddr 0) 3)
        ∧ (s.media.reads.find? (·.ref == flashRef)).map (·.missing) = some [5] ∧ heldB s flashRef = true ∧ flashRef.sqid ≠ 0
        ∧ (flashAddr 0).channel < 32 ∧ (flashAddr 0).die < 32 ∧ (s.flashPage (flashAddr 0)).map (·.bad) = some false
        ∧ rc.tried + 1 < (retrySets (s.zoneSet (flashAddr 0))).length
        ∧ (let spent := 10 * (s.now - rc.since)
           (x.2 = 0 ↔ spent + s.attemptMax + s.rebuildReserve ≤ 10 * s.media.budgetUs)
           ∧ (x.2 = 2 ↔ 10 * s.media.budgetUs < spent + s.rebuildReserve)))
    ∧ (∀ waits ∈ [[], [flashAddr 1]], let s := demoFlash {} 0 fun m => { m with recoveries := [demoRec4 0 true waits] }
       s.recovery? (flashAddr 0) 3 = some (demoRec4 0 true waits) ∧ (demoRec4 0 true waits).waits = waits
         ∧ s.dataPageAt (flashAddr 0) = some (flashSb, 0) ∧ (demoRec4 0 true waits).readers.filter s.readerWaits = [.nvm flashRef 5]
         ∧ heldB s flashRef = true) := by decide +kernel

theorem mapM_isSome {α β : Type} (f : α → Option β) : ∀ l : List α, (∀ x ∈ l, (f x).isSome = true) → (l.mapM f).isSome = true
  | [], _ => rfl
  | x :: l, h => by
    obtain ⟨y, hy⟩ := Option.isSome_iff_exists.mp (h x (by simp))
    obtain ⟨z, hz⟩ := Option.isSome_iff_exists.mp (mapM_isSome f l fun a ha => h a (by simp [ha]))
    simp [List.mapM_cons, hy, hz]
/-- With every other data slot and P readable, the first data slot of a row can be rebuilt (R490). -/
theorem rebuildByte_isSome (l : List Nat) (p : Nat) (q : Option Nat) : (rebuildByte 0 (none :: l.map some) (some p) q).isSome = true := by
  have h : ((((none :: l.map some : List (Option Nat)).zipIdx).filter fun x => x.2 != 0).filter fun x => x.1 == none) = [] := by
    simp only [List.filter_filter, List.filter_eq_nil_iff]
    intro x hx
    simp only [List.zipIdx_cons, List.mem_cons] at hx
    rcases hx with rfl | hx
    · simp
    · have := List.fst_mem_of_mem_zipIdx hx
      obtain ⟨y, -, hy⟩ := List.mem_map.mp this
      simp [← hy]
  unfold rebuildByte
  simp only [h]
  rfl
theorem map_some_of {α β : Type} (f : α → Option β) : ∀ l : List α, (∀ x ∈ l, (f x).isSome = true) → ∃ m : List β, l.map f = m.map some
  | [], _ => ⟨[], rfl⟩
  | x :: l, h => by
    obtain ⟨y, hy⟩ := Option.isSome_iff_exists.mp (h x (by simp))
    obtain ⟨m, hm⟩ := map_some_of f l fun a ha => h a (by simp [ha])
    exact ⟨y :: m, by simp [hy, hm]⟩
theorem witness_FlashOperations_rebuild : ∃ bs, (demoFlash {} 0 fun m => { m with recoveries := [demoRec4 0 true] }).rebuild flashSb
    (flashSb.locate 0).2.1 (flashSb.locate 0).2.2 (flashSb.locate 0).1 = some bs := by
  generalize hs : (demoFlash {} 0 fun m => { m with recoveries := [demoRec4 0 true] }) = s
  obtain ⟨m, hm⟩ := map_some_of (fun k => s.pageData (flashSb.page k 0 0)) ((flashSb.data 0).drop 1) (by rw [← hs]; decide +kernel)
  obtain ⟨p, hp⟩ := Option.isSome_iff_exists.mp (show (s.pageData (flashSb.page (flashSb.parity 0).1 0 0)).isSome = true by rw [← hs]; decide +kernel)
  have hd : ((flashSb.data 0).map fun k => if k = 2 then none else s.pageData (flashSb.page k 0 0)) = none :: m.map some := by
    rw [← hm]; rfl
  have hl : (flashSb.locate 0).2.1 = 2 ∧ (flashSb.locate 0).2.2 = 0 ∧ (flashSb.locate 0).1 = 0 := by decide +kernel
  have hi : (flashSb.data 0).idxOf 2 = 0 := by decide +kernel
  have hq : (flashSb.parity 0).1 ≠ 2 := by decide +kernel
  rw [hl.1, hl.2.1, hl.2.2]
  apply Option.isSome_iff_exists.mp
  unfold State.rebuild
  apply mapM_isSome
  intro k _
  simp only [List.contains_nil, Bool.or_false, decide_eq_true_eq, hd, hi, if_neg hq, hp, Option.map_some, column, List.map_cons, Option.map_none, List.map_map, Option.isSome_map]
  have : (m.map ((fun o => Option.map (fun bs : List Byte => (bs.getD k 0).toNat) o) ∘ some)) = (m.map fun bs => (bs.getD k 0).toNat).map some := by
    simp [List.map_map, Function.comp_def]
  rw [this]
  exact rebuildByte_isSome _ _ _

/-- A row job of one member of plane 3 of slot 2 of that superblock, in a row. -/
def flashJob (row : Nat) : RowJob := { id := 1, superblock := 1, row := row, kind := .writes, members := [{ slot := 2, plane := 3, content := {}, item := .padding }] }
theorem witness_FlashOperations_program :
    (∀ page ∈ [0, 1], let a : PageAddr := { flashAddr 0 with page := page }
      let s := demoFlash (running (.directProgram (some flashRef) a {}))
      s.running 0 0 = some { cls := 2, kind := .directProgram (some flashRef) a {} } ∧ heldB s flashRef = true ∧ s.outOfOrder a = decide (page = 0))
    ∧ (∀ row ∈ [0, 1], let s := demoFlash (running (.program 1 2 [3])) 0 fun m => { m with jobs := [flashJob row] }
       s.running 0 0 = some { cls := 2, kind := .program 1 2 [3] } ∧ s.media.jobs.find? (·.id == 1) = some (flashJob row)
         ∧ s.superblock (flashJob row).superblock = some flashSb ∧ (∀ m ∈ (flashJob row).members, m.slot = 2 ∧ m.plane ∈ [3])
         ∧ s.outOfOrder (flashSb.page 2 3 row) = decide (row = 0))
    ∧ (let s := demoFlash (running (.directErase (some flashRef) (flashAddr 0).blockAddr))
       s.running 0 0 = some { cls := 2, kind := .directErase (some flashRef) (flashAddr 0).blockAddr } ∧ heldB s flashRef = true)
    ∧ (let b := { flashSb with erasing := [2] }
       let s := demoFlash (running (.erase 1 2)) 0 fun m => { m with superblocks := [b] }
       s.running 0 0 = some { cls := 2, kind := .erase 1 2 } ∧ s.superblock 1 = some b ∧ b.erasing = [2]) := by decide +kernel
theorem witness_FlashOperations_order :
    -- a suspended erase with a late read and an erase in the queue; at level 2 beside a program of the group
    (∀ level ∈ [0, 2], let o : DieOp := { cls := 2, kind := .erase 1 2 }
      let late : DieOp := { cls := 2, kind := .read (flashAddr 0) [0] (.nvm flashRef 5), late := true }
      let f := demoFlash { suspended := some o, queue := [late, { cls := 2, kind := .erase 1 0 }] } 0 fun m =>
        { m with dies := m.dies.set 1 (running (.program 1 2 [3])) }
      let s : State := { f with power := { f.power with level := level } }
      (s.die 0 0).suspended = some o ∧ (s.die 0 0).running = none ∧ s.targetResets 0 0 = false
        ∧ (∀ x ∈ (s.die 0 0).queue, x.isRead = true → x.cls ≤ 2 → x.late = true) ∧ s.throttled 0 o = decide (level = 2))
    -- an erase just at its timeout of 40 ms, and 1 µs beyond
    ∧ (∀ now ∈ [40000, 40001], let o : DieOp := { cls := 2, kind := .erase 1 2 }
       let s := demoFlash { running := some o } now
       s.running 0 0 = some o ∧ (s.busyTimeout o < s.ranFor o ↔ now = 40001))
    ∧ (∀ x ∈ [(none, 5), (some 0, 86400000000 - 1)], let a := flashAddr 0
       let o : DieOp := { cls := 2, kind := .directProgram (some flashRef) a {} }
       let s := demoFlash { resetting := some o, timedOutAt := x.1 } x.2
       (s.die 0 0).resetting = some o ∧ heldB s flashRef = true ∧ flashRef.sqid ≠ 0 ∧ (s.die 0 0).running = none ∧ (s.die 0 0).suspended = none
         ∧ (s.die 0 0).timedOutAt = x.1)
    ∧ (∀ x ∈ [(2, 3, 10000), (3, 5, 50000), (4, 5, 50000)], let p : DieOp := { cls := x.1, kind := .erase 1 2 }
       let o : DieOp := { cls := x.2.1, kind := .erase 1 3 }
       let s := demoFlash { queue := [p, o] } x.2.2
       s.dieLive 0 0 = true ∧ (s.channel 0).mode ≠ 0 ∧ s.power.level < 2 ∧ (s.die 0 0).running = none ∧ s.targetResets 0 0 = false
         ∧ (s.die 0 0).suspended = none ∧ (s.die 0 0).queue = [p, o] ∧ p.promoted = false ∧ o.arrived + x.2.2 ≤ s.now)
    -- a zone calibrated a day ago, a microsecond less, at a temperature 20 °C away, and never
    ∧ (∀ x ∈ [([(127, 0, 50)], 86400000000, 50, true), ([(127, 0, 50)], 86399999999, 50, false), ([(127, 0, 50)], 1, 70, true), ([], 0, 50, true)],
       let f := demoFlash { calibrated := x.1, running := some { cls := 2, kind := .erase 1 2 } } x.2.1
       let s : State := { f with power := { f.power with tjMax := x.2.2.1 } }
       s.power.stage = .on ∧ s.dieLive 0 0 = true ∧ s.hasOp 0 0 (· == .calibrate 127) = false ∧ s.calibrationDue 0 0 127 = x.2.2.2
         ∧ (s.die 0 0).running ≠ none ∧ 0 < s.pagesPerBlock)
    ∧ (let s := demoFlash (running (.calibrate 127) 5)
       (s.running 0 0).map (·.kind) = some (.calibrate 127))
    ∧ (∀ x ∈ [(500, 0), (999999, 2), (499, 1), (1048575, 1), (19999, 2)], let v := bits (BitVec.ofNat 32 x.1).toNat 19 0
       (x.2 = 1 ↔ (v < 500 ∨ 999999 < v)) ∧ (x.2 = 2 → 1000 * demo.pcie.floorMs ≤ v) ∧ (x.2 = 0 → v < 1000 * demo.pcie.floorMs)) := by decide +kernel

/-! ### Witnesses: media management -/

theorem pickBy_isSome {α : Type} (key : α → Nat) (most : Bool) : ∀ l : List α, l ≠ [] → (pickBy key most l).isSome = true
  | [], h => absurd rfl h
  | x :: xs, _ => by
    unfold pickBy
    split
    · rfl
    · split <;> split <;> rfl
/-- A set with eight live slots and a free block 5 in each die-plane takes a new superblock. -/
theorem open_isSome {s : State} {g j : Nat} {use : SbUse} {most : Bool} (hl : 8 ≤ (s.liveSlots g j).length)
    (hf : ((s.liveSlots g j).all fun k => (List.range 4).all fun p =>
      let a : BlockAddr := { channel := (slotPlace g j k).1, die := (slotPlace g j k).2, plane := p, block := 5 }
      s.blockGood a && !metadataBlock a && (s.holderOf a).isNone) = true) : (s.openSuperblock g j use most).isSome = true := by
  unfold State.openSuperblock
  have hc : (s.chooseBlocks g j (s.liveSlots g j) most).isSome = true := by
    unfold State.chooseBlocks
    apply mapM_isSome
    intro x hx
    obtain ⟨k, hk, hx⟩ := List.mem_flatMap.mp hx
    obtain ⟨p, hp, rfl⟩ := List.mem_map.mp hx
    apply pickBy_isSome
    apply List.ne_nil_of_mem (a := 5)
    refine List.mem_filter.mpr ⟨by simp, ?_⟩
    exact List.all_eq_true.mp (List.all_eq_true.mp hf k hk) p hp
  obtain ⟨bs, hbs⟩ := Option.isSome_iff_exists.mp hc
  simp only [if_neg (Nat.not_lt.mpr hl), hbs, Option.isSome_some]
theorem foldl_max_le (l : List Nat) (a : Nat) : a ≤ l.foldl max a ∧ ∀ x ∈ l, x ≤ l.foldl max a := by
  induction l generalizing a with
  | nil => simp
  | cons y l ih =>
    have h := ih (max a y)
    refine ⟨Nat.le_trans (Nat.le_max_left a y) h.1, fun x hx => ?_⟩
    rcases List.mem_cons.mp hx with rfl | hx
    · exact Nat.le_trans (Nat.le_max_right a x) h.1
    · exact h.2 x hx
theorem foldl_min_le (l : List Nat) (a : Nat) : l.foldl min a ≤ a ∧ ∀ x ∈ l, l.foldl min a ≤ x := by
  induction l generalizing a with
  | nil => simp
  | cons y l ih =>
    have h := ih (min a y)
    refine ⟨Nat.le_trans h.1 (Nat.min_le_left a y), fun x hx => ?_⟩
    rcases List.mem_cons.mp hx with rfl | hx
    · exact Nat.le_trans h.1 (Nat.min_le_right a x)
    · exact h.2 x hx
/-- The wear of a good block of a group lies within the group's bounds. -/
theorem wear_within {s : State} {g c d p b : Nat} (hd : (8 * g + c, d) ∈ s.groupDies g) (hp : p < 4) (hb : b < 2048)
    (hg : s.blockGood { channel := 8 * g + c, die := d, plane := p, block := b } = true) :
    s.cyclesOf { channel := 8 * g + c, die := d, plane := p, block := b } ≤ (s.wearBounds g).1
      ∧ (s.wearBounds g).2 ≤ s.cyclesOf { channel := 8 * g + c, die := d, plane := p, block := b } := by
  have h : s.cyclesOf { channel := 8 * g + c, die := d, plane := p, block := b } ∈ s.groupCycles g := by
    unfold State.groupCycles
    refine List.mem_flatMap.mpr ⟨_, hd, List.mem_flatMap.mpr ⟨p, by simpa using hp, List.mem_filterMap.mpr ⟨b, by simpa using hb, ?_⟩⟩⟩
    simp only [hg, if_true]
  exact ⟨(foldl_max_le _ 0).2 _ h, (foldl_min_le _ _).2 _ h⟩

/-- A group 0 whose superblock 1 holds extent 0 of VF 0, whose run is closed; its source reads are over where they have a use. -/
def demoGc (refresh : Bool) (sourcing : Option Bool := none) : State :=
  let s := demoFlash {} 600000000 fun m =>
    { m with superblocks := [{ flashSb with refresh := refresh, sourcing := sourcing }], nextSuperblock := 2, wearSpread := 300
             cycles := [({ channel := 0, die := 15, plane := 3, block := 2047 }, 400)]
             extents := [{ tenant := 0, extent := 0, group := 0, superblock := 1, position := 0 }] }
  { s with tenants := [{}] }
/-- A block of namespace 1 of VF 0 in the write buffer. -/
def flashBlock : WbBlock := { fn := 1, nsid := 1, lba := 7, data := {} }
theorem witness_MediaManagement_rows : demo.power.dramReady = true ∧ demo.power.stage = .on
    ∧ (let s := demoFlash {} 0 fun m => { m with buffer := [flashBlock], namespaces := [{ fn := 1, nsid := 1, blocks := 8, group := 0 }]
                                                 superblocks := [{ flashSb with closed := false }] }
       (∀ now ∈ [1999, 2000], (s.media.groups.getD 0 {}).lastData + 2000 ≤ now ↔ now = 2000)
         ∧ s.media.buffer = [flashBlock] ∧ flashBlock.job = none ∧ flashBlock.fn < shadowBase ∧ s.unitGroup 1 1 = some 0
         ∧ (s.target 0 .writes (s.rotation 0)).map (·.1.id) = some 1 ∧ 2 < flashSb.slots.length)
    ∧ (let c : Copied := { source := 1, item := .unit 1 1 0, superblock := 2, page := 7 }
       let u : UnitEntry := { fn := 1, nsid := 1, unit := 0, place := .at 1 0 }
       let s := demoFlash {} 0 fun m => { m with copied := [c], units := [u] }
       u ∈ s.media.units ∧ s.media.copied = [c] ∧ c.item = .unit u.fn u.nsid u.unit ∧ c.superblock ≠ 1 ∧ s.media.jobs = []
         ∧ s.movesChannel c = false)
    ∧ (let s := demoFlash {}
       s.superblock 1 = some flashSb ∧ flashSb.closed = true ∧ s.validItems flashSb = [] ∧ s.idleSuperblock flashSb = true ∧ s.readsRun flashSb = false
         ∧ (flashSb.slots.filter fun k => s.dieLive (slotPlace 0 0 k).1 (slotPlace 0 0 k).2) = List.range 16 ∧ s.media.dies.length = 1024
         ∧ ∀ k ∈ List.range 16, 32 * (slotPlace 0 0 k).1 + (slotPlace 0 0 k).2 < 1024)
    ∧ (demoGc false).validItems flashSb ≠ []
    ∧ (let s := { demoFlash {} 0 fun m => { m with buffer := [flashBlock], namespaces := [{ fn := 1, nsid := 1, blocks := 8, group := 1 }] } with
         power := { demo.power with stage := .shed } }
       s.power.stage = .shed ∧ s.power.trippedRail = none ∧ (∀ b ∈ s.media.superblocks, 8 ≤ b.slots.length) ∧ s.media.units = []
         ∧ flashBlock.dirty = true ∧ s.unitGroup 1 1 = some 1) := by decide +kernel
theorem witness_MediaManagement_patrol :
    -- the patrol: a page that is not patrolled or is, one microsecond before its time and at it; its read, and its end
    (∀ i ∈ [1, 2048, 8388606], ∀ early ∈ [true, false],
       let at_ := i * (7 * 86400000000 / 8388608)
       let s := demoFlash { patrolNext := i, running := some { cls := 2, kind := .erase 1 2 } } (at_ - if early then 1 else 0)
       s.power.stage = .on ∧ s.dieLive 0 0 = true ∧ s.media.dies.length = 1024 ∧ 0 < i ∧ (s.die 0 0).patrolNext = i ∧ i + 1 < s.patrolPages
         ∧ s.hasOp 0 0 (· == .patrol i) = false ∧ (s.die 0 0).running ≠ none ∧ s.patrols (s.patrolPage 0 0 i) = decide (i = 2048)
         ∧ ((s.die 0 0).patrolStart + i * ((s.die 0 0).patrolDays * 86400000000 / s.patrolPages) ≤ s.now ↔ early = false))
    ∧ (let s := demoFlash { patrolNext := 2048, running := some { cls := 5, kind := .patrol 2048 } }
       let a := s.patrolPage 0 0 2048
       (s.running 0 0).map (·.kind) = some (.patrol 2048) ∧ (s.flashPage a).map (·.lost) = some [] ∧ s.holderOf a.blockAddr = some flashSb
         ∧ s.superblock flashSb.id = some flashSb) := by decide +kernel
theorem witness_MediaManagement_channels :
    -- a part of an extent copied to a page of another channel, while a run of VF 0 is open and after it
    (∀ run ∈ [true, false], let c : Copied := { source := 1, item := .part 0 0 0, superblock := 2, page := 1 }
       let f := demoFlash {} 0 fun m => { m with copied := [c], superblocks := [flashSb, { flashSb with id := 2 }]
                                                 extents := [{ tenant := 0, extent := 0, group := 0, superblock := 1, position := 0 }] }
       let s : State := { f with tenants := [{ runOpen := run }] }
       c ∈ s.media.copied ∧ c.source = 1 ∧ s.media.jobs = [] ∧ s.movesChannel c = run) := by decide +kernel
theorem witness_MediaManagement_copies (most : Bool) :
    (∀ refresh ∈ [true, false], let s := demoGc refresh
      let b := { flashSb with refresh := refresh }
      s.power.stage = .on ∧ s.role 0 = some .index ∧ s.groupMapped 0 = false ∧ 0 < s.media.groups.length ∧ 500 ≤ s.media.budgetUs
        ∧ s.sourced 0 false = none ∧ s.sourced 0 true = none ∧ (s.media.groups.getD 0 {}).levelledAt + 600000000 ≤ s.now
        ∧ ¬ (s.media.groups.getD 0 {}).levelledAt + 600000000 ≤ 599999999 ∧ (∀ y ∈ s.media.superblocks, y.id < s.media.nextSuperblock)
        ∧ (s.media.superblocks.filter fun y => y.group == 0 && s.idleSuperblock y && y.refresh) = (if refresh then [b] else [])
        ∧ s.media.superblocks = [b] ∧ b.closed = true ∧ s.idleSuperblock b = true
        ∧ (s.validItems b).head? = some (.part 0 0 0, 0) ∧ (s.content b.id 0).isSome = true)
    -- source reads under way and over
    ∧ (let s := demoGc true (some most)
       let b := { flashSb with refresh := true, sourcing := some most }
       s.sourced 0 most = some b ∧ b.group = 0 ∧ s.sourcesRun b.id = false ∧ (s.validItems b).head? = some (.part 0 0 0, 0)
         ∧ (s.content b.id 0).isSome = true
         ∧ (s.modDie 0 0 fun _ => running (.sourceRead 1 2 0 [0]) 5).sourcesRun b.id = true)
    ∧ ∃ r, (demoGc true (some most)).openSuperblock 0 0 .relocation most = some r := by
  refine ⟨by decide +kernel, ?_, ?_⟩
  · cases most <;> decide +kernel
  · cases most <;> apply Option.isSome_iff_exists.mp <;> exact open_isSome (by decide +kernel) (by decide +kernel)
theorem witness_MediaManagement_wear :
    (demoGc false).media.wearSpread < ((demoGc false).wearBounds 0).1 - ((demoGc false).wearBounds 0).2
    ∧ (∃ k ∈ flashSb.slots, ∃ a ∈ flashSb.slotBlocks k, (demoGc false).cyclesOf a = ((demoGc false).wearBounds 0).2)
    ∧ (demoGc false).role 1 ≠ some .index := by
  have h1 := wear_within (s := demoGc false) (g := 0) (c := 0) (d := 15) (p := 3) (b := 2047) (by decide +kernel) (by decide) (by decide) (by decide +kernel)
  have h2 := wear_within (s := demoGc false) (g := 0) (c := 0) (d := 0) (p := 0) (b := 2) (by decide +kernel) (by decide) (by decide) (by decide +kernel)
  have e1 : (demoGc false).cyclesOf { channel := 8 * 0 + 0, die := 15, plane := 3, block := 2047 } = 400 := by decide +kernel
  have e2 : (demoGc false).cyclesOf { channel := 8 * 0 + 0, die := 0, plane := 0, block := 2 } = 0 := by decide +kernel
  rw [e1] at h1
  rw [e2] at h2
  have hw : (demoGc false).media.wearSpread = 300 := rfl
  have hz : ((demoGc false).wearBounds 0).2 = 0 := by omega
  refine ⟨by omega, ⟨0, by decide, { channel := 0, die := 0, plane := 0, block := 2 }, by decide +kernel, by rw [hz]; exact e2⟩, by decide +kernel⟩

/-! ### Witnesses: watermarks, memory protection -/

/-- The module whose watermark of DRAM stack 0's remap entries, and of the spill of VF 0, is like this, at the levels 2 and 5. -/
def demoMark (x : Watermark) : State :=
  { demo with marks := demo.marks.set 18 x, tenants := [{ runOpen := true, spillPeak := 5, watermarks := List.replicate 8 x }]
              prot := { demo.prot with dramStacks := demo.prot.dramStacks.set 0 { remap := [(0, 7, none), (1, 8, none)] } } }
theorem witness_Watermarks : ∀ y ∈ [((none : Option Nat), 18, 2), (some 0, 4, 5)],
    (∀ latch ∈ [true, false], ∀ x ∈ [(y.2.2, y.2.2 - 1, 0), (0xFFFFFFFF, 0, 1), (y.2.2 + 1, 0, 1), (1, 1, 1), (1, 0, 0)],
      let m : Watermark := { mark := x.1, level := x.2.1, latch := latch }
      let s := demoMark m
      let v := match y.1 with
        | none => s.moduleLevel y.2.1
        | some t => s.tenantLevel t y.2.1
      s.power.stage = .on ∧ s.power.perst = false ∧ s.mark? y.1 y.2.1 = some m ∧ v = y.2.2
        ∧ (x.2.2 = 0 ↔ (m.level < m.mark ∧ m.mark ≤ v ∧ m.mark ≠ 0xFFFFFFFF))) := by decide +kernel

/-- The module whose scrubber of a stack is at a block, with a marked die and hard errors in two banks of die 0 or not. -/
def demoScrub (k b : Nat) (failed : Option Nat) (errors : Bool) : State :=
  { demo with prot := { demo.prot with dramStacks := demo.prot.dramStacks.set k { scrubBlock := b, failedDie := failed, errors := if errors then
      [{ block := 64, die := some 0, time := 0, pass := 0 }, { block := 128, die := some 0, time := 0, pass := 0 }] else [] } } }
theorem witness_MemoryProtection_scrub :
    (∀ k ∈ [0, 3], ∀ b ∈ [0, 4094, 97517566], ∀ errors ∈ [true, false], ∀ failed ∈ [none, some 3], let s := demoScrub k b failed errors
      let x := s.stack k
      s.power.stage = .on ∧ s.power.dramReady = true ∧ s.prot.dramStacks.length = 4 ∧ x.scrubBlock = b ∧ b + 1 < stackBlocks
        ∧ (b + 1) % pageBlocks ≠ 0 ∧ x.scrubFound.isNone = true ∧ x.poison.lookup b = none ∧ x.remap = [] ∧ x.failedDie = failed ∧ (s.blockHolder k b).isNone = true ∧ (s.poolHolder k b).isNone = true ∧ b / 128 < tenantGranules
        ∧ x.errors.length = (if errors then 2 else 0) ∧ (x.errors.all fun e => e.hard && e.die == some 0 && decide (s.now ≤ e.time + 1000000)) = true)
    ∧ (∀ failed ∈ [none, some 3], decodeBlock failed [] = .clean ∧ decodeBlock failed [15] = .corrected ∧ outside failed [] = []
      ∧ outside failed [15] ≠ [] ∧ oneDie (outside failed [15]) = some 0)
    ∧ blockBank 64 ≠ blockBank 128 ∧ blockBank 64 ≠ blockBank 0 ∧ blockBank 128 ≠ blockBank 0
    ∧ decodeBlock none [0, 1, 2, 3, 4, 5, 6, 7, 16] = .uncorrectable := by decide +kernel
theorem witness_MemoryProtection_pool :
    -- a block of unit 7 of the shared pool of VF 0, whose granule is 5 of stack 2
    (∀ coming ∈ [[], [7]], let s : State := { demo with
          tenants := [{ runOpen := true, sharedPool := { units := [7], coming := coming, slots := [(7, 1)], place := [{ stack := 2, index := 5 }] } }] }
       (s.blockHolder 2 648).isNone = true ∧ s.poolHolder 2 648 = some (0, none, 7, 0) ∧ (s.pool 0 none).coming = coming ∧ 0 < s.tenants.length)
    ∧ (List.replicate 512 (7 : Byte)).length = 512
    ∧ (let s := demo.modStack 3 fun x => { x with poison := [(9, 2 ^ 32 - 1)] }
       (s.prot.dramStacks.getD 3 {}).poison.lookup 9 = some (2 ^ 32 - 1)) := by decide +kernel
/-- R522: a codeword, its data the symbol 0x1234 alone, vanishes at α to α^32; α^33 is no root of it. -/
theorem test_rs_roots : ((List.range 32).all fun n => rsAt ([0x1234] ++ rsCheck [0x1234]) (gf16Alpha (n + 1)) == 0) = true
    ∧ rsAt ([0x1234] ++ rsCheck [0x1234]) (gf16Alpha 33) ≠ 0 := by decide +kernel
theorem witness_MemoryProtection_words :
    (∀ k ∈ [0, 10], (demo.sramUnit k).poison.lookup 9 = none ∧ (9, 63) ∉ (demo.sramUnit k).seen ∧ demo.prot.sram.length = 11
      ∧ (let s := demo.modSram k fun u => { u with seen := [(9, 63)] }
         (9, 63) ∈ (s.sramUnit k).seen ∧ (s.sramUnit k).hard = [] ∧ (s.sramUnit k).poison.lookup 9 = none))
    ∧ (∀ x ∈ [(3, 24575, []), (0, 0, (List.range 15).map fun n => (n, n + 1)), (0, 0, (List.range 16).map fun n => (n, n + 1)), (1, 5, [(0, 5)]), (4, 0, []), (0, 24576, [])],
      let s := { demo with prot := { demo.prot with dramStacks := demo.prot.dramStacks.set (x.1 % 4) { retired := x.2.2 } } }
      let c := cmd 0xCA 0 0 x.1 x.2.1
      startsB s c .adminOwner = true ∧ s.prot.dramStacks.length = 4 ∧ (s.stack (x.1 % 4)).retired = x.2.2
        ∧ c.cdw10.toNat = x.1 ∧ c.cdw11.toNat = x.2.1) := by decide +kernel

/-! ### Witnesses: firmware, the boot NOR, settings, self-test -/

/-- The module with its service complex changed. -/
def demoSvc (f : Service → Service) : State := { demo with svc := f demo.svc }
/-- An admin command of PF0 that its controller holds, and the module with one boot NOR operation of it under way. -/
def norRef : CmdRef := (cmd 0x10 0 0).ref
/-- See `norRef`. -/
def demoNor (j : NorJob) (f : Nor → Nor := id) : State :=
  { demoHeld (cmd 0x10 0 0) true with svc := { demo.svc with nor := f { demo.svc.nor with queue := [j], busy := true } } }
/-- A firmware slot. -/
def demoFw (state : FwState) : FwSlot := { seq := 8, length := 8192, hdrCrc := 0, state := state }

theorem witness_FirmwareAndSettings_boot :
    (∀ s ∈ [demoSvc fun c => { c with running := false }, demoSvc fun c => { c with running := false, nor := { c.nor with fwA := some (demoFw .demoted) } }],
      s.power.stage = .on ∧ s.power.railsUp = true ∧ s.power.perst = false ∧ s.svc.running = false ∧ s.bootChoice.isNone = true)
    ∧ demo.svc.running = true ∧ (demoP fun p => { p with perst := true }).power.perst = true
    ∧ (∀ x ∈ [(0, 0, 4, true), (4, 0, 14, true), (4, 0, 13, false), (3, 1, 12, true), (4, 1, 15, false), (5, 0, 15, false)],
       (dummyMin x.2.1 x.1).any (fun m => decide (m ≤ x.2.2.1)) = x.2.2.2) := by decide +kernel
theorem witness_FirmwareAndSettings_download : demo.svc.runSlot ≠ 2
    ∧ (∀ x ∈ [(1023, 0, 0, 0), (1023, 1024, 4096, 0), (1023, 4176896, 16707584, 0), (0, 1024, 4100, 1), (0, 1, 4096, 1), (1023, 4176897, 16707588, 2),
        (4177920, 0, 0, 2)], let s := demoSvc fun v => { v with fwStageBytes := x.2.2.1 }
      let c := cmd 0x11 0 0 x.1 x.2.1
      let len := 4 * (c.cdw10.toNat + 1)
      let off := 4 * c.cdw11.toNat
      startsB s c .adminOwner = true ∧ s.svc.fwStage.wf = true
        ∧ (x.2.2.2 = 0 → off + len ≤ 16711680 ∧ (off = 0 ∨ off = s.svc.fwStageBytes ∧ s.svc.fwStageBytes % 4096 = 0))
        ∧ (x.2.2.2 = 1 → off ≠ 0 ∧ (off ≠ s.svc.fwStageBytes ∨ s.svc.fwStageBytes % 4096 ≠ 0)) ∧ (x.2.2.2 = 2 → 16711680 < off + len)) := by decide +kernel
theorem witness_FirmwareAndSettings_commit :
    (∀ x ∈ [24 + 2, 3, 16 + 7, 0 + 1, 8 + 1, 0, 8, 16 + 2], let c := cmd 0x10 0 0 x
      startsB demo c .adminOwner = true ∧ [c.cdw11, c.cdw12, c.cdw13, c.cdw14, c.cdw15] = List.replicate 5 0 ∧ c.cdw10.toNat = x ∧ x < 64)
    ∧ demo.svc.runSlot + 1 = 1 ∧ fwImageOk demo.svc.fwStage demo.svc.fwStageBytes = false
    ∧ (∀ st ∈ [FwState.demoted, .staged], let s := demoSvc fun v => { v with nor := { v.nor with fwB := some (demoFw st) } }
       startsB s (cmd 0x10 0 0 (16 + 2)) .adminOwner = true ∧ (s.svc.nor.fw (2 - 1)).map (·.state) = some st ∧ s.svc.nor.queue = [])
    ∧ (∀ code ∈ [1, 2, 15], ∀ x ∈ [(0, none), (2, none), (0, some (1, 0))], let s := { (demoP fun p => { p with level := x.1 }) with svc := { demo.svc with test := x.2 } }
       let c := cmd 0x14 0 0 code
       startsB s c .adminOwner = true ∧ bits c.cdw10.toNat 3 0 = code ∧ s.testBusy = decide (x.1 = 2) ∧ s.svc.test = x.2) := by decide +kernel
theorem witness_FirmwareAndSettings_nor :
    (∀ j ∈ [NorJob.commit norRef 1 0 8192 {}, .commit norRef 1 1 8192 {}, .promote norRef 1, .base norRef 1 4294967295, .save, .clear,
        .features norRef [(0, 2, 0, 5)]],
      let s := demoNor j fun n => { n with fwB := some (demoFw .staged) }
      s.power.stage = .on ∧ s.svc.nor.busy = true ∧ s.svc.nor.queue = [j] ∧ s.svc.held = none ∧ s.svc.runSlot < 2 ∧ heldB s norRef = true
        ∧ norRef.sqid = 0 ∧ (s.ctrl 0).aers = [] ∧ s.svc.nor.fw 1 = some (demoFw .staged))
    ∧ (demoSvc fun v => { v with test := some (2, 4) }).svc.test = some (2, 4)
    ∧ demo.settingsMayWrite = true ∧ (demoSvc fun v => { v with settingsBusy := true }).settingsMayWrite = false := by decide +kernel

/-! ### Witnesses: the service monitor, JTAG, the whole module -/

/-- The module with its monitor like this. -/
def demoMon (m : Monitor) : State := demoSvc fun v => { v with monitor := m }
theorem witness_MonitorCommands :
    demo.power.stage = .on ∧ demo.svc.running = true
    -- no firmware: with PERST_N high nothing answers, and with PERST_N low the monitor does
    ∧ (∀ perst ∈ [true, false], let s := { demoSvc fun v => { v with running := false } with power := { demo.power with perst := perst } }
       s.svc.running = false ∧ s.power.railsUp = true ∧ s.power.perst = perst)
    -- unlocked ten minutes ago, and one microsecond less
    ∧ (∀ now ∈ [599999999, 600000000], let s := { demoMon { unlocked := true, lastAt := 0 } with now := now }
       s.svc.monitor.unlocked = true ∧ (s.now < s.svc.monitor.lastAt + 600000000 ↔ now = 599999999))
    ∧ (∀ now ∈ [60000000, 60000001], let s := { demoMon { nonce := some 1, nonceAt := 0 } with now := now }
       s.svc.monitor.nonceAt + 60000000 < s.now ↔ now = 60000001)
    ∧ (∀ now ∈ [59999999, 60000000], let s := { demoMon { lockoutUntil := some 60000000 } with now := now }
       s.lockedOut = decide (now = 59999999))
    ∧ (∀ fails ∈ [0, 1, 2, 9], let s := demoMon { fails := fails, nonce := some 1, nonceAt := 0 }
       s.lockedOut = false ∧ s.svc.monitor.nonce = some 1 ∧ s.now ≤ s.svc.monitor.nonceAt + 60000000 ∧ s.ownerKey 0 = none)
    ∧ (∀ unlocked ∈ [true, false], let s := demoMon { unlocked := unlocked }
       s.svc.monitor.unlocked = unlocked ∧ s.pers.stage = .empty ∧ s.settingsMayWrite = true ∧ s.svc.held = none ∧ s.svc.nor.busy = false
         ∧ s.svc.monitor.nonce = none ∧ s.pers.ownerKeys.all (·.isNone) = true)
    ∧ (∀ boot ∈ [true, false], (demoSvc fun v => { v with bootSel := boot }).svc.bootSel = boot)
    ∧ (demoSvc fun v => { v with bootSel := true }).settingsMayWrite = false
    ∧ (demoSvc fun v => { v with nor := { v.nor with busy := true } }).svc.nor.busy = true := by decide +kernel
/-- A right response to a challenge: the key of slot 3, a nonce one minute old. -/
theorem witness_MonitorCommands_owner : ∃ t : BitVec 384,
    let s := { (demoMon { nonce := some 5, nonceAt := 0 }) with
      now := 60000000, pers := { demo.pers with ownerKeys := [none, none, none, some { keyId := 1, key := 9 }] } }
    s.ownerKey 3 = some { keyId := 1, key := 9 } ∧ s.svc.monitor.nonce = some 5 ∧ s.now ≤ s.svc.monitor.nonceAt + 60000000
      ∧ hmacSha384 (bytesOfBe 48 (9 : BitVec 384).toNat) (s.challengeMessage 5) = bytesOfBe 48 t.toNat := by
  refine ⟨BitVec.ofNat 384 39093854098606160192904400812129205054899876639747582613782287362462130778442962692637460532333423397162124213633026, ?_⟩
  decide +kernel

theorem witness_JtagReachesNothing :
    (let s := { demoSvc fun v => { v with bootSel := true } with power := { demo.power with perst := true } }
     s.svc.bootSel = true ∧ s.power.perst = true) ∧ demo.svc.bootSel = false ∧ demo.power.perst = false := by decide +kernel
theorem witness_ClocksStayLegal : ClockLegal demo.power ∧ ∃ t, step { demo with pending := [.monitorLock] } = .next t :=
  ⟨by unfold ClockLegal; decide +kernel, _, rfl⟩

end Sys2Proof.Tests
end

section
/-!
PROOFS. Chapter 05, the start of I/O commands: ordered commands (O27) and the gate of deferred write errors (O28).
-/

namespace Sys2Proof.Machine

open Sys2Proof.Safety

/-! ### The rows that carry an I/O command -/

/-- The rows of the storage queues (Table 05-5). -/
def nvmRows (c : Cmd) : List Instr := [.flush c, .write c, .read c, .datasetManagement c]
/-- The rows of the compute queues and of the direct-media commands (Table 06-2). -/
def vendorRows (c : Cmd) : List Instr :=
  [.admitModel c, .release c, .invoke c, .search c, .extract c, .service c, .alloc c, .free c, .counterRead c, .counterBump c,
    .counterWaitGe c, .runBegin c, .runEnd c, .publishBegin c, .publishData c, .publishVerify c, .publishCommit c,
    .publishAbandon c, .mediaWrite c, .mediaRead c, .mediaErase c]

/-- A storage row is `State.command` with an effect of its own. -/
theorem exec_of_mem_nvmRows {c : Cmd} : ∀ x ∈ nvmRows c, ∃ f, ∀ s, exec x s = s.command c .nvm f := by
  simp only [nvmRows, List.forall_mem_cons, List.not_mem_nil, false_implies, implies_true, and_true]
  and_intros <;> exact ⟨_, fun _ => rfl⟩

/-- A vendor row is `State.vendor` with checks and an effect of its own. -/
theorem exec_of_mem_vendorRows {c : Cmd} :
    ∀ x ∈ vendorRows c, ∃ owner needsRun early f, ∀ s, exec x s = s.vendor c owner needsRun early f := by
  simp only [vendorRows, List.forall_mem_cons, List.not_mem_nil, false_implies, implies_true, and_true]
  and_intros <;> exact ⟨_, _, _, _, fun _ => rfl⟩

/-- A row whose command cannot start leaves the state as it was. -/
theorem exec_ioRow_of_wait {s : State} {c : Cmd} (h : s.begin c = none) :
    ∀ x ∈ nvmRows c ++ vendorRows c, exec x s = .next s := by
  refine List.forall_mem_append.mpr ⟨fun x hx => ?_, fun x hx => ?_⟩
  · obtain ⟨f, hf⟩ := exec_of_mem_nvmRows x hx
    rw [hf, State.command_of_wait h]
  · obtain ⟨owner, needsRun, early, f, hf⟩ := exec_of_mem_vendorRows x hx
    rw [hf, State.vendor_of_wait h]

/-! ### Ordered commands (R170) -/

theorem ord_of_io {c : Cmd} (hq : c.sqid ≠ 0) (h : c.cdw0.getLsbD 10 = true) : c.ord = true := by
  simp [Cmd.ord, h, hq]

theorem Ctrl.sqid_of_mem_earlier {k : Ctrl} {c : Cmd} {o : Outstanding} (h : o ∈ k.earlier c) : o.cmd.sqid = c.sqid :=
  beq_iff_eq.mp (List.mem_filter.mp h).2

/-- While a completion of its queue waits for room, a command with `ORD` does not start, nor any command after one with `ORD`:
the completion is not posted yet. -/
theorem State.begin_of_unposted {s : State} {c : Cmd} {x : Completion} (hx : x ∈ (s.ctrl c.fn).unposted)
    (hq : x.sqid = c.sqid) (ho : c.ord = true ∨ x.ord = true) : s.begin c = none := by
  unfold State.begin
  extract_lets k known compute activating parked waits
  have hp : x ∈ parked := List.mem_filter.mpr ⟨hx, beq_iff_eq.mpr hq⟩
  have hw : waits = true := by
    rcases ho with ho | ho
    · have : parked.isEmpty = false := by simpa using List.ne_nil_of_mem hp
      simp [waits, ho, this]
    · have : (parked.any (·.ord)) = true := List.any_eq_true.mpr ⟨x, hp, ho⟩
      simp [waits, this]
  refine if_pos ?_
  simp [hw]

/-! ### What the end of a command keeps -/

theorem State.OnlyHost.logs {s t : State} (h : s.OnlyHost t) : t.logs = s.logs := (congrArg State.logs h :)
theorem State.OnlyHost.media {s t : State} (h : s.OnlyHost t) : t.media = s.media := (congrArg State.media h :)

/-- The start of a command writes no log entry. -/
theorem State.begin_logs {s t : State} {c : Cmd} (h : s.begin c = some t) : t.logs = s.logs :=
  (congrArg State.logs (State.begin_spec h).1 :)

/-- A command that a later state still holds ends for an earlier one too, when no completion came in between. -/
theorem State.complete_endsRef {s t : State} {r : CmdRef} (hc : t.pcie.completions = s.pcie.completions) (h : Held t r)
    (st : Status) (a b : Nat) : EndsRef s (t.complete r st a b) r st a b :=
  ⟨_, (t.complete_held h st a b).trans (by rw [hc]), List.mem_singleton.mpr rfl⟩

/-! ### What keeps a command with its controller -/

/-- Whether a command is held is a matter of the power stage and the controllers alone. -/
theorem held_of_eq {s t : State} {r : CmdRef} (h : Held s r) (hp : t.power = s.power) (hc : t.pcie.ctrls = s.pcie.ctrls) :
    Held t r := by
  unfold Held State.ctrl at *
  rwa [hp, hc]

theorem State.dataOut_pcie (s : State) (fn : Nat) (prp1 prp2 : Qword) (bs : List Byte) :
    (s.dataOut fn prp1 prp2 bs).pcie = (s.relax fn).pcie :=
  (congrArg State.pcie (State.putPieces_spec (s.relax fn) _ bs) :)

theorem held_dataOut {s : State} {r : CmdRef} (h : Held s r) (fn : Nat) (prp1 prp2 : Qword) (bs : List Byte) :
    Held (s.dataOut fn prp1 prp2 bs) r :=
  held_of_eq h (congrArg State.power (s.dataOut_onlyHost fn prp1 prp2 bs) :)
    (congrArg Pcie.ctrls (s.dataOut_pcie fn prp1 prp2 bs) :)

/-- The release of an event code takes no command from its controller. -/
theorem held_releaseCode {s : State} {r : CmdRef} (h : Held s r) (fn page : Nat) : Held (s.releaseCode fn page) r := by
  obtain ⟨hon, hany⟩ := h
  refine ⟨hon, ?_⟩
  by_cases hr : r.fn = fn
  · have hl : r.fn < s.pcie.ctrls.length := State.lt_of_outstanding fun h0 => by simp [h0] at hany
    subst hr
    rw [State.releaseCode, s.ctrl_modCtrl _ hl]
    exact hany
  · rwa [State.releaseCode, s.ctrl_modCtrl_ne _ hr]

/-! ### The gate of deferred write errors (R177, R178) -/

/-- In a list whose keys rise, the element of least key with a property is the first with it. -/
theorem find?_eq_some_of_least {α : Type} {l : List α} {key : α → Nat} {p : α → Bool} {a : α}
    (hl : l.Pairwise fun x y => key x < key y) (ha : a ∈ l) (hp : p a = true) (hmin : ∀ x ∈ l, p x = true → key a ≤ key x) :
    l.find? p = some a := by
  obtain ⟨before, after, rfl⟩ := List.mem_iff_append.mp ha
  refine List.find?_eq_some_iff_append.mpr ⟨hp, before, after, rfl, fun x hx => ?_⟩
  have hlt : key x < key a := (List.pairwise_append.mp hl).2.2 x hx a List.mem_cons_self
  by_contra hpx
  have hle : key a ≤ key x := hmin x (List.mem_append_left _ hx) (by simpa using hpx)
  omega

/-- An entry gates a command that was fetched when the entries up to `seen` had been written: its function has not read it, and
the command names its namespace or all namespaces. -/
def Deferred.gates (c : Cmd) (seen : Nat) (d : Deferred) : Bool :=
  d.fn == c.fn && !d.readByOwner && (d.nsid == c.nsid.toNat || c.nsid == 0xFFFFFFFF) && decide (d.seq ≤ seen)

theorem Deferred.gates_iff {c : Cmd} {seen : Nat} {d : Deferred} :
    d.gates c seen = true ↔
      d.fn = c.fn ∧ d.readByOwner = false ∧ d.seq ≤ seen ∧ (d.nsid = c.nsid.toNat ∨ c.nsid = 0xFFFFFFFF) := by
  simp only [Deferred.gates, Bool.and_eq_true, Bool.or_eq_true, beq_iff_eq, Bool.not_eq_true', decide_eq_true_eq]
  tauto

/-- A command that the controller holds is gated by the first entry that gates it. -/
theorem State.gatedBy_of_held {s : State} {c : Cmd} {o : Outstanding}
    (h : (s.ctrl c.fn).outstanding.find? (fun o => o.cmd.ref == c.ref) = some o) :
    s.gatedBy c = s.logs.deferred.find? (Deferred.gates c o.deferredSeen) := by
  unfold State.gatedBy
  rw [h]
  rfl

/-- A storage command that is gated ends with DEFERRED_WRITE_ERROR; its own effect does not happen. -/
theorem State.command_of_gated {s t : State} {c : Cmd} {d : Deferred} (h : s.begin c = some t)
    (hr : t.refusal c .nvm = none) (hd : t.gatedBy c = some d) (f : State → State) :
    s.command c .nvm f = .next ((t.carry d c.ref).complete c.ref .deferredWriteError (d.seq % 2 ^ 32)) := by
  unfold State.command
  rw [h]
  dsimp only
  rw [hr]
  dsimp only
  rw [if_pos rfl, hd]

/-- The first command that an entry gates is its carrier; a carried entry keeps its own. -/
theorem State.carry_deferred (s : State) (d : Deferred) (r : CmdRef) :
    (s.carry d r).logs.deferred = s.logs.deferred.map fun e =>
      if e.seq = d.seq ∧ e.carried = false then { e with carried := true, carrierCid := r.cid, carrierSqid := r.sqid } else e := by
  simp [State.carry]

/-- What gates a command that starts: nothing has changed in the log since. -/
theorem State.gatedBy_of_begin {s t : State} {c : Cmd} {o : Outstanding} (hb : s.begin c = some t)
    (ho : (t.ctrl c.fn).outstanding.find? (fun o => o.cmd.ref == c.ref) = some o) :
    t.gatedBy c = s.logs.deferred.find? (Deferred.gates c o.deferredSeen) := by
  rw [State.gatedBy_of_held ho, State.begin_logs hb]

/-- A storage row whose command is gated: the command has ended, the media block is as before, and the entry has its carrier. -/
theorem exec_nvmRow_of_gated {s t : State} {c : Cmd} {d : Deferred} (hb : s.begin c = some t) (hr : t.refusal c .nvm = none)
    (hd : t.gatedBy c = some d) :
    ∀ x ∈ nvmRows c, ∃ u, exec x s = .next u ∧ Ends s u c .deferredWriteError (d.seq % 2 ^ 32) ∧ u.media = s.media
      ∧ u.logs.deferred = (s.carry d c.ref).logs.deferred := by
  intro x hx
  obtain ⟨f, hf⟩ := exec_of_mem_nvmRows x hx
  obtain ⟨hst, hcompl, hheld, -, -⟩ := State.begin_spec hb
  have hmedia : t.media = s.media := (congrArg State.media hst :)
  have hend := (t.carry d c.ref).complete_onlyHost c.ref .deferredWriteError (d.seq % 2 ^ 32) 0
  refine ⟨_, (hf s).trans (State.command_of_gated hb hr hd f),
    State.complete_endsRef (t := t.carry d c.ref) hcompl hheld _ _ _, hend.media.trans hmedia, ?_⟩
  rw [hend.logs, State.carry_deferred, State.carry_deferred, State.begin_logs hb]

/-! ### Get Log Page of 0xC3 (R177) -/

/-- Bytes `off … off + n - 1` of page 0xC3 as function `fn` sees it hold a whole entry of the function's own. -/
def State.Returned (s : State) (fn off n : Nat) (e : Deferred) : Prop :=
  ∃ i, (s.deferredSeenBy fn)[i]? = some e ∧ e.fn = fn ∧ off ≤ 64 + 64 * i ∧ 128 + 64 * i ≤ off + n

/-- The sequence numbers of the entries returned, as `State.deferredRead` finds them. -/
def State.returnedSeqs (s : State) (fn off n : Nat) : List Nat :=
  ((s.deferredSeenBy fn).zipIdx.filter fun d =>
    decide (off ≤ 64 + 64 * d.2) && decide (64 + 64 * d.2 + 64 ≤ off + n) && d.1.fn == fn).map (·.1.seq)

theorem State.deferredRead_deferred (s : State) (fn off n : Nat) :
    (s.deferredRead fn off n).logs.deferred = s.logs.deferred.map fun d =>
      if (s.returnedSeqs fn off n).contains d.seq then { d with readByOwner := true } else d := rfl

theorem State.deferredRead_logs_congr {s t : State} (h : t.logs = s.logs) (fn off n : Nat) :
    (t.deferredRead fn off n).logs = (s.deferredRead fn off n).logs := by
  cases t
  obtain rfl := h
  rfl

theorem State.mem_returnedSeqs {s : State} {fn off n q : Nat} :
    q ∈ s.returnedSeqs fn off n ↔ ∃ e, s.Returned fn off n e ∧ e.seq = q := by
  simp only [State.returnedSeqs, State.Returned, List.mem_map, List.mem_filter, Prod.exists, List.mem_zipIdx_iff_getElem?,
    Bool.and_eq_true, decide_eq_true_eq, beq_iff_eq]
  constructor
  · rintro ⟨e, i, ⟨hi, ⟨hlo, hhi⟩, hfn⟩, hq⟩
    exact ⟨e, ⟨i, hi, hfn, hlo, by omega⟩, hq⟩
  · rintro ⟨e, ⟨i, hi, hfn, hlo, hhi⟩, hq⟩
    exact ⟨e, i, ⟨hi, ⟨hlo, by omega⟩, hfn⟩, hq⟩

theorem State.Returned.mem {s : State} {fn off n : Nat} {e : Deferred} (h : s.Returned fn off n e) : e ∈ s.logs.deferred := by
  obtain ⟨i, hi, -⟩ := h
  exact (List.mem_filter.mp (List.mem_of_getElem? hi)).1

/-- Sequence numbers that rise name their entries. -/
theorem Deferred.eq_of_seq_eq {l : List Deferred} (h : l.Pairwise fun a b => a.seq < b.seq) {a b : Deferred} (ha : a ∈ l)
    (hb : b ∈ l) (hs : a.seq = b.seq) : a = b :=
  have hnodup : (l.map Deferred.seq).Nodup := List.pairwise_map.mpr (h.imp Nat.ne_of_lt)
  List.inj_on_of_nodup_map hnodup ha hb hs

/-- An entry of the log is among those marked exactly when it was returned itself. -/
theorem State.seq_mem_returnedSeqs {s : State} {fn off n : Nat} {e : Deferred}
    (h : s.logs.deferred.Pairwise fun a b => a.seq < b.seq) (he : e ∈ s.logs.deferred) :
    e.seq ∈ s.returnedSeqs fn off n ↔ s.Returned fn off n e := by
  rw [State.mem_returnedSeqs]
  refine ⟨fun ⟨e', hr, hs⟩ => ?_, fun hr => ⟨e, hr, rfl⟩⟩
  rwa [← Deferred.eq_of_seq_eq h hr.mem he hs]

/-- A read of page 0xC3 marks the entries that it returned to their own function, and no other. -/
theorem State.deferredRead_getElem? {s : State} {fn off n j : Nat} {e : Deferred}
    (h : s.logs.deferred.Pairwise fun a b => a.seq < b.seq) (he : s.logs.deferred[j]? = some e) :
    (s.Returned fn off n e → (s.deferredRead fn off n).logs.deferred[j]? = some { e with readByOwner := true })
      ∧ (¬ s.Returned fn off n e → (s.deferredRead fn off n).logs.deferred[j]? = some e) := by
  have hmem := State.seq_mem_returnedSeqs (fn := fn) (off := off) (n := n) h (List.mem_of_getElem? he)
  rw [State.deferredRead_deferred, List.getElem?_map, he]
  exact ⟨fun hr => by simp [hmem.mpr hr], fun hr => by simp [mt hmem.mp hr]⟩

/-- The bytes that a Get Log Page asks for. -/
def logBytes (c : Cmd) : Nat := 4 * (bits c.cdw10.toNat 31 16 + 65536 * bits c.cdw11.toNat 15 0 + 1)
/-- The byte of the page at which they begin. -/
def logOffset (c : Cmd) : Nat := c.cdw12.toNat + 2 ^ 32 * c.cdw13.toNat

/-- A read of 0xC3 that begins within the page returns its bytes and marks the entries in them. It releases at most the page's
event code, so that no command ends and none is taken from its controller. -/
theorem State.readLog_deferredPage {s : State} {fn : Nat} {c : Cmd} {page : List Byte}
    (hlid : bits c.cdw10.toNat 7 0 = 0xC3) (hpage : s.logPage fn 0xC3 = some page) (hmax : logBytes c ≤ 16777216)
    (hal : logOffset c % 4 = 0) (hle : logOffset c ≤ page.length) :
    ∃ u, s.readLog fn c = (.success, padTo (logBytes c) (page.drop (logOffset c)), u)
      ∧ u.logs = (s.deferredRead fn (logOffset c) (logBytes c)).logs ∧ u.pcie.completions = s.pcie.completions
      ∧ ∀ r, Held s r → Held u r := by
  unfold State.readLog
  extract_lets lid retain n off released read cleared
  have hlid : lid = 0xC3 := hlid
  have hcleared : cleared = released.deferredRead fn off n := by simp [cleared, read, hlid]
  refine ⟨cleared, ?_, ?_⟩
  · have hmax : ¬ n > 16777216 := Nat.not_lt.mpr hmax
    have hin : ¬ (decide (off % 4 ≠ 0) || decide (off > page.length)) = true := by
      have hal : off % 4 = 0 := hal
      have hle : off ≤ page.length := hle
      simp [hal, hle]
    rw [if_neg hmax, hlid, hpage]
    exact if_neg hin
  · have hreleased : released.logs = s.logs ∧ released.pcie.completions = s.pcie.completions
        ∧ ∀ r, Held s r → Held released r := by
      unfold released
      split
      · exact ⟨rfl, rfl, fun _ h => h⟩
      · exact ⟨rfl, rfl, fun _ h => held_releaseCode h fn lid⟩
    obtain ⟨hlogs, hcompl, hheld⟩ := hreleased
    rw [hcleared]
    exact ⟨State.deferredRead_logs_congr hlogs fn off n, hcompl, hheld⟩

/-- A Get Log Page that starts and succeeds sends its bytes and ends. -/
theorem exec_getLogPage_of_success {s t u : State} {c : Cmd} {bs : List Byte} (h : Starts s c .admin t)
    (hr : t.readLog c.fn c = (.success, bs, u)) :
    exec (.getLogPage c) s = .next ((u.dataOut c.fn c.prp1 c.prp2 bs).complete c.ref .success) := by
  refine (State.command_of_starts h _).trans ?_
  rw [hr]
  rfl

/-- A Get Log Page of 0xC3 that starts and begins within the page ends with success, and the log has its marks. -/
theorem exec_getLogPage_deferredPage {s t : State} {c : Cmd} {page : List Byte} (hst : Starts s c .admin t)
    (hlid : bits c.cdw10.toNat 7 0 = 0xC3) (hpage : t.logPage c.fn 0xC3 = some page) (hmax : logBytes c ≤ 16777216)
    (hal : logOffset c % 4 = 0) (hle : logOffset c ≤ page.length) :
    ∃ u, exec (.getLogPage c) s = .next u ∧ Ends s u c .success
      ∧ u.logs = (s.deferredRead c.fn (logOffset c) (logBytes c)).logs := by
  obtain ⟨-, hcompl, hheld, -, -⟩ := State.begin_spec hst.1
  obtain ⟨v, hv, hvlogs, hvcompl, hvheld⟩ := State.readLog_deferredPage hlid hpage hmax hal hle
  have hout (bs : List Byte) : (v.dataOut c.fn c.prp1 c.prp2 bs).pcie.completions = s.pcie.completions :=
    (congrArg Pcie.completions (v.dataOut_pcie c.fn c.prp1 c.prp2 bs)).trans (hvcompl.trans hcompl)
  refine ⟨_, exec_getLogPage_of_success hst hv,
    State.complete_endsRef (hout _) (held_dataOut (hvheld c.ref hheld) ..) _ _ _, ?_⟩
  rw [(State.complete_onlyHost ..).logs, (State.dataOut_onlyHost ..).logs, hvlogs,
    State.deferredRead_logs_congr (State.begin_logs hst.1)]

end Sys2Proof.Machine

open Sys2Proof Sys2Proof.Machine Sys2Proof.Safety

/-- Settles O27: in each of the cases the command does not start, and a row whose command does not start changes nothing. -/
theorem orderedCommands : Obligations.OrderedCommands := by
  unfold Obligations.OrderedCommands
  intro s c hq h
  refine exec_ioRow_of_wait (c := c) ?_
  rcases h with ⟨hc, he | ⟨x, hx, hxq⟩⟩ | ⟨o, ho, hoc⟩ | ⟨x, hx, hxq, hxo⟩
  · exact State.begin_of_ord (.inl ⟨ord_of_io hq hc, he⟩)
  · exact State.begin_of_unposted hx hxq (.inl (ord_of_io hq hc))
  · have hoq : o.cmd.sqid ≠ 0 := (Ctrl.sqid_of_mem_earlier ho).trans_ne hq
    exact State.begin_of_ord (.inr ⟨o, ho, ord_of_io hoq hoc⟩)
  · exact State.begin_of_unposted hx hxq (.inr hxo)

/-- Settles O28: the oldest entry that gates a command is the first in the log, as sequence numbers rise; and because they
rise, a read of the page marks the entries that it returned and no other. -/
theorem deferredGate : Obligations.DeferredGate := by
  unfold Obligations.DeferredGate
  refine ⟨fun s t c o hb hr ho hsorted => ?_, fun s t c page hst hsorted hlid hpage => ?_⟩
  · intro gates
    have hgates (e : Deferred) : gates e ↔ e ∈ s.logs.deferred ∧ e.gates c o.deferredSeen = true :=
      and_congr_right fun _ => Deferred.gates_iff.symm
    have hfind := State.gatedBy_of_begin hb ho
    refine ⟨fun d hd hmin x hx => ?_, fun hnone => ?_⟩
    · obtain ⟨hmem, hg⟩ := (hgates d).mp hd
      have hfirst : t.gatedBy c = some d := hfind.trans
        (find?_eq_some_of_least (key := Deferred.seq) hsorted hmem hg fun e he hge => hmin e ((hgates e).mpr ⟨he, hge⟩))
      obtain ⟨u, hu, hends, hmedia, hlog⟩ := exec_nvmRow_of_gated hb hr hfirst x hx
      exact ⟨u, hu, hends, hmedia, hlog.trans (s.carry_deferred d c.ref)⟩
    · rw [hfind, List.find?_eq_none]
      exact fun e he hge => hnone e ((hgates e).mpr ⟨he, hge⟩)
  · intro n off hmax hal hle returned
    obtain ⟨u, hu, hends, hlogs⟩ := exec_getLogPage_deferredPage hst hlid hpage hmax hal hle
    refine ⟨u, hu, hends, fun j e he => ?_⟩
    rw [hlogs]
    exact State.deferredRead_getElem? hsorted he

end

section
/-!
PROOFS. Every row answers a next state that keeps the module's identity, and legal clock fields (O58, O59): one lemma for each row,
most of them from the `key` lemmas of the operations that the row runs; the rows that change the CLKPWR block use `State.Keeps`.
-/

namespace Sys2Proof.Machine

open Sys2Proof.Safety

/-- `State.Keeps`, said of the two keys. -/
def KeyKeeps (k l : Bool × Id128 × Power) : Prop :=
  l.1 = k.1 ∧ l.2.1 = k.2.1 ∧ (ClockLegal k.2.2 → ClockLegal l.2.2)

theorem State.keeps_iff {s t : State} : s.Keeps t ↔ KeyKeeps s.key t.key := and_assoc
@[simp] theorem KeyKeeps.refl (k : Bool × Id128 × Power) : KeyKeeps k k := ⟨rfl, rfl, id⟩
theorem keyKeeps_of_power {s : State} {p : Power} (h : ClockLegal s.power → ClockLegal p) :
    KeyKeeps s.key (s.big, s.serial, p) := ⟨rfl, rfl, h⟩
@[simp] theorem State.key_ite {p : Prop} [Decidable p] {a b : State} : (if p then a else b).key = if p then a.key else b.key :=
  apply_ite State.key p a b
@[simp] theorem keyKeeps_ite {k l m : Bool × Id128 × Power} {p : Prop} [Decidable p] :
    KeyKeeps k (if p then l else m) ↔ (p → KeyKeeps k l) ∧ (¬ p → KeyKeeps k m) := by
  split <;> simp [*]
@[simp] theorem State.modPower_key_eq (s : State) (f : Power → Power) : (s.modPower f).key = (s.big, s.serial, f s.power) := rfl
@[simp] theorem State.foldl_key_eq {α : Type} {f : State → α → State} {l : List α} {s : State} (h : ∀ s a, (f s a).key = s.key) :
    (l.foldl f s).key = s.key := foldl_key f l s h

/-- An outcome of the state `s` is a next state that keeps the module's identity, and legal clock fields. -/
def State.Answers (s : State) (o : Out) : Prop := ∃ t, o = .next t ∧ s.Keeps t

namespace State.Answers
variable {s : State}

@[simp] theorem next {t : State} : s.Answers (.next t) ↔ KeyKeeps s.key t.key :=
  ⟨fun ⟨_, h, k⟩ => by cases h; exact State.keeps_iff.mp k, fun h => ⟨t, rfl, State.keeps_iff.mpr h⟩⟩
theorem of_keeps {t : State} (h : s.Keeps t) : s.Answers (.next t) := ⟨t, rfl, h⟩
/-- The CLKPWR block and others change, but none of the clock fields does. -/
theorem of_legal {t : State} (hb : t.big = s.big) (hs : t.serial = s.serial) (h : ClockLegal s.power → ClockLegal t.power) :
    s.Answers (.next t) := ⟨t, rfl, ⟨hb, hs⟩, h⟩
theorem or_same {p : Prop} [Decidable p] {o : Out} (h : s.Answers o) : s.Answers (if p then .next s else o) := by
  split
  · exact of_keeps (.refl s)
  · exact h
@[simp] theorem ite {p : Prop} [Decidable p] {a b : Out} :
    s.Answers (if p then a else b) ↔ (p → s.Answers a) ∧ (¬ p → s.Answers b) := by
  split <;> simp [*]
theorem of_command {c : Cmd} {kind : CmdKind} {f : State → State} (h : ∀ u : State, KeyKeeps u.key (f u).key) :
    s.Answers (s.command c kind f) := by
  unfold State.command
  split
  · simp
  · rename_i u hu
    have hk := State.begin_key s c hu
    have hf : s.Answers (.next (f u)) := next.mpr (hk ▸ h u)
    split
    · simp [hk]
    · refine ite.mpr ⟨fun _ => ?_, fun _ => hf⟩
      split
      · simp [hk]
      · exact hf
theorem of_vendor {c : Cmd} {owner needsRun : Bool} {early : State → Option Status} {f : State → State}
    (h : ∀ u : State, KeyKeeps u.key (f u).key) : s.Answers (s.vendor c owner needsRun early f) := by
  unfold State.vendor
  split
  · simp
  · rename_i u hu
    have hk := State.begin_key s c hu
    split
    · simp [hk]
    · exact ite.mpr ⟨fun _ => by simp [hk], fun _ => next.mpr (hk ▸ h u)⟩
@[simp] theorem whenOn {o : Out} : s.Answers (s.whenOn o) ↔ (s.power.stage = .on → s.Answers o) := by simp [State.whenOn]
@[simp] theorem whenOpen {o : Out} :
    s.Answers (s.whenOpen o) ↔ (s.power.stage = .on ∧ s.power.perst = false → s.Answers o) := by simp [State.whenOpen]
@[simp] theorem mi {f : State → State} : s.Answers (s.mi f) ↔ (s.miAnswers = true → KeyKeeps s.key (f s).key) := by
  simp [State.mi]
theorem line {f : State → State} (h : ∀ u : State, KeyKeeps u.key (f u).key) : s.Answers (s.line f) :=
  ite.mpr ⟨fun _ => next.mpr (h _), fun _ => by simp⟩
theorem unlockedLine {f : State → State} (h : ∀ u : State, KeyKeeps u.key (f u).key) : s.Answers (s.unlockedLine f) :=
  .line fun u => by split <;> simp [h u]
theorem of_runOp {q cls op : Nat} {work : State → Invocation → QEntry → Except StopReason Work}
    {run : State → Invocation → QEntry → Work → State × CmdOutcome} (h : ∀ u i e w, (run u i e w).1.key = u.key) :
    s.Answers (.next (s.runOp q cls op work run)) := of_keeps (State.keeps_of_key (State.runOp_key h))
end State.Answers

section
open State.Answers

/-! ### Power, clocks and thermal levels -/

theorem execPowerOn_answers (s : State) : s.Answers (execPowerOn s) :=
  have h : s.Keeps (s.modPower fun p => { p with inputUp := true }) := s.modPower_keeps _ id
  ite.mpr ⟨fun _ => of_keeps (h.trans (State.powerOn_keeps _)), fun _ => of_keeps h⟩
theorem execAonRelease_answers (slotId slotOpen : BitVec 8) (bootSel plnLow sfdpOk : Bool) (s : State) :
    s.Answers (execAonRelease slotId slotOpen bootSel plnLow sfdpOk s) := or_same (of_legal rfl rfl id)
theorem execRailsUp_answers (s : State) : s.Answers (execRailsUp s) := ite.mpr ⟨fun _ => of_legal rfl rfl id, fun _ => by simp⟩
theorem execFirmwareBoot_answers (bad : List (Nat × Nat)) (s : State) : s.Answers (execFirmwareBoot bad s) :=
  or_same (of_keeps (State.bootFirmware_keeps bad 2 s none))
theorem execDramInitDone_answers (s : State) : s.Answers (execDramInitDone s) := ite.mpr ⟨fun _ => of_legal rfl rfl id, fun _ => by simp⟩
theorem execMapReplay_answers (s : State) : s.Answers (execMapReplay s) := by simp [execMapReplay]
theorem execBasePersonalityLoad_answers (badFrames : List (Nat × Nat)) (s : State) :
    s.Answers (execBasePersonalityLoad badFrames s) := by
  refine or_same ?_
  dsimp only
  generalize hu : State.install ((s.modPers Pers.restart).modPeer fun p => { p with locked := false }) {} = u
  have hk : u.key = s.key := by simp [← hu]
  split
  · next v h => simp [State.fst_key h, hk]
  · next v k h =>
    have hv : v.key = s.key := by simp [State.fst_key h, hk]
    split
    · simp [hv]
    · exact of_keeps ((State.keeps_of_key hv).trans (State.baseEnd_keeps ..))
theorem execLinkUp_answers (width rate : Nat) (s : State) : s.Answers (execLinkUp width rate s) := by
  refine or_same (ite.mpr ⟨fun _ => ?_, fun _ => of_legal rfl rfl id⟩)
  exact of_keeps ((s.modPower_keeps (fun p => { p with linkUp := true, linkWidth := width, linkRate := rate }) id).trans
    (State.keeps_of_key (by simp)))
theorem execCstsReady_answers (fn : Nat) (s : State) : s.Answers (execCstsReady fn s) := by simp [execCstsReady]
theorem execHoldupCharged_answers (s : State) : s.Answers (execHoldupCharged s) := or_same (of_legal rfl rfl id)
theorem execHoldupChargeTimeout_answers (s : State) : s.Answers (execHoldupChargeTimeout s) :=
  or_same (of_keeps ((s.modPower_keeps _ id).trans (State.keeps_of_key (State.health_key ..))))
theorem execHoldupMeasure_answers (tenthsMf : Nat) (s : State) : s.Answers (execHoldupMeasure tenthsMf s) := by
  refine or_same ?_
  extract_lets low pct t
  have h : s.Keeps t := ⟨⟨rfl, rfl⟩, fun ⟨h1, h2, h3, h4, h5⟩ => ⟨h1, h2, h3, h4, h5⟩⟩
  clear_value t
  exact ite.mpr ⟨fun _ => of_keeps (h.trans (State.keeps_of_key (State.health_key ..))), fun _ => of_keeps h⟩
theorem execInputUndervoltage_answers (s : State) : s.Answers (execInputUndervoltage s) :=
  of_keeps ((s.modPower_keeps _ id).trans (State.loss_keeps ..))
theorem execPlnFall_answers (s : State) : s.Answers (execPlnFall s) := or_same (of_keeps (s.loss_keeps ..))
theorem execPwrdisAssert_answers (s : State) : s.Answers (execPwrdisAssert s) :=
  of_keeps ((s.modPower_keeps _ id).trans (State.loss_keeps ..))
theorem execPwrdisDeassert_answers (s : State) : s.Answers (execPwrdisDeassert s) :=
  have h : s.Keeps (s.modPower fun p => { p with pwrdis := false }) := s.modPower_keeps _ id
  ite.mpr ⟨fun _ => of_keeps (h.trans (State.powerOn_keeps _)), fun _ => of_keeps h⟩
theorem execP1Shed_answers (s : State) : s.Answers (execP1Shed s) :=
  or_same (of_legal rfl rfl fun ⟨_, h2, h3, h4, h5⟩ => ⟨Nat.zero_le 21, h2, h3, h4, h5⟩)
theorem execP2Flush_answers (failed : List (Nat × Nat)) (s : State) : s.Answers (execP2Flush failed s) := by
  have staged (t : State) : t.Keeps (t.modPower fun p => { p with stage := .flushed }) := t.modPower_keeps _ id
  have flush (t : State) : t.Keeps ((t.flushAll failed).modPower fun p => { p with stage := .flushed }) :=
    (State.keeps_of_key (t.flushAll_key failed)).trans (staged _)
  refine or_same (of_keeps (State.Keeps.trans ?_ (flush _)))
  split
  · exact ⟨⟨rfl, rfl⟩, id⟩
  · exact ⟨⟨rfl, rfl⟩, id⟩
  · exact .refl s
theorem execP3Metadata_answers (s : State) : s.Answers (execP3Metadata s) := by
  refine or_same (of_keeps (.trans ?_ (State.modPower_keeps _ _ id)))
  refine (State.ite_keeps (.refl s) ?_).trans (State.keeps_of_key (State.modNor_key ..))
  exact State.keeps_of_key (foldl_key _ _ _ fun u g => u.programTail_key g)
theorem execP4RailsDown_answers (vin10mv : Nat) (s : State) : s.Answers (execP4RailsDown vin10mv s) :=
  or_same (ite.mpr ⟨fun _ => of_keeps (((s.modPower_keeps _ id).trans (State.keeps_of_key (State.modSvc_key ..))).trans
    (State.powerOn_keeps _)), fun _ => of_legal rfl rfl id⟩)
theorem execInputOvervoltage_answers (s : State) : s.Answers (execInputOvervoltage s) :=
  of_keeps (s.openFuse_keeps.trans (State.loss_keeps ..))
theorem execInputOvercurrent_answers (s : State) : s.Answers (execInputOvercurrent s) :=
  of_keeps (s.openFuse_keeps.trans (State.loss_keeps ..))
theorem execRailTrip_answers (r : Rail) (s : State) : s.Answers (execRailTrip r s) := of_keeps (s.loss_keeps ..)
theorem execNandRailTrip_answers (group : Nat) (s : State) : s.Answers (execNandRailTrip group s) :=
    by simp [execNandRailTrip]
theorem execCageEfuseTrip_answers (cage : Nat) (s : State) : s.Answers (execCageEfuseTrip cage s) :=
    by simp [execCageEfuseTrip]
theorem execCablePresenceChange_answers (cage : Nat) (present supported : Bool) (s : State) :
    s.Answers (execCablePresenceChange cage present supported s) :=
  by simp [execCablePresenceChange]
theorem execSidebandPinFault_answers (pin : SidebandPin) (s : State) : s.Answers (execSidebandPinFault pin s) := by
  refine or_same (of_keeps (.trans ?_ (State.keeps_of_key (State.health_key ..))))
  cases pin <;> exact ⟨⟨rfl, rfl⟩, id⟩
theorem execRefclkLoss_answers (s : State) : s.Answers (execRefclkLoss s) := by
  refine or_same (of_keeps (.trans ?_ (State.keeps_of_key (State.linkDegraded_key ..))))
  exact State.ite_keeps (.trans (State.keeps_of_key rfl) (State.hotReset_keeps _)) (State.keeps_of_key rfl)
theorem execPowerSample_answers (volts : Volts) (pin100mw : Nat) (s : State) : s.Answers (execPowerSample volts pin100mw s) :=
  or_same (of_legal rfl rfl id)
theorem execPowerCeilingLower_answers (s : State) : s.Answers (execPowerCeilingLower s) := by
  refine or_same (of_legal rfl rfl fun ⟨h1, h2, h3⟩ => ⟨h1, ?_, h3⟩)
  exact Nat.le_trans (Nat.sub_le ..) (Nat.le_trans (Nat.min_le_left ..) h2)
theorem execPowerCeilingRaise_answers (s : State) : s.Answers (execPowerCeilingRaise s) := by
  refine or_same (of_legal rfl rfl fun ⟨h1, h2, h3⟩ => ⟨h1, ?_, h3⟩)
  show (if _ then s.power.powerCeiling + 1 else s.power.powerCeiling) ≤ 21
  split
  · next h => exact Nat.le_trans h (Nat.min_le_left ..)
  · exact h2
theorem stepTowards_le {a b n : Nat} (ha : a ≤ n) (hb : b ≤ n) : stepTowards a b ≤ n := by
  unfold stepTowards
  repeat' split
  all_goals omega
theorem execCoreClockStep_answers (s : State) : s.Answers (execCoreClockStep s) := by
  refine or_same (ite.mpr ⟨fun _ => of_legal rfl rfl fun ⟨_, h2, h3, h4, h5⟩ => ⟨h5, h2, h3, h4, h5⟩, fun _ => or_same ?_⟩)
  refine of_legal rfl rfl fun ⟨h1, h2, h3, h4, h5⟩ => ⟨h1, h2, h3, h4, stepTowards_le h1 ?_⟩
  exact Nat.le_trans (Nat.min_le_right ..) (Nat.le_trans (Nat.min_le_left ..) h2)
theorem thermalLevel_le (tj : Nat) (flow : Bool) : thermalLevel tj flow ≤ 3 := by
  unfold thermalLevel
  repeat' split
  all_goals decide
theorem execThermalLevelEnter_answers (tjMax coolantIn : Nat) (flowOk : Bool) (s : State) :
    s.Answers (execThermalLevelEnter tjMax coolantIn flowOk s) :=
  have h := s.sense_keeps tjMax coolantIn flowOk
  or_same (ite.mpr ⟨fun _ => of_keeps (h.trans (State.setLevel_keeps _ (thermalLevel_le ..))), fun _ => of_keeps h⟩)
theorem execThermalLevelLeave_answers (tjMax coolantIn : Nat) (flowOk : Bool) (s : State) :
    s.Answers (execThermalLevelLeave tjMax coolantIn flowOk s) := by
  have h := s.sense_keeps tjMax coolantIn flowOk
  refine or_same (ite.mpr ⟨fun _ => of_keeps (h.trans (State.setLevel_keeps _ ?_)), fun _ =>
    ite.mpr ⟨fun _ => of_keeps (h.trans (State.setLevel_keeps _ (Nat.zero_le 3))), fun _ => of_keeps h⟩⟩)
  split <;> decide
theorem execThermalCeilingStep_answers (s : State) : s.Answers (execThermalCeilingStep s) := by
  refine ite.mpr ⟨fun _ => of_legal rfl rfl fun ⟨h1, h2, h3, h4⟩ => ⟨h1, h2, ?_, h4⟩, fun _ => by simp⟩
  rw [State.modPower_power]
  dsimp only
  split <;> omega
theorem execFlowLossTimeout_answers (s : State) : s.Answers (execFlowLossTimeout s) :=
  or_same (of_keeps (s.setLevel_keeps (Nat.le_refl 3)))
theorem execDramRecalibration_answers (stack : Nat) (s : State) : s.Answers (execDramRecalibration stack s) :=
    by simp [execDramRecalibration]

/-! ### Resets, controllers and queues -/

theorem execPerstAssert_answers (s : State) : s.Answers (execPerstAssert s) :=
  ite.mpr ⟨fun _ => of_legal rfl rfl id, fun _ => of_keeps ((s.resetNow_keeps .perst).trans (State.modPower_keeps _ _ id))⟩
theorem execPerstDeassert_answers (s : State) : s.Answers (execPerstDeassert s) := of_legal rfl rfl id
theorem execHotReset_answers (s : State) : s.Answers (execHotReset s) := or_same (of_keeps s.hotReset_keeps)
theorem execControllerEnable_answers (fn : Nat) (cc : Dword) (s : State) : s.Answers (execControllerEnable fn cc s) :=
    by simp [execControllerEnable]
theorem execControllerDisable_answers (fn : Nat) (cc : Dword) (s : State) : s.Answers (execControllerDisable fn cc s) :=
  or_same (of_keeps ((State.keeps_of_key (s.resetFunction_key fn false)).trans (State.cause_keeps ..)))
theorem execShutdownNotification_answers (fn : Nat) (cc : Dword) (s : State) :
    s.Answers (execShutdownNotification fn cc s) :=
  by simp [execShutdownNotification]
theorem execFunctionLevelReset_answers (fn : Nat) (s : State) : s.Answers (execFunctionLevelReset fn s) :=
  or_same (of_keeps (((State.keeps_of_key (s.resetFunction_key fn true)).trans (State.cause_keeps ..)).trans
    (State.keeps_of_key (State.modPcie_key ..))))
theorem execVfEnableWrite_answers (enable : Bool) (s : State) : s.Answers (execVfEnableWrite enable s) :=
    by simp [execVfEnableWrite]
theorem execSqTailDoorbell_answers (fn qid value : Nat) (s : State) : s.Answers (execSqTailDoorbell fn qid value s) :=
    by simp [execSqTailDoorbell]
theorem execCqHeadDoorbell_answers (fn qid value : Nat) (s : State) : s.Answers (execCqHeadDoorbell fn qid value s) :=
    by simp [execCqHeadDoorbell]
theorem execCommandFetch_answers (s : State) : s.Answers (execCommandFetch s) := by
  unfold execCommandFetch
  dsimp only
  repeat' split
  all_goals simp
theorem execCommandTimeout_answers (ref : CmdRef) (s : State) : s.Answers (execCommandTimeout ref s) := by
  unfold execCommandTimeout
  dsimp only
  repeat' split
  all_goals simp
theorem execCreateIoSq_answers (c : Cmd) (s : State) : s.Answers (execCreateIoSq c s) := .of_command fun u => by simp
theorem execDeleteIoSq_answers (c : Cmd) (s : State) : s.Answers (execDeleteIoSq c s) := .of_command fun u => by simp
theorem execCreateIoCq_answers (c : Cmd) (s : State) : s.Answers (execCreateIoCq c s) := .of_command fun u => by simp
theorem execDeleteIoCq_answers (c : Cmd) (s : State) : s.Answers (execDeleteIoCq c s) := .of_command fun u => by simp

/-! ### Admin and NVM commands -/

theorem execGetLogPage_answers (c : Cmd) (s : State) : s.Answers (execGetLogPage c s) := .of_command fun u => by simp
theorem execIdentify_answers (c : Cmd) (s : State) : s.Answers (execIdentify c s) := .of_command fun u => by simp
theorem execAbort_answers (c : Cmd) (s : State) : s.Answers (execAbort c s) := .of_command fun u => by simp
theorem execSetFeatures_answers (c : Cmd) (s : State) : s.Answers (execSetFeatures c s) := .of_command fun u => by simp
theorem execSetArbitration_answers (c : Cmd) (s : State) : s.Answers (execSetArbitration c s) := .of_command fun u => by simp
theorem execSetCommandTimeouts_answers (c : Cmd) (s : State) : s.Answers (execSetCommandTimeouts c s) :=
    .of_command fun u => by simp
theorem execSetDeadlineFloor_answers (c : Cmd) (s : State) : s.Answers (execSetDeadlineFloor c s) :=
    .of_command fun u => by simp
theorem execGetFeatures_answers (c : Cmd) (s : State) : s.Answers (execGetFeatures c s) := .of_command fun u => by simp
theorem execAsynchronousEventRequest_answers (c : Cmd) (s : State) : s.Answers (execAsynchronousEventRequest c s) :=
    .of_command fun u => by
  dsimp only
  repeat' split
  all_goals simp
theorem execNamespaceManagement_answers (c : Cmd) (s : State) : s.Answers (execNamespaceManagement c s) :=
    .of_command fun u => by
  dsimp only
  repeat' split
  all_goals simp
theorem execNamespaceAttachment_answers (c : Cmd) (s : State) : s.Answers (execNamespaceAttachment c s) :=
    .of_command fun u => by
  split <;> simp
theorem execFormatNvm_answers (c : Cmd) (s : State) : s.Answers (execFormatNvm c s) := .of_command fun u => by simp
theorem execSanitize_answers (c : Cmd) (s : State) : s.Answers (execSanitize c s) := by
  refine .of_command fun u => ?_
  extract_lets s1 s2 s3 s4 s5
  have h2 : s2.key = u.key := by rw [State.endMediaWork_key, State.abortTest_key]
  have h3 : s3.key = s2.key :=
    foldl_key _ _ _ fun v b => foldl_key _ _ _ fun v k => foldl_key _ _ _ fun v a => v.eraseBlock_key a
  have h4 : s4.key = s3.key := s3.modMedia_key _
  have h5 : s5.key = s4.key := rfl
  have h6 : (List.foldl (fun (v : State) g => (v.journal g).judgeReadOnly g) s5 (List.range 4)).key = s5.key :=
    foldl_key _ _ _ fun v g => by rw [State.judgeReadOnly_key, State.journal_key]
  simp [h6, h5, h4, h3, h2]
theorem execFirmwareImageDownload_answers (c : Cmd) (s : State) : s.Answers (execFirmwareImageDownload c s) :=
    .of_command fun u => by simp
theorem execFirmwareCommit_answers (c : Cmd) (s : State) : s.Answers (execFirmwareCommit c s) := .of_command fun u => by
  dsimp only
  repeat' split
  all_goals simp
theorem execDeviceSelfTest_answers (c : Cmd) (s : State) : s.Answers (execDeviceSelfTest c s) := .of_command fun u => by simp
theorem execSelfTestComplete_answers (failedSegment : Option Nat) (s : State) :
    s.Answers (execSelfTestComplete failedSegment s) := by
  unfold execSelfTestComplete
  repeat' split
  all_goals simp
theorem execFlush_answers (c : Cmd) (s : State) : s.Answers (execFlush c s) := .of_command fun u => by simp
theorem execWrite_answers (c : Cmd) (s : State) : s.Answers (execWrite c s) := .of_command fun u => by
  split <;> simp
theorem execRead_answers (c : Cmd) (s : State) : s.Answers (execRead c s) := by
  refine .of_command fun u => ?_
  split
  · simp
  dsimp only
  generalize hv : List.foldl (fun (s : State) u => s.lookUp _ _ u) u _ = v
  have hk : v.key = u.key := by rw [← hv]; exact foldl_key _ _ _ fun v k => v.lookUp_key ..
  generalize hw : List.foldl (fun (s : State) (l : Nat) => match s.locate _ _ l with
    | .here bs => s.readBlock _ _ l bs
    | _ => s) v _ = w
  have hw : w.key = u.key := by
    rw [← hw, ← hk]
    refine foldl_key _ _ _ fun t l => ?_
    split <;> simp
  split
  · simp
  split
  · simp
  split
  · simp [hk]
  split
  · simp [hw]
  refine State.keeps_iff.mp (State.keeps_of_key ((foldl_key _ _ _ fun t l => ?_).trans hw))
  split <;> simp
theorem execDatasetManagement_answers (c : Cmd) (s : State) : s.Answers (execDatasetManagement c s) :=
    .of_command fun u => by
  split <;> simp

/-! ### NVMe-MI and the personality -/

theorem execMiReadDataStructure_answers (dtype portId ctrlId : Nat) (s : State) :
    s.Answers (execMiReadDataStructure dtype portId ctrlId s) :=
  by simp [execMiReadDataStructure]
theorem execMiSubsystemHealthPoll_answers (clear : Bool) (s : State) : s.Answers (execMiSubsystemHealthPoll clear s) :=
    by simp [execMiSubsystemHealthPoll]
theorem execMiControllerHealthPoll_answers (first max : Nat) (clear : Bool) (s : State) :
    s.Answers (execMiControllerHealthPoll first max clear s) :=
  by simp [execMiControllerHealthPoll]
theorem execMiConfigurationGet_answers (config port : Nat) (s : State) : s.Answers (execMiConfigurationGet config port s) :=
    by simp [execMiConfigurationGet]
theorem execMiConfigurationSet_answers (config port value : Nat) (s : State) :
    s.Answers (execMiConfigurationSet config port value s) :=
  by simp [execMiConfigurationSet]
theorem execMiVpdRead_answers (offset length : Nat) (s : State) : s.Answers (execMiVpdRead offset length s) :=
    by simp [execMiVpdRead]
theorem execMiTunneledAdmin_answers (c : Cmd) (s : State) : s.Answers (execMiTunneledAdmin c s) :=
    by simp [execMiTunneledAdmin]
theorem execLoadPersonality_answers (c : Cmd) (s : State) : s.Answers (execLoadPersonality c s) :=
    .of_command fun u => by simp
theorem execActivateOwner_answers (c : Cmd) (s : State) : s.Answers (execActivateOwner c s) := .of_command fun u => by
  repeat' split
  all_goals simp
theorem execCommitBase_answers (c : Cmd) (s : State) : s.Answers (execCommitBase c s) := .of_command fun u => by
  repeat' split
  all_goals simp
theorem execDiscard_answers (c : Cmd) (s : State) : s.Answers (execDiscard c s) := .of_command fun u => by simp
theorem execExchangeRegion_answers (c : Cmd) (s : State) : s.Answers (execExchangeRegion c s) := .of_command fun u => by
  repeat' split
  all_goals simp
theorem execExchangeDrainEnd_answers (s : State) : s.Answers (execExchangeDrainEnd s) := by
  unfold execExchangeDrainEnd
  split <;> simp
theorem execExchangeDrainTimeout_answers (s : State) : s.Answers (execExchangeDrainTimeout s) := by
  unfold execExchangeDrainTimeout
  split <;> simp
theorem execConfigWriteDone_answers (badFrames : List (Nat × Nat)) (s : State) : s.Answers (execConfigWriteDone badFrames s) := by
  unfold execConfigWriteDone
  split
  · exact of_keeps (s.activateEnd_keeps ..)
  · simp
  · simp
theorem execPersonalityStatus_answers (c : Cmd) (s : State) : s.Answers (execPersonalityStatus c s) :=
    .of_command fun u => by simp
theorem execPersDeadlineWrite_answers (value : Dword) (s : State) : s.Answers (execPersDeadlineWrite value s) :=
    by simp [execPersDeadlineWrite]
theorem execOwnerDeadlineExpiry_answers (s : State) : s.Answers (execOwnerDeadlineExpiry s) :=
    by simp [execOwnerDeadlineExpiry]
theorem execShellTimerExpiry_answers (slice timer : Nat) (taken : Bool) (s : State) :
    s.Answers (execShellTimerExpiry slice timer taken s) := by
  unfold execShellTimerExpiry
  repeat' split
  all_goals simp
theorem execConfigScrubPass_answers (upsets : List (Nat × Nat × Nat)) (s : State) :
    s.Answers (execConfigScrubPass upsets s) :=
  by simp -implicitDefEqProofs [execConfigScrubPass]

/-! ### Resets by command and vendor I/O commands -/

theorem execRetire_answers (c : Cmd) (lost : List Nat) (s : State) : s.Answers (execRetire c lost s) := by
  refine .of_command fun u => ?_
  extract_lets stack page k i repaired fresh bad old n cause
  split
  · simp
  split
  · simp
  split
  · simp
  split
  next f s0 hf =>
  have h0 : s0.key = u.key := by
    have : (f, s0).2.key = u.key := by
      rw [← hf]
      split <;> rfl
    exact this
  extract_lets s1 s2 s3 s4 s5 s6 s7
  have h2 : s2.key = u.key := by
    clear_value fresh bad
    cases fresh <;> simp [s2, s1, h0]
  have h3 : s3.key = s2.key := foldl_key _ _ _ fun v b => by split <;> simp
  have h7 : s7.key = s6.key := State.ite_key (by simp) rfl
  simp [h7, s6, s5, s4, h3, h2]
theorem execModuleReset_answers (c : Cmd) (s : State) : s.Answers (execModuleReset c s) := by
  unfold execModuleReset
  split
  · simp
  · next u hu =>
    have hk := State.begin_key s c hu
    have hc (st : Status) : s.Keeps (u.complete c.ref st) := State.keeps_of_key ((u.complete_key ..).trans hk)
    exact ite.mpr ⟨fun _ => of_keeps (hc _), fun _ => ite.mpr ⟨fun _ => of_keeps (hc _), fun _ =>
      of_keeps ((hc _).trans (State.requestReset_keeps _))⟩⟩
theorem execModuleResetStart_answers (s : State) : s.Answers (execModuleResetStart s) :=
  or_same (ite.mpr ⟨fun _ => of_keeps ((s.modPower_keeps _ id).trans (State.keeps_of_key (State.shield_key ..))),
    fun _ => of_keeps (s.resetNow_keeps _)⟩)
theorem execAdmitModel_answers (c : Cmd) (s : State) : s.Answers (execAdmitModel c s) := by
  refine .of_vendor fun u => ?_
  extract_lets t n off slot final first state got finish store
  have hf (v : State) : (finish v).key = v.key := by
    unfold finish
    split <;> simp
  have hs (v : State) (bs : List Byte) : (store v bs).key = v.key := v.modModel_key ..
  clear_value finish store
  repeat' split
  all_goals simp +zetaDelta [hf, hs]
theorem execRelease_answers (c : Cmd) (s : State) : s.Answers (execRelease c s) := .of_vendor fun u => by
  dsimp only
  repeat' split
  all_goals simp
/-- The four commands that start an invocation refuse, complete, or let it wait. -/
theorem invoke_answers (s : State) (c : Cmd) (kind : InvKind) : s.Answers (s.invoke c kind) := .of_vendor fun u => by
  extract_lets t slot ctr cbump
  split
  · simp
  next m hm =>
  have hc (v : State) (st : Status) : (v.complete c.ref st).key = v.key := v.complete_key ..
  have of_eq (v : State) (h : v.key = u.key) : KeyKeeps u.key v.key := h ▸ .refl _
  refine of_eq _ <| State.ite_key (hc u _) <| State.ite_key (hc u _) <| State.ite_key (hc u _) <| State.ite_key (hc u _) <|
    State.ite_key (hc u _) <| State.ite_key ((hc _ _).trans (State.bumpOpt_key ..)) ?_
  split
  · exact hc u _
  · exact State.ite_key (State.stopInv_key ..) rfl
theorem execInvoke_answers (c : Cmd) (s : State) : s.Answers (execInvoke c s) := invoke_answers s c .invoke
theorem execSearch_answers (c : Cmd) (s : State) : s.Answers (execSearch c s) := invoke_answers s c .search
theorem execExtract_answers (c : Cmd) (s : State) : s.Answers (execExtract c s) := invoke_answers s c .extract
theorem execService_answers (c : Cmd) (s : State) : s.Answers (execService c s) := invoke_answers s c .service
theorem execAlloc_answers (c : Cmd) (s : State) : s.Answers (execAlloc c s) := .of_vendor fun u => by
  dsimp only
  repeat' split
  all_goals simp
theorem execFree_answers (c : Cmd) (s : State) : s.Answers (execFree c s) := .of_vendor fun u => by
  dsimp only
  repeat' split
  all_goals simp
theorem execCounterRead_answers (c : Cmd) (s : State) : s.Answers (execCounterRead c s) := .of_vendor fun u => by simp
theorem execCounterBump_answers (c : Cmd) (s : State) : s.Answers (execCounterBump c s) := .of_vendor fun u => by simp
theorem execCounterWaitGe_answers (c : Cmd) (s : State) : s.Answers (execCounterWaitGe c s) := .of_vendor fun u => by simp
theorem execCounterWaitSatisfied_answers (ref : CmdRef) (s : State) : s.Answers (execCounterWaitSatisfied ref s) := by
  unfold execCounterWaitSatisfied
  split <;> simp
theorem execRunBegin_answers (c : Cmd) (s : State) : s.Answers (execRunBegin c s) := .of_vendor fun u => by simp
theorem execRunEnd_answers (c : Cmd) (s : State) : s.Answers (execRunEnd c s) := .of_vendor fun u => by simp
theorem execPublishBegin_answers (c : Cmd) (s : State) : s.Answers (execPublishBegin c s) := .of_vendor fun u => by simp
theorem execPublishData_answers (c : Cmd) (s : State) : s.Answers (execPublishData c s) := .of_vendor fun u => by
  dsimp only
  repeat' split
  all_goals simp
theorem execPublishVerify_answers (c : Cmd) (s : State) : s.Answers (execPublishVerify c s) := .of_vendor fun u => by
  dsimp only
  repeat' split
  all_goals simp
theorem execPublishCommit_answers (c : Cmd) (s : State) : s.Answers (execPublishCommit c s) := .of_vendor fun u => by
  dsimp only
  repeat' split
  all_goals simp -implicitDefEqProofs
theorem execPublishAbandon_answers (c : Cmd) (s : State) : s.Answers (execPublishAbandon c s) := .of_vendor fun u => by simp
theorem execMediaWrite_answers (c : Cmd) (s : State) : s.Answers (execMediaWrite c s) := .of_vendor fun u => by
  dsimp only
  repeat' split
  all_goals simp
theorem execMediaRead_answers (c : Cmd) (s : State) : s.Answers (execMediaRead c s) := .of_vendor fun u => by
  dsimp only
  repeat' split
  all_goals simp
theorem execMediaErase_answers (c : Cmd) (s : State) : s.Answers (execMediaErase c s) := .of_vendor fun u => by
  dsimp only
  repeat' split
  all_goals simp

/-! ### Invocations and spindles -/

theorem execInvocationAssign_answers (tenant slot : Nat) (s : State) : s.Answers (execInvocationAssign tenant slot s) := by
  unfold execInvocationAssign
  dsimp only
  repeat' split
  all_goals simp
theorem execInvocationDrained_answers (spindle : Nat) (s : State) : s.Answers (execInvocationDrained spindle s) := by
  unfold execInvocationDrained
  repeat' split
  all_goals simp
theorem execInvocationPersisted_answers (spindle : Nat) (s : State) : s.Answers (execInvocationPersisted spindle s) := by
  unfold execInvocationPersisted
  repeat' split
  all_goals simp
theorem execSpindleIssueWord_answers (spindle : Nat) (s : State) : s.Answers (execSpindleIssueWord spindle s) := by
  unfold execSpindleIssueWord
  repeat' split
  all_goals simp
theorem execSlotStallReleased_answers (spindle : Nat) (s : State) : s.Answers (execSlotStallReleased spindle s) := by
  unfold execSlotStallReleased
  repeat' split
  all_goals simp
theorem execControlWaitPassed_answers (spindle : Nat) (s : State) : s.Answers (execControlWaitPassed spindle s) := by
  unfold execControlWaitPassed
  repeat' split
  all_goals simp
theorem execEndOp_answers (spindle : Nat) (s : State) : s.Answers (execEndOp spindle s) := by simp [execEndOp]
theorem execLoop_answers (spindle : Nat) (s : State) : s.Answers (execLoop spindle s) := by simp [execLoop]
theorem execEndloop_answers (spindle : Nat) (s : State) : s.Answers (execEndloop spindle s) := by simp [execEndloop]
theorem execCall_answers (spindle : Nat) (s : State) : s.Answers (execCall spindle s) := by simp [execCall]
theorem execRet_answers (spindle : Nat) (s : State) : s.Answers (execRet spindle s) := by simp [execRet]
theorem execWait_answers (spindle : Nat) (s : State) : s.Answers (execWait spindle s) := by simp [execWait]
theorem execBump_answers (spindle : Nat) (s : State) : s.Answers (execBump spindle s) := by simp [execBump]
theorem execBranchCtr_answers (spindle : Nat) (s : State) : s.Answers (execBranchCtr spindle s) := by simp [execBranchCtr]

/-! ### Engines -/

theorem execEngineArbitrate_answers (queue : Nat) (s : State) : s.Answers (execEngineArbitrate queue s) := by
  unfold execEngineArbitrate
  dsimp only
  repeat' split
  all_goals simp
theorem execEngineCommandEnd_answers (queue : Nat) (s : State) : s.Answers (execEngineCommandEnd queue s) := by
  unfold execEngineCommandEnd
  dsimp only
  repeat' split
  all_goals simp
theorem execEngineInternalFault_answers (queue : Nat) (s : State) : s.Answers (execEngineInternalFault queue s) :=
    by simp [execEngineInternalFault]
theorem execEngineBist_answers (queue : Nat) (pass : Bool) (s : State) : s.Answers (execEngineBist queue pass s) := by
  unfold execEngineBist
  extract_lets qs set t
  have h (u : State) (b : Bool) : (set u b).key = u.key := foldl_key _ _ _ fun u p => u.modQueue_key ..
  simp [t, h]
theorem execCopy_answers (queue : Nat) (found : Reads) (s : State) : s.Answers (execCopy queue found s) :=
    .of_runOp fun u i e w => by simp
theorem execFillPattern_answers (queue : Nat) (s : State) : s.Answers (execFillPattern queue s) :=
    .of_runOp fun u i e w => by simp
theorem execGather_answers (queue : Nat) (found : Reads) (s : State) : s.Answers (execGather queue found s) :=
    .of_runOp fun u i e w => by simp
theorem execBringUpStart_answers (queue index : Nat) (s : State) : s.Answers (execBringUpStart queue index s) := by
  unfold execBringUpStart
  repeat' split
  all_goals simp
theorem execMma_answers (row : EngineRow) (s : State) : s.Answers (execMma row s) := .of_runOp fun u i e w => by simp
theorem execAccZero_answers (queue : Nat) (s : State) : s.Answers (execAccZero queue s) := .of_runOp fun u i e w => by simp
theorem execAccLoad_answers (row : EngineRow) (s : State) : s.Answers (execAccLoad row s) := by
  refine of_runOp fun u i e w => ?_
  dsimp only
  split <;> simp
theorem execTile_answers (row : EngineRow) (s : State) : s.Answers (execTile row s) := .of_runOp fun u i e w => by simp
theorem execTileReduce_answers (row : EngineRow) (s : State) : s.Answers (execTileReduce row s) :=
    .of_runOp fun u i e w => by simp
theorem execSoftmax_answers (row : EngineRow) (s : State) : s.Answers (execSoftmax row s) := .of_runOp fun u i e w => by simp
theorem execStream_answers (row : EngineRow) (s : State) : s.Answers (execStream row s) := .of_runOp fun u i e w => by simp
theorem execStreamReduce_answers (row : EngineRow) (s : State) : s.Answers (execStreamReduce row s) :=
    .of_runOp fun u i e w => by simp
theorem execMaskSet_answers (row : EngineRow) (s : State) : s.Answers (execMaskSet row s) := by
  refine of_runOp fun u i e w => ?_
  split
  · next h => simp [State.fst_key h]
  · next h => simp [State.fst_key h]
theorem execGougeRelease_answers (queue : Nat) (s : State) : s.Answers (execGougeRelease queue s) :=
    .of_runOp fun u i e w => by simp
theorem execListMerge_answers (row : EngineRow) (s : State) : s.Answers (execListMerge row s) :=
    .of_runOp fun u i e w => by simp
theorem execListEmit_answers (row : EngineRow) (s : State) : s.Answers (execListEmit row s) :=
    .of_runOp fun u i e w => by simp
theorem execLoadCtx_answers (row : EngineRow) (s : State) : s.Answers (execLoadCtx row s) := by
  refine of_runOp fun u i e w => ?_
  split
  · rfl
  split
  · next h => simp [State.fst_key h]
  · next h => simp [State.fst_key h]
theorem execScan_answers (queue : Nat) (run : ScanRow) (s : State) : s.Answers (execScan queue run s) :=
    .of_runOp fun u i e w => by
  split <;> simp
theorem execScanReadAhead_answers (queue index : Nat) (s : State) : s.Answers (execScanReadAhead queue index s) := by
  unfold execScanReadAhead
  split
  · simp
  dsimp only
  refine or_same ?_
  split
  · simp
  split
  · simp
  refine of_keeps (State.keeps_of_key ((foldl_key _ _ _ fun t l => ?_).trans (by simp)))
  split <;> simp
theorem execEmit_answers (row : EngineRow) (s : State) : s.Answers (execEmit row s) := by
  refine of_runOp fun u i e w => ?_
  dsimp only
  split
  · simp
  split
  · next h => simp [State.fst_key h]
  · next h => split <;> simp -implicitDefEqProofs [State.fst_key h]
theorem execCtxRelease_answers (queue : Nat) (s : State) : s.Answers (execCtxRelease queue s) := .of_runOp fun u i e w => by
  split <;> simp
theorem execFrameJpeg_answers (row : EngineRow) (s : State) : s.Answers (execFrameJpeg row s) :=
    .of_runOp fun u i e w => by simp
theorem execFrameRaw_answers (row : EngineRow) (s : State) : s.Answers (execFrameRaw row s) :=
    .of_runOp fun u i e w => by simp

/-! ### The peer fabric -/

theorem execPeerWrite_answers (queue : Nat) (s : State) : s.Answers (execPeerWrite queue s) := .of_runOp fun u i e w => by
  split <;> simp
theorem execPeerFrameSend_answers (row : FlowRow) (s : State) : s.Answers (execPeerFrameSend row s) := by
  unfold execPeerFrameSend
  refine or_same ?_
  split
  · refine or_same ?_
    dsimp only
    split
    · next h => simp [State.fst_key h]
    · next h => simp [State.fst_key h]
    · next h => split <;> simp [State.fst_key h]
  · simp
theorem execDataFrameReceived_answers (port : Nat) (frame : PeerFrame) (s : State) :
    s.Answers (execDataFrameReceived port frame s) := by
  unfold execDataFrameReceived
  refine or_same (or_same ?_)
  split
  · next h => simp [State.fst_key h]
  · next u x h =>
    have hu : u.key = s.key := by simp [State.fst_key h]
    dsimp only
    split
    · simp [hu]
    · next r _ =>
      refine ite.mpr ⟨fun _ => by simp [hu], fun _ => ?_⟩
      split
      · simp [hu]
      · next v hv =>
        have hv : v.key = s.key := (State.adopt_key _ _ _ hv).trans hu
        refine ite.mpr ⟨fun _ => by simp [hv], fun _ => ite.mpr ⟨fun _ => by simp [hv], fun _ => ?_⟩⟩
        split
        · next h => simp [State.fst_key h, hv]
        · next h => simp [State.fst_key h, hv]
theorem execAckReceived_answers (port : Nat) (frame : PeerFrame) (s : State) : s.Answers (execAckReceived port frame s) := by
  unfold execAckReceived
  refine or_same (or_same ?_)
  split
  · next h => simp [State.fst_key h]
  · next u x h =>
    have hu : u.key = s.key := by simp [State.fst_key h]
    dsimp only
    repeat' split
    all_goals simp [hu]
theorem execNakReceived_answers (port : Nat) (frame : PeerFrame) (s : State) : s.Answers (execNakReceived port frame s) := by
  unfold execNakReceived
  refine or_same (or_same ?_)
  split
  · next h => simp [State.fst_key h]
  · next u x h =>
    have hu : u.key = s.key := by simp [State.fst_key h]
    split
    · simp [hu]
    split
    · simp [hu]
    refine ite.mpr ⟨fun _ => by simp [hu], fun _ => of_keeps (State.keeps_of_key (.trans ?_ hu))⟩
    refine State.failFlow_key _ _ _ _ fun v i => ?_
    simp
theorem execAckTimer_answers (flow : Nat) (s : State) : s.Answers (execAckTimer flow s) := by simp [execAckTimer]
theorem execRetransmitTimeout_answers (row : FlowRow) (seq : Nat) (s : State) : s.Answers (execRetransmitTimeout row seq s) := by
  unfold execRetransmitTimeout
  refine or_same ?_
  split
  · refine or_same (ite.mpr ⟨fun _ => ?_, fun _ => or_same ?_⟩)
    · refine of_keeps (State.keeps_of_key ((State.failFlow_key _ _ _ _ fun v i => ?_).trans ?_)) <;> simp
    · dsimp only
      split
      · simp
      · split
        · next h => simp [State.fst_key h]
        · next h => simp [State.fst_key h]
        · next h => simp [State.fst_key h]
  · simp
theorem execPfcPauseReceived_answers (port : Nat) (pause : Bool) (s : State) :
    s.Answers (execPfcPauseReceived port pause s) :=
  by simp [execPfcPauseReceived]
theorem execHelloTimer_answers (port : Nat) (s : State) : s.Answers (execHelloTimer port s) :=
    by simp -implicitDefEqProofs [execHelloTimer]
theorem execHelloReceived_answers (port : Nat) (frame : PeerFrame) (s : State) :
    s.Answers (execHelloReceived port frame s) := by
  unfold execHelloReceived
  dsimp only
  repeat' split
  all_goals simp
theorem execPortTrainingDone_answers (port : Nat) (linked : Bool) (s : State) :
    s.Answers (execPortTrainingDone port linked s) :=
  by simp [execPortTrainingDone]
theorem execPortRetrainTimer_answers (port : Nat) (s : State) : s.Answers (execPortRetrainTimer port s) :=
    by simp [execPortRetrainTimer]
theorem execPortLinkLost_answers (port : Nat) (s : State) : s.Answers (execPortLinkLost port s) := by simp [execPortLinkLost]
theorem execPeerRtoWrite_answers (value : Dword) (s : State) : s.Answers (execPeerRtoWrite value s) :=
    by simp [execPeerRtoWrite]

/-! ### Flash and media management -/

theorem execChannelTraining_answers (channel : Nat) (works : Option Nat) (s : State) :
    s.Answers (execChannelTraining channel works s) := by
  unfold execChannelTraining
  split <;> simp
theorem execPageReadDone_answers (channel die : Nat) (failing : List Nat) (supervision : Nat) (s : State) :
    s.Answers (execPageReadDone channel die failing supervision s) := by
  unfold execPageReadDone
  repeat' split
  all_goals simp
theorem execReadRetryAttempt_answers (addr : PageAddr) (codeword : Nat) (decodes : Bool) (s : State) :
    s.Answers (execReadRetryAttempt addr codeword decodes s) := by
  unfold execReadRetryAttempt
  dsimp only
  repeat' split
  all_goals simp
theorem execStripeRebuild_answers (addr : PageAddr) (codeword : Nat) (recovered : Bool) (s : State) :
    s.Answers (execStripeRebuild addr codeword recovered s) := by
  unfold execStripeRebuild
  dsimp only
  repeat' split
  all_goals simp
theorem execProgramDone_answers (channel die : Nat) (failing : List Nat) (s : State) :
    s.Answers (execProgramDone channel die failing s) := by
  unfold execProgramDone
  dsimp only
  repeat' split
  all_goals simp
theorem execEraseDone_answers (channel die : Nat) (failing : List Nat) (s : State) :
    s.Answers (execEraseDone channel die failing s) := by
  unfold execEraseDone
  dsimp only
  repeat' split
  all_goals simp
theorem execOperationResume_answers (channel die : Nat) (s : State) : s.Answers (execOperationResume channel die s) := by
  unfold execOperationResume
  dsimp only
  repeat' split
  all_goals simp
theorem execBusyTimeout_answers (channel die : Nat) (s : State) : s.Answers (execBusyTimeout channel die s) := by
  unfold execBusyTimeout
  split <;> simp
theorem execTargetResetDone_answers (channel die : Nat) (ready : Bool) (s : State) :
    s.Answers (execTargetResetDone channel die ready s) := by
  unfold execTargetResetDone
  dsimp only
  repeat' split
  all_goals simp
theorem execProgramPromotion_answers (channel die : Nat) (s : State) : s.Answers (execProgramPromotion channel die s) :=
    by simp [execProgramPromotion]
theorem execBackgroundPromotion_answers (channel die : Nat) (s : State) :
    s.Answers (execBackgroundPromotion channel die s) :=
  by simp [execBackgroundPromotion]
theorem execZoneCalibration_answers (channel die zone page set : Nat) (s : State) :
    s.Answers (execZoneCalibration channel die zone page set s) :=
  by simp [execZoneCalibration]
theorem execMediaRrBudgetWrite_answers (value : Dword) (s : State) : s.Answers (execMediaRrBudgetWrite value s) :=
    by simp [execMediaRrBudgetWrite]
theorem execNorCtrlWrite_answers (value : Dword) (s : State) : s.Answers (execNorCtrlWrite value s) :=
    by simp [execNorCtrlWrite]
theorem execNorOpDone_answers (verified : Bool) (s : State) : s.Answers (execNorOpDone verified s) := by
  unfold execNorOpDone
  refine or_same ?_
  split
  · simp
  · refine or_same (of_keeps (.trans (.trans (State.keeps_of_key ?_) (State.norEnd_keeps ..)) (State.keeps_of_key (State.norStart_key _))))
    simp
theorem execPartialRowTimeout_answers (group : Nat) (s : State) : s.Answers (execPartialRowTimeout group s) :=
    by simp [execPartialRowTimeout]
theorem execJournalCheckpoint_answers (group : Nat) (s : State) : s.Answers (execJournalCheckpoint group s) :=
    by simp [execJournalCheckpoint]
theorem execGarbageCollection_answers (group : Nat) (s : State) : s.Answers (execGarbageCollection group s) := by
  unfold execGarbageCollection
  dsimp only
  repeat' split
  all_goals simp
theorem execStaticLevelling_answers (group : Nat) (s : State) : s.Answers (execStaticLevelling group s) := by
  unfold execStaticLevelling
  dsimp only
  repeat' split
  all_goals simp
theorem execRelocationSwitch_answers (superblock : Nat) (s : State) : s.Answers (execRelocationSwitch superblock s) := by
  unfold execRelocationSwitch
  dsimp only
  repeat' split
  all_goals simp
theorem execSuperblockErase_answers (superblock : Nat) (s : State) : s.Answers (execSuperblockErase superblock s) := by
  unfold execSuperblockErase
  split <;> simp
theorem execPatrolStep_answers (channel die worstBits result : Nat) (s : State) :
    s.Answers (execPatrolStep channel die worstBits result s) :=
  by simp [execPatrolStep]

/-! ### Memory tiers and protection -/

theorem execCleanBlock_answers (tenant buffer block : Nat) (s : State) :
    s.Answers (execCleanBlock tenant buffer block s) := by
  unfold execCleanBlock
  split <;> simp
theorem execWatermarkEvaluate_answers (tenant : Option Nat) (w : Nat) (s : State) :
    s.Answers (execWatermarkEvaluate tenant w s) := by
  unfold execWatermarkEvaluate
  split <;> simp
theorem execWmLatchClear_answers (tenant : Option Nat) (w : Nat) (s : State) : s.Answers (execWmLatchClear tenant w s) := by
  unfold execWmLatchClear
  split <;> simp
theorem execWmMarkWrite_answers (tenant : Option Nat) (w : Nat) (value : Dword) (s : State) :
    s.Answers (execWmMarkWrite tenant w value s) := by
  unfold execWmMarkWrite
  split <;> simp
theorem execWmClrCount_answers (tenant : Option Nat) (w : Nat) (s : State) : s.Answers (execWmClrCount tenant w s) := by
  unfold execWmClrCount
  split <;> simp
theorem execTctrBump_answers (tenant : Nat) (value : Qword) (s : State) : s.Answers (execTctrBump tenant value s) :=
    by simp [execTctrBump]
theorem execDramScrubStep_answers (stack : Nat) (errors : BlockErrors) (s : State) :
    s.Answers (execDramScrubStep stack errors s) :=
  by simp [execDramScrubStep]
theorem execSramScrubStep_answers (structure_ word : Nat) (badBits : List Nat) (s : State) :
    s.Answers (execSramScrubStep structure_ word badBits s) :=
  by simp [execSramScrubStep]

/-! ### The service complex -/

theorem execWatchdogServe_answers (s : State) : s.Answers (execWatchdogServe s) := by simp [execWatchdogServe]
theorem execWatchdogExpiry_answers (s : State) : s.Answers (execWatchdogExpiry s) :=
  or_same (ite.mpr ⟨fun _ => by simp, fun _ => of_keeps ((State.keeps_of_key (s.modSvc_key _)).trans (State.resetNow_keeps ..))⟩)
theorem execShieldRelease_answers (s : State) : s.Answers (execShieldRelease s) := or_same (of_keeps (s.releaseShield_keeps _))
theorem execShieldTimeout_answers (s : State) : s.Answers (execShieldTimeout s) := by
  unfold execShieldTimeout
  split
  · exact ite.mpr ⟨fun _ => of_keeps (s.releaseShield_keeps _), fun _ => by simp⟩
  · simp
theorem execSettingsSave_answers (s : State) : s.Answers (execSettingsSave s) := by simp [execSettingsSave]
theorem execSettingsClear_answers (s : State) : s.Answers (execSettingsClear s) := by simp [execSettingsClear]
theorem execMonitorId_answers (s : State) : s.Answers (execMonitorId s) := .line fun u => by simp
theorem execMonitorStatus_answers (s : State) : s.Answers (execMonitorStatus s) := .line fun u => by simp
theorem execMonitorLog_answers (page : Nat) (count : Option Nat) (s : State) : s.Answers (execMonitorLog page count s) :=
    .line fun u => by simp
theorem execMonitorReg_answers (offset : Nat) (s : State) : s.Answers (execMonitorReg offset s) := .line fun u => by simp
theorem execMonitorKeys_answers (s : State) : s.Answers (execMonitorKeys s) := .line fun u => by simp
theorem execMonitorBaud_answers (rate : Nat) (s : State) : s.Answers (execMonitorBaud rate s) := .line fun u => by simp
theorem execMonitorChallenge_answers (nonce : BitVec 256) (s : State) : s.Answers (execMonitorChallenge nonce s) :=
    .line fun u => by simp
theorem execUnlockOwner_answers (slot : Nat) (tag : BitVec 384) (s : State) : s.Answers (execUnlockOwner slot tag s) :=
    .line fun u => by simp
theorem execUnlockVendor_answers (r v : BitVec 384) (s : State) : s.Answers (execUnlockVendor r v s) :=
    .line fun u => by simp
theorem execUnlockPhysical_answers (s : State) : s.Answers (execUnlockPhysical s) := .line fun u => by simp
theorem execMonitorLock_answers (s : State) : s.Answers (execMonitorLock s) := .line fun u => by simp
theorem execKeyInstall_answers (slot : Nat) (keyId : Qword) (key : BitVec 384) (s : State) :
    s.Answers (execKeyInstall slot keyId key s) := .unlockedLine fun u => by simp
theorem execKeyRevoke_answers (slot : Nat) (s : State) : s.Answers (execKeyRevoke slot s) := .unlockedLine fun u => by simp
theorem execMonitorSettingsClear_answers (s : State) : s.Answers (execMonitorSettingsClear s) := .unlockedLine fun u => by simp
theorem execMonitorReset_answers (s : State) : s.Answers (execMonitorReset s) := 
  .unlockedLine fun u => State.keeps_iff.mp ((State.keeps_of_key rfl).trans (State.requestReset_keeps u.ok))
theorem execMonitorIdleTimeout_answers (s : State) : s.Answers (execMonitorIdleTimeout s) := by simp [execMonitorIdleTimeout]
theorem execNonceExpiry_answers (s : State) : s.Answers (execNonceExpiry s) := by simp [execNonceExpiry]
theorem execLockoutEnd_answers (s : State) : s.Answers (execLockoutEnd s) := by simp [execLockoutEnd]
theorem execJtagBypass_answers (tdi : List Bool) (s : State) : s.Answers (execJtagBypass tdi s) := by simp [execJtagBypass]
theorem execJtagIdcode_answers (count : Nat) (s : State) : s.Answers (execJtagIdcode count s) := by simp [execJtagIdcode]
theorem execJtagSamplePreload_answers (pins tdi : List Bool) (s : State) : s.Answers (execJtagSamplePreload pins tdi s) :=
    by simp [execJtagSamplePreload]
theorem execJtagExtest_answers (tdi : List Bool) (s : State) : s.Answers (execJtagExtest tdi s) := by simp [execJtagExtest]

/-! ### Registers and pins -/

theorem execRegisterWrite_answers (window : Window) (offset bytes : Nat) (value : Qword) (s : State) :
    s.Answers (execRegisterWrite window offset bytes value s) := by
  have h (u : State) (off v : Nat) := u.writeWord_keeps window off v
  refine or_same (ite.mpr ⟨fun _ => ite.mpr ⟨fun _ => of_keeps (h ..), fun _ => by simp⟩, fun _ =>
    ite.mpr ⟨fun _ => of_keeps (h ..), fun _ => ite.mpr ⟨fun _ => of_keeps ((h ..).trans (h ..)), fun _ => by simp⟩⟩⟩)
theorem execPlnGoesHigh_answers (s : State) : s.Answers (execPlnGoesHigh s) := of_legal rfl rfl id
theorem execTemperatureThresholdCrossing_answers (kelvin : Nat) (s : State) :
    s.Answers (execTemperatureThresholdCrossing kelvin s) := by
  refine or_same (of_keeps ((s.sense_keeps ..).trans (State.keeps_of_key ((State.modPcie_key ..).trans (foldl_key _ _ _ fun t l => ?_)))))
  split <;> simp
theorem execMonitorUnknownCommand_answers (length : Nat) (s : State) : s.Answers (execMonitorUnknownCommand length s) :=
    .line fun u => by simp

/-! ### Every row -/

/-- Every command and event answers a next state, in which the module is the same and legal clock fields stay legal. -/
theorem exec_answers (c : Instr) (s : State) : s.Answers (exec c s) := by
  unfold exec
  cases c with
  | powerOn => exact execPowerOn_answers s
  | aonRelease slotId slotOpen bootSel plnLow sfdpOk => exact execAonRelease_answers slotId slotOpen bootSel plnLow sfdpOk s
  | railsUp => exact execRailsUp_answers s
  | firmwareBoot badChunks => exact execFirmwareBoot_answers badChunks s
  | dramInitDone => exact execDramInitDone_answers s
  | mapReplay => exact execMapReplay_answers s
  | basePersonalityLoad badFrames => exact execBasePersonalityLoad_answers badFrames s
  | linkUp width rate => exact execLinkUp_answers width rate s
  | cstsReady fn => exact execCstsReady_answers fn s
  | holdupCharged => exact execHoldupCharged_answers s
  | holdupChargeTimeout => exact execHoldupChargeTimeout_answers s
  | holdupMeasure tenthsMf => exact execHoldupMeasure_answers tenthsMf s
  | inputUndervoltage => exact execInputUndervoltage_answers s
  | plnFall => exact execPlnFall_answers s
  | pwrdisAssert => exact execPwrdisAssert_answers s
  | pwrdisDeassert => exact execPwrdisDeassert_answers s
  | p1Shed => exact execP1Shed_answers s
  | p2Flush failed => exact execP2Flush_answers failed s
  | p3Metadata => exact execP3Metadata_answers s
  | p4RailsDown vin10mv => exact execP4RailsDown_answers vin10mv s
  | inputOvervoltage => exact execInputOvervoltage_answers s
  | inputOvercurrent => exact execInputOvercurrent_answers s
  | railTrip r => exact execRailTrip_answers r s
  | nandRailTrip group => exact execNandRailTrip_answers group s
  | cageEfuseTrip cage => exact execCageEfuseTrip_answers cage s
  | cablePresenceChange cage present supported => exact execCablePresenceChange_answers cage present supported s
  | sidebandPinFault pin => exact execSidebandPinFault_answers pin s
  | refclkLoss => exact execRefclkLoss_answers s
  | powerSample volts pin100mw => exact execPowerSample_answers volts pin100mw s
  | powerCeilingLower => exact execPowerCeilingLower_answers s
  | powerCeilingRaise => exact execPowerCeilingRaise_answers s
  | coreClockStep => exact execCoreClockStep_answers s
  | thermalLevelEnter tjMax coolantIn flowOk => exact execThermalLevelEnter_answers tjMax coolantIn flowOk s
  | thermalLevelLeave tjMax coolantIn flowOk => exact execThermalLevelLeave_answers tjMax coolantIn flowOk s
  | thermalCeilingStep => exact execThermalCeilingStep_answers s
  | flowLossTimeout => exact execFlowLossTimeout_answers s
  | dramRecalibration stack => exact execDramRecalibration_answers stack s
  | perstAssert => exact execPerstAssert_answers s
  | perstDeassert => exact execPerstDeassert_answers s
  | hotReset => exact execHotReset_answers s
  | controllerEnable fn cc => exact execControllerEnable_answers fn cc s
  | controllerDisable fn cc => exact execControllerDisable_answers fn cc s
  | shutdownNotification fn cc => exact execShutdownNotification_answers fn cc s
  | functionLevelReset fn => exact execFunctionLevelReset_answers fn s
  | vfEnableWrite enable => exact execVfEnableWrite_answers enable s
  | sqTailDoorbell fn qid value => exact execSqTailDoorbell_answers fn qid value s
  | cqHeadDoorbell fn qid value => exact execCqHeadDoorbell_answers fn qid value s
  | commandFetch => exact execCommandFetch_answers s
  | commandTimeout ref => exact execCommandTimeout_answers ref s
  | createIoSq c => exact execCreateIoSq_answers c s
  | deleteIoSq c => exact execDeleteIoSq_answers c s
  | createIoCq c => exact execCreateIoCq_answers c s
  | deleteIoCq c => exact execDeleteIoCq_answers c s
  | getLogPage c => exact execGetLogPage_answers c s
  | identify c => exact execIdentify_answers c s
  | abort c => exact execAbort_answers c s
  | setFeatures c => exact execSetFeatures_answers c s
  | setArbitration c => exact execSetArbitration_answers c s
  | setCommandTimeouts c => exact execSetCommandTimeouts_answers c s
  | setDeadlineFloor c => exact execSetDeadlineFloor_answers c s
  | getFeatures c => exact execGetFeatures_answers c s
  | asynchronousEventRequest c => exact execAsynchronousEventRequest_answers c s
  | namespaceManagement c => exact execNamespaceManagement_answers c s
  | namespaceAttachment c => exact execNamespaceAttachment_answers c s
  | formatNvm c => exact execFormatNvm_answers c s
  | sanitize c => exact execSanitize_answers c s
  | firmwareImageDownload c => exact execFirmwareImageDownload_answers c s
  | firmwareCommit c => exact execFirmwareCommit_answers c s
  | deviceSelfTest c => exact execDeviceSelfTest_answers c s
  | selfTestComplete failedSegment => exact execSelfTestComplete_answers failedSegment s
  | flush c => exact execFlush_answers c s
  | write c => exact execWrite_answers c s
  | read c => exact execRead_answers c s
  | datasetManagement c => exact execDatasetManagement_answers c s
  | miReadDataStructure dtype portId ctrlId => exact execMiReadDataStructure_answers dtype portId ctrlId s
  | miSubsystemHealthPoll clear => exact execMiSubsystemHealthPoll_answers clear s
  | miControllerHealthPoll first max clear => exact execMiControllerHealthPoll_answers first max clear s
  | miConfigurationGet config port => exact execMiConfigurationGet_answers config port s
  | miConfigurationSet config port value => exact execMiConfigurationSet_answers config port value s
  | miVpdRead offset length => exact execMiVpdRead_answers offset length s
  | miTunneledAdmin c => exact execMiTunneledAdmin_answers c s
  | loadPersonality c => exact execLoadPersonality_answers c s
  | activateOwner c => exact execActivateOwner_answers c s
  | commitBase c => exact execCommitBase_answers c s
  | discard c => exact execDiscard_answers c s
  | exchangeRegion c => exact execExchangeRegion_answers c s
  | exchangeDrainEnd => exact execExchangeDrainEnd_answers s
  | exchangeDrainTimeout => exact execExchangeDrainTimeout_answers s
  | configWriteDone badFrames => exact execConfigWriteDone_answers badFrames s
  | personalityStatus c => exact execPersonalityStatus_answers c s
  | persDeadlineWrite value => exact execPersDeadlineWrite_answers value s
  | ownerDeadlineExpiry => exact execOwnerDeadlineExpiry_answers s
  | shellTimerExpiry slice timer taken => exact execShellTimerExpiry_answers slice timer taken s
  | configScrubPass upsets => exact execConfigScrubPass_answers upsets s
  | retire c lost => exact execRetire_answers c lost s
  | moduleReset c => exact execModuleReset_answers c s
  | moduleResetStart => exact execModuleResetStart_answers s
  | admitModel c => exact execAdmitModel_answers c s
  | release c => exact execRelease_answers c s
  | invoke c => exact execInvoke_answers c s
  | search c => exact execSearch_answers c s
  | extract c => exact execExtract_answers c s
  | service c => exact execService_answers c s
  | alloc c => exact execAlloc_answers c s
  | free c => exact execFree_answers c s
  | counterRead c => exact execCounterRead_answers c s
  | counterBump c => exact execCounterBump_answers c s
  | counterWaitGe c => exact execCounterWaitGe_answers c s
  | counterWaitSatisfied ref => exact execCounterWaitSatisfied_answers ref s
  | runBegin c => exact execRunBegin_answers c s
  | runEnd c => exact execRunEnd_answers c s
  | publishBegin c => exact execPublishBegin_answers c s
  | publishData c => exact execPublishData_answers c s
  | publishVerify c => exact execPublishVerify_answers c s
  | publishCommit c => exact execPublishCommit_answers c s
  | publishAbandon c => exact execPublishAbandon_answers c s
  | mediaWrite c => exact execMediaWrite_answers c s
  | mediaRead c => exact execMediaRead_answers c s
  | mediaErase c => exact execMediaErase_answers c s
  | invocationAssign tenant slot => exact execInvocationAssign_answers tenant slot s
  | invocationDrained spindle => exact execInvocationDrained_answers spindle s
  | invocationPersisted spindle => exact execInvocationPersisted_answers spindle s
  | spindleIssueWord spindle => exact execSpindleIssueWord_answers spindle s
  | slotStallReleased spindle => exact execSlotStallReleased_answers spindle s
  | controlWaitPassed spindle => exact execControlWaitPassed_answers spindle s
  | endOp spindle => exact execEndOp_answers spindle s
  | loop spindle => exact execLoop_answers spindle s
  | endloop spindle => exact execEndloop_answers spindle s
  | call spindle => exact execCall_answers spindle s
  | ret spindle => exact execRet_answers spindle s
  | wait spindle => exact execWait_answers spindle s
  | bump spindle => exact execBump_answers spindle s
  | branchCtr spindle => exact execBranchCtr_answers spindle s
  | engineArbitrate queue => exact execEngineArbitrate_answers queue s
  | engineCommandEnd queue => exact execEngineCommandEnd_answers queue s
  | engineInternalFault queue => exact execEngineInternalFault_answers queue s
  | engineBist queue pass => exact execEngineBist_answers queue pass s
  | copy queue found => exact execCopy_answers queue found s
  | fillPattern queue => exact execFillPattern_answers queue s
  | gather queue found => exact execGather_answers queue found s
  | bringUpStart queue index => exact execBringUpStart_answers queue index s
  | mma row => exact execMma_answers row s
  | accZero queue => exact execAccZero_answers queue s
  | accLoad row => exact execAccLoad_answers row s
  | tile row => exact execTile_answers row s
  | tileReduce row => exact execTileReduce_answers row s
  | softmax row => exact execSoftmax_answers row s
  | stream row => exact execStream_answers row s
  | streamReduce row => exact execStreamReduce_answers row s
  | maskSet row => exact execMaskSet_answers row s
  | gougeRelease queue => exact execGougeRelease_answers queue s
  | listMerge row => exact execListMerge_answers row s
  | listEmit row => exact execListEmit_answers row s
  | loadCtx row => exact execLoadCtx_answers row s
  | scan queue run => exact execScan_answers queue run s
  | scanReadAhead queue index => exact execScanReadAhead_answers queue index s
  | emit row => exact execEmit_answers row s
  | ctxRelease queue => exact execCtxRelease_answers queue s
  | frameJpeg row => exact execFrameJpeg_answers row s
  | frameRaw row => exact execFrameRaw_answers row s
  | peerWrite queue => exact execPeerWrite_answers queue s
  | peerFrameSend row => exact execPeerFrameSend_answers row s
  | dataFrameReceived port frame => exact execDataFrameReceived_answers port frame s
  | ackReceived port frame => exact execAckReceived_answers port frame s
  | nakReceived port frame => exact execNakReceived_answers port frame s
  | ackTimer flow => exact execAckTimer_answers flow s
  | retransmitTimeout row seq => exact execRetransmitTimeout_answers row seq s
  | pfcPauseReceived port pause => exact execPfcPauseReceived_answers port pause s
  | helloTimer port => exact execHelloTimer_answers port s
  | helloReceived port frame => exact execHelloReceived_answers port frame s
  | portTrainingDone port linked => exact execPortTrainingDone_answers port linked s
  | portRetrainTimer port => exact execPortRetrainTimer_answers port s
  | portLinkLost port => exact execPortLinkLost_answers port s
  | peerRtoWrite value => exact execPeerRtoWrite_answers value s
  | channelTraining channel works => exact execChannelTraining_answers channel works s
  | pageReadDone channel die failing supervision => exact execPageReadDone_answers channel die failing supervision s
  | readRetryAttempt addr codeword decodes => exact execReadRetryAttempt_answers addr codeword decodes s
  | stripeRebuild addr codeword recovered => exact execStripeRebuild_answers addr codeword recovered s
  | programDone channel die failing => exact execProgramDone_answers channel die failing s
  | eraseDone channel die failing => exact execEraseDone_answers channel die failing s
  | operationResume channel die => exact execOperationResume_answers channel die s
  | busyTimeout channel die => exact execBusyTimeout_answers channel die s
  | targetResetDone channel die ready => exact execTargetResetDone_answers channel die ready s
  | programPromotion channel die => exact execProgramPromotion_answers channel die s
  | backgroundPromotion channel die => exact execBackgroundPromotion_answers channel die s
  | zoneCalibration channel die zone page set => exact execZoneCalibration_answers channel die zone page set s
  | mediaRrBudgetWrite value => exact execMediaRrBudgetWrite_answers value s
  | norCtrlWrite value => exact execNorCtrlWrite_answers value s
  | norOpDone verified => exact execNorOpDone_answers verified s
  | partialRowTimeout group => exact execPartialRowTimeout_answers group s
  | journalCheckpoint group => exact execJournalCheckpoint_answers group s
  | garbageCollection group => exact execGarbageCollection_answers group s
  | staticLevelling group => exact execStaticLevelling_answers group s
  | relocationSwitch superblock => exact execRelocationSwitch_answers superblock s
  | superblockErase superblock => exact execSuperblockErase_answers superblock s
  | patrolStep channel die worstBits result => exact execPatrolStep_answers channel die worstBits result s
  | cleanBlock tenant buffer block => exact execCleanBlock_answers tenant buffer block s
  | watermarkEvaluate tenant w => exact execWatermarkEvaluate_answers tenant w s
  | wmLatchClear tenant w => exact execWmLatchClear_answers tenant w s
  | wmMarkWrite tenant w value => exact execWmMarkWrite_answers tenant w value s
  | wmClrCount tenant w => exact execWmClrCount_answers tenant w s
  | tctrBump tenant value => exact execTctrBump_answers tenant value s
  | dramScrubStep stack errors => exact execDramScrubStep_answers stack errors s
  | sramScrubStep structure_ word badBits => exact execSramScrubStep_answers structure_ word badBits s
  | watchdogServe => exact execWatchdogServe_answers s
  | watchdogExpiry => exact execWatchdogExpiry_answers s
  | shieldRelease => exact execShieldRelease_answers s
  | shieldTimeout => exact execShieldTimeout_answers s
  | settingsSave => exact execSettingsSave_answers s
  | settingsClear => exact execSettingsClear_answers s
  | monitorId => exact execMonitorId_answers s
  | monitorStatus => exact execMonitorStatus_answers s
  | monitorLog page count => exact execMonitorLog_answers page count s
  | monitorReg offset => exact execMonitorReg_answers offset s
  | monitorKeys => exact execMonitorKeys_answers s
  | monitorBaud rate => exact execMonitorBaud_answers rate s
  | monitorChallenge nonce => exact execMonitorChallenge_answers nonce s
  | unlockOwner slot tag => exact execUnlockOwner_answers slot tag s
  | unlockVendor r v => exact execUnlockVendor_answers r v s
  | unlockPhysical => exact execUnlockPhysical_answers s
  | monitorLock => exact execMonitorLock_answers s
  | keyInstall slot keyId key => exact execKeyInstall_answers slot keyId key s
  | keyRevoke slot => exact execKeyRevoke_answers slot s
  | monitorSettingsClear => exact execMonitorSettingsClear_answers s
  | monitorReset => exact execMonitorReset_answers s
  | monitorIdleTimeout => exact execMonitorIdleTimeout_answers s
  | nonceExpiry => exact execNonceExpiry_answers s
  | lockoutEnd => exact execLockoutEnd_answers s
  | jtagBypass tdi => exact execJtagBypass_answers tdi s
  | jtagIdcode count => exact execJtagIdcode_answers count s
  | jtagSamplePreload pins tdi => exact execJtagSamplePreload_answers pins tdi s
  | jtagExtest tdi => exact execJtagExtest_answers tdi s
  | registerWrite window offset bytes value => exact execRegisterWrite_answers window offset bytes value s
  | plnGoesHigh => exact execPlnGoesHigh_answers s
  | temperatureThresholdCrossing kelvin => exact execTemperatureThresholdCrossing_answers kelvin s
  | monitorUnknownCommand length => exact execMonitorUnknownCommand_answers length s

end

theorem tick_keeps (s : State) : s.Keeps (tick s) := State.keeps_of_key (tick_key s)

/-- So does a step: it runs the row at the front of the queue, or lets one microsecond pass. -/
theorem step_answers (s : State) : s.Answers (step s) := by
  unfold step
  split
  · exact .of_keeps (tick_keeps s)
  · next c rest _ => exact exec_answers c { s with pending := rest }

end Sys2Proof.Machine

open Sys2Proof Sys2Proof.Machine Sys2Proof.Safety

/-- Settles O58: every row and every idle step keeps the identity. -/
theorem identityNeverChanges : Obligations.IdentityNeverChanges := by
  unfold Obligations.IdentityNeverChanges
  refine ⟨fun c s => ?_, fun s => ?_⟩
  · obtain ⟨t, ht, hk⟩ := exec_answers c s
    exact ⟨t, ht, hk.1⟩
  · obtain ⟨t, ht, hk⟩ := step_answers s
    exact ⟨t, ht, hk.1⟩

/-- Settles O59: legal clock fields are kept by every row, and one step runs one row or none. -/
theorem clocksStayLegal : Obligations.ClocksStayLegal := by
  unfold Obligations.ClocksStayLegal
  intro s t hs ht
  obtain ⟨u, hu, hk⟩ := step_answers s
  cases hu.symm.trans ht
  exact hk.2 hs

end

section
/-!
PROOFS. Chapter 13, the order of scores and heaps (O48): the order is that of a key in a linear order, so insertion keeps a list
sorted, and a heap that drops all but its first entries after each insertion loses none of the best.
-/

namespace Sys2Proof.Machine

/-! ### The order of entries is the order of a key (R414) -/

/-- The place of a value that is not NaN: the infinities below and above every finite value. -/
def Num.place : Num → ℤ × ℚ
  | .nan => (0, 0)
  | .inf neg => (if neg then -1 else 1, 0)
  | .fin neg m e => (0, (if neg then -1 else 1) * m * 2 ^ e)
/-- The place of a score of either kind. -/
def scorePlace (fp : Bool) (v : Dword) : ℤ × ℚ := if fp then (fp32.decode v.toNat).place else (0, v.toNat)
/-- The key that ranks an entry: NaN last, then the score, the better first, then the identifier. -/
def rankKey (fp small : Bool) (a : ListEntry) : Bool ×ₗ ℤ ×ₗ ℚ ×ₗ ℕ :=
  let p := scorePlace fp a.score
  if scoreNan fp a.score then toLex (true, toLex (0, toLex (0, a.id)))
  else if small then toLex (false, toLex (p.1, toLex (p.2, a.id)))
  else toLex (false, toLex (-p.1, toLex (-p.2, a.id)))

/-- A signed magnitude, scaled to an exponent that is not above its own. -/
theorem scaled_mul_pow (neg : Bool) (m : Nat) {q e : ℤ} (h : q ≤ e) :
    (((if neg then -1 else 1) * ((m * 2 ^ (e - q).toNat : Nat) : ℤ) : ℤ) : ℚ) * 2 ^ q = (if neg then -1 else 1) * m * 2 ^ e := by
  have hp : (2 : ℚ) ^ (e - q).toNat * 2 ^ q = 2 ^ e := by
    rw [← zpow_natCast, Int.toNat_of_nonneg (by omega), ← zpow_add₀ (by norm_num)]
    congr 1
    omega
  push_cast
  rw [← hp]
  ring

theorem Num.lt_iff_place {x y : Num} (hx : x.isNan = false) (hy : y.isNan = false) :
    x.lt y false = true ↔ x.place.1 < y.place.1 ∨ (x.place.1 = y.place.1 ∧ x.place.2 < y.place.2) := by
  match x, y with
  | .nan, _ => cases hx
  | .inf _, .nan | .fin .., .nan => cases hy
  | .inf a, .inf b => cases a <;> cases b <;> simp [Num.lt, Num.place]
  | .inf a, .fin .. => cases a <;> simp [Num.lt, Num.place]
  | .fin .., .inf b => cases b <;> simp [Num.lt, Num.place]
  | .fin a m e, .fin b n k =>
    have hq : (0 : ℚ) < 2 ^ min e k := zpow_pos (by norm_num) _
    have hu := scaled_mul_pow a m (Int.min_le_left e k)
    have hv := scaled_mul_pow b n (Int.min_le_right e k)
    simp only [Num.lt, Num.place, Bool.false_and, Bool.or_false, decide_eq_true_eq, lt_irrefl, true_and, false_or]
    rw [← hu, ← hv, mul_lt_mul_iff_left₀ hq, Int.cast_lt]

theorem scoreBetter_iff {fp small : Bool} {a b : Dword} (ha : scoreNan fp a = false) (hb : scoreNan fp b = false) :
    scoreBetter fp small a b = true ↔
      let p := scorePlace fp a
      let q := scorePlace fp b
      if small then p.1 < q.1 ∨ (p.1 = q.1 ∧ p.2 < q.2) else q.1 < p.1 ∨ (q.1 = p.1 ∧ q.2 < p.2) := by
  cases fp with
  | false => cases small <;> simp [scoreBetter, scorePlace]
  | true =>
    simp only [scoreNan, Bool.true_and] at ha hb
    cases small <;> simp [scoreBetter, scorePlace, Num.lt_iff_place, ha, hb]

theorem ranksBefore_iff {fp small : Bool} {a b : ListEntry} :
    ranksBefore fp small a b = true ↔ rankKey fp small a < rankKey fp small b := by
  unfold ranksBefore rankKey
  cases ha : scoreNan fp a.score <;> cases hb : scoreNan fp b.score
  · have hab := scoreBetter_iff (small := small) ha hb
    have hba := scoreBetter_iff (small := small) hb ha
    generalize scorePlace fp a.score = p at *
    generalize scorePlace fp b.score = q at *
    obtain ⟨i, u⟩ := p
    obtain ⟨j, v⟩ := q
    cases small <;> simp only [hab, hba, Prod.Lex.toLex_lt_toLex, if_true, if_false, Bool.false_eq_true] <;> grind
  · cases small <;> simp [Prod.Lex.toLex_lt_toLex]
  · cases small <;> simp [Prod.Lex.toLex_lt_toLex]
  · simp [Prod.Lex.toLex_lt_toLex]

/-! ### Insertion into a sorted list -/

/-- Entries in rank order: none ranks before an earlier one. -/
def Ranked (fp small : Bool) (l : List ListEntry) : Prop := l.Pairwise fun a b => rankKey fp small a ≤ rankKey fp small b

theorem mem_insertRanked {fp small : Bool} {e x : ListEntry} {l : List ListEntry} :
    x ∈ insertRanked fp small e l ↔ x = e ∨ x ∈ l := by
  induction l with
  | nil => simp [insertRanked]
  | cons y l ih =>
    unfold insertRanked
    split
    · simp
    · simp only [List.mem_cons, ih]
      tauto

theorem Ranked.insertRanked {fp small : Bool} {l : List ListEntry} (h : Ranked fp small l) (e : ListEntry) :
    Ranked fp small (insertRanked fp small e l) := by
  induction l with
  | nil => exact List.pairwise_singleton ..
  | cons y l ih =>
    obtain ⟨hy, hl⟩ := List.pairwise_cons.mp h
    unfold Machine.insertRanked
    split
    · next hlt =>
      have he := (ranksBefore_iff.mp hlt).le
      exact List.pairwise_cons.mpr ⟨List.forall_mem_cons.mpr ⟨he, fun z hz => he.trans (hy z hz)⟩, h⟩
    · next hge =>
      have he : rankKey fp small y ≤ rankKey fp small e := not_lt.mp (mt ranksBefore_iff.mpr hge)
      refine List.pairwise_cons.mpr ⟨fun z hz => ?_, ih hl⟩
      rcases mem_insertRanked.mp hz with rfl | hz
      · exact he
      · exact hy z hz

/-- An insertion into the first `n` entries leaves the same first `n` entries as one into the whole list. -/
theorem take_insertRanked_take (fp small : Bool) (e : ListEntry) (n : Nat) (l : List ListEntry) :
    (insertRanked fp small e (l.take n)).take n = (insertRanked fp small e l).take n := by
  induction l generalizing n with
  | nil => simp
  | cons y l ih =>
    cases n with
    | zero => simp
    | succ n =>
      simp only [List.take_succ_cons, insertRanked]
      split
      · cases n <;> simp [List.take_take]
      · simp [ih]

/-- An entry that ranks before none of the first `n` entries leaves them as they are. -/
theorem take_insertRanked_of_behind {fp small : Bool} {e : ListEntry} {n : Nat} {l : List ListEntry} (hn : n ≤ l.length)
    (h : ∀ x ∈ l.take n, ranksBefore fp small e x = false) : (insertRanked fp small e l).take n = l.take n := by
  induction l generalizing n with
  | nil => simp_all
  | cons y l ih =>
    cases n with
    | zero => simp
    | succ n =>
      simp only [List.take_succ_cons, List.forall_mem_cons, List.length_cons, Nat.add_le_add_iff_right] at h hn ⊢
      rw [insertRanked, if_neg (by simp [h.1]), List.take_succ_cons, ih hn h.2]

/-! ### Offers to a heap (R415) -/

/-- What a context keeps of the fields that an offer reads. -/
theorem Context.offer_fields (c : Context) (e : ListEntry) :
    (c.offer e).1.kind = c.kind ∧ (c.offer e).1.heapK = c.heapK := by
  unfold Context.offer
  extract_lets fp small enters
  cases enters <;> exact ⟨rfl, rfl⟩

/-- A heap that holds the first entries of a ranked list holds the first entries of the list with the offer inserted. -/
theorem Context.offer_heap {c : Context} {l : List ListEntry} (e : ListEntry)
    (hl : Ranked (c.kind != 3) (decide (c.kind ≥ 2)) l) (hh : c.heap = l.take c.heapK) :
    (c.offer e).1.heap = (insertRanked (c.kind != 3) (decide (c.kind ≥ 2)) e l).take c.heapK := by
  unfold Context.offer
  extract_lets fp small enters
  cases hen : enters with
  | true => rw [if_pos rfl, hh, take_insertRanked_take]
  | false =>
    rw [if_neg (by simp)]
    obtain ⟨hlen, hlast⟩ : c.heapK ≤ c.heap.length ∧ ∀ z, c.heap.getLast? = some z → ranksBefore fp small e z = false := by
      simp only [enters, Bool.or_eq_false_iff, decide_eq_false_iff_not, not_lt] at hen
      exact ⟨hen.1, fun z hz => by simpa [hz] using hen.2⟩
    have hlen : c.heapK ≤ l.length := by
      rw [hh, List.length_take] at hlen
      omega
    rw [hh]
    refine (take_insertRanked_of_behind hlen fun x hx => ?_).symm
    have hne : l.take c.heapK ≠ [] := List.ne_nil_of_mem hx
    have hz := hlast ((l.take c.heapK).getLast hne) (by rw [hh, List.getLast?_eq_some_getLast hne])
    have hxz : rankKey fp small x ≤ rankKey fp small ((l.take c.heapK).getLast hne) :=
      (hl.sublist (List.take_sublist ..)).rel_getLast hx
    rw [← Bool.not_eq_true, ranksBefore_iff, not_lt] at hz ⊢
    exact hxz.trans hz

/-- A run of offers to a cleared heap. -/
theorem Context.foldl_offer (c : Context) (l : List ListEntry) :
    let d := l.foldl (fun (x : Context) e => (x.offer e).1) { c with heap := [] }
    let r := rankSort (c.kind != 3) (decide (c.kind ≥ 2)) l
    d.kind = c.kind ∧ d.heapK = c.heapK ∧ Ranked (c.kind != 3) (decide (c.kind ≥ 2)) r ∧ d.heap = r.take c.heapK := by
  induction l using List.reverseRecOn with
  | nil => simp [rankSort, Ranked]
  | append_singleton l e ih =>
    simp only [rankSort, List.foldl_append, List.foldl_cons, List.foldl_nil] at ih ⊢
    generalize l.foldl (fun (x : Context) e => (x.offer e).1) { c with heap := [] } = d at ih
    obtain ⟨hkind, hheapK, hr, hheap⟩ := ih
    obtain ⟨h1, h2⟩ := d.offer_fields e
    refine ⟨h1.trans hkind, h2.trans hheapK, hr.insertRanked e, ?_⟩
    rw [← hheapK] at hheap
    rw [← hkind] at hr hheap
    rw [d.offer_heap e hr hheap, hkind, hheapK]

end Sys2Proof.Machine

open Sys2Proof Sys2Proof.Machine Sys2Proof.Safety

/-- Settles O48, by induction on the offers: the heap is always the start of the ranked list of what was offered. -/
theorem heapKeepsTheBest : Obligations.HeapKeepsTheBest := by
  unfold Obligations.HeapKeepsTheBest
  intro c l _
  exact (c.foldl_offer l).2.2.2

end

section
/-!
PROOFS. The step and the reset state (O1, O60).
-/

namespace Sys2Proof.Machine

/-- A powered module, out of reset, in which a REGION_SHARES exchange began five microseconds ago (R133). -/
def sharesPending : State :=
  { State.reset with now := 5, pers := { State.reset.pers with job := .shares { fn := 0, sqid := 0, cid := 0 } 0 0 } }

end Sys2Proof.Machine

open Sys2Proof Sys2Proof.Machine Sys2Proof.Safety

/-- Refutes O1: with no command waiting, the step at which a REGION_SHARES exchange completes (R133) writes an entry of log page
0xC8, so an idle step of a powered module does not always leave the logs as they were. -/
theorem not_frontCommandRuns : ¬ Obligations.FrontCommandRuns := by
  unfold Obligations.FrontCommandRuns
  rintro ⟨-, h⟩
  obtain ⟨t, ht, -, -, hon⟩ := h sharesPending rfl
  obtain ⟨-, -, -, -, -, hlogs, -⟩ := hon (by decide)
  have hstep : step sharesPending = .next (tick sharesPending) := rfl
  cases ht.symm.trans hstep
  have hseq : (tick sharesPending).logs.c8.nextSeq ≠ sharesPending.logs.c8.nextSeq := by decide +kernel
  exact hseq (congrArg (fun l => l.c8.nextSeq) hlogs)

/-- Settles O60: each field of the reset state has its reset value. -/
theorem resetState : Obligations.ResetState := by
  unfold Obligations.ResetState ClockLegal
  decide

end

section
/-!
PROOFS. Chapter 02: power loss, start-up, the CORE clock and the hold-up bank (O2, O4 to O8).
-/

namespace Sys2Proof.Machine

open Sys2Proof.Safety

/-! ### The start of a power loss (R38) -/

/-- P0 of a powered module, for a trigger that neither a tripped rail nor the temperature gives, after a change of the CLKPWR block
that keeps the causes. -/
theorem State.loss_modPower_detected (s : State) (f : Power → Power) (hon : (f s.power).stage = .on)
    (hc : (f s.power).resetCause = s.power.resetCause) {t : LossTrigger} (rail : Option Rail) (h1 : t ≠ .thermal) (h2 : t ≠ .railTrip) :
    Detected 0x40 s ((s.modPower f).loss t rail) ∧ ((s.modPower f).loss t rail).power.pwrdis = (f s.power).pwrdis
      ∧ ((s.modPower f).loss t rail).power.holdOff = ((f s.power).holdOff || t == .thermal) := by
  unfold State.loss
  have h : ¬ (s.modPower f).power.stage ≠ .on := not_not.mpr hon
  rw [if_neg h]
  have hcause : (f s.power).resetCause ||| 0x40#9 = s.power.resetCause ||| 0x40#9 := by rw [hc]
  cases t with
  | thermal => exact absurd rfl h1
  | railTrip => exact absurd rfl h2
  | _ => exact ⟨⟨rfl, hcause, rfl, rfl, rfl⟩, rfl, rfl⟩
theorem State.loss_railTrip {s : State} (h : s.power.stage = .on) (r : Rail) :
    Detected 0x140 s (s.loss .railTrip (some r)) ∧ (s.loss .railTrip (some r)).power.trippedRail = some r := by
  unfold State.loss
  rw [if_neg (not_not.mpr h)]
  refine ⟨⟨rfl, ?_, rfl, rfl, rfl⟩, rfl⟩
  show s.power.resetCause ||| 0x40#9 ||| 0x100#9 = s.power.resetCause ||| 0x140#9
  rw [BitVec.or_assoc]
  rfl
theorem State.loss_of_not_on {s : State} (h : s.power.stage ≠ .on) (t : LossTrigger) (rail : Option Rail) : s.loss t rail = s :=
  if_pos h

theorem State.openFuse_of_powered (s : State) (h : s.power.stage ≠ .off) :
    s.openFuse = s.modPower fun p => { p with holdOff := true } := if_neg h
/-- What a trigger leaves as it is while a power-loss sequence runs: the phase, and what the first trigger has latched. -/
def LossKept (s t : State) : Prop :=
  OnlyPower s t ∧ t.power.stage = s.power.stage ∧ t.power.resetCause = s.power.resetCause ∧ t.power.trigger = s.power.trigger

theorem LossKept.refl (s : State) : LossKept s s := ⟨rfl, rfl, rfl, rfl⟩
theorem State.loss_kept {s u : State} (h : s.power.stage ≠ .on) (hu : LossKept s u) (t : LossTrigger) (rail : Option Rail) :
    ∃ v, (.next (u.loss t rail) : Out) = .next v ∧ LossKept s v :=
  ⟨u, by rw [State.loss_of_not_on (by rw [hu.2.1]; exact h)], hu⟩
theorem State.openFuse_kept (s : State) : LossKept s s.openFuse := by
  unfold State.openFuse
  split <;> exact ⟨rfl, rfl, rfl, rfl⟩
theorem execPlnFall_kept {s : State} (h : s.power.stage ≠ .on) : ∃ v, exec .plnFall s = .next v ∧ LossKept s v := by
  by_cases hs : s.power.plnStuck = true
  · exact ⟨s, if_pos hs, .refl s⟩
  · obtain ⟨v, hv, hk⟩ := State.loss_kept h (.refl s) .plnFall none
    exact ⟨v, (if_neg hs).trans hv, hk⟩

end Sys2Proof.Machine

open Sys2Proof Sys2Proof.Machine Sys2Proof.Safety

/-- Settles O2: every trigger is one loss of the state it leaves, and a loss does nothing unless the module is powered. -/
theorem powerLossTriggers : Obligations.PowerLossTriggers := by
  unfold Obligations.PowerLossTriggers
  refine ⟨fun s h => ⟨?_, fun hs => ?_, ?_, ?_, ?_, fun r => ?_⟩, fun s hs => if_pos hs, fun s h => ?_⟩
  · exact ⟨_, rfl, (s.loss_modPower_detected _ h rfl (t := .inputLow) none nofun nofun).1⟩
  · exact ⟨_, if_neg (by simp [hs]), (s.loss_modPower_detected id h rfl (t := .plnFall) none nofun nofun).1⟩
  · have hd := s.loss_modPower_detected (fun p => { p with pwrdis := true }) h rfl (t := .pwrdis) none nofun nofun
    exact ⟨_, rfl, hd.1, hd.2.1⟩
  · have hd := s.loss_modPower_detected (fun p => { p with holdOff := true }) h rfl (t := .overVoltage) none nofun nofun
    refine ⟨_, rfl, ?_⟩
    rw [s.openFuse_of_powered (by simp [h])]
    exact ⟨hd.1, hd.2.2⟩
  · have hd := s.loss_modPower_detected (fun p => { p with holdOff := true }) h rfl (t := .overCurrent) none nofun nofun
    refine ⟨_, rfl, ?_⟩
    rw [s.openFuse_of_powered (by simp [h])]
    exact ⟨hd.1, hd.2.2⟩
  · obtain ⟨h1, h2⟩ := State.loss_railTrip h r
    exact ⟨_, rfl, h1, h2⟩
  · simp only [List.forall_mem_cons, List.not_mem_nil, false_implies, implies_true, and_true]
    have hrail (r : Rail) := State.loss_kept h (.refl s) .railTrip (some r)
    exact ⟨State.loss_kept h (u := s.modPower fun p => { p with inputUp := false, holdOff := p.holdOff && p.stage == .on })
        ⟨rfl, rfl, rfl, rfl⟩ .inputLow none,
      execPlnFall_kept h, State.loss_kept h (u := s.modPower fun p => { p with pwrdis := true }) ⟨rfl, rfl, rfl, rfl⟩ .pwrdis none,
      State.loss_kept h s.openFuse_kept .overVoltage none, State.loss_kept h s.openFuse_kept .overCurrent none,
      hrail _, hrail _, hrail _, hrail _, hrail _, hrail _⟩

end

section
/-!
PROOFS. Chapter 02: start-up, the CORE clock, the hold-up bank and the thermal levels (O4 to O7).
-/

namespace Sys2Proof.Machine

open Sys2Proof.Safety

/-! ### Log entries of the module, and the end of a self-test -/

/-- Nothing but the logs, the service complex, the PCIe block and host memory differs. -/
def State.OnlyReports (s t : State) : Prop := { t with logs := s.logs, svc := s.svc, pcie := s.pcie, host := s.host } = s

theorem State.OnlyReports.refl (s : State) : s.OnlyReports s := rfl
theorem State.OnlyReports.trans {s t u : State} (h : s.OnlyReports t) (k : t.OnlyReports u) : s.OnlyReports u := by
  obtain ⟨⟩ := s; obtain ⟨⟩ := t; obtain ⟨⟩ := u
  simp only [State.OnlyReports, State.mk.injEq] at h k ⊢
  simp_all
theorem State.OnlyReports.power {s t : State} (h : s.OnlyReports t) : t.power = s.power := (congrArg State.power h :)
/-- A log entry writes the logs, and with its event the PCIe block and host memory. -/
theorem State.log_frame (s : State) (page : Nat) (body : List Byte) (fault : Bool) (owner : Nat) (event : Bool) :
    { s.log page body fault owner event with logs := s.logs, pcie := s.pcie, host := s.host } = s := by
  have h := s.log_spec page body fault owner event
  generalize s.log page body fault owner event = t at h
  obtain ⟨⟩ := s; obtain ⟨⟩ := t
  simp only [State.OnlyHost, State.mk.injEq] at h ⊢
  simp_all
theorem State.log_onlyReports (s : State) (page : Nat) (body : List Byte) (fault : Bool) (owner : Nat) (event : Bool) :
    s.OnlyReports (s.log page body fault owner event) := by
  have h := s.log_frame page body fault owner event
  generalize s.log page body fault owner event = t at h
  obtain ⟨⟩ := s; obtain ⟨⟩ := t
  simp only [State.OnlyReports, State.mk.injEq] at h ⊢
  simp_all
theorem State.health_onlyReports (s : State) (h : Health) : s.OnlyReports (s.health h) := s.log_onlyReports _ _ _ _ _
@[simp] theorem State.log_power (s : State) (page : Nat) (body : List Byte) (fault : Bool) (owner : Nat) (event : Bool) :
    (s.log page body fault owner event).power = s.power :=
  (congrArg State.power (s.log_frame page body fault owner event) :)
@[simp] theorem State.health_power (s : State) (h : Health) : (s.health h).power = s.power := s.log_power _ _ _ _ _
@[simp] theorem State.health_c0_nextSeq (s : State) (h : Health) : (s.health h).logs.c0.nextSeq = s.logs.c0.nextSeq + 1 :=
  s.log_nextSeq (page := 0xC0) (by decide) _ _ _ _
theorem State.abortTest_onlyReports (s : State) (r : Nat) : s.OnlyReports (s.abortTest r) := by
  unfold State.abortTest State.endTest
  split
  · exact .refl s
  · split
    · exact .refl s
    · exact State.OnlyReports.trans (t := s.modSvc _) rfl (State.health_onlyReports _ _)

/-! ### Start-up (R32, R41) -/

theorem State.mayStart_iff (s : State) :
    s.mayStart = true ↔ s.power.stage = .off ∧ s.power.inputUp = true ∧ s.power.holdOff = false ∧ s.power.pwrdis = false := by
  simp [State.mayStart, and_assoc]
theorem execPowerOn_of_start {s : State} (hs : s.power.stage = .off) (hh : s.power.holdOff = false) (hp : s.power.pwrdis = false) :
    exec .powerOn s = .next (s.modPower fun p => { p with inputUp := true }).powerOn :=
  if_pos (by simp [State.mayStart_iff, hs, hh, hp])
theorem execPwrdisDeassert_of_start {s : State} (hs : s.power.stage = .off) (hh : s.power.holdOff = false)
    (hi : s.power.inputUp = true) : exec .pwrdisDeassert s = .next (s.modPower fun p => { p with pwrdis := false }).powerOn :=
  if_pos (by simp [State.mayStart_iff, hs, hh, hi])
theorem execPowerOn_of_held {s : State} (h : s.power.holdOff = true ∨ s.power.pwrdis = true) :
    exec .powerOn s = .next (s.modPower fun p => { p with inputUp := true }) := by
  refine if_neg fun hm => ?_
  obtain ⟨-, -, h1, h2⟩ := (State.mayStart_iff _).mp hm
  rcases h with h | h
  · exact absurd (h.symm.trans h1) (by decide)
  · exact absurd (h.symm.trans h2) (by decide)
@[simp] theorem State.powerOn_cause (s : State) : s.powerOn.power.resetCause.getLsbD 0 = true := by
  show (_ ||| 1#9).getLsbD 0 = true
  simp

theorem State.powerOn_pwrdis (s : State) : s.powerOn.power.pwrdis = s.power.pwrdis := by
  have h : (s.abortTest 8).endTenants.key = s.key := by simp
  exact congrArg (fun k => k.2.2.pwrdis) h

/-! ### Thermal levels (R62) -/

/-- The CLKPWR block on entering a level, before what level 3 adds. -/
def Power.withLevel (p : Power) (n now : Nat) : Power :=
  { p with
    level := n, throttled := p.throttled || decide (n ≥ 1), visHalved := decide (n ≥ 2), ceilingAt := now
    thermalCeiling := if n ≥ 2 then 0 else if n = 0 then 21 else if p.level ≥ 2 then 8 else p.thermalCeiling }

theorem State.setLevel_power {s : State} {n : Nat} (h : n < 3) : (s.setLevel n).power = s.power.withLevel n s.now := by
  unfold State.setLevel
  extract_lets old s1 d s2 s3
  have h3 : s3.power = s.power.withLevel n s.now := by
    simp only [s3]
    split
    · exact (State.abortTest_onlyReports s2 8).power.trans (State.health_power _ _)
    · exact State.health_power _ _
  rw [if_neg (by omega), h3]
theorem State.setLevel_nextSeq {s : State} {n : Nat} (h : n < 2) : (s.setLevel n).logs.c0.nextSeq = s.logs.c0.nextSeq + 1 := by
  unfold State.setLevel
  rw [if_neg (by omega), if_neg (by omega)]
  exact State.health_c0_nextSeq _ _
/-- Level 3 starts the power-loss sequence. -/
theorem State.setLevel_three {s : State} (h : s.power.stage = .on) :
    (s.setLevel 3).power.level = 3 ∧ (s.setLevel 3).power.stage = .detected
      ∧ (s.setLevel 3).power.resetCause = s.power.resetCause ||| 0xC0 ∧ (s.setLevel 3).power.holdOff = true := by
  unfold State.setLevel
  extract_lets old s1 d s2 s3
  have h3 : s3.power = s.power.withLevel 3 s.now := (State.abortTest_onlyReports s2 8).power.trans (State.health_power _ _)
  have hon : ¬ s3.power.stage ≠ .on := by rw [h3]; exact not_not.mpr h
  rw [if_pos rfl, State.loss, if_neg hon]
  refine ⟨congrArg Power.level h3, rfl, ?_, Bool.or_true _⟩
  show s3.power.resetCause ||| 0x40#9 ||| 0x80#9 = _
  rw [h3, BitVec.or_assoc]
  rfl
theorem execThermalLevelEnter_eq {s : State} (hs : s.power.stage = .on) {tj c : Nat} {flow : Bool}
    (h : s.power.level < thermalLevel tj flow) :
    exec (.thermalLevelEnter tj c flow) s = .next ((s.sense tj c flow).setLevel (thermalLevel tj flow)) :=
  (if_neg (not_not.mpr hs)).trans (if_pos h)
theorem heldFor_iff {since : Option Nat} {now us : Nat} : heldFor since now us = true ↔ ∃ t, since = some t ∧ t + us ≤ now := by
  cases since <;> simp [heldFor]
theorem execThermalLevelLeave_of_two {s : State} (hs : s.power.stage = .on) {tj c : Nat} (h2 : s.power.level = 2)
    (h : heldFor (s.sense tj c true).power.cool100At s.now 100000 = true) : exec (.thermalLevelLeave tj c true) s
      = .next ((s.sense tj c true).setLevel (if heldFor (s.sense tj c true).power.cool90At s.now 100000 then 0 else 1)) :=
  (if_neg (not_not.mpr hs)).trans (if_pos (by
    have h2' : (s.sense tj c true).power.level = 2 := h2
    rw [show (s.sense tj c true).now = s.now from rfl]
    simp [h, h2']))
theorem execThermalLevelLeave_of_one {s : State} (hs : s.power.stage = .on) {tj c : Nat} (h1 : s.power.level = 1)
    (h : heldFor (s.sense tj c true).power.cool90At s.now 100000 = true) :
    exec (.thermalLevelLeave tj c true) s = .next ((s.sense tj c true).setLevel 0) := by
  have h1' : (s.sense tj c true).power.level = 1 := h1
  refine (if_neg (not_not.mpr hs)).trans ((if_neg (by simp [h1'])).trans (if_pos ?_))
  rw [show (s.sense tj c true).now = s.now from rfl]
  simp [h, h1']
/-- A temperature that stays at or below a limit keeps the moment since when it has. -/
theorem State.sense_cool100At (s : State) {tj a : Nat} (c : Nat) (ha : s.power.cool100At = some a) (h : tj ≤ 100) :
    (s.sense tj c true).power.cool100At = some a := by
  simp [State.sense, holdsSince, ha, h]
@[inherit_doc State.sense_cool100At]
theorem State.sense_cool90At (s : State) {tj a : Nat} (c : Nat) (ha : s.power.cool90At = some a) (h : tj ≤ 90) :
    (s.sense tj c true).power.cool90At = some a := by
  simp [State.sense, holdsSince, ha, h]

end Sys2Proof.Machine

open Sys2Proof Sys2Proof.Machine Sys2Proof.Safety

/-- Settles O4: a start is the power-on reset of the state that has the condition the row waits for, and every other row of the
start-up sets its own bits. -/
theorem startUp : Obligations.StartUp := by
  unfold Obligations.StartUp
  intro s
  refine ⟨fun hs hh hp => ?_, fun hs hh hi => ?_, fun hs hh => ?_, fun hs hp => ?_, fun hs ha id op bs pl sf => ?_, fun hs ha => ?_,
    fun hs hr hp => ?_, rfl⟩
  · exact ⟨_, execPowerOn_of_start hs hh hp, rfl, State.powerOn_cause _, rfl, rfl, rfl, rfl, rfl, rfl, rfl,
      (State.powerOn_keeps (s.modPower fun p => { p with inputUp := true })).1⟩
  · exact ⟨_, execPwrdisDeassert_of_start hs hh hi, rfl, State.powerOn_pwrdis _⟩
  · exact ⟨_, execPowerOn_of_held (.inl hh), hs⟩
  · exact ⟨_, execPowerOn_of_held (.inr hp), hs⟩
  · exact ⟨_, if_neg (by simp [hs, ha]), rfl, rfl, rfl, rfl, rfl, rfl, rfl⟩
  · exact if_pos (by simp [hs, ha])
  · exact if_pos (by simp [hs, hr, hp])

/-- Settles O5: each row of the CORE clock under each of its conditions. -/
theorem coreClock : Obligations.CoreClock := by
  unfold Obligations.CoreClock
  refine ⟨fun s _ => rfl, fun s hs => ?_⟩
  intro p goal rested runs
  have hsoon : rested ↔ (match s.power.stepAt with | some t => decide (s.now < t + 20) | none => false) = false := by
    cases h : s.power.stepAt <;> simp [rested, p, h]
  have step (h : s.power.stepping = false) : exec .coreClockStep s = if s.power.currentStep = goal ∨ ¬ rested then .next s
      else .next (s.modPower fun p => { p with stepping := true, stepGoal := stepTowards p.currentStep goal, stepAt := some s.now }) := by
    show execCoreClockStep s = _
    simp only [execCoreClockStep, hs, h, hsoon, Bool.or_eq_true, decide_eq_true_eq, Bool.not_eq_false]
    rfl
  refine ⟨fun h => ?_, fun h hr => ⟨fun hg => ?_, fun hg => ?_⟩, fun h hg => (step h).trans (if_pos hg), fun h => ?_, fun h h1 h2 => ?_,
    fun h h1 => ?_, fun h => ?_, fun h => ?_, fun v w b ha hv hw hb hc => ?_⟩
  · exact (if_neg (not_not.mpr hs)).trans (if_pos h)
  · have hne : ¬ (s.power.currentStep = goal ∨ ¬ rested) := not_or.mpr ⟨hg.ne, not_not.mpr hr⟩
    refine ((step h).trans (if_neg hne)).trans ?_
    have hst : stepTowards s.power.currentStep goal = s.power.currentStep + 1 := if_pos hg
    simp only [State.modPower, hst]
    rfl
  · have hne : ¬ (s.power.currentStep = goal ∨ ¬ rested) := not_or.mpr ⟨hg.ne', not_not.mpr hr⟩
    refine ((step h).trans (if_neg hne)).trans ?_
    have hst : stepTowards s.power.currentStep goal = s.power.currentStep - 1 := (if_neg hg.not_gt).trans (if_pos hg)
    simp only [State.modPower, hst]
    rfl
  · exact if_neg (by simp [hs, p] at *; omega)
  · refine (if_neg (by simp [hs, p] at *; omega)).trans ?_
    have hc : s.power.powerCeiling < min 21 s.power.thermalCeiling := lt_min h1 h2
    simp only [State.modPower, if_pos hc]
    rfl
  · refine (if_neg (by simp [hs, p] at *; omega)).trans ?_
    have hc : ¬ s.power.powerCeiling < min 21 s.power.thermalCeiling := by
      rw [lt_min_iff, not_and_or, not_lt, not_lt]
      exact h1
    simp only [State.modPower, if_neg hc]
    rfl
  · exact if_pos (by simp [p] at *; omega)
  · exact if_pos (by simp [p] at *; omega)
  · refine (if_neg (by simp [hs, p] at *; exact ha)).trans ?_
    have hbank : (if s.power.charged then max 7000 (min 7200 b) else min 6999 b) = b := by
      by_cases hch : s.power.charged = true
      · have := hc.mp hch
        simp only [hch, if_true]
        omega
      · have := mt hc.mpr hch
        simp only [hch]
        simp
        omega
    simp only [State.modPower, Nat.mod_eq_of_lt hv, Nat.mod_eq_of_lt hw, hbank]
    rfl
/-- Settles O6: the rows of the hold-up bank judge the bank anew and log what falls short. -/
theorem holdupBank : Obligations.HoldupBank := by
  unfold Obligations.HoldupBank
  intro s hs ha
  refine ⟨fun m hc hm => ?_, fun m hc hm => ?_, fun m hc => if_pos (by simp [hc]), fun hc ht h => ?_, fun h => if_pos ?_,
    _, if_neg (by simp [hs, ha]), rfl, rfl, le_max_left _ _, fun h1 h2 => ?_, fun h1 => ?_⟩
  · refine ⟨_, (if_neg (by simp [hs, hc])).trans (if_pos (decide_eq_true hm)), ?_, ?_, ?_, ?_, State.health_c0_nextSeq _ _⟩
    · rw [State.health_power]
      show min 255 (m * 100 / 150) = _
      omega
    · simp [Power.judgeHoldup, hm]
    · simp [Power.judgeHoldup, hm]
    · simp [Power.judgeHoldup, hm]
  · have hlow : decide (m < 120) = false := by simp [hm]
    refine (if_neg (by simp [hs, hc])).trans ((if_neg (by simp [hm])).trans ?_)
    simp [State.modPower, Power.judgeHoldup, hc, hlow]
  · refine ⟨_, if_neg (by simp [hs, ha, hc, ht, h]), ?_, ?_, ?_, State.health_c0_nextSeq _ _⟩
    · simp [Power.judgeHoldup]
    · simp [Power.judgeHoldup]
    · simp [Power.judgeHoldup, hc]
  · rcases h with h | h <;> simp [h]
  · simp [Power.judgeHoldup, h1, h2]
  · simp [Power.judgeHoldup, h1]

/-- Settles O7: a reading enters the level of its row, and a level is left for the one that its two held limits allow. -/
theorem thermalLevels : Obligations.ThermalLevels := by
  unfold Obligations.ThermalLevels
  intro s hs
  refine ⟨fun tj c h1 h2 hl => ?_, fun tj c flow h1 h2 hl => ?_, fun tj c flow h hl => ?_, fun since hf ha hl => ⟨fun h => ?_, fun h => ?_⟩,
    fun tj c a b htj ha hb hab hnow hl => ?_, fun tj c a h1 h2 ha hnow hl => ?_, fun h1 h2 => if_pos ⟨hs, h1, h2⟩,
    fun h1 h2 => if_neg fun h => by omega⟩
  · have hn : thermalLevel tj true = 1 := by
      rw [thermalLevel, if_neg (by omega), if_neg (by simp; omega), if_pos h1]
    have e := State.setLevel_power (s := s.sense tj c true) (n := 1) (by omega)
    refine ⟨_, execThermalLevelEnter_eq hs (by omega), ?_⟩
    rw [hn, e]
    exact ⟨rfl, Bool.or_true _, hs, State.setLevel_nextSeq (by omega)⟩
  · have hn : thermalLevel tj flow = 2 := by
      rw [thermalLevel, if_neg (by omega), if_pos (by simpa using h2)]
    have e := State.setLevel_power (s := s.sense tj c flow) (n := 2) (by omega)
    refine ⟨_, execThermalLevelEnter_eq hs (by omega), ?_⟩
    rw [hn, e]
    exact ⟨rfl, rfl, rfl, hs⟩
  · have hn : thermalLevel tj flow = 3 := if_pos h
    refine ⟨_, execThermalLevelEnter_eq hs (by omega), ?_⟩
    rw [hn]
    exact State.setLevel_three hs
  · have hh : heldFor s.power.flowLostAt s.now 10000000 = true := heldFor_iff.mpr ⟨_, ha, h⟩
    obtain ⟨e1, e2, e3, -⟩ := State.setLevel_three hs
    exact ⟨_, if_neg (by simp [hs, hf, hh]; omega), e1, e2, e3⟩
  · have hh : heldFor s.power.flowLostAt s.now 10000000 = false := by simp [ha, heldFor, h]
    exact if_pos (by simp [hh])
  · have h90 : heldFor (s.sense tj c true).power.cool90At s.now 100000 = true :=
      heldFor_iff.mpr ⟨b, State.sense_cool90At s c hb htj, hnow⟩
    have h100 : heldFor (s.sense tj c true).power.cool100At s.now 100000 = true :=
      heldFor_iff.mpr ⟨a, State.sense_cool100At s c ha (by omega), by omega⟩
    have e := State.setLevel_power (s := s.sense tj c true) (n := 0) (by omega)
    refine ⟨(s.sense tj c true).setLevel 0, ?_, ?_⟩
    · rcases hl with h1 | h2
      · exact execThermalLevelLeave_of_one hs h1 h90
      · rw [execThermalLevelLeave_of_two hs h2 h100, if_pos h90]
    · rw [e]
      exact ⟨rfl, rfl, rfl, State.setLevel_nextSeq (by omega)⟩
  · have h90 : ¬ heldFor (s.sense tj c true).power.cool90At s.now 100000 = true := by
      rw [show (s.sense tj c true).power.cool90At = holdsSince s.power.cool90At s.now (decide (tj ≤ 90)) from rfl]
      have h1' : ¬ tj ≤ 90 := by omega
      simp [holdsSince, heldFor, h1']
    have h100 : heldFor (s.sense tj c true).power.cool100At s.now 100000 = true :=
      heldFor_iff.mpr ⟨a, State.sense_cool100At s c ha h2, hnow⟩
    have e := State.setLevel_power (s := s.sense tj c true) (n := 1) (by omega)
    refine ⟨(s.sense tj c true).setLevel 1, ?_, ?_⟩
    · rw [execThermalLevelLeave_of_two hs hl h100, if_neg h90]
    · have hl' : (s.sense tj c true).power.level = 2 := hl
      rw [e]
      exact ⟨rfl, by simp [Power.withLevel, hl'], rfl, State.setLevel_nextSeq (by omega)⟩
end

section
/-!
PROOFS. What the operations of a reset and of a flush leave as they are.
-/

namespace Sys2Proof.Machine

open Sys2Proof.Safety

/-! ### Folds -/

/-- A fold of operations that keep a quantity keeps it. -/
theorem foldl_keep {σ α β : Type} (g : σ → β) (f : σ → α → σ) (h : ∀ s a, g (f s a) = g s) (l : List α) (s : σ) :
    g (l.foldl f s) = g s := by
  induction l generalizing s with
  | nil => rfl
  | cons a l ih => rw [List.foldl_cons, ih, h]
theorem ite_keep {σ β : Type} (g : σ → β) {p : Prop} [Decidable p] {a b : σ} {x : β} (ha : g a = x) (hb : g b = x) :
    g (if p then a else b) = x := by split <;> assumption

/-! ### Operations on the flash alone -/

/-- The state without the media block: what an operation on the flash alone keeps. -/
def State.sansMedia (s : State) : State := { s with media := {} }

@[simp] theorem State.modMedia_sansMedia (s : State) (f : Media → Media) : (s.modMedia f).sansMedia = s.sansMedia := rfl
@[simp] theorem State.modDie_sansMedia (s : State) (c d : Nat) (f : Die → Die) : (s.modDie c d f).sansMedia = s.sansMedia := rfl
@[simp] theorem State.modChannel_sansMedia (s : State) (c : Nat) (f : Channel → Channel) : (s.modChannel c f).sansMedia = s.sansMedia := rfl
@[simp] theorem State.modGroup_sansMedia (s : State) (g : Nat) (f : Group → Group) : (s.modGroup g f).sansMedia = s.sansMedia := rfl
@[simp] theorem State.modSuperblock_sansMedia (s : State) (id : Nat) (f : Superblock → Superblock) :
    (s.modSuperblock id f).sansMedia = s.sansMedia := rfl
@[simp] theorem State.journal_sansMedia (s : State) (g : Nat) : (s.journal g).sansMedia = s.sansMedia := rfl
@[simp] theorem State.advance_sansMedia (s : State) (id : Nat) : (s.advance id).sansMedia = s.sansMedia := rfl
@[simp] theorem State.recordRole_sansMedia (s : State) (g : Nat) : (s.recordRole g).sansMedia = s.sansMedia := by
  unfold State.recordRole
  split <;> rfl
@[simp] theorem State.mapUnit_sansMedia (s : State) (fn nsid unit sb page stamp : Nat) :
    (s.mapUnit fn nsid unit sb page stamp).sansMedia = s.sansMedia := by
  unfold State.mapUnit
  extract_lets newer s1
  split
  · rfl
  · split <;> rfl
@[simp] theorem State.storeMembers_sansMedia (s : State) (j : RowJob) (slot : Nat) (planes : List Nat) (bad : Nat → Bool) :
    (s.storeMembers j slot planes bad).sansMedia = s.sansMedia := by
  unfold State.storeMembers
  split
  · rfl
  · exact foldl_keep State.sansMedia _ (fun _ _ => by rfl) _ _
theorem State.openSuperblock_sansMedia {s t : State} {g j : Nat} {use : SbUse} {most : Bool} {b : Superblock}
    (h : s.openSuperblock g j use most = some (b, t)) : t.sansMedia = s.sansMedia := by
  unfold State.openSuperblock at h
  extract_lets slots at h
  split at h
  · cases h
  · split at h
    · cases h
    · cases h; rfl
theorem State.target_sansMedia {s t : State} {g : Nat} {use : SbUse} {js : List Nat} {b : Superblock}
    (h : s.target g use js = some (b, t)) : t.sansMedia = s.sansMedia := by
  induction js with
  | nil => cases h
  | cons j js ih =>
    unfold State.target at h
    extract_lets live at h
    split at h
    · cases h; rfl
    · split at h
      · next r hr => cases h; exact State.openSuperblock_sansMedia hr
      · exact ih h
@[simp] theorem State.flushed_sansMedia (s : State) (us : List (Nat × Nat × Nat)) (lost : Bool) :
    (s.flushed us lost).sansMedia = s.sansMedia := rfl
theorem State.flushAttempt_sansMedia {s t : State} {g k : Nat} {failed : List (Nat × Nat)} {sets : List Nat} {ok : Bool}
    {us : List (Nat × Nat × Nat)} {set : Nat} (h : s.flushAttempt g k failed sets = some (ok, us, set, t)) :
    t.sansMedia = s.sansMedia := by
  unfold State.flushAttempt at h
  split at h
  · cases h
  next b s1 ht =>
  extract_lets us1 items row id members j bad lost s2 s3 s4 durable s5 s6 at h
  simp only [Option.some.injEq, Prod.mk.injEq] at h
  obtain ⟨-, -, -, rfl⟩ := h
  have h2 : s2.sansMedia = s1.sansMedia := rfl
  clear_value s2
  have h3 : s3.sansMedia = s2.sansMedia :=
    (foldl_keep State.sansMedia _ (fun _ _ => State.storeMembers_sansMedia ..) _ _).trans (s2.advance_sansMedia b.id)
  have h4 : s4.sansMedia = s3.sansMedia := State.recordRole_sansMedia s3 g
  clear_value s3 s4
  have h5 : s5.sansMedia = s4.sansMedia := by
    refine ite_keep State.sansMedia (foldl_keep State.sansMedia _ (fun s m => ?_) _ _) rfl
    split
    · exact State.mapUnit_sansMedia ..
    · rfl
  clear_value s5
  have h6 : s6.sansMedia = s5.sansMedia := ite_keep State.sansMedia (State.modMedia_sansMedia s5 _) rfl
  rw [← State.target_sansMedia ht, ← h2, ← h3, ← h4, ← h5, ← h6]
theorem State.flushRow_sansMedia {s t : State} {g k n : Nat} {failed : List (Nat × Nat)}
    (h : s.flushRow g k failed = some (t, n)) : t.sansMedia = s.sansMedia := by
  unfold State.flushRow at h
  split at h
  · cases h
  · next h1 => cases h; exact (State.flushed_sansMedia _ _ _).trans (State.flushAttempt_sansMedia h1)
  · next h1 =>
    split at h
    · cases h; exact (State.flushed_sansMedia _ _ _).trans (State.flushAttempt_sansMedia h1)
    · next h2 => cases h; exact (State.flushed_sansMedia _ _ _).trans <| (State.flushAttempt_sansMedia h2).trans (State.flushAttempt_sansMedia h1)
theorem State.flushGroup_sansMedia (s : State) (g : Nat) (failed : List (Nat × Nat)) (f k : Nat) :
    (s.flushGroup g failed f k).1.sansMedia = s.sansMedia := by
  induction f generalizing s k with
  | zero => rfl
  | succ f ih =>
    unfold State.flushGroup
    split
    · split
      · next h => exact (ih _ _).trans (State.flushRow_sansMedia h)
      · rfl
    · rfl
@[simp] theorem State.flushAll_sansMedia (s : State) (failed : List (Nat × Nat)) : (s.flushAll failed).sansMedia = s.sansMedia :=
  foldl_keep (fun acc : State × Nat => acc.1.sansMedia) _ (fun p g => State.flushGroup_sansMedia p.1 g failed _ _) _ _

/-! ### Completions and events -/

/-- The part of a completion queue that a completion does not change. -/
def Cq.still (q : Cq) : Cq := { q with tail := 0, phase := false }
/-- The part of a controller that neither a completion nor an event changes. -/
def Ctrl.still (k : Ctrl) : Ctrl :=
  { k with outstanding := [], aers := [], waiting := [], held := [], cqs := k.cqs.map Cq.still, unposted := [], msixPending := [] }
/-- The part of the PCIe block that neither a completion, nor an event, nor a warning changes. -/
def Pcie.still (p : Pcie) : Pcie :=
  { p with ctrls := p.ctrls.map Ctrl.still, completions := [], messages := [], criticalWarning := 0, dataRelaxed := 0 }
/-- Completions and events: host memory, and what they change of the PCIe block. -/
def State.Posts (s t : State) : Prop := s.OnlyHost t ∧ t.pcie.still = s.pcie.still

theorem State.Posts.refl (s : State) : s.Posts s := ⟨.refl s, rfl⟩
theorem State.Posts.trans {s t u : State} (h : s.Posts t) (k : t.Posts u) : s.Posts u := ⟨h.1.trans k.1, k.2.trans h.2⟩
theorem State.Posts.ite {p : Prop} [Decidable p] {s a b : State} (ha : s.Posts a) (hb : s.Posts b) : s.Posts (if p then a else b) := by
  split <;> assumption
theorem map_modify_of_eq {α β : Type} {g : α → β} {f : α → α} (h : ∀ a, g (f a) = g a) (l : List α) (n : Nat) :
    (l.modify n f).map g = l.map g := by
  refine List.ext_getElem? fun j => ?_
  rw [List.getElem?_map, List.getElem?_map, List.getElem?_modify]
  cases l[j]? with
  | none => rfl
  | some a =>
    refine congrArg some ?_
    dsimp only
    split
    · exact h a
    · rfl
theorem State.modCtrl_posts (s : State) (n : Nat) {f : Ctrl → Ctrl} (h : ∀ k, (f k).still = k.still) : s.Posts (s.modCtrl n f) := by
  refine ⟨s.modCtrl_onlyHost n f, ?_⟩
  unfold Pcie.still
  rw [State.modCtrl_pcie, map_modify_of_eq h]
theorem State.modPcie_posts (s : State) {f : Pcie → Pcie} (h : (f s.pcie).still = s.pcie.still) : s.Posts (s.modPcie f) :=
  ⟨s.modPcie_onlyHost f, h⟩
theorem State.hostPut_posts (s : State) (a : Nat) (bs : List Byte) : s.Posts (s.hostPut a bs) := ⟨s.hostPut_onlyHost a bs, rfl⟩
theorem State.interrupt_posts (s : State) (fn v : Nat) : s.Posts (s.interrupt fn v) := by
  unfold State.interrupt
  split
  · exact .refl s
  · exact .ite (s.modCtrl_posts fn fun _ => rfl) (s.modPcie_posts rfl)
theorem State.post_posts (s : State) (c : Completion) : s.Posts (s.post c) := by
  unfold State.post
  extract_lets k
  split
  · exact .refl s
  split
  · exact .refl s
  split
  · exact s.modCtrl_posts c.fn fun _ => rfl
  extract_lets s1 wrap s2
  have h2 : s.Posts s2 := (s.hostPut_posts _ _).trans (s1.modCtrl_posts c.fn fun k => by
    simp only [Ctrl.still, List.map_map]
    congr 1
    refine List.map_congr_left fun q _ => ?_
    dsimp only [Function.comp]
    split <;> rfl)
  exact .ite (h2.trans (s2.interrupt_posts _ _)) h2
theorem State.complete_posts (s : State) (r : CmdRef) (st : Status) (a b : Nat) : s.Posts (s.complete r st a b) := by
  unfold State.complete
  extract_lets held c ord s1 s2
  have h1 : s.Posts s1 := s.modCtrl_posts r.fn fun _ => rfl
  have h2 : s1.Posts s2 := s1.modPcie_posts rfl
  exact .ite (h1.trans (h2.trans (s2.post_posts _))) (.refl s)
theorem State.raise_posts (s : State) (fn : Nat) (e : Event) : s.Posts (s.raise fn e) := by
  unfold State.raise
  extract_lets k s1
  have h1 : s.Posts s1 := s.modCtrl_posts fn fun _ => rfl
  refine .ite (.refl s) ?_
  split
  · exact h1.trans (s1.modCtrl_posts fn fun _ => rfl)
  · exact h1.trans (s1.complete_posts _ _ _ _)
/-- A log entry writes its page, and with its event the PCIe block and host memory. -/
theorem State.log_posts (s : State) (page : Nat) (body : List Byte) (fault : Bool) (owner : Nat) (event : Bool) :
    State.Posts { s with logs := s.logs.setPage page ((s.logs.page page).add (logCapacity page) s.now owner fault body) }
      (s.log page body fault owner event) := by
  unfold State.log
  extract_lets p s1 s2
  have h2 : s1.Posts s2 := .ite (s1.raise_posts _ _) (.refl s1)
  exact .ite (h2.trans (s2.raise_posts _ _)) h2

/-! ### Operations that report -/

/-- The state without the flash, the logs, host memory and what a report changes of the PCIe block. -/
def State.still (s : State) : State := { s with media := {}, logs := {}, host := [], pcie := s.pcie.still }

theorem State.still_of_sansMedia {s t : State} (h : s.sansMedia = t.sansMedia) : s.still = t.still :=
  (congrArg State.still h :)
theorem State.Posts.still {s t : State} (h : s.Posts t) : t.still = s.still := by
  obtain ⟨h1, h2⟩ := h
  have e : t.still = { ({ t with pcie := s.pcie, host := s.host } : State).still with pcie := t.pcie.still } := rfl
  rw [e, h1, h2]
  rfl
@[simp] theorem State.modMedia_still (s : State) (f : Media → Media) : (s.modMedia f).still = s.still := rfl
@[simp] theorem State.log_still (s : State) (page : Nat) (body : List Byte) (fault : Bool) (owner : Nat) (event : Bool) :
    (s.log page body fault owner event).still = s.still := (s.log_posts page body fault owner event).still
@[simp] theorem State.health_still (s : State) (h : Health) : (s.health h).still = s.still := State.log_still ..
/-- An aborted self-test ends with a result, and is reported. -/
theorem State.abortTest_still (s : State) (r : Nat) : ∃ l, (s.abortTest r).still = { s with svc := { s.svc with test := none, testLog := l } }.still := by
  unfold State.abortTest
  split
  · next h => exact ⟨s.svc.testLog, by rw [← h]⟩
  · next h =>
    unfold State.endTest
    rw [h]
    exact ⟨_, State.health_still _ _⟩

/-! ### Operations of the tenants -/

/-- The pages of the log, that of the media and the deferred errors apart. -/
def Logs.calm (l : Logs) : Logs := { c0 := l.c0, c1 := l.c1, c4 := l.c4, c5 := l.c5, c6 := l.c6, c7 := l.c7, c8 := l.c8 }
/-- The part of the state that the ends of invocations, buffers, models and sessions leave as it is. -/
def State.calm (s : State) : State :=
  { s with
    media := {}, logs := s.logs.calm, tenants := [], host := [], invocations := [], queues := [], ctrs := {}, pairs := [], rasp := []
    prot := {}, free := 0, pcie := s.pcie.still }

theorem State.calm_of_sansMedia {s t : State} (h : s.sansMedia = t.sansMedia) : s.calm = t.calm :=
  (congrArg State.calm h :)
theorem State.Posts.calm {s t : State} (h : s.Posts t) : t.calm = s.calm := by
  obtain ⟨h1, h2⟩ := h
  have e : t.calm = { ({ t with pcie := s.pcie, host := s.host } : State).calm with pcie := t.pcie.still } := rfl
  rw [e, h1, h2]
  rfl
@[simp] theorem State.modMedia_calm (s : State) (f : Media → Media) : (s.modMedia f).calm = s.calm := rfl
@[simp] theorem State.modTenant_calm (s : State) (n : Nat) (f : Tenant → Tenant) : (s.modTenant n f).calm = s.calm := rfl
@[simp] theorem State.modQueue_calm (s : State) (n : Nat) (f : Queue → Queue) : (s.modQueue n f).calm = s.calm := rfl
@[simp] theorem State.modInv_calm (s : State) (r : CmdRef) (f : Invocation → Invocation) : (s.modInv r f).calm = s.calm := rfl
@[simp] theorem State.modBuffer_calm (s : State) (t i : Nat) (f : Buffer → Buffer) : (s.modBuffer t i f).calm = s.calm := rfl
@[simp] theorem State.modProt_calm (s : State) (f : MemProt → MemProt) : (s.modProt f).calm = s.calm := rfl
@[simp] theorem State.modSuperblock_calm (s : State) (id : Nat) (f : Superblock → Superblock) : (s.modSuperblock id f).calm = s.calm := rfl
@[simp] theorem State.carry_calm (s : State) (d : Deferred) (r : CmdRef) : (s.carry d r).calm = s.calm := rfl
@[simp] theorem State.complete_calm (s : State) (r : CmdRef) (st : Status) (a b : Nat) : (s.complete r st a b).calm = s.calm :=
  (s.complete_posts r st a b).calm
@[simp] theorem State.raise_calm (s : State) (fn : Nat) (e : Event) : (s.raise fn e).calm = s.calm := (s.raise_posts fn e).calm
@[simp] theorem State.mediaLog_calm (s : State) (e : MediaEntry) (fault : Bool) : (s.mediaLog e fault).calm = s.calm :=
  (s.log_posts 0xC2 e.body fault 0 true).calm
@[simp] theorem State.warn_calm (s : State) (bitNo info : Nat) : (s.warn bitNo info).calm = s.calm := by
  have h1 : (s.modPcie fun p => { p with criticalWarning := p.criticalWarning ||| BitVec.ofNat 8 (2 ^ bitNo) }).calm = s.calm := rfl
  exact ite_keep State.calm rfl (ite_keep State.calm ((State.raise_calm _ _ _).trans h1) h1)
@[simp] theorem State.judgeReadOnly_calm (s : State) (g : Nat) : (s.judgeReadOnly g).calm = s.calm :=
  ite_keep State.calm ((State.mediaLog_calm _ _ _).trans (State.warn_calm _ _ _)) rfl
@[simp] theorem State.ackWriters_calm (s : State) (refs : List CmdRef) : (s.ackWriters refs).calm = s.calm :=
  foldl_keep State.calm _ (fun _ _ => ite_keep State.calm rfl (State.complete_calm ..)) _ _
@[simp] theorem State.ackFlushes_calm (s : State) : s.ackFlushes.calm = s.calm := by
  refine foldl_keep State.calm _ (fun s p => ite_keep State.calm rfl ?_) _ _
  extract_lets s1
  split
  · exact (State.complete_calm ..).trans (State.carry_calm ..)
  · exact State.complete_calm ..
@[simp] theorem State.deallocate_calm (s : State) (fn nsid : Nat) (unit : Nat → Bool) : (s.deallocate fn nsid unit).calm = s.calm :=
  (State.ackFlushes_calm _).trans (State.ackWriters_calm _ _)
@[simp] theorem State.endBuffer_calm (s : State) (t : Nat) (b : Buffer) : (s.endBuffer t b).calm = s.calm := by
  unfold State.endBuffer
  extract_lets s1 s2
  have h1 : s1.calm = s.calm := ite_keep State.calm (State.deallocate_calm ..) rfl
  have h2 : s2.calm = s.calm := (s1.modTenant_calm t _).trans h1
  exact ite_keep State.calm ((s2.judgeReadOnly_calm _).trans h2) h2
@[simp] theorem State.abandonSession_calm (s : State) (t : Nat) : (s.abandonSession t).calm = s.calm := by
  unfold State.abandonSession
  split
  · rfl
  · exact (State.judgeReadOnly_calm _ _).trans ((State.modTenant_calm _ _ _).trans
      (foldl_keep State.calm _ (fun s _ => s.modSuperblock_calm _ _) _ _))
@[simp] theorem State.endTenants_calm (s : State) : s.endTenants.calm = s.calm := by
  unfold State.endTenants
  refine foldl_keep State.calm _ (fun s t => ?_) _ _
  rw [State.abandonSession_calm]
  exact foldl_keep State.calm _ (fun s b => s.endBuffer_calm t.2 b) _ _

end Sys2Proof.Machine
end

section
/-!
PROOFS. Chapter 02: the resets that reach CORE and the erase shield (O8).
-/

namespace Sys2Proof.Machine

open Sys2Proof.Safety

/-- The state that a reset of CORE acts on: its self-test aborted and its tenants ended. -/
def State.resetBase (s : State) : State := (s.abortTest 8).endTenants

theorem State.resetBase_calm (s : State) : s.resetBase.calm = (s.abortTest 8).calm := State.endTenants_calm _
theorem State.resetBase_power (s : State) : s.resetBase.power = s.power := by
  obtain ⟨l, h⟩ := s.abortTest_still 8
  exact (congrArg State.power s.resetBase_calm :).trans (congrArg State.power h :)
theorem State.resetBase_pcie (s : State) : s.resetBase.pcie.still = s.pcie.still := by
  obtain ⟨l, h⟩ := s.abortTest_still 8
  exact (congrArg State.pcie s.resetBase_calm :).trans (congrArg State.pcie h :)
theorem State.resetBase_svc (s : State) : ∃ l, s.resetBase.svc = { s.svc with test := none, testLog := l } := by
  obtain ⟨l, h⟩ := s.abortTest_still 8
  exact ⟨l, (congrArg State.svc s.resetBase_calm :).trans (congrArg State.svc h :)⟩
theorem State.scopeReset_power (s : State) (p : Bool) : (s.scopeReset p).power = s.power.coreReset p :=
  congrArg (Power.coreReset · p) s.resetBase_power
theorem State.scopeReset_vfEnable (s : State) (p : Bool) : (s.scopeReset p).pcie.vfEnable = (s.pcie.vfEnable && !p) :=
  (congrArg (fun q : Pcie => q.vfEnable && !p) s.resetBase_pcie :)
theorem State.scopeReset_numVfs (s : State) : (s.scopeReset false).pcie.numVfs = s.pcie.numVfs :=
  (congrArg Pcie.numVfs s.resetBase_pcie :)
theorem State.scopeReset_svc (s : State) (p : Bool) : ∃ l, (s.scopeReset p).svc = { s.svc with test := none, testLog := l }.coreReset := by
  obtain ⟨l, h⟩ := s.resetBase_svc
  exact ⟨l, congrArg Service.coreReset h⟩
theorem State.scopeReset_done (s : State) (p : Bool) : CoreResetDone s (s.scopeReset p) := by
  have hp := s.scopeReset_power p
  refine ⟨rfl, rfl, rfl, rfl, rfl, fun k hk => ?_, rfl, rfl, rfl, rfl, ?_, ?_, ?_, (s.scopeReset_keeps p).1⟩
  · obtain ⟨n, -, rfl⟩ := List.mem_map.mp hk
    exact ⟨rfl, rfl, rfl⟩
  all_goals rw [hp]; rfl

/-- The causes that a reset latches. -/
def resetCauses (kind : ResetKind) (module dog : Bool) (c : BitVec 9) : BitVec 9 :=
  let c := if module then c ||| 16 else c
  let c := if dog then c ||| 32 else c
  if kind = .perst then c ||| 2 else c
/-- What a reset that reaches CORE leaves: the state of `CoreResetDone`, and its causes. -/
theorem State.resetNow_spec {s : State} (hs : s.power.stage = .on) {kind : ResetKind} {module dog : Bool}
    (hm : module = (kind == .moduleReset || s.power.moduleResetPending || (s.svc.held.map (·.moduleReset)).getD false))
    (hd : dog = (kind == .watchdog || (s.svc.held.map (·.watchdog)).getD false)) :
    CoreResetDone s (s.resetNow kind)
      ∧ (s.resetNow kind).power = { s.power.coreReset (kind == .perst) with resetCause := resetCauses kind module dog s.power.resetCause }
      ∧ (s.resetNow kind).pcie.vfEnable = (s.pcie.vfEnable && !(kind == .perst))
      ∧ (kind ≠ .perst → (s.resetNow kind).pcie.numVfs = s.pcie.numVfs)
      ∧ ∃ l, (s.resetNow kind).svc = { s.svc with test := none, testLog := l }.coreReset := by
  obtain ⟨f, hf⟩ : ∃ f, f = s.dropCommands.flushAll [] := ⟨_, rfl⟩
  have hk : f.sansMedia = s.dropCommands.sansMedia := hf ▸ State.flushAll_sansMedia _ _
  have hp : f.power = s.power := (congrArg State.power hk :)
  have hv : f.pcie = s.dropCommands.pcie := (congrArg State.pcie hk :)
  have hsv : f.svc = s.svc := (congrArg State.svc hk :)
  have hb : SameModule s f := ⟨(congrArg State.big hk :), (congrArg State.serial hk :)⟩
  have e : s.resetNow kind = (f.scopeReset (kind == .perst)).modPower fun p => { p with resetCause := resetCauses kind module dog p.resetCause } := by
    unfold State.resetNow
    rw [if_neg (not_not.mpr hs), ← hf]
    extract_lets held m' d' r r1 r2
    have em : m' = module := hm.symm
    have ed : d' = dog := hd.symm
    clear_value m' d'
    subst em ed
    cases m' <;> cases d' <;> cases kind <;> rfl
  rw [e]
  obtain ⟨l, hl⟩ := f.scopeReset_svc (kind == .perst)
  have hpow := f.scopeReset_power (kind == .perst)
  rw [hp] at hpow
  refine ⟨?_, ?_, ?_, fun hk => ?_, l, ?_⟩
  · obtain ⟨h1, h2, h3, h4, h5, h6, h7, h8, h9, h10, h11, h12, h13, h14, h15⟩ := f.scopeReset_done (kind == .perst)
    rw [hp] at h11 h12 h13
    exact ⟨h1, h2, h3, h4, h5, h6, h7, h8, h9, h10, h11, h12, h13, h14.trans hb.1, h15.trans hb.2⟩
  · rw [State.modPower_power, hpow]
    rfl
  · rw [State.modPower_pcie, State.scopeReset_vfEnable, hv]
    rfl
  · have : (kind == .perst) = false := by simpa using hk
    rw [this, State.modPower_pcie, State.scopeReset_numVfs, hv]
    rfl
  · rw [State.modPower_svc, hl, hsv]

/-- A MODULE_RESET that is accepted: no entry is fetched any more, and the reset is pending or held (R59, R595). -/
theorem execModuleReset_of_accepted {s t : State} {c : Cmd} (h : s.begin c = some t) (hf : c.fn = 0) (hq : c.sqid = 0)
    (hr : s.svc.runSlot ≠ 2) (hz : [c.cdw10, c.cdw11, c.cdw12, c.cdw13, c.cdw14, c.cdw15].any (· != 0) = false) :
    exec (.moduleReset c) s = .next (t.complete c.ref .success).requestReset := by
  have ht : t.svc.runSlot ≠ 2 := by
    have hsv : t.svc = s.svc := (congrArg State.svc (State.begin_spec h).1 :)
    rwa [hsv]
  show execModuleReset c s = _
  simp only [execModuleReset, h]
  rw [if_neg (by simp [hf, hq, ht]), if_neg (by simp only [hz]; exact Bool.false_ne_true)]
theorem execModuleReset_of_refused {s t : State} {c : Cmd} (h : s.begin c = some t) (hf : c.fn = 0) (hq : c.sqid = 0)
    (hr : s.svc.runSlot ≠ 2) (hz : [c.cdw10, c.cdw11, c.cdw12, c.cdw13, c.cdw14, c.cdw15].any (· != 0) = true) :
    exec (.moduleReset c) s = .next (t.complete c.ref .invalidField) := by
  have ht : t.svc.runSlot ≠ 2 := by
    have hsv : t.svc = s.svc := (congrArg State.svc (State.begin_spec h).1 :)
    rwa [hsv]
  show execModuleReset c s = _
  simp only [execModuleReset, h]
  rw [if_neg (by simp [hf, hq, ht]), if_pos hz]
/-- A command that has started ends, and changes nothing outside the PCIe block and host memory. -/
theorem State.begin_complete {s t : State} {c : Cmd} (h : s.begin c = some t) (st : Status) (a b : Nat) :
    Ends s (t.complete c.ref st a b) c st a b ∧ s.OnlyHost (t.complete c.ref st a b) := by
  obtain ⟨h1, h2, h3, -, -⟩ := State.begin_spec h
  refine ⟨⟨_, (t.complete_held h3 st a b).trans (by rw [h2]), List.mem_singleton.mpr rfl⟩, ?_⟩
  have h4 : s.OnlyHost t := by
    have hh : t.host = s.host := (congrArg State.host h1 :)
    unfold State.OnlyHost
    rw [← hh]
    exact h1
  exact h4.trans (t.complete_onlyHost _ _ _ _)
theorem State.OnlyHost.power {s t : State} (h : s.OnlyHost t) : t.power = s.power := (congrArg State.power h :)
theorem State.OnlyHost.svc {s t : State} (h : s.OnlyHost t) : t.svc = s.svc := (congrArg State.svc h :)
theorem State.OnlyHost.now {s t : State} (h : s.OnlyHost t) : t.now = s.now := (congrArg State.now h :)

/-- A held reset that proceeds has the causes of all that merged into it (R58). -/
theorem State.releaseShield_spec {s : State} (hs : s.power.stage = .on) (hm : s.power.moduleResetPending = false) {h : HeldReset}
    (hh : s.svc.held = some h) (hx : h.watchdog = true ∨ h.moduleReset = true) (expired : Bool) :
    CoreResetDone s (s.releaseShield expired) ∧ (s.releaseShield expired).svc.shieldNote = some (expired, s.now - h.since)
      ∧ (s.releaseShield expired).svc.nor.busy = false
      ∧ (s.releaseShield expired).power.resetCause
        = s.power.resetCause ||| (if h.moduleReset then 16 else 0) ||| (if h.watchdog then 32 else 0) := by
  have hs' : (s.modSvc fun c => { c with shieldNote := some (expired, s.now - h.since) }).power.stage = .on := hs
  obtain ⟨hd, hpow, -, -, l, hl⟩ := State.resetNow_spec hs' (kind := if h.watchdog then .watchdog else .moduleReset)
    (module := h.moduleReset) (dog := h.watchdog)
    (by cases hw : h.watchdog <;> simp_all) (by cases hw : h.watchdog <;> simp_all)
  have e : s.releaseShield expired = (s.modSvc fun c => { c with shieldNote := some (expired, s.now - h.since) }).resetNow
      (if h.watchdog then .watchdog else .moduleReset) := by
    unfold State.releaseShield
    simp only [hh]
    exact if_neg (not_not.mpr hs)
  rw [e]
  refine ⟨hd, by rw [hl]; rfl, by rw [hl]; rfl, ?_⟩
  rw [hpow]
  cases h.watchdog <;> cases h.moduleReset <;> simp [resetCauses]

theorem State.requestReset_busy {s : State} (hh : s.svc.held = none) (hb : s.svc.nor.busy = true) :
    s.requestReset = (s.modPcie fun p => { p with fetchStopped := true }).modSvc fun c => { c with
      held := some { watchdog := false, moduleReset := true, since := s.now }, shieldHolds := satAdd32 c.shieldHolds 1 } := by
  unfold State.requestReset
  extract_lets s1
  have hh1 : s1.svc.held = none := hh
  have hb1 : s1.svc.nor.busy = true := hb
  rw [if_pos (by simp [hb1])]
  simp only [State.shield, hh1]
  rfl
theorem State.requestReset_idle {s : State} (hh : s.svc.held = none) (hb : s.svc.nor.busy = false) :
    s.requestReset = (s.modPcie fun p => { p with fetchStopped := true }).modPower fun p => { p with moduleResetPending := true } := by
  unfold State.requestReset
  extract_lets s1
  have hh1 : s1.svc.held = none := hh
  have hb1 : s1.svc.nor.busy = false := hb
  rw [if_neg (by simp [hh1, hb1])]

end Sys2Proof.Machine

open Sys2Proof Sys2Proof.Machine Sys2Proof.Safety

/-- Settles O8: every reset is `resetNow` with its own causes, or is held. -/
theorem coreResets : Obligations.CoreResets := by
  unfold Obligations.CoreResets
  refine ⟨fun s hs => ⟨fun hp hh hm => ?_, fun hm hh => ⟨fun hb => ?_, fun hb => ?_⟩, fun hr hw hb hh hm => ?_, fun hr hw hb hh => ?_,
    fun hw => if_pos (by simp [hw]), fun h hh hx hm => ?_, fun hr => if_pos hr, rfl⟩, fun s t c h hf hq hr => ⟨fun h0 h1 h2 h3 h4 h5 hh => ?_, fun hz => ?_⟩⟩
  · obtain ⟨hd, hpow, hv, -, -⟩ := State.resetNow_spec hs (kind := .perst) (module := false) (dog := false) (by simp [hm, hh]) (by simp [hh])
    refine ⟨_, if_neg (by simp [hs, hp]), ?_, rfl, ?_, ?_, ?_⟩
    · exact hd
    · show (s.resetNow .perst).power.linkUp = false
      rw [hpow]
      exact Bool.and_false _
    · show (s.resetNow .perst).pcie.vfEnable = false
      rw [hv]
      exact Bool.and_false _
    · show (s.resetNow .perst).power.resetCause = _
      rw [hpow]
      rfl
  · obtain ⟨hd, hpow, hv, hn, -⟩ := State.resetNow_spec hs (kind := .moduleReset) (module := true) (dog := false) rfl (by simp [hh])
    refine ⟨_, (if_neg (by simp [hm])).trans (if_neg (by simp [hb])), hd, ?_, ?_, hn nofun, ?_⟩
    · rw [hpow]; exact Bool.and_true _
    · rw [hv]; exact Bool.and_true _
    · rw [hpow]; rfl
  · refine (if_neg (by simp [hm])).trans ((if_pos hb).trans ?_)
    simp only [State.shield, State.modPower_svc, hh]
    rfl
  · have hs' : (s.modSvc fun c => { c with wdtExpiries := satAdd32 c.wdtExpiries 1, wdtNote := some s.svc.runSlot }).power.stage = .on := hs
    obtain ⟨hd, hpow, hv, -, l, hl⟩ := State.resetNow_spec hs' (kind := .watchdog) (module := false) (dog := true) (by simp [hm, hh]) rfl
    refine ⟨_, (if_neg (by simp [hs, hr, hw, hh])).trans (if_neg (by simp [hb])), ?_, ?_, ?_, ?_, ?_⟩
    · exact hd
    · rw [hpow]; exact Bool.and_true _
    · rw [hpow]; rfl
    · rw [hl]; rfl
    · rw [hl]; rfl
  · refine (if_neg (by simp [hs, hr, hw, hh])).trans ((if_pos hb).trans ?_)
    simp only [State.shield, State.modSvc_svc, hh]
    rfl
  · intro causes
    obtain ⟨hd, hn, -, hc⟩ := State.releaseShield_spec hs hm hh hx false
    obtain ⟨hd', hn', hb', hc'⟩ := State.releaseShield_spec hs hm hh hx true
    have ht : exec .shieldTimeout s = if h.since + 5000000 ≤ s.now then .next (s.releaseShield true) else .next s := by
      show execShieldTimeout s = _
      simp only [execShieldTimeout, hh]
    exact ⟨fun hb => if_pos hb, fun hb => ⟨_, if_neg (by simp [hb]), hd, hn, hc⟩,
      fun hle => ⟨_, ht.trans (if_pos hle), hd', hn', hb', hc'⟩, fun hlt => ht.trans (if_neg (by omega))⟩
  · obtain ⟨he, ho⟩ := State.begin_complete h .success 0 0
    have hx := execModuleReset_of_accepted h hf hq hr (by simp [*])
    generalize t.complete c.ref .success = v at he ho hx
    have hheld : v.svc.held = none := by rw [ho.svc, hh]
    by_cases hb : s.svc.nor.busy = true
    · have hb' : v.svc.nor.busy = true := by rw [ho.svc, hb]
      rw [State.requestReset_busy hheld hb'] at hx
      exact ⟨_, hx, he, rfl, fun hn => absurd (hb.symm.trans hn) (by decide), fun _ => ⟨ho.power, by rw [← ho.now]; rfl⟩⟩
    · have hb' : v.svc.nor.busy = false := by rw [ho.svc]; simpa using hb
      rw [State.requestReset_idle hheld hb'] at hx
      exact ⟨_, hx, he, rfl, fun _ => ⟨by rw [← ho.power]; rfl, ho.svc⟩, fun hn => absurd hn hb⟩
  · obtain ⟨he, ho⟩ := State.begin_complete h .invalidField 0 0
    exact ⟨_, execModuleReset_of_refused h hf hq hr (by simpa [← or_assoc] using hz), he, ho.power, ho.svc⟩
end

section
/-!
PROOFS. Commands that end after others have, and log entries on the way.
-/

namespace Sys2Proof.Machine

open Sys2Proof.Safety

/-! ### A command that only its own end takes from its controller -/

/-- A command is held, and its identifier is not that of a held event request, so that no event ends it. -/
def Firm (s : State) (r : CmdRef) : Prop := Held s r ∧ (r.sqid = 0 → r.cid ∉ (s.ctrl r.fn).aers)

/-- What keeps a command held: completions of others may come, and none is taken back. -/
def State.Spares (r : CmdRef) (s t : State) : Prop :=
  Firm s r → Firm t r ∧ ∃ l, t.pcie.completions = s.pcie.completions ++ l

theorem State.Spares.refl (r : CmdRef) (s : State) : s.Spares r s := fun h => ⟨h, [], (List.append_nil _).symm⟩
theorem State.Spares.trans {r : CmdRef} {s t u : State} (h : s.Spares r t) (k : t.Spares r u) : s.Spares r u := fun hs => by
  obtain ⟨ht, l, hl⟩ := h hs
  obtain ⟨hu, m, hm⟩ := k ht
  exact ⟨hu, l ++ m, by rw [hm, hl, List.append_assoc]⟩
/-- Controllers, completions and the power stage tell whether a command is held. -/
theorem State.Spares.of_eq {r : CmdRef} {s t : State} (hp : t.power.stage = s.power.stage) (hc : t.pcie.ctrls = s.pcie.ctrls)
    (hl : t.pcie.completions = s.pcie.completions) : s.Spares r t := fun ⟨⟨h1, h2⟩, h3⟩ => by
  have e (n : Nat) : t.ctrl n = s.ctrl n := by unfold State.ctrl; rw [hc]
  exact ⟨⟨⟨hp.trans h1, by rw [e]; exact h2⟩, by rw [e]; exact h3⟩, [], by rw [hl, List.append_nil]⟩
theorem State.Spares.of_pcie {r : CmdRef} {s t : State} (hp : t.power = s.power) (hc : t.pcie = s.pcie) : s.Spares r t :=
  .of_eq (by rw [hp]) (by rw [hc]) (by rw [hc])
theorem State.Spares.foldl {r : CmdRef} {α : Type} {f : State → α → State} (h : ∀ (s : State) a, s.Spares r (f s a)) (l : List α) (s : State) :
    s.Spares r (l.foldl f s) := by
  induction l generalizing s with
  | nil => exact .refl r s
  | cons a l ih => exact (h s a).trans (ih _)
theorem State.Spares.ite {r : CmdRef} {p : Prop} [Decidable p] {s a b : State} (ha : s.Spares r a) (hb : s.Spares r b) :
    s.Spares r (if p then a else b) := by split <;> assumption
/-- A change of a controller that keeps its commands. -/
theorem State.modCtrl_spares {r : CmdRef} (s : State) (fn : Nat) {f : Ctrl → Ctrl}
    (hf : ∀ k : Ctrl, (f k).outstanding = k.outstanding ∧ (f k).aers = k.aers) : s.Spares r (s.modCtrl fn f) := fun ⟨⟨h1, h2⟩, h3⟩ => by
  have hl : r.fn < s.pcie.ctrls.length := State.lt_of_outstanding fun h0 => by simp [h0] at h2
  have e : ((s.modCtrl fn f).ctrl r.fn).outstanding = (s.ctrl r.fn).outstanding ∧ ((s.modCtrl fn f).ctrl r.fn).aers = (s.ctrl r.fn).aers := by
    by_cases hr : r.fn = fn
    · subst hr
      rw [s.ctrl_modCtrl f hl]
      exact hf _
    · rw [s.ctrl_modCtrl_ne f hr]
      exact ⟨rfl, rfl⟩
  exact ⟨⟨⟨h1, by rw [e.1]; exact h2⟩, by rw [e.2]; exact h3⟩, [], (List.append_nil _).symm⟩
theorem State.interrupt_spares (s : State) (r : CmdRef) (fn v : Nat) : s.Spares r (s.interrupt fn v) := by
  unfold State.interrupt
  split
  · exact .refl r s
  · split
    · exact s.modCtrl_spares fn fun _ => ⟨rfl, rfl⟩
    · exact .of_eq rfl rfl rfl
theorem State.post_spares (s : State) (r : CmdRef) (c : Completion) : s.Spares r (s.post c) := by
  unfold State.post
  extract_lets k
  split
  · exact .refl r s
  split
  · exact .refl r s
  split
  · exact s.modCtrl_spares _ fun _ => ⟨rfl, rfl⟩
  extract_lets s1 wrap s2
  have h2 : s.Spares r s2 := State.Spares.trans (t := s1) (.of_eq rfl rfl rfl) (s1.modCtrl_spares _ fun _ => ⟨rfl, rfl⟩)
  exact .ite (h2.trans (s2.interrupt_spares r _ _)) h2
/-- The end of another command. -/
theorem State.complete_spares (s : State) {r q : CmdRef} (hq : q ≠ r) (st : Status) (a b : Nat) : s.Spares r (s.complete q st a b) := by
  unfold State.complete
  extract_lets held c ord s1 s2
  refine .ite (State.Spares.trans (t := s2) ?_ (s2.post_spares r _)) (.refl r s)
  intro ⟨⟨h1, h2⟩, h3⟩
  have hl : r.fn < s.pcie.ctrls.length := State.lt_of_outstanding fun h0 => by simp [h0] at h2
  refine ⟨⟨⟨h1, ?_⟩, ?_⟩, [c], rfl⟩
  · by_cases hr : r.fn = q.fn
    · show ((s.modCtrl q.fn _).ctrl r.fn).outstanding.any _ = true
      rw [hr, s.ctrl_modCtrl _ (hr ▸ hl), List.any_eq_true]
      obtain ⟨o, ho, hor⟩ := List.any_eq_true.mp h2
      have hne : o.cmd.ref ≠ q := fun e => hq (e.symm.trans (beq_iff_eq.mp hor))
      exact ⟨o, List.mem_filter.mpr ⟨hr ▸ ho, by simpa using hne⟩, hor⟩
    · show ((s.modCtrl q.fn _).ctrl r.fn).outstanding.any _ = true
      rw [s.ctrl_modCtrl_ne _ hr]
      exact h2
  · intro h0
    by_cases hr : r.fn = q.fn
    · show r.cid ∉ ((s.modCtrl q.fn _).ctrl r.fn).aers
      rw [hr, s.ctrl_modCtrl _ (hr ▸ hl)]
      have h4 := hr ▸ h3 h0
      by_cases hs : q.sqid = 0
      · simp only [hs, if_true]
        exact fun hm => h4 (List.mem_filter.mp hm).1
      · simpa only [hs, if_false] using h4
    · show r.cid ∉ ((s.modCtrl q.fn _).ctrl r.fn).aers
      rw [s.ctrl_modCtrl_ne _ hr]
      exact h3 h0
/-- An event ends at most an event request. -/
theorem State.raise_spares (s : State) (r : CmdRef) (fn : Nat) (e : Event) : s.Spares r (s.raise fn e) := by
  intro hs
  unfold State.raise
  extract_lets k s1
  have h1 : s.Spares r s1 := s.modCtrl_spares fn fun _ => ⟨rfl, rfl⟩
  split
  · exact State.Spares.refl r s hs
  split
  · exact (h1.trans (s1.modCtrl_spares fn (f := fun k => { k with waiting := k.waiting ++ [e] }) fun _ => ⟨rfl, rfl⟩)) hs
  · next cid rest hk =>
    refine (h1.trans (s1.complete_spares ?_ _ _ _)) hs
    rintro rfl
    refine hs.2 rfl ?_
    have hk' : (s.ctrl fn).aers = cid :: rest := hk
    rw [hk']
    exact List.mem_cons_self
theorem State.log_spares (s : State) (r : CmdRef) (page : Nat) (body : List Byte) (fault : Bool) (owner : Nat) (event : Bool) :
    s.Spares r (s.log page body fault owner event) := by
  unfold State.log
  extract_lets p s1 s2
  have h1 : s.Spares r s1 := .of_pcie rfl rfl
  have h2 : s.Spares r s2 := h1.trans (.ite (s1.raise_spares r _ _) (.refl r s1))
  exact .ite (h2.trans (s2.raise_spares r _ _)) h2
/-- A command that has been held all the way ends. -/
theorem State.Spares.ends {r : CmdRef} {s t : State} (h : s.Spares r t) (hs : Firm s r) (st : Status) (a b : Nat) :
    EndsRef s (t.complete r st a b) r st a b := by
  obtain ⟨ht, l, hl⟩ := h hs
  exact ⟨l ++ [completionOf r st a b], by rw [t.complete_held ht.1 st a b, hl, List.append_assoc],
    List.mem_append_right _ (List.mem_singleton.mpr rfl)⟩
/-- What a command that starts leaves: only its controller differs, and it is held until it ends itself. -/
theorem State.begin_firm {s t : State} {c : Cmd} (h : s.begin c = some t) : Firm t c.ref := by
  obtain ⟨-, -, hh, -, hk⟩ := State.begin_spec h
  refine ⟨hh, fun h0 => ?_⟩
  have hka : (t.ctrl c.fn).aers = (s.ctrl c.fn).aers := (congrArg Ctrl.aers hk :)
  show c.cid ∉ (t.ctrl c.fn).aers
  rw [hka]
  unfold State.begin at h
  extract_lets k known compute activating parked waits at h
  split at h
  · cases h
  next hc =>
    simp only [Bool.or_eq_true, not_or, Bool.and_eq_true, not_and] at hc
    obtain ⟨⟨⟨-, -⟩, hx⟩, -⟩ := hc
    have h0' : (c.sqid == 0) = true := beq_iff_eq.mpr h0
    simpa using hx h0'

end Sys2Proof.Machine
end

section
/-!
PROOFS. Chapter 04: pieces of an image, COMMIT_BASE, DISCARD, readback and the personality's timers (O11, O13, O16, O17).
-/

namespace Sys2Proof.Machine

open Sys2Proof.Safety

/-! ### The personality's log and its commands -/

theorem State.persLog_frame (s : State) (e : PersEvent) : { s.persLog e with logs := s.logs, pcie := s.pcie, host := s.host } = s :=
  s.log_frame _ _ _ _ _
@[simp] theorem State.persLog_pers (s : State) (e : PersEvent) : (s.persLog e).pers = s.pers := (congrArg State.pers (s.persLog_frame e) :)
@[simp] theorem State.persLog_c8_nextSeq (s : State) (e : PersEvent) : (s.persLog e).logs.c8.nextSeq = s.logs.c8.nextSeq + 1 :=
  s.log_nextSeq (page := 0xC8) (by decide) _ _ _ _
theorem State.persLog_spares (s : State) (r : CmdRef) (e : PersEvent) : s.Spares r (s.persLog e) := s.log_spares _ _ _ _ _ _
theorem State.OnlyHost.pers {s t : State} (h : s.OnlyHost t) : t.pers = s.pers := (congrArg State.pers h :)
@[simp] theorem State.complete_pers (s : State) (r : CmdRef) (st : Status) (a b : Nat) : (s.complete r st a b).pers = s.pers :=
  (s.complete_onlyHost r st a b).pers
@[simp] theorem State.complete_logs (s : State) (r : CmdRef) (st : Status) (a b : Nat) : (s.complete r st a b).logs = s.logs :=
  (s.complete_onlyHost r st a b).logs
@[simp] theorem State.complete_svc (s : State) (r : CmdRef) (st : Status) (a b : Nat) : (s.complete r st a b).svc = s.svc :=
  (s.complete_onlyHost r st a b).svc
@[simp] theorem State.persEnd_pers (s : State) (r : CmdRef) (op : Nat) (st : Status) (reason step : Nat) :
    (s.persEnd r op st reason step).pers = { s.pers with resStatus := st.sc, resReason := reason, resStep := step, resOpcode := op } :=
  State.complete_pers _ _ _ _ _
@[simp] theorem State.persEnd_logs (s : State) (r : CmdRef) (op : Nat) (st : Status) (reason step : Nat) :
    (s.persEnd r op st reason step).logs = s.logs := State.complete_logs _ _ _ _ _
@[simp] theorem State.persEnd_svc (s : State) (r : CmdRef) (op : Nat) (st : Status) (reason step : Nat) :
    (s.persEnd r op st reason step).svc = s.svc := State.complete_svc _ _ _ _ _
/-- A command on the personality ends with its reason and step, whatever the log has said before. -/
theorem State.Spares.persEnd {r : CmdRef} {s t : State} (h : s.Spares r t) (hs : Firm s r) (op : Nat) (st : Status) (reason step : Nat) :
    EndsRef s (t.persEnd r op st reason step) r st (reason + 256 * step) 0 :=
  State.Spares.ends (t := t.persNote op st reason step) (h.trans (.of_pcie rfl rfl)) hs _ _ _
section
variable {s t : State} {c : Cmd} (h : s.begin c = some t)
include h

theorem State.begin_pers : t.pers = s.pers := (congrArg State.pers (State.begin_spec h).1 :)
theorem State.begin_svc : t.svc = s.svc := (congrArg State.svc (State.begin_spec h).1 :)
theorem State.begin_host : t.host = s.host := (congrArg State.host (State.begin_spec h).1 :)
theorem State.begin_prot : t.prot = s.prot := (congrArg State.prot (State.begin_spec h).1 :)
theorem State.begin_now : t.now = s.now := (congrArg State.now (State.begin_spec h).1 :)
theorem State.begin_power : t.power = s.power := (congrArg State.power (State.begin_spec h).1 :)
theorem State.begin_media : t.media = s.media := (congrArg State.media (State.begin_spec h).1 :)
theorem State.begin_tenants : t.tenants = s.tenants := (congrArg State.tenants (State.begin_spec h).1 :)
theorem State.begin_invocations : t.invocations = s.invocations := (congrArg State.invocations (State.begin_spec h).1 :)
theorem State.begin_completions : t.pcie.completions = s.pcie.completions := (State.begin_spec h).2.1
/-- A completion after the start of a command is one after the state before it. -/
theorem State.begin_ends {u : State} {st : Status} {a b : Nat} (hu : EndsRef t u c.ref st a b) : Ends s u c st a b := by
  obtain ⟨l, hl, hm⟩ := hu
  exact ⟨l, by rw [hl, State.begin_completions h], hm⟩
theorem State.begin_completes (st : Status) (a b : Nat) : Ends s (t.complete c.ref st a b) c st a b :=
  (State.begin_complete h st a b).1
/-- A command on the personality that started ends with its reason and step. -/
theorem State.begin_persEnds {v : State} (hv : t.Spares c.ref v) (op : Nat) (st : Status) (reason step : Nat) :
    Ends s (v.persEnd c.ref op st reason step) c st (reason + 256 * step) :=
  State.begin_ends h (hv.persEnd (State.begin_firm h) op st reason step)

end

/-! ### Pieces of an image (R113, R114) -/

/-- The refusal of a piece. -/
def State.refusePiece (t : State) (c : Cmd) (st : Status) : State :=
  if c.cdw12.getLsbD 0 then (t.persLog { event := 4, st := st.sc, build := t.stagedBuild }).persEnd c.ref 0xC1 st 0 0
  else t.complete c.ref st

/-- A refused piece ends with its status and leaves the staging as it is. -/
theorem State.begin_refusePiece {s t : State} {c : Cmd} (h : s.begin c = some t) (st : Status) :
    Ends s (t.refusePiece c st) c st ∧ (t.refusePiece c st).pers.staged = s.pers.staged ∧ (t.refusePiece c st).pers.stage = s.pers.stage := by
  unfold State.refusePiece
  split
  · exact ⟨State.begin_persEnds h (t.persLog_spares _ _) _ _ 0 0, by simp [State.begin_pers h], by simp [State.begin_pers h]⟩
  · exact ⟨State.begin_completes h st 0 0, by simp [State.begin_pers h], by simp [State.begin_pers h]⟩

/-- The checks of a piece in their order (R113). -/
theorem execLoadPersonality_eq {s t : State} {c : Cmd} (h : Starts s c .adminOwner t) :
    exec (.loadPersonality c) s = .next (
      if t.pers.stage = .inUse then t.refusePiece c .sequenceError
      else if c.cdw10.toNat > 262143 then t.refusePiece c .invalidField
      else if c.cdw11.toNat ≠ 0 && !(t.pers.stage == .receiving && 4 * c.cdw11.toNat == t.pers.stageBytes) then t.refusePiece c .invalidField
      else if c.cdw11.toNat + c.cdw10.toNat + 1 > 67108864 then t.refusePiece c .imageTooLarge
      else
        let u := if c.cdw11.toNat = 0 then
            (t.discardStage .receiving).modProt fun p => { p with damaged := p.damaged.filter fun d => d.1 != 16 }
          else t
        let v := u.modPers fun p => { p with
          staged := p.staged.put (4 * c.cdw11.toNat) (u.dataIn c.prp1 c.prp2 (4 * (c.cdw10.toNat + 1)))
          stageBytes := 4 * (c.cdw11.toNat + c.cdw10.toNat + 1) }
        if c.cdw12.getLsbD 0 then v.finalLoad c else v.complete c.ref .success) :=
  State.command_of_starts h _

theorem State.hostGet_of_host {s t : State} (h : t.host = s.host) (a n : Nat) : t.hostGet a n = s.hostGet a n := by
  unfold State.hostGet
  rw [h]
theorem prpPages_of_host {s t : State} (h : t.host = s.host) (f a n : Nat) : prpPages t f a n = prpPages s f a n := by
  induction f generalizing a n with
  | zero => rfl
  | succ f ih =>
    unfold prpPages
    rw [State.hostGet_of_host h]
    simp only [ih]
/-- Host memory tells what a transfer from it brings. -/
theorem State.dataIn_of_host {s t : State} (h : t.host = s.host) (prp1 prp2 : Qword) (n : Nat) : t.dataIn prp1 prp2 n = s.dataIn prp1 prp2 n := by
  simp only [State.dataIn, State.prps, State.hostGet_of_host h, prpPages_of_host h]
/-- An image that is too short for a header ends at step 4. -/
theorem State.finalLoad_short {v : State} {c : Cmd} (hd : v.stageDamaged = false) (hn : v.pers.stageBytes < 4116) :
    v.finalLoad c = (((v.discardStage .rejected).modPers fun p => { p with failedBuild := v.stagedBuild }).persLog
      { event := 4, st := Status.personalityRejected.sc, reason := 0x03, step := 4, build := v.stagedBuild }).persEnd
      c.ref 0xC1 .personalityRejected 0x03 4 := by
  have hc : v.checkImage .staged v.stagedReader v.pers.stageBytes = some { step := 4, reason := 0x03 } := if_pos hn
  unfold State.finalLoad
  rw [hd, hc]
  rfl

/-! ### COMMIT_BASE and DISCARD (R119, R122) -/

/-- The start of a job at the boot NOR leaves the queue. -/
theorem State.norStart_queue (s : State) : s.norStart.svc.nor.queue = s.svc.nor.queue := by
  unfold State.norStart
  split
  · rfl
  split
  · rfl
  next j js hq =>
    show (j.start s.svc.nor).queue = s.svc.nor.queue
    unfold NorJob.start Nor.setFw Nor.setBase
    split
    · exact ite_keep Nor.queue (p := _ = 0) rfl rfl
    · exact ite_keep Nor.queue (p := _ = 0) rfl rfl
    · rfl
theorem State.norStart_pcie (s : State) : s.norStart.pcie = s.pcie := by
  unfold State.norStart
  split
  · rfl
  split <;> rfl
theorem State.norStart_pers (s : State) : s.norStart.pers = s.pers := by
  unfold State.norStart
  split
  · rfl
  split <;> rfl
theorem execDiscard_eq {s t : State} {c : Cmd} (h : Starts s c .adminOwner t) (hk : bits c.cdw10.toNat 2 0 ≤ 2) (hj : t.pers.job = .none) :
    exec (.discard c) s = .next ((t.discardStage .empty).persEnd c.ref 0xC4 .success 0 0) := by
  refine (State.command_of_starts h _).trans ?_
  rw [if_neg (by omega), if_neg (by simp [hj])]
theorem execCommitBase_eq {s t : State} {c : Cmd} (h : Starts s c .adminOwner t) (hk : bits c.cdw10.toNat 2 0 ≤ 2) (hj : t.pers.job = .none)
    (hf : t.activateFail kindBase = none) : exec (.commitBase c) s = .next (
      if t.pers.stageBytes > 41943024 then t.persEnd c.ref 0xC4 .imageTooLarge 0 0
      else (t.modPers fun p => { p with
        stage := .inUse
        job := .commitBase c.ref t.commitSlot (((t.svc.nor.base (1 - t.commitSlot)).map (·.seq)).getD 0 + 1) }).norRequest
          (.base c.ref t.commitSlot (((t.svc.nor.base (1 - t.commitSlot)).map (·.seq)).getD 0 + 1))) := by
  refine (State.command_of_starts h _).trans ?_
  rw [if_neg (by omega), if_neg (by simp [hj]), hf]

/-! ### PERSONALITY_STATUS (R134, R139) -/

/-- Whether the group of a slice is being written. -/
def State.writesGroup (s : State) (g : Nat) : Bool :=
  match s.pers.job with
  | .writing _ h => g == h
  | _ => false
theorem State.writesGroup_iff (s : State) (g : Nat) : s.writesGroup g = true ↔ ∃ r, s.pers.job = .writing r g := by
  unfold State.writesGroup
  split
  · next r h hj => exact ⟨fun he => ⟨r, by rw [hj, beq_iff_eq.mp he]⟩, fun ⟨q, hq⟩ => by
      rw [hj] at hq
      injection hq with _ hg
      exact beq_iff_eq.mpr hg.symm⟩
  · next hj => exact ⟨nofun, fun ⟨r, hr⟩ => (hj r g hr).elim⟩
theorem execPersonalityStatus_eq {s t : State} {c : Cmd} (h : Starts s c .adminOwner t) :
    exec (.personalityStatus c) s = .next (
      if bits c.cdw10.toNat 7 0 = 0 then (t.dataOut c.fn c.prp1 c.prp2 t.persSummary).complete c.ref .success
      else if bits c.cdw10.toNat 7 0 = 1 then
        if c.cdw11.toNat ≠ 65536 * bits c.cdw11.toNat 20 16 + c.cdw11.toNat % 2048 then t.complete c.ref .invalidField
        else if t.writesGroup (bits c.cdw11.toNat 20 16 / 8) then t.complete c.ref .regionQuiescing
        else (t.dataOut c.fn c.prp1 c.prp2 (bytesOfLe 512
          ((t.pers.slices.getD (bits c.cdw11.toNat 20 16) {}).frame (c.cdw11.toNat % 2048)).toNat)).complete c.ref .success
      else if bits c.cdw10.toNat 7 0 = 2 then (t.dataOut c.fn c.prp1 c.prp2 t.persKeys).complete c.ref .success
      else t.complete c.ref .invalidField) :=
  State.command_of_starts h _

/-! ### The owner deadline and the shell timers (R124, R126, R136) -/

theorem State.deadlineDue_iff {s : State} {a : Nat} (ha : s.pers.armedAt = some a) :
    s.deadlineDue = true ↔ s.deadlineRuns = true ∧ a + 1000 * s.pers.deadlineMs ≤ s.now := by
  simp [State.deadlineDue, ha]
theorem State.deadlineDue_of_not_runs {s : State} (h : s.deadlineRuns = false) : s.deadlineDue = false := by
  unfold State.deadlineDue
  split <;> simp [h]
theorem State.missDeadline_pers (s : State) : s.missDeadline.pers = { s.pers with expired := true } := State.persLog_pers _ _
theorem State.missDeadline_nextSeq (s : State) : s.missDeadline.logs.c8.nextSeq = s.logs.c8.nextSeq + 1 := State.persLog_c8_nextSeq _ _
/-- A deadline in range, of a module whose deadline may still change. -/
theorem execPersDeadlineWrite_eq {s : State} {v : Dword} (hs : s.power.stage = .on) (hp : s.power.perst = false)
    (h1 : 1000 ≤ bits v.toNat 15 0) (h2 : bits v.toNat 15 0 ≤ 60000) (he : s.pers.expired = false) (hk : s.pers.activeKind ≠ 2) :
    exec (.persDeadlineWrite v) s = .next (let t := s.modPers fun p => { p with deadlineMs := bits v.toNat 15 0 }
      if t.deadlineDue then t.missDeadline else t) := by
  refine (if_pos ⟨hs, hp⟩).trans ((if_neg ?_).trans ?_)
  · simp [he, hk]
    omega
  · exact (apply_ite Host.Outcome.next _ _ _).symm
theorem State.deadlineRuns_iff (s : State) : s.deadlineRuns = true ↔
    s.pers.armedAt.isSome = true ∧ s.pers.activeKind = 1 ∧ s.pers.expired = false ∧ ∀ r, s.pers.job ≠ .activate r := by
  unfold State.deadlineRuns
  split
  · next r hj => simp [hj]
  · next hj =>
    have hj' : ∀ r, s.pers.job ≠ .activate r := fun r hr => hj r hr
    simp [hj', and_assoc]
theorem execShellTimerExpiry_of_due {s : State} {k n : Nat} {taken : Bool} {x : Slice} {y : ShellTimer} (hx : s.pers.slices[k]? = some x)
    (hy : x.timers[n]? = some y) (h1 : y.running = true) (h2 : y.since + y.count ≤ s.now) :
    exec (.shellTimerExpiry k n taken) s = .next (s.modPers fun p => { p with
      slices := p.slices.set k { x with
        timers := x.timers.set n { y with
          count := if y.periodic then y.reload else 0, since := s.now, running := y.periodic
          held := y.held || x.clockGated || !taken }
        timerIn := if !x.clockGated && taken then x.timerIn ||| BitVec.ofNat 16 (2 ^ n) else x.timerIn }
      shellOverruns := if x.clockGated && y.held then satAdd32 p.shellOverruns 1 else p.shellOverruns }) := by
  show execShellTimerExpiry k n taken s = _
  simp only [execShellTimerExpiry, hx, hy]
  exact if_neg (by simp [h1, h2])

end Sys2Proof.Machine

open Sys2Proof Sys2Proof.Machine Sys2Proof.Safety

/-- Settles O11: the checks in their order, the first piece that passes them, and a final piece that is too short for a header. -/
theorem loadPersonality : Obligations.LoadPersonality := by
  unfold Obligations.LoadPersonality
  intro s t c h
  have hx := execLoadPersonality_eq h
  intro numd ofst
  refine ⟨fun h1 => ?_, fun h1 h2 => ?_, fun h1 h2 h3 h4 => ?_, fun h1 h2 h3 h4 h5 => ?_, fun h1 h2 h3 h4 => ?_, fun h1 h2 h3 h4 h5 => ?_⟩
  · rw [if_pos h1] at hx
    obtain ⟨e1, e2, e3⟩ := State.begin_refusePiece h.1 .sequenceError
    exact ⟨_, hx, e1, e2, by rw [e3, ← State.begin_pers h.1, h1]⟩
  · rw [if_neg h1, if_pos h2] at hx
    obtain ⟨e1, e2, -⟩ := State.begin_refusePiece h.1 .invalidField
    exact ⟨_, hx, e1, e2⟩
  · rw [if_neg h1, if_neg (by omega), if_pos (by rw [State.begin_pers h.1]; simp [ofst] at h3 h4; simp [h3, h4])] at hx
    obtain ⟨e1, e2, -⟩ := State.begin_refusePiece h.1 .invalidField
    exact ⟨_, hx, e1, e2⟩
  · rw [if_neg (by simp [h1]), if_neg (by omega), if_neg (by rw [State.begin_pers h.1] at h1 ⊢; simp [ofst] at h4; simp [h1, h4]), if_pos h5] at hx
    obtain ⟨e1, e2, -⟩ := State.begin_refusePiece h.1 .imageTooLarge
    exact ⟨_, hx, e1, e2⟩
  · have h3' : c.cdw11.toNat = 0 := h3
    rw [if_neg h1, if_neg (by omega), if_neg (by simp [h3']), if_neg (by omega)] at hx
    extract_lets u v at hx
    rw [if_neg (by rw [h4]; exact Bool.false_ne_true)] at hx
    refine ⟨_, hx, ?_, ?_, ?_, ?_, ?_, ?_⟩
    · exact State.begin_ends h.1 (State.Spares.ends (State.Spares.of_pcie (by simp [v, u, h3', State.discardStage]) (by simp [v, u, h3', State.discardStage])) (State.begin_firm h.1) _ _ _)
    all_goals rw [State.complete_pers]
    · simp [v, u, h3', State.discardStage]
    · simp [v, u, h3', numd]
    · have hd : u.dataIn c.prp1 c.prp2 (4 * (numd + 1)) = s.dataIn c.prp1 c.prp2 (4 * (numd + 1)) :=
        State.dataIn_of_host ((show u.host = t.host by simp [u, h3', State.discardStage]).trans (State.begin_host h.1)) _ _ _
      rw [← hd]
      simp [v, u, h3', numd, State.discardStage]
    · simp [v, u, h3', State.discardStage, State.begin_pers h.1]
    · simp [v, u, h3', State.discardStage, State.begin_pers h.1]
  · have h3' : c.cdw11.toNat = 0 := h3
    rw [if_neg h1, if_neg (by omega), if_neg (by simp [h3']), if_neg (by omega)] at hx
    extract_lets u v at hx
    rw [if_pos h4, State.finalLoad_short] at hx
    · refine ⟨_, hx, ?_, ?_, ?_, ?_, ?_, ?_⟩
      · exact State.begin_persEnds h.1 (State.Spares.trans (.of_pcie (by simp [v, u, h3', State.discardStage]) (by simp [v, u, h3', State.discardStage]))
          (State.persLog_spares _ _ _)) _ _ _ _
      all_goals simp [State.discardStage, v, u, h3', State.begin_logs h.1]
    · simp [v, u, h3', State.stageDamaged, State.begin_prot h.1, h5, State.discardStage]
    · simp [v, h3']; omega

/-- Settles O13. -/
theorem commitAndDiscard : Obligations.CommitAndDiscard := by
  unfold Obligations.CommitAndDiscard
  intro s t c h hk hj
  refine ⟨?_, fun hf hl => ?_, fun hf hl hq => ?_⟩
  · refine ⟨_, execDiscard_eq h hk hj, State.begin_persEnds (v := t.discardStage .empty) h.1 (.of_pcie rfl rfl) _ _ 0 0, ?_, ?_, ?_, ?_⟩
    · simp [State.discardStage]
    · simp [State.discardStage]
    · simp [State.discardStage, State.begin_pers h.1]
    · simp [State.discardStage, State.begin_svc h.1]
  · refine ⟨_, (execCommitBase_eq h hk hj hf).trans (by rw [if_pos hl]), State.begin_persEnds h.1 (.refl _ _) _ _ 0 0, ?_⟩
    simp [State.begin_svc h.1]
  · refine ⟨_, ((t.svc.nor.base (1 - t.commitSlot)).map (·.seq)).getD 0 + 1,
      (execCommitBase_eq h hk hj hf).trans (congrArg _ (if_neg (by omega))), ?_, ?_, ?_⟩
    · unfold NoneEnds
      rw [State.norRequest, State.norStart_pcie]
      exact (State.begin_completions h.1 :)
    · rw [State.norRequest, State.norStart_pers]
      rfl
    · rw [State.norRequest, State.norStart_queue]
      have hst := State.begin_svc h.1
      have hpt := State.begin_pers h.1
      have hs : t.commitSlot = if s.pers.baseSlot = 0 then 1 else if s.pers.baseSlot = 1 then 0 else s.commitSlot := by
        unfold State.commitSlot
        rw [hpt, hst]
        split
        · rfl
        · split
          · rfl
          · rfl
      rw [← hs]
      show t.svc.nor.queue ++ _ = _
      rw [hst, hq, List.nil_append]

/-- Settles O16: each page in turn. -/
theorem frameReadback : Obligations.FrameReadback := by
  unfold Obligations.FrameReadback
  intro s t c h
  have hx := execPersonalityStatus_eq h
  refine ⟨fun k f hk hf hp ha => ?_, fun hp => ?_, fun hp => ?_, fun hp => ?_, fun hp hb => ?_⟩
  · have h1 : bits c.cdw11.toNat 20 16 = k := by
      rw [ha]
      simp only [bits]
      omega
    have h2 : c.cdw11.toNat % 2048 = f := by omega
    rw [if_neg (by omega), if_pos hp, if_neg (by omega), h1, h2] at hx
    refine ⟨fun r hr => ?_, fun hr => ?_⟩
    · rw [if_pos ((t.writesGroup_iff _).mpr ⟨r, hr⟩)] at hx
      exact ⟨_, hx, State.begin_completes h.1 _ 0 0⟩
    · rwa [if_neg fun hw => ?_] at hx
      obtain ⟨r, hr'⟩ := (t.writesGroup_iff _).mp hw
      exact hr r hr'
  · rwa [if_pos hp] at hx
  · rwa [if_neg (by omega), if_neg (by omega), if_pos hp] at hx
  · rw [if_neg (by omega), if_neg (by omega), if_neg (by omega)] at hx
    exact ⟨_, hx, State.begin_completes h.1 _ 0 0⟩
  · rw [if_neg (by omega), if_pos hp, if_pos] at hx
    · exact ⟨_, hx, State.begin_completes h.1 _ 0 0⟩
    · simp only [bits] at hb ⊢
      omega

/-- Settles O17: the deadline is missed once it is due, and a timer whose count has passed expires into its slice. -/
theorem personalityTimers : Obligations.PersonalityTimers := by
  unfold Obligations.PersonalityTimers
  refine ⟨fun s => ⟨fun v hv => ?_, fun v hv => ?_, fun v hs hp h1 h2 he hk a ha hn => ?_, fun v a hs hp h1 h2 hr ha hn => ?_,
    fun a hr ha => ⟨fun hn => ?_, fun hn => ?_⟩, fun hr => ?_⟩, fun s k n taken x y hx hy => ⟨fun h => ?_, fun h1 h2 => ?_⟩⟩
  · refine (ite_eq_right_iff.mpr fun _ => if_pos ?_)
    simp only [Bool.or_eq_true, decide_eq_true_eq]
    omega
  · refine (ite_eq_right_iff.mpr fun _ => if_pos ?_)
    simp only [Bool.or_eq_true, decide_eq_true_eq]
    tauto
  · refine (execPersDeadlineWrite_eq hs hp h1 h2 he (by omega)).trans (congrArg _ (if_neg fun hd => ?_))
    have := ((State.deadlineDue_iff (s := s.modPers fun p => { p with deadlineMs := bits v.toNat 15 0 }) ha).mp hd).2
    exact absurd hn (Nat.not_lt.mpr this)
  · obtain ⟨-, hk, he, -⟩ := s.deadlineRuns_iff.mp hr
    have hd : (s.modPers fun p => { p with deadlineMs := bits v.toNat 15 0 }).deadlineDue = true :=
      (State.deadlineDue_iff (s := s.modPers fun p => { p with deadlineMs := bits v.toNat 15 0 }) ha).mpr ⟨hr, hn⟩
    exact ⟨_, (execPersDeadlineWrite_eq hs hp h1 h2 he (by omega)).trans (congrArg _ (if_pos hd)), State.missDeadline_pers _,
      State.missDeadline_nextSeq _⟩
  · exact ⟨_, if_pos ((State.deadlineDue_iff ha).mpr ⟨hr, hn⟩), State.missDeadline_pers _, State.missDeadline_nextSeq _⟩
  · refine if_neg fun hd => ?_
    have := ((State.deadlineDue_iff ha).mp hd).2
    omega
  · exact if_neg (by rw [State.deadlineDue_of_not_runs hr]; exact Bool.false_ne_true)
  · show execShellTimerExpiry k n taken s = _
    simp only [execShellTimerExpiry, hx, hy]
    refine if_pos ?_
    rcases h with h | h <;> simp [h]
  · have hk : k < s.pers.slices.length := (List.getElem?_eq_some_iff.mp hx).1
    have hn : n < x.timers.length := (List.getElem?_eq_some_iff.mp hy).1
    refine ⟨_, _, execShellTimerExpiry_of_due hx hy h1 h2, List.getElem?_set_self hk, List.getElem?_set_self hn, fun j hj => List.getElem?_set_ne hj.symm,
      fun hg => ⟨?_, ?_⟩, fun hg => ⟨?_, ?_⟩, fun j hj => List.getElem?_set_ne hj.symm, rfl⟩
    · simp [hg]
    · simp [hg]
    · simp [hg]
    · simp [hg]
end

section
/-!
PROOFS. Chapter 04: the configuration scrub (O18).
-/

namespace Sys2Proof.Machine

open Sys2Proof.Safety

/-! ### Frames of a slice -/

theorem lookup_filter_true {α : Type} {p : Nat × α → Bool} {l : List (Nat × α)} {c : Nat} (h : ∀ v, p (c, v) = true) :
    (l.filter p).lookup c = l.lookup c := by
  induction l with
  | nil => rfl
  | cons x l ih =>
    obtain ⟨a, v⟩ := x
    by_cases ha : c = a
    · subst ha
      rw [List.filter_cons_of_pos (h v), List.lookup_cons_self, List.lookup_cons_self]
    · have hb : (c == a) = false := by simpa using ha
      by_cases hp : p (a, v) = true
      · rw [List.filter_cons_of_pos hp, List.lookup_cons, List.lookup_cons, hb, ih]
      · rw [List.filter_cons_of_neg hp, List.lookup_cons, hb, ih]
theorem lookup_filter_false {α : Type} {p : Nat × α → Bool} {l : List (Nat × α)} {c : Nat} (h : ∀ v, p (c, v) = false) :
    (l.filter p).lookup c = none := by
  induction l with
  | nil => rfl
  | cons x l ih =>
    obtain ⟨a, v⟩ := x
    by_cases hp : p (a, v) = true
    · have hb : (c == a) = false := by
        rw [beq_eq_false_iff_ne]
        rintro rfl
        rw [h v] at hp; cases hp
      rw [List.filter_cons_of_pos hp, List.lookup_cons, hb, ih]
    · rw [List.filter_cons_of_neg hp, ih]
theorem lookup_eq_none_of_notMem {α : Type} {l : List (Nat × α)} {c : Nat} (h : c ∉ l.map (·.1)) : l.lookup c = none := by
  rw [List.lookup_eq_none_iff]
  intro x hx
  simpa using fun e => h (List.mem_map.mpr ⟨x, hx, e.symm⟩)

/-- The entry of one key of a list in key order, replaced or left out. -/
theorem lookup_replaced {α : Type} (l : List (Nat × α)) (m : Option α) (f g : Nat) :
    (l.filter (fun y => decide (y.1 < f)) ++ (m.map (Prod.mk f)).toList ++ l.filter (fun y => decide (f < y.1))).lookup g
      = if g = f then m else l.lookup g := by
  rw [List.lookup_append, List.lookup_append]
  rcases lt_trichotomy g f with h | rfl | h
  · have hm : ((m.map (Prod.mk f)).toList).lookup g = none := by cases m <;> simp [h.ne]
    rw [lookup_filter_true (fun _ => by simpa using h), hm, lookup_filter_false (fun _ => by simpa using h.le), if_neg h.ne]
    simp
  · rw [lookup_filter_false (by simp), lookup_filter_false (by simp), if_pos rfl]
    cases m <;> simp
  · have hm : ((m.map (Prod.mk f)).toList).lookup g = none := by cases m <;> simp [h.ne']
    rw [lookup_filter_false (fun _ => by simpa using h.le), hm, lookup_filter_true (fun _ => by simpa using h), if_neg h.ne']
    simp
theorem Slice.frame_putFrame (x : Slice) (f g : Nat) (v : Frame) : (x.putFrame f v).frame g = if g = f then v else x.frame g := by
  have h := lookup_replaced x.frames (if v = 0 then none else some v) f g
  have hm : ((if v = 0 then none else some v).map (Prod.mk f)).toList = if v = 0 then [] else [(f, v)] := by split <;> rfl
  rw [hm] at h
  unfold Slice.putFrame Slice.frame
  rw [h]
  split
  · split
    · next hv => exact hv.symm
    · rfl
  · rfl
theorem Slice.differences_eq_zero {x : Slice} {f : Nat} (h : (x.differences f).1 = 0) : x.frame f = x.goldenFrame f := by
  simp only [Slice.differences, List.length_eq_zero_iff, List.filter_eq_nil_iff, List.mem_range, Bool.not_eq_true] at h
  refine BitVec.eq_of_getLsbD_eq fun b hb => ?_
  have hx := h b hb
  rw [BitVec.getLsbD_xor] at hx
  revert hx
  generalize (x.frame f).getLsbD b = p
  generalize (x.goldenFrame f).getLsbD b = q
  revert p q
  decide
theorem Slice.checks_of_none {x : Slice} {f : Nat} (h : x.checkFlips.lookup f = none) : x.checks f = frameChecks (x.goldenFrame f) := by
  unfold Slice.checks
  rw [h]
  exact BitVec.xor_zero
theorem Slice.checkFlips_writeFrame (x : Slice) (f g : Nat) (v : Frame) :
    (x.writeFrame f v).checkFlips.lookup g = if g = f then none else x.checkFlips.lookup g := by
  split
  · next h => exact lookup_filter_false (by simp [h])
  · next h => exact lookup_filter_true (by simp [h])
theorem Slice.goldenFrame_writeFrame (x : Slice) (f g : Nat) (v : Frame) : (x.writeFrame f v).goldenFrame g = x.goldenFrame g := rfl
theorem Slice.frame_writeFrame (x : Slice) (f g : Nat) (v : Frame) : (x.writeFrame f v).frame g = if g = f then v else x.frame g :=
  x.frame_putFrame f g v
/-- A frame is scrubbed: it equals its golden copy, with the check bits that belong to it. -/
def Slice.Clean (x : Slice) (f : Nat) : Prop := x.frame f = x.goldenFrame f ∧ x.checks f = frameChecks (x.goldenFrame f)

/-- What the scrub does to one frame of a slice. -/
def Slice.scrub (x : Slice) (f : Nat) : Slice :=
  if (x.differences f).1 = 0 && (x.checkFlips.lookup f).isNone then x else x.writeFrame f (x.goldenFrame f)

theorem Slice.scrub_golden (x : Slice) (f : Nat) : (x.scrub f).golden = x.golden := ite_keep Slice.golden rfl rfl
theorem Slice.scrub_clockGated (x : Slice) (f : Nat) : (x.scrub f).clockGated = x.clockGated := ite_keep Slice.clockGated rfl rfl
theorem Slice.scrub_clean (x : Slice) (f : Nat) : (x.scrub f).Clean f := by
  unfold Slice.scrub
  split
  · next h =>
    simp only [Bool.and_eq_true, decide_eq_true_eq, Option.isNone_iff_eq_none] at h
    exact ⟨Slice.differences_eq_zero h.1, Slice.checks_of_none h.2⟩
  · exact ⟨by rw [Slice.frame_writeFrame, if_pos rfl, Slice.goldenFrame_writeFrame],
      Slice.checks_of_none (by rw [Slice.checkFlips_writeFrame, if_pos rfl])⟩
theorem Slice.scrub_clean_of_clean {x : Slice} {g : Nat} (h : x.Clean g) (f : Nat) : (x.scrub f).Clean g := by
  by_cases hg : g = f
  · rw [hg]
    exact x.scrub_clean f
  · unfold Slice.scrub
    split
    · exact h
    · obtain ⟨h1, h2⟩ := h
      refine ⟨by rw [Slice.frame_writeFrame, if_neg hg, Slice.goldenFrame_writeFrame, h1], ?_⟩
      unfold Slice.checks at h2 ⊢
      rw [Slice.checkFlips_writeFrame, if_neg hg, Slice.goldenFrame_writeFrame, h2]
/-- A frame that neither list names reads 0, and needs no scrub. -/
theorem Slice.clean_of_notMem {x : Slice} {f : Nat} (h : f ∉ x.frames.map (·.1) ++ x.golden.map (·.1) ++ x.checkFlips.map (·.1)) : x.Clean f := by
  simp only [List.mem_append, not_or] at h
  obtain ⟨⟨h1, h2⟩, h3⟩ := h
  refine ⟨?_, Slice.checks_of_none (lookup_eq_none_of_notMem h3)⟩
  rw [Slice.frame, Slice.goldenFrame, lookup_eq_none_of_notMem h1, lookup_eq_none_of_notMem h2]
theorem Slice.scrubs_clean {fs : List Nat} {x : Slice} {f : Nat} (h : f ∈ fs ∨ x.Clean f) : (fs.foldl Slice.scrub x).Clean f := by
  induction fs generalizing x with
  | nil => simpa using h
  | cons g fs ih =>
    rw [List.foldl_cons]
    apply ih
    rcases h with h | h
    · rcases List.mem_cons.mp h with rfl | h
      · exact .inr (x.scrub_clean _)
      · exact .inl h
    · exact .inr (Slice.scrub_clean_of_clean h g)

/-! ### The pass over the slices -/

theorem State.taintSlice_slices (s : State) (k w a b : Nat) : (s.taintSlice k w a b).pers.slices = s.pers.slices := by
  unfold State.taintSlice
  extract_lets scans words body s1 mark s2
  exact (congrArg (·.pers.slices) (s2.log_frame 0xC4 body _ _ _) :)
theorem State.taintSlice_scrubPasses (s : State) (k w a b : Nat) : (s.taintSlice k w a b).pers.scrubPasses = s.pers.scrubPasses := by
  unfold State.taintSlice
  extract_lets scans words body s1 mark s2
  exact (congrArg (·.pers.scrubPasses) (s2.log_frame 0xC4 body _ _ _) :)
theorem State.scrubFrame_scrubPasses (s : State) (k f : Nat) : (s.scrubFrame k f).pers.scrubPasses = s.pers.scrubPasses := by
  unfold State.scrubFrame
  extract_lets x d s1
  split
  · rfl
  split
  · rfl
  · exact s1.taintSlice_scrubPasses _ _ _ _
theorem State.scrubFrame_slices_ne (s : State) {k j : Nat} (f : Nat) (h : j ≠ k) :
    (s.scrubFrame k f).pers.slices[j]? = s.pers.slices[j]? := by
  unfold State.scrubFrame
  extract_lets x d s1
  have h1 : s1.pers.slices[j]? = s.pers.slices[j]? := List.getElem?_modify_ne _ _ (Ne.symm h)
  split
  · rfl
  split
  · exact h1
  · rw [State.taintSlice_slices, h1]
theorem State.scrubFrame_slices_self {s : State} {k : Nat} {x : Slice} (f : Nat) (h : s.pers.slices[k]? = some x) :
    (s.scrubFrame k f).pers.slices[k]? = some (x.scrub f) := by
  have hx : s.pers.slices.getD k {} = x := by rw [List.getD_eq_getElem?_getD, h]; rfl
  unfold State.scrubFrame
  rw [hx]
  extract_lets x' d s1
  have h1 : s1.pers.slices[k]? = some (x.writeFrame f (x.goldenFrame f)) := by
    refine (List.getElem?_modify_eq _ _ _).trans ?_
    rw [h]
    rfl
  unfold Slice.scrub
  split
  · exact h
  · split
    · exact h1
    · rw [State.taintSlice_slices, h1]
theorem State.scrubFrames_slices_ne {k j : Nat} (fs : List Nat) (s : State) (h : j ≠ k) :
    (fs.foldl (fun s f => s.scrubFrame k f) s).pers.slices[j]? = s.pers.slices[j]? :=
  foldl_keep (fun s : State => s.pers.slices[j]?) _ (fun s f => s.scrubFrame_slices_ne f h) fs s
theorem State.scrubFrames_slices_self {k : Nat} (fs : List Nat) {s : State} {x : Slice} (h : s.pers.slices[k]? = some x) :
    (fs.foldl (fun s f => s.scrubFrame k f) s).pers.slices[k]? = some (fs.foldl Slice.scrub x) := by
  induction fs generalizing s x with
  | nil => exact h
  | cons f fs ih =>
    rw [List.foldl_cons, List.foldl_cons]
    exact ih (State.scrubFrame_slices_self f h)

/-- The frames that a slice's scrub visits. -/
def Slice.visited (x : Slice) : List Nat :=
  (x.frames.map (·.1) ++ x.golden.map (·.1) ++ x.checkFlips.map (·.1)).eraseDups.filter scrubbed
theorem Slice.mem_visited (x : Slice) {f : Nat} (hf : scrubbed f = true) : f ∈ x.visited ∨ x.Clean f := by
  by_cases h : f ∈ x.frames.map (·.1) ++ x.golden.map (·.1) ++ x.checkFlips.map (·.1)
  · exact .inl (List.mem_filter.mpr ⟨List.mem_eraseDups.mpr h, hf⟩)
  · exact .inr (Slice.clean_of_notMem h)
/-- The scrub of one slice. -/
def State.scrubSlice (s : State) (k : Nat) : State := (s.pers.slices.getD k {}).visited.foldl (fun s f => s.scrubFrame k f) s

theorem State.scrubSlice_ne (s : State) {k j : Nat} (h : j ≠ k) : (s.scrubSlice k).pers.slices[j]? = s.pers.slices[j]? :=
  State.scrubFrames_slices_ne _ s h
/-- A slice that has been scrubbed: its golden copy is as before, and every frame that the scrub takes is clean. -/
theorem State.scrubSlice_self {s : State} {k : Nat} {x : Slice} (h : s.pers.slices[k]? = some x) :
    ∃ y, (s.scrubSlice k).pers.slices[k]? = some y ∧ y.golden = x.golden ∧ ∀ f, scrubbed f = true → y.Clean f := by
  have hx : s.pers.slices.getD k {} = x := by rw [List.getD_eq_getElem?_getD, h]; rfl
  refine ⟨x.visited.foldl Slice.scrub x, ?_, foldl_keep Slice.golden _ Slice.scrub_golden _ _, fun f hf => Slice.scrubs_clean (x.mem_visited hf)⟩
  unfold State.scrubSlice
  rw [hx]
  exact State.scrubFrames_slices_self _ h

/-- The pass over a list of slices, those left out that are being exchanged. -/
def State.scrubSlices (s : State) (gated : Nat → Bool) (ks : List Nat) : State :=
  ks.foldl (fun s k => if gated k then s else s.scrubSlice k) s

theorem State.scrubSlices_notMem (s : State) (gated : Nat → Bool) {ks : List Nat} {k : Nat} (h : k ∉ ks) :
    (s.scrubSlices gated ks).pers.slices[k]? = s.pers.slices[k]? := by
  unfold State.scrubSlices
  induction ks generalizing s with
  | nil => rfl
  | cons j ks ih =>
    rw [List.mem_cons, not_or] at h
    rw [List.foldl_cons, ih _ h.2]
    exact ite_keep (fun s : State => s.pers.slices[k]?) rfl (s.scrubSlice_ne h.1)
theorem State.scrubSlices_mem {s : State} {gated : Nat → Bool} {ks : List Nat} {k : Nat} {x : Slice} (hn : ks.Nodup) (hk : k ∈ ks)
    (h : s.pers.slices[k]? = some x) : ∃ y, (s.scrubSlices gated ks).pers.slices[k]? = some y ∧ y.golden = x.golden
      ∧ (gated k = false → ∀ f, scrubbed f = true → y.Clean f) := by
  induction ks generalizing s with
  | nil => cases hk
  | cons j ks ih =>
    obtain ⟨hj, hn⟩ := List.nodup_cons.mp hn
    have hc : s.scrubSlices gated (j :: ks) = (if gated j then s else s.scrubSlice j).scrubSlices gated ks := rfl
    rw [hc]
    by_cases e : k = j
    · subst e
      rw [State.scrubSlices_notMem _ _ hj]
      by_cases hg : gated k = true
      · rw [if_pos hg]
        exact ⟨x, h, rfl, fun h => absurd (hg.symm.trans h) (by decide)⟩
      · rw [if_neg hg]
        obtain ⟨y, h1, h2, h3⟩ := State.scrubSlice_self h
        exact ⟨y, h1, h2, fun _ => h3⟩
    · refine ih hn (List.mem_of_ne_of_mem e hk) ?_
      exact (ite_keep (fun s : State => s.pers.slices[k]?) rfl (s.scrubSlice_ne e)).trans h

theorem State.scrubSlices_scrubPasses (s : State) (gated : Nat → Bool) (ks : List Nat) :
    (s.scrubSlices gated ks).pers.scrubPasses = s.pers.scrubPasses :=
  foldl_keep (fun s : State => s.pers.scrubPasses) _ (fun s k => ite_keep (fun s : State => s.pers.scrubPasses) rfl
    (foldl_keep (fun s : State => s.pers.scrubPasses) _ (fun s f => s.scrubFrame_scrubPasses k f) _ s)) ks s

/-! ### Upsets -/

/-- What an upset leaves of a slice. -/
theorem Slice.upset_keeps (x : Slice) (f b : Nat) : (x.upset f b).golden = x.golden ∧ (x.upset f b).clockGated = x.clockGated := by
  unfold Slice.upset
  split <;> exact ⟨rfl, rfl⟩
/-- Upsets of a module's slices. -/
def State.upsets (s : State) (us : List (Nat × Nat × Nat)) : State :=
  us.foldl (fun s u => s.modPers fun p => { p with slices := p.slices.modify u.1 fun x => x.upset u.2.1 u.2.2 }) s
theorem State.upsets_slices {s : State} (us : List (Nat × Nat × Nat)) {k : Nat} {x : Slice} (h : s.pers.slices[k]? = some x) :
    ∃ y, (s.upsets us).pers.slices[k]? = some y ∧ y.golden = x.golden := by
  unfold State.upsets
  induction us generalizing s x with
  | nil => exact ⟨x, h, rfl⟩
  | cons u us ih =>
    rw [List.foldl_cons]
    have h1 : (s.modPers fun p => { p with slices := p.slices.modify u.1 fun x => x.upset u.2.1 u.2.2 }).pers.slices[k]?
        = some (if u.1 = k then x.upset u.2.1 u.2.2 else x) := by
      refine (List.getElem?_modify _ _ _ _).trans ?_
      rw [h]
      rfl
    obtain ⟨y, hy, hg⟩ := ih h1
    refine ⟨y, hy, hg.trans ?_⟩
    split
    · exact (x.upset_keeps _ _).1
    · rfl

end Sys2Proof.Machine

open Sys2Proof Sys2Proof.Machine Sys2Proof.Safety

/-- Settles O18: the pass visits every frame of a slice that any of its lists names, and leaves each it visits clean. -/
theorem scrubRestoresFrames : Obligations.ScrubRestoresFrames := by
  unfold Obligations.ScrubRestoresFrames
  intro s upsets hp hs hl
  let gated (k : Nat) : Bool := (s.pers.slices.getD k {}).clockGated
  let live := upsets.filter fun u => decide (u.1 < 32) && scrubbed u.2.1 && decide (u.2.2 < 4608) && !gated u.1
  let u := (s.upsets live).scrubSlices gated (List.range 32)
  have hx : exec (.configScrubPass upsets) s = .next (({ u with rasp := u.rasp.zipIdx.map fun (r : RaspUnit × Nat) => if gated r.2 then r.1 else { r.1 with passedBy := [] } }).modPers
    fun p => { p with scrubPasses := satAdd32 p.scrubPasses 1 }) :=
    if_neg (by simp [hp, State.engines, hs])
  refine ⟨_, hx, ?_, fun k hk => ?_⟩
  · show satAdd32 u.pers.scrubPasses 1 = _
    rw [State.scrubSlices_scrubPasses]
    exact congrArg (satAdd32 · 1) (foldl_keep (fun s : State => s.pers.scrubPasses) _ (fun _ _ => by rfl) live s)
  · have hx : s.pers.slices[k]? = some s.pers.slices[k] := List.getElem?_eq_getElem (hl ▸ hk)
    obtain ⟨x1, h1, g1⟩ := State.upsets_slices live hx
    obtain ⟨y, h2, g2, hc⟩ := State.scrubSlices_mem (gated := gated) List.nodup_range (List.mem_range.mpr hk) h1
    refine ⟨_, y, hx, h2, g2.trans g1, fun hg f hf => hc ?_ f hf⟩
    show (s.pers.slices.getD k {}).clockGated = false
    rw [List.getD_eq_getElem?_getD, hx]
    exact hg
end

section
/-!
PROOFS. Chapter 04: EXCHANGE_REGION (O14).
-/

namespace Sys2Proof.Machine

open Sys2Proof.Safety

/-! ### What an idle step does apart from the exchange -/

/-- The state without the PEER block. -/
def State.sansPeer (s : State) : State := { s with peer := {}, free := 0 }

theorem State.transmit_sansPeer (s : State) (port : Nat) (f : PeerFrame) : (s.transmit port f).sansPeer = s.sansPeer := rfl
theorem State.modPeer_sansPeer (s : State) (f : Peer → Peer) : (s.modPeer f).sansPeer = s.sansPeer := rfl
theorem State.relayNow_sansPeer (s : State) (port : Nat) (f : PeerFrame) : (s.relayNow port f).sansPeer = s.sansPeer := by
  unfold State.relayNow
  split
  · rfl
  · exact (State.modPeer_sansPeer _ _).trans (State.transmit_sansPeer _ _ _)
theorem State.drainIngress_sansPeer (s : State) : s.drainIngress.sansPeer = s.sansPeer := by
  unfold State.drainIngress
  refine foldl_keep State.sansPeer _ (fun s p => ?_) _ _
  extract_lets l
  split
  · rfl
  · exact (foldl_keep State.sansPeer _ (fun s f => s.relayNow_sansPeer p f) _ _ :)

/-- Completions come, and none is taken back. -/
def State.Appends (s t : State) : Prop := ∃ l, t.pcie.completions = s.pcie.completions ++ l

theorem State.Appends.refl (s : State) : s.Appends s := ⟨[], (List.append_nil _).symm⟩
theorem State.Appends.trans {s t u : State} (h : s.Appends t) (k : t.Appends u) : s.Appends u := by
  obtain ⟨l, hl⟩ := h
  obtain ⟨m, hm⟩ := k
  exact ⟨l ++ m, by rw [hm, hl, List.append_assoc]⟩
theorem State.Appends.ends {s t u : State} (h : t.Appends u) {r : CmdRef} {st : Status} {a b : Nat} (k : EndsRef s t r st a b) :
    EndsRef s u r st a b := by
  obtain ⟨l, hl⟩ := h
  obtain ⟨m, hm, hr⟩ := k
  exact ⟨m ++ l, by rw [hl, hm, List.append_assoc], List.mem_append_left _ hr⟩
theorem State.complete_appends (s : State) (r : CmdRef) (st : Status) (a b : Nat) : s.Appends (s.complete r st a b) := by
  unfold State.complete
  extract_lets held c ord s1 s2
  split
  · exact ⟨[c], (State.post_spec s2 _).2.1⟩
  · exact .refl s
/-- A fold of steps of a transitive relation is one. -/
theorem foldl_rel {σ α : Type} {R : σ → σ → Prop} (hr : ∀ s, R s s) (ht : ∀ {s t u}, R s t → R t u → R s u) (f : σ → α → σ)
    (h : ∀ s a, R s (f s a)) (l : List α) (s : σ) : R s (l.foldl f s) := by
  induction l generalizing s with
  | nil => exact hr s
  | cons a l ih => exact ht (h s a) (ih _)
/-- Completions may come, and the personality is as before. -/
def State.Sweeps (s t : State) : Prop := s.Appends t ∧ t.pers = s.pers

theorem State.Sweeps.refl (s : State) : s.Sweeps s := ⟨.refl s, rfl⟩
theorem State.Sweeps.trans {s t u : State} (h : s.Sweeps t) (k : t.Sweeps u) : s.Sweeps u := ⟨h.1.trans k.1, k.2.trans h.2⟩
theorem State.begin_complete_sweeps {s t : State} {c : Cmd} (h : s.begin c = some t) (st : Status) : s.Sweeps (t.complete c.ref st) := by
  have ht : s.Appends t := ⟨[], by rw [State.begin_completions h, List.append_nil]⟩
  have hp : (t.complete c.ref st).pers = t.pers := t.complete_pers c.ref st 0 0
  exact ⟨ht.trans (t.complete_appends c.ref st 0 0), hp.trans (State.begin_pers h)⟩
theorem State.unknownEnds_sweeps (s : State) (c : Cmd) : s.Sweeps (s.unknownEnds c) := by
  unfold State.unknownEnds
  split
  · exact .refl s
  · next t h => exact State.begin_complete_sweeps h _
theorem State.sweepUnknown_sweeps (s : State) : s.Sweeps s.sweepUnknown := by
  unfold State.sweepUnknown
  refine foldl_rel (R := State.Sweeps) State.Sweeps.refl State.Sweeps.trans _ (fun s fn => ?_) _ _
  apply foldl_rel (R := State.Sweeps) State.Sweeps.refl State.Sweeps.trans
  intro t o
  exact t.unknownEnds_sweeps o.cmd
/-- Logic acts on its slice's shell alone. -/
theorem State.logicActs_keeps (s : State) (k : Nat) : (s.logicActs k).pcie = s.pcie
    ∧ { (s.logicActs k).pers with slices := s.pers.slices } = s.pers := by
  unfold State.logicActs
  split
  · exact ⟨rfl, rfl⟩
  · split <;> exact ⟨rfl, rfl⟩

/-! ### The end of an exchange -/

theorem State.exchangeEnd_pers (s : State) (r : CmdRef) (st : Status) (reason step detail : Nat) (build : Id128) :
    (s.exchangeEnd r st reason step detail build).pers
      = { s.pers with resStatus := st.sc, resReason := reason, resStep := step, resOpcode := 0xC5 } := by
  unfold State.exchangeEnd
  rw [State.persEnd_pers, State.persLog_pers]
theorem State.exchangeEnd_nextSeq (s : State) (r : CmdRef) (st : Status) (reason step detail : Nat) (build : Id128) :
    (s.exchangeEnd r st reason step detail build).logs.c8.nextSeq = s.logs.c8.nextSeq + 1 := by
  unfold State.exchangeEnd
  rw [State.persEnd_logs, State.persLog_c8_nextSeq]
theorem State.sharesEnd_of_due {s : State} {r : CmdRef} {x since : Nat} (hj : s.pers.job = .shares r x since) (hn : since + 2 ≤ s.now)
    (hf : Firm s r) : EndsRef s s.sharesEnd r .success 0 0 ∧ s.sharesEnd.pers.job = .none ∧ s.sharesEnd.pers.stage = .empty
      ∧ s.sharesEnd.pers.active = s.pers.active := by
  obtain ⟨v, hv⟩ : ∃ v, v = (s.discardStage .empty).modPers fun p => { p with
      sharesBuild := p.sharesBuild.set x s.stagedBuild, job := .none } := ⟨_, rfl⟩
  have e : s.sharesEnd = v.exchangeEnd r .success 0 0 x s.stagedBuild := by
    unfold State.sharesEnd
    rw [hj, hv]
    exact if_neg (by omega)
  have hp : v.pers.job = .none ∧ v.pers.stage = .empty ∧ v.pers.active = s.pers.active := by rw [hv]; exact ⟨rfl, rfl, rfl⟩
  have hs : s.Spares r v := .of_pcie (by rw [hv]; rfl) (by rw [hv]; rfl)
  clear hv
  rw [e, State.exchangeEnd_pers]
  exact ⟨(hs.trans (v.persLog_spares r _)).persEnd hf 0xC5 .success 0 0, hp⟩
/-- An idle step at which a shares exchange is due. -/
theorem tick_of_shares_due {s : State} {r : CmdRef} {x since : Nat} (hj : s.pers.job = .shares r x since) (hf : Firm s r)
    (hn : since + 2 ≤ s.now) : EndsRef s (tick s) r .success 0 0 ∧ (tick s).pers.job = .none ∧ (tick s).pers.stage = .empty
      ∧ (tick s).pers.active = s.pers.active := by
  have hon : s.power.stage = .on := hf.1.1
  unfold tick
  rw [if_neg (by simp [hon])]
  extract_lets s1 s2 s3
  have hk : s1.sansPeer = s.sansPeer := ite_keep State.sansPeer s.drainIngress_sansPeer rfl
  have hp1 : s1.pers = s.pers := (congrArg State.pers hk :)
  have hc1 : s1.pcie = s.pcie := (congrArg State.pcie hk :)
  have hw1 : s1.power = s.power := (congrArg State.power hk :)
  have hn1 : s1.now = s.now := (congrArg State.now hk :)
  clear_value s1
  have hf1 : Firm s1 r := (State.Spares.of_pcie hw1 hc1 hf).1
  obtain ⟨he, hjob, hst, hact⟩ := State.sharesEnd_of_due (hp1 ▸ hj) (hn1 ▸ hn) hf1
  have e2 : s2 = s1.sharesEnd.sweepUnknown := if_pos (by rw [hw1, hon])
  obtain ⟨ha2, hp2⟩ := s1.sharesEnd.sweepUnknown_sweeps
  rw [← e2] at ha2 hp2
  have h3 : s3.pcie = s2.pcie ∧ (s3.pers.job, s3.pers.stage, s3.pers.active) = (s2.pers.job, s2.pers.stage, s2.pers.active) := by
    constructor
    · exact ite_keep State.pcie (foldl_keep State.pcie _ (fun s k => (s.logicActs_keeps k).1) _ _) rfl
    · refine ite_keep (fun s : State => (s.pers.job, s.pers.stage, s.pers.active)) ?_ rfl
      refine foldl_keep (fun s : State => (s.pers.job, s.pers.stage, s.pers.active)) _ (fun s k => ?_) _ _
      exact (congrArg (fun p : Pers => (p.job, p.stage, p.active)) (s.logicActs_keeps k).2 :)
  obtain ⟨hc3, h3⟩ := h3
  simp only [Prod.mk.injEq] at h3
  obtain ⟨j3, t3, a3⟩ := h3
  refine ⟨?_, j3.trans (by rw [hp2, hjob]), t3.trans (by rw [hp2, hst]), a3.trans (by rw [hp2, hact, hp1])⟩
  have h2 := ha2.ends he
  obtain ⟨l, hl, hm⟩ := h2
  exact ⟨l, by rw [← hc1]; exact (congrArg Pcie.completions hc3).trans hl, hm⟩

/-! ### The end of a fabric exchange -/

theorem getElem?_map_zipIdx {α β : Type} (l : List α) (f : α × Nat → β) (k : Nat) : (l.zipIdx.map f)[k]? = l[k]?.map fun x => f (x, k) := by
  rw [List.getElem?_map, List.getElem?_zipIdx]
  cases l[k]? <;> simp
/-- What the end of an exchange of group `g` makes of slice `k`. -/
def exchangedSlice (im : HelolImage) (g k : Nat) (x : Slice) : Slice :=
  if k / 8 = g then ((x.load (im.slices.find? fun y => y.slice == k)).release im.inheritEdges).1 else x

theorem contains_group {g k : Nat} : ((List.range 8).map fun j => 8 * g + j).contains k = true ↔ k / 8 = g := by
  rw [List.contains_iff_mem, List.mem_map]
  constructor
  · rintro ⟨j, hj, rfl⟩
    have := List.mem_range.mp hj
    omega
  · exact fun h => ⟨k % 8, List.mem_range.mpr (by omega), by omega⟩
/-- A fabric exchange whose frames all verify. -/
theorem State.exchangeFabricEnd_pers (s : State) (r : CmdRef) (g : Nat) :
    (s.exchangeFabricEnd r g []).pers.job = .none ∧ (s.exchangeFabricEnd r g []).pers.stage = .empty
      ∧ (s.exchangeFabricEnd r g []).pers.active = s.pers.active
      ∧ ∀ k, (s.exchangeFabricEnd r g []).pers.slices[k]? = s.pers.slices[k]?.map (exchangedSlice (imageOf s.stagedReader) g k) := by
  have hb (ks : List Nat) : badIn ks [] = [] := rfl
  unfold State.exchangeFabricEnd
  extract_lets im ks bad s1 out mask s2 s3
  have hbad : bad = [] := hb ks
  rw [if_pos (by rw [hbad]; rfl), State.exchangeEnd_pers]
  have h1 (k : Nat) : s1.pers.slices[k]? = s.pers.slices[k]?.map fun x => if k / 8 = g then x.load (im.slices.find? fun y => y.slice == k) else x := by
    have e : s1.pers.slices = s.pers.slices.zipIdx.map fun (x : Slice × Nat) =>
        if ks.contains x.2 then x.1.load (im.slices.find? fun y => y.slice == x.2) else x.1 := by
      simp only [s1, hbad]
      rfl
    rw [e, getElem?_map_zipIdx]
    congr 1
    funext x
    simp only [ks, contains_group]
  have ha : s1.pers.active = s.pers.active := by
    simp only [s1, hbad]
    rfl
  refine ⟨rfl, rfl, ha, fun k => ?_⟩
  show (out.map (·.1))[k]? = _
  simp only [out, List.map_map]
  rw [getElem?_map_zipIdx, h1, Option.map_map]
  congr 1
  funext x
  unfold exchangedSlice
  by_cases hk : k / 8 = g <;> simp [hk, im]

end Sys2Proof.Machine

open Sys2Proof Sys2Proof.Machine Sys2Proof.Safety

/-- Settles O14: a start that passes its checks, the idle step that ends a shares exchange, and the ends of a fabric exchange. -/
theorem exchangeRegion : Obligations.ExchangeRegion := by
  unfold Obligations.ExchangeRegion
  refine ⟨fun s t c h hj hl hf => ?_, fun s r x since hp hj hh ha hn => ?_, fun s r g hj hl => ?_, fun s r g limit since hj => ⟨fun hg => ?_, fun hg => ?_, fun hn => ?_, fun hn hd => ?_⟩⟩
  · have hx : exec (.exchangeRegion c) s = .next (if hKind t.stagedReader = kindShares then t.exchangeShares c
        else t.modPers fun p => { p with
          stage := .inUse
          job := .drain c.ref (hTarget t.stagedReader) (if bits c.cdw10.toNat 15 0 = 0 then 100 else bits c.cdw10.toNat 15 0) t.now }) := by
      refine (State.command_of_starts h _).trans (congrArg _ ?_)
      dsimp only
      rw [if_neg (not_not.mpr hj), if_neg (by omega), hf]
    have hpers := State.begin_pers h.1
    have hnow := State.begin_now h.1
    have htens := State.begin_tenants h.1
    have hcomp := State.begin_completions h.1
    refine ⟨fun hk => ?_, fun hk => ?_⟩
    · rw [if_neg (by rw [hk]; decide)] at hx
      exact ⟨_, hx, hcomp, rfl, by rw [← hpers]; rfl, by rw [← hnow]; rfl⟩
    · rw [if_pos hk] at hx
      refine ⟨_, hx, hcomp, rfl, by rw [← hnow]; rfl, fun q hq => ?_, by rw [← hpers]; rfl, htens⟩
      obtain ⟨q', -, rfl⟩ := List.mem_map.mp hq
      rw [List.getD_eq_getElem?_getD, List.getElem?_set]
      split
      · split <;> rfl
      · contradiction
  · have hx : step s = .next (tick s) := by unfold step; rw [hp]
    exact ⟨_, hx, tick_of_shares_due hj ⟨hh, ha⟩ hn⟩
  · have hx : exec (.configWriteDone []) s = .next (s.exchangeFabricEnd r g []) := by
      show execConfigWriteDone [] s = _
      simp only [execConfigWriteDone, hj]
    obtain ⟨e1, e2, e3, e4⟩ := s.exchangeFabricEnd_pers r g
    refine ⟨_, hx, e1, e2, e3, fun k x hk => ⟨_, (e4 k).trans (by rw [hk]; rfl), fun hg => if_neg hg, fun hg => ?_⟩⟩
    simp only [if_pos hg]
    refine ⟨rfl, ?_⟩
    cases (imageOf s.stagedReader).slices.find? fun z => z.slice == k with
    | none => exact ⟨rfl, rfl⟩
    | some z => exact ⟨rfl, rfl, rfl⟩
  · show execExchangeDrainEnd s = _
    simp only [execExchangeDrainEnd, hj]
    exact if_pos hg
  · have hx : exec .exchangeDrainEnd s = .next (s.modPers fun p => { p with
        job := .writing r g
        slices := p.slices.zipIdx.map fun (x : Slice × Nat) => if x.2 / 8 = g then { x.1 with clockGated := true } else x.1 }) := by
      show execExchangeDrainEnd s = _
      simp only [execExchangeDrainEnd, hj]
      exact if_neg (by simp [hg])
    refine ⟨_, hx, rfl, fun k x hk hg => ?_, fun k hk => ?_⟩
    · have hk' : s.pers.slices[k]?.map (fun x => if k / 8 = g then { x with clockGated := true } else x) = some x :=
        (getElem?_map_zipIdx s.pers.slices _ k).symm.trans hk
      obtain ⟨z, -, rfl⟩ := Option.map_eq_some_iff.mp hk'
      rw [if_pos hg]
    · refine (getElem?_map_zipIdx s.pers.slices _ k).trans ?_
      simp only [if_neg hk, Option.map_id']
  · show execExchangeDrainTimeout s = _
    simp only [execExchangeDrainTimeout, hj]
    exact if_pos hn
  · have hx : exec .exchangeDrainTimeout s = .next ((s.modPers Pers.stageBack).exchangeEnd r .personalityRejected 0x4B 0 g s.stagedBuild) := by
      show execExchangeDrainTimeout s = _
      simp only [execExchangeDrainTimeout, hj]
      exact if_neg (by omega)
    have hb : s.pers.stageBack = { s.pers with stage := .valid, job := .none } := if_neg (by simp [hd])
    refine ⟨_, hx, ?_, ?_, ?_, ?_, State.exchangeEnd_nextSeq _ _ _ _ _ _ _⟩
    all_goals rw [State.exchangeEnd_pers, State.modPers_pers, hb]
end

section
/-!
PROOFS. What the ends of invocations, runs and models leave as it is.
-/

namespace Sys2Proof.Machine

open Sys2Proof.Safety

theorem State.releaseHeld_calm (s : State) (t tag : Nat) : (s.releaseHeld t tag).calm = s.calm := rfl
theorem State.forget_calm (s : State) (t tag : Nat) : (s.forget t tag).calm = s.calm := rfl
theorem State.placeMove_calm {s u : State} {i : Invocation} {o : CmdOrigin} (h : s.placeMove i o = some u) : u.calm = s.calm := by
  unfold State.placeMove at h
  obtain ⟨q, -, rfl⟩ := Option.map_eq_some_iff.mp h
  rfl
theorem State.zeroPoison_calm (s : State) (t : Nat) (b : Buffer) : (s.zeroPoison t b).calm = s.calm := by
  unfold State.zeroPoison
  extract_lets mine bad s1
  exact ite_keep State.calm rfl ((s1.modProt_calm _).trans (s.modBuffer_calm _ _ _))
theorem State.beginRun_calm (s : State) (i : Invocation) : (s.beginRun i).calm = s.calm := by
  unfold State.beginRun
  extract_lets mine others s1
  refine (s1.modInv_calm _ _).trans (foldl_keep State.calm _ (fun u x => ?_) _ _)
  split
  · rfl
  next b hb =>
  extract_lets u1
  have h1 : u1.calm = u.calm := u.zeroPoison_calm _ _
  refine ite_keep State.calm rfl (ite_keep State.calm h1 (ite_keep State.calm ((u1.modBuffer_calm _ _ _).trans h1) ?_))
  exact h1
theorem State.beginRuns_calm (s : State) (l : List Invocation) : (l.foldl (fun (s : State) i => s.beginRun i) s).calm = s.calm :=
  foldl_keep State.calm _ State.beginRun_calm l s
theorem State.pumpHome_calm (s : State) (t m : Nat) : (s.pumpHome t m).calm = s.calm := by
  unfold State.pumpHome
  extract_lets here waiters
  cases waiters with
  | nil => exact ite_keep State.calm rfl rfl
  | cons w ws =>
    dsimp only
    refine ite_keep State.calm rfl (ite_keep State.calm (s.beginRuns_calm _) (ite_keep State.calm rfl ?_))
    refine ite_keep State.calm (State.beginRuns_calm _ _) ?_
    split
    · rfl
    · next h => exact (State.modInv_calm _ _ _).trans ((State.placeMove_calm h).trans (s.modTenant_calm t _))
theorem State.pumpWaiters_calm (s : State) : s.pumpWaiters.calm = s.calm := by
  unfold State.pumpWaiters
  extract_lets s1 waiting
  have h1 : s1.calm = s.calm := by
    refine foldl_keep State.calm _ (fun u i => ?_) _ _
    split
    · rfl
    · next h => exact (State.modInv_calm _ _ _).trans (State.placeMove_calm h)
  exact (foldl_keep State.calm _ (fun u (x : Nat × Nat) => u.pumpHome_calm x.1 x.2) _ _).trans h1
theorem State.closeRun_calm (s : State) (t : Nat) : (s.closeRun t).calm = s.calm :=
  (foldl_keep State.calm _ (fun u (c : Cmd) => u.complete_calm c.ref _ _ _) _ _).trans (s.modTenant_calm t _)
theorem State.endInv_calm (s : State) (i : Invocation) (st : Status) (dw0 : Nat) : (s.endInv i st dw0).calm = s.calm := by
  unfold State.endInv
  extract_lets s1 s2 s3 s4
  have h1 : s1.calm = s.calm := ite_keep State.calm rfl ((State.forget_calm _ _ _).trans (s.releaseHeld_calm _ _))
  have h2 : s2.calm = s1.calm := rfl
  have h3 : s3.calm = s2.calm := ite_keep State.calm rfl (s2.complete_calm _ _ _ _)
  have h4 : s4.calm = s3.calm := s3.pumpHome_calm _ _
  have e : s4.calm = s.calm := h4.trans (h3.trans (h2.trans h1))
  clear_value s4
  refine ite_keep State.calm e ?_
  split
  · exact e
  · exact (State.complete_calm _ _ _ _ _).trans ((State.modTenant_calm _ _ _).trans ((s4.closeRun_calm _).trans e))
theorem State.stopInv_calm (s : State) (i : Invocation) (sc dw0 : Nat) (silent : Bool) : (s.stopInv i sc dw0 silent).calm = s.calm := by
  unfold State.stopInv
  extract_lets cut s1 j s2
  refine ite_keep State.calm rfl ((State.pumpWaiters_calm s2).trans ?_)
  have h1 : s1.calm = s.calm := rfl
  exact ite_keep State.calm (State.pumpHome_calm _ _ _) ((s1.endInv_calm j _ _).trans h1)
theorem State.dropModel_calm (s : State) (t slot : Nat) : (s.dropModel t slot).calm = s.calm := by
  unfold State.dropModel
  split
  · rfl
  next m hm =>
  extract_lets s1 s2
  have h1 : s1.calm = s.calm := by
    refine foldl_keep State.calm _ (fun u h => ?_) _ _
    split
    · exact u.endBuffer_calm _ _
    · rfl
  exact h1
theorem State.resetTenant_calm (s : State) (t : Nat) : (s.resetTenant t).calm = s.calm := by
  unfold State.resetTenant
  extract_lets s1 s2 s3
  have h1 : s1.calm = s.calm := foldl_keep State.calm _ (fun u i => u.stopInv_calm i _ _ _) _ _
  have h2 : s2.calm = s1.calm := rfl
  have h3 : s3.calm = s2.calm := foldl_keep State.calm _ (fun u (m : Model) => u.dropModel_calm t m.slot) _ _
  exact (s3.abandonSession_calm t).trans (h3.trans (h2.trans h1))
theorem State.dropReaders_calm (s : State) (gone : CmdRef → Bool) : (s.dropReaders gone).calm = s.calm := rfl
theorem State.abortAll_calm (s : State) (fn : Nat) : (s.abortAll fn).calm = s.calm := by
  unfold State.abortAll
  extract_lets refs s1 s2 s3
  have h1 : s1.calm = s.calm := foldl_keep State.calm _ (fun u i => u.stopInv_calm i _ _ _) _ _
  have h3 : s3.calm = s1.calm := rfl
  exact (foldl_keep State.calm _ (fun u r => u.complete_calm r _ _ _) _ _).trans (h3.trans h1)

/-! ### The flush of a shutdown -/

theorem State.raiseLog_calm (s : State) (fn page : Nat) : (s.raiseLog fn page).calm = s.calm := s.raise_calm _ _
theorem State.defer_calm (s : State) (fn nsid slba nlb arrival : Nat) : (s.defer fn nsid slba nlb arrival).calm = s.calm := by
  unfold State.defer
  split
  next f s1 hf =>
  have h1 : s1.calm = s.calm := by
    have : s1 = s.newFault.2 := by rw [hf]
    rw [this]
    rfl
  extract_lets seq s2 old full gone kept lostOf lg s3 s4
  have h2 : s2.calm = s1.calm := s1.mediaLog_calm _ _
  have h3 : s3.calm = s2.calm := rfl
  have h4 : s4.calm = s3.calm := s3.raiseLog_calm _ _
  have e := h4.trans (h3.trans (h2.trans h1))
  exact ite_keep State.calm e ((s4.raiseLog_calm _ _).trans e)
theorem State.deferAll_calm (s : State) (lost : List (Nat × Nat × Nat × Nat)) : (s.deferAll lost).calm = s.calm := by
  unfold State.deferAll
  refine foldl_keep State.calm _ (fun u n => ?_) _ _
  exact foldl_keep State.calm _ (fun v r => v.defer_calm _ _ _ _ _) _ _
/-- A flush saves the timestamp. -/
theorem State.flushNow_spec (s : State) : ∃ u : State, s.flushNow = u.modNor (fun n => { n with savedTime := u.now }) ∧ u.calm = s.calm := by
  unfold State.flushNow
  extract_lets before s1 lost s2
  have h1 : s1.calm = s.calm := State.calm_of_sansMedia
    (foldl_keep (fun acc : State × Nat => acc.1.sansMedia) _ (fun p g => State.flushGroup_sansMedia p.1 g [] _ _) _ _)
  have h2 : s2.calm = s1.calm := (State.deferAll_calm _ _).trans (s1.modMedia_calm _)
  have h3 : s2.ackFlushes.calm = s.calm := (State.ackFlushes_calm s2).trans (h2.trans h1)
  have hn : s2.now = s2.ackFlushes.now := (congrArg State.now (State.ackFlushes_calm s2) :).symm
  exact ⟨s2.ackFlushes, by rw [← hn], h3⟩

/-! ### Controllers -/

theorem State.ctrl_still {s t : State} (h : t.pcie.still = s.pcie.still) (fn : Nat) : (t.ctrl fn).still = (s.ctrl fn).still := by
  have h1 : t.pcie.ctrls.map Ctrl.still = s.pcie.ctrls.map Ctrl.still := (congrArg Pcie.ctrls h :)
  have key (l : List Ctrl) : (l.getD fn {}).still = (l.map Ctrl.still).getD fn {} := by
    rw [List.getD_eq_getElem?_getD, List.getD_eq_getElem?_getD, List.getElem?_map]
    cases l[fn]? <;> rfl
  show (t.pcie.ctrls.getD fn {}).still = (s.pcie.ctrls.getD fn {}).still
  rw [key, key, h1]
theorem State.ctrls_length_of_still {s t : State} (h : t.pcie.still = s.pcie.still) : t.pcie.ctrls.length = s.pcie.ctrls.length := by
  have h1 : t.pcie.ctrls.map Ctrl.still = s.pcie.ctrls.map Ctrl.still := (congrArg Pcie.ctrls h :)
  simpa using congrArg List.length h1

end Sys2Proof.Machine
end

section
/-!
PROOFS. Chapter 05: controllers that start and shut down, doorbells and fetching (O19, O20).
-/

namespace Sys2Proof.Machine

open Sys2Proof.Safety

/-! ### Fields of `CC` -/

/-- What a write of `CC` makes of one of its fields. -/
def ccField (old : Dword) (v hi lo : Nat) (ok : Nat → Bool) : Nat := if ok (bits v hi lo) then bits v hi lo else bits old.toNat hi lo

theorem bits_lt (v hi lo : Nat) : bits v hi lo < 2 ^ (hi + 1 - lo) := Nat.mod_lt _ (Nat.two_pow_pos _)
theorem ccField_lt (old : Dword) (v hi lo : Nat) (ok : Nat → Bool) : ccField old v hi lo ok < 2 ^ (hi + 1 - lo) := by
  unfold ccField
  split <;> exact bits_lt _ _ _
theorem ccWritten_toNat (old : Dword) (v : Nat) : (ccWritten old v).toNat = v % 2 + 2 ^ 4 * ccField old v 6 4 (· == 0)
    + 2 ^ 7 * ccField old v 10 7 (· == 0) + 2 ^ 11 * ccField old v 13 11 (decide <| · ≤ 1) + 2 ^ 14 * ccField old v 15 14 (· != 3)
    + 2 ^ 16 * ccField old v 19 16 (fun _ => true) + 2 ^ 20 * ccField old v 23 20 fun _ => true := by
  have h1 := ccField_lt old v 6 4 (· == 0)
  have h2 := ccField_lt old v 10 7 (· == 0)
  have h3 := ccField_lt old v 13 11 (decide <| · ≤ 1)
  have h4 := ccField_lt old v 15 14 (· != 3)
  have h5 := ccField_lt old v 19 16 fun _ => true
  have h6 := ccField_lt old v 23 20 fun _ => true
  refine (BitVec.toNat_ofNat _ _).trans (Nat.mod_eq_of_lt ?_)
  show v % 2 + 2 ^ 4 * ccField old v 6 4 (· == 0) + 2 ^ 7 * ccField old v 10 7 (· == 0)
    + 2 ^ 11 * ccField old v 13 11 (decide <| · ≤ 1) + 2 ^ 14 * ccField old v 15 14 (· != 3)
    + 2 ^ 16 * ccField old v 19 16 (fun _ => true) + 2 ^ 20 * ccField old v 23 20 (fun _ => true) < 2 ^ 32
  norm_num at h1 h2 h3 h4 h5 h6 ⊢
  omega
/-- Each field of `CC` after a write, and its reserved bits. -/
theorem bits_ccWritten (old : Dword) (v : Nat) :
    bits (ccWritten old v).toNat 0 0 = v % 2 ∧ bits (ccWritten old v).toNat 3 1 = 0 ∧ bits (ccWritten old v).toNat 31 24 = 0
      ∧ bits (ccWritten old v).toNat 6 4 = ccField old v 6 4 (· == 0) ∧ bits (ccWritten old v).toNat 10 7 = ccField old v 10 7 (· == 0)
      ∧ bits (ccWritten old v).toNat 13 11 = ccField old v 13 11 (decide <| · ≤ 1)
      ∧ bits (ccWritten old v).toNat 15 14 = ccField old v 15 14 (· != 3)
      ∧ bits (ccWritten old v).toNat 19 16 = ccField old v 19 16 (fun _ => true)
      ∧ bits (ccWritten old v).toNat 23 20 = ccField old v 23 20 fun _ => true := by
  rw [ccWritten_toNat]
  have h1 := ccField_lt old v 6 4 (· == 0)
  have h2 := ccField_lt old v 10 7 (· == 0)
  have h3 := ccField_lt old v 13 11 (decide <| · ≤ 1)
  have h4 := ccField_lt old v 15 14 (· != 3)
  have h5 := ccField_lt old v 19 16 fun _ => true
  have h6 := ccField_lt old v 23 20 fun _ => true
  generalize ccField old v 6 4 (· == 0) = a at *
  generalize ccField old v 10 7 (· == 0) = b at *
  generalize ccField old v 13 11 (decide <| · ≤ 1) = c at *
  generalize ccField old v 15 14 (· != 3) = d at *
  generalize ccField old v 19 16 (fun _ => true) = e at *
  generalize ccField old v 23 20 (fun _ => true) = f at *
  norm_num at h1 h2 h3 h4 h5 h6
  simp only [bits]
  norm_num
  omega

theorem getLsbD_zero_iff (x : Dword) : x.getLsbD 0 = true ↔ x.toNat % 2 = 1 := by
  rw [BitVec.getLsbD, Nat.testBit_zero, decide_eq_true_eq]

/-! ### CSTS_READY and shutdown -/

theorem State.mayBeReady_iff (s : State) : s.mayBeReady = true ↔ s.svc.running = true ∧ (s.svc.runSlot = 2 ∨ (s.pers.inPlace = true
    ∧ s.power.dramReady = true ∧ (∀ g ∈ s.media.groups, g.mapLoaded = true)
    ∧ (s.power.charged = true ∨ s.power.chargeTimedOut = true ∨ s.power.chargeStart + 1000000 ≤ s.now))) := by
  simp [State.mayBeReady, and_assoc, or_assoc]
/-- A normal or abrupt shutdown of a controller that is ready. -/
theorem execShutdownNotification_spec {s : State} {fn : Nat} {cc : Dword} (hs : s.power.stage = .on) (hl : fn < s.pcie.ctrls.length)
    (hr : (s.ctrl fn).ready = true) (he : cc.getLsbD 0 = true) (hn : bits cc.toNat 15 14 = 1 ∨ bits cc.toNat 15 14 = 2)
    (h0 : (s.ctrl fn).shst = 0) : ∃ t, exec (.shutdownNotification fn cc) s = .next t ∧ (t.ctrl fn).shst = 2
      ∧ (t.ctrl fn).cc = ccWritten (s.ctrl fn).cc cc.toNat ∧ t.svc.nor.savedTime = s.now ∧ t.power = s.power := by
  obtain ⟨u, hu, hk⟩ := (s.abortAll fn).flushNow_spec
  have hk : u.calm = s.calm := hk.trans (s.abortAll_calm fn)
  have hst : u.pcie.still = s.pcie.still := (congrArg State.pcie hk :)
  have hlu : fn < u.pcie.ctrls.length := by rwa [State.ctrls_length_of_still hst]
  have hcc : (u.ctrl fn).cc = (s.ctrl fn).cc := (congrArg Ctrl.cc (State.ctrl_still hst fn) :)
  have hnow : u.now = s.now := (congrArg State.now hk :)
  have hx : exec (.shutdownNotification fn cc) s = .next (((u.modNor fun n => { n with savedTime := u.now }).modCtrl fn
      fun k => { k with shst := 2 }).modCtrl fn fun k => { k with cc := ccWritten k.cc cc.toNat }) := by
    refine (if_neg (by simp only [hs, hr, he]; decide)).trans (congrArg _ ?_)
    rw [if_neg (by rw [h0]; rcases hn with h | h <;> simp [h]), hu]
  refine ⟨_, hx, ?_, ?_, hnow, (congrArg State.power hk :)⟩
  · rw [State.ctrl_modCtrl _ _ (by simpa using hlu), State.ctrl_modCtrl _ _ (by simpa using hlu)]
  · rw [State.ctrl_modCtrl _ _ (by simpa using hlu), State.ctrl_modCtrl _ _ (by simpa using hlu), ← hcc]
    rfl

/-! ### Fetching from the admin queue (R153, R167) -/

/-- A queue with its next entry taken. -/
def Sq.next (q : Sq) : Sq := { q with head := (q.head + 1) % q.size }

theorem Sq.next_head_lt {q : Sq} (h : q.head < q.size) : q.next.head < q.next.size := Nat.mod_lt _ (by omega)
theorem mod_pred {x m : Nat} (h : 0 < x % m) : (x - 1) % m = x % m - 1 := by
  rcases Nat.eq_zero_or_pos m with rfl | hm
  · simp
  have hd := Nat.div_add_mod x m
  have hl := Nat.mod_lt x hm
  have e : x - 1 = m * (x / m) + (x % m - 1) := by omega
  rw [e, Nat.mul_add_mod, Nat.mod_eq_of_lt (by omega)]
theorem Sq.next_entries {q : Sq} (h : q.head < q.size) (he : 0 < q.entries) : q.next.entries = q.entries - 1 := by
  have hs : q.size ≠ 0 := by omega
  have e1 : q.entries = (q.tail + q.size - q.head) % q.size := if_neg hs
  have e2 : q.next.entries = (q.tail + q.size - (q.head + 1) % q.size) % q.size := if_neg hs
  rw [e1] at he ⊢
  rw [e2, ← mod_pred he]
  by_cases hw : q.head + 1 = q.size
  · rw [hw, Nat.mod_self, Nat.sub_zero, Nat.add_mod_right]
    congr 1
    omega
  · rw [Nat.mod_eq_of_lt (show q.head + 1 < q.size by omega)]
    congr 1
theorem Sq.entries_lt {q : Sq} (h : q.head < q.size) : q.entries < q.size := by
  unfold Sq.entries
  rw [if_neg (by omega)]
  exact Nat.mod_lt _ (by omega)
/-- The command at place `j` of a queue. -/
def State.entryAt (s : State) (fn : Nat) (q : Sq) (j : Nat) : Cmd :=
  Cmd.ofBytes fn 0 (s.hostGet (q.base.toNat + 64 * ((q.head + j) % q.size)) 64)
theorem State.entryAt_next (s : State) (fn : Nat) (q : Sq) (j : Nat) : s.entryAt fn q.next j = s.entryAt fn q (j + 1) := by
  unfold State.entryAt Sq.next
  dsimp only
  rw [Nat.mod_add_mod, Nat.add_assoc, Nat.add_comm 1]

/-- What a fetch of admin entries leaves: `n` commands more, the oldest first, and nothing else but its queue. -/
structure Fetched (s : State) (fn : Nat) (q : Sq) (n : Nat) (t : State) (new : List Outstanding) : Prop where
  frame : { t with pcie := s.pcie } = s
  pcie : { t.pcie with ctrls := s.pcie.ctrls } = s.pcie
  outstanding : (t.ctrl fn).outstanding = (s.ctrl fn).outstanding ++ new
  others : ∀ g, g ≠ fn → t.ctrl g = s.ctrl g
  length : new.length = n
  entries : ∀ i x, new[i]? = some x → x.started = false ∧ x.fetchedAt = s.now ∧ x.cmd = s.entryAt fn q i

theorem State.fetchMany_spec {s : State} {fn : Nat} {q : Sq} (n : Nat) (hl : fn < s.pcie.ctrls.length)
    (hq : (s.ctrl fn).sqs.find? (·.qid == 0) = some q) (hh : q.head < q.size) (hn : n ≤ q.entries) :
    ∃ t new, s.fetchMany fn 0 n = (t, n) ∧ Fetched s fn q n t new := by
  induction n generalizing s q with
  | zero => exact ⟨s, [], rfl, rfl, rfl, (List.append_nil _).symm, fun _ _ => rfl, rfl, nofun⟩
  | succ n ih =>
    have h0 : q.qid = 0 := by simpa using List.find?_some hq
    have hf : s.fetchable fn q = true := by
      unfold State.fetchable
      simp [h0]
      omega
    obtain ⟨o, ho⟩ : ∃ o : Outstanding, o = { cmd := s.entryAt fn q 0, fetchedAt := s.now, started := false, deferredSeen := s.logs.deferredNext - 1, blocksSeen := s.media.nextBlock } := ⟨_, rfl⟩
    obtain ⟨u, hu⟩ : ∃ u, u = s.fetchOne fn 0 := ⟨_, rfl⟩
    have e : u = s.modCtrl fn fun k => { k with
        sqs := k.sqs.map fun x => if x.qid = 0 then x.next else x, outstanding := k.outstanding ++ [o] } := by
      rw [hu, ho, State.fetchOne, hq, State.entryAt, Nat.add_zero, Nat.mod_eq_of_lt hh]
      rfl
    have hk : u.ctrl fn = { s.ctrl fn with
        sqs := (s.ctrl fn).sqs.map fun x => if x.qid = 0 then x.next else x, outstanding := (s.ctrl fn).outstanding ++ [o] } := by
      rw [e, State.ctrl_modCtrl _ _ hl]
    have hq' : (u.ctrl fn).sqs.find? (·.qid == 0) = some q.next := by
      rw [hk, List.find?_map]
      have hc : ((fun x : Sq => x.qid == 0) ∘ fun x => if x.qid = 0 then x.next else x) = fun x => x.qid == 0 := by
        funext x
        by_cases hx : x.qid = 0 <;> simp [hx, Sq.next]
      rw [hc, hq]
      simp [h0]
    have hl' : fn < u.pcie.ctrls.length := by rw [e]; simpa using hl
    obtain ⟨t, new, ht, hF⟩ := ih hl' hq' (Sq.next_head_lt hh) (by rw [Sq.next_entries hh (by omega)]; omega)
    refine ⟨t, o :: new, ?_, ?_⟩
    · unfold State.fetchMany
      rw [hq]
      dsimp only
      rw [if_pos hf, ← hu, ht]
    · have hhost : u.host = s.host := by rw [e]; rfl
      have hnow : u.now = s.now := by rw [e]; rfl
      have hent (i : Nat) : u.entryAt fn q.next i = s.entryAt fn q (i + 1) := by
        rw [State.entryAt_next, State.entryAt, State.entryAt, State.hostGet_of_host hhost]
      refine ⟨?_, ?_, ?_, fun g hg => ?_, by rw [List.length_cons, hF.length], fun i x hx => ?_⟩
      · have h1 : ({ t with pcie := s.pcie } : State) = { ({ t with pcie := u.pcie } : State) with pcie := s.pcie } := rfl
        rw [h1, hF.frame, e]
        rfl
      · have h1 : ({ t.pcie with ctrls := s.pcie.ctrls } : Pcie) = { ({ t.pcie with ctrls := u.pcie.ctrls } : Pcie) with ctrls := s.pcie.ctrls } := rfl
        rw [h1, hF.pcie, e]
        rfl
      · rw [hF.outstanding, hk, List.append_assoc]
        rfl
      · rw [hF.others g hg, e, State.ctrl_modCtrl_ne _ _ hg]
      · cases i with
        | zero =>
          cases hx
          rw [ho]
          exact ⟨rfl, rfl, rfl⟩
        | succ i =>
          obtain ⟨h1, h2, h3⟩ := hF.entries i x hx
          exact ⟨h1, h2.trans hnow, h3.trans (hent i)⟩

/-- Where every command that waits has an opcode of the module, nothing is swept. -/
theorem State.sweepUnknown_of_known {s : State}
    (h : ∀ g, ∀ o ∈ (s.ctrl g).outstanding, o.started = true ∨ opcodeKnown o.cmd.sqid o.cmd.opcode = true) : s.sweepUnknown = s := by
  have step (g : Nat) : (s.ctrl g).outstanding.filter (fun o => !o.started && !opcodeKnown o.cmd.sqid o.cmd.opcode) = [] := by
    refine List.filter_eq_nil_iff.mpr fun o ho => ?_
    rcases h g o ho with h | h <;> simp [h]
  unfold State.sweepUnknown
  induction List.range 17 with
  | nil => rfl
  | cons g l ih =>
    rw [List.foldl_cons, step]
    exact ih
theorem State.chooseSq_of_admin {s : State} {fn : Nat} {q : Sq} (hq : (s.ctrl fn).sqs.find? (fun x => x.qid == 0) = some q)
    (he : 0 < q.entries) : s.chooseSq fn = some (q, none, s.ctrl fn) := by
  have h0 : q.qid = 0 := by simpa using List.find?_some hq
  have hfq : s.fetchable fn q = true := by
    unfold State.fetchable
    simp [h0, he]
  have h1 : (s.ctrl fn).sqs.find? (fun q => q.qid == 0 && s.fetchable fn q) = some q := by
    rw [List.find?_eq_some_iff_append] at hq ⊢
    obtain ⟨h1, as, bs, h2, h3⟩ := hq
    refine ⟨by simp [h0, hfq], as, bs, h2, fun a ha => ?_⟩
    have := h3 a ha
    simp only [Bool.not_eq_true'] at this ⊢
    simp [this]
  unfold State.chooseSq
  dsimp only
  rw [h1]
/-- The state in which a turn of a controller fetches. -/
def State.turn (s : State) (fn : Nat) : State :=
  { s.modPcie fun x => { x with lastFn := fn } with pins := { s.pins with lastFetch := some s.now } }

/-- A turn of a controller whose admin queue has entries. -/
theorem execCommandFetch_of_admin {s : State} {fn : Nat} {q : Sq} (hfn : fn = (s.pcie.lastFn + 1) % 17) (hs : s.power.stage = .on)
    (hf : s.pcie.fetchStopped = false) (hr : (s.ctrl fn).ready = true) (hsh : (s.ctrl fn).shst = 0)
    (hq : (s.ctrl fn).sqs.find? (fun x => x.qid == 0) = some q) (he : 0 < q.entries) (hab : (s.ctrl fn).features.ab < 7) {t : State} {m : Nat}
    (hfm : (s.turn fn).fetchMany fn 0 (min (2 ^ (s.ctrl fn).features.ab) q.entries) = (t, m)) :
    exec .commandFetch s = .next (t.modCtrl fn fun k => { k with
      wrrLeft := (s.ctrl fn).wrrLeft, lastSq := (s.ctrl fn).lastSq }).sweepUnknown := by
  have h0 : q.qid = 0 := by simpa using List.find?_some hq
  have hc := State.chooseSq_of_admin hq he
  have hord : ((List.range 17).map fun i => (s.pcie.lastFn + 1 + i) % 17).find?
      (fun fn => (s.ctrl fn).ready && (s.ctrl fn).shst == 0 && (s.chooseSq fn).isSome) = some fn := by
    rw [show List.range 17 = 0 :: (List.range 16).map Nat.succ from rfl, List.map_cons, Nat.add_zero, ← hfn]
    exact List.find?_cons_of_pos (by simp [hr, hsh, hc])
  have hmin : min (min (2 ^ (s.ctrl fn).features.ab) q.entries) q.entries = min (2 ^ (s.ctrl fn).features.ab) q.entries := by omega
  refine (if_neg (by simp [hs, hf])).trans ?_
  simp only [hord, hc, if_neg hab.ne, Option.getD_none, hmin, h0]
  unfold State.turn at hfm
  rw [hfm]
  rfl

end Sys2Proof.Machine

open Sys2Proof Sys2Proof.Machine Sys2Proof.Safety

/-- Settles O19: `CC` by its fields, readiness by its conditions, and a shutdown by what its aborts and its flush leave. -/
theorem controllerStart : Obligations.ControllerStart := by
  unfold Obligations.ControllerStart
  intro s fn cc hs hp hf hl
  refine ⟨fun h0 h1 => ?_, fun he hr hi hd hm hc => ?_, fun hr h => ?_, fun hr h1 hn h0 => execShutdownNotification_spec hs hl hr h1 hn h0⟩
  · intro new
    obtain ⟨b0, b1, b2, b3, b4, b5, b6, b7, b8⟩ := bits_ccWritten (s.ctrl fn).cc cc.toNat
    have hx : exec (.controllerEnable fn cc) s = .next (s.modCtrl fn fun k => { k with cc := ccWritten k.cc cc.toNat, enabling := true }) :=
      if_neg (by simp only [hs, hp, hf, h0, h1]; decide)
    have hnew : (s.modCtrl fn fun k => { k with cc := ccWritten k.cc cc.toNat, enabling := true })
        = s.modCtrl fn fun k => { k with cc := new, enabling := true } := by
      refine congrArg (fun l => { s with pcie := { s.pcie with ctrls := l } }) (List.ext_getElem? fun j => ?_)
      rw [List.getElem?_modify, List.getElem?_modify]
      by_cases hj : fn = j
      · subst hj
        have hk : s.pcie.ctrls[fn]? = some (s.ctrl fn) := by
          rw [List.getElem?_eq_getElem hl]
          simp [State.ctrl, hl]
        rw [hk]
        simp [new]
      · simp [hj]
    refine ⟨hx.trans (congrArg _ hnew), ?_, b1, b2, ?_, ?_⟩
    · rw [getLsbD_zero_iff] at h1 ⊢
      rw [← h1, ← b0]
      simp [bits, new]
    · simp only [List.forall_mem_cons, List.not_mem_nil, false_implies, implies_true, and_true]
      have h3 := bits_lt cc.toNat 15 14
      have h4 := bits_lt cc.toNat 19 16
      have h5 := bits_lt cc.toNat 23 20
      norm_num at h3 h4 h5
      refine ⟨b5.trans ?_, b6.trans ?_, b7.trans ?_, b8.trans ?_⟩
      · simp [ccField]
      · simp only [ccField, bne_iff_ne]
        refine if_congr ?_ rfl rfl
        omega
      · simp only [ccField, if_true]
        exact (if_pos (by omega)).symm
      · simp only [ccField, if_true]
        exact (if_pos (by omega)).symm
    · simp only [List.forall_mem_cons, List.not_mem_nil, false_implies, implies_true, and_true]
      refine ⟨b3.trans ?_, b4.trans ?_⟩
      all_goals
        simp only [ccField, beq_iff_eq]
        split
        · assumption
        · rfl
  · refine ⟨s.modCtrl fn Ctrl.withAdmin, if_neg ?_, ?_, ?_, ?_, rfl, fun g hg => s.ctrl_modCtrl_ne _ hg⟩
    · have hb : s.mayBeReady = true := s.mayBeReady_iff.mpr ⟨hr, .inr ⟨hi, hd, hm, hc⟩⟩
      simp only [hs, hp, hf, he, hb]
      decide
    all_goals rw [s.ctrl_modCtrl _ hl]; rfl
  · refine if_pos ?_
    have hb : s.mayBeReady = false := by
      rw [Bool.eq_false_iff, Ne, s.mayBeReady_iff]
      rintro ⟨-, h2 | ⟨h2, h3, h4, h5⟩⟩
      · exact hr h2
      · rcases h with h | h | ⟨g, hg, h⟩ | ⟨h, h', h''⟩
        · exact absurd (h.symm.trans h2) (by decide)
        · exact absurd (h.symm.trans h3) (by decide)
        · exact absurd (h.symm.trans (h4 g hg)) (by decide)
        · rcases h5 with h5 | h5 | h5
          · exact absurd (h.symm.trans h5) (by decide)
          · exact absurd (h'.symm.trans h5) (by decide)
          · omega
    simp [hb]

/-- Settles O20: a doorbell moves the queue it names, and a turn takes admin entries one by one from the head. -/
theorem doorbellsAndFetch : Obligations.DoorbellsAndFetch := by
  unfold Obligations.DoorbellsAndFetch
  refine ⟨fun s fn qid value hs hr => ⟨?_, fun hu => ?_⟩, fun s q hs hf => ?_, fun s hf => if_pos (by simp [hf])⟩
  · have hl := State.lt_of_ready hr
    refine ⟨_, if_neg (by simp [hs, hr]), rfl, ?_, ?_, fun i q hq => ?_⟩
    · rw [State.ctrl_modCtrl _ _ hl]
      exact List.length_map _
    · rw [State.ctrl_modCtrl _ _ hl]
    · rw [State.ctrl_modCtrl _ _ hl]
      refine (List.getElem?_map ..).trans ?_
      rw [hq]
      by_cases hv : q.qid = qid ∧ value < q.size
      · simp [hv]
      · have hv' : ¬ (decide (q.qid = qid) && decide (value < q.size)) = true := by simpa using hv
        simp only [Option.map_some, if_neg hv, if_neg hv']
  · have hl := State.lt_of_ready hr
    have hx : exec (.cqHeadDoorbell fn qid value) s = .next (((s.modCtrl fn fun k => { k with
        cqs := k.cqs.map fun q => if q.qid = qid && decide (value < q.size) then { q with head := value } else q })).modCtrl fn
          fun k => { k with unposted := [] }) := by
      refine (if_neg (by simp [hs, hr])).trans ?_
      rw [State.ctrl_modCtrl _ _ hl, hu]
      rfl
    refine ⟨_, hx, rfl, ?_, fun i q hq => ?_⟩
    · rw [State.ctrl_modCtrl _ _ (by simpa using hl), State.ctrl_modCtrl _ _ hl]
    · rw [State.ctrl_modCtrl _ _ (by simpa using hl), State.ctrl_modCtrl _ _ hl]
      refine (List.getElem?_map ..).trans ?_
      rw [hq]
      by_cases hv : q.qid = qid ∧ value < q.size
      · simp [hv]
      · have hv' : ¬ (decide (q.qid = qid) && decide (value < q.size)) = true := by simpa using hv
        simp only [Option.map_some, if_neg hv, if_neg hv']
  · intro fn hr hsh hq hh he hab hko hkn
    have hl := State.lt_of_ready hr
    have hmin : min (2 ^ (s.ctrl fn).features.ab) q.entries ≤ q.entries := min_le_right _ _
    obtain ⟨t, new, ht, hF⟩ := State.fetchMany_spec (s := s.turn fn)
      _ hl hq hh hmin
    have hx := execCommandFetch_of_admin rfl hs hf hr hsh hq he hab ht
    have hpos : 0 < new.length := by
      rw [hF.length]
      exact lt_min (Nat.two_pow_pos _) he
    have hlt : fn < t.pcie.ctrls.length := State.lt_of_outstanding (by
      rw [hF.outstanding]
      exact List.append_ne_nil_of_right_ne_nil _ (List.ne_nil_of_length_pos hpos))
    have hctrl : ((t.modCtrl fn fun k => { k with wrrLeft := (s.ctrl fn).wrrLeft, lastSq := (s.ctrl fn).lastSq }).ctrl fn).outstanding
        = (s.ctrl fn).outstanding ++ new := by
      rw [State.ctrl_modCtrl _ _ hlt]
      exact hF.outstanding
    have hcmd (i : Nat) (x : Outstanding) (hi : new[i]? = some x) : x.started = false ∧ x.fetchedAt = s.now ∧ x.cmd = s.entryAt fn q i :=
      hF.entries i x hi
    have hmem (x : Outstanding) (hx : x ∈ new) : x.started = false ∧ x.fetchedAt = s.now ∧ ∃ i, x.cmd = s.entryAt fn q i := by
      obtain ⟨i, hi⟩ := List.mem_iff_getElem?.mp hx
      obtain ⟨h1, h2, h3⟩ := hcmd i x hi
      exact ⟨h1, h2, i, h3⟩
    rw [State.sweepUnknown_of_known] at hx
    · refine ⟨_, new, hx, (congrArg Pcie.lastFn hF.pcie :), hctrl, hF.length, fun x hx => ?_, ?_, (congrArg Pcie.completions hF.pcie :),
        (congrArg State.tenants hF.frame :), (congrArg State.media hF.frame :)⟩
      · obtain ⟨h1, h2, i, h3⟩ := hmem x hx
        exact ⟨h1, h2, by rw [h3]; rfl, by rw [h3]; rfl⟩
      · rw [List.head?_eq_getElem?, List.getElem?_map, List.getElem?_eq_getElem hpos]
        obtain ⟨-, -, h3⟩ := hcmd 0 _ (List.getElem?_eq_getElem hpos)
        rw [Option.map_some, h3, State.entryAt, Nat.add_zero, Nat.mod_eq_of_lt hh]
    · intro g o ho
      by_cases hg : g = fn
      · rw [hg, hctrl] at ho
        rcases List.mem_append.mp ho with ho | ho
        · exact hko fn o ho
        · obtain ⟨-, -, i, h3⟩ := hmem o ho
          exact .inr (by rw [h3]; exact hkn i)
      · rw [State.ctrl_modCtrl_ne _ _ hg, hF.others g hg] at ho
        exact hko g o ho
end

section
/-!
PROOFS. Chapter 05: I/O queues (O21).
-/

namespace Sys2Proof.Machine

open Sys2Proof.Safety

/-! ### What a command that starts leaves of its controller -/

section
variable {s t : State} {c : Cmd} (h : s.begin c = some t)
include h

theorem State.begin_sqs : (t.ctrl c.fn).sqs = (s.ctrl c.fn).sqs := (congrArg Ctrl.sqs (State.begin_spec h).2.2.2.2 :)
theorem State.begin_cqs : (t.ctrl c.fn).cqs = (s.ctrl c.fn).cqs := (congrArg Ctrl.cqs (State.begin_spec h).2.2.2.2 :)
theorem State.begin_queueQuota (fn : Nat) : t.queueQuota fn = s.queueQuota fn :=
  (congrArg (State.queueQuota · fn) (State.begin_spec h).1 : ({ t with pcie := s.pcie } : State).queueQuota fn = _)
theorem State.begin_vectors (fn : Nat) : t.vectors fn = s.vectors fn :=
  (congrArg (State.vectors · fn) (State.begin_spec h).1 : ({ t with pcie := s.pcie } : State).vectors fn = _)
theorem State.begin_fn_lt : c.fn < t.pcie.ctrls.length :=
  State.lt_of_outstanding fun h0 => by
    have hh : ((t.ctrl c.fn).outstanding.any fun o => o.cmd.ref == c.ref) = true := (State.begin_spec h).2.2.1.2
    rw [h0] at hh
    exact Bool.false_ne_true hh
/-- The end of a command that started and then changed its controller's queues. -/
theorem State.begin_modCtrl_completes {f : Ctrl → Ctrl} (hf : ∀ k : Ctrl, (f k).outstanding = k.outstanding ∧ (f k).aers = k.aers)
    (st : Status) : Ends s ((t.modCtrl c.fn f).complete c.ref st) c st :=
  State.begin_ends h ((t.modCtrl_spares c.fn hf).ends (State.begin_firm h) st 0 0)
/-- The controller of a command whose end follows a change of its queues. -/
theorem State.begin_modCtrl_still (f : Ctrl → Ctrl) (st : Status) :
    (((t.modCtrl c.fn f).complete c.ref st).ctrl c.fn).still = (f (t.ctrl c.fn)).still := by
  rw [State.ctrl_still ((t.modCtrl c.fn f).complete_posts c.ref st 0 0).2, State.ctrl_modCtrl _ _ (State.begin_fn_lt h)]

end

/-- Completion queues keep their identifiers when completions are posted. -/
theorem cqids_of_still {k l : Ctrl} (h : k.still = l.still) : k.cqs.map (·.qid) = l.cqs.map (·.qid) := by
  have e : (k.cqs.map Cq.still).map (·.qid) = (l.cqs.map Cq.still).map (·.qid) := congrArg (List.map _) (congrArg Ctrl.cqs h)
  rwa [List.map_map, List.map_map] at e
theorem exists_cqid_of_still {k l : Ctrl} (h : k.still = l.still) {n : Nat} (hn : ∃ q ∈ l.cqs, q.qid = n) : ∃ q ∈ k.cqs, q.qid = n := by
  simpa only [List.mem_map] using (cqids_of_still h ▸ List.mem_map.mpr hn : n ∈ k.cqs.map (·.qid))
theorem cqid_ne_of_still {k l : Ctrl} (h : k.still = l.still) {n : Nat} (hn : ∀ q ∈ l.cqs, q.qid ≠ n) : ∀ q ∈ k.cqs, q.qid ≠ n :=
  fun q hq e => by
    obtain ⟨p, hp, hpn⟩ := exists_cqid_of_still h.symm ⟨q, hq, e⟩
    exact hn p hp hpn

/-! ### Creation -/

/-- The queues that the creation commands name. -/
def newCq (c : Cmd) : Cq :=
  { qid := qidOf c, base := c.prp1, size := qsizeOf c, vector := bits c.cdw11.toNat 31 16, ien := c.cdw11.getLsbD 1 }
def newSq (c : Cmd) : Sq :=
  { qid := qidOf c, base := c.prp1, size := qsizeOf c, cqid := bits c.cdw11.toNat 31 16
    prio := prioOf (bits c.cdw11.toNat 2 1), compute := c.cdw11.getLsbD 3 }

theorem execCreateIoCq_of_room {s t : State} {c : Cmd} (h : Starts s c .admin t) (h0 : qidOf c ≠ 0) (hq : qidOf c ≤ s.queueQuota c.fn)
    (hn : ∀ q ∈ (s.ctrl c.fn).cqs, q.qid ≠ qidOf c) (h2 : 2 ≤ qsizeOf c) (h4 : qsizeOf c ≤ 4096) (hpc : c.cdw11.getLsbD 0 = true) :
    exec (.createIoCq c) s = .next (if bits c.cdw11.toNat 31 16 ≥ s.vectors c.fn then t.complete c.ref .invalidVector
      else (t.modCtrl c.fn fun k => { k with cqs := k.cqs ++ [newCq c] }).complete c.ref .success) := by
  refine (State.command_of_starts h _).trans (congrArg _ ?_)
  have hv := State.begin_vectors h.1 c.fn
  have hQ := State.begin_queueQuota h.1 c.fn
  have hany : ((t.ctrl c.fn).cqs.any fun q => q.qid == qidOf c) = false := by
    rw [State.begin_cqs h.1]
    simpa using hn
  dsimp only
  rw [if_neg (by simp [h0, hQ, hq, hany]), if_neg (by simp only [Bool.or_eq_true, decide_eq_true_eq]; omega), if_neg (by rw [hpc]; decide), hv]
  rfl
theorem execCreateIoSq_of_room {s t : State} {c : Cmd} (h : Starts s c .admin t) (h0 : qidOf c ≠ 0) (hq : qidOf c ≤ s.queueQuota c.fn)
    (hn : ∀ q ∈ (s.ctrl c.fn).sqs, q.qid ≠ qidOf c) (h2 : 2 ≤ qsizeOf c) (h4 : qsizeOf c ≤ 4096) (hpc : c.cdw11.getLsbD 0 = true)
    (hc0 : bits c.cdw11.toNat 31 16 ≠ 0) (hc : bits c.cdw11.toNat 31 16 ≤ s.queueQuota c.fn)
    (he : ∃ q ∈ (s.ctrl c.fn).cqs, q.qid = bits c.cdw11.toNat 31 16) :
    exec (.createIoSq c) s = .next ((t.modCtrl c.fn fun k => { k with sqs := k.sqs ++ [newSq c] }).complete c.ref .success) := by
  refine (State.command_of_starts h _).trans (congrArg _ ?_)
  have hQ := State.begin_queueQuota h.1 c.fn
  have hany : ((t.ctrl c.fn).sqs.any fun q => q.qid == qidOf c) = false := by
    rw [State.begin_sqs h.1]
    simpa using hn
  have hcq : ((t.ctrl c.fn).cqs.any fun q => q.qid == bits c.cdw11.toNat 31 16) = true := by
    rw [State.begin_cqs h.1]
    simpa using he
  dsimp only
  rw [if_neg (by simp [h0, hQ, hq, hany]), if_neg (by simp only [Bool.or_eq_true, decide_eq_true_eq]; omega), if_neg (by rw [hpc]; decide),
    if_neg (by simp [hc0, hQ, hc]), if_neg (by rw [hcq]; decide)]
  rfl

/-! ### Deletion -/

/-- Entries that are ended one after another: each that is held ends. -/
theorem State.complete_all_appends (l : List Outstanding) (st : Status) (s : State) :
    s.Appends (l.foldl (fun (s : State) o => s.complete o.cmd.ref st) s) :=
  foldl_rel (R := State.Appends) .refl .trans _ (fun s o => s.complete_appends o.cmd.ref st 0 0) l s
theorem State.complete_all_ends {s : State} {r : CmdRef} (h : Firm s r) {l : List Outstanding} (hr : ∃ o ∈ l, o.cmd.ref = r) (st : Status) :
    EndsRef s (l.foldl (fun (s : State) o => s.complete o.cmd.ref st) s) r st := by
  induction l generalizing s with
  | nil => simp at hr
  | cons a l ih =>
    by_cases ha : a.cmd.ref = r
    · rw [← ha] at h ⊢
      exact (State.complete_all_appends l st _).ends ((State.Spares.refl _ s).ends h st 0 0)
    · obtain ⟨h', m, hm⟩ := s.complete_spares ha st 0 0 h
      obtain ⟨o, ho, hor⟩ := hr
      obtain ⟨k, hk, hin⟩ := ih h' ⟨o, (List.mem_cons.mp ho).resolve_left fun e => ha (e ▸ hor), hor⟩
      exact ⟨m ++ k, by rw [List.foldl_cons, hk, hm, List.append_assoc], List.mem_append_right _ hin⟩
theorem State.complete_all_spares {s : State} {r : CmdRef} {l : List Outstanding} (hr : ∀ o ∈ l, o.cmd.ref ≠ r) (st : Status) :
    s.Spares r (l.foldl (fun (s : State) o => s.complete o.cmd.ref st) s) := by
  induction l generalizing s with
  | nil => exact .refl r s
  | cons a l ih =>
    obtain ⟨ha, hl⟩ := List.forall_mem_cons.mp hr
    exact (s.complete_spares ha st 0 0).trans (ih hl)
theorem State.complete_all_posts (l : List Outstanding) (st : Status) (s : State) :
    s.Posts (l.foldl (fun (s : State) o => s.complete o.cmd.ref st) s) :=
  foldl_rel (R := State.Posts) .refl .trans _ (fun s o => s.complete_posts o.cmd.ref st 0 0) l s

theorem execDeleteIoSq_of_known {s t : State} {c : Cmd} (h : Starts s c .admin t) (h0 : qidOf c ≠ 0)
    (hq : ∃ q ∈ (s.ctrl c.fn).sqs, q.qid = qidOf c) (hu : ∀ o ∈ (t.ctrl c.fn).outstanding, o.cmd.sqid = qidOf c → o.started = false) :
    exec (.deleteIoSq c) s = .next (((((t.ctrl c.fn).outstanding.filter fun o => o.cmd.sqid == qidOf c).foldl
      (fun (s : State) o => s.complete o.cmd.ref .abortedSqDeletion) t).modCtrl c.fn
        fun k => { k with sqs := k.sqs.filter (·.qid != qidOf c) }).complete c.ref .success) := by
  refine (State.command_of_starts h _).trans (congrArg _ ?_)
  have hany : ((t.ctrl c.fn).sqs.any fun q => q.qid == qidOf c) = true := by
    rw [State.begin_sqs h.1]
    simpa using hq
  have hun : ∀ o ∈ (t.ctrl c.fn).outstanding.filter (fun o => o.cmd.sqid == qidOf c), o.started = false := fun o ho => by
    obtain ⟨hm, hs⟩ := List.mem_filter.mp ho
    exact hu o hm (beq_iff_eq.mp hs)
  dsimp only
  rw [if_neg (by simp [h0, hany]), if_neg (by simpa using hun), List.filter_eq_self.mpr fun o ho => by rw [hun o ho]; rfl]
theorem execDeleteIoCq_of_known {s t : State} {c : Cmd} (h : Starts s c .admin t) (h0 : qidOf c ≠ 0)
    (hq : ∃ q ∈ (s.ctrl c.fn).cqs, q.qid = qidOf c) :
    exec (.deleteIoCq c) s = .next (if (s.ctrl c.fn).sqs.any fun q => q.cqid == qidOf c then t.complete c.ref .invalidQueueDeletion
      else (t.modCtrl c.fn fun k => { k with cqs := k.cqs.filter (·.qid != qidOf c) }).complete c.ref .success) := by
  refine (State.command_of_starts h _).trans (congrArg _ ?_)
  have hany : ((t.ctrl c.fn).cqs.any fun q => q.qid == qidOf c) = true := by
    rw [State.begin_cqs h.1]
    simpa using hq
  dsimp only
  rw [if_neg (by simp [h0, hany]), State.begin_sqs h.1]

/-- The commands of other queues that a controller holds are those it held when a command started. -/
theorem State.begin_outstanding_other {s t : State} {c : Cmd} (h : s.begin c = some t) {o : Outstanding} (hr : o.cmd.ref ≠ c.ref) :
    o ∈ (t.ctrl c.fn).outstanding ↔ o ∈ (s.ctrl c.fn).outstanding := by
  have hl := State.begin_fn_lt h
  unfold State.begin at h
  extract_lets k known compute activating parked waits at h
  split at h
  · cases h
  obtain hk | ⟨x, hx⟩ : known = none ∨ ∃ x, known = some x := by cases known <;> simp
  · rw [hk] at h
    cases h
    rw [State.ctrl_modCtrl _ _ (by simpa using hl)]
    refine ⟨fun ho => (List.mem_append.mp ho).resolve_right fun e => hr ?_, List.mem_append_left _⟩
    rw [List.mem_singleton.mp e]
  · rw [hx] at h
    dsimp only at h
    split at h
    · cases h
    cases h
    rw [State.ctrl_modCtrl _ _ (by simpa using hl)]
    simp only [List.mem_map]
    refine ⟨fun ⟨x, hx, hxo⟩ => ?_, fun ho => ⟨o, ho, if_neg hr⟩⟩
    split at hxo
    · next e => exact absurd (by rw [← hxo]; exact e) hr
    · exact hxo ▸ hx

/-- A command that starts as an admin command came from the admin queue. -/
theorem sqid_of_admin {s t : State} {c : Cmd} (h : Starts s c .admin t) : c.sqid = 0 := by
  obtain ⟨-, -, hr, -⟩ := h
  by_contra h0
  unfold State.refusal at hr
  simp only [h0, if_false] at hr
  split at hr
  · cases hr
  · split at hr <;> cases hr

/-- Settles O21: a created queue is the last of its list, a deleted one is gone, and the ends of the commands before it are appended. -/
theorem ioQueues : Obligations.IoQueues := by
  unfold Obligations.IoQueues
  intro s t c h
  refine ⟨fun h0 hq hn h2 h4 hpc => ⟨fun hv => ?_, fun hv => ?_⟩, fun h0 hq hn h2 h4 hpc hc0 hc he => ?_,
    fun h0 hq hu hf => ?_, fun h0 hq => ⟨fun hn => ?_, fun he => ?_⟩⟩
  · refine ⟨_, (execCreateIoCq_of_room h h0 hq hn h2 h4 hpc).trans (congrArg _ (if_neg (by omega))),
      State.begin_modCtrl_completes h.1 (f := fun k => { k with cqs := k.cqs ++ [newCq c] }) (fun _ => ⟨rfl, rfl⟩) _, ?_, ?_⟩
    · have hk := congrArg Ctrl.cqs (State.begin_modCtrl_still h.1 (fun k => { k with cqs := k.cqs ++ [newCq c] }) .success)
      have hm : (newCq c).still ∈ ((t.ctrl c.fn).cqs ++ [newCq c]).map Cq.still :=
        List.mem_map.mpr ⟨newCq c, List.mem_append_right _ (List.mem_singleton.mpr rfl), rfl⟩
      obtain ⟨q, hm, he⟩ := List.mem_map.mp ((congrArg ((newCq c).still ∈ ·) hk).mpr hm)
      have e (f : Cq → Nat) : f (Cq.still q) = f (newCq c).still := congrArg f he
      exact ⟨q, hm, e Cq.qid, (congrArg Cq.base he :), e Cq.size, e Cq.vector, (congrArg Cq.ien he :)⟩
    · have hk := congrArg Ctrl.sqs (State.begin_modCtrl_still h.1 (fun k => { k with cqs := k.cqs ++ [newCq c] }) .success)
      exact hk.trans (State.begin_sqs h.1)
  · refine ⟨_, (execCreateIoCq_of_room h h0 hq hn h2 h4 hpc).trans (congrArg _ (if_pos hv)), State.begin_completes h.1 _ 0 0, ?_⟩
    exact cqid_ne_of_still (State.ctrl_still (t.complete_posts c.ref _ 0 0).2 c.fn) (by rwa [State.begin_cqs h.1])
  · refine ⟨_, execCreateIoSq_of_room h h0 hq hn h2 h4 hpc hc0 hc he,
      State.begin_modCtrl_completes h.1 (f := fun k => { k with sqs := k.sqs ++ [newSq c] }) (fun _ => ⟨rfl, rfl⟩) _, ?_⟩
    have hk := congrArg Ctrl.sqs (State.begin_modCtrl_still h.1 (fun k => { k with sqs := k.sqs ++ [newSq c] }) .success)
    exact hk.trans (congrArg (· ++ [newSq c]) (State.begin_sqs h.1))
  · have hother (o : Outstanding) (hs : o.cmd.sqid = qidOf c) : o.cmd.ref ≠ c.ref := fun e =>
      h0 (hs.symm.trans ((congrArg CmdRef.sqid e :).trans (sqid_of_admin h)))
    have hx := execDeleteIoSq_of_known h h0 hq fun o ho hs => hu o ((State.begin_outstanding_other h.1 (hother o hs)).mp ho) hs
    obtain ⟨l, hl⟩ : ∃ l, l = (t.ctrl c.fn).outstanding.filter fun o => o.cmd.sqid == qidOf c := ⟨_, rfl⟩
    rw [← hl] at hx
    have hml (o : Outstanding) : o ∈ l ↔ o ∈ (s.ctrl c.fn).outstanding ∧ o.cmd.sqid = qidOf c := by
      rw [hl, List.mem_filter, beq_iff_eq]
      exact and_congr_left fun hs => State.begin_outstanding_other h.1 (hother o hs)
    obtain ⟨v, hv⟩ : ∃ v, v = l.foldl (fun (s : State) o => s.complete o.cmd.ref .abortedSqDeletion) t := ⟨_, rfl⟩
    rw [← hv] at hx
    have hp : t.Posts v := hv ▸ State.complete_all_posts l _ t
    have hsp : t.Spares c.ref v := hv ▸ State.complete_all_spares (fun o ho => hother o ((hml o).mp ho).2) _
    have hsp' := hsp.trans (v.modCtrl_spares c.fn (f := fun k => { k with sqs := k.sqs.filter (·.qid != qidOf c) }) fun _ => ⟨rfl, rfl⟩)
    refine ⟨_, hx, State.begin_ends h.1 (hsp'.ends (State.begin_firm h.1) _ 0 0), ?_, fun o ho hs => ?_⟩
    · have hlen : c.fn < v.pcie.ctrls.length := by rw [State.ctrls_length_of_still hp.2]; exact State.begin_fn_lt h.1
      have hk := congrArg Ctrl.sqs (State.ctrl_still ((v.modCtrl c.fn fun k => { k with sqs := k.sqs.filter (·.qid != qidOf c) }).complete_posts
        c.ref .success 0 0).2 c.fn)
      have hk' := congrArg Ctrl.sqs (State.ctrl_still hp.2 c.fn)
      rw [State.ctrl_modCtrl _ _ hlen] at hk
      exact hk.trans (congrArg (List.filter _) (hk'.trans (State.begin_sqs h.1)))
    · have hfirm : Firm t o.cmd.ref := by
        refine ⟨⟨(State.begin_firm h.1).1.1, List.any_eq_true.mpr ⟨o, ?_, beq_self_eq_true _⟩⟩, fun e => absurd (hs.symm.trans e) h0⟩
        show o ∈ (t.ctrl o.cmd.fn).outstanding
        rw [hf o ho]
        exact (State.begin_outstanding_other h.1 (hother o hs)).mpr ho
      have he := State.complete_all_ends hfirm ⟨o, (hml o).mpr ⟨ho, hs⟩, rfl⟩ .abortedSqDeletion
      rw [← hv] at he
      obtain ⟨m, hm, hin⟩ := State.Appends.ends (State.complete_appends (v.modCtrl c.fn fun k => { k with sqs := k.sqs.filter (·.qid != qidOf c) }) c.ref .success 0 0) he
      exact ⟨m, hm.trans (by rw [State.begin_completions h.1]), hin⟩
  · refine ⟨_, (execDeleteIoCq_of_known h h0 hq).trans (congrArg _ (if_neg (by simpa using hn))),
      State.begin_modCtrl_completes h.1 (f := fun k => { k with cqs := k.cqs.filter (·.qid != qidOf c) }) (fun _ => ⟨rfl, rfl⟩) _, ?_⟩
    refine cqid_ne_of_still (State.begin_modCtrl_still h.1 (fun k => { k with cqs := k.cqs.filter (·.qid != qidOf c) }) .success) ?_
    intro q hm
    simpa using (List.mem_filter.mp hm).2
  · refine ⟨_, (execDeleteIoCq_of_known h h0 hq).trans (congrArg _ (if_pos (by simpa using he))), State.begin_completes h.1 _ 0 0, ?_⟩
    exact exists_cqid_of_still (State.ctrl_still (t.complete_posts c.ref _ 0 0).2 c.fn) (by rwa [State.begin_cqs h.1])

end Sys2Proof.Machine
end

section
/-!
PROOFS. Chapter 05: log pages, events and Abort (O22, O24).
-/

namespace Sys2Proof.Machine

open Sys2Proof.Safety

/-! ### What the end of a command does to its controller -/

/-- A controller without its completion queues: what the posting of a completion keeps. -/
def Ctrl.core (k : Ctrl) : Ctrl := { k with cqs := [], unposted := [], msixPending := [] }

theorem State.modCtrl_core (s : State) (n : Nat) {f : Ctrl → Ctrl} (h : ∀ k, (f k).core = k.core) (fn : Nat) :
    ((s.modCtrl n f).ctrl fn).core = (s.ctrl fn).core := by
  by_cases hn : fn = n
  · subst hn
    by_cases hl : fn < s.pcie.ctrls.length
    · rw [s.ctrl_modCtrl f hl, h]
    · have hl := Nat.le_of_not_lt hl
      unfold State.ctrl State.modCtrl
      rw [List.getD_eq_default _ _ (by simpa using hl), List.getD_eq_default _ _ hl]
  · rw [s.ctrl_modCtrl_ne f hn]
theorem State.interrupt_core (s : State) (n v fn : Nat) : ((s.interrupt n v).ctrl fn).core = (s.ctrl fn).core := by
  unfold State.interrupt
  split
  · rfl
  · split
    · apply s.modCtrl_core; intro; rfl
    · rfl
theorem State.post_core (s : State) (c : Completion) (fn : Nat) : ((s.post c).ctrl fn).core = (s.ctrl fn).core := by
  unfold State.post
  extract_lets k
  split
  · rfl
  split
  · rfl
  split
  · apply s.modCtrl_core; intro; rfl
  extract_lets s1 wrap s2
  have h2 : (s2.ctrl fn).core = (s.ctrl fn).core := by
    apply s1.modCtrl_core; intro; rfl
  split
  · exact (s2.interrupt_core _ _ fn).trans h2
  · exact h2
theorem held_fn_lt {s : State} {r : CmdRef} (h : Held s r) : r.fn < s.pcie.ctrls.length := State.lt_of_outstanding fun h0 => by
  obtain ⟨-, h2⟩ := h
  rw [h0] at h2
  exact Bool.false_ne_true h2
/-- The end of a command takes it from its controller, and its identifier from the event requests held there. -/
theorem State.complete_core (s : State) (r : CmdRef) (st : Status) (a b : Nat) (h : Held s r) :
    ((s.complete r st a b).ctrl r.fn).core = { (s.ctrl r.fn).core with
      outstanding := (s.ctrl r.fn).outstanding.filter (fun o => o.cmd.ref != r)
      aers := if r.sqid = 0 then (s.ctrl r.fn).aers.filter (· != r.cid) else (s.ctrl r.fn).aers } := by
  have hl := held_fn_lt h
  unfold State.complete
  extract_lets held c ord s1 s2
  have hh : (held && s.power.stage == .on) = true := by
    rw [Bool.and_eq_true]
    exact ⟨h.2, by rw [h.1]; rfl⟩
  rw [if_pos hh, State.post_core]
  show (s1.ctrl r.fn).core = _
  rw [s.ctrl_modCtrl _ hl]
  rfl
/-- The end of a command does not touch what waits on its controller. -/
theorem State.complete_waiting (s : State) (r : CmdRef) (st : Status) (a b fn : Nat) :
    ((s.complete r st a b).ctrl fn).waiting = (s.ctrl fn).waiting ∧ ((s.complete r st a b).ctrl fn).held = (s.ctrl fn).held := by
  unfold State.complete
  extract_lets held c ord s1 s2
  split
  · have h := s2.post_core { c with ord := ord } fn
    have h1 : (s1.ctrl fn).waiting = (s.ctrl fn).waiting ∧ (s1.ctrl fn).held = (s.ctrl fn).held := by
      by_cases hf : fn = r.fn
      · subst hf
        by_cases hl : r.fn < s.pcie.ctrls.length
        · rw [s.ctrl_modCtrl _ hl]
          exact ⟨rfl, rfl⟩
        · have hl := Nat.le_of_not_lt hl
          unfold s1 State.ctrl State.modCtrl
          rw [List.getD_eq_default _ _ (by simpa using hl), List.getD_eq_default _ _ hl]
          exact ⟨rfl, rfl⟩
      · rw [s.ctrl_modCtrl_ne _ hf]
        exact ⟨rfl, rfl⟩
    exact ⟨(congrArg Ctrl.waiting h :).trans h1.1, (congrArg Ctrl.held h :).trans h1.2⟩
  · exact ⟨rfl, rfl⟩

section
variable {s t : State} {c : Cmd} (h : s.begin c = some t)
include h

theorem State.begin_aers : (t.ctrl c.fn).aers = (s.ctrl c.fn).aers := (congrArg Ctrl.aers (State.begin_spec h).2.2.2.2 :)
theorem State.begin_waiting : (t.ctrl c.fn).waiting = (s.ctrl c.fn).waiting := (congrArg Ctrl.waiting (State.begin_spec h).2.2.2.2 :)
theorem State.begin_held : (t.ctrl c.fn).held = (s.ctrl c.fn).held := (congrArg Ctrl.held (State.begin_spec h).2.2.2.2 :)

end

/-! ### Asynchronous event requests -/

/-- An event request where `waiting` are the events that wait: it takes the oldest, or is held. -/
def State.awaitEvent (s : State) (c : Cmd) : List Event → State
  | e :: rest => (s.modCtrl c.fn fun k => { k with waiting := rest }).complete c.ref .success (e.aet + 256 * e.info + 65536 * e.page)
  | [] => s.modCtrl c.fn fun k => { k with aers := k.aers ++ [c.cid] }
theorem execAsynchronousEventRequest_of_room {s t : State} {c : Cmd} (h : Starts s c .admin t) (h8 : (s.ctrl c.fn).aers.length < 8) :
    exec (.asynchronousEventRequest c) s = .next (t.awaitEvent c (s.ctrl c.fn).waiting) := by
  refine (State.command_of_starts h _).trans (congrArg _ ?_)
  dsimp only
  rw [if_neg (by rw [State.begin_aers h.1]; omega), State.begin_waiting h.1]
  cases (s.ctrl c.fn).waiting <;> rfl
theorem execAsynchronousEventRequest_of_full {s t : State} {c : Cmd} (h : Starts s c .admin t) (h8 : 8 ≤ (s.ctrl c.fn).aers.length) :
    exec (.asynchronousEventRequest c) s = .next (t.complete c.ref .aerLimit) := by
  refine (State.command_of_starts h _).trans (congrArg _ ?_)
  exact if_pos (by rw [State.begin_aers h.1]; exact h8)
/-- An event request that takes the oldest event. -/
theorem execAsynchronousEventRequest_of_waiting {s t : State} {c : Cmd} {e : Event} {rest : List Event} (h : Starts s c .admin t)
    (h8 : (s.ctrl c.fn).aers.length < 8) (hw : (s.ctrl c.fn).waiting = e :: rest) :
    ∃ u, exec (.asynchronousEventRequest c) s = .next u ∧ Ends s u c .success (e.aet + 256 * e.info + 65536 * e.page)
      ∧ (u.ctrl c.fn).waiting = rest ∧ (u.ctrl c.fn).aers = (s.ctrl c.fn).aers := by
  have hx := execAsynchronousEventRequest_of_room h h8
  rw [hw] at hx
  dsimp only [State.awaitEvent] at hx
  have hl := State.begin_fn_lt h.1
  obtain ⟨v, hv⟩ : ∃ v, v = t.modCtrl c.fn fun k => { k with waiting := rest } := ⟨_, rfl⟩
  have hc : v.ctrl c.fn = { t.ctrl c.fn with waiting := rest } := by rw [hv, t.ctrl_modCtrl _ hl]
  have hsp : t.Spares c.ref v := hv ▸ t.modCtrl_spares c.fn (f := fun k => { k with waiting := rest }) fun _ => ⟨rfl, rfl⟩
  have hfirm := State.begin_firm h.1
  refine ⟨_, hx, hv ▸ State.begin_ends h.1 (hsp.ends hfirm _ _ _), ?_, ?_⟩
  · exact (State.complete_waiting _ _ _ _ _ _).1.trans ((congrArg Ctrl.waiting (hv ▸ hc)) :)
  · have hk := v.complete_core c.ref .success (e.aet + 256 * e.info + 65536 * e.page) 0 (hsp hfirm).1.1
    have ha : (v.ctrl c.fn).aers = (s.ctrl c.fn).aers := (congrArg Ctrl.aers hc :).trans (State.begin_aers h.1)
    have hn : c.cid ∉ (s.ctrl c.fn).aers := by
      rw [← State.begin_aers h.1]
      exact hfirm.2 (sqid_of_admin h)
    have hk' : ((v.complete c.ref .success (e.aet + 256 * e.info + 65536 * e.page)).ctrl c.fn).aers
        = if c.sqid = 0 then (v.ctrl c.fn).aers.filter (· != c.cid) else (v.ctrl c.fn).aers := (congrArg Ctrl.aers hk :)
    rw [if_pos (sqid_of_admin h), ha] at hk'
    rw [hv] at hk'
    refine hk'.trans (List.filter_eq_self.mpr fun a hm => ?_)
    rw [bne_iff_ne]
    exact fun e => hn (e ▸ hm)

/-! ### Abort -/

/-- The command that an Abort names. -/
def abortTarget (c : Cmd) : CmdRef := { fn := c.fn, sqid := bits c.cdw10.toNat 15 0, cid := bits c.cdw10.toNat 31 16 }
/-- Whether the command that an Abort names can be ended. -/
def State.abortable (s : State) (c : Cmd) : Bool :=
  ((s.ctrl c.fn).outstanding.any fun o => o.cmd.ref == abortTarget c && !o.started)
    || ((abortTarget c).sqid == 0 && (s.ctrl c.fn).aers.contains (abortTarget c).cid)
    || (s.hostWaits c.fn).any fun w => w.ref == abortTarget c

theorem execAbort_of_single {s t : State} {c : Cmd} (h : Starts s c .admin t)
    (h1 : ∀ o ∈ (s.ctrl c.fn).outstanding, o.cmd.opcode = 0x08 → o.cmd.ref = c.ref) :
    exec (.abort c) s = .next (if t.abortable c && abortTarget c != c.ref
      then (t.complete (abortTarget c) .abortRequested).complete c.ref .success 0 else t.complete c.ref .success 1) := by
  refine (State.command_of_starts h _).trans (congrArg _ ?_)
  have he : (((t.ctrl c.fn).earlier c).filter fun o => o.cmd.opcode == 0x08) = [] := by
    refine List.filter_eq_nil_iff.mpr fun o ho hop => ?_
    have hm := List.mem_takeWhile_imp (List.mem_filter.mp ho).1
    have hne : o.cmd.ref ≠ c.ref := by simpa using hm
    have hin := (List.takeWhile_sublist _).mem (List.mem_filter.mp ho).1
    exact hne (h1 o ((State.begin_outstanding_other h.1 hne).mp hin) (beq_iff_eq.mp hop))
  dsimp only
  rw [he]
  exact if_neg (by decide)

/-- Settles O24: a request waits, takes the oldest event, or is one too many; Abort ends what has not started. -/
theorem eventsAndAbort : Obligations.EventsAndAbort := by
  unfold Obligations.EventsAndAbort
  intro s t c h
  refine ⟨fun h8 hw => ?_, fun e rest h8 hw => execAsynchronousEventRequest_of_waiting h h8 hw,
    fun h8 => ⟨_, execAsynchronousEventRequest_of_full h h8, State.begin_completes h.1 _ 0 0⟩, fun h1 => ⟨fun o ho hr hns hne => ?_, fun hno hne h0 => ?_⟩⟩
  · have hx := execAsynchronousEventRequest_of_room h h8
    rw [hw] at hx
    dsimp only [State.awaitEvent] at hx
    refine ⟨_, hx, (State.begin_completions h.1 :), ?_⟩
    rw [t.ctrl_modCtrl _ (State.begin_fn_lt h.1)]
    exact congrArg (· ++ [c.cid]) (State.begin_aers h.1)
  · have hrt : o.cmd.ref = abortTarget c := hr
    have hot : o ∈ (t.ctrl c.fn).outstanding := (State.begin_outstanding_other h.1 fun e => hne (hr.symm.trans e)).mpr ho
    have hab : t.abortable c = true := by
      have : ((t.ctrl c.fn).outstanding.any fun o => o.cmd.ref == abortTarget c && !o.started) = true :=
        List.any_eq_true.mpr ⟨o, hot, by rw [hrt, hns, beq_self_eq_true]; rfl⟩
      unfold State.abortable
      rw [this]
      rfl
    have hheld : Held t (abortTarget c) := ⟨(State.begin_firm h.1).1.1, List.any_eq_true.mpr ⟨o, hot, beq_iff_eq.mpr hrt⟩⟩
    have hx := (execAbort_of_single h h1).trans (congrArg _ (if_pos (by rw [hab, bne_iff_ne.mpr (show abortTarget c ≠ c.ref from hne)]; rfl)))
    have hcs := t.complete_spares (q := abortTarget c) hne .abortRequested 0 0
    have hfirm := State.begin_firm h.1
    refine ⟨_, hx, ?_, State.begin_ends h.1 (hcs.ends hfirm _ 0 0), fun x hxm => ?_⟩
    · have he := (State.complete_appends _ c.ref .success 0 0).ends (State.complete_endsRef rfl hheld .abortRequested 0 0)
      rw [← hrt] at he
      obtain ⟨l, hl, hin⟩ := he
      exact ⟨l, by rw [← hrt, hl, State.begin_completions h.1], hin⟩
    · have hk := (t.complete (abortTarget c) .abortRequested).complete_core c.ref .success 0 0 (hcs hfirm).1.1
      have hk' := t.complete_core (abortTarget c) .abortRequested 0 0 hheld
      have ho' : (((t.complete (abortTarget c) .abortRequested).complete c.ref .success 0).ctrl c.fn).outstanding
          = ((t.complete (abortTarget c) .abortRequested).ctrl c.fn).outstanding.filter (fun o => o.cmd.ref != c.ref) := (congrArg Ctrl.outstanding hk :)
      have ho'' : ((t.complete (abortTarget c) .abortRequested).ctrl c.fn).outstanding
          = (t.ctrl c.fn).outstanding.filter (fun o => o.cmd.ref != abortTarget c) := (congrArg Ctrl.outstanding hk' :)
      rw [ho', ho''] at hxm
      have := (List.mem_filter.mp (List.mem_filter.mp hxm).1).2
      exact bne_iff_ne.mp this
  · have hnt : ∀ o ∈ (t.ctrl c.fn).outstanding, o.cmd.ref ≠ abortTarget c := fun o ho e =>
      hno o ((State.begin_outstanding_other h.1 (e ▸ hne)).mp ho) e
    have hab : t.abortable c = false := by
      have e1 : ((t.ctrl c.fn).outstanding.any fun o => o.cmd.ref == abortTarget c && !o.started) = false :=
        List.any_eq_false.mpr fun o ho => by simp [hnt o ho]
      have e2 : ((abortTarget c).sqid == 0) = false := beq_eq_false_iff_ne.mpr h0
      have e3 : ((t.hostWaits c.fn).any fun w => w.ref == abortTarget c) = false := by
        refine List.any_eq_false.mpr fun w hw => ?_
        obtain ⟨o, ho, rfl⟩ := List.mem_map.mp hw
        simpa using hnt o (List.mem_filter.mp ho).1
      unfold State.abortable
      rw [e1, e2, e3]
      rfl
    exact ⟨_, (execAbort_of_single h h1).trans (congrArg _ (if_neg (by rw [hab]; simp))), State.begin_completes h.1 _ 1 0⟩

/-! ### Get Log Page -/

theorem readLog_of_page {s : State} {fn : Nat} {c : Cmd} {page : List Byte} (hn : logBytes c ≤ 16777216)
    (hp : s.logPage fn (bits c.cdw10.toNat 7 0) = some page) (hal : logOffset c % 4 = 0) (hle : logOffset c ≤ page.length) :
    s.readLog fn c =
      let s1 := if c.cdw10.getLsbD 15 then s else s.releaseCode fn (bits c.cdw10.toNat 7 0)
      let s2 := if bits c.cdw10.toNat 7 0 = 0xC3 then s1.deferredRead fn (logOffset c) (logBytes c) else s1
      (.success, padTo (logBytes c) (page.drop (logOffset c)),
        if bits c.cdw10.toNat 7 0 = 0x04 && !c.cdw10.getLsbD 15 then s2.modCtrl fn fun k => { k with changedNs := [] } else s2) := by
  refine (if_neg (Nat.not_lt.mpr hn)).trans ?_
  simp only [hp]
  refine if_neg ?_
  have h1 : (c.cdw12.toNat + 2 ^ 32 * c.cdw13.toNat) % 4 = 0 := hal
  have h2 : c.cdw12.toNat + 2 ^ 32 * c.cdw13.toNat ≤ page.length := hle
  rw [Bool.or_eq_true, decide_eq_true_eq, decide_eq_true_eq]
  omega
theorem exec_getLogPage_of_refused {s t u : State} {c : Cmd} {st : Status} {bs : List Byte} (h : Starts s c .admin t)
    (hr : t.readLog c.fn c = (st, bs, u)) (hst : st ≠ .success) : exec (.getLogPage c) s = .next (u.complete c.ref st) := by
  refine (State.command_of_starts h _).trans ?_
  rw [hr]
  dsimp only
  rw [if_neg hst]

theorem bytesOfLe_length (n v : Nat) : (bytesOfLe n v).length = n := by
  induction n generalizing v with
  | zero => rfl
  | succ n ih => exact congrArg (· + 1) (ih _)
theorem logHeader_length (a b c d e f : Nat) : (logHeader a b c d e f).length = 64 := by
  simp only [logHeader, List.length_append, bytesOfLe_length, List.length_replicate, List.length_cons, List.length_nil]
theorem Deferred.bytes_length (d : Deferred) : d.bytes.length = 64 := by
  simp only [Deferred.bytes, List.length_append, bytesOfLe_length, List.length_replicate, List.length_cons, List.length_nil]
/-- The counts of a page's header, as they stand in its bytes. -/
theorem logHeader_fields {a b c d e f : Nat} (ha : a < 256 ^ 8) (hc : c < 256 ^ 4) (hd : d < 256 ^ 2) (rest : List Byte) :
    leOfBytes ((logHeader a b c d e f ++ rest).take 8) = a ∧ leOfBytes (((logHeader a b c d e f ++ rest).drop 16).take 4) = c
      ∧ leOfBytes (((logHeader a b c d e f ++ rest).drop 20).take 2) = d := by
  have l (n v : Nat) := bytesOfLe_length n v
  unfold logHeader
  simp only [List.append_assoc]
  refine ⟨?_, ?_, ?_⟩
  · rw [List.take_left' (l 8 a), Tests.leOfBytes_bytesOfLe 8 a ha]
  · rw [← List.append_assoc, List.drop_left' (by simp [l]), List.take_left' (l 4 c), Tests.leOfBytes_bytesOfLe 4 c hc]
  · rw [← List.append_assoc, ← List.append_assoc, List.drop_left' (by simp [l]), List.take_left' (l 2 d), Tests.leOfBytes_bytesOfLe 2 d hd]
/-- The page of deferred write errors has one entry of 64 bytes for each that the function sees. -/
theorem deferredPage_length (s : State) (fn : Nat) : (s.vendorPage fn 0xC3).length = 64 + 64 * (s.deferredSeenBy fn).length := by
  have hf (l : List Deferred) : (l.flatMap Deferred.bytes).length = 64 * l.length := by
    induction l with
    | nil => rfl
    | cons d l ih => rw [List.flatMap_cons, List.length_append, ih, Deferred.bytes_length, List.length_cons]; omega
  show (logHeader _ _ _ _ _ _ ++ _).length = _
  rw [List.length_append, logHeader_length, hf]
/-- A read of the whole page marks every entry of the function. -/
theorem deferredRead_of_whole {s : State} {fn n : Nat} (hn : 64 + 64 * (s.deferredSeenBy fn).length ≤ n) :
    ∀ d ∈ (s.deferredRead fn 0 n).logs.deferred, d.fn = fn → d.readByOwner = true := by
  rw [State.deferredRead_deferred]
  intro d hd hf
  obtain ⟨e, he, rfl⟩ := List.mem_map.mp hd
  by_cases hc : (s.returnedSeqs fn 0 n).contains e.seq = true
  · rw [if_pos hc]
  · rw [if_neg hc] at hf
    refine absurd (List.contains_iff_mem.mpr (State.mem_returnedSeqs.mpr ⟨e, ?_, rfl⟩)) hc
    have hm : e ∈ s.deferredSeenBy fn := List.mem_filter.mpr ⟨he, by simp [hf]⟩
    obtain ⟨i, hi⟩ := List.getElem?_of_mem hm
    have hlt := (List.getElem?_eq_some_iff.mp hi).1
    exact ⟨i, hi, hf, by omega, by omega⟩
theorem vendorPage_logs (s t : State) (h : t.logs = s.logs) (fn page : Nat) : t.vendorPage fn page = s.vendorPage fn page := by
  unfold State.vendorPage State.deferredSeenBy
  rw [h]

/-- Settles O22: the branches of Get Log Page, an event held back, and the header of a page. -/
theorem logPages : Obligations.LogPages := by
  unfold Obligations.LogPages
  refine ⟨fun s t c page h => ?_, fun s page body fault hp => ?_, fun s page hp hq hn => ?_⟩
  · intro lid n off hn
    refine ⟨fun hpg hal hle => ?_, fun hpg hal => ?_, fun hf hl => ?_⟩
    · have hr := readLog_of_page hn hpg hal hle
      refine ⟨fun hra hl3 => ?_, fun hra => ?_, fun hl3 h0 hlen => ?_⟩
      · dsimp only at hr
        rw [if_pos hra, if_neg hl3, if_neg (by rw [hra]; simp)] at hr
        exact exec_getLogPage_of_success h hr
      · dsimp only at hr
        rw [if_neg (show ¬ c.cdw10.getLsbD 15 = true by rw [hra]; exact Bool.false_ne_true)] at hr
        have hl := State.begin_fn_lt h.1
        obtain ⟨v, hv⟩ : ∃ v, v = if bits c.cdw10.toNat 7 0 = 0xC3 then (t.releaseCode c.fn (bits c.cdw10.toNat 7 0)).deferredRead c.fn (logOffset c) (logBytes c)
          else t.releaseCode c.fn (bits c.cdw10.toNat 7 0) := ⟨_, rfl⟩
        rw [← hv] at hr
        have hvc : v.ctrl c.fn = { t.ctrl c.fn with held := (t.ctrl c.fn).held.filter (· != lid) } := by
          have e : (t.releaseCode c.fn lid).ctrl c.fn = { t.ctrl c.fn with held := (t.ctrl c.fn).held.filter (· != lid) } := t.ctrl_modCtrl _ hl
          rw [hv]
          split <;> exact e
        have hvs : t.Spares c.ref v := by
          have e : t.Spares c.ref (t.releaseCode c.fn lid) :=
            t.modCtrl_spares c.fn (f := fun k => { k with held := k.held.filter (· != lid) }) fun _ => ⟨rfl, rfl⟩
          rw [hv]
          exact .ite (e.trans (.of_pcie rfl rfl)) e
        obtain ⟨w, hw⟩ : ∃ w, w = if bits c.cdw10.toNat 7 0 = 0x04 && !c.cdw10.getLsbD 15 then v.modCtrl c.fn fun k => { k with changedNs := [] } else v := ⟨_, rfl⟩
        rw [← hw] at hr
        have hwh : (w.ctrl c.fn).held = (v.ctrl c.fn).held := by
          have hlv : c.fn < v.pcie.ctrls.length := held_fn_lt (hvs (State.begin_firm h.1)).1.1
          rw [hw]
          split
          · rw [v.ctrl_modCtrl _ hlv]
          · rfl
        have hws : t.Spares c.ref w := by
          rw [hw]
          exact .ite (hvs.trans (v.modCtrl_spares c.fn fun _ => ⟨rfl, rfl⟩)) hvs
        have hds (bs : List Byte) : t.Spares c.ref (w.dataOut c.fn c.prp1 c.prp2 bs) := hws.trans (.of_eq
          (congrArg (·.power.stage) (w.dataOut_onlyHost c.fn c.prp1 c.prp2 bs) :)
          (congrArg Pcie.ctrls (w.dataOut_pcie c.fn c.prp1 c.prp2 bs) :) (congrArg Pcie.completions (w.dataOut_pcie c.fn c.prp1 c.prp2 bs) :))
        refine ⟨_, exec_getLogPage_of_success h hr, State.begin_ends h.1 ((hds _).ends (State.begin_firm h.1) _ 0 0), ?_⟩
        rw [(State.complete_waiting _ _ _ _ _ _).2]
        have hd (bs : List Byte) : (w.dataOut c.fn c.prp1 c.prp2 bs).ctrl c.fn = w.ctrl c.fn := by
          have e : (w.dataOut c.fn c.prp1 c.prp2 bs).pcie.ctrls = w.pcie.ctrls := (congrArg Pcie.ctrls (w.dataOut_pcie c.fn c.prp1 c.prp2 bs) :)
          unfold State.ctrl
          rw [e]
        rw [hd, hwh, hvc, State.begin_held h.1]
      · obtain ⟨u, hu, he, hlogs⟩ := exec_getLogPage_deferredPage h hl3 (hl3 ▸ hpg) hn hal hle
        refine ⟨u, hu, he, ?_⟩
        have hpage : page = s.vendorPage c.fn 0xC3 := by
          have h3 : t.logPage c.fn 0xC3 = some (t.vendorPage c.fn 0xC3) := by
            unfold State.logPage
            rw [if_pos (by decide), if_pos (by simp [vendorVisible])]
          rw [← vendorPage_logs s t (State.begin_logs h.1)]
          exact Option.some.inj ((hl3 ▸ hpg : t.logPage c.fn 0xC3 = some page).symm.trans h3)
        have h0' : logOffset c = 0 := h0
        rw [hlogs, h0']
        exact deferredRead_of_whole (by rw [← deferredPage_length, ← hpage]; exact hlen)
    · have hr : t.readLog c.fn c = (.invalidField, [], t) := by
        refine (if_neg (Nat.not_lt.mpr hn)).trans ?_
        simp only [show t.logPage c.fn (bits c.cdw10.toNat 7 0) = some page from hpg]
        exact if_pos (by rw [Bool.or_eq_true, decide_eq_true_eq]; exact .inl hal)
      exact ⟨_, exec_getLogPage_of_refused h hr (by decide), State.begin_completes h.1 _ 0 0⟩
    · have hr : t.readLog c.fn c = (.invalidLogPage, [], t) := by
        refine (if_neg (Nat.not_lt.mpr hn)).trans ?_
        have hnone : t.logPage c.fn (bits c.cdw10.toNat 7 0) = none := by
          unfold State.logPage
          have hf' : (c.fn == 0) = false := beq_eq_false_iff_ne.mpr hf
          have hl' : lid = 0xC0 ∨ lid = 0xC1 ∨ lid = 0xC2 ∨ lid = 0xC4 ∨ lid = 0xC5 ∨ lid = 0xC7 ∨ lid = 0xC8 ∨ lid = 3 ∨ lid = 6 ∨ lid = 0x81 := by
            simpa using hl
          rcases hl' with e | e | e | e | e | e | e | e | e | e <;> simp [show bits c.cdw10.toNat 7 0 = _ from e, vendorVisible, hf, hf']
        simp only [hnone]
      exact ⟨_, exec_getLogPage_of_refused h hr (by decide), State.begin_completes h.1 _ 0 0⟩
  · have e : s.log page body fault = { s with logs := s.logs.setPage page ((s.logs.page page).add (logCapacity page) s.now 0 fault body) } := by
      unfold State.log
      extract_lets p s1
      exact State.raise_held (s := s1) hp
    rw [e]
    refine ⟨rfl, ?_⟩
    unfold Logs.setPage
    split <;> rfl
  · have he : ((s.logs.page page).entries.filter fun (e : LogEntry) => (0 : Nat) == 0 || e.owner == 0) = (s.logs.page page).entries := List.filter_eq_self.mpr fun _ _ => rfl
    have hsz : entryBytes page = if page = 0xC7 then 32 else 64 := rfl
    have hne : page ≠ 0xC3 := by rintro rfl; simp at hp
    have hv : ∃ o l f rest, s.vendorPage 0 page = logHeader ((s.logs.page page).nextSeq - 1) o (s.logs.page page).entries.length (entryBytes page) l f ++ rest := by
      unfold State.vendorPage
      rw [if_neg hne]
      dsimp only
      rw [he]
      exact ⟨_, _, _, _, rfl⟩
    obtain ⟨o, l, f, rest, hv⟩ := hv
    rw [hv, ← hsz]
    exact logHeader_fields (by norm_num at hq ⊢; omega) (by norm_num at hn ⊢; omega) (by rw [hsz]; split <;> norm_num) rest

end Sys2Proof.Machine
end

section
/-!
PROOFS. Chapter 05: features (O23).
-/

namespace Sys2Proof.Machine

open Sys2Proof.Safety

/-- The start of a command changes no part of the PCIe block but its controllers. -/
theorem State.begin_pcie {s t : State} {c : Cmd} (h : s.begin c = some t) : { t.pcie with ctrls := s.pcie.ctrls } = s.pcie := by
  unfold State.begin at h
  extract_lets k known compute activating parked waits at h
  split at h
  · cases h
  obtain hk | ⟨x, hx⟩ : known = none ∨ ∃ x, known = some x := by cases known <;> simp
  · rw [hk] at h
    cases h
    rfl
  · rw [hx] at h
    dsimp only at h
    split at h
    · cases h
    · cases h
      rfl

section
variable {s t : State} {c : Cmd} (h : s.begin c = some t)
include h

theorem State.begin_features : (t.ctrl c.fn).features = (s.ctrl c.fn).features := (congrArg Ctrl.features (State.begin_spec h).2.2.2.2 :)
theorem State.begin_floorMs : t.pcie.floorMs = s.pcie.floorMs := (congrArg Pcie.floorMs (State.begin_pcie h) :)
/-- The features of a controller after a command that ended at once. -/
theorem State.begin_complete_features (st : Status) (a : Nat) :
    ((t.complete c.ref st a).ctrl c.fn).features = (s.ctrl c.fn).features :=
  (congrArg Ctrl.features (State.ctrl_still (t.complete_posts c.ref st a 0).2 c.fn) :).trans (State.begin_features h)
theorem State.begin_modCtrl_features (f : Ctrl → Ctrl) (st : Status) :
    (((t.modCtrl c.fn f).complete c.ref st).ctrl c.fn).features = (f (t.ctrl c.fn)).features :=
  (congrArg Ctrl.features (State.begin_modCtrl_still h f st) :)

end

theorem State.complete_floorMs (s : State) (r : CmdRef) (st : Status) (a b : Nat) : (s.complete r st a b).pcie.floorMs = s.pcie.floorMs :=
  (congrArg Pcie.floorMs (s.complete_posts r st a b).2 :)
/-- A Set Features that does not save. -/
theorem State.setFeature_of_known {s : State} {c : Cmd} {fid : Nat} (hs : c.cdw10.getLsbD 31 = false) (hk : featureKnown fid = true) :
    s.setFeature c fid = (s.featureSet c fid).2.2.complete c.ref (s.featureSet c fid).1 (s.featureSet c fid).2.1 := by
  unfold State.setFeature
  extract_lets save
  have hs : save = false := hs
  rw [if_neg (by rw [hk]; decide), if_neg (by simp [hs])]
  exact if_neg (by simp [hs])
theorem State.setFeature_of_unknown {s : State} {c : Cmd} {fid : Nat} (hk : featureKnown fid = false) :
    s.setFeature c fid = s.complete c.ref .invalidField := if_pos (by rw [hk]; rfl)
/-- The command timeouts: both lie between the floor and 60,000 ms, or nothing is set. -/
theorem State.featureSet_timeouts (s : State) (c : Cmd) : s.featureSet c 0xC0
    = if s.pcie.floorMs ≤ bits c.cdw11.toNat 15 0 ∧ bits c.cdw11.toNat 15 0 ≤ 60000 ∧ s.pcie.floorMs ≤ bits c.cdw11.toNat 31 16
        ∧ bits c.cdw11.toNat 31 16 ≤ 60000
      then (.success, 0, s.modCtrl c.fn fun k => { k with features := k.features.put 0xC0 0 c.cdw11.toNat }) else (.invalidField, 0, s) := by
  simp [State.featureSet, and_assoc]
theorem State.featureSet_floor (s : State) (c : Cmd) : s.featureSet c 0xC1
    = if c.fn = 0 ∧ bits c.cdw11.toNat 15 0 ≠ 0 ∧ bits c.cdw11.toNat 15 0 ≤ 1000 ∧ s.floorHolds (bits c.cdw11.toNat 15 0) = true
      then (.success, 0, s.modPcie fun p => { p with floorMs := bits c.cdw11.toNat 15 0 }) else (.invalidField, 0, s) := by
  have e : s.featureSet c 0xC1 = if c.fn ≠ 0 || bits c.cdw11.toNat 15 0 = 0 || bits c.cdw11.toNat 15 0 > 1000
      || !s.floorHolds (bits c.cdw11.toNat 15 0) then (.invalidField, 0, s)
    else (.success, 0, s.modPcie fun p => { p with floorMs := bits c.cdw11.toNat 15 0 }) := rfl
  rw [e]
  by_cases h : c.fn = 0 ∧ bits c.cdw11.toNat 15 0 ≠ 0 ∧ bits c.cdw11.toNat 15 0 ≤ 1000 ∧ s.floorHolds (bits c.cdw11.toNat 15 0) = true
  · rw [if_pos h]
    obtain ⟨h1, h2, h3, h4⟩ := h
    exact if_neg (by simp [h1, h2, h3, h4])
  · rw [if_neg h]
    refine if_pos ?_
    by_contra hc
    simp at hc
    exact h ⟨hc.1.1.1, hc.1.1.2, hc.1.2, hc.2⟩
theorem floorHolds_budget {s : State} {ms : Nat} (h : s.floorHolds ms = true) : s.media.budgetUs < 1000 * ms := by
  unfold State.floorHolds budgetHolds at h
  simp only [Bool.and_eq_true, decide_eq_true_eq] at h
  exact h.1.1
theorem execGetFeatures_of_current {s t : State} {c : Cmd} {fid : Nat} (h : Starts s c .admin t) (hs : bits c.cdw10.toNat 10 8 = 0)
    (hf : bits c.cdw10.toNat 7 0 = fid) (hk : featureKnown fid = true) (h9 : fid ≠ 0x09) (he : fid ≠ 0x0E) :
    exec (.getFeatures c) s = .next (t.complete c.ref .success (t.featureValue c.fn fid c.cdw11 0)) := by
  refine (State.command_of_starts h _).trans (congrArg _ ?_)
  dsimp only
  rw [hs, hf, if_neg (by simp [hk]), if_neg (by decide), if_neg he, if_neg (by simp [h9])]

/-- Settles O23: each feature's branch of Set Features, and what Get Features reads. -/
theorem featureValues : Obligations.FeatureValues := by
  unfold Obligations.FeatureValues
  intro s t c h
  dsimp only
  have hb := h.1
  refine ⟨fun hs => ⟨?_, fun h1 h2 h3 h4 => ?_, fun hbad => ?_, fun hf h1 h2 h3 => ?_, fun hbad => ?_, fun hk => ?_, fun hf => ?_, fun hf => ?_⟩,
    fun hs hf => ?_, fun hs hf => ?_⟩
  · have hx : exec (.setArbitration c) s = .next ((t.modCtrl c.fn fun k =>
        { k with features := k.features.put 0x01 0 c.cdw11.toNat, wrrLeft := (0, 0, 0) }).complete c.ref .success 0) :=
      (State.command_of_starts h _).trans (congrArg _ (State.setFeature_of_known hs rfl))
    refine ⟨_, hx, (by apply State.begin_modCtrl_completes hb; intro; exact ⟨rfl, rfl⟩), (State.begin_modCtrl_features hb _ _).trans ?_⟩
    rw [← State.begin_features hb]
    rfl
  · have hx : exec (.setCommandTimeouts c) s = .next ((t.modCtrl c.fn fun k =>
        { k with features := k.features.put 0xC0 0 c.cdw11.toNat }).complete c.ref .success 0) := by
      refine (State.command_of_starts h _).trans (congrArg _ ((State.setFeature_of_known hs rfl).trans ?_))
      rw [State.featureSet_timeouts, if_pos (by rw [State.begin_floorMs hb]; exact ⟨h1, h2, h3, h4⟩)]
    refine ⟨_, hx, (by apply State.begin_modCtrl_completes hb; intro; exact ⟨rfl, rfl⟩), (State.complete_floorMs _ _ _ _ _).trans (State.begin_floorMs hb :),
      (State.begin_modCtrl_features hb _ _).trans ?_⟩
    rw [← State.begin_features hb]
    rfl
  · have hx : exec (.setCommandTimeouts c) s = .next (t.complete c.ref .invalidField 0) := by
      refine (State.command_of_starts h _).trans (congrArg _ ((State.setFeature_of_known hs rfl).trans ?_))
      rw [State.featureSet_timeouts, if_neg (by rw [State.begin_floorMs hb]; omega)]
    exact ⟨_, hx, State.begin_completes hb _ 0 0, State.begin_complete_features hb _ _⟩
  · have hx : exec (.setDeadlineFloor c) s = .next ((t.modPcie fun p => { p with floorMs := bits c.cdw11.toNat 15 0 }).complete c.ref .success 0) := by
      refine (State.command_of_starts h _).trans (congrArg _ ((State.setFeature_of_known hs rfl).trans ?_))
      rw [State.featureSet_floor, if_pos ⟨hf, by omega, h2, h3⟩]
    refine ⟨_, hx, State.begin_ends hb ?_, State.complete_floorMs _ _ _ _ _⟩
    have hf := State.begin_firm hb
    exact State.Spares.ends (t := t.modPcie fun p => { p with floorMs := bits c.cdw11.toNat 15 0 }) (.of_eq rfl rfl rfl) hf _ 0 0
  · have hx : exec (.setDeadlineFloor c) s = .next (t.complete c.ref .invalidField 0) := by
      refine (State.command_of_starts h _).trans (congrArg _ ((State.setFeature_of_known hs rfl).trans ?_))
      rw [State.featureSet_floor, if_neg]
      rintro ⟨h1, -, h3, h4⟩
      have h5 := floorHolds_budget h4
      rw [State.begin_media hb] at h5
      rcases hbad with hbad | hbad | hbad
      · exact hbad h1
      · exact absurd hbad (Nat.not_lt.mpr h3)
      · exact absurd h5 (Nat.not_lt.mpr hbad)
    exact ⟨_, hx, State.begin_completes hb _ 0 0, (State.complete_floorMs _ _ _ _ _).trans (State.begin_floorMs hb)⟩
  · have hx : exec (.setFeatures c) s = .next (t.complete c.ref .invalidField 0) :=
      (State.command_of_starts h _).trans (congrArg _ (State.setFeature_of_unknown hk))
    exact ⟨_, hx, State.begin_completes hb _ 0 0, State.begin_complete_features hb _ _⟩
  · have hx : exec (.setFeatures c) s = .next ((t.modCtrl c.fn fun k =>
        { k with features := k.features.put 0x0B 0 c.cdw11.toNat }).complete c.ref .success 0) := by
      refine (State.command_of_starts h _).trans (congrArg _ ?_)
      rw [hf]
      exact State.setFeature_of_known hs rfl
    refine ⟨_, hx, (by apply State.begin_modCtrl_completes hb; intro; exact ⟨rfl, rfl⟩), (State.begin_modCtrl_features hb _ _).trans ?_⟩
    rw [← State.begin_features hb]
    show { (t.ctrl c.fn).features with asyncCfg := BitVec.ofNat 32 c.cdw11.toNat } = _
    rw [BitVec.ofNat_toNat, BitVec.setWidth_eq]
  · have hx : exec (.setFeatures c) s = .next (t.complete c.ref .success (t.queueQuota c.fn - 1 + 65536 * (t.queueQuota c.fn - 1))) := by
      refine (State.command_of_starts h _).trans (congrArg _ ?_)
      rw [hf]
      exact State.setFeature_of_known hs rfl
    rw [State.begin_queueQuota hb] at hx
    exact ⟨_, hx, State.begin_completes hb _ _ 0, State.begin_complete_features hb _ _⟩
  · have hx := execGetFeatures_of_current h hs hf rfl (by decide) (by decide)
    have hv : t.featureValue c.fn 0xC0 c.cdw11 0 = (s.ctrl c.fn).features.deadlineMs + 2 ^ 16 * (s.ctrl c.fn).features.nvmTimeoutMs := by
      rw [← State.begin_features hb]
      rfl
    rw [hv] at hx
    exact ⟨_, hx, State.begin_completes hb _ _ 0⟩
  · have hx := execGetFeatures_of_current h hs hf rfl (by decide) (by decide)
    have hv : t.featureValue c.fn 0x07 c.cdw11 0 = s.queueQuota c.fn - 1 + 65536 * (s.queueQuota c.fn - 1) := by
      rw [← State.begin_queueQuota hb]
      rfl
    rw [hv] at hx
    exact ⟨_, hx, State.begin_completes hb _ _ 0⟩

/-! ### Identify and NVMe-MI -/

/-- A byte of a structure lies in the first field that covers it. -/
theorem structureOf_getElem? {id n i : Nat} {fields : List (Nat × Nat × Nat)} {f : Nat × Nat × Nat} (hi : i < n)
    (hf : fields.find? (fun f => decide (f.1 ≤ i) && decide (i < f.1 + f.2.1)) = some f) :
    (structureOf id n fields)[i]? = some (BitVec.ofNat 8 (f.2.2 / 256 ^ (i - f.1) % 256)) := by
  unfold structureOf
  rw [List.getElem?_map, List.getElem?_range hi, Option.map_some, hf]

/-- What an answer over the sideband leaves: its reply. -/
def State.Replies (s t : State) : Prop :=
  { t with pcie := s.pcie } = s ∧ 4 ≤ t.pcie.miReply.length ∧ ∃ khz, { t.pcie with miReply := s.pcie.miReply, smbusKhz := khz } = s.pcie

theorem padTo_length (n : Nat) (l : List Byte) : (padTo n l).length = n := by
  unfold padTo
  rw [List.length_append, List.length_take, List.length_replicate]
  omega
theorem State.miAnswer_length (s : State) (st : Nat) (r d : List Byte) : (s.miAnswer st r d).pcie.miReply.length = 4 + d.length := by
  show (bytesOfLe 1 st ++ padTo 3 r ++ d).length = _
  rw [List.length_append, List.length_append, bytesOfLe_length, padTo_length]
theorem State.miAnswer_replies (s : State) (st : Nat) (r d : List Byte) : s.Replies (s.miAnswer st r d) :=
  ⟨rfl, by rw [State.miAnswer_length]; omega, s.pcie.smbusKhz, rfl⟩
theorem exec_of_miAnswers {s : State} (h : s.miAnswers = true) {x : Instr} {f : State → State} (hx : ∀ s, exec x s = s.mi f) :
    exec x s = .next (f s) := (hx s).trans (if_pos h)
/-- Each supported command leaves a reply. -/
theorem exec_mi_replies {s : State} (h : s.miAnswers = true) (dtype portId ctrlId first max offset length config port value : Nat) (clear : Bool) :
    ∀ x ∈ [Instr.miReadDataStructure dtype portId ctrlId, .miSubsystemHealthPoll clear, .miControllerHealthPoll first max clear,
          .miConfigurationGet config port, .miVpdRead offset length, .miConfigurationSet config port value],
      ∃ t, exec x s = .next t ∧ s.Replies t := by
  have ha (st : Nat) (r d : List Byte) := s.miAnswer_replies st r d
  have hi {p : Prop} [Decidable p] {a b : State} (ha : s.Replies a) (hb : s.Replies b) : s.Replies (if p then a else b) := by
    split <;> assumption
  simp only [List.forall_mem_cons, List.not_mem_nil, false_implies, implies_true, and_true]
  refine ⟨⟨_, exec_of_miAnswers h fun _ => rfl, ?_⟩, ⟨_, exec_of_miAnswers h fun _ => rfl, ha _ _ _⟩, ⟨_, exec_of_miAnswers h fun _ => rfl, ha _ _ _⟩,
    ⟨_, exec_of_miAnswers h fun _ => rfl, hi (ha _ _ _) (ha _ _ _)⟩, ⟨_, exec_of_miAnswers h fun _ => rfl, ha _ _ _⟩, ⟨_, exec_of_miAnswers h fun _ => rfl, ?_⟩⟩
  · exact hi (ha _ _ _) (hi (hi (ha _ _ _) (hi (ha _ _ _) (ha _ _ _))) (hi (ha _ _ _) (hi (hi (ha _ _ _) (ha _ _ _)) (hi (ha _ _ _) (ha _ _ _)))))
  · obtain ⟨h1, h2, h3⟩ := ha miSuccess [] []
    exact hi ⟨rfl, h2, s.pcie.smbusKhz, rfl⟩ (ha _ _ _)

theorem execMiTunneledAdmin_identify {s : State} {c : Cmd} (hm : s.miAnswers = true) (h6 : c.opcode = 0x06) :
    exec (.miTunneledAdmin c) s = .next (s.miAnswer miSuccess []
      (bytesOfLe 8 0 ++ bytesOfLe 4 (65536 * (2 * ((s.identifyData 0 c).1.sc + 256 * (s.identifyData 0 c).1.sct))) ++ (s.identifyData 0 c).2)) := by
  refine (if_pos hm).trans (congrArg _ ?_)
  dsimp only
  rw [if_pos h6]
  rfl
theorem execMiTunneledAdmin_refused {s : State} {c : Cmd} (hm : s.miAnswers = true) (h6 : c.opcode ≠ 0x06) (h2 : c.opcode ≠ 0x02) :
    exec (.miTunneledAdmin c) s = .next (s.miAnswer miInvalidOpcode [] []) := by
  refine (if_pos hm).trans (congrArg _ ?_)
  dsimp only
  rw [if_neg h6, if_neg h2]

/-- The bytes of Identify Controller that state `MDTS`, `ACL`, `AERL`, `SGLS`, the number of namespaces, and 0 from byte 536. -/
theorem State.identifyController_bytes (s : State) (fn : Nat) :
    (s.identifyController fn)[77]? = some 12 ∧ (s.identifyController fn)[258]? = some 3 ∧ (s.identifyController fn)[259]? = some 7
      ∧ (s.identifyController fn)[525]? = some 0 ∧ (s.identifyController fn)[516]? = some 32 ∧ (s.identifyController fn)[536]? = some 0 := by
  unfold State.identifyController
  and_intros <;> exact (structureOf_getElem? (by norm_num) rfl).trans rfl

/-- Settles O25: the fields of the structures by place, and the reply of each command. -/
theorem identifyAndMi : Obligations.IdentifyAndMi := by
  unfold Obligations.IdentifyAndMi
  refine ⟨fun s t c h => ⟨fun h1 => ?_, t.identifyController_bytes c.fn⟩,
    fun s hm => ⟨fun dtype portId ctrlId first max offset length config port value clear =>
        exec_mi_replies hm dtype portId ctrlId first max offset length config port value clear,
      ⟨_, exec_of_miAnswers hm fun _ => rfl, rfl, rfl⟩, ⟨_, exec_of_miAnswers hm fun _ => rfl, rfl, rfl⟩,
      fun first max clear => ⟨_, exec_of_miAnswers hm fun _ => rfl, rfl⟩,
      fun offset length => ⟨_, exec_of_miAnswers hm fun _ => rfl, ?_⟩, fun c => ?_⟩⟩
  · have hi : t.identifyData c.fn c = (.success, t.identifyController c.fn) := if_pos h1
    refine (State.command_of_starts h _).trans ?_
    rw [hi]
    dsimp only
    rw [if_pos rfl]
  · exact (s.miAnswer_length _ _ _).trans (by rw [List.length_map, List.length_range])
  · exact ⟨fun h6 => ⟨_, execMiTunneledAdmin_identify hm h6, rfl⟩, fun h6 h2 => ⟨_, execMiTunneledAdmin_refused hm h6 h2, rfl⟩⟩

end Sys2Proof.Machine
end

section
/-!
PROOFS. Chapter 05: command timeouts (O26).
-/

namespace Sys2Proof.Machine

open Sys2Proof.Safety

/-! ### What the spindles' bookkeeping keeps -/

/-- Counters, the commands that have an invocation, and the PCIe block: what the waiting of invocations for their images keeps. -/
def State.served (s : State) : CtrPool × List CmdRef × Pcie := (s.ctrs, s.invocations.map (·.ref), s.pcie)

theorem State.modInv_served (s : State) (r : CmdRef) {f : Invocation → Invocation} (h : ∀ i, (f i).ref = i.ref) :
    (s.modInv r f).served = s.served := by
  have e : (s.modInv r f).invocations.map (·.ref) = s.invocations.map (·.ref) := by
    show (s.invocations.map _).map _ = _
    rw [List.map_map]
    refine List.map_congr_left fun i _ => ?_
    dsimp only [Function.comp]
    split
    · exact h i
    · rfl
  exact congrArg (fun l => (s.ctrs, l, s.pcie)) e
@[simp] theorem State.modTenant_served (s : State) (t : Nat) (f : Tenant → Tenant) : (s.modTenant t f).served = s.served := rfl
theorem State.placeMove_served {s u : State} {i : Invocation} {o : CmdOrigin} (h : s.placeMove i o = some u) : u.served = s.served := by
  unfold State.placeMove at h
  obtain ⟨q, -, rfl⟩ := Option.map_eq_some_iff.mp h
  rfl
theorem State.zeroPoison_served (s : State) (t : Nat) (b : Buffer) : (s.zeroPoison t b).served = s.served := by
  unfold State.zeroPoison
  extract_lets mine bad s1
  exact ite_keep State.served rfl rfl
theorem State.beginRun_served (s : State) (i : Invocation) : (s.beginRun i).served = s.served := by
  unfold State.beginRun
  extract_lets mine others s1
  have h0 : (s1.modInv i.ref fun i => { i with phase := .running, home := true }).served = s1.served := by
    apply State.modInv_served; intro; rfl
  refine h0.trans (foldl_keep State.served _ (fun u x => ?_) _ _)
  split
  · rfl
  extract_lets u1
  have h1 : u1.served = u.served := u.zeroPoison_served _ _
  exact ite_keep State.served rfl (ite_keep State.served h1 (ite_keep State.served h1 h1))
theorem State.beginRuns_served (s : State) (l : List Invocation) : (l.foldl (fun (s : State) i => s.beginRun i) s).served = s.served :=
  foldl_keep State.served _ State.beginRun_served l s
theorem State.pumpHome_served (s : State) (t m : Nat) : (s.pumpHome t m).served = s.served := by
  unfold State.pumpHome
  extract_lets here waiters
  cases waiters with
  | nil => exact ite_keep State.served rfl rfl
  | cons w ws =>
    dsimp only
    refine ite_keep State.served rfl (ite_keep State.served (s.beginRuns_served _) (ite_keep State.served rfl ?_))
    refine ite_keep State.served (State.beginRuns_served _ _) ?_
    split
    · rfl
    · next h => exact .trans (by apply State.modInv_served; intro; rfl) ((State.placeMove_served h).trans (s.modTenant_served t _))
theorem State.pumpWaiters_served (s : State) : s.pumpWaiters.served = s.served := by
  unfold State.pumpWaiters
  extract_lets s1 waiting
  have h1 : s1.served = s.served := by
    refine foldl_keep State.served _ (fun u i => ?_) _ _
    split
    · rfl
    · next h => exact .trans (by apply State.modInv_served; intro; rfl) (State.placeMove_served h)
  exact (foldl_keep State.served _ (fun u (x : Nat × Nat) => u.pumpHome_served x.1 x.2) _ _).trans h1
theorem State.complete_ctrs (s : State) (r : CmdRef) (st : Status) (a b : Nat) :
    (s.complete r st a b).ctrs = s.ctrs ∧ (s.complete r st a b).invocations = s.invocations := by
  have h := s.complete_onlyHost r st a b
  exact ⟨(congrArg State.ctrs h :), (congrArg State.invocations h :)⟩

/-! ### An invocation that ends before it has a tag -/

/-- What follows the completion of an invocation: the counters are kept, the invocation stays away, and nothing is taken back. -/
structure State.Tidies (s t : State) : Prop where
  ctrs : t.ctrs = s.ctrs
  refs : t.invocations.map (·.ref) = s.invocations.map (·.ref)
  appends : s.Appends t

theorem State.Tidies.of_served {s t : State} (h : t.served = s.served) : s.Tidies t :=
  ⟨(congrArg (·.1) h :), (congrArg (·.2.1) h :), [], by rw [show t.pcie = s.pcie from (congrArg (·.2.2) h :), List.append_nil]⟩
theorem State.Tidies.trans {s t u : State} (h : s.Tidies t) (k : t.Tidies u) : s.Tidies u :=
  ⟨k.ctrs.trans h.ctrs, k.refs.trans h.refs, h.appends.trans k.appends⟩
theorem State.complete_tidies (s : State) (r : CmdRef) (st : Status) (a b : Nat) : s.Tidies (s.complete r st a b) := by
  obtain ⟨h1, h2⟩ := s.complete_ctrs r st a b
  exact ⟨h1, by rw [h2], s.complete_appends r st a b⟩
theorem State.closeRun_tidies (s : State) (t : Nat) : s.Tidies (s.closeRun t) :=
  State.Tidies.trans (t := s.modTenant t fun x => { x with runOpen := false }) (.of_served rfl)
    (foldl_rel (R := State.Tidies) (fun _ => .of_served rfl) .trans _ (fun u (c : Cmd) => u.complete_tidies c.ref _ _ _) _ _)
/-- The end of an invocation without a tag, after the end of its command. -/
theorem State.endInv_of_untagged (s : State) {i : Invocation} (h0 : i.tag = 0) (hs : i.silent = false) (st : Status) (dw0 : Nat) :
    ∃ u : State, u = State.complete { s with invocations := s.invocations.filter (·.ref != i.ref) } i.ref st dw0 i.flags.toNat
      ∧ u.Tidies (s.endInv i st dw0) := by
  refine ⟨_, rfl, ?_⟩
  have e : i.dw1 = i.flags.toNat := by unfold Invocation.dw1; rw [h0]; rfl
  unfold State.endInv
  rw [if_pos h0, hs, e]
  extract_lets s1 s2 s3 s4
  have h4 : s3.Tidies s4 := .of_served (s3.pumpHome_served _ _)
  have h3 : s3 = s2.complete i.ref st dw0 i.flags.toNat := if_neg (by decide)
  rw [h3] at h4
  split
  · exact h4
  split
  · exact h4
  · have hc := h4.trans (s4.closeRun_tidies i.tenant)
    generalize s4.closeRun i.tenant = w at hc
    exact (hc.trans (.of_served (w.modTenant_served i.tenant _))).trans (State.complete_tidies _ _ _ _ _)
/-- A stop of an invocation without a tag is its end, with the queues' entries of others untouched. -/
theorem State.stopInv_eq_endInv (s : State) {i : Invocation} (h0 : i.tag = 0) (hp : i.phase ≠ .stopping) (sc dw0 : Nat) :
    ∃ qs, s.stopInv i sc dw0 = (State.endInv { s with queues := qs }
      { i with endSc := sc, endDw0 := dw0, silent := i.silent || false } (.vendor sc) dw0).pumpWaiters := by
  unfold State.stopInv
  rw [if_neg hp]
  extract_lets cut s1 i1 s2
  refine ⟨s.queues.map cut, congrArg State.pumpWaiters (if_neg ?_)⟩
  have ht : (decide (i1.tag ≠ 0)) = false := decide_eq_false (not_not.mpr h0)
  rw [ht]
  exact Bool.false_ne_true
/-- A stop of an invocation without a tag ends its command, and it is gone. -/
theorem State.stopInv_of_untagged {s : State} {i : Invocation} (h0 : i.tag = 0) (hs : i.silent = false) (hp : i.phase ≠ .stopping)
    (hf : Firm s i.ref) (sc dw0 : Nat) : EndsRef s (s.stopInv i sc dw0) i.ref (.vendor sc) dw0 i.flags.toNat
      ∧ (∀ j ∈ (s.stopInv i sc dw0).invocations, j.ref ≠ i.ref) ∧ (s.stopInv i sc dw0).ctrs = s.ctrs := by
  obtain ⟨qs, he⟩ := s.stopInv_eq_endInv h0 hp sc dw0
  obtain ⟨v, hv⟩ : ∃ v : State, v = { s with queues := qs, invocations := s.invocations.filter (·.ref != i.ref) } := ⟨_, rfl⟩
  obtain ⟨u, hu, ht⟩ := State.endInv_of_untagged { s with queues := qs }
    (i := { i with endSc := sc, endDw0 := dw0, silent := i.silent || false }) h0 ((Bool.or_false _).trans hs) (.vendor sc) dw0
  replace hu : u = v.complete i.ref (.vendor sc) dw0 i.flags.toNat := hv ▸ hu
  rw [he]
  obtain ⟨hc, hr, ha⟩ := ht.trans (.of_served (State.pumpWaiters_served _))
  have hsv : s.Spares i.ref v := hv ▸ .of_pcie rfl rfl
  obtain ⟨hk1, hk2⟩ := v.complete_ctrs i.ref (.vendor sc) dw0 i.flags.toNat
  refine ⟨ha.ends (hu ▸ hsv.ends hf _ _ _), fun j hj => ?_, hc.trans (by rw [hu, hk1, hv])⟩
  have hm := List.mem_map_of_mem (f := (·.ref)) hj
  rw [hr, hu, hk2, hv] at hm
  obtain ⟨x, hx, hxr⟩ := List.mem_map.mp hm
  rw [← hxr]
  exact bne_iff_ne.mp (List.mem_filter.mp hx).2

/-! ### The timeout of a command -/

/-- The log entry of a timeout. -/
def State.timeoutEntry (s : State) (r : CmdRef) (ms tag : Nat) : Health :=
  { event := 0x02, status := 0x90, faultNo := s.runningFault r, detail := bytesOfLe 4 ms
    tenant := if r.fn = 0 then 0xFF else r.fn - 1, tag := tag }
/-- The state once a timeout has been reported. -/
def State.timeoutNoted (s : State) (r : CmdRef) (ms tag : Nat) : State :=
  let u := s.health (s.timeoutEntry r ms tag)
  if r.fn = 0 then u else u.modTenant (r.fn - 1) fun t => { t with deadlines := t.deadlines ++ [u.now] }
/-- The flash without the reads, flushes and blocks that a command waits for. -/
def State.dropCommand (s : State) (r : CmdRef) : State :=
  (s.modMedia fun m => { m with
    reads := m.reads.filter (·.ref != r), flushes := m.flushes.filter (·.ref != r)
    buffer := m.buffer.filter (·.waiter != some r) }).dropReaders (· == r)
/-- What a report of a timeout leaves of the state. -/
structure State.Notes (s t : State) : Prop where
  spares : ∀ r, s.Spares r t
  seq : t.logs.c0.nextSeq = s.logs.c0.nextSeq + 1
  media : t.media = s.media
  invocations : t.invocations = s.invocations
  ctrs : t.ctrs = s.ctrs

theorem State.timeoutNoted_notes (s : State) (r : CmdRef) (ms tag : Nat) : s.Notes (s.timeoutNoted r ms tag) := by
  unfold State.timeoutNoted
  extract_lets u
  have hf := s.log_frame 0xC0 (s.timeoutEntry r ms tag).body (s.timeoutEntry r ms tag).counts 0 true
  have hu : s.Notes u := ⟨fun r => s.log_spares r _ _ _ _ _, s.health_c0_nextSeq _, (congrArg State.media hf :),
    (congrArg State.invocations hf :), (congrArg State.ctrs hf :)⟩
  split
  · exact hu
  · exact ⟨fun r => (hu.spares r).trans (.of_pcie rfl rfl), hu.seq, hu.media, hu.invocations, hu.ctrs⟩

section
variable {s : State} {o : Outstanding} {q : Sq} (hon : s.power.stage = .on) (h0 : o.cmd.sqid ≠ 0)
  (ho : (s.ctrl o.cmd.fn).outstanding.find? (fun x => x.cmd.ref == o.cmd.ref) = some o)
  (hq : (s.ctrl o.cmd.fn).sqs.find? (fun x => x.qid == o.cmd.sqid) = some q)
include hon h0 ho hq

/-- The timeout of a command whose invocation has a deadline. -/
theorem execCommandTimeout_of_invocation {i : Invocation} {d : Nat} (hi : s.invocations.find? (fun i => i.ref == o.cmd.ref) = some i)
    (hd : i.deadlineAt = some d) (hp : i.phase ≠ .stopping) : exec (.commandTimeout o.cmd.ref) s = .next (if s.now < d then s
      else (s.timeoutNoted o.cmd.ref ((d - o.fetchedAt) / 1000) i.tag).stopInv i 0x90 (s.runningFault o.cmd.ref)) := by
  refine (if_neg (by simp [hon]; exact h0)).trans ?_
  have ho' : (s.ctrl o.cmd.ref.fn).outstanding.find? (fun x => x.cmd.ref == o.cmd.ref) = some o := ho
  have hq' : (s.ctrl o.cmd.ref.fn).sqs.find? (fun x => x.qid == o.cmd.ref.sqid) = some q := hq
  rw [ho', hq']
  dsimp only
  rw [hi]
  dsimp only
  rw [hd]
  dsimp only
  by_cases hn : s.now < d
  · rw [if_pos hn, if_pos (by simp [hn])]
  · rw [if_neg hn, if_neg (by simp [hn, hp])]
    rfl
/-- The timeout of a command that no invocation serves. -/
theorem execCommandTimeout_of_plain {ms : Nat} (hms : s.timeoutMs o.cmd q.compute = some ms) (hi : ∀ i ∈ s.invocations, i.ref ≠ o.cmd.ref) :
    exec (.commandTimeout o.cmd.ref) s = .next (if s.now < o.fetchedAt + 1000 * ms then s
      else ((s.timeoutNoted o.cmd.ref ((o.fetchedAt + 1000 * ms - o.fetchedAt) / 1000) 0).dropCommand o.cmd.ref).complete o.cmd.ref
        .deadlineExceeded (s.runningFault o.cmd.ref)) := by
  refine (if_neg (by simp [hon]; exact h0)).trans ?_
  have ho' : (s.ctrl o.cmd.ref.fn).outstanding.find? (fun x => x.cmd.ref == o.cmd.ref) = some o := ho
  have hq' : (s.ctrl o.cmd.ref.fn).sqs.find? (fun x => x.qid == o.cmd.ref.sqid) = some q := hq
  have hi' : s.invocations.find? (fun i => i.ref == o.cmd.ref) = none := List.find?_eq_none.mpr fun i hm => by simpa using hi i hm
  rw [ho', hq']
  dsimp only
  rw [hi', hms]
  dsimp only [Option.map]
  by_cases hn : s.now < o.fetchedAt + 1000 * ms
  · rw [if_pos hn, if_pos (by simp [hn])]
  · rw [if_neg hn, if_neg (by simp [hn])]
    rfl

end

/-- Settles O26: the two branches of a timeout, and nothing before its time. -/
theorem commandTimeouts : Obligations.CommandTimeouts := by
  unfold Obligations.CommandTimeouts
  intro s o q ms hon h0 ho hq hms
  have hfirm : Firm s o.cmd.ref := by
    refine ⟨⟨hon, List.any_eq_true.mpr ⟨o, List.mem_of_find?_eq_some ho, beq_self_eq_true _⟩⟩, fun e => absurd e h0⟩
  refine ⟨fun hi => ?_, fun i d hi hd hp => ?_⟩
  · have hx := execCommandTimeout_of_plain hon h0 ho hq hms hi
    refine ⟨fun hd => ?_, fun hd => hx.trans (congrArg _ (if_pos hd))⟩
    replace hx := hx.trans (congrArg _ (if_neg (Nat.not_lt.mpr hd)))
    obtain ⟨u, hu⟩ : ∃ u, u = s.timeoutNoted o.cmd.ref ((o.fetchedAt + 1000 * ms - o.fetchedAt) / 1000) 0 := ⟨_, rfl⟩
    have hn : s.Notes u := hu ▸ s.timeoutNoted_notes _ _ _
    rw [← hu] at hx
    obtain ⟨v, hv⟩ : ∃ v, v = u.dropCommand o.cmd.ref := ⟨_, rfl⟩
    rw [← hv] at hx
    have hvs : s.Spares o.cmd.ref v := (hn.spares _).trans (hv ▸ .of_pcie rfl rfl)
    have hend := v.complete_onlyHost o.cmd.ref .deadlineExceeded (s.runningFault o.cmd.ref) 0
    have hvm : v.media.extents = s.media.extents ∧ v.media.units = s.media.units ∧ v.media.namespaces = s.media.namespaces
        ∧ v.media.superblocks = s.media.superblocks := by
      rw [hv, ← hn.media]
      exact ⟨rfl, rfl, rfl, rfl⟩
    refine ⟨_, hx, hvs.ends hfirm _ _ _, ?_, ?_, ?_, ?_, ?_⟩
    · rw [hend.logs, hv]
      exact hn.seq
    · intro x hm
      have hk := v.complete_core o.cmd.ref .deadlineExceeded (s.runningFault o.cmd.ref) 0 (hvs hfirm).1.1
      have hk' : ((v.complete o.cmd.ref .deadlineExceeded (s.runningFault o.cmd.ref)).ctrl o.cmd.fn).outstanding
        = (v.ctrl o.cmd.fn).outstanding.filter (fun x => x.cmd.ref != o.cmd.ref) := (congrArg Ctrl.outstanding hk :)
      rw [hk'] at hm
      exact bne_iff_ne.mp (List.mem_filter.mp hm).2
    · rw [hend.media, hv]
      intro r hr
      exact bne_iff_ne.mp (List.mem_filter.mp hr).2
    · exact (v.complete_ctrs _ _ _ _).2.trans ((congrArg State.invocations hv :).trans hn.invocations)
    · unfold FlashKept
      rw [hend.media]
      exact hvm
  · have hx := execCommandTimeout_of_invocation hon h0 ho hq hi hd hp
    refine ⟨fun hn => hx.trans (congrArg _ (if_pos hn)), fun hn ht hs => ?_⟩
    have hir : i.ref = o.cmd.ref := by simpa using List.find?_some hi
    have hnotes := s.timeoutNoted_notes o.cmd.ref ((d - o.fetchedAt) / 1000) i.tag
    obtain ⟨hf, l, hl⟩ := hnotes.spares i.ref (hir ▸ hfirm)
    obtain ⟨⟨m, hm, hin⟩, hgone, hc⟩ := State.stopInv_of_untagged ht hs hp hf 0x90 (s.runningFault o.cmd.ref)
    refine ⟨_, hx.trans (congrArg _ (if_neg (Nat.not_lt.mpr hn))), ⟨l ++ m, by rw [hm, hl, List.append_assoc], List.mem_append_right _ hin⟩, hgone, ?_⟩
    rw [hc, hnotes.ctrs]

end Sys2Proof.Machine
end

section
/-!
PROOFS. Chapters 15 and 16: what the scheduling of dies and the placing of rows keep.
-/

namespace Sys2Proof.Machine

open Sys2Proof.Safety

/-! ### Dies -/

/-- The state without what the scheduling of a die changes. -/
def State.sansDies (s : State) : State := { s with media := { s.media with dies := [], suspends := 0 } }

@[simp] theorem State.modDie_sansDies (s : State) (c d : Nat) (f : Die → Die) : (s.modDie c d f).sansDies = s.sansDies := rfl
@[simp] theorem State.kick_sansDies (s : State) (c d : Nat) : (s.kick c d).sansDies = s.sansDies := by
  unfold State.kick
  extract_lets x
  split
  · rfl
  split <;> rfl
@[simp] theorem State.suspend_sansDies (s : State) (c d : Nat) : (s.suspend c d).sansDies = s.sansDies := rfl
@[simp] theorem State.enqueue_sansDies (s : State) (c d : Nat) (o : DieOp) : (s.enqueue c d o).sansDies = s.sansDies := by
  unfold State.enqueue
  extract_lets late s1 s2
  have h1 : s1.sansDies = s.sansDies := rfl
  have h2 : s2.sansDies = s1.sansDies := ite_keep State.sansDies (s1.suspend_sansDies c d) rfl
  exact (s2.kick_sansDies c d).trans (h2.trans h1)

/-! ### Rows -/

/-- The state without what the placing of rows changes: the dies, the superblocks and jobs, and the row of a buffered block. -/
def State.sansRows (s : State) : State :=
  { s with media := { s.media with
      dies := [], suspends := 0, groups := [], jobs := [], nextJob := 0, buffer := s.media.buffer.map fun b => { b with job := none }
      rotate := [], superblocks := [], nextSuperblock := 0, closeCount := 0 } }

theorem State.sansRows_of_sansDies {s t : State} (h : t.sansDies = s.sansDies) : t.sansRows = s.sansRows := (congrArg State.sansRows h :)
@[simp] theorem State.modGroup_sansRows (s : State) (g : Nat) (f : Group → Group) : (s.modGroup g f).sansRows = s.sansRows := rfl
@[simp] theorem State.modSuperblock_sansRows (s : State) (id : Nat) (f : Superblock → Superblock) :
    (s.modSuperblock id f).sansRows = s.sansRows := rfl
@[simp] theorem State.advance_sansRows (s : State) (id : Nat) : (s.advance id).sansRows = s.sansRows := rfl
@[simp] theorem State.recordRole_sansRows (s : State) (g : Nat) : (s.recordRole g).sansRows = s.sansRows := by
  unfold State.recordRole
  split <;> rfl
theorem State.openSuperblock_sansRows {s t : State} {g j : Nat} {use : SbUse} {most : Bool} {b : Superblock}
    (h : s.openSuperblock g j use most = some (b, t)) : t.sansRows = s.sansRows := by
  unfold State.openSuperblock at h
  extract_lets slots at h
  split at h
  · cases h
  · split at h
    · cases h
    · cases h; rfl
theorem State.target_sansRows {s t : State} {g : Nat} {use : SbUse} {js : List Nat} {b : Superblock}
    (h : s.target g use js = some (b, t)) : t.sansRows = s.sansRows := by
  induction js with
  | nil => cases h
  | cons j js ih =>
    unfold State.target at h
    extract_lets live at h
    split at h
    · cases h; rfl
    · split at h
      · next r hr => cases h; exact State.openSuperblock_sansRows hr
      · exact ih h
theorem State.startRow_sansRows (s : State) (b : Superblock) (row : Nat) (kind : JobKind) (members : List Member) :
    (s.startRow b row kind members).sansRows = s.sansRows := by
  unfold State.startRow
  extract_lets id s1 s2
  refine (foldl_keep State.sansRows _ (fun u k => ?_) _ s2).trans ?_
  · exact State.sansRows_of_sansDies (u.enqueue_sansDies _ _ _)
  · exact (show s2.sansRows = s1.sansRows from rfl).trans (s.recordRole_sansRows _)
theorem State.placeRow_sansRows {s t : State} {g : Nat} {shadows : Bool} (h : s.placeRow g shadows = some t) : t.sansRows = s.sansRows := by
  unfold State.placeRow at h
  extract_lets use at h
  split at h
  · cases h
  next b u hu =>
    extract_lets us items id u1 u2 at h
    cases h
    have h1 : u1.sansRows = u.sansRows := by
      unfold State.sansRows u1 State.modMedia
      simp only [List.map_map]
      congr 2
      refine List.map_congr_left fun x _ => ?_
      dsimp only [Function.comp]
      split <;> rfl
    exact ((u2.advance_sansRows _).trans (u1.startRow_sansRows _ _ _ _)).trans (h1.trans (State.target_sansRows hu))
theorem State.fillRows_sansRows (s : State) (g : Nat) (shadows force : Bool) (f : Nat) : (s.fillRows g shadows force f).sansRows = s.sansRows := by
  induction f generalizing s with
  | zero => rfl
  | succ f ih =>
    unfold State.fillRows
    extract_lets w full
    split
    · rfl
    · split
      · next h => exact (ih _).trans (State.placeRow_sansRows h)
      · rfl
theorem State.fill_sansRows (s : State) (g : Nat) (force : Bool) : (s.fill g force).sansRows = s.sansRows :=
  (State.fillRows_sansRows _ _ _ _ _).trans (State.fillRows_sansRows _ _ _ _ _)
theorem State.fills_sansRows (s : State) (l : List Nat) (force : Bool) :
    (l.foldl (fun (s : State) g => s.fill g force) s).sansRows = s.sansRows :=
  foldl_keep State.sansRows _ (fun u g => u.fill_sansRows g force) l s

end Sys2Proof.Machine
end

section
/-!
PROOFS. Chapters 05 and 16: Read, Write, Flush and Deallocate (O29).
-/

namespace Sys2Proof.Machine

open Sys2Proof.Safety

/-- What a state holds outside the PCIe block is as before when a command starts. -/
theorem State.begin_congr {s t : State} {c : Cmd} (h : s.begin c = some t) {α : Type} (g : State → α)
    (hg : ∀ (u : State) p, g { u with pcie := p } = g u) : g t = g s := by
  rw [← hg t s.pcie, (State.begin_spec h).1]

/-! ### Lists of steps that take no command back -/

theorem State.Spares.foldl_mem {r : CmdRef} {α : Type} {f : State → α → State} {l : List α}
    (h : ∀ a ∈ l, ∀ s : State, s.Spares r (f s a)) (s : State) : s.Spares r (l.foldl f s) := by
  induction l generalizing s with
  | nil => exact .refl r s
  | cons a l ih => exact (h a List.mem_cons_self s).trans (ih (fun b hb => h b (List.mem_cons_of_mem a hb)) _)

/-! ### The blocks of a Read -/

/-- The state without the cache of map pages. -/
def State.sansCache (s : State) : State := { s with media := { s.media with mapCache := [] } }

theorem State.lookUp_sansCache (s : State) (fn nsid unit : Nat) : (s.lookUp fn nsid unit).sansCache = s.sansCache := by
  unfold State.lookUp
  split <;> rfl
theorem State.lookUps_sansCache (s : State) (fn nsid : Nat) (l : List Nat) :
    (l.foldl (fun (s : State) u => s.lookUp fn nsid u) s).sansCache = s.sansCache :=
  foldl_keep State.sansCache _ (fun u x => u.lookUp_sansCache fn nsid x) l s
theorem State.locate_of_sansCache {s t : State} (h : t.sansCache = s.sansCache) (fn nsid lba : Nat) :
    t.locate fn nsid lba = s.locate fn nsid lba := (congrArg (State.locate · fn nsid lba) h :)
theorem State.locate_of_media {s t : State} (h : t.media = s.media) (fn nsid lba : Nat) : t.locate fn nsid lba = s.locate fn nsid lba := by
  unfold State.locate State.buffered State.unitEntry
  rw [h]
/-- A block sent to the host: host memory, and the relaxed ordering of its writes. -/
structure State.SendsData (s t : State) : Prop where
  media : t.media = s.media
  spares : ∀ r, s.Spares r t

theorem State.SendsData.refl (s : State) : s.SendsData s := ⟨rfl, fun r => .refl r s⟩
theorem State.SendsData.trans {s t u : State} (h : s.SendsData t) (k : t.SendsData u) : s.SendsData u :=
  ⟨k.media.trans h.media, fun r => (h.spares r).trans (k.spares r)⟩
theorem State.readBlock_sendsData (s : State) (r : CmdRef) (slba lba : Nat) (bs : List Byte) : s.SendsData (s.readBlock r slba lba bs) := by
  unfold State.readBlock
  split
  · exact .refl s
  next c hc =>
    unfold State.bufferPut
    generalize cutPieces _ _ _ = ps
    have h := State.putPieces_spec (s.relax c.fn) ps bs
    have hp : ((s.relax c.fn).putPieces ps bs).pcie = (s.relax c.fn).pcie := (congrArg State.pcie h :)
    exact ⟨(congrArg State.media h :), fun r => .of_eq (congrArg (·.power.stage) h :) (by rw [hp]; rfl) (by rw [hp]; rfl)⟩
/-- The blocks of a Read that are at hand are sent. -/
def State.sendBlocks (s : State) (c : Cmd) (nsid : Nat) (lbas : List Nat) : State :=
  lbas.foldl (fun (s : State) l => match s.locate c.fn nsid l with
    | .here bs => s.readBlock c.ref (nvmSlba c) l bs
    | _ => s) s
theorem State.sendBlocks_sendsData (s : State) (c : Cmd) (nsid : Nat) (lbas : List Nat) : s.SendsData (s.sendBlocks c nsid lbas) :=
  foldl_rel (R := State.SendsData) .refl .trans _ (fun u l => by
    split
    · exact u.readBlock_sendsData _ _ _ _
    · exact .refl u) lbas s
/-- The units that a Read looks up: those of its blocks that no buffered block covers. -/
def State.readLookUps (s : State) (c : Cmd) (nsid : Nat) : State :=
  ((((List.range (nvmNlb c)).map (nvmSlba c + ·)).filter fun l => (s.buffered c.fn nsid l).isNone).map (· / 4)).eraseDups.foldl
    (fun (s : State) u => s.lookUp c.fn nsid u) s

section
variable {s t : State} {c : Cmd} {n : Namespace} (h : Starts s c .nvm t) (hn : s.target? c = some n)
include h hn

theorem target_of_starts : t.target? c = some n := (State.begin_congr h.1 (State.target? · c) fun _ _ => rfl).trans hn
theorem execRead_of_range (hl : nvmNlb c ≤ 4096) (hr : n.blocks < nvmSlba c + nvmNlb c) :
    exec (.read c) s = .next (t.complete c.ref .lbaRange) := by
  refine (State.command_of_starts h _).trans (congrArg _ ?_)
  rw [target_of_starts h hn]
  dsimp only
  rw [if_neg (Nat.not_lt.mpr hl), if_pos hr]
theorem execWrite_of_range (hl : nvmNlb c ≤ 4096) (hr : n.blocks < nvmSlba c + nvmNlb c) :
    exec (.write c) s = .next (t.complete c.ref .lbaRange) := by
  refine (State.command_of_starts h _).trans (congrArg _ ?_)
  rw [target_of_starts h hn]
  dsimp only
  rw [if_neg (Nat.not_lt.mpr hl), if_pos hr]
/-- A Read none of whose blocks is on the flash. -/
theorem execRead_of_here (hl : nvmNlb c ≤ 4096) (hr : nvmSlba c + nvmNlb c ≤ n.blocks)
    (hh : ∀ l, nvmSlba c ≤ l → l < nvmSlba c + nvmNlb c → ∃ bs, s.locate c.fn n.nsid l = .here bs) :
    exec (.read c) s = .next (((t.readLookUps c n.nsid).sendBlocks c n.nsid ((List.range (nvmNlb c)).map (nvmSlba c + ·))).complete c.ref .success) := by
  refine (State.command_of_starts h _).trans (congrArg _ ?_)
  have hu : ∀ l ∈ (List.range (nvmNlb c)).map (nvmSlba c + ·), ∃ bs, (t.readLookUps c n.nsid).locate c.fn n.nsid l = .here bs := by
    intro l hm
    obtain ⟨i, hi, rfl⟩ := List.mem_map.mp hm
    have hi := List.mem_range.mp hi
    obtain ⟨bs, hbs⟩ := hh (nvmSlba c + i) (by omega) (by omega)
    exact ⟨bs, ((State.locate_of_sansCache (t.lookUps_sansCache c.fn n.nsid _) c.fn n.nsid _).trans
      (State.locate_of_media (State.begin_media h.1) c.fn n.nsid _)).trans hbs⟩
  rw [target_of_starts h hn]
  dsimp only
  rw [if_neg (Nat.not_lt.mpr hl), if_neg (Nat.not_lt.mpr hr)]
  have hlost : (((List.range (nvmNlb c)).map (nvmSlba c + ·)).any fun l => match (t.readLookUps c n.nsid).locate c.fn n.nsid l with
            | .lost _ => true
            | _ => false) = false := by
    refine List.any_eq_false.mpr fun l hm => ?_
    obtain ⟨bs, hbs⟩ := hu l hm
    rw [hbs]
    exact Bool.false_ne_true
  have hflash : (((List.range (nvmNlb c)).map (nvmSlba c + ·)).filter fun l => match (t.readLookUps c n.nsid).locate c.fn n.nsid l with
            | .flash .. => true
            | _ => false) = [] := by
    refine List.filter_eq_nil_iff.mpr fun l hm => ?_
    obtain ⟨bs, hbs⟩ := hu l hm
    rw [hbs]
    exact Bool.false_ne_true
  refine (if_neg (by rw [Bool.not_eq_true]; exact hlost)).trans (if_pos ?_)
  exact (congrArg List.isEmpty hflash)
/-- A Read one of whose blocks is lost. -/
theorem execRead_of_lost (hl : nvmNlb c ≤ 4096) (hr : nvmSlba c + nvmNlb c ≤ n.blocks) {l f : Nat} (h1 : nvmSlba c ≤ l)
    (h2 : l < nvmSlba c + nvmNlb c) (hf : s.locate c.fn n.nsid l = .lost f) :
    exec (.read c) s = .next ((t.readLookUps c n.nsid).complete c.ref .unrecoveredRead) := by
  refine (State.command_of_starts h _).trans (congrArg _ ?_)
  have hu : (t.readLookUps c n.nsid).locate c.fn n.nsid l = .lost f :=
    ((State.locate_of_sansCache (t.lookUps_sansCache c.fn n.nsid _) c.fn n.nsid _).trans
      (State.locate_of_media (State.begin_media h.1) c.fn n.nsid _)).trans hf
  rw [target_of_starts h hn]
  dsimp only
  rw [if_neg (Nat.not_lt.mpr hl), if_neg (Nat.not_lt.mpr hr)]
  refine if_pos (List.any_eq_true.mpr ⟨l, List.mem_map.mpr ⟨l - nvmSlba c, List.mem_range.mpr (by omega), by omega⟩, ?_⟩)
  show (match (t.readLookUps c n.nsid).locate c.fn n.nsid l with
            | .lost _ => true
            | _ => false) = true
  rw [hu]
theorem execWrite_of_readOnly (hl : nvmNlb c ≤ 4096) (hr : nvmSlba c + nvmNlb c ≤ n.blocks)
    (ho : (s.media.groups.getD n.group {}).readOnly = true) : exec (.write c) s = .next (t.complete c.ref .writeProtected) := by
  refine (State.command_of_starts h _).trans (congrArg _ ?_)
  rw [target_of_starts h hn]
  dsimp only
  rw [if_neg (Nat.not_lt.mpr hl), if_neg (Nat.not_lt.mpr hr), State.begin_media h.1, if_pos ho]

/-- The blocks of a Write enter the buffer. -/
def State.bufferBlocks (s : State) (c : Cmd) (nsid : Nat) (bs : List Byte) : State :=
  (List.range (nvmNlb c)).foldl (fun (s : State) i => s.buffer
    { fn := c.fn, nsid := nsid, lba := nvmSlba c + i, data := Region.ofBytes ((bs.drop (4096 * i)).take 4096), waiter := none }) s

omit h hn in
theorem State.buffer_keeps (s : State) (b : WbBlock) :
    (s.buffer b).sansMedia = s.sansMedia ∧ (s.buffer b).media.namespaces = s.media.namespaces := by
  unfold State.buffer
  extract_lets same s1
  split <;> exact ⟨rfl, rfl⟩
omit h hn in
theorem State.bufferBlocks_keeps (s : State) (c : Cmd) (nsid : Nat) (bs : List Byte) :
    (s.bufferBlocks c nsid bs).sansMedia = s.sansMedia ∧ (s.bufferBlocks c nsid bs).media.namespaces = s.media.namespaces :=
  ⟨foldl_keep State.sansMedia _ (fun u _ => (u.buffer_keeps _).1) _ s, foldl_keep (·.media.namespaces) _ (fun u _ => (u.buffer_keeps _).2) _ s⟩
/-- A Write that fits under the dirty limit is acknowledged from the buffer. -/
theorem execWrite_of_room (hl : nvmNlb c ≤ 4096) (hr : nvmSlba c + nvmNlb c ≤ n.blocks)
    (ho : (s.media.groups.getD n.group {}).readOnly = false) (hg : (s.media.groups.getD n.group {}).gcState ≠ 3)
    (hw : s.writesThrough = false) (hd : 4096 * (s.dirtyBlocks + nvmNlb c) ≤ s.dirtyLimit) :
    exec (.write c) s = .next (((t.bufferBlocks c n.nsid (t.dataIn c.prp1 c.prp2 (4096 * nvmNlb c))).complete c.ref .success).fill n.group false) := by
  refine (State.command_of_starts h _).trans (congrArg _ ?_)
  have hw' : t.writesThrough = false := (State.begin_congr h.1 State.writesThrough fun _ _ => rfl).trans hw
  have hd' : t.dirtyBlocks = s.dirtyBlocks := State.begin_congr h.1 State.dirtyBlocks fun _ _ => rfl
  have hm' : t.dirtyLimit = s.dirtyLimit := State.begin_congr h.1 State.dirtyLimit fun _ _ => rfl
  rw [target_of_starts h hn]
  dsimp only
  rw [if_neg (Nat.not_lt.mpr hl), if_neg (Nat.not_lt.mpr hr), State.begin_media h.1, if_neg (by rw [ho]; exact Bool.false_ne_true),
    hw', hd', hm', if_neg (by rw [Bool.or_eq_true, decide_eq_true_eq]; simp [hd]; exact hg)]
  rfl

end

/-! ### Acknowledgement of writers and flushes -/

/-- One pending Flush is judged: it waits, or it ends. -/
def State.ackFlush (s : State) (p : PendingFlush) : State :=
  if (s.media.buffer.any fun b => b.dirty && b.fn == p.ref.fn && decide (b.seq < p.upTo)) then s
  else
    let s := s.modMedia fun m => { m with flushes := m.flushes.filter (·.ref != p.ref) }
    match s.logs.deferred.find? fun d => d.fn == p.ref.fn && !d.readByOwner && decide (d.arrival < p.upTo) with
    | some d => (s.carry d p.ref).complete p.ref .deferredWriteError (d.seq % 2 ^ 32)
    | none => s.complete p.ref .success

theorem State.ackFlushes_eq (s : State) : s.ackFlushes = s.media.flushes.foldl State.ackFlush s := rfl
theorem State.ackFlush_spares (s : State) {p : PendingFlush} {r : CmdRef} (hp : p.ref ≠ r) : s.Spares r (s.ackFlush p) := by
  unfold State.ackFlush
  split
  · exact .refl r s
  extract_lets u
  have hu : s.Spares r u := .of_pcie rfl rfl
  split
  · next d _ => exact hu.trans (State.Spares.trans (t := u.carry d p.ref) (.of_pcie rfl rfl) (State.complete_spares _ hp _ _ _))
  · exact hu.trans (u.complete_spares hp _ _ _)
theorem State.ackFlush_appends (s : State) (p : PendingFlush) : s.Appends (s.ackFlush p) := by
  unfold State.ackFlush
  split
  · exact .refl s
  extract_lets u
  have hu : s.Appends u := .refl s
  split
  · next d hd => exact State.Appends.trans (t := u.carry d p.ref) hu (State.complete_appends _ _ _ _ _)
  · exact hu.trans (u.complete_appends _ _ _ _)
theorem State.ackFlush_units (s : State) (p : PendingFlush) : (s.ackFlush p).media.units = s.media.units := by
  unfold State.ackFlush
  split
  · rfl
  extract_lets u
  split
  · next d _ =>
    have e := ((u.carry d p.ref).complete_onlyHost p.ref .deferredWriteError (d.seq % 2 ^ 32) 0).media
    exact (congrArg Media.units e :)
  · have e := (u.complete_onlyHost p.ref .success 0 0).media
    exact (congrArg Media.units e :)
theorem State.ackFlushes_spares (s : State) {r : CmdRef} (h : ∀ p ∈ s.media.flushes, p.ref ≠ r) : s.Spares r s.ackFlushes :=
  State.Spares.foldl_mem (fun p hp u => u.ackFlush_spares (h p hp)) s
theorem State.ackFlushes_units (s : State) : s.ackFlushes.media.units = s.media.units :=
  foldl_keep (·.media.units) State.ackFlush State.ackFlush_units _ s
theorem State.ackWriters_spares (s : State) {l : List CmdRef} {r : CmdRef} (h : r ∉ l) : s.Spares r (s.ackWriters l) :=
  State.Spares.foldl_mem (fun q hq u => .ite (.refl r u) (u.complete_spares (fun e => h (by rw [← e]; exact List.mem_eraseDups.mp hq)) _ _ _)) s
theorem State.ackWriters_media (s : State) (l : List CmdRef) : (s.ackWriters l).media = s.media :=
  foldl_keep State.media _ (fun u q => ite_keep State.media rfl (u.complete_onlyHost q .success 0 0).media) _ s

/-- No buffered block is of the function, and its deferred write errors have been read. -/
def State.Settled (s : State) (fn : Nat) : Prop :=
  (∀ b ∈ s.media.buffer, b.fn ≠ fn) ∧ ∀ d ∈ s.logs.deferred, d.fn = fn → d.readByOwner = true

theorem State.ackFlush_settled {s : State} {fn : Nat} (h : s.Settled fn) (p : PendingFlush) : (s.ackFlush p).Settled fn := by
  obtain ⟨hb, hd⟩ := h
  unfold State.ackFlush
  split
  · exact ⟨hb, hd⟩
  extract_lets u
  split
  · next d hd' =>
    have e := State.complete_onlyHost (u.carry d p.ref) p.ref .deferredWriteError (d.seq % 2 ^ 32) 0
    refine ⟨by rw [e.media]; exact hb, ?_⟩
    rw [e.logs, State.carry_deferred]
    intro x hx hf
    obtain ⟨y, hy, rfl⟩ := List.mem_map.mp hx
    split at hf <;> split <;> exact hd y hy hf
  · have e := u.complete_onlyHost p.ref .success 0 0
    exact ⟨by rw [e.media]; exact hb, by rw [e.logs]; exact hd⟩
/-- A Flush of a function with nothing to program succeeds. -/
theorem State.ackFlush_of_settled {s : State} {p : PendingFlush} (h : s.Settled p.ref.fn) :
    ∃ u : State, s.ackFlush p = u.complete p.ref .success ∧ u.pcie = s.pcie ∧ u.power = s.power := by
  obtain ⟨hb, hd⟩ := h
  refine ⟨s.modMedia fun m => { m with flushes := m.flushes.filter (·.ref != p.ref) }, ?_, rfl, rfl⟩
  unfold State.ackFlush
  have h1 : (s.media.buffer.any fun b => b.dirty && b.fn == p.ref.fn && decide (b.seq < p.upTo)) = false :=
    List.any_eq_false.mpr fun b hm => by simp [hb b hm]
  have h2 : (s.logs.deferred.find? fun d => d.fn == p.ref.fn && !d.readByOwner && decide (d.arrival < p.upTo)) = none := by
    refine List.find?_eq_none.mpr fun d hm => ?_
    by_cases hf : d.fn = p.ref.fn
    · simp [hd d hm hf]
    · simp [hf]
  rw [if_neg (by rw [h1]; exact Bool.false_ne_true)]
  dsimp only
  have h2' : ((s.modMedia fun m => { m with flushes := m.flushes.filter (·.ref != p.ref) }).logs.deferred.find?
      fun d => d.fn == p.ref.fn && !d.readByOwner && decide (d.arrival < p.upTo)) = none := h2
  rw [h2']
theorem State.ackFlushes_ends {s : State} {r : CmdRef} (hf : Firm s r) (hs : s.Settled r.fn) {l : List PendingFlush} (hm : ∃ p ∈ l, p.ref = r) :
    EndsRef s (l.foldl State.ackFlush s) r .success := by
  induction l generalizing s with
  | nil => simp at hm
  | cons p l ih =>
    by_cases hp : p.ref = r
    · subst hp
      obtain ⟨u, hu, hp1, hp2⟩ := State.ackFlush_of_settled hs
      have he : EndsRef s (s.ackFlush p) p.ref .success := hu ▸ (State.Spares.of_pcie hp2 hp1).ends hf _ 0 0
      exact (foldl_rel (R := State.Appends) .refl .trans State.ackFlush State.ackFlush_appends l _).ends he
    · obtain ⟨hf', m, hm'⟩ := s.ackFlush_spares hp hf
      obtain ⟨q, hq, hqr⟩ := hm
      obtain ⟨k, hk, hin⟩ := ih hf' (State.ackFlush_settled hs p) ⟨q, (List.mem_cons.mp hq).resolve_left fun e => hp (e ▸ hqr), hqr⟩
      exact ⟨m ++ k, by rw [List.foldl_cons, hk, hm', List.append_assoc], List.mem_append_right _ hin⟩

/-! ### Flush and Deallocate -/

theorem nvm_sqid {s t : State} {c : Cmd} (h : Starts s c .nvm t) : c.sqid ≠ 0 := by
  obtain ⟨-, -, hr, -⟩ := h
  intro h0
  unfold State.refusal at hr
  simp only [h0] at hr
  split at hr
  · cases hr
  · split at hr
    · cases hr
    · simp at hr

section
variable {s t : State} {c : Cmd} {n : Namespace} (h : Starts s c .nvm t) (hn : s.target? c = some n)
include h hn

/-- A Flush asks every group of its function for its rows, and is then judged with the others. -/
theorem execFlush_of_target : ∃ (l : List Nat) (k : Nat), exec (.flush c) s = .next ((l.foldl (fun (s : State) g => s.fill g true)
    (t.modMedia fun m => { m with flushes := m.flushes ++ [{ ref := c.ref, upTo := k }] })).ackFlushes) := by
  refine ⟨((t.media.namespaces.filter (·.fn == c.fn)).map (·.group)).eraseDups, t.blocksSeen c.ref, ?_⟩
  refine (State.command_of_starts h _).trans (congrArg _ ?_)
  rw [target_of_starts h hn]
  exact if_neg (by simp)
/-- A Flush with nothing of its function to program succeeds. -/
theorem flush_ends (hb : ∀ b ∈ s.media.buffer, b.fn ≠ c.fn) (hd : ∀ d ∈ s.logs.deferred, d.fn = c.fn → d.readByOwner = true) :
    ∃ u, exec (.flush c) s = .next u ∧ Ends s u c .success := by
  obtain ⟨l, k, hx⟩ := execFlush_of_target h hn
  obtain ⟨v, hv⟩ : ∃ v, v = t.modMedia fun m => { m with flushes := m.flushes ++ [{ ref := c.ref, upTo := k }] } := ⟨_, rfl⟩
  rw [← hv] at hx
  obtain ⟨w, hw⟩ : ∃ w, w = l.foldl (fun (s : State) g => s.fill g true) v := ⟨_, rfl⟩
  rw [← hw] at hx
  have hr : w.sansRows = v.sansRows := hw ▸ v.fills_sansRows l true
  have hp : w.pcie = t.pcie := (congrArg State.pcie hr :).trans (congrArg State.pcie hv :)
  have hpo : w.power = t.power := (congrArg State.power hr :).trans (congrArg State.power hv :)
  have hlogs : w.logs = s.logs := ((congrArg State.logs hr :).trans (by rw [hv]; rfl : v.logs = t.logs)).trans (State.begin_logs h.1)
  have hfn : w.media.buffer.map (·.fn) = s.media.buffer.map (·.fn) := by
    have e : w.media.buffer.map (fun b => { b with job := none }) = t.media.buffer.map fun b => { b with job := none } :=
      (congrArg (·.media.buffer) hr :).trans (by rw [hv]; rfl)
    have e' := congrArg (List.map WbBlock.fn) e
    rw [List.map_map, List.map_map, State.begin_media h.1] at e'
    exact e'
  have hset : w.Settled c.ref.fn := by
    refine ⟨fun b hm he => ?_, by rw [hlogs]; exact hd⟩
    have hmem : b.fn ∈ w.media.buffer.map (·.fn) := List.mem_map_of_mem hm
    rw [hfn] at hmem
    obtain ⟨x, hx, hxe⟩ := List.mem_map.mp hmem
    exact hb x hx (hxe.trans he)
  have hfl : w.media.flushes = t.media.flushes ++ [{ ref := c.ref, upTo := k }] := (congrArg (·.media.flushes) hr :).trans (by rw [hv]; rfl)
  have hsp : t.Spares c.ref w := .of_pcie hpo hp
  have he := State.ackFlushes_ends (hsp (State.begin_firm h.1)).1 hset (l := w.media.flushes)
    ⟨_, by rw [hfl]; exact List.mem_append_right _ (List.mem_singleton.mpr rfl), rfl⟩
  obtain ⟨m, hm, hin⟩ := he
  exact ⟨_, hx, m, by rw [State.ackFlushes_eq, hm, hp, State.begin_completions h.1], hin⟩

theorem execDatasetManagement_of_other (hd : c.cdw11.getLsbD 2 = false) : exec (.datasetManagement c) s = .next (t.complete c.ref .success) := by
  refine (State.command_of_starts h _).trans (congrArg _ ?_)
  rw [target_of_starts h hn]
  exact if_pos (by rw [hd]; rfl)

end

/-- Range `i` of a Deallocate: its first block and its length. -/
def State.dsmRange (s : State) (c : Cmd) (i : Nat) : Nat × Nat :=
  let bs := s.dataIn c.prp1 c.prp2 (16 * (bits c.cdw10.toNat 7 0 + 1))
  (readLe (listReader bs) (16 * i + 8) 8, readLe (listReader bs) (16 * i + 4) 4)
/-- Whether a range of a Deallocate covers a unit whole. -/
def State.dsmCovers (s : State) (c : Cmd) (u : Nat) : Bool :=
  ((List.range (bits c.cdw10.toNat 7 0 + 1)).map (s.dsmRange c)).any fun r => decide (r.1 ≤ 4 * u) && decide (4 * u + 4 ≤ r.1 + r.2)

theorem execDatasetManagement_of_deallocate {s t : State} {c : Cmd} {n : Namespace} (h : Starts s c .nvm t) (hn : s.target? c = some n)
    (hd : c.cdw11.getLsbD 2 = true) (hr : ∀ i, i < bits c.cdw10.toNat 7 0 + 1 → (t.dsmRange c i).1 + (t.dsmRange c i).2 ≤ n.blocks) :
    exec (.datasetManagement c) s = .next (((t.deallocate c.fn n.nsid (t.dsmCovers c)).journal n.group).complete c.ref .success) := by
  refine (State.command_of_starts h _).trans (congrArg _ ?_)
  rw [target_of_starts h hn]
  dsimp only
  rw [if_neg (by rw [hd]; decide)]
  refine if_neg ?_
  rw [Bool.not_eq_true, List.any_eq_false]
  intro r hm
  obtain ⟨i, hi, rfl⟩ := List.mem_map.mp hm
  exact fun hc => absurd (of_decide_eq_true hc) (Nat.not_lt.mpr (hr i (List.mem_range.mp hi)))
/-- A Deallocate leaves no mapped unit that it covers, and takes back no end of a command of its own identifier. -/
theorem State.deallocate_spec {s : State} {r : CmdRef} (h : Fresh s r) (fn nsid : Nat) (p : Nat → Bool) :
    s.Spares r (s.deallocate fn nsid p)
      ∧ (s.deallocate fn nsid p).media.units = s.media.units.filter fun u => !(u.fn == fn && u.nsid == nsid && p u.unit) := by
  obtain ⟨hf, -, hb, -⟩ := h
  unfold State.deallocate
  extract_lets mine refs s1
  have hm := s1.ackWriters_media refs
  have hr : r ∉ refs := fun hin => by
    obtain ⟨b, hbm, hbw⟩ := List.mem_filterMap.mp hin
    exact hb b (List.mem_filter.mp hbm).1 hbw
  have h1 : s.Spares r s1 := .of_pcie rfl rfl
  refine ⟨(h1.trans (s1.ackWriters_spares hr)).trans (State.ackFlushes_spares _ (by rw [hm]; exact hf)), ?_⟩
  rw [State.ackFlushes_units, hm]
  rfl

/-- Settles O29: the branches of each command, the state each runs in, and the end that follows. -/
theorem nvmCommands : Obligations.NvmCommands := by
  unfold Obligations.NvmCommands
  intro s t c n h hn
  have hb := h.1
  have hfirm := State.begin_firm hb
  have hdone (st : Status) : Ends s (t.complete c.ref st) c st ∧ (t.complete c.ref st).media = s.media :=
    ⟨State.begin_completes hb st 0 0, (t.complete_onlyHost c.ref st 0 0).media.trans (State.begin_media hb)⟩
  have hlook : t.Spares c.ref (t.readLookUps c n.nsid) := by
    have e := t.lookUps_sansCache c.fn n.nsid (((((List.range (nvmNlb c)).map (nvmSlba c + ·)).filter fun l => (t.buffered c.fn n.nsid l).isNone).map (· / 4)).eraseDups)
    exact .of_pcie (congrArg State.power e :) (congrArg State.pcie e :)
  refine ⟨fun hl hr => ?_, fun hl hr => ⟨fun hh => ?_, fun ⟨l, f, h1, h2, hf⟩ => ?_, fun ho => ?_, fun ho hg hw hd => ?_⟩,
    fun hbuf hd => flush_ends h hn hbuf hd, fun hd => ⟨_, execDatasetManagement_of_other h hn hd, hdone _⟩, fun hd => ?_⟩
  · simp only [List.forall_mem_cons, List.not_mem_nil, false_implies, implies_true, and_true]
    exact ⟨⟨_, execRead_of_range h hn hl hr, hdone _⟩, _, execWrite_of_range h hn hl hr, hdone _⟩
  · have hs := (t.readLookUps c n.nsid).sendBlocks_sendsData c n.nsid ((List.range (nvmNlb c)).map (nvmSlba c + ·))
    refine ⟨_, execRead_of_here h hn hl hr hh, State.begin_ends hb ((hlook.trans (hs.spares _)).ends hfirm _ 0 0), ?_, fun h1 bs hbs => ?_⟩
    · rw [(State.complete_onlyHost _ _ _ _ _).media, hs.media]
      have e := t.lookUps_sansCache c.fn n.nsid (((((List.range (nvmNlb c)).map (nvmSlba c + ·)).filter fun l => (t.buffered c.fn n.nsid l).isNone).map (· / 4)).eraseDups)
      rw [← State.begin_media hb]
      exact (congrArg (fun u : State => { u.media with mapCache := t.media.mapCache }) e :)
    · have hbt : s.buffered c.fn n.nsid (nvmSlba c) = t.buffered c.fn n.nsid (nvmSlba c) :=
        (State.begin_congr hb (State.buffered · c.fn n.nsid (nvmSlba c)) fun _ _ => rfl).symm
      have hx : t.readLookUps c n.nsid = if (s.buffered c.fn n.nsid (nvmSlba c)).isNone then t.lookUp c.fn n.nsid (nvmSlba c / 4) else t := by
        unfold State.readLookUps
        rw [h1, hbt]
        by_cases hb' : (t.buffered c.fn n.nsid (nvmSlba c)).isNone = true <;> simp [List.range_one, hb', List.eraseDups_cons]
      have hl' : (t.readLookUps c n.nsid).locate c.fn n.nsid (nvmSlba c) = .here bs :=
        ((State.locate_of_sansCache (t.lookUps_sansCache c.fn n.nsid _) c.fn n.nsid _).trans
          (State.locate_of_media (State.begin_media hb) c.fn n.nsid _)).trans hbs
      have hs : (t.readLookUps c n.nsid).sendBlocks c n.nsid ((List.range (nvmNlb c)).map (nvmSlba c + ·))
          = (t.readLookUps c n.nsid).readBlock c.ref (nvmSlba c) (nvmSlba c) bs := by
        unfold State.sendBlocks
        rw [h1]
        simp only [List.range_one, List.map_cons, List.map_nil, List.foldl_cons, List.foldl_nil, Nat.add_zero]
        rw [hl']
      dsimp only
      rw [hs, ← hx]
  · exact ⟨_, execRead_of_lost h hn hl hr h1 h2 hf, State.begin_ends hb (hlook.ends hfirm _ 0 0)⟩
  · exact ⟨_, execWrite_of_readOnly h hn hl hr ho, hdone _⟩
  · have hx := execWrite_of_room h hn hl hr ho hg hw hd
    obtain ⟨h1, h2⟩ := t.bufferBlocks_keeps c n.nsid (t.dataIn c.prp1 c.prp2 (4096 * nvmNlb c))
    generalize t.bufferBlocks c n.nsid (t.dataIn c.prp1 c.prp2 (4096 * nvmNlb c)) = v at hx h1 h2
    have hsv : t.Spares c.ref v := .of_pcie (congrArg State.power h1 :) (congrArg State.pcie h1 :)
    have hfill := (v.complete c.ref .success).fill_sansRows n.group false
    obtain ⟨m, hm, hin⟩ := State.begin_ends hb (hsv.ends hfirm .success 0 0)
    refine ⟨_, hx, ⟨m, (congrArg (·.pcie.completions) hfill :).trans hm, hin⟩, ?_⟩
    have e : ((v.complete c.ref .success).fill n.group false).media.namespaces = (v.complete c.ref .success).media.namespaces :=
      (congrArg (·.media.namespaces) hfill :)
    rw [e, (v.complete_onlyHost c.ref .success 0 0).media, h2, State.begin_media hb]
  · intro nr bs start len hlen
    have hx := execDatasetManagement_of_deallocate h hn hd hlen
    have hfresh : Fresh t c.ref := by
      have e := State.begin_spec hb
      obtain ⟨h1, h2, h3, h4, h5, h6⟩ := h.2.1
      have hm := State.begin_media hb
      exact ⟨by rwa [hm], by rwa [hm], by rwa [hm], by rwa [hm], by rwa [State.begin_invocations hb], by rwa [State.begin_tenants hb]⟩
    obtain ⟨h1, h2⟩ := State.deallocate_spec hfresh c.fn n.nsid (t.dsmCovers c)
    have h1' : t.Spares c.ref ((t.deallocate c.fn n.nsid (t.dsmCovers c)).journal n.group) := h1.trans (.of_pcie rfl rfl)
    refine ⟨_, hx, State.begin_ends hb (h1'.ends hfirm _ 0 0), ?_⟩
    rw [(State.complete_onlyHost _ _ _ _ _).media]
    intro x hxm hxf hxn i hi hcov
    have hxm' : x ∈ (t.deallocate c.fn n.nsid (t.dsmCovers c)).media.units := hxm
    rw [h2] at hxm'
    have hk := (List.mem_filter.mp hxm').2
    have hc : t.dsmCovers c x.unit = true :=
      List.any_eq_true.mpr ⟨t.dsmRange c i, List.mem_map.mpr ⟨i, List.mem_range.mpr hi, rfl⟩, by
        rw [Bool.and_eq_true, decide_eq_true_eq, decide_eq_true_eq]
        exact hcov⟩
    rw [hc, hxf, hxn] at hk
    simp at hk

end Sys2Proof.Machine
end

section
/-!
PROOFS. Chapter 06: the common checks of vendor I/O commands (O32).
-/

namespace Sys2Proof.Machine

open Sys2Proof.Safety

/-- The rows of the tenants. -/
def tenantRows (c : Cmd) : List Instr :=
  [.admitModel c, .release c, .invoke c, .search c, .extract c, .service c, .alloc c, .free c, .counterRead c, .counterBump c,
    .counterWaitGe c, .runBegin c, .runEnd c, .publishBegin c, .publishData c, .publishVerify c, .publishCommit c, .publishAbandon c]
/-- The rows of direct media. -/
def ownerRows (c : Cmd) : List Instr := [.mediaWrite c, .mediaRead c, .mediaErase c]

theorem exec_of_mem_tenantRows {c : Cmd} : ∀ x ∈ tenantRows c, ∃ needsRun early f, ∀ s, exec x s = s.vendor c false needsRun early f := by
  simp only [tenantRows, List.forall_mem_cons, List.not_mem_nil, false_implies, implies_true, and_true]
  and_intros <;> exact ⟨_, _, _, fun _ => rfl⟩
theorem exec_of_mem_ownerRows {c : Cmd} : ∀ x ∈ ownerRows c, ∃ needsRun early f, ∀ s, exec x s = s.vendor c true needsRun early f := by
  simp only [ownerRows, List.forall_mem_cons, List.not_mem_nil, false_implies, implies_true, and_true]
  and_intros <;> exact ⟨_, _, _, fun _ => rfl⟩

/-- A vendor command that a common check refuses. -/
theorem State.vendor_of_refusal {s t : State} {c : Cmd} {owner needsRun : Bool} {early : State → Option Status} {st : Status}
    (h : s.begin c = some t) (hr : (t.vendorRefusal c owner).or (early t) = some st) (f : State → State) :
    s.vendor c owner needsRun early f = .next (t.complete c.ref st) := by
  unfold State.vendor
  rw [h]
  dsimp only
  rw [hr]
/-- A vendor command that needs an open run and has none. -/
theorem State.vendor_of_closed {s t : State} {c : Cmd} {owner : Bool} {early : State → Option Status} (h : s.begin c = some t)
    (hr : t.vendorRefusal c owner = none) (he : early t = none) (ho : (t.tenant (c.fn - 1)).runOpen = false) (f : State → State) :
    s.vendor c owner true early f = .next (t.complete c.ref .runNotOpen) := by
  unfold State.vendor
  rw [h]
  dsimp only
  rw [hr, he, ho]
  rfl

section
variable {s t : State} {c : Cmd} (h : s.begin c = some t) (h1 : bits c.cdw0.toNat 9 8 = 0) (h2 : bits c.cdw0.toNat 15 14 = 0)
  (h3 : s.svc.runSlot ≠ 2) (h4 : c.sqid ≠ 0) (h5 : ∃ q ∈ (s.ctrl c.fn).sqs, q.qid = c.sqid ∧ q.compute = true)
include h h1 h2 h3 h4 h5

/-- What is left of the common checks for a command of a compute queue. -/
theorem State.vendorRefusal_of_compute (owner : Bool) : t.vendorRefusal c owner =
    if owner = true ∧ c.fn ≠ 0 then some .directMediaProtected else if owner = false ∧ c.fn = 0 then some .invalidOpcode
    else if c.nsid ≠ 0 then some .invalidField else none := by
  have hc : ((t.ctrl c.fn).sqs.any fun q => q.qid == c.sqid && q.compute) = true := by
    rw [State.begin_sqs h]
    obtain ⟨q, hm, hq, hqc⟩ := h5
    exact List.any_eq_true.mpr ⟨q, hm, by simp [hq, hqc]⟩
  unfold State.vendorRefusal
  dsimp only
  rw [hc, State.begin_svc h, if_neg (by simp [h1, h2]), if_neg (by simp [h3, h4])]
  cases owner <;> simp
theorem vendorRefusal_of_owner (hf : c.fn = 0) : t.vendorRefusal c false = some .invalidOpcode := by
  rw [State.vendorRefusal_of_compute h h1 h2 h3 h4 h5, if_neg (fun e => Bool.false_ne_true e.1), if_pos ⟨rfl, hf⟩]
theorem vendorRefusal_of_direct (hf : c.fn ≠ 0) : t.vendorRefusal c true = some .directMediaProtected := by
  rw [State.vendorRefusal_of_compute h h1 h2 h3 h4 h5, if_pos ⟨rfl, hf⟩]
theorem vendorRefusal_of_nsid (hf : c.fn ≠ 0) (hn : c.nsid ≠ 0) : t.vendorRefusal c false = some .invalidField := by
  rw [State.vendorRefusal_of_compute h h1 h2 h3 h4 h5, if_neg (fun e => Bool.false_ne_true e.1), if_neg (fun e => hf e.2), if_pos hn]
theorem vendorRefusal_of_tenant (hf : c.fn ≠ 0) (hn : c.nsid = 0) : t.vendorRefusal c false = none := by
  rw [State.vendorRefusal_of_compute h h1 h2 h3 h4 h5, if_neg (fun e => Bool.false_ne_true e.1), if_neg (fun e => hf e.2), if_neg (not_not.mpr hn)]
omit h1 h2 h3 h4 h5 in
/-- A command that ends at once with a status changes nothing but what its completion does. -/
theorem begin_complete_keeps (st : Status) : Ends s (t.complete c.ref st) c st ∧ (t.complete c.ref st).tenants = s.tenants
    ∧ (t.complete c.ref st).invocations = s.invocations ∧ (t.complete c.ref st).media = s.media ∧ (t.complete c.ref st).ctrs = s.ctrs := by
  have ho := t.complete_onlyHost c.ref st 0 0
  exact ⟨State.begin_completes h st 0 0, (congrArg State.tenants ho :).trans (State.begin_tenants h),
    (congrArg State.invocations ho :).trans (State.begin_invocations h), ho.media.trans (State.begin_media h),
    (congrArg State.ctrs ho :).trans (congrArg State.ctrs (State.begin_spec h).1 :)⟩

end

/-- The four invocation commands meet no check of their own before R199's last where their data fit and no deadline is named. -/
theorem exec_of_invocationRows {c : Cmd} (hd : ceilDiv (inBytesOf c) 4096 * 4096 + outBytesOf c ≤ 16777216) (h0 : deadlineOf c = 0) :
    ∀ x ∈ [Instr.invoke c, .search c, .extract c, .service c], ∃ early f, (∀ s, exec x s = s.vendor c false true early f) ∧ ∀ t : State, early t = none := by
  simp only [List.forall_mem_cons, List.not_mem_nil, false_implies, implies_true, and_true]
  have he (kind : InvKind) (t : State) : (if ceilDiv (inBytesOf c) 4096 * 4096 + outBytesOf c > 16777216 then some Status.invalidField
    else if kind = .service && deadlineOf c = 0xFFFF then none else t.deadlineBad (deadlineOf c)) = none := by
    rw [if_neg (Nat.not_lt.mpr hd), h0]
    split
    · rfl
    · rfl
  exact ⟨⟨_, _, fun _ => rfl, he .invoke⟩, ⟨_, _, fun _ => rfl, he .search⟩, ⟨_, _, fun _ => rfl, he .extract⟩, _, _, fun _ => rfl, he .service⟩

/-- Settles O32: each common check in its turn refuses, and a refused command changes nothing else. -/
theorem vendorChecks : Obligations.VendorChecks := by
  unfold Obligations.VendorChecks
  intro s t c h h1 h2 h3 h4 h5
  have hk := begin_complete_keeps h
  refine ⟨fun hf x hx => ?_, fun hf x hx => ?_, fun hf hn x hx => ?_, fun hf hn => ⟨fun hsub => ?_, fun hsub => ?_⟩, fun hf hn hrun => ⟨fun x hx => ?_, fun hd h0 x hx => ?_⟩⟩
  · obtain ⟨needsRun, early, f, he⟩ := exec_of_mem_tenantRows x hx
    obtain ⟨e1, e2, e3, -, -⟩ := hk .invalidOpcode
    exact ⟨_, (he s).trans (State.vendor_of_refusal h (by rw [vendorRefusal_of_owner h h1 h2 h3 h4 h5 hf]; rfl) f), e1, e2, e3⟩
  · obtain ⟨needsRun, early, f, he⟩ := exec_of_mem_ownerRows x hx
    obtain ⟨e1, -, -, e4, -⟩ := hk .directMediaProtected
    exact ⟨_, (he s).trans (State.vendor_of_refusal h (by rw [vendorRefusal_of_direct h h1 h2 h3 h4 h5 hf]; rfl) f), e1, e4⟩
  · obtain ⟨needsRun, early, f, he⟩ := exec_of_mem_tenantRows x hx
    obtain ⟨e1, e2, e3, -, -⟩ := hk .invalidField
    exact ⟨_, (he s).trans (State.vendor_of_refusal h (by rw [vendorRefusal_of_nsid h h1 h2 h3 h4 h5 hf hn]; rfl) f), e1, e2, e3⟩
  · obtain ⟨e1, e2, -, -, -⟩ := hk .invalidField
    have hx : exec (.counterRead c) s = _ := State.vendor_of_refusal h (st := .invalidField)
      (by rw [vendorRefusal_of_tenant h h1 h2 h3 h4 h5 hf hn]; exact if_pos hsub) _
    exact ⟨_, hx, e1, e2⟩
  · obtain ⟨e1, e2, -, -, -⟩ := hk .invalidField
    have hx : exec (.publishBegin c) s = _ := State.vendor_of_refusal h (st := .invalidField)
      (by rw [vendorRefusal_of_tenant h h1 h2 h3 h4 h5 hf hn]; exact if_pos hsub) _
    exact ⟨_, hx, e1, e2⟩
  · obtain ⟨e1, -, -, -, e5⟩ := hk .runNotOpen
    have hr : (t.tenant (c.fn - 1)).runOpen = false := by unfold State.tenant; rwa [State.begin_tenants h]
    have hc := fun early (he : early t = none) f => State.vendor_of_closed (early := early) h (vendorRefusal_of_tenant h h1 h2 h3 h4 h5 hf hn) he hr f
    refine ⟨t.complete c.ref .runNotOpen, ?_, e1, e5⟩
    simp only [List.mem_cons, List.not_mem_nil, or_false] at hx
    rcases hx with rfl | rfl
    · exact hc _ rfl _
    · exact hc _ rfl _
  · obtain ⟨e1, -, e3, -, -⟩ := hk .runNotOpen
    have hr : (t.tenant (c.fn - 1)).runOpen = false := by unfold State.tenant; rwa [State.begin_tenants h]
    obtain ⟨early, f, he, hn'⟩ := exec_of_invocationRows hd h0 x hx
    exact ⟨_, (he s).trans (State.vendor_of_closed h (vendorRefusal_of_tenant h h1 h2 h3 h4 h5 hf hn) (hn' t) hr f), e1, e3⟩

end Sys2Proof.Machine
end

section
/-!
PROOFS. Chapters 00 and 20: register writes (O31).
-/

namespace Sys2Proof.Machine

open Sys2Proof.Safety

theorem bits_wordOf_zero (v : Nat) {hi lo : Nat} (h : hi < 32) (hl : lo ≤ hi) : bits (wordOf v 0) hi lo = bits v hi lo := by
  unfold bits wordOf
  rw [Nat.mul_zero, Nat.pow_zero, Nat.div_one]
  have e : 2 ^ 32 = 2 ^ lo * 2 ^ (32 - lo) := by rw [← Nat.pow_add]; congr 1; omega
  rw [e, Nat.mod_mul_right_div_self, Nat.mod_mod_of_dvd _ (Nat.pow_dvd_pow 2 (by omega))]
theorem wordOf_and (v : Qword) : wordOf (v &&& 0xFFFFFFFF).toNat 0 = wordOf v.toNat 0 := by
  have e : (v &&& 0xFFFFFFFF).toNat = v.toNat % 2 ^ 32 := by
    rw [BitVec.toNat_and]
    exact Nat.and_two_pow_sub_one_eq_mod v.toNat 32
  unfold wordOf
  rw [e]
  simp
theorem wordOf_shift (v : Qword) : wordOf (v >>> 32).toNat 0 = wordOf v.toNat 1 := by
  unfold wordOf
  rw [BitVec.toNat_ushiftRight, Nat.shiftRight_eq_div_pow]
  simp

section
variable {s : State} (hs : s.power.stage = .on)
include hs

/-- A 4-byte write of a window of registers. -/
theorem execRegisterWrite_of_four {w : Window} (hw : ∀ fn, w ≠ .config fn) {off : Nat} (ho : off % 4 = 0) (v : Qword) :
    exec (.registerWrite w off 4 v) s = .next (s.writeWord w off (wordOf v.toNat 0)) := by
  show execRegisterWrite w off 4 v s = _
  unfold execRegisterWrite
  extract_lets config
  have hc : config = false := by
    cases w with
    | config fn => exact absurd rfl (hw fn)
    | _ => rfl
  rw [if_neg (by simp [hs]), if_neg (by rw [hc]; exact Bool.false_ne_true)]
  exact if_pos ⟨rfl, ho⟩
/-- An 8-byte write of a window of registers: its lower half, and then its upper half. -/
theorem execRegisterWrite_of_eight {w : Window} (hw : ∀ fn, w ≠ .config fn) {off : Nat} (ho : off % 8 = 0) (v : Qword) :
    exec (.registerWrite w off 8 v) s
      = .next ((s.writeWord w off (wordOf v.toNat 0)).writeWord w (off + 4) (wordOf v.toNat 1)) := by
  show execRegisterWrite w off 8 v s = _
  unfold execRegisterWrite
  extract_lets config
  have hc : config = false := by
    cases w with
    | config fn => exact absurd rfl (hw fn)
    | _ => rfl
  rw [if_neg (by simp [hs]), if_neg (by rw [hc]; exact Bool.false_ne_true)]
  exact (if_neg (by omega)).trans (if_pos ⟨rfl, ho⟩)
/-- An access of another width or place is ignored. -/
theorem execRegisterWrite_of_bad {w : Window} (hw : ∀ fn, w ≠ .config fn) {off bytes : Nat}
    (hb : ¬((bytes = 4 ∧ off % 4 = 0) ∨ (bytes = 8 ∧ off % 8 = 0))) (v : Qword) : exec (.registerWrite w off bytes v) s = .next s := by
  show execRegisterWrite w off bytes v s = _
  unfold execRegisterWrite
  extract_lets config
  have hc : config = false := by
    cases w with
    | config fn => exact absurd rfl (hw fn)
    | _ => rfl
  rw [if_neg (by simp [hs]), if_neg (by rw [hc]; exact Bool.false_ne_true)]
  exact (if_neg fun e => hb (.inl e)).trans (if_neg fun e => hb (.inr e))
/-- Where each word that an access may write is ignored, so is the access. -/
theorem execRegisterWrite_of_ignored {w : Window} {off : Nat} (h0 : ∀ v, s.writeWord w off v = s)
    (h4 : off % 8 = 0 → ∀ v, s.writeWord w (off + 4) v = s) (bytes : Nat) (v : Qword) : exec (.registerWrite w off bytes v) s = .next s := by
  show execRegisterWrite w off bytes v s = _
  unfold execRegisterWrite
  extract_lets config
  rw [if_neg (by simp [hs])]
  split
  · rw [h0]
    split <;> rfl
  split
  · rw [h0]
  split
  · next h8 => rw [h0, h4 h8.2]
  · rfl

end

/-- A write of the CLKPWR block reaches the power block alone. -/
theorem State.moduleWrite_of_clkpwr (s : State) {off : Nat} (h1 : 0x2000 ≤ off) (h2 : off < 0x3000) (v : Nat) :
    s.moduleWrite off v = s.modPower fun p => p.write (off - 0x2000) v := if_pos ⟨h1, h2⟩
/-- The blocks of the module window whose registers are read-only ignore a write. -/
theorem State.moduleWrite_of_readOnly (s : State) {off : Nat} (h : off < 0x1000 ∨ (0x3000 ≤ off ∧ off < 0x40000) ∨ 0x60000 ≤ off) (v : Nat) :
    s.moduleWrite off v = s := by
  unfold State.moduleWrite
  rw [if_neg (by omega)]
  split
  · rfl
  rw [if_neg (by omega), if_neg]
  intro hp
  have hm : off ∈ [0x040008, 0x04000C, 0x040040, 0x040044, 0x050000, 0x050004, 0x050008, 0x050010] := List.contains_iff_mem.mp hp
  simp only [List.mem_cons, List.not_mem_nil, or_false] at hm
  omega
/-- While `PERST_N` is asserted, a word outside the CLKPWR block is ignored. -/
theorem State.writeWord_of_perst {s : State} (hp : s.power.perst = true) {w : Window} {off : Nat} (h : w ≠ .module ∨ off < 0x2000 ∨ 0x3000 ≤ off)
    (v : Nat) : s.writeWord w off v = s := by
  cases w with
  | module =>
    have h := h.resolve_left (by simp)
    exact (if_neg (by omega)).trans (if_pos hp)
  | _ => exact if_neg (by rw [hp]; simp)

/-- Settles O31: which words an access writes, and what each register makes of its word. -/
theorem registerWrites : Obligations.RegisterWrites := by
  unfold Obligations.RegisterWrites
  intro s hs
  have hm (fn : Nat) : Window.module ≠ .config fn := nofun
  have hclk (off : Nat) (v : Qword) (h0 : off % 4 = 0) (h1 : 0x2000 ≤ off) (h2 : off < 0x3000) :
      exec (.registerWrite .module off 4 v) s = .next (s.modPower fun p => p.write (off - 0x2000) (wordOf v.toNat 0)) :=
    (execRegisterWrite_of_four hs hm h0 v).trans (congrArg _ (s.moduleWrite_of_clkpwr h1 h2 _))
  refine ⟨fun w off bytes v hw hb => execRegisterWrite_of_bad hs hw hb v, fun v => ?_, fun v hv => ?_, fun v hv => ?_, fun v hv => ?_,
    fun off v h0 hr => ?_, fun hp w off bytes v h => ?_, fun n r v hp hl hr hn => ?_, fun w off t u v h8 hw h1 ht h2 => ?_⟩
  · rw [hclk _ v (by norm_num) (by norm_num) (by norm_num), ← bits_wordOf_zero v.toNat (show 8 < 32 by norm_num) (Nat.zero_le 8)]
    rfl
  · rw [← bits_wordOf_zero v.toNat (show 4 < 32 by norm_num) (Nat.zero_le 4)] at hv ⊢
    rw [hclk _ v (by norm_num) (by norm_num) (by norm_num)]
    refine congrArg _ (congrArg (fun p => { s with power := p }) ?_)
    exact (if_pos rfl).trans (if_pos hv)
  · rw [← bits_wordOf_zero v.toNat (show 4 < 32 by norm_num) (Nat.zero_le 4)] at hv
    rw [hclk _ v (by norm_num) (by norm_num) (by norm_num)]
    refine congrArg _ (congrArg (fun p => { s with power := p }) (a₂ := s.power) ?_)
    exact (if_pos rfl).trans (if_neg (Nat.not_le.mpr hv))
  · rw [← bits_wordOf_zero v.toNat (show 11 < 32 by norm_num) (Nat.zero_le 11)] at hv
    rw [hclk _ v (by norm_num) (by norm_num) (by norm_num)]
    refine congrArg _ (congrArg (fun p => { s with power := p }) (a₂ := s.power) ?_)
    exact (if_neg (by norm_num)).trans ((if_pos rfl).trans (if_neg (by omega)))
  · exact (execRegisterWrite_of_four hs hm h0 v).trans (congrArg _ (s.moduleWrite_of_readOnly hr _))
  · exact execRegisterWrite_of_ignored hs (fun v => State.writeWord_of_perst hp h v)
      (fun h8 v => State.writeWord_of_perst hp (h.imp_right fun h => by omega) v) bytes v
  · refine (execRegisterWrite_of_four hs (fun _ e => by cases e) (by norm_num) v).trans (congrArg _ ?_)
    have hw : s.writeWord (.tenant n) 0x1004 (wordOf v.toNat 0) = s.tenantWrite n 0x1004 (wordOf v.toNat 0) := if_pos (by rw [hl, hp]; rfl)
    rw [hw]
    unfold State.tenantWrite
    rw [hr, bits_wordOf_zero v.toNat (show 1 < 32 by norm_num) (Nat.zero_le 1)]
    rfl
  · have e1 := (execRegisterWrite_of_four hs hw (by omega) _).symm.trans h1
    have e2 := (execRegisterWrite_of_four ht hw (by omega) _).symm.trans h2
    rw [wordOf_and] at e1
    rw [wordOf_shift] at e2
    cases e1
    cases e2
    exact execRegisterWrite_of_eight hs hw h8 v

end Sys2Proof.Machine
end

section
/-!
PROOFS. Chapters 05 and 16: namespaces, Format NVM and Sanitize (O30).
-/

namespace Sys2Proof.Machine

open Sys2Proof.Safety

/-! ### Reports -/

/-- What a report leaves: logs, the PCIe block and host memory apart all is as before, and a held command stays held. -/
structure State.Tells (s t : State) : Prop where
  frame : s.OnlyReports t
  spares : ∀ r, s.Spares r t

theorem State.Tells.refl (s : State) : s.Tells s := ⟨.refl s, fun r => .refl r s⟩
theorem State.Tells.trans {s t u : State} (h : s.Tells t) (k : t.Tells u) : s.Tells u :=
  ⟨h.frame.trans k.frame, fun r => (h.spares r).trans (k.spares r)⟩
theorem State.Tells.ite {p : Prop} [Decidable p] {s a b : State} (ha : s.Tells a) (hb : s.Tells b) : s.Tells (if p then a else b) := by
  split <;> assumption
theorem State.Tells.media {s t : State} (h : s.Tells t) : t.media = s.media := (congrArg State.media h.frame :)
theorem State.Tells.tenants {s t : State} (h : s.Tells t) : t.tenants = s.tenants := (congrArg State.tenants h.frame :)
theorem State.OnlyHost.onlyReports {s t : State} (h : s.OnlyHost t) : s.OnlyReports t := by
  unfold State.OnlyHost at h
  unfold State.OnlyReports
  generalize hp : s.pcie = p at h
  generalize hh : s.host = q at h
  rw [← h]
theorem State.log_tells (s : State) (page : Nat) (body : List Byte) (fault : Bool) (owner : Nat) (event : Bool) :
    s.Tells (s.log page body fault owner event) := ⟨s.log_onlyReports .., fun r => s.log_spares r page body fault owner event⟩
theorem State.raise_tells (s : State) (fn : Nat) (e : Event) : s.Tells (s.raise fn e) :=
  ⟨(s.raise_posts fn e).1.onlyReports, fun r => s.raise_spares r fn e⟩
theorem State.warn_tells (s : State) (bitNo info : Nat) : s.Tells (s.warn bitNo info) := by
  have h1 : s.Tells (s.modPcie fun p => { p with criticalWarning := p.criticalWarning ||| BitVec.ofNat 8 (2 ^ bitNo) }) :=
    ⟨rfl, fun r => .of_eq rfl rfl rfl⟩
  exact .ite (.refl s) (.ite (h1.trans (State.raise_tells _ _ _)) h1)
theorem State.abortTest_tells (s : State) (r : Nat) : s.Tells (s.abortTest r) := by
  refine ⟨s.abortTest_onlyReports r, fun q => ?_⟩
  unfold State.abortTest State.endTest
  split
  · exact .refl q s
  · split
    · exact .refl q s
    · exact State.Spares.trans (t := s.modSvc _) (.of_pcie rfl rfl) (State.log_spares _ q _ _ _ _ _)
theorem State.nsChanged_tells (s : State) (fn nsid : Nat) : s.Tells (s.nsChanged fn nsid) := by
  have h1 : s.Tells (s.modCtrl fn fun k => { k with changedNs := (k.changedNs.filter (· != nsid)) ++ [nsid] }) :=
    ⟨rfl, fun r => s.modCtrl_spares fn fun _ => ⟨rfl, rfl⟩⟩
  exact .ite (h1.trans (State.raise_tells _ _ _)) h1
/-- The judgement of a group's capacity changes its read-only mark, and reports. -/
theorem State.judgeReadOnly_spec (s : State) (g : Nat) : ∃ ro, (s.modGroup g fun x => { x with readOnly := ro }).Tells (s.judgeReadOnly g) :=
  ⟨_, .ite ((State.warn_tells _ _ _).trans (State.log_tells ..)) (.refl _)⟩
/-- What the judgement of a group keeps. -/
theorem State.judgeReadOnly_keeps (s : State) (g : Nat) : (∀ r, s.Spares r (s.judgeReadOnly g))
    ∧ (s.judgeReadOnly g).tenants = s.tenants ∧ { (s.judgeReadOnly g).media with groups := s.media.groups } = s.media := by
  obtain ⟨ro, h⟩ := s.judgeReadOnly_spec g
  exact ⟨fun r => State.Spares.trans (.of_pcie rfl rfl) (h.spares r), h.tenants, by rw [h.media]; rfl⟩

/-! ### Steps on the flash alone, among them the removal of units -/

theorem State.Spares.of_sansMedia {r : CmdRef} {s t : State} (h : t.sansMedia = s.sansMedia) : s.Spares r t :=
  .of_pcie (congrArg State.power h :) (congrArg State.pcie h :)
theorem State.switchUnit_sansMedia (s : State) (c : Copied) : (s.switchUnit c).sansMedia = s.sansMedia := by
  unfold State.switchUnit
  split
  · rfl
  · extract_lets whole
    split <;> rfl
  · rfl
theorem State.eraseBlock_sansMedia (s : State) (a : BlockAddr) : (s.eraseBlock a).sansMedia = s.sansMedia := rfl
theorem State.eraseSuperblock_sansMedia (s : State) (b : Superblock) (l : List Nat) :
    (l.foldl (fun (s : State) k => (b.slotBlocks k).foldl (fun (s : State) a => s.eraseBlock a) s) s).sansMedia = s.sansMedia :=
  foldl_keep State.sansMedia _ (fun u k => foldl_keep State.sansMedia _ (fun v a => v.eraseBlock_sansMedia a) (b.slotBlocks k) u) l s
theorem State.evacuate_sansMedia (s : State) (b : Superblock) : (s.evacuate b).sansMedia = s.sansMedia := by
  unfold State.evacuate
  extract_lets items copies s1
  have h1 : s1.sansMedia = s.sansMedia := by
    refine foldl_keep State.sansMedia _ (fun u k => ?_) _ s
    dsimp only
    split
    · rfl
    split
    · rfl
    next t v hv =>
      refine (foldl_keep State.sansMedia _ (fun w m => ?_) _ _).trans ((foldl_keep State.sansMedia _ (fun w k => w.storeMembers_sansMedia _ _ _ _) _ _).trans ?_)
      · split
        · exact w.switchUnit_sansMedia _
        · rfl
      · exact (State.advance_sansMedia _ _).trans ((State.modMedia_sansMedia v _).trans (State.target_sansMedia hv))
  split
  · exact (State.modMedia_sansMedia _ _).trans ((s1.eraseSuperblock_sansMedia b _).trans h1)
  · exact h1
theorem State.evacuates_sansMedia (s : State) (l : List Nat) : (l.foldl (fun (s : State) id => match s.superblock id with
    | some b => s.evacuate b
    | none => s) s).sansMedia = s.sansMedia :=
  foldl_keep State.sansMedia _ (fun u id => by
    split
    · exact u.evacuate_sansMedia _
    · rfl) l s
/-- The flash without its pending flushes. -/
def Media.sansFlushes (m : Media) : Media := { m with flushes := [] }
/-- The judgement of a pending Flush takes at most flushes from the flash. -/
theorem State.ackFlush_media (s : State) (p : PendingFlush) :
    (s.ackFlush p).media.sansFlushes = s.media.sansFlushes ∧ ∀ f ∈ (s.ackFlush p).media.flushes, f ∈ s.media.flushes := by
  unfold State.ackFlush
  split
  · exact ⟨rfl, fun _ h => h⟩
  extract_lets u
  have hu : u.media.sansFlushes = s.media.sansFlushes ∧ ∀ f ∈ u.media.flushes, f ∈ s.media.flushes :=
    ⟨rfl, fun f h => (List.mem_filter.mp h).1⟩
  split
  · next d _ =>
    have e : ((u.carry d p.ref).complete p.ref .deferredWriteError (d.seq % 2 ^ 32) 0).media = u.media := (State.complete_onlyHost ..).media
    rw [e]
    exact hu
  · rw [(u.complete_onlyHost p.ref .success 0 0).media]
    exact hu
theorem State.ackFlushes_media (s : State) :
    s.ackFlushes.media.sansFlushes = s.media.sansFlushes ∧ ∀ f ∈ s.ackFlushes.media.flushes, f ∈ s.media.flushes := by
  refine ⟨foldl_keep (fun s : State => s.media.sansFlushes) State.ackFlush (fun u p => (u.ackFlush_media p).1) _ s, ?_⟩
  exact foldl_rel (R := fun s t : State => ∀ f ∈ t.media.flushes, f ∈ s.media.flushes) (fun _ _ h => h) (fun h k f hf => h f (k f hf))
    State.ackFlush (fun u p => (u.ackFlush_media p).2) _ s
/-- What remains once the units of a namespace, or those that `p` names, have been deallocated. -/
theorem State.deallocate_media (s : State) (fn nsid : Nat) (p : Nat → Bool) :
    (s.deallocate fn nsid p).media.units = s.media.units.filter (fun u => !(u.fn == fn && u.nsid == nsid && p u.unit))
      ∧ (s.deallocate fn nsid p).media.namespaces = s.media.namespaces
      ∧ (∀ f ∈ (s.deallocate fn nsid p).media.flushes, f ∈ s.media.flushes)
      ∧ (∀ b ∈ (s.deallocate fn nsid p).media.buffer, b ∈ s.media.buffer) := by
  unfold State.deallocate
  extract_lets mine refs s1
  obtain ⟨h1, h2⟩ := (s1.ackWriters refs).ackFlushes_media
  rw [s1.ackWriters_media refs] at h1 h2
  refine ⟨(congrArg Media.units h1 :), (congrArg Media.namespaces h1 :), h2, fun b hb => ?_⟩
  have e : (s1.ackWriters refs).ackFlushes.media.buffer = s1.media.buffer := (congrArg Media.buffer h1 :)
  rw [e] at hb
  exact (List.mem_filter.mp hb).1
/-- A command with no flush pending and no block in the buffer stays held while units are deallocated. -/
theorem State.deallocate_spares {s : State} {r : CmdRef} (hf : ∀ p ∈ s.media.flushes, p.ref ≠ r) (hb : ∀ b ∈ s.media.buffer, b.waiter ≠ some r)
    (fn nsid : Nat) (p : Nat → Bool) : s.Spares r (s.deallocate fn nsid p) := by
  unfold State.deallocate
  extract_lets mine refs s1
  have hr : r ∉ refs := fun hin => by
    obtain ⟨b, hbm, hbw⟩ := List.mem_filterMap.mp hin
    exact hb b (List.mem_filter.mp hbm).1 hbw
  have h1 : s.Spares r s1 := .of_pcie rfl rfl
  exact (h1.trans (s1.ackWriters_spares hr)).trans (State.ackFlushes_spares _ (by rw [s1.ackWriters_media refs]; exact hf))

end Sys2Proof.Machine
end

section
/-!
PROOFS. Chapters 05 and 16: the namespace commands themselves (O30).
-/

namespace Sys2Proof.Machine

open Sys2Proof.Safety

/-! ### What stands in a command's way -/

/-- No flush, read or buffered block waits under the identifier `r`, so that no work on the flash ends it. -/
def State.Clear (s : State) (r : CmdRef) : Prop :=
  (∀ p ∈ s.media.flushes, p.ref ≠ r) ∧ ∀ b ∈ s.media.buffer, b.waiter ≠ some r

theorem State.Clear.of_subset {s t : State} {r : CmdRef} (h : s.Clear r) (hf : ∀ p ∈ t.media.flushes, p ∈ s.media.flushes)
    (hb : ∀ b ∈ t.media.buffer, b ∈ s.media.buffer) : t.Clear r := ⟨fun p hp => h.1 p (hf p hp), fun b hm => h.2 b (hb b hm)⟩
theorem fresh_begin {s t : State} {c : Cmd} {r : CmdRef} (h : s.begin c = some t) (hf : Fresh s r) : Fresh t r := by
  obtain ⟨h1, h2, h3, h4, h5, h6⟩ := hf
  have hm := State.begin_media h
  exact ⟨by rwa [hm], by rwa [hm], by rwa [hm], by rwa [hm], by rwa [State.begin_invocations h], by rwa [State.begin_tenants h]⟩
theorem clear_of_fresh {s : State} {r : CmdRef} (h : Fresh s r) : s.Clear r := ⟨h.1, h.2.2.1⟩

/-! ### The removal of a namespace's units -/

theorem State.target_spec {s t : State} {g : Nat} {use : SbUse} {js : List Nat} {b : Superblock} (h : s.target g use js = some (b, t)) :
    ∃ l k, t = s.modMedia fun m => { m with superblocks := l, nextSuperblock := k } := by
  induction js with
  | nil => cases h
  | cons j js ih =>
    unfold State.target at h
    extract_lets live at h
    split at h
    · cases h
      exact ⟨s.media.superblocks, s.media.nextSuperblock, rfl⟩
    · split at h
      · next _ hr =>
        cases h
        unfold State.openSuperblock at hr
        dsimp only at hr
        split at hr
        · cases hr
        · split at hr
          · cases hr
          · cases hr
            exact ⟨_, _, rfl⟩
      · exact ih h
/-- The flushes that wait, and the buffer. -/
def State.pendingWork (s : State) : List PendingFlush × List WbBlock := (s.media.flushes, s.media.buffer)

theorem State.modMedia_pendingWork (s : State) {f : Media → Media} (h : ∀ m, (f m).flushes = m.flushes ∧ (f m).buffer = m.buffer) :
    (s.modMedia f).pendingWork = s.pendingWork := congrArg₂ Prod.mk (h s.media).1 (h s.media).2
theorem State.advance_pendingWork (s : State) (id : Nat) : (s.advance id).pendingWork = s.pendingWork := rfl
theorem State.storeMembers_pendingWork (s : State) (j : RowJob) (slot : Nat) (planes : List Nat) (bad : Nat → Bool) :
    (s.storeMembers j slot planes bad).pendingWork = s.pendingWork := by
  unfold State.storeMembers
  split
  · rfl
  · exact foldl_keep State.pendingWork _ (fun _ _ => by rfl) _ _
theorem State.switchUnit_pendingWork (s : State) (c : Copied) : (s.switchUnit c).pendingWork = s.pendingWork := by
  unfold State.switchUnit
  split
  · rfl
  · extract_lets whole
    split <;> rfl
  · rfl
theorem State.eraseSuperblock_pendingWork (s : State) (b : Superblock) (l : List Nat) :
    (l.foldl (fun (s : State) k => (b.slotBlocks k).foldl (fun (s : State) a => s.eraseBlock a) s) s).pendingWork = s.pendingWork :=
  foldl_keep State.pendingWork _ (fun u k => foldl_keep State.pendingWork _ (fun v a => by rfl) (b.slotBlocks k) u) l s
theorem State.evacuate_pendingWork (s : State) (b : Superblock) : (s.evacuate b).pendingWork = s.pendingWork := by
  unfold State.evacuate
  extract_lets items copies s1
  have h1 : s1.pendingWork = s.pendingWork := by
    refine foldl_keep State.pendingWork _ (fun u k => ?_) _ s
    dsimp only
    split
    · rfl
    split
    · rfl
    next _ v hv =>
      have hv' : v.pendingWork = u.pendingWork := by
        obtain ⟨l, n, rfl⟩ := State.target_spec hv
        rfl
      refine (foldl_keep State.pendingWork _ (fun w m => ?_) _ _).trans
        ((foldl_keep State.pendingWork _ (fun w k => w.storeMembers_pendingWork _ _ _ _) _ _).trans ?_)
      rotate_left
      · exact (State.advance_pendingWork _ _).trans ((v.modMedia_pendingWork fun _ => ⟨rfl, rfl⟩).trans hv')
      split
      · exact w.switchUnit_pendingWork _
      · rfl
  split
  · exact (State.modMedia_pendingWork _ fun _ => ⟨rfl, rfl⟩).trans ((s1.eraseSuperblock_pendingWork b _).trans h1)
  · exact h1
theorem State.evacuates_pendingWork (s : State) (l : List Nat) : (l.foldl (fun (s : State) id => match s.superblock id with
    | some b => s.evacuate b
    | none => s) s).pendingWork = s.pendingWork :=
  foldl_keep State.pendingWork _ (fun u id => by
    split
    · exact u.evacuate_pendingWork _
    · rfl) l s
theorem State.Clear.of_pendingWork {s t : State} {r : CmdRef} (h : s.Clear r) (e : t.pendingWork = s.pendingWork) : t.Clear r :=
  h.of_subset (by rw [show t.media.flushes = s.media.flushes from (congrArg (·.1) e :)]; exact fun _ h => h)
    (by rw [show t.media.buffer = s.media.buffer from (congrArg (·.2) e :)]; exact fun _ h => h)
theorem State.deallocate_clear {s : State} {r : CmdRef} (h : s.Clear r) (fn nsid : Nat) (p : Nat → Bool) : (s.deallocate fn nsid p).Clear r :=
  have hm := s.deallocate_media fn nsid p
  h.of_subset hm.2.2.1 hm.2.2.2

/-- No unit of a namespace is mapped. -/
def State.Unmapped (s : State) (fn nsid : Nat) : Prop := ∀ x ∈ s.media.units, ¬(x.fn = fn ∧ x.nsid = nsid)

theorem State.deallocate_unmapped (s : State) (fn nsid : Nat) : (s.deallocate fn nsid fun _ => true).Unmapped fn nsid := by
  intro x hx
  rw [(s.deallocate_media fn nsid _).1] at hx
  have hk := (List.mem_filter.mp hx).2
  rintro ⟨h1, h2⟩
  simp [h1, h2] at hk
/-- What the formatting of a namespace keeps: a command with nothing in its way stays held, with nothing in its way. -/
theorem State.formatNs_spares {s : State} {r : CmdRef} (h : s.Clear r) (n : Namespace) (erase : Bool) :
    s.Spares r (s.formatNs n erase) ∧ (s.formatNs n erase).Clear r := by
  unfold State.formatNs
  extract_lets held s1
  have h1 : s.Spares r s1 := (State.deallocate_spares h.1 h.2 _ _ _).trans (.of_pcie rfl rfl)
  have h2 : s1.Clear r := (State.deallocate_clear h n.fn n.nsid _).of_pendingWork rfl
  split
  · exact ⟨h1.trans (.of_sansMedia (s1.evacuates_sansMedia held)), h2.of_pendingWork (s1.evacuates_pendingWork held)⟩
  · exact ⟨h1, h2⟩
theorem State.formatAll_spares {s : State} {r : CmdRef} (h : s.Clear r) (l : List Namespace) (erase : Bool) :
    s.Spares r (l.foldl (fun (s : State) n => s.formatNs n erase) s) := by
  induction l generalizing s with
  | nil => exact .refl r s
  | cons n l ih =>
    obtain ⟨h1, h2⟩ := State.formatNs_spares h n erase
    exact h1.trans (ih h2)
theorem State.formatNs_media (s : State) (n : Namespace) :
    (s.formatNs n false).Unmapped n.fn n.nsid ∧ (s.formatNs n false).media.namespaces = s.media.namespaces := by
  unfold State.formatNs
  extract_lets held s1
  exact ⟨s.deallocate_unmapped n.fn n.nsid, (s.deallocate_media n.fn n.nsid _).2.1⟩
theorem State.formatAll_media (s : State) {l : List Namespace} {fn nsid : Nat} (hl : l ≠ []) (h : ∀ n ∈ l, n.fn = fn ∧ n.nsid = nsid) :
    (l.foldl (fun (s : State) n => s.formatNs n false) s).Unmapped fn nsid
      ∧ (l.foldl (fun (s : State) n => s.formatNs n false) s).media.namespaces = s.media.namespaces := by
  refine ⟨?_, foldl_keep (·.media.namespaces) _ (fun u n => (u.formatNs_media n).2) l s⟩
  obtain ⟨l', n, rfl⟩ := (List.eq_nil_or_concat l).resolve_left hl
  obtain ⟨hf, hn⟩ := h n (by simp)
  rw [List.concat_eq_append, List.foldl_append, List.foldl_cons, List.foldl_nil, ← hf, ← hn]
  exact (State.formatNs_media _ n).1
/-- The flash without the state of its groups. -/
def Media.sansGroups (m : Media) : Media := { m with groups := [] }
/-- A group is journalled and judged. -/
theorem State.journalJudge_keeps (s : State) (g : Nat) : (∀ r, s.Spares r ((s.journal g).judgeReadOnly g))
    ∧ ((s.journal g).judgeReadOnly g).tenants = s.tenants
    ∧ ((s.journal g).judgeReadOnly g).media.sansGroups = s.media.sansGroups := by
  obtain ⟨h1, h2, h3⟩ := (s.journal g).judgeReadOnly_keeps g
  exact ⟨fun r => State.Spares.trans (.of_pcie rfl rfl) (h1 r), h2, (congrArg Media.sansGroups h3 :)⟩
/-- A namespace taken from the list. -/
def State.dropNamespace (s : State) (n : Namespace) : State :=
  s.modMedia fun m => { m with namespaces := m.namespaces.filter fun x => !(x.fn == n.fn && x.nsid == n.nsid) }
/-- What the deletion of a namespace leaves. -/
theorem State.deleteNamespace_spec {s : State} {r : CmdRef} (h : s.Clear r) (n : Namespace) : s.Spares r (s.deleteNamespace n)
    ∧ (s.deleteNamespace n).Unmapped n.fn n.nsid ∧ ∀ x ∈ (s.deleteNamespace n).media.namespaces, ¬(x.fn = n.fn ∧ x.nsid = n.nsid) := by
  have h1 : s.Spares r (s.deallocate n.fn n.nsid fun _ => true) := State.deallocate_spares h.1 h.2 _ _ _
  have hu := s.deallocate_unmapped n.fn n.nsid
  have e : s.deleteNamespace n
      = (((s.deallocate n.fn n.nsid fun _ => true).dropNamespace n).journal n.group).judgeReadOnly n.group := rfl
  rw [e]
  generalize s.deallocate n.fn n.nsid (fun _ => true) = d at h1 hu
  obtain ⟨h3, -, hm⟩ := (d.dropNamespace n).journalJudge_keeps n.group
  have h2 : d.Spares r (d.dropNamespace n) := .of_pcie rfl rfl
  have hmu : (((d.dropNamespace n).journal n.group).judgeReadOnly n.group).media.units = d.media.units := (congrArg Media.units hm :)
  have hmn : (((d.dropNamespace n).journal n.group).judgeReadOnly n.group).media.namespaces
      = d.media.namespaces.filter fun x => !(x.fn == n.fn && x.nsid == n.nsid) := (congrArg Media.namespaces hm :)
  refine ⟨(h1.trans h2).trans (h3 r), fun x hx => hu x (hmu ▸ hx), fun x hx => ?_⟩
  rw [hmn] at hx
  have hk := (List.mem_filter.mp hx).2
  rintro ⟨h1, h2⟩
  simp [h1, h2] at hk

/-! ### Sanitize -/

/-- The blocks that a pending Read misses are sent. -/
def State.sendMissing (s : State) (p : PendingRead) (bs : List Byte) : State :=
  p.missing.foldl (fun (s : State) l => s.readBlock p.ref p.slba l bs) s
/-- The end of a pending Read, whose blocks that are still missing read as zeros. -/
def State.endRead (s : State) (p : PendingRead) : State := (s.sendMissing p (List.replicate 4096 0)).complete p.ref .success

theorem State.sendMissing_sendsData (s : State) (p : PendingRead) (bs : List Byte) : s.SendsData (s.sendMissing p bs) :=
  foldl_rel (R := State.SendsData) .refl .trans _ (fun u l => u.readBlock_sendsData p.ref p.slba l bs) p.missing s
theorem State.endRead_spares (s : State) {p : PendingRead} {r : CmdRef} (h : p.ref ≠ r) : s.Spares r (s.endRead p) :=
  ((s.sendMissing_sendsData p _).spares r).trans (State.complete_spares _ h _ _ _)
theorem State.endRead_media (s : State) (p : PendingRead) : (s.endRead p).media = s.media :=
  (State.complete_onlyHost _ _ _ _ _).media.trans (s.sendMissing_sendsData p _).media
/-- The end of all work on the flash ends other commands, and keeps namespaces and superblocks. -/
theorem State.endMediaWork_keeps {s : State} {r : CmdRef} (h : Fresh s r) : s.Spares r s.endMediaWork
    ∧ s.endMediaWork.media.namespaces = s.media.namespaces := by
  obtain ⟨hf, hr, hb, hj, -, -⟩ := h
  unfold State.endMediaWork
  extract_lets reads writers publishers s1 s2 s3
  have h1 : s.Spares r s1 := .of_pcie rfl rfl
  have h2 : s1.Spares r s2 ∧ s2.media = s1.media :=
    ⟨State.Spares.foldl_mem (f := State.endRead) (fun p hp u => u.endRead_spares (hr p hp)) s1, foldl_keep State.media State.endRead State.endRead_media _ s1⟩
  have h3 : s2.Spares r s3 ∧ s3.media = s2.media := by
    refine ⟨State.Spares.foldl_mem (fun q hq u => u.complete_spares ?_ _ _ _) s2, foldl_keep State.media _ (fun u q => (u.complete_onlyHost q _ _ _).media) _ s2⟩
    rintro rfl
    obtain ⟨j, hjm, hjk⟩ := List.mem_filterMap.mp (List.mem_eraseDups.mp hq)
    refine hj j hjm ?_
    split at hjk
    · next q' hk => rw [hk, Option.some.inj hjk]
    · cases hjk
  have hw : r ∉ writers := fun hin => by
    obtain ⟨b, hbm, hbw⟩ := List.mem_filterMap.mp hin
    exact hb b hbm hbw
  have h4 := s3.ackWriters_spares hw
  have h4m := s3.ackWriters_media writers
  have hm : s3.media = s1.media := h3.2.trans h2.2
  refine ⟨(((h1.trans h2.1).trans h3.1).trans h4).trans (State.ackFlushes_spares _ (by rw [h4m, hm]; exact hf)), ?_⟩
  have e : (s3.ackWriters writers).ackFlushes.media.namespaces = (s3.ackWriters writers).media.namespaces :=
    (congrArg Media.namespaces (s3.ackWriters writers).ackFlushes_media.1 :)
  rw [e, h4m, hm]
  rfl

/-- A flash whose contents are gone. -/
def State.wipe (s : State) : State :=
  let s := s.modMedia fun m => { m with
    superblocks := [], units := [], extents := [], buffer := [], lostBlocks := [], degradedRows := [], failedMembers := []
    pages := m.pages.filter fun p => !s.blockGood p.addr.blockAddr
    sanitized := true }
  { s with
    tenants := s.tenants.map fun t => { t with
      session := none
      sharedPool := {}
      modelPools := []
      buffers := t.buffers.map fun b =>
        if b.placement = .writeback then
          { b with dirty := List.range ((b.size + 4095) / 4096), cleaning := [] } else b } }
/-- Every superblock's blocks are erased. -/
def State.eraseAll (s : State) : State :=
  s.media.superblocks.foldl (fun (s : State) b =>
    b.slots.foldl (fun (s : State) k => (b.slotBlocks k).foldl (fun (s : State) a => s.eraseBlock a) s) s) s
/-- Every group is journalled and judged. -/
def State.judgeAll (s : State) : State := (List.range 4).foldl (fun (s : State) g => (s.journal g).judgeReadOnly g) s

theorem State.eraseBlock_namespaces (s : State) (a : BlockAddr) : (s.eraseBlock a).media.namespaces = s.media.namespaces := rfl
theorem State.eraseSuperblock_namespaces (s : State) (b : Superblock) (l : List Nat) :
    (l.foldl (fun (s : State) k => (b.slotBlocks k).foldl (fun (s : State) a => s.eraseBlock a) s) s).media.namespaces = s.media.namespaces :=
  foldl_keep (fun s => s.media.namespaces) _ (fun u k => foldl_keep (fun s => s.media.namespaces) _ State.eraseBlock_namespaces (b.slotBlocks k) u) l s
theorem State.eraseAll_keeps (s : State) : s.eraseAll.sansMedia = s.sansMedia ∧ s.eraseAll.media.namespaces = s.media.namespaces := by
  unfold State.eraseAll
  generalize s.media.superblocks = l
  exact ⟨foldl_keep State.sansMedia _ (fun u b => u.eraseSuperblock_sansMedia b b.slots) l s,
    foldl_keep (fun s => s.media.namespaces) _ (fun u b => u.eraseSuperblock_namespaces b b.slots) l s⟩
theorem State.judgeAll_keeps (s : State) : (∀ r, s.Spares r s.judgeAll) ∧ s.judgeAll.tenants = s.tenants
    ∧ s.judgeAll.media.sansGroups = s.media.sansGroups :=
  ⟨fun r => State.Spares.foldl (fun u g => (u.journalJudge_keeps g).1 r) _ s, foldl_keep State.tenants _ (fun u g => (u.journalJudge_keeps g).2.1) _ s,
    foldl_keep (·.media.sansGroups) _ (fun u g => (u.journalJudge_keeps g).2.2) _ s⟩

section
variable {s t : State} {c : Cmd} (h : Starts s c .admin t)
include h

/-- A command that the owner's admin queue carries. -/
theorem adminOwner_of_admin (hf : c.fn = 0) : Starts s c .adminOwner t := by
  have h0 := sqid_of_admin h
  obtain ⟨h1, h2, h3, -⟩ := h
  refine ⟨h1, h2, ?_, nofun⟩
  unfold State.refusal at h3 ⊢
  simp only [h0, hf, if_true, decide_true, Bool.and_self] at h3 ⊢
  exact h3
theorem execSanitize_of_closed (hf : c.fn = 0) (h2 : bits c.cdw10.toNat 2 0 = 2) (hr : ∀ x ∈ s.tenants, x.runOpen = false) :
    exec (.sanitize c) s = .next ((((t.abortTest 9).endMediaWork.eraseAll.wipe).judgeAll).complete c.ref .success) := by
  refine (State.command_of_starts (adminOwner_of_admin h hf) _).trans (congrArg _ ?_)
  have hr' : t.tenants.any (·.runOpen) = false := by
    rw [State.begin_tenants h.1]
    exact List.any_eq_false.mpr fun x hx => by rw [hr x hx]; exact Bool.false_ne_true
  exact (if_neg (not_not.mpr h2)).trans (if_neg (by rw [hr']; exact Bool.false_ne_true))
theorem sanitize_ends (hf : c.fn = 0) (h2 : bits c.cdw10.toNat 2 0 = 2) (hr : ∀ x ∈ s.tenants, x.runOpen = false) :
    ∃ u, exec (.sanitize c) s = .next u ∧ Ends s u c .success
          ∧ u.media.units = [] ∧ u.media.extents = [] ∧ u.media.superblocks = [] ∧ (∀ x ∈ u.tenants, x.session = none)
          ∧ u.media.namespaces = s.media.namespaces := by
  have hx := execSanitize_of_closed h hf h2 hr
  have hfresh := fresh_begin h.1 h.2.1
  have ha := t.abortTest_tells 9
  have hfa : Fresh (t.abortTest 9) c.ref := by
    obtain ⟨h1, h2, h3, h4, h5, h6⟩ := hfresh
    have hi : (t.abortTest 9).invocations = t.invocations := (congrArg State.invocations ha.frame :)
    exact ⟨by rwa [ha.media], by rwa [ha.media], by rwa [ha.media], by rwa [ha.media], by rwa [hi], by rwa [ha.tenants]⟩
  obtain ⟨he1, he2⟩ := State.endMediaWork_keeps hfa
  generalize (t.abortTest 9).endMediaWork = v at hx he1 he2
  obtain ⟨hw1, hw2⟩ := v.eraseAll_keeps
  generalize v.eraseAll = w at hx hw1 hw2
  obtain ⟨hj1, hj2, hj3⟩ := w.wipe.judgeAll_keeps
  have hsp : t.Spares c.ref w.wipe := (((ha.spares _).trans he1).trans (.of_sansMedia hw1)).trans (.of_pcie rfl rfl)
  have hm : w.media.namespaces = s.media.namespaces := by rw [hw2, he2, ha.media, State.begin_media h.1]
  obtain ⟨y, hy⟩ : ∃ y, y = w.wipe.judgeAll := ⟨_, rfl⟩
  rw [← hy] at hx hj1 hj2 hj3
  have ho := y.complete_onlyHost c.ref .success 0 0
  refine ⟨_, hx, State.begin_ends h.1 ((hsp.trans (hj1 _)).ends (State.begin_firm h.1) _ 0 0), ?_⟩
  rw [ho.media, show (y.complete c.ref .success).tenants = y.tenants from (congrArg State.tenants ho :), hj2]
  refine ⟨(congrArg Media.units hj3 :), (congrArg Media.extents hj3 :), (congrArg Media.superblocks hj3 :), fun x hx => ?_, (congrArg Media.namespaces hj3 :).trans hm⟩
  obtain ⟨z, -, rfl⟩ := List.mem_map.mp hx
  rfl

end

/-! ### Creation, deletion, attachment and format -/

section
variable {s t : State} {c : Cmd} (h : Starts s c .admin t)
include h

/-- A namespace enters the list. -/
theorem execNamespaceManagement_create {i g nsze : Nat} (h0 : bits c.cdw10.toNat 3 0 = 0)
    (hz : readLe (listReader (t.dataIn c.prp1 c.prp2 4096)) 0 8 = nsze) (hz0 : nsze ≠ 0)
    (hcap : readLe (listReader (t.dataIn c.prp1 c.prp2 4096)) 8 8 = nsze) (hfmt : readLe (listReader (t.dataIn c.prp1 c.prp2 4096)) 26 1 = 0)
    (hi : i < 32) (hfree : ∀ n ∈ s.media.namespaces.filter (·.fn == c.fn), n.nsid ≠ i + 1)
    (hless : ∀ j, j < i → ∃ n ∈ s.media.namespaces.filter (·.fn == c.fn), n.nsid = j + 1)
    (hg : pickBy (fun g => s.goodCapacity g - s.committed g) true (s.logGroupsOf c.fn) = some g) :
    exec (.namespaceManagement c) s = .next (if (s.media.namespaces.filter (·.fn == c.fn)).foldl (fun a n => a + n.blocks) 0 + nsze > s.nsQuota c.fn
      then t.complete c.ref .nsCapacity
      else (((t.modMedia fun m => { m with namespaces := m.namespaces ++ [{ fn := c.fn, nsid := i + 1, blocks := nsze, group := g }] }).journal
        g).judgeReadOnly g).complete c.ref .success (i + 1)) := by
  refine (State.command_of_starts h _).trans (congrArg _ ?_)
  have hk (k : Nat) : t.goodCapacity k - t.committed k = s.goodCapacity k - s.committed k :=
    State.begin_congr h.1 (fun u => u.goodCapacity k - u.committed k) fun _ _ => rfl
  have hl : t.logGroupsOf c.fn = s.logGroupsOf c.fn := State.begin_congr h.1 (State.logGroupsOf · c.fn) fun _ _ => rfl
  have hq : t.nsQuota c.fn = s.nsQuota c.fn := State.begin_congr h.1 (State.nsQuota · c.fn) fun _ _ => rfl
  have hf : ∃ rest, ((List.range 32).filter fun i => !((s.media.namespaces.filter (·.fn == c.fn)).any fun n => n.nsid == i + 1)) = i :: rest := by
    have hfind : (List.range 32).find? (fun i => !((s.media.namespaces.filter (·.fn == c.fn)).any fun n => n.nsid == i + 1)) = some i := by
      refine List.find?_range_eq_some.mpr ⟨?_, List.mem_range.mpr hi, fun j hj => ?_⟩
      · rw [Bool.not_eq_true', List.any_eq_false]
        exact fun n hn => by simpa using hfree n hn
      · obtain ⟨n, hn, hnj⟩ := hless j hj
        rw [Bool.not_not, List.any_eq_true]
        exact ⟨n, hn, beq_iff_eq.mpr hnj⟩
    rw [← List.head?_filter] at hfind
    exact ⟨_, (List.eq_cons_of_mem_head? hfind)⟩
  obtain ⟨rest, hf⟩ := hf
  dsimp only
  rw [if_pos h0, hz, hcap, hfmt, if_neg (by simp [hz0]), if_neg (not_not.mpr rfl), State.begin_media h.1, hf]
  dsimp only
  simp only [hk, hl, hq]
  rw [hg]
theorem execNamespaceManagement_delete {n : Namespace} (h1 : bits c.cdw10.toNat 3 0 = 1) (hn : c.nsid ≠ 0xFFFFFFFF)
    (hs : s.namespace? c.fn c.nsid.toNat = some n) :
    exec (.namespaceManagement c) s = .next (((t.deleteNamespace n).nsChanged n.fn n.nsid).complete c.ref .success) := by
  refine (State.command_of_starts h _).trans (congrArg _ ?_)
  have hs' : t.namespace? c.fn c.nsid.toNat = some n := (State.begin_congr h.1 (State.namespace? · c.fn c.nsid.toNat) fun _ _ => rfl).trans hs
  dsimp only
  rw [if_neg (by rw [h1]; decide), if_pos h1, if_neg hn, hs']
theorem execNamespaceAttachment_of_known {n : Namespace} (h0 : bits c.cdw10.toNat 3 0 = 0) (hs : s.namespace? c.fn c.nsid.toNat = some n) :
    exec (.namespaceAttachment c) s = .next (if !(readLe (listReader (t.dataIn c.prp1 c.prp2 4096)) 0 2 = 1 && readLe (listReader (t.dataIn c.prp1 c.prp2 4096)) 2 2 = c.fn)
      then t.complete c.ref .invalidCtrlList else if n.attached then t.complete c.ref .nsAttached
      else ((t.modMedia fun m => { m with namespaces := m.namespaces.map fun x =>
        if x.fn = n.fn && x.nsid = n.nsid then { x with attached := true } else x }).nsChanged n.fn n.nsid).complete c.ref .success) := by
  refine (State.command_of_starts h _).trans (congrArg _ ?_)
  have hs' : t.namespace? c.fn c.nsid.toNat = some n := (State.begin_congr h.1 (State.namespace? · c.fn c.nsid.toNat) fun _ _ => rfl).trans hs
  dsimp only
  rw [hs', h0]
  exact if_neg (by decide)
/-- The namespaces that a Format names, one at least. -/
theorem execFormatNvm_of_named {n : Namespace} (h0 : bits c.cdw10.toNat 3 0 = 0) (h4 : bits c.cdw10.toNat 8 4 = 0) (hn : c.nsid ≠ 0xFFFFFFFF)
    (hm : n ∈ s.media.namespaces) (hf : n.fn = c.fn) (hi : n.nsid = c.nsid.toNat) :
    ∃ l : List Namespace, l ≠ [] ∧ (∀ x ∈ l, x.fn = c.fn ∧ x.nsid = c.nsid.toNat) ∧ exec (.formatNvm c) s
      = .next (if bits c.cdw10.toNat 11 9 > 1 then t.complete c.ref .invalidField
        else (l.foldl (fun (s : State) n => s.formatNs n (bits c.cdw10.toNat 11 9 == 1)) (t.abortTest 4)).complete c.ref .success) := by
  have hl : ((s.media.namespaces.filter (·.fn == c.fn)).filter (·.nsid == c.nsid.toNat)) ≠ [] :=
    List.ne_nil_of_mem (List.mem_filter.mpr ⟨List.mem_filter.mpr ⟨hm, beq_iff_eq.mpr hf⟩, beq_iff_eq.mpr hi⟩)
  refine ⟨_, hl, fun x hx => ?_, (State.command_of_starts h _).trans (congrArg _ ?_)⟩
  · obtain ⟨hx1, hx2⟩ := List.mem_filter.mp hx
    exact ⟨beq_iff_eq.mp (List.mem_filter.mp hx1).2, beq_iff_eq.mp hx2⟩
  · dsimp only
    rw [if_neg (by simp [h0, h4]), if_neg hn, State.begin_media h.1]
    refine if_congr Iff.rfl rfl (if_neg ?_)
    rw [List.isEmpty_eq_false_iff.mpr hl]
    exact Bool.false_ne_true

end

theorem find?_map_of_key {α : Type} {f : α → α} {p : α → Bool} (h : ∀ a, p (f a) = p a) (l : List α) : (l.map f).find? p = (l.find? p).map f := by
  rw [List.find?_map]
  exact congrArg (Option.map f) (congrArg (List.find? · l) (funext h))

/-- Settles O30: each command's branch, and what the deletion, the format or the erasure leaves of the flash. -/
theorem namespaceCommands : Obligations.NamespaceCommands := by
  unfold Obligations.NamespaceCommands
  intro s t c h
  have hb := h.1
  have hfirm := State.begin_firm hb
  have hclear : t.Clear c.ref := clear_of_fresh (fresh_begin hb h.2.1)
  have hdone (st : Status) : Ends s (t.complete c.ref st) c st ∧ (t.complete c.ref st).media = s.media :=
    ⟨State.begin_completes hb st 0 0, (t.complete_onlyHost c.ref st 0 0).media.trans (State.begin_media hb)⟩
  refine ⟨?_, fun n h1 hn hs => ?_, fun n hs h0 => ⟨fun he1 he2 hna => ?_, fun hne => ?_⟩, fun n h0 h4 hn hm hf hi => ?_, fun hf => ⟨fun h2 => ⟨fun hr => sanitize_ends h hf h2 hr, fun hr => ?_⟩, fun h2 => ?_⟩⟩
  · intro d own nsze h0 hz hcap hfmt i g hi hfree hless hg
    have hx := execNamespaceManagement_create h h0 rfl hz hcap hfmt hi hfree hless hg
    refine ⟨fun hq => ?_, fun hq => ⟨_, hx.trans (congrArg _ (if_pos hq)), hdone _⟩⟩
    replace hx := hx.trans (congrArg _ (if_neg (Nat.not_lt.mpr hq)))
    obtain ⟨h1, -, h3⟩ := (t.modMedia fun m => { m with namespaces := m.namespaces ++ [{ fn := c.fn, nsid := i + 1, blocks := nsze, group := g }] }).journalJudge_keeps g
    refine ⟨_, hx, State.begin_ends hb ((State.Spares.trans (.of_pcie rfl rfl) (h1 _)).ends hfirm _ _ 0), ?_⟩
    rw [(State.complete_onlyHost _ _ _ _ _).media, ← State.begin_media hb]
    exact (congrArg Media.namespaces h3 :)
  · have hx := execNamespaceManagement_delete h h1 hn hs
    obtain ⟨d1, d2, d3⟩ := State.deleteNamespace_spec hclear n
    have hc := (t.deleteNamespace n).nsChanged_tells n.fn n.nsid
    refine ⟨_, hx, State.begin_ends hb ((d1.trans (hc.spares _)).ends hfirm _ 0 0), ?_⟩
    rw [(State.complete_onlyHost _ _ _ _ _).media, hc.media]
    exact ⟨d3, d2⟩
  · have hx := execNamespaceAttachment_of_known h h0 hs
    rw [he1, he2, hna, if_neg (by simp), if_neg Bool.false_ne_true] at hx
    obtain ⟨v, hv⟩ : ∃ v, v = t.modMedia fun m => { m with namespaces := m.namespaces.map fun x =>
        if x.fn = n.fn && x.nsid = n.nsid then { x with attached := true } else x } := ⟨_, rfl⟩
    rw [← hv] at hx
    have hc := v.nsChanged_tells n.fn n.nsid
    have hsv : t.Spares c.ref v := hv ▸ .of_pcie rfl rfl
    refine ⟨_, hx, State.begin_ends hb ((hsv.trans (hc.spares _)).ends hfirm _ 0 0), ?_⟩
    unfold State.namespace? at hs ⊢
    rw [(State.complete_onlyHost _ _ _ _ _).media, hc.media, hv]
    show (t.media.namespaces.map _).find? _ = _
    rw [find?_map_of_key, State.begin_media hb, hs]
    · simp
    · intro x
      split <;> rfl
  · have hx := execNamespaceAttachment_of_known h h0 hs
    exact ⟨_, hx.trans (congrArg _ (if_pos (by simp [hne]))), hdone _⟩
  · obtain ⟨l, hl, hlx, hx⟩ := execFormatNvm_of_named h h0 h4 hn hm hf hi
    have ha := t.abortTest_tells 4
    have hca : (t.abortTest 4).Clear c.ref := hclear.of_subset (by rw [ha.media]; exact fun _ h => h) (by rw [ha.media]; exact fun _ h => h)
    have hsp (e : Bool) := (ha.spares c.ref).trans (State.formatAll_spares hca l e)
    refine ⟨fun h0 => ?_, fun h1 => ?_, fun h2 => ⟨_, hx.trans (congrArg _ (if_pos h2)), hdone _⟩⟩
    · rw [h0] at hx
      obtain ⟨hu, hnm⟩ := (t.abortTest 4).formatAll_media hl hlx
      refine ⟨_, hx.trans (congrArg _ (if_neg (by decide))), State.begin_ends hb ((hsp false).ends hfirm _ 0 0), ?_⟩
      rw [(State.complete_onlyHost _ _ _ _ _).media]
      exact ⟨hu, hnm.trans (by rw [ha.media, State.begin_media hb])⟩
    · rw [h1] at hx
      exact ⟨_, hx.trans (congrArg _ (if_neg (by decide))), State.begin_ends hb ((hsp true).ends hfirm _ 0 0)⟩
  · obtain ⟨x, hx, hxr⟩ := hr
    have hr' : t.tenants.any (·.runOpen) = true := List.any_eq_true.mpr ⟨x, by rwa [State.begin_tenants hb], hxr⟩
    have hx : exec (.sanitize c) s = .next (t.complete c.ref .sequenceError) :=
      (State.command_of_starts (adminOwner_of_admin h hf) _).trans (congrArg _ ((if_neg (not_not.mpr h2)).trans (if_pos hr')))
    exact ⟨_, hx, hdone _⟩
  · have hx : exec (.sanitize c) s = .next (t.complete c.ref .invalidField) :=
      (State.command_of_starts (adminOwner_of_admin h hf) _).trans (congrArg _ (if_pos h2))
    exact ⟨_, hx, hdone _⟩

end Sys2Proof.Machine
end

section
/-!
PROOFS. Chapter 06: RUN (O37).
-/

namespace Sys2Proof.Machine

open Sys2Proof.Safety Sys2Proof.Tests

/-- Whether an outcome leaves this completion posted. -/
def posted (o : Out) (x : Completion) : Bool :=
  match o with
  | .next u => u.pcie.completions.contains x
  | _ => false

theorem posted_of_endsRef {s u : State} {r : CmdRef} {o : Out} {st : Status} {a b : Nat} (ho : o = .next u) (h : EndsRef s u r st a b) :
    posted o (completionOf r st a b) = true := by
  obtain ⟨l, hl, hin⟩ := h
  rw [ho]
  show u.pcie.completions.contains _ = true
  rw [hl]
  exact List.contains_iff_mem.mpr (List.mem_append_right _ hin)

/-! ### RUN END and a counter wait under its own identifier -/

/-- A RUN END, and a counter wait of its function that the controller holds under the same identifier. -/
def twinEnd : Cmd := cmd 0xA4 1 1 1
def twinWait : Cmd := cmd 0x9C 1 1 2
def twinState : State := demoC 1 fun k => { k with outstanding := [{ cmd := twinEnd, fetchedAt := 0 }, { cmd := twinWait, fetchedAt := 0 }] }

theorem twinState_starts : vendorB twinState twinEnd false false = true ∧ twinState.tenants.length = 1 ∧ (twinState.tenant 0).runOpen = true
    ∧ twinState.invocations = [] := by decide +kernel
/-- The end of the run ends the wait, and with it the command of the same identifier, before RUN END can end with success. -/
theorem twinState_end : posted (exec (.runEnd twinEnd) twinState) (completionOf twinEnd.ref .success 0 0) = false := by decide +kernel

/-- Refutes O37: a controller that holds a counter wait under RUN END's own identifier has both end with ABORTED_BY_RECOVERY when
the run is closed, so that RUN END does not end with success. -/
theorem not_runCommands : ¬ Obligations.RunCommands := by
  unfold Obligations.RunCommands
  intro h
  obtain ⟨hs, hl, hr, hi⟩ := twinState_starts
  obtain ⟨-, -, -, hend⟩ := h twinState (begun twinState twinEnd) twinEnd (by decide) (vendor_of hs) (by rw [hl]; decide) (by decide)
  obtain ⟨u, hu, he, -⟩ := (hend hr).1 (by rw [hi]; rfl)
  have hp := posted_of_endsRef hu he
  rw [twinState_end] at hp
  exact Bool.false_ne_true hp

end Sys2Proof.Machine
end

section
/-!
PROOFS. Chapter 06: COUNTER (O36).
-/

namespace Sys2Proof.Machine

open Sys2Proof.Safety Sys2Proof.Tests

/-- A bump that takes counter 0 past its largest value, and a wait for that value that the controller holds under the same
identifier. -/
def twinBump : Cmd := cmd 0x9C 1 1 1 0 5
def twinCtrWait : Cmd := cmd 0x9C 1 1 2 0 0xFFFFFFFF 0xFFFF
def twinCtrState : State :=
  { demoC 1 (fun k => { k with outstanding := [{ cmd := twinBump, fetchedAt := 0 }, { cmd := twinCtrWait, fetchedAt := 0 }] }) with
    ctrs := { values := [(0, ctrMax - 1)] } }

theorem twinCtrState_starts : vendorB twinCtrState twinBump false false = true ∧ (twinCtrState.tenant 0).runOpen = true
    ∧ twinCtrState.ownsCtr 0 (counterOf twinBump) = true ∧ twinCtrState.ctrSat (counterOf twinBump) = false
    ∧ twinCtrState.ctrPoison (counterOf twinBump) = none
    ∧ ctrMax < twinCtrState.ctr (counterOf twinBump) + bits twinBump.cdw12.toNat 15 0 := by decide +kernel
/-- The saturation ends the wait, and with it the command of the same identifier, before the bump can end with success. -/
theorem twinCtrState_bump : posted (exec (.counterBump twinBump) twinCtrState)
    (completionOf twinBump.ref .success (ctrMax % 2 ^ 32) (ctrMax / 2 ^ 32)) = false := by decide +kernel

/-- Refutes O36: a bump that saturates its counter ends every wait for it that its function holds, one under the bump's own
identifier too, so that the bump does not end with success. -/
theorem not_counterCommands : ¬ Obligations.CounterCommands := by
  unfold Obligations.CounterCommands
  rintro ⟨h, -⟩
  obtain ⟨hs, hr, ho, hsat, hp, hm⟩ := twinCtrState_starts
  obtain ⟨-, -, hb, -⟩ := h twinCtrState (begun twinCtrState twinBump) twinBump (by decide) (vendor_of hs)
  obtain ⟨u, hu, he, -⟩ := (hb hr ho hsat hp).2 hm (by decide)
  have h0 := posted_of_endsRef hu he
  rw [twinCtrState_bump] at h0
  exact Bool.false_ne_true h0

end Sys2Proof.Machine
end

section
/-!
PROOFS. Chapter 07: the end of an invocation (O40).
-/

namespace Sys2Proof.Machine

open Sys2Proof.Safety Sys2Proof.Tests

/-- An invocation whose completion bump takes counter 0 past its largest value, and under whose command its controller holds a
wait for that value. -/
def saturatingInv : Invocation := { demoOn .persisting with cbump := some (0, 5) }
def saturatedWait : Cmd := { cmd 0x9C 1 1 2 0 0xFFFFFFFF 0xFFFF with cdw0 := BitVec.ofNat 32 (0x9C + 65536 * saturatingInv.ref.cid) }
def saturatingState : State :=
  { demoAt (demoProgram 0) saturatingInv with
    ctrs := { values := [(0, ctrMax - 1)] }
    pcie := (demoC 1 fun k => { k with outstanding := [{ cmd := saturatedWait, fetchedAt := 0, started := true }] }).pcie }

theorem saturatingState_runs : saturatingState.engines = true ∧ saturatingState.onSpindle 0 = some saturatingInv
    ∧ saturatingState.invocations = [saturatingInv] ∧ saturatingState.hasCommands saturatingInv = false
    ∧ heldB saturatingState saturatingInv.ref = true ∧ saturatingInv.silent = false
    ∧ saturatingState.model? saturatingInv.tenant saturatingInv.slot = some (demoProgram 0) ∧ saturatingInv.phase = .persisting := by decide +kernel
/-- The bump ends the wait, and with it the command of the invocation, before the invocation ends with success. -/
theorem saturatingState_ends : posted (exec (.invocationPersisted 0) saturatingState)
    (completionOf saturatingInv.ref .success saturatingInv.hostOutHigh (saturatingInv.flags.toNat + 65536 * saturatingInv.tag)) = false := by
  decide +kernel

/-- Refutes O40: the completion bump of an invocation can saturate its counter, and this ends a wait for it that is held under the
invocation's own command, so that the invocation does not end with success. -/
theorem not_invocationPhases : ¬ Obligations.InvocationPhases := by
  unfold Obligations.InvocationPhases
  rintro ⟨-, h⟩
  obtain ⟨he, hs, hi, hc, hh, hq, hm, hp⟩ := saturatingState_runs
  have hheld : Held saturatingState saturatingInv.ref := by
    unfold heldB at hh
    rw [Bool.and_eq_true, beq_iff_eq] at hh
    exact hh
  obtain ⟨h1, -⟩ := h saturatingState 0 saturatingInv (demoProgram 0) he hs (by rw [hi]; simp) hc hheld hq hm
  obtain ⟨u, hu, hend, -⟩ := h1 _ (.inl rfl) hp
  have h0 := posted_of_endsRef hu hend
  rw [saturatingState_ends] at h0
  exact Bool.false_ne_true h0

end Sys2Proof.Machine
end

section
/-!
PROOFS. Chapter 09, Tables 09-9 to 09-12: the watermarks (O53); chapter 21: the JTAG port (O57).
-/

namespace Sys2Proof.Machine

open Sys2Proof.Safety

/-! ### What is held back on a controller -/

/-- An event leaves what is held back on every controller held back. -/
theorem State.raise_keeps_held (s : State) (fn : Nat) (e : Event) {k p : Nat} (h : p ∈ (s.ctrl k).held) :
    p ∈ ((s.raise fn e).ctrl k).held := by
  have hmod : ∀ f : Ctrl → Ctrl, (∀ c, c.held ⊆ (f c).held) → p ∈ ((s.modCtrl fn f).ctrl k).held := by
    intro f hf
    by_cases hk : k = fn
    · subst hk
      by_cases hl : k < s.pcie.ctrls.length
      · rw [s.ctrl_modCtrl f hl]
        exact hf _ h
      · have hd : s.ctrl k = {} := List.getD_eq_default _ _ (Nat.le_of_not_lt hl)
        rw [hd] at h
        cases h
    · rw [s.ctrl_modCtrl_ne f hk]
      exact h
  have h1 := hmod (fun c => { c with held := c.held ++ [e.page] }) fun c => List.subset_append_left ..
  unfold State.raise
  dsimp only
  split
  · exact h
  · split
    · by_cases hk : k = fn
      · subst hk
        by_cases hl : k < s.pcie.ctrls.length
        · rw [State.ctrl_modCtrl _ _ (by simpa using hl)]
          exact h1
        · have hd : s.ctrl k = {} := List.getD_eq_default _ _ (Nat.le_of_not_lt hl)
          rw [hd] at h
          cases h
      · rw [State.ctrl_modCtrl_ne _ _ hk]
        exact h1
    · rw [(State.complete_waiting ..).2]
      exact h1
/-- After an event of a page that page is held back on its controller. -/
theorem State.raise_holds (s : State) {fn : Nat} (e : Event) (h : fn < s.pcie.ctrls.length) : e.page ∈ ((s.raise fn e).ctrl fn).held := by
  have h1 : e.page ∈ ((s.modCtrl fn fun c => { c with held := c.held ++ [e.page] }).ctrl fn).held := by
    rw [s.ctrl_modCtrl _ h]
    exact List.mem_append_right _ (List.mem_singleton_self _)
  unfold State.raise
  dsimp only
  split
  next hc => exact List.contains_iff_mem.mp hc
  · split
    · rw [State.ctrl_modCtrl _ _ (by simpa using h)]
      exact h1
    · rw [(State.complete_waiting ..).2]
      exact h1
theorem State.raise_ctrls_length (s : State) (fn : Nat) (e : Event) : (s.raise fn e).pcie.ctrls.length = s.pcie.ctrls.length :=
  State.ctrls_length_of_still (congrArg State.pcie (s.raise_posts fn e).still)
/-- A log entry's event is held back on PF0, and on its owner. -/
theorem State.log_holds (s : State) (page : Nat) (body : List Byte) (owner : Nat) :
    (0 < s.pcie.ctrls.length → page ∈ ((s.log page body (owner := owner)).ctrl 0).held)
    ∧ (owner ≠ 0 → owner < s.pcie.ctrls.length → page ∈ ((s.log page body (owner := owner)).ctrl owner).held) := by
  have hlen : ∀ l : Logs, ({ s with logs := l } : State).pcie.ctrls.length = s.pcie.ctrls.length := fun _ => rfl
  refine ⟨fun h => ?_, fun ho h => ?_⟩
  · have h1 : ∀ l : Logs, page ∈ ((({ s with logs := l } : State).raiseLog 0 page).ctrl 0).held := fun l =>
      State.raise_holds _ { aet := 7, info := page, page := page } h
    unfold State.log
    dsimp only
    rw [if_pos rfl]
    split
    · exact State.raise_keeps_held _ _ _ (h1 _)
    · exact h1 _
  · have hb : (owner != 0) = true := bne_iff_ne.mpr ho
    unfold State.log
    dsimp only
    rw [if_pos rfl, Bool.true_and, if_pos hb]
    refine State.raise_holds _ { aet := 7, info := page, page := page } ?_
    rw [State.raiseLog, State.raise_ctrls_length]
    exact h

/-! ### The watermarks -/

/-- What a command on a watermark leaves: its own record, every other one, and an entry of a kind, with its events. -/
def State.Marks (s t : State) (tenant : Option Nat) (w : Nat) (y : Watermark) (kind : Nat) : Prop :=
  t.mark? tenant w = some y
  ∧ (∀ tn v, (tn, v) ≠ (tenant, w) → t.mark? tn v = s.mark? tn v)
  ∧ t.ctrs = s.ctrs ∧ t.media = s.media ∧ t.invocations = s.invocations ∧ t.power = s.power
  ∧ (kind = 0 → t.logs = s.logs ∧ t.pcie = s.pcie)
  ∧ (kind ≠ 0 → t.logs.c6.nextSeq = s.logs.c6.nextSeq + 1
    ∧ (∃ e ∈ t.logs.c6.entries, e.seq = s.logs.c6.nextSeq ∧ e.time = s.now
      ∧ e.body = watermarkEntry kind (if tenant.isSome then 1 else 0) (tenant.getD 0) w y 0 0)
    ∧ (0 < s.pcie.ctrls.length → 0xC6 ∈ (t.ctrl 0).held)
    ∧ ∀ tn, tenant = some tn → tn + 1 < s.pcie.ctrls.length → 0xC6 ∈ (t.ctrl (tn + 1)).held)
/-- A record is set without an entry. -/
theorem State.setMark_marks {s : State} {tenant : Option Nat} {w : Nat} {x : Watermark} (h : s.mark? tenant w = some x) (y : Watermark) :
    s.Marks (s.setMark tenant w y) tenant w y 0 := by
  suffices (s.setMark tenant w y).mark? tenant w = some y
      ∧ (∀ tn v, (tn, v) ≠ (tenant, w) → (s.setMark tenant w y).mark? tn v = s.mark? tn v) by
    refine ⟨this.1, this.2, ?_⟩
    cases tenant <;> exact ⟨rfl, rfl, rfl, rfl, fun _ => ⟨rfl, rfl⟩, fun h => absurd rfl h⟩
  cases tenant with
  | none =>
    obtain ⟨hw, -⟩ := List.getElem?_eq_some_iff.mp (h : s.marks[w]? = some x)
    refine ⟨List.getElem?_set_self hw, fun tn v hne => ?_⟩
    cases tn with
    | none => exact List.getElem?_set_ne fun hv => hne (by rw [hv])
    | some t => rfl
  | some t =>
    have ht : t < s.tenants.length := by
      by_contra hc
      rw [State.mark?, if_neg hc] at h
      cases h
    rw [State.mark?, if_pos ht] at h
    obtain ⟨hw, -⟩ := List.getElem?_eq_some_iff.mp h
    have hlen : (s.setMark (some t) w y).tenants.length = s.tenants.length := List.length_modify ..
    have hself : (s.setMark (some t) w y).tenant t = { s.tenant t with watermarks := (s.tenant t).watermarks.set w y } :=
      s.tenant_modTenant _ ht
    refine ⟨?_, fun tn v hne => ?_⟩
    · rw [State.mark?, hlen, if_pos ht, hself]
      exact List.getElem?_set_self hw
    · cases tn with
      | none => rfl
      | some u =>
        rw [State.mark?, State.mark?, hlen]
        refine if_congr Iff.rfl ?_ rfl
        by_cases hu : u = t
        · subst hu
          rw [hself]
          exact List.getElem?_set_ne fun hv => hne (by rw [hv])
        · exact congrArg (fun z : Tenant => z.watermarks[v]?) (State.tenant_modTenant_ne s _ hu)
/-- An entry after a record is set. -/
theorem State.Marks.entry {s t : State} {tenant : Option Nat} {w : Nat} {y : Watermark} (h : s.Marks t tenant w y 0) {kind : Nat}
    (hk : kind ≠ 0) (hnow : t.now = s.now) : s.Marks (t.markEntry kind tenant w y) tenant w y kind := by
  obtain ⟨hself, hne, hctrs, hmedia, hinv, hpower, hsame, -⟩ := h
  obtain ⟨hlogs, hpcie⟩ := hsame rfl
  obtain ⟨owner, how, hown⟩ : ∃ owner, t.markEntry kind tenant w y
      = t.log 0xC6 (watermarkEntry kind (if tenant.isSome then 1 else 0) (tenant.getD 0) w y 0 0) (owner := owner)
      ∧ ∀ tn, tenant = some tn → owner = tn + 1 := by
    cases tenant with
    | none => exact ⟨0, rfl, nofun⟩
    | some tn => exact ⟨tn + 1, rfl, fun _ h => by cases h; rfl⟩
  rw [State.Marks]
  generalize watermarkEntry kind (if tenant.isSome then 1 else 0) (tenant.getD 0) w y 0 0 = body at how ⊢
  have hframe := t.log_frame 0xC6 body false owner true
  have hpage := congrArg State.logs (t.log_spec 0xC6 body false owner true)
  have hheld := t.log_holds 0xC6 body owner
  have hseq := t.log_nextSeq (page := 0xC6) (by simp) body false owner true
  rw [how]
  generalize t.log 0xC6 body (owner := owner) = u at *
  have hmark : ∀ tn v, u.mark? tn v = t.mark? tn v := by
    intro tn v
    have h1 : u.marks = t.marks := (congrArg State.marks hframe :)
    have h2 : u.tenants = t.tenants := (congrArg State.tenants hframe :)
    cases tn with
    | none => exact congrArg (·[v]?) h1
    | some n => rw [State.mark?, State.mark?, State.tenant, State.tenant, h2]
  refine ⟨(hmark ..).trans hself, fun tn v hv => (hmark ..).trans (hne tn v hv), (congrArg State.ctrs hframe :).trans hctrs,
    (congrArg State.media hframe :).trans hmedia, (congrArg State.invocations hframe :).trans hinv,
    (congrArg State.power hframe :).trans hpower, fun h => absurd h hk, fun _ => ⟨?_, ?_, ?_, fun tn htn => ?_⟩⟩
  · rw [← hlogs]
    exact hseq
  · have hlast := LogPage.add_last (t.logs.page 0xC6) (logCapacity 0xC6) t.now owner false body
    have hc6 : u.logs.c6 = (t.logs.page 0xC6).add (logCapacity 0xC6) t.now owner false body := congrArg Logs.c6 hpage
    rw [← hc6] at hlast
    exact ⟨_, List.mem_of_getLast? hlast, congrArg (fun l : Logs => l.c6.nextSeq) hlogs, hnow, rfl⟩
  · rw [← hpcie]
    exact hheld.1
  · rw [← hown tn htn, ← hpcie]
    exact hheld.2 (by rw [hown tn htn]; exact Nat.succ_ne_zero tn)
theorem State.setMark_now (s : State) (tenant : Option Nat) (w : Nat) (y : Watermark) : (s.setMark tenant w y).now = s.now := by
  cases tenant <;> rfl
/-- A crossing counts, and with the latch clear latches with an entry. -/
theorem State.crossing_marks {s : State} {tenant : Option Nat} {w : Nat} {x0 : Watermark} (h : s.mark? tenant w = some x0) (x : Watermark) :
    s.Marks (s.crossing tenant w x) tenant w { x with count := min (x.count + 1) 0xFFFF, latch := true } (if x.latch then 0 else 1) := by
  obtain ⟨level, mark, peak, latch, count⟩ := x
  unfold State.crossing
  cases latch with
  | true => exact State.setMark_marks h _
  | false => exact (State.setMark_marks h _).entry Nat.one_ne_zero (s.setMark_now ..)
theorem reaches_iff (level mark : Nat) : reaches level mark = true ↔ mark ≤ level ∧ mark ≠ 0xFFFFFFFF := by
  unfold reaches
  simp [Bool.and_eq_true]
theorem State.whenOpen_of {s : State} (hon : s.power.stage = .on) (hp : s.power.perst = false) (o : Out) : s.whenOpen o = o :=
  if_pos ⟨hon, hp⟩
theorem State.whenOn_of {s : State} (hon : s.power.stage = .on) (o : Out) : s.whenOn o = o := if_pos hon

/-- The level that WATERMARK_EVALUATE computes. -/
def State.markLevel (s : State) (tenant : Option Nat) (w : Nat) : Nat :=
  match tenant with
  | none => s.moduleLevel w
  | some t => s.tenantLevel t w

section
variable {s : State} {tenant : Option Nat} {w : Nat} {x : Watermark} (hon : s.power.stage = .on) (hx : s.mark? tenant w = some x)
include hon hx

theorem exec_watermarkEvaluate : exec (.watermarkEvaluate tenant w) s = .next
    (if reaches (s.markLevel tenant w) x.mark && !reaches x.level x.mark
      then s.crossing tenant w { x with level := s.markLevel tenant w, peak := max x.peak (s.markLevel tenant w) }
      else s.setMark tenant w { x with level := s.markLevel tenant w, peak := max x.peak (s.markLevel tenant w) }) := by
  refine (s.whenOn_of hon _).trans ?_
  rw [hx]
  cases tenant <;> exact (apply_ite (fun t : State => (.next t : Out)) _ _ _).symm
variable (hp : s.power.perst = false)
include hp
theorem exec_wmLatchClear : exec (.wmLatchClear tenant w) s = .next
    (if reaches x.level x.mark
      then (s.setMark tenant w { x with latch := reaches x.level x.mark, peak := x.level }).markEntry 2 tenant w
        { x with latch := reaches x.level x.mark, peak := x.level }
      else s.setMark tenant w { x with latch := reaches x.level x.mark, peak := x.level }) := by
  refine (s.whenOpen_of hon hp _).trans ?_
  rw [hx]
  exact (apply_ite (fun t : State => (.next t : Out)) _ _ _).symm
theorem exec_wmMarkWrite (value : Dword) : exec (.wmMarkWrite tenant w value) s = .next
    (if reaches x.level value.toNat then s.crossing tenant w { x with mark := value.toNat }
      else s.setMark tenant w { x with mark := value.toNat }) := by
  refine (s.whenOpen_of hon hp _).trans ?_
  rw [hx]
  exact (apply_ite (fun t : State => (.next t : Out)) _ _ _).symm
theorem exec_wmClrCount : exec (.wmClrCount tenant w) s = .next (s.setMark tenant w { x with count := 0 }) := by
  refine (s.whenOpen_of hon hp _).trans ?_
  rw [hx]
end

/-- Settles O53: a command on a watermark sets its record, and an entry where the record latches. -/
theorem watermarks : Obligations.Watermarks := by
  unfold Obligations.Watermarks
  intro s tenant w x hon hx sets crossed once v seen
  have hsets : ∀ {i t y kind}, exec i s = .next t → s.Marks t tenant w y kind → sets i y kind := fun h hm => ⟨_, h, hm⟩
  have hv : s.markLevel tenant w = v := by cases tenant <;> rfl
  have hev := exec_watermarkEvaluate hon hx
  rw [hv] at hev
  refine ⟨fun hlow hup hm => ?_, fun h => ?_, fun hp => ⟨fun h => ?_, fun hlow hm => ?_, fun value hv hm => ?_, fun value h => ?_, ?_⟩⟩
  · have h1 : reaches v x.mark = true := (reaches_iff ..).mpr ⟨hup, hm⟩
    have h2 : reaches x.level x.mark = false := Bool.eq_false_iff.mpr fun hc => by have := ((reaches_iff ..).mp hc).1; omega
    rw [if_pos (by rw [h1, h2]; rfl)] at hev
    exact hsets hev (State.crossing_marks hx _)
  · have h1 : ¬ (reaches v x.mark && !reaches x.level x.mark) = true := by
      rw [Bool.and_eq_true, reaches_iff, Bool.not_eq_true', Bool.eq_false_iff, ne_eq, ne_eq, reaches_iff]
      omega
    rw [if_neg h1] at hev
    exact hsets hev (State.setMark_marks hx _)
  · have h1 : reaches x.level x.mark = false := Bool.eq_false_iff.mpr fun hc => by have := (reaches_iff ..).mp hc; omega
    have hex := exec_wmLatchClear hon hx hp
    rw [h1] at hex
    exact hsets hex (State.setMark_marks hx _)
  · have h1 : reaches x.level x.mark = true := (reaches_iff ..).mpr ⟨hlow, hm⟩
    have hex := exec_wmLatchClear hon hx hp
    rw [h1] at hex
    exact hsets hex ((State.setMark_marks hx _).entry (by decide) (s.setMark_now ..))
  · have h1 : reaches x.level value.toNat = true := (reaches_iff ..).mpr ⟨hv, hm⟩
    have hex := exec_wmMarkWrite hon hx hp value
    rw [if_pos h1] at hex
    exact hsets hex (State.crossing_marks hx _)
  · have h1 : ¬ reaches x.level value.toNat = true := fun hc => by have := (reaches_iff ..).mp hc; omega
    have hex := exec_wmMarkWrite hon hx hp value
    rw [if_neg h1] at hex
    exact hsets hex (State.setMark_marks hx _)
  · exact hsets (exec_wmClrCount hon hx hp) (State.setMark_marks hx _)

/-! ### JTAG -/

/-- What leaves the identifier's register with 32 bits or less shifted are its low bits. -/
theorem shiftOut_idBits {n : Nat} (h : n ≤ 32) :
    shiftOut idBits (List.replicate n false) = (List.range n).map fun k => Config.jtagId.getLsbD k := by
  have hlen : idBits.length = 32 := by simp [idBits]
  rw [shiftOut, List.length_replicate, List.take_append_of_le_length (by omega), idBits, ← List.map_take, List.take_range,
    Nat.min_eq_left h]

/-- Settles O57: each instruction changes the pins alone. -/
theorem jtagReachesNothing : Obligations.JtagReachesNothing := by
  unfold Obligations.JtagReachesNothing
  intro s pins tdi n port shift left
  refine ⟨rfl, fun h => ?_, rfl, fun hb hp => ?_, fun h => ?_⟩
  · rw [← shiftOut_idBits h]
    rfl
  · refine (if_pos ?_ : execJtagExtest tdi s = _)
    rw [hb, hp]
    rfl
  · refine (if_neg ?_ : execJtagExtest tdi s = _)
    rcases h with h | h <;> simp [h]

end Sys2Proof.Machine
end

section
/-!
PROOFS. Chapter 19, Table 19-7: the service monitor (O56).
-/

namespace Sys2Proof.Machine

open Sys2Proof.Safety

/-! ### A line of the monitor -/

/-- Does the monitor answer a line? -/
def State.answering (s : State) : Prop := s.svc.running = true ∨ s.power.railsUp = true ∧ s.power.perst = true
/-- Is the monitor still unlocked when a line comes? -/
def State.liveMonitor (s : State) : Bool := s.svc.monitor.unlocked && decide (s.now < s.svc.monitor.lastAt + 600000000)
/-- The state in which a line is answered. -/
def State.heard (s : State) : State := s.modMonitor fun m => { m with
  lastAt := s.now, unlocked := m.unlocked && decide (s.now < m.lastAt + 600000000) }

theorem State.line_of {s : State} (hon : s.power.stage = .on) (h : s.answering) (f : State → State) : s.line f = .next (f s.heard) := by
  refine if_pos ?_
  rcases h with h | ⟨h, k⟩
  · simp [hon, h]
  · simp [hon, h, k]
theorem State.line_of_not {s : State} (h : ¬ s.answering) (f : State → State) : s.line f = .next s := by
  refine if_neg ?_
  unfold State.answering at h
  simp only [Bool.and_eq_true, Bool.or_eq_true, not_and]
  exact fun _ => h
theorem State.unlockedLine_of_not {s : State} (h : ¬ s.answering) (f : State → State) : s.unlockedLine f = .next s := State.line_of_not h _

section
variable {s : State} (hon : s.power.stage = .on) (h : s.answering)
include hon h
theorem State.line_ite {p : Prop} [Decidable p] (f g : State → State) :
    s.line (fun u => if p then f u else g u) = .next (if p then f s.heard else g s.heard) := State.line_of hon h _
theorem State.unlockedLine_of (hl : s.liveMonitor = true) (f : State → State) : s.unlockedLine f = .next (f s.heard) :=
  (State.line_of hon h _).trans (congrArg _ (if_pos hl))
theorem State.unlockedLine_locked (hl : s.liveMonitor = false) (f : State → State) : s.unlockedLine f = .next (s.heard.err .locked) :=
  (State.line_of hon h _).trans (congrArg _ (if_neg (by
    show ¬ s.liveMonitor = true
    rw [hl]
    exact Bool.false_ne_true)))
end

/-! ### Challenge and unlock -/

theorem lockoutSeconds_eq {n : Nat} (h : 2 ≤ n) : lockoutSeconds (n + 1) = min 3600 (60 * 2 ^ min (n - 2) 6) := if_neg (by omega)
theorem lockoutSeconds_pos {n : Nat} (h : 2 ≤ n) : lockoutSeconds (n + 1) ≠ 0 := by
  rw [lockoutSeconds_eq h]
  have : 0 < 2 ^ min (n - 2) 6 := Nat.two_pow_pos _
  omega
/-- The nonce of the latest challenge is live for 60 s. -/
theorem State.liveNonce_eq_some (s : State) (n : BitVec 256) :
    s.liveNonce = some n ↔ s.svc.monitor.nonce = some n ∧ s.now ≤ s.svc.monitor.nonceAt + 60000000 := by
  unfold State.liveNonce
  split
  next h => exact ⟨fun k => ⟨k, h⟩, fun k => k.1⟩
  next h => exact ⟨nofun, fun k => absurd k.2 h⟩
/-- What makes a response right. -/
def State.right (s : State) (good : List Byte → Bool) : Prop := ∃ n, s.liveNonce = some n ∧ good (s.challengeMessage n) = true
theorem State.unlockDone_eq (s : State) : s.unlockDone = s.modMonitor fun m => { m with unlocked := true, fails := 0, reply := "OK" } := rfl
/-- A right response unlocks; any other fails. -/
theorem State.attempt_right {s : State} {good : List Byte → Bool} (hl : s.lockedOut = false) (h : s.right good) :
    s.attempt good = (s.modMonitor fun m => { m with nonce := none }).unlockDone := by
  obtain ⟨n, hn, hg⟩ := h
  unfold State.attempt
  rw [hl, hn]
  dsimp only
  rw [if_neg Bool.false_ne_true, if_pos hg]
theorem State.attempt_wrong {s : State} {good : List Byte → Bool} (hl : s.lockedOut = false) (h : ¬ s.right good) :
    s.attempt good = (s.modMonitor fun m => { m with nonce := none }).unlockFailed := by
  unfold State.attempt
  rw [hl]
  dsimp only
  rw [if_neg Bool.false_ne_true, if_neg]
  intro hc
  split at hc
  next n hn => exact h ⟨n, hn, hc⟩
  next => cases hc
theorem State.attempt_lockedOut {s : State} (hl : s.lockedOut = true) (good : List Byte → Bool) : s.attempt good = s.err .lockout := if_pos hl
/-- Below the third failure in a row there is no lockout. -/
theorem State.unlockFailed_early {s : State} (h : s.svc.monitor.fails < 2) :
    s.unlockFailed = (s.modMonitor fun m => { m with fails := m.fails + 1 }).err .refused := by
  have h0 : lockoutSeconds (s.svc.monitor.fails + 1) = 0 := if_pos (by omega)
  unfold State.unlockFailed
  dsimp only
  rw [if_pos h0]
  rfl
/-- From the third failure on a lockout starts. -/
theorem State.unlockFailed_late {s : State} (h : 2 ≤ s.svc.monitor.fails) (l : Nat) (hl : l = lockoutSeconds (s.svc.monitor.fails + 1)) :
    s.unlockFailed.svc.monitor = { s.svc.monitor with
      fails := s.svc.monitor.fails + 1, lockoutS := l, lockoutUntil := some (s.now + 1000000 * l), reply := MonErr.refused.text } := by
  subst hl
  unfold State.unlockFailed
  dsimp only
  rw [if_neg (lockoutSeconds_pos h)]
  have hsvc (u : State) (e : Health) : (u.health e).svc = u.svc :=
    (congrArg State.svc (u.log_frame 0xC0 e.body e.counts 0 true) :)
  show { (State.health _ _).svc.monitor with reply := MonErr.refused.text } = _
  rw [hsvc]
  rfl

/-! ### Keys and resets -/

/-- A key changes with nothing staged: the slot alone, with its entry and the reply. -/
theorem State.changeKey_spec {s : State} (hs : s.pers.stage = .empty) (slot : Nat) (key : Option OwnerKey) (id : Nat) :
    (s.changeKey slot key id).svc.monitor = { s.svc.monitor with reply := "OK" }
    ∧ (s.changeKey slot key id).pers = { s.pers with ownerKeys := s.pers.ownerKeys.set slot key }
    ∧ (s.changeKey slot key id).logs.c0.nextSeq = s.logs.c0.nextSeq + 1 := by
  have h : ∃ e : Health, s.changeKey slot key id = ((s.modPers fun p => { p with ownerKeys := p.ownerKeys.set slot key }).health e).ok := by
    unfold State.changeKey
    dsimp only
    refine ⟨_, congrArg (fun u : State => (u.health _).ok) ((if_neg ?_).trans (if_neg ?_))⟩
    · simp [State.modPers, hs]
    · simp [State.modPers, hs]
  obtain ⟨e, he⟩ := h
  rw [he]
  generalize hu : (s.modPers fun p => { p with ownerKeys := p.ownerKeys.set slot key }) = u
  have hf := u.log_frame 0xC0 e.body e.counts 0 true
  have hsvc : (u.health e).svc = s.svc := by
    rw [← show u.svc = s.svc by rw [← hu]; rfl]
    exact (congrArg State.svc hf :)
  have hpers : (u.health e).pers = { s.pers with ownerKeys := s.pers.ownerKeys.set slot key } := by
    rw [show (u.health e).pers = u.pers from (congrArg State.pers hf :), ← hu]
    rfl
  refine ⟨?_, hpers, ?_⟩
  · show { (u.health e).svc.monitor with reply := "OK" } = _
    rw [hsvc]
  · rw [← show u.logs = s.logs by rw [← hu]; rfl]
    exact u.log_nextSeq (page := 0xC0) (by simp) _ _ _ _

/-- A settings write asks for its turn, and changes the service complex alone. -/
theorem State.norRequest_spec (s : State) (j : NorJob) : OnlySvc s (s.norRequest j)
    ∧ (s.norRequest j).svc.nor.queue = s.svc.nor.queue ++ [j]
    ∧ (s.norRequest j).svc.monitor = s.svc.monitor ∧ (s.norRequest j).svc.settingsBusy = s.svc.settingsBusy := by
  have hstart : ∀ (i : NorJob) (n : Nor), (i.start n).queue = n.queue := by
    intro i n
    cases i <;> unfold NorJob.start <;> try rfl
    all_goals (unfold Nor.setFw Nor.setBase; dsimp only; split <;> rfl)
  unfold State.norRequest State.norStart
  split
  · exact ⟨rfl, rfl, rfl, rfl⟩
  · split
    · exact ⟨rfl, rfl, rfl, rfl⟩
    · exact ⟨rfl, hstart _ _, rfl, rfl⟩
theorem OnlySvc.modSvc {s t : State} (h : OnlySvc s t) (f : Service → Service) : OnlySvc s (t.modSvc f) := h
theorem OnlySvc.trans {s t u : State} (h : OnlySvc s t) (k : OnlySvc t u) : OnlySvc s u := by
  obtain ⟨⟩ := s; obtain ⟨⟩ := t; obtain ⟨⟩ := u
  simp only [OnlySvc, State.mk.injEq] at h k ⊢
  simp_all
theorem State.settingsStart_spec (s : State) (j : NorJob) : OnlySvc s (s.settingsStart j)
    ∧ (s.settingsStart j).svc.nor.queue = s.svc.nor.queue ++ [j]
    ∧ (s.settingsStart j).svc.monitor = s.svc.monitor ∧ (s.settingsStart j).svc.settingsBusy = true := by
  obtain ⟨h1, h2, h3, h4⟩ := (s.modSvc fun c => { c with settingsBusy := true }).norRequest_spec j
  exact ⟨OnlySvc.trans (t := s.modSvc _) rfl h1, h2, h3, h4⟩
/-- A requested reset stops fetching, and is pending or held. -/
theorem State.requestReset_spec {s : State} (h : s.svc.held = none) : (s.requestReset).svc.monitor = s.svc.monitor
    ∧ s.requestReset.pcie.fetchStopped = true ∧ (s.svc.nor.busy = false → s.requestReset.power.moduleResetPending = true)
    ∧ (s.svc.nor.busy = true → s.requestReset.svc.held = some { watchdog := false, moduleReset := true, since := s.now }) := by
  have hs : ∀ p : Pcie, ({ s with pcie := p } : State).shield false = ({ s with pcie := p } : State).modSvc fun c => { c with
      held := some { watchdog := false, moduleReset := !false, since := s.now }
      shieldHolds := satAdd32 c.shieldHolds 1 } := by
    intro p
    unfold State.shield
    rw [show ({ s with pcie := p } : State).svc.held = none from h]
  unfold State.requestReset
  dsimp only
  cases hb : s.svc.nor.busy with
  | true =>
    rw [if_pos (by simp [State.modPcie, hb])]
    have := hs { s.pcie with fetchStopped := true }
    rw [show (s.modPcie fun p => { p with fetchStopped := true }) = { s with pcie := { s.pcie with fetchStopped := true } } from rfl, this]
    exact ⟨rfl, rfl, nofun, fun _ => rfl⟩
  | false =>
    rw [if_neg (by simp [State.modPcie, hb, h])]
    exact ⟨rfl, rfl, fun _ => rfl, nofun⟩

/-! ### The responses -/

/-- Does a tag answer a message under the key of an owner slot? -/
def State.ownerAnswers (s : State) (slot : Nat) (tag : BitVec 384) (msg : List Byte) : Bool :=
  match s.ownerKey slot with
  | some k => decide (hmacSha384 (bytesOfBe 48 k.key.toNat) msg = bytesOfBe 48 tag.toNat)
  | none => false
theorem State.ownerAnswers_iff (s : State) (slot : Nat) (tag : BitVec 384) (msg : List Byte) : s.ownerAnswers slot tag msg = true
    ↔ ∃ key, s.ownerKey slot = some key ∧ hmacSha384 (bytesOfBe 48 key.key.toNat) msg = bytesOfBe 48 tag.toNat := by
  unfold State.ownerAnswers
  constructor
  · intro h
    split at h
    next key hkey => exact ⟨key, hkey, of_decide_eq_true h⟩
    next => cases h
  · rintro ⟨key, hkey, h⟩
    rw [hkey]
    exact decide_eq_true h
/-- Does a signature answer a message under a vendor key? -/
def vendorAnswers (r v : BitVec 384) (msg : List Byte) : Bool :=
  [0, 1].any fun (k : Nat) => ecdsaVerify (Config.vendorKey k) msg r.toNat v.toNat
theorem vendorAnswers_of {r v : BitVec 384} {msg : List Byte} {k : Nat} (hk : k < 2)
    (h : ecdsaVerify (Config.vendorKey k) msg r.toNat v.toNat = true) : vendorAnswers r v msg = true :=
  List.any_eq_true.mpr ⟨k, by simp; omega, h⟩
theorem State.not_right {s : State} {good : List Byte → Bool} (h : s.svc.monitor.nonce = none ∨ s.svc.monitor.nonceAt + 60000000 < s.now) :
    ¬ s.right good := by
  rintro ⟨n, hn, -⟩
  obtain ⟨h1, h2⟩ := (s.liveNonce_eq_some n).mp hn
  rcases h with h | h
  · rw [h] at h1
    cases h1
  · omega
section
variable {s : State} (hon : s.power.stage = .on) (h : s.answering)
include hon h
theorem exec_unlockOwner {slot : Nat} (hs : slot ≤ 3) (tag : BitVec 384) :
    exec (.unlockOwner slot tag) s = .next (s.heard.attempt (s.ownerAnswers slot tag)) :=
  (State.line_of hon h fun u => if 3 < slot then u.err .badArgument else u.attempt (u.ownerAnswers slot tag)).trans
    (congrArg _ (if_neg (Nat.not_lt.mpr hs)))
theorem exec_unlockVendor (r v : BitVec 384) : exec (.unlockVendor r v) s = .next (s.heard.attempt (vendorAnswers r v)) :=
  State.line_of hon h fun u => u.attempt (vendorAnswers r v)
end
/-- The monitor once it has answered a line. -/
def State.said (s : State) (text : String) : Monitor := { s.svc.monitor with lastAt := s.now, unlocked := s.liveMonitor, reply := text }
/-- A right response, as the state it leaves. -/
theorem State.right_heard (s : State) (good : List Byte → Bool) : s.heard.right good ↔ s.right good := Iff.rfl
theorem State.lockedOut_heard (s : State) : s.heard.lockedOut = s.lockedOut := rfl
/-- A change of the monitor after a line is heard. -/
theorem State.heard_modMonitor (s : State) (f : Monitor → Monitor) : s.heard.modMonitor f = { s with svc := { s.svc with
    monitor := f { s.svc.monitor with lastAt := s.now, unlocked := s.liveMonitor } } } := rfl
theorem State.modMonitor_modMonitor (s : State) (f g : Monitor → Monitor) :
    (s.modMonitor f).modMonitor g = s.modMonitor fun m => g (f m) := rfl
theorem State.heard_attempt_right {s : State} {good : List Byte → Bool} (hl : s.lockedOut = false) (h : s.right good) :
    s.heard.attempt good
      = { s with svc := { s.svc with monitor := { s.said "OK" with nonce := none, unlocked := true, fails := 0 } } } := by
  rw [State.attempt_right (s.lockedOut_heard.trans hl) ((s.right_heard good).mpr h), State.unlockDone_eq, State.modMonitor_modMonitor,
    State.heard_modMonitor]
  rfl
/-- A wrong response below the third failure, as the state it leaves. -/
theorem State.heard_attempt_early {s : State} {good : List Byte → Bool} (hl : s.lockedOut = false) (h : ¬ s.right good)
    (hf : s.svc.monitor.fails < 2) : s.heard.attempt good
      = { s with svc := { s.svc with monitor := { s.said "ERR 6" with nonce := none, fails := s.svc.monitor.fails + 1 } } } := by
  have hf' : (s.heard.modMonitor fun m => { m with nonce := none }).svc.monitor.fails < 2 := hf
  rw [State.attempt_wrong (s.lockedOut_heard.trans hl) (mt (s.right_heard good).mp h), State.unlockFailed_early hf',
    State.modMonitor_modMonitor, State.err, State.reply, State.modMonitor_modMonitor, State.heard_modMonitor]
  rfl
/-- A wrong response from the third failure on. -/
theorem State.heard_attempt_late {s : State} {good : List Byte → Bool} (hl : s.lockedOut = false) (h : ¬ s.right good)
    (hf : 2 ≤ s.svc.monitor.fails) (l : Nat) (hs : l = min 3600 (60 * 2 ^ min (s.svc.monitor.fails - 2) 6)) :
    (s.heard.attempt good).svc.monitor = { s.said "ERR 6" with nonce := none, fails := s.svc.monitor.fails + 1
                                                               lockoutS := l, lockoutUntil := some (s.now + 1000000 * l) } := by
  rw [State.attempt_wrong (s.lockedOut_heard.trans hl) (mt (s.right_heard good).mp h)]
  exact State.unlockFailed_late (s := s.heard.modMonitor fun m => { m with nonce := none }) hf l (hs.trans (lockoutSeconds_eq hf).symm)
/-- A physical unlock that is allowed, as the state it leaves. -/
theorem State.heard_unlockDone (s : State) : s.heard.unlockDone
    = { s with svc := { s.svc with monitor := { s.said "OK" with unlocked := true, fails := 0 } } } := by
  rw [State.unlockDone_eq, State.heard_modMonitor]
  rfl

/-! ### The obligation -/

/-- Settles O56: each line of the monitor, and its three timers. -/
theorem monitorCommands : Obligations.MonitorCommands := by
  unfold Obligations.MonitorCommands
  intro s hon mon with_ answers live said heard answering
  have hline (o : Out) {f : State → State} (ho : o = s.line f) (ha : answering) {m : Monitor} (hm : f s.heard = with_ m) :
      o = .next (with_ m) := (ho.trans (State.line_of hon ha f)).trans (congrArg _ hm)
  have hopen (o : Out) {f : State → State} (ho : o = s.unlockedLine f) (ha : answering) (hl : live = true) {u : State}
      (hu : f s.heard = u) : o = .next u := (ho.trans (State.unlockedLine_of hon ha hl f)).trans (congrArg _ hu)
  refine ⟨fun h p n o b nn k t r v len id key x hx => ?_, fun h => ⟨?_, ?_, fun page n h1 h2 => ?_, fun page n hp => ?_,
    fun o h1 h2 => ?_, fun o ho => ?_, ?_, fun b hb => ?_, fun b hb => ?_, fun len h1 h2 => ?_, fun len hl => ?_,
    ?_, fun hl nn k t r v hk x hx => ?_, fun k t hk => ?_, fun hl => ⟨fun nn => ?_, fun k t hk => ?_, fun r v hn hf => ?_,
      fun r v nn hn ht hk => ?_, fun h1 h2 => ?_, fun hx => ?_⟩, fun hl k id key x hx => ?_, fun hl => ⟨fun k id key hk => ?_, fun k hk => ?_,
        fun k id key hk hid hs => ?_, fun k hk hs => ?_, fun hw => ?_, fun hw => ?_, fun hh => ?_⟩⟩,
    fun ht => if_neg (Nat.not_lt.mpr ht), fun ht => if_pos ht, fun ht => if_neg (Nat.not_le.mpr ht), fun ht => if_pos ht,
    fun hl => if_neg (ne_true_of_eq_false hl), fun hl => if_pos hl⟩
  · have hno (o : Out) {f : State → State} (ho : o = s.line f) : o = .next s := ho.trans (State.line_of_not h f)
    have hun (o : Out) {f : State → State} (ho : o = s.unlockedLine f) : o = .next s := ho.trans (State.unlockedLine_of_not h f)
    simp only [List.mem_cons, List.not_mem_nil, or_false] at hx
    rcases hx with rfl | rfl | rfl | rfl | rfl | rfl | rfl | rfl | rfl | rfl | rfl | rfl | rfl | rfl | rfl | rfl
    exacts [hno (execMonitorId s) rfl, hno (execMonitorStatus s) rfl, hno (execMonitorLog p n s) rfl, hno (execMonitorReg o s) rfl,
      hno (execMonitorKeys s) rfl, hno (execMonitorBaud b s) rfl, hno (execMonitorChallenge nn s) rfl, hno (execUnlockOwner k t s) rfl,
      hno (execUnlockVendor r v s) rfl, hno (execUnlockPhysical s) rfl, hno (execMonitorLock s) rfl, hun (execKeyInstall k id key s) rfl,
      hun (execKeyRevoke k s) rfl, hun (execMonitorSettingsClear s) rfl, hun (execMonitorReset s) rfl,
      hno (execMonitorUnknownCommand len s) rfl]
  · exact hline (execMonitorId s) rfl h rfl
  · exact hline (execMonitorStatus s) rfl h rfl
  · exact ⟨_, hline (execMonitorLog page n s) rfl h (if_neg (by omega))⟩
  · exact hline (execMonitorLog page n s) rfl h (if_pos hp)
  · exact hline (execMonitorReg o s) rfl h (if_neg (by omega))
  · exact hline (execMonitorReg o s) rfl h (if_pos ho)
  · exact ⟨_, hline (execMonitorKeys s) rfl h rfl⟩
  · exact hline (execMonitorBaud b s) rfl h (if_pos (List.contains_iff_mem.mpr hb))
  · exact hline (execMonitorBaud b s) rfl h (if_neg fun hc => hb (List.contains_iff_mem.mp hc))
  · exact hline (execMonitorUnknownCommand len s) rfl h (if_neg (by omega))
  · exact hline (execMonitorUnknownCommand len s) rfl h (if_pos hl)
  · exact hline (execMonitorLock s) rfl h rfl
  · have hlo : s.heard.lockedOut = true := hl
    simp only [List.mem_cons, List.not_mem_nil, or_false] at hx
    rcases hx with rfl | rfl | rfl | rfl
    · exact hline (execMonitorChallenge nn s) rfl h (if_pos hlo)
    · exact hline (execUnlockOwner k t s) rfl h ((if_neg (Nat.not_lt.mpr hk)).trans (State.attempt_lockedOut hlo _))
    · exact hline (execUnlockVendor r v s) rfl h (State.attempt_lockedOut hlo _)
    · exact hline (execUnlockPhysical s) rfl h (if_pos hlo)
  · exact hline (execUnlockOwner k t s) rfl h (if_pos hk)
  · exact hline (execMonitorChallenge nn s) rfl h (if_neg (ne_true_of_eq_false hl))
  · have hex := exec_unlockOwner hon h hk t
    have hright : s.right (s.ownerAnswers k t) ↔ ∃ key nn, s.ownerKey k = some key ∧ mon.nonce = some nn
        ∧ s.now ≤ mon.nonceAt + 60000000
        ∧ hmacSha384 (bytesOfBe 48 key.key.toNat) (s.challengeMessage nn) = bytesOfBe 48 t.toNat := by
      rw [State.right]
      simp only [State.liveNonce_eq_some, State.ownerAnswers_iff]
      exact ⟨fun ⟨nn, ⟨h1, h2⟩, key, h3, h4⟩ => ⟨key, nn, h3, h1, h2, h4⟩, fun ⟨key, nn, h3, h1, h2, h4⟩ => ⟨nn, ⟨h1, h2⟩, key, h3, h4⟩⟩
    exact ⟨fun hr => hex.trans (congrArg _ (State.heard_attempt_right hl (hright.mpr hr))),
      fun hr hf => hex.trans (congrArg _ (State.heard_attempt_early hl (mt hright.mp hr) hf)),
      fun hr hf => ⟨_, hex, State.heard_attempt_late hl (mt hright.mp hr) hf (min 3600 (60 * 2 ^ min (mon.fails - 2) 6)) rfl⟩⟩
  · exact (exec_unlockVendor hon h r v).trans (congrArg _ (State.heard_attempt_early hl (State.not_right hn) hf))
  · obtain ⟨k, hk, hv⟩ := hk
    exact (exec_unlockVendor hon h r v).trans (congrArg _ (State.heard_attempt_right hl
      ⟨nn, (s.liveNonce_eq_some nn).mpr ⟨hn, ht⟩, vendorAnswers_of hk hv⟩))
  · exact hline (execUnlockPhysical s) rfl h ((if_neg (ne_true_of_eq_false hl)).trans ((if_pos (Bool.and_eq_true_iff.mpr ⟨h1, h2⟩)).trans
      s.heard_unlockDone))
  · refine hline (execUnlockPhysical s) rfl h ((if_neg (ne_true_of_eq_false hl)).trans (if_neg fun hc => ?_))
    obtain ⟨h1, h2⟩ := Bool.and_eq_true_iff.mp hc
    rcases hx with hx | hx
    · exact Bool.false_ne_true (hx.symm.trans h1)
    · exact Bool.false_ne_true (hx.symm.trans h2)
  · simp only [List.mem_cons, List.not_mem_nil, or_false] at hx
    have hlocked (o : Out) {f : State → State} (ho : o = s.unlockedLine f) : o = .next (with_ (said "ERR 3")) :=
      ho.trans (State.unlockedLine_locked hon h hl f)
    rcases hx with rfl | rfl | rfl | rfl
    exacts [hlocked (execKeyInstall k id key s) rfl, hlocked (execKeyRevoke k s) rfl, hlocked (execMonitorSettingsClear s) rfl,
      hlocked (execMonitorReset s) rfl]
  · exact hopen (execKeyInstall k id key s) rfl h hl (if_pos hk)
  · exact hopen (execKeyRevoke k s) rfl h hl (if_pos hk)
  · exact ⟨_, hopen (execKeyInstall k id key s) rfl h hl (if_neg (not_or.mpr ⟨Nat.not_lt.mpr hk, hid⟩)), State.changeKey_spec (s := s.heard) hs ..⟩
  · exact ⟨_, hopen (execKeyRevoke k s) rfl h hl (if_neg (Nat.not_lt.mpr hk)), State.changeKey_spec (s := s.heard) hs ..⟩
  · obtain ⟨h1, h2, h3, h4⟩ := s.heard.settingsStart_spec .clear
    refine ⟨_, hopen (execMonitorSettingsClear s) rfl h hl (if_pos hw), ?_, h4, h2, ?_⟩
    · exact (congrArg (fun m : Monitor => { m with reply := "OK" }) h3 :)
    · have h0 : OnlySvc s s.heard := rfl
      exact OnlySvc.modSvc (OnlySvc.trans h0 h1) _
  · exact hopen (execMonitorSettingsClear s) rfl h hl (if_neg (ne_true_of_eq_false hw))
  · exact ⟨_, hopen (execMonitorReset s) rfl h hl rfl, State.requestReset_spec (s := s.heard.ok) hh⟩

end Sys2Proof.Machine
end

section
/-!
PROOFS. Chapter 19: firmware slots, the boot NOR, settings and self-test (O55).
-/

namespace Sys2Proof.Machine

open Sys2Proof.Safety

/-! ### What a start does to the media -/

/-- The power block and the service complex. -/
def State.service (s : State) : Power × Service := (s.power, s.svc)

theorem State.log_service (s : State) (page : Nat) (body : List Byte) (fault : Bool) (owner : Nat) (event : Bool) :
    (s.log page body fault owner event).service = s.service :=
  (congrArg State.service (s.log_frame page body fault owner event) :)
theorem State.health_service (s : State) (e : Health) : (s.health e).service = s.service := s.log_service ..
theorem State.mediaLog_service (s : State) (e : MediaEntry) (fault : Bool) : (s.mediaLog e fault).service = s.service := s.log_service ..
theorem State.raiseLog_service (s : State) (fn page : Nat) : (s.raiseLog fn page).service = s.service :=
  (congrArg State.service (s.raise_onlyHost fn { aet := 7, info := page, page := page }) :)
theorem State.defer_service (s : State) (fn nsid slba nlb arrival : Nat) : (s.defer fn nsid slba nlb arrival).service = s.service := by
  unfold State.defer
  dsimp only
  split
  · rw [State.raiseLog_service]
    exact State.mediaLog_service s.newFault.2 _ _
  · rw [State.raiseLog_service, State.raiseLog_service]
    exact State.mediaLog_service s.newFault.2 _ _
theorem State.deferAll_service (s : State) (lost : List (Nat × Nat × Nat × Nat)) : (s.deferAll lost).service = s.service := by
  unfold State.deferAll
  refine foldl_keep State.service _ (fun u n => ?_) _ _
  exact foldl_keep State.service _ (fun u r => u.defer_service ..) _ _
theorem State.retireBlock_service (s : State) (a : BlockAddr) (cause f : Nat) : (s.retireBlock a cause f).service = s.service := by
  refine ite_keep State.service rfl ?_
  exact (State.mediaLog_service ..).trans (State.log_service ..)
theorem State.programFailed_service (s : State) (b : Superblock) (slot plane row : Nat) :
    (s.programFailed b slot plane row).service = s.service :=
  (State.retireBlock_service ..).trans (State.mediaLog_service s.newFault.2 _ _)
theorem State.startMedia_service (s : State) : s.startMedia.service = s.service := by
  unfold State.startMedia
  dsimp only
  refine (foldl_keep State.service _ (fun u x => State.mediaLog_service ..) _ _).trans
    ((foldl_keep State.service _ (fun u x => ?_) _ _).trans (s.deferAll_service _))
  split
  · exact u.programFailed_service ..
  · rfl

/-! ### Boot ROM and the start of firmware -/

/-- The pending note of a power loss, and the service complex. -/
def State.noted (s : State) : Bool × Service := (s.power.lossPending, s.svc)
theorem State.health_noted (s : State) (e : Health) : (s.health e).noted = s.noted :=
  congrArg (fun x : Power × Service => (x.1.lossPending, x.2)) (s.health_service e)
/-- The notes of a start are written and taken from the service complex. -/
theorem State.startNotes_noted (s : State) : s.startNotes.noted = (false, { s.svc with
    wdtNote := none, shieldNote := none, sidebandNote := false, nor := { s.svc.nor with intent := none } }) := by
  unfold State.startNotes
  extract_lets c s1 s2 s3 s4 s5 seq s6
  have h1 : s1.noted = (false, s.svc) := by
    unfold s1
    split
    next h => exact congrArg (fun x : Bool × Service => (false, x.2)) (s.health_noted _)
    next h => exact Prod.ext (Bool.eq_false_iff.mpr h) rfl
  have h2 : s2.noted = s1.noted := by
    unfold s2
    split
    · exact s1.health_noted _
    · rfl
  have h3 : s3.noted = s2.noted := by
    unfold s3
    split
    · exact s2.health_noted _
    · exact s2.drawWord.2.health_noted _
    · rfl
  have h4 : s4.noted = s3.noted := by
    unfold s4
    split
    · exact s3.health_noted _
    · rfl
  have h5 : s5.noted = s4.noted := by
    unfold s5
    split
    · exact s4.health_noted _
    · rfl
  have h6 : s6.noted = s5.noted := by
    unfold s6
    split
    · exact s5.health_noted _
    · rfl
  have h : s6.noted = (false, s.svc) := (h6.trans (h5.trans (h4.trans (h3.trans h2)))).trans h1
  exact congrArg (fun x : Bool × Service => (x.1, { x.2 with
    wdtNote := none, shieldNote := none, sidebandNote := false, nor := { x.2.nor with intent := none } })) h
/-- What a start of firmware leaves in the service complex: it runs, with the data path and the whole watchdog time. -/
theorem State.startFirmware_spec (s : State) (old : Option Qword) : (s.startFirmware old).svc.runSlot = s.svc.runSlot
    ∧ (s.startFirmware old).svc.revision = s.svc.revision ∧ (s.startFirmware old).svc.running = true
    ∧ (s.startFirmware old).svc.dataPath = true ∧ (s.startFirmware old).svc.wdtLeftUs = 2000000
    ∧ (s.startFirmware old).power.lossPending = false ∧ (s.startFirmware old).svc.shieldNote = none := by
  unfold State.startFirmware
  extract_lets s1 s2 s3 s4 s5
  have h1 : s1.svc.runSlot = s.svc.runSlot ∧ s1.svc.revision = s.svc.revision := by
    unfold s1 State.readStore
    split <;> exact ⟨rfl, rfl⟩
  have h5 : s5.noted = s4.noted := by
    unfold s5
    split
    · exact s4.health_noted _
    · rfl
  have h6 : s5.startMedia.noted = s5.noted := congrArg (fun x : Power × Service => (x.1.lossPending, x.2)) s5.startMedia_service
  have h := (h6.trans h5).trans s3.startNotes_noted
  obtain ⟨hl, hs⟩ := Prod.mk.inj h
  rw [hl, hs]
  exact ⟨h1.1, h1.2, rfl, rfl, rfl, rfl, rfl⟩
/-- Boot ROM with nothing to run. -/
theorem State.bootFirmware_none {s : State} (h : s.bootChoice = none) (bad : List (Nat × Nat)) :
    s.bootFirmware bad 2 none = s.romRecovery := by
  have hr : s.bootRom bad 2 = (s, none) := by
    unfold State.bootRom
    rw [h]
  unfold State.bootFirmware
  rw [hr]
/-- Boot ROM runs a slot whose chunks hold, and whose firmware can read the store. -/
theorem State.bootFirmware_some {s : State} {k : Nat} (h : s.bootChoice = some k) {bad : List (Nat × Nat)} (hb : s.badChunk bad k = none)
    (hu : s.svc.bootSel = true ∨ s.svc.nor.unreadable (fwRevision (((s.svc.nor.fw k).map FwSlot.header).getD [])) = none) :
    s.bootFirmware bad 2 none = (s.modSvc fun c => { c with
      runSlot := k, revision := fwRevision (((s.svc.nor.fw k).map FwSlot.header).getD []) }).startFirmware none := by
  have hr : s.bootRom bad 2 = (s, some k) := by
    unfold State.bootRom
    rw [h]
    dsimp only
    rw [hb]
  unfold State.bootFirmware
  rw [hr]
  dsimp only
  have hn : (if (s.modSvc fun c => { c with
      runSlot := k, revision := fwRevision (((s.svc.nor.fw k).map FwSlot.header).getD []) }).svc.bootSel then none
      else (s.modSvc fun c => { c with
        runSlot := k, revision := fwRevision (((s.svc.nor.fw k).map FwSlot.header).getD []) }).svc.nor.unreadable
          (fwRevision (((s.svc.nor.fw k).map FwSlot.header).getD []))) = none := by
    rcases hu with hu | hu
    · exact if_pos hu
    · split
      · rfl
      · exact hu
  rw [hn]

/-- FIRMWARE_BOOT. -/
theorem firmwareBoot_spec (s : State) (bad : List (Nat × Nat)) :
    (s.power.stage = .on → s.power.railsUp = true → s.power.perst = false → s.svc.running = false → s.bootChoice = none →
      exec (.firmwareBoot bad) s = .next { s with svc := { s.svc with
        running := true, runSlot := 2, revision := 0x59525643524D4F52, wdtLeftUs := 2000000 } })
    ∧ (∀ k, s.power.stage = .on → s.power.railsUp = true → s.power.perst = false → s.svc.running = false → s.bootChoice = some k →
        s.badChunk bad k = none →
        let rev := fwRevision (((s.svc.nor.fw k).map FwSlot.header).getD [])
        s.svc.bootSel = true ∨ s.svc.nor.unreadable rev = none →
        ∃ t, exec (.firmwareBoot bad) s = .next t ∧ t.svc.runSlot = k ∧ t.svc.revision = rev ∧ t.svc.running = true
          ∧ t.svc.dataPath = true ∧ t.svc.wdtLeftUs = 2000000 ∧ t.power.lossPending = false ∧ t.svc.shieldNote = none)
    ∧ (s.power.railsUp = false ∨ s.power.perst = true ∨ s.svc.running = true → exec (.firmwareBoot bad) s = .next s) := by
  have hgo (h1 : s.power.stage = .on) (h2 : s.power.railsUp = true) (h3 : s.power.perst = false) (h4 : s.svc.running = false) :
      exec (.firmwareBoot bad) s = .next (s.bootFirmware bad 2 none) := if_neg (by simp [h1, h2, h3, h4])
  refine ⟨fun h1 h2 h3 h4 h5 => ?_, fun k h1 h2 h3 h4 h5 h6 h7 => ⟨_, hgo h1 h2 h3 h4, ?_⟩, fun h => if_pos ?_⟩
  · rw [hgo h1 h2 h3 h4, State.bootFirmware_none h5]
    rfl
  · rw [State.bootFirmware_some h5 h6 h7]
    exact State.startFirmware_spec ..
  · rcases h with h | h | h <;> simp [h]

/-! ### The interface register of the boot NOR -/

/-- NOR_CTRL takes a clock, a dummy count and a mode that it has, and counts any other write. -/
theorem norCtrlWrite_spec (s : State) (value : Dword) (hon : s.power.stage = .on) (hp : s.power.perst = false) :
    let v := value.toNat
    (∀ m, dummyMin s.svc.nor.vio (bits v 2 0) = some m → m ≤ bits v 7 4 → bits v 9 8 = 0 ∨ bits v 9 8 = 1 ∧ s.svc.nor.sfdpOk = true →
      exec (.norCtrlWrite value) s = .next { s with svc := { s.svc with nor := { s.svc.nor with
        clkSel := bits v 2 0, dummy := bits v 7 4, mode := bits v 9 8 } } })
    ∧ (dummyMin s.svc.nor.vio (bits v 2 0) = none ∨ (∃ m, dummyMin s.svc.nor.vio (bits v 2 0) = some m ∧ bits v 7 4 < m)
          ∨ bits v 9 8 > 1 ∨ bits v 9 8 = 1 ∧ s.svc.nor.sfdpOk = false →
      exec (.norCtrlWrite value) s = .next { s with svc := { s.svc with nor := { s.svc.nor with
        refused := min (s.svc.nor.refused + 1) 0xFFFF } } }) := by
  intro v
  have hopen : exec (.norCtrlWrite value) s = if s.norCtrlOk v then .next (s.settingPut 0x040030 v)
      else .next (s.modSvc fun c => { c with nor := { c.nor with refused := min (c.nor.refused + 1) 0xFFFF } }) := s.whenOpen_of hon hp _
  refine ⟨fun m hm hle hmode => ?_, fun h => ?_⟩
  · rw [hopen, if_pos]
    · rfl
    · unfold State.norCtrlOk
      rw [hm]
      rcases hmode with h | ⟨h, hs⟩
      · simp [hle, h]
      · simp [hle, h, hs]
  · rw [hopen, if_neg]
    · rfl
    · unfold State.norCtrlOk
      rcases h with h | ⟨m, hm, hlt⟩ | h | ⟨h, hs⟩
      · simp [h]
      · simp [hm, hlt]
      · simp [h]
      · simp [h, hs]

/-! ### Commands about firmware -/

section
variable {s t : State} {c : Cmd} (h : Starts s c .adminOwner t)
include h

/-- A command of PF0's admin queue that ends with a status and changes nothing. -/
theorem Starts.refuses {x : Instr} {st : Status} (hx : exec x s = .next (t.complete c.ref st)) :
    ∃ u, exec x s = .next u ∧ Ends s u c st ∧ u.svc = s.svc :=
  ⟨_, hx, State.begin_completes h.1 st 0 0, (State.complete_svc ..).trans (State.begin_svc h.1)⟩

theorem exec_firmwareImageDownload : exec (.firmwareImageDownload c) s = .next (
    if 4 * c.cdw11.toNat ≠ 0 ∧ 4 * c.cdw11.toNat ≠ t.svc.fwStageBytes then t.complete c.ref .invalidField
    else if 4 * c.cdw11.toNat ≠ 0 ∧ t.svc.fwStageBytes % 4096 ≠ 0 then t.complete c.ref .invalidField
    else if 4 * c.cdw11.toNat + 4 * (c.cdw10.toNat + 1) > 16711680 then t.complete c.ref .invalidField
    else (t.modSvc fun v => { v with
      fwStage := (if 4 * c.cdw11.toNat = 0 then ({} : Region) else t.svc.fwStage).put (4 * c.cdw11.toNat)
        (t.dataIn c.prp1 c.prp2 (4 * (c.cdw10.toNat + 1)))
      fwStageBytes := 4 * c.cdw11.toNat + 4 * (c.cdw10.toNat + 1) }).complete c.ref .success) :=
  State.command_of_starts h _
/-- FIRMWARE_IMAGE_DOWNLOAD stages its piece, or changes nothing. -/
theorem firmwareImageDownload_spec :
    let len := 4 * (c.cdw10.toNat + 1)
    let off := 4 * c.cdw11.toNat
    let bs := s.dataIn c.prp1 c.prp2 len
    (off + len ≤ 16711680 → off = 0 ∨ off = s.svc.fwStageBytes ∧ s.svc.fwStageBytes % 4096 = 0 → s.svc.fwStage.wf = true →
      ∃ u, exec (.firmwareImageDownload c) s = .next u ∧ Ends s u c .success ∧ u.svc.fwStageBytes = off + len
        ∧ u.svc.fwStage.get off bs.length = bs ∧ ∀ n, n < off → u.svc.fwStage.at n = s.svc.fwStage.at n)
    ∧ (off ≠ 0 → off ≠ s.svc.fwStageBytes ∨ s.svc.fwStageBytes % 4096 ≠ 0 →
        ∃ u, exec (.firmwareImageDownload c) s = .next u ∧ Ends s u c .invalidField ∧ u.svc = s.svc)
    ∧ (16711680 < off + len → ∃ u, exec (.firmwareImageDownload c) s = .next u ∧ Ends s u c .invalidField ∧ u.svc = s.svc) := by
  intro len off bs
  have hx := exec_firmwareImageDownload h
  rw [State.begin_svc h.1, State.dataIn_of_host (State.begin_host h.1)] at hx
  refine ⟨fun hlen hoff hwf => ?_, fun h0 hoff => ?_, fun hlen => ?_⟩
  · rw [if_neg (by omega), if_neg (by omega), if_neg (by omega)] at hx
    refine ⟨_, hx, State.begin_ends h.1 (State.Spares.ends (s := t) (t := t.modSvc _) (.of_pcie rfl rfl) (State.begin_firm h.1) .success 0 0), ?_⟩
    rw [State.complete_svc]
    refine ⟨rfl, ?_, fun n hn => ?_⟩
    · refine Region.get_put ?_ off bs
      split
      · rfl
      · exact hwf
    · have h0 : ¬ 4 * c.cdw11.toNat = 0 := fun h0 => by rw [show off = 0 from h0] at hn; exact Nat.not_lt_zero n hn
      show Region.at (Region.put (if _ then _ else _) off bs) n = _
      rw [if_neg h0, Region.at_put]
      exact if_neg (by omega)
  · refine Starts.refuses h ?_
    rw [hx]
    refine congrArg _ (ite_eq_iff.mpr ?_)
    by_cases h1 : 4 * c.cdw11.toNat ≠ s.svc.fwStageBytes
    · exact .inl ⟨⟨h0, h1⟩, rfl⟩
    · exact .inr ⟨fun hc => h1 hc.2, if_pos ⟨h0, hoff.resolve_left h1⟩⟩
  · refine Starts.refuses h ?_
    rw [hx, if_pos hlen, ite_self, ite_self]

theorem exec_firmwareCommit : exec (.firmwareCommit c) s = .next (
    let slot := if bits c.cdw10.toNat 2 0 = 0 then (if t.svc.runSlot = 0 then 1 else 0) else bits c.cdw10.toNat 2 0 - 1
    if bits c.cdw10.toNat 5 3 > 2 || (c.cdw10.toNat / 64 ≠ 0 || [c.cdw11, c.cdw12, c.cdw13, c.cdw14, c.cdw15].any (· != 0)) then
      t.complete c.ref .invalidField
    else if bits c.cdw10.toNat 2 0 > 2 then t.complete c.ref .invalidFwSlot
    else if bits c.cdw10.toNat 5 3 ≠ 2 then
      if slot = t.svc.runSlot then t.complete c.ref .invalidFwSlot
      else if !fwImageOk t.svc.fwStage t.svc.fwStageBytes then t.complete c.ref .invalidFwImage
      else t.norRequest (.commit c.ref slot (bits c.cdw10.toNat 5 3) (fwLength (t.svc.fwStage.get 0 4096)) t.svc.fwStage)
    else match t.svc.nor.fw slot with
      | none => t.complete c.ref .invalidFwImage
      | some f =>
        if f.state = .demoted then t.complete c.ref .invalidFwImage
        else if slot = t.svc.runSlot then t.complete c.ref .success
        else if f.state = .eligible then
          if f.seq < ((t.svc.nor.fw t.svc.runSlot).map (·.seq)).getD 0 then t.complete c.ref .invalidFwSlot
          else t.complete c.ref .success
        else t.norRequest (.promote c.ref slot)) :=
  State.command_of_starts h _

/-- What a request to the boot NOR leaves: its turn in the queue, and no completion. -/
theorem norRequest_waits (j : NorJob) : NoneEnds s (t.norRequest j) ∧ (t.norRequest j).svc.nor.queue = s.svc.nor.queue ++ [j] := by
  obtain ⟨h1, h2, -, -⟩ := t.norRequest_spec j
  refine ⟨?_, by rw [h2, State.begin_svc h.1]⟩
  exact (congrArg (fun u : State => u.pcie.completions) h1 :).trans (State.begin_completions h.1)
/-- FIRMWARE_COMMIT: its checks, and its turn at the boot NOR. -/
theorem firmwareCommit_spec (hz : [c.cdw11, c.cdw12, c.cdw13, c.cdw14, c.cdw15] = List.replicate 5 0) (hs : c.cdw10.toNat < 64) :
    let fs := bits c.cdw10.toNat 2 0
    (2 < bits c.cdw10.toNat 5 3 → ∃ u, exec (.firmwareCommit c) s = .next u ∧ Ends s u c .invalidField ∧ u.svc = s.svc)
    ∧ (bits c.cdw10.toNat 5 3 ≤ 2 → 2 < fs →
        ∃ u, exec (.firmwareCommit c) s = .next u ∧ Ends s u c .invalidFwSlot ∧ u.svc = s.svc)
    ∧ (bits c.cdw10.toNat 5 3 ≤ 1 → fs = s.svc.runSlot + 1 →
        ∃ u, exec (.firmwareCommit c) s = .next u ∧ Ends s u c .invalidFwSlot ∧ u.svc = s.svc)
    ∧ (bits c.cdw10.toNat 5 3 ≤ 1 → fs = 0 → fwImageOk s.svc.fwStage s.svc.fwStageBytes = false →
        ∃ u, exec (.firmwareCommit c) s = .next u ∧ Ends s u c .invalidFwImage ∧ u.svc = s.svc)
    ∧ (bits c.cdw10.toNat 5 3 ≤ 1 → 1 ≤ fs → fs ≤ 2 → fs ≠ s.svc.runSlot + 1 →
        fwImageOk s.svc.fwStage s.svc.fwStageBytes = true → ∃ u, exec (.firmwareCommit c) s = .next u ∧ NoneEnds s u
          ∧ u.svc.nor.queue = s.svc.nor.queue ++ [.commit c.ref (fs - 1) (bits c.cdw10.toNat 5 3)
            (fwLength (s.svc.fwStage.get 0 4096)) s.svc.fwStage])
    ∧ (bits c.cdw10.toNat 5 3 = 2 → 1 ≤ fs → fs ≤ 2 → fs ≠ s.svc.runSlot + 1 → ∀ f, s.svc.nor.fw (fs - 1) = some f →
        (f.state = .demoted → ∃ u, exec (.firmwareCommit c) s = .next u ∧ Ends s u c .invalidFwImage ∧ u.svc = s.svc)
        ∧ (f.state = .staged → ∃ u, exec (.firmwareCommit c) s = .next u ∧ NoneEnds s u
          ∧ u.svc.nor.queue = s.svc.nor.queue ++ [.promote c.ref (fs - 1)]
          ∧ (s.svc.nor.queue = [] → ∀ k, u.svc.nor.fw k = s.svc.nor.fw k))) := by
  intro fs
  have hx := exec_firmwareCommit h
  dsimp only at hx
  rw [State.begin_svc h.1, hz, Nat.div_eq_of_lt hs] at hx
  have hany : (decide (0 ≠ 0) || (List.replicate 5 (0 : Dword)).any (· != 0)) = false := by decide
  rw [hany, Bool.or_false] at hx
  refine ⟨fun ha => ?_, fun ha hf => ?_, fun ha hf => ?_, fun ha hf hi => ?_, fun ha h1 h2 hr hi => ?_, fun ha h1 h2 hr f hf => ?_⟩
  · rw [if_pos (decide_eq_true ha)] at hx
    exact Starts.refuses h hx
  all_goals rw [if_neg (by rw [decide_eq_true_eq]; omega)] at hx
  · rw [if_pos hf] at hx
    exact Starts.refuses h hx
  · refine Starts.refuses h ?_
    rw [hx]
    refine congrArg _ ?_
    by_cases h2 : bits c.cdw10.toNat 2 0 > 2
    · exact if_pos h2
    · rw [if_neg h2, if_pos (by omega), if_pos]
      show (if fs = 0 then _ else fs - 1) = _
      rw [if_neg (by omega)]
      omega
  · rw [if_neg (by omega), if_pos (by omega), if_neg, if_pos (by rw [hi]; rfl)] at hx
    · exact Starts.refuses h hx
    · rw [if_pos hf]
      split <;> omega
  · rw [if_neg (by omega), if_pos (by omega), if_neg (show ¬ fs = 0 by omega), if_neg (show ¬ fs - 1 = _ by omega),
      if_neg (by rw [hi]; exact Bool.false_ne_true)] at hx
    exact ⟨_, hx, norRequest_waits h _⟩
  · rw [if_neg (by omega), if_neg (not_not.mpr ha), if_neg (show ¬ fs = 0 by omega), hf] at hx
    dsimp only at hx
    refine ⟨fun hd => ?_, fun hd => ?_⟩
    · rw [if_pos hd] at hx
      exact Starts.refuses h hx
    · rw [if_neg (by rw [hd]; nofun), if_neg (show ¬ fs - 1 = _ by omega), if_neg (by rw [hd]; nofun)] at hx
      obtain ⟨w1, w2⟩ := norRequest_waits h (.promote c.ref (fs - 1))
      refine ⟨_, hx, w1, w2, fun hq k => ?_⟩
      rw [← State.begin_svc h.1] at hq ⊢
      unfold State.norRequest State.norStart
      split
      · rfl
      · have hq1 : (t.modNor fun n => { n with queue := n.queue ++ [.promote c.ref (fs - 1)] }).svc.nor.queue = [.promote c.ref (fs - 1)] := by
          show t.svc.nor.queue ++ _ = _
          rw [hq]
          rfl
        rw [hq1]
        rfl

theorem exec_deviceSelfTest : exec (.deviceSelfTest c) s = .next (
    if bits c.cdw10.toNat 3 0 = 0xF then (t.abortTest 1).complete c.ref .success
    else if bits c.cdw10.toNat 3 0 ≠ 1 && bits c.cdw10.toNat 3 0 ≠ 2 then t.complete c.ref .invalidField
    else if t.testBusy then t.complete c.ref .selfTestBusy
    else if t.svc.test.isSome then t.complete c.ref .selfTestRunning
    else (t.modSvc fun v => { v with test := some (bits c.cdw10.toNat 3 0, 0) }).complete c.ref .success) :=
  State.command_of_starts h _
/-- DEVICE_SELF_TEST starts a test, refuses one, or ends one. -/
theorem deviceSelfTest_spec :
    let code := bits c.cdw10.toNat 3 0
    ((code = 1 ∨ code = 2) → s.testBusy = false → s.svc.test = none → ∃ u, exec (.deviceSelfTest c) s = .next u
          ∧ Ends s u c .success ∧ u.svc = { s.svc with test := some (code, 0) })
      ∧ ((code = 1 ∨ code = 2) → s.testBusy = true →
          ∃ u, exec (.deviceSelfTest c) s = .next u ∧ Ends s u c .selfTestBusy ∧ u.svc = s.svc)
      ∧ ((code = 1 ∨ code = 2) → s.testBusy = false → s.svc.test.isSome = true →
          ∃ u, exec (.deviceSelfTest c) s = .next u ∧ Ends s u c .selfTestRunning ∧ u.svc = s.svc)
      ∧ (code = 0xF → ∃ u, exec (.deviceSelfTest c) s = .next u ∧ Ends s u c .success ∧ u.svc.test = none) := by
  intro code
  have hx := exec_deviceSelfTest h
  have hbusy : t.testBusy = s.testBusy := State.begin_congr h.1 State.testBusy (fun _ _ => rfl)
  rw [hbusy] at hx
  have hcode (hc : code = 1 ∨ code = 2) : ¬ bits c.cdw10.toNat 3 0 = 0xF ∧ ¬ (bits c.cdw10.toNat 3 0 ≠ 1 && bits c.cdw10.toNat 3 0 ≠ 2) = true := by
    have hc' : bits c.cdw10.toNat 3 0 = 1 ∨ bits c.cdw10.toNat 3 0 = 2 := hc
    rcases hc' with hc | hc <;> simp [hc]
  refine ⟨fun hc hb ht => ?_, fun hc hb => ?_, fun hc hb ht => ?_, fun hc => ?_⟩
  · rw [if_neg (hcode hc).1, if_neg (hcode hc).2, if_neg (by simp [hb]), State.begin_svc h.1, if_neg (by simp [ht])] at hx
    refine ⟨_, hx, State.begin_ends h.1 (State.Spares.ends (s := t) (t := t.modSvc _) (.of_pcie rfl rfl) (State.begin_firm h.1) .success 0 0), ?_⟩
    rw [State.complete_svc, ← State.begin_svc h.1]
    rfl
  · rw [if_neg (hcode hc).1, if_neg (hcode hc).2, if_pos hb] at hx
    exact Starts.refuses h hx
  · rw [if_neg (hcode hc).1, if_neg (hcode hc).2, if_neg (by simp [hb]), State.begin_svc h.1, if_pos ht] at hx
    exact Starts.refuses h hx
  · rw [if_pos hc] at hx
    refine ⟨_, hx, State.begin_ends h.1 (((t.abortTest_tells 1).spares c.ref).ends (State.begin_firm h.1) .success 0 0), ?_⟩
    rw [State.complete_svc]
    unfold State.abortTest State.endTest
    split
    next ht => exact ht
    next code seg ht =>
      dsimp only
      exact (congrArg (fun x : Power × Service => x.2.test) (State.health_service ..) :)

end
/-- The end of a self-test is its first result, and is logged. -/
theorem selfTestComplete_spec (s : State) (k n : Nat) (failed : Option Nat) (hon : s.power.stage = .on) (ht : s.svc.test = some (k, n)) :
    ∃ t r, exec (.selfTestComplete failed) s = .next t ∧ t.svc.test = none ∧ t.svc.testLog.head? = some r ∧ r.code = k
        ∧ r.result = (if failed.isSome then 7 else 0) ∧ r.segment = failed.getD 0 ∧ r.time = s.now
        ∧ t.logs.c0.nextSeq = s.logs.c0.nextSeq + 1 := by
  have hend (result seg : Nat) : (s.endTest result seg).svc.test = none
      ∧ (s.endTest result seg).svc.testLog.head? = some { code := k, result := result, segment := seg, time := s.now }
      ∧ (s.endTest result seg).logs.c0.nextSeq = s.logs.c0.nextSeq + 1 := by
    unfold State.endTest
    rw [ht]
    dsimp only
    refine ⟨(congrArg (fun x : Power × Service => x.2.test) (State.health_service ..) :),
      (congrArg (fun x : Power × Service => x.2.testLog.head?) (State.health_service ..) :).trans ?_,
      State.log_nextSeq (page := 0xC0) _ (by simp) _ _ _ _⟩
    rfl
  have hx : exec (.selfTestComplete failed) s = .next (s.endTest (if failed.isSome then 7 else 0) (failed.getD 0)) := by
    refine (if_neg (not_not.mpr hon)).trans ?_
    cases failed <;> rfl
  obtain ⟨h1, h2, h3⟩ := hend (if failed.isSome then 7 else 0) (failed.getD 0)
  exact ⟨_, _, hx, h1, h2, rfl, rfl, rfl, rfl, h3⟩

/-! ### The end of an operation of the boot NOR -/

theorem Nor.fw_setFw (n : Nor) {slot : Nat} (f : Option FwSlot) : (n.setFw slot f).fw slot = f := by
  unfold Nor.setFw Nor.fw
  split <;> rfl
theorem Nor.fw_setFw_other (n : Nor) {slot : Nat} (h : slot < 2) (f : Option FwSlot) : (n.setFw slot f).fw (1 - slot) = n.fw (1 - slot) := by
  obtain rfl | rfl : slot = 0 ∨ slot = 1 := by omega
  · rfl
  · rfl
theorem Nor.setFw_queue (n : Nor) (slot : Nat) (f : Option FwSlot) : (n.setFw slot f).queue = n.queue ∧ (n.setFw slot f).busy = n.busy := by
  unfold Nor.setFw
  split <;> exact ⟨rfl, rfl⟩
theorem Nor.base_setBase (n : Nor) (slot : Nat) (f : Option BaseSlot) : (n.setBase slot f).base slot = f := by
  unfold Nor.setBase Nor.base
  split <;> rfl
theorem Nor.setBase_queue (n : Nor) (slot : Nat) (f : Option BaseSlot) :
    (n.setBase slot f).queue = n.queue ∧ (n.setBase slot f).busy = n.busy := by
  unfold Nor.setBase
  split <;> exact ⟨rfl, rfl⟩
theorem Nor.append_queue (n : Nor) (rev : Qword) (tag : Nat) (body : List Byte) :
    (n.append rev tag body).queue = n.queue ∧ (n.append rev tag body).busy = n.busy := by
  have hput (x : SetBank) (p : Prop) [Decidable p] : (if p then { n with bankA := x } else { n with bankB := x }).queue = n.queue
      ∧ (if p then { n with bankA := x } else { n with bankB := x }).busy = n.busy := by split <;> exact ⟨rfl, rfl⟩
  unfold Nor.append
  split
  · exact ⟨rfl, rfl⟩
  · extract_lets mine old newer seq r inA put
    split
    · exact hput _ (inA = true)
    · exact hput _ ((!inA) = true)
/-- The boot NOR with nothing to do. -/
def State.norIdle (s : State) : State := s.modNor fun n => { n with queue := [], busy := false }
theorem State.norStart_of_empty {s : State} (h : s.svc.nor.queue = []) : s.norStart = s := by
  unfold State.norStart
  split
  · rfl
  · rw [h]
/-- Is a job programmed again where its copy does not match? -/
def NorJob.again (j : NorJob) (verified : Bool) : Bool :=
  match j with
  | .base .. => !verified
  | _ => false
/-- The last operation ends. -/
theorem exec_norOpDone {s : State} {j : NorJob} (hb : s.svc.nor.busy = true) (hq : s.svc.nor.queue = [j]) {verified : Bool}
    (ha : j.again verified = false) {t : State} (ht : s.norIdle.norEnd j verified = t) (hqt : t.svc.nor.queue = []) :
    exec (.norOpDone verified) s = .next t := by
  refine (if_neg (by rw [hb]; exact Bool.false_ne_true)).trans ?_
  rw [hq]
  dsimp only
  cases j with
  | base r slot seq =>
    refine (if_neg (ne_true_of_eq_false ha)).trans ?_
    exact congrArg Host.Outcome.next ((congrArg State.norStart ht).trans (State.norStart_of_empty hqt))
  | _ => exact (if_neg Bool.false_ne_true).trans (congrArg Host.Outcome.next ((congrArg State.norStart ht).trans (State.norStart_of_empty hqt)))

/-- The end of a command of another controller leaves a controller. -/
theorem State.complete_core_other (s : State) (q : CmdRef) (st : Status) (a b : Nat) {fn : Nat} (h : fn ≠ q.fn) :
    ((s.complete q st a b).ctrl fn).core = (s.ctrl fn).core := by
  unfold State.complete
  extract_lets held c ord s1 s2
  split
  · rw [State.post_core]
    exact congrArg Ctrl.core (s.ctrl_modCtrl_ne _ h)
  · rfl
theorem State.raise_core_other (s : State) {k fn : Nat} (e : Event) (h : fn ≠ k) : ((s.raise k e).ctrl fn).core = (s.ctrl fn).core := by
  unfold State.raise
  extract_lets c s1
  have h1 : (s1.ctrl fn).core = (s.ctrl fn).core := congrArg Ctrl.core (s.ctrl_modCtrl_ne _ h)
  split
  · rfl
  · split
    · exact (congrArg Ctrl.core (s1.ctrl_modCtrl_ne _ h)).trans h1
    · exact (s1.complete_core_other _ _ _ _ h).trans h1
theorem State.raise_appends (s : State) (k : Nat) (e : Event) : s.Appends (s.raise k e) := by
  have hm (u : State) (f : Ctrl → Ctrl) : u.Appends (u.modCtrl k f) := ⟨[], (List.append_nil _).symm⟩
  unfold State.raise
  extract_lets c s1
  split
  · exact .refl s
  · split
    · exact (hm s _).trans (hm s1 _)
    · exact (hm s _).trans (s1.complete_appends ..)
/-- An entry of PF0 leaves every other controller, and takes no completion back. -/
theorem State.log_other (s : State) {fn : Nat} (h : fn ≠ 0) (page : Nat) (body : List Byte) (fault event : Bool) :
    ((s.log page body fault 0 event).ctrl fn).core = (s.ctrl fn).core ∧ s.Appends (s.log page body fault 0 event) := by
  unfold State.log
  dsimp only
  rw [if_neg (by simp)]
  split
  · exact ⟨State.raise_core_other _ _ h, State.Appends.trans (t := { s with logs := _ }) ⟨[], (List.append_nil _).symm⟩ (State.raise_appends ..)⟩
  · exact ⟨rfl, [], (List.append_nil _).symm⟩
/-- An entry of PF0 leaves a command held under whose identifier PF0 has no event request. -/
theorem log_keeps_held {s : State} {r : CmdRef} (hh : Held s r) (h : ∀ a ∈ (s.ctrl 0).aers, a ≠ r.cid) (page : Nat)
    (body : List Byte) (fault event : Bool) : Held (s.log page body fault 0 event) r ∧ s.Appends (s.log page body fault 0 event) := by
  by_cases h0 : r.fn = 0
  · have hf : Firm s r := ⟨hh, fun _ hm => h _ (h0 ▸ hm) rfl⟩
    obtain ⟨⟨h1, -⟩, h2⟩ := s.log_spares r page body fault 0 event hf
    exact ⟨h1, h2⟩
  · obtain ⟨hc, ha⟩ := s.log_other h0 page body fault event
    have hpow : (s.log page body fault 0 event).power = s.power := congrArg Prod.fst (s.log_service page body fault 0 event)
    have ho : ((s.log page body fault 0 event).ctrl r.fn).outstanding = (s.ctrl r.fn).outstanding := (congrArg Ctrl.outstanding hc :)
    exact ⟨⟨by rw [hpow]; exact hh.1, by rw [ho]; exact hh.2⟩, ha⟩
/-- A command that was held all the way ends after the entry of an event. -/
theorem State.Appends.ends_of {s t : State} {r : CmdRef} (h : Held t r ∧ s.Appends t) (st : Status) : EndsRef s (t.complete r st) r st := by
  obtain ⟨hh, l, hl⟩ := h
  exact ⟨l ++ [completionOf r st 0 0], by rw [State.complete_held hh, hl, List.append_assoc], by simp⟩

/-! ### Each operation -/

section
variable {s : State} (hb : s.svc.nor.busy = true)
include hb

/-- A commit that has been read back. -/
theorem norOpDone_commit {r : CmdRef} {slot action len : Nat} {im : Region} (hq : s.svc.nor.queue = [.commit r slot action len im])
    (hs : slot < 2) (hrun : s.svc.runSlot < 2) (hh : Held s r) (haers : ∀ a ∈ (s.ctrl 0).aers, a ≠ r.cid) (ok : Bool) :
    ∃ t, exec (.norOpDone ok) s = .next t ∧ (t.svc.nor.queue = [] ∧ t.svc.nor.busy = false)
      ∧ EndsRef s t r (if ok then .success else .invalidFwImage) ∧ t.svc.nor.fw (1 - slot) = s.svc.nor.fw (1 - slot) ∧ t.svc.nor.intent = none
      ∧ t.svc.nor.fw slot = some { seq := ((s.svc.nor.fw (1 - slot)).map (·.seq)).getD 0 + 1, length := len, hdrCrc := crc32c (im.get 0 4096)
                                   state := if !ok then .demoted else if action = 0 then .staged else .eligible, image := im } := by
  obtain ⟨f, hf⟩ : ∃ f : FwSlot, f = { seq := ((s.svc.nor.fw (1 - slot)).map (·.seq)).getD 0 + 1, length := len, hdrCrc := crc32c (im.get 0 4096)
                                       state := if !ok then .demoted else if action = 0 then .staged else .eligible, image := im } := ⟨_, rfl⟩
  rw [← hf]
  obtain ⟨u, hu⟩ : ∃ u, u = s.norIdle.modNor fun n => { n.setFw slot (some f) with intent := none } := ⟨_, rfl⟩
  have hnor : (u.svc.nor.queue = [] ∧ u.svc.nor.busy = false) ∧ u.svc.nor.fw (1 - slot) = s.svc.nor.fw (1 - slot) ∧ u.svc.nor.intent = none
      ∧ u.svc.nor.fw slot = some f := by
    subst hu
    refine ⟨?_, Nor.fw_setFw_other _ hs _, rfl, Nor.fw_setFw _ _⟩
    exact Nor.setFw_queue { s.svc.nor with queue := [], busy := false } slot (some f)
  have hhu : Held u r := by
    subst hu
    exact hh
  have hau : (u.ctrl 0).aers = (s.ctrl 0).aers ∧ u.pcie = s.pcie ∧ u.svc.runSlot = s.svc.runSlot := by
    subst hu
    exact ⟨rfl, rfl, rfl⟩
  obtain ⟨ha1, ha2, ha3⟩ := hau
  cases ok with
  | false =>
    have ht : s.norIdle.norEnd (.commit r slot action len im) false = u.complete r .invalidFwImage := by
      rw [hu, hf]
      rfl
    have hsvc : (u.complete r .invalidFwImage).svc = u.svc := State.complete_svc ..
    refine ⟨_, exec_norOpDone hb hq rfl ht (by rw [hsvc]; exact hnor.1.1), ?_⟩
    rw [hsvc]
    obtain ⟨l, hl, hm⟩ := State.complete_ends hhu .invalidFwImage 0 0
    exact ⟨hnor.1, ⟨l, by rw [hl, ha2], hm⟩, hnor.2⟩
  | true =>
    obtain ⟨e, he⟩ : ∃ e : Health, s.norIdle.norEnd (.commit r slot action len im) true
        = if ((u.health e).complete r .success).svc.runSlot = 2 && action = 1 then
            (((u.health e).complete r .success).dropCommands.flushAll []).scopeReset false else (u.health e).complete r .success := by
      rw [hu, hf]
      exact ⟨_, rfl⟩
    have hsvc : ((u.health e).complete r .success).svc = u.svc :=
      (State.complete_svc ..).trans (congrArg Prod.snd (u.health_service e))
    have ht : s.norIdle.norEnd (.commit r slot action len im) true = (u.health e).complete r .success := by
      rw [he, hsvc, ha3]
      exact if_neg (by simp; omega)
    refine ⟨_, exec_norOpDone hb hq rfl ht (by rw [hsvc]; exact hnor.1.1), ?_⟩
    rw [hsvc]
    obtain ⟨l, hl, hm⟩ := State.Appends.ends_of (log_keeps_held hhu (by rw [ha1]; exact haers) 0xC0 e.body e.counts true) .success
    exact ⟨hnor.1, ⟨l, by rw [← ha2]; exact hl, hm⟩, hnor.2⟩

/-- A promotion. -/
theorem norOpDone_promote {r : CmdRef} {slot : Nat} (hq : s.svc.nor.queue = [.promote r slot]) {f : FwSlot} (hf : s.svc.nor.fw slot = some f)
    (hh : Held s r) (haers : ∀ a ∈ (s.ctrl 0).aers, a ≠ r.cid) :
    ∃ t, exec (.norOpDone true) s = .next t ∧ (t.svc.nor.queue = [] ∧ t.svc.nor.busy = false) ∧ EndsRef s t r .success
      ∧ t.svc.nor.fw slot = some { f with state := .eligible } := by
  obtain ⟨u, hu⟩ : ∃ u, u = s.norIdle.modNor fun n => n.setFw slot ((n.fw slot).map fun f => { f with state := .eligible }) := ⟨_, rfl⟩
  obtain ⟨e, he⟩ : ∃ e : Health, s.norIdle.norEnd (.promote r slot) true = (u.health e).complete r .success := by
    rw [hu]
    exact ⟨_, rfl⟩
  have hnor : u.svc.nor = ({ s.svc.nor with queue := [], busy := false } : Nor).setFw slot (some { f with state := .eligible }) := by
    rw [hu]
    exact congrArg (fun o : Option FwSlot => ({ s.svc.nor with queue := [], busy := false } : Nor).setFw slot (o.map fun f => { f with state := .eligible })) hf
  have hq2 := Nor.setFw_queue { s.svc.nor with queue := [], busy := false } slot (some { f with state := .eligible })
  have hsvc : ((u.health e).complete r .success).svc = u.svc :=
    (State.complete_svc ..).trans (congrArg Prod.snd (u.health_service e))
  have hend : EndsRef s ((u.health e).complete r .success) r .success := by
    subst hu
    exact State.Appends.ends_of (log_keeps_held (s := s.norIdle.modNor _) hh haers 0xC0 e.body e.counts true) .success
  refine ⟨_, exec_norOpDone hb hq rfl he (by rw [hsvc, hnor]; exact hq2.1), ?_⟩
  rw [hsvc, hnor]
  exact ⟨hq2, hend, Nor.fw_setFw _ _⟩
/-- A base slot that verifies, and one that is programmed again. -/
theorem norOpDone_base {r : CmdRef} {slot seq : Nat} (hq : s.svc.nor.queue = [.base r slot seq])
    (hh : Held s r) (haers : ∀ a ∈ (s.ctrl 0).aers, a ≠ r.cid) :
    (∃ t, exec (.norOpDone true) s = .next t ∧ (t.svc.nor.queue = [] ∧ t.svc.nor.busy = false) ∧ EndsRef s t r .success
      ∧ (t.svc.nor.base slot).map (·.seq) = some seq ∧ (t.svc.nor.base slot).map (·.image) = some s.pers.staged
      ∧ t.pers.job = .none)
    ∧ exec (.norOpDone false) s = .next s := by
  refine ⟨?_, ?_⟩
  · obtain ⟨b, hbs, hbi, u, hu, e, he⟩ : ∃ b : BaseSlot, b.seq = seq ∧ b.image = s.pers.staged
        ∧ ∃ u, u = (s.norIdle.modNor fun n => n.setBase slot (some b)).modPers Pers.stageBack
        ∧ ∃ e : PersEvent, s.norIdle.norEnd (.base r slot seq) true = (u.persLog e).persEnd r 0xC4 .success 0 0 :=
      ⟨{ seq := seq, length := s.pers.stageBytes, crc := crc32c (s.pers.staged.get 0 s.pers.stageBytes), image := s.pers.staged },
        rfl, rfl, _, rfl, _, rfl⟩
    have hnor : u.svc.nor = ({ s.svc.nor with queue := [], busy := false } : Nor).setBase slot (some b) := by rw [hu]; rfl
    have hq2 := Nor.setBase_queue { s.svc.nor with queue := [], busy := false } slot (some b)
    have hjob : u.pers.job = .none := by
      rw [hu]
      show s.pers.stageBack.job = .none
      unfold Pers.stageBack
      split <;> rfl
    have hsvc : ((u.persLog e).persEnd r 0xC4 .success 0 0).svc = u.svc :=
      (State.complete_svc ..).trans (congrArg Prod.snd (u.log_service 0xC8 e.body false 0 e.raises))
    have hpers : ((u.persLog e).persEnd r 0xC4 .success 0 0).pers.job = u.pers.job := by
      have h1 : (u.persLog e).pers = u.pers := (congrArg State.pers (u.log_frame 0xC8 e.body false 0 e.raises) :)
      rw [← h1]
      exact (congrArg (fun v : State => v.pers.job) (State.complete_onlyHost ..) :)
    have hend : EndsRef s ((u.persLog e).persEnd r 0xC4 .success 0 0) r .success := by
      subst hu
      obtain ⟨h1, h2⟩ := log_keeps_held (s := (s.norIdle.modNor fun n => n.setBase slot (some b)).modPers Pers.stageBack) hh haers 0xC8
        e.body false e.raises
      exact State.Appends.ends_of (t := State.persNote _ 0xC4 .success 0 0) ⟨h1, h2⟩ .success
    refine ⟨_, exec_norOpDone hb hq rfl he (by rw [hsvc, hnor]; exact hq2.1), ?_⟩
    rw [hsvc, hnor, hpers, Nor.base_setBase]
    exact ⟨hq2, hend, congrArg some hbs, congrArg some hbi, hjob⟩
  · refine (if_neg (by rw [hb]; exact Bool.false_ne_true)).trans ?_
    rw [hq]
    rfl
/-- The registers are saved. -/
theorem norOpDone_save (hq : s.svc.nor.queue = [.save]) : ∃ t, exec (.norOpDone true) s = .next t
    ∧ (t.svc.nor.queue = [] ∧ t.svc.nor.busy = false) ∧ t.svc.settingsBusy = false
    ∧ t.svc.regSaved = s.settingOffsets.map (fun o => (o, s.settingGet o)) ∧ OnlySvc s t := by
  have hq2 (rev : Qword) (tag : Nat) (body : List Byte) := Nor.append_queue { s.svc.nor with queue := [], busy := false } rev tag body
  have hget : s.norIdle.settingOffsets.map (fun o => (o, s.norIdle.settingGet o)) = s.settingOffsets.map (fun o => (o, s.settingGet o)) := rfl
  obtain ⟨body, ht⟩ : ∃ body, s.norIdle.norEnd .save true = (s.norIdle.modNor fun n => n.append s.svc.revision tagRegisters body).modSvc fun c =>
      { c with regSaved := s.norIdle.settingOffsets.map (fun o => (o, s.norIdle.settingGet o)), settingsBusy := false } := ⟨_, rfl⟩
  rw [hget] at ht
  have honly : OnlySvc s s.norIdle := rfl
  exact ⟨_, exec_norOpDone hb hq rfl ht (hq2 _ _ _).1, hq2 _ _ _, rfl, rfl, OnlySvc.modSvc (OnlySvc.modSvc honly _) _⟩
/-- The settings are superseded. -/
theorem norOpDone_clear (hq : s.svc.nor.queue = [.clear]) : ∃ t, exec (.norOpDone true) s = .next t
    ∧ (t.svc.nor.queue = [] ∧ t.svc.nor.busy = false) ∧ t.svc.settingsBusy = false ∧ t.svc.regSaved = []
    ∧ t.svc.featSaved = [] ∧ OnlySvc s t := by
  have ht : s.norIdle.norEnd .clear true
      = (s.norIdle.modNor Nor.supersede).modSvc fun c => { c with regSaved := [], featSaved := [], settingsBusy := false } := rfl
  have hq2 : (({ s.svc.nor with queue := [], busy := false } : Nor).supersede.queue = []
      ∧ ({ s.svc.nor with queue := [], busy := false } : Nor).supersede.busy = false) := ⟨rfl, rfl⟩
  have honly : OnlySvc s s.norIdle := rfl
  exact ⟨_, exec_norOpDone hb hq rfl ht hq2.1, hq2, rfl, rfl, rfl, OnlySvc.modSvc (OnlySvc.modSvc honly _) _⟩
/-- One feature is saved. -/
theorem norOpDone_features {r : CmdRef} {fn f sel v : Nat} (hq : s.svc.nor.queue = [.features r [(fn, f, sel, v)]]) (hh : Held s r) :
    ∃ t, exec (.norOpDone true) s = .next t ∧ (t.svc.nor.queue = [] ∧ t.svc.nor.busy = false) ∧ EndsRef s t r .success
      ∧ (fn, f, sel, v) ∈ t.svc.featSaved
      ∧ ∀ y ∈ s.svc.featSaved, (y.1, y.2.1, y.2.2.1) ≠ (fn, f, sel) → y ∈ t.svc.featSaved := by
  obtain ⟨values, hv⟩ : ∃ values, values = (s.svc.featSaved.filter fun y => !([(fn, f, sel, v)].any fun w =>
      (w.1, w.2.1, w.2.2.1) == (y.1, y.2.1, y.2.2.1))) ++ [(fn, f, sel, v)] := ⟨_, rfl⟩
  obtain ⟨body, ht⟩ : ∃ body, s.norIdle.norEnd (.features r [(fn, f, sel, v)]) true
      = ((s.norIdle.modNor fun n => n.append s.svc.revision tagFeatures body).modSvc fun c => { c with featSaved := values }).complete r .success := by
    rw [hv]
    exact ⟨_, rfl⟩
  have hq2 := Nor.append_queue { s.svc.nor with queue := [], busy := false } s.svc.revision tagFeatures body
  have hend := State.complete_ends (s := (s.norIdle.modNor fun n => n.append s.svc.revision tagFeatures body).modSvc fun c =>
    { c with featSaved := values }) hh .success 0 0
  refine ⟨_, exec_norOpDone hb hq rfl ht (by rw [State.complete_svc]; exact hq2.1), ?_⟩
  rw [State.complete_svc]
  refine ⟨hq2, hend, ?_, fun y hy hne => ?_⟩
  · show _ ∈ values
    rw [hv]
    exact List.mem_append_right _ (List.mem_singleton_self _)
  · show y ∈ values
    rw [hv]
    refine List.mem_append_left _ (List.mem_filter.mpr ⟨hy, ?_⟩)
    simpa using fun h1 h2 h3 => hne (by rw [h1, h2, h3])

end

/-- A settings write that may start asks for its turn, and no other does. -/
theorem settingsWrites_spec (s : State) :
    (s.settingsMayWrite = true → ∀ x ∈ [(Instr.settingsSave, NorJob.save), (.settingsClear, .clear)],
      ∃ t, exec x.1 s = .next t ∧ t.svc.settingsBusy = true ∧ t.svc.nor.queue = s.svc.nor.queue ++ [x.2] ∧ OnlySvc s t)
    ∧ (s.settingsMayWrite = false → exec .settingsSave s = .next s ∧ exec .settingsClear s = .next s) := by
  refine ⟨fun h x hx => ?_, fun h => ⟨if_neg (ne_true_of_eq_false h), if_neg (ne_true_of_eq_false h)⟩⟩
  simp only [List.mem_cons, List.not_mem_nil, or_false] at hx
  have hspec (j : NorJob) := s.settingsStart_spec j
  rcases hx with rfl | rfl
  · exact ⟨_, if_pos h, (hspec .save).2.2.2, (hspec .save).2.1, (hspec .save).1⟩
  · exact ⟨_, if_pos h, (hspec .clear).2.2.2, (hspec .clear).2.1, (hspec .clear).1⟩

/-- Settles O55: boot, downloads and commits, self-tests, and the operations of the boot NOR. -/
theorem firmwareAndSettings : Obligations.FirmwareAndSettings := by
  unfold Obligations.FirmwareAndSettings
  refine ⟨firmwareBoot_spec, norCtrlWrite_spec, fun s t c h hrun => ?_, selfTestComplete_spec, fun s j hon hb hq hheld => ?_, settingsWrites_spec⟩
  · intro len off code bs
    obtain ⟨d1, d2, d3⟩ := firmwareImageDownload_spec h
    exact ⟨d1, d2, d3, fun hz hs => firmwareCommit_spec h hz hs, deviceSelfTest_spec h⟩
  · intro done
    refine ⟨?_, ?_, ?_, ?_, ?_, ?_⟩
    · rintro r slot action len im rfl hs ha hrun hh - haers seq leaves
      have hend := norOpDone_commit hb hq hs hrun hh haers
      obtain ⟨t, h1, h2, h3, h4, h5, h6⟩ := hend true
      obtain ⟨u, k1, k2, k3, k4, k5, k6⟩ := hend false
      exact ⟨⟨t, h1, h2, h3, h4, h5, h6⟩, u, k1, k2, k3, k4, k5, k6⟩
    · rintro r slot f rfl hs hf hh - haers
      exact norOpDone_promote hb hq hf hh haers
    · rintro r slot seq rfl hh - haers
      exact norOpDone_base hb hq hh haers
    · rintro rfl
      exact norOpDone_save hb hq
    · rintro rfl
      exact norOpDone_clear hb hq
    · rintro r fn f sel v rfl hh
      exact norOpDone_features hb hq hh

end Sys2Proof.Machine
end

section
/-!
PROOFS. Chapter 18: headers of peer frames, and the peer ports (O50).
-/

namespace Sys2Proof.Machine

open Sys2Proof.Safety

/-! ### The fields of a header -/

/-- The place of a header field: its first bit, and the bit past its last. -/
def fieldLo (e : Nat × Nat × Nat × Nat) : Nat := 8 * e.1 + e.2.2.1
def fieldEnd (e : Nat × Nat × Nat × Nat) : Nat := 8 * e.1 + e.2.1 + 1
/-- Do the fields of a list lie from a bit on, one after the other? -/
def Ascending : Nat → List (Nat × Nat × Nat × Nat) → Prop
  | b, [] => b ≤ 256
  | b, e :: l => b ≤ fieldLo e ∧ e.2.2.1 ≤ e.2.1 ∧ Ascending (fieldEnd e) l
/-- One field added to a header. -/
def addField (h : Nat) (e : Nat × Nat × Nat × Nat) : Nat := h + e.2.2.2 % 2 ^ (e.2.1 + 1 - e.2.2.1) * 2 ^ (8 * e.1 + e.2.2.1)
theorem headerOf_eq (l : List (Nat × Nat × Nat × Nat)) : headerOf l = BitVec.ofNat 256 (l.foldl addField 0) := rfl
theorem addField_lt {h b : Nat} {e : Nat × Nat × Nat × Nat} (hh : h < 2 ^ b) (hb : b ≤ fieldLo e) (hle : e.2.2.1 ≤ e.2.1) :
    addField h e < 2 ^ fieldEnd e := by
  have h1 : h < 2 ^ fieldLo e := lt_of_lt_of_le hh (Nat.pow_le_pow_right (by omega) hb)
  have h2 : e.2.2.2 % 2 ^ (e.2.1 + 1 - e.2.2.1) < 2 ^ (e.2.1 + 1 - e.2.2.1) := Nat.mod_lt _ (Nat.two_pow_pos _)
  have h3 : 2 ^ fieldEnd e = 2 ^ (e.2.1 + 1 - e.2.2.1) * 2 ^ fieldLo e := by
    rw [← Nat.pow_add]
    congr 1
    unfold fieldEnd fieldLo
    omega
  rw [h3]
  calc addField h e < 2 ^ fieldLo e + e.2.2.2 % 2 ^ (e.2.1 + 1 - e.2.2.1) * 2 ^ fieldLo e := Nat.add_lt_add_right h1 _
    _ = (e.2.2.2 % 2 ^ (e.2.1 + 1 - e.2.2.1) + 1) * 2 ^ fieldLo e := by rw [Nat.add_mul, Nat.one_mul, Nat.add_comm]
    _ ≤ 2 ^ (e.2.1 + 1 - e.2.2.1) * 2 ^ fieldLo e := Nat.mul_le_mul_right _ h2
/-- Fields further up leave the lower bits. -/
theorem foldl_addField_mod {b : Nat} (l : List (Nat × Nat × Nat × Nat)) (h c : Nat) (hl : Ascending c l) (hc : b ≤ c) :
    l.foldl addField h % 2 ^ b = h % 2 ^ b := by
  induction l generalizing h c with
  | nil => rfl
  | cons e l ih =>
    obtain ⟨h1, h2, h3⟩ := hl
    have hend : c ≤ fieldEnd e := by unfold fieldEnd; unfold fieldLo at h1; omega
    rw [List.foldl_cons, ih (addField h e) (fieldEnd e) h3 (hc.trans hend)]
    have hdvd : 2 ^ b ∣ e.2.2.2 % 2 ^ (e.2.1 + 1 - e.2.2.1) * 2 ^ fieldLo e :=
      Dvd.dvd.mul_left (Nat.pow_dvd_pow 2 (hc.trans h1)) _
    obtain ⟨k, hk⟩ := hdvd
    show (h + e.2.2.2 % _ * 2 ^ fieldLo e) % 2 ^ b = _
    rw [hk, Nat.add_mul_mod_self_left]
theorem foldl_addField_lt (l : List (Nat × Nat × Nat × Nat)) (h b : Nat) (hl : Ascending b l) (hh : h < 2 ^ b) :
    l.foldl addField h < 2 ^ 256 := by
  induction l generalizing h b with
  | nil => exact lt_of_lt_of_le hh (Nat.pow_le_pow_right (by omega) hl)
  | cons e l ih =>
    obtain ⟨h1, h2, h3⟩ := hl
    exact ih _ _ h3 (addField_lt hh h1 h2)
/-- A field reads back what was put there. -/
theorem headerOf_field (l m : List (Nat × Nat × Nat × Nat)) (e : Nat × Nat × Nat × Nat) (h : Ascending 0 (l ++ e :: m)) :
    bits (headerOf (l ++ e :: m)).toNat (8 * e.1 + e.2.1) (8 * e.1 + e.2.2.1) = e.2.2.2 % 2 ^ (e.2.1 + 1 - e.2.2.1) := by
  have hlow : ∀ (l : List (Nat × Nat × Nat × Nat)) (a b : Nat), Ascending b (l ++ e :: m) → a < 2 ^ b →
      ∃ x, x < 2 ^ fieldLo e ∧ (l ++ e :: m).foldl addField a = m.foldl addField (addField x e) ∧ e.2.2.1 ≤ e.2.1
        ∧ Ascending (fieldEnd e) m := by
    intro l
    induction l with
    | nil =>
      rintro a b ⟨h1, h2, h3⟩ ha
      exact ⟨a, lt_of_lt_of_le ha (Nat.pow_le_pow_right (by omega) h1), rfl, h2, h3⟩
    | cons d l ih =>
      rintro a b ⟨h1, h2, h3⟩ ha
      exact ih _ _ h3 (addField_lt ha h1 h2)
  obtain ⟨x, hx, hfold, hle, hm⟩ := hlow l 0 0 h (by omega)
  have hmod := foldl_addField_mod m (addField x e) (fieldEnd e) hm (le_refl _)
  have hlt := foldl_addField_lt (l ++ e :: m) 0 0 h (by omega)
  have hv := addField_lt hx (le_refl _) hle
  rw [headerOf_eq, BitVec.toNat_ofNat, Nat.mod_eq_of_lt hlt, hfold]
  generalize m.foldl addField (addField x e) = v at hmod
  obtain ⟨w, hw⟩ : ∃ w, w = e.2.1 + 1 - e.2.2.1 := ⟨_, rfl⟩
  have hend : 2 ^ fieldEnd e = 2 ^ fieldLo e * 2 ^ w := by
    rw [← Nat.pow_add]
    congr 1
    unfold fieldEnd fieldLo
    omega
  have hwidth : 8 * e.1 + e.2.1 + 1 - (8 * e.1 + e.2.2.1) = w := by omega
  rw [Nat.mod_eq_of_lt hv, hend] at hmod
  unfold bits
  rw [hwidth, ← hw]
  calc v / 2 ^ fieldLo e % 2 ^ w = v % (2 ^ fieldLo e * 2 ^ w) / 2 ^ fieldLo e := (Nat.mod_mul_right_div_self ..).symm
    _ = (x + e.2.2.2 % 2 ^ w * 2 ^ fieldLo e) / 2 ^ fieldLo e := by rw [hmod, hw]; rfl
    _ = e.2.2.2 % 2 ^ w := by rw [Nat.add_mul_div_right _ _ (Nat.two_pow_pos _), Nat.div_eq_of_lt hx, Nat.zero_add]

/-! ### The ports -/

/-- What a step on one port leaves: the other ports, the flows, counters, invocations and tenants. -/
def State.KeepsPorts (s t : State) (port : Nat) : Prop := (∀ p, p ≠ port → t.port p = s.port p) ∧ t.peer.flows = s.peer.flows
  ∧ t.ctrs = s.ctrs ∧ t.invocations = s.invocations ∧ t.tenants = s.tenants
theorem State.KeepsPorts.trans {s t u : State} {port : Nat} (h : s.KeepsPorts t port) (k : t.KeepsPorts u port) : s.KeepsPorts u port := by
  obtain ⟨h1, h2, h3, h4, h5⟩ := h
  obtain ⟨k1, k2, k3, k4, k5⟩ := k
  exact ⟨fun p hp => (k1 p hp).trans (h1 p hp), k2.trans h2, k3.trans h3, k4.trans h4, k5.trans h5⟩
theorem State.port_modPort (s : State) {p : Nat} (f : Port → Port) (h : p < s.peer.ports.length) : (s.modPort p f).port p = f (s.port p) :=
  getD_modify_self _ _ _ _ h
theorem State.modPort_keepsPorts (s : State) (port : Nat) (f : Port → Port) : s.KeepsPorts (s.modPort port f) port :=
  ⟨fun _ hp => getD_modify_ne _ _ _ hp, rfl, rfl, rfl, rfl⟩
@[simp] theorem State.modPort_ports_length (s : State) (p : Nat) (f : Port → Port) :
    (s.modPort p f).peer.ports.length = s.peer.ports.length := List.length_modify ..
/-- An entry of the peer log leaves the peer fabric, the counters, invocations and tenants. -/
theorem State.peerLog_frame (s : State) (e : PeerEntry) (fault : Bool) : (s.peerLog e fault).peer = s.peer ∧ s.KeepsPorts (s.peerLog e fault) 4 := by
  have h := s.log_frame 0xC5 e.body fault 0 true
  have hp : (s.peerLog e fault).peer = s.peer := (congrArg State.peer h :)
  exact ⟨hp, fun p _ => congrArg (fun x : Peer => x.ports.getD p {}) hp, congrArg Peer.flows hp, (congrArg State.ctrs h :),
    (congrArg State.invocations h :), (congrArg State.tenants h :)⟩
theorem State.peerLog_port (s : State) (e : PeerEntry) (fault : Bool) (p : Nat) : (s.peerLog e fault).port p = s.port p :=
  congrArg (fun x : Peer => x.ports.getD p {}) (s.peerLog_frame e fault).1
theorem State.peerLog_keepsPorts (s : State) (e : PeerEntry) (fault : Bool) (port : Nat) : s.KeepsPorts (s.peerLog e fault) port :=
  ⟨fun _ _ => s.peerLog_port .., (s.peerLog_frame e fault).2.2⟩
theorem State.transmit_keepsPorts (s : State) (p : Nat) (f : PeerFrame) : s.KeepsPorts (s.transmit p f) p := s.modPort_keepsPorts p _
/-- A command on one port, of a module at work. -/
theorem exec_of_engines {s : State} (h : s.engines = true) (o : Out) : (if !s.engines then .next s else o) = o :=
  if_neg (by rw [h]; exact Bool.false_ne_true)

section
variable {s : State} {port : Nat} (he : s.engines = true) (hlen : s.peer.ports.length = 4) (hp : port < 4)
include he hlen hp

theorem pfcPauseReceived_spec (pause : Bool) (h1 : s.peer.pfcEn = true) (h2 : s.peer.mode = 0) :
    ∃ t, exec (.pfcPauseReceived port pause) s = .next t ∧ (t.port port).paused = pause ∧ s.KeepsPorts t port := by
  refine ⟨_, (exec_of_engines he _).trans (if_pos (by simp [h1, h2, hp])), ?_, s.modPort_keepsPorts port _⟩
  rw [s.port_modPort _ (by omega)]
theorem portTrainingDone_spec (h : (s.port port).state = .training) :
    (∃ t, exec (.portTrainingDone port true) s = .next t ∧ (t.port port).state = .discovery ∧ s.KeepsPorts t port)
    ∧ ∃ t, exec (.portTrainingDone port false) s = .next t ∧ (t.port port).state = .down
      ∧ (t.port port).linkDowns = satAdd32 (s.port port).linkDowns 1 ∧ s.KeepsPorts t port := by
  refine ⟨⟨_, (exec_of_engines he _).trans ((if_neg (not_not.mpr h)).trans (if_pos rfl)), ?_, s.modPort_keepsPorts port _⟩,
    _, (exec_of_engines he _).trans ((if_neg (not_not.mpr h)).trans (if_neg Bool.false_ne_true)), ?_, ?_,
    (s.modPort_keepsPorts port _).trans (State.peerLog_keepsPorts ..)⟩
  · rw [s.port_modPort _ (by omega)]
  · rw [State.peerLog_port, State.portDown, s.port_modPort _ (by omega)]
  · rw [State.peerLog_port, State.portDown, s.port_modPort _ (by omega)]
theorem portLinkLost_spec (h : (s.port port).state ∈ [PortState.discovery, .held, .up]) :
    ∃ t, exec (.portLinkLost port) s = .next t ∧ (t.port port).state = .down
      ∧ (t.port port).linkDowns = satAdd32 (s.port port).linkDowns 1 ∧ s.KeepsPorts t port := by
  have hst : ((s.port port).state == .discovery || (s.port port).state == .held || (s.port port).state == .up) = true := by
    simpa [or_assoc] using h
  refine ⟨_, (exec_of_engines he _).trans (congrArg _ (if_pos hst)), ?_, ?_, (s.modPort_keepsPorts port _).trans (State.peerLog_keepsPorts ..)⟩
  · rw [State.peerLog_port, State.portDown, s.port_modPort _ (by omega)]
  · rw [State.peerLog_port, State.portDown, s.port_modPort _ (by omega)]

theorem portRetrainTimer_spec :
    (∀ a, (s.port port).downAt = some a → s.now < a + 1000000 → exec (.portRetrainTimer port) s = .next s)
    ∧ ((∀ a, (s.port port).downAt = some a → a + 1000000 ≤ s.now) → (s.port port).state = .down → s.unusedPort port = false →
      s.peer.cageOn.getD (port / 2) false = true → s.peer.cable.getD (port / 2) false = true → s.power.railsUp = true →
      ∃ t, exec (.portRetrainTimer port) s = .next t ∧ (t.port port).state = .training ∧ s.KeepsPorts t port) := by
  refine ⟨fun a ha hn => (exec_of_engines he _).trans (if_pos ?_), fun ha h1 h2 h3 h4 h5 =>
    ⟨_, (exec_of_engines he _).trans (if_neg ?_), ?_, s.modPort_keepsPorts port _⟩⟩
  · rw [ha]
    simp [hn]
  · have hnot : ¬ port ≥ 4 := by omega
    rw [h1, h2, h3, h4, h5]
    cases hd : (s.port port).downAt with
    | none => simp [hnot]
    | some a => simp [hnot, Nat.not_lt.mpr (ha a hd)]
  · rw [s.port_modPort _ (by omega)]
theorem helloTimer_spec :
    (∀ a, (s.port port).helloAt = some a → s.now < a + 1000 → exec (.helloTimer port) s = .next s)
    ∧ (s.peer.mode ≠ 0 → (s.port port).state ∈ [PortState.discovery, .held, .up] →
        (∀ a, (s.port port).helloAt = some a → a + 1000 ≤ s.now) →
        ∃ t y, exec (.helloTimer port) s = .next t ∧ (t.port port).helloAt = some s.now
        ∧ t.peer.wire = s.peer.wire ++ [(port, y)] ∧ y.type = 3 ∧ y.dst = BitVec.allOnes 48 ∧ s.KeepsPorts t port) := by
  refine ⟨fun a ha hn => (exec_of_engines he _).trans (if_pos ?_), fun hm hst ha => ?_⟩
  · rw [ha]
    simp [hn]
  · have hst' : ((s.port port).state == .discovery || (s.port port).state == .held || (s.port port).state == .up) = true := by
      simpa [or_assoc] using hst
    have hnot : ¬ port ≥ 4 := by omega
    obtain ⟨u, hu⟩ : ∃ u, u = s.modPort port fun p => { p with helloAt := some s.now } := ⟨_, rfl⟩
    have hx : ∃ y : PeerFrame, y.dst = BitVec.allOnes 48 ∧ y.hdr = headerOf (u.commonFields 3 (u.neighbour port).1 0 0 0 0
          ++ [(12, 1, 0, port), (12, 3, 2, u.peer.mode), (13, 3, 0, u.peer.xMinus1), (13, 7, 4, u.peer.yMinus1)])
        ∧ exec (.helloTimer port) s = .next (u.transmit port y) := by
      rw [hu]
      refine ⟨_, rfl, rfl, (exec_of_engines he _).trans ((if_neg ?_).trans (if_neg hm))⟩
      cases hd : (s.port port).helloAt with
      | none => simp [hnot, hst']
      | some a => simp [hnot, hst', Nat.not_lt.mpr (ha a hd)]
    obtain ⟨y, hdst, hhdr, hx⟩ := hx
    refine ⟨_, y, hx, ?_, ?_, ?_, hdst, ?_⟩
    · show ((u.modPort port _).port port).helloAt = _
      rw [u.port_modPort _ (by rw [hu]; simp; omega), hu, s.port_modPort _ (by omega)]
    · rw [hu]
      rfl
    · show bits y.hdr.toNat _ _ = 3
      rw [hhdr]
      refine headerOf_field [] _ (0, 3, 0, 3) ?_
      simp [Ascending, fieldLo, fieldEnd]
    · rw [hu]
      exact (s.modPort_keepsPorts port _).trans (State.transmit_keepsPorts ..)

/-- The state in which a HELLO is judged: it counts, and names the neighbour. -/
def State.greeted (s : State) (port : Nat) (x : PeerFrame) : State :=
  (s.modPort port fun p => { p with rxFrames := satAdd32 p.rxFrames 1 }).modPort port fun p => { p with
    nbrModule := x.srcModule, nbrPort := x.field 12 1 0, nbrValid := true }
omit hlen in
theorem exec_helloReceived {x : PeerFrame} (hst : (s.port port).state ∈ [PortState.discovery, .held, .up]) (h1 : x.type = 3) (h2 : x.fcsOk = true)
    (h3 : x.etype = s.peer.etype) (h4 : x.field 0 7 4 = 1) :
    (s.helloCause port x = none → ∃ e : PeerEntry, exec (.helloReceived port x) s = .next (
      let u := (s.greeted port x).modPort port fun p => { p with state := .up, heldCause := 0 }
      if (s.port port).state = .up then u else u.peerLog e))
    ∧ ∀ c, s.helloCause port x = some c → ∃ e : PeerEntry, exec (.helloReceived port x) s = .next (
      let u := (s.greeted port x).modPort port fun p => { p with state := .held, heldCause := c }
      if (s.port port).state = .held then u else u.peerLog e) := by
  have hst' : ((s.port port).state == .discovery || (s.port port).state == .held || (s.port port).state == .up) = true := by
    simpa [or_assoc] using hst
  have hnot : ¬ (port ≥ 4 || !((s.port port).state == .discovery || (s.port port).state == .held || (s.port port).state == .up)
      || x.type ≠ 3) = true := by
    rw [hst', h1]
    simpa using hp
  have hgood : ¬ (!x.fcsOk || x.etype ≠ s.peer.etype || x.field 0 7 4 ≠ 1) = true := by simp [h2, h3, h4]
  have hx : exec (.helloReceived port x) s = execHelloReceived port x s := rfl
  unfold execHelloReceived at hx
  dsimp only at hx
  rw [exec_of_engines he, if_neg hnot] at hx
  have hx := hx.trans (if_neg hgood)
  have hsame : (s.greeted port x).helloCause port x = s.helloCause port x := rfl
  unfold State.greeted at hsame
  rw [hsame] at hx
  refine ⟨fun hc => ?_, fun c hc => ?_⟩
  · rw [hc] at hx
    exact ⟨_, hx.trans (apply_ite (fun t : State => (.next t : Out)) _ _ _).symm⟩
  · rw [hc] at hx
    exact ⟨_, hx.trans (apply_ite (fun t : State => (.next t : Out)) _ _ _).symm⟩

omit he in
theorem State.greeted_port (x : PeerFrame) (f : Port → Port) : ((s.greeted port x).modPort port f).port port = f { s.port port with
    rxFrames := satAdd32 (s.port port).rxFrames 1, nbrModule := x.srcModule, nbrPort := x.field 12 1 0, nbrValid := true } := by
  rw [State.port_modPort _ _ (by unfold State.greeted; simp; omega), State.greeted, State.port_modPort _ _ (by simp; omega),
    State.port_modPort _ _ (by omega)]
/-- A HELLO tells who the neighbour is, and confirms the port or holds it. -/
theorem helloReceived_spec {x : PeerFrame} (hst : (s.port port).state ∈ [PortState.discovery, .held, .up]) (h1 : x.type = 3) (h2 : x.fcsOk = true)
    (h3 : x.etype = s.peer.etype) (h4 : x.field 0 7 4 = 1) :
    ∃ t, exec (.helloReceived port x) s = .next t ∧ (t.port port).nbrModule = x.srcModule ∧ (t.port port).nbrValid = true
      ∧ s.KeepsPorts t port ∧ (∀ c, s.helloCause port x = some c → (t.port port).state = .held ∧ (t.port port).heldCause = c)
      ∧ (s.helloCause port x = none → (t.port port).state = .up ∧ (t.port port).heldCause = 0) := by
  obtain ⟨hn, hs⟩ := exec_helloReceived he hp hst h1 h2 h3 h4
  have hkeep (f : Port → Port) : s.KeepsPorts ((s.greeted port x).modPort port f) port :=
    ((s.modPort_keepsPorts port _).trans (State.modPort_keepsPorts ..)).trans (State.modPort_keepsPorts ..)
  have hlogged {u : State} (hu : s.KeepsPorts u port) (b : Prop) [Decidable b] (e : PeerEntry) :
      (if b then u else u.peerLog e).port port = u.port port ∧ s.KeepsPorts (if b then u else u.peerLog e) port := by
    split
    · exact ⟨rfl, hu⟩
    · exact ⟨State.peerLog_port .., hu.trans (State.peerLog_keepsPorts ..)⟩
  cases hc : s.helloCause port x with
  | none =>
    obtain ⟨e, hx⟩ := hn hc
    obtain ⟨hp1, hp2⟩ := hlogged (hkeep fun p => { p with state := .up, heldCause := 0 }) ((s.port port).state = .up) e
    refine ⟨_, hx, ?_, ?_, hp2, nofun, fun _ => ?_⟩
    all_goals dsimp only; rw [hp1, State.greeted_port hlen hp]
    exact ⟨rfl, rfl⟩
  | some c =>
    obtain ⟨e, hx⟩ := hs c hc
    obtain ⟨hp1, hp2⟩ := hlogged (hkeep fun p => { p with state := .held, heldCause := c }) ((s.port port).state = .held) e
    refine ⟨_, hx, ?_, ?_, hp2, fun d hd => ?_, nofun⟩
    all_goals dsimp only; rw [hp1, State.greeted_port hlen hp]
    exact ⟨rfl, Option.some.inj hd⟩

end
/-- A HELLO of another system is held for that. -/
theorem State.helloCause_system {s : State} {port : Nat} {x : PeerFrame} (h : x.field 4 31 0 ≠ s.pers.active.systemId) :
    s.helloCause port x = some 2 := if_pos h
/-- On a ring the expected neighbour's HELLO confirms the port. -/
theorem State.helloCause_ring {s : State} {port : Nat} {x : PeerFrame} (hm : s.peer.mode = 1) (hsys : x.field 4 31 0 = s.pers.active.systemId)
    (h1 : x.field 12 3 2 = 1)
    (h2 : x.srcModule = (s.moduleIndex + (if port % 2 = 0 then 1 else s.pers.active.systemSize - 1)) % s.pers.active.systemSize)
    (h0 : 0 < s.pers.active.systemSize) (h3 : x.field 12 1 0 = (if port % 2 = 0 then port + 1 else port - 1)) :
    s.helloCause port x = none := by
  have hn : s.neighbour port = ((s.moduleIndex + (if port % 2 = 0 then 1 else s.pers.active.systemSize - 1)) % s.pers.active.systemSize,
      if port % 2 = 0 then port + 1 else port - 1) := by
    have hsides : s.sides = (s.pers.active.systemSize, 1) := if_pos hm
    unfold State.neighbour
    rw [hsides]
    dsimp only
    rw [if_pos hm]
    by_cases hp : port % 2 = 0
    · simp [hp]
    · simp only [hp, if_false]
      rw [Nat.add_sub_assoc h0]
  unfold State.helloCause
  dsimp only
  rw [if_neg (not_not.mpr hsys), if_neg (by simp [h1, hm]), if_neg (by simp [hm, hn, h2, h3])]

/-- PEER_RTO_WRITE: a budget below the floor is taken, and any other refused. -/
theorem peerRtoWrite_spec (s : State) (value : Dword) (hon : s.power.stage = .on) (hp : s.power.perst = false) :
    let rto := if 10 ≤ bits value.toNat 13 0 ∧ bits value.toNat 13 0 ≤ 10000 then bits value.toNat 13 0 else s.peer.rtoUs
    let limit := if 1 ≤ bits value.toNat 21 16 then bits value.toNat 21 16 else s.peer.retryLimit
    (rto * (limit + 1) < 1000 * s.pcie.floorMs →
      exec (.peerRtoWrite value) s = .next { s with peer := { s.peer with rtoUs := rto, retryLimit := limit } })
    ∧ (1000 * s.pcie.floorMs ≤ rto * (limit + 1) → ∃ t, exec (.peerRtoWrite value) s = .next t ∧ t.peer = s.peer ∧ t.ctrs = s.ctrs) := by
  intro rto limit
  have hrto : (if (10 ≤ bits value.toNat 13 0 && bits value.toNat 13 0 ≤ 10000) = true then bits value.toNat 13 0 else s.peer.rtoUs) = rto :=
    if_congr (by simp) rfl rfl
  have hx : exec (.peerRtoWrite value) s = if rto * (limit + 1) ≥ 1000 * s.pcie.floorMs then .next (s.budgetRefused 0x05000C value.toNat)
      else .next (s.modPeer fun p => { p with rtoUs := rto, retryLimit := limit }) := by
    refine (s.whenOpen_of hon hp _).trans ?_
    rw [hrto]
  refine ⟨fun h => hx.trans (if_neg (Nat.not_le.mpr h)), fun h => ⟨_, hx.trans (if_pos h), ?_, ?_⟩⟩
  · exact (congrArg State.peer (s.log_frame 0xC0 _ _ 0 true) :)
  · exact (congrArg State.ctrs (s.log_frame 0xC0 _ _ 0 true) :)

/-- Settles O50: the ports, one command after the other. -/
theorem peerPorts : Obligations.PeerPorts := by
  unfold Obligations.PeerPorts
  intro s port he hlen hp st others
  refine ⟨fun pause h1 h2 => pfcPauseReceived_spec he hlen hp pause h1 h2, (helloTimer_spec he hlen hp).1, (helloTimer_spec he hlen hp).2,
    fun x hst h1 h2 h3 h4 => ?_, portTrainingDone_spec he hlen hp, (portRetrainTimer_spec he hlen hp).1, (portRetrainTimer_spec he hlen hp).2,
    portLinkLost_spec he hlen hp, peerRtoWrite_spec s⟩
  obtain ⟨t, hx, hm, hv, hk, hc, hu⟩ := helloReceived_spec he hlen hp hst h1 h2 h3 h4
  exact ⟨t, hx, hm, hv, hk, hc, hu, fun hne => (hc 2 (State.helloCause_system hne)).2,
    fun hm1 hsys hf hsrc h0 hfield => (hu (State.helloCause_ring hm1 hsys hf hsrc h0 hfield)).1⟩

end Sys2Proof.Machine
end

section
/-!
PROOFS. Chapter 17: the protection of DRAM and SRAM (O54).
-/

namespace Sys2Proof.Machine

open Sys2Proof.Safety

/-! ### One stack changes, and entries are written -/

/-- The state differs from `s` by stack `k`, which is now `x`, and by entries of the logs with their events. -/
structure State.Stacked (s : State) (k : Nat) (x : MemStack) (t : State) : Prop where
  frame : { t with logs := s.logs, svc := s.svc, pcie := s.pcie, host := s.host, prot := s.prot } = s
  prot : t.prot = { s.prot with dramStacks := s.prot.dramStacks.set k x }

theorem State.stack_eq (s : State) (k : Nat) : s.prot.dramStacks.getD k {} = s.stack k := rfl

section
variable {s t : State} {k : Nat} {x : MemStack} (h : s.Stacked k x t)
include h

theorem State.Stacked.tenants : t.tenants = s.tenants := (congrArg State.tenants h.frame :)
theorem State.Stacked.media : t.media = s.media := (congrArg State.media h.frame :)
theorem State.Stacked.now : t.now = s.now := (congrArg State.now h.frame :)
theorem State.Stacked.stack (hk : k < s.prot.dramStacks.length) : t.stack k = x := by
  rw [State.stack, h.prot, List.getD_eq_getElem?_getD, List.getElem?_set_self hk]
  rfl
theorem State.Stacked.other {j : Nat} (hj : j ≠ k) : t.stack j = s.stack j := by
  rw [State.stack, h.prot, List.getD_eq_getElem?_getD, List.getElem?_set_ne hj.symm, ← List.getD_eq_getElem?_getD]
  rfl
theorem State.Stacked.sram : t.prot.sram = s.prot.sram := by rw [h.prot]
theorem State.Stacked.memLog (e : MemEntry) : s.Stacked k x (t.memLog e) := by
  have hl := t.log_frame 0xC1 e.body (e.kind == 0x02 || e.kind == 0x0A) 0 true
  refine ⟨?_, (congrArg State.prot hl :).trans h.prot⟩
  rw [← h.frame]
  conv_rhs => rw [← hl]
  rfl
theorem State.Stacked.newFault : s.Stacked k x t.newFault.2 := ⟨h.frame, h.prot⟩
theorem State.Stacked.modStack (hk : k < s.prot.dramStacks.length) (f : MemStack → MemStack) : s.Stacked k (f x) (t.modStack k f) := by
  refine ⟨h.frame, ?_⟩
  show { t.prot with dramStacks := t.prot.dramStacks.modify k f } = _
  rw [h.prot]
  dsimp only
  congr 1
  rw [List.modify_eq_set_getElem?, List.getElem?_set_self hk]
  exact List.set_set _
end

theorem State.stacked_self {s : State} {k : Nat} (hk : k < s.prot.dramStacks.length) : s.Stacked k (s.stack k) s := by
  refine ⟨rfl, ?_⟩
  rw [State.stack, List.getD_eq_getElem?_getD, List.getElem?_eq_getElem hk]
  exact (congrArg (fun l => { s.prot with dramStacks := l }) (List.set_getElem_self hk).symm : )

/-! ### What is logged, and the warning bits -/

theorem State.memLog_nextSeq (s : State) (e : MemEntry) : (s.memLog e).logs.c1.nextSeq = s.logs.c1.nextSeq + 1 :=
  s.log_nextSeq (page := 0xC1) (by simp) _ _ _ _
theorem State.complete_criticalWarning (s : State) (r : CmdRef) (st : Status) (dw0 dw1 : Nat) :
    (s.complete r st dw0 dw1).pcie.criticalWarning = s.pcie.criticalWarning := by
  have hi : ∀ (t : State) (fn v : Nat), (t.interrupt fn v).pcie.criticalWarning = t.pcie.criticalWarning := by
    intro t fn v
    unfold State.interrupt
    split
    · rfl
    · split <;> rfl
  have hp : ∀ (t : State) (c : Completion), (t.post c).pcie.criticalWarning = t.pcie.criticalWarning := by
    intro t c
    unfold State.post
    extract_lets k
    split
    · rfl
    split
    · rfl
    split
    · rfl
    · exact ite_keep (fun t : State => t.pcie.criticalWarning) (hi ..) rfl
  unfold State.complete
  exact ite_keep (fun t : State => t.pcie.criticalWarning) (hp ..) rfl
theorem State.raise_criticalWarning (s : State) (fn : Nat) (e : Event) :
    (s.raise fn e).pcie.criticalWarning = s.pcie.criticalWarning := by
  unfold State.raise
  extract_lets k s1
  split
  · rfl
  split
  · rfl
  · exact State.complete_criticalWarning ..
theorem State.log_criticalWarning (s : State) (page : Nat) (body : List Byte) (fault : Bool) (owner : Nat) (event : Bool) :
    (s.log page body fault owner event).pcie.criticalWarning = s.pcie.criticalWarning := by
  unfold State.log
  extract_lets p s1 s2
  have h2 : s2.pcie.criticalWarning = s.pcie.criticalWarning :=
    ite_keep (fun t : State => t.pcie.criticalWarning) (State.raise_criticalWarning ..) rfl
  exact ite_keep (fun t : State => t.pcie.criticalWarning) ((State.raise_criticalWarning ..).trans h2) h2
theorem State.memLog_criticalWarning (s : State) (e : MemEntry) : (s.memLog e).pcie.criticalWarning = s.pcie.criticalWarning :=
  State.log_criticalWarning ..
theorem State.pattern_criticalWarning (s : State) (k kind key b : Nat) (die : Option Nat) (pages : List Nat) :
    (s.pattern k kind key b die pages).pcie.criticalWarning = s.pcie.criticalWarning :=
  ite_keep (fun t : State => t.pcie.criticalWarning) rfl (State.memLog_criticalWarning _ _)
theorem State.patterns_criticalWarning (s : State) (k b : Nat) (die : Option Nat) :
    (s.patterns k b die).pcie.criticalWarning = s.pcie.criticalWarning := by
  unfold State.patterns
  split
  · rfl
  · extract_lets x here bank row key s1
    have h1 : s1.pcie.criticalWarning = s.pcie.criticalWarning :=
      ite_keep (fun t : State => t.pcie.criticalWarning) (State.pattern_criticalWarning ..) rfl
    exact ite_keep (fun t : State => t.pcie.criticalWarning) ((State.pattern_criticalWarning ..).trans h1) h1
theorem State.warn_bit (s : State) {n : Nat} (hn : n < 8) (info : Nat) : (s.warn n info).pcie.criticalWarning.getLsbD n = true := by
  have hs : ∀ (t : State) (fn i m : Nat), (t.raiseSmart fn i m).pcie.criticalWarning = t.pcie.criticalWarning := fun t fn i m =>
    ite_keep (fun t : State => t.pcie.criticalWarning) (State.raise_criticalWarning ..) rfl
  unfold State.warn
  split
  · assumption
  · rw [hs]
    show (s.pcie.criticalWarning ||| BitVec.ofNat 8 (2 ^ n)).getLsbD n = true
    rw [BitVec.getLsbD_or, BitVec.getLsbD_ofNat, Nat.testBit_two_pow_self]
    simp only [hn, decide_true, Bool.and_true, Bool.or_true]
theorem State.Stacked.warn {s t : State} {k : Nat} {x : MemStack} (h : s.Stacked k x t) (n info : Nat) : s.Stacked k x (t.warn n info) := by
  have hf := (t.warn_tells n info).frame
  have hp : (t.warn n info).prot = t.prot := (congrArg State.prot hf :)
  refine ⟨?_, hp.trans h.prot⟩
  rw [← h.frame]
  conv_rhs => rw [← hf]

theorem not_any_of {m : List (Nat × Nat × Option Nat)} {b : Nat} (h : ∀ r ∈ m, r.2.1 ≠ b) : ¬(m.any fun e => e.2.1 == b) = true := by
  intro hc
  obtain ⟨r, hr, he⟩ := List.any_eq_true.mp hc
  exact h r hr (beq_iff_eq.mp he)

/-! ### Patterns, remap entries, and dies that fail -/

section
variable {s t : State} {k : Nat} {x : MemStack} (hk : k < s.prot.dramStacks.length) (h : s.Stacked k x t)
include hk h

theorem State.Stacked.pattern (kind key b : Nat) (die : Option Nat) (pages : List Nat) :
    ∃ r, s.Stacked k { x with reported := r } (t.pattern k kind key b die pages) := by
  unfold State.pattern
  split
  · exact ⟨x.reported, h⟩
  · exact ⟨_, (h.modStack hk fun y => { y with reported := y.reported ++ pages.map fun p => (kind, key, p) }).memLog _⟩
theorem State.Stacked.patterns (b : Nat) (die : Option Nat) : ∃ r, s.Stacked k { x with reported := r } (t.patterns k b die) := by
  unfold State.patterns
  split
  · exact ⟨x.reported, h⟩
  next d =>
    extract_lets y here bank row key s1
    obtain ⟨r, h1⟩ : ∃ r, s.Stacked k { x with reported := r } s1 := by
      by_cases hr : row.length ≥ 4
      · obtain ⟨r, h1⟩ := h.pattern hk 0x06 (key * 32768 + blockRow b) b (some d) [b / pageBlocks]
        exact ⟨r, by rw [show s1 = _ from if_pos hr]; exact h1⟩
      · exact ⟨x.reported, by rw [show s1 = _ from if_neg hr]; exact h⟩
    split
    · obtain ⟨r, h2⟩ := h1.pattern hk 0x07 key b (some d) (((bank.map (· / pageBlocks)).eraseDups).take 8)
      exact ⟨r, h2⟩
    · exact ⟨r, h1⟩
theorem State.Stacked.remapBlock (b : Nat) (die : Option Nat) (n : Nat) :
    ∃ m r, s.Stacked k { x with remap := m, reported := r } (t.remapBlock k b die n) := by
  unfold State.remapBlock
  extract_lets y
  split
  · exact ⟨x.remap, x.reported, h⟩
  split
  next e _ => exact ⟨x.remap ++ [(e, b, die)], x.reported, (h.modStack hk fun y => { y with remap := y.remap ++ [(e, b, die)] }).memLog _⟩
  · obtain ⟨r, h1⟩ := h.pattern hk 0x04 (b / pageBlocks) b die [b / pageBlocks]
    exact ⟨x.remap, r, h1⟩
/-- The lowest free entry of the remap table takes the block. -/
theorem State.Stacked.remapBlock_of_free {b : Nat} (hb : ∀ r ∈ x.remap, r.2.1 ≠ b) {i : Nat} (hi : i < 32)
    (hfree : ∀ r ∈ x.remap, r.1 ≠ i) (hlow : ∀ m, m < i → ∃ r ∈ x.remap, r.1 = m) (die : Option Nat) (n : Nat) :
    s.Stacked k { x with remap := x.remap ++ [(i, b, die)] } (t.remapBlock k b die n)
      ∧ (t.remapBlock k b die n).logs.c1.nextSeq = t.logs.c1.nextSeq + 1 := by
  have hx : t.stack k = x := h.stack hk
  have hfind : (List.range 32).find? (fun e => !(x.remap.any fun r => r.1 == e)) = some i := by
    rw [List.find?_range_eq_some]
    refine ⟨by simpa using hfree, List.mem_range.mpr hi, fun j hj => ?_⟩
    simpa using hlow j hj
  unfold State.remapBlock
  rw [hx]
  dsimp only
  rw [if_neg (not_any_of hb), hfind]
  exact ⟨(h.modStack hk fun y => { y with remap := y.remap ++ [(i, b, die)] }).memLog _, State.memLog_nextSeq _ _⟩

end

/-! ### The rule of R531 -/

/-- The hard errors of a die within the last second. -/
def MemStack.recent (x : MemStack) (d now : Nat) : List HardError :=
  x.errors.filter fun e => e.hard && e.die == some d && decide (now ≤ e.time + 1000000)
/-- The number of banks they lie in. -/
def MemStack.banks (x : MemStack) (d now : Nat) : Nat := ((x.recent d now).map fun e => blockBank e.block).eraseDups.length

theorem length_eraseDups_le (l : List Nat) : l.eraseDups.length ≤ l.length := by
  induction h : l.length using Nat.strong_induction_on generalizing l with
  | _ n ih =>
    cases l with
    | nil => exact Nat.zero_le _
    | cons a l =>
      have hle := List.length_filter_le (fun b => !b == a) l
      rw [List.length_cons] at h
      have := ih _ (by omega) (l.filter fun b => !b == a) rfl
      rw [List.eraseDups_cons, List.length_cons]
      omega
theorem MemStack.banks_le (x : MemStack) (d now : Nat) : x.banks d now ≤ x.errors.length := by
  have h2 := List.length_filter_le (fun e : HardError => e.hard && e.die == some d && decide (now ≤ e.time + 1000000)) x.errors
  exact (length_eraseDups_le _).trans (by simpa [MemStack.recent] using h2)
/-- Three hard errors of a die in three banks. -/
theorem MemStack.three_le_banks {x : MemStack} {d now : Nat} {y z w : HardError} (hy : y ∈ x.recent d now) (hz : z ∈ x.recent d now)
    (hw : w ∈ x.recent d now) (hyz : blockBank y.block ≠ blockBank z.block) (hyw : blockBank y.block ≠ blockBank w.block)
    (hzw : blockBank z.block ≠ blockBank w.block) : 3 ≤ x.banks d now := by
  have hm : ∀ {e : HardError}, e ∈ x.recent d now → blockBank e.block ∈ ((x.recent d now).map fun e => blockBank e.block).eraseDups :=
    fun he => List.mem_eraseDups.mpr (List.mem_map_of_mem he)
  have hn : [blockBank y.block, blockBank z.block, blockBank w.block].Nodup := by simp [hyz, hyw, hzw]
  refine (List.subperm_of_subset hn ?_).length_le
  intro e he
  simp only [List.mem_cons, List.not_mem_nil, or_false] at he
  obtain rfl | rfl | rfl := he
  · exact hm hy
  · exact hm hz
  · exact hm hw
theorem MemStack.mem_recent {x : MemStack} {d now : Nat} {y : HardError} :
    y ∈ x.recent d now ↔ y ∈ x.errors ∧ y.hard = true ∧ y.die = some d ∧ now ≤ y.time + 1000000 := by
  simp [MemStack.recent, and_assoc]

theorem State.judgeDie_of_few {t : State} {k b : Nat} {die : Option Nat} (h : ∀ d, die = some d → (t.stack k).banks d t.now < 3) :
    t.judgeDie k b die = t := by
  cases die with
  | none => rfl
  | some d => exact if_pos (h d rfl)

section
variable {s t : State} {k : Nat} {x : MemStack} (hk : k < s.prot.dramStacks.length) (h : s.Stacked k x t)
include hk h

/-- The first die with three hard banks is marked. -/
theorem State.Stacked.judgeDie_first {b d : Nat} (hd : 3 ≤ x.banks d s.now) (hf : x.failedDie = none) :
    s.Stacked k { x with failedDie := some d, remap := x.remap.filter fun e => e.2.2 != some d } (t.judgeDie k b (some d))
      ∧ (t.judgeDie k b (some d)).pcie.criticalWarning.getLsbD 2 = true := by
  have hx : t.stack k = x := h.stack hk
  have hb : ¬(t.stack k).banks d t.now < 3 := by
    rw [hx, h.now]
    omega
  unfold State.judgeDie
  dsimp only
  split
  · next hc => exact absurd hc hb
  rw [hx, hf]
  exact ⟨((h.modStack hk fun y => { y with failedDie := some d, remap := y.remap.filter fun e => e.2.2 != some d }).memLog _).warn 2 0,
    State.warn_bit _ (by decide) _⟩
/-- A second one is reported only. -/
theorem State.Stacked.judgeDie_second {b d f : Nat} (hd : 3 ≤ x.banks d s.now) (hf : x.failedDie = some f) (hne : f ≠ d) :
    s.Stacked k { x with secondDie := true } (t.judgeDie k b (some d)) := by
  have hx : t.stack k = x := h.stack hk
  have hb : ¬(t.stack k).banks d t.now < 3 := by
    rw [hx, h.now]
    omega
  unfold State.judgeDie
  dsimp only
  split
  · next hc => exact absurd hc hb
  rw [hx]
  split
  · next hn => rw [hf] at hn; cases hn
  next f' hn =>
  obtain rfl : f = f' := Option.some.inj (hf.symm.trans hn)
  split
  · next hc =>
    have hs : x.secondDie = true := by simpa [hne] using hc
    rw [← hs]
    exact h
  · exact (h.modStack hk fun y => { y with secondDie := true }).memLog _

end

/-! ### A block whose check read is in error -/

theorem State.pattern_of_few {t : State} {k b : Nat} {die : Option Nat} (h : (t.stack k).errors.length ≤ 1) : t.patterns k b die = t := by
  unfold State.patterns
  split
  · rfl
  next d =>
    extract_lets y here bank row key s1
    have hbank : bank.length ≤ 1 := by
      have h1 := List.length_filter_le (fun e : HardError => e.die == some d && e.pass == y.scrubPasses) y.errors
      have h2 := length_eraseDups_le ((y.errors.filter fun e => e.die == some d && e.pass == y.scrubPasses).map (·.block))
      rw [List.length_map] at h2
      exact (List.length_filter_le _ here).trans (h2.trans (h1.trans h))
    have hrow : ¬row.length ≥ 4 := by
      have := List.length_filter_le (fun c => blockRow c == blockRow b) bank
      exact fun hc => by have := this.trans hbank; have : row.length ≤ 1 := this; omega
    have hrows : ¬(bank.map blockRow).eraseDups.length ≥ 8 := by
      have := length_eraseDups_le (bank.map blockRow)
      rw [List.length_map] at this
      omega
    rw [if_neg hrows]
    exact if_neg hrow

/-- The error that a block found hard by its check read leaves in its stack. -/
def hardErrorOf (b : Nat) (c : List Nat) (now : Nat) (x : MemStack) : HardError :=
  { block := b, die := oneDie c, time := now, pass := x.scrubPasses }
/-- The stack with a block counted as hard. -/
def MemStack.foundHard (x : MemStack) (b : Nat) (c : List Nat) (now : Nat) : MemStack :=
  { x with corrHard := satAdd32 x.corrHard 1, errors := x.errors ++ [hardErrorOf b c now x] }

section
variable {s : State} {k : Nat} (hk : k < s.prot.dramStacks.length)
include hk

theorem State.hardBlock_eq (b : Nat) (c : List Nat) (tenant tag : Nat) :
    ∃ t, s.Stacked k ((s.stack k).foundHard b c s.now) t ∧ t.logs.c1.nextSeq = s.logs.c1.nextSeq + 1
      ∧ s.hardBlock k b c tenant tag
        = ((t.remapBlock k b (oneDie c) c.length).judgeDie k b (oneDie c)).patterns k b (oneDie c) :=
  ⟨_, ((State.stacked_self hk).modStack hk fun y => { y with
      corrHard := satAdd32 y.corrHard 1
      errors := y.errors ++ [hardErrorOf b c s.now y] }).memLog _, State.memLog_nextSeq _ _, rfl⟩
/-- The first error of a stack gets a remap entry. -/
theorem State.hardBlock_first {b : Nat} {c : List Nat} {tenant tag i : Nat} (he : (s.stack k).errors = [])
    (hb : ∀ r ∈ (s.stack k).remap, r.2.1 ≠ b) (hi : i < 32) (hfree : ∀ r ∈ (s.stack k).remap, r.1 ≠ i)
    (hlow : ∀ m, m < i → ∃ r ∈ (s.stack k).remap, r.1 = m) :
    s.Stacked k { (s.stack k).foundHard b c s.now with remap := (s.stack k).remap ++ [(i, b, oneDie c)] } (s.hardBlock k b c tenant tag)
      ∧ (s.hardBlock k b c tenant tag).logs.c1.nextSeq = s.logs.c1.nextSeq + 2 := by
  obtain ⟨t, ht, hseq, heq⟩ := State.hardBlock_eq hk b c tenant tag
  obtain ⟨h1, h2⟩ := ht.remapBlock_of_free hk hb hi hfree hlow (oneDie c) c.length
  have hlen : ((t.remapBlock k b (oneDie c) c.length).stack k).errors.length ≤ 1 := by
    rw [h1.stack hk]
    simp [MemStack.foundHard, he]
  rw [heq, State.judgeDie_of_few fun d _ => ((MemStack.banks_le _ d _).trans hlen).trans_lt (by decide), State.pattern_of_few hlen]
  exact ⟨h1, by rw [h2, hseq]⟩
omit hk in
/-- Two recent errors of the same die, in two banks that are not the block's: with the block's they are three. -/
theorem MemStack.banks_foundHard {b d : Nat} {c : List Nat} {y z : HardError} (hd : oneDie c = some d) (hy : y ∈ (s.stack k).errors)
    (hz : z ∈ (s.stack k).errors) (hyh : y.hard = true) (hzh : z.hard = true) (hyd : y.die = some d) (hzd : z.die = some d)
    (hyt : s.now ≤ y.time + 1000000) (hzt : s.now ≤ z.time + 1000000) (hyz : blockBank y.block ≠ blockBank z.block)
    (hyb : blockBank y.block ≠ blockBank b) (hzb : blockBank z.block ≠ blockBank b) : 3 ≤ ((s.stack k).foundHard b c s.now).banks d s.now :=
  MemStack.three_le_banks (w := hardErrorOf b c s.now (s.stack k))
    (MemStack.mem_recent.mpr ⟨List.mem_append_left _ hy, hyh, hyd, hyt⟩)
    (MemStack.mem_recent.mpr ⟨List.mem_append_left _ hz, hzh, hzd, hzt⟩)
    (MemStack.mem_recent.mpr ⟨List.mem_append_right _ (List.mem_singleton_self _), rfl, hd, Nat.le_add_right _ _⟩) hyz hyb hzb
/-- The third bank of a die marks it. -/
theorem State.hardBlock_marks {b d : Nat} {c : List Nat} {tenant tag : Nat} (hd : oneDie c = some d) (hf : (s.stack k).failedDie = none)
    (hbanks : 3 ≤ ((s.stack k).foundHard b c s.now).banks d s.now) :
    ∃ m r, s.Stacked k { (s.stack k).foundHard b c s.now with failedDie := some d, remap := m, reported := r } (s.hardBlock k b c tenant tag)
      ∧ (∀ e ∈ m, e.2.2 ≠ some d) ∧ (s.hardBlock k b c tenant tag).pcie.criticalWarning.getLsbD 2 = true := by
  obtain ⟨t, ht, -, heq⟩ := State.hardBlock_eq hk b c tenant tag
  obtain ⟨m, r, h1⟩ := ht.remapBlock hk b (oneDie c) c.length
  obtain ⟨h2, hw⟩ := h1.judgeDie_first hk (b := b) (d := d) hbanks hf
  obtain ⟨r', h3⟩ := h2.patterns hk b (some d)
  rw [hd] at heq h1
  rw [hd] at h2 hw h3
  rw [heq]
  refine ⟨_, r', h3, ?_, by rw [State.patterns_criticalWarning]; exact hw⟩
  intro e he
  simpa using (List.mem_filter.mp he).2
/-- The third bank of a second die is reported. -/
theorem State.hardBlock_second {b d f : Nat} {c : List Nat} {tenant tag : Nat} (hd : oneDie c = some d) (hf : (s.stack k).failedDie = some f)
    (hne : f ≠ d) (hbanks : 3 ≤ ((s.stack k).foundHard b c s.now).banks d s.now) :
    ∃ m r, s.Stacked k { (s.stack k).foundHard b c s.now with secondDie := true, remap := m, reported := r } (s.hardBlock k b c tenant tag) := by
  obtain ⟨t, ht, -, heq⟩ := State.hardBlock_eq hk b c tenant tag
  obtain ⟨m, r, h1⟩ := ht.remapBlock hk b (oneDie c) c.length
  have h2 := h1.judgeDie_second hk (b := b) (d := d) hbanks hf hne
  obtain ⟨r', h3⟩ := h2.patterns hk b (some d)
  rw [hd] at heq h3
  rw [heq]
  exact ⟨m, r', h3⟩

end

/-! ### The scrubber's reads -/

section
variable {s : State} {k b : Nat} {e : BlockErrors} (hp : (s.stack k).poison.lookup b = none) (hr : ∀ r ∈ (s.stack k).remap, r.2.1 ≠ b)
include hp hr

theorem State.readDram_clean (h : decodeBlock (s.stack k).failedDie e.first = .clean) (tag : Nat) (f : Option Nat) (scrub : Bool) :
    s.readDram k b e tag f scrub = (s, none) := by
  unfold State.readDram
  dsimp only
  rw [hp]
  dsimp only
  rw [if_neg (not_any_of hr), h]
theorem State.readDram_corrected (h : decodeBlock (s.stack k).failedDie e.first = .corrected) (tag : Nat) (f : Option Nat) (scrub : Bool) :
    s.readDram k b e tag f scrub = (if (outside (s.stack k).failedDie e.check).isEmpty
        then s.modStack k fun x => { x with corrSoft := satAdd32 x.corrSoft 1 }
        else s.hardBlock k b (outside (s.stack k).failedDie e.check) (s.blockTenant k b) tag, none) := by
  unfold State.readDram
  dsimp only
  rw [hp]
  dsimp only
  rw [if_neg (not_any_of hr), h]
theorem State.readDram_uncorrectable (h : decodeBlock (s.stack k).failedDie e.first = .uncorrectable)
    (h2 : decodeBlock (s.stack k).failedDie e.second = .uncorrectable) (tag : Nat) (scrub : Bool) :
    s.readDram k b e tag none scrub = s.newFault.2.lostBlock k b (outside (s.stack k).failedDie e.first) s.newFault.1
      (s.blockTenant k b) tag scrub := by
  unfold State.readDram
  dsimp only
  rw [hp]
  dsimp only
  rw [if_neg (not_any_of hr), h]
  dsimp only
  rw [h2]

end

section
variable {s : State} {k : Nat} {e : BlockErrors} (hon : s.power.stage = .on) (hready : s.power.dramReady = true) (hk : k < 4)
  (hnext : (s.stack k).scrubBlock + 1 < stackBlocks) (hpage : ((s.stack k).scrubBlock + 1) % pageBlocks ≠ 0)
include hon hready hk hnext hpage

/-- A scrub step that finds no new uncorrectable block. -/
theorem exec_dramScrubStep {r : State × Option Nat} (hread : s.readDram k (s.stack k).scrubBlock e 0 ((s.stack k).scrubFound.map (·.1)) true = r)
    {l : List HardError} (hl : (r.1.stack k).errors = (s.stack k).errors ++ l) (hhard : ∀ y ∈ l, y.hard = true) :
    exec (.dramScrubStep k e) s = .next (r.1.modStack k fun y => { y with scrubBlock := (s.stack k).scrubBlock + 1 }) := by
  have hany : (((r.1.stack k).errors.drop (s.stack k).errors.length).any fun e => !e.hard) = false := by
    rw [hl, List.drop_left, List.any_eq_false]
    intro y hy
    simp [hhard y hy]
  refine (s.whenOn_of hon _).trans ((if_neg (by simp [hready, hk])).trans ?_)
  simp only [hread, hany, if_neg hpage, if_neg (show ¬(s.stack k).scrubBlock + 1 ≥ stackBlocks by omega), Bool.not_false, if_true]
/-- A scrub step that finds one, the first of its page. -/
theorem exec_dramScrubStep_found {r : State × Option Nat} (hread : s.readDram k (s.stack k).scrubBlock e 0 none true = r)
    (hnew : (s.stack k).scrubFound = none) {y : HardError} (hl : (r.1.stack k).errors = (s.stack k).errors ++ [y]) (hsoft : y.hard = false) :
    exec (.dramScrubStep k e) s = .next ((r.1.modStack k fun x => { x with
        scrubFound := some (r.2.getD r.1.logs.faultNo, (s.stack k).scrubBlock, (outside x.failedDie e.first).length, 1) }).modStack k
      fun y => { y with scrubBlock := (s.stack k).scrubBlock + 1 }) := by
  have hany : (((r.1.stack k).errors.drop (s.stack k).errors.length).any fun e => !e.hard) = true := by
    rw [hl, List.drop_left, List.any_cons, hsoft]
    rfl
  refine (s.whenOn_of hon _).trans ((if_neg (by simp [hready, hk])).trans ?_)
  simp only [hnew, Option.map_none, hread, hany, if_neg hpage, if_neg (show ¬(s.stack k).scrubBlock + 1 ≥ stackBlocks by omega), Bool.not_true,
    Bool.false_eq_true, if_false]

end

/-! ### Uncorrectable blocks -/

theorem State.blockHolder_of_tenants {s t : State} (h : t.tenants = s.tenants) (k b : Nat) : t.blockHolder k b = s.blockHolder k b := by
  rw [State.blockHolder, State.blockHolder, h]
theorem State.poolHolder_of_tenants {s t : State} (h : t.tenants = s.tenants) (k b : Nat) : t.poolHolder k b = s.poolHolder k b := by
  rw [State.poolHolder, State.poolHolder, h]

/-- The error that an uncorrectable block leaves in its stack. -/
def softErrorOf (b : Nat) (c : List Nat) (now : Nat) (x : MemStack) : HardError :=
  { block := b, die := oneDie c, time := now, pass := x.scrubPasses, hard := false }
/-- The stack with a block counted as uncorrectable. -/
def MemStack.foundLost (x : MemStack) (b : Nat) (c : List Nat) (now : Nat) : MemStack :=
  { x with uncorr := satAdd32 x.uncorr 1, errors := x.errors ++ [softErrorOf b c now x] }

/-- The scrubber counts an uncorrectable block, judges its patterns, and turns to its holder. -/
theorem State.lostBlock_scrub {s : State} {k : Nat} (hk : k < s.prot.dramStacks.length) (b : Nat) (c : List Nat) (f tenant tag : Nat) :
    ∃ t r, s.Stacked k { (s.stack k).foundLost b c s.now with reported := r } t
      ∧ (∀ h, s.blockHolder k b = none → s.poolHolder k b = some h →
          s.lostBlock k b c f tenant tag true = (t.renewUnit h.1 h.2.1 h.2.2.1, none))
      ∧ (s.blockHolder k b = none → s.poolHolder k b = none → b / 128 < tenantGranules →
          s.lostBlock k b c f tenant tag true = (t.modStack k fun x => { x with poison := (b, f) :: x.poison }, some f)) := by
  obtain ⟨r, h1⟩ := ((State.stacked_self hk).modStack hk fun y => { y with
      uncorr := satAdd32 y.uncorr 1
      errors := y.errors ++ [softErrorOf b c s.now y] }).patterns hk b (oneDie c)
  have hb := State.blockHolder_of_tenants h1.tenants k b
  have hp := State.poolHolder_of_tenants h1.tenants k b
  refine ⟨_, r, h1, fun h hn hs => ?_, fun hn hs hg => ?_⟩
  · unfold State.lostBlock
    dsimp only
    rw [if_pos rfl]
    rw [hn] at hb
    rw [hs] at hp
    dsimp only [softErrorOf] at hb hp
    rw [hb]
    dsimp only
    rw [hp]
    rfl
  · unfold State.lostBlock
    dsimp only
    rw [if_pos rfl]
    rw [hn] at hb
    rw [hs] at hp
    dsimp only [softErrorOf] at hb hp
    rw [hb]
    dsimp only
    rw [hp]
    dsimp only
    rw [if_pos hg]
    rfl

end Sys2Proof.Machine
end

section
/-!
PROOFS. Chapter 17: a unit of a cache pool that is brought up again, and what else the protection does (O54).
-/

namespace Sys2Proof.Machine

open Sys2Proof.Safety

/-! ### Units only leave their pools -/

/-- The protection of the memories stays as it is, and no unit comes into a pool. -/
structure State.Drops (s t : State) : Prop where
  prot : t.prot = s.prot
  units : ∀ tn m u, u ∈ (t.pool tn m).units → u ∈ (s.pool tn m).units

theorem State.Drops.refl (s : State) : s.Drops s := ⟨rfl, fun _ _ _ h => h⟩
theorem State.Drops.trans {s t u : State} (h : s.Drops t) (k : t.Drops u) : s.Drops u :=
  ⟨k.prot.trans h.prot, fun tn m u hu => h.units tn m u (k.units tn m u hu)⟩
theorem State.Drops.of_eq {s t : State} (hp : t.prot = s.prot) (ht : t.tenants = s.tenants) : s.Drops t := by
  refine ⟨hp, fun tn m u hu => ?_⟩
  have : t.pool tn m = s.pool tn m := by cases m <;> rw [State.pool, State.pool, State.tenant, State.tenant, ht]
  rwa [← this]
theorem State.Drops.ite {p : Prop} [Decidable p] {s a b : State} (ha : s.Drops a) (hb : s.Drops b) : s.Drops (if p then a else b) := by
  split <;> assumption
theorem State.Drops.foldl {α : Type} {f : State → α → State} (h : ∀ (s : State) a, s.Drops (f s a)) (l : List α) (s : State) : s.Drops (l.foldl f s) := by
  induction l generalizing s with
  | nil => exact .refl s
  | cons a l ih => exact (h s a).trans (ih _)

theorem State.modTenant_of_le {s : State} {tn : Nat} (h : s.tenants.length ≤ tn) (f : Tenant → Tenant) : s.modTenant tn f = s := by
  rw [State.modTenant, List.modify_eq_self h]

/-- A pool of a tenant, and the tenant with it changed: what `State.pool` and `State.modPool` do to one tenant. -/
def Tenant.pool (t : Tenant) : Option Nat → Pool
  | none => t.sharedPool
  | some m => (t.modelPools.lookup m).getD {}
def Tenant.withPool (t : Tenant) (f : Pool → Pool) : Option Nat → Tenant
  | none => { t with sharedPool := f t.sharedPool }
  | some m => { t with modelPools := (m, f ((t.modelPools.lookup m).getD {})) :: t.modelPools.filter (·.1 != m) }
theorem State.pool_eq (s : State) (tn : Nat) (m : Option Nat) : s.pool tn m = (s.tenant tn).pool m := by cases m <;> rfl
theorem State.modPool_eq (s : State) (tn : Nat) (m : Option Nat) (f : Pool → Pool) :
    s.modPool tn m f = s.modTenant tn fun t => t.withPool f m := by cases m <;> rfl
theorem Tenant.pool_withPool_self (t : Tenant) (f : Pool → Pool) (m : Option Nat) : (t.withPool f m).pool m = f (t.pool m) := by
  cases m with
  | none => rfl
  | some m =>
    show (List.lookup m (_ :: _)).getD ({} : Pool) = _
    rw [List.lookup_cons_self]
    rfl
theorem Tenant.pool_withPool_ne (t : Tenant) (f : Pool → Pool) {m k : Option Nat} (h : k ≠ m) : (t.withPool f m).pool k = t.pool k := by
  cases m with
  | none =>
    cases k with
    | none => exact absurd rfl h
    | some k => rfl
  | some m =>
    cases k with
    | none => rfl
    | some k =>
      have hne : k ≠ m := fun hc => h (hc ▸ rfl)
      show (List.lookup k (_ :: _)).getD ({} : Pool) = _
      rw [List.lookup_cons, show (k == m) = false by simpa using hne, lookup_filter_true (fun _ => by simpa using hne)]
      rfl
theorem State.pool_modPool_self {s : State} {tn : Nat} (h : tn < s.tenants.length) (m : Option Nat) (f : Pool → Pool) :
    (s.modPool tn m f).pool tn m = f (s.pool tn m) := by
  rw [State.pool_eq, State.modPool_eq, s.tenant_modTenant _ h, Tenant.pool_withPool_self, State.pool_eq]
theorem State.pool_modPool_ne {s : State} {tn n : Nat} {m k : Option Nat} (h : n ≠ tn ∨ k ≠ m) (f : Pool → Pool) :
    (s.modPool tn m f).pool n k = s.pool n k := by
  by_cases hl : tn < s.tenants.length
  · rw [State.pool_eq, State.modPool_eq, State.pool_eq]
    by_cases hn : n = tn
    · subst hn
      rw [s.tenant_modTenant _ hl, Tenant.pool_withPool_ne _ _ (h.resolve_left fun hc => hc rfl)]
    · rw [s.tenant_modTenant_ne _ hn]
  · rw [State.modPool_eq, State.modTenant_of_le (by omega)]
/-- A pool that loses units. -/
theorem State.modPool_drops (s : State) (tn : Nat) (m : Option Nat) {f : Pool → Pool} (hf : ∀ p, ∀ u ∈ (f p).units, u ∈ p.units) :
    s.Drops (s.modPool tn m f) := by
  refine ⟨rfl, fun n k u hu => ?_⟩
  by_cases h : n = tn ∧ k = m
  · obtain ⟨rfl, rfl⟩ := h
    by_cases hl : n < s.tenants.length
    · rw [State.pool_modPool_self hl] at hu
      exact hf _ u hu
    · rwa [State.modPool_eq, State.modTenant_of_le (by omega)] at hu
  · rwa [State.pool_modPool_ne (not_and_or.mp h)] at hu

/-! ### Recoveries -/

theorem State.Drops.of_sansDies {s t : State} (h : t.sansDies = s.sansDies) : s.Drops t :=
  .of_eq (congrArg State.prot h :) (congrArg State.tenants h :)
theorem State.enqueue_drops (s : State) (c d : Nat) (o : DieOp) : s.Drops (s.enqueue c d o) := .of_sansDies (s.enqueue_sansDies c d o)
theorem State.complete_drops (s : State) (r : CmdRef) (st : Status) (a b : Nat) : s.Drops (s.complete r st a b) := by
  have h := s.complete_onlyHost r st a b
  exact .of_eq (congrArg State.prot h :) (congrArg State.tenants h :)
theorem State.modMedia_complete_drops (s : State) (f : Media → Media) (r : CmdRef) (st : Status) (a b : Nat) :
    s.Drops ((s.modMedia f).complete r st a b) := (Drops.of_eq (s := s) (t := s.modMedia f) rfl rfl).trans (State.complete_drops _ _ _ _ _)
theorem State.log_drops (s : State) (page : Nat) (body : List Byte) (fault : Bool) (owner : Nat) (event : Bool) :
    s.Drops (s.log page body fault owner event) := by
  have h := s.log_frame page body fault owner event
  exact .of_eq (congrArg State.prot h :) (congrArg State.tenants h :)
theorem State.mediaLog_drops (s : State) (e : MediaEntry) (fault : Bool) : s.Drops (s.mediaLog e fault) := s.log_drops 0xC2 e.body fault 0 true
theorem State.recoveryLog_drops (s : State) (r : Recovery) (outcome set : Nat) : s.Drops (s.recoveryLog r outcome set) :=
  s.mediaLog_drops _ _
theorem Pool.drop_units (p : Pool) (gone : Nat → Bool) : ∀ u ∈ (p.drop gone).units, u ∈ p.units := fun _ h => (List.mem_filter.mp h).1
theorem State.readerFails_drops (s : State) (x : Reader) (f : Nat) : s.Drops (s.readerFails x f) := by
  cases x with
  | nvm c lba => exact State.modMedia_complete_drops _ _ _ _ _ _
  | bringUp t m u =>
    refine State.modPool_drops s t m (f := fun p => if p.coming.contains u then p.drop (· == u) else p) fun p v hv => ?_
    split at hv
    · exact p.drop_units _ v hv
    · exact hv
  | scan | source | nobody => exact .refl s
  | media c => exact State.modMedia_complete_drops _ _ _ _ _ _
theorem State.unrecovered_drops (s : State) (r : Recovery) : s.Drops (s.unrecovered r) := by
  have hm : ∀ (t : State) (a : PageAddr) (cw f : Nat), t.Drops (t.markUnreadable a cw f) := by
    intro t a cw f
    unfold State.markUnreadable
    extract_lets t1
    split <;> exact .of_eq rfl rfl
  unfold State.unrecovered
  extract_lets s1 s2 s3
  have h1 : s.Drops s1 := .of_eq rfl rfl
  have h2 : s1.Drops s2 := s1.recoveryLog_drops r 3 0
  have h3 : s2.Drops s3 := .ite (hm ..) (.refl _)
  exact h1.trans (h2.trans (h3.trans (.foldl (fun s x => s.readerFails_drops x _) _ _)))
theorem State.startRebuild_drops (s : State) (r : Recovery) : s.Drops (s.startRebuild r) :=
  (Drops.of_eq (s := s) (t := s.putRecovery { r with rebuilding := true, waits := s.rowMates r.addr }) rfl rfl).trans (.foldl (fun s _ => s.enqueue_drops ..) _ _)
theorem State.nextRecovery_drops (s : State) (r : Recovery) : s.Drops (s.nextRecovery r) := by
  unfold State.nextRecovery
  extract_lets spent budget sets
  split
  · exact (Drops.of_eq (s := s) (t := s.putRecovery r) rfl rfl).trans (State.enqueue_drops ..)
  split
  · exact (State.startRebuild_drops ..).trans (.foldl (fun s x => s.readerFails_drops x _) _ _)
  · exact s.unrecovered_drops r
theorem State.startRecovery_drops (s : State) (a : PageAddr) (cw : Nat) (x : Reader) (rb : Bool) (found : Option Nat) :
    s.Drops (s.startRecovery a cw x rb found) := by
  unfold State.startRecovery
  split
  · exact .ite (s.readerFails_drops ..) (.of_eq rfl rfl)
  · cases found with
    | some f => exact (Drops.of_eq (s := s) (t := s.modMedia fun m => { m with recoveries := m.recoveries ++ [_] }) rfl rfl).trans (State.nextRecovery_drops _ _)
    | none => exact (Drops.of_eq (s := s) (t := s.newFault.2.modMedia fun m => { m with recoveries := m.recoveries ++ [_] }) rfl rfl).trans (State.nextRecovery_drops _ _)
theorem State.request_drops (s : State) (sb q cw : Nat) (x : Reader) : s.Drops (s.request sb q cw x) := by
  unfold State.request
  split
  · exact .refl s
  · exact .ite (s.enqueue_drops ..) (s.startRecovery_drops ..)
/-- A unit that is renewed is no longer in its pool. -/
theorem State.renewUnit_gone {s : State} {tn : Nat} (hl : tn < s.tenants.length) {m : Option Nat} {u : Nat} (hc : u ∉ (s.pool tn m).coming) :
    (s.renewUnit tn m u).prot = s.prot ∧ u ∉ ((s.renewUnit tn m u).pool tn m).units := by
  have hgo : ∀ (f : Pool → Pool) (t : State), (∀ p, u ∉ (f p).units) → (s.modPool tn m f).Drops t →
      t.prot = s.prot ∧ u ∉ (t.pool tn m).units := by
    intro f t hf ht
    refine ⟨ht.prot, fun hu => hf (s.pool tn m) ?_⟩
    rw [← State.pool_modPool_self hl m f]
    exact ht.units _ _ _ hu
  unfold State.renewUnit
  rw [if_neg (by simpa using hc)]
  split
  · exact hgo _ _ (fun p hu => by simpa using (List.mem_filter.mp hu).2) (.refl _)
  · exact hgo _ _ (fun p hu => by simpa using (List.mem_filter.mp hu).2) (State.request_drops ..)

end Sys2Proof.Machine
end

section
/-!
PROOFS. Chapter 17: scrub steps, the code of a block, SRAM words, and RETIRE: O54.
-/

namespace Sys2Proof.Machine

open Sys2Proof.Safety

/-! ### DRAM scrub steps -/

/-- What a scrub step that finds a hard block leaves. -/
structure HardStep (s : State) (k : Nat) (t : State) : Prop where
  scrubBlock : (t.stack k).scrubBlock = (s.stack k).scrubBlock + 1
  corrHard : (t.stack k).corrHard = satAdd32 (s.stack k).corrHard 1
  poison : (t.stack k).poison = (s.stack k).poison
  other : ∀ j, j ≠ k → t.stack j = s.stack j
  sram : t.prot.sram = s.prot.sram
  media : t.media = s.media
  tenants : t.tenants = s.tenants

section
variable {s : State} {k : Nat} {e : BlockErrors} (hon : s.power.stage = .on) (hready : s.power.dramReady = true)
  (hlen : k < s.prot.dramStacks.length) (hk : k < 4)
  (hnext : (s.stack k).scrubBlock + 1 < stackBlocks) (hpage : ((s.stack k).scrubBlock + 1) % pageBlocks ≠ 0)
  (hpoison : (s.stack k).poison.lookup (s.stack k).scrubBlock = none)
  (hremap : ∀ r ∈ (s.stack k).remap, r.2.1 ≠ (s.stack k).scrubBlock)
include hon hready hk hnext hpage hpoison hremap

theorem dramScrubStep_clean (h : decodeBlock (s.stack k).failedDie e.first = .clean) :
    exec (.dramScrubStep k e) s = .next (s.modStack k fun y => { y with scrubBlock := (s.stack k).scrubBlock + 1 }) :=
  exec_dramScrubStep hon hready hk hnext hpage (State.readDram_clean hpoison hremap h ..) (l := []) (List.append_nil _).symm (by simp)
include hlen
theorem dramScrubStep_soft (h : decodeBlock (s.stack k).failedDie e.first = .corrected) (hc : outside (s.stack k).failedDie e.check = []) :
    exec (.dramScrubStep k e) s = .next (s.modStack k fun y => { y with
      scrubBlock := (s.stack k).scrubBlock + 1, corrSoft := satAdd32 y.corrSoft 1 }) := by
  have hread := State.readDram_corrected hpoison hremap h 0 ((s.stack k).scrubFound.map (·.1)) true
  rw [hc, List.isEmpty_nil, if_pos rfl] at hread
  have hst := ((State.stacked_self hlen).modStack hlen fun x => { x with corrSoft := satAdd32 x.corrSoft 1 }).stack hlen
  rw [exec_dramScrubStep hon hready hk hnext hpage hread (l := []) (by rw [hst, List.append_nil]) (by simp)]
  congr 1
  simp only [State.modStack, State.modProt, List.modify_modify_eq]
  rfl
/-- The step when the block's check read is in error: the block is handled as hard, and the scrubber goes on. -/
theorem dramScrubStep_hard (h : decodeBlock (s.stack k).failedDie e.first = .corrected)
    (hc : outside (s.stack k).failedDie e.check ≠ []) {y : MemStack}
    (hy : s.Stacked k y (s.hardBlock k (s.stack k).scrubBlock (outside (s.stack k).failedDie e.check)
      (s.blockTenant k (s.stack k).scrubBlock) 0))
    (herr : y.errors = ((s.stack k).foundHard (s.stack k).scrubBlock (outside (s.stack k).failedDie e.check) s.now).errors)
    (hcorr : y.corrHard = satAdd32 (s.stack k).corrHard 1) (hp : y.poison = (s.stack k).poison) :
    ∃ t, exec (.dramScrubStep k e) s = .next t ∧ HardStep s k t
      ∧ s.Stacked k { y with scrubBlock := (s.stack k).scrubBlock + 1 } t
      ∧ t.logs = (s.hardBlock k (s.stack k).scrubBlock (outside (s.stack k).failedDie e.check)
          (s.blockTenant k (s.stack k).scrubBlock) 0).logs
      ∧ t.pcie = (s.hardBlock k (s.stack k).scrubBlock (outside (s.stack k).failedDie e.check)
          (s.blockTenant k (s.stack k).scrubBlock) 0).pcie := by
  have hread := State.readDram_corrected hpoison hremap h 0 ((s.stack k).scrubFound.map (·.1)) true
  rw [List.isEmpty_eq_false_iff.mpr hc, if_neg Bool.false_ne_true] at hread
  have hst := hy.stack hlen
  have ht := hy.modStack hlen fun x => { x with scrubBlock := (s.stack k).scrubBlock + 1 }
  have htst := ht.stack hlen
  refine ⟨_, exec_dramScrubStep hon hready hk hnext hpage hread (by rw [hst, herr]; rfl)
    (l := [hardErrorOf _ _ _ _]) (by simp [hardErrorOf]), ?_, ht, rfl, rfl⟩
  exact ⟨by rw [htst], by rw [htst]; exact hcorr, by rw [htst]; exact hp, fun j hj => ht.other hj, ht.sram, ht.media, ht.tenants⟩

variable (hnew : (s.stack k).scrubFound = none) (h : decodeBlock (s.stack k).failedDie e.first = .uncorrectable)
  (h2 : decodeBlock (s.stack k).failedDie e.second = .uncorrectable)
include hnew h h2

/-- A block that belongs to nobody is poisoned. -/
theorem dramScrubStep_poison (hb : s.blockHolder k (s.stack k).scrubBlock = none) (hp : s.poolHolder k (s.stack k).scrubBlock = none)
    (hg : (s.stack k).scrubBlock / 128 < tenantGranules) : ∃ t, exec (.dramScrubStep k e) s = .next t
      ∧ (t.stack k).poison.lookup (s.stack k).scrubBlock = some s.newFault.1 ∧ (t.stack k).uncorr = satAdd32 (s.stack k).uncorr 1
      ∧ (t.stack k).scrubBlock = (s.stack k).scrubBlock + 1
      ∧ (t.stack k).scrubFound = some (s.newFault.1, (s.stack k).scrubBlock, (outside (s.stack k).failedDie e.first).length, 1)
      ∧ (∀ j, j ≠ k → t.stack j = s.stack j) ∧ t.media = s.media ∧ t.tenants = s.tenants := by
  obtain ⟨u, r, hu, -, hlost⟩ := State.lostBlock_scrub (s := s.newFault.2) hlen (s.stack k).scrubBlock
    (outside (s.stack k).failedDie e.first) s.newFault.1 (s.blockTenant k (s.stack k).scrubBlock) 0
  have hu' : s.Stacked k _ u := ⟨(congrArg (fun x : State => { x with logs := s.logs }) hu.frame :), hu.prot⟩
  have hread := State.readDram_uncorrectable hpoison hremap h h2 0 true
  rw [hlost hb hp hg] at hread
  have h3 := hu'.modStack hlen fun x => { x with poison := ((s.stack k).scrubBlock, s.newFault.1) :: x.poison }
  have h4 := (h3.modStack hlen fun x => { x with
      scrubFound := some (s.newFault.1, (s.stack k).scrubBlock, (outside x.failedDie e.first).length, 1) }).modStack hlen
    fun y => { y with scrubBlock := (s.stack k).scrubBlock + 1 }
  have hst := h4.stack hlen
  refine ⟨_, exec_dramScrubStep_found hon hready hk hnext hpage hread hnew
    (y := softErrorOf _ _ _ _) (by rw [h3.stack hlen]; rfl) rfl, ?_⟩
  refine ⟨(congrArg (fun x : MemStack => x.poison.lookup (s.stack k).scrubBlock) hst).trans List.lookup_cons_self,
    (congrArg MemStack.uncorr hst :), (congrArg MemStack.scrubBlock hst :), (congrArg MemStack.scrubFound hst :),
    fun j hj => h4.other hj, h4.media, h4.tenants⟩
/-- A unit of a cache pool is brought up again. -/
theorem dramScrubStep_renew {tn u n : Nat} {m : Option Nat} (hb : s.blockHolder k (s.stack k).scrubBlock = none)
    (hp : s.poolHolder k (s.stack k).scrubBlock = some (tn, m, u, n)) (hc : u ∉ (s.pool tn m).coming) (htn : tn < s.tenants.length) :
    ∃ t, exec (.dramScrubStep k e) s = .next t ∧ u ∉ (t.pool tn m).units ∧ (t.stack k).poison = (s.stack k).poison
      ∧ (t.stack k).uncorr = satAdd32 (s.stack k).uncorr 1 ∧ (t.stack k).scrubBlock = (s.stack k).scrubBlock + 1 := by
  obtain ⟨v, r, hv, hlost, -⟩ := State.lostBlock_scrub (s := s.newFault.2) hlen (s.stack k).scrubBlock
    (outside (s.stack k).failedDie e.first) s.newFault.1 (s.blockTenant k (s.stack k).scrubBlock) 0
  have hread := State.readDram_uncorrectable hpoison hremap h h2 0 true
  rw [hlost _ hb hp] at hread
  have hv' : s.Stacked k _ v := ⟨(congrArg (fun x : State => { x with logs := s.logs }) hv.frame :), hv.prot⟩
  have htv : v.tenants = s.tenants := hv'.tenants
  have hpool : v.pool tn m = s.pool tn m := by
    rw [State.pool_eq, State.pool_eq, State.tenant, State.tenant, htv]
  obtain ⟨hprot, hgone⟩ := State.renewUnit_gone (s := v) (tn := tn) (by rw [htv]; exact htn) (m := m) (u := u) (by rw [hpool]; exact hc)
  obtain ⟨w, hw⟩ : ∃ w, w = v.renewUnit tn m u := ⟨_, rfl⟩
  have hlenw : k < w.prot.dramStacks.length := by
    rw [hw, hprot, hv'.prot]
    simpa using hlen
  have hwst : w.stack k = v.stack k := by rw [hw, State.stack, hprot]; rfl
  rw [hv'.stack hlen] at hwst
  have h4 := ((State.stacked_self hlenw).modStack hlenw fun x => { x with
      scrubFound := some (w.logs.faultNo, (s.stack k).scrubBlock, (outside x.failedDie e.first).length, 1) }).modStack hlenw
    fun y => { y with scrubBlock := (s.stack k).scrubBlock + 1 }
  have hst := h4.stack hlenw
  rw [hwst] at hst
  rw [← hw] at hread hgone
  refine ⟨_, exec_dramScrubStep_found hon hready hk hnext hpage hread hnew (y := softErrorOf _ _ _ _) (by rw [hwst]; rfl) rfl, ?_⟩
  refine ⟨hgone, (congrArg MemStack.poison hst :), (congrArg MemStack.uncorr hst :), (congrArg MemStack.scrubBlock hst :)⟩

end

/-! ### The code of a block -/

theorem symbolsOf_length (l : List Byte) : (symbolsOf l).length = l.length / 2 := by
  fun_induction symbolsOf l with
  | case1 a b l ih =>
    rw [List.length_cons, ih, List.length_cons, List.length_cons]
    omega
  | case2 l h =>
    match l, h with
    | [], _ => rfl
    | [_], _ => simp
    | a :: b :: l, h => exact absurd rfl (h a b l)
theorem rsGenerator_length : rsGenerator.length = 33 := by
  have hmul : ∀ p r, (timesLinear p r).length = p.length + 1 := by
    intro p r
    simp [timesLinear]
  have hfold : ∀ (l p : List Nat), (l.foldl (fun p i => timesLinear p (gf16Alpha (i + 1))) p).length = p.length + l.length := by
    intro l
    induction l with
    | nil => exact fun _ => rfl
    | cons i l ih =>
      intro p
      rw [List.foldl_cons, ih, hmul, List.length_cons]
      omega
  rw [rsGenerator, hfold, List.length_range]
  rfl
theorem rsCheck_length (data : List Nat) : (rsCheck data).length = 32 := by
  have hg : rsGenerator.tail.length = 32 := by rw [List.length_tail, rsGenerator_length]
  have hstep : ∀ (r : List Nat) (d : Nat), r.length = 32 → (rsStep rsGenerator.tail r d).length = 32 := by
    intro r d hr
    unfold rsStep
    extract_lets q shifted
    have hs : shifted.length = 32 := by simp [shifted, hr]
    split
    · exact hs
    · rw [List.length_zipWith, hs, List.length_map, hg]
      rfl
  have hfold : ∀ (l r : List Nat), r.length = 32 → (l.foldl (rsStep rsGenerator.tail) r).length = 32 := by
    intro l
    induction l with
    | nil => exact fun _ h => h
    | cons d l ih => exact fun r h => ih _ (hstep r d h)
  exact hfold data _ List.length_replicate
/-- The word of a block: its symbols, then their check symbols. -/
theorem blockWord_parts {data : List Byte} (h : data.length = 512) : (blockWord data).length = 288
    ∧ (blockWord data).take 256 = symbolsOf data ∧ (blockWord data).drop 256 = rsCheck (symbolsOf data) := by
  have hl : (symbolsOf data).length = 256 := by rw [symbolsOf_length, h]
  refine ⟨?_, List.take_left' hl, List.drop_left' hl⟩
  rw [blockWord, List.length_append, hl, rsCheck_length]
/-- The poison pattern shows its fault number. -/
theorem poisonOf_poisonWord {f : Nat} (h : f < 2 ^ 32) : poisonOf (poisonWord f) = some f := by
  have hs : symbolsOf (poisonData f) = (f % 256 + 256 * (f / 256 % 256)) :: (f / 256 / 256 % 256 + 256 * (f / 256 / 256 / 256 % 256))
      :: symbolsOf (List.replicate 508 0) := by
    simp only [poisonData, bytesOfLe, List.cons_append, List.nil_append, symbolsOf, BitVec.toNat_ofNat, Nat.mod_mod,
      Nat.reducePow]
  have hl : blockWord (poisonData f) = (f % 256 + 256 * (f / 256 % 256)) :: (f / 256 / 256 % 256 + 256 * (f / 256 / 256 / 256 % 256))
      :: (symbolsOf (List.replicate 508 0) ++ rsCheck (symbolsOf (poisonData f))) := by
    rw [← List.cons_append, ← List.cons_append, ← hs, blockWord]
  have hf : (poisonWord f).getD 0 0 + 65536 * (poisonWord f).getD 1 0 = f := by
    rw [poisonWord, hl]
    simp only [List.modify_succ_cons, List.getD_cons_zero, List.getD_cons_succ]
    omega
  unfold poisonOf
  dsimp only
  rw [hf, if_pos rfl]

/-! ### SRAM words -/

theorem State.sramUnit_modSram {s : State} {k : Nat} (h : k < s.prot.sram.length) (f : SramUnit → SramUnit) :
    (s.modSram k f).sramUnit k = f (s.sramUnit k) := getD_modify_self _ _ _ _ h
theorem State.sramUnit_modSram_ne {s : State} {k j : Nat} (h : j ≠ k) (f : SramUnit → SramUnit) :
    (s.modSram k f).sramUnit j = s.sramUnit j := getD_modify_ne _ _ _ h
theorem State.memLog_prot (s : State) (e : MemEntry) : (s.memLog e).prot = s.prot := (congrArg State.prot (s.log_frame ..) :)
theorem State.memLog_sramUnit (s : State) (e : MemEntry) (k : Nat) : (s.memLog e).sramUnit k = s.sramUnit k := by
  rw [State.sramUnit, State.memLog_prot, State.sramUnit]

/-- A word with one bit corrected, and one entered as hard. -/
def SramUnit.corrected (w b : Nat) (u : SramUnit) : SramUnit :=
  { u with corr := satAdd32 u.corr 1, seen := (w, b) :: u.seen.filter (·.1 != w) }
def SramUnit.harden (w b now : Nat) (u : SramUnit) : SramUnit :=
  { u with hard := (w, b, now) :: u.hard.filter fun h => !(h.1 == w && h.2.1 == b) }
/-- What a scrub step of a word leaves. -/
structure WordStep (s : State) (k : Nat) (t : State) : Prop where
  other : ∀ j, j ≠ k → t.sramUnit j = s.sramUnit j
  damaged : t.prot.damaged = s.prot.damaged

theorem WordStep.refl (s : State) (k : Nat) : WordStep s k s := ⟨fun _ _ => rfl, rfl⟩
theorem WordStep.modSram {s t : State} {k : Nat} (h : WordStep s k t) (f : SramUnit → SramUnit) : WordStep s k (t.modSram k f) :=
  ⟨fun j hj => (State.sramUnit_modSram_ne hj f).trans (h.other j hj), h.damaged⟩
theorem WordStep.memLog {s t : State} {k : Nat} (h : WordStep s k t) (e : MemEntry) : WordStep s k (t.memLog e) :=
  ⟨fun j hj => (t.memLog_sramUnit e j).trans (h.other j hj), by rw [State.memLog_prot]; exact h.damaged⟩

section
variable {s : State} {k w b : Nat} (hon : s.power.stage = .on) (hlen : k < s.prot.sram.length) (hk : k < 11)
  (hp : (s.sramUnit k).poison.lookup w = none)
include hon hk

theorem exec_sramScrubStep (l : List Nat) : exec (.sramScrubStep k w l) s = .next (s.sramRead k w l 0).1 :=
  (s.whenOn_of hon _).trans (if_neg (by omega))
include hlen hp

/-- A first bit in error. -/
theorem sramScrubStep_first (h : (w, b) ∉ (s.sramUnit k).seen) : ∃ t, exec (.sramScrubStep k w [b]) s = .next t ∧ WordStep s k t
    ∧ t.logs = s.logs ∧ (t.sramUnit k).corr = satAdd32 (s.sramUnit k).corr 1 ∧ (w, b) ∈ (t.sramUnit k).seen
    ∧ (t.sramUnit k).poison = (s.sramUnit k).poison := by
  have hread : s.sramRead k w [b] 0 = (s.modSram k (SramUnit.corrected w b), none) := by
    have hc : (s.sramUnit k).seen.contains (w, b) = false := by simpa using h
    unfold State.sramRead
    dsimp only [List.headD_cons]
    rw [hp, hc]
    simp [List.eraseDups_cons]
    rfl
  rw [exec_sramScrubStep hon hk, hread]
  have hu := State.sramUnit_modSram hlen (SramUnit.corrected w b)
  exact ⟨_, rfl, (WordStep.refl s k).modSram _, rfl, (congrArg SramUnit.corr hu :),
    by rw [hu]; exact List.mem_cons_self, (congrArg SramUnit.poison hu :)⟩
/-- The same bit again: a hard word. -/
theorem sramScrubStep_again (h : (w, b) ∈ (s.sramUnit k).seen) (hh : ∀ x ∈ (s.sramUnit k).hard, x.1 ≠ w) :
    ∃ t, exec (.sramScrubStep k w [b]) s = .next t ∧ WordStep s k t ∧ (t.sramUnit k).corr = satAdd32 (s.sramUnit k).corr 1
      ∧ (w, b, s.now) ∈ (t.sramUnit k).hard ∧ t.logs.c1.nextSeq = s.logs.c1.nextSeq + 1 := by
  obtain ⟨e, hread⟩ : ∃ e, s.sramRead k w [b] 0
      = (((s.modSram k (SramUnit.corrected w b)).modSram k (SramUnit.harden w b s.now)).memLog e, none) := by
    have hc : (s.sramUnit k).seen.contains (w, b) = true := by simpa using h
    have hf : (s.sramUnit k).hard.find? (fun h => h.1 == w && h.2.1 == b) = none := by
      rw [List.find?_eq_none]
      intro x hx
      simp [hh x hx]
    refine ⟨{ kind := 0x09, source := k, symbols := 1, tenant := s.sramTenant k w, tag := 0, word := w }, ?_⟩
    unfold State.sramRead
    dsimp only [List.headD_cons]
    rw [hp, hc, hf]
    simp only [List.eraseDups_cons, List.filter_nil, List.eraseDups_nil, List.length_cons, List.length_nil, Nat.zero_add, Nat.one_ne_zero,
      if_false, if_true, Bool.and_self]
    rfl
  rw [exec_sramScrubStep hon hk, hread]
  have h1 := State.sramUnit_modSram hlen (SramUnit.corrected w b)
  have h2 := State.sramUnit_modSram (s := s.modSram k (SramUnit.corrected w b)) ((List.length_modify ..).symm ▸ hlen) (SramUnit.harden w b s.now)
  rw [h1] at h2
  refine ⟨_, rfl, (((WordStep.refl s k).modSram _).modSram _).memLog e, ?_, ?_, State.memLog_nextSeq _ e⟩
  · rw [State.memLog_sramUnit, h2]
    rfl
  · rw [State.memLog_sramUnit, h2]
    exact List.mem_cons_self
/-- Two bits in error, in a structure whose words have no holder to stop. -/
theorem sramScrubStep_two {b2 : Nat} (hne : b2 ≠ b) (hmem : k ∈ [0, 1, 2, 3, 4, 8]) : ∃ t, exec (.sramScrubStep k w [b, b2]) s = .next t
    ∧ WordStep s k t ∧ (t.sramUnit k).uncorr = satAdd32 (s.sramUnit k).uncorr 1 ∧ (t.sramUnit k).poison.lookup w = some s.newFault.1
    ∧ t.logs.c1.nextSeq = s.logs.c1.nextSeq + 1 ∧ t.invocations = s.invocations ∧ t.tenants = s.tenants := by
  have hlost : ∀ (t : State) (f : Nat), t.lostWord k w f = t.modSram k fun u => { u with poison := (w, f) :: u.poison.filter (·.1 != w) } := by
    intro t f
    unfold State.lostWord
    simp only [List.mem_cons, List.not_mem_nil, or_false] at hmem
    obtain rfl | rfl | rfl | rfl | rfl | rfl := hmem <;> rfl
  obtain ⟨e, hread⟩ : ∃ e, s.sramRead k w [b, b2] 0 = (((s.newFault.2.modSram k fun u => { u with uncorr := satAdd32 u.uncorr 1 }).memLog e).modSram k
      fun u => { u with poison := (w, s.newFault.1) :: u.poison.filter (·.1 != w) }, some s.newFault.1) := by
    have hn : [b, b2].eraseDups.length = 2 := by
      rw [List.eraseDups_cons, List.filter_cons_of_pos (by simpa using hne), List.eraseDups_cons]
      rfl
    refine ⟨{ kind := 0x0A, source := k, symbols := 2, tenant := s.sramTenant k w, faultNo := s.newFault.1, tag := 0, word := w }, ?_⟩
    unfold State.sramRead
    rw [hn]
    dsimp only
    rw [hp]
    simp only [hlost]
    rfl
  rw [exec_sramScrubStep hon hk, hread]
  have h1 := State.sramUnit_modSram (s := s.newFault.2) hlen fun u => { u with uncorr := satAdd32 u.uncorr 1 }
  have hl : k < ((s.newFault.2.modSram k fun u => { u with uncorr := satAdd32 u.uncorr 1 }).memLog e).prot.sram.length := by
    rw [State.memLog_prot]
    exact (List.length_modify ..).symm ▸ hlen
  have h2 := State.sramUnit_modSram hl fun u => { u with poison := (w, s.newFault.1) :: u.poison.filter (·.1 != w) }
  rw [State.memLog_sramUnit, h1] at h2
  have hf := (s.newFault.2.modSram k fun u => { u with uncorr := satAdd32 u.uncorr 1 }).log_frame 0xC1 e.body (e.kind == 0x02 || e.kind == 0x0A) 0 true
  refine ⟨_, rfl, (((show WordStep s k s.newFault.2 from ⟨fun _ _ => rfl, rfl⟩).modSram _).memLog e).modSram _, (congrArg SramUnit.uncorr h2 :), ?_,
    State.memLog_nextSeq _ e, (congrArg State.invocations hf :), (congrArg State.tenants hf :)⟩
  exact (congrArg (fun u : SramUnit => u.poison.lookup w) h2).trans List.lookup_cons_self

end

/-! ### RETIRE -/

/-- A stack with a page retired in an entry. -/
def MemStack.retire (i page : Nat) (x : MemStack) : MemStack :=
  { x with
    uncorr := satAdd32 x.uncorr 0
    remap := x.remap.filter fun r => r.2.1 / pageBlocks != page
    retired := x.retired ++ [(i, page)] }

section
variable {s u : State} {c : Cmd} (hs : Starts s c .adminOwner u)
include hs

/-- A RETIRE that ends with a status and changes nothing. -/
theorem retire_ends {x : Instr} {st : Status} {a : Nat} (hx : exec x s = .next (u.complete c.ref st a)) :
    ∃ t, exec x s = .next t ∧ Ends s t c st a ∧ t.prot = s.prot :=
  ⟨_, hx, State.begin_completes hs.1 st a 0, (u.complete_drops c.ref st a 0).prot.trans (State.begin_prot hs.1)⟩
/-- A page address out of range. -/
theorem retire_invalid (h : 4 ≤ c.cdw10.toNat ∨ 24575 < c.cdw11.toNat) :
    ∃ t, exec (.retire c []) s = .next t ∧ Ends s t c .invalidField ∧ t.prot = s.prot :=
  retire_ends hs ((State.command_of_starts hs _).trans (congrArg Host.Outcome.next (if_pos (by simpa using h))))

variable (h4 : c.cdw10.toNat < 4) (hpage : c.cdw11.toNat ≤ 24575)
include h4 hpage

/-- A page that is retired already. -/
theorem retire_again (h : ∃ r ∈ (s.stack (bits c.cdw10.toNat 1 0)).retired, r.2 = c.cdw11.toNat) :
    ∃ t, exec (.retire c []) s = .next t ∧ Ends s t c .success 1 ∧ t.prot = s.prot := by
  have hst : u.stack (bits c.cdw10.toNat 1 0) = s.stack (bits c.cdw10.toNat 1 0) := by rw [State.stack, State.begin_prot hs.1]; rfl
  refine retire_ends hs ((State.command_of_starts hs _).trans (congrArg Host.Outcome.next ((if_neg (by simp [h4, hpage])).trans (if_pos ?_))))
  rw [hst]
  simpa using h

variable (hnot : ∀ r ∈ (s.stack (bits c.cdw10.toNat 1 0)).retired, r.2 ≠ c.cdw11.toNat)
include hnot

/-- No replacement is free. -/
theorem retire_full (h : 16 ≤ (s.stack (bits c.cdw10.toNat 1 0)).retired.length) :
    ∃ t, exec (.retire c []) s = .next t ∧ Ends s t c .reservationExceeded ∧ t.prot = s.prot := by
  have hst : u.stack (bits c.cdw10.toNat 1 0) = s.stack (bits c.cdw10.toNat 1 0) := by rw [State.stack, State.begin_prot hs.1]; rfl
  refine retire_ends hs ((State.command_of_starts hs _).trans (congrArg Host.Outcome.next ((if_neg (by simp [h4, hpage])).trans
    ((if_neg ?_).trans (if_pos ?_)))))
  · rw [hst, List.any_eq_true]
    rintro ⟨r, hr, he⟩
    exact hnot r hr (beq_iff_eq.mp he)
  · rw [hst]
    exact h
/-- The lowest free replacement takes the page. -/
theorem retire_page (hlen : s.prot.dramStacks.length = 4) {i : Nat} (hi : i < 16) (hroom : (s.stack (bits c.cdw10.toNat 1 0)).retired.length < 16)
    (hfree : ∀ r ∈ (s.stack (bits c.cdw10.toNat 1 0)).retired, r.1 ≠ i)
    (hlow : ∀ m, m < i → ∃ r ∈ (s.stack (bits c.cdw10.toNat 1 0)).retired, r.1 = m) :
    ∃ t, exec (.retire c []) s = .next t
      ∧ Ends s t c .success 0 ((s.stack (bits c.cdw10.toNat 1 0)).poison.filter fun p => p.1 / pageBlocks == c.cdw11.toNat).length
      ∧ t.stack (bits c.cdw10.toNat 1 0) = (s.stack (bits c.cdw10.toNat 1 0)).retire i c.cdw11.toNat
      ∧ (∀ j, j ≠ bits c.cdw10.toNat 1 0 → t.stack j = s.stack j) ∧ t.tenants = s.tenants := by
  obtain ⟨k, hk⟩ : ∃ k, k = bits c.cdw10.toNat 1 0 := ⟨_, rfl⟩
  rw [← hk] at hnot hroom hfree hlow ⊢
  have hst : u.stack k = s.stack k := by rw [State.stack, State.begin_prot hs.1]; rfl
  have hkl : k < u.prot.dramStacks.length := by
    rw [State.begin_prot hs.1, hlen, hk]
    exact bits_lt _ 1 0
  have hfind : ((List.range 16).find? fun i => !((u.stack k).retired.any fun r => r.1 == i)).getD 0 = i := by
    rw [hst, show (List.range 16).find? (fun i => !((s.stack k).retired.any fun r => r.1 == i)) = some i from
      List.find?_range_eq_some.mpr ⟨by simpa using hfree, List.mem_range.mpr hi, fun j hj => by simpa using hlow j hj⟩]
    rfl
  obtain ⟨w, hw⟩ : ∃ w, w = u.modStack k (MemStack.retire i c.cdw11.toNat) := ⟨_, rfl⟩
  have hstacked : u.Stacked k ((s.stack k).retire i c.cdw11.toNat) w := by
    rw [hw, ← hst]
    exact (State.stacked_self hkl).modStack hkl _
  obtain ⟨n, hn⟩ : ∃ n, n = ((u.stack k).poison.filter fun p => p.1 / pageBlocks == c.cdw11.toNat).length := ⟨_, rfl⟩
  have hx : ∃ (e : MemEntry) (cause : Nat), exec (.retire c []) s = .next
      ((if (u.stack k).retired.length + 1 ≥ 16 then
        ((w.trimMapCache.memLog e).retireLog 1 cause 0 k 0 0xFF c.cdw11.toNat n).warn 2 0
        else (w.trimMapCache.memLog e).retireLog 1 cause 0 k 0 0xFF c.cdw11.toNat n).complete c.ref .success 0 n) := by
    refine ⟨{ kind := 0x08, stack := k, block := pageBlocks * c.cdw11.toNat, count := n, pages := [c.cdw11.toNat] },
      (((u.stack k).reported.find? fun r => r.2.2 == c.cdw11.toNat).map (·.1)).getD 0,
      (State.command_of_starts hs _).trans (congrArg Host.Outcome.next ((if_neg (by simp [h4, hpage])).trans
      ((if_neg ?_).trans ((if_neg ?_).trans ?_))))⟩
    · rw [← hk, hst, List.any_eq_true]
      rintro ⟨r, hr, he⟩
      exact hnot r hr (beq_iff_eq.mp he)
    · rw [← hk, hst]
      omega
    · subst hw hn
      rw [← hfind, hk]
      rfl
  obtain ⟨e, cause, hx⟩ := hx
  have htells : w.trimMapCache.Tells (if (u.stack k).retired.length + 1 ≥ 16 then
      ((w.trimMapCache.memLog e).retireLog 1 cause 0 k 0 0xFF c.cdw11.toNat n).warn 2 0
      else (w.trimMapCache.memLog e).retireLog 1 cause 0 k 0 0xFF c.cdw11.toNat n) := by
    have h1 : w.trimMapCache.Tells (w.trimMapCache.memLog e) := State.log_tells ..
    have h2 : (w.trimMapCache.memLog e).Tells ((w.trimMapCache.memLog e).retireLog 1 cause 0 k 0 0xFF c.cdw11.toNat n) := State.log_tells ..
    exact .ite (h1.trans (h2.trans (State.warn_tells ..))) (h1.trans h2)
  obtain ⟨y, hy⟩ : ∃ y, y = (if (u.stack k).retired.length + 1 ≥ 16 then
      ((w.trimMapCache.memLog e).retireLog 1 cause 0 k 0 0xFF c.cdw11.toNat n).warn 2 0
      else (w.trimMapCache.memLog e).retireLog 1 cause 0 k 0 0xFF c.cdw11.toNat n) := ⟨_, rfl⟩
  rw [← hy] at hx htells
  have hspares : u.Spares c.ref y := by
    refine State.Spares.trans (t := w.trimMapCache) ?_ (htells.spares c.ref)
    rw [hw]
    exact .of_pcie rfl rfl
  have hd := y.complete_drops c.ref .success 0 n
  have hprot : (y.complete c.ref .success 0 n).prot = w.prot := hd.prot.trans (congrArg State.prot htells.frame :)
  have hstack : ∀ j, (y.complete c.ref .success 0 n).stack j = w.stack j := fun j => by rw [State.stack, hprot]; rfl
  refine ⟨_, hx, ?_, (hstack k).trans (hstacked.stack hkl), fun j hj => ?_, ?_⟩
  · rw [← hst, ← hn]
    exact State.begin_ends hs.1 (hspares.ends (State.begin_firm hs.1) .success 0 n)
  · rw [hstack, hstacked.other hj, State.stack, State.begin_prot hs.1]
    rfl
  · have h1 := (congrArg State.tenants (y.complete_onlyHost c.ref .success 0 n) :)
    rw [h1, htells.tenants]
    exact hstacked.tenants.trans (State.begin_tenants hs.1)

end

/-! ### O54 -/

/-- The steps of a hard block: the first takes a remap entry, the third bank of a die marks it, and a second die is reported. -/
theorem dramScrubStep_hards {s : State} {k : Nat} {e : BlockErrors} (hon : s.power.stage = .on) (hready : s.power.dramReady = true)
    (hlen : k < s.prot.dramStacks.length) (hk : k < 4) (hnext : (s.stack k).scrubBlock + 1 < stackBlocks)
    (hpage : ((s.stack k).scrubBlock + 1) % pageBlocks ≠ 0) (hpoison : (s.stack k).poison.lookup (s.stack k).scrubBlock = none)
    (hremap : ∀ r ∈ (s.stack k).remap, r.2.1 ≠ (s.stack k).scrubBlock)
    (h : decodeBlock (s.stack k).failedDie e.first = .corrected) (hc : outside (s.stack k).failedDie e.check ≠ []) :
    ((s.stack k).errors = [] → ∀ n, n < 32 → (∀ r ∈ (s.stack k).remap, r.1 ≠ n) → (∀ m, m < n → ∃ r ∈ (s.stack k).remap, r.1 = m) →
      ∃ t, exec (.dramScrubStep k e) s = .next t ∧ HardStep s k t
        ∧ (t.stack k).remap = (s.stack k).remap ++ [(n, (s.stack k).scrubBlock, oneDie (outside (s.stack k).failedDie e.check))]
        ∧ (t.stack k).failedDie = (s.stack k).failedDie ∧ t.logs.c1.nextSeq = s.logs.c1.nextSeq + 2)
    ∧ ∀ d, oneDie (outside (s.stack k).failedDie e.check) = some d →
      3 ≤ ((s.stack k).foundHard (s.stack k).scrubBlock (outside (s.stack k).failedDie e.check) s.now).banks d s.now →
      ((s.stack k).failedDie = none → ∃ t, exec (.dramScrubStep k e) s = .next t ∧ HardStep s k t ∧ (t.stack k).failedDie = some d
        ∧ (∀ r ∈ (t.stack k).remap, r.2.2 ≠ some d) ∧ t.pcie.criticalWarning.getLsbD 2 = true)
      ∧ ((s.stack k).failedDie.isSome = true → (s.stack k).failedDie ≠ some d → ∃ t, exec (.dramScrubStep k e) s = .next t ∧ HardStep s k t
        ∧ (t.stack k).failedDie = (s.stack k).failedDie ∧ (t.stack k).secondDie = true) := by
  refine ⟨fun he n hn hfree hlow => ?_, fun d hd hbanks => ⟨fun hf => ?_, fun hf hne => ?_⟩⟩
  · obtain ⟨hy, hseq⟩ := State.hardBlock_first hlen (c := outside (s.stack k).failedDie e.check)
      (tenant := s.blockTenant k (s.stack k).scrubBlock) (tag := 0) he hremap hn hfree hlow
    obtain ⟨t, hx, hstep, ht, hlogs, -⟩ := dramScrubStep_hard hon hready hlen hk hnext hpage hpoison hremap h hc hy rfl rfl rfl
    have hst := ht.stack hlen
    exact ⟨t, hx, hstep, (congrArg MemStack.remap hst :), (congrArg MemStack.failedDie hst :), by rw [hlogs]; exact hseq⟩
  · obtain ⟨m, r, hy, hm, hw⟩ := State.hardBlock_marks hlen (tenant := s.blockTenant k (s.stack k).scrubBlock) (tag := 0) hd hf hbanks
    obtain ⟨t, hx, hstep, ht, -, hpcie⟩ := dramScrubStep_hard hon hready hlen hk hnext hpage hpoison hremap h hc hy rfl rfl rfl
    have hst := ht.stack hlen
    exact ⟨t, hx, hstep, (congrArg MemStack.failedDie hst :), by rw [hst]; exact hm, by rw [hpcie]; exact hw⟩
  · obtain ⟨f, hfd⟩ := Option.isSome_iff_exists.mp hf
    obtain ⟨m, r, hy⟩ := State.hardBlock_second hlen (tenant := s.blockTenant k (s.stack k).scrubBlock) (tag := 0) hd hfd
      (fun hc => hne (hc ▸ hfd)) hbanks
    obtain ⟨t, hx, hstep, ht, -, -⟩ := dramScrubStep_hard hon hready hlen hk hnext hpage hpoison hremap h hc hy rfl rfl rfl
    have hst := ht.stack hlen
    exact ⟨t, hx, hstep, (congrArg MemStack.failedDie hst :), (congrArg MemStack.secondDie hst :)⟩

/-- Settles O54: each scrub step, the code of a block, the scrub of a word, and RETIRE, by the lemma of each. -/
theorem memoryProtection : Obligations.MemoryProtection := by
  unfold Obligations.MemoryProtection
  refine ⟨?_, fun data hd => blockWord_parts hd, fun s k b f hf h32 => ⟨?_, poisonOf_poisonWord h32⟩, ?_, ?_⟩
  · intro s k e hon hready hlen4 hk x b hnext hpage hnew hpoison hremap c hard
    have hlen : k < s.prot.dramStacks.length := by rw [hlen4]; exact hk
    have hthree := fun h hc => dramScrubStep_hards (e := e) hon hready hlen hk hnext hpage hpoison hremap h hc
    refine ⟨dramScrubStep_clean hon hready hk hnext hpage hpoison hremap, dramScrubStep_soft hon hready hlen hk hnext hpage hpoison hremap,
      fun he n hn hfree hlow h hc => ?_,
      fun d y z hf hd hy hz hyh hzh hyd hzd hyt hzt hyz hyb hzb h hc => ?_,
      fun d y z hf hne hd hy hz hyh hzh hyd hzd hyt hzt hyz hyb hzb h hc => ?_,
      fun h h2 hb hp hg => dramScrubStep_poison hon hready hlen hk hnext hpage hpoison hremap hnew h h2 hb hp hg,
      fun h h2 tn m u n hb hp hu htn => dramScrubStep_renew hon hready hlen hk hnext hpage hpoison hremap hnew h h2 hb hp hu htn⟩
    · obtain ⟨t, hx, hs, hpost⟩ := (hthree h hc).1 he n hn hfree hlow
      exact ⟨t, hx, hs.scrubBlock, hs.corrHard, hs.poison, hs.other, hs.sram, hs.media, hs.tenants, hpost⟩
    · obtain ⟨t, hx, hs, hpost⟩ := ((hthree h hc).2 d hd (MemStack.banks_foundHard hd hy hz hyh hzh hyd hzd hyt hzt hyz hyb hzb)).1 hf
      exact ⟨t, hx, hs.scrubBlock, hs.corrHard, hs.poison, hs.other, hs.sram, hs.media, hs.tenants, hpost⟩
    · obtain ⟨t, hx, hs, hpost⟩ := ((hthree h hc).2 d hd (MemStack.banks_foundHard hd hy hz hyh hzh hyd hzd hyt hzt hyz hyb hzb)).2 hf hne
      exact ⟨t, hx, hs.scrubBlock, hs.corrHard, hs.poison, hs.other, hs.sram, hs.media, hs.tenants, hpost⟩
  · rw [State.storedWord, hf]
  · intro s k w bit hon hlen11 hk u hp others
    have hlen : k < s.prot.sram.length := by rw [hlen11]; exact hk
    refine ⟨fun h => ?_, fun h hh => ?_, fun two hne hmem => ?_⟩
    · obtain ⟨t, hx, hs, hpost⟩ := sramScrubStep_first hon hlen hk hp h
      exact ⟨t, hx, ⟨hs.other, hs.damaged⟩, hpost⟩
    · obtain ⟨t, hx, hs, hpost⟩ := sramScrubStep_again hon hlen hk hp h hh
      exact ⟨t, hx, ⟨hs.other, hs.damaged⟩, hpost⟩
    · obtain ⟨t, hx, hs, hpost⟩ := sramScrubStep_two hon hlen hk hp hne hmem
      exact ⟨t, hx, ⟨hs.other, hs.damaged⟩, hpost⟩
  · intro s u c hs hlen k page x
    refine ⟨fun h => retire_invalid hs h, fun h4 hpage => ⟨fun h => retire_again hs h4 hpage h, fun hnot =>
      ⟨fun h => retire_full hs h4 hpage hnot h, fun n hn hroom hfree hlow => ?_⟩⟩⟩
    obtain ⟨t, hx, hend, hst, hother, htn⟩ := retire_page hs h4 hpage hnot hlen hn hroom hfree hlow
    refine ⟨t, hx, hend, (congrArg MemStack.retired hst :), ?_, (congrArg MemStack.poison hst :), hother, htn⟩
    intro r hr
    rw [hst] at hr
    simpa using (List.mem_filter.mp hr).2

end Sys2Proof.Machine
end

section
/-!
PROOFS. Chapters 15 and 16: what the work of dies, rows and recoveries leaves aside.
-/

namespace Sys2Proof.Machine

open Sys2Proof.Safety

/-! ### Aside of the dies -/

/-- What the work of dies, rows and recoveries never touches. -/
def State.aside (s : State) : List Channel × CtrPool × List Invocation × MemProt × Peer × Power × Service × Nat :=
  (s.media.channels, s.ctrs, s.invocations, s.prot, s.peer, s.power, s.svc, s.now)

theorem State.aside_of_onlyHost {s t : State} (h : s.OnlyHost t) : t.aside = s.aside := (congrArg State.aside h :)
theorem State.aside_of_sansDies {s t : State} (h : t.sansDies = s.sansDies) : t.aside = s.aside := (congrArg State.aside h :)
theorem State.complete_aside (s : State) (r : CmdRef) (st : Status) (a b : Nat) : (s.complete r st a b).aside = s.aside :=
  State.aside_of_onlyHost (s.complete_onlyHost r st a b)
theorem State.completeOpt_aside (s : State) (c : Option CmdRef) (st : Status) (a : Nat) : (s.completeOpt c st a).aside = s.aside := by
  cases c with
  | none => rfl
  | some r => exact s.complete_aside r st a 0
theorem State.raise_aside (s : State) (fn : Nat) (e : Event) : (s.raise fn e).aside = s.aside :=
  State.aside_of_onlyHost (s.raise_posts fn e).1
theorem State.raiseLog_aside (s : State) (fn page : Nat) : (s.raiseLog fn page).aside = s.aside := s.raise_aside _ _
theorem State.log_aside (s : State) (page : Nat) (body : List Byte) (fault : Bool) (owner : Nat) (event : Bool) :
    (s.log page body fault owner event).aside = s.aside := (congrArg State.aside (s.log_frame page body fault owner event) :)
theorem State.mediaLog_aside (s : State) (e : MediaEntry) (fault : Bool) : (s.mediaLog e fault).aside = s.aside := s.log_aside ..
theorem State.warn_aside (s : State) (n info : Nat) : (s.warn n info).aside = s.aside := by
  unfold State.warn
  exact ite_keep State.aside rfl (ite_keep State.aside (State.raise_aside ..) rfl)
theorem State.judgeReadOnly_aside (s : State) (g : Nat) : (s.judgeReadOnly g).aside = s.aside := by
  unfold State.judgeReadOnly
  exact ite_keep State.aside ((State.mediaLog_aside ..).trans (State.warn_aside ..)) rfl
theorem State.enqueue_aside (s : State) (c d : Nat) (o : DieOp) : (s.enqueue c d o).aside = s.aside :=
  State.aside_of_sansDies (s.enqueue_sansDies c d o)

/-! ### Recoveries -/

theorem State.readerFails_aside (s : State) (x : Reader) (f : Nat) : (s.readerFails x f).aside = s.aside := by
  cases x with
  | nvm c lba => exact State.complete_aside ..
  | bringUp t m u => rfl
  | scan | source | nobody => rfl
  | media c => exact State.complete_aside ..
theorem State.readersFail_aside (l : List Reader) (f : Nat) (s : State) :
    (l.foldl (fun (s : State) x => s.readerFails x f) s).aside = s.aside :=
  foldl_keep State.aside _ (fun s x => s.readerFails_aside x f) _ _
theorem State.markUnreadable_aside (s : State) (a : PageAddr) (cw f : Nat) : (s.markUnreadable a cw f).aside = s.aside := by
  unfold State.markUnreadable
  extract_lets s1
  split <;> rfl
theorem State.recoveryLog_aside (s : State) (r : Recovery) (outcome set : Nat) : (s.recoveryLog r outcome set).aside = s.aside :=
  s.mediaLog_aside _ _
theorem State.unrecovered_aside (s : State) (r : Recovery) : (s.unrecovered r).aside = s.aside := by
  unfold State.unrecovered
  exact (State.readersFail_aside ..).trans (ite_keep State.aside ((State.markUnreadable_aside ..).trans (State.recoveryLog_aside ..))
    (State.recoveryLog_aside ..))
theorem State.recoveryCancelled_aside (s : State) (r : Recovery) : (s.recoveryCancelled r).aside = s.aside := State.recoveryLog_aside ..
theorem State.startRebuild_aside (s : State) (r : Recovery) : (s.startRebuild r).aside = s.aside :=
  foldl_keep State.aside _ (fun s _ => s.enqueue_aside ..) _ _
theorem State.nextRecovery_aside (s : State) (r : Recovery) : (s.nextRecovery r).aside = s.aside := by
  unfold State.nextRecovery
  extract_lets spent budget sets
  split
  · exact State.enqueue_aside ..
  split
  · exact (State.readersFail_aside ..).trans (State.startRebuild_aside ..)
  · exact s.unrecovered_aside r
theorem State.startRecovery_aside (s : State) (a : PageAddr) (cw : Nat) (x : Reader) (rb : Bool) (found : Option Nat) :
    (s.startRecovery a cw x rb found).aside = s.aside := by
  unfold State.startRecovery
  split
  · exact ite_keep State.aside (State.readerFails_aside ..) rfl
  · cases found <;> exact State.nextRecovery_aside ..
theorem State.mateRead_aside (s : State) (a : PageAddr) (cw : Nat) (m : PageAddr) (ok : Bool) : (s.mateRead a cw m ok).aside = s.aside := by
  unfold State.mateRead
  split <;> rfl
theorem State.sourceFails_aside (s : State) (sb slot row : Nat) (planes : List Nat) (bad : Nat → Nat → Bool) (rb : Bool) (found : Option Nat) :
    (s.sourceFails sb slot row planes bad rb found).aside = s.aside := by
  unfold State.sourceFails
  split
  · rfl
  · exact foldl_keep State.aside _ (fun s p => foldl_keep State.aside _ (fun s w =>
      ite_keep State.aside (s.startRecovery_aside ..) rfl) _ _) _ _

/-! ### Rows -/

theorem State.defer_aside (s : State) (fn nsid slba nlb arrival : Nat) : (s.defer fn nsid slba nlb arrival).aside = s.aside := by
  unfold State.defer
  exact ite_keep State.aside ((State.raiseLog_aside ..).trans (State.mediaLog_aside s.newFault.2 _ _))
    ((State.raiseLog_aside ..).trans ((State.raiseLog_aside ..).trans (State.mediaLog_aside s.newFault.2 _ _)))
theorem State.deferAll_aside (s : State) (lost : List (Nat × Nat × Nat × Nat)) : (s.deferAll lost).aside = s.aside :=
  foldl_keep State.aside _ (fun _ _ => foldl_keep State.aside _ (fun u _ => u.defer_aside ..) _ _) _ _
theorem State.ackFlushes_aside (s : State) : s.ackFlushes.aside = s.aside := by
  refine foldl_keep State.aside _ (fun s p => ite_keep State.aside rfl ?_) _ _
  extract_lets s1
  split <;> exact State.complete_aside ..
theorem State.ackWriters_aside (s : State) (refs : List CmdRef) : (s.ackWriters refs).aside = s.aside :=
  foldl_keep State.aside _ (fun _ _ => ite_keep State.aside rfl (State.complete_aside ..)) _ _
theorem State.lookUp_aside (s : State) (fn nsid unit : Nat) : (s.lookUp fn nsid unit).aside = s.aside := by
  unfold State.lookUp
  split <;> rfl
theorem State.mapUnit_aside (s : State) (fn nsid unit sb page job : Nat) : (s.mapUnit fn nsid unit sb page job).aside = s.aside := by
  unfold State.mapUnit
  extract_lets newer s1
  refine ite_keep State.aside rfl ?_
  split <;> rfl
theorem State.modTenant_aside (s : State) (n : Nat) (f : Tenant → Tenant) : (s.modTenant n f).aside = s.aside := rfl
theorem State.modMedia_aside (s : State) {f : Media → Media} (h : ∀ m, (f m).channels = m.channels) : (s.modMedia f).aside = s.aside := by
  rw [State.aside, State.aside]
  exact congrArg (fun c => (c, s.ctrs, s.invocations, s.prot, s.peer, s.power, s.svc, s.now)) (h s.media)
theorem State.unitDone_aside (s : State) (job fn nsid unit sb page : Nat) : (s.unitDone job fn nsid unit sb page).aside = s.aside := by
  unfold State.unitDone
  extract_lets s1 mine refs lbas s2 s3
  have h1 : s1.aside = s.aside := (State.mapUnit_aside ..).trans (State.lookUp_aside ..)
  have h2 : s2.aside = s1.aside := s1.modMedia_aside fun _ => rfl
  have h3 : s3.aside = s2.aside := ite_keep State.aside (s2.modTenant_aside _ _) rfl
  exact (s3.ackWriters_aside refs).trans (h3.trans (h2.trans h1))
theorem State.unitFailed_aside (s : State) (job fn nsid unit : Nat) : (s.unitFailed job fn nsid unit).1.aside = s.aside := by
  unfold State.unitFailed
  extract_lets mine readOnly final dead s1 s2 s3
  have h1 : s1.aside = s.aside := s.modMedia_aside fun _ => rfl
  have h2 : s2.aside = s1.aside := by
    refine foldl_keep State.aside _ (fun u r => ?_) _ _
    extract_lets v
    exact (v.complete_aside r .writeFault 0 0).trans (u.modMedia_aside fun _ => rfl)
  have h3 : s3.aside = s2.aside := by
    refine ite_keep State.aside ?_ rfl
    exact (State.modTenant_aside ..).trans (State.mediaLog_aside s2.newFault.2 _ _)
  exact h3.trans (h2.trans h1)
theorem State.finishJob_aside (s : State) (j : RowJob) : (s.finishJob j).aside = s.aside := by
  unfold State.finishJob
  extract_lets s1
  split
  · rfl
  next b _ =>
  split
  · refine (State.ackFlushes_aside _).trans ((State.deferAll_aside ..).trans ?_)
    refine foldl_keep (fun acc : State × List (Nat × Nat × Nat × Nat) => acc.1.aside) _ (fun acc m => ?_) _ _
    dsimp only
    split
    · split
      · exact State.unitDone_aside ..
      · exact State.unitFailed_aside ..
    · rfl
  · rfl
  · exact ite_keep State.aside rfl (State.complete_aside ..)
  · rfl
theorem State.report_aside (s : State) (job slot : Nat) (planes : List Nat) (ok : Nat → Bool) : (s.report job slot planes ok).aside = s.aside := by
  unfold State.report
  split
  · rfl
  · extract_lets j s1
    exact ite_keep State.aside (State.finishJob_aside ..) rfl

/-! ### Dies that are cut -/

theorem State.cutOp_aside (s : State) (o : DieOp) (f : Nat) : (s.cutOp o f).aside = s.aside := by
  unfold State.cutOp
  split
  · split
    · exact State.complete_aside ..
    · rfl
    · exact foldl_keep State.aside _ (fun s cw => s.startRecovery_aside ..) _ _
  · exact State.mateRead_aside ..
  · exact State.sourceFails_aside ..
  · rfl
  · rfl
  · rfl
  · exact State.report_aside ..
  · rfl
  · exact State.completeOpt_aside ..
  · exact State.completeOpt_aside ..
theorem State.abortDirect_aside (s : State) (r : Recovery) (f : Nat) : (s.abortDirect r f).2.aside = s.aside :=
  foldl_keep State.aside _ (fun s _ => s.completeOpt_aside ..) _ _
theorem State.cutRecovery_aside (s : State) (r : Recovery) (f : Nat) : (s.cutRecovery r f).aside = s.aside := by
  have h := s.abortDirect_aside r f
  unfold State.cutRecovery
  exact ite_keep State.aside ((State.recoveryCancelled_aside ..).trans h) ((State.nextRecovery_aside ..).trans h)
theorem State.cutDie_aside (s : State) (c d f : Nat) : (s.cutDie c d f).aside = s.aside := by
  unfold State.cutDie
  extract_lets x ops s1 rs s2
  have h2 : s2.aside = s.aside := foldl_keep State.aside _ (fun s o => s.cutOp_aside o f) _ _
  refine (foldl_keep State.aside _ (fun s r => ?_) _ _).trans h2
  split
  · exact State.cutRecovery_aside ..
  · rfl

end Sys2Proof.Machine
end

section
/-!
PROOFS. Chapters 02 and 21: faults of the environment (O10).
-/

namespace Sys2Proof.Machine

open Sys2Proof.Safety

/-! ### The health page grows -/

/-- The health page loses no number, and the pins stay as they are. -/
structure State.Grows (s t : State) : Prop where
  seq : s.logs.c0.nextSeq ≤ t.logs.c0.nextSeq
  pins : t.pins = s.pins

theorem State.Grows.refl (s : State) : s.Grows s := ⟨le_rfl, rfl⟩
theorem State.Grows.trans {s t u : State} (h : s.Grows t) (k : t.Grows u) : s.Grows u := ⟨h.seq.trans k.seq, k.pins.trans h.pins⟩
theorem State.Grows.of_calm {s t : State} (h : t.calm = s.calm) : s.Grows t :=
  ⟨(congrArg (fun x : State => x.logs.c0.nextSeq) h).ge, (congrArg State.pins h :)⟩
theorem State.Grows.foldl {α : Type} {f : State → α → State} (h : ∀ (s : State) a, s.Grows (f s a)) (l : List α) (s : State) :
    s.Grows (l.foldl f s) := by
  induction l generalizing s with
  | nil => exact .refl s
  | cons a l ih => exact (h s a).trans (ih _)
theorem State.abortTest_grows (s : State) (r : Nat) : s.Grows (s.abortTest r) := by
  refine ⟨?_, (congrArg State.pins (s.abortTest_onlyReports r) :)⟩
  unfold State.abortTest State.endTest
  split
  · exact le_rfl
  · split
    · exact le_rfl
    · rw [State.health_c0_nextSeq]
      exact Nat.le_succ _
theorem State.dropNor_grows (s : State) (mine : NorJob → Bool) : s.Grows (s.dropNor mine) := by
  unfold State.dropNor State.norStart
  extract_lets q front t
  split
  · exact ⟨le_rfl, rfl⟩
  split <;> exact ⟨le_rfl, rfl⟩
theorem State.resetFunction_grows (s : State) (fn : Nat) (flr : Bool) : s.Grows (s.resetFunction fn flr) := by
  unfold State.resetFunction
  extract_lets f s1 s2 s3 s4 s5
  have h3 : s.Grows s3 := ⟨le_rfl, rfl⟩
  have h4 : s3.Grows s4 := State.Grows.trans (t := s3.dropReaders fun c => c.fn == fn) ⟨le_rfl, rfl⟩ (State.dropNor_grows ..)
  have h := h3.trans h4
  by_cases h0 : fn = 0
  · rw [if_pos h0]
    have h5 : s.Grows s5 := h.trans (s4.abortTest_grows 2)
    split
    · exact h5.trans ⟨le_rfl, rfl⟩
    · exact h5
  · rw [if_neg h0]
    exact h.trans (.of_calm (s4.resetTenant_calm _))
theorem State.hotReset_grows (s : State) : s.Grows s.hotReset := by
  unfold State.hotReset
  extract_lets vfs s1 s2
  have hc : ∀ (u : State) (n : Nat), u.Grows (u.cause n) := fun _ _ => ⟨le_rfl, rfl⟩
  have h1 : s.Grows s1 := (s.resetFunction_grows 0 true).trans (hc _ _)
  have h2 : s1.Grows s2 := by
    refine .foldl (fun u t => ?_) _ _
    exact (u.resetFunction_grows (t + 1) true).trans (hc _ _)
  clear_value s2
  exact (h1.trans h2).trans ⟨le_rfl, rfl⟩

/-! ### Pins and the link -/

section
variable {s : State} (hon : s.power.stage = .on)
include hon

theorem linkUp_spec (hr : s.power.railsUp = true) (hp : s.power.perst = false) {w : Nat} (hw : w ∈ [1, 2, 4, 8, 16]) (rate : Nat) :
    ∃ t, exec (.linkUp w rate) s = .next t ∧ t.power = { s.power with linkUp := true, linkWidth := w, linkRate := rate }
      ∧ t.logs.c0.nextSeq = s.logs.c0.nextSeq + (if w < 16 then 1 else 0) := by
  obtain ⟨u, hu⟩ : ∃ u : State, u = { s.modPower fun p => { p with linkUp := true, linkWidth := w, linkRate := rate } with
      pins := { s.pins with refclk := true } } := ⟨_, rfl⟩
  have hx : exec (.linkUp w rate) s = if w < 16 then .next (u.linkDegraded w rate) else .next u := by
    rw [hu]
    exact if_neg (by simp [hon, hr, hp]; simp at hw; omega)
  have hpow : u.power = { s.power with linkUp := true, linkWidth := w, linkRate := rate } := by rw [hu]; rfl
  have hseq : u.logs.c0.nextSeq = s.logs.c0.nextSeq := by rw [hu]; rfl
  by_cases h : w < 16
  · rw [if_pos h] at hx ⊢
    exact ⟨_, hx, (State.health_power ..).trans hpow, (State.health_c0_nextSeq ..).trans (congrArg (· + 1) hseq)⟩
  · rw [if_neg h] at hx ⊢
    exact ⟨_, hx, hpow, hseq⟩
theorem refclkLoss_spec : ∃ t, exec .refclkLoss s = .next t ∧ t.pins.refclk = false ∧ (s.power.linkUp = true → t.power.linkUp = false)
    ∧ t.logs.c0.nextSeq ≥ s.logs.c0.nextSeq + 1 := by
  obtain ⟨u, hu⟩ : ∃ u : State, u = { s with pins := { s.pins with refclk := false } } := ⟨_, rfl⟩
  obtain ⟨v, hv⟩ : ∃ v : State, v = if u.power.linkUp then u.hotReset else u := ⟨_, rfl⟩
  have hx : exec .refclkLoss s = .next (v.linkDegraded 0 0) := by
    rw [hv, hu]
    exact if_neg (not_not.mpr hon)
  have hg : u.Grows v := by
    rw [hv]
    split
    · exact u.hotReset_grows
    · exact .refl u
  have hpins : (v.linkDegraded 0 0).pins = v.pins := (congrArg State.pins (v.log_frame ..) :)
  refine ⟨_, hx, by rw [hpins, hg.pins, hu], fun hl => ?_, ?_⟩
  · have hl' : u.power.linkUp = true := by rw [hu]; exact hl
    have : v.power.linkUp = false := by
      rw [hv, if_pos hl']
      rfl
    exact (congrArg Power.linkUp (State.health_power ..) :).trans this
  · have := hg.seq
    rw [hu] at this
    exact (Nat.succ_le_succ this).trans (State.health_c0_nextSeq v _).ge

omit hon in
/-- A pin whose fault is entered in the health page. -/
theorem health_after {u : State} {p : Power} (hp : u.power = p) (hseq : u.logs.c0.nextSeq = s.logs.c0.nextSeq) (e : Health) :
    (u.health e).power = p ∧ (u.health e).pins = u.pins ∧ (u.health e).logs.c0.nextSeq = s.logs.c0.nextSeq + 1 :=
  ⟨(u.health_power e).trans hp, (congrArg State.pins (u.log_frame ..) :), (u.health_c0_nextSeq e).trans (congrArg (· + 1) hseq)⟩
theorem sidebandPinFault_smb : ∃ t, exec (.sidebandPinFault .smb) s = .next t ∧ t.power = { s.power with smbFault := true }
    ∧ t.pins.smbDriven = false ∧ t.logs.c0.nextSeq = s.logs.c0.nextSeq + 1 := by
  obtain ⟨h1, h2, h3⟩ := health_after (s := s) (u := { s.modPower fun p => { p with smbFault := true } with pins := { s.pins with smbDriven := false } })
    rfl rfl { event := 0x08, detail := bytesOfLe 4 (State.sideband _) }
  exact ⟨_, if_neg (by simp [hon]), h1, (congrArg Pins.smbDriven h2 :), h3⟩
theorem sidebandPinFault_led : ∃ t, exec (.sidebandPinFault .led) s = .next t ∧ t.power = { s.power with ledFault := true }
    ∧ t.pins.ledActDriven = false ∧ t.pins.ledFaultDriven = false ∧ t.logs.c0.nextSeq = s.logs.c0.nextSeq + 1 := by
  obtain ⟨h1, h2, h3⟩ := health_after (s := s) (u := { s.modPower fun p => { p with ledFault := true } with
    pins := { s.pins with ledActDriven := false, ledFaultDriven := false } }) rfl rfl { event := 0x08, detail := bytesOfLe 4 (State.sideband _) }
  exact ⟨_, if_neg (by simp [hon]), h1, (congrArg Pins.ledActDriven h2 :), (congrArg Pins.ledFaultDriven h2 :), h3⟩
theorem sidebandPinFault_smbAlert : ∃ t, exec (.sidebandPinFault .smbAlert) s = .next t ∧ t.power = { s.power with smbFault := true }
    ∧ t.pins.smbAlertFault = true ∧ t.logs.c0.nextSeq = s.logs.c0.nextSeq + 1 := by
  obtain ⟨h1, h2, h3⟩ := health_after (s := s) (u := { s.modPower fun p => { p with smbFault := true } with
    pins := { s.pins with smbAlertFault := true } }) rfl rfl { event := 0x08, detail := bytesOfLe 4 (State.sideband _) }
  exact ⟨_, if_neg (by simp [hon]), h1, (congrArg Pins.smbAlertFault h2 :), h3⟩
theorem sidebandPinFault_wake (hw : s.wakeAsserted = false) : ∃ t, exec (.sidebandPinFault .wake) s = .next t
    ∧ t.power = { s.power with wakeFault := true } ∧ t.pins = s.pins ∧ t.logs.c0.nextSeq = s.logs.c0.nextSeq + 1 := by
  obtain ⟨h1, h2, h3⟩ := health_after (s := s) (u := s.modPower fun p => { p with wakeFault := true }) rfl rfl
    { event := 0x08, detail := bytesOfLe 4 (State.sideband _) }
  exact ⟨_, if_neg (by simp [hon, hw]), h1, h2, h3⟩

/-! ### Cages -/

omit hon in
/-- The loss of a link changes its port, and is logged. -/
theorem State.linkLost_spec (s : State) (p : Nat) : (s.linkLost p).peer.cageOn = s.peer.cageOn
    ∧ (s.linkLost p).peer.ports.length = s.peer.ports.length ∧ s.logs.c5.nextSeq ≤ (s.linkLost p).logs.c5.nextSeq
    ∧ (s.linkLost p).power = s.power ∧ (s.linkLost p).peer.cable = s.peer.cable := by
  unfold State.linkLost
  extract_lets st
  split
  · obtain ⟨h1, -⟩ := (s.portDown p).peerLog_frame { kind := 2, port := p } false
    rw [h1]
    refine ⟨rfl, List.length_modify .., ?_, State.log_power .., rfl⟩
    exact (Nat.le_succ _).trans ((s.portDown p).log_nextSeq (page := 0xC5) (by simp) _ _ _ _).ge
  · exact ⟨rfl, rfl, le_rfl, rfl, rfl⟩
omit hon in
/-- A change of both ports of a cage. -/
theorem getD_cagePorts {l : List Port} (hl : l.length = 4) {cage : Nat} (hc : cage < 2) (f : Port → Port) {j : Nat} (hj : j < 2) :
    (l.zipIdx.map fun (x : Port × Nat) => if x.2 / 2 = cage then f x.1 else x.1).getD (2 * cage + j) {} = f (l.getD (2 * cage + j) {}) := by
  have h : 2 * cage + j < l.length := by omega
  simp [List.getD_eq_getElem?_getD, h, show (2 * cage + j) / 2 = cage by omega]

variable {cage : Nat} (hc : cage < 2) (hcage : s.peer.cageOn.getD cage false = true) (hports : s.peer.ports.length = 4)
include hc hcage hports

theorem cageEfuseTrip_spec (hlen : s.peer.cageOn.length = 2) : ∃ t, exec (.cageEfuseTrip cage) s = .next t
    ∧ t.peer.cageOn.getD cage true = false ∧ (t.port (2 * cage)).state = .off ∧ (t.port (2 * cage + 1)).state = .off
    ∧ t.logs.c5.nextSeq ≥ s.logs.c5.nextSeq + 1 ∧ t.power = s.power := by
  obtain ⟨ha1, ha2, ha3, ha4, -⟩ := s.linkLost_spec (2 * cage)
  obtain ⟨hb1, hb2, hb3, hb4, -⟩ := (s.linkLost (2 * cage)).linkLost_spec (2 * cage + 1)
  obtain ⟨u, hu⟩ : ∃ u, u = (s.linkLost (2 * cage)).linkLost (2 * cage + 1) := ⟨_, rfl⟩
  rw [← hu] at hb1 hb2 hb3 hb4
  obtain ⟨v, hv⟩ : ∃ v, v = u.modPeer fun p => { p with
      cageOn := p.cageOn.set cage false
      ports := p.ports.zipIdx.map fun (x : Port × Nat) =>
        if x.2 / 2 = cage then { x.1 with state := .off, heldCause := 0, paused := false, ingress := [] } else x.1 } := ⟨_, rfl⟩
  have hx : exec (.cageEfuseTrip cage) s = .next (v.peerLog { kind := 4, port := 2 * cage }) := by
    rw [hv, hu]
    exact if_neg (by rw [hcage]; simp [hon, hc])
  have hport (j : Nat) (hj : j < 2) : ((v.peerLog { kind := 4, port := 2 * cage }).port (2 * cage + j)).state = .off := by
    rw [State.peerLog_port, hv]
    exact congrArg Port.state (getD_cagePorts (by rw [hb2, ha2, hports]) hc
      (fun x => { x with state := .off, heldCause := 0, paused := false, ingress := [] }) hj)
  refine ⟨_, hx, ?_, hport 0 (by decide), hport 1 (by decide), ?_, ?_⟩
  · rw [(v.peerLog_frame _ _).1, hv]
    show (u.peer.cageOn.set cage false).getD cage true = false
    rw [hb1, ha1]
    simp [List.getD_eq_getElem?_getD, hlen, hc]
  · have h1 : v.logs = u.logs := by rw [hv]; rfl
    refine (Nat.succ_le_succ (ha3.trans hb3)).trans ?_
    rw [← h1]
    exact (v.log_nextSeq (page := 0xC5) (by simp) _ _ _ _).ge
  · refine (State.log_power ..).trans ?_
    rw [hv]
    exact hb4.trans ha4
theorem cablePresenceChange_spec (hlen : s.peer.cable.length = 2) : ∃ t, exec (.cablePresenceChange cage false true) s = .next t
    ∧ t.peer.cable.getD cage true = false ∧ (t.port (2 * cage)).state = .down ∧ (t.port (2 * cage + 1)).state = .down := by
  obtain ⟨w, hw⟩ : ∃ w, w = s.modPeer fun p => { p with cable := p.cable.set cage false } := ⟨_, rfl⟩
  obtain ⟨-, ha2, -, -, ha5⟩ := w.linkLost_spec (2 * cage)
  obtain ⟨-, hb2, -, -, hb5⟩ := (w.linkLost (2 * cage)).linkLost_spec (2 * cage + 1)
  obtain ⟨u, hu⟩ : ∃ u, u = (w.linkLost (2 * cage)).linkLost (2 * cage + 1) := ⟨_, rfl⟩
  rw [← hu] at hb2 hb5
  have hwp : w.peer.ports = s.peer.ports := by rw [hw]; rfl
  have hwc : w.peer.cable = s.peer.cable.set cage false := by rw [hw]; rfl
  have hx : exec (.cablePresenceChange cage false true) s = .next (u.modPeer fun p => { p with
      ports := p.ports.zipIdx.map fun (x : Port × Nat) => if x.2 / 2 = cage then { x.1 with state := .down } else x.1 }) := by
    rw [hu, hw]
    refine (if_neg (by simp [hon, hc])).trans ((if_neg ?_).trans rfl)
    show ¬(false || !(s.peer.cageOn.getD cage false)) = true
    rw [hcage]
    decide
  have hport (j : Nat) (hj : j < 2) := getD_cagePorts (l := u.peer.ports) (by rw [hb2, ha2, hwp, hports]) hc
    (fun x => { x with state := .down }) hj
  refine ⟨_, hx, ?_, congrArg Port.state (hport 0 (by decide)), congrArg Port.state (hport 1 (by decide))⟩
  show u.peer.cable.getD cage true = false
  rw [hb5, ha5, hwc]
  simp [List.getD_eq_getElem?_getD, hlen, hc]

end

/-! ### NAND rails -/

theorem State.isolateOn_channels (s : State) (c cause : Nat) : (s.isolateOn c cause).media.channels
    = s.media.channels.modify c fun x => { x with isolated := true, cause := cause, isolateFault := s.newFault.1 } := by
  have h : (s.isolateOn c cause).aside = (s.newFault.2.modChannel c fun x => { x with isolated := true, cause := cause, isolateFault := s.newFault.1 }).aside := by
    obtain ⟨u, hu⟩ : ∃ u, u = s.newFault.2.modChannel c fun x => { x with isolated := true, cause := cause, isolateFault := s.newFault.1 } := ⟨_, rfl⟩
    rw [← hu]
    obtain ⟨w, hw⟩ : ∃ w, w = (u.mediaLog { kind := 6, group := c / 8, channel := c, faultNo := s.newFault.1, detail := cause }).shellEdge c 7 :=
      ⟨_, rfl⟩
    have e : s.isolateOn c cause
        = ((List.range w.diesPerChannel).foldl (fun (v : State) d => v.cutDie c d s.newFault.1) w).judgeReadOnly (c / 8) := by
      rw [hw, hu]
      rfl
    rw [e]
    refine (State.judgeReadOnly_aside ..).trans ((foldl_keep State.aside _ (fun v d => v.cutDie_aside ..) _ _).trans ?_)
    rw [hw]
    exact State.mediaLog_aside ..
  exact (congrArg Prod.fst h :)
/-- A channel that is isolated stays so, and the one that is named becomes so. -/
theorem State.isolate_spec (s : State) (c cause : Nat) : (s.isolate c cause).media.channels.length = s.media.channels.length
    ∧ (c < s.media.channels.length → ((s.isolate c cause).channel c).isolated = true)
    ∧ ∀ d, (s.channel d).isolated = true → ((s.isolate c cause).channel d).isolated = true := by
  unfold State.isolate
  split
  · next h => exact ⟨rfl, fun _ => h, fun _ hd => hd⟩
  · have hch := s.isolateOn_channels c cause
    have hself (hc : c < s.media.channels.length) : ((s.isolateOn c cause).channel c).isolated = true := by
      rw [State.channel, hch]
      exact congrArg Channel.isolated (getD_modify_self _ _ _ _ hc)
    refine ⟨by rw [hch, List.length_modify], hself, fun d hd => ?_⟩
    by_cases hdc : d = c
    · subst hdc
      by_cases hl : d < s.media.channels.length
      · exact hself hl
      · rw [State.channel, hch, List.modify_eq_self (by omega)]
        exact hd
    · rw [State.channel, hch]
      exact (congrArg Channel.isolated (getD_modify_ne _ _ _ hdc)).trans hd
/-- The channels of a list, one after the other. -/
theorem State.isolates_spec (f : Nat → Nat) (cause : Nat) (l : List Nat) (s : State) :
    (∀ c ∈ l, f c < s.media.channels.length → ((l.foldl (fun (s : State) c => s.isolate (f c) cause) s).channel (f c)).isolated = true)
    ∧ ∀ d, (s.channel d).isolated = true → ((l.foldl (fun (s : State) c => s.isolate (f c) cause) s).channel d).isolated = true := by
  induction l generalizing s with
  | nil => exact ⟨fun _ h => absurd h List.not_mem_nil, fun _ h => h⟩
  | cons a l ih =>
    obtain ⟨hlen, hself, hkeep⟩ := s.isolate_spec (f a) cause
    obtain ⟨h1, h2⟩ := ih (s.isolate (f a) cause)
    refine ⟨fun c hc hl => ?_, fun d hd => h2 d (hkeep d hd)⟩
    obtain rfl | hc := List.mem_cons.mp hc
    · exact h2 _ (hself hl)
    · exact h1 c hc (by rw [hlen]; exact hl)
theorem nandRailTrip_spec {s : State} (hon : s.power.stage = .on) {g : Nat} (hg : g < 4) (hlen : s.media.channels.length = 32) :
    ∃ t, exec (.nandRailTrip g) s = .next t ∧ ∀ k, k < 8 → (t.channel (8 * g + k)).isolated = true := by
  obtain ⟨h1, -⟩ := State.isolates_spec (fun c => 8 * g + c) 3 (List.range 8) (s.modGroup g fun g => { g with railTripped := true })
  refine ⟨_, (s.whenOn_of hon _).trans (if_neg (by omega)), fun k hk => h1 k (List.mem_range.mpr hk) ?_⟩
  show 8 * g + k < s.media.channels.length
  omega

/-! ### The composite temperature -/

theorem temperatureThresholdCrossing_spec {s : State} (hon : s.power.stage = .on) {kelvin : Nat} (h1 : 273 ≤ kelvin) (h2 : kelvin ≤ 528) :
    ∃ t, exec (.temperatureThresholdCrossing kelvin) s = .next t ∧ t.power.tjMax = kelvin - 273 ∧ t.power.stage = .on
      ∧ ((s.ctrl 0).features.tempOver ≤ kelvin ∨ kelvin ≤ (s.ctrl 0).features.tempUnder → t.pcie.criticalWarning.getLsbD 1 = true)
      ∧ (kelvin < (s.ctrl 0).features.tempOver → (s.ctrl 0).features.tempUnder < kelvin → t.pcie.criticalWarning.getLsbD 1 = false) := by
  obtain ⟨u, hu⟩ : ∃ u, u = s.sense (kelvin - 273) s.power.coolantIn s.power.flowOk := ⟨_, rfl⟩
  have htj : u.power.tjMax = kelvin - 273 := by
    rw [hu]
    show min (kelvin - 273) 255 = _
    omega
  have hk : u.kelvin = kelvin := by
    rw [State.kelvin, htj]
    omega
  have hsense : ∀ a b c, (s.sense a b c).ctrl 0 = s.ctrl 0 ∧ (s.sense a b c).power.stage = s.power.stage := fun _ _ _ => ⟨rfl, rfl⟩
  have hctrl : u.ctrl 0 = s.ctrl 0 := by rw [hu]; exact (hsense ..).1
  have hstage : u.power.stage = .on := by rw [hu]; exact (hsense ..).2.trans hon
  obtain ⟨v, hv, hx⟩ : ∃ v : State, v.power = u.power ∧ exec (.temperatureThresholdCrossing kelvin) s = .next (v.modPcie fun p => { p with
      overTemp := decide (u.kelvin ≥ (u.ctrl 0).features.tempOver) || decide (u.kelvin ≤ (u.ctrl 0).features.tempUnder)
      criticalWarning := if decide (u.kelvin ≥ (u.ctrl 0).features.tempOver) || decide (u.kelvin ≤ (u.ctrl 0).features.tempUnder)
        then p.criticalWarning ||| 2#8 else p.criticalWarning &&& 0xFD#8 }) := by
    refine ⟨(List.range 17).foldl (fun (t : State) fn => if (t.ctrl fn).ready
      && (decide (u.kelvin ≥ (u.ctrl fn).features.tempOver) || decide (u.kelvin ≤ (u.ctrl fn).features.tempUnder))
      then t.raiseSmart fn 1 1 else t) u, ?_, ?_⟩
    rotate_left
    · subst hu
      exact if_neg (not_not.mpr hon)
    · refine foldl_keep State.power _ (fun w fn => ite_keep State.power ?_ rfl) _ _
      have hr : ∀ (w : State) (fn i m : Nat), (w.raiseSmart fn i m).aside = w.aside := fun w fn i m =>
        ite_keep State.aside (State.raise_aside ..) rfl
      exact congrArg (fun x : List Channel × CtrPool × List Invocation × MemProt × Peer × Power × Service × Nat => x.2.2.2.2.2.1)
        (hr w fn 1 1)
  rw [hk, hctrl] at hx
  refine ⟨_, hx, ?_, ?_, fun h => ?_, fun ho hl => ?_⟩
  · show v.power.tjMax = _
    rw [hv, htj]
  · show v.power.stage = _
    rw [hv, hstage]
  · have hany : (decide (kelvin ≥ (s.ctrl 0).features.tempOver) || decide (kelvin ≤ (s.ctrl 0).features.tempUnder)) = true := by simpa using h
    rw [hany]
    show (v.pcie.criticalWarning ||| 2#8).getLsbD 1 = true
    rw [BitVec.getLsbD_or, show (2#8).getLsbD 1 = true from rfl, Bool.or_true]
  · have hany : (decide (kelvin ≥ (s.ctrl 0).features.tempOver) || decide (kelvin ≤ (s.ctrl 0).features.tempUnder)) = false := by simpa using ⟨ho, hl⟩
    rw [hany]
    show (v.pcie.criticalWarning &&& 0xFD#8).getLsbD 1 = false
    rw [BitVec.getLsbD_and, show (0xFD#8).getLsbD 1 = false from rfl, Bool.and_false]

/-- Settles O10: each fault by its lemma. -/
theorem environmentFaults : Obligations.EnvironmentFaults := by
  unfold Obligations.EnvironmentFaults
  intro s hon
  exact ⟨fun hr hp w rate hw => linkUp_spec hon hr hp hw rate, refclkLoss_spec hon, sidebandPinFault_smb hon, sidebandPinFault_led hon,
    sidebandPinFault_smbAlert hon, sidebandPinFault_wake hon, fun hw => if_pos (by simp [hw]),
    fun cage hc hcage hlen hports => cageEfuseTrip_spec hon hc hcage hports hlen,
    fun cage hc hcage hlen hports => cablePresenceChange_spec hon hc hcage hports hlen,
    fun g hg hlen => nandRailTrip_spec hon hg hlen, fun kelvin h1 h2 => temperatureThresholdCrossing_spec hon h1 h2⟩

end Sys2Proof.Machine
end

section
/-!
PROOFS. Chapter 02: the phases of a power loss (O3).
-/

namespace Sys2Proof.Machine

open Sys2Proof.Safety

/-! ### A row covers the slots of its superblock -/

theorem dataSlots_length {b : Superblock} (hn : b.slots.Nodup) (h2 : 2 ≤ b.slots.length) (row : Nat) : (b.data row).length = b.d := by
  have hlt : ∀ i, i % b.slots.length < b.slots.length := fun i => Nat.mod_lt _ (by omega)
  have hget : ∀ i (hi : i < b.slots.length), b.slots.getD i 0 = b.slots[i] := fun i hi => by simp [List.getD_eq_getElem?_getD, hi]
  have hq1 : (b.parity row).1 = b.slots[2 * row % b.slots.length]'(hlt _) := hget _ _
  have hq2 : (b.parity row).2 = b.slots[(2 * row + 1) % b.slots.length]'(hlt _) := hget _ _
  have hne : (b.parity row).1 ≠ (b.parity row).2 := by
    rw [hq1, hq2]
    intro hc
    have hi := (List.Nodup.getElem_inj_iff hn).mp hc
    have := Nat.div_add_mod (2 * row) b.slots.length
    have h1 := Nat.div_add_mod (2 * row + 1) b.slots.length
    rw [← hi] at h1
    have hdvd : b.slots.length ∣ 1 := by
      have := (Nat.modEq_iff_dvd' (n := b.slots.length) (Nat.le_succ (2 * row))).mp hi
      simpa using this
    have := Nat.le_of_dvd one_pos hdvd
    omega
  have hdata : b.data row = (b.slots.erase (b.parity row).1).erase (b.parity row).2 := by
    rw [Superblock.data, hn.erase_eq_filter, (hn.filter _).erase_eq_filter, List.filter_filter]
    refine List.filter_congr fun k _ => ?_
    exact Bool.and_comm _ _
  rw [hdata, List.length_erase_of_mem, List.length_erase_of_mem, Superblock.d, dataSlots]
  · omega
  · rw [hq1]
    exact List.getElem_mem _
  · rw [List.mem_erase_of_ne hne.symm, hq2]
    exact List.getElem_mem _
theorem rowMembers_covers {b : Superblock} (hn : b.slots.Nodup) (h2 : 2 ≤ b.slots.length) (row : Nat) (items : List (Item × List Byte))
    {k p : Nat} (hk : k ∈ b.slots) (hp : p < 4) : ∃ m ∈ rowMembers b row items, m.slot = k ∧ m.plane = p := by
  unfold rowMembers
  extract_lets ds d zeros page q
  by_cases h : k ∈ ds
  · obtain ⟨i, hi, rfl⟩ := List.getElem_of_mem h
    have hid : i < d := by
      rw [← show ds.length = d from dataSlots_length hn h2 row]
      exact hi
    refine ⟨_, List.mem_flatMap.mpr ⟨p, List.mem_range.mpr hp, List.mem_append_left _ (List.mem_map.mpr
      ⟨(page i p, i), List.mem_zipIdx_iff_getElem?.mpr ?_, rfl⟩)⟩, ?_, rfl⟩
    · simp [hid]
    · simp [List.getD_eq_getElem?_getD, hi]
  · have hq : k = q.1 ∨ k = q.2 := by
      by_contra hc
      rw [not_or] at hc
      exact h (List.mem_filter.mpr ⟨hk, by simpa using hc⟩)
    obtain rfl | rfl := hq
    · exact ⟨_, List.mem_flatMap.mpr ⟨p, List.mem_range.mpr hp, List.mem_append_right _ List.mem_cons_self⟩, rfl, rfl⟩
    · exact ⟨_, List.mem_flatMap.mpr ⟨p, List.mem_range.mpr hp, List.mem_append_right _ (List.mem_cons_of_mem _ List.mem_cons_self)⟩, rfl, rfl⟩

/-! ### Pages, and what stays of another group -/

/-- A page is programmed. -/
def State.hasPage (s : State) (a : PageAddr) : Prop := ∃ z ∈ s.media.pages, z.addr = a
/-- A page programmed. -/
def State.putPage (s : State) (a : PageAddr) (raw : Region) : State :=
  s.modMedia fun y => { y with pages := { addr := a, raw := raw } :: y.pages.filter (·.addr != a) }

theorem State.hasPage_putPage (s : State) (a : PageAddr) (raw : Region) : (s.putPage a raw).hasPage a := ⟨_, List.mem_cons_self, rfl⟩
theorem State.hasPage.putPage {s : State} {a : PageAddr} (h : s.hasPage a) (c : PageAddr) (raw : Region) : (s.putPage c raw).hasPage a := by
  by_cases hc : a = c
  · subst hc
    exact s.hasPage_putPage a raw
  · obtain ⟨z, hz, rfl⟩ := h
    exact ⟨z, List.mem_cons_of_mem _ (List.mem_filter.mpr ⟨hz, by simpa using hc⟩), rfl⟩

/-- The work of one group leaves another as it is: its record, its dies, and the pages on them. -/
structure State.Leaves (g : Nat) (s t : State) : Prop where
  frame : { t with media := s.media, free := s.free } = s
  channels : t.media.channels = s.media.channels
  dies : t.media.dies = s.media.dies
  length : t.media.groups.length = s.media.groups.length
  group : t.media.groups.getD g {} = s.media.groups.getD g {}
  pages : ∀ a : PageAddr, a.channel / 8 = g → s.hasPage a → t.hasPage a

theorem State.Leaves.refl (g : Nat) (s : State) : s.Leaves g s := ⟨rfl, rfl, rfl, rfl, rfl, fun _ _ h => h⟩
theorem State.Leaves.trans {g : Nat} {s t u : State} (h : s.Leaves g t) (k : t.Leaves g u) : s.Leaves g u := by
  refine ⟨?_, k.channels.trans h.channels, k.dies.trans h.dies, k.length.trans h.length, k.group.trans h.group,
    fun a ha hp => k.pages a ha (h.pages a ha hp)⟩
  rw [← h.frame]
  conv_rhs => rw [← k.frame]

section
variable {g g' : Nat} (hne : g' ≠ g)

theorem State.modGroup_leaves (hne : g' ≠ g) (s : State) (f : Group → Group) : s.Leaves g (s.modGroup g' f) :=
  ⟨rfl, rfl, rfl, List.length_modify .., getD_modify_ne _ _ _ hne.symm, fun _ _ h => h⟩
theorem State.putPage_leaves (g : Nat) (s : State) (a : PageAddr) (raw : Region) : s.Leaves g (s.putPage a raw) :=
  ⟨rfl, rfl, rfl, rfl, rfl, fun _ _ h => h.putPage a raw⟩
theorem State.Leaves.foldl {g : Nat} {α : Type} {f : State → α → State} (h : ∀ (s : State) a, s.Leaves g (f s a)) (l : List α) (s : State) :
    s.Leaves g (l.foldl f s) := by
  induction l generalizing s with
  | nil => exact .refl g s
  | cons a l ih => exact (h s a).trans (ih _)
theorem slotPlace_group (g j : Nat) {k : Nat} : (slotPlace g j k).1 / 8 = g := by
  show (8 * g + k % 8) / 8 = g
  omega
theorem State.openSuperblock_leaves (g : Nat) {s t : State} {g' j : Nat} {use : SbUse} {most : Bool} {b : Superblock}
    (h : s.openSuperblock g' j use most = some (b, t)) : s.Leaves g t := by
  unfold State.openSuperblock at h
  extract_lets slots at h
  split at h
  · cases h
  split at h
  · cases h
  · cases h
    exact ⟨rfl, rfl, rfl, rfl, rfl, fun _ _ h => h⟩
theorem State.advance_leaves (g : Nat) (s : State) (id : Nat) : s.Leaves g (s.advance id) := ⟨rfl, rfl, rfl, rfl, rfl, fun _ _ h => h⟩
include hne
theorem State.eraseBlock_leaves (s : State) (a : BlockAddr) (ha : a.channel / 8 = g') : s.Leaves g (s.eraseBlock a) := by
  refine ⟨rfl, rfl, rfl, rfl, rfl, fun c hc => ?_⟩
  rintro ⟨z, hz, rfl⟩
  refine ⟨z, List.mem_filter.mpr ⟨hz, ?_⟩, rfl⟩
  have : z.addr.channel ≠ a.channel := by
    rintro he
    rw [he, ha] at hc
    exact hne hc
  simp [this]
theorem State.turnMetadata_leaves (s : State) : s.Leaves g (s.turnMetadata g') := by
  unfold State.turnMetadata
  extract_lets next t
  have ht : s.Leaves g t := .foldl (fun u k => .foldl (fun v p => v.eraseBlock_leaves hne _ (slotPlace_group g' 0)) _ _) _ _
  exact ht.trans (State.modGroup_leaves hne _ _)
theorem State.programTail_leaves (s : State) : s.Leaves g (s.programTail g') := by
  unfold State.programTail
  split
  · exact .refl g s
  next j _ =>
  extract_lets x1 s1 x2 slots b0 place
  have h1 : s.Leaves g s1 := by
    by_cases hc : (decide (j = 0) && decide (x1.metaRow ≥ s.pagesPerBlock)) = true
    · rw [show s1 = _ from if_pos hc]
      exact s.turnMetadata_leaves hne
    · rw [show s1 = _ from if_neg hc]
      exact .refl g s
  have hplace : ∀ b u, place = some (b, u) → s1.Leaves g u := by
    intro b u hp
    by_cases hj : j = 0
    · obtain ⟨-, rfl⟩ := Prod.mk.inj (Option.some.inj ((show place = _ from if_pos hj).symm.trans hp))
      exact State.modGroup_leaves hne _ _
    · rw [show place = _ from if_neg hj, Option.map_eq_some_iff] at hp
      obtain ⟨⟨b', v⟩, hv, he⟩ := hp
      obtain ⟨-, rfl⟩ := Prod.mk.inj he
      exact (State.openSuperblock_leaves g hv).trans (v.advance_leaves g _)
  clear_value place s1
  split
  · exact h1
  next b u =>
  extract_lets n items s2 s3
  have h2 : u.Leaves g s2 := ⟨rfl, rfl, rfl, rfl, rfl, fun _ _ h => h⟩
  have h3 : s2.Leaves g s3 := by
    clear_value items s2
    refine .foldl (fun v m => ?_) _ _
    exact v.putPage_leaves g (b.page m.slot m.plane b.nextRow) m.content
  clear_value s3
  exact h1.trans ((hplace b u rfl).trans (h2.trans (h3.trans (State.modGroup_leaves hne _ _))))

end

/-! ### The tail of a group whose set 0 has 8 live slots -/

/-- The state with room in the metadata superblock of a group. -/
def State.withRoom (s : State) (g : Nat) : State :=
  if decide ((s.media.groups.getD g {}).metaRow ≥ s.pagesPerBlock) = true then s.turnMetadata g else s
/-- The metadata superblock that takes the tail. -/
def State.metaBlockOf (s : State) (g : Nat) : Superblock :=
  { id := 0, group := g, set := 0, use := .metadata, slots := s.liveSlots g 0
    blocks := List.replicate (4 * (s.liveSlots g 0).length) (s.media.groups.getD g {}).metaBlock
    nextRow := (s.media.groups.getD g {}).metaRow }
/-- A row of pages programmed. -/
def State.putRow (s : State) (b : Superblock) (items : List (Item × List Byte)) : State :=
  (rowMembers b b.nextRow items).foldl (fun (v : State) m => v.putPage (b.page m.slot m.plane b.nextRow) m.content) s

theorem State.programTail_eq {s : State} {g : Nat} (h8 : 8 ≤ (s.liveSlots g 0).length) : ∃ items n, s.programTail g
    = (State.putRow { (s.withRoom g).modGroup g fun y => { y with metaRow := y.metaRow + 1 } with free := n } ((s.withRoom g).metaBlockOf g)
        items).modGroup g fun y => { y with metaTail := y.journalTail } := by
  have hfind : (List.range s.setsPerGroup).find? (fun j => decide ((s.liveSlots g j).length ≥ 8)) = some 0 := by
    refine List.find?_range_eq_some.mpr ⟨decide_eq_true h8, List.mem_range.mpr ?_, fun j hj => absurd hj (Nat.not_lt_zero j)⟩
    unfold State.setsPerGroup
    split <;> omega
  unfold State.programTail
  rw [hfind]
  exact ⟨_, _, rfl⟩
theorem State.putRow_groups (s : State) (b : Superblock) (items : List (Item × List Byte)) : (s.putRow b items).media.groups = s.media.groups :=
  foldl_keep (fun t : State => t.media.groups) _ (fun v (m : Member) => (rfl : (v.putPage (b.page m.slot m.plane b.nextRow) m.content).media.groups = _)) _ _
theorem State.putRow_hasPage (s : State) (b : Superblock) (items : List (Item × List Byte)) {m : Member}
    (hm : m ∈ rowMembers b b.nextRow items) : (s.putRow b items).hasPage (b.page m.slot m.plane b.nextRow) := by
  have hkeep : ∀ (l : List Member) (t : State) (a : PageAddr), t.hasPage a →
      (l.foldl (fun (v : State) m => v.putPage (b.page m.slot m.plane b.nextRow) m.content) t).hasPage a := by
    intro l
    induction l with
    | nil => exact fun _ _ h => h
    | cons m l ih => exact fun t a h => ih _ _ (h.putPage _ _)
  have hall : ∀ (l : List Member) (t : State), m ∈ l →
      (l.foldl (fun (v : State) m => v.putPage (b.page m.slot m.plane b.nextRow) m.content) t).hasPage (b.page m.slot m.plane b.nextRow) := by
    intro l
    induction l with
    | nil => exact fun _ h => absurd h List.not_mem_nil
    | cons m' l ih =>
      intro t h
      obtain rfl | h := List.mem_cons.mp h
      · exact hkeep l _ _ (t.hasPage_putPage _ _)
      · exact ih _ h
  exact hall _ _ hm
theorem State.liveSlots_nodup (s : State) (g j : Nat) : (s.liveSlots g j).Nodup := List.nodup_range.filter _
theorem State.withRoom_group {s : State} {g : Nat} (hg : g < s.media.groups.length) :
    (s.withRoom g).media.groups.length = s.media.groups.length
      ∧ ((s.withRoom g).media.groups.getD g {}).journalTail = (s.media.groups.getD g {}).journalTail := by
  unfold State.withRoom State.turnMetadata
  split
  · extract_lets next t
    have ht : t.media.groups = s.media.groups := by
      refine foldl_keep (fun t : State => t.media.groups) _ (fun u k => ?_) _ _
      refine foldl_keep (fun t : State => t.media.groups) _ (fun v p => ?_) _ _
      rfl
    clear_value t
    have hg' : g < t.media.groups.length := by rw [ht]; exact hg
    refine ⟨(List.length_modify ..).trans (congrArg List.length ht), ?_⟩
    refine (congrArg Group.journalTail (getD_modify_self _ _ _ _ hg')).trans ?_
    rw [ht]
  · exact ⟨rfl, rfl⟩
/-- The page of the next metadata row on a slot and plane. -/
def State.tailPage (s : State) (g k p : Nat) : PageAddr :=
  { channel := (slotPlace g 0 k).1, die := (slotPlace g 0 k).2, plane := p
    block := (s.media.groups.getD g {}).metaBlock, page := (s.media.groups.getD g {}).metaRow }
/-- The group's record after its row. -/
theorem State.putRow_group {w : State} {g : Nat} (hg : g < w.media.groups.length) (b : Superblock) (items : List (Item × List Byte)) (n : Nat) :
    (((State.putRow { w.modGroup g fun y => { y with metaRow := y.metaRow + 1 } with free := n } b items).modGroup g
        fun y => { y with metaTail := y.journalTail }).media.groups.getD g {})
      = { w.media.groups.getD g {} with
        metaRow := (w.media.groups.getD g {}).metaRow + 1
        metaTail := (w.media.groups.getD g {}).journalTail } := by
  obtain ⟨u, hu⟩ : ∃ u : State, u = { w.modGroup g fun y => { y with metaRow := y.metaRow + 1 } with free := n } := ⟨_, rfl⟩
  have hug : u.media.groups = w.media.groups.modify g fun y => { y with metaRow := y.metaRow + 1 } := by rw [hu]; rfl
  rw [← hu]
  have hv : (u.putRow b items).media.groups = w.media.groups.modify g fun y => { y with metaRow := y.metaRow + 1 } :=
    (u.putRow_groups b items).trans hug
  generalize u.putRow b items = v at hv
  show (v.media.groups.modify g _).getD g {} = _
  rw [hv, getD_modify_self _ _ _ _ (by rw [List.length_modify]; exact hg), getD_modify_self _ _ _ _ hg]
/-- The pages of the metadata superblock's next row. -/
theorem State.metaBlockOf_page {s : State} {g k p : Nat} (hk : k ∈ s.liveSlots g 0) (hp : p < 4) :
    (s.metaBlockOf g).page k p (s.metaBlockOf g).nextRow = s.tailPage g k p := by
  have hi : 4 * (s.liveSlots g 0).idxOf k + p < 4 * (s.liveSlots g 0).length := by
    have := List.idxOf_lt_length_of_mem hk
    omega
  have hb : (List.replicate (4 * (s.liveSlots g 0).length) (s.media.groups.getD g {}).metaBlock).getD (4 * (s.liveSlots g 0).idxOf k + p) 0
      = (s.media.groups.getD g {}).metaBlock := by
    rw [List.getD_eq_getElem?_getD, List.getElem?_replicate_of_lt hi]
    rfl
  exact congrArg (fun x => PageAddr.mk (slotPlace g 0 k).1 (slotPlace g 0 k).2 p x (s.media.groups.getD g {}).metaRow) hb
/-- The tail of the journal is in a row of the metadata superblock. -/
theorem State.programTail_self {s : State} {g : Nat} (hg : g < s.media.groups.length) (h8 : 8 ≤ (s.liveSlots g 0).length) :
    ((s.programTail g).media.groups.getD g {}).metaTail = (s.media.groups.getD g {}).journalTail
    ∧ ((s.media.groups.getD g {}).metaRow < s.pagesPerBlock →
      ((s.programTail g).media.groups.getD g {}).metaRow = (s.media.groups.getD g {}).metaRow + 1
      ∧ ((s.programTail g).media.groups.getD g {}).metaBlock = (s.media.groups.getD g {}).metaBlock
      ∧ ∀ k ∈ s.liveSlots g 0, ∀ p, p < 4 → (s.programTail g).hasPage (s.tailPage g k p)) := by
  obtain ⟨items, n, he⟩ := State.programTail_eq h8
  obtain ⟨hlen, hjournal⟩ := State.withRoom_group hg
  have hgroup := State.putRow_group (hlen.symm ▸ hg) ((s.withRoom g).metaBlockOf g) items n
  rw [← he] at hgroup
  refine ⟨by rw [hgroup]; exact hjournal, fun hrow => ?_⟩
  have hroom : s.withRoom g = s := if_neg (by simpa using hrow)
  rw [hroom] at he hgroup
  refine ⟨by rw [hgroup], by rw [hgroup], fun k hk p hp => ?_⟩
  obtain ⟨m, hm, rfl, rfl⟩ := rowMembers_covers (b := s.metaBlockOf g) (s.liveSlots_nodup g 0) (show 2 ≤ (s.liveSlots g 0).length by omega)
    (s.metaBlockOf g).nextRow items hk hp
  have hkeep : ∀ (v : State) (f : Group → Group) (a : PageAddr), v.hasPage a → (v.modGroup g f).hasPage a := fun _ _ _ h => h
  rw [← State.metaBlockOf_page hk hp, he]
  exact hkeep _ _ _ (State.putRow_hasPage _ _ _ hm)

/-! ### The tails of all groups -/

section
variable {g : Nat} {s t : State} (h : s.Leaves g t)
include h

theorem State.Leaves.big : t.big = s.big := (congrArg State.big h.frame :)
theorem State.Leaves.liveSlots (i j : Nat) : t.liveSlots i j = s.liveSlots i j := by
  have hl : ∀ c d, t.dieLive c d = s.dieLive c d := fun c d => by
    rw [State.dieLive, State.die, State.channel, h.dies, h.channels]
    rfl
  simp only [State.liveSlots, hl]
theorem State.Leaves.pagesPerBlock : t.pagesPerBlock = s.pagesPerBlock := by rw [State.pagesPerBlock, h.big, State.pagesPerBlock]
theorem State.Leaves.tailPage (k p : Nat) : t.tailPage g k p = s.tailPage g k p := by rw [State.tailPage, h.group, State.tailPage]

end

theorem State.tails_leave {g : Nat} (l : List Nat) (hl : g ∉ l) (s : State) : s.Leaves g (l.foldl (fun (s : State) g => s.programTail g) s) := by
  induction l generalizing s with
  | nil => exact .refl g s
  | cons a l ih =>
    rw [List.mem_cons, not_or] at hl
    exact (s.programTail_leaves (Ne.symm hl.1)).trans (ih hl.2 _)
/-- Every group has its tail programmed, whatever the others do. -/
theorem State.tails_self {g : Nat} (hg : g < 4) (s : State) (hlen : s.media.groups.length = 4) (h8 : 8 ≤ (s.liveSlots g 0).length) :
    let t := (List.range 4).foldl (fun (s : State) g => s.programTail g) s
    (t.media.groups.getD g {}).metaTail = (s.media.groups.getD g {}).journalTail
    ∧ ((s.media.groups.getD g {}).metaRow < s.pagesPerBlock →
      (t.media.groups.getD g {}).metaRow = (s.media.groups.getD g {}).metaRow + 1
      ∧ (t.media.groups.getD g {}).metaBlock = (s.media.groups.getD g {}).metaBlock
      ∧ ∀ k ∈ s.liveSlots g 0, ∀ p, p < 4 → t.hasPage (s.tailPage g k p)) := by
  intro t
  obtain ⟨l, m, hlm, hl, hm⟩ : ∃ l m, List.range 4 = l ++ g :: m ∧ g ∉ l ∧ g ∉ m := by
    obtain ⟨l, m, h⟩ := List.append_of_mem (List.mem_range.mpr hg)
    have hn : (l ++ g :: m).Nodup := h ▸ List.nodup_range
    rw [List.nodup_append, List.nodup_cons] at hn
    exact ⟨l, m, h, fun hc => hn.2.2 _ hc _ List.mem_cons_self rfl, hn.2.1.1⟩
  obtain ⟨u, hu⟩ : ∃ u, u = l.foldl (fun (s : State) g => s.programTail g) s := ⟨_, rfl⟩
  have h1 : s.Leaves g u := hu ▸ State.tails_leave l hl s
  have h2 : (u.programTail g).Leaves g t := by
    have ht : t = m.foldl (fun (s : State) g => s.programTail g) (u.programTail g) := by
      show (List.range 4).foldl _ s = _
      rw [hlm, List.foldl_append, List.foldl_cons, hu]
    rw [ht]
    exact State.tails_leave m hm _
  obtain ⟨htail, hrow⟩ := State.programTail_self (s := u) (g := g) (by rw [h1.length, hlen]; exact hg) (by rw [h1.liveSlots]; exact h8)
  rw [h1.group, h1.pagesPerBlock] at hrow
  rw [h1.group] at htail
  rw [h2.group]
  refine ⟨htail, fun hr => ?_⟩
  obtain ⟨hr1, hr2, hr3⟩ := hrow hr
  refine ⟨hr1, hr2, fun k hk p hp => h2.pages _ (slotPlace_group g 0) ?_⟩
  rw [← h1.tailPage]
  exact hr3 k (by rw [h1.liveSlots]; exact hk) p hp

/-! ### The phases -/

section
variable {s : State}

theorem p2Flush_spec (hs : s.power.stage = .shed) (failed : List (Nat × Nat)) : ∃ t, exec (.p2Flush failed) s = .next t ∧ t.power.stage = .flushed
    ∧ t.power.resetCause = s.power.resetCause ∧ { t with power := s.power, media := s.media } = s := by
  have hflush : ∀ u : State, u.power.resetCause = s.power.resetCause → { u with power := s.power, media := s.media } = s →
      ((u.flushAll failed).modPower fun p => { p with stage := .flushed }).power.resetCause = s.power.resetCause
        ∧ { (u.flushAll failed).modPower fun p => { p with stage := .flushed } with power := s.power, media := s.media } = s := by
    intro u hc hu
    have hf := u.flushAll_sansMedia failed
    generalize u.flushAll failed = v at hf ⊢
    refine ⟨(congrArg (fun x : State => x.power.resetCause) hf :).trans hc, ?_⟩
    exact (congrArg (fun x : State => { x with power := s.power, media := s.media }) hf :).trans hu
  have hx : exec (.p2Flush failed) s = .next (((if s.power.trippedRail = some .core ∨ s.power.trippedRail = some .mem then
      (s.modPower fun p => { p with lostBlocks := p.lostBlocks + s.dirtyBlocks }).modMedia fun m => { m with buffer := [] }
      else s).flushAll failed).modPower fun p => { p with stage := .flushed }) := by
    refine (if_neg (not_not.mpr hs)).trans ?_
    generalize s.power.trippedRail = r
    obtain _ | r := r
    · rfl
    · cases r <;> rfl
  refine ⟨_, hx, rfl, ?_⟩
  split
  · exact hflush _ rfl rfl
  · exact hflush _ rfl rfl
theorem p3Metadata_spec (hs : s.power.stage = .flushed) : ∃ t, exec .p3Metadata s = .next t ∧ t.power = { s.power with stage := .saved }
    ∧ t.svc = { s.svc with nor := { s.svc.nor with savedTime := s.now } }
    ∧ { t with power := s.power, svc := s.svc, media := s.media, free := s.free } = s
    ∧ (s.power.trippedRail = some .core ∨ s.power.trippedRail = some .mem → t.media = s.media)
    ∧ (s.power.trippedRail ≠ some .core → s.power.trippedRail ≠ some .mem →
      t.media = ((List.range 4).foldl (fun (s : State) g => s.programTail g) s).media) := by
  obtain ⟨u, hu⟩ : ∃ u, u = (List.range 4).foldl (fun (s : State) g => s.programTail g) s := ⟨_, rfl⟩
  have hframe : { u with media := s.media, free := s.free } = s := hu ▸ (State.tails_leave (g := 4) (List.range 4) (by simp) s).frame
  have hx : exec .p3Metadata s = .next (((if s.power.trippedRail = some .core ∨ s.power.trippedRail = some .mem then s else u).modNor
      fun n => { n with savedTime := (if s.power.trippedRail = some .core ∨ s.power.trippedRail = some .mem then s else u).now }).modPower
        fun p => { p with stage := .saved }) := by
    rw [hu]
    refine (if_neg (not_not.mpr hs)).trans ?_
    generalize s.power.trippedRail = r
    obtain _ | r := r
    · rfl
    · cases r <;> rfl
  refine ⟨_, hx, ?_⟩
  rw [← hu]
  by_cases hr : s.power.trippedRail = some .core ∨ s.power.trippedRail = some .mem
  · rw [if_pos hr]
    exact ⟨rfl, rfl, rfl, fun _ => rfl, fun h1 h2 => absurd hr (not_or.mpr ⟨h1, h2⟩)⟩
  · rw [if_neg hr]
    refine ⟨?_, ?_, (congrArg (fun x : State => { x with power := s.power, svc := s.svc }) hframe :), fun h => absurd h hr, fun _ _ => rfl⟩
    · exact congrArg (fun p : Power => { p with stage := .saved }) (congrArg State.power hframe :)
    · have h1 : u.svc = s.svc := (congrArg State.svc hframe :)
      have h2 : u.now = s.now := (congrArg State.now hframe :)
      show { u.svc with nor := { u.svc.nor with savedTime := u.now } } = _
      rw [h1, h2]
theorem p4RailsDown_spec (hs : s.power.stage = .saved) (v : Nat) :
    (s.power.holdOff = true ∨ s.power.pwrdis = true ∨ v < 4200 ∨ (6000 < v ∧ s.power.trigger ≠ some .pwrdis) →
      ∃ t, exec (.p4RailsDown v) s = .next t ∧ t.power.stage = .off ∧ t.power.railsUp = false
        ∧ t.power.aonReleased = false ∧ t.svc.running = false ∧ OnlyPowerSvc s t)
    ∧ (s.power.holdOff = false → s.power.pwrdis = false → 4200 ≤ v → v ≤ 6000 →
      ∃ t, exec (.p4RailsDown v) s = .next t ∧ t.power.stage = .on ∧ t.power.resetCause.getLsbD 0 = true
        ∧ t.power.railsUp = false ∧ t.power.aonReleased = false ∧ SameModule s t) := by
  obtain ⟨u, hu⟩ : ∃ u, u = (s.modPower fun p => { p with
      stage := .off, aonReleased := false, railsUp := false, linkUp := false, dramReady := false
      inputUp := decide (4200 ≤ v) && (decide (v ≤ 6000) || p.trigger == some .pwrdis) }).modSvc fun c => { c with running := false } := ⟨_, rfl⟩
  have hx : exec (.p4RailsDown v) s = if u.mayStart then .next u.powerOn else .next u := by
    rw [hu]
    exact if_neg (not_not.mpr hs)
  have hstart : u.mayStart = true ↔ (4200 ≤ v ∧ (v ≤ 6000 ∨ s.power.trigger = some .pwrdis)) ∧ s.power.holdOff = false ∧ s.power.pwrdis = false := by
    rw [State.mayStart_iff, hu]
    show (_ = _ ∧ (decide (4200 ≤ v) && (decide (v ≤ 6000) || s.power.trigger == some .pwrdis)) = true ∧ _ ∧ _) ↔ _
    rw [Bool.and_eq_true, Bool.or_eq_true, decide_eq_true_iff, decide_eq_true_iff, beq_iff_eq]
    exact ⟨fun h => h.2, fun h => ⟨rfl, h⟩⟩
  refine ⟨fun h => ?_, fun h1 h2 h3 h4 => ?_⟩
  · have hn : ¬u.mayStart = true := by
      rw [hstart]
      rintro ⟨⟨hv, hv2⟩, hh, hp⟩
      obtain h | h | h | ⟨h, ht⟩ := h
      · rw [hh] at h; cases h
      · rw [hp] at h; cases h
      · omega
      · exact hv2.elim (by omega) ht
    rw [if_neg hn] at hx
    refine ⟨_, hx, ?_⟩
    rw [hu]
    exact ⟨rfl, rfl, rfl, rfl, rfl⟩
  · rw [if_pos (hstart.mpr ⟨⟨h3, .inl h4⟩, h1, h2⟩)] at hx
    refine ⟨_, hx, rfl, State.powerOn_cause _, rfl, rfl, ?_⟩
    have := (State.powerOn_keeps u).1
    rw [hu] at this ⊢
    exact this

end

/-- Settles O3: P1 and P2 by their branches, P3 by the tails of the four groups, P4 by the state of the input. -/
theorem powerLossPhases : Obligations.PowerLossPhases := by
  unfold Obligations.PowerLossPhases
  intro s
  refine ⟨fun hs => ⟨_, if_neg (not_not.mpr hs), rfl, rfl, rfl, ?_, rfl, rfl, rfl, rfl, rfl⟩, fun failed hs => p2Flush_spec hs failed,
    fun hs => ?_, fun hs v => p4RailsDown_spec hs v, fun h => if_pos h, fun failed h => if_pos h, fun h => if_pos h, fun v h => if_pos h⟩
  · intro x hx
    obtain ⟨y, -, rfl⟩ := List.mem_map.mp hx
    rfl
  · obtain ⟨t, hx, hp, hsvc, hframe, hdead, hlive⟩ := p3Metadata_spec hs
    refine ⟨t, hx, hp, hsvc, hframe, hdead, fun h1 h2 hlen g hg h8 => ?_⟩
    obtain ⟨htail, hrow⟩ := State.tails_self hg s hlen h8
    rw [← hlive h1 h2] at htail
    refine ⟨htail, fun hr => ?_⟩
    obtain ⟨hr1, hr2, hr3⟩ := hrow hr
    rw [← hlive h1 h2] at hr1 hr2
    refine ⟨hr1, hr2, fun k hk p hp4 => ?_⟩
    obtain ⟨z, hz, hza⟩ := hr3 k hk p hp4
    rw [← hlive h1 h2] at hz
    exact ⟨z, hz, by rw [hza]; rfl, by rw [hza]; rfl, by rw [hza]; rfl, by rw [hza]; rfl, by rw [hza]; rfl⟩

end Sys2Proof.Machine
end

section
/-!
PROOFS. Chapters 06 and 15: direct media (O39).
-/

namespace Sys2Proof.Machine

open Sys2Proof.Safety

/-! ### Operations on a die -/

theorem mem_of_pickBy {α : Type} {key : α → Nat} {most : Bool} {l : List α} {a : α} (h : pickBy key most l = some a) : a ∈ l := by
  induction l generalizing a with
  | nil => cases h
  | cons x xs ih =>
    unfold pickBy at h
    split at h
    · cases h
      exact List.mem_cons_self
    · next y hy =>
      have hx : ∀ {b}, some x = some b → b ∈ x :: xs := fun e => Option.some.inj e ▸ List.mem_cons_self
      have hy' : ∀ {b}, some y = some b → b ∈ x :: xs := fun e => Option.some.inj e ▸ List.mem_cons_of_mem _ (ih hy)
      split at h <;> split at h
      · exact hx h
      · exact hy' h
      · exact hx h
      · exact hy' h
theorem mem_removeFirst_of_ne {α : Type} [DecidableEq α] {l : List α} {a b : α} (h : b ∈ l) (hne : b ≠ a) :
    b ∈ removeFirst (· == a) l := by
  induction l with
  | nil => exact h
  | cons x xs ih =>
    unfold removeFirst
    split
    · next hx =>
      obtain rfl | h := List.mem_cons.mp h
      · exact absurd (beq_iff_eq.mp hx) hne
      · exact h
    · obtain rfl | h := List.mem_cons.mp h
      · exact List.mem_cons_self
      · exact List.mem_cons_of_mem _ (ih h)

/-- An operation of a kind waits at a die or runs there. -/
def State.There (s : State) (c d : Nat) (k : DieOpKind) : Prop :=
  (∃ o ∈ (s.die c d).queue, o.kind = k) ∨ ∃ o, (s.die c d).running = some o ∧ o.kind = k

theorem State.die_modDie {s : State} {c d : Nat} (h : 32 * c + d < s.media.dies.length) (f : Die → Die) :
    (s.modDie c d f).die c d = f (s.die c d) := getD_modify_self _ _ _ _ h
/-- The scheduler starts an operation or leaves it waiting. -/
theorem State.kick_there {s : State} {c d : Nat} (h : 32 * c + d < s.media.dies.length) {o : DieOp} (ho : o ∈ (s.die c d).queue) :
    (s.kick c d).There c d o.kind := by
  unfold State.kick
  extract_lets x role ready
  split
  · exact .inl ⟨o, ho, rfl⟩
  split
  · exact .inl ⟨o, ho, rfl⟩
  next p _ =>
  extract_lets nest
  rw [State.There, State.die_modDie h]
  by_cases hp : o = p
  · exact .inr ⟨_, rfl, (congrArg DieOp.kind hp.symm : p.kind = o.kind)⟩
  · exact .inl ⟨o, mem_removeFirst_of_ne ho hp, rfl⟩
/-- An operation that is queued waits or runs. -/
theorem State.enqueue_there {s : State} {c d : Nat} (h : 32 * c + d < s.media.dies.length) (o : DieOp) : (s.enqueue c d o).There c d o.kind := by
  unfold State.enqueue
  extract_lets late s1 s2
  have h1 : { o with arrived := s.now, late := late } ∈ (s1.die c d).queue := by
    rw [show s1.die c d = _ from State.die_modDie h _]
    exact List.mem_append_right _ (List.mem_singleton_self _)
  have hl1 : 32 * c + d < s1.media.dies.length := (List.length_modify ..).symm ▸ h
  have h2 : { o with arrived := s.now, late := late } ∈ (s2.die c d).queue ∧ 32 * c + d < s2.media.dies.length := by
    by_cases hc : (o.suspends? && o.isRead && s1.maySuspend c d) = true
    · rw [show s2 = _ from if_pos hc]
      refine ⟨?_, (List.length_modify ..).symm ▸ hl1⟩
      have : (s1.suspend c d).die c d = _ := State.die_modDie hl1 _
      rw [this]
      exact h1
    · rw [show s2 = _ from if_neg hc]
      exact ⟨h1, hl1⟩
  exact State.kick_there (o := { o with arrived := s.now, late := late }) h2.2 h2.1

/-! ### The commands -/

section
variable {s t : State} {c : Cmd} (h : StartsVendor s c true false (fun _ => none) t)
include h

theorem vendor_of_direct (f : State → State) : s.vendor c true false (fun _ => none) f = .next (f t) := by
  obtain ⟨h1, -, h2, h3, -⟩ := h
  unfold State.vendor
  rw [h1]
  dsimp only
  rw [h2]
  rfl
/-- A direct-media command that ends at once. -/
theorem direct_ends {x : Instr} {st : Status} {f : Nat} (hx : exec x s = .next (t.complete c.ref st f)) :
    ∃ u, exec x s = .next u ∧ Ends s u c st f ∧ u.media = s.media :=
  ⟨_, hx, State.begin_completes h.1 st f 0, (t.complete_onlyHost c.ref st f 0).media.trans (State.begin_media h.1)⟩
/-- One that waits for its operation on the die. -/
theorem direct_waits {x : Instr} {o : DieOp} (hx : exec x s = .next (t.enqueue (directAddr c).channel (directAddr c).die o))
    (hlen : s.media.dies.length = 1024) (hdie : (directAddr c).die < s.diesPerChannel) :
    ∃ u, exec x s = .next u ∧ NoneEnds s u ∧ u.There (directAddr c).channel (directAddr c).die o.kind ∧ FlashKept s u := by
  have hm : t.media = s.media := State.begin_media h.1
  have hc : (directAddr c).channel < 32 := bits_lt _ 4 0
  have hd : s.diesPerChannel ≤ 32 := by
    unfold State.diesPerChannel
    split <;> decide
  have hk := t.enqueue_sansDies (directAddr c).channel (directAddr c).die o
  refine ⟨_, hx, ?_, State.enqueue_there (by rw [hm]; omega) o, ?_⟩
  · have hp : (t.enqueue (directAddr c).channel (directAddr c).die o).pcie = t.pcie := (congrArg State.pcie hk :)
    rw [NoneEnds, hp, State.begin_completions h.1]
  · rw [FlashKept, ← hm]
    exact ⟨(congrArg (fun x : State => x.media.extents) hk :), (congrArg (fun x : State => x.media.units) hk :),
      (congrArg (fun x : State => x.media.namespaces) hk :), (congrArg (fun x : State => x.media.superblocks) hk :)⟩

end

/-- A page of a block outside the package, and one within it. -/
theorem State.directInRange_eq_false {s : State} {a : PageAddr} (h : s.diesPerChannel ≤ a.die ∨ 2048 ≤ a.block) (page : Bool) :
    s.directInRange a page = false := by
  rw [State.directInRange]
  obtain h | h := h
  · rw [decide_eq_false (by omega : ¬a.die < s.diesPerChannel), Bool.false_and, Bool.false_and]
  · rw [decide_eq_false (by omega : ¬a.block < 2048), Bool.and_false, Bool.false_and]
theorem State.directInRange_eq_true {s : State} {a : PageAddr} (h1 : a.die < s.diesPerChannel) (h2 : a.block < 2048) (h3 : a.page < s.pagesPerBlock)
    (page : Bool) : s.directInRange a page = true := by
  rw [State.directInRange, decide_eq_true h1, decide_eq_true h2, decide_eq_true h3, Bool.or_true]
  rfl

section
variable {s t : State} {c : Cmd} (h : StartsVendor s c true false (fun _ => none) t)
include h

/-- A command with an address out of range. -/
theorem directMedia_outside (hr : s.diesPerChannel ≤ (directAddr c).die ∨ 2048 ≤ (directAddr c).block) :
    ∀ x ∈ [Instr.mediaWrite c, .mediaRead c, .mediaErase c], ∃ u, exec x s = .next u ∧ Ends s u c .invalidField ∧ u.media = s.media := by
  have hd : t.diesPerChannel = s.diesPerChannel := (State.begin_congr h.1 State.diesPerChannel fun _ _ => rfl)
  have hin (page : Bool) : (!t.directInRange (directAddr c) page) = true := by
    rw [State.directInRange_eq_false (by rw [hd]; exact hr)]
    rfl
  simp only [List.forall_mem_cons, List.not_mem_nil, false_implies, implies_true, and_true]
  exact ⟨direct_ends h ((vendor_of_direct h _).trans (congrArg Host.Outcome.next (if_pos (hin true)))),
    direct_ends h ((vendor_of_direct h _).trans (congrArg Host.Outcome.next (if_pos (hin true)))),
    direct_ends h ((vendor_of_direct h _).trans (congrArg Host.Outcome.next (if_pos (hin false))))⟩

variable (h1 : (directAddr c).die < s.diesPerChannel) (h2 : (directAddr c).block < 2048) (h3 : (directAddr c).page < s.pagesPerBlock)
include h1 h2 h3

theorem directMedia_inRange (page : Bool) : ¬(!t.directInRange (directAddr c) page) = true := by
  have hd : t.diesPerChannel = s.diesPerChannel := (State.begin_congr h.1 State.diesPerChannel fun _ _ => rfl)
  have hp : t.pagesPerBlock = s.pagesPerBlock := (State.begin_congr h.1 State.pagesPerBlock fun _ _ => rfl)
  rw [State.directInRange_eq_true (by rw [hd]; exact h1) h2 (by rw [hp]; exact h3)]
  decide
omit h1 h2 h3 in
theorem directMedia_deadFault :
    t.deadFault (directAddr c).channel (directAddr c).die = s.deadFault (directAddr c).channel (directAddr c).die := by
  rw [State.deadFault, State.channel, State.die, State.begin_media h.1]
  rfl
theorem mediaRead_spec : (∀ f, s.deadFault (directAddr c).channel (directAddr c).die = some f →
      exec (.mediaRead c) s = .next (t.complete c.ref .abortedByRecovery f))
    ∧ (s.deadFault (directAddr c).channel (directAddr c).die = none → exec (.mediaRead c) s
      = .next (t.enqueue (directAddr c).channel (directAddr c).die { cls := 2, kind := .read (directAddr c) [0, 1, 2, 3] (.media c.ref) })) := by
  have hf := directMedia_deadFault h
  have hin := directMedia_inRange h h1 h2 h3 true
  refine ⟨fun f hd => (vendor_of_direct h _).trans (congrArg Host.Outcome.next ((if_neg hin).trans ?_)),
    fun hd => (vendor_of_direct h _).trans (congrArg Host.Outcome.next ((if_neg hin).trans ?_))⟩
  · rw [hf, hd]
  · rw [hf, hd]

/-- A block that is neither retired nor on a retired die. -/
theorem directMedia_protected (hb : (directAddr c).blockAddr ∉ s.media.retiredBlocks)
    (hr : (s.die (directAddr c).channel (directAddr c).die).retired = false) :
    ∀ x ∈ [Instr.mediaWrite c, .mediaErase c], ∃ u, exec x s = .next u ∧ Ends s u c .directMediaProtected ∧ u.media = s.media := by
  have hp : (!t.media.retiredBlocks.contains (directAddr c).blockAddr && !(t.die (directAddr c).channel (directAddr c).die).retired) = true := by
    have : s.media.retiredBlocks.contains (directAddr c).blockAddr = false := by simpa using hb
    rw [State.die, State.begin_media h.1, ← State.die, this, hr]
    rfl
  simp only [List.forall_mem_cons, List.not_mem_nil, false_implies, implies_true, and_true]
  exact ⟨direct_ends h ((vendor_of_direct h _).trans (congrArg Host.Outcome.next ((if_neg (directMedia_inRange h h1 h2 h3 true)).trans (if_pos hp)))),
    direct_ends h ((vendor_of_direct h _).trans (congrArg Host.Outcome.next ((if_neg (directMedia_inRange h h1 h2 h3 false)).trans (if_pos hp))))⟩

section
variable (hr : (directAddr c).blockAddr ∈ s.media.retiredBlocks ∨ (s.die (directAddr c).channel (directAddr c).die).retired = true)
include hr

omit h1 h2 h3 in
theorem directMedia_unprotected :
    ¬(!t.media.retiredBlocks.contains (directAddr c).blockAddr && !(t.die (directAddr c).channel (directAddr c).die).retired) = true := by
  rw [State.die, State.begin_media h.1, ← State.die]
  obtain hr | hr := hr
  · rw [List.contains_iff_mem.mpr hr]
    exact Bool.false_ne_true
  · rw [hr, Bool.not_true, Bool.and_false]
    exact Bool.false_ne_true
theorem mediaErase_spec : (∀ f, s.deadFault (directAddr c).channel (directAddr c).die = some f →
      exec (.mediaErase c) s = .next (t.complete c.ref .abortedByRecovery f))
    ∧ (s.deadFault (directAddr c).channel (directAddr c).die = none → exec (.mediaErase c) s
      = .next (t.enqueue (directAddr c).channel (directAddr c).die { cls := 4, kind := .directErase (some c.ref) (directAddr c).blockAddr })) := by
  have hf := directMedia_deadFault h
  have hin := directMedia_inRange h h1 h2 h3 false
  have hopen := directMedia_unprotected h hr
  refine ⟨fun f hd => (vendor_of_direct h _).trans (congrArg Host.Outcome.next ((if_neg hin).trans ((if_neg hopen).trans ?_))),
    fun hd => (vendor_of_direct h _).trans (congrArg Host.Outcome.next ((if_neg hin).trans ((if_neg hopen).trans ?_)))⟩
  · rw [hf, hd]
  · rw [hf, hd]
/-- What MEDIA_WRITE programs. -/
def directContent (t : State) (c : Cmd) : Region :=
  if c.cdw13.getLsbD 0 then Region.ofBytes (t.dataIn c.prp1 c.prp2 18432) else encodePage (t.dataIn c.prp1 c.prp2 16384)
theorem mediaWrite_spec : (∀ f, s.deadFault (directAddr c).channel (directAddr c).die = some f →
      exec (.mediaWrite c) s = .next (t.complete c.ref .abortedByRecovery f))
    ∧ (s.deadFault (directAddr c).channel (directAddr c).die = none → exec (.mediaWrite c) s
      = .next (t.enqueue (directAddr c).channel (directAddr c).die { cls := 3, kind := .directProgram (some c.ref) (directAddr c) (directContent t c) })) := by
  have hf := directMedia_deadFault h
  have hin := directMedia_inRange h h1 h2 h3 true
  have hopen := directMedia_unprotected h hr
  refine ⟨fun f hd => (vendor_of_direct h _).trans (congrArg Host.Outcome.next ((if_neg hin).trans ((if_neg hopen).trans ?_))),
    fun hd => (vendor_of_direct h _).trans (congrArg Host.Outcome.next ((if_neg hin).trans ((if_neg hopen).trans ?_)))⟩
  · rw [hf, hd]
  · rw [hf, hd]
    unfold directContent
    cases c.cdw13.getLsbD 0 <;> rfl

end

end

/-- Settles O39: the checks in their order, then the operation at its die. -/
theorem directMedia : Obligations.DirectMedia := by
  unfold Obligations.DirectMedia
  intro s t c h hlen a there
  refine ⟨directMedia_outside h, fun h1 h2 h3 => ?_⟩
  obtain ⟨hread1, hread2⟩ := mediaRead_spec h h1 h2 h3
  refine ⟨fun hd => direct_waits h (hread2 hd) hlen h1, fun f hd => ⟨direct_ends h (hread1 f hd), fun hr => ?_⟩,
    fun hb hr => directMedia_protected h h1 h2 h3 hb hr, fun hb hd => ⟨?_, ?_⟩⟩
  · simp only [List.forall_mem_cons, List.not_mem_nil, false_implies, implies_true, and_true]
    exact ⟨direct_ends h ((mediaWrite_spec h h1 h2 h3 hr).1 f hd), direct_ends h ((mediaErase_spec h h1 h2 h3 hr).1 f hd)⟩
  · exact direct_waits h ((mediaErase_spec h h1 h2 h3 (.inl hb)).2 hd) hlen h1
  · obtain ⟨u, hx, hn, hthere, hk⟩ := direct_waits h ((mediaWrite_spec h h1 h2 h3 (.inl hb)).2 hd) hlen h1
    exact ⟨u, hx, hn, hk, hthere⟩

end Sys2Proof.Machine
end

section
/-!
PROOFS. Chapters 06 and 09: buffers, and the cleaner (O34).
-/

namespace Sys2Proof.Machine

open Sys2Proof.Safety

/-! ### Vendor commands that need no open run -/

section
variable {s t : State} {c : Cmd} {owner needsRun : Bool} {early : State → Option Status}

/-- A vendor command that passes its checks. -/
theorem State.vendor_of_startsVendor (h : StartsVendor s c owner needsRun early t) (f : State → State) :
    s.vendor c owner needsRun early f = .next (f t) := by
  obtain ⟨h1, -, h2, h3, h4⟩ := h
  unfold State.vendor
  rw [h1]
  dsimp only
  rw [h2, h3]
  dsimp only [Option.or]
  cases needsRun with
  | false => rfl
  | true => rw [h4 rfl]; rfl
variable (h : StartsVendor s c owner needsRun early t)
include h

/-- One that ends at once, and changes no tenant. -/
theorem startsVendor_ends {x : Instr} {st : Status} {a b : Nat} (hx : exec x s = .next (t.complete c.ref st a b)) :
    ∃ u, exec x s = .next u ∧ Ends s u c st a b ∧ u.tenants = s.tenants :=
  ⟨_, hx, State.begin_completes h.1 st a b, (congrArg State.tenants (t.complete_onlyHost c.ref st a b) :).trans (State.begin_tenants h.1)⟩
theorem startsVendor_tenant (n : Nat) : t.tenant n = s.tenant n := by rw [State.tenant, State.begin_tenants h.1]; rfl
theorem startsVendor_bufferAt (n k : Nat) : t.bufferAt n k = s.bufferAt n k := by rw [State.bufferAt, startsVendor_tenant h]; rfl

end

/-! ### New buffers -/

/-- The record of a new buffer. -/
def Buffer.made (index gen : Nat) (p : Placement) (size fe : Nat) (d : Region) (place : List Granule) (planOf : Option (Nat × Nat)) (g : Nat) :
    Buffer :=
  { index := index, gen := gen, placement := p, size := size, granules := granulesOf size,
    firstExtent := fe, data := d, place := place, planOf := planOf, shadowGroup := g }
/-- The tenant with a new buffer. -/
def Tenant.withBuffer (index : Nat) (p : Placement) (size fe : Nat) (d : Region) (place : List Granule) (planOf : Option (Nat × Nat)) (g : Nat)
    (x : Tenant) : Tenant :=
  { x with buffers := x.buffers ++ [Buffer.made index (x.gen index) p size fe d place planOf g] }
/-- What the making of a buffer changes. -/
theorem State.newBuffer_eq (s : State) (t index : Nat) (p : Placement) (size fe : Nat) (content : Option Region) (planOf : Option (Nat × Nat)) :
    ∃ (d : Region) (place : List Granule) (g : Nat) (prot : MemProt) (free : Nat), (∀ c, content = some c → d = c)
      ∧ s.newBuffer t index p size fe content planOf = if p = .writeback
        then (State.modTenant { s with prot := prot, free := free } t (Tenant.withBuffer index p size fe d place planOf g)).judgeReadOnly g
        else State.modTenant { s with prot := prot, free := free } t (Tenant.withBuffer index p size fe d place planOf g) := by
  cases content with
  | some d => cases p <;> exact ⟨d, _, _, _, _, fun _ h => Option.some.inj h, rfl⟩
  | none => cases p <;> exact ⟨_, _, _, _, _, nofun, rfl⟩

/-- A new buffer stands at the end of its tenant's list; its making ends no command. -/
theorem State.newBuffer_spec (s : State) {t : Nat} (ht : t < s.tenants.length) (index : Nat) (p : Placement) (size fe : Nat)
    (content : Option Region) (planOf : Option (Nat × Nat)) :
    ∃ b : Buffer, (b.index = index ∧ b.placement = p ∧ b.size = size ∧ b.granules = granulesOf size ∧ b.gen = (s.tenant t).gen index
        ∧ ∀ d, content = some d → b.data = d)
      ∧ ((s.newBuffer t index p size fe content planOf).tenant t).buffers = (s.tenant t).buffers ++ [b]
      ∧ ((s.newBuffer t index p size fe content planOf).tenant t).gens = (s.tenant t).gens
      ∧ (s.newBuffer t index p size fe content planOf).invocations = s.invocations
      ∧ (s.newBuffer t index p size fe content planOf).ctrs = s.ctrs
      ∧ ∀ r, s.Spares r (s.newBuffer t index p size fe content planOf) := by
  obtain ⟨d, place, g, prot, free, hd, he⟩ := s.newBuffer_eq t index p size fe content planOf
  obtain ⟨u, hu⟩ : ∃ u, u = State.modTenant { s with prot := prot, free := free } t (Tenant.withBuffer index p size fe d place planOf g) := ⟨_, rfl⟩
  rw [← hu] at he
  have hut : u.tenant t = Tenant.withBuffer index p size fe d place planOf g (s.tenant t) := by
    rw [hu]
    exact State.tenant_modTenant _ _ ht
  have hsp : ∀ r, s.Spares r u := fun r => by
    rw [hu]
    exact .of_pcie rfl rfl
  have hinv : u.invocations = s.invocations := by rw [hu]; rfl
  have hctr : u.ctrs = s.ctrs := by rw [hu]; rfl
  obtain ⟨w, hw, hwt, hwa, hws⟩ : ∃ w, s.newBuffer t index p size fe content planOf = w ∧ w.tenants = u.tenants ∧ w.aside = u.aside
      ∧ ∀ r, u.Spares r w := by
    refine ⟨_, he, ?_⟩
    split
    · obtain ⟨ro, h⟩ := u.judgeReadOnly_spec g
      exact ⟨h.tenants, u.judgeReadOnly_aside g, (u.judgeReadOnly_keeps g).1⟩
    · exact ⟨rfl, rfl, fun r => .refl r u⟩
  have hwtn : w.tenant t = u.tenant t := by rw [State.tenant, hwt]; rfl
  rw [hw, hwtn, hut]
  refine ⟨Buffer.made index ((s.tenant t).gen index) p size fe d place planOf g, ⟨rfl, rfl, rfl, rfl, rfl, fun c hc => hd c hc⟩, rfl, rfl, ?_, ?_,
    fun r => (hsp r).trans (hws r)⟩
  · exact (congrArg (fun x => x.2.2.1) hwa :).trans hinv
  · exact (congrArg (fun x => x.2.1) hwa :).trans hctr

/-! ### ALLOC -/

section
variable {s t : State} {c : Cmd} (h : StartsVendor s c false false (fun _ => none) t)
include h

theorem alloc_flags (h64 : 64 ≤ c.cdw10.toNat) : ∃ u, exec (.alloc c) s = .next u ∧ Ends s u c .invalidField ∧ u.tenants = s.tenants :=
  startsVendor_ends h ((State.vendor_of_startsVendor h _).trans (congrArg Host.Outcome.next (if_pos h64)))

variable {p : Placement} (h64 : c.cdw10.toNat < 64) (hp : placementOf c.cdw10.toNat = some p)
  (hsize : c.cdw11.toNat + 2 ^ 32 * c.cdw12.toNat ≠ 0)
  (hro : p = .readonly → bit c.cdw10.toNat 5 = false ∧ (c.cdw11.toNat + 2 ^ 32 * c.cdw12.toNat) % 1048576 = 0
    ∧ s.published (c.fn - 1) c.cdw13.toNat ((c.cdw11.toNat + 2 ^ 32 * c.cdw12.toNat) / 1048576) = true)
  (hheld : ((s.tenant (c.fn - 1)).buffers.filter (·.planOf.isNone)).length < 65536)
include h64 hp hsize hro hheld

/-- The size that ALLOC asks for. -/
def allocSize (c : Cmd) : Nat := c.cdw11.toNat + 2 ^ 32 * c.cdw12.toNat
/-- The tenant with an index taken. -/
def Tenant.takeIndex (x0 : Tenant) (x : Tenant) : Tenant :=
  if decide (x0.nextIndex < 65536) then { x with nextIndex := x.nextIndex + 1 } else { x with freed := x.freed.drop 1 }
/-- The index it takes. -/
def Tenant.freeIndex (x : Tenant) : Nat := if decide (x.nextIndex < 65536) then x.nextIndex else (x.freed.head?).getD 0

theorem exec_alloc : (p ≠ .readonly → s.left (c.fn - 1) p < granulesOf (allocSize c) →
      exec (.alloc c) s = .next (t.complete c.ref .reservationExceeded))
    ∧ (p = .readonly ∨ granulesOf (allocSize c) ≤ s.left (c.fn - 1) p → exec (.alloc c) s = .next
      (let v := (t.modTenant (c.fn - 1) (Tenant.takeIndex (t.tenant (c.fn - 1)))).newBuffer (c.fn - 1) (t.tenant (c.fn - 1)).freeIndex p (allocSize c)
        (if p = .readonly then c.cdw13.toNat else 0) (if bit c.cdw10.toNat 5 then some {} else none) none
      v.complete c.ref .success (handleOf (c.fn - 1) ((v.tenant (c.fn - 1)).gen (t.tenant (c.fn - 1)).freeIndex) (t.tenant (c.fn - 1)).freeIndex)
        (granulesOf (allocSize c)))) := by
  have hleft : t.left (c.fn - 1) p = s.left (c.fn - 1) p := by
    rw [State.left, State.record, State.begin_pers h.1, startsVendor_tenant h]
    rfl
  have hpub : t.published (c.fn - 1) c.cdw13.toNat ((c.cdw11.toNat + 2 ^ 32 * c.cdw12.toNat) / 1048576)
      = s.published (c.fn - 1) c.cdw13.toNat ((c.cdw11.toNat + 2 ^ 32 * c.cdw12.toNat) / 1048576) := by
    rw [State.published, State.record, State.begin_pers h.1, State.begin_media h.1]
    rfl
  have hz : ¬(bit c.cdw10.toNat 5 && p = .readonly) = true := by
    intro hc
    rw [Bool.and_eq_true, decide_eq_true_iff] at hc
    exact absurd ((hro hc.2).1.symm.trans hc.1) (by decide)
  have hm : ¬(p = .readonly && ((c.cdw11.toNat + 2 ^ 32 * c.cdw12.toNat) % 1048576 != 0
      || !t.published (c.fn - 1) c.cdw13.toNat ((c.cdw11.toNat + 2 ^ 32 * c.cdw12.toNat) / 1048576))) = true := by
    intro hc
    rw [Bool.and_eq_true, decide_eq_true_iff] at hc
    obtain ⟨-, hmod, hpb⟩ := hro hc.1
    rw [hpub, hpb, hmod] at hc
    exact absurd hc.2 (by decide)
  have h64' : ¬c.cdw10.toNat ≥ 64 := by omega
  have hheld' : ¬(((t.tenant (c.fn - 1)).buffers.filter (·.planOf.isNone)).length ≥ 65536) := by
    rw [startsVendor_tenant h]
    omega
  refine ⟨fun h1 h2 => (State.vendor_of_startsVendor h _).trans (congrArg Host.Outcome.next ((if_neg h64').trans ?_)),
    fun h3 => (State.vendor_of_startsVendor h _).trans (congrArg Host.Outcome.next ((if_neg h64').trans ?_))⟩
  · rw [hp]
    refine (if_neg hsize).trans ((if_neg hz).trans ((if_neg hm).trans (if_pos ?_)))
    have h2' : granulesOf (c.cdw11.toNat + 2 ^ 32 * c.cdw12.toNat) > t.left (c.fn - 1) p := by rw [hleft]; exact h2
    rw [Bool.or_eq_true, Bool.and_eq_true]
    exact .inl ⟨bne_iff_ne.mpr h1, decide_eq_true h2'⟩
  · rw [hp]
    refine (if_neg hsize).trans ((if_neg hz).trans ((if_neg hm).trans ((if_neg ?_).trans rfl)))
    rw [Bool.or_eq_true, Bool.and_eq_true, decide_eq_true_iff, decide_eq_true_iff, bne_iff_ne]
    rintro (⟨h1, h2⟩ | h2)
    · have h2' : granulesOf (c.cdw11.toNat + 2 ^ 32 * c.cdw12.toNat) > s.left (c.fn - 1) p := by rw [← hleft]; exact h2
      exact h3.elim h1 fun h3 => Nat.not_lt.mpr h3 h2'
    · exact hheld' h2
theorem alloc_spec (hlen : c.fn - 1 < s.tenants.length) (hfresh : ∀ b ∈ (s.tenant (c.fn - 1)).buffers, b.index ≠ (s.tenant (c.fn - 1)).freeIndex)
    (hroom : p = .readonly ∨ granulesOf (allocSize c) ≤ s.left (c.fn - 1) p) :
    ∃ u b, exec (.alloc c) s = .next u
      ∧ Ends s u c .success (handleOf (c.fn - 1) ((s.tenant (c.fn - 1)).gen (s.tenant (c.fn - 1)).freeIndex) (s.tenant (c.fn - 1)).freeIndex)
        (granulesOf (allocSize c))
      ∧ u.bufferAt (c.fn - 1) (s.tenant (c.fn - 1)).freeIndex = some b ∧ b.placement = p ∧ b.size = allocSize c
      ∧ b.granules = granulesOf (allocSize c) ∧ b.gen = (s.tenant (c.fn - 1)).gen (s.tenant (c.fn - 1)).freeIndex
      ∧ (bit c.cdw10.toNat 5 = true → b.data = {}) ∧ u.invocations = s.invocations ∧ u.ctrs = s.ctrs := by
  have hx := (exec_alloc h h64 hp hsize hro hheld).2 hroom
  have htn : t.tenant (c.fn - 1) = s.tenant (c.fn - 1) := startsVendor_tenant h _
  have htl : c.fn - 1 < t.tenants.length := by rw [State.begin_tenants h.1]; exact hlen
  obtain ⟨u, hu⟩ : ∃ u, u = t.modTenant (c.fn - 1) (Tenant.takeIndex (s.tenant (c.fn - 1))) := ⟨_, rfl⟩
  have hut : u.tenant (c.fn - 1) = Tenant.takeIndex (s.tenant (c.fn - 1)) (s.tenant (c.fn - 1)) := by
    rw [hu, State.tenant_modTenant _ _ htl, htn]
  have hkeep : (u.tenant (c.fn - 1)).buffers = (s.tenant (c.fn - 1)).buffers ∧ (u.tenant (c.fn - 1)).gens = (s.tenant (c.fn - 1)).gens := by
    rw [hut]
    unfold Tenant.takeIndex
    split <;> exact ⟨rfl, rfl⟩
  have hul : c.fn - 1 < u.tenants.length := by rw [hu]; exact (List.length_modify ..).symm ▸ htl
  rw [htn, ← hu] at hx
  obtain ⟨b, ⟨hb1, hb2, hb3, hb4, hb5, hb6⟩, hbuf, hgens, hinv, hctr, hsp⟩ := u.newBuffer_spec hul (s.tenant (c.fn - 1)).freeIndex p (allocSize c)
    (if p = .readonly then c.cdw13.toNat else 0) (if bit c.cdw10.toNat 5 then some {} else none) none
  dsimp only at hx
  generalize u.newBuffer (c.fn - 1) (s.tenant (c.fn - 1)).freeIndex p (allocSize c) (if p = .readonly then c.cdw13.toNat else 0)
    (if bit c.cdw10.toNat 5 then some {} else none) none = v at hx hbuf hgens hinv hctr hsp
  have hgen : ∀ {x : Tenant}, x.gens = (s.tenant (c.fn - 1)).gens → x.gen (s.tenant (c.fn - 1)).freeIndex
      = (s.tenant (c.fn - 1)).gen (s.tenant (c.fn - 1)).freeIndex := fun e => by rw [Tenant.gen, e, Tenant.gen]
  rw [hgen (hgens.trans hkeep.2)] at hx
  have ho := v.complete_onlyHost c.ref .success (handleOf (c.fn - 1) ((s.tenant (c.fn - 1)).gen (s.tenant (c.fn - 1)).freeIndex)
    (s.tenant (c.fn - 1)).freeIndex) (granulesOf (allocSize c))
  refine ⟨_, b, hx, State.begin_ends h.1 (State.Spares.ends (State.Spares.trans (t := u) ?_ (hsp c.ref)) (State.begin_firm h.1) ..), ?_, hb2, hb3,
    hb4, hb5.trans (hgen hkeep.2), fun hz => hb6 _ (if_pos hz), ?_, ?_⟩
  · rw [hu]
    exact .of_pcie rfl rfl
  · have hvt : ∀ n, (v.complete c.ref .success (handleOf (c.fn - 1) ((s.tenant (c.fn - 1)).gen (s.tenant (c.fn - 1)).freeIndex)
        (s.tenant (c.fn - 1)).freeIndex) (granulesOf (allocSize c))).tenant n = v.tenant n := fun n => by
      rw [State.tenant, (congrArg State.tenants ho :)]
      rfl
    rw [State.bufferAt, hvt, hbuf, hkeep.1, List.find?_append, List.find?_eq_none.mpr (fun x hxm => by simpa using hfresh x hxm)]
    simp [hb1]
  · have h1 : u.invocations = t.invocations := by rw [hu]; rfl
    exact (congrArg State.invocations ho :).trans (hinv.trans (h1.trans (State.begin_invocations h.1)))
  · have h1 : u.ctrs = t.ctrs := by rw [hu]; rfl
    exact (congrArg State.ctrs ho :).trans (hctr.trans (h1.trans (congrArg State.ctrs (State.begin_spec h.1).1 :)))

end

/-! ### The end of a buffer -/

/-- A command has no flush pending and no block in the write buffer. -/
def State.Lacks (s : State) (r : CmdRef) : Prop := (∀ p ∈ s.media.flushes, p.ref ≠ r) ∧ ∀ b ∈ s.media.buffer, b.waiter ≠ some r
/-- The tenant without a buffer. -/
def Tenant.dropBuffer (b : Buffer) (x : Tenant) : Tenant :=
  { x with
    buffers := x.buffers.filter (·.index != b.index)
    gens := (b.index, (b.gen + 1) % 256) :: x.gens.filter (·.1 != b.index)
    freed := if b.index < 65536 then x.freed ++ [b.index] else x.freed }

theorem State.complete_tenants (s : State) (r : CmdRef) (st : Status) (a b : Nat) : (s.complete r st a b).tenants = s.tenants :=
  (congrArg State.tenants (s.complete_onlyHost r st a b) :)
theorem State.deallocate_keeps (s : State) (fn nsid : Nat) (p : Nat → Bool) :
    (s.deallocate fn nsid p).tenants = s.tenants ∧ (s.deallocate fn nsid p).aside = s.aside := by
  have hw : ∀ (u : State) (l : List CmdRef), (u.ackWriters l).tenants = u.tenants := fun u l =>
    foldl_keep State.tenants _ (fun _ _ => ite_keep State.tenants rfl (State.complete_tenants ..)) _ _
  have hf : ∀ u : State, u.ackFlushes.tenants = u.tenants := by
    intro u
    refine foldl_keep State.tenants _ (fun v q => ite_keep State.tenants rfl ?_) _ _
    extract_lets w
    split <;> exact State.complete_tenants ..
  unfold State.deallocate
  extract_lets mine refs s1
  exact ⟨(hf _).trans (hw _ _), (State.ackFlushes_aside _).trans ((State.ackWriters_aside ..).trans (s.modMedia_aside fun _ => rfl))⟩
/-- The end of a buffer drops it from its tenant. -/
theorem State.endBuffer_keeps (s : State) (n : Nat) (b : Buffer) :
    (s.endBuffer n b).tenants = s.tenants.modify n (Tenant.dropBuffer b) ∧ (s.endBuffer n b).aside = s.aside := by
  unfold State.endBuffer
  extract_lets s1 s2
  obtain ⟨ht1, ha1⟩ : s1.tenants = s.tenants ∧ s1.aside = s.aside := by
    by_cases hp : b.placement = .writeback
    · rw [show s1 = _ from if_pos hp]
      exact s.deallocate_keeps ..
    · rw [show s1 = _ from if_neg hp]
      exact ⟨rfl, rfl⟩
  have ht2 : s2.tenants = s.tenants.modify n (Tenant.dropBuffer b) := by rw [← ht1]; rfl
  have ha2 : s2.aside = s.aside := (s1.modTenant_aside n _).trans ha1
  clear_value s2
  split
  · exact ⟨(s2.judgeReadOnly_keeps _).2.1.trans ht2, (s2.judgeReadOnly_aside _).trans ha2⟩
  · exact ⟨ht2, ha2⟩
/-- A command that has nothing to do with the write buffer stays held. -/
theorem State.endBuffer_spares (s : State) (n : Nat) (b : Buffer) {r : CmdRef} (hr : s.Lacks r) :
    s.Spares r (s.endBuffer n b) ∧ (s.endBuffer n b).Lacks r := by
  unfold State.endBuffer
  extract_lets s1 s2
  obtain ⟨hs1, hl1⟩ : s.Spares r s1 ∧ s1.Lacks r := by
    by_cases hp : b.placement = .writeback
    · rw [show s1 = _ from if_pos hp]
      obtain ⟨-, -, hf, hb⟩ := s.deallocate_media (shadowBase + n) b.index fun _ => true
      exact ⟨State.deallocate_spares hr.1 hr.2 _ _ _, ⟨fun p hp => hr.1 p (hf p hp), fun p hp => hr.2 p (hb p hp)⟩⟩
    · rw [show s1 = _ from if_neg hp]
      exact ⟨.refl r s, hr⟩
  have hs2 : s1.Spares r s2 := .of_pcie rfl rfl
  have hl2 : s2.Lacks r := hl1
  clear_value s2
  split
  · obtain ⟨hj, -, hmj⟩ := s2.judgeReadOnly_keeps b.shadowGroup
    refine ⟨(hs1.trans hs2).trans (hj r), ?_⟩
    rw [State.Lacks, show (s2.judgeReadOnly b.shadowGroup).media.flushes = s2.media.flushes from (congrArg Media.flushes hmj :),
      show (s2.judgeReadOnly b.shadowGroup).media.buffer = s2.media.buffer from (congrArg Media.buffer hmj :)]
    exact hl2
  · exact ⟨hs1.trans hs2, hl2⟩

/-! ### FREE -/

/-- What is noted of the handle of another tenant. -/
theorem State.foreignFree_keeps (s : State) (by_ named handle : Nat) :
    (∀ r, s.Spares r (s.foreignFree by_ named handle)) ∧ ∀ k, ((s.foreignFree by_ named handle).tenant k).buffers = (s.tenant k).buffers := by
  unfold State.foreignFree
  split
  · extract_lets s1 w s2
    have h1 : ∀ k, (s1.tenant k).buffers = (s.tenant k).buffers := by
      intro k
      by_cases hk : k = named
      · subst hk
        by_cases hl : k < s.tenants.length
        · exact (congrArg Tenant.buffers (s.tenant_modTenant (fun x => { x with foreignFrees := x.foreignFrees + 1 }) hl)).trans rfl
        · rw [show s1 = s from State.modTenant_of_le (by omega) _]
      · exact congrArg Tenant.buffers (s.tenant_modTenant_ne _ hk)
    have h2 := s1.log_tells 0xC6 (watermarkEntry 3 1 named 6 w by_ handle) false (named + 1) false
    refine ⟨fun r => ?_, fun k => ?_⟩
    · exact State.Spares.trans (t := s1) (.of_pcie rfl rfl) ((h2.spares r).trans (s2.modCtrl_spares _ fun _ => ⟨rfl, rfl⟩))
    · have : (s2.errorEntry (named + 1) { fn := named + 1, sqid := 0xFFFF, cid := 0xFFFF } .bufferNotOwned).tenants = s1.tenants := h2.tenants
      rw [State.tenant, this]
      exact h1 k
  · have h := s.log_tells 0xC6 (watermarkEntry 3 0 0 0 {} by_ handle) false 0 false
    exact ⟨h.spares, fun k => by rw [State.tenant, h.tenants]; rfl⟩

section
variable {s t : State} {c : Cmd} (h : StartsVendor s c false false (fun _ => none) t)
include h

theorem free_foreign (hn : bits c.cdw10.toNat 31 28 ≠ c.fn - 1) : ∃ u, exec (.free c) s = .next u ∧ Ends s u c .bufferNotOwned
    ∧ ∀ k, (u.tenant k).buffers = (s.tenant k).buffers := by
  obtain ⟨hsp, hbuf⟩ := t.foreignFree_keeps (c.fn - 1) (bits c.cdw10.toNat 31 28) c.cdw10.toNat
  refine ⟨_, (State.vendor_of_startsVendor h _).trans (congrArg Host.Outcome.next (if_pos hn)),
    State.begin_ends h.1 ((hsp c.ref).ends (State.begin_firm h.1) ..), fun k => ?_⟩
  rw [State.tenant, (congrArg State.tenants (State.complete_onlyHost _ c.ref .bufferNotOwned 0 0) :)]
  exact (hbuf k).trans (congrArg Tenant.buffers (startsVendor_tenant h k))

variable (hn : bits c.cdw10.toNat 31 28 = c.fn - 1)
include hn

omit hn in
theorem startsVendor_handle (n x : Nat) : t.handle? n x = s.handle? n x := by
  rw [State.handle?, startsVendor_bufferAt h]
  rfl
theorem free_stale (hh : s.handle? (c.fn - 1) c.cdw10.toNat = none) :
    ∃ u, exec (.free c) s = .next u ∧ Ends s u c .bufferAlreadyFree ∧ u.tenants = s.tenants := by
  refine startsVendor_ends h ((State.vendor_of_startsVendor h _).trans (congrArg Host.Outcome.next ((if_neg (not_not.mpr hn)).trans ?_)))
  rw [show t.handle? c.tenant c.cdw10.toNat = none from (startsVendor_handle h _ _).trans hh]

variable {b : Buffer} (hh : s.handle? (c.fn - 1) c.cdw10.toNat = some b)
include hh

theorem free_plan (hp : b.planOf ≠ none) : ∃ u, exec (.free c) s = .next u ∧ Ends s u c .bufferBusy ∧ u.tenants = s.tenants := by
  refine startsVendor_ends h ((State.vendor_of_startsVendor h _).trans (congrArg Host.Outcome.next ((if_neg (not_not.mpr hn)).trans ?_)))
  rw [show t.handle? c.tenant c.cdw10.toNat = some b from (startsVendor_handle h _ _).trans hh]
  refine if_pos ?_
  rw [Option.isSome_iff_ne_none.mpr hp, Bool.true_or]
theorem free_spec (hlen : c.fn - 1 < s.tenants.length) (hp : b.planOf = none)
    (href : ∀ i ∈ s.invocations, i.tenant = c.fn - 1 → b.index ∉ s.references i) : ∃ u, exec (.free c) s = .next u ∧ Ends s u c .success
      ∧ u.handle? (c.fn - 1) c.cdw10.toNat = none ∧ (u.tenant (c.fn - 1)).gen b.index = (b.gen + 1) % 256 := by
  have hx : exec (.free c) s = .next ((t.endBuffer (c.fn - 1) b).complete c.ref .success) := by
    refine (State.vendor_of_startsVendor h _).trans (congrArg Host.Outcome.next ((if_neg (not_not.mpr hn)).trans ?_))
    rw [show t.handle? c.tenant c.cdw10.toNat = some b from (startsVendor_handle h _ _).trans hh]
    refine if_neg ?_
    rw [hp, Option.isSome_none, Bool.false_or, List.any_eq_true]
    rintro ⟨i, hi, hc⟩
    rw [State.begin_invocations h.1] at hi
    rw [Bool.and_eq_true, beq_iff_eq, List.contains_iff_mem] at hc
    have hr : t.references i = s.references i := by
      rw [State.references, State.references, State.model?, State.model?, startsVendor_tenant h]
    exact href i hi hc.1 (hr ▸ hc.2)
  have hbi : b.index = bits c.cdw10.toNat 19 0 := by
    unfold State.handle? at hh
    obtain ⟨b', hb', he⟩ := Option.bind_eq_some_iff.mp hh
    split at he
    · cases he
      have hi : b.index == bits c.cdw10.toNat 19 0 := List.find?_some (p := fun x : Buffer => x.index == bits c.cdw10.toNat 19 0) hb'
      exact beq_iff_eq.mp hi
    · cases he
  obtain ⟨hf1, -, hf3, -⟩ := h.2.1
  have hm : t.media = s.media := State.begin_media h.1
  obtain ⟨hsp, -⟩ := t.endBuffer_spares (c.fn - 1) b (r := c.ref) ⟨by rw [hm]; exact hf1, by rw [hm]; exact hf3⟩
  obtain ⟨htn, -⟩ := t.endBuffer_keeps (c.fn - 1) b
  have hut : ((t.endBuffer (c.fn - 1) b).complete c.ref .success).tenant (c.fn - 1) = (s.tenant (c.fn - 1)).dropBuffer b := by
    rw [State.tenant, (congrArg State.tenants (State.complete_onlyHost _ c.ref .success 0 0) :), htn, State.begin_tenants h.1]
    exact getD_modify_self _ _ _ _ hlen
  refine ⟨_, hx, State.begin_ends h.1 (hsp.ends (State.begin_firm h.1) ..), ?_, ?_⟩
  · rw [State.handle?, State.bufferAt, hut, Tenant.dropBuffer, ← hbi, List.find?_eq_none.mpr]
    · rfl
    · intro x hx
      simpa using (List.mem_filter.mp hx).2
  · rw [hut]
    show ((List.lookup b.index (_ :: _)).getD 0) = _
    rw [List.lookup_cons_self]
    rfl

end

/-! ### The cleaner -/

/-- A buffer with a block taken by the cleaner. -/
def Buffer.clean (k : Nat) (b : Buffer) : Buffer := { b with dirty := b.dirty.filter (· != k), cleaning := k :: b.cleaning }
theorem State.bufferAt_modBuffer {s : State} {n index : Nat} {b : Buffer} (hn : n < s.tenants.length) (hb : s.bufferAt n index = some b)
    {f : Buffer → Buffer} (hf : ∀ b, (f b).index = b.index) : (s.modBuffer n index f).bufferAt n index = some (f b) := by
  have hbi : b.index = index := by
    have hi : b.index == index := List.find?_some (p := fun x : Buffer => x.index == index) hb
    exact beq_iff_eq.mp hi
  rw [State.bufferAt, State.modBuffer, State.tenant_modTenant _ _ hn]
  dsimp only
  rw [List.find?_map]
  have hp : ((fun x : Buffer => x.index == index) ∘ fun b => if b.index = index then f b else b) = fun x => x.index == index := by
    funext x
    dsimp only [Function.comp]
    split
    · rw [hf]
    · rfl
  rw [hp, show (s.tenant n).buffers.find? (fun x => x.index == index) = some b from hb, Option.map_some, if_pos hbi]
theorem cleanBlock_spec {s : State} {n index k : Nat} {b : Buffer} (hon : s.power.stage = .on) (hn : n < s.tenants.length)
    (hb : s.bufferAt n index = some b) (hk : k ∈ b.dirty) (hpoison : ∀ x ∈ s.prot.dramStacks, x.poison = []) :
    ∃ u b', exec (.cleanBlock n index k) s = .next u ∧ u.bufferAt n index = some b' ∧ k ∉ b'.dirty ∧ b'.data = b.data
      ∧ b'.placement = b.placement ∧ u.ctrs = s.ctrs ∧ u.invocations = s.invocations := by
  have hp : ∀ st, (s.prot.dramStacks.getD st {}).poison = [] := by
    intro st
    rw [List.getD_eq_getElem?_getD]
    cases hx : s.prot.dramStacks[st]? with
    | none => rfl
    | some x => exact hpoison x (List.mem_of_getElem? hx)
  obtain ⟨u, hu⟩ : ∃ u, u = (s.modBuffer n index (Buffer.clean k)).buffer
      { fn := shadowBase + n, nsid := index, lba := k, data := Region.ofBytes (b.data.get (4096 * k) 4096) } := ⟨_, rfl⟩
  have hx : exec (.cleanBlock n index k) s = .next (u.fill b.shadowGroup false) := by
    rw [hu]
    refine (s.whenOn_of hon _).trans ?_
    rw [hb]
    refine if_neg ?_
    rw [List.contains_iff_mem.mpr hk, Bool.not_true, Bool.false_or, List.any_eq_true]
    rintro ⟨j, -, hj⟩
    cases hbl : b.blockAt (8 * k + j) with
    | none =>
      rw [hbl] at hj
      cases hj
    | some x =>
      rw [hbl] at hj
      dsimp only at hj
      rw [hp] at hj
      cases hj
  have hf := u.fill_sansRows b.shadowGroup false
  have hut : u.tenants = (s.modBuffer n index (Buffer.clean k)).tenants ∧ u.ctrs = s.ctrs ∧ u.invocations = s.invocations := by
    rw [hu]
    unfold State.buffer
    extract_lets same v
    split <;> exact ⟨rfl, rfl, rfl⟩
  obtain ⟨hut, huc, hui⟩ := hut
  have hft : (u.fill b.shadowGroup false).tenants = u.tenants := (congrArg State.tenants hf :)
  have hfc : (u.fill b.shadowGroup false).ctrs = u.ctrs := (congrArg State.ctrs hf :)
  have hfi : (u.fill b.shadowGroup false).invocations = u.invocations := (congrArg State.invocations hf :)
  refine ⟨_, b.clean k, hx, ?_, ?_, rfl, rfl, hfc.trans huc, hfi.trans hui⟩
  · rw [State.bufferAt, State.tenant, hft, hut]
    exact State.bufferAt_modBuffer hn hb fun _ => rfl
  · intro hc
    simpa using (List.mem_filter.mp hc).2

/-- Settles O34: ALLOC, FREE and the cleaner, by the lemmas of each. -/
theorem bufferCommands : Obligations.BufferCommands := by
  unfold Obligations.BufferCommands
  refine ⟨fun s t c h hlen => ⟨?_, alloc_flags h, free_foreign h, fun hn hh => free_stale h hn hh,
    fun b hn hh => ⟨free_plan h hn hh, fun hp href => free_spec h hn hh hlen hp href⟩⟩,
    fun s n index k b hon hn hb hk hp => cleanBlock_spec hon hn hb hk hp⟩
  intro x size index p h64 hp hsize hro hheld hfresh
  have hindex : index = x.freeIndex := by
    show (if x.nextIndex < 65536 then x.nextIndex else _) = if decide (x.nextIndex < 65536) = true then x.nextIndex else _
    simp only [decide_eq_true_iff]
  rw [hindex] at hfresh ⊢
  refine ⟨fun hroom => alloc_spec h h64 hp hsize hro hheld hlen hfresh hroom, fun h1 h2 => ?_⟩
  exact startsVendor_ends h ((exec_alloc h h64 hp hsize hro hheld).1 h1 h2)

end Sys2Proof.Machine
end

section
/-!
PROOFS. Chapter 06: ADMIT and RELEASE of a model package (O33).
-/

namespace Sys2Proof.Machine

open Sys2Proof.Safety

/-! ### What the making and the ends of buffers keep of a tenant's models -/

/-- The models of a tenant, the invocations and the counters stay, and a command without work in the write buffer stays held. -/
structure State.Prepares (n : Nat) (r : CmdRef) (s u : State) : Prop where
  models : (u.tenant n).models = (s.tenant n).models
  length : u.tenants.length = s.tenants.length
  invocations : u.invocations = s.invocations
  ctrs : u.ctrs = s.ctrs
  spares : s.Lacks r → s.Spares r u ∧ u.Lacks r

section
variable {n : Nat} {r : CmdRef}

theorem State.Prepares.refl (n : Nat) (r : CmdRef) (s : State) : s.Prepares n r s := ⟨rfl, rfl, rfl, rfl, fun h => ⟨.refl r s, h⟩⟩
theorem State.Prepares.trans {s t u : State} (h : s.Prepares n r t) (k : t.Prepares n r u) : s.Prepares n r u :=
  ⟨k.models.trans h.models, k.length.trans h.length, k.invocations.trans h.invocations, k.ctrs.trans h.ctrs, fun hl =>
    ⟨(h.spares hl).1.trans (k.spares (h.spares hl).2).1, (k.spares (h.spares hl).2).2⟩⟩
theorem State.Prepares.foldl {α : Type} {f : State → α → State} (h : ∀ (s : State) a, s.Prepares n r (f s a)) (l : List α) (s : State) :
    s.Prepares n r (l.foldl f s) := by
  induction l generalizing s with
  | nil => exact .refl n r s
  | cons a l ih => exact (h s a).trans (ih _)
theorem State.models_modTenant (s : State) (n k : Nat) {f : Tenant → Tenant} (hf : ∀ x, (f x).models = x.models) :
    ((s.modTenant k f).tenant n).models = (s.tenant n).models := by
  by_cases hk : n = k
  · subst hk
    by_cases hl : n < s.tenants.length
    · rw [s.tenant_modTenant _ hl, hf]
    · rw [State.modTenant_of_le (by omega)]
  · rw [s.tenant_modTenant_ne _ hk]
theorem State.modTenant_prepares (n : Nat) (r : CmdRef) (s : State) (k : Nat) {f : Tenant → Tenant} (hf : ∀ x, (f x).models = x.models) :
    s.Prepares n r (s.modTenant k f) :=
  ⟨s.models_modTenant n k hf, List.length_modify .., rfl, rfl, fun h => ⟨.of_pcie rfl rfl, h⟩⟩
theorem State.modProt_prepares (n : Nat) (r : CmdRef) (s : State) (f : MemProt → MemProt) : s.Prepares n r (s.modProt f) :=
  ⟨rfl, rfl, rfl, rfl, fun h => ⟨.of_pcie rfl rfl, h⟩⟩
theorem State.judgeReadOnly_prepares (n : Nat) (r : CmdRef) (s : State) (g : Nat) : s.Prepares n r (s.judgeReadOnly g) := by
  obtain ⟨hsp, ht, hm⟩ := s.judgeReadOnly_keeps g
  have ha := s.judgeReadOnly_aside g
  refine ⟨by rw [State.tenant, ht]; rfl, by rw [ht], (congrArg (fun x => x.2.2.1) ha :), (congrArg (fun x => x.2.1) ha :), fun h => ⟨hsp r, ?_⟩⟩
  rw [State.Lacks, show (s.judgeReadOnly g).media.flushes = s.media.flushes from (congrArg Media.flushes hm :),
    show (s.judgeReadOnly g).media.buffer = s.media.buffer from (congrArg Media.buffer hm :)]
  exact h
theorem State.endBuffer_prepares (n : Nat) (r : CmdRef) (s : State) (k : Nat) (b : Buffer) : s.Prepares n r (s.endBuffer k b) := by
  have hmod := s.models_modTenant n k (f := Tenant.dropBuffer b) fun _ => rfl
  obtain ⟨ht, ha⟩ := s.endBuffer_keeps k b
  refine ⟨?_, by rw [ht]; exact List.length_modify .., (congrArg (fun x => x.2.2.1) ha :), (congrArg (fun x => x.2.1) ha :),
    fun h => s.endBuffer_spares k b h⟩
  rw [State.tenant, ht]
  exact hmod
theorem State.newBuffer_prepares (n : Nat) (r : CmdRef) (s : State) (k index : Nat) (p : Placement) (size fe : Nat) (content : Option Region)
    (planOf : Option (Nat × Nat)) : s.Prepares n r (s.newBuffer k index p size fe content planOf) := by
  obtain ⟨d, place, g, prot, free, -, he⟩ := s.newBuffer_eq k index p size fe content planOf
  have h1 : s.Prepares n r { s with prot := prot, free := free } := ⟨rfl, rfl, rfl, rfl, fun h => ⟨.of_pcie rfl rfl, h⟩⟩
  have h2 := h1.trans (State.modTenant_prepares n r _ k (f := Tenant.withBuffer index p size fe d place planOf g) fun _ => rfl)
  rw [he]
  split
  · exact h2.trans (State.judgeReadOnly_prepares ..)
  · exact h2

end

/-! ### A model's slot -/

theorem State.model?_of_models {s u : State} {n : Nat} (h : (u.tenant n).models = (s.tenant n).models) (slot : Nat) :
    u.model? n slot = s.model? n slot := by rw [State.model?, h]; rfl
/-- What a change of one model's record leaves. -/
theorem State.model?_modModel {s : State} {n : Nat} (hn : n < s.tenants.length) {slot : Nat} {m : Model} (hm : s.model? n slot = some m)
    {f : Model → Model} (hf : ∀ x, (f x).slot = x.slot) : (s.modModel n slot f).model? n slot = some (f m) := by
  have hs : m.slot = slot := by
    have h : m.slot == slot := List.find?_some (p := fun x : Model => x.slot == slot) hm
    exact beq_iff_eq.mp h
  rw [State.model?, State.modModel, s.tenant_modTenant _ hn]
  dsimp only
  rw [List.find?_map]
  have hp : ((fun x : Model => x.slot == slot) ∘ fun y => if y.slot = slot then f y else y) = fun x => x.slot == slot := by
    funext x
    dsimp only [Function.comp]
    split
    · rw [hf]
    · rfl
  rw [hp, show (s.tenant n).models.find? (fun x => x.slot == slot) = some m from hm, Option.map_some, if_pos hs]

/-- The invocations and the counters stay, and a command without work in the write buffer stays held. -/
structure State.Minds (r : CmdRef) (s u : State) : Prop where
  length : u.tenants.length = s.tenants.length
  invocations : u.invocations = s.invocations
  ctrs : u.ctrs = s.ctrs
  spares : s.Lacks r → s.Spares r u ∧ u.Lacks r

section
variable {n : Nat} {r : CmdRef} {s t u : State}

theorem State.Prepares.minds (h : s.Prepares n r u) : s.Minds r u := ⟨h.length, h.invocations, h.ctrs, h.spares⟩
theorem State.Minds.trans (h : s.Minds r t) (k : t.Minds r u) : s.Minds r u :=
  ⟨k.length.trans h.length, k.invocations.trans h.invocations, k.ctrs.trans h.ctrs, fun hl =>
    ⟨(h.spares hl).1.trans (k.spares (h.spares hl).2).1, (k.spares (h.spares hl).2).2⟩⟩
theorem State.modTenant_minds (r : CmdRef) (s : State) (k : Nat) (f : Tenant → Tenant) : s.Minds r (s.modTenant k f) :=
  ⟨List.length_modify .., rfl, rfl, fun h => ⟨.of_pcie rfl rfl, h⟩⟩

end

/-- A slot that is emptied. -/
theorem State.dropModel_spec (s : State) {n : Nat} (hn : n < s.tenants.length) (slot : Nat) (r : CmdRef) :
    (s.dropModel n slot).model? n slot = none ∧ s.Minds r (s.dropModel n slot) := by
  unfold State.dropModel
  split
  · next h => exact ⟨h, (State.Prepares.refl n r s).minds⟩
  next m _ =>
  extract_lets s1 s2
  have h1 : s.Prepares n r s1 := by
    refine .foldl (fun v h => ?_) _ _
    split
    · exact v.endBuffer_prepares n r n _
    · exact .refl n r v
  have h2 : s1.Prepares n r s2 := s1.modProt_prepares n r _
  have h12 := h1.trans h2
  clear_value s2
  refine ⟨?_, h12.minds.trans (State.modTenant_minds r s2 n _)⟩
  rw [State.model?, State.tenant_modTenant _ _ (by rw [h12.length]; exact hn), List.find?_eq_none]
  intro x hx
  simpa using (List.mem_filter.mp hx).2

/-- The fields of a model that a first piece gives. -/
structure Model.Reserved (m : Model) (slot first : Nat) (bs : List Byte) : Prop where
  slot : m.slot = slot
  state : m.state = .receiving
  counterFirst : m.counterFirst = first
  batch : m.batch = readLe (listReader bs) 0x20 2
  packageLength : m.packageLength = readLe (listReader bs) 8 8
/-- The tenant with a model in a slot. -/
def Tenant.withModel (slot : Nat) (m : Model) (home : Region) (x : Tenant) : Tenant :=
  { x with
    models := (x.models.filter (·.slot != slot)) ++ [m]
    homes := (slot, home) :: x.homes.filter (·.1 != slot)
    modelPools := (slot, {}) :: x.modelPools.filter (·.1 != slot) }
/-- A slot that is reserved. -/
theorem State.reserveModel_spec (s : State) {n : Nat} (hn : n < s.tenants.length) (slot first : Nat) (bs : List Byte) (r : CmdRef) :
    (∃ m, (s.reserveModel n slot bs first).model? n slot = some m ∧ m.Reserved slot first bs) ∧ s.Minds r (s.reserveModel n slot bs first) := by
  unfold State.reserveModel
  extract_lets rd l d r' p q es mine taken handle m
  obtain ⟨home, s1, hs1, hh⟩ : ∃ home s1, s.Minds r s1 ∧ s.drawRegion = (home, s1) :=
    ⟨s.drawRegion.1, s.drawRegion.2, ⟨rfl, rfl, rfl, fun h => ⟨.of_pcie rfl rfl, h⟩⟩, rfl⟩
  rw [hh]
  dsimp only
  obtain ⟨s2, hs2⟩ : ∃ s2, s2 = s1.modTenant n (Tenant.withModel slot m home) := ⟨_, rfl⟩
  have hm2 : s1.Minds r s2 := hs2 ▸ State.modTenant_minds r s1 n _
  have hmodel : s2.model? n slot = some m := by
    rw [hs2, State.model?, State.tenant_modTenant _ _ (by rw [hs1.length]; exact hn), Tenant.withModel]
    dsimp only
    rw [List.find?_append, List.find?_eq_none.mpr (fun x hx => by simpa using (List.mem_filter.mp hx).2), Option.none_or]
    exact List.find?_cons_of_pos (beq_self_eq_true slot)
  have hp : s2.Prepares n r (es.zipIdx.foldl (fun (s : State) x =>
      let p := (placementOf x.1.flags).getD .tile
      let zero := bit x.1.flags 5 || x.1.source != 0xFFFF
      let s := s.newBuffer n (planIndex slot x.2) p x.1.size x.1.firstExtent (if zero then some {} else none)
        (some (slot, x.2))
      if p = .tile && zero then
        let first := s.planBase n slot x.2
        (s.clearTiles ((m.homePlace.drop first).take (granulesOf x.1.size))).modTenant n fun y => { y with
        homes := (slot, ((y.homes.lookup slot).getD {}).put (granule * first)
          (List.replicate (granule * granulesOf x.1.size) 0)) :: y.homes.filter (·.1 != slot) }
      else s) (s2.trimShared n)) := by
    refine State.Prepares.trans (t := s2.trimShared n) (State.modTenant_prepares n r s2 n fun _ => rfl) (.foldl (fun v x => ?_) _ _)
    extract_lets p' zero w first'
    have hw : v.Prepares n r w := v.newBuffer_prepares ..
    split
    · exact hw.trans ((w.modProt_prepares n r _).trans (State.modTenant_prepares n r _ n fun _ => rfl))
    · exact hw
  rw [hs2] at hp
  refine ⟨⟨m, ?_, ⟨rfl, rfl, rfl, rfl, rfl⟩⟩, hs1.trans ((hs2 ▸ hm2).trans hp.minds)⟩
  rw [← hs2] at hp
  have := State.model?_of_models hp.models slot
  rw [hs2] at this
  exact this.trans (hs2 ▸ hmodel)

/-- An admission keeps the tenant's models but for the slot's state and image. -/
theorem State.admitModel_spec (s : State) {n : Nat} (hn : n < s.tenants.length) {slot : Nat} {m : Model} (hm : s.model? n slot = some m) (r : CmdRef) :
    (∃ m', (s.admitModel n slot).model? n slot = some m' ∧ m'.state = .admitted ∧ m'.reservation = m.reservation ∧ m'.plan = m.plan
      ∧ m'.package = m.package) ∧ s.Minds r (s.admitModel n slot) := by
  unfold State.admitModel
  rw [hm]
  dsimp only
  set u := List.foldl _ s _ with hu
  have hp : s.Prepares n r u := by
    rw [hu]
    refine .foldl (fun v x => ?_) _ _
    split
    · exact .refl n r v
    · split
      · exact v.modTenant_prepares n r n fun _ => rfl
      · exact v.modTenant_prepares n r n fun _ => rfl
  clear_value u
  exact ⟨⟨_, State.model?_modModel (by rw [hp.length]; exact hn) ((State.model?_of_models hp.models slot).trans hm) fun _ => rfl, rfl, rfl, rfl, rfl⟩,
    hp.minds.trans (u.modTenant_minds r n _)⟩

/-! ### The data of a short piece -/

theorem Mem.run_length (d : Nat → Byte) (a n : Nat) (m : Mem) : (Mem.run d a n m).length = n := by
  induction n generalizing a m with
  | zero => rfl
  | succ n ih =>
    cases m with
    | nil => exact congrArg Nat.succ (ih _ _)
    | cons x m =>
      rw [Mem.run]
      split <;> exact congrArg Nat.succ (ih _ _)
theorem State.dataIn_length (s : State) (p1 p2 : Qword) {n : Nat} (hn : n < 4096) : (s.dataIn p1 p2 n).length = n := by
  have hg (a k : Nat) : (s.hostGet a k).length = k := Mem.run_length ..
  unfold State.dataIn State.prps
  dsimp only
  split
  · simp only [List.flatMap_cons, List.flatMap_nil, List.append_nil, hg]; omega
  · rw [if_pos (by omega)]
    simp only [List.flatMap_cons, List.flatMap_nil, List.append_nil, List.length_append, hg]; omega
theorem State.firstPieceBad_of_short (s : State) (n : Nat) {bs : List Byte} (first : Nat) (h : bs.length < 4096) :
    s.firstPieceBad n bs first = admitReason 4 := by
  unfold State.firstPieceBad
  extract_lets rd k l short body
  exact if_pos (by simp only [short, Bool.or_eq_true, decide_eq_true_iff]; left; omega)

/-! ### ADMIT -/

section
variable {s t : State} {c : Cmd} (h : StartsVendor s c false false (fun _ => none) t) (hb : bits c.cdw10.toNat 24 0 ≤ 16777216)
include h hb

/-- ADMIT's own bound on its data holds. -/
theorem startsVendor_admit :
    StartsVendor s c false false (fun _ => if bits c.cdw10.toNat 24 0 > 16777216 then some .invalidField else none) t := by
  obtain ⟨h1, h2, h3, -, h5⟩ := h
  exact ⟨h1, h2, h3, if_neg (by omega), h5⟩
theorem exec_admit_length (hn : bits c.cdw10.toNat 24 0 < 4 ∨ bits c.cdw10.toNat 24 0 % 4 ≠ 0) :
    exec (.admitModel c) s = .next (t.complete c.ref .invalidField) := by
  refine (State.vendor_of_startsVendor (startsVendor_admit h hb) _).trans (congrArg Host.Outcome.next (if_pos ?_))
  simpa using hn
variable (h4 : 4 ≤ bits c.cdw10.toNat 24 0) (hmod : bits c.cdw10.toNat 24 0 % 4 = 0)
include h4 hmod
omit h hb in
theorem length_passes : ¬ (decide (bits c.cdw10.toNat 24 0 < 4) || decide (bits c.cdw10.toNat 24 0 % 4 ≠ 0)) = true := by
  simp; omega
theorem exec_admit_exchange (hx : t.sharesExchange (c.fn - 1) = true) : exec (.admitModel c) s = .next (t.complete c.ref .regionQuiescing) :=
  (State.vendor_of_startsVendor (startsVendor_admit h hb) _).trans
    (congrArg Host.Outcome.next ((if_neg (length_passes h4 hmod)).trans (if_pos hx)))
variable (hx : t.sharesExchange (c.fn - 1) = false)
include hx
theorem exec_admit_admitted (ho : c.cdw11.toNat + 2 ^ 32 * c.cdw12.toNat = 0) {m : Model}
    (hm : t.model? (c.fn - 1) (bits c.cdw13.toNat 5 0) = some m) (hs : m.state = .admitted) :
    exec (.admitModel c) s = .next (t.complete c.ref .sequenceError) := by
  refine (State.vendor_of_startsVendor (startsVendor_admit h hb) _).trans
    (congrArg Host.Outcome.next ((if_neg (length_passes h4 hmod)).trans ((if_neg (Bool.eq_false_iff.mp hx)).trans (if_pos ?_))))
  have hm' : t.model? c.tenant (bits c.cdw13.toNat 5 0) = some m := hm
  exact Bool.and_eq_true_iff.mpr ⟨decide_eq_true ho, by rw [hm']; exact decide_eq_true hs⟩
omit h hb h4 hmod hx in
theorem first_piece_only (ho : c.cdw11.toNat + 2 ^ 32 * c.cdw12.toNat ≠ 0) {p : Bool} :
    ¬ (decide (c.cdw11.toNat + 2 ^ 32 * c.cdw12.toNat = 0) && p) = true := fun q => ho (of_decide_eq_true (Bool.and_eq_true_iff.mp q).1)
theorem exec_admit_outOfPlace (ho : c.cdw11.toNat + 2 ^ 32 * c.cdw12.toNat ≠ 0)
    (hm : ∀ m, t.model? (c.fn - 1) (bits c.cdw13.toNat 5 0) = some m →
      m.state ≠ .receiving ∨ m.received ≠ c.cdw11.toNat + 2 ^ 32 * c.cdw12.toNat) :
    exec (.admitModel c) s = .next (t.complete c.ref .invalidField 0x0A) := by
  refine (State.vendor_of_startsVendor (startsVendor_admit h hb) _).trans
    (congrArg Host.Outcome.next ((if_neg (length_passes h4 hmod)).trans ((if_neg (Bool.eq_false_iff.mp hx)).trans
      ((if_neg (first_piece_only ho)).trans (if_pos ?_)))))
  change ∀ m, t.model? c.tenant (bits c.cdw13.toNat 5 0) = some m → _ at hm
  rw [Bool.and_eq_true, decide_eq_true_iff, Bool.not_eq_true', Bool.and_eq_false_iff, beq_eq_false_iff_ne, beq_eq_false_iff_ne]
  refine ⟨ho, ?_⟩
  cases hq : t.model? c.tenant (bits c.cdw13.toNat 5 0) with
  | none => exact .inl (by simp)
  | some m =>
    simp only [Option.map_some, Option.getD_some]
    exact (hm m hq).imp id Ne.symm
omit h hb h4 hmod hx in
theorem in_place {m : Model} (hm : t.model? c.tenant (bits c.cdw13.toNat 5 0) = some m) (hs : m.state = .receiving)
    (hr : m.received = c.cdw11.toNat + 2 ^ 32 * c.cdw12.toNat) {p : Bool} :
    ¬ (p && !(((t.model? c.tenant (bits c.cdw13.toNat 5 0)).map (·.state)).getD .empty == .receiving
      && c.cdw11.toNat + 2 ^ 32 * c.cdw12.toNat == ((t.model? c.tenant (bits c.cdw13.toNat 5 0)).map (·.received)).getD 0)) = true := by
  rw [hm]
  simp [hs, hr]
section
variable (ho : c.cdw11.toNat + 2 ^ 32 * c.cdw12.toNat = 0) (hm : t.model? c.tenant (bits c.cdw13.toNat 5 0) = none)
include ho hm

omit h hb h4 hmod hx ho in
theorem state_of_empty {p : Bool} :
    ¬ (p && decide (((t.model? c.tenant (bits c.cdw13.toNat 5 0)).map (·.state)).getD .empty = .admitted)) = true := by
  rw [hm]
  exact fun q => absurd (of_decide_eq_true (Bool.and_eq_true_iff.mp q).2) (by decide)
omit h hb h4 hmod hx hm in
theorem offset_is_zero {p : Bool} : ¬ (decide (c.cdw11.toNat + 2 ^ 32 * c.cdw12.toNat ≠ 0) && p) = true := fun q =>
  absurd ho (of_decide_eq_true (Bool.and_eq_true_iff.mp q).1)
/-- A first piece of an empty slot that its checks refuse. -/
theorem exec_admit_bad {r : Refused}
    (hr : t.firstPieceBad c.tenant (t.dataIn c.prp1 c.prp2 (bits c.cdw10.toNat 24 0)) (bits c.cdw14.toNat 12 0) = some r) :
    exec (.admitModel c) s = .next (t.complete c.ref r.st r.dw0) := by
  have hd : t.dropModel c.tenant (bits c.cdw13.toNat 5 0) = t := by rw [State.dropModel, hm]
  refine (State.vendor_of_startsVendor (startsVendor_admit h hb) _).trans
    (congrArg Host.Outcome.next ((if_neg (length_passes h4 hmod)).trans ((if_neg (Bool.eq_false_iff.mp hx)).trans
      ((if_neg (state_of_empty hm)).trans ((if_neg (offset_is_zero ho)).trans ((if_pos ho).trans ?_))))))
  dsimp only
  rw [hd, hr]
/-- The slot of a first piece. -/
def State.firstPiece (c : Cmd) (t : State) : State :=
  (t.reserveModel c.tenant (bits c.cdw13.toNat 5 0) (t.dataIn c.prp1 c.prp2 (bits c.cdw10.toNat 24 0)) (bits c.cdw14.toNat 12 0)).modModel c.tenant
    (bits c.cdw13.toNat 5 0) fun m => { m with
      received := c.cdw11.toNat + 2 ^ 32 * c.cdw12.toNat + bits c.cdw10.toNat 24 0
      package := m.package.put (c.cdw11.toNat + 2 ^ 32 * c.cdw12.toNat) (t.dataIn c.prp1 c.prp2 (bits c.cdw10.toNat 24 0)) }
/-- A first piece of an empty slot reserves and is stored. -/
theorem exec_admit_first {m : Model}
    (hr : t.firstPieceBad c.tenant (t.dataIn c.prp1 c.prp2 (bits c.cdw10.toNat 24 0)) (bits c.cdw14.toNat 12 0) = none)
    (hu : (t.firstPiece c).model? c.tenant (bits c.cdw13.toNat 5 0) = some m) (hf : c.cdw13.getLsbD 8 = false) :
    exec (.admitModel c) s = .next ((t.firstPiece c).complete c.ref .success (bits c.cdw13.toNat 5 0)) := by
  have hd : t.dropModel c.tenant (bits c.cdw13.toNat 5 0) = t := by rw [State.dropModel, hm]
  refine (State.vendor_of_startsVendor (startsVendor_admit h hb) _).trans
    (congrArg Host.Outcome.next ((if_neg (length_passes h4 hmod)).trans ((if_neg (Bool.eq_false_iff.mp hx)).trans
      ((if_neg (state_of_empty hm)).trans ((if_neg (offset_is_zero ho)).trans ((if_pos ho).trans ?_))))))
  dsimp only
  rw [hd, hr]
  dsimp only
  obtain ⟨u, hu'⟩ : ∃ u, u = t.firstPiece c := ⟨_, rfl⟩
  rw [← hu'] at hu ⊢
  rw [State.firstPiece] at hu'
  rw [← hu']
  clear hu'
  rw [hu]
  dsimp only
  rw [if_pos (by rw [hf]; rfl)]

end
/-- The model with a further piece. -/
def Model.grown (c : Cmd) (bs : List Byte) (m : Model) : Model :=
  { m with
    received := c.cdw11.toNat + 2 ^ 32 * c.cdw12.toNat + bits c.cdw10.toNat 24 0
    package := m.package.put (c.cdw11.toNat + 2 ^ 32 * c.cdw12.toNat) bs }
/-- The state with a further piece of a model. -/
def State.nextPiece (c : Cmd) (t : State) : State :=
  t.modModel c.tenant (bits c.cdw13.toNat 5 0) (Model.grown c (t.dataIn c.prp1 c.prp2 (bits c.cdw10.toNat 24 0)))
section
variable (ho : c.cdw11.toNat + 2 ^ 32 * c.cdw12.toNat ≠ 0) {m : Model} (hm : t.model? c.tenant (bits c.cdw13.toNat 5 0) = some m)
  (hs : m.state = .receiving) (hr : m.received = c.cdw11.toNat + 2 ^ 32 * c.cdw12.toNat) {u : State} {m' : Model}
  (hu : t.nextPiece c = u) (hm' : u.model? c.tenant (bits c.cdw13.toNat 5 0) = some m') (hf : c.cdw13.getLsbD 8 = true)
include ho hm hs hr hu hm' hf

/-- A FINAL piece that makes a package of another length. -/
theorem exec_admit_last_length (hl : c.cdw11.toNat + 2 ^ 32 * c.cdw12.toNat + bits c.cdw10.toNat 24 0 ≠ m'.packageLength) :
    exec (.admitModel c) s = .next ((u.dropModel c.tenant (bits c.cdw13.toNat 5 0)).complete c.ref .invalidField 9) := by
  refine (State.vendor_of_startsVendor (startsVendor_admit h hb) _).trans
    (congrArg Host.Outcome.next ((if_neg (length_passes h4 hmod)).trans ((if_neg (Bool.eq_false_iff.mp hx)).trans
      ((if_neg (first_piece_only ho)).trans ((if_neg (in_place hm hs hr)).trans ((if_neg ho).trans ?_))))))
  dsimp only
  unfold State.nextPiece Model.grown at hu
  rw [hu, hm']
  dsimp only
  rw [if_neg (by rw [hf]; decide), if_pos hl]
/-- A FINAL piece that makes a whole package. -/
theorem exec_admit_last (hl : c.cdw11.toNat + 2 ^ 32 * c.cdw12.toNat + bits c.cdw10.toNat 24 0 = m'.packageLength)
    (hc : ∀ x ∈ sectionsOf m'.package.at, 4 ≤ x.type → crc32c (m'.package.get x.off x.len) = x.crc) :
    exec (.admitModel c) s = .next ((u.admitModel c.tenant (bits c.cdw13.toNat 5 0)).complete c.ref .success (bits c.cdw13.toNat 5 0)) := by
  refine (State.vendor_of_startsVendor (startsVendor_admit h hb) _).trans
    (congrArg Host.Outcome.next ((if_neg (length_passes h4 hmod)).trans ((if_neg (Bool.eq_false_iff.mp hx)).trans
      ((if_neg (first_piece_only ho)).trans ((if_neg (in_place hm hs hr)).trans ((if_neg ho).trans ?_))))))
  dsimp only
  unfold State.nextPiece Model.grown at hu
  rw [hu, hm']
  dsimp only
  rw [if_neg (by rw [hf]; decide), if_neg (not_not.mpr hl), if_neg]
  rw [Bool.not_eq_true, List.any_eq_false]
  intro x hx hq
  obtain ⟨hty, hq⟩ := Bool.and_eq_true_iff.mp hq
  exact absurd (hc x hx (of_decide_eq_true hty)) (by simpa using hq)
end
end

/-! ### RELEASE -/

section
variable {s t : State} {c : Cmd} (h : StartsVendor s c false false (fun _ => none) t)
include h

theorem exec_release_exchange (hx : t.sharesExchange (c.fn - 1) = true) : exec (.release c) s = .next (t.complete c.ref .regionQuiescing) :=
  (State.vendor_of_startsVendor h _).trans (congrArg Host.Outcome.next (if_pos hx))
variable (hx : t.sharesExchange (c.fn - 1) = false)
include hx
theorem exec_release_empty (hm : t.model? c.tenant (bits c.cdw10.toNat 5 0) = none) :
    exec (.release c) s = .next (t.complete c.ref .modelNotAdmitted) := by
  refine (State.vendor_of_startsVendor h _).trans (congrArg Host.Outcome.next ((if_neg (Bool.eq_false_iff.mp hx)).trans ?_))
  rw [hm]
theorem exec_release_model {m : Model} (hm : t.model? c.tenant (bits c.cdw10.toNat 5 0) = some m) :
    let n := (t.invocations.filter fun i => i.tenant == c.tenant && i.slot == bits c.cdw10.toNat 5 0).length
    exec (.release c) s = .next (if m.state = .admitted && n > 0 then t.complete c.ref .bufferBusy n
      else (t.dropModel c.tenant (bits c.cdw10.toNat 5 0)).complete c.ref .success) := by
  refine (State.vendor_of_startsVendor h _).trans (congrArg Host.Outcome.next ((if_neg (Bool.eq_false_iff.mp hx)).trans ?_))
  rw [hm]

end

/-! ### ADMIT and RELEASE (O33) -/

section
variable {s t : State} {c : Cmd} {owner needsRun : Bool} {early : State → Option Status} (h : StartsVendor s c owner needsRun early t)
include h

theorem startsVendor_model? (n slot : Nat) : t.model? n slot = s.model? n slot := State.model?_of_models (by rw [startsVendor_tenant h]) slot
theorem startsVendor_lacks : t.Lacks c.ref := by
  obtain ⟨hf1, -, hf3, -⟩ := h.2.1
  rw [State.Lacks, State.begin_media h.1]
  exact ⟨hf1, hf3⟩
theorem startsVendor_sharesExchange (n : Nat) : t.sharesExchange n = s.sharesExchange n := by
  rw [State.sharesExchange, State.begin_pers h.1]
  rfl
/-- A command that ends after changes that mind only its tenant's slots. -/
theorem startsVendor_minds {u : State} (hm : t.Minds c.ref u) (st : Status) (a b : Nat) :
    Ends s (u.complete c.ref st a b) c st a b ∧ (u.complete c.ref st a b).invocations = s.invocations
      ∧ (u.complete c.ref st a b).ctrs = s.ctrs ∧ (u.complete c.ref st a b).tenants = u.tenants := by
  have hk := u.complete_onlyHost c.ref st a b
  exact ⟨State.begin_ends h.1 (((hm.spares (startsVendor_lacks h)).1).ends (State.begin_firm h.1) ..),
    (congrArg State.invocations hk :).trans (hm.invocations.trans (State.begin_invocations h.1)),
    (congrArg State.ctrs hk :).trans (hm.ctrs.trans (congrArg State.ctrs (State.begin_spec h.1).1 :)), (congrArg State.tenants hk :)⟩

end

theorem State.model?_of_tenants {u v : State} (h : v.tenants = u.tenants) (n slot : Nat) : v.model? n slot = u.model? n slot := by
  rw [State.model?, State.tenant, h]; rfl

theorem State.nextPiece_spec {c : Cmd} (t : State) (hn : c.tenant < t.tenants.length) {m : Model}
    (hm : t.model? c.tenant (bits c.cdw13.toNat 5 0) = some m) :
    (t.nextPiece c).model? c.tenant (bits c.cdw13.toNat 5 0)
        = some (Model.grown c (t.dataIn c.prp1 c.prp2 (bits c.cdw10.toNat 24 0)) m) ∧ t.Minds c.ref (t.nextPiece c) :=
  ⟨State.model?_modModel hn hm fun _ => rfl, State.modTenant_minds c.ref t c.tenant _⟩

/-- Settles O33, by the checks of each command in turn. -/
theorem packageAdmission : Obligations.PackageAdmission := by
  unfold Obligations.PackageAdmission
  intro s t c h hb hlen n off slot first held bs
  have hmod := startsVendor_model? h
  have hx := startsVendor_sharesExchange h (c.fn - 1)
  have htl : c.tenant < t.tenants.length := by rw [State.begin_tenants h.1]; exact hlen
  refine ⟨fun hn => startsVendor_ends h (exec_admit_length h hb hn), fun hs => ⟨fun h4 h0 => ?_, ?_⟩, fun hs => ?_⟩
  · exact startsVendor_ends h (exec_admit_exchange h hb h4 h0 (hx.trans hs))
  · exact startsVendor_ends h (exec_release_exchange h (hx.trans hs))
  rw [hs] at hx
  refine ⟨fun h4 h0 ho ⟨m, hm, hst⟩ => ?_, fun h4 h0 ho hm => ?_, fun h4 h0 ho hm hn => ?_, fun h4 h0 ho hm hbad hf => ?_,
    fun m h4 h0 ho hm hst hr hf => ⟨fun hl => ?_, fun hl hc => ?_⟩, fun m hm => ⟨fun hst hn => ?_, fun hn => ?_⟩, fun hm => ?_⟩
  · exact startsVendor_ends h (exec_admit_admitted h hb h4 h0 hx ho ((hmod _ _).trans hm) hst)
  · exact startsVendor_ends h (exec_admit_outOfPlace h hb h4 h0 hx ho fun m hq => hm m ((hmod _ _).symm.trans hq))
  · have hbs : (t.dataIn c.prp1 c.prp2 (bits c.cdw10.toNat 24 0)).length < 4096 := by rw [State.dataIn_length _ _ _ hn]; exact hn
    exact startsVendor_ends h (exec_admit_bad h hb h4 h0 hx ho ((hmod _ _).trans hm) (t.firstPieceBad_of_short _ _ hbs))
  · obtain ⟨⟨m, hm', hres⟩, hmi⟩ := t.reserveModel_spec htl slot first bs c.ref
    have hmod' : (t.firstPiece c).model? c.tenant slot = some (Model.grown c bs m) :=
      State.model?_modModel (by rw [hmi.length]; exact htl) hm' fun _ => rfl
    obtain ⟨hE, hi, hct, htn⟩ := startsVendor_minds h (hmi.trans (State.modTenant_minds c.ref _ _ _)) .success slot 0
    refine ⟨_, Model.grown c bs m, exec_admit_first h hb h4 h0 hx ho ((hmod _ _).trans hm) hbad hmod' hf, hE,
      (State.model?_of_tenants htn _ _).trans hmod', hres.state, ?_, hres.counterFirst, hres.batch, hres.packageLength, hi, hct⟩
    show off + n = n
    omega
  · obtain ⟨hmod', hmi⟩ := t.nextPiece_spec htl ((hmod _ _).trans hm)
    obtain ⟨hd, hmd⟩ := (t.nextPiece c).dropModel_spec (n := c.tenant) (by rw [hmi.length]; exact htl) slot c.ref
    obtain ⟨hE, -, -, htn⟩ := startsVendor_minds h (hmi.trans hmd) .invalidField 9 0
    exact ⟨_, exec_admit_last_length h hb h4 h0 hx ho ((hmod _ _).trans hm) hst hr rfl hmod' hf hl, hE, (State.model?_of_tenants htn _ _).trans hd⟩
  · obtain ⟨hmod', hmi⟩ := t.nextPiece_spec htl ((hmod _ _).trans hm)
    obtain ⟨⟨m', hm', hst', hre, hpl, hpk⟩, hmd⟩ :=
      (t.nextPiece c).admitModel_spec (n := c.tenant) (by rw [hmi.length]; exact htl) hmod' c.ref
    obtain ⟨hE, -, -, htn⟩ := startsVendor_minds h (hmi.trans hmd) .success slot 0
    exact ⟨_, m', exec_admit_last h hb h4 h0 hx ho ((hmod _ _).trans hm) hst hr rfl hmod' hf hl hc, hE,
      (State.model?_of_tenants htn _ _).trans hm', hst', hre, hpl, hpk⟩
  · have hinv : t.invocations = s.invocations := State.begin_invocations h.1
    refine startsVendor_ends h ((exec_release_model h hx ((hmod _ _).trans hm)).trans (congrArg Host.Outcome.next (if_pos ?_) |>.trans ?_))
    · rw [hst, hinv]
      exact Bool.and_eq_true_iff.mpr ⟨rfl, decide_eq_true hn⟩
    · rw [hinv]
      rfl
  · have hinv : t.invocations = s.invocations := State.begin_invocations h.1
    obtain ⟨hd, hmd⟩ := t.dropModel_spec htl (bits c.cdw10.toNat 5 0) c.ref
    obtain ⟨hE, hi, -, htn⟩ := startsVendor_minds h hmd .success 0 0
    refine ⟨_, (exec_release_model h hx ((hmod _ _).trans hm)).trans (congrArg Host.Outcome.next (if_neg fun hq => ?_)), hE,
      (State.model?_of_tenants htn _ _).trans hd, hi⟩
    have := of_decide_eq_true (Bool.and_eq_true_iff.mp hq).2
    rw [hinv] at this
    exact absurd hn (Nat.ne_of_gt this)
  · exact startsVendor_ends h (exec_release_empty h hx ((hmod _ _).trans hm))

end Sys2Proof.Machine
end

section
/-!
PROOFS. Chapter 06: INVOKE, SEARCH, EXTRACT and SERVICE (O35).
-/

namespace Sys2Proof.Machine

open Sys2Proof.Safety

section
variable {s t : State} {c : Cmd}

theorem startsVendor_invoke (h : StartsVendor s c false true (fun _ => none) t)
    (hb : ceilDiv (inBytesOf c) 4096 * 4096 + outBytesOf c ≤ 16777216)
    (hd : deadlineOf c = 0 ∨ (s.pcie.floorMs ≤ deadlineOf c ∧ deadlineOf c ≤ 60000)) (kind : InvKind) :
    StartsVendor s c false true (fun s =>
      if ceilDiv (inBytesOf c) 4096 * 4096 + outBytesOf c > 16777216 then some .invalidField
      else if kind = .service && deadlineOf c = 0xFFFF then none else s.deadlineBad (deadlineOf c)) t := by
  obtain ⟨h1, h2, h3, -, h5⟩ := h
  have hf : t.pcie.floorMs = s.pcie.floorMs := State.begin_floorMs h1
  refine ⟨h1, h2, h3, (if_neg (by omega)).trans ?_, h5⟩
  split
  · rfl
  · rw [State.deadlineBad, hf]
    refine if_neg fun hq => ?_
    simp only [Bool.and_eq_true, Bool.or_eq_true, decide_eq_true_iff] at hq
    omega

variable {kind : InvKind}
  (h : StartsVendor s c false true (fun s =>
    if ceilDiv (inBytesOf c) 4096 * 4096 + outBytesOf c > 16777216 then some .invalidField
    else if kind = .service && deadlineOf c = 0xFFFF then none else s.deadlineBad (deadlineOf c)) t)
include h

theorem invoke_empty (hm : t.model? c.tenant (bits c.cdw12.toNat 5 0) = none) :
    s.invoke c kind = .next (t.complete c.ref .modelNotAdmitted) := by
  refine (State.vendor_of_startsVendor h _).trans (congrArg Host.Outcome.next ?_)
  dsimp only
  rw [hm]
variable {m : Model} (hm : t.model? c.tenant (bits c.cdw12.toNat 5 0) = some m) (hs : m.state = .admitted)
include hm hs
theorem invoke_entry (he : m.entryMask.getLsbD kind.bit = false) : s.invoke c kind = .next (t.complete c.ref .invalidField) := by
  refine (State.vendor_of_startsVendor h _).trans (congrArg Host.Outcome.next ?_)
  dsimp only
  rw [hm]
  dsimp only
  rw [if_neg (not_not.mpr hs), he]
  rfl
variable (he : m.entryMask.getLsbD kind.bit = true)
include he
theorem invoke_batch (hb : m.batch ≠ 0 ∧ batchOf c ≠ m.batch ∨ m.batch = 0 ∧ m.batchMax < batchOf c) :
    s.invoke c kind = .next (t.complete c.ref .batchMismatch) := by
  refine (State.vendor_of_startsVendor h _).trans (congrArg Host.Outcome.next ?_)
  dsimp only
  rw [hm]
  dsimp only
  rw [if_neg (not_not.mpr hs), he, if_neg (by decide), if_pos (by simpa using hb)]
variable (hb : m.batch = batchOf c ∨ (m.batch = 0 ∧ batchOf c ≤ m.batchMax))
  (hc : c.cdw14.getLsbD 13 = true → t.ownsCtr c.tenant (bits c.cdw14.toNat 12 0) = true) (hf : t.invFieldsBad c kind m = false)
include hf
theorem invoke_none (h0 : m.batch = 0) (hb0 : batchOf c = 0) (hn : c.cdw14.getLsbD 13 = false) :
    s.invoke c kind = .next (t.complete c.ref .success) := by
  refine (State.vendor_of_startsVendor h _).trans (congrArg Host.Outcome.next ?_)
  dsimp only
  rw [hm]
  dsimp only
  rw [if_neg (not_not.mpr hs), he, if_neg (by decide), if_neg (by simp; omega), hn, if_neg (by simp), hf, if_neg (by decide),
    if_pos (by simp [h0, hb0])]
  rfl
include hb hc
/-- The invocation that a command makes. -/
def State.newInvocation (t : State) (c : Cmd) (kind : InvKind) : Invocation :=
  let at_ := t.fetchedAt c.ref
  let ms := if deadlineOf c = 0 then (t.ctrl c.fn).features.deadlineMs else deadlineOf c
  let hdr := t.bufferGet c.prp1 c.prp2 (dataBytes (inBytesOf c) (outBytesOf c)) 0 64
  { ref := c.ref, kind := kind, tenant := c.tenant, slot := bits c.cdw12.toNat 5 0, batch := batchOf c
    k := kOf c, maxKeypoints := keypointsOf c, groups := BitVec.ofNat 4 (groupsOf c)
    expedite := c.cdw12.getLsbD 21, fetchedAt := at_
    deadlineAt := if kind = .service && deadlineOf c = 0xFFFF then none else some (at_ + 1000 * ms)
    cbump := if c.cdw14.getLsbD 13 then some (bits c.cdw14.toNat 12 0, bits c.cdw14.toNat 29 14) else none
    inBytes := inBytesOf c, outBytes := outBytesOf c, prp1 := c.prp1, prp2 := c.prp2
    binds := (List.range 14).map fun k => readLe (listReader hdr) (4 * k) 4 }
theorem invoke_waits (hb0 : ¬(m.batch = 0 ∧ batchOf c = 0))
    (hk : ∀ k, k < 14 → t.bindBad c.tenant
      (readLe (listReader (t.bufferGet c.prp1 c.prp2 (dataBytes (inBytesOf c) (outBytesOf c)) 0 64)) (4 * k) 4) = none)
    (hend : (t.tenant c.tenant).ending = none) :
    s.invoke c kind = .next { t with invocations := t.invocations ++ [t.newInvocation c kind] } := by
  refine (State.vendor_of_startsVendor h _).trans (congrArg Host.Outcome.next ?_)
  dsimp only
  rw [hm]
  dsimp only
  rw [if_neg (not_not.mpr hs), he, if_neg (by decide), if_neg (by simp; omega), if_neg (by simpa using hc), hf, if_neg (by decide),
    if_neg (by simpa using hb0), List.findSome?_eq_none_iff.mpr]
  · exact if_neg (show ¬ (t.tenant c.tenant).ending.isSome = true by rw [hend]; decide)
  · intro x hx
    obtain ⟨k, hk', rfl⟩ := List.mem_map.mp hx
    exact hk k (List.mem_range.mp hk')

end

/-- Settles O35, by the checks in turn. -/
theorem invocationCommands : Obligations.InvocationCommands := by
  unfold Obligations.InvocationCommands
  intro s t c h hb hd x hx slot ctr
  have hexec : exec x.1 s = s.invoke c x.2 := by
    simp only [List.mem_cons, List.not_mem_nil, or_false] at hx
    obtain rfl | rfl | rfl | rfl := hx <;> rfl
  rw [hexec]
  generalize x.2 = kind
  clear hexec hx x
  have hk := startsVendor_invoke h hb hd kind
  have hinv : t.invocations = s.invocations := State.begin_invocations h.1
  have hmod := startsVendor_model? h (c.fn - 1) slot
  have hown : t.ownsCtr c.tenant ctr = s.ownsCtr (c.fn - 1) ctr := by
    rw [State.ownsCtr, State.record, State.begin_pers h.1]; rfl
  have hend {st : Status} (hx : s.invoke c kind = .next (t.complete c.ref st)) :
      ∃ u, s.invoke c kind = .next u ∧ Ends s u c st ∧ u.invocations = s.invocations :=
    ⟨_, hx, State.begin_completes h.1 st 0 0, (congrArg State.invocations (t.complete_onlyHost c.ref st 0 0) :).trans hinv⟩
  refine ⟨fun hm => hend (invoke_empty hk (hmod.trans hm)), fun m hm hs => ?_⟩
  have hm' := hmod.trans hm
  refine ⟨fun he => hend (invoke_entry hk hm' hs he), fun he => ⟨fun hbad => hend (invoke_batch hk hm' hs he hbad), fun hgood hc hf => ?_⟩⟩
  refine ⟨fun h0 hb0 hn => hend (invoke_none hk hm' hs he hf h0 hb0 hn), ?_⟩
  intro hb0 hdr hbind hnone
  refine ⟨_, t.newInvocation c kind, invoke_waits hk hm' hs he hgood (fun hq => hown.trans (hc hq)) hf hb0 hbind
    ((congrArg Tenant.ending (startsVendor_tenant h _)).trans hnone), (State.begin_completions h.1 :), ?_, rfl, rfl, rfl, rfl, rfl, rfl, rfl,
    (State.begin_tenants h.1 :), (congrArg State.queues (State.begin_spec h.1).1 :), (congrArg State.ctrs (State.begin_spec h.1).1 :)⟩
  exact congrArg (· ++ [t.newInvocation c kind]) hinv

end Sys2Proof.Machine
end

section
/-!
PROOFS. Chapter 07: a spindle issues a word, and its control operations (O41, O42).
-/

namespace Sys2Proof.Machine

open Sys2Proof.Safety

/-! ### What a stop leaves: the faults counted, the last fault number and the values of the counters -/

/-- The engine faults counted, the last fault number, and the counters' values. -/
def State.tally (s : State) : Nat × Nat × List (Nat × Nat) := (s.engFaults, s.logs.faultNo, s.ctrs.values)

theorem State.placeMove_parts {s u : State} {i : Invocation} {o : CmdOrigin} (h : s.placeMove i o = some u) :
    u.tally = s.tally ∧ u.invocations = s.invocations := by
  unfold State.placeMove at h
  obtain ⟨q, -, rfl⟩ := Option.map_eq_some_iff.mp h
  exact ⟨rfl, rfl⟩
theorem State.beginRun_parts (s : State) (i : Invocation) : (s.beginRun i).tally = s.tally
    ∧ (s.beginRun i).invocations = s.invocations.map fun j => if j.ref = i.ref then { j with phase := .running, home := true } else j := by
  unfold State.beginRun
  extract_lets mine others s1
  have h : (s1.tally, s1.invocations) = (s.tally, s.invocations) := by
    refine foldl_keep (fun u : State => (u.tally, u.invocations)) _ (fun u x => ?_) _ _
    split
    · rfl
    extract_lets u1
    have h1 : (u1.tally, u1.invocations) = (u.tally, u.invocations) := by
      simp only [u1]
      unfold State.zeroPoison
      extract_lets mine bad s1
      exact ite_keep (fun u : State => (u.tally, u.invocations)) rfl rfl
    exact ite_keep (fun u : State => (u.tally, u.invocations)) rfl (ite_keep (fun u : State => (u.tally, u.invocations)) h1
      (ite_keep (fun u : State => (u.tally, u.invocations)) h1 h1))
  obtain ⟨h1, h2⟩ := Prod.mk.inj h
  exact ⟨h1, congrArg _ h2⟩
theorem stopped_map {s u : State} {r r' : CmdRef} (hr : r' ≠ r) {f : Invocation → Invocation}
    (h : u.invocations = s.invocations.map fun j => if j.ref = r' then f j else j) (hf : ∀ j, (f j).ref = j.ref) (hs : Stopped s r) : Stopped u r := by
  intro j hj hjr
  rw [h] at hj
  obtain ⟨k, hk, rfl⟩ := List.mem_map.mp hj
  by_cases hkr : k.ref = r'
  · rw [if_pos hkr, hf] at hjr
    exact absurd (hkr.symm.trans hjr) hr
  · rw [if_neg hkr] at hjr ⊢
    exact hs k hk hjr
theorem State.beginRuns_parts {r : CmdRef} (l : List Invocation) (hl : ∀ i ∈ l, i.ref ≠ r) (s : State) (hs : Stopped s r) :
    (l.foldl (fun (s : State) i => s.beginRun i) s).tally = s.tally ∧ Stopped (l.foldl (fun (s : State) i => s.beginRun i) s) r := by
  induction l generalizing s with
  | nil => exact ⟨rfl, hs⟩
  | cons i l ih =>
    obtain ⟨h1, h2⟩ := s.beginRun_parts i
    obtain ⟨h3, h4⟩ := ih (fun j hj => hl j (List.mem_cons_of_mem _ hj)) (s.beginRun i)
      (stopped_map (hl i List.mem_cons_self) h2 (fun _ => rfl) hs)
    exact ⟨h3.trans h1, h4⟩
theorem State.pumpHome_parts (s : State) (t m : Nat) {r : CmdRef} (hs : Stopped s r) :
    (s.pumpHome t m).tally = s.tally ∧ Stopped (s.pumpHome t m) r := by
  unfold State.pumpHome
  extract_lets here waiters
  have hw : ∀ i ∈ waiters, i.ref ≠ r := by
    intro i hi hr
    obtain ⟨hh, hp⟩ := List.mem_filter.mp hi
    have := hs i (List.mem_filter.mp hh).1 hr
    rw [this] at hp
    exact absurd hp (by decide)
  clear_value waiters
  cases waiters with
  | nil =>
    dsimp only
    split
    · exact ⟨rfl, hs⟩
    · exact ⟨rfl, hs⟩
  | cons w ws =>
    dsimp only
    split
    · exact ⟨rfl, hs⟩
    split
    · exact s.beginRuns_parts _ hw hs
    split
    · exact ⟨rfl, hs⟩
    split
    · exact State.beginRuns_parts _ hw _ hs
    split
    · exact ⟨rfl, hs⟩
    · next u hu =>
      obtain ⟨h1, h2⟩ := State.placeMove_parts hu
      exact ⟨h1, stopped_map (s := u) (hw w List.mem_cons_self) rfl (fun _ => rfl) (by rw [Stopped, h2]; exact hs)⟩
theorem State.pumpWaiters_parts (s : State) {r : CmdRef} (hs : Stopped s r) : s.pumpWaiters.tally = s.tally ∧ Stopped s.pumpWaiters r := by
  unfold State.pumpWaiters
  extract_lets s1 waiting
  have h1 : s1.tally = s.tally ∧ Stopped s1 r := by
    simp only [s1]
    have hl : ∀ i ∈ s.invocations.filter (·.phase == .drained), i.ref ≠ r := by
      intro i hi hr
      obtain ⟨hh, hp⟩ := List.mem_filter.mp hi
      rw [hs i hh hr] at hp
      exact absurd hp (by decide)
    generalize s.invocations.filter (·.phase == .drained) = l at hl
    clear s1 waiting
    induction l generalizing s with
    | nil => exact ⟨rfl, hs⟩
    | cons i l ih =>
      rw [List.foldl_cons]
      have hl' := fun j hj => hl j (List.mem_cons_of_mem _ hj)
      split
      · exact ih s hs hl'
      · next u hu =>
        obtain ⟨h1, h2⟩ := State.placeMove_parts hu
        obtain ⟨h3, h4⟩ := ih (u.modInv i.ref fun i => { i with phase := .persisting }) (stopped_map (s := u) (hl i List.mem_cons_self) rfl (fun _ => rfl) (by rw [Stopped, h2]; exact hs)) hl'
        exact ⟨h3.trans h1, h4⟩
  obtain ⟨ht, hs1⟩ := h1
  rw [← ht]
  clear_value s1
  generalize waiting.eraseDups = l
  clear waiting ht hs s
  induction l generalizing s1 with
  | nil => exact ⟨rfl, hs1⟩
  | cons x l ih =>
    obtain ⟨h1, h2⟩ := s1.pumpHome_parts x.1 x.2 hs1
    obtain ⟨h3, h4⟩ := ih _ h2
    exact ⟨h3.trans h1, h4⟩
theorem State.complete_tally (s : State) (r : CmdRef) (st : Status) (a b : Nat) : (s.complete r st a b).tally = s.tally :=
  (congrArg State.tally (s.complete_onlyHost r st a b) :)
theorem State.endInv_parts (s : State) (i : Invocation) (st : Status) (dw0 : Nat) :
    (s.endInv i st dw0).tally = s.tally ∧ Stopped (s.endInv i st dw0) i.ref := by
  unfold State.endInv
  extract_lets s1 s2 s3 s4
  have h1 : s1.tally = s.tally := ite_keep State.tally rfl rfl
  have h2 : s2.tally = s1.tally := rfl
  have g2 : Stopped s2 i.ref := fun j hj hr => absurd hr (bne_iff_ne.mp (List.mem_filter.mp hj).2)
  have h3 : s3.tally = s2.tally ∧ Stopped s3 i.ref := by
    simp only [s3]
    split
    · exact ⟨rfl, g2⟩
    · exact ⟨s2.complete_tally _ _ _ _, by rw [Stopped, (s2.complete_ctrs _ _ _ _).2]; exact g2⟩
  obtain ⟨h4, g4⟩ := s3.pumpHome_parts i.tenant i.slot h3.2
  replace g4 : Stopped s4 i.ref := g4
  have h5 : s4.tally = s.tally := h4.trans (h3.1.trans (h2.trans h1))
  clear_value s4
  split
  · exact ⟨h5, g4⟩
  split
  · exact ⟨h5, g4⟩
  · next r hr =>
    have hc : (s4.closeRun i.tenant).tally = s4.tally ∧ (s4.closeRun i.tenant).invocations = s4.invocations := by
      have h : ((s4.closeRun i.tenant).tally, (s4.closeRun i.tenant).invocations) = (s4.tally, s4.invocations) :=
        foldl_keep (fun u : State => (u.tally, u.invocations)) _
          (fun u (c : Cmd) => Prod.ext (u.complete_tally c.ref _ _ _) (u.complete_ctrs c.ref _ _ _).2) _ _
      exact Prod.mk.inj h
    obtain ⟨w, hw⟩ : ∃ w, w = (s4.closeRun i.tenant).modTenant i.tenant fun x => { x with ending := none } := ⟨_, rfl⟩
    have hwt : w.tally = s4.tally ∧ w.invocations = s4.invocations := hw ▸ hc
    rw [← hw]
    exact ⟨(w.complete_tally _ _ _ _).trans (hwt.1.trans h5), by rw [Stopped, (w.complete_ctrs _ _ _ _).2, hwt.2]; exact g4⟩
/-- A stop leaves the invocation stopping, or gone. -/
theorem State.stopInv_parts (s : State) {i : Invocation} (hp : i.phase ≠ .stopping) (sc dw0 : Nat) :
    (s.stopInv i sc dw0).tally = s.tally ∧ Stopped (s.stopInv i sc dw0) i.ref := by
  unfold State.stopInv
  rw [if_neg hp]
  extract_lets cut s1 j s2
  have h2 : s2.tally = s.tally ∧ Stopped s2 i.ref := by
    simp only [s2]
    split
    · refine State.pumpHome_parts _ _ _ (r := i.ref) fun k hk hr => ?_
      obtain ⟨x, -, rfl⟩ := List.mem_map.mp hk
      by_cases hx : x.ref = j.ref
      · rw [if_pos hx]
      · rw [if_neg hx] at hr
        exact absurd hr hx
    · exact s1.endInv_parts j _ _
  obtain ⟨h3, h4⟩ := s2.pumpWaiters_parts h2.2
  exact ⟨h3.trans h2.1, h4⟩
theorem State.health_tally (s : State) (h : Health) : (s.health h).tally = s.tally := by
  have hl : (s.health h).logs.faultNo = s.logs.faultNo := by
    rw [show (s.health h).logs = _ from (s.log_spec ..).logs]
    rfl
  have hf := s.log_frame 0xC0 h.body h.counts 0 true
  exact Prod.ext (congrArg State.engFaults hf :) (Prod.ext hl (congrArg (·.ctrs.values) hf :))
/-- The state before a stop of a fault's invocation. -/
def State.faulted (s : State) (i : Invocation) (why : StopReason) (q w : Nat) : State :=
  State.health { s.newFault.2 with engFaults := satAdd32 s.engFaults 1 }
    { event := 1, status := why.status, reason := why.code, tenant := i.tenant, faultNo := s.newFault.1, tag := i.tag, queue := q, word := w,
      detail := bytesOfLe 1 i.slot }
theorem State.faultInv_eq (s : State) {i : Invocation} (hp : i.phase ≠ .stopping) {why : StopReason} (hc : why.code ≤ 10) (f q w : Nat) :
    s.faultInv i why f q w = (s.faulted i why q w).stopInv i why.status (if why = .counterRange then 0 else s.newFault.1) := by
  unfold State.faultInv
  rw [if_neg hp, if_pos hc]
  rfl
/-- A fault of the shared numbers stops the invocation. -/
theorem State.faultInv_parts (s : State) {i : Invocation} (hp : i.phase ≠ .stopping) {why : StopReason} (hc : why.code ≤ 10) (f q w : Nat) :
    (s.faultInv i why f q w).tally = (satAdd32 s.engFaults 1, s.newFault.1, s.ctrs.values) ∧ Stopped (s.faultInv i why f q w) i.ref := by
  rw [s.faultInv_eq hp hc]
  obtain ⟨h1, h2⟩ := (s.faulted i why q w).stopInv_parts hp why.status (if why = .counterRange then 0 else s.newFault.1)
  exact ⟨h1.trans (State.health_tally _ _), h2⟩

/-! ### The invocation of a spindle -/

theorem find?_map_of_unique {α : Type} {l : List α} {p : α → Bool} {g : α → α} {i : α} (h : l.find? p = some i) (hi : p (g i) = true)
    (hg : ∀ j ∈ l, j = i ∨ g j = j) : (l.map g).find? p = some (g i) := by
  induction l with
  | nil => cases h
  | cons x l ih =>
    rw [List.map_cons]
    by_cases hx : x = i
    · rw [hx]
      exact List.find?_cons_of_pos hi
    · have hgx : g x = x := (hg x List.mem_cons_self).resolve_left hx
      rw [hgx]
      by_cases hp : p x = true
      · rw [List.find?_cons_of_pos hp] at h
        exact absurd (Option.some.inj h) hx
      · rw [List.find?_cons_of_neg hp] at h ⊢
        exact ih h fun j hj => hg j (List.mem_cons_of_mem _ hj)

/-- A spindle runs an invocation, and no other invocation has its command. -/
structure State.Sits (s : State) (sp : Nat) (i : Invocation) : Prop where
  here : s.onSpindle sp = some i
  alone : ∀ j ∈ s.invocations, j.ref = i.ref → j = i

section
variable {s : State} {sp : Nat} {i : Invocation}

theorem State.Sits.modInv (h : s.Sits sp i) (f : Invocation → Invocation) (hr : (f i).ref = i.ref) (hs : (f i).spindle = i.spindle)
    (hp : (f i).phase ≠ .waiting) : (s.modInv i.ref f).Sits sp (f i) := by
  obtain ⟨h1, h2⟩ := h
  have hsp : i.spindle = sp := by
    have := List.find?_some h1
    exact beq_iff_eq.mp (Bool.and_eq_true_iff.mp this).2
  refine ⟨?_, fun j hj hjr => ?_⟩
  · have hm := find?_map_of_unique (g := fun j => if j.ref = i.ref then f j else j) h1
      (by
        rw [if_pos rfl, Bool.and_eq_true, bne_iff_ne, beq_iff_eq]
        exact ⟨hp, hs.trans hsp⟩)
      (fun j hj => by
        by_cases hjr : j.ref = i.ref
        · exact .inl (h2 j hj hjr)
        · exact .inr (if_neg hjr))
    rw [if_pos rfl] at hm
    exact hm
  · obtain ⟨k, hk, rfl⟩ := List.mem_map.mp hj
    by_cases hkr : k.ref = i.ref
    · rw [if_pos hkr, h2 k hk hkr]
    · rw [if_neg hkr, hr] at hjr
      exact absurd hjr hkr
/-- A change of the invocation whose fields are given. -/
theorem State.Sits.modInv_eq (h : s.Sits sp i) {f : Invocation → Invocation} {j : Invocation} (hj : f i = j) (hr : j.ref = i.ref)
    (hs : j.spindle = i.spindle) (hp : j.phase ≠ .waiting) : (s.modInv i.ref f).Sits sp j := by
  subst hj
  exact h.modInv f hr hs hp

end

/-! ### The counters of a word -/

theorem State.judge_plain (s : State) (i : Invocation) {m : Model} {d : BitVec 512} (q : Nat) (hw : waitEn d = false)
    (hb : fld d 12 15 15 = 1 → fld d 12 12 0 < m.reservation.counters)
    (hc : classOf d = 6 → opOf d = 7 → fld d 16 12 0 < m.reservation.counters) : s.judge i m d q = .ok none (headerBump m d) := by
  unfold State.judge
  extract_lets w b bumps branch n c
  rw [if_neg]
  · rw [hw]
    rfl
  · simp only [hw, bumps, branch, b, n, Bool.false_and, Bool.false_or, Bool.or_eq_true, Bool.and_eq_true, beq_iff_eq, decide_eq_true_iff]
    rintro (⟨h1, h2⟩ | ⟨⟨h1, h2⟩, h3⟩)
    · exact absurd (hb h1) (by omega)
    · exact absurd (hc h1 h2) (by omega)
theorem headerBump_none (m : Model) {d : BitVec 512} (h : fld d 12 15 15 = 0) : headerBump m d = none := if_neg (by omega)

/-! ### Control operations -/

/-- The invocation that acts on a control word without a header wait. -/
def Invocation.acting (i : Invocation) : Invocation := { i.learn [] with phase := .running, met := true }
/-- The spindle's invocation is now `j`; the counters, the queues, the tenants, the PCIe block and the logs are as before. -/
structure State.Moves (s t : State) (sp : Nat) (j : Invocation) : Prop where
  sits : t.Sits sp j
  ctrs : t.ctrs = s.ctrs
  queues : t.queues = s.queues
  tenants : t.tenants = s.tenants
  pcie : t.pcie = s.pcie
  logs : t.logs = s.logs
  prot : t.prot = s.prot
  pers : t.pers = s.pers

section
variable {s t : State} {sp : Nat} {i j k : Invocation}

theorem State.Moves.modInv (h : s.Moves t sp i) (f : Invocation → Invocation) (hr : (f i).ref = i.ref) (hs : (f i).spindle = i.spindle)
    (hp : (f i).phase ≠ .waiting) : s.Moves (t.modInv i.ref f) sp (f i) :=
  ⟨h.sits.modInv f hr hs hp, h.ctrs, h.queues, h.tenants, h.pcie, h.logs, h.prot, h.pers⟩
/-- A jump goes on at a word, and holds no wait. -/
theorem State.Moves.jump (h : s.Moves t sp i) (hi : k.ref = i.ref) (hp : i.phase ≠ .waiting) (w : Nat) :
    s.Moves (t.jump k w) sp { i with word := w, met := false } := by
  unfold State.jump
  rw [hi]
  exact h.modInv _ rfl rfl hp
theorem State.Moves.ctr (h : s.Moves t sp i) (c : Nat) :
    t.ctr c = s.ctr c ∧ t.after c = s.after c ∧ t.ctrPoison c = s.ctrPoison c ∧ t.ctrSat c = s.ctrSat c := by
  refine ⟨?_, by rw [State.after, h.ctrs]; rfl, by rw [State.ctrPoison, h.prot]; rfl, by rw [State.ctrSat, h.ctrs]; rfl⟩
  have ho : t.ownsCtr = s.ownsCtr := by
    funext n c
    rw [State.ownsCtr, State.record, h.pers]
    rfl
  rw [State.ctr, State.ctr, ho, State.ctrPoison, h.prot, h.ctrs]
  rfl

end

section
variable {s : State} {sp : Nat} {i : Invocation} {m : Model} {d : BitVec 512} (ha : AtWord s sp i m d) (hp : i.phase = .running)
  (h6 : classOf d = 6) (hw : waitEn d = false)
include ha

theorem atWord_sits : s.Sits sp i := ⟨ha.2.1, ha.2.2.2.2⟩
theorem atWord_acting : s.Moves (s.modInv i.ref fun _ => i.acting) sp i.acting :=
  ⟨(atWord_sits ha).modInv _ rfl rfl (show InvPhase.running ≠ .waiting by decide), rfl, rfl, rfl, rfl, rfl, rfl, rfl⟩
include hp h6 hw
/-- A control word without a header wait acts, and bumps. -/
theorem controlOp_eq (hb : fld d 12 15 15 = 1 → fld d 12 12 0 < m.reservation.counters)
    (hc : opOf d = 7 → fld d 16 12 0 < m.reservation.counters) {v : State} {b : Bool}
    (hv : (s.modInv i.ref fun _ => i.acting).act i.acting m d = (v, b)) :
    s.controlOp sp (opOf d) = if b then v.bumpAfter i.tenant i.acting.knows (headerBump m d) else v := by
  obtain ⟨he, hs, hm, hd, -⟩ := ha
  unfold State.controlOp
  rw [hs]
  dsimp only
  rw [hm, hd]
  dsimp only
  rw [if_pos (by simp [he, hp, h6]), State.control, s.judge_plain i 0xFF hw hb fun _ => hc]
  dsimp only
  rw [if_neg (by decide)]
  change (if ((s.modInv i.ref fun _ => i.acting).act i.acting m d).2 then
    ((s.modInv i.ref fun _ => i.acting).act i.acting m d).1.bumpAfter i.tenant i.acting.knows (headerBump m d) else
    ((s.modInv i.ref fun _ => i.acting).act i.acting m d).1) = _
  rw [hv]
variable (hb0 : fld d 12 15 15 = 0)
include hb0
theorem controlOp_moves (hc : opOf d = 7 → fld d 16 12 0 < m.reservation.counters) {v : State} {b : Bool} {j : Invocation}
    (hv : (s.modInv i.ref fun _ => i.acting).act i.acting m d = (v, b)) (h : s.Moves v sp j) : s.Moves (s.controlOp sp (opOf d)) sp j := by
  rw [controlOp_eq ha hp h6 hw (fun h1 => by omega) hc hv, headerBump_none m hb0]
  cases b
  · exact h
  · exact h
/-- A fault of a control word. -/
theorem controlOp_faults {why : StopReason} (hy : why.code ≤ 10) (h7 : opOf d ≠ 7)
    (hv : (s.modInv i.ref fun _ => i.acting).act i.acting m d
      = ((s.modInv i.ref fun _ => i.acting).faultInv i.acting why 0 0xFF i.acting.word, false)) :
    Stopped (s.controlOp sp (opOf d)) i.ref ∧ (s.controlOp sp (opOf d)).engFaults = satAdd32 s.engFaults 1
      ∧ (s.controlOp sp (opOf d)).ctrs.values = s.ctrs.values := by
  rw [controlOp_eq ha hp h6 hw (fun h1 => by omega) (fun h => absurd h h7) hv, if_neg (by decide)]
  obtain ⟨ht, hs⟩ := (s.modInv i.ref fun _ => i.acting).faultInv_parts (i := i.acting) (show InvPhase.running ≠ .stopping by decide) hy 0 0xFF i.acting.word
  exact ⟨hs, congrArg (·.1) ht, congrArg (·.2.2) ht⟩

end

/-! ### What each control operation does -/

section
variable (s : State) {i : Invocation} (m : Model) {d : BitVec 512}

theorem act_end (h : opOf d = 0) : s.act i m d = (s.modInv i.ref fun i => { i with phase := .draining }, false) := by
  unfold State.act
  simp only [h]
theorem act_loop_none (h : opOf d = 1) (h0 : fld d 16 31 0 = 0) : s.act i m d = (s.jump i (fld d 20 31 0), true) := by
  unfold State.act; rw [h]; exact if_pos h0
theorem act_loop (h : opOf d = 1) (h0 : fld d 16 31 0 ≠ 0) (hl : i.stack.length < 8) : s.act i m d
    = ((s.modInv i.ref fun j => { j with stack := .loop (i.word + 1) (fld d 16 31 0) 0 :: j.stack }).jump i (i.word + 1), true) := by
  unfold State.act
  rw [h]
  refine (if_neg h0).trans ?_
  rw [State.push, if_pos hl]
theorem act_loop_full (h : opOf d = 1) (h0 : fld d 16 31 0 ≠ 0) (hl : 8 ≤ i.stack.length) (hb : spillBudget m ≤ i.spilled.length) :
    s.act i m d = (s.faultInv i .spillFull 0 0xFF i.word, false) := by
  unfold State.act
  rw [h]
  refine (if_neg h0).trans ?_
  rw [State.push, if_neg (by omega), if_pos hb]
theorem act_endloop_again (h : opOf d = 2) {start count k : Nat} {rest : List WinFrame} (hs : i.stack = .loop start count k :: rest)
    (hk : k + 1 < count) :
    s.act i m d = ((s.modInv i.ref fun j => { j with stack := .loop start count (k + 1) :: rest }).jump i start, true) := by
  unfold State.act
  simp only [h]
  rw [hs]
  exact if_pos hk
theorem act_endloop_last (h : opOf d = 2) {start count k : Nat} {rest : List WinFrame} (hs : i.stack = .loop start count k :: rest)
    (hk : count ≤ k + 1) : s.act i m d = ((s.pop i).jump i (i.word + 1), true) := by
  unfold State.act
  simp only [h]
  rw [hs]
  exact if_neg (by omega)
theorem act_endloop_bad (h : opOf d = 2) (hs : ∀ start count k rest, i.stack ≠ .loop start count k :: rest) :
    s.act i m d = (s.faultInv i .frameMismatch 0 0xFF i.word, false) := by
  unfold State.act
  simp only [h]
theorem act_call (h : opOf d = 3) (hl : i.stack.length < 8) :
    s.act i m d = ((s.modInv i.ref fun j => { j with stack := .call (i.word + 1) :: j.stack }).jump i (fld d 16 31 0), true) := by
  unfold State.act
  simp only [h]
  rw [State.push, if_pos hl]
theorem act_ret (h : opOf d = 4) {r : Nat} {rest : List WinFrame} (hs : i.stack = .call r :: rest) :
    s.act i m d = ((s.pop i).jump i r, true) := by
  unfold State.act
  simp only [h]
  rw [hs]
theorem act_ret_bad (h : opOf d = 4) (hs : ∀ r rest, i.stack ≠ .call r :: rest) :
    s.act i m d = (s.faultInv i .frameMismatch 0 0xFF i.word, false) := by
  unfold State.act
  simp only [h]
theorem act_next (h : opOf d = 5 ∨ opOf d = 6) : s.act i m d = (s.jump i (i.word + 1), true) := by
  unfold State.act
  obtain h | h := h
  · simp only [h]
  · simp only [h]
theorem act_branch (h : opOf d = 7) (hp : s.ctrPoison (m.counterFirst + fld d 16 12 0) = none)
    (hs : s.ctrSat (m.counterFirst + fld d 16 12 0) = false) :
    s.act i m d = (if i.target (fld d 16 12 0) (fld d 20 31 0) (iterScale d) ≤ s.ctr (m.counterFirst + fld d 16 12 0) then
        ((s.modInv i.ref fun i => i.learn (s.after (m.counterFirst + fld d 16 12 0))).jump i (fld d 24 31 0), true)
      else (s.jump i (i.word + 1), true)) := by
  unfold State.act
  simp only [h]
  rw [State.deadCounter, hp]
  dsimp only
  rw [if_neg (show ¬ s.ctrSat _ = true by rw [hs]; decide)]

end

section
variable {s t : State} {sp : Nat} {i : Invocation}

/-- A pop that leaves frames on the chip, or that finds none spilled. -/
theorem State.Moves.pop (h : s.Moves t sp i) (hp : i.phase ≠ .waiting) {f : WinFrame} {rest : List WinFrame} (hs : i.stack = f :: rest)
    (hr : rest ≠ [] ∨ i.spilled = []) : s.Moves (t.pop i) sp { i with stack := rest } := by
  have e : (match i.stack.drop 1, i.spilled with
    | [], f :: fs => { i with stack := [f], spilled := fs }
    | st, fs => { i with stack := st, spilled := fs }) = { i with stack := rest } := by
    rw [hs]
    cases rest with
    | nil =>
      rw [hr.resolve_left (by simp)]
      rfl
    | cons a l => rfl
  have hm := h.modInv (fun i => match i.stack.drop 1, i.spilled with
    | [], f :: fs => { i with stack := [f], spilled := fs }
    | st, fs => { i with stack := st, spilled := fs }) (by rw [e]) (by rw [e]) (by rw [e]; exact hp)
  rw [e] at hm
  exact hm
/-- A pop that empties the stack takes back the newest spilled frame. -/
theorem State.Moves.pop_back (h : s.Moves t sp i) (hp : i.phase ≠ .waiting) {f g : WinFrame} {fs : List WinFrame} (hs : i.stack = [f])
    (hr : i.spilled = g :: fs) : s.Moves (t.pop i) sp { i with stack := [g], spilled := fs } := by
  have e : (match i.stack.drop 1, i.spilled with
    | [], f :: fs => { i with stack := [f], spilled := fs }
    | st, fs => { i with stack := st, spilled := fs }) = { i with stack := [g], spilled := fs } := by
    rw [hs, hr]
    rfl
  have hm := h.modInv (fun i => match i.stack.drop 1, i.spilled with
    | [], f :: fs => { i with stack := [f], spilled := fs }
    | st, fs => { i with stack := st, spilled := fs }) (by rw [e]) (by rw [e]) (by rw [e]; exact hp)
  rw [e] at hm
  exact hm

end

/-! ### The control operations (O42) -/

/-- Settles O42, operation by operation. -/
theorem controlOperations : Obligations.ControlOperations := by
  unfold Obligations.ControlOperations
  intro s sp i m d ha hp h6 hw goes stops i0
  have hu := atWord_acting ha
  have hrun : i.acting.phase ≠ .waiting := show InvPhase.running ≠ .waiting by decide
  have hact : i.acting = { i0 with met := true } := by
    show ({ i.learn [] with phase := .running, met := true } : Invocation) = { i.learn [] with met := true }
    rw [← hp]
    rfl
  have hgo {x : Instr} {j j' : Invocation} (hx : exec x s = .next (s.controlOp sp (opOf d)))
      (hm : s.Moves (s.controlOp sp (opOf d)) sp j') (hj : j' = j) : goes x j :=
    ⟨_, hx, hj ▸ hm.sits.here, hm.ctrs, hm.queues, hm.tenants, hm.pcie, hm.logs⟩
  refine ⟨fun hb0 => ?_, fun hb1 h hbc ht hrn ho hsat hpo hsum => ?_⟩
  · have hmove {v : State} {b : Bool} {j : Invocation} (h7 : opOf d ≠ 7) := controlOp_moves (v := v) (b := b) (j := j) ha hp h6 hw hb0
      fun h => absurd h h7
    refine ⟨fun h => ?_, fun h => ⟨fun hz => ?_, fun hz hl => ?_, fun hz hl hsp => ?_⟩, fun h => ⟨fun start count k rest hs =>
      ⟨fun hk => ?_, fun hk hr => ?_, fun hk hr f fs hsp => ?_⟩, fun hs => ?_⟩, fun h hl => ?_, fun h => ⟨fun r rest hs hr => ?_, fun hs => ?_⟩,
      fun h => ?_, fun h => ?_, fun h hc hcp hcs => ?_⟩
    · exact hgo (by rw [h]; rfl) (hmove (by omega) (act_end _ m h) (hu.modInv _ rfl rfl (show InvPhase.draining ≠ .waiting by decide))) rfl
    · exact hgo (by rw [h]; rfl) (hmove (by omega) (act_loop_none _ m h hz) (hu.jump rfl hrun _)) (by rw [hact])
    · exact hgo (by rw [h]; rfl) (hmove (by omega) (act_loop _ m h hz hl)
        ((hu.modInv (fun j => { j with stack := .loop (i.acting.word + 1) (fld d 16 31 0) 0 :: j.stack }) rfl rfl hrun).jump rfl hrun _)) (by rw [hact]; rfl)
    · exact ⟨_, by rw [h]; rfl, controlOp_faults ha hp h6 hw hb0 (by decide) (by omega) (act_loop_full _ m h hz hl hsp)⟩
    · exact hgo (by rw [h]; rfl) (hmove (by omega) (act_endloop_again _ m h hs hk)
        ((hu.modInv (fun j => { j with stack := .loop start count (k + 1) :: rest }) rfl rfl hrun).jump rfl hrun _)) (by rw [hact])
    · exact hgo (by rw [h]; rfl) (hmove (by omega) (act_endloop_last _ m h hs hk) ((hu.pop hrun hs hr).jump rfl hrun _)) (by rw [hact]; rfl)
    · exact hgo (by rw [h]; rfl) (hmove (by omega) (act_endloop_last _ m h hs hk)
        ((hu.pop_back hrun (hr ▸ hs) hsp).jump rfl hrun _)) (by rw [hact]; rfl)
    · exact ⟨_, by rw [h]; rfl, controlOp_faults ha hp h6 hw hb0 (by decide) (by omega) (act_endloop_bad _ m h hs)⟩
    · exact hgo (by rw [h]; rfl) (hmove (by omega) (act_call _ m h hl)
        ((hu.modInv (fun j => { j with stack := .call (i.acting.word + 1) :: j.stack }) rfl rfl hrun).jump rfl hrun _)) (by rw [hact]; rfl)
    · exact hgo (by rw [h]; rfl) (hmove (by omega) (act_ret _ m h hs) ((hu.pop hrun hs hr).jump rfl hrun _)) (by rw [hact])
    · exact ⟨_, by rw [h]; rfl, controlOp_faults ha hp h6 hw hb0 (by decide) (by omega) (act_ret_bad _ m h hs)⟩
    · exact hgo (by rw [h]; rfl) (hmove (by omega) (act_next _ m (.inl h)) (hu.jump rfl hrun _)) (by rw [hact]; rfl)
    · exact hgo (by rw [h]; rfl) (hmove (by omega) (act_next _ m (.inr h)) (hu.jump rfl hrun _)) (by rw [hact]; rfl)
    · obtain ⟨hv, haf, hpo, hsa⟩ := hu.ctr (m.counterFirst + fld d 16 12 0)
      have hact' := act_branch (s.modInv i.ref fun _ => i.acting) (i := i.acting) m h (hpo.trans hcp) (hsa.trans hcs)
      rw [hv, haf] at hact'
      intro v c
      by_cases hle : v ≤ s.ctr c
      · rw [if_pos hle]
        refine hgo (by rw [h]; rfl) (controlOp_moves ha hp h6 hw hb0 (fun _ => hc) (hact'.trans (if_pos hle))
          ((hu.modInv (fun j => j.learn (s.after c)) rfl rfl hrun).jump rfl hrun _)) ?_
        rw [hact]
        rfl
      · rw [if_neg hle]
        exact hgo (by rw [h]; rfl) (controlOp_moves ha hp h6 hw hb0 (fun _ => hc) (hact'.trans (if_neg hle)) (hu.jump rfl hrun _))
          (by rw [hact]; rfl)
  · have hx := controlOp_eq ha hp h6 hw (fun _ => hbc) (fun h7 => by omega) (act_next _ m (.inr h))
    rw [if_pos rfl, headerBump, if_pos hb1] at hx
    have hm := hu.jump (k := i.acting) rfl hrun (i.acting.word + 1)
    generalize ((s.modInv i.ref fun _ => i.acting).jump i.acting (i.acting.word + 1)) = u at hx hm
    obtain ⟨hv, -, hpo', hsa⟩ := hm.ctr (m.counterFirst + fld d 12 12 0)
    have hown : u.ownsCtr i.tenant (m.counterFirst + fld d 12 12 0) = true := by
      rw [State.ownsCtr, State.record, hm.pers]
      exact ho
    have hrun' : (u.tenant i.tenant).runOpen = true := by rw [State.tenant, hm.tenants]; exact hrn
    obtain ⟨w, hw'⟩ : ∃ w, w = u.teach (m.counterFirst + fld d 12 12 0) i.acting.knows := ⟨_, rfl⟩
    have hwv : w.ctr (m.counterFirst + fld d 12 12 0) = s.ctr (m.counterFirst + fld d 12 12 0) := hw' ▸ hv
    obtain ⟨he, hc, -⟩ := State.bump_ok (s := w) ht (by rw [hw']; exact hrun') (by rw [hw']; exact hown) (by rw [hw']; exact hsa.trans hsat)
      (by rw [hw']; exact hpo'.trans hpo) (n := fld d 14 15 0) (by rw [hwv]; exact hsum)
    refine ⟨w.bump i.tenant (m.counterFirst + fld d 12 12 0) (fld d 14 15 0), ?_, ?_, hc.trans (by rw [hwv])⟩
    · rw [hw', ← State.bumpAfter, ← hx, h]
      rfl
    · rw [he]
      have hs := hm.sits.here
      rw [hact] at hs
      show w.onSpindle sp = _
      rw [hw']
      exact hs

/-! ### The issue of a word (O41) -/

theorem queueOf_lt {c n q : Nat} (h : queueOf c n = some q) : q < 78 := by
  unfold queueOf at h
  split at h
  all_goals simp only [Option.ite_none_right_eq_some, Option.some.injEq, reduceCtorEq] at h
  all_goals omega

section
variable {s : State} {sp : Nat} {i : Invocation} {m : Model} {d : BitVec 512} (ha : AtWord s sp i m d)
include ha

theorem exec_spindleIssueWord (hp : i.phase = .running) : exec (.spindleIssueWord sp) s = .next (s.issueWord i) := by
  show execSpindleIssueWord sp s = _
  unfold execSpindleIssueWord
  rw [if_neg (by rw [ha.1]; decide), ha.2.1]
  exact if_pos hp
theorem exec_slotStallReleased (hp : i.phase = .stalled) : exec (.slotStallReleased sp) s = .next (s.issueWord i) := by
  show execSlotStallReleased sp s = _
  unfold execSlotStallReleased
  rw [if_neg (by rw [ha.1]; decide), ha.2.1]
  exact if_pos hp
theorem exec_controlWaitPassed (hp : i.phase = .waitCtr) : exec (.controlWaitPassed sp) s = .next (s.control i m d) := by
  show execControlWaitPassed sp s = _
  unfold execControlWaitPassed
  rw [if_neg (by rw [ha.1]; decide), ha.2.1]
  dsimp only
  rw [ha.2.2.1, ha.2.2.2.1]
  exact if_pos hp

/-- The entry that a spindle places in a queue. -/
def issuedEntry (i : Invocation) (m : Model) (d : BitVec 512) : QEntry :=
  { tenant := i.tenant, tag := i.tag, desc := issued d i, iter0 := i.iters.1, iter1 := i.iters.2, lane := i.lane, word := i.word
    wait := none, bump := headerBump m d, expedite := i.expedite, ord := i.issued, knows := i.knows }
theorem issueWord_engine (hc : classOf d ≤ 5) {q : Nat} (hq : queueOf (classOf d) (instanceOf d) = some q)
    (hm : m.engineMask.getLsbD (classOf d) = true) (hw : waitEn d = false)
    (hb : fld d 12 15 15 = 1 → fld d 12 12 0 < m.reservation.counters) (ho : (s.queue q).offline = none) :
    s.issueWord i = if s.slotFree i.tenant q then
        (s.modQueue q fun x => { x with entries := x.entries ++ [issuedEntry i m d] }).modInv i.ref
          fun i => { i with phase := .running, word := i.word + 1, issued := i.issued + 1 }
      else s.modInv i.ref fun i => { i with phase := .stalled } := by
  unfold State.issueWord
  rw [ha.2.2.1, ha.2.2.2.1]
  dsimp only
  rw [if_neg (by simp; omega), if_neg (by omega), hq]
  dsimp only
  rw [if_neg (by rw [hm]; decide), s.judge_plain i q hw hb fun h6 => by omega]
  dsimp only
  rw [ho]
  dsimp only
  cases s.slotFree i.tenant q with
  | false => exact if_pos rfl
  | true => exact if_neg (by decide)
/-- A word that no engine and no control operation takes. -/
theorem issueWord_bad (hbad : 6 < classOf d ∨ (classOf d = 6 ∧ 7 < opOf d) ∨ (classOf d ≤ 5 ∧ queueOf (classOf d) (instanceOf d) = none)
    ∨ (classOf d ≤ 5 ∧ m.engineMask.getLsbD (classOf d) = false)) :
    ∃ why : StopReason, why.code ≤ 10 ∧ s.issueWord i = s.faultInv i why 0 0xFF i.word := by
  unfold State.issueWord
  rw [ha.2.2.1, ha.2.2.2.1]
  dsimp only
  by_cases h1 : (decide (classOf d > 6) || (decide (classOf d = 6) && decide (opOf d > 7))) = true
  · exact ⟨.illegalWord, by decide, if_pos h1⟩
  rw [if_neg h1]
  simp only [Bool.or_eq_true, Bool.and_eq_true, decide_eq_true_iff] at h1
  rw [if_neg (by omega)]
  cases hq : queueOf (classOf d) (instanceOf d) with
  | none => exact ⟨.badInstance, by decide, rfl⟩
  | some q =>
    have hm : m.engineMask.getLsbD (classOf d) = false := by
      obtain h | h | ⟨-, h⟩ | ⟨-, h⟩ := hbad
      · omega
      · omega
      · rw [hq] at h; cases h
      · exact h
    exact ⟨.classNotDeclared, by decide, if_pos (by rw [hm]; rfl)⟩
omit ha in
/-- A WAIT whose condition a spindle has been waiting for. -/
theorem control_wait (hp : i.phase = .waitCtr) (hmet : i.met = false) (h6 : classOf d = 6) (h5 : opOf d = 5) (hw : waitEn d = true)
    (hc : fld d 6 12 0 < m.reservation.counters) (hb : fld d 12 15 15 = 0) :
    s.control i m d = if i.target (fld d 6 12 0) (fld d 8 31 0) (iterScale d) ≤ s.ctr (m.counterFirst + fld d 6 12 0) then
        (s.modInv i.ref fun _ => { i.learn (s.after (m.counterFirst + fld d 6 12 0)) with phase := .running, met := true }).jump i (i.word + 1)
      else s.modInv i.ref fun i => { i with phase := .waitCtr } := by
  have hj : s.judge i m d 0xFF = .ok (some (m.counterFirst + fld d 6 12 0, i.target (fld d 6 12 0) (fld d 8 31 0) (iterScale d))) none := by
    unfold State.judge
    extract_lets w b bumps branch n c
    rw [if_neg]
    · rw [hw, hp, headerBump_none m hb, if_neg (by cases i.met <;> decide)]
      rfl
    · simp only [hw, bumps, branch, b, n, w, h5, h6, hb]
      simp
      omega
  unfold State.control
  rw [hj]
  dsimp only
  by_cases hle : i.target (fld d 6 12 0) (fld d 8 31 0) (iterScale d) ≤ s.ctr (m.counterFirst + fld d 6 12 0)
  · rw [if_neg (by simp [hle]), if_pos hle]
    rw [act_next _ m (.inl h5)]
    rfl
  · rw [if_pos (by simp [hle, hmet]), if_neg hle]

end

/-- Settles O41, by what the issue of a word does with each kind of word. -/
theorem spindleIssue : Obligations.SpindleIssue := by
  unfold Obligations.SpindleIssue
  intro s sp i m d ha hlen
  have hsit := atWord_sits ha
  refine ⟨fun q hc hq hm hw hb ho x hx hp => ?_, fun hp hbad => ?_, fun hp hmet h6 h5 hw hc hb => ?_⟩
  · have hexec : exec x.1 s = .next (s.issueWord i) := by
      simp only [List.mem_cons, List.not_mem_nil, or_false] at hx
      obtain rfl | rfl := hx
      · exact exec_spindleIssueWord ha hp
      · exact exec_slotStallReleased ha hp
    rw [hexec, issueWord_engine ha hc hq hm hw hb ho]
    refine ⟨fun hf => ?_, fun hf => ?_⟩
    · rw [if_pos hf]
      obtain ⟨u, hu⟩ : ∃ u, u = s.modQueue q fun x => { x with entries := x.entries ++ [issuedEntry i m d] } := ⟨_, rfl⟩
      have hus : u.Sits sp i := by rw [hu]; exact ⟨hsit.here, hsit.alone⟩
      have hm := hus.modInv (fun i => { i with phase := .running, word := i.word + 1, issued := i.issued + 1 }) rfl rfl
        (show InvPhase.running ≠ .waiting by decide)
      have hself : u.queue q = { s.queue q with entries := (s.queue q).entries ++ [issuedEntry i m d] } := by
        rw [hu]
        exact getD_modify_self _ _ _ _ (by rw [hlen]; exact queueOf_lt hq)
      have hne : ∀ p, p ≠ q → u.queue p = s.queue p := by
        intro p hp
        rw [hu]
        exact getD_modify_ne _ _ _ hp
      rw [← hu]
      refine ⟨_, _, issuedEntry i m d, rfl, congrArg Queue.entries hself, rfl, rfl, rfl, rfl, rfl, rfl, rfl, rfl, rfl, rfl, hne, hm.here,
        rfl, rfl, rfl, ?_, ?_⟩
      · rw [hu]; rfl
      · rw [hu]; rfl
    · rw [if_neg (by rw [hf]; decide)]
      exact ⟨_, rfl, rfl, (hsit.modInv (fun i => { i with phase := .stalled }) rfl rfl (show InvPhase.stalled ≠ .waiting by decide)).here, rfl, rfl⟩
  · obtain ⟨why, hy, he⟩ := issueWord_bad ha hbad
    obtain ⟨ht, hs⟩ := s.faultInv_parts (i := i) (by rw [hp]; decide) hy 0 0xFF i.word
    exact ⟨_, (exec_spindleIssueWord ha hp).trans (congrArg Host.Outcome.next he), hs, congrArg (·.1) ht, congrArg (·.2.1) ht, congrArg (·.2.2) ht⟩
  · rw [exec_controlWaitPassed ha hp, control_wait hp hmet h6 h5 hw hc hb]
    refine ⟨fun hle => ?_, fun hlt => ?_⟩
    · rw [if_pos hle]
      have h1 := hsit.modInv (fun _ => { i.learn (s.after (m.counterFirst + fld d 6 12 0)) with phase := .running, met := true }) rfl rfl
        (show InvPhase.running ≠ .waiting by decide)
      have h2 := h1.modInv (fun j => { j with word := i.word + 1, met := false }) rfl rfl (show InvPhase.running ≠ .waiting by decide)
      refine ⟨_, rfl, h2.here.trans ?_, rfl, rfl⟩
      rw [← hmet]
      rfl
    · rw [if_neg (by omega)]
      refine ⟨_, rfl, (hsit.modInv (fun i => { i with phase := .waitCtr }) rfl rfl (show InvPhase.waitCtr ≠ .waiting by decide)).here.trans ?_, rfl⟩
      rw [← hp]

end Sys2Proof.Machine
end

section
/-!
PROOFS. What every engine operation shares: reads without memory errors, the outcome of a row, and the bytes of a region
(chapters 07, 09, 17).
-/

namespace Sys2Proof.Machine

open Sys2Proof.Safety

/-! ### Bytes of a region -/

theorem leOfBytes_bytesOfLe_mod (n v : Nat) : leOfBytes (bytesOfLe n v) = v % 256 ^ n := by
  induction n generalizing v with
  | zero => rw [Nat.pow_zero, Nat.mod_one]; rfl
  | succ n ih =>
    show (BitVec.ofNat 8 (v % 256)).toNat + 256 * leOfBytes (bytesOfLe n (v / 256)) = _
    rw [ih, BitVec.toNat_ofNat, show (256 : Nat) ^ (n + 1) = 256 * 256 ^ n from Nat.pow_succ', Nat.mod_mul]
    omega
/-- A read inside what was just written. -/
theorem Region.get_put_in {r : Region} (h : r.wf = true) {a o n : Nat} {bs : List Byte} (h1 : a ≤ o) (h2 : o + n ≤ a + bs.length) :
    (r.put a bs).get o n = (bs.drop (o - a)).take n := by
  rw [Region.get_eq (Region.put_wf h a bs)]
  apply List.ext_getElem
  · rw [List.length_map, List.length_range, List.length_take, List.length_drop]
    omega
  · intro i hi _
    rw [List.length_map, List.length_range] at hi
    rw [List.getElem_map, List.getElem_range, Region.at_put, if_pos (by omega), List.getElem_take, List.getElem_drop,
      List.getD_eq_getElem _ _ (by omega)]
    congr 1
    omega
/-- A read outside what was just written. -/
theorem Region.get_put_out {r : Region} (h : r.wf = true) {a o n : Nat} {bs : List Byte} (ho : o + n ≤ a ∨ a + bs.length ≤ o) :
    (r.put a bs).get o n = r.get o n := by
  rw [Region.get_eq (Region.put_wf h a bs), Region.get_eq h]
  refine List.map_congr_left fun i hi => ?_
  have := List.mem_range.mp hi
  rw [Region.at_put, if_neg (by omega)]
/-- A word of a string of words. -/
theorem take_drop_words (k : Nat) (l : List Nat) {j : Nat} (h : j < l.length) :
    ((l.flatMap (bytesOfLe k)).drop (k * j)).take k = bytesOfLe k l[j] := by
  induction l generalizing j with
  | nil => cases h
  | cons v l ih =>
    have hv : (bytesOfLe k v).length = k := bytesOfLe_length k v
    rw [List.flatMap_cons]
    cases j with
    | zero =>
      rw [Nat.mul_zero, List.drop_zero, List.take_append_of_le_length (by omega), List.take_of_length_le (by omega)]
      rfl
    | succ j =>
      rw [show k * (j + 1) = (bytesOfLe k v).length + k * j by rw [hv, Nat.mul_succ]; omega, ← List.drop_drop, List.drop_left]
      exact ih (Nat.lt_of_succ_lt_succ h)
theorem length_words (k : Nat) (l : List Nat) : (l.flatMap (bytesOfLe k)).length = k * l.length := by
  induction l with
  | nil => rfl
  | cons v l ih => rw [List.flatMap_cons, List.length_append, ih, bytesOfLe_length, List.length_cons, Nat.mul_succ, Nat.add_comm]

/-! ### Elements of a tile -/

/-- An element after a row of elements is written from column 0 on. -/
theorem Region.el_put_row {r : Region} (h : r.wf = true) (x : Nat) {l : List Nat} (hl : l.length ≤ 128) {i j : Nat} (hj : j < 128) :
    (r.put (512 * x) (l.flatMap (bytesOfLe 4))).el i j = if i = x ∧ j < l.length then (l.getD j 0) % 2 ^ 32 else r.el i j := by
  have hlen := length_words 4 l
  split
  · next hc =>
    obtain ⟨rfl, hjl⟩ := hc
    rw [Region.el, Region.le, Region.get_put_in h (by omega) (by omega), show 4 * (128 * i + j) - 512 * i = 4 * j by omega,
      take_drop_words 4 l hjl, leOfBytes_bytesOfLe_mod, List.getD_eq_getElem _ _ hjl,
      show (256 : Nat) ^ 4 = 2 ^ 32 by decide]
  · next hc =>
    rw [Region.el, Region.el, Region.le, Region.le, Region.get_put_out h (by omega)]
theorem Region.putRows_wf {r : Region} (h : r.wf = true) (rows : List (Nat × List Nat)) : (r.putRows rows).wf = true := by
  induction rows generalizing r with
  | nil => exact h
  | cons x l ih => exact ih (Region.put_wf h _ _)
/-- An element after the first rows of a tile are written. -/
theorem Region.el_putRows {r : Region} (h : r.wf = true) (n : Nat) {v : Nat → List Nat} {len : Nat} (hv : ∀ x, (v x).length = len)
    (hlen : len ≤ 128) {i j : Nat} (hj : j < 128) :
    (r.putRows ((List.range n).map fun x => (x, v x))).el i j = if i < n ∧ j < len then ((v i).getD j 0) % 2 ^ 32 else r.el i j := by
  induction n with
  | zero => rw [if_neg (by omega)]; rfl
  | succ n ih =>
    have hs : r.putRows ((List.range (n + 1)).map fun x => (x, v x))
        = (r.putRows ((List.range n).map fun x => (x, v x))).put (512 * n) ((v n).flatMap (bytesOfLe 4)) := by
      rw [List.range_succ, List.map_append, Region.putRows, List.foldl_append]
      rfl
    rw [hs, Region.el_put_row (Region.putRows_wf h _) n (by rw [hv]; exact hlen) hj, hv, ih]
    by_cases hi : i = n
    · subst hi
      by_cases hjl : j < len
      · rw [if_pos ⟨rfl, hjl⟩, if_pos ⟨by omega, hjl⟩]
      · rw [if_neg (by omega), if_neg (by omega), if_neg (by omega)]
    · rw [if_neg (by omega)]
      by_cases hc : i < n ∧ j < len
      · rw [if_pos hc, if_pos (by omega)]
      · rw [if_neg hc, if_neg (by omega)]
/-- A read of a string of bytes. -/
theorem Region.at_ofBytes (bs : List Byte) (x : Nat) : (Region.ofBytes bs).at x = listReader bs x := by
  have h := Region.at_put {} 0 bs x
  have e : Region.put {} 0 bs = Region.ofBytes bs := by
    show ({ gen := 0, cells := Mem.put false [] 0 bs } : Region) = _
    rw [Mem.put, List.filter_nil, List.filter_nil, List.nil_append, List.append_nil]
    rfl
  rw [e] at h
  rw [h, listReader]
  split
  · rw [Nat.sub_zero]
  · next hc =>
    rw [List.getD_eq_getElem?_getD, List.getElem?_eq_none (by omega)]
    rfl
theorem readBytes_eq (rd : Nat → Byte) (o n : Nat) : readBytes rd o n = (List.range n).map fun k => rd (o + k) := by
  induction n generalizing o with
  | zero => rfl
  | succ n ih =>
    rw [readBytes, ih, List.range_succ_eq_map, List.map_cons, List.map_map]
    refine congrArg (rd o :: ·) (List.map_congr_left fun k _ => ?_)
    show rd (o + 1 + k) = rd (o + (k + 1))
    congr 1
    omega
theorem Region.le_ofBytes (bs : List Byte) (o n : Nat) : (Region.ofBytes bs).le o n = readLe (listReader bs) o n := by
  rw [Region.le, Region.get_eq (Region.ofBytes_wf bs), readLe, readBytes_eq]
  refine congrArg leOfBytes (List.map_congr_left fun i _ => ?_)
  exact Region.at_ofBytes bs (o + i)

/-! ### Reads where no memory error is recorded -/

theorem sound_sramUnit {s : State} (h : Sound s) (k : Nat) : (s.sramUnit k).poison = [] := by
  unfold State.sramUnit
  rw [List.getD_eq_getElem?_getD]
  cases hk : s.prot.sram[k]? with
  | none => rfl
  | some u => exact h.2.1 u (List.mem_of_getElem? hk)
theorem sound_clearWords {s : State} (h : Sound s) (k first n : Nat) : s.clearWords k first n = s := by
  rw [State.clearWords, sound_sramUnit h]
  rfl
theorem sound_demand {s : State} (h : Sound s) (t tag : Nat) (ps : List Span) : s.demand t tag ps [] = (s, none) := by
  unfold State.demand
  extract_lets ps' poisoned fresh all mine r words
  have hp : poisoned = [] := by
    simp only [poisoned, List.flatMap_eq_nil_iff, List.map_eq_nil_iff]
    intro x hx
    exact h.1 x.1 (List.fst_mem_of_mem_zipIdx hx)
  have hm : mine = [] := by simp only [mine, all, fresh, hp, List.filter_nil, List.map_nil, List.append_nil]
  have hw : words = [] := by
    simp only [words, List.flatMap_eq_nil_iff, State.poisonIn, sound_sramUnit h, List.filter_nil, implies_true]
  have hr : r = (s, none) := by simp only [r, hm, List.foldl_nil]
  rw [hw, hr]
  rfl
theorem sound_sramFault {s : State} (h : Sound s) (k first n : Nat) : s.sramFault k first n = none := by
  rw [State.sramFault, sound_sramUnit h]
  rfl
/-- A read finds no fault, and changes nothing. -/
theorem sound_fetch {s : State} (h : Sound s) (i : Invocation) (ps : List Span) (words : List (Nat × Nat × Nat)) :
    s.fetch i ps words [] [] = (s, none) := by
  unfold State.fetch
  extract_lets qs hit r y
  have hy : y = (s, none) := sound_demand h _ _ _
  rw [hy]
  have hw : (words.findSome? fun x => s.sramFault x.1 x.2.1 x.2.2) = none :=
    List.findSome?_eq_none_iff.mpr fun x _ => sound_sramFault h _ _ _
  rw [hw]
  rfl

/-! ### The outcome of a row -/

/-- What an operation of queue `q` leaves of the blocks that are not memory and not an engine's own. -/
structure State.Minding (q : Nat) (s t : State) : Prop where
  pcie : { t.pcie with dataRelaxed := s.pcie.dataRelaxed } = s.pcie
  pers : t.pers = s.pers
  power : t.power = s.power
  ctrs : t.ctrs = s.ctrs
  logs : t.logs = s.logs
  peer : t.peer = s.peer
  media : t.media = s.media
  svc : t.svc = s.svc
  marks : t.marks = s.marks
  others : ∀ p, p ≠ q → t.queue p = s.queue p
  entries : (t.queue q).entries = (s.queue q).entries

theorem State.Minding.refl (q : Nat) (s : State) : State.Minding q s s := ⟨rfl, rfl, rfl, rfl, rfl, rfl, rfl, rfl, rfl, fun _ _ => rfl, rfl⟩
theorem State.Minding.trans {q : Nat} {s t u : State} (h : State.Minding q s t) (k : State.Minding q t u) : State.Minding q s u := by
  refine ⟨?_, k.pers.trans h.pers, k.power.trans h.power, k.ctrs.trans h.ctrs, k.logs.trans h.logs, k.peer.trans h.peer,
    k.media.trans h.media, k.svc.trans h.svc, k.marks.trans h.marks,
    fun p hp => (k.others p hp).trans (h.others p hp), k.entries.trans h.entries⟩
  have h2 := k.pcie
  have e : { u.pcie with dataRelaxed := s.pcie.dataRelaxed } = { t.pcie with dataRelaxed := s.pcie.dataRelaxed } :=
    congrArg (fun p : Pcie => { p with dataRelaxed := s.pcie.dataRelaxed }) h2
  exact e.trans h.pcie
/-- An operation that does its work. -/
theorem performs_of {x : Instr} {s u : State} {q cls op k : Nat} {e : QEntry} {i : Invocation} {w : Work}
    {work : State → Invocation → QEntry → Except StopReason Work} {run : State → Invocation → QEntry → Work → State × CmdOutcome}
    {post : State → Prop} (h : Running s q cls op k e i) (hw : work s i e = .ok w) (hx : exec x s = .next (s.runOp q cls op work run))
    (hu : run s i e w = (u, .done)) (hm : State.Minding q s u) (hp : post (u.modEntry q k fun y => { y with outcome := .done })) :
    Performs x s q k post := by
  refine ⟨u.modEntry q k fun y => { y with outcome := .done }, ?_, ?_, ?_, hp⟩
  · rw [hx, State.runOp_of_running h work run hw, hu]
  · refine State.outcome_modEntry (e := e) ?_ .done
    rw [hm.entries]
    exact h.2.2.1
  · refine ⟨hm.pcie, hm.pers, hm.power, hm.ctrs, hm.logs, hm.peer, hm.media, hm.svc, hm.marks, fun p hpq => ?_⟩
    rw [State.queue_modEntry_ne _ _ _ hpq, hm.others p hpq]
/-- Every byte is as before where the tenants are. -/
theorem memKept_of_tenants {s t : State} (h : t.tenants = s.tenants) (u : Nat) (ps : List Span) : MemKept s t u ps := by
  intro v sp o _
  have ht : t.tenant v = s.tenant v := by rw [State.tenant, h]; rfl
  cases sp with
  | home m => simp only [byteOf, ht]
  | buf x pl => simp only [byteOf, State.bufferAt, ht]
  | hostIn => rfl
  | hostOut => rfl
  | unused => rfl

end Sys2Proof.Machine
end

section
/-!
PROOFS. Chapter 11: MMA, ACC_ZERO and ACC_LOAD (O45).
-/

namespace Sys2Proof.Machine

open Sys2Proof.Safety

/-! ### The pair of a queue -/

theorem State.pair_modPair (s : State) {q : Nat} (h : pairOf q < s.pairs.length) (f : Pair → Pair) : (s.modPair q f).pair q = f (s.pair q) :=
  getD_modify_self _ _ _ _ h
theorem State.pairs_modPair_ne (s : State) (q : Nat) (f : Pair → Pair) {p : Nat} (h : p ≠ pairOf q) : (s.modPair q f).pairs[p]? = s.pairs[p]? :=
  List.getElem?_modify_ne _ _ (Ne.symm h)

/-- The state with another content of an accumulator tile. -/
def State.withAcc (s : State) (q n : Nat) (f : Region → Region) : State :=
  s.modPair q fun p => { p with acc := p.acc.modify n fun x => { x with data := f x.data } }

section
variable {s : State} {q : Nat} (hp : PairsOk s) (h8 : 8 ≤ q) (hq : q < 24)
include hp h8 hq

theorem pairsOk_lt : pairOf q < s.pairs.length := by
  rw [hp.1, pairOf, if_pos hq]
  omega
theorem pairsOk_pair : (s.pair q).acc.length = 8 ∧ ∀ a ∈ (s.pair q).acc, a.data.wf = true := by
  have hlt := pairsOk_lt hp h8 hq
  have hm : s.pair q ∈ s.pairs := by
    rw [State.pair, List.getD_eq_getElem _ _ hlt]
    exact List.getElem_mem hlt
  exact ⟨(hp.2 _ hm).1, (hp.2 _ hm).2.2.2.1⟩
theorem pairsOk_acc_wf {n : Nat} (hn : n < 8) : ((s.pair q).acc.getD n {}).data.wf = true := by
  obtain ⟨hl, hw⟩ := pairsOk_pair hp h8 hq
  rw [List.getD_eq_getElem _ _ (by omega)]
  exact hw _ (List.getElem_mem _)
/-- An accumulator tile with another content, and all others as before. -/
theorem withAcc_spec {n : Nat} (hn : n < 8) (f : Region → Region) :
    ((s.withAcc q n f).pair q).acc.getD n {} = { (s.pair q).acc.getD n {} with data := f ((s.pair q).acc.getD n {}).data }
      ∧ PairKept s (s.withAcc q n f) q [n] [] := by
  have hlt := pairsOk_lt hp h8 hq
  obtain ⟨hl, -⟩ := pairsOk_pair hp h8 hq
  have hpair : (s.withAcc q n f).pair q = { s.pair q with acc := (s.pair q).acc.modify n fun x => { x with data := f x.data } } :=
    s.pair_modPair hlt _
  rw [PairKept, hpair]
  refine ⟨getD_modify_self _ _ _ _ (by omega), fun p hpq => s.pairs_modPair_ne q _ hpq, fun j hj => ?_, fun _ _ => rfl⟩
  exact List.getElem?_modify_ne _ _ fun h => hj (List.mem_singleton.mpr h.symm)

end

theorem accTile_lt (e : QEntry) : accTile e < 8 := Nat.mod_lt _ (by decide)
theorem putTile_sound {s : State} (h : Sound s) (q n : Nat) (r : Region) : s.putTile q n r = s.withAcc q n fun _ => r := by
  rw [State.putTile, sound_clearWords h]
  rfl

/-! ### MMA -/

/-- The rows of a product. -/
def mmaRows (s : State) (q : Nat) (i : Invocation) (e : QEntry) (a b : Span) (r : Nat) : List Nat :=
  let d := e.desc
  let el (f : Nat) (bs : Nat → Byte) (j x : Nat) : Nat := elemAt f (fun o => bs (x * panelPitch f + o)) j
  (List.range (fld d 39 6 0 + 1)).map fun c =>
    mmaElement ((mmaKind (fld d 36 3 0) (fld d 36 7 4)).getD .fp32) (fld d 36 3 0) (fld d 36 7 4)
      (el (fld d 36 3 0) (listReader (s.spanGet i a)) r) (el (fld d 36 7 4) (listReader (s.spanGet i b)) c) (fld d 32 16 0)
      (if fld d 37 3 3 = 1 then 0 else ((s.pair q).acc.getD (accTile e) {}).data.el r c)
theorem mmaRun_sound {s : State} (h : Sound s) (q : Nat) (i : Invocation) (e : QEntry) {w : Work} {a b : Span} (hw : w.reads = [a, b]) :
    State.mmaRun q [] s i e w = (s.withAcc q (accTile e) fun r =>
      r.putRows ((List.range (fld e.desc 38 6 0 + 1)).map fun r => (r, mmaRows s q i e a b r)), .done) := by
  unfold State.mmaRun
  extract_lets d k fa fb m n t
  rw [hw]
  dsimp only
  rw [sound_fetch h]
  dsimp only
  rw [List.foldl_fixed' fun x => sound_clearWords h _ _ _]
  rfl
theorem mmaRun_none (s : State) (q : Nat) (i : Invocation) (e : QEntry) {w : Work} (hw : w.reads = []) :
    State.mmaRun q [] s i e w = (s, .done) := by
  unfold State.mmaRun
  extract_lets d k fa fb m n t
  rw [hw]
theorem except_bind_ok {ε α β : Type} {x : Except ε α} {f : α → Except ε β} {b : β} (h : (x >>= f) = .ok b) : ∃ a, x = .ok a ∧ f a = .ok b := by
  cases x with
  | error e => cases h
  | ok a => exact ⟨a, rfl, h⟩
/-- What the start checks of MMA say of its reads. -/
theorem mmaWork_reads {s : State} {q : Nat} {i : Invocation} {e : QEntry} {w : Work} (h : s.mmaWork q i e = .ok w) :
    (fld e.desc 32 16 0 = 0 ∧ w.reads = []) ∨ (fld e.desc 32 16 0 ≠ 0 ∧ ∃ a b, w.reads = [a, b]) := by
  unfold State.mmaWork at h
  extract_lets d k fa fb t0 at h
  obtain ⟨_, -, h⟩ := except_bind_ok h
  obtain ⟨_, -, h⟩ := except_bind_ok h
  obtain ⟨_, -, h⟩ := except_bind_ok h
  obtain ⟨a, -, h⟩ := except_bind_ok h
  obtain ⟨b, -, h⟩ := except_bind_ok h
  obtain ⟨_, -, h⟩ := except_bind_ok h
  obtain ⟨_, -, h⟩ := except_bind_ok h
  split at h
  · next h0 =>
    cases h
    exact .inl ⟨h0, rfl⟩
  · next h0 =>
    obtain ⟨_, -, h⟩ := except_bind_ok h
    obtain ⟨_, -, h⟩ := except_bind_ok h
    cases h
    exact .inr ⟨h0, a, b, rfl⟩

/-! ### Lathe operations (O45) -/

section
variable {s : State} {q k : Nat} {e : QEntry} {i : Invocation} {w : Work} (hs : Sound s) (hp : PairsOk s) (h8 : 8 ≤ q) (hq : q < 24)
include hp h8 hq

theorem withAcc_only (f : Region → Region) :
    let t := (s.withAcc q (accTile e) f).modEntry q k fun y => { y with outcome := .done }
    (MemKept s t i.tenant [] ∧ t.host = s.host ∧ t.invocations = s.invocations ∧ PairKept s t q [accTile e] [])
    ∧ (((t.pair q).acc.getD (accTile e) {}).holder = ((s.pair q).acc.getD (accTile e) {}).holder
      ∧ ((t.pair q).acc.getD (accTile e) {}).kind = ((s.pair q).acc.getD (accTile e) {}).kind)
    ∧ ∀ r c, AccAt t q (accTile e) r c = (f ((s.pair q).acc.getD (accTile e) {}).data).el r c := by
  intro t
  obtain ⟨h1, h2⟩ := withAcc_spec hp h8 hq (accTile_lt e) f
  have hpair : t.pair q = (s.withAcc q (accTile e) f).pair q := rfl
  refine ⟨⟨memKept_of_tenants rfl _ _, rfl, rfl, h2⟩, ⟨by rw [hpair, h1], by rw [hpair, h1]⟩, fun r c => ?_⟩
  rw [AccAt, hpair, h1]

end

theorem withAcc_minding (s : State) (q n : Nat) (f : Region → Region) : State.Minding q s (s.withAcc q n f) :=
  ⟨rfl, rfl, rfl, rfl, rfl, rfl, rfl, rfl, rfl, fun _ _ => rfl, rfl⟩
theorem Region.el_empty (r c : Nat) : ({} : Region).el r c = 0 := by
  rw [Region.el, show ({} : Region) = Region.ofBytes [] from rfl, Region.le_ofBytes]
  rfl

/-- Settles O45, by the content that each operation gives its accumulator tile. -/
theorem latheOperations : Obligations.LatheOperations := by
  unfold Obligations.LatheOperations
  intro s q k e i w hs hp h8 hq d n only held
  refine ⟨fun hr hw => ?_, fun hr hw => ?_, fun hr hw => ?_⟩
  · obtain ⟨h0, hn⟩ | ⟨h0, a, b, hab⟩ := mmaWork_reads hw
    · refine performs_of hr hw rfl (mmaRun_none s q i e hn) (.refl q s) ?_
      refine ⟨⟨memKept_of_tenants rfl _ _, rfl, rfl, fun _ _ => rfl, fun _ _ => rfl, fun _ _ => rfl⟩, ⟨rfl, rfl⟩, fun _ => rfl,
        fun a b kind hab => ?_⟩
      rw [hn] at hab
      cases hab
    · refine performs_of hr hw rfl (mmaRun_sound hs q i e hab) (withAcc_minding ..) ?_
      obtain ⟨h1, h2, h3⟩ := withAcc_only (e := e) (i := i) (k := k) hp h8 hq fun r =>
        r.putRows ((List.range (fld e.desc 38 6 0 + 1)).map fun r => (r, mmaRows s q i e a b r))
      refine ⟨h1, h2, fun hz => absurd hz h0, fun a' b' kind hab' hkind => ?_⟩
      rw [hab] at hab'
      cases hab'
      have hrow : ∀ r, (mmaRows s q i e a b r).length = fld d 39 6 0 + 1 := fun r => by rw [mmaRows, List.length_map, List.length_range]
      have hn128 : fld d 39 6 0 + 1 ≤ 128 := by
        have : fld d 39 6 0 < 2 ^ 7 := Nat.mod_lt _ (by decide)
        omega
      have hwf := pairsOk_acc_wf hp h8 hq (accTile_lt e)
      refine ⟨fun r c hr hc => ?_, fun r c hr hc hout => ?_⟩
      · change r ≤ fld e.desc 38 6 0 at hr
        refine (h3 r c).trans ?_
        rw [Region.el_putRows hwf _ hrow hn128 (by omega), if_pos (by omega), mmaRows, List.getD_eq_getElem _ _ (by simpa using by omega),
          List.getElem_map, List.getElem_range, hkind]
        rfl
      · change fld e.desc 38 6 0 < r ∨ _ at hout
        refine (h3 r c).trans ?_
        rw [Region.el_putRows hwf _ hrow hn128 hc, if_neg (by omega)]
        rfl
  · refine performs_of hr hw rfl (congrArg (·, CmdOutcome.done) (putTile_sound hs q (accTile e) {})) (withAcc_minding ..) ?_
    obtain ⟨h1, h2, h3⟩ := withAcc_only (e := e) (i := i) (k := k) hp h8 hq fun _ => {}
    exact ⟨h1, h2, fun r c _ _ => (h3 r c).trans (Region.el_empty r c)⟩
  · have hrun : (let (s, f) := s.fetch i w.reads [] [] []
        match f with
        | some f => (s, CmdOutcome.failed .memory f)
        | none => (s.putTile q (accTile e) (Region.ofBytes (w.reads.flatMap (s.spanGet i))), .done))
        = (s.withAcc q (accTile e) fun _ => Region.ofBytes (w.reads.flatMap (s.spanGet i)), .done) := by
      rw [sound_fetch hs]
      exact congrArg (·, CmdOutcome.done) (putTile_sound hs q (accTile e) _)
    refine performs_of hr hw rfl hrun (withAcc_minding ..) ?_
    obtain ⟨h1, h2, h3⟩ := withAcc_only (e := e) (i := i) (k := k) hp h8 hq fun _ => Region.ofBytes (w.reads.flatMap (s.spanGet i))
    refine ⟨h1, h2, fun a ha r c _ _ => (h3 r c).trans ?_⟩
    rw [Region.el, Region.le_ofBytes, ha, List.flatMap_cons, List.flatMap_nil, List.append_nil]

end Sys2Proof.Machine
end

section
/-!
PROOFS. The memory of a tenant: what a write of an engine stores, and what it leaves (chapters 09, 17).
-/

namespace Sys2Proof.Machine

open Sys2Proof.Safety

/-! ### The memory of a tenant -/

/-- One byte of a home, or of a buffer, of a tenant. -/
def Tenant.byte (x : Tenant) : Space → Nat → Byte
  | .home m, o => ((x.homes.lookup m).getD {}).at o
  | .buf k _, o => ((x.buffers.find? (·.index == k)).map fun b => b.data.at o).getD 0
  | _, _ => 0
theorem byteOf_eq (s : State) (t : Nat) (sp : Space) (o : Nat) : byteOf s t sp o = (s.tenant t).byte sp o := by
  cases sp <;> rfl
/-- A buffer without its content. -/
def Buffer.shape (b : Buffer) : Buffer := { b with data := {}, dirty := [] }
/-- The models, the run and the buffers of a tenant, without content. -/
def Tenant.shape (x : Tenant) : (List Model × Bool) × List Buffer := ((x.models, x.runOpen), x.buffers.map Buffer.shape)
/-- The content of a tenant's memory has its canonical form wherever it had it before. -/
def Tenant.KeepsForm (x y : Tenant) : Prop :=
  (∀ m, ((x.homes.lookup m).getD {}).wf = true → ((y.homes.lookup m).getD {}).wf = true)
    ∧ ∀ k b, x.buffers.find? (·.index == k) = some b → b.data.wf = true →
      ∃ b', y.buffers.find? (·.index == k) = some b' ∧ b'.data.wf = true

theorem Tenant.KeepsForm.refl (x : Tenant) : x.KeepsForm x := ⟨fun _ h => h, fun _ b hb h => ⟨b, hb, h⟩⟩
theorem Tenant.KeepsForm.trans {x y z : Tenant} (h : x.KeepsForm y) (k : y.KeepsForm z) : x.KeepsForm z :=
  ⟨fun m hm => k.1 m (h.1 m hm), fun n b hb hw => by
    obtain ⟨b', hb', hw'⟩ := h.2 n b hb hw
    exact k.2 n b' hb' hw'⟩

/-- The tenant with bytes stored in one of its memories. -/
def Tenant.store (sp : Space) (off : Nat) (bs : List Byte) (x : Tenant) : Tenant :=
  match sp with
  | .home m => { x with homes := (m, ((x.homes.lookup m).getD {}).put off bs) :: x.homes.filter (·.1 != m) }
  | .buf k _ => { x with buffers := x.buffers.map fun b => if b.index = k then { b with data := b.data.put off bs }.soil off bs.length else b }
  | _ => x
theorem Buffer.soil_data (b : Buffer) (off len : Nat) : (b.soil off len).data = b.data := by
  unfold Buffer.soil
  extract_lets
  split <;> rfl
theorem Buffer.soil_shape (b : Buffer) (off len : Nat) : (b.soil off len).shape = b.shape := by
  unfold Buffer.soil
  extract_lets
  split <;> rfl
theorem Buffer.soil_index (b : Buffer) (off len : Nat) : (b.soil off len).index = b.index := (congrArg Buffer.index (b.soil_shape off len) :)
theorem Tenant.store_shape (sp : Space) (off : Nat) (bs : List Byte) (x : Tenant) : (x.store sp off bs).shape = x.shape := by
  cases sp with
  | buf k pl =>
    refine Prod.ext rfl ?_
    show (x.buffers.map _).map Buffer.shape = _
    rw [List.map_map]
    refine List.map_congr_left fun b _ => ?_
    dsimp only [Function.comp]
    split
    · rw [Buffer.soil_shape]
      rfl
    · rfl
  | _ => rfl
/-- A buffer of the tenant after a store. -/
theorem Tenant.store_buffer (k : Nat) (pl : Placement) (off : Nat) (bs : List Byte) (x : Tenant) (n : Nat) :
    (x.store (.buf k pl) off bs).buffers.find? (·.index == n)
      = (x.buffers.find? (·.index == n)).map fun b => if n = k then { b with data := b.data.put off bs }.soil off bs.length else b := by
  show (x.buffers.map _).find? _ = _
  rw [List.find?_map]
  have hp : ((fun b : Buffer => b.index == n) ∘ fun b => if b.index = k then { b with data := b.data.put off bs }.soil off bs.length else b)
      = fun b => b.index == n := by
    funext b
    dsimp only [Function.comp]
    split
    · rw [Buffer.soil_index]
    · rfl
  rw [hp]
  cases hf : x.buffers.find? (·.index == n) with
  | none => rfl
  | some b =>
    have hb : b.index = n := beq_iff_eq.mp (List.find?_some (p := fun b : Buffer => b.index == n) hf)
    rw [Option.map_some, Option.map_some, hb]
theorem Tenant.store_homes (m off : Nat) (bs : List Byte) (x : Tenant) (n : Nat) :
    ((x.store (.home m) off bs).homes.lookup n).getD {}
      = if n = m then ((x.homes.lookup m).getD {}).put off bs else (x.homes.lookup n).getD {} := by
  show (List.lookup n ((m, ((x.homes.lookup m).getD {}).put off bs) :: x.homes.filter (·.1 != m))).getD {} = _
  split
  · next h =>
    rw [h, List.lookup_cons_self]
    rfl
  · next h =>
    rw [List.lookup_cons, (beq_eq_false_iff_ne.mpr h : (n == m) = false), lookup_filter_true fun v => by simpa using h]
theorem Tenant.store_keepsForm (sp : Space) (off : Nat) (bs : List Byte) (x : Tenant) : x.KeepsForm (x.store sp off bs) := by
  cases sp with
  | home m =>
    refine ⟨fun n hn => ?_, fun k b hb hw => ⟨b, hb, hw⟩⟩
    rw [Tenant.store_homes]
    split
    · next h => exact Region.put_wf (h ▸ hn) off bs
    · exact hn
  | buf k pl =>
    refine ⟨fun m h => h, fun n b hb hw => ⟨_, by rw [Tenant.store_buffer, hb]; rfl, ?_⟩⟩
    split
    · rw [Buffer.soil_data]
      exact Region.put_wf hw off bs
    · exact hw
  | _ => exact .refl x
/-- A byte after a store. -/
theorem Tenant.store_byte {sp : Space} (off : Nat) (bs : List Byte) (x : Tenant)
    (hsp : (∃ m, sp = .home m) ∨ ∃ k pl b, sp = .buf k pl ∧ x.buffers.find? (·.index == k) = some b) (sp' : Space) (o : Nat) :
    (x.store sp off bs).byte sp' o
      = if sameSpace sp sp' = true ∧ off ≤ o ∧ o < off + bs.length then bs.getD (o - off) 0 else x.byte sp' o := by
  obtain ⟨m, rfl⟩ | ⟨k, pl, b, rfl, hb⟩ := hsp
  · cases sp' with
    | home n =>
      rw [Tenant.byte, Tenant.store_homes, Tenant.byte]
      simp only [sameSpace, beq_iff_eq]
      by_cases hn : m = n
      · subst hn
        rw [if_pos rfl, Region.at_put]
        simp only [true_and]
      · rw [if_neg (Ne.symm hn), if_neg fun h => hn h.1]
    | buf n pl => rw [if_neg (by simp [sameSpace])]; rfl
    | _ => rw [if_neg (by simp [sameSpace])]; rfl
  · cases sp' with
    | buf n pl' =>
      rw [Tenant.byte, Tenant.store_buffer, Tenant.byte, Option.map_map]
      simp only [sameSpace, beq_iff_eq]
      by_cases hn : k = n
      · subst hn
        rw [hb, Option.map_some, Option.getD_some, Option.map_some, Option.getD_some]
        dsimp only [Function.comp]
        rw [if_pos rfl, Buffer.soil_data, Region.at_put]
        simp only [true_and]
      · rw [if_neg fun h => hn h.1]
        congr 2
        funext c
        dsimp only [Function.comp]
        rw [if_neg (Ne.symm hn)]
    | home n => rw [if_neg (by simp [sameSpace])]; rfl
    | _ => rw [if_neg (by simp [sameSpace])]; rfl

/-! ### Where a piece lies -/

/-- The models and the buffers of every tenant are the same, but for their content. -/
structure State.Shaped (s u : State) : Prop where
  length : u.tenants.length = s.tenants.length
  shape : ∀ n, (u.tenant n).shape = (s.tenant n).shape

theorem State.Shaped.refl (s : State) : s.Shaped s := ⟨rfl, fun _ => rfl⟩
theorem State.Shaped.trans {s t u : State} (h : s.Shaped t) (k : t.Shaped u) : s.Shaped u :=
  ⟨k.length.trans h.length, fun n => (k.shape n).trans (h.shape n)⟩
theorem State.Shaped.of_tenants {s u : State} (h : u.tenants = s.tenants) : s.Shaped u :=
  ⟨by rw [h], fun n => by rw [State.tenant, h]; rfl⟩
theorem State.modTenant_shaped (s : State) (n : Nat) {f : Tenant → Tenant} (hf : ∀ x, (f x).shape = x.shape) : s.Shaped (s.modTenant n f) := by
  refine ⟨List.length_modify .., fun k => ?_⟩
  by_cases hk : k = n
  · subst hk
    by_cases hl : k < s.tenants.length
    · rw [s.tenant_modTenant _ hl, hf]
    · rw [State.modTenant_of_le (by omega)]
  · rw [s.tenant_modTenant_ne _ hk]

section
variable {s u : State} (h : s.Shaped u)
include h

theorem State.Shaped.models (n : Nat) : (u.tenant n).models = (s.tenant n).models := congrArg (fun x => x.1.1) (h.shape n)
theorem State.Shaped.runOpen (n : Nat) : (u.tenant n).runOpen = (s.tenant n).runOpen := congrArg (fun x => x.1.2) (h.shape n)
theorem State.Shaped.bufferAt (n k : Nat) : (u.bufferAt n k).map Buffer.shape = (s.bufferAt n k).map Buffer.shape := by
  have key (x : Tenant) : (x.buffers.find? (·.index == k)).map Buffer.shape = x.shape.2.find? (·.index == k) := by
    show _ = (x.buffers.map Buffer.shape).find? _
    rw [List.find?_map]
    rfl
  rw [State.bufferAt, State.bufferAt, key, key, h.shape]
theorem State.Shaped.planBase (n m e : Nat) : u.planBase n m e = s.planBase n m e := by
  have hb (k : Nat) : (match u.bufferAt n k with
      | some b => if b.placement = Placement.tile then b.granules else 0
      | none => 0) = match s.bufferAt n k with
      | some b => if b.placement = Placement.tile then b.granules else 0
      | none => 0 := by
    have hk := h.bufferAt n k
    cases hu : u.bufferAt n k with
    | none =>
      rw [hu] at hk
      cases hs : s.bufferAt n k with
      | none => rfl
      | some b => rw [hs] at hk; cases hk
    | some b' =>
      rw [hu] at hk
      cases hs : s.bufferAt n k with
      | none => rw [hs] at hk; cases hk
      | some b =>
        rw [hs] at hk
        have hsh : b'.shape = b.shape := Option.some.inj hk
        have hp : b'.placement = b.placement := (congrArg Buffer.placement hsh :)
        have hg : b'.granules = b.granules := (congrArg Buffer.granules hsh :)
        dsimp only
        rw [hp, hg]
  unfold State.planBase
  rw [State.model?_of_models (h.models n)]
  split
  · rfl
  · congr 1
    refine congrArg (fun f => List.foldl f 0 _) ?_
    funext a k
    exact congrArg (a + ·) (hb _)
/-- A piece lies where it lay. -/
theorem State.Shaped.settle (n : Nat) (p : Span) : u.settle n p = s.settle n p := by
  have hplan (k : Nat) : (u.bufferAt n k).bind (·.planOf) = (s.bufferAt n k).bind (·.planOf) := by
    have hk := congrArg (fun o : Option Buffer => o.bind (·.planOf)) (h.bufferAt n k)
    rwa [Option.bind_map, Option.bind_map] at hk
  unfold State.settle
  split
  · next k hk =>
    rw [hplan]
    split
    · rw [h.planBase]
    · rfl
  · rfl

end

theorem State.settle_len (s : State) (n : Nat) (p : Span) (len : Nat) : s.settle n { p with len := len } = { s.settle n p with len := len } := by
  unfold State.settle
  dsimp only
  split
  · split <;> rfl
  · rfl
theorem State.settle_add (s : State) (n : Nat) (p : Span) (o len : Nat) :
    s.settle n { p with off := p.off + o, len := len } = { s.settle n p with off := (s.settle n p).off + o, len := len } := by
  unfold State.settle
  dsimp only
  split
  · split
    · dsimp only
      rw [Nat.add_right_comm]
    · rfl
  · rfl
/-- Bytes of a home or a buffer, one by one. -/
theorem State.spanGet_eq {s : State} {i : Invocation} {p : Span} (hb : Backed s i p) (hh : (s.settle i.tenant p).space ≠ .hostOut) :
    s.spanGet i p = (List.range p.len).map fun k => byteOf s i.tenant (s.settle i.tenant p).space ((s.settle i.tenant p).off + k) := by
  have hlen : (s.settle i.tenant p).len = p.len :=
    (congrArg Span.len (s.settle_len i.tenant p p.len) :)
  unfold State.spanGet
  extract_lets q
  unfold Backed at hb
  change q.len = p.len at hlen
  change q.space ≠ .hostOut at hh
  change (match q.space with
    | .home m => _
    | .buf x pl => _
    | .hostOut => _
    | _ => _) at hb
  show _ = (List.range p.len).map fun k => byteOf s i.tenant q.space (q.off + k)
  clear_value q
  obtain ⟨sp, off, len⟩ := q
  subst hlen
  cases sp with
  | home m => exact Region.get_eq hb.2 _ _
  | buf x pl =>
    obtain ⟨hpl, b, hb, hw⟩ := hb
    dsimp only at hpl hb ⊢
    simp only [byteOf, hb, Option.map_some, Option.getD_some]
    cases pl with
    | readonly => exact absurd rfl hpl
    | _ => exact Region.get_eq hw _ _
  | hostOut => exact absurd rfl hh
  | _ => exact hb.elim

/-! ### A write where no memory error is recorded -/

/-- No DRAM block and no SRAM word is poisoned. -/
def MemProt.Clean (p : MemProt) : Prop := (∀ k ∈ p.dramStacks, k.poison = []) ∧ ∀ u ∈ p.sram, u.poison = []

theorem exists_of_mem_modify {α : Type} {l : List α} {n : Nat} {f : α → α} {x : α} (h : x ∈ l.modify n f) : ∃ y ∈ l, x = y ∨ x = f y := by
  obtain ⟨k, hk⟩ := List.mem_iff_getElem?.mp h
  rw [List.getElem?_modify] at hk
  obtain ⟨y, hy, hx⟩ := Option.map_eq_some_iff.mp hk
  refine ⟨y, List.mem_of_getElem? hy, ?_⟩
  split at hx
  · exact .inr hx.symm
  · exact .inl hx.symm
theorem clean_stack {s : State} (h : s.prot.Clean) (k : Nat) : (s.stack k).poison = [] := by
  unfold State.stack
  rw [List.getD_eq_getElem?_getD]
  cases hk : s.prot.dramStacks[k]? with
  | none => rfl
  | some u => exact h.1 u (List.mem_of_getElem? hk)
theorem clean_readDram {s : State} (h : s.prot.Clean) (k b tag : Nat) : s.readDram k b {} tag none false = (s, none) := by
  have hd : decodeBlock (s.stack k).failedDie ({} : BlockErrors).first = .clean := by
    unfold decodeBlock
    exact if_pos rfl
  by_cases hr : ((s.stack k).remap.any fun r => r.2.1 == b) = true
  · unfold State.readDram
    extract_lets st tn
    rw [show st.poison = [] from clean_stack h k, List.lookup_nil]
    dsimp only
    rw [if_pos hr]
  · unfold State.readDram
    extract_lets st tn
    rw [show st.poison = [] from clean_stack h k, List.lookup_nil]
    dsimp only
    rw [if_neg hr, show decodeBlock st.failedDie ({} : BlockErrors).first = .clean from hd]
/-- Blocks that are read to be merged with what is written. -/
theorem clean_mergeReads {s : State} (h : s.prot.Clean) (b : Buffer) (tag : Nat) (found : List BlockRead) (hf : found = []) (l : List Nat) :
    ∃ pr : MemProt, pr.Clean ∧ l.foldl (fun (r : State × Option Nat) k => match b.blockAt k with
        | none => r
        | some (st, n) =>
          let s := r.1.modStack st fun y => { y with rmw := satAdd32 y.rmw 1 }
          let e := ((found.find? fun f => f.stack == st && f.block == n).map (·.errors)).getD {}
          let y := s.readDram st n e tag none false
          (y.1, r.2.or y.2)) (s, none) = ({ s with prot := pr }, none) := by
  subst hf
  induction l generalizing s with
  | nil => exact ⟨s.prot, h, rfl⟩
  | cons k l ih =>
    rw [List.foldl_cons]
    cases hk : b.blockAt k with
    | none => exact ih h
    | some x =>
      obtain ⟨u, hu⟩ : ∃ u, u = s.modStack x.1 fun y => { y with rmw := satAdd32 y.rmw 1 } := ⟨_, rfl⟩
      have hc : u.prot.Clean := by
        rw [hu]
        refine ⟨fun k hk => ?_, h.2⟩
        obtain ⟨y, hy, hm⟩ := exists_of_mem_modify hk
        obtain rfl | rfl := hm
        · exact h.1 _ hy
        · exact (h.1 _ hy :)
      obtain ⟨pr, hpr, he⟩ := ih hc
      refine ⟨pr, hpr, ?_⟩
      dsimp only
      rw [← hu]
      have hr : u.readDram x.1 x.2 (((List.find? (fun f : BlockRead => f.stack == x.1 && f.block == x.2) []).map (·.errors)).getD {}) tag none false
          = (u, none) := clean_readDram hc _ _ _
      rw [hr]
      refine he.trans ?_
      rw [hu]
      rfl

theorem clean_sramUnit {s : State} (h : s.prot.Clean) (k : Nat) : (s.sramUnit k).poison = [] := by
  unfold State.sramUnit
  rw [List.getD_eq_getElem?_getD]
  cases hk : s.prot.sram[k]? with
  | none => rfl
  | some u => exact h.2 u (List.mem_of_getElem? hk)
/-- Bytes stored in a home or a buffer. -/
theorem State.spanStore_eq (s : State) (i : Invocation) {q : Span} (bs : List Byte)
    (hq : (∃ m, q.space = .home m) ∨ ∃ k pl, q.space = .buf k pl ∧ pl ≠ .readonly) :
    s.spanStore i q bs = s.modTenant i.tenant (Tenant.store q.space q.off bs) := by
  obtain ⟨sp, off, len⟩ := q
  unfold State.spanStore
  obtain ⟨m, hm⟩ | ⟨k, pl, hk, hpl⟩ := hq
  · cases hm
    rfl
  · cases hk
    cases pl with
    | readonly => exact absurd rfl hpl
    | _ => rfl
section
variable {s : State} (h : s.prot.Clean) {i : Invocation} {p : Span} {bs : List Byte} (hne : bs ≠ []) {sp : Space} {off len : Nat}
include h hne

/-- A write to the tile store stores its bytes. -/
theorem clean_spanWrite_tile (hq : s.settle i.tenant p = ⟨sp, off, len⟩) (hsp : (∃ m, sp = .home m) ∨ ∃ k, sp = .buf k .tile) :
    s.spanWrite i p bs = (s.modTenant i.tenant (Tenant.store sp off bs), none) := by
  have hl := s.settle_len i.tenant p bs.length
  rw [hq] at hl
  have hgone : s.poisonIn i.tenant { space := sp, off := off, len := bs.length } true = [] := by
    rw [State.poisonIn, clean_sramUnit h, List.filter_nil]
  unfold State.spanWrite
  dsimp only
  rw [if_neg (by simpa using hne), hl]
  obtain ⟨m, rfl⟩ | ⟨k, rfl⟩ := hsp
  · dsimp only
    rw [hgone]
    exact congrArg (·, none) (s.spanStore_eq i bs (.inl ⟨m, rfl⟩))
  · dsimp only
    rw [hgone]
    exact congrArg (·, none) (s.spanStore_eq i bs (.inr ⟨k, .tile, rfl, by decide⟩))
/-- A write to DRAM stores its bytes; the blocks it covers in part are read without a fault. -/
theorem clean_spanWrite_dram {x : Nat} {pl : Placement} (hq : s.settle i.tenant p = ⟨.buf x pl, off, len⟩) (hr : pl ≠ .readonly) (ht : pl ≠ .tile)
    {b : Buffer} (hb : s.bufferAt i.tenant x = some b) :
    ∃ pr : MemProt, pr.Clean ∧ s.spanWrite i p bs = ({ s.modTenant i.tenant (Tenant.store (.buf x pl) off bs) with prot := pr }, none) := by
  have hl := s.settle_len i.tenant p bs.length
  rw [hq] at hl
  obtain ⟨pr, hpr, he⟩ := clean_mergeReads h b i.tag [] rfl (partBlocks off bs.length)
  refine ⟨pr, hpr, ?_⟩
  have hstore := State.spanStore_eq { s with prot := pr } i (q := ⟨.buf x pl, off, bs.length⟩) bs (.inr ⟨x, pl, rfl, hr⟩)
  unfold State.spanWrite
  extract_lets +onlyGivenNames t q
  replace hl : q = ⟨.buf x pl, off, bs.length⟩ := hl
  clear_value q
  subst hl
  rw [if_neg (by simpa using hne)]
  have key : ∀ whole : Nat → Nat → Bool, (pr.dramStacks.zipIdx.map fun k : MemStack × Nat =>
      if k.1.poison.isEmpty then k.1 else { k.1 with poison := k.1.poison.filter fun w => !whole k.2 w.1 }) = pr.dramStacks := fun whole => by
    refine (List.map_congr_left (g := Prod.fst) fun k hk => if_pos ?_).trans (List.zipIdx_map_fst _ _)
    rw [hpr.1 _ (List.fst_mem_of_mem_zipIdx hk)]
    rfl
  cases pl with
  | readonly => exact absurd rfl hr
  | tile => exact absurd rfl ht
  | _ =>
    dsimp -zeta only
    rw [show s.bufferAt t x = some b from hb]
    dsimp -zeta only
    extract_lets part r u whole v
    have hr' : r = ({ s with prot := pr }, none) := he
    have hu : u = _ := (congrArg (fun r : State × Option Nat => r.1.spanStore i _ bs) hr').trans hstore
    have hv : v = _ := (congrArg (fun u : State => u.modProt fun m => { m with dramStacks := m.dramStacks.zipIdx.map fun k =>
      if k.1.poison.isEmpty then k.1 else { k.1 with poison := k.1.poison.filter fun w => !whole k.2 w.1 } }) hu)
    refine Prod.ext ((hv.trans ?_).trans (congrArg (fun l => ({ s.modTenant i.tenant (Tenant.store _ off bs) with
      prot := { pr with dramStacks := l } } : State)) (key whole))) (congrArg (fun r : State × Option Nat => r.2) hr' :)
    rfl

end

/-- Bytes have been stored at a settled piece of an invocation's tenant, and nothing else but the memory protection differs. -/
structure State.Stores (s u : State) (n : Nat) (q : Span) (bs : List Byte) : Prop where
  shaped : s.Shaped u
  form : ∀ n, (s.tenant n).KeepsForm (u.tenant n)
  clean : u.prot.Clean
  rest : { u with tenants := s.tenants, prot := s.prot } = s
  bytes : ∀ v sp o, byteOf u v sp o = if v = n ∧ sameSpace q.space sp = true ∧ q.off ≤ o ∧ o < q.off + bs.length then bs.getD (o - q.off) 0
    else byteOf s v sp o

theorem lt_of_bufferAt {s : State} {n k : Nat} {b : Buffer} (h : s.bufferAt n k = some b) : n < s.tenants.length := by
  by_contra hl
  rw [State.bufferAt, State.tenant, List.getD_eq_getElem?_getD, List.getElem?_eq_none (by omega)] at h
  cases h
theorem stores_modTenant {s : State} (pr : MemProt) (hpr : pr.Clean) {n : Nat} (hn : n < s.tenants.length) {q : Span} (bs : List Byte)
    (hq : (∃ m, q.space = .home m) ∨ ∃ k pl b, q.space = .buf k pl ∧ s.bufferAt n k = some b) :
    s.Stores { s.modTenant n (Tenant.store q.space q.off bs) with prot := pr } n q bs := by
  have hf := s.modTenant_shaped n (Tenant.store_shape q.space q.off bs)
  have hself : ({ s.modTenant n (Tenant.store q.space q.off bs) with prot := pr } : State).tenant n = (s.tenant n).store q.space q.off bs :=
    s.tenant_modTenant _ hn
  have hne (v : Nat) (hv : v ≠ n) : ({ s.modTenant n (Tenant.store q.space q.off bs) with prot := pr } : State).tenant v = s.tenant v :=
    s.tenant_modTenant_ne _ hv
  refine ⟨⟨hf.length, hf.shape⟩, fun v => ?_, hpr, rfl, fun v sp o => ?_⟩
  · by_cases hv : v = n
    · subst hv
      rw [hself]
      exact Tenant.store_keepsForm _ _ _ _
    · rw [hne v hv]
      exact .refl _
  · rw [byteOf_eq, byteOf_eq]
    by_cases hv : v = n
    · subst hv
      rw [hself, Tenant.store_byte _ _ _ hq]
      simp only [true_and]
    · rw [hne v hv, if_neg fun h => hv h.1]
/-- A write to a home or a buffer stores its bytes, and finds no fault. -/
theorem clean_spanWrite {s : State} (h : s.prot.Clean) {i : Invocation} {p : Span} (hb : Backed s i p) {bs : List Byte} (hne : bs ≠ [])
    (hh : (s.settle i.tenant p).space ≠ .hostOut) :
    ∃ u, s.spanWrite i p bs = (u, none) ∧ s.Stores u i.tenant (s.settle i.tenant p) bs := by
  unfold Backed at hb
  generalize hq : s.settle i.tenant p = q at hb hh ⊢
  obtain ⟨sp, off, len⟩ := q
  cases sp with
  | home m =>
    exact ⟨_, clean_spanWrite_tile h hne hq (.inl ⟨m, rfl⟩), stores_modTenant (q := ⟨.home m, off, len⟩) s.prot h hb.1 bs (.inl ⟨m, rfl⟩)⟩
  | buf x pl =>
    obtain ⟨hpl, b, hbuf, -⟩ := hb
    have hst (pr : MemProt) (hpr : pr.Clean) := stores_modTenant (s := s) (q := ⟨.buf x pl, off, len⟩) pr hpr (lt_of_bufferAt hbuf) bs
      (.inr ⟨x, pl, b, rfl, hbuf⟩)
    by_cases ht : pl = .tile
    · subst ht
      exact ⟨_, clean_spanWrite_tile h hne hq (.inr ⟨x, rfl⟩), hst s.prot h⟩
    · obtain ⟨pr, hpr, he⟩ := clean_spanWrite_dram h hne hq hpl ht hbuf
      exact ⟨_, he, hst pr hpr⟩
  | hostOut => exact absurd rfl hh
  | _ => exact hb.elim

/-! ### What a store means for reads -/

section
variable {s u : State} {i : Invocation} {p : Span} {bs : List Byte}

/-- A piece that is backed stays backed. -/
theorem backed_of_stores {q : Span} (h : s.Stores u i.tenant q bs) {p' : Span} (hb : Backed s i p') : Backed u i p' := by
  unfold Backed at hb ⊢
  rw [h.shaped.settle]
  split
  · next m hm =>
    rw [hm] at hb
    exact ⟨by rw [h.shaped.length]; exact hb.1, (h.form i.tenant).1 m hb.2⟩
  · next x pl hx =>
    rw [hx] at hb
    obtain ⟨hpl, b, hbuf, hw⟩ := hb
    exact ⟨hpl, (h.form i.tenant).2 x b hbuf hw⟩
  · next ho =>
    rw [ho] at hb
    exact hb
  · next h1 h2 h3 =>
    split at hb
    · next hm => exact h1 _ hm
    · next hx => exact h2 _ _ hx
    · next ho => exact h3 ho
    · exact hb
theorem sameSpace_self (hb : Backed s i p) (hh : (s.settle i.tenant p).space ≠ .hostOut) :
    sameSpace (s.settle i.tenant p).space (s.settle i.tenant p).space = true := by
  unfold Backed at hb
  generalize (s.settle i.tenant p).space = sp at hb hh
  cases sp with
  | home m => exact beq_self_eq_true m
  | buf x pl => exact beq_self_eq_true x
  | hostOut => exact absurd rfl hh
  | _ => exact hb.elim
/-- What was stored is read back. -/
theorem stored_of_stores (h : s.Stores u i.tenant (s.settle i.tenant p) bs) (hb : Backed s i p) (hh : (s.settle i.tenant p).space ≠ .hostOut) :
    Stored s u i p bs := by
  have hu := backed_of_stores h hb
  have hset : u.settle i.tenant { p with len := bs.length } = { s.settle i.tenant p with len := bs.length } := by
    rw [h.shaped.settle, State.settle_len]
  have hu' : Backed u i { p with len := bs.length } := by
    unfold Backed at hu ⊢
    rw [State.settle_len]
    exact hu
  have hget := State.spanGet_eq hu' (by rw [hset]; exact hh)
  have hread : u.spanGet i { p with len := bs.length } = bs := by
    rw [hget, hset]
    apply List.ext_getElem
    · rw [List.length_map, List.length_range]
    · intro k hk hk'
      rw [List.getElem_map, List.getElem_range, h.bytes]
      dsimp only
      rw [if_pos ⟨rfl, sameSpace_self hb hh, by omega, by omega⟩, Nat.add_sub_cancel_left, List.getD_eq_getElem _ _ hk']
  have hhost : u.host = s.host := (congrArg State.host h.rest :)
  unfold Stored
  split
  · next ho => exact absurd ho hh
  · exact ⟨hhost, hread⟩
/-- Bytes outside the piece are as before. -/
theorem memKept_of_stores (h : s.Stores u i.tenant (s.settle i.tenant p) bs) (hlen : bs.length ≤ p.len) {ps : List Span} (hp : p ∈ ps) :
    MemKept s u i.tenant ps := by
  intro v sp o ho
  rw [h.bytes]
  refine if_neg fun hc => ?_
  obtain ⟨hv, hsp, h1, h2⟩ := hc
  have := ho p hp hv hsp
  omega

end

end Sys2Proof.Machine
end

section
/-!
PROOFS. Chapter 14: the rejections that a Burl engine counts (O44).
-/

namespace Sys2Proof.Machine

open Sys2Proof.Safety Sys2Proof.Tests

/-- A FRAME_JPEG whose stream is progressive, at an engine whose count of corrupt streams stands past what its register holds. -/
def overfullWord : BitVec 512 := burlWord 1 1 [(24, 8)]
def overfullState : State := { demoJpeg 72 overfullWord (greyStream 0xC2) with burl := [{ rejCorrupt := 2 ^ 32 }, {}] }
/-- The count of corrupt streams that a row leaves. -/
def corruptAfter : Out → Option Nat
  | .next t => some (t.burl.getD 0 {}).rejCorrupt
  | _ => none
/-- The work of a command that passes its checks and whose stream is rejected for its coding. -/
def rejectedB (s : State) (i : Invocation) (e : QEntry) : Bool :=
  okB (s.burlWork i e) fun w => w.writes.all (backedB s i) && match s.burlImage i e w with
    | some (.error x) => x.why == .coding
    | _ => false

theorem overfullState_runs : runB overfullState 72 4 1 0 (opEntry overfullWord) opInv = true ∧ soundB overfullState = true
    ∧ overfullState.burl.length = 2 ∧ overfullState.invocations = [opInv] ∧ rejectedB overfullState opInv (opEntry overfullWord) = true := by
  decide +kernel
theorem overfullState_keeps : corruptAfter (exec (.frameJpeg ⟨72, []⟩) overfullState) = some (2 ^ 32) := by decide +kernel

/-- Refutes O44: the count of a rejection of another kind keeps its value, so one that stands past the largest value of its register is not
the saturated sum of itself and 0. -/
theorem not_dmaAndBurlOperations : ¬ Obligations.DmaAndBurlOperations := by
  unfold Obligations.DmaAndBurlOperations
  rintro ⟨-, -, -, h⟩
  obtain ⟨hrun, hs, hb, hi, hrej⟩ := overfullState_runs
  obtain ⟨w, hw, hp⟩ := ok_of hrej
  rw [Bool.and_eq_true, List.all_eq_true] at hp
  obtain ⟨hwr, him⟩ := hp
  obtain ⟨-, herr, -⟩ := h overfullState 72 0 (opEntry overfullWord) opInv w (sound_of hs) (by decide) (by decide) (by decide) hb hw
    (fun p hp => backed_of (hwr p hp)) (by rw [hi]; exact List.mem_singleton_self _)
  split at him
  · next x hx =>
    obtain ⟨t, ht, -, -, -, -, -, -, -, hcor, -⟩ := herr x hx _ (List.mem_cons_self ..) (running_of hrun)
    have hk := overfullState_keeps
    rw [ht] at hk
    have hc : x.why = .coding := beq_iff_eq.mp him
    rw [hc] at hcor
    have hfin : (t.burl.getD 0 {}).rejCorrupt = 2 ^ 32 := Option.some.inj hk
    have hcor' : (t.burl.getD 0 {}).rejCorrupt = 0xFFFFFFFF := hcor
    omega
  · exact absurd him (by decide)

end Sys2Proof.Machine
end

section
/-!
PROOFS. Chapter 18: the flows of peer frames; frames are sent, sent again, and given up (O49).
-/

namespace Sys2Proof.Machine

open Sys2Proof.Safety

/-! ### The state of a flow -/

theorem State.flow_flow (s : State) (f : Nat) : (s.flow f).flow = f := by
  unfold State.flow
  cases h : s.peer.flows.find? (·.flow == f) with
  | none => rfl
  | some x => exact beq_iff_eq.mp (List.find?_some (p := fun x : Flow => x.flow == f) h)
theorem State.flow_modFlow (s : State) (f : Nat) (g : Flow → Flow) (hg : ∀ x, (g x).flow = x.flow) : (s.modFlow f g).flow f = g (s.flow f) := by
  have h : (g (s.flow f)).flow = f := (hg _).trans (s.flow_flow f)
  show ((List.find? (·.flow == f) (g (s.flow f) :: _)).getD _) = _
  rw [List.find?_cons_of_pos (p := fun x : Flow => x.flow == f) (beq_iff_eq.mpr h)]
  rfl
theorem State.flow_congr {s t : State} (h : t.peer.flows = s.peer.flows) (f : Nat) : t.flow f = s.flow f := by rw [State.flow, h]; rfl
theorem State.flowRec_flow {s : State} {f : Nat} {r : FlowRec} (h : s.flowRec f = some r) : r.flow = f :=
  beq_iff_eq.mp (List.find?_some (p := fun x : FlowRec => x.flow == f) h)
theorem State.transmit_flow (s : State) (p : Nat) (x : PeerFrame) (f : Nat) : (s.transmit p x).flow f = s.flow f := s.flow_congr rfl f
theorem State.turnFlow_flow (s : State) (f p : Nat) : ∃ n, (s.turnFlow f p).flow f = { s.flow f with rotation := n } :=
  ⟨_, s.flow_modFlow f _ fun _ => rfl⟩

/-- What a control frame changes: only the peer fabric, and of its flow only the place in the rotation. -/
structure State.Turns (s t : State) (f : Nat) : Prop where
  rest : { t with peer := s.peer } = s
  flow : ∃ n, t.flow f = { s.flow f with rotation := n }
theorem State.sendControl_turns (s : State) (f : Nat) (r : FlowRec) (type epoch : Nat) (extra : List (Nat × Nat × Nat × Nat)) :
    s.Turns (s.sendControl f r type epoch extra) f := by
  unfold State.sendControl
  cases s.flowPort f r.portMask r.remoteModule with
  | none => exact ⟨rfl, (s.flow f).rotation, rfl⟩
  | some p =>
    obtain ⟨u, hu⟩ : ∃ u, u = s.transmit p (s.frameOut p r.remoteModule
        (headerOf (s.commonFields type r.remoteModule r.remoteFlow f r.tenant epoch ++ extra)) []) := ⟨_, rfl⟩
    obtain ⟨n, hn⟩ := u.turnFlow_flow f p
    have hf : u.flow f = s.flow f := hu ▸ s.transmit_flow p _ f
    have hrest : { u.turnFlow f p with peer := u.peer } = u := rfl
    have hs : { u with peer := s.peer } = s := by rw [hu]; rfl
    rw [hf] at hn
    rw [hu] at hn hrest
    exact ⟨(congrArg (fun t : State => { t with peer := s.peer }) hrest).trans (hu ▸ hs), n, hn⟩
/-- A control frame goes out by the flow's port. -/
theorem State.sendControl_wire {s : State} {f : Nat} {r : FlowRec} {p : Nat} (h : s.flowPort f r.portMask r.remoteModule = some p)
    (type epoch : Nat) (extra : List (Nat × Nat × Nat × Nat)) :
    ∃ y : PeerFrame, (s.sendControl f r type epoch extra).peer.wire = s.peer.wire ++ [(p, y)]
      ∧ y.hdr = headerOf (s.commonFields type r.remoteModule r.remoteFlow f r.tenant epoch ++ extra) := by
  refine ⟨s.frameOut p r.remoteModule (headerOf (s.commonFields type r.remoteModule r.remoteFlow f r.tenant epoch ++ extra)) [], ?_, rfl⟩
  unfold State.sendControl
  rw [h]
  rfl

/-- The sequence numbers past the expected one of the frames that a flow holds, as an ACK names them. -/
def Flow.sack (x : Flow) : Nat := x.heldFrames.foldl (fun (m : Nat) h =>
  let k := (h.2.seq + 2 ^ 32 - x.expected - 1) % 2 ^ 32
  if k < 64 then m ||| 2 ^ k else m) 0
theorem State.sendAck_of {s : State} {f : Nat} {r : FlowRec} (h : s.flowRec f = some r) :
    s.sendAck f = (s.modFlow f fun x => { x with ackOwed := 0 }).sendControl f r 1 (s.flow f).rxEpoch
      [(16, 31, 0, (s.flow f).expected), (20, 63, 0, (s.flow f).sack)] := by
  unfold State.sendAck
  rw [h]
  rfl
theorem State.sendAck_flow {s : State} {f : Nat} {r : FlowRec} (h : s.flowRec f = some r) :
    { s.sendAck f with peer := s.peer } = s ∧ ∃ n, (s.sendAck f).flow f = { s.flow f with ackOwed := 0, rotation := n } := by
  obtain ⟨h1, n, h2⟩ := (s.modFlow f fun x => { x with ackOwed := 0 }).sendControl_turns f r 1 (s.flow f).rxEpoch
    [(16, 31, 0, (s.flow f).expected), (20, 63, 0, (s.flow f).sack)]
  rw [← State.sendAck_of h] at h1 h2
  refine ⟨(congrArg (fun t : State => { t with peer := s.peer }) h1 :), n, ?_⟩
  rw [h2, s.flow_modFlow f (fun x => { x with ackOwed := 0 }) fun _ => rfl]
/-- The port that a flow takes depends on its place in the rotation, and on the ports. -/
theorem State.flowPort_modFlow (s : State) (f : Nat) {g : Flow → Flow} (hg : ∀ x, (g x).flow = x.flow) (hr : ∀ x, (g x).rotation = x.rotation)
    (mask : BitVec 4) (dst : Nat) : (s.modFlow f g).flowPort f mask dst = s.flowPort f mask dst := by
  have h : ((s.modFlow f g).flow f).rotation = (s.flow f).rotation := by rw [s.flow_modFlow f g hg, hr]
  unfold State.flowPort
  rw [h]
  rfl
theorem State.modFlow_wire (s : State) (f : Nat) (g : Flow → Flow) : (s.modFlow f g).peer.wire = s.peer.wire := rfl

/-- ACK_TIMER. -/
theorem ackTimer_spec {s : State} (he : s.engines = true) {f : Nat} {r : FlowRec} (hr : s.flowRec f = some r) (ho : 0 < (s.flow f).ackOwed) :
    ∃ t, exec (.ackTimer f) s = .next t ∧ (t.flow f).ackOwed = 0 ∧ (t.flow f).expected = (s.flow f).expected
      ∧ ∀ p, s.flowPort f r.portMask r.remoteModule = some p →
        ∃ y, t.peer.wire = s.peer.wire ++ [(p, y)] ∧ y.type = 1 ∧ y.seq = (s.flow f).expected % 2 ^ 32 := by
  obtain ⟨-, n, hflow⟩ := State.sendAck_flow hr
  refine ⟨_, (exec_of_engines he _).trans (if_pos ho), by rw [hflow], by rw [hflow], fun p hp => ?_⟩
  have hp' := (s.flowPort_modFlow f (g := fun x => { x with ackOwed := 0 }) (fun _ => rfl) (fun _ => rfl) r.portMask r.remoteModule).trans hp
  obtain ⟨y, hw, hy⟩ := State.sendControl_wire hp' 1 (s.flow f).rxEpoch [(16, 31, 0, (s.flow f).expected), (20, 63, 0, (s.flow f).sack)]
  refine ⟨y, by rw [State.sendAck_of hr, hw, State.modFlow_wire], ?_, ?_⟩
  · unfold PeerFrame.type PeerFrame.field
    rw [hy]
    refine headerOf_field [] _ (0, 3, 0, 1) ?_
    simp [Ascending, fieldLo, fieldEnd]
  · unfold PeerFrame.seq PeerFrame.field
    rw [hy]
    refine headerOf_field _ [_] (16, 31, 0, (s.flow f).expected) ?_
    simp [State.commonFields, Ascending, fieldLo, fieldEnd]

/-! ### What a peer command is told -/

theorem byteOf_tell (s : State) (t : Nat) (l : List (Nat × Nat)) (v : Nat) (sp : Space) (o : Nat) : byteOf (s.tell t l) v sp o = byteOf s v sp o := by
  rw [byteOf_eq, byteOf_eq]
  unfold State.tell
  by_cases hv : v = t
  · subst hv
    by_cases hl : v < s.tenants.length
    · rw [s.tenant_modTenant _ hl]
      cases sp <;> rfl
    · rw [State.modTenant_of_le (Nat.not_lt.mp hl)]
  · rw [s.tenant_modTenant_ne _ hv]
/-- What the other module learns of a command leaves the peer fabric, the counters, the queues and the memory. -/
theorem State.tellPeer_parts (s : State) (h : PeerSend) : (s.tellPeer h).peer = s.peer ∧ (s.tellPeer h).ctrs = s.ctrs
    ∧ (s.tellPeer h).queues = s.queues ∧ MemKept s (s.tellPeer h) 0 [] := by
  unfold State.tellPeer
  split
  · split
    · exact ⟨rfl, rfl, rfl, fun v sp o _ => byteOf_tell _ _ _ v sp o⟩
    · exact ⟨rfl, rfl, rfl, fun _ _ _ _ => rfl⟩
  · exact ⟨rfl, rfl, rfl, fun _ _ _ _ => rfl⟩

/-! ### A frame is sent -/

/-- The order in which fields are added does not matter. -/
theorem foldl_addField_swap (p l : List (Nat × Nat × Nat × Nat)) (a b c d e : Nat × Nat × Nat × Nat) (h : Nat) :
    (p ++ a :: b :: c :: d :: e :: l).foldl addField h = (p ++ c :: d :: a :: e :: b :: l).foldl addField h := by
  simp only [List.foldl_append, List.foldl_cons]
  refine congrArg (l.foldl addField) ?_
  unfold addField
  ring
/-- The fields of a data frame, in the order of their places. -/
theorem dataHeader_fields (s : State) (f : Nat) (r : FlowRec) (h : PeerSend) (seq off len : Nat) (first last : Bool) (y : PeerFrame)
    (hy : y.hdr = s.dataHeader f r h seq off len first last) : y.dstModule = r.remoteModule % 256 ∧ y.seq = seq % 2 ^ 32 := by
  obtain ⟨b, hb⟩ : ∃ b : Bool × Nat × Nat, s.dataHeader f r h seq off len first last
      = headerOf [(0, 3, 0, 0), (0, 7, 4, 1), (2, 7, 0, s.moduleIndex), (3, 7, 0, r.remoteModule), (4, 31, 0, s.pers.active.systemId),
        (8, 9, 0, r.remoteFlow), (8, 13, 10, h.tenant), (8, 14, 14, b2n last), (8, 15, 15, b2n b.1),
        (10, 9, 0, f), (10, 10, 10, b2n first), (10, 15, 12, (s.flow f).txEpoch), (12, 15, 0, h.tag), (14, 13, 0, len), (16, 31, 0, seq),
        (20, 12, 0, b.2.1), (22, 15, 0, b.2.2), (24, 31, 0, h.handle.toNat), (28, 31, 0, h.offset + off / 64)] := by
    unfold State.dataHeader
    extract_lets silent bump b
    refine ⟨(bump.isSome, b), ?_⟩
    rw [headerOf_eq, headerOf_eq]
    refine congrArg (BitVec.ofNat 256) ?_
    simp only [State.commonFields, List.cons_append, List.nil_append]
    exact foldl_addField_swap [_, _, _, _, _, _, _] _ _ _ _ _ _ 0
  rw [hb] at hy
  unfold PeerFrame.dstModule PeerFrame.seq PeerFrame.field
  rw [hy]
  constructor
  · refine headerOf_field [_, _, _] _ (3, 7, 0, r.remoteModule) ?_
    simp [Ascending, fieldLo, fieldEnd]
  · refine headerOf_field [_, _, _, _, _, _, _, _, _, _, _, _, _, _] _ (16, 31, 0, seq) ?_
    simp [Ascending, fieldLo, fieldEnd]

section
variable {s : State} {f : Nat} {r : FlowRec} {h : PeerSend} (he : s.engines = true) (hr : s.flowRec f = some r) (hh : (s.flow f).holder = some h)
include he hr hh

/-- PEER_FRAME_SEND. -/
theorem peerFrameSend_spec (h1 : h.sent < h.frames) (h2 : (s.flow f).inFlight.length < 64) (h3 : s.cancelled h = false)
    (h4 : s.pausedPort (s.flowPort f r.portMask r.remoteModule) = false) (h5 : (s.queue h.queue).entries.any (h.owns f) = true)
    {bs : List Byte} (hpay : s.payload h (h.sent * s.peer.frameMax) (min s.peer.frameMax (h.bytes - h.sent * s.peer.frameMax)) [] [] = (s, .bytes bs)) :
    ∃ t, exec (.peerFrameSend ⟨f, {}⟩) s = .next t ∧ (t.flow f).nextSeq = ((s.flow f).nextSeq + 1) % 2 ^ 32
      ∧ (t.flow f).holder = some { h with sent := h.sent + 1 }
      ∧ (∃ z, (t.flow f).inFlight = (s.flow f).inFlight ++ [z] ∧ z.seq = (s.flow f).nextSeq ∧ z.sends = 1 ∧ z.sacked = false
        ∧ z.off = h.sent * s.peer.frameMax ∧ (z.first = true ↔ h.sent = 0) ∧ (z.last = true ↔ h.sent + 1 = h.frames))
      ∧ (s.flowPort f r.portMask r.remoteModule = none → t.peer.wire = s.peer.wire)
      ∧ (∀ p, s.flowPort f r.portMask r.remoteModule = some p → ∃ y, t.peer.wire = s.peer.wire ++ [(p, y)] ∧ y.payload = bs
        ∧ y.dstModule = r.remoteModule % 256 ∧ y.seq = (s.flow f).nextSeq % 2 ^ 32)
      ∧ MemKept s t 0 [] ∧ t.ctrs = s.ctrs ∧ t.queues = s.queues := by
  obtain ⟨off, hoff⟩ : ∃ off, off = h.sent * s.peer.frameMax := ⟨_, rfl⟩
  obtain ⟨len, hlen⟩ : ∃ len, len = min s.peer.frameMax (h.bytes - off) := ⟨_, rfl⟩
  obtain ⟨port, hport⟩ : ∃ port, port = s.flowPort f r.portMask r.remoteModule := ⟨_, rfl⟩
  obtain ⟨u, hu⟩ : ∃ u, u = s.modFlow f fun x => { x with
      nextSeq := (x.nextSeq + 1) % 2 ^ 32
      inFlight := x.inFlight ++ [{ seq := x.nextSeq, first := h.sent == 0, last := h.sent + 1 == h.frames, off := off, length := len, sentAt := s.now }]
      holder := some { h with sent := h.sent + 1 } } := ⟨_, rfl⟩
  have huf := s.flow_modFlow f (fun x => { x with
      nextSeq := (x.nextSeq + 1) % 2 ^ 32
      inFlight := x.inFlight ++ [{ seq := x.nextSeq, first := h.sent == 0, last := h.sent + 1 == h.frames, off := off, length := len, sentAt := s.now }]
      holder := some { h with sent := h.sent + 1 } }) fun _ => rfl
  rw [← hu] at huf
  obtain ⟨v, hv⟩ : ∃ v, v = if (h.sent + 1 == h.frames) = true then u.tellPeer h else u := ⟨_, rfl⟩
  obtain ⟨hvp, hvc, hvq, hvm⟩ : v.peer = u.peer ∧ v.ctrs = u.ctrs ∧ v.queues = u.queues ∧ MemKept u v 0 [] := by
    rw [hv]
    split
    · exact u.tellPeer_parts h
    · exact ⟨rfl, rfl, rfl, fun _ _ _ _ => rfl⟩
  have hvf : v.flow f = u.flow f := State.flow_congr (by rw [hvp]) f
  have hvm' : MemKept s v 0 [] := fun w sp o ho => (hvm w sp o nofun).trans (by rw [hu]; rfl)
  have hvc' : v.ctrs = s.ctrs := hvc.trans (by rw [hu]; rfl)
  have hvq' : v.queues = s.queues := hvq.trans (by rw [hu]; rfl)
  have hvw : v.peer.wire = s.peer.wire := by rw [hvp, hu]; rfl
  rw [← hoff, ← hlen] at hpay
  rw [← hport] at h4 ⊢
  have hx : exec (.peerFrameSend ⟨f, {}⟩) s = execPeerFrameSend ⟨f, {}⟩ s := rfl
  unfold execPeerFrameSend at hx
  dsimp -zeta only at hx
  extract_lets +onlyGivenNames flow at hx
  simp only [flow] at hx
  rw [exec_of_engines he, hr, hh] at hx
  dsimp only at hx
  rw [← hport, if_neg (by simp [h3, h4, h5]; omega), ← hoff, ← hlen, hpay] at hx
  dsimp only at hx
  rw [← hu, ← hv] at hx
  have hz (t : State) (n : Nat) (hn : t.flow f = { u.flow f with rotation := n }) : (t.flow f).nextSeq = ((s.flow f).nextSeq + 1) % 2 ^ 32
      ∧ (t.flow f).holder = some { h with sent := h.sent + 1 }
      ∧ ∃ z, (t.flow f).inFlight = (s.flow f).inFlight ++ [z] ∧ z.seq = (s.flow f).nextSeq ∧ z.sends = 1 ∧ z.sacked = false
        ∧ z.off = off ∧ (z.first = true ↔ h.sent = 0) ∧ (z.last = true ↔ h.sent + 1 = h.frames) := by
    rw [hn, huf]
    exact ⟨rfl, rfl, _, rfl, rfl, rfl, rfl, rfl, beq_iff_eq, beq_iff_eq⟩
  cases port with
  | none =>
    obtain ⟨z1, z2, z3⟩ := hz v (u.flow f).rotation hvf
    exact ⟨v, hx, z1, z2, hoff ▸ z3, fun _ => hvw, nofun, hvm', hvc', hvq'⟩
  | some p =>
    obtain ⟨n, hn⟩ := (v.transmit p (v.frameOut p r.remoteModule (s.dataHeader f r h (s.flow f).nextSeq off len (h.sent == 0) (h.sent + 1 == h.frames)) bs)).turnFlow_flow f p
    obtain ⟨z1, z2, z3⟩ := hz _ n (hn.trans (congrArg (fun y : Flow => { y with rotation := n }) hvf))
    refine ⟨_, hx, z1, z2, hoff ▸ z3, nofun, fun p' hp' => ?_, fun w sp o ho => hvm' w sp o ho, hvc', hvq'⟩
    obtain rfl := Option.some.inj hp'
    obtain ⟨y, hy⟩ : ∃ y, y = v.frameOut p r.remoteModule (s.dataHeader f r h (s.flow f).nextSeq off len (h.sent == 0) (h.sent + 1 == h.frames)) bs :=
      ⟨_, rfl⟩
    have hfields := dataHeader_fields s f r h (s.flow f).nextSeq off len (h.sent == 0) (h.sent + 1 == h.frames) y (by rw [hy]; rfl)
    refine ⟨y, ?_, by rw [hy]; rfl, hfields⟩
    rw [hy, ← hvw]
    rfl

/-! ### A frame is sent again -/

/-- The timer of frame `n` starts anew, with one more sending. -/
def State.resent (s : State) (f n : Nat) : State := s.modFlow f fun y => { y with
  inFlight := y.inFlight.map fun z => if z.seq = n then { z with sends := z.sends + 1, sentAt := s.now } else z }
/-- A port and a flow count a frame that is sent again. -/
def State.countResend (s : State) (f p : Nat) : State :=
  let s := s.modPort p fun y => { y with retx := satAdd32 y.retx 1 }
  let s := s.modFlow f fun y => { y with retx := satAdd32 y.retx 1 }
  s.modPeer fun y => { y with retxTimes := (p, s.now) :: y.retxTimes }
omit he hr hh in
theorem State.countResend_parts (p : Nat) : (s.countResend f p).peer.wire = s.peer.wire
    ∧ ((s.countResend f p).flow f).inFlight = (s.flow f).inFlight := by
  refine ⟨rfl, ?_⟩
  obtain ⟨u, hu⟩ : ∃ u, u = s.modPort p fun y => { y with retx := satAdd32 y.retx 1 } := ⟨_, rfl⟩
  have h1 : (s.countResend f p).flow f = (u.modFlow f fun y => { y with retx := satAdd32 y.retx 1 }).flow f :=
    State.flow_congr (by rw [hu]; rfl) f
  have h2 : u.flow f = s.flow f := State.flow_congr (by rw [hu]; rfl) f
  rw [h1, u.flow_modFlow f _ (by exact fun _ => rfl), h2]
omit he hr hh in
theorem State.resent_mem {n : Nat} {z : InFlight} (hz : (s.flow f).inFlight.find? (fun y => y.seq == n && !y.sacked) = some z) :
    { z with sends := z.sends + 1, sentAt := s.now } ∈ ((s.resent f n).flow f).inFlight := by
  have hn := List.find?_some hz
  unfold State.resent
  rw [s.flow_modFlow f _ (by exact fun _ => rfl)]
  refine List.mem_map.mpr ⟨z, List.mem_of_find?_eq_some hz, if_pos ?_⟩
  simp only [Bool.and_eq_true, beq_iff_eq] at hn
  exact hn.1

/-- RETRANSMIT_TIMEOUT of a frame that is in flight. -/
theorem exec_retransmitTimeout {n : Nat} {z : InFlight} (hz : (s.flow f).inFlight.find? (fun y => y.seq == n && !y.sacked) = some z)
    (hc : s.cancelled h = false) :
    (s.now < z.sentAt + s.peer.rtoUs → exec (.retransmitTimeout ⟨f, {}⟩ n) s = .next s)
    ∧ (z.sentAt + s.peer.rtoUs ≤ s.now →
      (s.peer.retryLimit < z.sends → ∃ e : PeerEntry, exec (.retransmitTimeout ⟨f, {}⟩ n) s
        = .next ((s.newFault.2.peerLog e true).failFlow f h fun s' i => s'.unreachable i s.newFault.1 h.queue h.word))
      ∧ (z.sends ≤ s.peer.retryLimit → s.flowPort f r.portMask r.remoteModule = none →
        exec (.retransmitTimeout ⟨f, {}⟩ n) s = .next (s.resent f n))
      ∧ (z.sends ≤ s.peer.retryLimit → ∀ p bs, s.flowPort f r.portMask r.remoteModule = some p →
        s.pausedPort (some p) = false → s.payload h z.off z.length [] [] = (s, .bytes bs) →
        exec (.retransmitTimeout ⟨f, {}⟩ n) s = .next ((((s.resent f n).transmit p
          (s.frameOut p r.remoteModule (s.dataHeader f r h n z.off z.length z.first z.last) bs)).turnFlow f p).countResend f p))) := by
  have hx : exec (.retransmitTimeout ⟨f, {}⟩ n) s = execRetransmitTimeout ⟨f, {}⟩ n s := rfl
  unfold execRetransmitTimeout at hx
  dsimp -zeta only at hx
  extract_lets +onlyGivenNames flow at hx
  simp only [flow] at hx
  rw [exec_of_engines he, hr, hh, hz] at hx
  dsimp only at hx
  refine ⟨fun hn => hx.trans (if_pos (by simp [hn])), fun hn => ?_⟩
  rw [if_neg (by simpa [hc] using hn)] at hx
  refine ⟨fun hl => ⟨_, hx.trans (if_pos hl)⟩, fun hl hp => ?_, fun hl p bs hp hpa hpay => ?_⟩
  · rw [if_neg (Nat.not_le.mpr (Nat.lt_succ_of_le hl)), hp, if_neg (by simp [State.pausedPort])] at hx
    exact hx
  · rw [if_neg (Nat.not_le.mpr (Nat.lt_succ_of_le hl)), hp, if_neg (by rw [hpa]; exact Bool.false_ne_true), hpay] at hx
    exact hx
/-- A frame that is due is sent again, or only its timer starts anew. -/
theorem retransmit_again {n : Nat} {z : InFlight} (hz : (s.flow f).inFlight.find? (fun y => y.seq == n && !y.sacked) = some z)
    (hc : s.cancelled h = false) (hn : z.sentAt + s.peer.rtoUs ≤ s.now) (hl : z.sends ≤ s.peer.retryLimit) :
    (s.flowPort f r.portMask r.remoteModule = none → ∃ t, exec (.retransmitTimeout ⟨f, {}⟩ n) s = .next t ∧ t.peer.wire = s.peer.wire
      ∧ ∃ y ∈ (t.flow f).inFlight, y = { z with sends := z.sends + 1, sentAt := s.now })
    ∧ ∀ p bs, s.flowPort f r.portMask r.remoteModule = some p → s.pausedPort (s.flowPort f r.portMask r.remoteModule) = false →
      s.payload h z.off z.length [] [] = (s, .bytes bs) → ∃ t y, exec (.retransmitTimeout ⟨f, {}⟩ n) s = .next t
        ∧ t.peer.wire = s.peer.wire ++ [(p, y)] ∧ y.payload = bs ∧ { z with sends := z.sends + 1, sentAt := s.now } ∈ (t.flow f).inFlight := by
  obtain ⟨-, hx⟩ := exec_retransmitTimeout he hr hh hz hc
  obtain ⟨-, hnone, hsome⟩ := hx hn
  refine ⟨fun hp => ⟨_, hnone hl hp, rfl, _, State.resent_mem hz, rfl⟩, fun p bs hp hpa hpay => ?_⟩
  rw [hp] at hpa
  obtain ⟨y, hy⟩ : ∃ y, y = s.frameOut p r.remoteModule (s.dataHeader f r h n z.off z.length z.first z.last) bs := ⟨_, rfl⟩
  have hx := hsome hl p bs hp hpa hpay
  rw [← hy] at hx
  obtain ⟨u, hu⟩ : ∃ u, u = (s.resent f n).transmit p y := ⟨_, rfl⟩
  rw [← hu] at hx
  obtain ⟨m, hm⟩ := u.turnFlow_flow f p
  have huf : u.flow f = (s.resent f n).flow f := hu ▸ State.transmit_flow ..
  have huw : (u.turnFlow f p).peer.wire = s.peer.wire ++ [(p, y)] := by rw [hu]; rfl
  obtain ⟨hw, hfl⟩ := (u.turnFlow f p).countResend_parts (f := f) p
  refine ⟨_, y, hx, hw.trans huw, by rw [hy]; rfl, ?_⟩
  rw [hfl, hm, huf]
  exact State.resent_mem hz

end

/-! ### A command whose flow fails -/

theorem State.log_faultNo (s : State) (page : Nat) (body : List Byte) (fault : Bool) (owner : Nat) (event : Bool) :
    (s.log page body fault owner event).logs.faultNo = s.logs.faultNo := by
  rw [show (s.log page body fault owner event).logs = _ from (s.log_spec ..).logs]
  unfold Logs.setPage
  split <;> rfl
theorem State.flow_endFlow (s : State) (f : Nat) : ((s.endFlow f).flow f).holder = none
    ∧ ((s.flow f).inFlight ≠ [] → ((s.endFlow f).flow f).txEpoch = ((s.flow f).txEpoch + 1) % 16 ∧ ((s.endFlow f).flow f).nextSeq = 0)
    ∧ (s.endFlow f).invocations = s.invocations := by
  have hf : (s.endFlow f).flow f = if (s.flow f).inFlight.isEmpty then { s.flow f with holder := none }
      else { s.flow f with holder := none, inFlight := [], txEpoch := ((s.flow f).txEpoch + 1) % 16, nextSeq := 0 } := by
    refine s.flow_modFlow f _ fun x => ?_
    split <;> rfl
  refine ⟨?_, fun h => ?_, rfl⟩
  · rw [hf]
    split <;> rfl
  · rw [hf, if_neg (by simpa using h)]
    exact ⟨rfl, rfl⟩
/-- A flow fails: its command ends, and the stop `stop` runs on a state in which the flow is free. -/
theorem State.failFlow_of {s : State} {f : Nat} {h : PeerSend} {i : Invocation} (hi : s.invocation? h.tenant h.tag = some i)
    (hin : (s.flow f).inFlight ≠ []) (stop : State → Invocation → State) :
    ∃ u, s.failFlow f h stop = stop u i ∧ (u.flow f).holder = none ∧ (u.flow f).txEpoch = ((s.flow f).txEpoch + 1) % 16
      ∧ (u.flow f).nextSeq = 0 ∧ u.logs = s.logs := by
  obtain ⟨h1, h2, -⟩ := s.flow_endFlow f
  obtain ⟨h3, h4⟩ := h2 hin
  have hi' : (s.endFlow f).invocation? h.tenant h.tag = some i := hi
  refine ⟨(s.endFlow f).modQueue h.queue fun q => { q with entries := q.entries.filter fun e => !h.owns f e }, ?_, h1, h3, h4, rfl⟩
  unfold State.failFlow
  extract_lets u
  rw [show u.invocation? h.tenant h.tag = some i from hi']
/-- An invocation whose flow is unreachable stops. -/
theorem State.unreachable_parts (s : State) {i : Invocation} (hp : i.phase ≠ .stopping) (n q w : Nat) :
    Stopped (s.unreachable i n q w) i.ref ∧ (s.unreachable i n q w).peer = s.peer ∧ (s.unreachable i n q w).logs.faultNo = s.logs.faultNo := by
  unfold State.unreachable
  rw [if_neg hp]
  extract_lets u
  have hu : u.peer = s.peer := (congrArg State.peer (s.log_frame 0xC0 _ _ 0 true) :)
  obtain ⟨h1, h2⟩ := u.stopInv_parts hp 0x8C n
  refine ⟨h2, (congrArg State.peer (u.stopInv_calm i 0x8C n false)).trans hu, ?_⟩
  exact (congrArg (fun x => x.2.1) h1).trans (s.log_faultNo ..)

/-- A frame sent `RETRY_LIMIT` + 1 times stops the invocation. -/
theorem retransmit_last {s : State} {f : Nat} {r : FlowRec} {h : PeerSend} (he : s.engines = true) (hr : s.flowRec f = some r)
    (hh : (s.flow f).holder = some h) {n : Nat} {z : InFlight} (hz : (s.flow f).inFlight.find? (fun y => y.seq == n && !y.sacked) = some z)
    (hc : s.cancelled h = false) (hn : z.sentAt + s.peer.rtoUs ≤ s.now) (hl : s.peer.retryLimit < z.sends) {i : Invocation}
    (hi : s.invocation? h.tenant h.tag = some i) (hp : i.phase ≠ .stopping) :
    ∃ t, exec (.retransmitTimeout ⟨f, {}⟩ n) s = .next t ∧ Stopped t i.ref ∧ (t.flow f).holder = none
      ∧ (t.flow f).txEpoch = ((s.flow f).txEpoch + 1) % 16 ∧ (t.flow f).nextSeq = 0 ∧ t.logs.faultNo = s.newFault.1 := by
  obtain ⟨-, hx⟩ := exec_retransmitTimeout he hr hh hz hc
  obtain ⟨hlast, -⟩ := hx hn
  obtain ⟨e, hx⟩ := hlast hl
  obtain ⟨v, hv⟩ : ∃ v, v = s.newFault.2.peerLog e true := ⟨_, rfl⟩
  rw [← hv] at hx
  have hvf : v.flow f = s.flow f := State.flow_congr (hv ▸ congrArg Peer.flows (s.newFault.2.peerLog_frame e true).1) f
  have hvi : v.invocation? h.tenant h.tag = some i := by
    rw [State.invocation?, show v.invocations = s.invocations from hv ▸ (s.newFault.2.peerLog_frame e true).2.2.2.2.1]
    exact hi
  have hvl : v.logs.faultNo = s.newFault.1 := by
    rw [hv]
    exact s.newFault.2.log_faultNo ..
  have hin : (v.flow f).inFlight ≠ [] := fun h0 => by
    rw [hvf] at h0
    rw [h0] at hz
    cases hz
  obtain ⟨u, hu, h1, h2, h3, h4⟩ := State.failFlow_of (s := v) hvi hin fun s' i => s'.unreachable i s.newFault.1 h.queue h.word
  obtain ⟨k1, k2, k3⟩ := u.unreachable_parts hp s.newFault.1 h.queue h.word
  have hf : (u.unreachable i s.newFault.1 h.queue h.word).flow f = u.flow f := State.flow_congr (congrArg Peer.flows k2) f
  rw [hu] at hx
  refine ⟨_, hx, k1, ?_, ?_, ?_, ?_⟩
  · rw [hf, h1]
  · rw [hf, h2, hvf]
  · rw [hf, h3]
  · rw [k3, h4, hvl]

end Sys2Proof.Machine
end

section
/-!
PROOFS. Chapter 18: peer commands start; ACK, NAK and data frames are received (O49).
-/

namespace Sys2Proof.Machine

open Sys2Proof.Safety

/-! ### A peer command starts -/

section
variable {s : State} {q k : Nat} {e : QEntry} {i : Invocation} {w : Work} (hrun : Running s q 5 1 k e i) (hw : s.peerWork i e = .ok w)
include hrun hw

/-- A WRITE with nothing to send ends at once. -/
theorem peerWrite_empty (h0 : s.peerFrames e = 0) : exec (.peerWrite q) s
    = .next ((s.modFlow (peerFlow e) fun f => { f with holder := none }).modEntry q k fun x => { x with outcome := .done }) := by
  have hx : exec (.peerWrite q) s = execPeerWrite q s := rfl
  unfold execPeerWrite at hx
  rw [State.runOp_of_running hrun _ _ hw] at hx
  dsimp only at hx
  rw [if_pos h0] at hx
  exact hx
/-- Any other lets its frames leave. -/
theorem peerWrite_starts (h0 : 0 < s.peerFrames e) : ∃ t, exec (.peerWrite q) s = .next t ∧ t.peer = s.peer
    ∧ (t.queue q).entries[k]? = some { e with begun := true, outcome := .started } ∧ (∀ p, p ≠ q → t.queue p = s.queue p)
    ∧ t.ctrs = s.ctrs ∧ t.logs = s.logs ∧ t.invocations = s.invocations ∧ t.tenants = s.tenants := by
  have hx : exec (.peerWrite q) s = execPeerWrite q s := rfl
  unfold execPeerWrite at hx
  rw [State.runOp_of_running hrun _ _ hw] at hx
  dsimp only at hx
  rw [if_neg (by omega)] at hx
  obtain ⟨-, -, he, -⟩ := hrun
  have hq := State.lt_of_entry he
  obtain ⟨u, hu⟩ : ∃ u, u = s.modQueue q fun x => { x with entries := x.entries.map fun y => if (y == e) = true then { y with begun := true } else y } :=
    ⟨_, rfl⟩
  have huq : u.queue q = { s.queue q with entries := (s.queue q).entries.map fun y => if (y == e) = true then { y with begun := true } else y } :=
    hu ▸ s.queue_modQueue _ hq
  have hne (p : Nat) (hp : p ≠ q) : u.queue p = s.queue p := hu ▸ s.queue_modQueue_ne _ hp
  have hlen : u.queues.length = s.queues.length := by rw [hu]; exact List.length_modify ..
  refine ⟨_, hx, rfl, ?_, fun p hp => ?_, rfl, rfl, rfl, rfl⟩
  · show ((State.modEntry (s.modQueue q _) q k _).queue q).entries[k]? = _
    rw [← hu, u.queue_modEntry k _ (by omega), huq]
    simp [he]
  · show (State.modEntry (s.modQueue q _) q k _).queue p = _
    rw [← hu, State.queue_modEntry_ne _ _ _ hp, hne p hp]

end

/-! ### A frame for this module arrives -/

/-- The port counts a frame. -/
def State.arrived (s : State) (port : Nat) : State := s.modPort port fun p => { p with rxFrames := satAdd32 p.rxFrames 1 }
theorem State.arrived_flow (s : State) (port f : Nat) : (s.arrived port).flow f = s.flow f := State.flow_congr rfl f

section
variable {s : State} {port : Nat} {x : PeerFrame} (hme : ForMe s port x)
include hme

theorem admitFrame_of_forMe (ht : x.type ≤ 3) : s.admitFrame port x = (s.arrived port, some x) := by
  obtain ⟨-, -, h1, h2, h3, h4, h5, h6, h7⟩ := hme
  have hsrc : ¬ ((s.arrived port).peer.mode = 0 && bits x.src.toNat 7 0 ≠ port) = true := by
    show ¬ (s.peer.mode = 0 && bits x.src.toNat 7 0 ≠ port) = true
    simpa using h6
  unfold State.admitFrame
  dsimp only
  rw [if_neg (by simp [h1, h2, h3, Nat.not_lt.mpr ht, Nat.not_lt.mpr h4, State.modPort, State.modPeer])]
  exact (if_neg (not_not.mpr h5)).trans ((if_neg hsrc).trans (if_neg (not_not.mpr h7)))
omit hme in
theorem controlFlow_arrived (s : State) (port : Nat) (x : PeerFrame) : (s.arrived port).controlFlow x = s.controlFlow x := by
  unfold State.controlFlow
  rw [s.arrived_flow]
  rfl

end
theorem State.controlFlow_flow {s : State} {x : PeerFrame} {r : FlowRec} (h : s.controlFlow x = some r) : s.flowRec r.flow = some r := by
  unfold State.controlFlow at h
  split at h
  · next r' hr' =>
    split at h
    · rw [← Option.some.inj h, State.flowRec_flow hr']
      exact hr'
    · cases h
  · cases h

/-! ### An ACK -/

/-- A frame in flight whose receipt past `cum` an ACK names. -/
def InFlight.mark (cum sack : Nat) (z : InFlight) : InFlight :=
  let k := (z.seq + 2 ^ 32 - cum - 1) % 2 ^ 32
  if k < 64 && sack.testBit k then { z with sacked := true } else z
theorem InFlight.mark_seq (cum sack : Nat) (z : InFlight) : (z.mark cum sack).seq = z.seq :=
  ite_keep InFlight.seq rfl rfl
/-- The frames in flight that an ACK leaves. -/
def Flow.acked (y : Flow) (cum sack : Nat) : Flow := { y with
  inFlight := (y.inFlight.filter fun z => !seqBelow z.seq cum).map (InFlight.mark cum sack) }
theorem Flow.acked_not_below (y : Flow) (cum sack : Nat) : ∀ z ∈ (y.acked cum sack).inFlight, seqBelow z.seq cum = false := by
  intro z hz
  obtain ⟨w, hw, rfl⟩ := List.mem_map.mp hz
  have h := (List.mem_filter.mp hw).2
  rw [InFlight.mark_seq]
  simpa using h
theorem Flow.acked_all {y : Flow} {cum : Nat} (h : ∀ z ∈ y.inFlight, seqBelow z.seq cum = true) (sack : Nat) :
    (y.acked cum sack).inFlight = [] := by
  refine List.eq_nil_iff_forall_not_mem.mpr fun z hz => ?_
  obtain ⟨w, hw, -⟩ := List.mem_map.mp hz
  obtain ⟨hw, hb⟩ := List.mem_filter.mp hw
  exact Bool.false_ne_true ((Bool.not_eq_true' _).mp hb ▸ h w hw)
/-- The entry of a flow's holder gets its outcome. -/
theorem State.outcome_peerOutcome {s : State} {f k : Nat} {h : PeerSend} {e : QEntry} (he : (s.queue h.queue).entries[k]? = some e)
    (ho : h.owns f e = true) (o : CmdOutcome) : Outcome (s.peerOutcome f h o) h.queue k o := by
  unfold Outcome State.peerOutcome
  rw [s.queue_modQueue _ (State.lt_of_entry he)]
  simp [he, ho]

/-- ACK_RECEIVED. -/
theorem ackReceived_spec {s : State} {port : Nat} {x : PeerFrame} (hme : ForMe s port x) (ht : x.type = 1) {r : FlowRec}
    (hr : s.controlFlow x = some r) : ∃ t, exec (.ackReceived port x) s = .next t ∧ t.ctrs = s.ctrs
      ∧ (∀ z ∈ (t.flow r.flow).inFlight, seqBelow z.seq (x.field 16 31 0) = false)
      ∧ (∀ h, (s.flow r.flow).holder = some h → h.sent = h.frames →
          (∀ z ∈ (s.flow r.flow).inFlight, seqBelow z.seq (x.field 16 31 0) = true) → (t.flow r.flow).holder = none
            ∧ ∀ k e, (s.queue h.queue).entries[k]? = some e → h.owns r.flow e = true → Outcome t h.queue k .done) := by
  obtain ⟨u, hu⟩ : ∃ u, u = (s.arrived port).modFlow r.flow fun y => y.acked (x.field 16 31 0) (x.field 20 63 0) := ⟨_, rfl⟩
  have huf : u.flow r.flow = (s.flow r.flow).acked (x.field 16 31 0) (x.field 20 63 0) := by
    rw [hu, State.flow_modFlow _ _ _ (by exact fun _ => rfl), s.arrived_flow]
  have huc : u.ctrs = s.ctrs := by rw [hu]; rfl
  have huq : u.queues = s.queues := by rw [hu]; rfl
  have hup : s.portUp port = true := hme.2.1
  have hx : exec (.ackReceived port x) s = execAckReceived port x s := rfl
  unfold execAckReceived at hx
  rw [exec_of_engines hme.1, if_neg (by simp [hup, ht]), admitFrame_of_forMe hme (by omega)] at hx
  dsimp only at hx
  rw [controlFlow_arrived s port x, hr] at hx
  replace hx : exec (.ackReceived port x) s = (match (u.flow r.flow).holder with
    | none => .next u
    | some h => if h.sent = h.frames && (u.flow r.flow).inFlight.isEmpty then .next ((u.peerOutcome r.flow h .done).endFlow r.flow) else .next u) := by
    rw [hu]
    exact hx
  have hleft : ∀ z ∈ (u.flow r.flow).inFlight, seqBelow z.seq (x.field 16 31 0) = false := by
    rw [huf]
    exact Flow.acked_not_below _ _ _
  have hholder : (u.flow r.flow).holder = (s.flow r.flow).holder := by rw [huf]; rfl
  cases hh : (s.flow r.flow).holder with
  | none =>
    rw [hholder, hh] at hx
    exact ⟨u, hx, huc, hleft, nofun⟩
  | some h =>
    rw [hholder, hh] at hx
    dsimp only at hx
    by_cases hc : (h.sent = h.frames && (u.flow r.flow).inFlight.isEmpty) = true
    · rw [if_pos hc] at hx
      simp only [Bool.and_eq_true, decide_eq_true_eq, List.isEmpty_iff] at hc
      have hpf : (u.peerOutcome r.flow h .done).flow r.flow = u.flow r.flow := State.flow_congr rfl _
      have hef := (u.peerOutcome r.flow h .done).flow_modFlow r.flow (fun x => if x.inFlight.isEmpty then { x with holder := none }
        else { x with holder := none, inFlight := [], txEpoch := (x.txEpoch + 1) % 16, nextSeq := 0 }) (fun x => by split <;> rfl)
      rw [hpf, if_pos (by simp [hc.2])] at hef
      refine ⟨_, hx, huc, ?_, fun h' hh' hs hall => ⟨?_, fun k e he ho => ?_⟩⟩
      · unfold State.endFlow
        rw [hef]
        exact hleft
      · unfold State.endFlow
        rw [hef]
      · obtain rfl := Option.some.inj hh'
        have he' : (u.queue h.queue).entries[k]? = some e := by
          rw [State.queue, huq]
          exact he
        exact State.outcome_peerOutcome he' ho .done
    · rw [if_neg hc] at hx
      refine ⟨u, hx, huc, hleft, fun h' hh' hs hall => absurd ?_ hc⟩
      obtain rfl := Option.some.inj hh'
      simp [hs, huf, Flow.acked_all hall]

/-! ### A NAK -/

/-- The log entry of a NAK. -/
def nakEntry (port cause seq : Nat) (h : PeerSend) (r : FlowRec) (n : Nat) : PeerEntry :=
  { kind := 6, port := port, cause := cause, tenant := h.tenant, flow := r.flow, remoteModule := r.remoteModule, tag := h.tag, faultNo := n,
    seqNo := seq }
/-- What a NAK of a fatal cause does to the invocation of its flow. -/
def State.nakStop (port cause seq : Nat) (h : PeerSend) (r : FlowRec) (s : State) (i : Invocation) : State :=
  if cause = 1 then
    let (n, s) := s.newFault
    (s.peerLog (nakEntry port cause seq h r n) (fault := true)).unreachable i n h.queue h.word
  else if i.phase = .stopping then s.peerLog (nakEntry port cause seq h r 0) (fault := false)
  else
    let s := s.faultInv i (if cause = 5 then .counterRange else .addressOutside) 0 h.queue h.word
    s.peerLog (nakEntry port cause seq h r s.logs.faultNo) (fault := false)
/-- NAK_RECEIVED of a frame in flight, of a cause that is fatal. -/
theorem nakReceived_fatal {s : State} {port : Nat} {x : PeerFrame} (hme : ForMe s port x) (ht : x.type = 2) {r : FlowRec}
    (hr : s.controlFlow x = some r) {h : PeerSend} (hh : (s.flow r.flow).holder = some h) {i : Invocation}
    (hi : s.invocation? h.tenant h.tag = some i) (hp : i.phase ≠ .stopping) (hin : (s.flow r.flow).inFlight.any (·.seq == x.field 16 31 0) = true) :
    (x.field 20 7 0 ∈ [1, 3, 4, 5] → ∃ t, exec (.nakReceived port x) s = .next t ∧ Stopped t i.ref
      ∧ (t.flow r.flow).holder = none ∧ (t.flow r.flow).txEpoch = ((s.flow r.flow).txEpoch + 1) % 16)
    ∧ (x.field 20 7 0 = 2 → ∃ t, exec (.nakReceived port x) s = .next t ∧ t.flow r.flow = s.flow r.flow
      ∧ t.invocations = s.invocations) := by
  obtain ⟨v, hv⟩ : ∃ v, v = s.arrived port := ⟨_, rfl⟩
  have hvf : v.flow r.flow = s.flow r.flow := by rw [hv, s.arrived_flow]
  have hvi : v.invocation? h.tenant h.tag = some i := by rw [hv]; exact hi
  have hvn : v.invocations = s.invocations := by rw [hv]; rfl
  have hup : s.portUp port = true := hme.2.1
  have hx : exec (.nakReceived port x) s = execNakReceived port x s := rfl
  unfold execNakReceived at hx
  rw [exec_of_engines hme.1, if_neg (by simp [hup, ht]), admitFrame_of_forMe hme (by omega)] at hx
  dsimp only at hx
  rw [controlFlow_arrived s port x, hr, ← hv] at hx
  dsimp only at hx
  rw [hvf, hh] at hx
  dsimp only at hx
  generalize x.field 20 7 0 = cause at hx ⊢
  generalize x.field 16 31 0 = seq at hx hin
  refine ⟨fun hc => ?_, fun hc => ⟨v, hx.trans (if_pos ?_), hvf, hvn⟩⟩
  · have hne : (v.flow r.flow).inFlight ≠ [] := fun h0 => by
      rw [hvf] at h0
      rw [h0] at hin
      cases hin
    rw [if_neg (by
      simp only [List.mem_cons, List.not_mem_nil, or_false] at hc
      simp only [hin]
      rcases hc with hc | hc | hc | hc <;> simp [hc])] at hx
    obtain ⟨u, hu, h1, h2, -, -⟩ := State.failFlow_of (f := r.flow) hvi hne (State.nakStop port cause seq h r)
    have hx := hx.trans (congrArg Host.Outcome.next hu)
    rw [hvf] at h2
    refine ⟨_, hx, ?_⟩
    unfold State.nakStop
    by_cases hc1 : cause = 1
    · rw [if_pos hc1]
      dsimp only
      obtain ⟨w, hw⟩ : ∃ w, w = u.newFault.2.peerLog (nakEntry port cause seq h r u.newFault.1) true := ⟨_, rfl⟩
      rw [← hw]
      obtain ⟨k1, k2, -⟩ := w.unreachable_parts hp u.newFault.1 h.queue h.word
      have hf : (w.unreachable i u.newFault.1 h.queue h.word).flow r.flow = u.flow r.flow :=
        State.flow_congr (congrArg Peer.flows (k2.trans (hw ▸ (u.newFault.2.peerLog_frame _ true).1))) _
      rw [hf]
      exact ⟨k1, h1, h2⟩
    · rw [if_neg hc1, if_neg hp]
      obtain ⟨why, hwhy⟩ : ∃ why, why = if cause = 5 then StopReason.counterRange else .addressOutside := ⟨_, rfl⟩
      have hcode : why.code ≤ 10 := by
        rw [hwhy]
        split <;> decide
      rw [← hwhy]
      obtain ⟨-, k1⟩ := u.faultInv_parts hp hcode 0 h.queue h.word
      have k2 : (u.faultInv i why 0 h.queue h.word).peer = u.peer := by
        rw [u.faultInv_eq hp hcode]
        refine (congrArg State.peer (State.stopInv_calm _ i _ _ false)).trans ?_
        exact (congrArg State.peer (State.log_frame _ 0xC0 _ _ 0 true) :)
      obtain ⟨w, hw⟩ : ∃ w, w = u.faultInv i why 0 h.queue h.word := ⟨_, rfl⟩
      rw [← hw] at k1 k2 ⊢
      obtain ⟨g1, -, -, -, g2, -⟩ := w.peerLog_frame (nakEntry port cause seq h r w.logs.faultNo) false
      rw [Stopped, g2, State.flow_congr (congrArg Peer.flows (g1.trans k2))]
      exact ⟨k1, h1, h2⟩
  · simp [hc]

/-! ### Data frames -/

/-- A refusal leaves its flow but for the rotation, the counters, the tenants and the personality. -/
theorem State.refuse_parts (s : State) (f : Nat) (r : FlowRec) (x : PeerFrame) (cause : Nat) :
    (∃ n, (s.refuse f r x cause).flow f = { s.flow f with rotation := n }) ∧ (s.refuse f r x cause).ctrs = s.ctrs
      ∧ (s.refuse f r x cause).tenants = s.tenants ∧ (s.refuse f r x cause).pers = s.pers := by
  have hlim (u : State) (place : Nat) (e : PeerEntry) : (u.peerLogLimited place e).peer.flows = u.peer.flows
      ∧ (u.peerLogLimited place e).ctrs = u.ctrs ∧ (u.peerLogLimited place e).tenants = u.tenants ∧ (u.peerLogLimited place e).pers = u.pers := by
    have hlog (v : State) (e : PeerEntry) : (v.peerLog e).peer.flows = v.peer.flows ∧ (v.peerLog e).ctrs = v.ctrs
        ∧ (v.peerLog e).tenants = v.tenants ∧ (v.peerLog e).pers = v.pers := by
      obtain ⟨-, -, h1, h2, -, h3⟩ := v.peerLog_frame e false
      exact ⟨h1, h2, h3, (congrArg State.pers (v.log_frame 0xC5 e.body false 0 true) :)⟩
    unfold State.peerLogLimited
    extract_lets same put
    have hput (v : State) (t n : Nat) : (put v t n).peer.flows = v.peer.flows ∧ (put v t n).ctrs = v.ctrs ∧ (put v t n).tenants = v.tenants
        ∧ (put v t n).pers = v.pers := ⟨rfl, rfl, rfl, rfl⟩
    have hboth (t n : Nat) (e : PeerEntry) : ((put u t n).peerLog e).peer.flows = u.peer.flows ∧ ((put u t n).peerLog e).ctrs = u.ctrs
        ∧ ((put u t n).peerLog e).tenants = u.tenants ∧ ((put u t n).peerLog e).pers = u.pers := hlog (put u t n) e
    clear_value put
    split
    · split
      · exact hput ..
      · exact hboth ..
    · exact hboth ..
  obtain ⟨h1, n, h2⟩ := s.sendControl_turns f r 2 x.epoch [(16, 31, 0, x.seq), (20, 7, 0, cause)]
  unfold State.refuse
  extract_lets u
  obtain ⟨k1, k2, k3, k4⟩ := hlim u f { kind := 7, cause := cause, tenant := r.tenant, flow := f, remoteModule := x.srcModule,
                                        tag := x.field 12 15 0, seqNo := x.seq }
  exact ⟨⟨n, (State.flow_congr k1 f).trans h2⟩, k2.trans (congrArg State.ctrs h1 :), k3.trans (congrArg State.tenants h1 :),
    k4.trans (congrArg State.pers h1 :)⟩
theorem State.consume_flow (s : State) (f : Nat) :
    (s.consume f).flow f = { s.flow f with expected := ((s.flow f).expected + 1) % 2 ^ 32, ackOwed := (s.flow f).ackOwed + 1 } :=
  s.flow_modFlow f _ fun _ => rfl

section
variable {s : State} {port : Nat} {x : PeerFrame} {r : FlowRec} (hme : ForMe s port x) (ht : x.type = 0) (hon : OnFlow s x r)
  (hseq : x.seq = (s.flow x.dstFlow).expected) (hheld : (s.flow x.dstFlow).heldFrames = [])

theorem State.modFlow_rest (s : State) (f : Nat) (g : Flow → Flow) (p : Peer) : { s.modFlow f g with peer := p } = { s with peer := p } := rfl
/-- The state in which a data frame of a bound flow is judged. -/
def State.adopted (s : State) (port : Nat) (x : PeerFrame) : State := (s.arrived port).modFlow x.dstFlow fun y => { y with rxAny := true }
theorem State.adopted_flow (s : State) (port : Nat) (x : PeerFrame) :
    (s.adopted port x).flow x.dstFlow = { s.flow x.dstFlow with rxAny := true } := by
  unfold State.adopted
  rw [State.flow_modFlow _ _ _ (by exact fun _ => rfl), s.arrived_flow]
theorem State.adopted_rest (s : State) (port : Nat) (x : PeerFrame) : { s.adopted port x with peer := s.peer } = s := rfl

include hme ht hon hseq hheld
/-- The expected frame of a flow is judged at once. -/
theorem exec_dataFrameReceived {t : State} {b : Bool} (hap : (s.adopted port x).applyFrame x.dstFlow r x = (t, b)) :
    (b = false → exec (.dataFrameReceived port x) s = .next t)
    ∧ (b = true → (t.flow x.dstFlow).heldFrames = [] → t.pers = s.pers → ∃ t', exec (.dataFrameReceived port x) s = .next t'
      ∧ { t' with peer := t.peer } = t ∧ ∃ a n, t'.flow x.dstFlow = { t.flow x.dstFlow with ackOwed := a, rotation := n }) := by
  obtain ⟨h1, h2, h3, h4, h5⟩ := hon
  have hup : s.portUp port = true := hme.2.1
  have hx : exec (.dataFrameReceived port x) s = execDataFrameReceived port x s := rfl
  have had : (s.arrived port).adopt x.dstFlow x = some (s.adopted port x) := by
    unfold State.adopt
    exact if_pos (by rw [s.arrived_flow]; exact h5)
  have hf := s.adopted_flow port x
  have hrec : (s.arrived port).flowRec x.dstFlow = some r := h1
  unfold execDataFrameReceived at hx
  rw [exec_of_engines hme.1, if_neg (by simp [hup, ht]), admitFrame_of_forMe hme (by omega)] at hx
  dsimp only at hx
  rw [hrec] at hx
  dsimp only at hx
  rw [if_neg (by simp [h2, h3, h4]), had] at hx
  dsimp only at hx
  rw [hf, if_neg (by simp [hheld, hseq, seqBelow]), if_neg (not_not.mpr hseq), hap] at hx
  refine ⟨fun hb => ?_, fun hb hh hp => ?_⟩
  · subst hb
    exact hx
  · subst hb
    have hd : t.drainHeld x.dstFlow r 64 = (t, false) := by
      unfold State.drainHeld
      rw [hh]
      rfl
    dsimp only at hx
    rw [hd] at hx
    dsimp only at hx
    have hrt : t.flowRec x.dstFlow = some r := by
      rw [State.flowRec, hp]
      exact h1
    by_cases ho : (false || decide ((t.flow x.dstFlow).ackOwed ≥ 8)) = true
    · rw [if_pos ho] at hx
      obtain ⟨k1, n, k2⟩ := State.sendAck_flow hrt
      exact ⟨_, hx, k1, 0, n, k2⟩
    · rw [if_neg ho] at hx
      exact ⟨_, hx, rfl, _, _, rfl⟩

/-- The rest of a rejected message is passed over. -/
theorem dataFrame_poisoned (hp : (s.flow x.dstFlow).poisoned = true) (hf : x.first = false) :
    ∃ t, exec (.dataFrameReceived port x) s = .next t
      ∧ (t.flow x.dstFlow).expected = ((s.flow x.dstFlow).expected + 1) % 2 ^ 32 ∧ t.ctrs = s.ctrs ∧ t.tenants = s.tenants := by
  obtain ⟨u, hu⟩ : ∃ u, u = s.adopted port x := ⟨_, rfl⟩
  have huf : u.flow x.dstFlow = { s.flow x.dstFlow with rxAny := true } := hu ▸ s.adopted_flow port x
  have hap : (s.adopted port x).applyFrame x.dstFlow r x = (u.consume x.dstFlow, true) := by
    rw [← hu]
    exact if_pos (by simp [huf, hp, hf])
  have hcf := u.consume_flow x.dstFlow
  rw [huf] at hcf
  obtain ⟨t, hx, hrest, a, n, hfl⟩ := (exec_dataFrameReceived hme ht hon hseq hheld hap).2 rfl (by rw [hcf]; exact hheld) (by rw [hu]; rfl)
  refine ⟨t, hx, by rw [hfl, hcf], ?_, ?_⟩
  · exact (congrArg State.ctrs hrest :).trans (by rw [hu]; rfl)
  · exact (congrArg State.tenants hrest :).trans (by rw [hu]; rfl)

/-- The state in which a frame that begins a message, or goes on with it, is applied. -/
def State.opened (s : State) (port : Nat) (x : PeerFrame) : State :=
  if x.first then (s.adopted port x).modFlow x.dstFlow fun y => { y with poisoned := false } else s.adopted port x
omit hme ht hon hseq hheld in
theorem State.opened_rest (s : State) (port : Nat) (x : PeerFrame) : { s.opened port x with peer := s.peer } = s := by
  unfold State.opened
  split
  · exact (s.adopted port x).modFlow_rest _ _ _
  · rfl
omit hme ht hon hseq hheld in
theorem State.opened_flow (h : (s.flow x.dstFlow).poisoned = false ∨ x.first = true) :
    (s.opened port x).flow x.dstFlow = { s.flow x.dstFlow with rxAny := true, poisoned := false } := by
  unfold State.opened
  by_cases hf : x.first = true
  · rw [if_pos hf, State.flow_modFlow _ _ _ (by exact fun _ => rfl), s.adopted_flow]
  · rw [if_neg hf, s.adopted_flow, ← h.resolve_right hf]
omit hme ht hon hseq hheld in
theorem applyFrame_of_opened (h : (s.flow x.dstFlow).poisoned = false ∨ x.first = true) :
    (s.adopted port x).applyFrame x.dstFlow r x
      = (if !((s.opened port x).tenant r.tenant).runOpen then ((s.opened port x).refuse x.dstFlow r x 2, false)
        else match (if x.length = 0 then .ok none else ((s.opened port x).frameTarget r.tenant x).map some : Except Nat (Option Span)) with
        | .error c => ((((s.opened port x).refuse x.dstFlow r x c).consume x.dstFlow).modFlow x.dstFlow fun y => { y with poisoned := true }, true)
        | .ok p =>
          if x.bumpValid && !(s.opened port x).ownsCtr r.tenant (x.field 20 12 0) then
            ((((s.opened port x).refuse x.dstFlow r x 5).consume x.dstFlow).modFlow x.dstFlow fun y => { y with poisoned := true }, true)
          else
            let u := match p with
              | none => s.opened port x
              | some p => ((s.opened port x).spanWrite { (default : Invocation) with tenant := r.tenant } p (x.payload.take x.length)).1
            let u := if x.bumpValid then u.bumpAfter r.tenant (u.tenant r.tenant).outside (some (x.field 20 12 0, x.field 22 15 0)) else u
            (u.consume x.dstFlow, true)) := by
  refine if_neg ?_
  rw [s.adopted_flow]
  rcases h with h | h <;> simp [h]

/-- A frame of a closed run is refused, and not consumed. -/
theorem dataFrame_closed (hrun : (s.tenant r.tenant).runOpen = false) (hp : (s.flow x.dstFlow).poisoned = false ∨ x.first = true) :
    ∃ t, exec (.dataFrameReceived port x) s = .next t ∧ (t.flow x.dstFlow).expected = (s.flow x.dstFlow).expected ∧ t.ctrs = s.ctrs
      ∧ t.tenants = s.tenants := by
  have hrest := s.opened_rest port x
  have hof := State.opened_flow (port := port) hp
  have hap := applyFrame_of_opened (port := port) (r := r) hp
  generalize s.opened port x = u at hrest hof hap
  have hut : u.tenants = s.tenants := (congrArg State.tenants hrest :)
  have htn : u.tenant r.tenant = s.tenant r.tenant := by rw [State.tenant, hut]; rfl
  rw [if_pos (by rw [htn, hrun]; rfl)] at hap
  obtain ⟨⟨n, h1⟩, h2, h3, -⟩ := u.refuse_parts x.dstFlow r x 2
  refine ⟨_, (exec_dataFrameReceived hme ht hon hseq hheld hap).1 rfl, ?_, h2.trans (congrArg State.ctrs hrest :), h3.trans hut⟩
  rw [h1, hof]
/-- A frame whose place does not exist is refused, and consumed with the rest of its message. -/
theorem dataFrame_misplaced (hrun : (s.tenant r.tenant).runOpen = true) (hp : (s.flow x.dstFlow).poisoned = false ∨ x.first = true) {c : Nat}
    (hc : s.frameTarget r.tenant x = .error c) (hlen : 0 < x.length) :
    ∃ t, exec (.dataFrameReceived port x) s = .next t ∧ (t.flow x.dstFlow).expected = ((s.flow x.dstFlow).expected + 1) % 2 ^ 32
      ∧ (t.flow x.dstFlow).poisoned = true ∧ t.ctrs = s.ctrs ∧ t.tenants = s.tenants := by
  have hrest := s.opened_rest port x
  have hof := State.opened_flow (port := port) hp
  have hap := applyFrame_of_opened (port := port) (r := r) hp
  generalize s.opened port x = u at hrest hof hap
  have hut : u.tenants = s.tenants := (congrArg State.tenants hrest :)
  have htn (n : Nat) : u.tenant n = s.tenant n := by rw [State.tenant, hut]; rfl
  have htar : u.frameTarget r.tenant x = .error c := by
    have h : u.frameTarget r.tenant x = s.frameTarget r.tenant x := by
      unfold State.frameTarget State.handle? State.bufferAt
      simp only [htn]
    rw [h, hc]
  rw [if_neg (by rw [htn, hrun]; decide), if_neg (by omega), htar] at hap
  obtain ⟨⟨n, h1⟩, h2, h3, h4⟩ := u.refuse_parts x.dstFlow r x c
  obtain ⟨v, hv⟩ : ∃ v, v = u.refuse x.dstFlow r x c := ⟨_, rfl⟩
  rw [← hv] at h1 h2 h3 h4
  replace hap := hap.trans (show _ = (((v.consume x.dstFlow).modFlow x.dstFlow fun y => { y with poisoned := true }), true) by rw [hv]; rfl)
  have hfl : ((v.consume x.dstFlow).modFlow x.dstFlow fun y => { y with poisoned := true }).flow x.dstFlow = _ :=
    State.flow_modFlow _ _ _ (by exact fun _ => rfl)
  rw [v.consume_flow, h1, hof] at hfl
  obtain ⟨t, hx, htr, a, m, ht⟩ := (exec_dataFrameReceived hme ht hon hseq hheld hap).2 rfl (by rw [hfl]; exact hheld)
    (h4.trans (congrArg State.pers hrest :))
  refine ⟨t, hx, by rw [ht, hfl], by rw [ht, hfl], ?_, ?_⟩
  · exact (congrArg State.ctrs htr :).trans (h2.trans (congrArg State.ctrs hrest :))
  · exact (congrArg State.tenants htr :).trans (h3.trans hut)

omit hme ht hon hseq hheld in
theorem settle_buffer (s : State) (n : Nat) {p : Span} {k : Nat} {pl : Placement} (hp : p.space = .buf k pl) :
    (s.settle n p).space ≠ .hostOut := by
  unfold State.settle
  rw [hp]
  cases pl
  case tile =>
    dsimp only
    split
    · exact nofun
    · rw [hp]
      exact nofun
  all_goals dsimp only; rw [hp]; exact nofun
omit hme ht hon hseq hheld in
theorem frameTarget_space {n : Nat} {p : Span} (h : s.frameTarget n x = .ok p) : (∃ k pl, p.space = .buf k pl) ∧ p.len = x.length := by
  unfold State.frameTarget at h
  dsimp only at h
  split at h
  · cases h
  · split at h
    · cases h
    · split at h
      · cases h
      · cases h
        exact ⟨⟨_, _, rfl⟩, rfl⟩

omit hme ht hon hseq hheld in
theorem stored_iff {t : State} {i : Invocation} {p : Span} (hh : (s.settle i.tenant p).space ≠ .hostOut) (bs : List Byte) :
    Stored s t i p bs ↔ t.host = s.host ∧ t.spanGet i { p with len := bs.length } = bs := by
  unfold Stored
  split
  · next h => exact absurd h hh
  · rfl

omit hme ht hon hseq hheld in
theorem backed_not_hostIn {i : Invocation} {p : Span} (h : Backed s i p) : (s.settle i.tenant p).space ≠ .hostIn := by
  intro hk
  unfold Backed at h
  rw [hk] at h
  exact h
omit hme ht hon hseq hheld in
/-- What a piece of a home or a buffer holds does not depend on the counters or the peer fabric. -/
theorem State.spanGet_ctrs_peer (z : State) (cs : CtrPool) (pr : Peer) (i : Invocation) (p : Span)
    (h : (z.settle i.tenant p).space ≠ .hostIn) : ({ z with ctrs := cs, peer := pr } : State).spanGet i p = z.spanGet i p := by
  have hset : ({ z with ctrs := cs, peer := pr } : State).settle i.tenant p = z.settle i.tenant p := rfl
  unfold State.spanGet
  rw [hset]
  dsimp only
  generalize z.settle i.tenant p = q at h
  obtain ⟨sp, off, len⟩ := q
  cases sp with
  | hostIn => exact absurd rfl h
  | home m => rfl
  | buf k pl =>
    cases pl with
    | readonly => rfl
    | _ => rfl
  | hostOut => rfl
  | unused => rfl

/-- What storing a frame's payload leaves: everything but the tenants' memory and its protection. -/
structure State.Takes (s z : State) (n : Nat) (p : Span) (bs : List Byte) : Prop where
  rest : { z with tenants := s.tenants, prot := s.prot } = s
  clean : z.prot.Clean
  runs : (z.tenant n).runOpen = (s.tenant n).runOpen
  stored : z.host = s.host ∧ z.spanGet { (default : Invocation) with tenant := n } { p with len := bs.length } = bs
  kept : MemKept s z n [p]
  plain : (z.settle n p).space ≠ .hostIn
omit hme ht hon hseq hheld in
theorem takes_of_backed (hs : Sound s) {n : Nat} {p : Span} (hsp : ∃ k pl, p.space = .buf k pl)
    (hb : Backed s { (default : Invocation) with tenant := n } p) (bs : List Byte) (hlen : bs.length ≤ p.len) :
    (bs = [] → s.Takes s n p bs) ∧ (bs ≠ [] → s.Takes (s.spanWrite { (default : Invocation) with tenant := n } p bs).1 n p bs) := by
  obtain ⟨k, pl, hsp⟩ := hsp
  have hh : (s.settle n p).space ≠ .hostOut := settle_buffer s n hsp
  refine ⟨fun h0 => ?_, fun hne => ?_⟩
  · subst h0
    refine ⟨rfl, ⟨hs.1, hs.2.1⟩, rfl, ?_, fun _ _ _ _ => rfl, backed_not_hostIn hb⟩
    have hb0 : Backed s { (default : Invocation) with tenant := n } { p with len := 0 } := by
      unfold Backed at hb ⊢
      rw [State.settle_len]
      exact hb
    have hget := State.spanGet_eq hb0 (by rw [State.settle_len]; exact hh)
    refine ⟨rfl, hget.trans ?_⟩
    rw [State.settle_len]
    rfl
  · obtain ⟨z, hz, hst⟩ := clean_spanWrite ⟨hs.1, hs.2.1⟩ hb hne hh
    rw [hz]
    exact ⟨hst.rest, hst.clean, hst.shaped.runOpen n, (stored_iff hh bs).mp (stored_of_stores hst hb hh), memKept_of_stores hst hlen List.mem_cons_self,
      backed_not_hostIn (backed_of_stores hst hb)⟩
omit hme ht hon hseq hheld in
theorem MemProt.Clean.ctrPoison (h : s.prot.Clean) (c : Nat) : s.ctrPoison c = none := by
  have h6 : (s.prot.sram.getD 6 {}).poison = [] := by
    rw [List.getD_eq_getElem?_getD]
    cases hy : s.prot.sram[6]? with
    | none => rfl
    | some y => exact h.2 y (List.mem_of_getElem? hy)
  rw [State.ctrPoison, h6]
  rfl
omit hme ht hon hseq hheld in
/-- A bump within a counter's range adds to it, whatever the memory holds. -/
theorem bumpAfter_within {z : State} {n c v : Nat} (hn : n < 16) (hr : (z.tenant n).runOpen = true) (hc : z.prot.Clean) (ho : z.ownsCtr n c = true)
    (hs : z.ctrSat c = false) (hv : z.ctr c + v ≤ ctrMax) (l : List (Nat × Nat)) :
    ∃ cs, z.bumpAfter n l (some (c, v)) = { z with ctrs := cs } ∧ (z.bumpAfter n l (some (c, v))).ctr c = z.ctr c + v := by
  obtain ⟨h1, h2, -⟩ := State.bump_ok (s := z.teach c l) hn hr ho hs (hc.ctrPoison (s := z) c) hv
  exact ⟨_, h1, h2⟩

/-- The expected frame of an open run is applied: payload, then bump. -/
theorem dataFrame_applied (hrun : (s.tenant r.tenant).runOpen = true) (hp : (s.flow x.dstFlow).poisoned = false ∨ x.first = true) {p : Span}
    (htar : s.frameTarget r.tenant x = .ok p) (hs : Sound s) (hb : Backed s { (default : Invocation) with tenant := r.tenant } p)
    (hbump : x.bumpValid = true → s.ownsCtr r.tenant (x.field 20 12 0) = true ∧ s.ctrSat (x.field 20 12 0) = false
      ∧ s.ctrPoison (x.field 20 12 0) = none ∧ s.ctr (x.field 20 12 0) + x.field 22 15 0 ≤ ctrMax) :
    ∃ t, exec (.dataFrameReceived port x) s = .next t ∧ (t.flow x.dstFlow).poisoned = false
      ∧ (t.flow x.dstFlow).expected = ((s.flow x.dstFlow).expected + 1) % 2 ^ 32
      ∧ Stored s t { (default : Invocation) with tenant := r.tenant } p (x.payload.take x.length)
      ∧ MemKept s t r.tenant [p] ∧ (x.bumpValid = false → t.ctrs = s.ctrs)
      ∧ (x.bumpValid = true → t.ctr (x.field 20 12 0) = s.ctr (x.field 20 12 0) + x.field 22 15 0) := by
  obtain ⟨hsp, hplen⟩ := frameTarget_space htar
  have hh : (s.settle r.tenant p).space ≠ .hostOut := hsp.elim fun _ h => h.elim fun _ h => settle_buffer s r.tenant h
  have hlen : (x.payload.take x.length).length = x.length := List.length_take_of_le hme.2.2.2.2.2.1
  have hn : r.tenant < 16 := by
    rw [hon.2.1]
    exact Nat.mod_lt _ (by decide)
  have hrest := s.opened_rest port x
  have hof := State.opened_flow (port := port) hp
  have hap := applyFrame_of_opened (port := port) (r := r) hp
  obtain ⟨pr, hpr⟩ : ∃ pr, s.opened port x = { s with peer := pr } :=
    ⟨_, (congrArg (fun t : State => { t with peer := (s.opened port x).peer }) hrest :)⟩
  rw [hpr] at hof hap
  have hs' : Sound { s with peer := pr } := hs
  have htar' : ({ s with peer := pr } : State).frameTarget r.tenant x = .ok p := htar
  have hown : ¬ (x.bumpValid && !({ s with peer := pr } : State).ownsCtr r.tenant (x.field 20 12 0)) = true := by
    cases hbv : x.bumpValid with
    | false => exact Bool.false_ne_true
    | true =>
      rw [show ({ s with peer := pr } : State).ownsCtr r.tenant (x.field 20 12 0) = true from (hbump hbv).1]
      decide
  obtain ⟨htake0, htake⟩ := takes_of_backed hs' hsp (n := r.tenant) hb (x.payload.take x.length) (by rw [hlen, hplen])
  rw [if_neg (by rw [show (({ s with peer := pr } : State).tenant r.tenant).runOpen = true from hrun]; decide)] at hap
  obtain ⟨z, hz, hap⟩ : ∃ z, ({ s with peer := pr } : State).Takes z r.tenant p (x.payload.take x.length)
      ∧ (s.adopted port x).applyFrame x.dstFlow r x = ((if x.bumpValid then z.bumpAfter r.tenant (z.tenant r.tenant).outside
          (some (x.field 20 12 0, x.field 22 15 0)) else z).consume x.dstFlow, true) := by
    by_cases h0 : x.length = 0
    · rw [if_pos h0] at hap
      exact ⟨_, htake0 (by rw [h0]; rfl), hap.trans (if_neg hown)⟩
    · rw [if_neg h0, htar'] at hap
      exact ⟨_, htake fun h => h0 (by rw [← hlen, h]; rfl), hap.trans (if_neg hown)⟩
  obtain ⟨hzrest, hclean, hzrun, hstored, hkept, hplain⟩ := hz
  have hzf : z.flow x.dstFlow = ({ s with peer := pr } : State).flow x.dstFlow := State.flow_congr (congrArg (fun t : State => t.peer.flows) hzrest) _
  have hzown (c : Nat) (n : Nat) : z.ownsCtr n c = s.ownsCtr n c := by
    unfold State.ownsCtr State.record
    rw [show z.pers = s.pers from (congrArg State.pers hzrest :)]
  have hzctrs : z.ctrs = s.ctrs := (congrArg State.ctrs hzrest :)
  obtain ⟨w, hw, hwf, hw0, hw1⟩ : ∃ cs, (if x.bumpValid = true then z.bumpAfter r.tenant (z.tenant r.tenant).outside
        (some (x.field 20 12 0, x.field 22 15 0)) else z) = { z with ctrs := cs } ∧ ({ z with ctrs := cs } : State).flow x.dstFlow = z.flow x.dstFlow
      ∧ (x.bumpValid = false → cs = s.ctrs)
      ∧ (x.bumpValid = true → ({ z with ctrs := cs } : State).ctr (x.field 20 12 0) = s.ctr (x.field 20 12 0) + x.field 22 15 0) := by
    cases hbv : x.bumpValid with
    | false => exact ⟨z.ctrs, rfl, rfl, fun _ => hzctrs, nofun⟩
    | true =>
      obtain ⟨b1, b2, b3, b4⟩ := hbump hbv
      have hctr : z.ctr (x.field 20 12 0) = s.ctr (x.field 20 12 0) := by
        unfold State.ctr
        rw [hclean.ctrPoison, b3, hzctrs]
        simp only [hzown]
      obtain ⟨cs, k1, k2⟩ := bumpAfter_within hn (hzrun.trans hrun) hclean ((hzown _ _).trans b1) (by rw [State.ctrSat, hzctrs]; exact b2)
        (hctr ▸ b4) (z.tenant r.tenant).outside
      rw [k1] at k2
      exact ⟨cs, k1, rfl, nofun, fun _ => k2.trans (by rw [hctr])⟩
  rw [hw] at hap
  have hcf := ({ z with ctrs := w } : State).consume_flow x.dstFlow
  rw [hwf, hzf, hof] at hcf
  obtain ⟨t, hx, htr, a, m, ht⟩ := (exec_dataFrameReceived hme ht hon hseq hheld hap).2 rfl (by rw [hcf]; exact hheld)
    (congrArg State.pers hzrest :)
  obtain ⟨pt, rfl⟩ : ∃ pt, t = { z with ctrs := w, peer := pt } := ⟨_, (congrArg (fun u : State => { u with peer := t.peer }) htr :)⟩
  refine ⟨_, hx, by rw [ht, hcf], by rw [ht, hcf], (stored_iff hh _).mpr ⟨hstored.1, (z.spanGet_ctrs_peer w pt _ _ ?_).trans hstored.2⟩, hkept, hw0, hw1⟩
  rw [State.settle_len]
  exact hplain

end

/-- Settles O49: commands, frames sent and sent again, and frames received, one after the other. -/
theorem peerFrames : Obligations.PeerFrames := by
  unfold Obligations.PeerFrames
  intro s he _
  refine ⟨fun q k e i w hrun hw => ⟨peerWrite_empty hrun hw, peerWrite_starts hrun hw⟩, fun f r h hr hh => ?_, fun port x hme => ?_,
    fun f r hr ho => ackTimer_spec he hr ho⟩
  · refine ⟨fun h1 h2 h3 h4 h5 bs hpay => peerFrameSend_spec he hr hh h1 h2 h3 h4 h5 hpay, fun n z hz hc => ⟨(exec_retransmitTimeout he hr hh hz hc).1,
      fun hn hl => (retransmit_again he hr hh hz hc hn hl).1, fun hn hl p bs hp hpa hpay => ?_, fun hn hl i hi hp _ => ?_⟩⟩
    · exact (retransmit_again he hr hh hz hc hn hl).2 p bs hp hpa hpay
    · exact retransmit_last he hr hh hz hc hn hl hi hp
  · refine ⟨fun ht r hr => ackReceived_spec hme ht hr, fun ht r h i hr hh hi hp _ hin => nakReceived_fatal hme ht hr hh hi hp hin,
      fun ht r hon hseq hheld => ⟨dataFrame_closed hme ht hon hseq hheld, dataFrame_poisoned hme ht hon hseq hheld, fun hrun hp =>
        ⟨fun c hc hlen => dataFrame_misplaced hme ht hon hseq hheld hrun hp hc hlen, fun p htar hs hb hbump =>
          dataFrame_applied hme ht hon hseq hheld hrun hp htar hs hb hbump⟩⟩⟩

end Sys2Proof.Machine
end

section
/-!
PROOFS. Chapter 15: channels and dies (O51).
-/

namespace Sys2Proof.Machine

open Sys2Proof.Safety Sys2Proof.Tests

/-- A superblock of stripe set 16, which no package has: its slots lie on dies 32 and above, so that slot 0 of channel 0 is the place at
which die 0 of channel 1 is kept. -/
def strayBlock : Superblock := { id := 1, group := 0, set := 16, use := .writes, slots := [0, 1], blocks := List.replicate 8 3 }
/-- Die 1 of channel 1 is to read a page of that superblock for a host command. -/
def strayRead : State :=
  { demo with media := { demo.media with
      superblocks := [strayBlock]
      dies := (List.replicate 1024 {}).set 33 { queue := [{ cls := 2, kind := .read (strayBlock.page 1 0 0) [0] (.nvm default 5) }] } } }
/-- The queue of die 0 of channel 1 once the training of channel 1 has failed. -/
def strayQueue : Option (List DieOp) :=
  match exec (.channelTraining 1 none) strayRead with
  | .next t => some (t.die 1 0).queue
  | _ => none
theorem strayQueue_left : (strayQueue.map List.isEmpty) = some false := by decide +kernel

/-- Refutes O51: the isolation of channel 1 sends its read to the rebuild of a superblock of stripe set 16, and the read of the row's
other member is queued at die 32 of channel 0, which is kept where die 0 of channel 1 is: its queue is not empty. -/
theorem not_flashOperations : ¬ Obligations.FlashOperations := by
  unfold Obligations.FlashOperations
  intro h
  obtain ⟨-, -, htrain, -⟩ := h strayRead 1 0 (by decide +kernel) (by decide +kernel) (by decide) (by decide)
  obtain ⟨-, hiso, -⟩ := htrain rfl rfl rfl
  obtain ⟨t, hx, -, -, -, -, hclear⟩ := hiso rfl
  obtain ⟨-, -, hq⟩ := hclear 0 (by decide +kernel)
  have hs : strayQueue = some (t.die 1 0).queue := by
    unfold strayQueue
    rw [hx]
  have hleft := strayQueue_left
  rw [hs, hq] at hleft
  cases hleft

end Sys2Proof.Machine
end

section
/-!
PROOFS. Chapter 16: maps, checkpoints, switches, erases and the patrol (O52).
-/

namespace Sys2Proof.Machine

open Sys2Proof.Safety

/-! ### What the management of the media leaves -/

/-- What it never touches. -/
def State.office (s : State) : CtrPool × List Invocation × List Tenant × MemProt × Peer × Power × Service :=
  (s.ctrs, s.invocations, s.tenants, s.prot, s.peer, s.power, s.svc)
/-- What only an operation that moves data changes: the maps, the pages, the buffer and the copies. -/
def State.ledger (s : State) : List UnitEntry × List ExtentEntry × List FlashPage × List Namespace × List WbBlock × List Copied :=
  (s.media.units, s.media.extents, s.media.pages, s.media.namespaces, s.media.buffer, s.media.copied)
/-- Both. -/
def State.desk (s : State) := (s.office, s.ledger)

theorem office_parts {s t : State} (h : t.office = s.office) : t.ctrs = s.ctrs ∧ t.invocations = s.invocations ∧ t.tenants = s.tenants
    ∧ t.prot = s.prot ∧ t.peer = s.peer ∧ t.power = s.power ∧ t.svc = s.svc := by
  simpa only [State.office, Prod.mk.injEq] using h
theorem desk_parts {s t : State} (h : t.desk = s.desk) : (t.ctrs = s.ctrs ∧ t.invocations = s.invocations ∧ t.tenants = s.tenants
    ∧ t.prot = s.prot ∧ t.peer = s.peer ∧ t.power = s.power ∧ t.svc = s.svc) ∧ t.media.units = s.media.units
      ∧ t.media.extents = s.media.extents ∧ t.media.pages = s.media.pages ∧ t.media.namespaces = s.media.namespaces
      ∧ t.media.buffer = s.media.buffer := by
  refine ⟨office_parts (congrArg Prod.fst h), ?_⟩
  have h2 := congrArg Prod.snd h
  simp only [State.desk, State.ledger, Prod.mk.injEq] at h2
  obtain ⟨h1, h2, h3, h4, h5, -⟩ := h2
  exact ⟨h1, h2, h3, h4, h5⟩
theorem State.office_of_sansMedia {s t : State} (h : t.sansMedia = s.sansMedia) : t.office = s.office := (congrArg State.office h :)
theorem State.desk_of_sansDies {s t : State} (h : t.sansDies = s.sansDies) : t.desk = s.desk := (congrArg State.desk h :)
theorem State.log_desk (s : State) (page : Nat) (body : List Byte) (fault : Bool) (owner : Nat) (event : Bool) :
    (s.log page body fault owner event).desk = s.desk := (congrArg State.desk (s.log_frame page body fault owner event) :)
theorem State.mediaLog_desk (s : State) (e : MediaEntry) (fault : Bool) : (s.mediaLog e fault).desk = s.desk := s.log_desk ..
theorem State.enqueue_desk (s : State) (c d : Nat) (o : DieOp) : (s.enqueue c d o).desk = s.desk := State.desk_of_sansDies (s.enqueue_sansDies c d o)
theorem State.kick_desk (s : State) (c d : Nat) : (s.kick c d).desk = s.desk := State.desk_of_sansDies (s.kick_sansDies c d)
theorem State.retireBlock_desk (s : State) (a : BlockAddr) (cause f : Nat) : (s.retireBlock a cause f).desk = s.desk := by
  unfold State.retireBlock
  exact ite_keep State.desk rfl ((State.mediaLog_desk ..).trans (State.log_desk ..))

/-- MAP_REPLAY. -/
theorem mapReplay_spec {s : State} (hon : s.power.stage = .on) (hd : s.power.dramReady = true) : exec .mapReplay s
    = .next { s with media := { s.media with groups := s.media.groups.map fun g => { g with mapLoaded := true } } } :=
  (s.whenOn_of hon _).trans (if_neg (by simp [hd]))

/-! ### A checkpoint -/

/-- The flash without its pages and their wear. -/
def State.sansPages (s : State) : State := { s with media := { s.media with pages := [], cycles := [] } }
/-- Erasing metadata blocks keeps the other pages, and everything but pages and wear. -/
theorem eraseMetadata {α : Type} (f : State → α → State) (hf : ∀ s a, ∃ b, f s a = s.eraseBlock b ∧ metadataBlock b = true) (l : List α) (s : State) :
    (l.foldl f s).sansPages = s.sansPages ∧ ∀ p ∈ s.media.pages, metadataBlock p.addr.blockAddr = false → p ∈ (l.foldl f s).media.pages := by
  refine foldl_rel (R := fun s t : State => t.sansPages = s.sansPages
    ∧ ∀ p ∈ s.media.pages, metadataBlock p.addr.blockAddr = false → p ∈ t.media.pages) (fun _ => ⟨rfl, fun _ h _ => h⟩)
    (fun h k => ⟨k.1.trans h.1, fun p hp hm => k.2 p (h.2 p hp hm) hm⟩) f (fun s a => ?_) l s
  obtain ⟨b, hb, hmeta⟩ := hf s a
  rw [hb]
  refine ⟨rfl, fun p hp hm => List.mem_filter.mpr ⟨hp, ?_⟩⟩
  rw [Bool.not_eq_true']
  refine Bool.eq_false_iff.mpr fun hc => ?_
  have hpb : p.addr.blockAddr = b := by
    simp only [Bool.and_eq_true, beq_iff_eq] at hc
    obtain ⟨⟨⟨h1, h2⟩, h3⟩, h4⟩ := hc
    obtain ⟨⟩ := b
    simp only at h1 h2 h3 h4
    simp [PageAddr.blockAddr, h1, h2, h3, h4]
  rw [hpb, hmeta] at hm
  cases hm

/-- A metadata block of a group. -/
def metaAddr (g k p next : Nat) : BlockAddr :=
  let c := slotPlace g 0 k
  { channel := c.1, die := c.2, plane := p, block := next }
theorem metaAddr_metadata (g p : Nat) {k next : Nat} (hk : k < 16) (hn : next < 2) : metadataBlock (metaAddr g k p next) = true := by
  have h1 : k / 8 < 2 := by omega
  simp [metadataBlock, metaAddr, slotPlace, h1, hn]
/-- The erase of the four metadata blocks of a slot. -/
def State.eraseMeta (s : State) (g next k : Nat) : State := (List.range 4).foldl (fun (s : State) p => s.eraseBlock (metaAddr g k p next)) s
/-- The erase of the metadata blocks of some slots keeps the other pages, and everything but pages and wear. -/
theorem eraseMeta_spec (g : Nat) {next : Nat} (hn : next < 2) : ∀ (l : List Nat) (s : State), (∀ k ∈ l, k < 16) →
    (l.foldl (fun (s : State) k => s.eraseMeta g next k) s).sansPages = s.sansPages ∧ ∀ p ∈ s.media.pages,
      metadataBlock p.addr.blockAddr = false → p ∈ (l.foldl (fun (s : State) k => s.eraseMeta g next k) s).media.pages
  | [], _, _ => ⟨rfl, fun _ h _ => h⟩
  | k :: l, s, hl => by
    obtain ⟨h1, h2⟩ := eraseMetadata (fun (s : State) p => s.eraseBlock (metaAddr g k p next))
      (fun v p => ⟨_, rfl, metaAddr_metadata g p (hl k List.mem_cons_self) hn⟩) (List.range 4) s
    obtain ⟨u, hu⟩ : ∃ u, u = s.eraseMeta g next k := ⟨_, rfl⟩
    replace h1 : u.sansPages = s.sansPages := hu ▸ h1
    replace h2 : ∀ p ∈ s.media.pages, metadataBlock p.addr.blockAddr = false → p ∈ u.media.pages := hu ▸ h2
    obtain ⟨h3, h4⟩ := eraseMeta_spec g hn l u fun j hj => hl j (List.mem_cons_of_mem _ hj)
    rw [List.foldl_cons, ← hu]
    exact ⟨h3.trans h1, fun p hp hm => h4 p (h2 p hp hm) hm⟩
/-- JOURNAL_CHECKPOINT. -/
theorem journalCheckpoint_spec {s : State} (hon : s.power.stage = .on) {g : Nat} (hg : g < s.media.groups.length) :
    ∃ t, exec (.journalCheckpoint g) s = .next t ∧ t.office = s.office
      ∧ t.media.groups.getD g {} = { s.media.groups.getD g {} with
          journalTail := 0, metaTail := 0, checkpoints := (s.media.groups.getD g {}).checkpoints + 1
          metaBlock := 1 - (s.media.groups.getD g {}).metaBlock, metaRow := 0 }
      ∧ (∀ h, h ≠ g → t.media.groups.getD h {} = s.media.groups.getD h {})
      ∧ t.media.units = s.media.units ∧ t.media.extents = s.media.extents
      ∧ ∀ p ∈ s.media.pages, metadataBlock p.addr.blockAddr = false → p ∈ t.media.pages := by
  obtain ⟨next, hnext⟩ : ∃ next, next = 1 - (s.media.groups.getD g {}).metaBlock := ⟨_, rfl⟩
  obtain ⟨u, hu⟩ : ∃ u, u = (s.liveSlots g 0).foldl (fun (s : State) k => s.eraseMeta g next k) s := ⟨_, rfl⟩
  obtain ⟨hu1, hu2⟩ : u.sansPages = s.sansPages ∧ ∀ p ∈ s.media.pages, metadataBlock p.addr.blockAddr = false → p ∈ u.media.pages :=
    hu ▸ eraseMeta_spec g (by omega) (s.liveSlots g 0) s fun k hk => List.mem_range.mp (List.mem_filter.mp hk).1
  have hug : u.media.groups = s.media.groups := (congrArg (fun x : State => x.media.groups) hu1 :)
  have hturn : s.turnMetadata g = u.modGroup g fun x => { x with metaBlock := next, metaRow := 0 } := by
    rw [hu, hnext]
    rfl
  clear hu
  obtain ⟨v, hv⟩ : ∃ v, v = (u.modGroup g fun x => { x with metaBlock := next, metaRow := 0 }).modGroup g fun g => { g with
    journalTail := 0, metaTail := 0, checkpoints := g.checkpoints + 1 } := ⟨_, rfl⟩
  have hx : exec (.journalCheckpoint g) s = .next (v.modMedia fun m => { m with superblocks := m.superblocks.map fun b =>
      if b.group = g && b.use = .metadata then { b with closed := true } else b }) := by
    refine (s.whenOn_of hon _).trans ?_
    rw [hv, ← hturn]
  have hvg : v.media.groups = (u.media.groups.modify g fun x => { x with metaBlock := next, metaRow := 0 }).modify g fun g => { g with
    journalTail := 0, metaTail := 0, checkpoints := g.checkpoints + 1 } := by rw [hv]; rfl
  obtain ⟨hvo, hvu, hve, hvp⟩ : v.office = u.office ∧ v.media.units = u.media.units ∧ v.media.extents = u.media.extents
      ∧ v.media.pages = u.media.pages := by rw [hv]; exact ⟨rfl, rfl, rfl, rfl⟩
  refine ⟨_, hx, ?_, ?_, fun h hh => ?_, ?_, ?_, fun p hp hm => ?_⟩
  · exact (rfl : _ = v.office).trans (hvo.trans (congrArg State.office hu1 :))
  · show v.media.groups.getD g {} = _
    rw [hvg, getD_modify_self _ _ _ _ (by rw [List.length_modify, hug]; exact hg), getD_modify_self _ _ _ _ (hug ▸ hg), hug, hnext]
  · show v.media.groups.getD h {} = _
    rw [hvg, getD_modify_ne _ _ _ hh, getD_modify_ne _ _ _ hh, hug]
  · exact hvu.trans (congrArg (fun x : State => x.media.units) hu1 :)
  · exact hve.trans (congrArg (fun x : State => x.media.extents) hu1 :)
  · exact (hvp ▸ hu2 p hp hm : p ∈ v.media.pages)

/-! ### The switch of map entries -/

/-- The map entry after the switch of one copy. -/
def Copied.switch (c : Copied) (e : UnitEntry) : UnitEntry :=
  match c.item with
  | .unit fn nsid u =>
    if e.fn = fn && e.nsid = nsid && e.unit = u then
      (match e.place with
       | .at sb _ => if sb = c.source then { e with place := .at c.superblock c.page } else e
       | .unreadable _ => e)
    else e
  | _ => e
theorem Copied.switch_elsewhere {c : Copied} {e : UnitEntry} (h : ∀ q, e.place ≠ .at c.source q) : c.switch e = e := by
  unfold Copied.switch
  split
  · split
    · split
      · next sb q hq =>
        refine if_neg fun hs => h q ?_
        rw [hq, hs]
      · rfl
    · rfl
  · rfl
theorem Copied.switch_other {c : Copied} {e : UnitEntry} (h : c.item ≠ .unit e.fn e.nsid e.unit) : c.switch e = e := by
  unfold Copied.switch
  split
  · next fn nsid u hi =>
    refine if_neg fun hk => h ?_
    simp only [Bool.and_eq_true, decide_eq_true_eq] at hk
    obtain ⟨⟨h1, h2⟩, h3⟩ := hk
    rw [hi, h1, h2, h3]
  · rfl
theorem Copied.switch_of {c : Copied} {e : UnitEntry} (h : c.item = .unit e.fn e.nsid e.unit) {q : Nat} (hq : e.place = .at c.source q) :
    c.switch e = { e with place := .at c.superblock c.page } := by
  unfold Copied.switch
  rw [h, hq]
  simp
theorem State.switchUnit_units (s : State) (c : Copied) : (s.switchUnit c).media.units = s.media.units.map c.switch
    ∧ (s.switchUnit c).media.pages = s.media.pages ∧ (s.switchUnit c).media.copied = s.media.copied := by
  have hid (hi : ∀ e, c.switch e = e) : s.media.units = s.media.units.map c.switch :=
    (List.map_id _).symm.trans (List.map_congr_left fun e _ => (hi e).symm)
  unfold State.switchUnit
  cases hc : c.item with
  | unit fn nsid u =>
    refine ⟨?_, rfl, rfl⟩
    refine List.map_congr_left fun e _ => ?_
    obtain ⟨⟩ := c
    cases (hc : _ = Item.unit fn nsid u)
    rfl
  | part t x p =>
    have hi : ∀ e, c.switch e = e := fun e => by unfold Copied.switch; rw [hc]
    cases p with
    | zero =>
      simp only
      split
      · exact ⟨hid hi, rfl, rfl⟩
      · exact ⟨hid hi, rfl, rfl⟩
    | succ p => exact ⟨hid hi, rfl, rfl⟩
  | parity => exact ⟨hid fun e => by unfold Copied.switch; rw [hc], rfl, rfl⟩
  | padding => exact ⟨hid fun e => by unfold Copied.switch; rw [hc], rfl, rfl⟩
/-- The switches of a list of copies, entry by entry. -/
theorem switchUnits_units (l : List Copied) (s : State) : (l.foldl State.switchUnit s).media.units
      = s.media.units.map (fun e => l.foldl (fun e c => c.switch e) e)
    ∧ (l.foldl State.switchUnit s).media.pages = s.media.pages ∧ (l.foldl State.switchUnit s).media.copied = s.media.copied
    ∧ (l.foldl State.switchUnit s).sansMedia = s.sansMedia := by
  induction l generalizing s with
  | nil => exact ⟨(List.map_id _).symm, rfl, rfl, rfl⟩
  | cons c l ih =>
    obtain ⟨h1, h2, h3, h4⟩ := ih (s.switchUnit c)
    obtain ⟨k1, k2, k3⟩ := s.switchUnit_units c
    refine ⟨?_, h2.trans k2, h3.trans k3, h4.trans (s.switchUnit_sansMedia c)⟩
    rw [List.foldl_cons, h1, k1, List.map_map]
    rfl
theorem switches_elsewhere {l : List Copied} {sb : Nat} (hl : ∀ c ∈ l, c.source = sb) {e : UnitEntry} (h : ∀ q, e.place ≠ .at sb q) :
    l.foldl (fun e c => c.switch e) e = e := by
  induction l with
  | nil => rfl
  | cons c l ih =>
    rw [List.foldl_cons, Copied.switch_elsewhere (by rw [hl c List.mem_cons_self]; exact h)]
    exact ih fun c hc => hl c (List.mem_cons_of_mem _ hc)
theorem switches_of {l : List Copied} {sb : Nat} (hl : ∀ c ∈ l, c.source = sb) {e : UnitEntry} {q : Nat} (he : e.place = .at sb q) {c : Copied}
    (hc : c ∈ l) (hi : c.item = .unit e.fn e.nsid e.unit) (hne : c.superblock ≠ sb) (hu : ∀ y ∈ l, y.item = c.item → y = c) :
    l.foldl (fun e c => c.switch e) e = { e with place := .at c.superblock c.page } := by
  induction l with
  | nil => cases hc
  | cons y l ih =>
    have hl' : ∀ c ∈ l, c.source = sb := fun c hc => hl c (List.mem_cons_of_mem _ hc)
    rw [List.foldl_cons]
    by_cases hy : y.item = c.item
    · obtain rfl := hu y List.mem_cons_self hy
      rw [Copied.switch_of hi (by rw [hl y List.mem_cons_self]; exact he)]
      refine switches_elsewhere hl' fun q' hq' => hne ?_
      exact (Place.at.inj hq').1
    · rw [Copied.switch_other (by rw [← hi]; exact hy)]
      refine ih hl' ?_ fun z hz => hu z (List.mem_cons_of_mem _ hz)
      exact (List.mem_cons.mp hc).resolve_left fun h => hy (congrArg Copied.item h.symm)

/-- RELOCATION_SWITCH. -/
theorem relocationSwitch_spec {s : State} (hon : s.power.stage = .on) {sb : Nat} (hj : ∀ j ∈ s.media.jobs, j.kind ≠ .relocation sb) :
    ((∃ c ∈ s.media.copied, c.source = sb ∧ s.movesChannel c = true) → exec (.relocationSwitch sb) s = .next s)
    ∧ ((∀ c ∈ s.media.copied, c.source = sb → s.movesChannel c = false) →
      ∃ t, exec (.relocationSwitch sb) s = .next t ∧ t.office = s.office ∧ t.media.pages = s.media.pages
      ∧ (∀ c ∈ t.media.copied, c.source ≠ sb) ∧ (∀ c ∈ s.media.copied, c.source ≠ sb → c ∈ t.media.copied)
      ∧ t.media.units = s.media.units.map fun e => (s.media.copied.filter fun c => c.source == sb).foldl (fun e c => c.switch e) e) := by
  refine ⟨fun ⟨c, hc, hs, hm⟩ => (s.whenOn_of hon _).trans (if_pos ?_), fun hm => ?_⟩
  · rw [Bool.or_eq_true, List.any_eq_true, List.any_eq_true]
    exact .inr ⟨c, hc, by rw [beq_iff_eq.mpr hs, hm]; rfl⟩
  · have hno : ¬ ((s.media.jobs.any fun j => j.kind == .relocation sb) || (s.media.copied.any fun c => c.source == sb && s.movesChannel c)) = true := by
      rw [Bool.or_eq_true, List.any_eq_true, List.any_eq_true]
      rintro (⟨j, hj', hk⟩ | ⟨c, hc, hk⟩)
      · exact hj j hj' (beq_iff_eq.mp hk)
      · rw [Bool.and_eq_true, beq_iff_eq] at hk
        rw [hm c hc hk.1] at hk
        exact Bool.false_ne_true hk.2
    obtain ⟨u, hu⟩ : ∃ u, u = (s.media.copied.filter fun c => c.source == sb).foldl State.switchUnit s := ⟨_, rfl⟩
    obtain ⟨h1, h2, h3, h4⟩ := hu ▸ switchUnits_units (s.media.copied.filter fun c => c.source == sb) s
    obtain ⟨v, hv⟩ : ∃ v, v = u.modMedia fun m => { m with copied := m.copied.filter fun c => c.source != sb } := ⟨_, rfl⟩
    have hvo : v.office = s.office := (hv ▸ rfl : v.office = u.office).trans (State.office_of_sansMedia h4)
    have hvl : v.media.pages = s.media.pages ∧ v.media.copied = s.media.copied.filter (fun c => c.source != sb)
        ∧ v.media.units = u.media.units := by
      rw [hv]
      exact ⟨h2, congrArg (List.filter _) h3, rfl⟩
    have hend : ∀ t : State, t.desk = v.desk → t.office = s.office ∧ t.media.pages = s.media.pages
        ∧ (∀ c ∈ t.media.copied, c.source ≠ sb) ∧ (∀ c ∈ s.media.copied, c.source ≠ sb → c ∈ t.media.copied)
        ∧ t.media.units = s.media.units.map fun e => (s.media.copied.filter fun c => c.source == sb).foldl (fun e c => c.switch e) e := by
      intro t ht
      obtain ⟨-, k1, -, k2, -⟩ := desk_parts ht
      have k3 : t.media.copied = s.media.copied.filter (fun c => c.source != sb) :=
        (congrArg (fun x => x.2.2.2.2.2.2) ht).trans hvl.2.1
      refine ⟨(congrArg Prod.fst ht :).trans hvo, k2.trans hvl.1, fun c hc => ?_, fun c hc hs => ?_, k1.trans (hvl.2.2.trans h1)⟩
      · rw [k3] at hc
        exact bne_iff_ne.mp (List.mem_filter.mp hc).2
      · rw [k3]
        exact List.mem_filter.mpr ⟨hc, bne_iff_ne.mpr hs⟩
    have hx := (s.whenOn_of hon (execRelocationSwitch sb s)).symm
    replace hx : exec (.relocationSwitch sb) s = (match v.superblock sb with
        | none => .next v
        | some b => if (v.validItems b).isEmpty then
            .next ((b.doomed.foldl (fun (s : State) x => s.retireBlock (b.page x.1 x.2 0).blockAddr 1 0) v).journal b.group)
          else .next (v.journal b.group)) := by
      rw [hv, hu]
      exact (s.whenOn_of hon _).trans (if_neg hno)
    cases hb : v.superblock sb with
    | none =>
      rw [hb] at hx
      exact ⟨v, hx, hend v rfl⟩
    | some b =>
      rw [hb] at hx
      dsimp only at hx
      split at hx
      · exact ⟨_, hx, hend _ (foldl_keep State.desk _ (fun u x => u.retireBlock_desk _ 1 0) b.doomed v)⟩
      · exact ⟨_, hx, hend _ rfl⟩

end Sys2Proof.Machine
end

section
/-!
PROOFS. Chapter 16: the timeout of a partial row (O52).
-/

namespace Sys2Proof.Machine

open Sys2Proof.Safety

/-- A row starts: its job joins the others. -/
theorem State.startRow_spec (s : State) (b : Superblock) (row : Nat) (kind : JobKind) (members : List Member) :
    (s.startRow b row kind members).ledger = s.ledger ∧ (s.startRow b row kind members).media.superblocks = s.media.superblocks
      ∧ (s.startRow b row kind members).media.jobs
        = s.media.jobs ++ [{ id := s.media.nextJob, superblock := b.id, row := row, kind := kind, members := members }] := by
  unfold State.startRow
  extract_lets id s1 s2
  have h1 : s1.media.jobs = s.media.jobs ∧ s1.ledger = s.ledger ∧ s1.media.superblocks = s.media.superblocks := by
    unfold s1 State.recordRole
    split <;> exact ⟨rfl, rfl, rfl⟩
  obtain ⟨hj, hl, hsb⟩ := h1
  obtain ⟨t, ht⟩ : ∃ t, t = ((members.map (·.slot)).eraseDups).foldl (fun (s : State) k =>
    s.enqueue (slotPlace b.group b.set k).1 (slotPlace b.group b.set k).2
      { cls := 3, kind := .program id k ((members.filter (·.slot == k)).map (·.plane)) }) s2 := ⟨_, rfl⟩
  have hd : t.sansDies = s2.sansDies := ht ▸ foldl_keep State.sansDies _ (fun u k => u.enqueue_sansDies _ _ _) _ s2
  have h2 : t.ledger = s.ledger ∧ t.media.superblocks = s.media.superblocks ∧ t.media.jobs = s.media.jobs ++ [
      { id := s.media.nextJob, superblock := b.id, row := row, kind := kind, members := members }] := by
    refine ⟨(congrArg State.ledger hd :).trans hl, (congrArg (fun x : State => x.media.superblocks) hd :).trans hsb, ?_⟩
    rw [← hj]
    exact (congrArg (fun x : State => x.media.jobs) hd :)
  rw [ht] at h2
  exact h2
/-- The first piece of a row is one of its members. -/
theorem mem_rowMembers {b : Superblock} (hb : 2 < b.slots.length) (row : Nat) (x : Item × List Byte) (l : List (Item × List Byte)) :
    x.1 ∈ (rowMembers b row (x :: l)).map (·.item) := by
  unfold rowMembers
  extract_lets ds d zeros page q
  refine List.mem_map.mpr ⟨_, List.mem_flatMap.mpr ⟨0, List.mem_range.mpr (by decide), List.mem_append_left _ (List.mem_map.mpr
    ⟨(page 0 0, 0), List.mem_zipIdx_iff_getElem?.mpr ?_, rfl⟩)⟩, ?_⟩
  · have hd : 0 < d := Nat.sub_pos_of_lt hb
    simp [hd]
  · simp [page]

/-- PARTIAL_ROW_TIMEOUT with one block that waits. -/
theorem partialRowTimeout_spec {s s1 : State} (hon : s.power.stage = .on) {g : Nat} {x : WbBlock} {b : Superblock}
    (hdue : (s.media.groups.getD g {}).lastData + 2000 ≤ s.now) (hbuf : s.media.buffer = [x]) (hx : x.job = none) (hfn : x.fn < shadowBase)
    (hg : s.unitGroup x.fn x.nsid = some g) (ht : s.target g .writes (s.rotation g) = some (b, s1)) (hb : 2 < b.slots.length) :
    ∃ t, exec (.partialRowTimeout g) s = .next t ∧ t.office = s.office ∧ NoneEnds s t ∧ t.media.units = s.media.units
      ∧ t.media.buffer = [{ x with job := some s.media.nextJob }]
      ∧ ∃ j ∈ t.media.jobs, j.id = s.media.nextJob ∧ j.superblock = b.id ∧ j.kind = .writes
        ∧ .unit x.fn x.nsid (x.lba / 4) ∈ j.members.map (·.item) := by
  have hw : s.waitingUnits g false = [(x.fn, x.nsid, x.lba / 4)] := by
    unfold State.waitingUnits
    rw [hbuf, List.filter_cons_of_pos]
    · rfl
    · simp [hx, hg, hfn]
  have hd : 4 * b.d ≠ 0 := by
    have : 0 < b.d := Nat.sub_pos_of_lt hb
    omega
  obtain ⟨l, k, hs1⟩ := State.target_spec ht
  obtain ⟨v, hp, hvb, hvj⟩ : ∃ v, s.placeRow g false = some v ∧ v.media.buffer = [{ x with job := some s.media.nextJob }]
      ∧ ∃ j ∈ v.media.jobs, j.id = s.media.nextJob ∧ j.superblock = b.id ∧ j.kind = .writes
        ∧ .unit x.fn x.nsid (x.lba / 4) ∈ j.members.map (·.item) := by
    have hbs : s1.media.buffer = [x] ∧ s1.media.nextJob = s.media.nextJob ∧ s1.waitingUnits g false = [(x.fn, x.nsid, x.lba / 4)] := by
      rw [hs1]
      exact ⟨hbuf, rfl, hw⟩
    obtain ⟨hbuf1, hjob1, hw1⟩ := hbs
    unfold State.placeRow
    simp only [Bool.false_eq_true, if_false, ht, hw1, hjob1]
    rw [List.take_of_length_le (show [(x.fn, x.nsid, x.lba / 4)].length ≤ 4 * b.d from Nat.one_le_iff_ne_zero.mpr hd), List.map_singleton]
    generalize s1.unitData _ = data
    obtain ⟨u, hu⟩ : ∃ u, u = s1.modMedia fun m => { m with
      buffer := m.buffer.map fun y =>
        if y.job.isNone && [(x.fn, x.nsid, x.lba / 4)].contains (y.fn, y.nsid, y.lba / 4) then { y with job := some s.media.nextJob } else y
      rotate := m.rotate.set g ((b.set + 1) % s1.setsPerGroup) } := ⟨_, rfl⟩
    rw [← hu]
    obtain ⟨h1, -, h3⟩ := u.startRow_spec b b.nextRow .writes (rowMembers b b.nextRow [(.unit x.fn x.nsid (x.lba / 4), data)])
    have hub : u.media.buffer = [{ x with job := some s.media.nextJob }] ∧ u.media.nextJob = s.media.nextJob := by
      rw [hu]
      refine ⟨?_, hjob1⟩
      show s1.media.buffer.map _ = _
      rw [hbuf1]
      simp [hx]
    generalize u.startRow b b.nextRow .writes (rowMembers b b.nextRow [(.unit x.fn x.nsid (x.lba / 4), data)]) = w at h1 h3
    refine ⟨_, rfl, (congrArg (fun l => l.2.2.2.2.1) h1 : w.media.buffer = _).trans hub.1,
      { id := u.media.nextJob, superblock := b.id, row := b.nextRow, kind := .writes
        members := rowMembers b b.nextRow [(.unit x.fn x.nsid (x.lba / 4), data)] }, ?_⟩
    show _ ∈ w.media.jobs ∧ _
    rw [h3]
    exact ⟨List.mem_append_right _ (List.mem_singleton_self _), hub.2, rfl, rfl,
      mem_rowMembers hb b.nextRow (.unit x.fn x.nsid (x.lba / 4), data) []⟩
  have hf : s.fillRows g false true 1 = v := by
    unfold State.fillRows
    simp [hw, ht, hd, hp, State.fillRows]
  have hfill : s.fill g true = v := by
    unfold State.fill
    rw [hbuf]
    show (s.fillRows g false true 1).fillRows g true true 1 = v
    rw [hf]
    have hwv : v.waitingUnits g true = [] := by
      unfold State.waitingUnits
      rw [hvb]
      rfl
    unfold State.fillRows
    rw [hwv]
    rfl
  have hrows := s.fill_sansRows g true
  rw [hfill] at hrows
  refine ⟨v, ?_, (congrArg State.office hrows :), (congrArg (fun u : State => u.pcie.completions) hrows :),
    (congrArg (fun u : State => u.media.units) hrows :), hvb, hvj⟩
  exact ((s.whenOn_of hon _).trans (if_neg (by omega))).trans (congrArg Host.Outcome.next hfill)

end Sys2Proof.Machine
end

section
/-!
PROOFS. Chapters 15 and 16: operations stay on their dies while others come; the source reads of a relocation (O52).
-/

namespace Sys2Proof.Machine

open Sys2Proof.Safety

/-! ### An operation stays on its die -/

/-- A change of one die changes the dies of the same place, if any. -/
theorem State.die_modDie_cases (s : State) (c d i j : Nat) (f : Die → Die) : (s.modDie i j f).die c d = s.die c d
    ∨ (32 * i + j = 32 * c + d ∧ (s.modDie i j f).die c d = f (s.die c d)) := by
  by_cases he : 32 * i + j = 32 * c + d
  · by_cases hl : 32 * c + d < s.media.dies.length
    · refine .inr ⟨he, ?_⟩
      show (s.media.dies.modify (32 * i + j) f).getD (32 * c + d) {} = _
      rw [he]
      exact getD_modify_self _ _ _ _ hl
    · refine .inl ?_
      have hl' := Nat.le_of_not_lt hl
      exact (List.getD_eq_default _ _ ((List.length_modify ..).symm ▸ hl' : (s.media.dies.modify (32 * i + j) f).length ≤ _)).trans
        (List.getD_eq_default _ _ hl').symm
  · exact .inl (getD_modify_ne _ _ _ (fun h => he h.symm))
theorem State.die_congr (s : State) {c d i j : Nat} (h : 32 * i + j = 32 * c + d) : s.die i j = s.die c d := congrArg (s.media.dies.getD · {}) h

section
variable {s : State} {c d : Nat} {k : DieOpKind} (h : s.There c d k)
include h

theorem State.There.kick (i j : Nat) : (s.kick i j).There c d k := by
  unfold State.kick
  extract_lets x role ready
  split
  · exact h
  next hrun =>
  split
  · exact h
  next p _ =>
  extract_lets nest
  obtain he | ⟨hi, he⟩ := s.die_modDie_cases c d i j fun x => { x with
    queue := removeFirst (· == p) x.queue
    running := some { p with nested := nest, since := s.now, ran := 0 }
    nestedUsed := x.nestedUsed || nest }
  · rw [State.There, he]
    exact h
  · rw [State.There, he]
    obtain ⟨o, ho, hk⟩ | ⟨o, ho, -⟩ := h
    · by_cases hp : o = p
      · exact .inr ⟨_, rfl, by rw [← hk, hp]⟩
      · exact .inl ⟨o, mem_removeFirst_of_ne ho hp, hk⟩
    · have hx : x.running = some o := (congrArg Die.running (s.die_congr hi)).trans ho
      rw [hx] at hrun
      simp at hrun
theorem State.There.enqueue (i j : Nat) {o : DieOp} (ho : (∀ e : DieOp, e.kind = k → e.isRead = true) ∨ (o.suspends? && o.isRead) = false) :
    (s.enqueue i j o).There c d k := by
  unfold State.enqueue
  extract_lets late s1 s2
  have h1 : s1.There c d k := by
    obtain he | ⟨-, he⟩ := s.die_modDie_cases c d i j fun x => { x with queue := x.queue ++ [{ o with arrived := s.now, late := late }] }
    · rw [State.There, show s1.die c d = _ from he]
      exact h
    · rw [State.There, show s1.die c d = _ from he]
      exact h.imp (fun ⟨o, ho, hk⟩ => ⟨o, List.mem_append_left _ ho, hk⟩) id
  refine State.There.kick ?_ i j
  by_cases hs : (o.suspends? && o.isRead && s1.maySuspend i j) = true
  · rw [show s2 = s1.suspend i j from if_pos hs]
    obtain ⟨hs1, hs2⟩ := (Bool.and_eq_true _ _ ▸ hs : (_ = true) ∧ (_ = true))
    replace ho := ho.resolve_right (by rw [hs1]; decide)
    obtain he | ⟨hi, he⟩ := s1.die_modDie_cases c d i j fun x => { x with
      suspended := x.running.map fun o => { o with suspends := o.suspends + 1, ran := o.ran + (s1.now - o.since) }
      running := none }
    · rw [State.There, show (s1.suspend i j).die c d = _ from he]
      exact h1
    · rw [State.There, show (s1.suspend i j).die c d = _ from he]
      obtain h1 | ⟨e, he1, hk⟩ := h1
      · exact .inl h1
      · have hr : (s1.die i j).running = some e := (congrArg Die.running (s1.die_congr hi)).trans he1
        unfold State.maySuspend at hs2
        simp [hr, ho e hk] at hs2
  · rw [show s2 = s1 from if_neg hs]
    exact h1
/-- What is on a die is one of its operations. -/
theorem State.There.hasOp : s.hasOp c d (· == k) = true := by
  unfold State.hasOp
  extract_lets x
  rw [List.any_eq_true]
  obtain ⟨o, ho, hk⟩ | ⟨o, ho, hk⟩ := h
  · exact ⟨o, List.mem_append_left _ (List.mem_append_left _ ho), beq_iff_eq.mpr hk⟩
  · exact ⟨o, List.mem_append_left _ (List.mem_append_right _ (Option.mem_toList.mpr ho)), beq_iff_eq.mpr hk⟩

end

/-! ### Work that only queues reads -/

/-- The state without what the reads of a recovery or a relocation change: the dies, the recoveries, the last fault number. -/
def State.sansReads (s : State) : State :=
  { s with media := { s.media with dies := [], suspends := 0, recoveries := [] }, logs := { s.logs with faultNo := 0 } }
/-- The work leaves every read that is on a die, and the rest of the state. -/
structure State.Reads (s t : State) : Prop where
  frame : t.sansReads = s.sansReads
  length : t.media.dies.length = s.media.dies.length
  retired : ∀ c d, (t.die c d).retired = (s.die c d).retired
  stays : ∀ c d k, (∀ e : DieOp, e.kind = k → e.isRead = true) → s.There c d k → t.There c d k

theorem State.Reads.refl (s : State) : s.Reads s := ⟨rfl, rfl, fun _ _ => rfl, fun _ _ _ _ h => h⟩
theorem State.Reads.trans {s t u : State} (h : s.Reads t) (k : t.Reads u) : s.Reads u :=
  ⟨k.frame.trans h.frame, k.length.trans h.length, fun c d => (k.retired c d).trans (h.retired c d), fun c d x hx hs => k.stays c d x hx (h.stays c d x hx hs)⟩
/-- A change of recoveries and of the last fault number alone. -/
theorem State.Reads.of_dies {s t : State} (h : t.sansReads = s.sansReads) (hd : t.media.dies = s.media.dies) : s.Reads t :=
  ⟨h, congrArg List.length hd, fun c d => by rw [State.die, hd]; rfl, fun c d k _ hs => by rw [State.There, State.die, hd]; exact hs⟩
theorem State.kick_length (s : State) (c d : Nat) : (s.kick c d).media.dies.length = s.media.dies.length := by
  unfold State.kick
  extract_lets x role ready
  split
  · rfl
  split
  · rfl
  · exact List.length_modify ..
theorem State.enqueue_length (s : State) (c d : Nat) (o : DieOp) : (s.enqueue c d o).media.dies.length = s.media.dies.length := by
  unfold State.enqueue
  extract_lets late s1 s2
  have h1 : s1.media.dies.length = s.media.dies.length := List.length_modify ..
  have h2 : s2.media.dies.length = s1.media.dies.length :=
    ite_keep (fun x : State => x.media.dies.length) (List.length_modify .. : (s1.suspend c d).media.dies.length = _) rfl
  exact (s2.kick_length c d).trans (h2.trans h1)
theorem State.modDie_retired (s : State) (i j c d : Nat) {f : Die → Die} (hf : ∀ x, (f x).retired = x.retired) :
    ((s.modDie i j f).die c d).retired = (s.die c d).retired := by
  obtain h | ⟨-, h⟩ := s.die_modDie_cases c d i j f
  · rw [h]
  · rw [h, hf]
theorem State.kick_retired (s : State) (i j c d : Nat) : ((s.kick i j).die c d).retired = (s.die c d).retired := by
  unfold State.kick
  extract_lets x role ready
  split
  · rfl
  split
  · rfl
  · exact s.modDie_retired i j c d fun _ => rfl
theorem State.enqueue_retired (s : State) (i j : Nat) (o : DieOp) (c d : Nat) : ((s.enqueue i j o).die c d).retired = (s.die c d).retired := by
  unfold State.enqueue
  extract_lets late s1 s2
  have h1 : (s1.die c d).retired = (s.die c d).retired := s.modDie_retired i j c d fun _ => rfl
  have h2 : (s2.die c d).retired = (s1.die c d).retired :=
    ite_keep (fun x : State => (x.die c d).retired)
      (s1.modDie_retired i j c d (fun _ => rfl) : ((s1.suspend i j).die c d).retired = _) rfl
  exact (s2.kick_retired i j c d).trans (h2.trans h1)
theorem State.enqueue_reads (s : State) (c d : Nat) (o : DieOp) : s.Reads (s.enqueue c d o) := by
  refine ⟨(congrArg State.sansReads (s.enqueue_sansDies c d o) :), s.enqueue_length c d o, s.enqueue_retired c d o,
    fun i j k hk h => h.enqueue c d (.inl hk)⟩
theorem State.Reads.foldl {α : Type} (f : State → α → State) (hf : ∀ s : State, 500 ≤ s.media.budgetUs → ∀ a, s.Reads (f s a)) (l : List α) {s : State}
    (hb : 500 ≤ s.media.budgetUs) : s.Reads (l.foldl f s) := by
  induction l generalizing s with
  | nil => exact .refl s
  | cons a l ih =>
    have h := hf s hb a
    exact h.trans (ih (by rw [show (f s a).media.budgetUs = _ from (congrArg (fun x : State => x.media.budgetUs) h.frame :)]; exact hb))

/-- A rebuild whose readers all may have one begins with reads. -/
theorem State.nextRecovery_reads {s : State} (hb : 500 ≤ s.media.budgetUs) {r : Recovery} (hr : r.rebuilding = true) {sb : Nat}
    (hx : r.readers = [.source sb]) (hs : r.since = s.now) : s.Reads (s.nextRecovery r) := by
  unfold State.nextRecovery
  extract_lets spent budget sets
  have hres : spent + s.rebuildReserve ≤ budget := by
    have : s.rebuildReserve ≤ 2000 := by
      unfold State.rebuildReserve
      split <;> decide
    omega
  rw [if_neg (by simp [hr]), if_pos (by simp [hx, Reader.mayRebuild, hres])]
  have hpart : r.readers.partition (·.mayRebuild) = ([.source sb], []) := by rw [hx]; rfl
  simp only [hpart, List.foldl_nil]
  unfold State.startRebuild
  extract_lets mates t
  have ht : s.Reads t := .of_dies rfl rfl
  refine ht.trans (State.Reads.foldl _ (fun u _ m => u.enqueue_reads _ _ _) _ ?_)
  rw [show t.media.budgetUs = s.media.budgetUs from rfl]
  exact hb
/-- A recovery that starts with its rebuild, for a relocation. -/
theorem State.startRecovery_reads {s : State} (hb : 500 ≤ s.media.budgetUs) (a : PageAddr) (w sb : Nat) (found : Option Nat) :
    s.Reads (s.startRecovery a w (.source sb) true found) := by
  unfold State.startRecovery
  split
  · next r _ =>
    rw [if_neg (by simp [Reader.mayRebuild])]
    exact .of_dies rfl rfl
  · split
    next f u hu =>
    have h1 : s.Reads u := by
      cases found with
      | none => cases hu; exact .of_dies rfl rfl
      | some f => cases hu; exact .refl _
    extract_lets r v
    have h2 : u.Reads v := .of_dies rfl rfl
    have h12 := h1.trans h2
    refine h12.trans (State.nextRecovery_reads ?_ rfl rfl rfl)
    rw [show v.media.budgetUs = s.media.budgetUs from (congrArg (fun x : State => x.media.budgetUs) h12.frame :)]
    exact hb
theorem State.sourceFails_reads {s : State} (hb : 500 ≤ s.media.budgetUs) (sb slot row : Nat) (planes : List Nat) (bad : Nat → Nat → Bool)
    (found : Option Nat) : s.Reads (s.sourceFails sb slot row planes bad true found) := by
  unfold State.sourceFails
  split
  · exact .refl s
  · refine State.Reads.foldl _ (fun u hu p => State.Reads.foldl _ (fun v hv w => ?_) _ hu) _ hb
    split
    · exact State.startRecovery_reads hv _ _ _ _
    · exact .refl v
theorem State.Reads.dieLive {s t : State} (h : s.Reads t) (c d : Nat) : t.dieLive c d = s.dieLive c d := by
  have hc : t.media.channels = s.media.channels := (congrArg (fun x : State => x.media.channels) h.frame :)
  rw [State.dieLive, h.retired, State.channel, hc]
  rfl

/-! ### The source reads of a superblock -/

/-- The source reads of one page of a superblock's slot: of a live die, at class 5; of a dead one they fail. -/
def State.readSource (s : State) (b : Superblock) (pages : List (Nat × Nat × Nat)) (x : Nat × Nat) : State :=
  let planes := ((pages.filter fun l => l.1 == x.1 && l.2.1 == x.2).map (·.2.2)).eraseDups
  let c := slotPlace b.group b.set x.2
  if s.dieLive c.1 c.2 then s.enqueue c.1 c.2 { cls := 5, kind := .sourceRead b.id x.2 x.1 planes }
  else s.sourceFails b.id x.2 x.1 planes (fun _ _ => true) true (s.deadFault c.1 c.2)
theorem State.readSource_reads {s : State} (hb : 500 ≤ s.media.budgetUs) (b : Superblock) (pages : List (Nat × Nat × Nat)) (x : Nat × Nat) :
    s.Reads (s.readSource b pages x) := by
  unfold State.readSource
  extract_lets planes c
  split
  · exact s.enqueue_reads _ _ _
  · exact State.sourceFails_reads hb _ _ _ _ _ _
theorem State.readSources_eq (s : State) (b : Superblock) (worn : Bool) : s.readSources b worn
    = let pages := (s.validItems b).map fun x => b.locate x.2
      ((pages.map fun l => (l.1, l.2.1)).eraseDups).foldl (fun (s : State) x => s.readSource b pages x)
        (s.modSuperblock b.id fun y => { y with sourcing := some worn }) := rfl
/-- The source reads mark the superblock, and leave a read on each live die of its valid pages. -/
theorem State.readSources_spec {s : State} (hb : 500 ≤ s.media.budgetUs) (b : Superblock) (worn : Bool) :
    (s.modSuperblock b.id fun y => { y with sourcing := some worn }).Reads (s.readSources b worn)
    ∧ ∀ x ∈ s.validItems b, let l := b.locate x.2; let p := slotPlace b.group b.set l.2.1
        s.dieLive p.1 p.2 = true → 32 * p.1 + p.2 < s.media.dies.length →
          ∃ planes, l.2.2 ∈ planes ∧ (s.readSources b worn).hasOp p.1 p.2 (· == .sourceRead b.id l.2.1 l.1 planes) = true := by
  rw [State.readSources_eq]
  extract_lets pages
  obtain ⟨u, hu⟩ : ∃ u, u = s.modSuperblock b.id fun y => { y with sourcing := some worn } := ⟨_, rfl⟩
  have hub : 500 ≤ u.media.budgetUs := by rw [hu]; exact hb
  have hud : u.media.dies = s.media.dies := by rw [hu]; rfl
  have huc : u.media.channels = s.media.channels := by rw [hu]; rfl
  rw [← hu]
  have hall (l : List (Nat × Nat)) {v : State} (hv : 500 ≤ v.media.budgetUs) : v.Reads (l.foldl (fun (s : State) x => s.readSource b pages x) v) :=
    State.Reads.foldl _ (fun w hw x => State.readSource_reads hw b pages x) l hv
  refine ⟨hall _ hub, ?_⟩
  intro x hx l p hlive hlen
  have hpage : l ∈ pages := List.mem_map.mpr ⟨x, hx, rfl⟩
  have hmem : (l.1, l.2.1) ∈ (pages.map fun l => (l.1, l.2.1)).eraseDups := by
    rw [List.mem_eraseDups]
    exact List.mem_map.mpr ⟨l, hpage, rfl⟩
  obtain ⟨l1, l2, h12⟩ := List.append_of_mem hmem
  rw [h12, List.foldl_append, List.foldl_cons]
  generalize hv : l1.foldl (fun (s : State) x => s.readSource b pages x) u = v
  have h1 : u.Reads v := hv ▸ hall l1 hub
  have hvb : 500 ≤ v.media.budgetUs := by
    rw [show v.media.budgetUs = u.media.budgetUs from (congrArg (fun x : State => x.media.budgetUs) h1.frame :)]
    exact hub
  have hvl : v.dieLive p.1 p.2 = true := by
    rw [h1.dieLive, State.dieLive, State.die, State.channel, hud, huc]
    exact hlive
  obtain ⟨planes, hplanes⟩ : ∃ planes, planes = ((pages.filter fun k => k.1 == l.1 && k.2.1 == l.2.1).map (·.2.2)).eraseDups := ⟨_, rfl⟩
  refine ⟨planes, ?_, ?_⟩
  · rw [hplanes, List.mem_eraseDups]
    exact List.mem_map.mpr ⟨l, List.mem_filter.mpr ⟨hpage, by simp⟩, rfl⟩
  · have hstep : v.readSource b pages (l.1, l.2.1) = v.enqueue p.1 p.2 { cls := 5, kind := .sourceRead b.id l.2.1 l.1 planes } := by
      rw [hplanes]
      exact if_pos hvl
    have h2 := State.readSource_reads hvb b pages (l.1, l.2.1)
    have h3 := hall l2 (v := v.readSource b pages (l.1, l.2.1)) (by
      rw [show (v.readSource b pages (l.1, l.2.1)).media.budgetUs = v.media.budgetUs from
        (congrArg (fun x : State => x.media.budgetUs) h2.frame :)]
      exact hvb)
    refine State.There.hasOp (h3.stays _ _ _ (fun e he => ?_) ?_)
    · simp [DieOp.isRead, DieOp.isProgram, DieOp.isErase, he]
    · rw [hstep]
      exact State.enqueue_there (by rw [h1.length, hud]; exact hlen) _

end Sys2Proof.Machine
end

section
/-!
PROOFS. Chapter 16: the copies of a relocation, collection and levelling (O52).
-/

namespace Sys2Proof.Machine

open Sys2Proof.Safety

/-! ### What the placing of copies leaves -/

/-- A group without the role that it was last written in. -/
def Group.unrecorded (x : Group) : Group := { x with recorded := none }
/-- What the placing of copies leaves: the desk, the media log and the groups, but for the role they were last written in. -/
def State.rowDesk (s : State) := (s.desk, s.logs.c2, s.media.groups.map Group.unrecorded)

theorem rowDesk_group {s t : State} (h : t.rowDesk = s.rowDesk) (g : Nat) :
    (t.media.groups.getD g {}).unrecorded = (s.media.groups.getD g {}).unrecorded := by
  have hg : t.media.groups.map Group.unrecorded = s.media.groups.map Group.unrecorded := congrArg (·.2.2) h
  have hd : ∀ l : List Group, (l.getD g {}).unrecorded = (l.map Group.unrecorded).getD g {} := fun l => by
    rw [List.getD_eq_getElem?_getD, List.getD_eq_getElem?_getD, List.getElem?_map]
    cases l[g]? <;> rfl
  rw [hd, hd, hg]
theorem State.recordRole_rowDesk (s : State) (g : Nat) : (s.recordRole g).rowDesk = s.rowDesk := by
  unfold State.recordRole
  refine ite_keep State.rowDesk ?_ rfl
  have hm (l : List Group) (f : Group → Group) (hf : ∀ x, (f x).unrecorded = x.unrecorded) : (l.modify g f).map Group.unrecorded = l.map Group.unrecorded := by
    refine List.ext_getElem? fun i => ?_
    rw [List.getElem?_map, List.getElem?_map, List.getElem?_modify]
    cases l[i]? with
    | none => rfl
    | some x =>
      show some _ = some _
      split
      · exact congrArg some (hf x)
      · rfl
  exact Prod.ext rfl (Prod.ext rfl (hm _ _ fun _ => rfl))
theorem State.enqueue_rowDesk (s : State) (c d : Nat) (o : DieOp) : (s.enqueue c d o).rowDesk = s.rowDesk :=
  (congrArg State.rowDesk (s.enqueue_sansDies c d o) :)
theorem State.startRow_rowDesk (s : State) (b : Superblock) (row : Nat) (kind : JobKind) (members : List Member) :
    (s.startRow b row kind members).rowDesk = s.rowDesk := by
  unfold State.startRow
  extract_lets id s1 s2
  have h2 : s2.rowDesk = s.rowDesk := (rfl : s2.rowDesk = s1.rowDesk).trans (s.recordRole_rowDesk b.group)
  exact (foldl_keep State.rowDesk _ (fun u k => u.enqueue_rowDesk _ _ _) _ s2).trans h2
theorem State.advance_rowDesk (s : State) (id : Nat) : (s.advance id).rowDesk = s.rowDesk := rfl
/-- The rows of copies keep the rest, and the jobs that wait. -/
theorem State.copyRows_spec (src : Nat) (f : Nat) (s : State) (b : Superblock) (items : List (Item × List Byte)) :
    (s.copyRows b src f items).rowDesk = s.rowDesk ∧ ∀ j ∈ s.media.jobs, j ∈ (s.copyRows b src f items).media.jobs := by
  induction f generalizing s b items with
  | zero => exact ⟨rfl, fun _ h => h⟩
  | succ f ih =>
    unfold State.copyRows
    split
    · exact ⟨rfl, fun _ h => h⟩
    split
    · exact ⟨rfl, fun _ h => h⟩
    next b' _ =>
    split
    · exact ⟨rfl, fun _ h => h⟩
    dsimp only
    have hu := s.startRow_rowDesk b' b'.nextRow (.relocation src) (rowMembers b' b'.nextRow (items.take (4 * b'.d)))
    have hj := (s.startRow_spec b' b'.nextRow (.relocation src) (rowMembers b' b'.nextRow (items.take (4 * b'.d)))).2.2
    generalize s.startRow b' b'.nextRow (.relocation src) (rowMembers b' b'.nextRow (items.take (4 * b'.d))) = u at hu hj
    obtain ⟨h1, h2⟩ := ih (u.advance b'.id) b' (items.drop (4 * b'.d))
    refine ⟨h1.trans ((u.advance_rowDesk b'.id).trans hu), fun j h => h2 j ?_⟩
    show j ∈ u.media.jobs
    rw [hj]
    exact List.mem_append_left _ h
/-- The first row of copies carries the first of them. -/
theorem State.copyRows_first {s : State} {b : Superblock} (hb : s.superblock b.id = some b) (ho : b.closed = false) (h2 : 2 < b.slots.length)
    (src f : Nat) (x : Item × List Byte) (l : List (Item × List Byte)) : ∃ j ∈ (s.copyRows b src (f + 1) (x :: l)).media.jobs,
      j.kind = .relocation src ∧ j.superblock = b.id ∧ j.row = b.nextRow ∧ x.1 ∈ j.members.map (·.item) := by
  unfold State.copyRows
  simp only [List.isEmpty_cons, Bool.false_eq_true, if_false, hb, ho]
  have hd : 4 * b.d = 4 * b.d - 1 + 1 := by
    have : 0 < b.d := Nat.sub_pos_of_lt h2
    omega
  have hrow : (x :: l).take (4 * b.d) = x :: l.take (4 * b.d - 1) := by rw [hd]; rfl
  rw [hrow]
  obtain ⟨u, hu⟩ : ∃ u, u = s.startRow b b.nextRow (.relocation src) (rowMembers b b.nextRow (x :: l.take (4 * b.d - 1))) := ⟨_, rfl⟩
  obtain ⟨-, -, h3⟩ := s.startRow_spec b b.nextRow (.relocation src) (rowMembers b b.nextRow (x :: l.take (4 * b.d - 1)))
  rw [← hu] at h3 ⊢
  obtain ⟨-, hk⟩ := State.copyRows_spec src f (u.advance b.id) b ((x :: l).drop (4 * b.d))
  refine ⟨{ id := s.media.nextJob, superblock := b.id, row := b.nextRow, kind := .relocation src
            members := rowMembers b b.nextRow (x :: l.take (4 * b.d - 1)) }, hk _ ?_, rfl, rfl, rfl, mem_rowMembers h2 _ _ _⟩
  show _ ∈ u.media.jobs
  rw [h3]
  exact List.mem_append_right _ (List.mem_singleton_self _)

/-! ### The mark of a relocation's source -/

/-- The mark of a superblock as the source of a relocation. -/
def Superblock.mark (id : Nat) (w : Option Bool) (b : Superblock) : Superblock := if b.id = id then { b with sourcing := w } else b
theorem Superblock.mark_cases (id : Nat) (w : Option Bool) (b : Superblock) : ∃ v, b.mark id w = { b with sourcing := v } := by
  unfold Superblock.mark
  split
  · exact ⟨w, rfl⟩
  · exact ⟨b.sourcing, rfl⟩
/-- A superblock is marked. -/
def State.markSource (s : State) (id : Nat) (w : Option Bool) : State := s.modSuperblock id fun y => { y with sourcing := w }
theorem State.markSource_superblocks (s : State) (id : Nat) (w : Option Bool) :
    (s.markSource id w).media.superblocks = s.media.superblocks.map (Superblock.mark id w) := rfl
theorem State.markSource_superblock (s : State) (id : Nat) (w : Option Bool) (sb : Nat) :
    (s.markSource id w).superblock sb = (s.superblock sb).map (Superblock.mark id w) := by
  unfold State.superblock
  rw [s.markSource_superblocks, List.find?_map]
  refine congrArg (Option.map _) (congrArg (List.find? · _) (funext fun b => ?_))
  obtain ⟨v, hv⟩ := b.mark_cases id w
  simp [hv]
/-- The mark leaves which superblock would be opened. -/
theorem State.markSource_opens {s s1 : State} (id : Nat) (w : Option Bool) {g j : Nat} {use : SbUse} {most : Bool} {new : Superblock}
    (h : s.openSuperblock g j use most = some (new, s1)) : (s.markSource id w).openSuperblock g j use most
      = some (new, (s.markSource id w).modMedia fun m => { m with superblocks := m.superblocks ++ [new], nextSuperblock := m.nextSuperblock + 1 })
    ∧ new.id = s.media.nextSuperblock ∧ new.nextRow = 0 ∧ new.closed = false ∧ 8 ≤ new.slots.length := by
  have hh : ∀ a, ((s.markSource id w).holderOf a).isNone = (s.holderOf a).isNone := fun a => by
    unfold State.holderOf
    rw [s.markSource_superblocks, List.find?_map, Option.isNone_map]
    refine congrArg Option.isNone (congrArg (List.find? · _) (funext fun b => ?_))
    obtain ⟨v, hv⟩ := b.mark_cases id w
    simp [hv]
  have hf : (s.markSource id w).freeBlocks = s.freeBlocks := by
    funext c d p
    unfold State.freeBlocks
    refine List.filter_congr fun b _ => ?_
    dsimp only
    rw [hh]
    rfl
  have hc : (s.markSource id w).chooseBlocks = s.chooseBlocks := by
    funext g j slots most
    unfold State.chooseBlocks
    rw [hf]
    rfl
  unfold State.openSuperblock at h ⊢
  have hl : (s.markSource id w).liveSlots g j = s.liveSlots g j := rfl
  rw [hl, hc]
  generalize s.liveSlots g j = slots at h ⊢
  dsimp only at h ⊢
  by_cases h8 : slots.length < 8
  · rw [if_pos h8] at h
    cases h
  · rw [if_neg h8] at h ⊢
    cases hb : s.chooseBlocks g j slots most with
    | none => rw [hb] at h; cases h
    | some bs =>
      rw [hb] at h
      cases h
      exact ⟨rfl, rfl, rfl, rfl, Nat.le_of_not_lt h8⟩
/-- The content of a superblock does not depend on the mark, nor on a new superblock. -/
theorem State.markSource_content (s : State) (id : Nat) (w : Option Bool) (new : Superblock) (n : Nat) {sb q : Nat} {bs : List Byte}
    (h : s.content sb q = some bs) :
    ((s.markSource id w).modMedia fun m => { m with superblocks := m.superblocks ++ [new], nextSuperblock := n }).content sb q = some bs := by
  unfold State.content at h ⊢
  cases hb : s.superblock sb with
  | none => rw [hb] at h; cases h
  | some b =>
    have hb' : ((s.markSource id w).modMedia fun m => { m with superblocks := m.superblocks ++ [new], nextSuperblock := n }).superblock sb
        = some (b.mark id w) := by
      show (s.media.superblocks.map (Superblock.mark id w) ++ [new]).find? (·.id == sb) = _
      rw [List.find?_append, show (s.media.superblocks.map (Superblock.mark id w)).find? (·.id == sb) = some (b.mark id w) from
        (s.markSource_superblock id w sb).trans (congrArg (Option.map _) hb)]
      rfl
    rw [hb] at h
    rw [hb']
    obtain ⟨v, hv⟩ := b.mark_cases id w
    rw [hv]
    exact h

/-! ### The copies of a source -/

/-- What a relocation places leaves the rest. -/
theorem State.relocate_rowDesk {s : State} {dst : Option (Superblock × State)} (b : Superblock) (h : ∀ new t, dst = some (new, t) → t.rowDesk = s.rowDesk) :
    (s.relocate b dst).rowDesk = s.rowDesk := by
  unfold State.relocate
  extract_lets items
  cases dst with
  | none => rfl
  | some x =>
    obtain ⟨new, t⟩ := x
    exact (State.copyRows_spec _ _ _ _ _).1.trans (h new t rfl)
theorem State.copySourced_rowDesk (s : State) (b : Superblock) (w : Bool) : (s.copySourced b w).rowDesk = s.rowDesk := by
  unfold State.copySourced
  refine ite_keep State.rowDesk rfl ?_
  extract_lets u
  have hu : u.rowDesk = s.rowDesk := rfl
  split
  · refine (State.relocate_rowDesk b fun new t ht => ?_).trans hu
    unfold State.openSuperblock at ht
    extract_lets slots at ht
    split at ht
    · cases ht
    split at ht
    · cases ht
    · cases ht
      rfl
  · refine (State.relocate_rowDesk b fun new t ht => ?_).trans hu
    obtain ⟨l, k, rfl⟩ := State.target_spec ht
    rfl
/-- The copies of a source of an INDEX group go to a new superblock, from its first row on. -/
theorem State.copySourced_copies {s s1 : State} (hids : ∀ b ∈ s.media.superblocks, b.id < s.media.nextSuperblock) {b new : Superblock} {w : Bool}
    {x : Item × Nat} {bs : List Byte} (hr : s.sourcesRun b.id = false) (hrole : s.role b.group = some .index) (hm : s.groupMapped b.group = false)
    (ho : s.openSuperblock b.group b.set .relocation w = some (new, s1)) (hx : (s.validItems b).head? = some x)
    (hc : s.content b.id x.2 = some bs) : ∃ j ∈ (s.copySourced b w).media.jobs, j.kind = .relocation b.id ∧ j.superblock = new.id
      ∧ j.row = 0 ∧ x.1 ∈ j.members.map (·.item) := by
  obtain ⟨hopen, hid, hrow, hclosed, h8⟩ := State.markSource_opens b.id none ho
  obtain ⟨u, hu⟩ : ∃ u, u = s.markSource b.id none := ⟨_, rfl⟩
  obtain ⟨v, hv⟩ : ∃ v, v = u.modMedia fun m => { m with superblocks := m.superblocks ++ [new], nextSuperblock := m.nextSuperblock + 1 } := ⟨_, rfl⟩
  rw [← hu, ← hv] at hopen
  have hcont : v.content b.id x.2 = some bs := by
    rw [hv, hu]
    exact s.markSource_content b.id none new _ hc
  obtain ⟨l, hl⟩ : ∃ l, s.validItems b = x :: l := by
    cases hl : s.validItems b with
    | nil => rw [hl] at hx; cases hx
    | cons y l => rw [hl] at hx; cases hx; exact ⟨l, rfl⟩
  have hul : u.validItems b = x :: l := by rw [hu]; exact hl
  have hvm : v.groupMapped b.group = false := by rw [hv, hu]; exact hm
  have hvs : v.superblock new.id = some new := by
    rw [hv, hu]
    show (s.media.superblocks.map (Superblock.mark b.id none) ++ [new]).find? (·.id == new.id) = some new
    rw [List.find?_append, show (s.media.superblocks.map (Superblock.mark b.id none)).find? (·.id == new.id) = none from ?_]
    · simp
    · rw [List.find?_eq_none]
      intro y hy
      obtain ⟨z, hz, rfl⟩ := List.mem_map.mp hy
      obtain ⟨k, hk⟩ := z.mark_cases b.id none
      have := hids z hz
      simp only [hk, beq_iff_eq]
      omega
  have hcopy : s.copySourced b w = u.relocate b (some (new, v)) := by
    unfold State.copySourced
    rw [if_neg (by simp [hr])]
    have hgen : ∀ t, t = s.markSource b.id none → (if t.role b.group = some .index then
        t.relocate b (t.openSuperblock b.group b.set .relocation w)
      else t.relocate b (t.target b.group .relocation (t.rotation b.group))) = u.relocate b (some (new, v)) := fun t ht => by
      rw [ht, ← hu, if_pos (by rw [hu]; exact hrole), hopen]
    exact hgen _ rfl
  obtain ⟨m, hplaced⟩ : ∃ m, u.relocate b (some (new, v)) = v.copyRows new b.id (m.length + 1) ((x.1, bs) :: m) := by
    unfold State.relocate
    simp only [hul, hvm, Bool.and_false, Bool.false_and, Bool.false_eq_true, if_false, List.filterMap_cons, hcont, Option.map_some, List.map_cons,
      List.length_cons]
    exact ⟨_, rfl⟩
  rw [hcopy, hplaced, ← hrow]
  exact State.copyRows_first hvs hclosed (by omega) b.id m.length (x.1, bs) m

end Sys2Proof.Machine
end

section
/-!
PROOFS. Chapter 16: collection, levelling and the erase of a superblock (O52).
-/

namespace Sys2Proof.Machine

open Sys2Proof.Safety

/-! ### Source reads and copies, as the statement says them -/

/-- The source reads of a superblock are under way. -/
def State.Sourcing (s t : State) (b : Superblock) (worn : Bool) : Prop :=
  (t.superblock b.id).map (·.sourcing) = some (some worn)
    ∧ ∀ x ∈ s.validItems b, let l := b.locate x.2; let p := slotPlace b.group b.set l.2.1
      s.dieLive p.1 p.2 = true → 32 * p.1 + p.2 < s.media.dies.length →
        ∃ planes, l.2.2 ∈ planes ∧ t.hasOp p.1 p.2 (· == .sourceRead b.id l.2.1 l.1 planes) = true
/-- The copies of a superblock go to a new one, from its first row on. -/
def State.Copying (s t : State) (b new : Superblock) : Prop := ∃ j ∈ t.media.jobs, j.kind = .relocation b.id ∧ j.superblock = new.id
  ∧ j.row = 0 ∧ ∀ x, (s.validItems b).head? = some x → x.1 ∈ j.members.map (·.item)

theorem State.Reads.rowDesk {s t : State} (h : s.Reads t) : t.rowDesk = s.rowDesk := (congrArg State.rowDesk h.frame :)
theorem State.readSources_rowDesk {s : State} (hb : 500 ≤ s.media.budgetUs) (b : Superblock) (worn : Bool) :
    (s.readSources b worn).rowDesk = s.rowDesk :=
  (State.readSources_spec hb b worn).1.rowDesk.trans (rfl : (s.markSource b.id (some worn)).rowDesk = s.rowDesk)
theorem State.readSources_sourcing {s : State} (hb : 500 ≤ s.media.budgetUs) {b : Superblock} (hm : b ∈ s.media.superblocks) (worn : Bool) :
    s.Sourcing (s.readSources b worn) b worn := by
  obtain ⟨h1, h2⟩ := State.readSources_spec hb b worn
  refine ⟨?_, h2⟩
  have hsb : (s.readSources b worn).superblock b.id = (s.markSource b.id (some worn)).superblock b.id :=
    (congrArg (fun x : State => x.superblock b.id) h1.frame :)
  rw [hsb, s.markSource_superblock]
  cases hf : s.superblock b.id with
  | none => exact absurd (List.find?_eq_none.mp hf b hm) (by simp)
  | some y =>
    have hy : y.id = b.id := beq_iff_eq.mp (List.find?_some (p := fun x : Superblock => x.id == b.id) hf)
    simp [Superblock.mark, hy]
theorem State.copySourced_copying {s s1 : State} (hids : ∀ b ∈ s.media.superblocks, b.id < s.media.nextSuperblock) {b new : Superblock} {w : Bool}
    {x : Item × Nat} {bs : List Byte} (hr : s.sourcesRun b.id = false) (hrole : s.role b.group = some .index) (hm : s.groupMapped b.group = false)
    (ho : s.openSuperblock b.group b.set .relocation w = some (new, s1)) (hx : (s.validItems b).head? = some x)
    (hc : s.content b.id x.2 = some bs) : s.Copying (s.copySourced b w) b new := by
  obtain ⟨j, hj, hk, hsb, hrow, hi⟩ := State.copySourced_copies hids hr hrole hm ho hx hc
  refine ⟨j, hj, hk, hsb, hrow, fun y hy => ?_⟩
  rw [hx] at hy
  cases hy
  exact hi

/-! ### Garbage collection -/

/-- What collection does once it has judged the level of a group. -/
def State.collect (s : State) (g new : Nat) : State :=
  let mine := s.media.superblocks.filter fun b => b.group == g && s.idleSuperblock b
  let queued := pickBy (·.closedSeq) false (mine.filter (·.refresh))
  let victim := if new = 0 then none else
    pickBy (fun b => (s.validItems b).length) false ((mine.filter (·.closed)).mergeSort fun a b => decide (a.closedSeq ≤ b.closedSeq))
  match s.sourced g false, queued.or victim with
  | some b, _ => s.copySourced b false
  | none, none => s
  | none, some b => s.readSources b false
theorem State.collect_rowDesk {s : State} (hb : 500 ≤ s.media.budgetUs) (g new : Nat) : (s.collect g new).rowDesk = s.rowDesk := by
  unfold State.collect
  extract_lets mine queued victim
  split
  · exact s.copySourced_rowDesk _ _
  · rfl
  · exact State.readSources_rowDesk hb _ _
theorem State.collect_sources {s : State} {g new : Nat} {b : Superblock} (hn : s.sourced g false = none)
    (hq : (s.media.superblocks.filter fun y => y.group == g && s.idleSuperblock y && y.refresh) = [b]) :
    s.collect g new = s.readSources b false ∧ b ∈ s.media.superblocks := by
  have hmem : b ∈ s.media.superblocks := (List.mem_filter.mp (hq ▸ List.mem_singleton_self b)).1
  refine ⟨?_, hmem⟩
  unfold State.collect
  extract_lets mine queued victim
  have hqueued : queued = some b := by
    have : mine.filter (·.refresh) = [b] := by
      rw [List.filter_filter, ← hq]
      exact List.filter_congr fun y _ => Bool.and_comm _ _
    exact congrArg (pickBy (·.closedSeq) false) this
  rw [hn, hqueued]
  rfl
/-- The superblock that would be opened. -/
theorem State.openSuperblock_fst (s : State) (g j : Nat) (use : SbUse) (most : Bool) : (s.openSuperblock g j use most).map (·.1)
    = if (s.liveSlots g j).length < 8 then none else (s.chooseBlocks g j (s.liveSlots g j) most).map fun bs =>
      { id := s.media.nextSuperblock, group := g, set := j, use := use, slots := s.liveSlots g j, blocks := bs } := by
  unfold State.openSuperblock
  extract_lets slots
  by_cases h : slots.length < 8
  · rw [if_pos h, if_pos h]
    rfl
  · rw [if_neg h, if_neg h]
    cases s.chooseBlocks g j slots most with
    | none => rfl
    | some bs => rfl
/-- The state without what the judgement of a level changes: the groups, the logs, and what a log entry tells the host. -/
def State.sansLevels (s : State) : State := { s with logs := {}, pcie := {}, host := {}, media := { s.media with groups := [] } }
/-- A group's collection level is judged: its state, and an entry of the media log where it becomes critical. -/
def State.judged (s : State) (g new : Nat) : State :=
  let u := s.modGroup g fun g => { g with gcState := new }
  if new = 3 && (s.media.groups.getD g {}).gcState != 3 then u.mediaLog { kind := 0x0D, group := g } (fault := false) else u
theorem State.judged_spec (s : State) {g : Nat} (hg : g < s.media.groups.length) (new : Nat) :
    (s.judged g new).sansLevels = s.sansLevels ∧ ((s.judged g new).media.groups.getD g {}).gcState = new
      ∧ (s.judged g new).logs.c2.nextSeq = s.logs.c2.nextSeq + (if new = 3 ∧ (s.media.groups.getD g {}).gcState ≠ 3 then 1 else 0) := by
  unfold State.judged
  extract_lets u
  have hu : (u.media.groups.getD g {}).gcState = new := congrArg Group.gcState (getD_modify_self _ _ _ _ hg)
  have hl : u.sansLevels = s.sansLevels := rfl
  by_cases hc : new = 3 ∧ (s.media.groups.getD g {}).gcState ≠ 3
  · rw [if_pos hc, if_pos (by simpa using hc)]
    have hf := u.log_frame 0xC2 ({ kind := 0x0D, group := g } : MediaEntry).body false 0 true
    refine ⟨(congrArg State.sansLevels hf :).trans hl, ?_, ?_⟩
    · exact (congrArg (fun x : State => (x.media.groups.getD g {}).gcState) hf :).trans hu
    · exact u.log_nextSeq (page := 0xC2) (by simp) _ _ _ _
  · rw [if_neg hc, if_neg (by simpa using hc)]
    exact ⟨hl, hu, rfl⟩
theorem execGarbageCollection_of {s : State} (hon : s.power.stage = .on) (g : Nat) : exec (.garbageCollection g) s
    = .next ((s.judged g (gcNext (s.media.groups.getD g {}).gcState (s.freeLevel g))).collect g
        (gcNext (s.media.groups.getD g {}).gcState (s.freeLevel g))) := by
  refine (s.whenOn_of hon _).trans ?_
  have key (u : State) (n : Nat) : (
      let mine := u.media.superblocks.filter fun b => b.group == g && u.idleSuperblock b
      let queued := pickBy (·.closedSeq) false (mine.filter (·.refresh))
      let victim := if n = 0 then none else
        pickBy (fun b => (u.validItems b).length) false ((mine.filter (·.closed)).mergeSort fun a b => decide (a.closedSeq ≤ b.closedSeq))
      match u.sourced g false, queued.or victim with
      | some b, _ => Host.Outcome.next (u.copySourced b false)
      | none, none => .next u
      | none, some b => .next (u.readSources b false) : Out) = .next (u.collect g n) := by
    unfold State.collect
    extract_lets mine queued victim
    generalize u.sourced g false = x
    generalize queued.or victim = y
    cases x with
    | some b => rfl
    | none => cases y with
      | none => rfl
      | some b => rfl
  exact key (s.judged g _) _
/-- GARBAGE_COLLECTION. -/
theorem garbageCollection_spec {s : State} (hon : s.power.stage = .on) {g : Nat} (hg : g < s.media.groups.length)
    (hids : ∀ b ∈ s.media.superblocks, b.id < s.media.nextSuperblock) (hb : 500 ≤ s.media.budgetUs) :
    let old := (s.media.groups.getD g {}).gcState
    ∃ t, exec (.garbageCollection g) s = .next t ∧ t.desk = s.desk
      ∧ (t.media.groups.getD g {}).gcState = gcNext old (s.freeLevel g)
      ∧ t.logs.c2.nextSeq = s.logs.c2.nextSeq + (if gcNext old (s.freeLevel g) = 3 ∧ old ≠ 3 then 1 else 0)
      ∧ (∀ b, s.sourced g false = none →
        (s.media.superblocks.filter fun y => y.group == g && s.idleSuperblock y && y.refresh) = [b] → s.Sourcing t b false)
      ∧ ∀ b new s1 x bs, s.sourced g false = some b → b.group = g → s.sourcesRun b.id = false → s.role g = some .index →
        s.groupMapped g = false →
        s.openSuperblock g b.set .relocation false = some (new, s1) → (s.validItems b).head? = some x →
        s.content b.id x.2 = some bs → s.Copying t b new := by
  intro old
  have hx := execGarbageCollection_of hon g
  obtain ⟨n, hn⟩ : ∃ n, n = gcNext old (s.freeLevel g) := ⟨_, rfl⟩
  obtain ⟨u, hu⟩ : ∃ u, u = s.judged g n := ⟨_, rfl⟩
  obtain ⟨hf, hstate, hlog⟩ := s.judged_spec hg n
  rw [← hn, ← hu] at hx
  rw [← hu] at hf hstate hlog
  rw [← hn]
  have hub : 500 ≤ u.media.budgetUs := by
    rw [show u.media.budgetUs = s.media.budgetUs from (congrArg (fun x : State => x.media.budgetUs) hf :)]
    exact hb
  have hrow : (u.collect g n).rowDesk = u.rowDesk := State.collect_rowDesk hub g n
  have hsourced : u.sourced g false = s.sourced g false := (congrArg (fun x : State => x.sourced g false) hf :)
  have hsb : u.media.superblocks = s.media.superblocks := (congrArg (fun x : State => x.media.superblocks) hf :)
  have hvalid : ∀ b, u.validItems b = s.validItems b := fun b => (congrArg (fun x : State => x.validItems b) hf :)
  refine ⟨_, hx, ?_, ?_, ?_, fun b hn1 hq => ?_, fun b new s1 x bs hs hbg hr hrole hm ho hv hc => ?_⟩
  · exact (congrArg Prod.fst hrow :).trans (congrArg State.desk hf :)
  · exact (congrArg Group.gcState (rowDesk_group hrow g)).trans hstate
  · exact (congrArg (fun x => x.2.1.nextSeq) hrow :).trans hlog
  · obtain ⟨hsrc, hmem⟩ := State.collect_sources (s := u) (g := g) (new := n) (b := b) (hsourced.trans hn1) (by
      rw [hsb, ← hq]
      exact List.filter_congr fun y _ => (congrArg (fun x : State => y.group == g && x.idleSuperblock y && y.refresh) hf :))
    obtain ⟨h1, h2⟩ := State.readSources_sourcing hub hmem false
    rw [hsrc]
    refine ⟨h1, fun x hx => ?_⟩
    intro l p hlive hlen
    exact h2 x (hvalid b ▸ hx) ((congrArg (fun x : State => x.dieLive p.1 p.2) hf :).trans hlive)
      (by rw [show u.media.dies = s.media.dies from (congrArg (fun x : State => x.media.dies) hf :)]; exact hlen)
  · have hcollect : u.collect g n = u.copySourced b false := by
      unfold State.collect
      rw [hsourced, hs]
    rw [hcollect]
    obtain ⟨r, hr1, hr2⟩ : ∃ r, u.openSuperblock b.group b.set .relocation false = some r ∧ r.1 = new := by
      have h : (u.openSuperblock g b.set .relocation false).map (·.1) = (s.openSuperblock g b.set .relocation false).map (·.1) := by
        rw [u.openSuperblock_fst, s.openSuperblock_fst]
        exact (congrArg (fun x : State => if (x.liveSlots g b.set).length < 8 then none
          else (x.chooseBlocks g b.set (x.liveSlots g b.set) false).map fun bs => ({ id := x.media.nextSuperblock, group := g, set := b.set
                                                                                     use := .relocation, slots := x.liveSlots g b.set
                                                                                     blocks := bs } : Superblock)) hf :)
      rw [ho, Option.map_some, Option.map_eq_some_iff] at h
      rw [hbg]
      exact h
    obtain ⟨new', u1⟩ := r
    cases hr2
    obtain ⟨j, h1, h2, h3, h4, h5⟩ := State.copySourced_copying (s := u) (x := x) (bs := bs) (by
        rw [hsb, show u.media.nextSuperblock = s.media.nextSuperblock from (congrArg (fun x : State => x.media.nextSuperblock) hf :)]
        exact hids)
      ((congrArg (fun x : State => x.sourcesRun b.id) hf :).trans hr)
      ((congrArg (fun x : State => x.role b.group) hf :).trans (hbg ▸ hrole))
      ((congrArg (fun x : State => x.groupMapped b.group) hf :).trans (hbg ▸ hm)) hr1 ((congrArg List.head? (hvalid b)).trans hv)
      ((congrArg (fun y : State => y.content b.id x.2) hf :).trans hc)
    exact ⟨j, h1, h2, h3, h4, fun y hy => h5 y ((congrArg List.head? (hvalid b)).trans hy)⟩

end Sys2Proof.Machine
end

section
/-!
PROOFS. Chapter 16: levelling and the erase of a superblock (O52).
-/

namespace Sys2Proof.Machine

open Sys2Proof.Safety

/-! ### Levelling -/

section
variable {s : State} (hon : s.power.stage = .on) {g : Nat}
include hon

/-- STATIC_LEVELLING, while a source of it is being copied. -/
theorem staticLevelling_sourced {b : Superblock} (h : s.sourced g true = some b) : exec (.staticLevelling g) s = .next (s.copySourced b true) := by
  refine (s.whenOn_of hon _).trans ?_
  rw [h]
theorem staticLevelling_idle (h : s.sourced g true = none) (hi : s.role g ≠ some .index ∨ ¬ (s.media.groups.getD g {}).levelledAt + 600000000 ≤ s.now) :
    exec (.staticLevelling g) s = .next s := by
  refine (s.whenOn_of hon _).trans ?_
  rw [h]
  refine if_pos ?_
  rw [Bool.or_eq_true, bne_iff_ne, decide_eq_true_eq]
  exact hi.imp id Nat.lt_of_not_le
theorem staticLevelling_even (h : s.sourced g true = none) (hr : s.role g = some .index)
    (hd : (s.media.groups.getD g {}).levelledAt + 600000000 ≤ s.now) (hw : (s.wearBounds g).1 - (s.wearBounds g).2 ≤ s.media.wearSpread) :
    exec (.staticLevelling g) s = .next (s.modGroup g fun x => { x with levelledAt := s.now }) := by
  refine (s.whenOn_of hon _).trans ?_
  rw [h]
  refine (if_neg ?_).trans (if_pos hw)
  rw [hr]
  simpa using hd
/-- The superblocks that levelling may take: closed, idle, with a block of the least wear. -/
def State.levelChoices (s : State) (g : Nat) : List Superblock := s.media.superblocks.filter fun b =>
  b.group == g && b.closed && s.idleSuperblock b && b.slots.any fun k => (b.slotBlocks k).any fun a => s.cyclesOf a == (s.wearBounds g).2
theorem staticLevelling_worn (h : s.sourced g true = none) (hr : s.role g = some .index)
    (hd : (s.media.groups.getD g {}).levelledAt + 600000000 ≤ s.now) (hw : s.media.wearSpread < (s.wearBounds g).1 - (s.wearBounds g).2) :
    exec (.staticLevelling g) s = .next (((pickBy (·.closedSeq) false (s.levelChoices g)).map
      ((s.modGroup g fun x => { x with levelledAt := s.now }).readSources · true)).getD (s.modGroup g fun x => { x with levelledAt := s.now })) := by
  refine (s.whenOn_of hon _).trans ?_
  rw [h]
  refine (if_neg (by rw [hr]; simpa using hd)).trans ((if_neg (by omega)).trans ?_)
  dsimp only
  have hc : (s.modGroup g fun x => { x with levelledAt := s.now }).levelChoices g = s.levelChoices g := rfl
  have key (o : Option Superblock) (u : State) : (match o with
      | none => Host.Outcome.next u
      | some b => .next (u.readSources b true) : Out) = .next ((o.map (u.readSources · true)).getD u) := by
    cases o with
    | none => rfl
    | some b => rfl
  exact key (pickBy (·.closedSeq) false (s.levelChoices g)) (s.modGroup g fun x => { x with levelledAt := s.now })
/-- STATIC_LEVELLING. -/
theorem staticLevelling_spec (hg : g < s.media.groups.length) (hids : ∀ b ∈ s.media.superblocks, b.id < s.media.nextSuperblock)
    (hb : 500 ≤ s.media.budgetUs) :
    let w := s.wearBounds g
    let due := (s.media.groups.getD g {}).levelledAt + 600000000 ≤ s.now
    (s.sourced g true = none →
      (s.role g ≠ some .index ∨ ¬ due → exec (.staticLevelling g) s = .next s)
      ∧ (s.role g = some .index → due → w.1 - w.2 ≤ s.media.wearSpread → exec (.staticLevelling g) s
          = .next (s.modGroup g fun x => { x with levelledAt := s.now }))
      ∧ (s.role g = some .index → due → s.media.wearSpread < w.1 - w.2 → ∃ t, exec (.staticLevelling g) s = .next t ∧ t.desk = s.desk
        ∧ (t.media.groups.getD g {}).levelledAt = s.now
        ∧ ∀ b, s.media.superblocks = [b] → b.group = g → b.closed = true → s.idleSuperblock b = true →
          (∃ k ∈ b.slots, ∃ a ∈ b.slotBlocks k, s.cyclesOf a = w.2) → s.Sourcing t b true))
    ∧ ∀ b, s.sourced g true = some b →
      (s.sourcesRun b.id = true → exec (.staticLevelling g) s = .next s)
      ∧ (s.sourcesRun b.id = false → ∃ t, exec (.staticLevelling g) s = .next t ∧ t.desk = s.desk
        ∧ ∀ new s1 x bs, b.group = g → s.role g = some .index → s.groupMapped g = false →
          s.openSuperblock g b.set .relocation true = some (new, s1) → (s.validItems b).head? = some x →
          s.content b.id x.2 = some bs → s.Copying t b new) := by
  intro w due
  refine ⟨fun hn => ⟨staticLevelling_idle hon hn, staticLevelling_even hon hn, fun hr hd hw => ?_⟩, fun b hs => ⟨fun hr => ?_, fun hr => ?_⟩⟩
  · have hx := staticLevelling_worn hon hn hr hd hw
    obtain ⟨u, hu⟩ : ∃ u, u = s.modGroup g fun x => { x with levelledAt := s.now } := ⟨_, rfl⟩
    have hl : (u.media.groups.getD g {}).levelledAt = s.now := by
      rw [hu]
      exact congrArg Group.levelledAt (getD_modify_self _ _ _ _ hg)
    have hud : u.desk = s.desk := by rw [hu]; rfl
    have hub : 500 ≤ u.media.budgetUs := by rw [hu]; exact hb
    rw [← hu] at hx
    refine ⟨_, hx, ?_, ?_, fun b hsb hbg hbc hbi ⟨k, hk, a, ha, hca⟩ => ?_⟩
    · cases pickBy (·.closedSeq) false (s.levelChoices g) with
      | none => exact hud
      | some b => exact (congrArg Prod.fst (State.readSources_rowDesk hub b true) :).trans hud
    · cases pickBy (·.closedSeq) false (s.levelChoices g) with
      | none => exact hl
      | some b => exact (congrArg Group.levelledAt (rowDesk_group (State.readSources_rowDesk hub b true) g)).trans hl
    · have hpick : pickBy (·.closedSeq) false (s.levelChoices g) = some b := by
        have hc : s.levelChoices g = [b] := by
          unfold State.levelChoices
          rw [hsb, List.filter_cons_of_pos, List.filter_nil]
          simp only [hbg, hbc, hbi, beq_self_eq_true, Bool.and_self, Bool.true_and, List.any_eq_true, beq_iff_eq]
          exact ⟨k, hk, a, ha, hca⟩
        rw [hc]
        rfl
      rw [hpick]
      have hmem : b ∈ u.media.superblocks := by
        rw [hu]
        exact hsb ▸ List.mem_singleton_self b
      have hsrc := State.readSources_sourcing hub hmem true
      rw [hu] at hsrc ⊢
      exact hsrc
  · refine (staticLevelling_sourced hon hs).trans (congrArg Host.Outcome.next ?_)
    unfold State.copySourced
    rw [if_pos hr]
  · refine ⟨_, staticLevelling_sourced hon hs, (congrArg Prod.fst (s.copySourced_rowDesk b true) :), fun new s1 x bs hbg hrole hm ho hv hc => ?_⟩
    subst hbg
    exact State.copySourced_copying hids hr hrole hm ho hv hc

end

/-! ### The erase of a superblock -/

theorem State.superblock_modSuperblock (s : State) {f : Superblock → Superblock} (hf : ∀ b, (f b).id = b.id) (id sb : Nat) :
    (s.modSuperblock id f).superblock sb = (s.superblock sb).map fun b => if b.id = id then f b else b := by
  show (s.media.superblocks.map fun b => if b.id = id then f b else b).find? (·.id == sb) = _
  rw [List.find?_map]
  refine congrArg (Option.map _) (congrArg (List.find? · _) (funext fun b => ?_))
  show ((if b.id = id then f b else b).id == sb) = (b.id == sb)
  split
  · rw [hf]
  · rfl
/-- The erases of some slots of a superblock are queued. -/
def State.eraseSlots (s : State) (b : Superblock) (l : List Nat) : State := l.foldl (fun (s : State) k =>
  s.enqueue (slotPlace b.group b.set k).1 (slotPlace b.group b.set k).2 { cls := 4, kind := .erase b.id k }) s
theorem State.eraseSlots_sansDies (s : State) (b : Superblock) (l : List Nat) : (s.eraseSlots b l).sansDies = s.sansDies :=
  foldl_keep State.sansDies _ (fun u _ => u.enqueue_sansDies _ _ _) l s
theorem State.There.eraseSlots {s : State} {c d : Nat} {x : DieOpKind} (h : s.There c d x) (b : Superblock) (l : List Nat) :
    (s.eraseSlots b l).There c d x := by
  induction l generalizing s with
  | nil => exact h
  | cons _ l ih => exact ih (h.enqueue _ _ (.inr rfl))
theorem State.eraseSlots_there {s : State} {b : Superblock} {l : List Nat} {k : Nat} (hk : k ∈ l)
    (hl : 32 * (slotPlace b.group b.set k).1 + (slotPlace b.group b.set k).2 < s.media.dies.length) :
    (s.eraseSlots b l).There (slotPlace b.group b.set k).1 (slotPlace b.group b.set k).2 (.erase b.id k) := by
  induction l generalizing s with
  | nil => cases hk
  | cons j l ih =>
    obtain rfl | hk := List.mem_cons.mp hk
    · exact (State.enqueue_there hl _).eraseSlots b l
    · exact ih hk (by rw [State.enqueue_length]; exact hl)
/-- SUPERBLOCK_ERASE. -/
theorem superblockErase_spec {s : State} (hon : s.power.stage = .on) {sb : Nat} {b : Superblock} (hb : s.superblock sb = some b) :
    let live := b.slots.filter fun k => s.dieLive (slotPlace b.group b.set k).1 (slotPlace b.group b.set k).2
    (b.closed = true → s.validItems b = [] → s.idleSuperblock b = true → s.readsRun b = false → live ≠ [] →
      s.media.dies.length = 1024 → (∀ k ∈ live, 32 * (slotPlace b.group b.set k).1 + (slotPlace b.group b.set k).2 < 1024) →
      ∃ t, exec (.superblockErase sb) s = .next t ∧ t.desk = s.desk ∧ (t.superblock sb).map (·.erasing) = some live
        ∧ ∀ k ∈ live, let d := t.die (slotPlace b.group b.set k).1 (slotPlace b.group b.set k).2
          ∃ o ∈ d.running.toList ++ d.queue, o.kind = .erase b.id k)
    ∧ (b.closed = false ∨ s.validItems b ≠ [] ∨ s.idleSuperblock b = false ∨ s.readsRun b = true →
        exec (.superblockErase sb) s = .next s) := by
  intro live
  have hid : b.id = sb := beq_iff_eq.mp (List.find?_some (p := fun x : Superblock => x.id == sb) hb)
  refine ⟨fun hc hv hi hr hne hlen hrange => ?_, fun h => ?_⟩
  · obtain ⟨u, hu⟩ : ∃ u, u = s.modSuperblock b.id fun x => { x with erasing := live } := ⟨_, rfl⟩
    have hx : exec (.superblockErase sb) s = .next (u.eraseSlots b live) := by
      refine (s.whenOn_of hon _).trans ?_
      rw [hb]
      refine (if_neg (by simp [hc, hv, hi, hr])).trans ((if_neg ?_).trans ?_)
      · rw [List.isEmpty_iff]
        exact hne
      · rw [hu]
        rfl
    have hd := u.eraseSlots_sansDies b live
    have hud : u.desk = s.desk := by rw [hu]; rfl
    refine ⟨_, hx, (congrArg State.desk hd :).trans hud, ?_, fun k hk => ?_⟩
    · have hsb : (u.eraseSlots b live).superblock sb = u.superblock sb := (congrArg (fun x : State => x.superblock sb) hd :)
      rw [hsb, hu, s.superblock_modSuperblock (by exact fun _ => rfl), hb, Option.map_some, Option.map_some, if_pos rfl]
    · obtain ⟨o, ho, hk⟩ | ⟨o, ho, hk⟩ := State.eraseSlots_there (s := u) (b := b) hk (by rw [hu]; exact hlen ▸ hrange k hk)
      · exact ⟨o, List.mem_append_right _ ho, hk⟩
      · exact ⟨o, List.mem_append_left _ (Option.mem_toList.mpr ho), hk⟩
  · refine (s.whenOn_of hon _).trans ?_
    rw [hb]
    refine if_pos ?_
    simp only [Bool.or_eq_true, Bool.not_eq_true', List.isEmpty_eq_false_iff]
    tauto

end Sys2Proof.Machine
end

section
/-!
PROOFS. Chapter 16: the patrol (O52).
-/

namespace Sys2Proof.Machine

open Sys2Proof.Safety

/-! ### The judgement of a patrol page -/

/-- What the judgement of a page may leave. -/
def State.patrolView (s : State) :=
  (s.office, s.big, s.media.dies, s.media.superblocks, s.media.rebuilt, s.media.unreadable, s.media.pages, s.media.units, s.media.extents)

theorem State.mediaLog_patrolView (s : State) (e : MediaEntry) (fault : Bool) : (s.mediaLog e fault).patrolView = s.patrolView :=
  (congrArg State.patrolView (s.log_frame 0xC2 e.body fault 0 true) :)
theorem State.markUnreadable_spec (s : State) (a : PageAddr) (w f : Nat) : (s.markUnreadable a w f).office = s.office
    ∧ (s.markUnreadable a w f).big = s.big ∧ (s.markUnreadable a w f).media.dies = s.media.dies
    ∧ (s.markUnreadable a w f).media.superblocks = s.media.superblocks ∧ (s.markUnreadable a w f).media.unreadable = s.media.unreadable
    ∧ (s.markUnreadable a w f).flashPage a = (s.flashPage a).map fun p => { p with lost := w :: p.lost.filter (· != w) } := by
  have hpage : (s.media.pages.map fun p => if p.addr = a then { p with lost := w :: p.lost.filter (· != w) } else p).find? (·.addr == a)
      = (s.media.pages.find? (·.addr == a)).map fun p => { p with lost := w :: p.lost.filter (· != w) } := by
    induction s.media.pages with
    | nil => rfl
    | cons p l ih =>
      rw [List.map_cons, List.find?_cons, List.find?_cons]
      by_cases hp : p.addr = a
      · simp [hp]
      · simp [hp, beq_false_of_ne hp, ih]
  unfold State.markUnreadable
  extract_lets u
  have hu : u.office = s.office ∧ u.big = s.big ∧ u.media.dies = s.media.dies ∧ u.media.superblocks = s.media.superblocks
      ∧ u.media.unreadable = s.media.unreadable ∧ u.flashPage a = (s.flashPage a).map fun p => { p with lost := w :: p.lost.filter (· != w) } :=
    ⟨rfl, rfl, rfl, rfl, rfl, hpage⟩
  split
  · exact hu
  · exact hu
/-- All four codewords of a page are marked. -/
theorem State.markPage_spec (s : State) (a : PageAddr) (f : Nat) {pg : FlashPage} (hp : s.flashPage a = some pg) (hl : pg.lost = []) :
    let t := (List.range 4).foldl (fun (s : State) w => s.markUnreadable a w f) s
    t.office = s.office ∧ t.big = s.big ∧ t.media.dies = s.media.dies ∧ t.media.superblocks = s.media.superblocks
      ∧ t.media.unreadable = s.media.unreadable ∧ (t.flashPage a).map (·.lost) = some [3, 2, 1, 0] := by
  intro t
  have ht : t = (((s.markUnreadable a 0 f).markUnreadable a 1 f).markUnreadable a 2 f).markUnreadable a 3 f := rfl
  obtain ⟨a1, a2, a3, a4, a5, a6⟩ := s.markUnreadable_spec a 0 f
  generalize s.markUnreadable a 0 f = s1 at a1 a2 a3 a4 a5 a6 ht
  obtain ⟨b1, b2, b3, b4, b5, b6⟩ := s1.markUnreadable_spec a 1 f
  generalize s1.markUnreadable a 1 f = s2 at b1 b2 b3 b4 b5 b6 ht
  obtain ⟨c1, c2, c3, c4, c5, c6⟩ := s2.markUnreadable_spec a 2 f
  generalize s2.markUnreadable a 2 f = s3 at c1 c2 c3 c4 c5 c6 ht
  obtain ⟨d1, d2, d3, d4, d5, d6⟩ := s3.markUnreadable_spec a 3 f
  rw [ht]
  refine ⟨d1.trans (c1.trans (b1.trans a1)), d2.trans (c2.trans (b2.trans a2)), d3.trans (c3.trans (b3.trans a3)), d4.trans (c4.trans (b4.trans a4)),
    d5.trans (c5.trans (b5.trans a5)), ?_⟩
  rw [d6, c6, b6, a6, hp]
  simp [hl]

section
variable {s : State} {a : PageAddr} {b : Superblock} {pg : FlashPage} (hp : s.flashPage a = some pg) (hl : pg.lost = [])
  (hh : s.holderOf a.blockAddr = some b) (hb : s.superblock b.id = some b) (bits result : Nat)
include hp hl hh hb

/-- A page's superblock that is to be refreshed, and the count of its reads that needed read-retry. -/
theorem State.classify_start : ∃ v, v.office = s.office ∧ v.big = s.big ∧ v.media.dies = s.media.dies ∧ v.media.rebuilt = s.media.rebuilt
    ∧ v.media.unreadable = s.media.unreadable ∧ v.media.pages = s.media.pages ∧ v.media.units = s.media.units ∧ v.media.extents = s.media.extents
    ∧ (result ≠ 0 ∨ 120 < bits → (v.superblock b.id).map (·.refresh) = some true)
    ∧ s.classify a bits result = if result < 2 then v else
      let w := v.newFault.2.mediaLog { kind := 1, group := a.channel / 8, channel := a.channel, die := a.die, plane := a.plane
                                       block := a.block, page := a.page, outcome := result - 1, faultNo := v.newFault.1, count := 4 }
      if result = 2 then w
      else if result = 3 then w.modMedia fun m => { m with rebuilt := satAdd32 m.rebuilt 4 }
      else (List.range 4).foldl (fun (s : State) k => s.markUnreadable a k v.newFault.1)
        (w.modMedia fun m => { m with unreadable := satAdd32 m.unreadable 4 }) := by
  have hknown : ((s.flashPage a).map fun p => p.lost.length == 4).getD false = false := by simp [hp, hl]
  obtain ⟨u, hu⟩ : ∃ u, u = if (result = 0 && bits ≤ 120) || b.refresh then s
    else (s.modSuperblock b.id fun y => { y with refresh := true }).mediaLog { kind := 9, group := a.channel / 8, channel := a.channel, die := a.die
                                                                               plane := a.plane, block := a.block, page := a.page } false := ⟨_, rfl⟩
  have huv : u.office = s.office ∧ u.big = s.big ∧ u.media.dies = s.media.dies ∧ u.media.rebuilt = s.media.rebuilt
      ∧ u.media.unreadable = s.media.unreadable ∧ u.media.pages = s.media.pages ∧ u.media.units = s.media.units ∧ u.media.extents = s.media.extents
      ∧ (result ≠ 0 ∨ 120 < bits → (u.superblock b.id).map (·.refresh) = some true) := by
    rw [hu]
    split
    · next hc =>
      refine ⟨rfl, rfl, rfl, rfl, rfl, rfl, rfl, rfl, fun hr => ?_⟩
      rw [hb, Option.map_some]
      simp only [Bool.or_eq_true, Bool.and_eq_true, decide_eq_true_eq] at hc
      exact congrArg some (hc.resolve_left fun h => by omega)
    · have hv := (s.modSuperblock b.id fun y => { y with refresh := true }).mediaLog_patrolView
        { kind := 9, group := a.channel / 8, channel := a.channel, die := a.die, plane := a.plane, block := a.block, page := a.page } false
      simp only [State.patrolView, Prod.mk.injEq] at hv
      obtain ⟨k1, k2, k3, k4, k5, k6, k7, k8, k9⟩ := hv
      refine ⟨k1, k2, k3, k5, k6, k7, k8, k9, fun _ => ?_⟩
      rw [State.superblock, k4]
      refine (congrArg (Option.map _) (s.superblock_modSuperblock (by exact fun _ => rfl) b.id b.id)).trans ?_
      rw [hb, Option.map_some, Option.map_some, if_pos rfl]
  obtain ⟨k1, k2, k3, k4, k5, k6, k7, k8, k9⟩ := huv
  obtain ⟨v, hv⟩ : ∃ v, v = if result = 0 then u else u.modMedia fun m => { m with retryReads := satAdd32 m.retryReads 1 } := ⟨_, rfl⟩
  refine ⟨v, ?_, ?_, ?_, ?_, ?_, ?_, ?_, ?_, ?_, ?_⟩
  iterate 9
    rw [hv]
    split
    · assumption
    · assumption
  unfold State.classify
  extract_lets +onlyGivenNames e known s1 s2
  have hk : known = false := hknown
  have h1 : s1 = u := by
    rw [hu]
    simp only [s1, hh, hk, Bool.or_false]
    rfl
  have h2 : s2 = v := by
    rw [hv, ← h1]
    simp only [s2, hk, Bool.or_false, decide_eq_true_eq]
  clear_value s2
  rw [h2, hk, Bool.or_false]
  simp only [decide_eq_true_eq]
  generalize v.newFault = n
  obtain ⟨f, w⟩ := n
  rfl
/-- The judgement of a page that was readable before. -/
theorem State.classify_spec : (s.classify a bits result).office = s.office ∧ (s.classify a bits result).big = s.big
    ∧ (s.classify a bits result).media.dies = s.media.dies
    ∧ (result ≤ 3 → (s.classify a bits result).media.pages = s.media.pages ∧ (s.classify a bits result).media.units = s.media.units
      ∧ (s.classify a bits result).media.extents = s.media.extents)
    ∧ (result ≠ 0 ∨ 120 < bits → ((s.classify a bits result).superblock b.id).map (·.refresh) = some true)
    ∧ (result = 3 → (s.classify a bits result).media.rebuilt = satAdd32 s.media.rebuilt 4)
    ∧ (3 < result → (s.classify a bits result).media.unreadable = satAdd32 s.media.unreadable 4
      ∧ ((s.classify a bits result).flashPage a).map (·.lost) = some [3, 2, 1, 0]) := by
  obtain ⟨v, h1, h2, h3, h4, h5, h6, h7, h8, h9, hx⟩ := State.classify_start hp hl hh hb bits result
  rw [hx]
  by_cases hr2 : result < 2
  · rw [if_pos hr2]
    exact ⟨h1, h2, h3, fun _ => ⟨h6, h7, h8⟩, h9, fun h => by omega, fun h => by omega⟩
  rw [if_neg hr2]
  obtain ⟨w, hw⟩ : ∃ w, w = v.newFault.2.mediaLog { kind := 1, group := a.channel / 8, channel := a.channel, die := a.die, plane := a.plane
                                                    block := a.block, page := a.page, outcome := result - 1, faultNo := v.newFault.1
                                                    count := 4 } := ⟨_, rfl⟩
  have hv : w.patrolView = v.patrolView := by
    rw [hw]
    exact (v.newFault.2.mediaLog_patrolView _ _).trans rfl
  simp only [State.patrolView, Prod.mk.injEq] at hv
  obtain ⟨k1, k2, k3, k4, k5, k6, k7, k8, k9⟩ := hv
  have hws : w.superblock b.id = v.superblock b.id := congrArg (List.find? fun x : Superblock => x.id == b.id) k4
  rw [← hw]
  dsimp only
  by_cases hr : result = 2
  · rw [if_pos hr]
    exact ⟨k1.trans h1, k2.trans h2, k3.trans h3, fun _ => ⟨k7.trans h6, k8.trans h7, k9.trans h8⟩, fun h => hws ▸ h9 h, fun h => by omega,
      fun h => by omega⟩
  rw [if_neg hr]
  by_cases hr3 : result = 3
  · rw [if_pos hr3]
    exact ⟨k1.trans h1, k2.trans h2, k3.trans h3, fun _ => ⟨k7.trans h6, k8.trans h7, k9.trans h8⟩, fun h => hws ▸ h9 h,
      fun _ => congrArg (satAdd32 · 4) (k5.trans h4), fun h => by omega⟩
  rw [if_neg hr3]
  obtain ⟨m1, m2, m3, m4, m5, m6⟩ := State.markPage_spec (w.modMedia fun m => { m with unreadable := satAdd32 m.unreadable 4 }) a v.newFault.1
    ((congrArg (List.find? fun x : FlashPage => x.addr == a) (k7.trans h6)).trans hp) hl
  refine ⟨m1.trans (k1.trans h1), m2.trans (k2.trans h2), m3.trans (k3.trans h3), fun h => by omega, fun h => ?_, fun h => by omega,
    fun _ => ⟨m5.trans (congrArg (satAdd32 · 4) (k6.trans h5)), m6⟩⟩
  exact (congrArg (fun l : List Superblock => (l.find? fun x => x.id == b.id).map (·.refresh)) m4).trans ((congrArg (Option.map _) hws).trans (h9 h))

end

/-! ### The steps of the patrol -/

/-- A queued operation that suspends nothing leaves what runs. -/
theorem State.enqueue_running {s : State} {c d : Nat} (h : 32 * c + d < s.media.dies.length) {e : DieOp} (hr : (s.die c d).running = some e) {o : DieOp}
    (ho : o.suspends? = false) : ((s.enqueue c d o).die c d).running = some e := by
  unfold State.enqueue
  extract_lets late s1 s2
  have h1 : (s1.die c d).running = some e := by
    rw [show s1.die c d = _ from State.die_modDie h _]
    exact hr
  have h2 : s2 = s1 := if_neg (by simp [ho])
  rw [h2]
  unfold State.kick
  extract_lets x role ready
  rw [if_pos (by simp [show x.running = some e from h1])]
  exact h1
theorem State.running_eq_some {s : State} {c d : Nat} {o : DieOp} (h : s.running c d = some o) : (s.die c d).running = some o := by
  unfold State.running at h
  split at h
  · cases h
  · exact h
theorem State.hasOp_of_running {s : State} {c d : Nat} {o : DieOp} (h : s.running c d = some o) {p : DieOpKind → Bool} (hp : p o.kind = true) :
    s.hasOp c d p = true := by
  unfold State.hasOp
  extract_lets x
  rw [List.any_eq_true]
  exact ⟨o, List.mem_append_left _ (List.mem_append_right _ (Option.mem_toList.mpr (State.running_eq_some h))), hp⟩
theorem State.kick_patrolNext (s : State) (c d : Nat) : ((s.kick c d).die c d).patrolNext = (s.die c d).patrolNext := by
  unfold State.kick
  extract_lets x role ready
  split
  · rfl
  split
  · rfl
  next p _ =>
  extract_lets nest
  obtain h | ⟨-, h⟩ := s.die_modDie_cases c d c d fun x => { x with
    queue := removeFirst (· == p) x.queue
    running := some { p with nested := nest, since := s.now, ran := 0 }
    nestedUsed := x.nestedUsed || nest }
  · rw [h]
  · rw [h]
/-- The patrol goes on, before the end of a pass. -/
theorem State.patrolNextPage_eq {s : State} {i : Nat} (hi : i + 1 < s.patrolPages) (c d : Nat) :
    s.patrolNextPage c d i = s.modDie c d fun x => { x with patrolNext := i + 1 } := by
  have hl : decide (i + 1 ≥ s.patrolPages) = false := by simpa using hi
  unfold State.patrolNextPage
  simp only [hl, Bool.false_and, Bool.false_eq_true, if_false]

section
variable {s : State} (hon : s.power.stage = .on) {c d : Nat} (hlive : s.dieLive c d = true) (bits result : Nat)
include hon hlive

theorem patrolStep_early (hi : 0 < (s.die c d).patrolNext) (hn : s.hasOp c d (· == DieOpKind.patrol (s.die c d).patrolNext) = false)
    (ht : s.now < (s.die c d).patrolStart + (s.die c d).patrolNext * ((s.die c d).patrolDays * 86400000000 / s.patrolPages)) :
    exec (.patrolStep c d bits result) s = .next s := by
  refine (s.whenOn_of hon _).trans ((if_neg (by simp [hlive])).trans ((if_pos ?_).trans (if_neg ?_)))
  · rw [Bool.or_eq_true]
    refine .inr ?_
    simp
    omega
  · intro h
    obtain ⟨o, ho, hk⟩ := Option.map_eq_some_iff.mp h
    rw [State.hasOp_of_running ho (p := (· == DieOpKind.patrol (s.die c d).patrolNext)) hk] at hn
    cases hn

theorem patrolStep_due (hi : 0 < (s.die c d).patrolNext) (hnext : (s.die c d).patrolNext + 1 < s.patrolPages)
    (hn : s.hasOp c d (· == DieOpKind.patrol (s.die c d).patrolNext) = false)
    (ht : (s.die c d).patrolStart + (s.die c d).patrolNext * ((s.die c d).patrolDays * 86400000000 / s.patrolPages) ≤ s.now) :
    (s.patrols (s.patrolPage c d (s.die c d).patrolNext) = false →
      exec (.patrolStep c d bits result) s = .next (s.modDie c d fun x => { x with patrolNext := (s.die c d).patrolNext + 1 }))
    ∧ (s.patrols (s.patrolPage c d (s.die c d).patrolNext) = true → 32 * c + d < s.media.dies.length → (s.die c d).running ≠ none →
      exec (.patrolStep c d bits result) s = .next (s.enqueue c d { cls := 5, kind := .patrol (s.die c d).patrolNext })) := by
  have hstep : exec (.patrolStep c d bits result) s = (if !s.patrols (s.patrolPage c d (s.die c d).patrolNext) then
        Host.Outcome.next (s.patrolNextPage c d (s.die c d).patrolNext)
      else
        let s' := s.enqueue c d { cls := 5, kind := .patrol (s.die c d).patrolNext }
        if ((s'.running c d).map fun o => o.kind == DieOpKind.patrol (s.die c d).patrolNext) = some true then
          .next (((s'.endRunning c d).patrolEnds c d (s.die c d).patrolNext bits result).kick c d)
        else .next s' : Out) := by
    refine (s.whenOn_of hon _).trans ((if_neg (by simp [hlive])).trans ((if_neg ?_).trans ?_))
    · rw [hn, Bool.false_or, Bool.not_eq_true', Bool.not_eq_false, Bool.or_eq_true, decide_eq_true_eq]
      exact .inr (decide_eq_true ht)
    · dsimp only
      rw [if_neg (Nat.ne_of_gt hi)]
  refine ⟨fun hp => ?_, fun hp hlen hr => ?_⟩
  · rw [hstep, if_pos (by rw [hp]; rfl), State.patrolNextPage_eq hnext]
  · rw [hstep, if_neg (by rw [hp]; exact Bool.false_ne_true)]
    refine if_neg fun h => ?_
    obtain ⟨o, ho, hk⟩ := Option.map_eq_some_iff.mp h
    obtain ⟨e, he⟩ := Option.ne_none_iff_exists'.mp hr
    have hoe : o = e := Option.some.inj ((State.running_eq_some ho).symm.trans (State.enqueue_running hlen he rfl))
    unfold State.hasOp at hn
    rw [List.any_eq_false] at hn
    exact hn e (List.mem_append_left _ (List.mem_append_right _ (Option.mem_toList.mpr he))) (hoe ▸ hk)
/-- A patrol read that runs ends. -/
theorem patrolStep_ends (hr : (s.running c d).map (·.kind) = some (.patrol (s.die c d).patrolNext)) : exec (.patrolStep c d bits result) s
    = .next (((s.endRunning c d).patrolEnds c d (s.die c d).patrolNext bits result).kick c d) := by
  obtain ⟨o, ho, hk⟩ := Option.map_eq_some_iff.mp hr
  have hop : s.hasOp c d (· == DieOpKind.patrol (s.die c d).patrolNext) = true := State.hasOp_of_running ho (beq_iff_eq.mpr hk)
  refine (s.whenOn_of hon _).trans ((if_neg (by simp [hlive])).trans ((if_pos ?_).trans (if_pos ?_)))
  · rw [hop]
    rfl
  · rw [ho, Option.map_some]
    exact congrArg some (beq_iff_eq.mpr hk)
omit hon hlive in
theorem State.classify_good (a : PageAddr) {bits : Nat} (hb : bits ≤ 120) (u : State) : u.classify a bits 0 = u := by
  unfold State.classify
  simp only [hb, decide_true, Bool.and_self, Bool.true_or, if_true]
  cases u.holderOf a.blockAddr <;> rfl
theorem patrolStep_good (hnext : (s.die c d).patrolNext + 1 < s.patrolPages)
    (hr : (s.running c d).map (·.kind) = some (.patrol (s.die c d).patrolNext)) {bits : Nat} (hb : bits ≤ 120) :
    exec (.patrolStep c d bits 0) s
      = .next (((s.endRunning c d).modDie c d fun x => { x with patrolNext := (s.die c d).patrolNext + 1 }).kick c d) := by
  rw [patrolStep_ends hon hlive bits 0 hr]
  unfold State.patrolEnds
  rw [State.classify_good _ hb, State.patrolNextPage_eq (by exact hnext)]
/-- The judgement at the end of a patrol read. -/
theorem patrolStep_judges (hlen : 32 * c + d < s.media.dies.length) (hnext : (s.die c d).patrolNext + 1 < s.patrolPages)
    (hr : (s.running c d).map (·.kind) = some (.patrol (s.die c d).patrolNext)) {b : Superblock} {pg : FlashPage}
    (hp : s.flashPage (s.patrolPage c d (s.die c d).patrolNext) = some pg) (hl : pg.lost = [])
    (hh : s.holderOf (s.patrolPage c d (s.die c d).patrolNext).blockAddr = some b) (hb : s.superblock b.id = some b) :
    ∃ t, exec (.patrolStep c d bits result) s = .next t ∧ t.office = s.office ∧ (t.die c d).patrolNext = (s.die c d).patrolNext + 1
      ∧ (result ≤ 3 → t.media.pages = s.media.pages ∧ t.media.units = s.media.units ∧ t.media.extents = s.media.extents)
      ∧ (result ≠ 0 ∨ 120 < bits → (t.superblock b.id).map (·.refresh) = some true)
      ∧ (result = 3 → t.media.rebuilt = satAdd32 s.media.rebuilt 4)
      ∧ (3 < result → t.media.unreadable = satAdd32 s.media.unreadable 4
        ∧ (t.flashPage (s.patrolPage c d (s.die c d).patrolNext)).map (·.lost) = some [3, 2, 1, 0]) := by
  refine ⟨_, patrolStep_ends hon hlive bits result hr, ?_⟩
  generalize (s.die c d).patrolNext = i at hnext hp hh ⊢
  obtain ⟨u, hu⟩ : ∃ u, u = s.endRunning c d := ⟨_, rfl⟩
  obtain ⟨a, ha⟩ : ∃ a, a = s.patrolPage c d i := ⟨_, rfl⟩
  have hua : u.patrolPage c d i = a := by rw [hu, ha]; rfl
  rw [← ha] at hp hh ⊢
  rw [← hu]
  obtain ⟨h1, h2, h3, h4, h5, h6, h7⟩ := State.classify_spec (s := u) (by rw [hu]; exact hp) hl (by rw [hu]; exact hh)
    (by rw [hu]; exact hb) bits result
  unfold State.patrolEnds
  rw [hua]
  generalize u.classify a bits result = v at h1 h2 h3 h4 h5 h6 h7
  have hpages : v.patrolPages = s.patrolPages := by
    unfold State.patrolPages State.pagesPerBlock
    rw [h2, hu]
    rfl
  rw [State.patrolNextPage_eq (by rw [hpages]; exact hnext)]
  have hk := (v.modDie c d fun x => { x with patrolNext := i + 1 }).kick_sansDies c d
  have hvlen : 32 * c + d < v.media.dies.length := by
    rw [h3, hu]
    exact (List.length_modify ..).symm ▸ hlen
  refine ⟨?_, ?_, fun hr3 => ?_, fun hw => ?_, fun hr3 => ?_, fun hr3 => ?_⟩
  · exact (congrArg State.office hk :).trans (h1.trans (by rw [hu]; rfl))
  · rw [State.kick_patrolNext, State.die_modDie hvlen]
  · obtain ⟨k1, k2, k3⟩ := h4 hr3
    refine ⟨(congrArg (fun x : State => x.media.pages) hk :).trans (k1.trans (by rw [hu]; rfl)),
      (congrArg (fun x : State => x.media.units) hk :).trans (k2.trans (by rw [hu]; rfl)),
      (congrArg (fun x : State => x.media.extents) hk :).trans (k3.trans (by rw [hu]; rfl))⟩
  · exact (congrArg (fun x : State => (x.superblock b.id).map (·.refresh)) hk :).trans (h5 hw)
  · exact (congrArg (fun x : State => x.media.rebuilt) hk :).trans ((h6 hr3).trans (by rw [hu]; rfl))
  · obtain ⟨k1, k2⟩ := h7 hr3
    exact ⟨(congrArg (fun x : State => x.media.unreadable) hk :).trans (k1.trans (by rw [hu]; rfl)),
      (congrArg (fun x : State => (x.flashPage a).map (·.lost)) hk :).trans k2⟩

end

end Sys2Proof.Machine
end

section
/-!
PROOFS. Chapter 16: the flush of a power loss (O52).
-/

namespace Sys2Proof.Machine

open Sys2Proof.Safety

/-! ### What the flush keeps -/

/-- The key of a buffered block's unit. -/
def WbBlock.key (x : WbBlock) : Nat × Nat × Nat := (x.fn, x.nsid, x.lba / 4)
/-- A unit has been placed by a row of number `n` or later. -/
def State.Mapped (n : Nat) (s : State) (k : Nat × Nat × Nat) : Prop :=
  ∃ u ∈ s.media.units, u.fn = k.1 ∧ u.nsid = k.2.1 ∧ u.unit = k.2.2 ∧ n ≤ u.stamp ∧ ∃ sb q, u.place = .at sb q
/-- The superblocks are wide enough for a row, and the next row is later than every placed unit. -/
structure State.Flushable (n : Nat) (s : State) : Prop where
  wide : ∀ b ∈ s.media.superblocks, 8 ≤ b.slots.length
  first : n ≤ s.media.nextJob
  stamps : ∀ u ∈ s.media.units, u.stamp < s.media.nextJob
/-- What no step of the flush changes. -/
def State.flushStill (s : State) := (s.sansMedia, s.media.dies, s.media.namespaces)
/-- What a row changes last: the buffer and the list of lost blocks. -/
def State.flushBuffer (s : State) := (s.media.buffer, s.media.lostBlocks)

theorem State.unitGroup_congr {s t : State} (h : t.flushStill = s.flushStill) (fn nsid : Nat) : t.unitGroup fn nsid = s.unitGroup fn nsid := by
  have ht : t.tenants = s.tenants := (congrArg (fun x => x.1.tenants) h :)
  have hn : t.media.namespaces = s.media.namespaces := (congrArg (fun x => x.2.2) h :)
  unfold State.unitGroup State.namespace? State.tenant
  rw [ht, hn]

/-! ### One row -/

theorem State.target_wide {s t : State} {g : Nat} {use : SbUse} {js : List Nat} {b : Superblock} (h : s.target g use js = some (b, t))
    (hw : ∀ b ∈ s.media.superblocks, 8 ≤ b.slots.length) : 8 ≤ b.slots.length ∧ ∀ b ∈ t.media.superblocks, 8 ≤ b.slots.length := by
  induction js with
  | nil => cases h
  | cons j js ih =>
    unfold State.target at h
    extract_lets live at h
    split at h
    · next hb =>
      cases h
      exact ⟨hw b (List.mem_of_find?_eq_some hb), hw⟩
    split at h
    · next r hr =>
      cases h
      unfold State.openSuperblock at hr
      dsimp only at hr
      split at hr
      · cases hr
      next h8 =>
      split at hr
      · cases hr
      · cases hr
        refine ⟨Nat.le_of_not_lt h8, fun y hy => ?_⟩
        obtain hy | hy := List.mem_append.mp hy
        · exact hw y hy
        · rw [List.mem_singleton.mp hy]
          exact Nat.le_of_not_lt h8
    · exact ih h
/-- The map with a unit at a page of a superblock. -/
def unitPlaced (l : List UnitEntry) (fn nsid unit sb page id : Nat) : List UnitEntry :=
  { fn := fn, nsid := nsid, unit := unit, place := .at sb page, stamp := id } ::
    l.filter fun u => !(u.fn == fn && u.nsid == nsid && u.unit == unit)
/-- A unit is placed. -/
theorem State.mapUnit_spec {s : State} {n id : Nat} (hn : n ≤ id) (hs : ∀ u ∈ s.media.units, u.stamp ≤ id) (fn nsid unit sb page : Nat) :
    let t := s.mapUnit fn nsid unit sb page id
    (t.flushStill, t.flushBuffer, t.media.superblocks, t.media.nextJob) = (s.flushStill, s.flushBuffer, s.media.superblocks, s.media.nextJob)
      ∧ (∀ u ∈ t.media.units, u.stamp ≤ id) ∧ t.Mapped n (fn, nsid, unit) ∧ ∀ k, s.Mapped n k → t.Mapped n k := by
  have hnew : (match s.unitEntry fn nsid unit with
      | some u => decide (u.stamp > id)
      | none => false) = false := by
    cases h : s.unitEntry fn nsid unit with
    | none => rfl
    | some u => exact decide_eq_false (Nat.not_lt.mpr (hs u (List.mem_of_find?_eq_some h)))
  obtain ⟨u, hu⟩ : ∃ u, u = s.modMedia fun m => { m with
    units := unitPlaced m.units fn nsid unit sb page id } := ⟨_, rfl⟩
  have ht : s.mapUnit fn nsid unit sb page id = u ∨ ∃ g, s.mapUnit fn nsid unit sb page id = u.journal g := by
    unfold State.mapUnit
    extract_lets newer v
    rw [if_neg (by rw [show newer = false from hnew]; exact Bool.false_ne_true)]
    have hvu : v = u := hu.symm
    rw [hvu]
    split
    · exact .inr ⟨_, rfl⟩
    · exact .inl rfl
  have hunits : u.media.units = { fn := fn, nsid := nsid, unit := unit, place := .at sb page, stamp := id } ::
      s.media.units.filter (fun u => !(u.fn == fn && u.nsid == nsid && u.unit == unit)) := by rw [hu]; rfl
  have hmap : ∀ t : State, t.media.units = u.media.units → (∀ u ∈ t.media.units, u.stamp ≤ id) ∧ t.Mapped n (fn, nsid, unit)
      ∧ ∀ k, s.Mapped n k → t.Mapped n k := by
    intro t ht
    have hhead : t.Mapped n (fn, nsid, unit) := ⟨_, ht ▸ hunits ▸ List.mem_cons_self, rfl, rfl, rfl, hn, _, _, rfl⟩
    refine ⟨fun x hx => ?_, hhead, fun k ⟨x, hx, h1, h2, h3, h4⟩ => ?_⟩
    · rw [ht, hunits] at hx
      obtain rfl | hx := List.mem_cons.mp hx
      · exact Nat.le_refl _
      · exact hs x (List.mem_filter.mp hx).1
    · by_cases hk : k = (fn, nsid, unit)
      · rw [hk]
        exact hhead
      · refine ⟨x, ?_, h1, h2, h3, h4⟩
        rw [ht, hunits]
        refine List.mem_cons_of_mem _ (List.mem_filter.mpr ⟨hx, ?_⟩)
        rw [Bool.not_eq_true', Bool.eq_false_iff]
        intro hc
        simp only [Bool.and_eq_true, beq_iff_eq] at hc
        exact hk (Prod.ext (h1.symm.trans hc.1.1) (Prod.ext (h2.symm.trans hc.1.2) (h3.symm.trans hc.2)))
  have hstill : ∀ g, ((u.journal g).flushStill, (u.journal g).flushBuffer, (u.journal g).media.superblocks, (u.journal g).media.nextJob)
      = (u.flushStill, u.flushBuffer, u.media.superblocks, u.media.nextJob) := fun _ => rfl
  have hus : (u.flushStill, u.flushBuffer, u.media.superblocks, u.media.nextJob)
      = (s.flushStill, s.flushBuffer, s.media.superblocks, s.media.nextJob) := by rw [hu]; rfl
  obtain ht | ⟨g, ht⟩ := ht
  · rw [ht]
    exact ⟨hus, hmap u rfl⟩
  · rw [ht]
    exact ⟨(hstill g).trans hus, hmap _ rfl⟩
/-- A member of a row is placed. -/
def State.mapMember (b : Superblock) (row id : Nat) (s : State) (m : Member) : State :=
  match m.item with
  | .unit fn nsid u => s.mapUnit fn nsid u b.id (b.pageNumber row m.slot m.plane) id
  | _ => s
theorem State.mapMembers_spec {n id : Nat} (hn : n ≤ id) (b : Superblock) (row : Nat) (l : List Member) {s : State}
    (hs : ∀ u ∈ s.media.units, u.stamp ≤ id) : let t := l.foldl (State.mapMember b row id) s
    (t.flushStill, t.flushBuffer, t.media.superblocks, t.media.nextJob) = (s.flushStill, s.flushBuffer, s.media.superblocks, s.media.nextJob)
      ∧ (∀ u ∈ t.media.units, u.stamp ≤ id) ∧ (∀ k, s.Mapped n k → t.Mapped n k)
      ∧ ∀ k : Nat × Nat × Nat, Item.unit k.1 k.2.1 k.2.2 ∈ l.map (·.item) → t.Mapped n k := by
  induction l generalizing s with
  | nil => exact ⟨rfl, hs, fun _ h => h, fun _ h => absurd h List.not_mem_nil⟩
  | cons m l ih =>
    intro t
    obtain ⟨v, hv⟩ : ∃ v, v = s.mapMember b row id m := ⟨_, rfl⟩
    have h1 : (v.flushStill, v.flushBuffer, v.media.superblocks, v.media.nextJob) = (s.flushStill, s.flushBuffer, s.media.superblocks, s.media.nextJob)
        ∧ (∀ u ∈ v.media.units, u.stamp ≤ id) ∧ (∀ k, s.Mapped n k → v.Mapped n k)
        ∧ ∀ k : Nat × Nat × Nat, Item.unit k.1 k.2.1 k.2.2 = m.item → v.Mapped n k := by
      rw [hv]
      unfold State.mapMember
      split
      · next fn nsid u hi =>
        obtain ⟨h1, h2, h3, h4⟩ := s.mapUnit_spec hn hs fn nsid u b.id (b.pageNumber row m.slot m.plane)
        refine ⟨h1, h2, h4, fun k hk => ?_⟩
        rw [hi] at hk
        injection hk with e1 e2 e3
        obtain ⟨a, c, e⟩ := k
        cases e1; cases e2; cases e3
        exact h3
      · next hi => exact ⟨rfl, hs, fun _ h => h, fun k hk => absurd hk.symm (hi _ _ _)⟩
    obtain ⟨h1, h2, h3, h4⟩ := h1
    obtain ⟨k1, k2, k3, k4⟩ := ih h2
    have ht : t = l.foldl (State.mapMember b row id) v := by rw [hv]; rfl
    rw [ht]
    refine ⟨k1.trans h1, k2, fun k hk => k3 k (h3 k hk), fun k hk => ?_⟩
    obtain hk | hk := List.mem_cons.mp hk
    · exact k3 k (h4 k hk)
    · exact k4 k hk

/-- Every piece of a row is one of its members. -/
theorem mem_rowMembers_of_mem {b : Superblock} {row : Nat} {l : List (Item × List Byte)} (hl : l.length ≤ 4 * b.d) {x : Item × List Byte} (hx : x ∈ l) :
    x.1 ∈ (rowMembers b row l).map (·.item) := by
  obtain ⟨i, hi, rfl⟩ := List.getElem_of_mem hx
  unfold rowMembers
  extract_lets ds d zeros page q
  have hd : 0 < d := by
    have : i < 4 * d := hi.trans_le hl
    omega
  have hplane : i / d < 4 := Nat.div_lt_of_lt_mul (by rw [Nat.mul_comm]; exact hi.trans_le hl)
  refine List.mem_map.mpr ⟨_, List.mem_flatMap.mpr ⟨i / d, List.mem_range.mpr hplane, List.mem_append_left _ (List.mem_map.mpr
    ⟨(page (i % d) (i / d), i % d), List.mem_zipIdx_iff_getElem?.mpr ?_, rfl⟩)⟩, ?_⟩
  · simp [Nat.mod_lt _ hd]
  · have hpage : page (i % d) (i / d) = l[i] := by
      show l.getD (i / d * d + i % d) _ = _
      rw [Nat.div_add_mod' i d]
      exact List.getD_eq_getElem _ _ hi
    rw [hpage]

theorem State.storeMembers_sansPages (s : State) (j : RowJob) (slot : Nat) (planes : List Nat) (bad : Nat → Bool) :
    (s.storeMembers j slot planes bad).sansPages = s.sansPages := by
  unfold State.storeMembers
  split
  · rfl
  · exact foldl_keep State.sansPages _ (fun _ _ => by rfl) _ _
theorem State.advance_wide {s : State} (hw : ∀ b ∈ s.media.superblocks, 8 ≤ b.slots.length) (id : Nat) :
    ∀ b ∈ (s.advance id).media.superblocks, 8 ≤ b.slots.length := by
  intro b hb
  obtain ⟨y, hy, rfl⟩ := List.mem_map.mp (show b ∈ s.media.superblocks.map _ from hb)
  split
  · exact hw y hy
  · exact hw y hy
/-- The units that a row of the flush takes, of a superblock with room for `d` units in a plane. -/
def State.flushUnits (s : State) (g d : Nat) : List (Nat × Nat × Nat) :=
  (((s.media.buffer.filter fun x => x.dirty && s.unitGroup x.fn x.nsid == some g).map WbBlock.key).eraseDups).take (4 * d)
/-- One attempt to program a row. -/
structure State.Attempted (n g : Nat) (s : State) (ok : Bool) (us : List (Nat × Nat × Nat)) (t : State) : Prop where
  still : t.flushStill = s.flushStill
  buffer : t.flushBuffer = s.flushBuffer
  ready : t.Flushable n
  mapped : ∀ k, s.Mapped n k → t.Mapped n k
  placed : ok = true → ∀ k ∈ us, t.Mapped n k
  takes : ∀ x ∈ s.media.buffer, x.dirty = true → s.unitGroup x.fn x.nsid = some g → ∃ y ∈ s.media.buffer, y.dirty = true
    ∧ s.unitGroup y.fn y.nsid = some g ∧ y.key ∈ us

theorem State.flushUnits_takes (s : State) (g : Nat) {d : Nat} (hd : 0 < d) {x : WbBlock} (hx : x ∈ s.media.buffer) (hdirty : x.dirty = true)
    (hg : s.unitGroup x.fn x.nsid = some g) : ∃ y ∈ s.media.buffer, y.dirty = true ∧ s.unitGroup y.fn y.nsid = some g ∧ y.key ∈ s.flushUnits g d := by
  unfold State.flushUnits
  have hmem : x.key ∈ ((s.media.buffer.filter fun x => x.dirty && s.unitGroup x.fn x.nsid == some g).map WbBlock.key).eraseDups := by
    rw [List.mem_eraseDups]
    exact List.mem_map.mpr ⟨x, List.mem_filter.mpr ⟨hx, by simp [hdirty, hg]⟩, rfl⟩
  have hof : ∀ k ∈ ((s.media.buffer.filter fun x => x.dirty && s.unitGroup x.fn x.nsid == some g).map WbBlock.key).eraseDups,
      ∃ y ∈ s.media.buffer, y.dirty = true ∧ s.unitGroup y.fn y.nsid = some g ∧ y.key = k := fun k hk => by
    rw [List.mem_eraseDups] at hk
    obtain ⟨y, hy, rfl⟩ := List.mem_map.mp hk
    obtain ⟨hy, hc⟩ := List.mem_filter.mp hy
    simp only [Bool.and_eq_true, beq_iff_eq] at hc
    exact ⟨y, hy, hc.1, hc.2, rfl⟩
  generalize ((s.media.buffer.filter fun x => x.dirty && s.unitGroup x.fn x.nsid == some g).map WbBlock.key).eraseDups = l at hmem hof
  cases l with
  | nil => cases hmem
  | cons k l =>
    obtain ⟨y, hy, h1, h2, rfl⟩ := hof k List.mem_cons_self
    refine ⟨y, hy, h1, h2, ?_⟩
    obtain ⟨m, hm⟩ : ∃ m, 4 * d = m + 1 := ⟨4 * d - 1, by omega⟩
    rw [hm, List.take_succ_cons]
    exact List.mem_cons_self
theorem State.flushAttempt_spec {n g k : Nat} {s t : State} {failed : List (Nat × Nat)} {sets : List Nat} {ok : Bool} {us : List (Nat × Nat × Nat)} {set : Nat}
    (hf : s.Flushable n) (h : s.flushAttempt g k failed sets = some (ok, us, set, t)) : s.Attempted n g ok us t := by
  unfold State.flushAttempt at h
  split at h
  · cases h
  next b s1 ht =>
  obtain ⟨hwide, hwide1⟩ := State.target_wide ht hf.wide
  have h1 : s1.flushStill = s.flushStill ∧ s1.flushBuffer = s.flushBuffer ∧ s1.media.units = s.media.units ∧ s1.media.nextJob = s.media.nextJob := by
    obtain ⟨l, k, rfl⟩ := State.target_spec ht
    exact ⟨rfl, rfl, rfl, rfl⟩
  extract_lets us1 items row id members j bad lost s2 s3 s4 durable s5 s6 at h
  simp only [Option.some.injEq, Prod.mk.injEq] at h
  obtain ⟨rfl, rfl, -, rfl⟩ := h
  obtain ⟨hstill, hbuf, hunits, hjob⟩ := h1
  have h2 : s2.flushStill = s.flushStill ∧ s2.flushBuffer = s.flushBuffer ∧ s2.media.units = s.media.units ∧ s2.media.nextJob = id + 1
      ∧ s2.media.superblocks = s1.media.superblocks := ⟨hstill, hbuf, hunits, rfl, rfl⟩
  clear_value s2
  obtain ⟨a1, a2, a3, a4, a5⟩ := h2
  obtain ⟨v, hv⟩ : ∃ v, v = s2.advance b.id := ⟨_, rfl⟩
  have hv1 : v.flushStill = s.flushStill ∧ v.flushBuffer = s.flushBuffer ∧ v.media.units = s.media.units ∧ v.media.nextJob = id + 1
      ∧ ∀ b ∈ v.media.superblocks, 8 ≤ b.slots.length := by
    rw [hv]
    exact ⟨a1, a2, a3, a4, State.advance_wide (a5 ▸ hwide1) b.id⟩
  have h3 : s3.sansPages = v.sansPages := hv ▸ foldl_keep State.sansPages _ (fun _ _ => State.storeMembers_sansPages ..) _ _
  clear_value s3
  have h4 : s4.flushStill = s3.flushStill ∧ s4.flushBuffer = s3.flushBuffer ∧ s4.media.units = s3.media.units
      ∧ s4.media.nextJob = s3.media.nextJob ∧ s4.media.superblocks = s3.media.superblocks := by
    unfold s4 State.recordRole
    split <;> exact ⟨rfl, rfl, rfl, rfl, rfl⟩
  clear_value s4
  have h4 : s4.flushStill = s.flushStill ∧ s4.flushBuffer = s.flushBuffer ∧ s4.media.units = s.media.units ∧ s4.media.nextJob = id + 1
      ∧ ∀ b ∈ s4.media.superblocks, 8 ≤ b.slots.length := by
    obtain ⟨r1, r2, r3, r4, r5⟩ := h4
    obtain ⟨q1, q2, q3, q4, q5⟩ := hv1
    refine ⟨r1.trans ((congrArg State.flushStill h3 :).trans q1), r2.trans ((congrArg State.flushBuffer h3 :).trans q2),
      r3.trans ((congrArg (fun x : State => x.media.units) h3 :).trans q3), r4.trans ((congrArg (fun x : State => x.media.nextJob) h3 :).trans q4), ?_⟩
    rw [r5, show s3.media.superblocks = v.media.superblocks from (congrArg (fun x : State => x.media.superblocks) h3 :)]
    exact q5
  obtain ⟨b1, b2, b3, b4, b5⟩ := h4
  have hid : n ≤ id := hf.first.trans (Nat.le_of_eq hjob.symm)
  have hstamps : ∀ u ∈ s4.media.units, u.stamp ≤ id := fun u hu => by
    have hlt := hf.stamps u (b3 ▸ hu)
    rw [← hjob] at hlt
    exact Nat.le_of_lt hlt
  have hkeep4 : ∀ k, s.Mapped n k → s4.Mapped n k := fun k ⟨u, hu, hk⟩ => ⟨u, b3 ▸ hu, hk⟩
  have h5 : s5.flushStill = s.flushStill ∧ s5.flushBuffer = s.flushBuffer ∧ s5.media.nextJob = id + 1 ∧ (∀ b ∈ s5.media.superblocks, 8 ≤ b.slots.length)
      ∧ (∀ u ∈ s5.media.units, u.stamp ≤ id) ∧ (∀ k, s.Mapped n k → s5.Mapped n k) ∧ (durable = true → ∀ k ∈ us1, s5.Mapped n k) := by
    by_cases hd : durable = true
    · have h5 : s5 = members.foldl (State.mapMember b row id) s4 := if_pos hd
      obtain ⟨c1, c2, c3, c4⟩ := State.mapMembers_spec hid b row members hstamps
      rw [← h5] at c1 c2 c3 c4
      simp only [Prod.mk.injEq] at c1
      obtain ⟨d1, d2, d3, d4⟩ := c1
      refine ⟨d1.trans b1, d2.trans b2, d4.trans b4, d3 ▸ b5, c2, fun k hk => c3 k (hkeep4 k hk), fun _ k hk => c4 k ?_⟩
      have hitem : (Item.unit k.1 k.2.1 k.2.2, s1.unitData k) ∈ items := List.mem_map.mpr ⟨k, hk, rfl⟩
      refine mem_rowMembers_of_mem ?_ hitem
      rw [show items.length = us1.length from List.length_map ..]
      exact List.length_take_le ..
    · have h5 : s5 = s4 := if_neg hd
      rw [h5]
      exact ⟨b1, b2, b4, b5, hstamps, hkeep4, fun h => absurd h hd⟩
  clear_value s5
  have h6 : s6.flushStill = s5.flushStill ∧ s6.flushBuffer = s5.flushBuffer ∧ s6.media.nextJob = s5.media.nextJob
      ∧ s6.media.superblocks = s5.media.superblocks ∧ s6.media.units = s5.media.units := by
    unfold s6
    split <;> exact ⟨rfl, rfl, rfl, rfl, rfl⟩
  clear_value s6
  obtain ⟨c1, c2, c3, c4, c5, c6, c7⟩ := h5
  obtain ⟨e1, e2, e3, e4, e5⟩ := h6
  have hmapped : ∀ k, s5.Mapped n k → s6.Mapped n k := fun k ⟨u, hu, hk⟩ => ⟨u, e5 ▸ hu, hk⟩
  refine ⟨e1.trans c1, e2.trans c2, ⟨e4 ▸ c4, ?_, fun u hu => ?_⟩, fun k hk => hmapped k (c6 k hk), fun hd k hk => hmapped k (c7 hd k hk), ?_⟩
  · rw [e3, c3]
    omega
  · rw [e3, c3]
    exact Nat.lt_succ_of_le (c5 u (e5 ▸ hu))
  · have hbuffer : s1.media.buffer = s.media.buffer := congrArg Prod.fst hbuf
    have hd : 0 < b.d := by
      have : 2 < b.slots.length := by omega
      exact Nat.sub_pos_of_lt this
    intro x hx hdirty hg
    obtain ⟨y, hy, h1, h2, h3⟩ := s1.flushUnits_takes g hd (hbuffer ▸ hx) hdirty ((State.unitGroup_congr hstill _ _).trans hg)
    exact ⟨y, hbuffer ▸ hy, h1, (State.unitGroup_congr hstill _ _).symm.trans h2, h3⟩

end Sys2Proof.Machine
end

section
/-!
PROOFS. Chapter 16: the flush of a power loss, row after row, and media management (O52).
-/

namespace Sys2Proof.Machine

open Sys2Proof.Safety

/-- A part of the flush: each block that leaves the buffer is placed or listed as lost. -/
structure State.Flushes (n : Nat) (s t : State) : Prop where
  still : t.flushStill = s.flushStill
  ready : t.Flushable n
  mapped : ∀ k, s.Mapped n k → t.Mapped n k
  lost : ∀ l ∈ s.media.lostBlocks, l ∈ t.media.lostBlocks
  within : ∀ x ∈ t.media.buffer, x ∈ s.media.buffer
  gone : ∀ x ∈ s.media.buffer, x ∈ t.media.buffer ∨ (x.fn, x.nsid, x.lba, x.seq) ∈ t.media.lostBlocks ∨ t.Mapped n x.key
/-- A group has no dirty block in the buffer. -/
def State.Drained (g : Nat) (s : State) : Prop := ∀ x ∈ s.media.buffer, x.dirty = true → s.unitGroup x.fn x.nsid ≠ some g

section
variable {n g : Nat} {s t u : State}

theorem State.Flushes.refl (h : s.Flushable n) : s.Flushes n s := ⟨rfl, h, fun _ h => h, fun _ h => h, fun _ h => h, fun _ h => .inl h⟩
theorem State.Flushes.trans (h : s.Flushes n t) (k : t.Flushes n u) : s.Flushes n u := by
  refine ⟨k.still.trans h.still, k.ready, fun x hx => k.mapped x (h.mapped x hx), fun l hl => k.lost l (h.lost l hl), fun x hx => h.within x (k.within x hx),
    fun x hx => ?_⟩
  obtain hx | hx | hx := h.gone x hx
  · exact k.gone x hx
  · exact .inr (.inl (k.lost _ hx))
  · exact .inr (.inr (k.mapped _ hx))
theorem State.Attempted.flushes {ok : Bool} {us : List (Nat × Nat × Nat)} (h : s.Attempted n g ok us t) : s.Flushes n t := by
  have hb : t.media.buffer = s.media.buffer := congrArg Prod.fst h.buffer
  have hl : t.media.lostBlocks = s.media.lostBlocks := congrArg Prod.snd h.buffer
  exact ⟨h.still, h.ready, h.mapped, fun l hl' => hl ▸ hl', fun x hx => hb ▸ hx, fun x hx => .inl (hb ▸ hx)⟩
theorem State.Drained.of_flushes (h : s.Drained g) (k : s.Flushes n t) : t.Drained g := fun x hx hd hg =>
  h x (k.within x hx) hd ((State.unitGroup_congr k.still _ _).symm.trans hg)

/-- The blocks of a row leave the buffer. -/
theorem State.flushed_flushes (hs : s.Flushable n) {us : List (Nat × Nat × Nat)} {lost : Bool} (h : lost = true ∨ ∀ k ∈ us, s.Mapped n k) :
    s.Flushes n (s.flushed us lost) := by
  refine ⟨rfl, ⟨hs.wide, hs.first, hs.stamps⟩, fun _ h => h, fun l hl => ?_, fun x hx => (List.mem_filter.mp hx).1, fun x hx => ?_⟩
  · show l ∈ if lost then s.media.lostBlocks ++ _ else s.media.lostBlocks
    split
    · exact List.mem_append_left _ hl
    · exact hl
  · by_cases hm : (x.dirty && us.contains x.key) = true
    · refine .inr ?_
      obtain rfl | h := h
      · exact .inl (List.mem_append_right _ (List.mem_map.mpr ⟨x, List.mem_filter.mpr ⟨hx, hm⟩, rfl⟩))
      · exact .inr (h _ (List.contains_iff_mem.mp (Bool.and_eq_true _ _ ▸ hm : (_ = true) ∧ (_ = true)).2))
    · exact .inl (List.mem_filter.mpr ⟨hx, by rw [Bool.not_eq_true']; exact Bool.eq_false_iff.mpr hm⟩)
theorem State.flushed_shorter {us : List (Nat × Nat × Nat)} (lost : Bool) {y : WbBlock} (hy : y ∈ s.media.buffer) (hd : y.dirty = true) (hk : y.key ∈ us) :
    (s.flushed us lost).media.buffer.length < s.media.buffer.length := by
  refine List.length_filter_lt_length_iff_exists.mpr ⟨y, hy, ?_⟩
  rw [Bool.not_eq_true, Bool.not_eq_false']
  exact (Bool.and_eq_true _ _).mpr ⟨hd, List.contains_iff_mem.mpr hk⟩
/-- One row of the flush. -/
theorem State.flushRow_spec {k k' : Nat} {failed : List (Nat × Nat)} (hs : s.Flushable n) (h : s.flushRow g k failed = some (t, k')) : s.Flushes n t
    ∧ ∀ x ∈ s.media.buffer, x.dirty = true → s.unitGroup x.fn x.nsid = some g → t.media.buffer.length < s.media.buffer.length := by
  have hend : ∀ {v : State} {ok : Bool} {us : List (Nat × Nat × Nat)} (lost : Bool), s.Attempted n g ok us v → (lost = true ∨ ok = true) →
      s.Flushes n (v.flushed us lost) ∧ ∀ x ∈ s.media.buffer, x.dirty = true → s.unitGroup x.fn x.nsid = some g →
        (v.flushed us lost).media.buffer.length < s.media.buffer.length := by
    intro v ok us lost hv hl
    refine ⟨hv.flushes.trans (State.flushed_flushes hv.ready (hl.imp id hv.placed)), fun x hx hd hg => ?_⟩
    obtain ⟨y, hy, hyd, -, hyk⟩ := hv.takes x hx hd hg
    have hb : v.media.buffer = s.media.buffer := congrArg Prod.fst hv.buffer
    rw [← hb] at hy ⊢
    exact State.flushed_shorter lost hy hyd hyk
  unfold State.flushRow at h
  split at h
  · cases h
  · next h1 =>
    cases h
    exact hend false (State.flushAttempt_spec hs h1) (.inr rfl)
  · next us0 set0 u h1 =>
    have ha := State.flushAttempt_spec hs h1
    split at h
    · cases h
      exact hend true ha (.inl rfl)
    · next ok us _ v h2 =>
      cases h
      have hb := State.flushAttempt_spec ha.ready h2
      have hbuf : u.media.buffer = s.media.buffer := congrArg Prod.fst ha.buffer
      have hboth : s.Attempted n g ok us v := by
        refine ⟨hb.still.trans ha.still, hb.buffer.trans ha.buffer, hb.ready, fun x hx => hb.mapped x (ha.mapped x hx), hb.placed, fun x hx hd hg => ?_⟩
        obtain ⟨y, hy, h3, h4, h5⟩ := hb.takes x (hbuf ▸ hx) hd ((State.unitGroup_congr ha.still _ _).trans hg)
        exact ⟨y, hbuf ▸ hy, h3, (State.unitGroup_congr ha.still _ _).symm.trans h4, h5⟩
      exact hend (!ok) hboth (by cases ok <;> simp)
/-- The blocks of a group are lost. -/
def State.loseGroup (s : State) (g : Nat) : State := s.modMedia fun m => { m with
  lostBlocks := m.lostBlocks ++ (m.buffer.filter fun x => x.dirty && s.unitGroup x.fn x.nsid == some g).map fun x => (x.fn, x.nsid, x.lba, x.seq)
  buffer := m.buffer.filter fun x => !(x.dirty && s.unitGroup x.fn x.nsid == some g) }
theorem State.loseGroup_spec (hs : s.Flushable n) : s.Flushes n (s.loseGroup g) ∧ (s.loseGroup g).Drained g := by
  refine ⟨⟨rfl, ⟨hs.wide, hs.first, hs.stamps⟩, fun _ h => h, fun l hl => List.mem_append_left _ hl, fun x hx => (List.mem_filter.mp hx).1,
    fun x hx => ?_⟩, fun x hx hd hg => ?_⟩
  · by_cases hm : (x.dirty && s.unitGroup x.fn x.nsid == some g) = true
    · exact .inr (.inl (List.mem_append_right _ (List.mem_map.mpr ⟨x, List.mem_filter.mpr ⟨hx, hm⟩, rfl⟩)))
    · exact .inl (List.mem_filter.mpr ⟨hx, by rw [Bool.not_eq_true']; exact Bool.eq_false_iff.mpr hm⟩)
  · have hk := (List.mem_filter.mp hx).2
    rw [hd, show s.unitGroup x.fn x.nsid = some g from hg] at hk
    simp at hk
/-- The rows of a group. -/
theorem State.flushGroup_spec (f : Nat) {s : State} (k : Nat) (failed : List (Nat × Nat)) (hs : s.Flushable n) (hf : s.media.buffer.length ≤ f) :
    s.Flushes n (s.flushGroup g failed f k).1 ∧ (s.flushGroup g failed f k).1.Drained g := by
  induction f generalizing s k with
  | zero =>
    refine ⟨.refl hs, fun x hx => ?_⟩
    have hnil : s.media.buffer = [] := List.length_eq_zero_iff.mp (Nat.le_zero.mp hf)
    exact absurd (hnil ▸ (hx : x ∈ s.media.buffer)) List.not_mem_nil
  | succ f ih =>
    unfold State.flushGroup
    split
    · next hany =>
      obtain ⟨x, hx, hc⟩ := List.any_eq_true.mp hany
      rw [Bool.and_eq_true, beq_iff_eq] at hc
      split
      · next u k' hrow =>
        obtain ⟨h1, h2⟩ := State.flushRow_spec hs hrow
        have := h2 x hx hc.1 hc.2
        obtain ⟨h3, h4⟩ := ih k' h1.ready (by omega)
        exact ⟨h1.trans h3, h4⟩
      · exact State.loseGroup_spec hs
    · next hany =>
      refine ⟨.refl hs, fun x hx hd hg => hany ?_⟩
      exact List.any_eq_true.mpr ⟨x, hx, by rw [hd, hg]; exact beq_self_eq_true _⟩

/-- The rows of some groups. -/
theorem State.flushGroups_spec (failed : List (Nat × Nat)) (l : List Nat) {s : State} (k : Nat) (hs : s.Flushable n) :
    let t := (l.foldl (fun (acc : State × Nat) g => acc.1.flushGroup g failed acc.1.media.buffer.length acc.2) (s, k)).1
    s.Flushes n t ∧ ∀ g ∈ l, t.Drained g := by
  induction l generalizing s k with
  | nil => exact ⟨.refl hs, fun _ h => absurd h List.not_mem_nil⟩
  | cons g l ih =>
    intro t
    obtain ⟨h1, h2⟩ := State.flushGroup_spec (g := g) s.media.buffer.length k failed hs (Nat.le_refl _)
    obtain ⟨h3, h4⟩ := ih (s.flushGroup g failed s.media.buffer.length k).2 h1.ready
    refine ⟨h1.trans h3, fun j hj => ?_⟩
    obtain rfl | hj := List.mem_cons.mp hj
    · exact h2.of_flushes h3
    · exact h4 j hj

end

/-- P2, with neither rail tripped. -/
theorem p2Flush_flushes {s : State} (hs : s.power.stage = .shed) (hr : s.power.trippedRail = none) (failed : List (Nat × Nat))
    (hw : ∀ b ∈ s.media.superblocks, 8 ≤ b.slots.length) (hst : ∀ u ∈ s.media.units, u.stamp < s.media.nextJob) :
    ∃ t, exec (.p2Flush failed) s = .next t ∧ t.power = { s.power with stage := .flushed } ∧ t.ctrs = s.ctrs
      ∧ t.pcie = s.pcie ∧ t.host = s.host ∧ t.tenants = s.tenants
      ∧ (∀ d ∈ t.media.dies, d.queue = [] ∧ d.running = none ∧ d.suspended = none)
      ∧ (∀ x ∈ t.media.buffer, x ∈ (s.media.buffer.map fun y => { y with job := none }) ∧ x.dirty = true)
      ∧ ∀ x ∈ s.media.buffer, x.dirty = true → ∀ g, g < 4 → s.unitGroup x.fn x.nsid = some g →
        (x.fn, x.nsid, x.lba, x.seq) ∈ t.media.lostBlocks ∨ ∃ u ∈ t.media.units, u.fn = x.fn ∧ u.nsid = x.nsid
          ∧ u.unit = x.lba / 4 ∧ s.media.nextJob ≤ u.stamp ∧ ∃ sb q, u.place = .at sb q := by
  obtain ⟨u, hu⟩ : ∃ u, u = s.modMedia fun m => { m with
    dies := m.dies.map fun x => { x with queue := [], running := none, suspended := none, resetting := none, nestedUsed := false }
    jobs := [], reads := [], flushes := [], recoveries := [], copied := []
    buffer := (m.buffer.filter (·.dirty)).map fun x => { x with job := none } } := ⟨_, rfl⟩
  have huf : u.Flushable s.media.nextJob := by
    rw [hu]
    exact ⟨hw, Nat.le_refl _, hst⟩
  have hbuf : u.media.buffer = (s.media.buffer.filter (·.dirty)).map fun x => { x with job := none } := by rw [hu]; rfl
  have hdies : ∀ d ∈ u.media.dies, d.queue = [] ∧ d.running = none ∧ d.suspended = none := by
    rw [hu]
    intro d hd
    obtain ⟨y, -, rfl⟩ := List.mem_map.mp (show d ∈ s.media.dies.map _ from hd)
    exact ⟨rfl, rfl, rfl⟩
  have hgroup : ∀ fn nsid, u.unitGroup fn nsid = s.unitGroup fn nsid := by
    rw [hu]
    exact fun _ _ => rfl
  have hsans : u.sansMedia = s.sansMedia := by rw [hu]; rfl
  have hflush : s.flushAll failed = ((List.range 4).foldl (fun (acc : State × Nat) g =>
    acc.1.flushGroup g failed acc.1.media.buffer.length acc.2) (u, 0)).1 := by
    rw [hu]
    rfl
  have hx : exec (.p2Flush failed) s = .next ((s.flushAll failed).modPower fun p => { p with stage := .flushed }) := by
    refine (if_neg (not_not.mpr hs)).trans ?_
    rw [hr]
  obtain ⟨h1, h2⟩ := State.flushGroups_spec failed (List.range 4) 0 huf
  rw [← hflush] at h1 h2
  generalize s.flushAll failed = v at h1 h2 hx
  have hv : v.sansMedia = s.sansMedia := (congrArg Prod.fst h1.still :).trans hsans
  refine ⟨_, hx, ?_, (congrArg State.ctrs hv :), (congrArg State.pcie hv :), (congrArg State.host hv :), (congrArg State.tenants hv :), ?_, fun x hx => ?_,
    fun x hx hd g hg hug => ?_⟩
  · exact congrArg (fun p : Power => { p with stage := .flushed }) (congrArg State.power hv :)
  · have hd : v.media.dies = u.media.dies := (congrArg (fun x => x.2.1) h1.still :)
    exact fun d hv => hdies d (hd ▸ hv)
  · obtain ⟨y, hy, rfl⟩ := List.mem_map.mp (hbuf ▸ h1.within x hx)
    obtain ⟨hy, hd⟩ := List.mem_filter.mp hy
    exact ⟨List.mem_map.mpr ⟨y, hy, rfl⟩, hd⟩
  · have hxu : { x with job := none } ∈ u.media.buffer := by
      rw [hbuf]
      exact List.mem_map.mpr ⟨x, List.mem_filter.mpr ⟨hx, hd⟩, rfl⟩
    obtain h | h | h := h1.gone _ hxu
    · refine absurd ?_ (h2 g (List.mem_range.mpr hg) _ h hd)
      exact (State.unitGroup_congr h1.still _ _).trans ((hgroup _ _).trans hug)
    · exact .inl h
    · exact .inr h

end Sys2Proof.Machine
end

section
/-!
PROOFS. Chapter 16: media management (O52).
-/

namespace Sys2Proof.Machine

open Sys2Proof.Safety

/-- RELOCATION_SWITCH, by map entry. -/
theorem relocationSwitch_entries {s : State} (hon : s.power.stage = .on) {sb : Nat} (hj : ∀ j ∈ s.media.jobs, j.kind ≠ .relocation sb) :
    ((∃ c ∈ s.media.copied, c.source = sb ∧ s.movesChannel c = true) → exec (.relocationSwitch sb) s = .next s)
    ∧ ((∀ c ∈ s.media.copied, c.source = sb → s.movesChannel c = false) →
      ∃ t, exec (.relocationSwitch sb) s = .next t ∧ t.office = s.office ∧ t.media.pages = s.media.pages
      ∧ (∀ c ∈ t.media.copied, c.source ≠ sb) ∧ (∀ c ∈ s.media.copied, c.source ≠ sb → c ∈ t.media.copied)
      ∧ (∀ u ∈ s.media.units, (∀ q, u.place ≠ .at sb q) → u ∈ t.media.units)
      ∧ ∀ u ∈ s.media.units, ∀ q, u.place = .at sb q → ∀ c ∈ s.media.copied, c.source = sb → c.superblock ≠ sb →
        c.item = .unit u.fn u.nsid u.unit →
        (∀ y ∈ s.media.copied, y.source = sb → y.item = c.item → y = c) →
          { u with place := .at c.superblock c.page } ∈ t.media.units) := by
  obtain ⟨h1, h2⟩ := relocationSwitch_spec hon hj
  refine ⟨h1, fun hm => ?_⟩
  obtain ⟨t, hx, ho, hp, hc1, hc2, hu⟩ := h2 hm
  have hsrc : ∀ c ∈ s.media.copied.filter (fun c => c.source == sb), c.source = sb := fun c hc => beq_iff_eq.mp (List.mem_filter.mp hc).2
  refine ⟨t, hx, ho, hp, hc1, hc2, fun u hm hq => ?_, fun u hm q hq c hc hcs hne hi hun => ?_⟩
  · rw [hu]
    exact List.mem_map.mpr ⟨u, hm, switches_elsewhere hsrc hq⟩
  · rw [hu]
    refine List.mem_map.mpr ⟨u, hm, switches_of hsrc hq (List.mem_filter.mpr ⟨hc, beq_iff_eq.mpr hcs⟩) hi hne fun y hy hyi => ?_⟩
    exact hun y (List.mem_filter.mp hy).1 (hsrc y hy) hyi

/-- Settles O52, command by command: a checkpoint erases metadata blocks only; one row takes the block that waits; source reads and
copies only queue work, which stays on its dies; a switch moves the entries of what was copied; each row of the flush takes at least one
block, which it places or lists as lost. -/
theorem mediaManagement : Obligations.MediaManagement := by
  unfold Obligations.MediaManagement
  intro s kept maps copying sourcing
  refine ⟨mapReplay_spec, fun g hon hg => ?_, fun g hon ht => ?_, fun g x b s1 hon hd hb hx hfn hg ht h2 => ?_, fun g hon hg hids hb => ?_,
    fun g hon hg hids hb => ?_, fun sb hon hj => ?_, fun sb b hon hb => ?_, fun c d bits result hon hl hlen hcd => ?_, fun failed hs hr hw hst => ?_⟩
  · obtain ⟨t, hx, ho, h⟩ := journalCheckpoint_spec hon hg
    exact ⟨t, hx, office_parts ho, h⟩
  · exact (s.whenOn_of hon _).trans (if_pos ht)
  · obtain ⟨t, hx, ho, h⟩ := partialRowTimeout_spec hon hd hb hx hfn hg ht h2
    exact ⟨t, hx, office_parts ho, h⟩
  · obtain ⟨t, hx, hd, h⟩ := garbageCollection_spec hon hg hids hb
    exact ⟨t, hx, desk_parts hd, h⟩
  · obtain ⟨h1, h2⟩ := staticLevelling_spec hon hg hids hb
    refine ⟨fun hn => ?_, fun b hs => ?_⟩
    · obtain ⟨k1, k2, k3⟩ := h1 hn
      refine ⟨k1, k2, fun hr hd hw => ?_⟩
      obtain ⟨t, hx, hd, h⟩ := k3 hr hd hw
      exact ⟨t, hx, desk_parts hd, h⟩
    · obtain ⟨k1, k2⟩ := h2 b hs
      refine ⟨k1, fun hr => ?_⟩
      obtain ⟨t, hx, hd, h⟩ := k2 hr
      exact ⟨t, hx, desk_parts hd, h⟩
  · obtain ⟨h1, h2⟩ := relocationSwitch_entries hon hj
    refine ⟨h1, fun hm => ?_⟩
    obtain ⟨t, hx, ho, h⟩ := h2 hm
    exact ⟨t, hx, office_parts ho, h⟩
  · obtain ⟨h1, h2⟩ := superblockErase_spec hon hb
    refine ⟨fun hc hv hi hr hne hlen hrange => ?_, h2⟩
    obtain ⟨t, hx, hd, h⟩ := h1 hc hv hi hr hne hlen hrange
    exact ⟨t, hx, desk_parts hd, h⟩
  · intro x i a mine hi hnext
    have hlen' : 32 * c + d < s.media.dies.length := hlen ▸ hcd
    refine ⟨patrolStep_early hon hl bits result hi, fun hn ht => ?_, fun hr => ⟨fun h0 hb => ?_, fun b pg hp hlost hh hb => ?_⟩⟩
    · obtain ⟨h1, h2⟩ := patrolStep_due hon hl bits result hi hnext hn ht
      exact ⟨h1, fun hp hr => h2 hp hlen' hr⟩
    · subst h0
      exact patrolStep_good hon hl hnext hr hb
    · obtain ⟨t, hx, ho, h⟩ := patrolStep_judges hon hl bits result hlen' hnext hr hp hlost hh hb
      exact ⟨t, hx, office_parts ho, h⟩
  · exact p2Flush_flushes hs hr failed hw hst

end Sys2Proof.Machine
end

section
/-!
PROOFS. Chapter 13: contexts, LOAD_CTX and CTX_RELEASE (O47).
-/

namespace Sys2Proof.Machine

open Sys2Proof.Safety

/-! ### Contexts of a unit -/

section
variable {s : State} (hr : RaspOk s) {q : Nat} (h40 : 40 ≤ q) (hq : q < 72)
include hr h40 hq

theorem unit_modUnit (f : RaspUnit → RaspUnit) : (s.modUnit q f).unit q = f (s.unit q) :=
  getD_modify_self _ _ _ _ (by rw [hr.1]; omega)
theorem unit_ctxs_length : (s.unit q).ctxs.length = 4 := by
  refine hr.2 _ ?_
  rw [State.unit, List.getD_eq_getElem _ _ (by rw [hr.1]; omega)]
  exact List.getElem_mem _
theorem context_modContext {x : Nat} (hx : x < 4) (f : Context → Context) : (s.modContext q x f).context q x = f (s.context q x) := by
  unfold State.modContext State.context
  rw [unit_modUnit hr h40 hq]
  exact getD_modify_self _ _ _ _ (by rw [unit_ctxs_length hr h40 hq]; exact hx)
theorem context_modContext_ne {x y : Nat} (h : y ≠ x) (f : Context → Context) : (s.modContext q x f).context q y = s.context q y := by
  unfold State.modContext State.context
  rw [unit_modUnit hr h40 hq]
  exact getD_modify_ne _ _ _ h
omit h40 hq in
theorem raspOk_modContext (x : Nat) (f : Context → Context) : RaspOk (s.modContext q x f) := by
  refine ⟨(List.length_modify ..).trans hr.1, fun u hu => ?_⟩
  obtain ⟨n, hn, rfl⟩ := List.getElem_of_mem hu
  replace hn : n < s.rasp.length := (List.length_modify ..) ▸ hn
  rw [show (s.modContext q x f).rasp[n] = _ from List.getElem_modify ..]
  split
  · exact (List.length_modify ..).trans (hr.2 _ (List.getElem_mem hn))
  · exact hr.2 _ (List.getElem_mem hn)

end

theorem rasp_modContext_ne (s : State) {q p : Nat} (h : p ≠ q - 40) (x : Nat) (f : Context → Context) : (s.modContext q x f).rasp[p]? = s.rasp[p]? := by
  show (s.rasp.modify (q - 40) _)[p]? = _
  exact List.getElem?_modify_ne _ _ h.symm

/-! ### LOAD_CTX -/

theorem need_ok {c : Bool} {r : StopReason} {u : Unit} (h : need c r = .ok u) : c = true := by
  unfold need at h
  split at h
  · assumption
  · cases h
theorem tableBytes_pos {form code n : Nat} (h : tableBytes form code = some n) : 0 < n := by
  unfold tableBytes at h
  split at h
  · split at h
    · next hc => cases h; rw [List.contains_iff_mem] at hc; simp at hc; omega
    · cases h
  · split at h
    · next hc => cases h; rw [List.contains_iff_mem] at hc; simp at hc; omega
    · cases h
  · split at h
    · next hc => cases h; rw [List.contains_iff_mem] at hc; simp at hc; omega
    · cases h
  · cases h
theorem Mem.length_run (d : Nat → Byte) (a n : Nat) (m : Mem) : (Mem.run d a n m).length = n := by
  induction n generalizing a m with
  | zero => cases m <;> rfl
  | succ n ih =>
    cases m with
    | nil => exact congrArg (· + 1) (ih (a + 1) [])
    | cons c m =>
      unfold Mem.run
      split
      · exact congrArg (· + 1) (ih (a + 1) m)
      · exact congrArg (· + 1) (ih (a + 1) (c :: m))
theorem Region.length_get (r : Region) (a n : Nat) : (r.get a n).length = n := Mem.length_run ..
/-- The bytes of a region made of a list. -/
theorem Region.get_ofBytes (bs : List Byte) : (Region.ofBytes bs).get 0 bs.length = bs := by
  rw [Region.get_eq (Region.ofBytes_wf bs)]
  refine List.ext_getElem (by simp) fun n h1 h2 => ?_
  rw [List.getElem_map, List.getElem_range, Nat.zero_add, Region.at_ofBytes]
  exact List.getD_eq_getElem _ _ h2
/-- A read of a tile piece that lies inside its space has its length. -/
theorem spanGet_length {s : State} {i : Invocation} {p : Span} (hm : p.space.mayTile = true) (hi : s.inside i p = true) (hl : 0 < p.len) :
    (s.spanGet i p).length = p.len := by
  have hlen : (s.settle i.tenant p).len = p.len := (congrArg Span.len (s.settle_len i.tenant p p.len) :)
  have hsp : (∃ m, (s.settle i.tenant p).space = .home m) ∨ ∃ x b, (s.settle i.tenant p).space = .buf x .tile ∧ s.bufferAt i.tenant x = some b := by
    unfold State.inside at hi
    rw [Bool.or_eq_true, beq_iff_eq, decide_eq_true_eq] at hi
    replace hi := hi.resolve_left (by omega)
    obtain ⟨sp, off, len⟩ := p
    cases sp with
    | home m => exact .inl ⟨m, rfl⟩
    | buf x pl =>
      cases pl with
      | tile =>
        unfold State.settle
        cases hb : s.bufferAt i.tenant x with
        | none =>
          have hz : s.spaceSize i (.buf x .tile) = 0 := by rw [State.spaceSize, hb]; rfl
          rw [hz] at hi
          change 0 < len at hl
          change off + len ≤ 0 at hi
          omega
        | some b =>
          simp only [Option.bind_some, hb]
          split
          · exact .inl ⟨_, rfl⟩
          · exact .inr ⟨x, b, rfl, hb⟩
      | _ => cases hm
    | unused =>
      change 0 < len at hl
      change off + len ≤ 0 at hi
      omega
    | _ => cases hm
  unfold State.spanGet
  extract_lets q
  rw [← hlen]
  obtain ⟨m, h⟩ | ⟨x, b, h, hb⟩ := hsp
  · rw [show q.space = .home m from h]
    exact Region.length_get ..
  · rw [show q.space = .buf x .tile from h]
    show (((s.bufferAt i.tenant x).map fun b => b.data.get q.off q.len).getD []).length = _
    rw [hb]
    exact Region.length_get ..
/-- What the start checks of LOAD_CTX say of its reads. -/
theorem loadCtxWork_reads {s : State} {q : Nat} {i : Invocation} {e : QEntry} {w : Work} (h : State.loadCtxWork q s i e = .ok w) :
    (s.scanGroup i (groupOf q) = false → w.reads = [])
    ∧ (s.scanGroup i (groupOf q) = true → ∃ src par, w.reads = src :: par ∧ (s.spanGet i src).length = src.len
      ∧ (fld e.desc 33 5 5 = 0 → par = [])) := by
  unfold State.loadCtxWork at h
  extract_lets d kind form keep pv code k x lane n c at h
  obtain ⟨_, -, h⟩ := except_bind_ok h
  obtain ⟨_, hform, h⟩ := except_bind_ok h
  split at h
  · next hg =>
    cases h
    exact ⟨fun _ => rfl, fun ht => by rw [ht] at hg; cases hg⟩
  · next hg =>
    replace hg : s.scanGroup i (groupOf q) = true := by simpa using hg
    obtain ⟨src, hsrc, h⟩ := except_bind_ok h
    obtain ⟨_, htile, h⟩ := except_bind_ok h
    have hlen : src.len = n ∧ 0 < n := by
      refine ⟨?_, ?_⟩
      · unfold State.piece at hsrc
        split at hsrc
        · cases hsrc
        · cases hsrc
          rfl
      · have hsome : (tableBytes form code).isSome = true := by
          have := need_ok hform
          simp only [Bool.and_eq_true] at this
          exact this.1.2
        obtain ⟨m, hm⟩ := Option.isSome_iff_exists.mp hsome
        show 0 < (tableBytes form code).getD 0
        rw [hm]
        exact tableBytes_pos hm
    have hspan (par : List Span) {u : Unit} (hin : s.needInside i (src :: par) = .ok u) : (s.spanGet i src).length = src.len := by
      have hall := need_ok hin
      rw [List.all_cons, Bool.and_eq_true] at hall
      have hm := need_ok htile
      rw [Bool.and_eq_true] at hm
      exact spanGet_length hm.1 hall.1 (by rw [hlen.1]; exact hlen.2)
    split at h
    · next hpv =>
      obtain ⟨p, -, h⟩ := except_bind_ok h
      obtain ⟨_, -, h⟩ := except_bind_ok h
      obtain ⟨par, -, h⟩ := except_bind_ok h
      obtain ⟨_, hin, h⟩ := except_bind_ok h
      obtain ⟨_, -, h⟩ := except_bind_ok h
      cases h
      refine ⟨fun hf => absurd (hf.symm.trans hg) Bool.false_ne_true, fun _ => ⟨src, par, rfl, hspan _ hin, fun hz => ?_⟩⟩
      have hpv : fld e.desc 33 5 5 = 1 := hpv
      omega
    · obtain ⟨par, hpar, h⟩ := except_bind_ok h
      obtain ⟨_, hin, h⟩ := except_bind_ok h
      obtain ⟨_, -, h⟩ := except_bind_ok h
      cases hpar
      cases h
      exact ⟨fun hf => absurd (hf.symm.trans hg) Bool.false_ne_true, fun _ => ⟨src, [], rfl, hspan _ hin, fun _ => rfl⟩⟩

theorem loadCtx_lt (e : QEntry) : loadCtx e < 4 := Nat.mod_lt _ (by decide)
theorem fld_bit {d : BitVec 512} {b n : Nat} (h : fld d b n n ≠ 1) : fld d b n n = 0 := by
  have : fld d b n n < 2 ^ (n + 1 - n) := Nat.mod_lt _ (Nat.two_pow_pos _)
  rw [Nat.add_sub_cancel_left] at this
  omega

/-- A Rasp operation changes contexts of its unit alone. -/
theorem modContext_minding (s : State) (q x : Nat) (f : Context → Context) : State.Minding q s (s.modContext q x f) :=
  ⟨rfl, rfl, rfl, rfl, rfl, rfl, rfl, rfl, rfl, fun _ _ => rfl, rfl⟩
/-- The blocks beside a unit that a Rasp operation leaves. -/
def RaspOnly (s t : State) (q u : Nat) (ps : List Span) : Prop :=
  MemKept s t u ps ∧ t.host = s.host ∧ t.invocations = s.invocations ∧ t.pairs = s.pairs ∧ ∀ p, p ≠ q - 40 → t.rasp[p]? = s.rasp[p]?

section
variable {s : State} {q k : Nat} {e : QEntry} {i : Invocation} {w : Work} (hs : Sound s) (hr : RaspOk s) (h40 : 40 ≤ q) (hq : q < 72)
include hs hr h40 hq

/-- The context of a LOAD_CTX, after it. -/
def loadedCtx (s : State) (i : Invocation) (e : QEntry) (src : Span) (par : List Span) (c : Context) : Context :=
  { c with table := Region.ofBytes (s.spanGet i src)
           param := match par with
             | p :: _ => s.spanGet i p
             | [] => List.replicate 64 0
           kind := fld e.desc 33 1 0, form := fld e.desc 33 3 2, codeBytes := fld e.desc 34 7 0
           heap := if fld e.desc 33 4 4 = 1 then c.heap else []
           heapK := if fld e.desc 33 4 4 = 1 then c.heapK else fld e.desc 36 10 0 }
/-- LOAD_CTX. -/
theorem loadCtx_performs (hrun : Running s q 3 1 k e i) (hw : State.loadCtxWork q s i e = .ok w) : Performs (.loadCtx ⟨q, []⟩) s q k fun t =>
    RaspOnly s t q i.tenant w.writes ∧ (s.scanGroup i (groupOf q) = false → t.rasp = s.rasp)
    ∧ (s.scanGroup i (groupOf q) = true → (∀ n, n ≠ loadCtx e → t.context q n = s.context q n)
      ∧ (t.context q (loadCtx e)).holder = (s.context q (loadCtx e)).holder ∧ (t.context q (loadCtx e)).kind = fld e.desc 33 1 0
      ∧ (t.context q (loadCtx e)).form = fld e.desc 33 3 2 ∧ (t.context q (loadCtx e)).codeBytes = fld e.desc 34 7 0
      ∧ (fld e.desc 33 4 4 = 0 → (t.context q (loadCtx e)).heap = [] ∧ (t.context q (loadCtx e)).heapK = fld e.desc 36 10 0)
      ∧ (fld e.desc 33 4 4 = 1 → (t.context q (loadCtx e)).heap = (s.context q (loadCtx e)).heap)
      ∧ ∀ src rest, w.reads = src :: rest → (t.context q (loadCtx e)).table.get 0 src.len = s.spanGet i src
        ∧ (fld e.desc 33 5 5 = 0 → (t.context q (loadCtx e)).param = List.replicate 64 0)
        ∧ ∀ par, rest = [par] → (t.context q (loadCtx e)).param = s.spanGet i par) := by
  obtain ⟨h0, h1⟩ := loadCtxWork_reads hw
  cases hg : s.scanGroup i (groupOf q) with
  | false =>
    have hx : exec (.loadCtx ⟨q, []⟩) s = .next (s.runOp q 3 1 (State.loadCtxWork q) fun s i e w => _) := rfl
    refine performs_of hrun hw hx (u := s) ?_ (.refl q s) ⟨⟨memKept_of_tenants rfl _ _, rfl, rfl, rfl, fun _ _ => rfl⟩, fun _ => rfl,
      fun h => absurd h Bool.false_ne_true⟩
    rw [h0 hg]
  | true =>
    obtain ⟨src, par, hreads, hlen, hpar⟩ := h1 hg
    have hx : exec (.loadCtx ⟨q, []⟩) s = .next (s.runOp q 3 1 (State.loadCtxWork q) fun s i e w => _) := rfl
    refine performs_of hrun hw hx (u := s.modContext q (loadCtx e) (loadedCtx s i e src par)) ?_ (modContext_minding ..) ?_
    · dsimp only
      rw [hreads]
      dsimp only
      rw [sound_fetch hs]
      dsimp only
      rw [sound_clearWords hs, sound_clearWords hs, ite_self]
      rfl
    · obtain ⟨u, hu⟩ : ∃ u, u = s.modContext q (loadCtx e) (loadedCtx s i e src par) := ⟨_, rfl⟩
      have hctx : u.context q (loadCtx e) = loadedCtx s i e src par (s.context q (loadCtx e)) := by
        rw [hu]
        exact context_modContext hr h40 hq (loadCtx_lt e) _
      have hne : ∀ n, n ≠ loadCtx e → u.context q n = s.context q n := fun n hn => by
        rw [hu]
        exact context_modContext_ne hr h40 hq hn _
      have honly : RaspOnly s u q i.tenant w.writes := by
        rw [hu]
        exact ⟨memKept_of_tenants rfl _ _, rfl, rfl, rfl, fun p hp => rasp_modContext_ne s hp _ _⟩
      rw [← hu]
      refine ⟨honly, fun h => absurd h.symm Bool.false_ne_true, fun _ => ⟨hne, ?_⟩⟩
      show (u.context q (loadCtx e)).holder = _ ∧ _
      have hgoal : ∀ c, c = loadedCtx s i e src par (s.context q (loadCtx e)) → c.holder = (s.context q (loadCtx e)).holder ∧ c.kind = fld e.desc 33 1 0
          ∧ c.form = fld e.desc 33 3 2 ∧ c.codeBytes = fld e.desc 34 7 0
          ∧ (fld e.desc 33 4 4 = 0 → c.heap = [] ∧ c.heapK = fld e.desc 36 10 0)
          ∧ (fld e.desc 33 4 4 = 1 → c.heap = (s.context q (loadCtx e)).heap)
          ∧ ∀ src rest, w.reads = src :: rest → c.table.get 0 src.len = s.spanGet i src
            ∧ (fld e.desc 33 5 5 = 0 → c.param = List.replicate 64 0) ∧ ∀ par, rest = [par] → c.param = s.spanGet i par := by
        rintro c rfl
        refine ⟨rfl, rfl, rfl, rfl, fun h => ⟨if_neg (by omega), if_neg (by omega)⟩, fun h => if_pos h, fun src' rest h => ?_⟩
        rw [hreads] at h
        obtain ⟨rfl, rfl⟩ := List.cons.inj h
        refine ⟨?_, fun hz => ?_, fun p hp => ?_⟩
        · rw [← hlen]
          exact Region.get_ofBytes _
        · obtain rfl := hpar hz
          rfl
        · obtain rfl := hp
          rfl
      exact hgoal _ hctx

omit hs in
/-- The contexts that an invocation holds are freed. -/
theorem freeCtxs_spec (l : List Nat) (hl : ∀ x ∈ l, x < 4) : State.Minding q s (s.freeCtxs q e l)
    ∧ { s.freeCtxs q e l with rasp := s.rasp } = s ∧ (∀ p, p ≠ q - 40 → (s.freeCtxs q e l).rasp[p]? = s.rasp[p]?)
    ∧ ∀ n, (s.freeCtxs q e l).context q n = if n ∈ l ∧ s.holdsCtx q e n = true then { s.context q n with holder := none } else s.context q n := by
  induction l generalizing s with
  | nil => exact ⟨.refl q s, rfl, fun _ _ => rfl, fun n => (if_neg (by simp)).symm⟩
  | cons x l ih =>
    have hstep : s.freeCtxs q e (x :: l) = (if s.holdsCtx q e x then s.modContext q x fun c => { c with holder := none } else s).freeCtxs q e l := rfl
    rw [hstep]
    have hlx : x < 4 := hl x List.mem_cons_self
    have hl' : ∀ y ∈ l, y < 4 := fun y hy => hl y (List.mem_cons_of_mem _ hy)
    by_cases hx : s.holdsCtx q e x = true
    · rw [if_pos hx]
      obtain ⟨h1, h2, h3, h4⟩ := ih (raspOk_modContext hr x fun c => { c with holder := none }) hl'
      refine ⟨(modContext_minding s q x _).trans h1, (congrArg (fun t : State => { t with rasp := s.rasp }) h2 :),
        fun p hp => (h3 p hp).trans (rasp_modContext_ne s hp x _), fun n => ?_⟩
      rw [h4]
      by_cases hn : n = x
      · subst hn
        have hfree : (s.modContext q n fun c => { c with holder := none }).context q n = { s.context q n with holder := none } :=
          context_modContext hr h40 hq hlx _
        refine Eq.trans ?_ (if_pos ⟨List.mem_cons_self, hx⟩).symm
        rw [State.holdsCtx, hfree]
        exact if_neg (by simp)
      · rw [State.holdsCtx, context_modContext_ne hr h40 hq hn]
        refine if_congr (and_congr_left fun _ => ?_) rfl rfl
        rw [List.mem_cons, or_iff_right hn]
    · rw [if_neg hx]
      obtain ⟨h1, h2, h3, h4⟩ := ih hr hl'
      refine ⟨h1, h2, h3, fun n => (h4 n).trans ?_⟩
      by_cases hn : n = x
      · subst hn
        rw [if_neg (fun h => hx h.2), if_neg (fun h => hx h.2)]
      · refine if_congr (and_congr_left fun _ => ?_) rfl rfl
        rw [List.mem_cons, or_iff_right hn]
omit hs hr h40 hq in
theorem mem_ctxsOf {m n : Nat} : n ∈ ctxsOf m ↔ n < 4 ∧ bit m n = true := by rw [ctxsOf, List.mem_filter, List.mem_range]
omit hs hr h40 hq in
theorem fld4_bit {d : BitVec 512} {b n : Nat} (h : bit (fld d b 3 0) n = true) : n < 4 := by
  have hlt : fld d b 3 0 < 2 ^ 4 := Nat.mod_lt _ (by decide)
  by_contra hn
  exact absurd (h.symm.trans (Nat.testBit_lt_two_pow (hlt.trans_le (Nat.pow_le_pow_right (by decide) (by omega))))) (by decide)
omit hs in
/-- CTX_RELEASE. -/
theorem ctxRelease_performs (hrun : Running s q 3 4 k e i) (hw : s.ctxReleaseWork i e = .ok w) : Performs (.ctxRelease q) s q k fun t =>
    RaspOnly s t q i.tenant w.writes ∧ ∀ n, t.context q n = if s.scanGroup i (groupOf q) && bit (fld e.desc 16 3 0) n && s.holdsCtx q e n
      then { s.context q n with holder := none } else s.context q n := by
  have hx : exec (.ctxRelease q) s = .next (s.runOp q 3 4 State.ctxReleaseWork fun s i e _ =>
    if s.scanGroup i (groupOf q) then (s.freeCtxs q e (ctxsOf (fld e.desc 16 3 0)), .done) else (s, .done)) := rfl
  cases hg : s.scanGroup i (groupOf q) with
  | false =>
    refine performs_of hrun hw hx (u := s) (if_neg (by simp [hg])) (.refl q s) ⟨⟨memKept_of_tenants rfl _ _, rfl, rfl, rfl, fun _ _ => rfl⟩, fun n => ?_⟩
    rfl
  | true =>
    obtain ⟨h1, h2, h3, h4⟩ := freeCtxs_spec (e := e) hr h40 hq (ctxsOf (fld e.desc 16 3 0)) (fun x hx => (mem_ctxsOf.mp hx).1)
    generalize hu : s.freeCtxs q e (ctxsOf (fld e.desc 16 3 0)) = u at h1 h2 h3 h4
    refine performs_of hrun hw hx (u := u) ((if_pos hg).trans (by rw [hu])) h1 ⟨⟨memKept_of_tenants (congrArg State.tenants h2 :) _ _,
      (congrArg State.host h2 :), (congrArg State.invocations h2 :), (congrArg State.pairs h2 :), h3⟩, fun n => (h4 n).trans ?_⟩
    rw [Bool.true_and]
    refine if_congr ?_ rfl rfl
    rw [Bool.and_eq_true, mem_ctxsOf]
    exact ⟨fun h => ⟨h.1.2, h.2⟩, fun h => ⟨⟨fld4_bit h.1, h.1⟩, h.2⟩⟩

end

end Sys2Proof.Machine
end

section
/-!
PROOFS. Chapter 13: the read-ahead of a SCAN (O47).
-/

namespace Sys2Proof.Machine

open Sys2Proof.Safety

/-- The reads of units on live dies change the dies alone. -/
theorem requests_sansDies {α : Type} (f : State → α → State) (hf : ∀ s a, f s a = s ∨ ∃ sb p cw r, f s a = s.request sb p cw r) (l : List α) {s : State}
    (hl : ∀ c d, s.dieLive c d = true) : (l.foldl f s).sansDies = s.sansDies := by
  induction l generalizing s with
  | nil => rfl
  | cons a l ih =>
    have hstep : (f s a).sansDies = s.sansDies ∧ ∀ c d, (f s a).dieLive c d = true := by
      obtain h | ⟨sb, p, cw, r, h⟩ := hf s a
      · rw [h]
        exact ⟨rfl, hl⟩
      · rw [h]
        unfold State.request
        split
        · exact ⟨rfl, hl⟩
        · dsimp only
          rw [if_pos (hl _ _)]
          exact ⟨s.enqueue_sansDies _ _ _, fun c d => ((s.enqueue_reads _ _ _).dieLive c d).trans (hl c d)⟩
    exact (ih hstep.2).trans hstep.1
/-- The read of a unit ahead, for the SCAN of an entry. -/
def aheadRead (q : Nat) (e : QEntry) (t : Nat) (s : State) (u : Nat) : State :=
  match s.unitPlace t u with
  | some (sb, p, none) => s.request sb p (u % 4) (.scan e.tenant e.tag u (chanOf q))
  | _ => s
theorem aheadRead_cases (q : Nat) (e : QEntry) (t : Nat) (s : State) (u : Nat) :
    aheadRead q e t s u = s ∨ ∃ sb p cw r, aheadRead q e t s u = s.request sb p cw r := by
  unfold aheadRead
  split
  · exact .inr ⟨_, _, _, _, rfl⟩
  · exact .inl rfl
/-- SCAN_READ_AHEAD. -/
theorem scanReadAhead_spec {s : State} (hr : RaspOk s) {q : Nat} (h40 : 40 ≤ q) (hq : q < 72) {n : Nat} {e : QEntry} {i : Invocation}
    (he : (s.queue q).entries[n]? = some e) (ho : e.origin = .word) (hc : classOf e.desc = 3) (hop : opOf e.desc = 2) (hw : s.waitMet e = true)
    (hold : ∀ m f, m < n → (s.queue q).entries[m]? = some f → ¬ (f.tenant = e.tenant ∧ classOf f.desc = 3 ∧ opOf f.desc = 2))
    (hi : s.invocation? e.tenant e.tag = some i) (hl : ∀ c d, s.dieLive c d = true) {plan lists : Span} (hp : s.scanPieces q i e = some (plan, lists)) :
    ∃ t, exec (.scanReadAhead q n) s = .next t ∧ (t.queue q).entries[n]? = some { e with begun := true }
      ∧ (∀ m, t.context q m = s.context q m) ∧ t.ctrs = s.ctrs ∧ t.pairs = s.pairs ∧ t.host = s.host ∧ MemKept s t i.tenant [] := by
  have holdest : (((s.queue q).entries.take n).any fun x =>
      x.origin == .word && classOf x.desc == 3 && opOf x.desc == 2 && x.tenant == e.tenant) = false := by
    rw [List.any_eq_false]
    intro f hf hc
    obtain ⟨m, hm, rfl⟩ := List.getElem_of_mem hf
    rw [List.length_take] at hm
    simp only [List.getElem_take, Bool.and_eq_true, beq_iff_eq] at hc
    exact hold m _ (by omega) (List.getElem?_eq_getElem (by omega)) ⟨hc.2, hc.1.1.2, hc.1.2⟩
  have key : ∃ (f : State → Nat → State) (l : List Nat) (g : RaspUnit → RaspUnit),
      exec (.scanReadAhead q n) s = .next (l.foldl f ((s.modUnit q g).modEntry q n fun x => { x with begun := true }))
      ∧ (∀ u, (g u).ctxs = u.ctxs) ∧ ∀ s a, f s a = s ∨ ∃ sb p cw r, f s a = s.request sb p cw r := by
    refine ⟨aheadRead q e i.tenant, ?_, ?_, ?_, ?_, aheadRead_cases q e i.tenant⟩
    rotate_left 2
    · show execScanReadAhead q n s = _
      unfold execScanReadAhead
      rw [he]
      dsimp only
      rw [if_neg, hi]
      · dsimp only
        rw [hp]
        rfl
      · have hscan : (e.origin == .word && classOf e.desc == 3 && opOf e.desc == 2 && e.tenant == e.tenant) = true := by
          simp [ho, hc, hop]
        have hnone : ((!(e.origin == .word && classOf e.desc == 3 && opOf e.desc == 2 && e.tenant == e.tenant)) || !s.waitMet e
            || !((((s.queue q).entries.take n).any fun x =>
              x.origin == .word && classOf x.desc == 3 && opOf x.desc == 2 && x.tenant == e.tenant) == false)) = false := by
          rw [hscan, hw, holdest]
          rfl
        exact fun h => Bool.false_ne_true (hnone.symm.trans h)
    · exact fun u => rfl
  obtain ⟨f, l, g, hx, hg, hf⟩ := key
  obtain ⟨u, hu⟩ : ∃ u, u = (s.modUnit q g).modEntry q n fun x => { x with begun := true } := ⟨_, rfl⟩
  rw [← hu] at hx
  have hd := requests_sansDies f hf l (s := u) (by rw [hu]; exact hl)
  generalize l.foldl f u = t at hx hd
  refine ⟨t, hx, ?_, fun m => ?_, ?_, ?_, ?_, ?_⟩
  · rw [show t.queue q = u.queue q from (congrArg (fun x : State => x.queue q) hd :), hu,
      State.queue_modEntry (s.modUnit q g) n _ (State.lt_of_entry he)]
    show ((s.queue q).entries.modify n _)[n]? = _
    rw [List.getElem?_modify_eq, he]
    rfl
  · refine (congrArg (fun x : State => x.context q m) hd :).trans ?_
    rw [hu]
    show (((s.modUnit q g).unit q).ctxs).getD m {} = _
    rw [unit_modUnit hr h40 hq, hg]
    rfl
  · exact (congrArg State.ctrs hd :).trans (by rw [hu]; rfl)
  · exact (congrArg State.pairs hd :).trans (by rw [hu]; rfl)
  · exact (congrArg State.host hd :).trans (by rw [hu]; rfl)
  · exact memKept_of_tenants ((congrArg State.tenants hd :).trans (by rw [hu]; rfl)) _ _

end Sys2Proof.Machine
end

section
/-!
PROOFS. Chapter 13: SCAN (O47).
-/

namespace Sys2Proof.Machine

open Sys2Proof.Safety

/-! ### What the walk of a plan leaves -/

/-- What a walk never changes: the counters, the pairs, the queues, and the stall count of its unit. -/
def State.scanView (q : Nat) (s : State) := (s.ctrs, s.pairs, s.queues, s.rasp.length, (s.unit q).stall)

theorem State.modUnit_scanView (q : Nat) (s : State) {f : RaspUnit → RaspUnit} (hf : ∀ u, (f u).stall = u.stall) :
    (s.modUnit q f).scanView q = s.scanView q := by
  have hst : ((s.modUnit q f).unit q).stall = (s.unit q).stall := by
    by_cases h : q - 40 < s.rasp.length
    · rw [show (s.modUnit q f).unit q = f (s.unit q) from getD_modify_self _ _ _ _ h, hf]
    · rw [State.modUnit, List.modify_eq_self (Nat.le_of_not_lt h)]
  exact Prod.ext rfl (Prod.ext rfl (Prod.ext rfl (Prod.ext (List.length_modify ..) hst)))
theorem State.log_scanView (q : Nat) (s : State) (page : Nat) (body : List Byte) (fault : Bool) (owner : Nat) (event : Bool) :
    (s.log page body fault owner event).scanView q = s.scanView q := (congrArg (State.scanView q) (s.log_frame page body fault owner event) :)
theorem State.scanView_of_sansMedia (q : Nat) {s t : State} (h : t.sansMedia = s.sansMedia) : t.scanView q = s.scanView q :=
  (congrArg (State.scanView q) h :)
theorem State.markUnreadable_sansMedia (s : State) (a : PageAddr) (w f : Nat) : (s.markUnreadable a w f).sansMedia = s.sansMedia := by
  unfold State.markUnreadable
  extract_lets v
  have hv : v.sansMedia = s.sansMedia := rfl
  split
  · exact hv
  · exact (State.modMedia_sansMedia v _).trans hv
theorem State.unrecovered_scanView (q : Nat) (s : State) {r : Recovery} {t tag u c : Nat} (h : r.readers = [.scan t tag u c]) :
    (s.unrecovered r).scanView q = s.scanView q := by
  unfold State.unrecovered
  extract_lets s1 s2 s3
  have h1 : s1.scanView q = s.scanView q := rfl
  have h2 : s2.scanView q = s1.scanView q := s1.log_scanView q ..
  have h3 : s3.scanView q = s2.scanView q := ite_keep (State.scanView q) (State.scanView_of_sansMedia q (State.markUnreadable_sansMedia ..)) rfl
  clear_value s3
  rw [h]
  exact h3.trans (h2.trans h1)
theorem State.takeUnit_scanView (q : Nat) (s : State) (t tag u : Nat) (retried : List Nat) : (s.takeUnit q t tag u retried).1.scanView q = s.scanView q := by
  unfold State.takeUnit
  split
  · rfl
  · extract_lets x held dead tries s1 s2
    split
    · exact (State.unrecovered_scanView q s.newFault.2 rfl).trans rfl
    · split
      · exact s.modUnit_scanView q fun _ => rfl
      · have h1 : s1.scanView q = s.scanView q := ite_keep (State.scanView q) rfl rfl
        exact (ite_keep (State.scanView q) rfl rfl : s2.scanView q = s1.scanView q).trans h1
  · rfl
theorem RaspUnit.score_stall (u : RaspUnit) (l : Layout) (bias : List Nat) (r : Nat → Byte) (pass : List Nat) : (u.score l bias r pass).stall = u.stall := by
  unfold RaspUnit.score
  extract_lets id norm
  refine foldl_keep RaspUnit.stall _ (fun u x => ?_) pass u
  extract_lets
  exact ite_keep RaspUnit.stall rfl rfl
theorem State.streamUnit_scanView (q : Nat) (s : State) (t layout : Nat) (l : Layout) (p : ScanEntry) (mask k n : Nat) (bs : List Byte) :
    (s.streamUnit q t layout l p mask k n bs).scanView q = s.scanView q := by
  unfold State.streamUnit
  extract_lets b all s1 s2
  have h1 : s1.scanView q = s.scanView q := s.modUnit_scanView q fun _ => rfl
  have h2 : s2.scanView q = s1.scanView q := by
    refine foldl_keep (State.scanView q) _ (fun u j => ?_) _ s1
    extract_lets at_ v u1
    exact (u1.modUnit_scanView q fun y => y.score_stall _ _ _ _).trans (ite_keep (State.scanView q) rfl rfl)
  refine Eq.trans ?_ (h2.trans h1)
  unfold State.logicActs
  split
  · rfl
  · split <;> rfl
theorem State.walkUnits_scanView (q : Nat) (i : Invocation) (layout : Nat) (l : Layout) (p : ScanEntry) (mask : Nat) (retried : List Nat)
    (limit : Option Nat) (us : List (Nat × Nat)) (s : State) : (s.walkUnits q i layout l p mask retried limit us).1.scanView q = s.scanView q := by
  induction us generalizing s with
  | nil => rfl
  | cons x us ih =>
    unfold State.walkUnits
    split
    · exact ih s
    split
    · rfl
    have ht := s.takeUnit_scanView q i.tenant i.tag x.1 retried
    split
    · next h => rw [h] at ht; exact ht
    · next h =>
      rw [h] at ht
      exact (ih _).trans ((State.streamUnit_scanView ..).trans ht)
theorem State.walkPlan_scanView (q : Nat) (i : Invocation) (layout : Nat) (l : Layout) (lists : Span) (enable : Nat) (retried : List Nat)
    (limit : Option Nat) (ps : List ScanEntry) (s : State) : (s.walkPlan q i layout l lists enable retried limit ps).1.scanView q = s.scanView q := by
  induction ps generalizing s with
  | nil => rfl
  | cons p ps ih =>
    unfold State.walkPlan
    split
    · rfl
    split
    · rfl
    extract_lets buf us
    have ht := State.walkUnits_scanView q i layout l p (p.mask &&& enable) retried limit us s
    split
    · next h => rw [h] at ht; exact ht
    · next h =>
      rw [h] at ht
      exact (ih _).trans ht

/-! ### SCAN -/

theorem prpPages_modUnit (s : State) (q : Nat) (f : RaspUnit → RaspUnit) (n a l : Nat) : prpPages (s.modUnit q f) n a l = prpPages s n a l := by
  induction n generalizing a l with
  | zero => rfl
  | succ n ih =>
    unfold prpPages
    have hget : ∀ a n, (s.modUnit q f).hostGet a n = s.hostGet a n := fun _ _ => rfl
    simp only [ih, hget]
/-- What a piece holds does not depend on the Rasp units. -/
theorem State.modUnit_spanGet (s : State) (q : Nat) (f : RaspUnit → RaspUnit) (i : Invocation) (p : Span) : (s.modUnit q f).spanGet i p = s.spanGet i p := by
  have hprps : ∀ a b n, (s.modUnit q f).prps a b n = s.prps a b n := fun a b n => by
    unfold State.prps
    simp only [prpPages_modUnit]
  have hget : ∀ a b n o m, (s.modUnit q f).bufferGet a b n o m = s.bufferGet a b n o m := fun a b n o m => by
    unfold State.bufferGet
    rw [hprps]
    rfl
  have hset : (s.modUnit q f).settle i.tenant p = s.settle i.tenant p := rfl
  unfold State.spanGet
  rw [hset]
  dsimp only
  generalize s.settle i.tenant p = x
  obtain ⟨sp, off, len⟩ := x
  cases sp with
  | hostIn => exact hget _ _ _ _ _
  | buf k pl =>
    cases pl with
    | readonly => rfl
    | _ => rfl
  | _ => rfl

/-- A SCAN after its walk `r`: the charge, the counts of its unit, what has passed, and the read-ahead that is dropped. -/
def State.scanAfter (q : Nat) (s : State) (i : Invocation) (r : State × CmdOutcome) : State :=
  let units := (r.1.unit q).units
  let records := (r.1.unit q).records
  let t := (r.1.charge q i.tenant (576 * units)).modUnit q fun u =>
    { u with units := satAdd32 (s.unit q).units units, records := satAdd32 (s.unit q).records records }
  let t := if records = 0 then t else t.modUnit q fun u => { u with passedBy := u.passedBy ++ [(i.tenant, i.tag, false)] }
  t.dropAhead q i.tenant i.tag
/-- The walk of a SCAN. -/
def State.scanWalk (q stalled : Nat) (limit : Option Nat) (retried : List Nat) (s : State) (i : Invocation) (e : QEntry) (plan lists : Span) (l : Layout) :
    State × CmdOutcome :=
  (s.modUnit q fun u => { u with stall := satAdd32 u.stall stalled, units := 0, records := 0 }).walkPlan q i (fld e.desc 40 3 0) l lists
    (fld e.desc 40 7 4) retried limit ((List.range (fld e.desc 36 31 0)).map fun n => scanEntry (listReader (s.spanGet i plan)) (32 * n))

section
variable {s : State} (hs : Sound s) {q : Nat} {i : Invocation} {e : QEntry} {w : Work}
include hs

theorem scanRun_eq {stalled : Nat} {limit : Option Nat} {retried : List Nat} {plan lists : Span} {l : Layout} (hw : w.reads = [plan])
    (hl : s.piece i (fld e.desc 24 63 0) 0 0 = .ok lists) (hlay : s.scanLayout q e = some l) :
    State.scanRun q stalled limit retried [] s i e w = (s.scanAfter q i (State.scanWalk q stalled limit retried s i e plan lists l),
      (State.scanWalk q stalled limit retried s i e plan lists l).2) := by
  unfold State.scanRun
  extract_lets +onlyGivenNames d
  rw [hw, show s.piece i (fld d 24 63 0) 0 0 = .ok lists from hl, hlay]
  dsimp only
  obtain ⟨u, hu⟩ : ∃ u, u = s.modUnit q fun u => { u with stall := satAdd32 u.stall stalled, units := 0, records := 0 } := ⟨_, rfl⟩
  have hus : Sound u := by rw [hu]; exact hs
  have hplan : u.planEntries i e plan = (List.range (fld e.desc 36 31 0)).map fun n => scanEntry (listReader (s.spanGet i plan)) (32 * n) := by
    have hspan : u.spanGet i plan = s.spanGet i plan := hu ▸ s.modUnit_spanGet ..
    unfold State.planEntries
    rw [hspan]
  have hwalk : u.walkPlan q i (fld d 40 3 0) l lists (fld d 40 7 4) retried limit (u.planEntries i e plan)
      = State.scanWalk q stalled limit retried s i e plan lists l := by
    unfold State.scanWalk
    rw [← hu, hplan]
  simp only [← hu, sound_fetch hus, hwalk]
  rfl
omit hs in
theorem scanRun_none {stalled : Nat} {limit : Option Nat} {retried : List Nat} (h : w.reads = []) :
    State.scanRun q stalled limit retried [] s i e w = (s, .done) := by
  unfold State.scanRun
  rw [h]

omit hs in
/-- What a SCAN leaves after its walk. -/
theorem scanAfter_spec (r : State × CmdOutcome) (hlen : q - 40 < r.1.rasp.length) :
    { s.scanAfter q i r with rasp := r.1.rasp, queues := r.1.queues } = r.1
    ∧ ((s.scanAfter q i r).unit q).ctxs = (r.1.unit q).ctxs
    ∧ ((s.scanAfter q i r).unit q).units = satAdd32 (s.unit q).units (r.1.unit q).units
    ∧ ((s.scanAfter q i r).unit q).stall = (r.1.unit q).stall
    ∧ (s.scanAfter q i r).queues = (r.1.charge q i.tenant (576 * (r.1.unit q).units)).queues := by
  unfold State.scanAfter
  extract_lets units records t1 t2
  have hself {v : State} (hv : q - 40 < v.rasp.length) (f : RaspUnit → RaspUnit) : (v.modUnit q f).unit q = f (v.unit q) := getD_modify_self _ _ _ _ hv
  have h1 : t1.unit q = { r.1.unit q with units := satAdd32 (s.unit q).units units, records := satAdd32 (s.unit q).records records } := hself hlen _
  have hlen1 : q - 40 < t1.rasp.length := (List.length_modify ..).symm ▸ hlen
  have h2 : { t2 with rasp := r.1.rasp, queues := r.1.queues } = r.1 ∧ (t2.unit q).ctxs = (t1.unit q).ctxs ∧ (t2.unit q).units = (t1.unit q).units
      ∧ (t2.unit q).stall = (t1.unit q).stall ∧ t2.queues = t1.queues ∧ q - 40 < t2.rasp.length := by
    unfold t2
    split
    · exact ⟨rfl, rfl, rfl, rfl, rfl, hlen1⟩
    · rw [hself hlen1]
      exact ⟨rfl, rfl, rfl, rfl, rfl, (List.length_modify ..).symm ▸ hlen1⟩
  clear_value t2
  obtain ⟨k1, k2, k3, k4, k5, k6⟩ := h2
  unfold State.dropAhead
  dsimp only
  rw [hself k6]
  exact ⟨k1, k2.trans (congrArg RaspUnit.ctxs h1 :), k3.trans (congrArg RaspUnit.units h1 :), k4.trans (congrArg RaspUnit.stall h1 :), k5⟩

end

end Sys2Proof.Machine
end

section
/-!
PROOFS. Chapter 13: the outcome of a SCAN (O47).
-/

namespace Sys2Proof.Machine

open Sys2Proof.Safety

theorem State.charge_entries (s : State) (q t cost : Nat) : ((s.charge q t cost).queue q).entries = (s.queue q).entries := by
  unfold State.charge
  by_cases h : q < s.queues.length
  · rw [State.queue_modQueue s _ h]
  · rw [State.modQueue, List.modify_eq_self (Nat.le_of_not_lt h)]

section
variable {s : State} (hs : Sound s) (hr : RaspOk s) {q k : Nat} (h40 : 40 ≤ q) (hq : q < 72) {i : Invocation} {e : QEntry} {w : Work}
include hs hr h40 hq

omit hs in
theorem scanWalk_keeps (stalled : Nat) (limit : Option Nat) (retried : List Nat) (plan lists : Span) (l : Layout) :
    (State.scanWalk q stalled limit retried s i e plan lists l).1.ctrs = s.ctrs
    ∧ (State.scanWalk q stalled limit retried s i e plan lists l).1.pairs = s.pairs
    ∧ (State.scanWalk q stalled limit retried s i e plan lists l).1.queues = s.queues
    ∧ (State.scanWalk q stalled limit retried s i e plan lists l).1.rasp.length = 32
    ∧ ((State.scanWalk q stalled limit retried s i e plan lists l).1.unit q).stall = satAdd32 (s.unit q).stall stalled := by
  obtain ⟨u, hu⟩ : ∃ u, u = s.modUnit q fun u => { u with stall := satAdd32 u.stall stalled, units := 0, records := 0 } := ⟨_, rfl⟩
  have h := State.walkPlan_scanView q i (fld e.desc 40 3 0) l lists (fld e.desc 40 7 4) retried limit
    ((List.range (fld e.desc 36 31 0)).map fun n => scanEntry (listReader (s.spanGet i plan)) (32 * n)) u
  have hstall : (u.unit q).stall = satAdd32 (s.unit q).stall stalled := by
    rw [hu, unit_modUnit hr h40 hq]
  have hrest : u.ctrs = s.ctrs ∧ u.pairs = s.pairs ∧ u.queues = s.queues ∧ u.rasp.length = 32 := by
    rw [hu]
    exact ⟨rfl, rfl, rfl, (List.length_modify ..).trans hr.1⟩
  unfold State.scanWalk
  rw [← hu]
  generalize (u.walkPlan q i (fld e.desc 40 3 0) l lists (fld e.desc 40 7 4) retried limit
    ((List.range (fld e.desc 36 31 0)).map fun n => scanEntry (listReader (s.spanGet i plan)) (32 * n))).1 = v at h
  simp only [State.scanView, Prod.mk.injEq] at h
  obtain ⟨h1, h2, h3, h4, h5⟩ := h
  obtain ⟨k1, k2, k3, k4⟩ := hrest
  exact ⟨h1.trans k1, h2.trans k2, h3.trans k3, h4.trans k4, h5.trans hstall⟩
/-- A SCAN leaves the counters, and the entries of its queue. -/
theorem scanRun_keeps (stalled : Nat) (limit : Option Nat) (retried : List Nat) :
    (State.scanRun q stalled limit retried [] s i e w).1.ctrs = s.ctrs
    ∧ ((State.scanRun q stalled limit retried [] s i e w).1.queue q).entries = (s.queue q).entries := by
  have hall : (∃ plan lists l, w.reads = [plan] ∧ s.piece i (fld e.desc 24 63 0) 0 0 = .ok lists ∧ s.scanLayout q e = some l)
      ∨ State.scanRun q stalled limit retried [] s i e w = (s, .done) := by
    unfold State.scanRun
    extract_lets +onlyGivenNames d
    split
    · next plan lists l h1 h2 h3 => exact .inl ⟨plan, lists, l, h1, h2, h3⟩
    · exact .inr rfl
  obtain ⟨plan, lists, l, h1, h2, h3⟩ | h := hall
  · rw [scanRun_eq hs h1 h2 h3]
    obtain ⟨k1, -, k3, k4, -⟩ := scanWalk_keeps (s := s) (i := i) (e := e) hr h40 hq stalled limit retried plan lists l
    generalize State.scanWalk q stalled limit retried s i e plan lists l = r at k1 k3 k4
    obtain ⟨m1, -, -, -, m5⟩ := scanAfter_spec (s := s) (q := q) (i := i) r (by omega)
    refine ⟨(congrArg State.ctrs m1 :).trans k1, ?_⟩
    show ((s.scanAfter q i r).queues.getD q {}).entries = _
    rw [m5]
    exact (r.1.charge_entries q i.tenant _).trans (congrArg (fun l : List Queue => (l.getD q {}).entries) k3)
  · rw [h]
    exact ⟨rfl, rfl⟩

omit hs hr h40 hq in
theorem exec_scan (run : ScanRow) : exec (.scan q run) s = .next (s.runOp q 3 2 (State.scanWork q) fun s i e w =>
    if i.phase = .stopping && (i.endSc = 0x90 || i.endSc = 0x95) && !i.silent then
      ((s.scanRun q run.stalled (some run.streamed) run.retried run.bad i e w).1, .cancelled)
    else s.scanRun q run.stalled none run.retried run.bad i e w) := rfl
/-- A SCAN of an invocation that is cancelled. -/
theorem scan_cancelled (stalled streamed : Nat) (retried : List Nat) (hrun : Running s q 3 2 k e i) (hw : s.scanWork q i e = .ok w)
    (hp : i.phase = .stopping) (hsc : i.endSc = 0x90 ∨ i.endSc = 0x95) (hsil : i.silent = false) :
    ∃ t, exec (.scan q ⟨stalled, streamed, retried, []⟩) s = .next t ∧ Outcome t q k .cancelled ∧ t.ctrs = s.ctrs := by
  obtain ⟨h1, h2⟩ := scanRun_keeps (w := w) (i := i) (e := e) hs hr h40 hq stalled (some streamed) retried
  refine ⟨_, (exec_scan _).trans (congrArg Host.Outcome.next (State.runOp_of_running hrun _ _ hw)), ?_, ?_⟩
  · rw [if_pos (by simp [hp, hsc, hsil])]
    exact State.outcome_modEntry (e := e) (by rw [h2]; exact hrun.2.2.1) _
  · rw [if_pos (by simp [hp, hsc, hsil])]
    exact h1
omit hs hr h40 hq in
theorem scanWork_skipped (hw : s.scanWork q i e = .ok w) (hg : s.scanGroup i (groupOf q) = false) : w.reads = [] := by
  unfold State.scanWork at hw
  extract_lets +onlyGivenNames d n xs at hw
  obtain ⟨_, -, hw⟩ := except_bind_ok hw
  obtain ⟨_, -, hw⟩ := except_bind_ok hw
  rw [if_pos (by simp [hg])] at hw
  cases hw
  rfl
omit hs hr h40 hq in
/-- A SCAN outside the scan groups of its invocation. -/
theorem scan_skipped (stalled streamed : Nat) (retried : List Nat) (hrun : Running s q 3 2 k e i) (hw : s.scanWork q i e = .ok w)
    (hp : i.phase ≠ .stopping) (hg : s.scanGroup i (groupOf q) = false) :
    Performs (.scan q ⟨stalled, streamed, retried, []⟩) s q k fun t => RaspOnly s t q i.tenant w.writes ∧ t.rasp = s.rasp := by
  refine performs_of hrun hw (exec_scan _) (u := s) ?_ (.refl q s) ⟨⟨memKept_of_tenants rfl _ _, rfl, rfl, rfl, fun _ _ => rfl⟩, rfl⟩
  rw [if_neg (by simp [hp])]
  exact scanRun_none (scanWork_skipped hw hg)
/-- A SCAN scores what it walks, and charges for it. -/
theorem scan_walks (stalled streamed : Nat) (retried : List Nat) (hrun : Running s q 3 2 k e i) (hw : s.scanWork q i e = .ok w)
    (hp : i.phase ≠ .stopping) {plan lists : Span} {l : Layout} (hreads : w.reads = [plan])
    (hl : s.piece i (fld e.desc 24 63 0) 0 0 = .ok lists) (hlay : s.scanLayout q e = some l) :
    let walked := State.scanWalk q stalled none retried s i e plan lists l
    ∃ t, exec (.scan q ⟨stalled, streamed, retried, []⟩) s = .next t ∧ Outcome t q k walked.2 ∧ (∀ n, t.context q n = walked.1.context q n)
      ∧ (t.unit q).units = satAdd32 (s.unit q).units (walked.1.unit q).units
      ∧ (t.unit q).stall = satAdd32 (s.unit q).stall stalled
      ∧ (t.queue q).deficits = (walked.1.queue q).deficits.modify i.tenant (· - (576 * (walked.1.unit q).units : Nat))
      ∧ { t with rasp := walked.1.rasp, queues := walked.1.queues } = walked.1 ∧ (∀ p, p ≠ q → t.queue p = walked.1.queue p)
      ∧ t.ctrs = s.ctrs ∧ t.pairs = s.pairs := by
  intro walked
  obtain ⟨k1, k2, k3, k4, k5⟩ := scanWalk_keeps (s := s) (i := i) (e := e) hr h40 hq stalled none retried plan lists l
  obtain ⟨m1, m2, m3, m4, m5⟩ := scanAfter_spec (s := s) (q := q) (i := i) walked (by rw [k4]; omega)
  have hx : exec (.scan q ⟨stalled, streamed, retried, []⟩) s
      = .next ((s.scanAfter q i walked).modEntry q k fun x => { x with outcome := walked.2 }) := by
    refine (exec_scan _).trans (congrArg Host.Outcome.next ((State.runOp_of_running hrun _ _ hw).trans ?_))
    rw [if_neg (by simp [hp]), scanRun_eq hs hreads hl hlay]
  change walked.1.ctrs = s.ctrs at k1
  change walked.1.pairs = s.pairs at k2
  change walked.1.queues = s.queues at k3
  change (walked.1.unit q).stall = _ at k5
  clear_value walked
  have hentries : ((s.scanAfter q i walked).queue q).entries = (s.queue q).entries := by
    show ((s.scanAfter q i walked).queues.getD q {}).entries = _
    rw [m5]
    exact (walked.1.charge_entries q i.tenant _).trans (congrArg (fun l : List Queue => (l.getD q {}).entries) k3)
  have hqlen : q < (s.scanAfter q i walked).queues.length := by
    have hlt := State.lt_of_entry hrun.2.2.1
    rw [m5]
    exact (List.length_modify ..).symm ▸ (k3 ▸ hlt)
  refine ⟨_, hx, ?_, fun n => ?_, m3, m4.trans k5, ?_, ?_, fun p hp => ?_, ?_, ?_⟩
  · exact State.outcome_modEntry (e := e) (by rw [hentries]; exact hrun.2.2.1) _
  · exact congrArg (fun l : List Context => l.getD n {}) m2
  · rw [State.queue_modEntry _ _ _ hqlen]
    show ((s.scanAfter q i walked).queues.getD q {}).deficits = _
    rw [m5]
    exact congrArg Queue.deficits (State.queue_modQueue walked.1 _ (k3 ▸ State.lt_of_entry hrun.2.2.1))
  · exact m1
  · rw [State.queue_modEntry_ne _ _ _ hp]
    show (s.scanAfter q i walked).queues.getD p {} = _
    rw [m5]
    exact State.queue_modQueue_ne walked.1 _ hp
  · exact (congrArg State.ctrs m1 :).trans k1
  · exact (congrArg State.pairs m1 :).trans k2

end

end Sys2Proof.Machine
end

section
/-!
PROOFS. Chapter 09: several writes of one operation.
-/

namespace Sys2Proof.Machine

open Sys2Proof.Safety

/-- A byte of a write: of a space that the piece has settled in, within what is written. -/
def State.Hits (s : State) (n : Nat) (x : Span × List Byte) (v : Nat) (sp : Space) (o : Nat) : Prop :=
  v = n ∧ sameSpace (s.settle n x.1).space sp = true ∧ (s.settle n x.1).off ≤ o ∧ o < (s.settle n x.1).off + x.2.length
/-- Writes that may be stored: in a home or a buffer, and not longer than their pieces. -/
def State.Writable (s : State) (i : Invocation) (x : Span × List Byte) : Prop :=
  Backed s i x.1 ∧ (s.settle i.tenant x.1).space ≠ .hostOut ∧ x.2 ≠ [] ∧ x.2.length ≤ x.1.len
/-- All of some writes have been stored, and nothing else but the memory protection differs. -/
structure State.StoresAll (s u : State) (n : Nat) (l : List (Span × List Byte)) : Prop where
  shaped : s.Shaped u
  form : ∀ n, (s.tenant n).KeepsForm (u.tenant n)
  clean : u.prot.Clean
  rest : { u with tenants := s.tenants, prot := s.prot } = s
  same : ∀ v sp o, (∀ x ∈ l, ¬ s.Hits n x v sp o) → byteOf u v sp o = byteOf s v sp o
  bytes : ∀ v sp o, ∀ x ∈ l, s.Hits n x v sp o → ∃ y ∈ l, s.Hits n y v sp o ∧ byteOf u v sp o = y.2.getD (o - (s.settle n y.1).off) 0

theorem State.StoresAll.backed {s u : State} {i : Invocation} {l : List (Span × List Byte)} (h : s.StoresAll u i.tenant l) {p : Span} (hb : Backed s i p) :
    Backed u i p := by
  unfold Backed at hb ⊢
  rw [h.shaped.settle]
  split
  · next m hm =>
    rw [hm] at hb
    exact ⟨by rw [h.shaped.length]; exact hb.1, (h.form i.tenant).1 m hb.2⟩
  · next x pl hx =>
    rw [hx] at hb
    obtain ⟨hpl, b, hbuf, hw⟩ := hb
    exact ⟨hpl, (h.form i.tenant).2 x b hbuf hw⟩
  · next ho =>
    rw [ho] at hb
    exact hb
  · next h1 h2 h3 =>
    split at hb
    · next hm => exact h1 _ hm
    · next hx => exact h2 _ _ hx
    · next ho => exact h3 ho
    · exact hb
/-- Writes one after the other store their bytes, and find no fault. -/
theorem clean_spanWrites {i : Invocation} (l : List (Span × List Byte)) {s : State} (h : s.prot.Clean) (hl : ∀ x ∈ l, s.Writable i x) :
    ∃ u, s.spanWrites i l = (u, none) ∧ s.StoresAll u i.tenant l := by
  induction l generalizing s with
  | nil => exact ⟨s, rfl, .refl s, fun _ => .refl _, h, rfl, fun _ _ _ _ => rfl, fun _ _ _ x hx => absurd hx List.not_mem_nil⟩
  | cons x l ih =>
    obtain ⟨hb, hh, hne, -⟩ := hl x List.mem_cons_self
    obtain ⟨v, hv, hst⟩ := clean_spanWrite h hb hne hh
    have hset : ∀ p, v.settle i.tenant p = s.settle i.tenant p := fun p => hst.shaped.settle i.tenant p
    have hhits : ∀ y n sp o, v.Hits i.tenant y n sp o ↔ s.Hits i.tenant y n sp o := fun y n sp o => by rw [State.Hits, hset]; rfl
    obtain ⟨u, hu, hall⟩ := ih hst.clean fun y hy => by
      obtain ⟨k1, k2, k3, k4⟩ := hl y (List.mem_cons_of_mem _ hy)
      exact ⟨backed_of_stores hst k1, by rw [hset]; exact k2, k3, k4⟩
    refine ⟨u, ?_, hst.shaped.trans hall.shaped, fun n => (hst.form n).trans (hall.form n), hall.clean, ?_, fun n sp o hno => ?_, fun n sp o y hy hhit => ?_⟩
    · unfold State.spanWrites at hu ⊢
      rw [List.foldl_cons]
      dsimp only
      rw [hv]
      exact hu
    · rw [← hst.rest]
      conv_rhs => rw [← hall.rest]
    · rw [hall.same n sp o fun y hy hc => hno y (List.mem_cons_of_mem _ hy) ((hhits ..).mp hc), hst.bytes]
      exact if_neg (hno x List.mem_cons_self)
    · by_cases hrest : ∃ z ∈ l, s.Hits i.tenant z n sp o
      · obtain ⟨z, hz, hzh⟩ := hrest
        obtain ⟨w, hw, hwh, hwb⟩ := hall.bytes n sp o z hz ((hhits ..).mpr hzh)
        exact ⟨w, List.mem_cons_of_mem _ hw, (hhits ..).mp hwh, hset w.1 ▸ hwb⟩
      · obtain rfl | hy := List.mem_cons.mp hy
        · refine ⟨y, List.mem_cons_self, hhit, ?_⟩
          rw [hall.same n sp o fun z hz hc => hrest ⟨z, hz, (hhits ..).mp hc⟩, hst.bytes]
          exact if_pos hhit
        · exact absurd ⟨y, hy, hhit⟩ hrest

section
variable {s u : State} {i : Invocation} {l : List (Span × List Byte)} (h : s.StoresAll u i.tenant l) (hl : ∀ x ∈ l, s.Writable i x)
include h hl

/-- Bytes outside all pieces are as before. -/
theorem memKept_of_storesAll {ps : List Span} (hp : ∀ x ∈ l, x.1 ∈ ps) : MemKept s u i.tenant ps := by
  intro v sp o ho
  refine h.same v sp o fun x hx hc => ?_
  obtain ⟨hv, hsp, h1, h2⟩ := hc
  obtain ⟨-, -, -, h4⟩ := hl x hx
  have := ho x.1 (hp x hx) hv hsp
  omega
/-- What was written at a piece is read back, where writes that overlap agree. -/
theorem spanGet_of_storesAll {x : Span × List Byte} (hx : x ∈ l) (hagree : ∀ y ∈ l, ∀ sp o, s.Hits i.tenant x i.tenant sp o → s.Hits i.tenant y i.tenant sp o →
      x.2.getD (o - (s.settle i.tenant x.1).off) 0 = y.2.getD (o - (s.settle i.tenant y.1).off) 0) :
    u.spanGet i { x.1 with len := x.2.length } = x.2 := by
  obtain ⟨hb, hh, -, -⟩ := hl x hx
  have hset : u.settle i.tenant { x.1 with len := x.2.length } = { s.settle i.tenant x.1 with len := x.2.length } := by
    rw [h.shaped.settle, State.settle_len]
  have hu : Backed u i { x.1 with len := x.2.length } := by
    have := h.backed hb
    unfold Backed at this ⊢
    rw [State.settle_len]
    exact this
  rw [State.spanGet_eq hu (by rw [hset]; exact hh), hset]
  refine List.ext_getElem (by rw [List.length_map, List.length_range]) fun k hk hk' => ?_
  rw [List.getElem_map, List.getElem_range]
  have hhit : s.Hits i.tenant x i.tenant (s.settle i.tenant x.1).space ((s.settle i.tenant x.1).off + k) :=
    ⟨rfl, sameSpace_self hb hh, by omega, by omega⟩
  obtain ⟨y, hy, hyh, hyb⟩ := h.bytes _ _ _ x hx hhit
  refine hyb.trans ((hagree y hy _ _ hhit hyh).symm.trans ?_)
  rw [Nat.add_sub_cancel_left, List.getD_eq_getElem _ _ hk']

end

end Sys2Proof.Machine
end

section
/-!
PROOFS. Chapter 13: EMIT, and the Rasp units (O47).
-/

namespace Sys2Proof.Machine

open Sys2Proof.Safety

/-- Where EMIT begins to write, and where it writes the list of a context. -/
def emitBase (e : QEntry) : Nat := offOf (fld e.desc 16 63 0) + (fld e.desc 32 31 0 * e.iter0 * 64 + fld e.desc 36 31 0 * e.lane * 64)
def emitSpan (sp : Space) (e : QEntry) (x len : Nat) : Span := ⟨sp, (emitBase e + x * fld e.desc 24 31 0) % 2 ^ 64, len⟩

theorem emitPiece_of_space {s : State} {i : Invocation} {e : QEntry} {sp : Space} (h : s.space i (fld e.desc 16 63 0) = some sp) (x len : Nat) :
    s.emitPiece i e x len = .ok (emitSpan sp e x len) := by
  unfold State.emitPiece State.piece
  rw [h]
  exact congrArg (fun o => Except.ok (⟨sp, o % 2 ^ 64, len⟩ : Span)) (Nat.add_assoc ..).symm

section
variable {s : State} {q k : Nat} {e : QEntry} {i : Invocation} {w : Work}

/-- What the start checks of EMIT say of its writes. -/
theorem emitWork_writes (hw : s.emitWork q i e = .ok w) (hx : ctxsOf (fld e.desc 28 3 0) ≠ []) : ∃ sp,
    s.space i (fld e.desc 16 63 0) = some sp ∧ sp.mayTile = true ∧ fld e.desc 24 31 0 % 64 = 0
    ∧ w.writes = (ctxsOf (fld e.desc 28 3 0)).map (fun x => emitSpan sp e x
        (16 + 16 * if s.scanGroup i (groupOf q) && s.holdsCtx q e x then (s.context q x).heapK else 0))
    ∧ (s.scanGroup i (groupOf q) = true → ∀ x ∈ ctxsOf (fld e.desc 28 3 0), s.holdsCtx q e x = true
      ∧ 16 + 16 * (s.context q x).heapK ≤ fld e.desc 24 31 0) := by
  unfold State.emitWork at hw
  extract_lets d xs stride skipped kk at hw
  obtain ⟨_, -, hw⟩ := except_bind_ok hw
  have hxs : xs.isEmpty = false := by
    rw [List.isEmpty_eq_false_iff]
    exact hx
  rw [if_neg (by rw [hxs]; exact Bool.false_ne_true)] at hw
  cases hsp : s.space i (fld e.desc 16 63 0) with
  | none =>
    obtain ⟨p, hp, -⟩ := except_bind_ok hw
    unfold State.emitPiece State.piece at hp
    rw [hsp] at hp
    cases hp
  | some sp =>
    have hpiece := emitPiece_of_space (i := i) (e := e) hsp
    obtain ⟨p, hp, h1⟩ := except_bind_ok hw
    obtain ⟨dst, hdst, h2⟩ := except_bind_ok h1
    obtain ⟨_, htile, h3⟩ := except_bind_ok h2
    obtain ⟨ps, hps, h4⟩ := except_bind_ok h3
    obtain ⟨_, -, h5⟩ := except_bind_ok h4
    clear h1 h2 h3 h4 hw
    rw [hpiece] at hp
    cases hp
    cases hdst
    have hmay := need_ok htile
    simp only [List.all_cons, List.all_nil, Bool.and_true, Bool.and_eq_true, beq_iff_eq] at hmay
    have hkk : ∀ x, kk x = if s.scanGroup i (groupOf q) && s.holdsCtx q e x then (s.context q x).heapK else 0 := fun x => by
      show (if !(!s.scanGroup i (groupOf q)) && s.holdsCtx q e x then _ else _) = _
      rw [Bool.not_not]
    have hwrites : ps = xs.map fun x => emitSpan sp e x (16 + 16 * if s.scanGroup i (groupOf q) && s.holdsCtx q e x then (s.context q x).heapK else 0) := by
      simp only [hpiece, hkk] at hps
      exact (Except.ok.inj ((List.mapM_pure (m := Except StopReason) (l := xs) (f := fun x => emitSpan sp e x
        (16 + 16 * if s.scanGroup i (groupOf q) && s.holdsCtx q e x then (s.context q x).heapK else 0))).symm.trans hps)).symm
    refine ⟨sp, rfl, hmay.1.1, hmay.2, ?_⟩
    by_cases hs : skipped = true
    · rw [if_pos hs] at h5
      cases h5
      refine ⟨hwrites, fun hg => ?_⟩
      rw [show skipped = !s.scanGroup i (groupOf q) from rfl, hg] at hs
      cases hs
    · rw [if_neg hs] at h5
      obtain ⟨_, hall, h6⟩ := except_bind_ok h5
      cases h6
      refine ⟨hwrites, fun hg x hx => ?_⟩
      have hx := List.all_eq_true.mp (need_ok hall) x hx
      rw [Bool.and_eq_true, decide_eq_true_eq, hkk] at hx
      obtain ⟨hx1, hx2⟩ := hx
      rw [hg, hx1] at hx2
      exact ⟨hx1, hx2⟩
theorem emitWork_none (hw : s.emitWork q i e = .ok w) (hx : ctxsOf (fld e.desc 28 3 0) = []) : w.writes = [] := by
  unfold State.emitWork at hw
  extract_lets d xs stride skipped kk at hw
  obtain ⟨_, -, hw⟩ := except_bind_ok hw
  have hxs : xs = [] := hx
  rw [if_pos (by rw [hxs]; rfl)] at hw
  obtain ⟨dst, -, h1⟩ := except_bind_ok hw
  obtain ⟨_, -, h2⟩ := except_bind_ok h1
  obtain ⟨ps, hps, h3⟩ := except_bind_ok h2
  obtain ⟨_, -, h4⟩ := except_bind_ok h3
  have hnil : ps = [] := by
    rw [hxs] at hps
    cases hps
    rfl
  split at h4
  · cases h4
    exact hnil
  · obtain ⟨_, -, h5⟩ := except_bind_ok h4
    cases h5
    exact hnil

end

/-! ### The lists -/

theorem length_listBytes (kind : Nat) (l : List ListEntry) : (listBytes kind l).length = 16 + 16 * l.length := by
  have hflat : (l.flatMap fun e => bytesOfLe 8 e.id ++ bytesOfLe 4 e.score.toNat ++ List.replicate 4 0).length = 16 * l.length := by
    induction l with
    | nil => rfl
    | cons e l ih =>
      rw [List.flatMap_cons, List.length_append, ih]
      simp only [List.length_append, bytesOfLe_length, List.length_replicate, List.length_cons]
      omega
  unfold listBytes
  rw [List.length_append, hflat]
  simp only [List.length_append, bytesOfLe_length, List.length_replicate]
/-- Lists of different contexts do not overlap, where each fits its stride. -/
theorem emitSpans_apart_of_lt {B S x y m n o : Nat} (hS : S < 2 ^ 32) (hy : y < 4) (hxy : x < y) (hm : m ≤ S) (hn : n ≤ S) {a : Nat}
    (h1 : a + (B + x * S) % 2 ^ 64 ≤ o) (h2 : o < a + (B + x * S) % 2 ^ 64 + m) (h3 : a + (B + y * S) % 2 ^ 64 ≤ o)
    (h4 : o < a + (B + y * S) % 2 ^ 64 + n) : False := by
  obtain ⟨d, hd⟩ : ∃ d, d = (y - x) * S := ⟨_, rfl⟩
  have hd1 : S ≤ d := hd ▸ Nat.le_mul_of_pos_left S (by omega)
  have hd2 : d ≤ 3 * S := hd ▸ Nat.mul_le_mul_right S (by omega)
  have hsum : B + y * S = B + x * S + d := by
    rw [hd, Nat.add_assoc, ← Nat.add_mul, Nat.add_sub_cancel' (Nat.le_of_lt hxy)]
  have hmod : (B + y * S) % 2 ^ 64 = ((B + x * S) % 2 ^ 64 + d) % 2 ^ 64 := by rw [hsum, Nat.mod_add_mod]
  have hlt : (B + x * S) % 2 ^ 64 < 2 ^ 64 := Nat.mod_lt _ (by decide)
  rw [hmod] at h3 h4
  generalize (B + x * S) % 2 ^ 64 = p at h1 h2 h3 h4 hlt
  omega
theorem emitSpans_apart {B S x y m n o : Nat} (hS : S < 2 ^ 32) (hx : x < 4) (hy : y < 4) (hxy : x ≠ y) (hm : m ≤ S) (hn : n ≤ S) {a : Nat}
    (h1 : a + (B + x * S) % 2 ^ 64 ≤ o) (h2 : o < a + (B + x * S) % 2 ^ 64 + m) (h3 : a + (B + y * S) % 2 ^ 64 ≤ o)
    (h4 : o < a + (B + y * S) % 2 ^ 64 + n) : False := by
  obtain h | h := Nat.lt_or_gt_of_ne hxy
  · exact emitSpans_apart_of_lt hS hy h hm hn h1 h2 h3 h4
  · exact emitSpans_apart_of_lt hS hx h hn hm h3 h4 h1 h2
/-- Lists of 16 bytes at a stride of whole lines lie at the same place, or apart. -/
theorem emitSpans_same {B S x y o a : Nat} (hS : S % 64 = 0) (h1 : a + (B + x * S) % 2 ^ 64 ≤ o) (h2 : o < a + (B + x * S) % 2 ^ 64 + 16)
    (h3 : a + (B + y * S) % 2 ^ 64 ≤ o) (h4 : o < a + (B + y * S) % 2 ^ 64 + 16) : (B + x * S) % 2 ^ 64 = (B + y * S) % 2 ^ 64 := by
  obtain ⟨c, rfl⟩ := Nat.dvd_of_mod_eq_zero hS
  have hx : x * (64 * c) = 64 * (x * c) := by ring
  have hy : y * (64 * c) = 64 * (y * c) := by ring
  rw [hx] at h1 h2 ⊢
  rw [hy] at h3 h4 ⊢
  clear hx hy hS
  omega

/-! ### EMIT -/

section
variable {s : State} (hs : Sound s) (hr : RaspOk s) {q k : Nat} (h40 : 40 ≤ q) (hq : q < 72) {e : QEntry} {i : Invocation} {w : Work}

/-- The heaps of contexts are cleared. -/
def State.clearHeaps (s : State) (q : Nat) (l : List Nat) : State :=
  l.foldl (fun (s : State) x => s.modContext q x fun c => { c with heap := [] }) s
include hr h40 hq
theorem clearHeaps_spec (l : List Nat) (hl : ∀ x ∈ l, x < 4) : State.Minding q s (s.clearHeaps q l) ∧ { s.clearHeaps q l with rasp := s.rasp } = s
    ∧ ∀ n, (s.clearHeaps q l).context q n = if n ∈ l then { s.context q n with heap := [] } else s.context q n := by
  induction l generalizing s with
  | nil => exact ⟨.refl q s, rfl, fun _ => (if_neg (by simp)).symm⟩
  | cons x l ih =>
    have hstep : s.clearHeaps q (x :: l) = (s.modContext q x fun c => { c with heap := [] }).clearHeaps q l := rfl
    obtain ⟨h1, h2, h3⟩ := ih (raspOk_modContext hr x fun c => { c with heap := [] }) fun y hy => hl y (List.mem_cons_of_mem _ hy)
    rw [hstep]
    refine ⟨(modContext_minding s q x _).trans h1, (congrArg (fun t : State => { t with rasp := s.rasp }) h2 :), fun n => ?_⟩
    rw [h3]
    by_cases hn : n = x
    · subst hn
      rw [context_modContext hr h40 hq (hl n List.mem_cons_self), ite_self]
      exact (if_pos List.mem_cons_self).symm
    · rw [context_modContext_ne hr h40 hq hn]
      refine if_congr ?_ rfl rfl
      rw [List.mem_cons, or_iff_right hn]

omit hr h40 hq in
/-- What a piece holds depends on the tenants alone, where it is backed. -/
theorem spanGet_of_tenants {t u : State} (h : t.tenants = u.tenants) {p : Span} (hb : Backed u i p) (hh : (u.settle i.tenant p).space ≠ .hostOut) :
    t.spanGet i p = u.spanGet i p := by
  have hset : t.settle i.tenant p = u.settle i.tenant p := (State.Shaped.of_tenants h).settle i.tenant p
  have hten : ∀ n, t.tenant n = u.tenant n := fun n => by rw [State.tenant, h]; rfl
  have hbt : Backed t i p := by
    unfold Backed at hb ⊢
    rw [hset]
    simp only [State.bufferAt, hten, h]
    exact hb
  rw [State.spanGet_eq hb hh, State.spanGet_eq hbt (by rw [hset]; exact hh), hset]
  exact List.map_congr_left fun k _ => by rw [byteOf_eq, byteOf_eq, hten]
omit hr h40 hq in
/-- A piece of another length is backed as well. -/
theorem backed_len {p : Span} (h : Backed s i p) (len : Nat) : Backed s i { p with len := len } := by
  unfold Backed at h ⊢
  rw [State.settle_len]
  exact h
omit hr h40 hq in
theorem settle_of_mayTile {p : Span} (h : p.space.mayTile = true) (n : Nat) : (s.settle n p).space ≠ .hostOut := by
  obtain ⟨sp, off, len⟩ := p
  unfold State.settle
  cases sp with
  | buf x pl =>
    cases pl with
    | tile =>
      dsimp only
      split <;> exact Space.noConfusion
    | _ => cases h
  | home m => exact Space.noConfusion
  | unused => exact Space.noConfusion
  | _ => cases h

/-- The list that EMIT writes of a context. -/
def emitList (s : State) (q : Nat) (i : Invocation) (e : QEntry) (x : Nat) : List Byte :=
  if s.scanGroup i (groupOf q) then listBytes (if (s.context q x).kind = 3 then 1 else 0) (s.context q x).heap
  else listBytes (fld e.desc 28 6 6) []
/-- The writes of EMIT. -/
def emitWrites (s : State) (q : Nat) (i : Invocation) (e : QEntry) (sp : Space) : List (Span × List Byte) :=
  (ctxsOf (fld e.desc 28 3 0)).map fun x => (emitSpan sp e x
    (16 + 16 * if s.scanGroup i (groupOf q) && s.holdsCtx q e x then (s.context q x).heapK else 0), emitList s q i e x)
/-- EMIT, after its writes. -/
def emitEnd (s : State) (q : Nat) (i : Invocation) (e : QEntry) (u : State) : State :=
  if s.scanGroup i (groupOf q) && fld e.desc 28 5 5 == 0 then u.clearHeaps q (ctxsOf (fld e.desc 28 3 0)) else u
omit hr h40 hq in
include hs in
theorem emit_run {sp : Space} (hw : w.writes = (ctxsOf (fld e.desc 28 3 0)).map (fun x => emitSpan sp e x
      (16 + 16 * if s.scanGroup i (groupOf q) && s.holdsCtx q e x then (s.context q x).heapK else 0))) :
    (if !s.scanGroup i (groupOf q) then
      ((s.spanWrites i (w.writes.map fun p => (p, listBytes (fld e.desc 28 6 6) []))).1, CmdOutcome.done)
    else match s.fetch i [] ((ctxsOf (fld e.desc 28 3 0)).map (s.heapWords q)) [] [] with
    | (s, some f) => (s.blur i w.writes, .failed .memory f)
    | (s, none) =>
      let outs := ((ctxsOf (fld e.desc 28 3 0)).zip w.writes).map fun x =>
        let c := s.context q x.1
        (x.2, listBytes (if c.kind = 3 then 1 else 0) c.heap)
      let s := (s.spanWrites i outs).1
      if fld e.desc 28 5 5 = 1 then (s, .done)
      else ((ctxsOf (fld e.desc 28 3 0)).foldl (fun (s : State) x => s.modContext q x fun c => { c with heap := [] }) s, .done))
    = (emitEnd s q i e (s.spanWrites i (emitWrites s q i e sp)).1, .done) := by
  unfold emitEnd emitWrites emitList
  cases hg : s.scanGroup i (groupOf q) with
  | false =>
    rw [hw, List.map_map, hg]
    rfl
  | true =>
    rw [sound_fetch hs, hw, hg]
    have houts : ((ctxsOf (fld e.desc 28 3 0)).zip ((ctxsOf (fld e.desc 28 3 0)).map fun x => emitSpan sp e x
          (16 + 16 * if (true && s.holdsCtx q e x) = true then (s.context q x).heapK else 0))).map (fun x =>
            (x.2, listBytes (if (s.context q x.1).kind = 3 then 1 else 0) (s.context q x.1).heap))
        = (ctxsOf (fld e.desc 28 3 0)).map fun x => (emitSpan sp e x
          (16 + 16 * if (true && s.holdsCtx q e x) = true then (s.context q x).heapK else 0),
            listBytes (if (s.context q x).kind = 3 then 1 else 0) (s.context q x).heap) := by
      rw [← List.map_prod_left_eq_zip, List.map_map]
      rfl
    dsimp only
    rw [houts]
    by_cases hk : fld e.desc 28 5 5 = 1
    · rw [if_neg (by decide), if_pos hk, hk]
      rfl
    · rw [if_neg (by decide), if_neg hk, fld_bit hk]
      rfl

omit hr h40 hq in
/-- The writes of EMIT, as its checks have left them. -/
theorem emitWork_spec (hw : s.emitWork q i e = .ok w) : ∃ sp,
    w.writes = (ctxsOf (fld e.desc 28 3 0)).map (fun x => emitSpan sp e x
      (16 + 16 * if s.scanGroup i (groupOf q) && s.holdsCtx q e x then (s.context q x).heapK else 0))
    ∧ ∀ x ∈ ctxsOf (fld e.desc 28 3 0), s.space i (fld e.desc 16 63 0) = some sp ∧ sp.mayTile = true ∧ fld e.desc 24 31 0 % 64 = 0
      ∧ (s.scanGroup i (groupOf q) = true → s.holdsCtx q e x = true ∧ 16 + 16 * (s.context q x).heapK ≤ fld e.desc 24 31 0) := by
  by_cases hx : ctxsOf (fld e.desc 28 3 0) = []
  · refine ⟨.unused, ?_, fun x h => ?_⟩
    · rw [emitWork_none hw hx, hx]
      rfl
    · rw [hx] at h
      cases h
  · obtain ⟨sp, h1, h2, h3, h4, h5⟩ := emitWork_writes hw hx
    exact ⟨sp, h4, fun x hx => ⟨h1, h2, h3, fun hg => h5 hg x hx⟩⟩
omit hr h40 hq in
theorem emitList_length (hheap : ∀ n, (s.context q n).heap.length ≤ (s.context q n).heapK) {x : Nat}
    (hx : s.scanGroup i (groupOf q) = true → s.holdsCtx q e x = true) :
    16 ≤ (emitList s q i e x).length ∧ (emitList s q i e x).length
      ≤ 16 + 16 * (if s.scanGroup i (groupOf q) && s.holdsCtx q e x then (s.context q x).heapK else 0)
    ∧ (s.scanGroup i (groupOf q) = false → emitList s q i e x = listBytes (fld e.desc 28 6 6) []) := by
  unfold emitList
  cases hg : s.scanGroup i (groupOf q) with
  | false => 
    rw [if_neg Bool.false_ne_true, length_listBytes]
    exact ⟨by omega, by simp, fun _ => rfl⟩
  | true =>
    rw [if_pos rfl, hx hg, if_pos (Bool.and_self true), length_listBytes]
    have := hheap x
    exact ⟨by omega, by omega, fun h => absurd h.symm Bool.false_ne_true⟩
omit hr h40 hq in
/-- Lists that EMIT writes over one another are the same list. -/
theorem emit_agree {sp : Space} (hx : ∀ x ∈ ctxsOf (fld e.desc 28 3 0), s.space i (fld e.desc 16 63 0) = some sp ∧ sp.mayTile = true
      ∧ fld e.desc 24 31 0 % 64 = 0 ∧ (s.scanGroup i (groupOf q) = true → s.holdsCtx q e x = true ∧ 16 + 16 * (s.context q x).heapK ≤ fld e.desc 24 31 0))
    (hlen : ∀ x ∈ ctxsOf (fld e.desc 28 3 0), 16 ≤ (emitList s q i e x).length ∧ (emitList s q i e x).length
        ≤ 16 + 16 * (if s.scanGroup i (groupOf q) && s.holdsCtx q e x then (s.context q x).heapK else 0)
      ∧ (s.scanGroup i (groupOf q) = false → emitList s q i e x = listBytes (fld e.desc 28 6 6) []))
    {n : Nat} (hn : n ∈ ctxsOf (fld e.desc 28 3 0)) {y : Span × List Byte} (hy : y ∈ emitWrites s q i e sp) {len u o : Nat} {sp' : Space}
    (h1 : s.Hits u (emitSpan sp e n len, emitList s q i e n) u sp' o) (h2 : s.Hits u y u sp' o) :
    (emitList s q i e n).getD (o - (s.settle u (emitSpan sp e n len)).off) 0 = y.2.getD (o - (s.settle u y.1).off) 0 := by
  obtain ⟨m, hm, rfl⟩ := List.mem_map.mp hy
  obtain ⟨-, -, h1a, h1b⟩ := h1
  obtain ⟨-, -, h2a, h2b⟩ := h2
  have hoff : ∀ x len, (s.settle u (emitSpan sp e x len)).off
      = (s.settle u ⟨sp, 0, 0⟩).off + (emitBase e + x * fld e.desc 24 31 0) % 2 ^ 64 := fun x len => by
    have := congrArg Span.off (s.settle_add u ⟨sp, 0, 0⟩ ((emitBase e + x * fld e.desc 24 31 0) % 2 ^ 64) len)
    rw [Nat.zero_add] at this
    exact this
  dsimp only at h1a h1b h2a h2b ⊢
  rw [hoff] at h1a h1b h2a h2b
  rw [hoff, hoff]
  obtain ⟨-, n2, n3⟩ := hlen n hn
  obtain ⟨-, m2, m3⟩ := hlen m hm
  cases hg : s.scanGroup i (groupOf q) with
  | true =>
    obtain rfl | hne := Decidable.eq_or_ne n m
    · rfl
    · obtain ⟨-, -, -, kn⟩ := hx n hn
      obtain ⟨-, -, -, km⟩ := hx m hm
      obtain ⟨kn1, kn2⟩ := kn hg
      obtain ⟨km1, km2⟩ := km hg
      rw [hg, kn1, if_pos (Bool.and_self true)] at n2
      rw [hg, km1, if_pos (Bool.and_self true)] at m2
      exact (emitSpans_apart (Nat.mod_lt _ (by decide)) (mem_ctxsOf.mp hn).1 (mem_ctxsOf.mp hm).1 hne (n2.trans kn2) (m2.trans km2) h1a h1b h2a h2b).elim
  | false =>
    rw [n3 hg] at h1b ⊢
    rw [m3 hg] at h2b ⊢
    rw [emitSpans_same (hx n hn).2.2.1 h1a h1b h2a h2b]
include hs
/-- EMIT. -/
theorem emit_performs (hrun : Running s q 3 3 k e i) (hw : s.emitWork q i e = .ok w) (hb : ∀ p ∈ w.writes, Backed s i p)
    (hheap : ∀ n, (s.context q n).heap.length ≤ (s.context q n).heapK) : Performs (.emit ⟨q, []⟩) s q k fun t =>
      MemKept s t i.tenant w.writes ∧ t.host = s.host ∧ t.invocations = s.invocations
      ∧ (∀ n, bit (fld e.desc 28 3 0) n = true → ∀ p, s.emitPiece i e n (emitList s q i e n).length = .ok p → t.spanGet i p = emitList s q i e n)
      ∧ ∀ n, t.context q n = if s.scanGroup i (groupOf q) && bit (fld e.desc 28 3 0) n && fld e.desc 28 5 5 == 0
          then { s.context q n with heap := [] } else s.context q n := by
  obtain ⟨sp, hwr, hx⟩ := emitWork_spec hw
  have hlen := fun x (hxs : x ∈ ctxsOf (fld e.desc 28 3 0)) => emitList_length (e := e) (i := i) hheap fun hg => ((hx x hxs).2.2.2 hg).1
  have hwritable : ∀ y ∈ emitWrites s q i e sp, s.Writable i y := fun y hy => by
    obtain ⟨x, hxs, rfl⟩ := List.mem_map.mp hy
    obtain ⟨h1, h2, -⟩ := hlen x hxs
    refine ⟨hb _ (hwr ▸ List.mem_map.mpr ⟨x, hxs, rfl⟩), settle_of_mayTile (hx x hxs).2.1 _, ?_, h2⟩
    rw [← List.length_pos_iff_ne_nil]
    exact Nat.lt_of_lt_of_le (by decide) h1
  obtain ⟨u, hu, hst⟩ := clean_spanWrites (emitWrites s q i e sp) ⟨hs.1, hs.2.1⟩ hwritable
  have hrunEq := emit_run hs (i := i) (e := e) hwr
  rw [hu] at hrunEq
  have hur : RaspOk u := by
    have : u.rasp = s.rasp := (congrArg State.rasp hst.rest :)
    exact ⟨this ▸ hr.1, this ▸ hr.2⟩
  have huctx : ∀ n, u.context q n = s.context q n := fun n => (congrArg (fun x : State => x.context q n) hst.rest :)
  have hmind : State.Minding q s u := by
    refine ⟨?_, ?_, ?_, ?_, ?_, ?_, ?_, ?_, ?_, fun p _ => ?_, ?_⟩
    · exact congrArg (fun p : Pcie => { p with dataRelaxed := s.pcie.dataRelaxed }) (congrArg State.pcie hst.rest :)
    · exact (congrArg State.pers hst.rest :)
    · exact (congrArg State.power hst.rest :)
    · exact (congrArg State.ctrs hst.rest :)
    · exact (congrArg State.logs hst.rest :)
    · exact (congrArg State.peer hst.rest :)
    · exact (congrArg State.media hst.rest :)
    · exact (congrArg State.svc hst.rest :)
    · exact (congrArg State.marks hst.rest :)
    · exact (congrArg (fun x : State => x.queue p) hst.rest :)
    · exact (congrArg (fun x : State => (x.queue q).entries) hst.rest :)
  obtain ⟨hc1, hc2, hc3⟩ := clearHeaps_spec hur h40 hq (ctxsOf (fld e.desc 28 3 0)) fun x hx => (mem_ctxsOf.mp hx).1
  obtain ⟨v, hv⟩ : ∃ v, v = emitEnd s q i e u := ⟨_, rfl⟩
  rw [← hv] at hrunEq
  have hvspec : State.Minding q u v ∧ { v with rasp := u.rasp } = u ∧ ∀ n, v.context q n
      = if s.scanGroup i (groupOf q) && bit (fld e.desc 28 3 0) n && fld e.desc 28 5 5 == 0 then { s.context q n with heap := [] } else s.context q n := by
    rw [hv]
    unfold emitEnd
    by_cases hc : (s.scanGroup i (groupOf q) && fld e.desc 28 5 5 == 0) = true
    · rw [if_pos hc]
      refine ⟨hc1, hc2, fun n => (hc3 n).trans ?_⟩
      rw [huctx]
      refine if_congr ?_ rfl rfl
      rw [mem_ctxsOf]
      rw [Bool.and_eq_true] at hc
      rw [hc.1, hc.2, Bool.true_and, Bool.and_true]
      exact ⟨fun h => h.2, fun h => ⟨fld4_bit h, h⟩⟩
    · rw [if_neg hc]
      refine ⟨.refl q u, rfl, fun n => (huctx n).trans (if_neg fun h => hc ?_).symm⟩
      simp only [Bool.and_eq_true] at h ⊢
      exact ⟨h.1.1, h.2⟩
  obtain ⟨hv1, hv2, hv3⟩ := hvspec
  refine performs_of hrun hw rfl hrunEq (hmind.trans hv1) ?_
  have hvt : v.tenants = u.tenants := (congrArg State.tenants hv2 :)
  have hkept : MemKept s u i.tenant w.writes := memKept_of_storesAll hst hwritable fun y hy => by
    obtain ⟨x, hxs, rfl⟩ := List.mem_map.mp hy
    rw [hwr]
    exact List.mem_map.mpr ⟨x, hxs, rfl⟩
  refine ⟨fun n sp o ho => ?_, ?_, ?_, fun n hn p hp => ?_, hv3⟩
  · exact (memKept_of_tenants hvt i.tenant [] n sp o fun _ h => absurd h List.not_mem_nil).trans (hkept n sp o ho)
  · exact (congrArg State.host hv2 :).trans (congrArg State.host hst.rest :)
  · exact (congrArg State.invocations hv2 :).trans (congrArg State.invocations hst.rest :)
  · have hmem : n ∈ ctxsOf (fld e.desc 28 3 0) := mem_ctxsOf.mpr ⟨fld4_bit hn, hn⟩
    obtain ⟨hsp, htile, -⟩ := hx n hmem
    cases (emitPiece_of_space hsp n _).symm.trans hp
    have hin : (emitSpan sp e n (16 + 16 * if s.scanGroup i (groupOf q) && s.holdsCtx q e n then (s.context q n).heapK else 0), emitList s q i e n)
        ∈ emitWrites s q i e sp := List.mem_map.mpr ⟨n, hmem, rfl⟩
    have hback : Backed u i (emitSpan sp e n (emitList s q i e n).length) := by
      exact backed_len (hst.backed (hwritable _ hin).1) _
    refine (spanGet_of_tenants (t := v.modEntry q k fun y => { y with outcome := .done }) hvt hback (settle_of_mayTile htile _)).trans ?_
    have hread := spanGet_of_storesAll hst hwritable hin fun y hy sp' o h1 h2 => emit_agree hx hlen hmem hy h1 h2
    exact hread

end

/-- Settles O47, one operation of the Rasp units after the other. -/
theorem raspOperations : Obligations.RaspOperations := by
  unfold Obligations.RaspOperations
  intro s q k e i w hs hr h40 hq hb d ctx only
  refine ⟨loadCtx_performs hs hr h40 hq, fun stalled streamed retried hrun hw => ⟨fun hp hsc hsil => ?_, fun hp hg => ?_,
    fun plan lists l hp hreads hl hlay => ?_⟩, fun hrun hw hheap => emit_performs hs hr h40 hq hrun hw hb hheap,
    ctxRelease_performs hr h40 hq, fun n he ho hc hop hwait hold hi hlive plan lists hp => ?_⟩
  · exact scan_cancelled hs hr h40 hq stalled streamed retried hrun hw hp hsc hsil
  · exact scan_skipped stalled streamed retried hrun hw hp hg
  · exact scan_walks hs hr h40 hq stalled streamed retried hrun hw hp hreads hl hlay
  · exact scanReadAhead_spec hr h40 hq he ho hc hop hwait hold hi hlive hp

end Sys2Proof.Machine
end

section
/-!
PROOFS. Chapter 12: elements of a format on a line of the tile store.
-/

namespace Sys2Proof.Machine

open Sys2Proof.Safety

/-! ### Elements as bytes -/

theorem elemBytes_four (n : Nat) : elemBytes 7 n = (n + 1) / 2 := by
  show (n * 4 + 8 - 1) / 8 = _
  omega
section
variable {f : Nat} (h8 : f ≤ 8) (h7 : f ≠ 7)
include h8 h7

theorem fmtBits_whole : 8 * (fmtBits f / 8) = fmtBits f := by
  have key : ∀ f ≤ 8, f ≠ 7 → 8 * (fmtBits f / 8) = fmtBits f := by decide
  exact key f h8 h7
theorem elemBytes_whole (n : Nat) : elemBytes f n = n * (fmtBits f / 8) := by
  show (n * fmtBits f + 8 - 1) / 8 = _
  have h := fmtBits_whole h8 h7
  generalize fmtBits f / 8 = w at h ⊢
  rw [← h, Nat.mul_left_comm]
  omega
omit h8 in
theorem packElems_whole (old : Byte) (l : List Nat) : packElems f old l = l.flatMap (bytesOfLe (fmtBits f / 8)) := by
  induction l with
  | nil => rfl
  | cons x l ih =>
    cases l with
    | nil =>
      rw [packElems, if_neg h7, List.flatMap_cons]
      exact (List.append_nil _).symm
    | cons y l =>
      rw [packElems, if_neg h7, ih]
      rfl

end

/-- A byte of two half bytes. -/
def nibbles (lo hi : Nat) : Byte := BitVec.ofNat 8 (lo % 16 + 16 * hi)
theorem nibbles_lo (lo hi : Nat) : (nibbles lo hi).toNat % 16 = lo % 16 := by
  rw [nibbles, BitVec.toNat_ofNat]
  omega
theorem nibbles_congr {a b x y : Nat} (h : a % 16 = b % 16) (hx : x = y) : nibbles a x = nibbles b y := by
  rw [nibbles, h, hx]
  rfl
theorem packElems_four_length (old : Byte) : ∀ l : List Nat, (packElems 7 old l).length = (l.length + 1) / 2
  | [] => rfl
  | [_] => by rw [packElems, if_pos rfl, List.length_singleton, List.length_singleton]
  | _ :: _ :: l => by
    rw [packElems, if_pos rfl, List.length_cons, packElems_four_length old l, List.length_cons, List.length_cons]
    omega
/-- A byte of a string of half bytes. -/
theorem packElems_four_getD (old : Byte) : ∀ (l : List Nat) (b : Nat), b < (l.length + 1) / 2 → (packElems 7 old l).getD b 0
    = nibbles (l.getD (2 * b) 0) (if 2 * b + 1 < l.length then l.getD (2 * b + 1) 0 % 16 else old.toNat / 16)
  | [], _, h => absurd h (Nat.not_lt_zero _)
  | [x], b, h => by
    have hb : b = 0 := by
      rw [List.length_singleton] at h
      omega
    subst hb
    rfl
  | x :: y :: l, 0, _ => (congrArg (nibbles x) (if_pos (by rw [List.length_cons, List.length_cons]; omega))).symm
  | x :: y :: l, b + 1, h => by
    rw [List.length_cons, List.length_cons] at h
    rw [packElems, if_pos rfl, List.getD_cons_succ, packElems_four_getD old l b (by omega)]
    have he : 2 * (b + 1) = 2 * b + 1 + 1 := by omega
    rw [he, List.getD_cons_succ, List.getD_cons_succ, List.getD_cons_succ, List.getD_cons_succ]
    refine congrArg (nibbles _) (if_congr ?_ rfl rfl)
    rw [List.length_cons, List.length_cons]
    omega
theorem packElems_length {f : Nat} (h8 : f ≤ 8) (old : Byte) (l : List Nat) : (packElems f old l).length = elemBytes f l.length := by
  by_cases h7 : f = 7
  · subst h7
    rw [packElems_four_length, elemBytes_four]
  · rw [packElems_whole h7, length_words, elemBytes_whole h8 h7, Nat.mul_comm]
theorem elemBytes_mono {f : Nat} (h8 : f ≤ 8) {m n : Nat} (h : m ≤ n) : elemBytes f m ≤ elemBytes f n := by
  by_cases h7 : f = 7
  · subst h7
    rw [elemBytes_four, elemBytes_four]
    omega
  · rw [elemBytes_whole h8 h7, elemBytes_whole h8 h7]
    exact Nat.mul_le_mul_right _ h
theorem elemBytes_pos {f : Nat} (h8 : f ≤ 8) {n : Nat} (h : 0 < n) : 0 < elemBytes f n := by
  refine Nat.lt_of_lt_of_le ?_ (elemBytes_mono h8 h)
  have key : ∀ f ≤ 8, 0 < elemBytes f 1 := by decide
  exact key f h8

/-! ### A line of elements -/

/-- A line of `L` bytes at `B` holds some elements, and from there on what it held before. -/
def Line (f L : Nat) (r0 r : Region) (B : Nat) (done : List Nat) : Prop :=
  elemBytes f done.length ≤ L ∧ ∀ b, b < L → r.at (B + b) = if b < elemBytes f done.length
    then (packElems f (r0.at (B + elemBytes f done.length - 1)) done).getD b 0 else r0.at (B + b)

/-- The codes that a write from element `k` on packs: half a byte keeps the half before it. -/
def halfCodes (f : Nat) (r : Region) (B k : Nat) (codes : List Nat) : List Nat :=
  if f = 7 ∧ k % 2 = 1 then (r.at (B + k / 2)).toNat % 16 :: codes else codes
def halfStart (f k : Nat) : Nat := if f = 7 ∧ k % 2 = 1 then k - 1 else k
/-- The half byte that a write keeps at its end. -/
def halfOld (f : Nat) (r : Region) (B first : Nat) (codes : List Nat) : Byte :=
  if f = 7 ∧ codes.length % 2 = 1 then r.at (B + (first + elemBytes f codes.length - 1)) else 0
/-- A region after codes are written from element `k` of a line on. -/
def Region.putCodes (r : Region) (f B k : Nat) (codes : List Nat) : Region :=
  r.put (B + elemBytes f (halfStart f k)) (packElems f (halfOld f r B (elemBytes f (halfStart f k)) (halfCodes f r B k codes)) (halfCodes f r B k codes))

section
variable {f L B k : Nat} {r0 r : Region} (h8 : f ≤ 8)
include h8

theorem line_start (r0 : Region) : Line f L r0 r0 B [] := by
  have h0 : elemBytes f 0 = 0 := by
    have key : ∀ f ≤ 8, elemBytes f 0 = 0 := by decide
    exact key f h8
  refine ⟨?_, fun b _ => (if_neg ?_).symm⟩
  · rw [List.length_nil, h0]
    exact Nat.zero_le _
  · rw [List.length_nil, h0]
    exact Nat.not_lt_zero _
omit h8 in
theorem putCodes_whole (h7 : f ≠ 7) (codes : List Nat) : r.putCodes f B k codes = r.put (B + elemBytes f k) (codes.flatMap (bytesOfLe (fmtBits f / 8))) := by
  have h1 : halfStart f k = k := if_neg fun h => h7 h.1
  have h2 : halfCodes f r B k codes = codes := if_neg fun h => h7 h.1
  rw [Region.putCodes, h1, h2, packElems_whole h7]
/-- Where codes are written. -/
theorem putCodes_range (codes : List Nat) (hne : codes ≠ []) :
    elemBytes f (halfStart f k) + elemBytes f (halfCodes f r B k codes).length = elemBytes f (k + codes.length)
      ∧ elemBytes f (halfStart f k) ≤ elemBytes f k := by
  have hpos := List.length_pos_iff_ne_nil.mpr hne
  by_cases h7 : f = 7
  · subst h7
    by_cases hk : k % 2 = 1
    · have h1 : halfStart 7 k = k - 1 := if_pos ⟨rfl, hk⟩
      have h2 : (halfCodes 7 r B k codes).length = codes.length + 1 := by rw [halfCodes, if_pos ⟨rfl, hk⟩]; rfl
      rw [h1, h2]
      simp only [elemBytes_four]
      omega
    · have h1 : halfStart 7 k = k := if_neg fun h => hk h.2
      have h2 : (halfCodes 7 r B k codes).length = codes.length := by rw [halfCodes, if_neg fun h => hk h.2]
      rw [h1, h2]
      simp only [elemBytes_four]
      omega
  · have h1 : halfStart f k = k := if_neg fun h => h7 h.1
    have h2 : halfCodes f r B k codes = codes := if_neg fun h => h7 h.1
    rw [h1, h2]
    simp only [elemBytes_whole h8 h7]
    exact ⟨(Nat.add_mul ..).symm, Nat.le_refl _⟩
/-- Bytes outside the elements that are written are as before. -/
theorem at_putCodes_out {codes : List Nat} (hne : codes ≠ []) {o : Nat} (ho : o < B ∨ B + elemBytes f (k + codes.length) ≤ o) :
    (r.putCodes f B k codes).at o = r.at o := by
  obtain ⟨h1, -⟩ := putCodes_range (r := r) (B := B) (k := k) h8 codes hne
  rw [Region.putCodes, Region.at_put, packElems_length h8, if_neg]
  omega
omit h8 in
/-- The half bytes that are packed are those of the line from an even element on. -/
theorem halfCodes_getD {done codes : List Nat} (h : Line 7 L r0 r B done) (x : Nat) :
    (halfCodes 7 r B done.length codes).getD x 0 % 16 = (done ++ codes).getD (halfStart 7 done.length + x) 0 % 16 := by
  obtain ⟨hle, hat⟩ := h
  rw [elemBytes_four] at hle
  by_cases hk : done.length % 2 = 1
  · have h1 : halfStart 7 done.length = done.length - 1 := if_pos ⟨rfl, hk⟩
    have h2 : halfCodes 7 r B done.length codes = (r.at (B + done.length / 2)).toNat % 16 :: codes := if_pos ⟨rfl, hk⟩
    rw [h1, h2]
    cases x with
    | zero =>
      have := hat (done.length / 2) (by omega)
      rw [elemBytes_four, if_pos (by omega), packElems_four_getD _ _ _ (by omega)] at this
      rw [List.getD_cons_zero, this, nibbles_lo, Nat.mod_mod, Nat.add_zero, List.getD_append _ _ _ _ (by omega)]
      congr 2
      omega
    | succ x =>
      rw [List.getD_cons_succ, List.getD_append_right _ _ _ _ (by omega)]
      congr 2
      omega
  · have h1 : halfStart 7 done.length = done.length := if_neg fun h => hk h.2
    have h2 : halfCodes 7 r B done.length codes = codes := if_neg fun h => hk h.2
    rw [h1, h2, List.getD_append_right _ _ _ _ (Nat.le_add_right ..), Nat.add_sub_cancel_left]
omit h8 in
/-- Half bytes that are written behind those of a line. -/
theorem at_putCodes_four {done codes : List Nat} (h : Line 7 L r0 r B done) (hne : codes ≠ []) {b : Nat} (hb : b < L)
    (hlt : b < (done.length + codes.length + 1) / 2) :
    (r.putCodes 7 B done.length codes).at (B + b)
      = (packElems 7 (r0.at (B + (done.length + codes.length + 1) / 2 - 1)) (done ++ codes)).getD b 0 := by
  have hpos := List.length_pos_iff_ne_nil.mpr hne
  have hcs := halfCodes_getD (codes := codes) h
  have hcl : halfStart 7 done.length + (halfCodes 7 r B done.length codes).length = done.length + codes.length
      ∧ done.length - halfStart 7 done.length = done.length % 2 ∧ halfStart 7 done.length ≤ done.length := by
    by_cases hk : done.length % 2 = 1
    · rw [halfStart, halfCodes, if_pos ⟨rfl, hk⟩, if_pos ⟨rfl, hk⟩, List.length_cons]
      omega
    · rw [halfStart, halfCodes, if_neg fun h => hk h.2, if_neg fun h => hk h.2]
      omega
  obtain ⟨hle, hat⟩ := h
  simp only [elemBytes_four] at hat
  rw [Region.putCodes, Region.at_put, packElems_four_length, elemBytes_four]
  unfold halfOld
  generalize halfStart 7 done.length = k' at hcs hcl ⊢
  generalize halfCodes 7 r B done.length codes = cs at hcs hcl ⊢
  rw [packElems_four_getD _ (done ++ codes) b (by rw [List.length_append]; exact hlt), List.length_append]
  by_cases hb' : b < k' / 2
  · rw [if_neg (by omega), hat b hb, if_pos (by omega), packElems_four_getD _ _ _ (by omega), if_pos (by omega), if_pos (by omega),
      List.getD_append _ _ _ _ (by omega), List.getD_append _ _ _ _ (by omega)]
  · have hx : B + b - (B + (k' + 1) / 2) = b - k' / 2 := by omega
    rw [if_pos (by omega), hx, packElems_four_getD _ _ _ (by omega)]
    have he : k' + 2 * (b - k' / 2) = 2 * b := by omega
    refine nibbles_congr (by rw [hcs, he]) ?_
    by_cases hfull : 2 * b + 1 < done.length + codes.length
    · rw [if_pos (by omega), if_pos hfull, hcs, ← he]
      rfl
    · rw [if_neg (by omega), if_neg hfull, if_pos ⟨rfl, by omega⟩, elemBytes_four]
      have hat := hat b hb
      rw [if_neg (by omega)] at hat
      rw [show B + ((k' + 1) / 2 + (cs.length + 1) / 2 - 1) = B + b by omega, hat,
        show B + (done.length + codes.length + 1) / 2 - 1 = B + b by omega]
omit h8 in
theorem getD_append_words (w : Nat) (l codes : List Nat) (b : Nat) :
    ((l ++ codes).flatMap (bytesOfLe w)).getD b 0
      = if b < l.length * w then (l.flatMap (bytesOfLe w)).getD b 0 else (codes.flatMap (bytesOfLe w)).getD (b - l.length * w) 0 := by
  have hl := length_words w l
  rw [List.flatMap_append, Nat.mul_comm l.length, ← hl]
  split
  · next h => rw [List.getD_append _ _ _ _ h]
  · next h => rw [List.getD_append_right _ _ _ _ (by omega)]
/-- Elements that are written behind those of a line. -/
theorem line_putCodes {done codes : List Nat} (h : Line f L r0 r B done) (hne : codes ≠ []) (hL : elemBytes f (done ++ codes).length ≤ L) :
    Line f L r0 (r.putCodes f B done.length codes) B (done ++ codes) := by
  obtain ⟨hle, hat⟩ := h
  refine ⟨hL, fun b hb => ?_⟩
  rw [List.length_append] at hL ⊢
  obtain ⟨hr1, hr2⟩ := putCodes_range (r := r) (B := B) (k := done.length) h8 codes hne
  by_cases hlast : elemBytes f (done.length + codes.length) ≤ b
  · rw [if_neg (by omega), at_putCodes_out h8 hne (by omega), hat b hb, if_neg]
    have := elemBytes_mono h8 (Nat.le_add_right done.length codes.length)
    omega
  rw [if_pos (by omega)]
  by_cases h7 : f = 7
  · subst h7
    simp only [elemBytes_four] at hlast ⊢
    exact at_putCodes_four ⟨hle, hat⟩ hne hb (by omega)
  · rw [putCodes_whole h7, Region.at_put, packElems_whole h7, getD_append_words, length_words]
    have hk := elemBytes_whole h8 h7 done.length
    have hn := elemBytes_whole h8 h7 (done.length + codes.length)
    rw [Nat.add_mul] at hn
    rw [hn] at hlast
    rw [hk, Nat.mul_comm _ codes.length]
    by_cases hlt : b < done.length * (fmtBits f / 8)
    · rw [if_neg (by omega), if_pos hlt, hat b hb, hk, if_pos hlt, packElems_whole h7]
    · rw [if_pos (by omega), if_neg hlt]
      congr 1
      omega

end

end Sys2Proof.Machine
end

section
/-!
PROOFS. Chapter 12: elements that an operation writes to the tile store.
-/

namespace Sys2Proof.Machine

open Sys2Proof.Safety

/-! ### The regions of a tenant -/

/-- The content of a home, or of a buffer, of a tenant. -/
def Tenant.region (x : Tenant) : Space → Region
  | .home m => (x.homes.lookup m).getD {}
  | .buf k _ => ((x.buffers.find? (·.index == k)).map (·.data)).getD {}
  | _ => {}
theorem Tenant.byte_eq (x : Tenant) (sp : Space) (o : Nat) : x.byte sp o = (x.region sp).at o := by
  cases sp with
  | buf k pl =>
    show ((x.buffers.find? (·.index == k)).map fun b => b.data.at o).getD 0
      = (((x.buffers.find? fun b : Buffer => b.index == k).map fun b : Buffer => b.data).getD {}).at o
    cases x.buffers.find? (·.index == k) <;> rfl
  | _ => rfl
theorem Tenant.region_same (x : Tenant) {sp sp' : Space} (h : sameSpace sp sp' = true) : x.region sp = x.region sp' := by
  cases sp with
  | home m =>
    cases sp' with
    | home m' => rw [show m = m' from beq_iff_eq.mp h]
    | _ => cases h
  | buf k pl =>
    cases sp' with
    | buf k' pl' => rw [show k = k' from beq_iff_eq.mp h]; rfl
    | _ => cases h
  | _ => cases h
/-- The content of a tenant's memories after a store. -/
theorem Tenant.store_region {sp : Space} (off : Nat) (bs : List Byte) (x : Tenant)
    (hsp : (∃ m, sp = .home m) ∨ ∃ k b, sp = .buf k .tile ∧ x.buffers.find? (·.index == k) = some b) (sp' : Space) :
    (x.store sp off bs).region sp' = if sameSpace sp sp' = true then (x.region sp).put off bs else x.region sp' := by
  obtain ⟨m, rfl⟩ | ⟨k, b, rfl, hb⟩ := hsp
  · cases sp' with
    | home n =>
      rw [Tenant.region, Tenant.store_homes]
      refine if_congr ?_ rfl rfl
      rw [sameSpace, beq_iff_eq]
      exact eq_comm
    | _ => exact (if_neg Bool.false_ne_true).symm
  · cases sp' with
    | buf n pl =>
      rw [Tenant.region, Tenant.store_buffer, Option.map_map]
      by_cases hn : n = k
      · subst hn
        rw [hb, if_pos (show sameSpace (.buf n .tile) (.buf n pl) = true from beq_self_eq_true n), Tenant.region, hb, Option.map_some]
        dsimp only [Function.comp]
        rw [if_pos rfl, Option.getD_some, Buffer.soil_data]
        rfl
      · rw [if_neg (show ¬ sameSpace (.buf k .tile) (.buf n pl) = true from fun h => hn (beq_iff_eq.mp h).symm)]
        unfold Tenant.region
        congr 2
        funext c
        exact congrArg Buffer.data (if_neg hn)
    | _ => exact (if_neg Bool.false_ne_true).symm

/-! ### Pieces in the tile store -/

/-- A settled piece that lies in a memory of the tile store. -/
structure State.Tiled (s : State) (n : Nat) (q : Span) : Prop where
  lt : n < s.tenants.length
  place : (∃ m, q.space = .home m) ∨ ∃ k b, q.space = .buf k .tile ∧ s.bufferAt n k = some b
  wf : ((s.tenant n).region q.space).wf = true

/-- Where a piece that may lie in the tile store settles. -/
theorem settle_tile (s : State) (n : Nat) {p : Span} (ht : p.space.mayTile = true) :
    (∃ m, (s.settle n p).space = .home m) ∨ (∃ k, (s.settle n p).space = .buf k .tile) ∨ (s.settle n p).space = .unused := by
  obtain ⟨sp, off, len⟩ := p
  cases sp with
  | home m => exact .inl ⟨m, rfl⟩
  | buf k pl =>
    cases pl with
    | tile =>
      unfold State.settle
      dsimp only
      split
      · next m e _ => exact .inl ⟨m, rfl⟩
      · exact .inr (.inl ⟨k, rfl⟩)
    | _ => cases ht
  | unused => exact .inr (.inr rfl)
  | _ => cases ht
theorem tiled_of_backed {s : State} {i : Invocation} {p : Span} (hb : Backed s i p) (ht : p.space.mayTile = true) :
    s.Tiled i.tenant (s.settle i.tenant p) := by
  have hsp := settle_tile s i.tenant ht
  unfold Backed at hb
  obtain ⟨m, hm⟩ | ⟨k, hk⟩ | hu := hsp
  · rw [hm] at hb
    exact ⟨hb.1, .inl ⟨m, hm⟩, by rw [hm]; exact hb.2⟩
  · rw [hk] at hb
    obtain ⟨-, b, hbuf, hw⟩ := hb
    refine ⟨lt_of_bufferAt hbuf, .inr ⟨k, b, hk, hbuf⟩, ?_⟩
    rw [hk, Tenant.region, show (s.tenant i.tenant).buffers.find? (·.index == k) = some b from hbuf]
    exact hw
  · rw [hu] at hb
    exact hb.elim

theorem spanGet_of_home {s : State} {i : Invocation} {p : Span} {m : Nat} (h : (s.settle i.tenant p).space = .home m) :
    s.spanGet i p = ((s.tenant i.tenant).region (.home m)).get (s.settle i.tenant p).off (s.settle i.tenant p).len := by
  unfold State.spanGet
  dsimp only
  rw [h]
  rfl
theorem spanGet_of_buffer {s : State} {i : Invocation} {p : Span} {k : Nat} (h : (s.settle i.tenant p).space = .buf k .tile) :
    s.spanGet i p = if (s.bufferAt i.tenant k).isSome
      then ((s.tenant i.tenant).region (.buf k .tile)).get (s.settle i.tenant p).off (s.settle i.tenant p).len else [] := by
  unfold State.spanGet
  dsimp only
  rw [h]
  have hreg : (s.tenant i.tenant).region (.buf k .tile) = ((s.bufferAt i.tenant k).map (·.data)).getD {} := rfl
  rw [hreg]
  dsimp only
  cases s.bufferAt i.tenant k with
  | none => rfl
  | some b => rfl
theorem spanGet_of_unused {s : State} {i : Invocation} {p : Span} (h : (s.settle i.tenant p).space = .unused) : s.spanGet i p = [] := by
  unfold State.spanGet
  dsimp only
  rw [h]

section
variable {s : State} {i : Invocation} {p q : Span} (ht : s.Tiled i.tenant q) (hq : s.settle i.tenant p = q)
include ht hq

theorem tiled_spanGet : s.spanGet i p = ((s.tenant i.tenant).region q.space).get q.off q.len := by
  obtain ⟨m, hm⟩ | ⟨k, b, hk, hb⟩ := ht.place
  · rw [spanGet_of_home (m := m) (hq.symm ▸ hm), hq, hm]
  · rw [spanGet_of_buffer (k := k) (hq.symm ▸ hk), hb, hq, hk]
    rfl
theorem tiled_spanWrite (hc : s.prot.Clean) {bs : List Byte} (hne : bs ≠ []) :
    (s.spanWrite i p bs).1 = s.modTenant i.tenant (Tenant.store q.space q.off bs) := by
  have h := clean_spanWrite_tile hc hne (sp := q.space) (off := q.off) (len := q.len) hq (by
    obtain ⟨m, hm⟩ | ⟨k, b, hk, -⟩ := ht.place
    · exact .inl ⟨m, hm⟩
    · exact .inr ⟨k, hk⟩)
  rw [h]
/-- The elements that are written are stored in the memory of the piece. -/
theorem tiled_putElems (hc : s.prot.Clean) {f : Nat} (h8 : f ≤ 8) (k : Nat) {codes : List Nat} (hne : codes ≠ []) :
    s.putElems i p f k codes = s.modTenant i.tenant (Tenant.store q.space (q.off + elemBytes f (halfStart f k))
      (packElems f (halfOld f ((s.tenant i.tenant).region q.space) q.off (elemBytes f (halfStart f k))
        (halfCodes f ((s.tenant i.tenant).region q.space) q.off k codes)) (halfCodes f ((s.tenant i.tenant).region q.space) q.off k codes))) := by
  have hat (o : Nat) : (s.spanGet i { p with off := p.off + o, len := 1 }).headD 0 = ((s.tenant i.tenant).region q.space).at (q.off + o) := by
    have hset := s.settle_add i.tenant p o 1
    rw [hq] at hset
    rw [tiled_spanGet (q := { q with off := q.off + o, len := 1 }) ⟨ht.lt, ht.place, ht.wf⟩ hset, Region.get_eq ht.wf]
    rfl
  unfold State.putElems
  extract_lets at_ odd codes' k' first n old
  have hodd : odd = true ↔ f = 7 ∧ k % 2 = 1 := by
    show (decide _ && decide _) = true ↔ _
    rw [Bool.and_eq_true, decide_eq_true_eq, decide_eq_true_eq]
  have hcodes : codes' = halfCodes f ((s.tenant i.tenant).region q.space) q.off k codes :=
    if_congr hodd (by rw [← hat]) rfl
  have hk : k' = halfStart f k := if_congr hodd rfl rfl
  have hold : old = halfOld f ((s.tenant i.tenant).region q.space) q.off first codes' := by
    refine if_congr ?_ (hat _) rfl
    rw [Bool.and_eq_true, decide_eq_true_eq, decide_eq_true_eq]
  have hfirst : first = elemBytes f (halfStart f k) := congrArg (elemBytes f) hk
  have hpos : 0 < codes'.length := by
    rw [hcodes]
    unfold halfCodes
    split
    · exact Nat.zero_lt_succ _
    · exact List.length_pos_iff_ne_nil.mpr hne
  have hpack : packElems f old codes' ≠ [] := by
    rw [← List.length_pos_iff_ne_nil, packElems_length h8]
    exact elemBytes_pos h8 hpos
  have hset := s.settle_add i.tenant p first n
  rw [hq] at hset
  rw [tiled_spanWrite (q := { q with off := q.off + first, len := n }) ⟨ht.lt, ht.place, ht.wf⟩ hset hc hpack, hold, hcodes, hfirst]

end

/-! ### What a command leaves of the memory -/

/-- The tenants of a state after writes within a settled piece. -/
structure State.Within (s u : State) (n : Nat) (q : Span) : Prop where
  shaped : s.Shaped u
  others : ∀ v sp, ¬ (v = n ∧ sameSpace q.space sp = true) → (u.tenant v).region sp = (s.tenant v).region sp
  wf : ((u.tenant n).region q.space).wf = true
  outside : ∀ o, o < q.off ∨ q.off + q.len ≤ o → ((u.tenant n).region q.space).at o = ((s.tenant n).region q.space).at o

theorem State.Within.refl {s : State} {n : Nat} {q : Span} (h : s.Tiled n q) : s.Within s n q := ⟨.refl s, fun _ _ _ => rfl, h.wf, fun _ _ => rfl⟩
theorem tiled_of_shaped {s u : State} {n : Nat} {q : Span} (h : s.Tiled n q) (hs : s.Shaped u) (hw : ((u.tenant n).region q.space).wf = true) :
    u.Tiled n q := by
  refine ⟨hs.length ▸ h.lt, ?_, hw⟩
  obtain ⟨m, hm⟩ | ⟨k, b, hk, hb⟩ := h.place
  · exact .inl ⟨m, hm⟩
  · have := hs.bufferAt n k
    rw [hb] at this
    obtain ⟨b', hb', -⟩ := Option.map_eq_some_iff.mp this
    exact .inr ⟨k, b', hk, hb'⟩
/-- Bytes that are stored within the piece. -/
theorem State.Within.store {s u : State} {n : Nat} {q : Span} (h : s.Within u n q) (ht : s.Tiled n q) {a : Nat} {bs : List Byte} (ha : q.off ≤ a)
    (hl : a + bs.length ≤ q.off + q.len) : s.Within (u.modTenant n (Tenant.store q.space a bs)) n q
      ∧ ((u.modTenant n (Tenant.store q.space a bs)).tenant n).region q.space = ((u.tenant n).region q.space).put a bs := by
  obtain ⟨hlt, hpl, -⟩ := tiled_of_shaped ht h.shaped h.wf
  have hself : sameSpace q.space q.space = true := by
    obtain ⟨m, hm⟩ | ⟨k, b, hk, -⟩ := hpl
    · rw [hm]
      exact beq_self_eq_true m
    · rw [hk]
      exact beq_self_eq_true k
  have hten := u.tenant_modTenant (Tenant.store q.space a bs) hlt
  have hreg := fun sp => Tenant.store_region a bs (u.tenant n) hpl sp
  have hput : ((u.modTenant n (Tenant.store q.space a bs)).tenant n).region q.space = ((u.tenant n).region q.space).put a bs := by
    rw [hten, hreg, if_pos hself]
  refine ⟨⟨h.shaped.trans (u.modTenant_shaped n (Tenant.store_shape _ _ _)), fun v sp hv => ?_, ?_, fun o ho => ?_⟩, hput⟩
  · by_cases hvn : v = n
    · subst hvn
      rw [hten, hreg, if_neg fun hs => hv ⟨rfl, hs⟩]
      exact h.others v sp hv
    · rw [u.tenant_modTenant_ne _ hvn]
      exact h.others v sp hv
  · rw [hput]
    exact Region.put_wf h.wf _ _
  · rw [hput, Region.at_put, if_neg (by omega)]
    exact h.outside o ho
/-- A piece of the tile store that is apart reads as before. -/
theorem State.Within.spanGet {s u : State} {i : Invocation} {p q : Span} (h : s.Within u i.tenant q) (ht : s.Tiled i.tenant q)
    (hp : p.space.mayTile = true) (hov : sameSpace q.space (s.settle i.tenant p).space = true →
      (s.settle i.tenant p).off + p.len ≤ q.off ∨ q.off + q.len ≤ (s.settle i.tenant p).off) : u.spanGet i p = s.spanGet i p := by
  have hset := h.shaped.settle i.tenant p
  have hlen : (s.settle i.tenant p).len = p.len := (congrArg Span.len (s.settle_len i.tenant p p.len) :)
  have hreg : ((u.tenant i.tenant).region (s.settle i.tenant p).space).get (s.settle i.tenant p).off (s.settle i.tenant p).len
      = ((s.tenant i.tenant).region (s.settle i.tenant p).space).get (s.settle i.tenant p).off (s.settle i.tenant p).len := by
    by_cases hs : sameSpace q.space (s.settle i.tenant p).space = true
    · rw [← Tenant.region_same _ hs, ← Tenant.region_same _ hs, Region.get_eq h.wf, Region.get_eq ht.wf]
      refine List.map_congr_left fun k hk => h.outside _ ?_
      have := List.mem_range.mp hk
      have := hov hs
      omega
    · rw [h.others _ _ fun hc => hs hc.2]
  obtain ⟨m, hm⟩ | ⟨k, hk⟩ | hu := settle_tile s i.tenant hp
  · rw [spanGet_of_home (hset ▸ hm), spanGet_of_home hm, hset, ← hm]
    exact hreg
  · rw [spanGet_of_buffer (hset ▸ hk), spanGet_of_buffer hk, hset, ← hk]
    have hb := congrArg Option.isSome (h.shaped.bufferAt i.tenant k)
    rw [Option.isSome_map, Option.isSome_map] at hb
    rw [hb, hreg]
  · rw [spanGet_of_unused (hset ▸ hu), spanGet_of_unused hu]
/-- What a command leaves of the memory outside its piece. -/
theorem State.Within.memKept {s u : State} {n : Nat} {p : Span} (h : s.Within u n (s.settle n p)) {ps : List Span} (hp : p ∈ ps) : MemKept s u n ps := by
  intro v sp o ho
  rw [byteOf_eq, byteOf_eq, Tenant.byte_eq, Tenant.byte_eq]
  have hlen : (s.settle n p).len = p.len := (congrArg Span.len (s.settle_len n p p.len) :)
  by_cases hv : v = n ∧ sameSpace (s.settle n p).space sp = true
  · obtain ⟨rfl, hsp⟩ := hv
    rw [← Tenant.region_same _ hsp, ← Tenant.region_same _ hsp]
    refine h.outside o ?_
    have := ho p hp rfl hsp
    omega
  · rw [h.others v sp hv]

end Sys2Proof.Machine
end

section
/-!
PROOFS. Chapter 12: the lines of a destination in the tile store.
-/

namespace Sys2Proof.Machine

open Sys2Proof.Safety

/-- A step for each number in turn. -/
theorem foldl_range_induct {α : Type} {I : Nat → α → Prop} {step : α → Nat → α} {a : α} (h0 : I 0 a) (n : Nat)
    (hstep : ∀ r, r < n → ∀ x, I r x → I (r + 1) (step x r)) : I n ((List.range n).foldl step a) := by
  induction n with
  | zero => exact h0
  | succ n ih =>
    rw [List.range_succ, List.foldl_append]
    exact hstep n (Nat.lt_succ_self n) _ (ih fun r hr => hstep r (Nat.lt_succ_of_lt hr))
theorem zipIdx_eq_map (l : List Nat) : l.zipIdx = (List.range l.length).map fun k => (l.getD k 0, k) := by
  refine List.ext_getElem (by rw [List.length_zipIdx, List.length_map, List.length_range]) fun k hk _ => ?_
  rw [List.length_zipIdx] at hk
  rw [List.getElem_zipIdx, List.getElem_map, List.getElem_range, List.getD_eq_getElem _ _ hk, Nat.zero_add]

/-- `C` lines of `L` bytes, `P` bytes apart from the start of a piece on, hold some elements each, and nothing else but the invocations differs. -/
structure State.LinesAt (s u : State) (i : Invocation) (p : Span) (f L P C : Nat) (done : Nat → List Nat) : Prop where
  rest : { u with tenants := s.tenants, invocations := s.invocations } = s
  within : s.Within u i.tenant (s.settle i.tenant p)
  lines : L ≤ P ∨ C = 1 → ∀ l, l < C → Line f L ((s.tenant i.tenant).region (s.settle i.tenant p).space)
    ((u.tenant i.tenant).region (s.settle i.tenant p).space) ((s.settle i.tenant p).off + l * P) (done l)

section
variable {s u : State} {i : Invocation} {p : Span} {f L P C : Nat} {done : Nat → List Nat} (h8 : f ≤ 8)
  (ht : s.Tiled i.tenant (s.settle i.tenant p))
include h8 ht

theorem linesAt_start : s.LinesAt s i p f L P C fun _ => [] := ⟨rfl, .refl ht, fun _ _ _ => line_start h8 _⟩
omit h8 ht in
theorem State.LinesAt.invocations (h : s.LinesAt u i p f L P C done) (l : List Invocation) : s.LinesAt { u with invocations := l } i p f L P C done := by
  obtain ⟨hr, ⟨h1, h2, h3, h4⟩, hl⟩ := h
  exact ⟨hr, ⟨⟨h1.length, h1.shape⟩, h2, h3, h4⟩, hl⟩
omit h8 ht in
theorem lines_apart {l m : Nat} (h : L ≤ P ∨ C = 1) (hl : l < C) (hm : m < C) (hne : m ≠ l) : m * P + L ≤ l * P ∨ l * P + L ≤ m * P := by
  obtain h | h := h
  · obtain hlt | hlt := Nat.lt_or_gt_of_ne hne
    · have := Nat.mul_le_mul_right P hlt
      rw [Nat.succ_mul] at this
      omega
    · have := Nat.mul_le_mul_right P hlt
      rw [Nat.succ_mul] at this
      omega
  · omega
/-- Elements that are written behind those of one line. -/
theorem State.LinesAt.putElems (h : s.LinesAt u i p f L P C done) (hc : s.prot.Clean) {l : Nat} (hl : l < C) {codes : List Nat} (hne : codes ≠ [])
    (hL : elemBytes f (done l ++ codes).length ≤ L) (hp : l * P + L ≤ p.len) :
    s.LinesAt (u.putElems i { p with off := p.off + l * P } f (done l).length codes) i p f L P C
      (fun j => if j = l then done l ++ codes else done j)
    ∧ (u.putElems i { p with off := p.off + l * P } f (done l).length codes).invocations = u.invocations := by
  obtain ⟨hrest, hw, hlines⟩ := h
  have huc : u.prot.Clean := by
    rw [← hrest] at hc
    exact hc
  have hlen : (s.settle i.tenant p).len = p.len := (congrArg Span.len (s.settle_len i.tenant p p.len) :)
  have hset : u.settle i.tenant { p with off := p.off + l * P }
      = { s.settle i.tenant p with off := (s.settle i.tenant p).off + l * P } := by
    rw [hw.shaped.settle]
    refine (s.settle_add i.tenant p (l * P) p.len).trans ?_
    rw [← hlen]
  obtain ⟨k1, k2, k3⟩ := tiled_of_shaped ht hw.shaped hw.wf
  rw [tiled_putElems (q := { s.settle i.tenant p with off := (s.settle i.tenant p).off + l * P }) ⟨k1, k2, k3⟩ hset huc h8 _ hne]
  dsimp only
  rw [List.length_append] at hL
  obtain ⟨hr1, hr2⟩ := putCodes_range (r := (u.tenant i.tenant).region (s.settle i.tenant p).space)
    (B := (s.settle i.tenant p).off + l * P) (k := (done l).length) h8 codes hne
  obtain ⟨g1, g2⟩ := hw.store ht (a := (s.settle i.tenant p).off + l * P + elemBytes f (halfStart f (done l).length))
    (bs := packElems f (halfOld f ((u.tenant i.tenant).region (s.settle i.tenant p).space) ((s.settle i.tenant p).off + l * P)
      (elemBytes f (halfStart f (done l).length)) (halfCodes f ((u.tenant i.tenant).region (s.settle i.tenant p).space)
        ((s.settle i.tenant p).off + l * P) (done l).length codes)) (halfCodes f ((u.tenant i.tenant).region (s.settle i.tenant p).space)
        ((s.settle i.tenant p).off + l * P) (done l).length codes)) (by omega) (by rw [packElems_length h8]; omega)
  refine ⟨⟨hrest, g1, fun hcond m hm => ?_⟩, rfl⟩
  rw [g2]
  by_cases hml : m = l
  · subst hml
    rw [if_pos rfl]
    exact line_putCodes h8 (hlines hcond m hm) hne (by rw [List.length_append]; exact hL)
  · rw [if_neg hml]
    obtain ⟨j1, j2⟩ := hlines hcond m hm
    refine ⟨j1, fun b hb => (at_putCodes_out h8 hne ?_).trans (j2 b hb)⟩
    have := lines_apart hcond hl hm hml
    omega
/-- The elements that the lines hold in the end. -/
theorem State.LinesAt.reads (h : s.LinesAt u i p f L P C done) (hcond : L ≤ P ∨ C = 1) {l : Nat} (hl : l < C) (hL : elemBytes f (done l).length = L) :
    u.spanGet i { p with off := p.off + l * P, len := L }
      = packElems f (listReader (s.spanGet i { p with off := p.off + l * P, len := L }) (L - 1)) (done l) := by
  obtain ⟨hrest, hw, hlines⟩ := h
  have hset := s.settle_add i.tenant p (l * P) L
  have hsetu := (hw.shaped.settle i.tenant { p with off := p.off + l * P, len := L }).trans hset
  obtain ⟨k1, k2, k3⟩ := tiled_of_shaped ht hw.shaped hw.wf
  rw [tiled_spanGet (q := { s.settle i.tenant p with off := (s.settle i.tenant p).off + l * P, len := L }) ⟨k1, k2, k3⟩ hsetu,
    tiled_spanGet (q := { s.settle i.tenant p with off := (s.settle i.tenant p).off + l * P, len := L }) ⟨ht.lt, ht.place, ht.wf⟩ hset]
  dsimp only
  rw [Region.get_eq hw.wf, Region.get_eq ht.wf]
  obtain ⟨-, hat⟩ := hlines hcond l hl
  refine List.ext_getElem (by rw [List.length_map, List.length_range, packElems_length h8, hL]) fun b hb _ => ?_
  rw [List.length_map, List.length_range] at hb
  have hb1 := hat b hb
  rw [hL, if_pos hb] at hb1
  rw [List.getElem_map, List.getElem_range, hb1, ← List.getD_eq_getElem _ 0]
  congr 2
  rw [listReader, List.getD_eq_getElem _ _ (by rw [List.length_map, List.length_range]; omega), List.getElem_map, List.getElem_range]
  congr 1
  omega

end

end Sys2Proof.Machine
end

section
/-!
PROOFS. Chapter 12: rows of a Gouge tile, and what a row's values depend on.
-/

namespace Sys2Proof.Machine

open Sys2Proof.Safety

/-! ### The content of a Gouge tile -/

/-- The state with another content of a Gouge tile. -/
def State.inTile (s : State) (q n : Nat) (f : Region → Region) : State :=
  s.modPair q fun p => { p with tiles := p.tiles.modify n fun x => { x with data := f x.data } }
theorem State.inTile_inTile (s : State) (q n : Nat) (f g : Region → Region) : (s.inTile q n f).inTile q n g = s.inTile q n fun r => g (f r) := by
  unfold State.inTile State.modPair
  dsimp only
  rw [List.modify_modify_eq]
  refine congrArg (fun h => { s with pairs := s.pairs.modify (pairOf q) h }) (funext fun p => ?_)
  dsimp only [Function.comp]
  rw [List.modify_modify_eq]
  rfl
theorem clean_clearWords {s : State} (h : s.prot.Clean) (k first n : Nat) : s.clearWords k first n = s := by
  rw [State.clearWords, clean_sramUnit h]
  rfl
theorem clean_putGouge {s : State} (h : s.prot.Clean) (q n : Nat) (rows : List (Nat × List Nat)) :
    s.putGouge q n rows = s.inTile q n fun r => r.putRows rows := by
  have hfold (base : Nat) : rows.foldl (fun (s : State) r => s.clearWords 2 (base + 64 * r.1) (r.2.length / 2)) s = s := by
    induction rows with
    | nil => rfl
    | cons x l ih => rw [List.foldl_cons, clean_clearWords h, ih]
  unfold State.putGouge
  dsimp only
  rw [hfold]
  rfl

section
variable {s : State} {q : Nat} (hp : PairsOk s) (h24 : 24 ≤ q) (hq : q < 40)
include hp h24 hq

theorem gougePair_lt : pairOf q < s.pairs.length := by
  rw [hp.1, pairOf, if_neg (by omega)]
  omega
theorem gougePair_spec : (s.pair q).tiles.length = 16 ∧ (s.pair q).masks.length = 8 ∧ ∀ g ∈ (s.pair q).tiles, g.data.wf = true := by
  have hlt := gougePair_lt hp h24 hq
  have hm : s.pair q ∈ s.pairs := by
    rw [State.pair, List.getD_eq_getElem _ _ hlt]
    exact List.getElem_mem hlt
  obtain ⟨-, h2, h3, -, h5⟩ := hp.2 _ hm
  exact ⟨h2, h3, h5⟩
theorem gougeTile_wf {n : Nat} (hn : n < 16) : ((s.pair q).tiles.getD n {}).data.wf = true := by
  obtain ⟨hl, -, hw⟩ := gougePair_spec hp h24 hq
  rw [List.getD_eq_getElem _ _ (by omega)]
  exact hw _ (List.getElem_mem _)
/-- A Gouge tile with another content, and all else of its pair as before. -/
theorem inTile_spec {n : Nat} (hn : n < 16) (f : Region → Region) :
    ((s.inTile q n f).pair q).tiles.getD n {} = { (s.pair q).tiles.getD n {} with data := f ((s.pair q).tiles.getD n {}).data }
      ∧ PairKept s (s.inTile q n f) q [] [n] ∧ ((s.inTile q n f).pair q).masks = (s.pair q).masks
      ∧ ((s.inTile q n f).pair q).acc = (s.pair q).acc
      ∧ ∀ k, k ≠ n → ((s.inTile q n f).pair q).tiles.getD k {} = (s.pair q).tiles.getD k {} := by
  have hlt := gougePair_lt hp h24 hq
  obtain ⟨hl, -, -⟩ := gougePair_spec hp h24 hq
  have hpair : (s.inTile q n f).pair q = { s.pair q with tiles := (s.pair q).tiles.modify n fun x => { x with data := f x.data } } :=
    s.pair_modPair hlt _
  rw [PairKept, hpair]
  refine ⟨getD_modify_self _ _ _ _ (by omega), ⟨fun p hpq => s.pairs_modPair_ne q _ hpq, fun _ _ => rfl, fun j hj => ?_⟩, rfl, rfl, fun k hk => ?_⟩
  · exact List.getElem?_modify_ne _ _ fun h => hj (List.mem_singleton.mpr h.symm)
  · exact getD_modify_ne _ _ _ hk

end

/-- An element after the first rows of a tile are written, each from column 0 on. -/
theorem el_rows {r : Region} (h : r.wf = true) (n : Nat) {v : Nat → List Nat} (hv : ∀ x, (v x).length ≤ 128) {i j : Nat} (hj : j < 128) :
    (r.putRows ((List.range n).map fun x => (x, v x))).el i j = if i < n ∧ j < (v i).length then ((v i).getD j 0) % 2 ^ 32 else r.el i j := by
  induction n with
  | zero => rw [if_neg (by omega)]; rfl
  | succ n ih =>
    have hs : r.putRows ((List.range (n + 1)).map fun x => (x, v x))
        = (r.putRows ((List.range n).map fun x => (x, v x))).put (512 * n) ((v n).flatMap (bytesOfLe 4)) := by
      rw [List.range_succ, List.map_append, Region.putRows, List.foldl_append]
      rfl
    rw [hs, Region.el_put_row (Region.putRows_wf h _) n (hv n) hj, ih]
    by_cases hi : i = n
    · subst hi
      by_cases hjl : j < (v i).length
      · rw [if_pos ⟨rfl, hjl⟩, if_pos ⟨by omega, hjl⟩]
      · rw [if_neg (by omega), if_neg (by omega), if_neg (by omega)]
    · rw [if_neg (by omega)]
      refine if_congr ?_ rfl rfl
      omega

/-! ### What the values of a row depend on -/

/-- A state in which row `r` of a command reads what it reads in another: the accumulator tiles, the masks, every Gouge tile but the destination, and of that
the row itself, or all of it where the command writes elsewhere; and the pieces that are read. -/
structure State.Views (s u : State) (q : Nat) (i : Invocation) (e : QEntry) (w : Work) (r : Nat) : Prop where
  acc : (u.pair q).acc = (s.pair q).acc
  masks : (u.pair q).masks = (s.pair q).masks
  tiles : ∀ k, k ≠ dstTile e → (u.pair q).tiles.getD k {} = (s.pair q).tiles.getD k {}
  row : ∀ x j, j < 128 → (dstKind e.desc = 1 → x = r) → TileAt u q (dstTile e) x j = TileAt s q (dstTile e) x j
  reads : ∀ x ∈ w.reads, ∀ a len, a + len ≤ x.len →
    u.spanGet i { x with off := x.off + a, len := len } = s.spanGet i { x with off := x.off + a, len := len }

section
variable {s : State} {q r n c : Nat} {i : Invocation} {e : QEntry} {w : Work} {stream : Bool}

theorem sourceRow_acc (h : srcKind e.desc = 0) : s.sourceRow q i e w stream r n c
    = widen (if ((s.pair q).acc.getD (srcTile e) {}).kind = .int32 then 8 else 0) (((s.pair q).acc.getD (srcTile e) {}).data.el r c) := by
  unfold State.sourceRow
  dsimp only
  rw [h]
  rfl
theorem sourceRow_tile (h : srcKind e.desc = 1) : s.sourceRow q i e w stream r n c = widen 0 (TileAt s q (srcTile e) r c) := by
  unfold State.sourceRow TileAt
  dsimp only
  rw [h]
  rfl
theorem sourceRow_piece (h : 2 ≤ srcKind e.desc) {x : Span} {rest : List Span} (hx : w.reads = x :: rest) : s.sourceRow q i e w stream r n c
    = widen (srcFmt e.desc) (elemAt (srcFmt e.desc) (listReader (s.spanGet i { x with
        off := x.off + (if stream then elemBytes (srcFmt e.desc) (128 * r) else r * srcPitch e.desc), len := elemBytes (srcFmt e.desc) n })) c) := by
  obtain ⟨k, hk⟩ := Nat.exists_eq_add_of_le' h
  unfold State.sourceRow
  dsimp only
  rw [hk, hx]
  rfl
theorem sourceRow_none (h : 2 ≤ srcKind e.desc) (hx : w.reads = []) : s.sourceRow q i e w stream r n c = 0 := by
  obtain ⟨k, hk⟩ := Nat.exists_eq_add_of_le' h
  unfold State.sourceRow
  dsimp only
  rw [hk, hx]
  rfl

end

section
variable {s u : State} {q r : Nat} {i : Invocation} {e : QEntry} {w : Work} (h : s.Views u q i e w r)
include h

theorem State.Views.tileAt {k x j : Nat} (hj : j < 128) (hx : dstKind e.desc = 1 → k = dstTile e → x = r) : TileAt u q k x j = TileAt s q k x j := by
  by_cases hk : k = dstTile e
  · subst hk
    exact h.row x j hj fun hd => hx hd rfl
  · unfold TileAt
    rw [h.tiles k hk]
theorem State.Views.sourceRow {stream : Bool} {n : Nat}
    (hr : ∀ x, w.reads.head? = some x → (if stream then elemBytes (srcFmt e.desc) (128 * r) else r * srcPitch e.desc) + elemBytes (srcFmt e.desc) n ≤ x.len)
    {c : Nat} (hc : c < 128) : u.sourceRow q i e w stream r n c = s.sourceRow q i e w stream r n c := by
  match hk : srcKind e.desc with
  | 0 => rw [sourceRow_acc hk, sourceRow_acc hk, h.acc]
  | 1 => 
    rw [sourceRow_tile hk, sourceRow_tile hk]
    exact congrArg (widen 0) (h.tileAt hc fun _ _ => rfl)
  | k + 2 =>
    cases hreads : w.reads with
    | nil => rw [sourceRow_none (by omega) hreads, sourceRow_none (by omega) hreads]
    | cons x rest =>
      rw [sourceRow_piece (by omega) hreads, sourceRow_piece (by omega) hreads,
        h.reads x (by rw [hreads]; exact List.mem_cons_self) _ _ (hr x (by rw [hreads]; rfl))]
theorem State.Views.active (m j x : Nat) : (u.pair q).active m x j = (s.pair q).active m x j := by
  unfold Pair.active
  split
  · rfl
  · rfl
  · rfl
  · rfl
  · rw [h.masks]
theorem State.Views.operand {v j : Nat} (hj : j < 128) (ha : dstKind e.desc = 1 → opndOf v = 2 → idxOf v ≠ dstTile e) :
    (u.pair q).operand v r j = (s.pair q).operand v r j := by
  have hsel : selOf v < 128 := Nat.mod_lt _ (by decide)
  unfold Pair.operand
  dsimp only
  split
  · rfl
  · exact congrArg (widen 0) (h.tileAt hj fun _ _ => rfl)
  · next h2 => exact congrArg (widen 0) (h.tileAt hj fun hd hk => absurd hk (ha hd h2))
  · exact congrArg (widen 0) (h.tileAt hsel fun _ _ => rfl)
theorem State.Views.chain {c : List Nat} (ha : dstKind e.desc = 1 → ∀ v ∈ c, opndOf v = 2 → idxOf v ≠ dstTile e) (g : Nat) {j : Nat} (hj : j < 128) (y : Nat) :
    (u.pair q).chain g c r j y = (s.pair q).chain g c r j y := by
  unfold Pair.chain
  refine congrArg Prod.fst ?_
  refine List.foldl_ext _ _ _ fun a x hx => ?_
  rw [h.active, h.operand hj fun hd h2 => ha hd _ (List.fst_mem_of_mem_zipIdx hx) h2]
theorem State.Views.chainRow {c : List Nat} (ha : dstKind e.desc = 1 → ∀ v ∈ c, opndOf v = 2 → idxOf v ≠ dstTile e) {stream : Bool} {n : Nat}
    (hr : ∀ x, w.reads.head? = some x → (if stream then elemBytes (srcFmt e.desc) (128 * r) else r * srcPitch e.desc) + elemBytes (srcFmt e.desc) n ≤ x.len)
    (g : Nat) (hn : n ≤ 128) :
    (u.pair q).chainRow g c (u.sourceRow q i e w stream r n) r n = (s.pair q).chainRow g c (s.sourceRow q i e w stream r n) r n := by
  refine List.map_congr_left fun j hj => ?_
  have hj := List.mem_range.mp hj
  rw [h.chain ha g (by omega), h.sourceRow hr (by omega)]

end

end Sys2Proof.Machine
end

section
/-!
PROOFS. Chapter 12: rows that are stored one after the other.
-/

namespace Sys2Proof.Machine

open Sys2Proof.Safety

/-- A piece of the tile store reads the same where the tenants are the same. -/
theorem tile_spanGet_of_tenants {s u : State} {i : Invocation} {p : Span} (h : u.tenants = s.tenants) (hp : p.space.mayTile = true) :
    u.spanGet i p = s.spanGet i p := by
  have hset := (State.Shaped.of_tenants h).settle i.tenant p
  have hten : u.tenant i.tenant = s.tenant i.tenant := by rw [State.tenant, h]; rfl
  have hbuf (k : Nat) : u.bufferAt i.tenant k = s.bufferAt i.tenant k := by rw [State.bufferAt, hten]; rfl
  obtain ⟨m, hm⟩ | ⟨k, hk⟩ | hu := settle_tile s i.tenant hp
  · rw [spanGet_of_home (hset ▸ hm), spanGet_of_home hm, hset, hten]
  · rw [spanGet_of_buffer (hset ▸ hk), spanGet_of_buffer hk, hset, hten, hbuf]
  · rw [spanGet_of_unused (hset ▸ hu), spanGet_of_unused hu]

section
variable {s : State} (hc : s.prot.Clean) {q : Nat} {i : Invocation} {e : QEntry} {w : Work} {stream : Bool}
include hc

/-! ### A row in a Gouge tile -/

theorem storeRow_tile (hd : dstKind e.desc = 1) (r : Nat) (codes : List Nat) :
    s.storeRow q i e w stream r codes = s.inTile q (dstTile e) fun x => x.putRows [(r, codes)] := by
  unfold State.storeRow
  dsimp only
  rw [hd]
  exact clean_putGouge hc ..

section
variable (hp : PairsOk s) (h24 : 24 ≤ q) (hq : q < 40) {rows : Nat} {V : Nat → List Nat} {J : Nat → List Invocation → Prop} {T : State → Nat → State}
include hp h24 hq

omit hc in
/-- A row after others are stored in a Gouge tile still reads what it reads before the command. -/
theorem views_of_inTile (hd : dstKind e.desc = 1) (hV : ∀ x, (V x).length ≤ 128) {u : State} {r : Nat}
    (hu : { u with invocations := s.invocations } = s.inTile q (dstTile e) fun x => x.putRows ((List.range r).map fun x => (x, V x)))
    (hx : ∀ x ∈ w.reads, x.space.mayTile = true) : s.Views u q i e w r := by
  have hn : dstTile e < 16 := Nat.mod_lt _ (by decide)
  have hpair : u.pair q = (s.inTile q (dstTile e) fun x => x.putRows ((List.range r).map fun x => (x, V x))).pair q :=
    (congrArg (fun x : State => x.pair q) hu :)
  obtain ⟨h1, -, h3, h4, h5⟩ := inTile_spec hp h24 hq hn fun x => x.putRows ((List.range r).map fun x => (x, V x))
  refine ⟨by rw [hpair, h4], by rw [hpair, h3], fun k hk => by rw [hpair, h5 k hk], fun x j hj hx => ?_, fun x hxr a len _ => ?_⟩
  · rw [TileAt, hpair, h1, el_rows (gougeTile_wf hp h24 hq hn) r hV hj, if_neg (by have := hx hd; omega)]
    rfl
  · exact tile_spanGet_of_tenants (congrArg State.tenants hu :) (hx x hxr)
/-- Rows that are stored in a Gouge tile, one after the other. -/
theorem rows_tile (hd : dstKind e.desc = 1) (hV : ∀ x, (V x).length ≤ 128) (hx : ∀ x ∈ w.reads, x.space.mayTile = true) (hJ : J 0 s.invocations)
    (hT : ∀ r, r < rows → ∀ u : State, s.Views u q i e w r → J r u.invocations →
      ∃ l, J (r + 1) l ∧ T u r = ({ u with invocations := l } : State).storeRow q i e w stream r (V r)) :
    { (List.range rows).foldl T s with invocations := s.invocations }
        = (s.inTile q (dstTile e) fun x => x.putRows ((List.range rows).map fun x => (x, V x)))
      ∧ J rows ((List.range rows).foldl T s).invocations := by
  refine foldl_range_induct (I := fun r (u : State) => { u with invocations := s.invocations }
        = (s.inTile q (dstTile e) fun x => x.putRows ((List.range r).map fun x => (x, V x))) ∧ J r u.invocations) ⟨?_, hJ⟩ rows ?_
  · unfold State.inTile State.modPair
    have hid : (fun p : Pair => { p with tiles := p.tiles.modify (dstTile e) fun x => { x with data := x.data.putRows [] } }) = id :=
      funext fun p => congrArg (fun l => { p with tiles := l }) (List.modify_id _ _)
    exact (congrArg (fun f => { s with pairs := s.pairs.modify (pairOf q) f }) hid).trans
      (congrArg (fun l => { s with pairs := l }) (List.modify_id _ _)) |>.symm
  · rintro r hr u ⟨hu, hj⟩
    obtain ⟨l, hl, hTu⟩ := hT r hr u (views_of_inTile hp h24 hq hd hV hu hx) hj
    have huc : u.prot.Clean := by
      have : u.prot = s.prot := (congrArg State.prot hu :)
      rw [this]
      exact hc
    rw [hTu, storeRow_tile (s := { u with invocations := l }) huc hd]
    refine ⟨?_, hl⟩
    refine ((congrArg (fun x : State => x.inTile q (dstTile e) fun x => x.putRows [(r, V r)]) hu :) : _ = _).trans ?_
    rw [State.inTile_inTile]
    refine congrArg (s.inTile q (dstTile e)) (funext fun x => ?_)
    rw [List.range_succ, List.map_append]
    exact (List.foldl_append ..).symm

end

/-! ### A row on the lines of the tile store -/

section
variable {p : Span} {f L P C : Nat} {done : Nat → Nat → List Nat} {rows : Nat} {V : Nat → List Nat} {J : Nat → List Invocation → Prop}
  {T : State → Nat → State}

omit hc in
/-- A row after others are stored on lines of the tile store still reads what it reads before the command. -/
theorem views_of_linesAt {u : State} {d : Nat → List Nat} (h : s.LinesAt u i p f L P C d) (ht : s.Tiled i.tenant (s.settle i.tenant p)) (hpos : 0 < p.len)
    (hx : ∀ x ∈ w.reads, x.space.mayTile = true ∧ 0 < x.len ∧ s.overlap i.tenant p x = false) (r : Nat) : s.Views u q i e w r := by
  have hpair : u.pair q = s.pair q := (congrArg (fun x : State => x.pair q) h.rest :)
  refine ⟨by rw [hpair], by rw [hpair], fun _ _ => by rw [hpair], fun _ _ _ _ => by rw [TileAt, hpair]; rfl, fun x hxr a len ha => ?_⟩
  obtain ⟨h1, h2, h3⟩ := hx x hxr
  have hset := s.settle_add i.tenant x a len
  refine h.within.spanGet ht h1 fun hs => ?_
  rw [hset] at hs ⊢
  dsimp only at hs ⊢
  have hsp : (s.settle i.tenant p).space = (s.settle i.tenant x).space := by
    obtain ⟨m, hm⟩ | ⟨k, hk⟩ | hu := settle_tile s i.tenant h1
    · obtain ⟨m', hm'⟩ | ⟨k', b, hk', -⟩ := ht.place
      · rw [hm, hm'] at hs ⊢
        rw [beq_iff_eq.mp hs]
      · rw [hm, hk'] at hs
        cases hs
    · obtain ⟨m', hm'⟩ | ⟨k', b, hk', -⟩ := ht.place
      · rw [hk, hm'] at hs
        cases hs
      · rw [hk, hk'] at hs ⊢
        rw [beq_iff_eq.mp hs]
    · rw [hu] at hs
      revert hs
      generalize (s.settle i.tenant p).space = sp
      intro hs
      cases sp <;> cases hs
  have hpl : (s.settle i.tenant p).len = p.len := (congrArg Span.len (s.settle_len i.tenant p p.len) :)
  have hxl : (s.settle i.tenant x).len = x.len := (congrArg Span.len (s.settle_len i.tenant x x.len) :)
  unfold State.overlap at h3
  simp only [hsp, hpl, hxl, beq_self_eq_true, hpos, h2, decide_true, Bool.true_and, Bool.and_eq_false_iff, decide_eq_false_iff_not] at h3
  omega
omit hc in
/-- Rows that are stored on lines of the tile store, one after the other. -/
theorem rows_lines (h8 : f ≤ 8) (ht : s.Tiled i.tenant (s.settle i.tenant p)) (hpos : 0 < p.len)
    (hx : ∀ x ∈ w.reads, x.space.mayTile = true ∧ 0 < x.len ∧ s.overlap i.tenant p x = false) (hJ : J 0 s.invocations)
    (h0 : done 0 = fun _ => [])
    (hstore : ∀ r, r < rows → ∀ u : State, s.LinesAt u i p f L P C (done r) → s.LinesAt (u.storeRow q i e w stream r (V r)) i p f L P C (done (r + 1))
      ∧ (u.storeRow q i e w stream r (V r)).invocations = u.invocations)
    (hT : ∀ r, r < rows → ∀ u : State, s.Views u q i e w r → J r u.invocations →
      ∃ l, J (r + 1) l ∧ T u r = ({ u with invocations := l } : State).storeRow q i e w stream r (V r)) :
    s.LinesAt ((List.range rows).foldl T s) i p f L P C (done rows) ∧ J rows ((List.range rows).foldl T s).invocations := by
  refine foldl_range_induct (I := fun r (u : State) => s.LinesAt u i p f L P C (done r) ∧ J r u.invocations) ⟨h0 ▸ linesAt_start h8 ht, hJ⟩ rows ?_
  rintro r hr u ⟨hu, hj⟩
  obtain ⟨l, hl, hTu⟩ := hT r hr u (views_of_linesAt hu ht hpos hx r) hj
  obtain ⟨h1, h2⟩ := hstore r hr _ (hu.invocations l)
  rw [hTu]
  exact ⟨h1, h2 ▸ hl⟩

end

end

end Sys2Proof.Machine
end

section
/-!
PROOFS. Chapter 12: the rows of a tile, and the groups of a stream, in a destination.
-/

namespace Sys2Proof.Machine

open Sys2Proof.Safety

section
variable {s : State} (hc : s.prot.Clean) {q : Nat} {i : Invocation} {e : QEntry} {w : Work} {p : Span} (hd : dstKind e.desc = 2) (hw : w.writes = [p])
include hd hw

theorem storeRow_line (ht : transposed e.desc = false) (r : Nat) (codes : List Nat) :
    s.storeRow q i e w false r codes = s.putElems i { p with off := p.off + r * dstPitch e.desc } (dstFmt e.desc) 0 codes := by
  unfold State.storeRow
  dsimp only
  rw [hd, hw, ht]
  rfl
theorem storeRow_lines (ht : transposed e.desc = true) (r : Nat) (codes : List Nat) :
    s.storeRow q i e w false r codes = (List.range codes.length).foldl (fun s k =>
      s.putElems i { p with off := p.off + k * dstPitch e.desc } (dstFmt e.desc) r [codes.getD k 0]) s := by
  have hfold : s.storeRow q i e w false r codes = codes.zipIdx.foldl (fun s x =>
      s.putElems i { p with off := p.off + x.2 * dstPitch e.desc } (dstFmt e.desc) r [x.1]) s := by
    unfold State.storeRow
    dsimp only
    rw [hd, hw, ht]
    rfl
  rw [hfold, zipIdx_eq_map, List.foldl_map]
theorem storeRow_stream (r : Nat) (codes : List Nat) : s.storeRow q i e w true r codes = s.putElems i p (dstFmt e.desc) (128 * r) codes := by
  unfold State.storeRow
  dsimp only
  rw [hd, hw]
  rfl

end

/-! ### The lines that the rows fill -/

section
variable {s u : State} (hc : s.prot.Clean) {q r rows cols : Nat} {i : Invocation} {e : QEntry} {w : Work} {p : Span}
  (ht : s.Tiled i.tenant (s.settle i.tenant p)) (hd : dstKind e.desc = 2) (hw : w.writes = [p]) (h8 : dstFmt e.desc ≤ 8) (v : Nat → Nat → Nat)
include hc ht hd hw h8

/-- The lines after the first rows, one line for each. -/
def rowLines (v : Nat → Nat → Nat) (cols r l : Nat) : List Nat := if l < r then (List.range cols).map (v l) else []
theorem storeRow_rowLines (htr : transposed e.desc = false) (hcols : 0 < cols) (hr : r < rows)
    (hlen : p.len = rowsBytes (dstPitch e.desc) (dstFmt e.desc) rows cols)
    (h : s.LinesAt u i p (dstFmt e.desc) (elemBytes (dstFmt e.desc) cols) (dstPitch e.desc) rows (rowLines v cols r)) :
    s.LinesAt (u.storeRow q i e w false r ((List.range cols).map (v r))) i p (dstFmt e.desc) (elemBytes (dstFmt e.desc) cols) (dstPitch e.desc) rows
        (rowLines v cols (r + 1))
      ∧ (u.storeRow q i e w false r ((List.range cols).map (v r))).invocations = u.invocations := by
  have hnone : rowLines v cols r r = [] := if_neg (Nat.lt_irrefl r)
  have hl : ((List.range cols).map (v r)).length = cols := by rw [List.length_map, List.length_range]
  have hstep := h.putElems h8 ht hc hr (codes := (List.range cols).map (v r)) (by rw [← List.length_pos_iff_ne_nil, hl]; exact hcols)
    (by rw [hnone, List.nil_append, hl]) (by
      rw [hlen, rowsBytes]
      exact Nat.add_le_add_right (Nat.mul_le_mul_right _ (Nat.le_sub_one_of_lt hr)) _)
  have hdone : (fun j => if j = r then rowLines v cols r r ++ (List.range cols).map (v r) else rowLines v cols r j) = rowLines v cols (r + 1) := by
    funext j
    rw [hnone, List.nil_append]
    unfold rowLines
    by_cases hj : j = r
    · subst hj
      rw [if_pos rfl, if_pos (Nat.lt_succ_self j)]
    · rw [if_neg hj]
      exact if_congr (by omega) rfl rfl
  rw [hdone, hnone] at hstep
  rw [storeRow_line hd hw htr]
  exact hstep
/-- The lines after the first rows of a transposed tile, one line for each column. -/
def colLines (v : Nat → Nat → Nat) (r l : Nat) : List Nat := (List.range r).map fun x => v x l
theorem storeRow_colLines (htr : transposed e.desc = true) (hr : r < rows)
    (hlen : p.len = rowsBytes (dstPitch e.desc) (dstFmt e.desc) cols rows)
    (h : s.LinesAt u i p (dstFmt e.desc) (elemBytes (dstFmt e.desc) rows) (dstPitch e.desc) cols (colLines v r)) :
    s.LinesAt (u.storeRow q i e w false r ((List.range cols).map (v r))) i p (dstFmt e.desc) (elemBytes (dstFmt e.desc) rows) (dstPitch e.desc) cols
        (colLines v (r + 1))
      ∧ (u.storeRow q i e w false r ((List.range cols).map (v r))).invocations = u.invocations := by
  have hcl : ∀ n l, (colLines v n l).length = n := fun n l => by rw [colLines, List.length_map, List.length_range]
  have hsucc : ∀ l, colLines v (r + 1) l = colLines v r l ++ [v r l] := fun l => by
    rw [colLines, List.range_succ, List.map_append]
    rfl
  rw [storeRow_lines hd hw htr, List.length_map, List.length_range]
  have hfold := foldl_range_induct (step := fun (x : State) k => x.putElems i { p with off := p.off + k * dstPitch e.desc } (dstFmt e.desc) r
      [((List.range cols).map (v r)).getD k 0]) (a := u)
    (I := fun k (x : State) => s.LinesAt x i p (dstFmt e.desc) (elemBytes (dstFmt e.desc) rows) (dstPitch e.desc) cols
      (fun l => if l < k then colLines v (r + 1) l else colLines v r l) ∧ x.invocations = u.invocations)
    ⟨by simpa using h, rfl⟩ cols fun k hk x ⟨hx, hinv⟩ => by
      have hval : ((List.range cols).map (v r)).getD k 0 = v r k := by
        rw [List.getD_eq_getElem _ _ (by rw [List.length_map, List.length_range]; exact hk), List.getElem_map, List.getElem_range]
      have hstep := hx.putElems h8 ht hc hk (codes := [v r k]) (by simp) (by
          rw [if_neg (Nat.lt_irrefl k), ← hsucc, hcl]
          exact elemBytes_mono h8 hr) (by
        rw [hlen, rowsBytes]
        exact Nat.add_le_add_right (Nat.mul_le_mul_right _ (Nat.le_sub_one_of_lt hk)) _)
      rw [if_neg (Nat.lt_irrefl k), hcl, ← hsucc] at hstep
      rw [hval]
      refine ⟨?_, hstep.2.trans hinv⟩
      have hdone : (fun j => if j = k then colLines v (r + 1) k else if j < k then colLines v (r + 1) j else colLines v r j)
          = fun l => if l < k + 1 then colLines v (r + 1) l else colLines v r l := by
        funext j
        by_cases hj : j = k
        · subst hj
          rw [if_pos rfl, if_pos (Nat.lt_succ_self j)]
        · rw [if_neg hj]
          exact if_congr (by omega) rfl rfl
      rw [← hdone]
      exact hstep.1
  obtain ⟨⟨hrest, hwit, hlines⟩, hinv⟩ := hfold
  refine ⟨⟨hrest, hwit, fun hcond l hl => ?_⟩, hinv⟩
  have := hlines hcond l hl
  rw [if_pos hl] at this
  exact this
/-- The line after the first groups of a stream. -/
def streamLine (v : Nat → Nat → Nat) (n r : Nat) (_ : Nat) : List Nat := (List.range (min (128 * r) n)).map fun x => v (x / 128) (x % 128)
theorem storeRow_streamLine {n : Nat} (hr : 128 * r < n) (hlen : p.len = elemBytes (dstFmt e.desc) n)
    (h : s.LinesAt u i p (dstFmt e.desc) (elemBytes (dstFmt e.desc) n) 0 1 (streamLine v n r)) :
    s.LinesAt (u.storeRow q i e w true r ((List.range (min 128 (n - 128 * r))).map (v r))) i p (dstFmt e.desc) (elemBytes (dstFmt e.desc) n) 0 1
        (streamLine v n (r + 1))
      ∧ (u.storeRow q i e w true r ((List.range (min 128 (n - 128 * r))).map (v r))).invocations = u.invocations := by
  have hsl : ∀ r l, (streamLine v n r l).length = min (128 * r) n := fun r l => by rw [streamLine, List.length_map, List.length_range]
  have hsucc : ∀ l, streamLine v n (r + 1) l = streamLine v n r l ++ (List.range (min 128 (n - 128 * r))).map (v r) := fun l => by
    rw [streamLine, streamLine, show min (128 * (r + 1)) n = 128 * r + min 128 (n - 128 * r) by omega, show min (128 * r) n = 128 * r by omega,
      List.range_add, List.map_append, List.map_map]
    refine congrArg (_ ++ ·) (List.map_congr_left fun x hx => ?_)
    have := List.mem_range.mp hx
    dsimp only [Function.comp]
    rw [show (128 * r + x) / 128 = r by omega, show (128 * r + x) % 128 = x by omega]
  have hstep := h.putElems h8 ht hc (l := 0) Nat.one_pos (codes := (List.range (min 128 (n - 128 * r))).map (v r)) (by
      rw [← List.length_pos_iff_ne_nil, List.length_map, List.length_range]
      omega) (by
      rw [← hsucc, hsl]
      exact elemBytes_mono h8 (Nat.min_le_right ..)) (by rw [hlen]; omega)
  rw [hsl, ← hsucc, show min (128 * r) n = 128 * r by omega] at hstep
  rw [storeRow_stream hd hw]
  obtain ⟨⟨hrest, hwit, hlines⟩, hinv⟩ := hstep
  refine ⟨⟨hrest, hwit, fun hcond l hl => ?_⟩, hinv⟩
  obtain rfl : l = 0 := by omega
  exact hlines hcond 0 hl

end

end Sys2Proof.Machine
end

section
/-!
PROOFS. Chapter 12: what an element-wise operation leaves in its destination.
-/

namespace Sys2Proof.Machine

open Sys2Proof.Safety

/-! ### The start checks of the Gouge slices -/

section
variable {s : State} {i : Invocation} {e : QEntry} {al len : Nat} {l : List Span}

theorem srcPiece_ok (h : s.srcPiece i e al len = .ok l) : ∀ x ∈ l, l = [x] ∧ x.len = len ∧ x.space.mayTile = true ∧ srcKind e.desc = 2 := by
  unfold State.srcPiece at h
  by_cases hk : srcKind e.desc ≠ 2
  · rw [if_pos hk] at h
    cases h
    exact fun x hx => absurd hx List.not_mem_nil
  · rw [if_neg hk] at h
    obtain ⟨p, hp, h1⟩ := except_bind_ok h
    obtain ⟨_, hn, h2⟩ := except_bind_ok h1
    cases h2
    have := need_ok hn
    rw [Bool.and_eq_true] at this
    refine fun x hx => ?_
    cases List.mem_singleton.mp hx
    refine ⟨rfl, ?_, this.1, not_not.mp hk⟩
    unfold State.piece at hp
    cases hsp : s.space i (fld e.desc 20 63 0) with
    | none => rw [hsp] at hp; cases hp
    | some sp => rw [hsp] at hp; cases hp; rfl
theorem dstPiece_ok (h : s.dstPiece i e al len = .ok l) : (dstKind e.desc ≠ 2 → l = [])
    ∧ (dstKind e.desc = 2 → ∃ x, l = [x] ∧ x.len = len ∧ x.space.mayTile = true) := by
  unfold State.dstPiece at h
  by_cases hk : dstKind e.desc ≠ 2
  · rw [if_pos hk] at h
    cases h
    exact ⟨fun _ => rfl, fun h2 => absurd h2 hk⟩
  · rw [if_neg hk] at h
    obtain ⟨p, hp, h1⟩ := except_bind_ok h
    obtain ⟨_, hn, h2⟩ := except_bind_ok h1
    cases h2
    have := need_ok hn
    rw [Bool.and_eq_true] at this
    refine ⟨fun h => absurd h hk, fun _ => ⟨p, rfl, ?_, this.1⟩⟩
    unfold State.piece at hp
    cases hsp : s.space i (fld e.desc 28 63 0) with
    | none => rw [hsp] at hp; cases hp
    | some sp => rw [hsp] at hp; cases hp; rfl

end

theorem kindsOk_spec {d : BitVec 512} {stream none_ : Bool} (h : kindsOk d stream none_ = true) :
    dstKind d ≤ 2 ∧ (dstKind d = 2 → dstFmt d ≤ 8) ∧ (none_ = false → dstKind d ≠ 0) := by
  unfold kindsOk at h
  simp only [Bool.and_eq_true, decide_eq_true_eq] at h
  obtain ⟨⟨⟨⟨-, h1⟩, -⟩, -⟩, h2⟩ := h
  refine ⟨h1, fun hd => ?_, fun hn hd => ?_⟩
  · rw [if_pos hd] at h2
    exact of_decide_eq_true h2
  · rw [hd, if_neg (by decide), if_neg (by decide), hn] at h2
    cases h2

/-! ### What is left as it was -/

/-- A command changes its destination only, and the invocations. -/
def GougeOnly (s t : State) (q : Nat) (i : Invocation) (e : QEntry) (w : Work) : Prop :=
  MemKept s t i.tenant w.writes ∧ t.host = s.host ∧ PairKept s t q [] (if dstKind e.desc = 1 then [dstTile e] else [])
    ∧ (t.pair q).masks = (s.pair q).masks ∧ ((t.pair q).tiles.getD (dstTile e) {}).holder = ((s.pair q).tiles.getD (dstTile e) {}).holder
/-- Lines of a destination hold values in its format. -/
def LinesHold (s t : State) (i : Invocation) (e : QEntry) (w : Work) (count len pitch : Nat) (v : Nat → Nat → Nat) : Prop :=
  ∀ p ∈ w.writes, elemBytes (dstFmt e.desc) len ≤ pitch ∨ count = 1 → ∀ l, l < count →
    t.spanGet i { p with off := p.off + l * pitch, len := elemBytes (dstFmt e.desc) len }
      = packElems (dstFmt e.desc) (listReader (s.spanGet i { p with off := p.off + l * pitch, len := elemBytes (dstFmt e.desc) len })
          (elemBytes (dstFmt e.desc) len - 1)) ((List.range len).map fun j => convert (dstFmt e.desc) (cvtOf e.desc) (v l j))
/-- A value as it is stored. -/
def storedCode (d : BitVec 512) (v : Nat) : Nat := if dstKind d = 2 then convert (dstFmt d) (cvtOf d) v else v

theorem minding_of_rest {s u : State} {q : Nat} {ts : List Tenant} {ps : List Pair} {inv : List Invocation} {fr : Nat}
    (h : { u with tenants := ts, pairs := ps, invocations := inv, free := fr } = s) : State.Minding q s u := by
  refine ⟨?_, ?_, ?_, ?_, ?_, ?_, ?_, ?_, ?_, fun p _ => ?_, ?_⟩
  · exact congrArg (fun p : Pcie => { p with dataRelaxed := s.pcie.dataRelaxed }) (congrArg State.pcie h :)
  · exact (congrArg State.pers h :)
  · exact (congrArg State.power h :)
  · exact (congrArg State.ctrs h :)
  · exact (congrArg State.logs h :)
  · exact (congrArg State.peer h :)
  · exact (congrArg State.media h :)
  · exact (congrArg State.svc h :)
  · exact (congrArg State.marks h :)
  · exact (congrArg (fun x : State => x.queue p) h :)
  · exact (congrArg (fun x : State => (x.queue q).entries) h :)

section
variable {s u : State} {q : Nat} {i : Invocation} {e : QEntry} {w : Work}

theorem gougeOnly_of_inTile (hp : PairsOk s) (h24 : 24 ≤ q) (hq : q < 40) (hd : dstKind e.desc = 1) {f : Region → Region}
    (h : { u with invocations := s.invocations } = s.inTile q (dstTile e) f) : GougeOnly s u q i e w := by
  obtain ⟨h1, h2, h3, -, -⟩ := inTile_spec hp h24 hq (n := dstTile e) (Nat.mod_lt _ (by decide)) f
  have hpair : u.pair q = (s.inTile q (dstTile e) f).pair q := (congrArg (fun x : State => x.pair q) h :)
  have hpairs : u.pairs = (s.inTile q (dstTile e) f).pairs := (congrArg State.pairs h :)
  refine ⟨memKept_of_tenants (congrArg State.tenants h :) _ _, (congrArg State.host h :), ?_, by rw [hpair, h3], by rw [hpair, h1]⟩
  rw [if_pos hd]
  unfold PairKept at h2 ⊢
  rw [hpair, hpairs]
  exact h2
theorem gougeOnly_of_linesAt {p : Span} {f L P C : Nat} {done : Nat → List Nat} (hw : p ∈ w.writes) (h : s.LinesAt u i p f L P C done) :
    GougeOnly s u q i e w := by
  have hpair : u.pair q = s.pair q := (congrArg (fun x : State => x.pair q) h.rest :)
  have hpairs : u.pairs = s.pairs := (congrArg State.pairs h.rest :)
  refine ⟨h.within.memKept hw, (congrArg State.host h.rest :), ⟨fun _ _ => by rw [hpairs], fun _ _ => by rw [hpair], fun _ _ => by rw [hpair]⟩,
    by rw [hpair], by rw [hpair]⟩
theorem linesHold_of_linesAt {p : Span} {L P C : Nat} {done : Nat → List Nat} (h8 : dstFmt e.desc ≤ 8) (ht : s.Tiled i.tenant (s.settle i.tenant p))
    (hw : w.writes = [p]) (h : s.LinesAt u i p (dstFmt e.desc) L P C done) {len : Nat} (hL : L = elemBytes (dstFmt e.desc) len) (v : Nat → Nat → Nat)
    (hdone : ∀ l, l < C → done l = (List.range len).map fun j => convert (dstFmt e.desc) (cvtOf e.desc) (v l j)) :
    LinesHold s u i e w C len P v := by
  intro x hx hcond l hl
  rw [hw] at hx
  cases List.mem_singleton.mp hx
  subst hL
  have := h.reads h8 ht hcond hl (by rw [hdone l hl, List.length_map, List.length_range])
  rw [hdone l hl] at this
  exact this

end

end Sys2Proof.Machine
end

section
/-!
PROOFS. Chapter 12: TILE, SOFTMAX and STREAM.
-/

namespace Sys2Proof.Machine

open Sys2Proof.Safety

theorem clean_of_sound {s : State} (h : Sound s) : s.prot.Clean := ⟨h.1, h.2.1⟩
theorem clean_clearLines {s : State} (h : s.prot.Clean) (n : Nat) (l : List Span) : s.clearLines n l = s := by
  unfold State.clearLines
  have hp (p : Span) : s.poisonIn n p true = [] := by rw [State.poisonIn, clean_sramUnit h, List.filter_nil]
  simp only [hp]
  exact if_pos (by simp)
theorem clean_of_prot {s u : State} (h : s.prot.Clean) (hu : u.prot = s.prot) : u.prot.Clean := hu ▸ h

/-- What a command reads lies in the tile store, apart from what it writes there. -/
def ReadsApart (s : State) (i : Invocation) (e : QEntry) (w : Work) : Prop :=
  ∀ x ∈ w.reads, x.space.mayTile = true ∧ 0 < x.len ∧ (dstKind e.desc = 2 → ∀ p ∈ w.writes, s.overlap i.tenant p x = false)

section
variable {s : State} (hc : s.prot.Clean) (hp : PairsOk s) {q : Nat} (h24 : 24 ≤ q) (hq : q < 40) {i : Invocation} {e : QEntry} {w : Work}
  (hb : ∀ p ∈ w.writes, 0 < p.len → Backed s i p) (hx : ReadsApart s i e w) (hd0 : dstKind e.desc = 1 ∨ dstKind e.desc = 2)
  (h8 : dstKind e.desc = 2 → dstFmt e.desc ≤ 8) {J : Nat → List Invocation → Prop} (hJ : J 0 s.invocations) {T : State → Nat → State} (v : Nat → Nat → Nat)
include hc hp h24 hq hb hx hd0 h8 hJ

/-- The rows of a tile, one after the other. -/
theorem tileRows_spec {rows cols : Nat} (hrows : 0 < rows) (hcols : 0 < cols) (hcols' : cols ≤ 128)
    (hw : dstKind e.desc = 2 → ∃ p, w.writes = [p] ∧ p.space.mayTile = true ∧ p.len = if transposed e.desc then rowsBytes (dstPitch e.desc) (dstFmt e.desc) cols rows
      else rowsBytes (dstPitch e.desc) (dstFmt e.desc) rows cols)
    (hT : ∀ r, r < rows → ∀ u : State, s.Views u q i e w r → J r u.invocations →
      ∃ l, J (r + 1) l ∧ T u r = ({ u with invocations := l } : State).storeRow q i e w false r ((List.range cols).map fun j => storedCode e.desc (v r j))) :
    ∃ u, u = (List.range rows).foldl T s ∧ GougeOnly s u q i e w ∧ State.Minding q s u ∧ u.prot = s.prot ∧ J rows u.invocations
      ∧ (dstKind e.desc = 1 → ∀ r j, r < rows → j < cols → TileAt u q (dstTile e) r j = v r j % 2 ^ 32)
      ∧ (dstKind e.desc = 2 → transposed e.desc = false → LinesHold s u i e w rows cols (dstPitch e.desc) v)
      ∧ (dstKind e.desc = 2 → transposed e.desc = true → LinesHold s u i e w cols rows (dstPitch e.desc) fun l j => v j l)
      ∧ (dstKind e.desc = 1 → ∀ r j, r < 128 → j < 128 → ¬ (r < rows ∧ j < cols) → TileAt u q (dstTile e) r j = TileAt s q (dstTile e) r j) := by
  obtain ⟨V, hV⟩ : ∃ V : Nat → List Nat, V = fun r => (List.range cols).map fun j => storedCode e.desc (v r j) := ⟨_, rfl⟩
  have hVl : ∀ r, (V r).length = cols := fun r => by rw [hV, List.length_map, List.length_range]
  replace hT : ∀ r, r < rows → ∀ u : State, s.Views u q i e w r → J r u.invocations →
      ∃ l, J (r + 1) l ∧ T u r = ({ u with invocations := l } : State).storeRow q i e w false r (V r) := by rw [hV]; exact hT
  refine ⟨_, rfl, ?_⟩
  obtain hd | hd := hd0
  · obtain ⟨h1, h2⟩ := rows_tile hc hp h24 hq hd (fun r => by rw [hVl]; exact hcols') (fun x hxr => (hx x hxr).1) hJ hT
    generalize (List.range rows).foldl T s = u at h1 h2
    have hpair : u.pair q = (s.inTile q (dstTile e) fun x => x.putRows ((List.range rows).map fun x => (x, V x))).pair q :=
      (congrArg (fun x : State => x.pair q) h1 :)
    have hn : dstTile e < 16 := Nat.mod_lt _ (by decide)
    obtain ⟨g1, -, -, -, -⟩ := inTile_spec hp h24 hq hn fun x => x.putRows ((List.range rows).map fun x => (x, V x))
    have hel (r j : Nat) (hj : j < 128) : TileAt u q (dstTile e) r j = if r < rows ∧ j < cols then v r j % 2 ^ 32 else TileAt s q (dstTile e) r j := by
      rw [TileAt, hpair, g1, el_rows (gougeTile_wf hp h24 hq hn) rows (fun x => by rw [hVl]; exact hcols') hj, hVl]
      by_cases hc : r < rows ∧ j < cols
      · rw [if_pos hc, if_pos hc, List.getD_eq_getElem _ _ (by rw [hVl]; exact hc.2)]
        simp only [hV, List.getElem_map, List.getElem_range]
        rw [storedCode, if_neg (by omega)]
      · rw [if_neg hc, if_neg hc]
        rfl
    refine ⟨gougeOnly_of_inTile hp h24 hq hd h1, minding_of_rest (ts := u.tenants) (ps := s.pairs) (inv := s.invocations) (fr := u.free) ?_,
      (congrArg State.prot h1 :), h2, fun _ r j hr hj => ?_, fun h => by omega, fun h => by omega, fun _ r j _ hj hout => ?_⟩
    · exact (congrArg (fun x : State => { x with pairs := s.pairs }) h1 :)
    · rw [hel r j (by omega), if_pos ⟨hr, hj⟩]
    · rw [hel r j hj, if_neg hout]
  · obtain ⟨p, hwp, hmay, hlen⟩ := hw hd
    have hpm : p ∈ w.writes := hwp ▸ List.mem_singleton_self p
    have h8 := h8 hd
    have hpos : 0 < p.len := by
      have h1 := elemBytes_pos h8 hrows
      have h2 := elemBytes_pos h8 hcols
      rw [hlen]
      unfold rowsBytes
      split <;> omega
    have ht := tiled_of_backed (hb p hpm hpos) hmay
    have hxs : ∀ x ∈ w.reads, x.space.mayTile = true ∧ 0 < x.len ∧ s.overlap i.tenant p x = false := fun x hxr => by
      obtain ⟨h1, h2, h3⟩ := hx x hxr
      exact ⟨h1, h2, h3 hd p hpm⟩
    have hcode (a : Nat) : storedCode e.desc a = convert (dstFmt e.desc) (cvtOf e.desc) a := if_pos hd
    cases htr : transposed e.desc with
    | false =>
      rw [htr, if_neg Bool.false_ne_true] at hlen
      obtain ⟨h1, h2⟩ := rows_lines (f := dstFmt e.desc) (L := elemBytes (dstFmt e.desc) cols) (P := dstPitch e.desc) (C := rows)
        (done := rowLines (fun r j => storedCode e.desc (v r j)) cols) (V := V) h8 ht hpos hxs hJ rfl
        (fun r hr u hu => by rw [hV]; exact storeRow_rowLines hc ht hd hwp h8 (fun r j => storedCode e.desc (v r j)) htr hcols hr hlen hu) hT
      generalize (List.range rows).foldl T s = u at h1 h2
      refine ⟨gougeOnly_of_linesAt hpm h1, minding_of_rest (ts := s.tenants) (ps := u.pairs) (inv := s.invocations) (fr := u.free) h1.rest,
        (congrArg State.prot h1.rest :), h2, fun h => by omega, fun _ _ => ?_, fun _ h => absurd h Bool.false_ne_true, fun h => by omega⟩
      refine linesHold_of_linesAt h8 ht hwp h1 rfl v fun l hl => ?_
      simp only [rowLines, if_pos hl, hcode]
    | true =>
      rw [htr, if_pos rfl] at hlen
      obtain ⟨h1, h2⟩ := rows_lines (f := dstFmt e.desc) (L := elemBytes (dstFmt e.desc) rows) (P := dstPitch e.desc) (C := cols)
        (done := colLines (fun r j => storedCode e.desc (v r j))) (V := V) h8 ht hpos hxs hJ rfl
        (fun r hr u hu => by rw [hV]; exact storeRow_colLines hc ht hd hwp h8 (fun r j => storedCode e.desc (v r j)) htr hr hlen hu) hT
      generalize (List.range rows).foldl T s = u at h1 h2
      refine ⟨gougeOnly_of_linesAt hpm h1, minding_of_rest (ts := s.tenants) (ps := u.pairs) (inv := s.invocations) (fr := u.free) h1.rest,
        (congrArg State.prot h1.rest :), h2, fun h => by omega, fun _ h => absurd h.symm Bool.false_ne_true, fun _ _ => ?_, fun h => by omega⟩
      refine linesHold_of_linesAt h8 ht hwp h1 rfl _ fun l hl => ?_
      simp only [colLines, hcode]
/-- The groups of a stream, one after the other. -/
theorem streamRows_spec {n : Nat} (hn : 0 < n)
    (hw : dstKind e.desc = 2 → ∃ p, w.writes = [p] ∧ p.space.mayTile = true ∧ p.len = elemBytes (dstFmt e.desc) n)
    (hT : ∀ r, r < ceilDiv n 128 → ∀ u : State, s.Views u q i e w r → J r u.invocations → ∃ l, J (r + 1) l
      ∧ T u r = ({ u with invocations := l } : State).storeRow q i e w true r ((List.range (min 128 (n - 128 * r))).map fun j => storedCode e.desc (v r j))) :
    ∃ u, u = (List.range (ceilDiv n 128)).foldl T s ∧ GougeOnly s u q i e w ∧ State.Minding q s u ∧ u.prot = s.prot ∧ J (ceilDiv n 128) u.invocations
      ∧ (dstKind e.desc = 1 → ∀ x, x < n → TileAt u q (dstTile e) (x / 128) (x % 128) = v (x / 128) (x % 128) % 2 ^ 32)
      ∧ (dstKind e.desc = 2 → LinesHold s u i e w 1 n 0 fun _ x => v (x / 128) (x % 128))
      ∧ (dstKind e.desc = 1 → ∀ r j, r < 128 → j < 128 → ¬ 128 * r + j < n → TileAt u q (dstTile e) r j = TileAt s q (dstTile e) r j) := by
  obtain ⟨V, hV⟩ : ∃ V : Nat → List Nat, V = fun r => (List.range (min 128 (n - 128 * r))).map fun j => storedCode e.desc (v r j) := ⟨_, rfl⟩
  have hVl : ∀ r, (V r).length = min 128 (n - 128 * r) := fun r => by rw [hV, List.length_map, List.length_range]
  have hceil : ceilDiv n 128 = (n + 127) / 128 := rfl
  replace hT : ∀ r, r < ceilDiv n 128 → ∀ u : State, s.Views u q i e w r → J r u.invocations →
      ∃ l, J (r + 1) l ∧ T u r = ({ u with invocations := l } : State).storeRow q i e w true r (V r) := by rw [hV]; exact hT
  refine ⟨_, rfl, ?_⟩
  obtain hd | hd := hd0
  · obtain ⟨h1, h2⟩ := rows_tile hc hp h24 hq hd (fun r => by rw [hVl]; omega) (fun x hxr => (hx x hxr).1) hJ hT
    generalize (List.range (ceilDiv n 128)).foldl T s = u at h1 h2
    have hpair : u.pair q = (s.inTile q (dstTile e) fun x => x.putRows ((List.range (ceilDiv n 128)).map fun x => (x, V x))).pair q :=
      (congrArg (fun x : State => x.pair q) h1 :)
    have hn : dstTile e < 16 := Nat.mod_lt _ (by decide)
    obtain ⟨g1, -, -, -, -⟩ := inTile_spec hp h24 hq hn fun x => x.putRows ((List.range (ceilDiv n 128)).map fun x => (x, V x))
    have hel (r j : Nat) (hj : j < 128) : TileAt u q (dstTile e) r j = if 128 * r + j < n then v r j % 2 ^ 32 else TileAt s q (dstTile e) r j := by
      rw [TileAt, hpair, g1, el_rows (gougeTile_wf hp h24 hq hn) (ceilDiv n 128) (fun x => by rw [hVl]; omega) hj, hVl]
      by_cases hc : 128 * r + j < n
      · rw [if_pos hc, if_pos (by omega), List.getD_eq_getElem _ _ (by rw [hVl]; omega)]
        simp only [hV, List.getElem_map, List.getElem_range]
        rw [storedCode, if_neg (by omega)]
      · rw [if_neg hc, if_neg (by omega)]
        rfl
    refine ⟨gougeOnly_of_inTile hp h24 hq hd h1, minding_of_rest (ts := u.tenants) (ps := s.pairs) (inv := s.invocations) (fr := u.free) ?_,
      (congrArg State.prot h1 :), h2, fun _ x hx => ?_, fun h => by omega, fun _ r j _ hj hout => ?_⟩
    · exact (congrArg (fun x : State => { x with pairs := s.pairs }) h1 :)
    · rw [hel _ _ (Nat.mod_lt _ (by decide)), if_pos (by omega)]
    · rw [hel r j hj, if_neg hout]
  · obtain ⟨p, hwp, hmay, hlen⟩ := hw hd
    have hpm : p ∈ w.writes := hwp ▸ List.mem_singleton_self p
    have h8 := h8 hd
    have hpos : 0 < p.len := hlen ▸ elemBytes_pos h8 hn
    have ht := tiled_of_backed (hb p hpm hpos) hmay
    have hxs : ∀ x ∈ w.reads, x.space.mayTile = true ∧ 0 < x.len ∧ s.overlap i.tenant p x = false := fun x hxr => by
      obtain ⟨h1, h2, h3⟩ := hx x hxr
      exact ⟨h1, h2, h3 hd p hpm⟩
    obtain ⟨h1, h2⟩ := rows_lines (f := dstFmt e.desc) (L := elemBytes (dstFmt e.desc) n) (P := 0) (C := 1)
      (done := streamLine (fun r j => storedCode e.desc (v r j)) n) (V := V) h8 ht hpos hxs hJ (funext fun l => by rw [streamLine, Nat.mul_zero, Nat.zero_min]; rfl)
      (fun r hr u hu => by rw [hV]; exact storeRow_streamLine hc ht hd hwp h8 (fun r j => storedCode e.desc (v r j)) (by omega) hlen hu) hT
    generalize (List.range (ceilDiv n 128)).foldl T s = u at h1 h2
    refine ⟨gougeOnly_of_linesAt hpm h1, minding_of_rest (ts := s.tenants) (ps := u.pairs) (inv := s.invocations) (fr := u.free) h1.rest,
      (congrArg State.prot h1.rest :), h2, fun h => by omega, fun _ => ?_, fun h => by omega⟩
    refine linesHold_of_linesAt h8 ht hwp h1 rfl _ fun l hl => ?_
    rw [streamLine, show min (128 * ceilDiv n 128) n = n by omega]
    exact List.map_congr_left fun x _ => if_pos hd

end

end Sys2Proof.Machine
end

section
/-!
PROOFS. Chapter 12: TILE and STREAM as their commands run.
-/

namespace Sys2Proof.Machine

open Sys2Proof.Safety

/-! ### The next free value -/

/-- The state with the next free value drawn. -/
def State.drawn (s : State) : State := { s with free := s.free + 1 }

section
variable {s t : State} {q : Nat} {i : Invocation} {e : QEntry} {w : Work}

theorem gougeOnly_of_drawn (h : GougeOnly s.drawn t q i e w) : GougeOnly s t q i e w := by
  obtain ⟨h1, h2⟩ := h
  refine ⟨fun v sp o ho => ?_, h2⟩
  have hset : ∀ p, s.drawn.settle i.tenant p = s.settle i.tenant p := (State.Shaped.of_tenants rfl).settle i.tenant
  have := h1 v sp o fun p hp hv hs => by
    rw [hset] at hs ⊢
    exact ho p hp hv hs
  rw [this, byteOf_eq, byteOf_eq]
  rfl
theorem linesHold_of_drawn (hm : ∀ p ∈ w.writes, p.space.mayTile = true) {count len pitch : Nat} {v : Nat → Nat → Nat}
    (h : LinesHold s.drawn t i e w count len pitch v) : LinesHold s t i e w count len pitch v := fun p hp hc l hl => by
  have := h p hp hc l hl
  rwa [tile_spanGet_of_tenants (s := s) (u := s.drawn) rfl (p := { p with off := p.off + l * pitch, len := elemBytes (dstFmt e.desc) len })
    (hm p hp)] at this
theorem readsApart_drawn (h : ReadsApart s i e w) : ReadsApart s.drawn i e w := by
  have hset : ∀ p, s.drawn.settle i.tenant p = s.settle i.tenant p := (State.Shaped.of_tenants rfl).settle i.tenant
  refine fun x hx => ?_
  obtain ⟨h1, h2, h3⟩ := h x hx
  refine ⟨h1, h2, fun hd p hp => ?_⟩
  have := h3 hd p hp
  unfold State.overlap at this ⊢
  rw [hset, hset]
  exact this
theorem backed_drawn {p : Span} (h : Backed s i p) : Backed s.drawn i p := by
  have hset : s.drawn.settle i.tenant p = s.settle i.tenant p := (State.Shaped.of_tenants rfl).settle i.tenant p
  unfold Backed at h ⊢
  rw [hset]
  exact h
theorem minding_of_drawn (h : State.Minding q s.drawn t) : State.Minding q s t :=
  ⟨h.pcie, h.pers, h.power, h.ctrs, h.logs, h.peer, h.media, h.svc, h.marks, h.others, h.entries⟩

end

/-! ### What the start checks say of the pieces -/

theorem srcFmt_le {d : BitVec 512} {stream none_ : Bool} (h : kindsOk d stream none_ = true) (hk : srcKind d = 2) : srcFmt d ≤ 8 := by
  unfold kindsOk at h
  simp only [Bool.and_eq_true] at h
  obtain ⟨⟨⟨-, h1⟩, -⟩, -⟩ := h
  rw [if_pos hk] at h1
  exact of_decide_eq_true h1

theorem dstKind_of_kindsOk {d : BitVec 512} {stream : Bool} (h : kindsOk d stream false = true) : dstKind d = 1 ∨ dstKind d = 2 := by
  obtain ⟨h1, -, h3⟩ := kindsOk_spec h
  have := h3 rfl
  omega

/-- The pieces of a command that takes `srcLen` bytes and gives `dstLen`. -/
structure GougePieces (e : QEntry) (w : Work) (srcLen dstLen : Nat) : Prop where
  src : ∀ x ∈ w.reads, w.reads = [x] ∧ x.len = srcLen ∧ x.space.mayTile = true ∧ srcFmt e.desc ≤ 8
  none : dstKind e.desc ≠ 2 → w.writes = []
  dst : dstKind e.desc = 2 → ∃ p, w.writes = [p] ∧ p.len = dstLen ∧ p.space.mayTile = true
  fmt : dstKind e.desc = 2 → dstFmt e.desc ≤ 8

/-- The bytes of a tile's destination. -/
def tileDstLen (d : BitVec 512) : Nat := if transposed d then rowsBytes (dstPitch d) (dstFmt d) (cLast d + 1) (rLast d + 1)
  else rowsBytes (dstPitch d) (dstFmt d) (rLast d + 1) (cLast d + 1)
def tileSrcLen (d : BitVec 512) : Nat := rowsBytes (srcPitch d) (srcFmt d) (rLast d + 1) (cLast d + 1)

section
variable {s : State} {q : Nat} {i : Invocation} {e : QEntry} {w : Work}

theorem gougePieces_of {a b : List Span} {al bl m n : Nat} {stream none_ : Bool} (hk : kindsOk e.desc stream none_ = true)
    (ha : s.srcPiece i e al m = .ok a) (hb : s.dstPiece i e bl n = .ok b) (tiles masks : List Nat) (cost : Nat) :
    GougePieces e (gougeWork e a b tiles masks cost) m n := by
  obtain ⟨h1, h2, h3⟩ := kindsOk_spec hk
  obtain ⟨hb1, hb2⟩ := dstPiece_ok hb
  refine ⟨fun x hx => ?_, hb1, hb2, h2⟩
  obtain ⟨g1, g2, g3, g4⟩ := srcPiece_ok ha x hx
  exact ⟨g1, g2, g3, srcFmt_le hk g4⟩
theorem tileWork_spec (hw : s.tileWork q i e = .ok w) :
    GougePieces e w (tileSrcLen e.desc) (tileDstLen e.desc) ∧ (dstKind e.desc = 1 ∨ dstKind e.desc = 2) := by
  unfold State.tileWork at hw
  extract_lets d c rows cols at hw
  obtain ⟨_, hn, h1⟩ := except_bind_ok hw
  obtain ⟨a, ha, h2⟩ := except_bind_ok h1
  obtain ⟨b, hb, h3⟩ := except_bind_ok h2
  obtain ⟨_, -, h4⟩ := except_bind_ok h3
  obtain ⟨_, -, h5⟩ := except_bind_ok h4
  cases h5
  have hk := need_ok hn
  simp only [Bool.and_eq_true] at hk
  have hk := hk.1.1.2
  exact ⟨gougePieces_of hk ha hb .., dstKind_of_kindsOk hk⟩
theorem softmaxWork_spec (hw : s.softmaxWork q i e = .ok w) :
    GougePieces e w (tileSrcLen e.desc) (tileDstLen e.desc) ∧ (dstKind e.desc = 1 ∨ dstKind e.desc = 2) := by
  unfold State.softmaxWork at hw
  extract_lets d m m2 rows cols masks at hw
  obtain ⟨_, hn, h1⟩ := except_bind_ok hw
  obtain ⟨a, ha, h2⟩ := except_bind_ok h1
  obtain ⟨b, hb, h3⟩ := except_bind_ok h2
  obtain ⟨_, -, h4⟩ := except_bind_ok h3
  obtain ⟨_, -, h5⟩ := except_bind_ok h4
  cases h5
  have hk := need_ok hn
  simp only [Bool.and_eq_true] at hk
  have hk := hk.1.1.2
  exact ⟨gougePieces_of hk ha hb .., dstKind_of_kindsOk hk⟩
theorem streamWork_spec (hw : s.streamWork q i e = .ok w) : (dstKind e.desc = 1 ∨ dstKind e.desc = 2)
    ∧ if countOf e.desc = 0 then w.writes = [] else GougePieces e w (elemBytes (srcFmt e.desc) (countOf e.desc)) (elemBytes (dstFmt e.desc) (countOf e.desc)) := by
  unfold State.streamWork at hw
  extract_lets d c n at hw
  obtain ⟨_, hn, h1⟩ := except_bind_ok hw
  obtain ⟨a, ha, h2⟩ := except_bind_ok h1
  obtain ⟨b, hb, h3⟩ := except_bind_ok h2
  have hk := need_ok hn
  simp only [Bool.and_eq_true] at hk
  have hk := hk.1.1.1.2
  refine ⟨dstKind_of_kindsOk hk, ?_⟩
  by_cases h0 : countOf e.desc = 0
  · rw [if_pos h0]
    rw [if_pos (show n = 0 from h0)] at h3
    cases h3
    rfl
  · rw [if_neg h0]
    rw [if_neg (show n ≠ 0 from h0)] at h3
    obtain ⟨_, -, h4⟩ := except_bind_ok h3
    obtain ⟨_, -, h5⟩ := except_bind_ok h4
    cases h5
    exact gougePieces_of hk ha hb ..
theorem readsApart_of {m n : Nat} (h : GougePieces e w m n) (hm : srcFmt e.desc ≤ 8 → 0 < m)
    (ha : dstKind e.desc = 2 → ∀ p ∈ w.writes, ∀ x ∈ w.reads, s.overlap i.tenant p x = false) : ReadsApart s i e w := fun x hx => by
  obtain ⟨-, h2, h3, h4⟩ := h.src x hx
  exact ⟨h3, h2 ▸ hm h4, fun hd p hp => ha hd p hp x hx⟩
theorem tileSrcLen_pos (h : srcFmt e.desc ≤ 8) : 0 < tileSrcLen e.desc :=
  Nat.lt_of_lt_of_le (elemBytes_pos h (Nat.succ_pos _)) (Nat.le_add_left ..)
/-- A row of a tile lies within its piece. -/
theorem tileRow_inside {n : Nat} (h : GougePieces e w (tileSrcLen e.desc) n) {r : Nat} (hr : r < rLast e.desc + 1) (x : Span) (hx : w.reads.head? = some x) :
    (if false = true then elemBytes (srcFmt e.desc) (128 * r) else r * srcPitch e.desc) + elemBytes (srcFmt e.desc) (cLast e.desc + 1) ≤ x.len := by
  obtain ⟨-, h2, -, -⟩ := h.src x (List.mem_of_mem_head? hx)
  rw [h2, if_neg Bool.false_ne_true]
  exact Nat.add_le_add_right (Nat.mul_le_mul_right _ (Nat.le_of_lt_succ hr)) _
/-- A group of a stream lies within its piece. -/
theorem streamRow_inside {n : Nat} (h : GougePieces e w (elemBytes (srcFmt e.desc) (countOf e.desc)) n) {r : Nat} (hr : 128 * r < countOf e.desc) (x : Span)
    (hx : w.reads.head? = some x) :
    (if true = true then elemBytes (srcFmt e.desc) (128 * r) else r * srcPitch e.desc) + elemBytes (srcFmt e.desc) (streamCols e.desc r) ≤ x.len := by
  obtain ⟨-, h2, -, h8⟩ := h.src x (List.mem_of_mem_head? hx)
  have hcols : 128 * r + streamCols e.desc r ≤ countOf e.desc := by
    unfold streamCols
    omega
  rw [h2, if_pos rfl]
  refine Nat.le_trans ?_ (elemBytes_mono h8 hcols)
  by_cases h7 : srcFmt e.desc = 7
  · rw [h7]
    simp only [elemBytes_four]
    omega
  · rw [elemBytes_whole h8 h7, elemBytes_whole h8 h7, elemBytes_whole h8 h7, Nat.add_mul]

end

end Sys2Proof.Machine
end

section
/-!
PROOFS. Chapter 12: TILE, STREAM and SOFTMAX (R376 to R382, R387 to R389).
-/

namespace Sys2Proof.Machine

open Sys2Proof.Safety

section
variable {s : State} (hs : Sound s) (hp : PairsOk s) {q k : Nat} (h24 : 24 ≤ q) (hq : q < 40) {i : Invocation} {e : QEntry} {w : Work}

theorem drawn_sourceRow (hm : ∀ x ∈ w.reads, x.space.mayTile = true) (stream : Bool) (r n c : Nat) :
    s.drawn.sourceRow q i e w stream r n c = s.sourceRow q i e w stream r n c := by
  match hk : srcKind e.desc with
  | 0 =>
    rw [sourceRow_acc hk, sourceRow_acc hk]
    rfl
  | 1 =>
    rw [sourceRow_tile hk, sourceRow_tile hk]
    rfl
  | k + 2 =>
    cases hx : w.reads with
    | nil => rw [sourceRow_none (by omega) hx, sourceRow_none (by omega) hx]
    | cons x rest =>
      rw [sourceRow_piece (by omega) hx, sourceRow_piece (by omega) hx]
      exact congrArg (fun l => widen (srcFmt e.desc) (elemAt (srcFmt e.desc) (listReader l) c))
        (tile_spanGet_of_tenants rfl (hm x (hx ▸ List.mem_cons_self)))
theorem gougeOnly_same {t t' : State} (h1 : t'.tenants = t.tenants) (h2 : t'.pairs = t.pairs) (h3 : t'.host = t.host) (h : GougeOnly s t q i e w) :
    GougeOnly s t' q i e w := by
  have hpair : t'.pair q = t.pair q := by rw [State.pair, h2]; rfl
  obtain ⟨k1, k2, k3, k4, k5⟩ := h
  refine ⟨fun v sp o ho => (memKept_of_tenants h1 i.tenant [] v sp o fun _ h => absurd h List.not_mem_nil).trans (k1 v sp o ho), h3.trans k2, ?_,
    by rw [hpair, k4], by rw [hpair, k5]⟩
  unfold PairKept at k3 ⊢
  rw [hpair, h2]
  exact k3
theorem linesHold_same {t t' : State} (h1 : t'.tenants = t.tenants) (hm : ∀ p ∈ w.writes, p.space.mayTile = true) {count len pitch : Nat} {v : Nat → Nat → Nat}
    (h : LinesHold s t i e w count len pitch v) : LinesHold s t' i e w count len pitch v := fun p hp hc l hl =>
  (tile_spanGet_of_tenants h1 (p := { p with off := p.off + l * pitch, len := elemBytes (dstFmt e.desc) len }) (hm p hp)).trans (h p hp hc l hl)
theorem GougePieces.mayTile {m n : Nat} (h : GougePieces e w m n) : ∀ p ∈ w.writes, p.space.mayTile = true := fun p hp => by
  by_cases hd : dstKind e.desc = 2
  · obtain ⟨x, h1, -, h3⟩ := h.dst hd
    rw [h1] at hp
    cases List.mem_singleton.mp hp
    exact h3
  · rw [h.none hd] at hp
    cases hp

/-- A value of a chain. -/
def gougeValue (s : State) (q : Nat) (i : Invocation) (e : QEntry) (w : Work) (steps : Nat) (stream : Bool) (r j : Nat) : Nat :=
  (s.pair q).chain s.free (chainOf e.desc steps) r j
    (s.sourceRow q i e w stream r (if stream then streamCols e.desc r else cLast e.desc + 1) j)
/-- A row of a chain, stored. -/
def chainStep (q : Nat) (i : Invocation) (e : QEntry) (w : Work) (stream : Bool) (g : Nat) (cols : Nat → Nat) (u : State) (r : Nat) : State :=
  u.storeRow q i e w stream r (((u.pair q).chainRow g (chainOf e.desc 4) (u.sourceRow q i e w stream r (cols r)) r (cols r)).map fun v =>
    if dstKind e.desc = 2 then convert (dstFmt e.desc) (cvtOf e.desc) v else v)
include hs

theorem tileRun_sound : State.tileRun q [] s i e w = (((List.range (rLast e.desc + 1)).foldl
    (chainStep q i e w false s.free fun _ => cLast e.desc + 1) s.drawn).clearLines i.tenant (dstLines e w false (rLast e.desc + 1) fun _ => cLast e.desc + 1), .done) := by
  unfold State.tileRun State.gougeFetch
  dsimp only
  rw [sound_fetch hs]
  rfl
theorem streamRun_sound (h : countOf e.desc ≠ 0) : State.streamRun q [] s i e w = (((List.range (streamRows e.desc)).foldl
    (chainStep q i e w true s.free (streamCols e.desc)) s.drawn).clearLines i.tenant (dstLines e w true (streamRows e.desc) (streamCols e.desc)), .done) := by
  unfold State.streamRun State.gougeFetch
  dsimp only
  rw [if_neg h, sound_fetch hs]
  rfl
omit hs in
theorem chainStep_views {stream : Bool} {cols : Nat → Nat} {u : State} {r : Nat} (h : s.drawn.Views u q i e w r)
    (ha : dstKind e.desc = 1 → ∀ v ∈ chainOf e.desc 4, opndOf v = 2 → idxOf v ≠ dstTile e) (hcols : cols r ≤ 128)
    (hr : ∀ x, w.reads.head? = some x → (if stream = true then elemBytes (srcFmt e.desc) (128 * r) else r * srcPitch e.desc)
      + elemBytes (srcFmt e.desc) (cols r) ≤ x.len) :
    chainStep q i e w stream s.free cols u r = u.storeRow q i e w stream r ((List.range (cols r)).map fun j =>
      storedCode e.desc ((s.drawn.pair q).chain s.free (chainOf e.desc 4) r j (s.drawn.sourceRow q i e w stream r (cols r) j))) := by
  unfold chainStep
  rw [h.chainRow ha hr s.free hcols, Pair.chainRow, List.map_map]
  rfl
include hp h24 hq

/-- TILE. -/
theorem tile_performs (hrun : Running s q 2 1 k e i) (hw : s.tileWork q i e = .ok w) (hb : ∀ p ∈ w.writes, 0 < p.len → Backed s i p)
    (ha : dstKind e.desc = 1 → ∀ v ∈ chainOf e.desc 4, opndOf v = 2 → idxOf v ≠ dstTile e)
    (hov : dstKind e.desc = 2 → ∀ p ∈ w.writes, ∀ x ∈ w.reads, s.overlap i.tenant p x = false) :
    Performs (.tile ⟨q, []⟩) s q k fun t => GougeOnly s t q i e w ∧ t.invocations = s.invocations
      ∧ ((dstKind e.desc = 1 → ∀ r j, r ≤ rLast e.desc → j ≤ cLast e.desc → TileAt t q (dstTile e) r j = gougeValue s q i e w 4 false r j % 2 ^ 32)
        ∧ (dstKind e.desc = 2 → transposed e.desc = false → LinesHold s t i e w (rLast e.desc + 1) (cLast e.desc + 1) (dstPitch e.desc) (gougeValue s q i e w 4 false))
        ∧ (dstKind e.desc = 2 → transposed e.desc = true → LinesHold s t i e w (cLast e.desc + 1) (rLast e.desc + 1) (dstPitch e.desc)
            fun l j => gougeValue s q i e w 4 false j l))
      ∧ (dstKind e.desc = 1 → ∀ r j, r < 128 → j < 128 → ¬ (r ≤ rLast e.desc ∧ j ≤ cLast e.desc) → TileAt t q (dstTile e) r j = TileAt s q (dstTile e) r j) := by
  obtain ⟨hpc, hd0⟩ := tileWork_spec hw
  have hcl : cLast e.desc < 128 := Nat.mod_lt _ (by decide)
  have hvw (r j : Nat) : gougeValue s q i e w 4 false r j
      = (s.drawn.pair q).chain s.free (chainOf e.desc 4) r j (s.drawn.sourceRow q i e w false r (cLast e.desc + 1) j) := by
    rw [drawn_sourceRow fun x hx => (hpc.src x hx).2.2.1]
    rfl
  obtain ⟨u, hu, honly, hmind, hprot, hJ, h1, h2, h3, h4⟩ := tileRows_spec (s := s.drawn) (clean_of_sound hs) hp h24 hq
    (fun p hp hl => backed_drawn (hb p hp hl)) (readsApart_drawn (readsApart_of hpc tileSrcLen_pos hov)) hd0 hpc.fmt
    (J := fun _ l => l = s.invocations) rfl (T := chainStep q i e w false s.free fun _ => cLast e.desc + 1) (gougeValue s q i e w 4 false)
    (Nat.succ_pos (rLast e.desc)) (Nat.succ_pos (cLast e.desc)) hcl
    (fun hd => by
      obtain ⟨p, g1, g2, g3⟩ := hpc.dst hd
      exact ⟨p, g1, g3, g2⟩) (fun r hr u hu hj => by
      refine ⟨u.invocations, hj, ?_⟩
      simp only [hvw]
      exact chainStep_views hu ha hcl (tileRow_inside hpc hr))
  have hx : exec (.tile ⟨q, []⟩) s = .next (s.runOp q 2 1 (State.tileWork q) (State.tileRun q [])) := rfl
  refine performs_of hrun hw hx (u := u) ?_ (minding_of_drawn hmind) ?_
  · rw [tileRun_sound hs, ← hu, clean_clearLines (clean_of_prot (clean_of_sound hs) hprot)]
  · refine ⟨gougeOnly_same (t := u) rfl rfl rfl (gougeOnly_of_drawn honly), hJ, ⟨fun hd r j hr hj => ?_, fun hd htr => ?_, fun hd htr => ?_⟩, fun hd r j hr hj hout => ?_⟩
    · exact h1 hd r j (Nat.lt_succ_of_le hr) (Nat.lt_succ_of_le hj)
    · exact linesHold_same (t := u) (t' := u.modEntry q k fun y => { y with outcome := .done }) rfl hpc.mayTile (linesHold_of_drawn hpc.mayTile (h2 hd htr))
    · exact linesHold_same (t := u) (t' := u.modEntry q k fun y => { y with outcome := .done }) rfl hpc.mayTile (linesHold_of_drawn hpc.mayTile (h3 hd htr))
    · exact h4 hd r j hr hj fun hc => hout ⟨Nat.le_of_lt_succ hc.1, Nat.le_of_lt_succ hc.2⟩

/-- STREAM. -/
theorem stream_performs (hrun : Running s q 2 4 k e i) (hw : s.streamWork q i e = .ok w) (hb : ∀ p ∈ w.writes, 0 < p.len → Backed s i p)
    (ha : dstKind e.desc = 1 → ∀ v ∈ chainOf e.desc 4, opndOf v = 2 → idxOf v ≠ dstTile e)
    (hov : dstKind e.desc = 2 → ∀ p ∈ w.writes, ∀ x ∈ w.reads, s.overlap i.tenant p x = false) :
    Performs (.stream ⟨q, []⟩) s q k fun t => GougeOnly s t q i e w ∧ t.invocations = s.invocations ∧ (countOf e.desc = 0 → t.pairs = s.pairs)
      ∧ (dstKind e.desc = 1 → ∀ x, x < countOf e.desc → TileAt t q (dstTile e) (x / 128) (x % 128) = gougeValue s q i e w 4 true (x / 128) (x % 128) % 2 ^ 32)
      ∧ (dstKind e.desc = 2 → 0 < countOf e.desc → LinesHold s t i e w 1 (countOf e.desc) 0 fun _ x => gougeValue s q i e w 4 true (x / 128) (x % 128))
      ∧ (dstKind e.desc = 1 → ∀ r j, r < 128 → j < 128 → ¬ 128 * r + j < countOf e.desc → TileAt t q (dstTile e) r j = TileAt s q (dstTile e) r j) := by
  obtain ⟨hd0, hpc⟩ := streamWork_spec hw
  have hx : exec (.stream ⟨q, []⟩) s = .next (s.runOp q 2 4 (State.streamWork q) (State.streamRun q [])) := rfl
  by_cases h0 : countOf e.desc = 0
  · refine performs_of hrun hw hx (u := s) (if_pos h0) (.refl q s) ⟨⟨memKept_of_tenants rfl _ _, rfl, ⟨fun _ _ => rfl, fun _ _ => rfl, fun _ _ => rfl⟩, rfl, rfl⟩,
      rfl, fun _ => rfl, fun _ x hx => by omega, fun _ h => by omega, fun _ _ _ _ _ _ => rfl⟩
  · rw [if_neg h0] at hpc
    have hvw (r j : Nat) : gougeValue s q i e w 4 true r j
        = (s.drawn.pair q).chain s.free (chainOf e.desc 4) r j (s.drawn.sourceRow q i e w true r (streamCols e.desc r) j) := by
      rw [drawn_sourceRow fun x hx => (hpc.src x hx).2.2.1]
      rfl
    obtain ⟨u, hu, honly, hmind, hprot, hJ, h1, h2, h3⟩ := streamRows_spec (s := s.drawn) (clean_of_sound hs) hp h24 hq
      (fun p hp hl => backed_drawn (hb p hp hl)) (readsApart_drawn (readsApart_of hpc (fun h8 => elemBytes_pos h8 (Nat.pos_of_ne_zero h0)) hov)) hd0 hpc.fmt
      (J := fun _ l => l = s.invocations) rfl (T := chainStep q i e w true s.free (streamCols e.desc)) (gougeValue s q i e w 4 true)
      (Nat.pos_of_ne_zero h0)
      (fun hd => by
        obtain ⟨p, g1, g2, g3⟩ := hpc.dst hd
        exact ⟨p, g1, g3, g2⟩) (fun r hr u hu hj => by
        have hr : r < (countOf e.desc + 127) / 128 := hr
        refine ⟨u.invocations, hj, ?_⟩
        simp only [hvw]
        exact chainStep_views hu ha (Nat.min_le_left ..) (streamRow_inside hpc (by omega)))
    refine performs_of hrun hw hx (u := u) ?_ (minding_of_drawn hmind) ?_
    · rw [streamRun_sound hs h0, streamRows, ← hu, clean_clearLines (clean_of_prot (clean_of_sound hs) hprot)]
    · refine ⟨gougeOnly_same (t := u) rfl rfl rfl (gougeOnly_of_drawn honly), hJ, fun h => absurd h h0, fun hd x hx => ?_, fun hd _ => ?_,
        fun hd r j hr hj hout => ?_⟩
      · exact h1 hd x hx
      · exact linesHold_same (t := u) (t' := u.modEntry q k fun y => { y with outcome := .done }) rfl hpc.mayTile (linesHold_of_drawn hpc.mayTile (h2 hd))
      · exact h3 hd r j hr hj hout

/-! ### SOFTMAX -/

omit hs hp h24 hq
/-- A row of a softmax in a state, with the free values from `g` on. -/
def softmaxLine (q : Nat) (i : Invocation) (e : QEntry) (w : Work) (g : Nat) (u : State) (r : Nat) : List Nat × BitVec 8 :=
  softmaxRow ((List.range (cLast e.desc + 1)).map fun j =>
    if (u.pair q).active (fld e.desc 52 3 0) r j && (u.pair q).active (fld e.desc 52 7 4) r j
    then some (mul32 (u.sourceRow q i e w false r (cLast e.desc + 1) j) (fld e.desc 48 31 0)) else none)
    fun j => (Config.approx g (128 * r + j)).toNat
/-- A row of a softmax, stored. -/
def softmaxStep (q : Nat) (i : Invocation) (e : QEntry) (w : Work) (g : Nat) (u : State) (r : Nat) : State :=
  (u.modInv i.ref fun x => { x with flags := x.flags ||| (softmaxLine q i e w g u r).2 }).storeRow q i e w false r
    ((softmaxLine q i e w g u r).1.map fun v => if dstKind e.desc = 2 then convert (dstFmt e.desc) (cvtOf e.desc) v else v)
/-- The flags of a softmax after its first rows. -/
def softmaxFlags (f : Nat → BitVec 8) (n : Nat) (x : Invocation) : Invocation :=
  { x with flags := (List.range n).foldl (fun a r => a ||| f r) x.flags }
/-- Invocations that are changed twice. -/
theorem map_flags_flags {l : List Invocation} {r : CmdRef} (f g : Invocation → Invocation) (hf : ∀ x, (f x).ref = x.ref) :
    (l.map fun x => if x.ref = r then f x else x).map (fun x => if x.ref = r then g x else x) = l.map fun x => if x.ref = r then g (f x) else x := by
  rw [List.map_map]
  refine List.map_congr_left fun x _ => ?_
  by_cases hx : x.ref = r
  · have h1 : (if x.ref = r then f x else x) = f x := if_pos hx
    exact (congrArg (fun y : Invocation => if y.ref = r then g y else y) h1).trans ((if_pos ((hf x).trans hx)).trans (if_pos hx).symm)
  · have h1 : (if x.ref = r then f x else x) = x := if_neg hx
    exact (congrArg (fun y : Invocation => if y.ref = r then g y else y) h1).trans ((if_neg hx).trans (if_neg hx).symm)
theorem softmaxRow_length (z : List (Option Nat)) (c : Nat → Nat) : (softmaxRow z c).1.length = z.length := by
  unfold softmaxRow
  dsimp only
  split
  · exact List.length_map _
  · split
    · exact List.length_map _
    · split
      · exact List.length_map _
      · simp [softmaxExact]
theorem softmaxLine_length (g : Nat) (u : State) (r : Nat) : (softmaxLine q i e w g u r).1.length = cLast e.desc + 1 := by
  rw [softmaxLine, softmaxRow_length, List.length_map, List.length_range]
theorem softmaxLine_views {u : State} {r : Nat} (h : s.Views u q i e w r) (g : Nat)
    (hr : ∀ x, w.reads.head? = some x → (if false = true then elemBytes (srcFmt e.desc) (128 * r) else r * srcPitch e.desc)
      + elemBytes (srcFmt e.desc) (cLast e.desc + 1) ≤ x.len) : softmaxLine q i e w g u r = softmaxLine q i e w g s r := by
  have hcl : cLast e.desc < 128 := Nat.mod_lt _ (by decide)
  unfold softmaxLine
  refine congrArg (softmaxRow · _) (List.map_congr_left fun j hj => ?_)
  have hj := List.mem_range.mp hj
  rw [h.active, h.active, h.sourceRow hr (by omega)]
include hs
theorem softmaxRun_sound : State.softmaxRun q [] s i e w = (((List.range (rLast e.desc + 1)).foldl (softmaxStep q i e w s.free) s.drawn).clearLines i.tenant
    (dstLines e w false (rLast e.desc + 1) fun _ => cLast e.desc + 1), .done) := by
  unfold State.softmaxRun State.gougeFetch
  dsimp only
  rw [sound_fetch hs]
  rfl
include hp h24 hq
/-- SOFTMAX. -/
theorem softmax_performs (hrun : Running s q 2 3 k e i) (hw : s.softmaxWork q i e = .ok w) (hb : ∀ p ∈ w.writes, 0 < p.len → Backed s i p)
    (hov : dstKind e.desc = 2 → ∀ p ∈ w.writes, ∀ x ∈ w.reads, s.overlap i.tenant p x = false) :
    Performs (.softmax ⟨q, []⟩) s q k fun t => GougeOnly s t q i e w
      ∧ ((dstKind e.desc = 1 → ∀ r j, r ≤ rLast e.desc → j ≤ cLast e.desc →
          TileAt t q (dstTile e) r j = (softmaxLine q i e w s.free s r).1.getD j 0 % 2 ^ 32)
        ∧ (dstKind e.desc = 2 → transposed e.desc = false → LinesHold s t i e w (rLast e.desc + 1) (cLast e.desc + 1) (dstPitch e.desc)
            fun r j => (softmaxLine q i e w s.free s r).1.getD j 0)
        ∧ (dstKind e.desc = 2 → transposed e.desc = true → LinesHold s t i e w (cLast e.desc + 1) (rLast e.desc + 1) (dstPitch e.desc)
            fun l j => (softmaxLine q i e w s.free s j).1.getD l 0))
      ∧ (dstKind e.desc = 1 → ∀ r j, r < 128 → j < 128 → ¬ (r ≤ rLast e.desc ∧ j ≤ cLast e.desc) → TileAt t q (dstTile e) r j = TileAt s q (dstTile e) r j)
      ∧ t.invocations = (s.modInv i.ref (softmaxFlags (fun r => (softmaxLine q i e w s.free s r).2) (rLast e.desc + 1))).invocations := by
  obtain ⟨hpc, hd0⟩ := softmaxWork_spec hw
  have hcl : cLast e.desc < 128 := Nat.mod_lt _ (by decide)
  have hln (r : Nat) : softmaxLine q i e w s.free s.drawn r = softmaxLine q i e w s.free s r := by
    unfold softmaxLine
    refine congrArg (softmaxRow · _) (List.map_congr_left fun j _ => ?_)
    rw [drawn_sourceRow fun x hx => (hpc.src x hx).2.2.1]
    rfl
  obtain ⟨u, hu, honly, hmind, hprot, hJ, h1, h2, h3, h4⟩ := tileRows_spec (s := s.drawn) (clean_of_sound hs) hp h24 hq
    (fun p hp hl => backed_drawn (hb p hp hl)) (readsApart_drawn (readsApart_of hpc tileSrcLen_pos hov)) hd0 hpc.fmt
    (J := fun n l => l = (s.modInv i.ref (softmaxFlags (fun r => (softmaxLine q i e w s.free s r).2) n)).invocations)
    (by
      refine (List.map_id _).symm.trans (List.map_congr_left fun x _ => ?_)
      exact (ite_self x).symm) (T := softmaxStep q i e w s.free) (fun r j => (softmaxLine q i e w s.free s r).1.getD j 0)
    (Nat.succ_pos (rLast e.desc)) (Nat.succ_pos (cLast e.desc)) hcl
    (fun hd => by
      obtain ⟨p, g1, g2, g3⟩ := hpc.dst hd
      exact ⟨p, g1, g3, g2⟩) (fun r hr u hu hj => by
      have hline := (softmaxLine_views hu s.free (tileRow_inside hpc hr)).trans (hln r)
      refine ⟨(u.modInv i.ref fun x => { x with flags := x.flags ||| (softmaxLine q i e w s.free s r).2 }).invocations, ?_, ?_⟩
      · refine (congrArg (fun l : List Invocation => l.map fun x =>
          if x.ref = i.ref then { x with flags := x.flags ||| (softmaxLine q i e w s.free s r).2 } else x) hj).trans ?_
        refine (map_flags_flags (softmaxFlags (fun r => (softmaxLine q i e w s.free s r).2) r)
          (fun x => { x with flags := x.flags ||| (softmaxLine q i e w s.free s r).2 }) fun _ => rfl).trans (congrArg (fun g : Invocation → Invocation => s.invocations.map fun x => if x.ref = i.ref then g x else x) ?_)
        funext x
        rw [softmaxFlags, softmaxFlags, List.range_succ, List.foldl_append]
        rfl
      · unfold softmaxStep
        rw [hline]
        refine congrArg (State.storeRow _ q i e w false r) ?_
        refine List.ext_getElem (by rw [List.length_map, softmaxLine_length, List.length_map, List.length_range]) fun j hj1 hj2 => ?_
        rw [List.length_map] at hj1
        rw [List.getElem_map, List.getElem_map, List.getElem_range, List.getD_eq_getElem _ _ hj1]
        rfl)
  have hx : exec (.softmax ⟨q, []⟩) s = .next (s.runOp q 2 3 (State.softmaxWork q) (State.softmaxRun q [])) := rfl
  refine performs_of hrun hw hx (u := u) ?_ (minding_of_drawn hmind) ?_
  · rw [softmaxRun_sound hs, ← hu, clean_clearLines (clean_of_prot (clean_of_sound hs) hprot)]
  · refine ⟨gougeOnly_same (t := u) rfl rfl rfl (gougeOnly_of_drawn honly), ⟨fun hd r j hr hj => ?_, fun hd htr => ?_, fun hd htr => ?_⟩,
      fun hd r j hr hj hout => ?_, hJ⟩
    · exact h1 hd r j (Nat.lt_succ_of_le hr) (Nat.lt_succ_of_le hj)
    · exact linesHold_same (t := u) (t' := u.modEntry q k fun y => { y with outcome := .done }) rfl hpc.mayTile (linesHold_of_drawn hpc.mayTile (h2 hd htr))
    · exact linesHold_same (t := u) (t' := u.modEntry q k fun y => { y with outcome := .done }) rfl hpc.mayTile (linesHold_of_drawn hpc.mayTile (h3 hd htr))
    · exact h4 hd r j hr hj fun hc => hout ⟨Nat.le_of_lt_succ hc.1, Nat.le_of_lt_succ hc.2⟩

end

end Sys2Proof.Machine
end

section
/-!
PROOFS. Chapter 12: TILE_REDUCE and STREAM_REDUCE (R383 to R385).
-/

namespace Sys2Proof.Machine

open Sys2Proof.Safety

/-! ### Results in a destination -/

/-- An element after one element is written. -/
theorem Region.el_put_one {r : Region} (h : r.wf = true) (m v : Nat) (i j : Nat) :
    (r.put (4 * m) (bytesOfLe 4 v)).el i j = if 128 * i + j = m then v % 2 ^ 32 else r.el i j := by
  have hl : (bytesOfLe 4 v).length = 4 := bytesOfLe_length 4 v
  split
  · next hm =>
    rw [Region.el, Region.le, Region.get_put_in h (by omega) (by omega), hm, Nat.sub_self, List.drop_zero, List.take_of_length_le (by omega),
      leOfBytes_bytesOfLe_mod, show (256 : Nat) ^ 4 = 2 ^ 32 by decide]
  · next hm => rw [Region.el, Region.el, Region.le, Region.le, Region.get_put_out h (by omega)]
/-- A tile with values in one of its columns. -/
def putColumn (k : Nat) (out : List Nat) (r : Region) : Region :=
  out.zipIdx.foldl (fun r y => r.put (4 * (128 * y.2 + k)) (bytesOfLe 4 y.1)) r
theorem el_putColumn {r : Region} (h : r.wf = true) {k : Nat} (hk : k < 128) (out : List Nat) {i j : Nat} (hj : j < 128) :
    (putColumn k out r).el i j = if i < out.length ∧ j = k then out.getD i 0 % 2 ^ 32 else r.el i j := by
  unfold putColumn
  rw [zipIdx_eq_map, List.foldl_map]
  refine (foldl_range_induct (I := fun n (x : Region) => x.wf = true ∧ ∀ i j, j < 128 → x.el i j = if i < n ∧ j = k then out.getD i 0 % 2 ^ 32 else r.el i j)
    ⟨h, fun i j _ => (if_neg (by omega)).symm⟩ out.length fun n _ x ⟨hx, hel⟩ => ⟨Region.put_wf hx _ _, fun i j hj => ?_⟩).2 i j hj
  rw [Region.el_put_one hx, hel i j hj]
  by_cases hc : 128 * i + j = 128 * n + k
  · obtain rfl : i = n := by omega
    rw [if_pos hc, if_pos (by omega)]
  · rw [if_neg hc]
    exact if_congr (by omega) rfl rfl
/-- Where a result of a reduction goes. -/
def outPlace (column : Bool) (k x : Nat) : Nat × Nat := if column then (x, k) else (k, x)

section
variable {s : State} (hc : s.prot.Clean) {q : Nat} {i : Invocation} {e : QEntry} {w : Work}

theorem storeOut_other (hd : dstKind e.desc ≠ 1) (hw : w.writes = []) (column : Bool) (k : Nat) (out : List Nat) : s.storeOut q i e w column k out = s := by
  unfold State.storeOut
  dsimp only
  rw [if_neg hd, hw]
theorem storeOut_line (hd : dstKind e.desc ≠ 1) {p : Span} (hw : w.writes = [p]) (column : Bool) (k : Nat) (out : List Nat) :
    s.storeOut q i e w column k out = s.putElems i p (dstFmt e.desc) 0 out := by
  unfold State.storeOut
  dsimp only
  rw [if_neg hd, hw]
theorem storeOut_column (hd : dstKind e.desc = 1) (k : Nat) (out : List Nat) :
    s.storeOut q i e w true k out = s.inTile q (dstTile e) (putColumn k out) := by
  unfold State.storeOut
  dsimp only
  rw [if_pos hd, if_pos rfl]
  rfl
include hc
theorem storeOut_row (hd : dstKind e.desc = 1) (k : Nat) (out : List Nat) :
    s.storeOut q i e w false k out = s.inTile q (dstTile e) fun r => r.putRows [(k, out)] := by
  unfold State.storeOut
  dsimp only
  rw [if_pos hd, if_neg Bool.false_ne_true]
  exact clean_putGouge hc ..

/-- The results of a reduction in its destination. -/
theorem storeOut_spec (hp : PairsOk s) (h24 : 24 ≤ q) (hq : q < 40) (hb : ∀ p ∈ w.writes, 0 < p.len → Backed s i p) {m len : Nat}
    (hpc : GougePieces e w m (elemBytes (dstFmt e.desc) len)) (hlen : 0 < len) (hlen' : len ≤ 128) (column : Bool) {k : Nat} (hk : k < 128) (o : Nat → Nat) :
    ∃ u, u = s.storeOut q i e w column k (((List.range len).map o).map (outCode e.desc)) ∧ GougeOnly s u q i e w ∧ State.Minding q s u
      ∧ u.invocations = s.invocations
      ∧ (dstKind e.desc = 1 → ∀ x, x < len → TileAt u q (dstTile e) (outPlace column k x).1 (outPlace column k x).2 = o x % 2 ^ 32)
      ∧ (dstKind e.desc = 2 → LinesHold s u i e w 1 len 0 fun _ x => o x)
      ∧ (dstKind e.desc = 1 → ∀ r j, r < 128 → j < 128 → ¬ (∃ x, x < len ∧ outPlace column k x = (r, j)) →
          TileAt u q (dstTile e) r j = TileAt s q (dstTile e) r j) := by
  have hn : dstTile e < 16 := Nat.mod_lt _ (by decide)
  refine ⟨_, rfl, ?_⟩
  by_cases hd : dstKind e.desc = 1
  · have hout : ((List.range len).map o).map (outCode e.desc) = (List.range len).map o := by
      refine (List.map_congr_left fun x _ => if_pos hd).trans (List.map_id _)
    have hol : ((List.range len).map o).length = len := by rw [List.length_map, List.length_range]
    have hog : ∀ x, x < len → ((List.range len).map o).getD x 0 = o x := fun x hx => by
      rw [List.getD_eq_getElem _ _ (by rw [hol]; exact hx), List.getElem_map, List.getElem_range]
    rw [hout]
    obtain ⟨f, hf, hel⟩ : ∃ f, s.storeOut q i e w column k ((List.range len).map o) = s.inTile q (dstTile e) f
        ∧ ∀ r j, j < 128 → (f ((s.pair q).tiles.getD (dstTile e) {}).data).el r j
          = if ∃ x, x < len ∧ outPlace column k x = (r, j) then (if column then o r else o j) % 2 ^ 32 else TileAt s q (dstTile e) r j := by
      have hwf := gougeTile_wf hp h24 hq hn
      cases column with
      | true =>
        refine ⟨_, storeOut_column hd k _, fun r j hj => ?_⟩
        rw [el_putColumn hwf hk _ hj, hol]
        by_cases hr : r < len ∧ j = k
        · rw [if_pos hr, if_pos ⟨r, hr.1, by rw [hr.2]; rfl⟩, hog r hr.1]
          rfl
        · rw [if_neg hr, if_neg]
          · rfl
          · rintro ⟨x, hx, hxe⟩
            cases hxe
            exact hr ⟨hx, rfl⟩
      | false =>
        refine ⟨_, storeOut_row hc hd k _, fun r j hj => ?_⟩
        rw [Region.putRows, List.foldl_cons, List.foldl_nil, Region.el_put_row hwf k (by rw [hol]; exact hlen') hj, hol]
        by_cases hr : r = k ∧ j < len
        · rw [if_pos hr, if_pos ⟨j, hr.2, by rw [hr.1]; rfl⟩, hog j hr.2]
          rfl
        · rw [if_neg hr, if_neg]
          · rfl
          · rintro ⟨x, hx, hxe⟩
            cases hxe
            exact hr ⟨rfl, hx⟩
    rw [hf]
    obtain ⟨g1, -, -, -, -⟩ := inTile_spec hp h24 hq hn f
    have hat (r j : Nat) (hj : j < 128) : TileAt (s.inTile q (dstTile e) f) q (dstTile e) r j
        = if ∃ x, x < len ∧ outPlace column k x = (r, j) then (if column then o r else o j) % 2 ^ 32 else TileAt s q (dstTile e) r j := by
      rw [TileAt, g1]
      exact hel r j hj
    refine ⟨gougeOnly_of_inTile hp h24 hq hd rfl, minding_of_rest (ts := s.tenants) (ps := s.pairs) (inv := s.invocations) (fr := s.free) rfl, rfl,
      fun _ x hx => ?_, fun h => by omega, fun _ r j _ hj hno => ?_⟩
    · cases column with
      | true =>
        exact (hat x k hk).trans (if_pos ⟨x, hx, rfl⟩)
      | false =>
        exact (hat k x (by omega)).trans (if_pos ⟨x, hx, rfl⟩)
    · rw [hat r j hj, if_neg hno]
  · by_cases hd2 : dstKind e.desc = 2
    · obtain ⟨p, hwp, hpl, hmay⟩ := hpc.dst hd2
      have h8 := hpc.fmt hd2
      have hpm : p ∈ w.writes := hwp ▸ List.mem_singleton_self p
      have ht := tiled_of_backed (hb p hpm (by rw [hpl]; exact elemBytes_pos h8 hlen)) hmay
      have hcl : (((List.range len).map o).map (outCode e.desc)).length = len := by rw [List.length_map, List.length_map, List.length_range]
      have hstart : s.LinesAt s i p (dstFmt e.desc) (elemBytes (dstFmt e.desc) len) 0 1 fun _ => [] := linesAt_start h8 ht
      obtain ⟨h1, h2⟩ := hstart.putElems h8 ht hc Nat.one_pos (codes := ((List.range len).map o).map (outCode e.desc))
        (by rw [← List.length_pos_iff_ne_nil, hcl]; exact hlen) (by rw [List.nil_append, hcl]) (by rw [hpl]; omega)
      rw [storeOut_line hd hwp]
      refine ⟨gougeOnly_of_linesAt hpm h1, minding_of_rest (ts := s.tenants) (ps := s.pairs) (inv := s.invocations) (fr := s.free) ?_, h2,
        fun h => absurd h hd, fun _ => ?_, fun h => absurd h hd⟩
      · exact (congrArg (fun x : State => { x with pairs := s.pairs, free := s.free }) h1.rest :)
      · refine linesHold_of_linesAt h8 ht hwp h1 rfl _ fun l hl => ?_
        rw [if_pos (by omega), List.nil_append, List.map_map]
        exact List.map_congr_left fun x _ => if_neg hd
    · have hnone := hpc.none hd2
      rw [storeOut_other hd hnone]
      exact ⟨⟨memKept_of_tenants rfl _ _, rfl, ⟨fun _ _ => rfl, fun _ _ => rfl, fun _ _ => rfl⟩, rfl, rfl⟩, .refl q s, rfl, fun h => absurd h hd,
        fun h => absurd h hd2, fun h => absurd h hd⟩

end

/-! ### The start checks of the reductions -/

section
variable {s : State} {q : Nat} {i : Invocation} {e : QEntry} {w : Work}

/-- The results of a TILE_REDUCE. -/
def redLen (d : BitVec 512) : Nat := if axisOf d = 0 then rLast d + 1 else cLast d + 1
theorem tileReduceWork_spec (hw : s.tileReduceWork q i e = .ok w) : GougePieces e w (tileSrcLen e.desc) (elemBytes (dstFmt e.desc) (redLen e.desc)) := by
  unfold State.tileReduceWork at hw
  extract_lets d c rows cols n masks at hw
  obtain ⟨_, hn, h1⟩ := except_bind_ok hw
  obtain ⟨a, ha, h2⟩ := except_bind_ok h1
  obtain ⟨b, hb, h3⟩ := except_bind_ok h2
  obtain ⟨_, -, h4⟩ := except_bind_ok h3
  obtain ⟨_, -, h5⟩ := except_bind_ok h4
  cases h5
  have hk := need_ok hn
  simp only [Bool.and_eq_true] at hk
  exact gougePieces_of hk.1.1.1.2 ha hb ..
theorem streamReduceWork_spec (hw : s.streamReduceWork q i e = .ok w) : ∃ m, GougePieces e w m (elemBytes (dstFmt e.desc) 1) := by
  unfold State.streamReduceWork at hw
  extract_lets d c n cost masks at hw
  obtain ⟨_, hn, h1⟩ := except_bind_ok hw
  obtain ⟨a, ha, h2⟩ := except_bind_ok h1
  obtain ⟨b, hb, h3⟩ := except_bind_ok h2
  obtain ⟨_, -, h4⟩ := except_bind_ok h3
  have hk := need_ok hn
  simp only [Bool.and_eq_true] at hk
  have hk := hk.1.1.1.1.2
  have hpc := gougePieces_of hk ha hb [] [] cost
  by_cases h0 : n = 0
  · rw [if_pos h0] at h4
    cases h4
    exact ⟨0, fun x hx => absurd hx List.not_mem_nil, hpc.none, hpc.dst, hpc.fmt⟩
  · rw [if_neg h0] at h4
    obtain ⟨_, -, h5⟩ := except_bind_ok h4
    cases h5
    exact ⟨_, gougePieces_of hk ha hb ..⟩

end

/-! ### What a reduction computes -/

/-- An element as it enters a reduction. -/
def gougeEnter (s : State) (q : Nat) (i : Invocation) (e : QEntry) (w : Work) (stream : Bool) (r j : Nat) : Nat :=
  redEnter (redOf e.desc) ((s.pair q).active (rmaskOf e.desc) r j) (gougeValue s q i e w 3 stream r j)
/-- A result of a TILE_REDUCE. -/
def tileReduceOut (s : State) (q : Nat) (i : Invocation) (e : QEntry) (w : Work) (x : Nat) : Nat :=
  if axisOf e.desc = 0 then laneTree (redOf e.desc) 7 (lanes (redOf e.desc) ((List.range (cLast e.desc + 1)).map (gougeEnter s q i e w false x)))
  else redFold (redOf e.desc) ((List.range (rLast e.desc + 1)).map fun r => gougeEnter s q i e w false r x)
/-- A lane of a STREAM_REDUCE, and its result. -/
def streamReduceLane (s : State) (q : Nat) (i : Invocation) (e : QEntry) (w : Work) (j : Nat) : Nat :=
  redFold (redOf e.desc) (((List.range (countOf e.desc)).filter fun x => x % 128 == j).map fun x => gougeEnter s q i e w true (x / 128) (x % 128))
def streamReduceOut (s : State) (q : Nat) (i : Invocation) (e : QEntry) (w : Work) : Nat :=
  laneTree (redOf e.desc) 7 ((List.range 128).map (streamReduceLane s q i e w))

section
variable {s : State} {q : Nat} {i : Invocation} {e : QEntry} {w : Work}

/-- The elements of a row that enter a reduction. -/
theorem enter_row (stream : Bool) (r n : Nat) (hn : n = if stream then streamCols e.desc r else cLast e.desc + 1) :
    (((s.pair q).chainRow s.free (chainOf e.desc 3) (s.sourceRow q i e w stream r n) r n).zipIdx.map fun x =>
      redEnter (redOf e.desc) ((s.pair q).active (rmaskOf e.desc) r x.2) x.1) = (List.range n).map (gougeEnter s q i e w stream r) := by
  have hl : ((s.pair q).chainRow s.free (chainOf e.desc 3) (s.sourceRow q i e w stream r n) r n).length = n := by
    rw [Pair.chainRow, List.length_map, List.length_range]
  rw [zipIdx_eq_map, List.map_map, hl]
  refine List.map_congr_left fun j hj => ?_
  have hj := List.mem_range.mp hj
  dsimp only [Function.comp]
  rw [List.getD_eq_getElem _ _ (by rw [hl]; exact hj)]
  unfold gougeEnter gougeValue
  rw [← hn]
  refine congrArg (redEnter _ _) ?_
  simp only [Pair.chainRow, List.getElem_map, List.getElem_range]
variable (hs : Sound s)
include hs
theorem tileReduceRun_sound : State.tileReduceRun q [] s i e w
    = (s.drawn.storeOut q i e w (outCol e.desc) (fld e.desc 60 10 4) (((List.range (redLen e.desc)).map (tileReduceOut s q i e w)).map (outCode e.desc)), .done) := by
  unfold State.tileReduceRun State.gougeFetch
  dsimp only
  rw [sound_fetch hs]
  dsimp only
  have hrow (r : Nat) := enter_row (s := s) (q := q) (i := i) (e := e) (w := w) false r (cLast e.desc + 1) rfl
  simp only [hrow]
  rw [State.drawn]
  congr 3
  unfold redLen
  by_cases ha : axisOf e.desc = 0
  · rw [if_pos ha, if_pos ha, List.map_map]
    refine List.map_congr_left fun x _ => ?_
    rw [tileReduceOut, if_pos ha, Function.comp]
  · rw [if_neg ha, if_neg ha]
    refine List.map_congr_left fun j hj => ?_
    rw [tileReduceOut, if_neg ha, List.map_map]
    refine congrArg (redFold (redOf e.desc)) (List.map_congr_left fun r _ => ?_)
    have hj := List.mem_range.mp hj
    dsimp only [Function.comp]
    rw [List.getD_eq_getElem _ _ (by rw [List.length_map, List.length_range]; exact hj), List.getElem_map, List.getElem_range]
omit hs in
/-- The elements of one lane of a stream, group after group. -/
theorem lane_elements (f : Nat → Nat → Nat) (n : Nat) {j : Nat} (hj : j < 128) :
    ((List.range (ceilDiv n 128)).map fun r => (List.range (min 128 (n - 128 * r))).map (f r)).filterMap (fun r => r[j]?)
      = ((List.range n).filter fun x => x % 128 == j).map fun x => f (x / 128) (x % 128) := by
  have hone (c : Nat) : (List.range c).filter (fun x => x == j) = if j < c then [j] else [] := by
    rw [List.filter_beq, List.nodup_range.count]
    by_cases h : j < c
    · rw [if_pos h, if_pos (List.mem_range.mpr h)]
      rfl
    · rw [if_neg h, if_neg fun hm => h (List.mem_range.mp hm)]
      rfl
  have key (m : Nat) : ((List.range m).map fun r => (List.range (min 128 (n - 128 * r))).map (f r)).filterMap (fun r => r[j]?)
      = ((List.range (min (128 * m) n)).filter fun x => x % 128 == j).map fun x => f (x / 128) (x % 128) := by
    induction m with
    | zero =>
      rw [Nat.mul_zero, Nat.zero_min]
      rfl
    | succ m ih =>
      rw [List.range_succ, List.map_append, List.filterMap_append, ih, List.map_cons, List.map_nil]
      by_cases hm : n ≤ 128 * m
      · rw [show min (128 * (m + 1)) n = min (128 * m) n by omega, show min 128 (n - 128 * m) = 0 by omega]
        exact List.append_nil _
      · rw [show min (128 * (m + 1)) n = 128 * m + min 128 (n - 128 * m) by omega, show min (128 * m) n = 128 * m by omega, List.range_add,
          List.filter_append, List.map_append, List.filter_map, List.map_map]
        have hpred : ((List.range (min 128 (n - 128 * m))).filter ((fun x => x % 128 == j) ∘ fun x => 128 * m + x))
            = (List.range (min 128 (n - 128 * m))).filter fun x => x == j := List.filter_congr fun x hx => by
          have := List.mem_range.mp hx
          dsimp only [Function.comp]
          rw [show (128 * m + x) % 128 = x by omega]
        rw [hpred, hone]
        refine congrArg₂ (· ++ ·) rfl ?_
        by_cases hc : j < min 128 (n - 128 * m)
        · rw [if_pos hc]
          have hget : ((List.range (min 128 (n - 128 * m))).map (f m))[j]? = some (f m j) := by
            rw [List.getElem?_map, List.getElem?_range hc]
            rfl
          rw [List.filterMap_cons, hget, List.map_cons, List.map_nil]
          dsimp only [Function.comp, List.filterMap_nil]
          rw [show (128 * m + j) / 128 = m by omega, show (128 * m + j) % 128 = j by omega]
        · rw [if_neg hc]
          have hget : ((List.range (min 128 (n - 128 * m))).map (f m))[j]? = none := List.getElem?_eq_none (by rw [List.length_map, List.length_range]; omega)
          rw [List.filterMap_cons, hget]
          rfl
  rw [key, show min (128 * ceilDiv n 128) n = n by
    show min (128 * ((n + 127) / 128)) n = n
    omega]

end

end Sys2Proof.Machine
end

section
/-!
PROOFS. Chapter 12: TILE_REDUCE, STREAM_REDUCE, MASK_SET and RELEASE as their commands run.
-/

namespace Sys2Proof.Machine

open Sys2Proof.Safety

section
variable {s : State} (hs : Sound s) (hp : PairsOk s) {q k : Nat} (h24 : 24 ≤ q) (hq : q < 40) {i : Invocation} {e : QEntry} {w : Work}
include hs
theorem streamReduceRun_sound : State.streamReduceRun q [] s i e w = (if dstKind e.desc = 1
    then s.drawn.inTile q (dstTile e) fun r => r.put (4 * fld e.desc 60 17 4) (bytesOfLe 4 (streamReduceOut s q i e w))
    else s.drawn.storeOut q i e w false 0 [outCode e.desc (streamReduceOut s q i e w)], .done) := by
  have hfetch : (if countOf e.desc = 0 then (s, none) else s.gougeFetch q i e w (chainOf e.desc 3) (streamRows e.desc) (streamCols e.desc) w.reads [])
      = (s, (none : Option Nat)) := by
    by_cases h0 : countOf e.desc = 0
    · exact if_pos h0
    · rw [if_neg h0]
      exact sound_fetch hs ..
  unfold State.streamReduceRun
  dsimp only
  rw [hfetch]
  dsimp only
  have hrow (r : Nat) := enter_row (s := s) (q := q) (i := i) (e := e) (w := w) true r (streamCols e.desc r) rfl
  simp only [hrow]
  have hout : (List.range 128).map (fun j => redFold (redOf e.desc) (((List.range (streamRows e.desc)).map fun r =>
      (List.range (streamCols e.desc r)).map (gougeEnter s q i e w true r)).filterMap fun r => r[j]?)) = (List.range 128).map (streamReduceLane s q i e w) := by
    refine List.map_congr_left fun j hj => ?_
    exact congrArg (redFold (redOf e.desc)) (lane_elements (gougeEnter s q i e w true) (countOf e.desc) (List.mem_range.mp hj))
  rw [hout]
  by_cases hd : dstKind e.desc = 1
  · rw [if_pos hd, if_pos hd]
    rfl
  · rw [if_neg hd, if_neg hd]
    rfl
include hp h24 hq

/-- TILE_REDUCE. -/
theorem tileReduce_performs (hrun : Running s q 2 2 k e i) (hw : s.tileReduceWork q i e = .ok w) (hb : ∀ p ∈ w.writes, 0 < p.len → Backed s i p) :
    Performs (.tileReduce ⟨q, []⟩) s q k fun t => GougeOnly s t q i e w ∧ t.invocations = s.invocations
      ∧ (dstKind e.desc = 1 → ∀ x, x < redLen e.desc → TileAt t q (dstTile e) (outPlace (outCol e.desc) (fld e.desc 60 10 4) x).1
          (outPlace (outCol e.desc) (fld e.desc 60 10 4) x).2 = tileReduceOut s q i e w x % 2 ^ 32)
      ∧ (dstKind e.desc = 2 → LinesHold s t i e w 1 (redLen e.desc) 0 fun _ x => tileReduceOut s q i e w x)
      ∧ (dstKind e.desc = 1 → ∀ r j, r < 128 → j < 128 → ¬ (∃ x, x < redLen e.desc ∧ outPlace (outCol e.desc) (fld e.desc 60 10 4) x = (r, j)) →
          TileAt t q (dstTile e) r j = TileAt s q (dstTile e) r j) := by
  have hpc := tileReduceWork_spec hw
  have hr : rLast e.desc < 128 := Nat.mod_lt _ (by decide)
  have hc : cLast e.desc < 128 := Nat.mod_lt _ (by decide)
  have hk : fld e.desc 60 10 4 < 128 := Nat.mod_lt _ (by decide)
  have hlen : 0 < redLen e.desc ∧ redLen e.desc ≤ 128 := by
    unfold redLen
    split <;> omega
  obtain ⟨u, hu, honly, hmind, hinv, h1, h2, h3⟩ := storeOut_spec (s := s.drawn) (clean_of_sound hs) hp h24 hq
    (fun p hp hl => backed_drawn (hb p hp hl)) hpc hlen.1 hlen.2 (outCol e.desc) hk (tileReduceOut s q i e w)
  have hx : exec (.tileReduce ⟨q, []⟩) s = .next (s.runOp q 2 2 (State.tileReduceWork q) (State.tileReduceRun q [])) := rfl
  refine performs_of hrun hw hx (u := u) ((tileReduceRun_sound hs).trans (by rw [hu])) (minding_of_drawn hmind) ?_
  refine ⟨gougeOnly_same (t := u) rfl rfl rfl (gougeOnly_of_drawn honly), hinv, fun hd x hx => ?_, fun hd => ?_, fun hd r j hr hj hno => ?_⟩
  · exact h1 hd x hx
  · exact linesHold_same (t := u) (t' := u.modEntry q k fun y => { y with outcome := .done }) rfl hpc.mayTile (linesHold_of_drawn hpc.mayTile (h2 hd))
  · exact h3 hd r j hr hj hno
/-- STREAM_REDUCE. -/
theorem streamReduce_performs (hrun : Running s q 2 5 k e i) (hw : s.streamReduceWork q i e = .ok w) (hb : ∀ p ∈ w.writes, 0 < p.len → Backed s i p) :
    Performs (.streamReduce ⟨q, []⟩) s q k fun t => GougeOnly s t q i e w ∧ t.invocations = s.invocations
      ∧ (dstKind e.desc = 1 → TileAt t q (dstTile e) (fld e.desc 60 17 4 / 128) (fld e.desc 60 17 4 % 128) = streamReduceOut s q i e w % 2 ^ 32)
      ∧ (dstKind e.desc = 2 → LinesHold s t i e w 1 1 0 fun _ _ => streamReduceOut s q i e w)
      ∧ (dstKind e.desc = 1 → ∀ r j, r < 128 → j < 128 → ¬ 128 * r + j = fld e.desc 60 17 4 → TileAt t q (dstTile e) r j = TileAt s q (dstTile e) r j) := by
  obtain ⟨m, hpc⟩ := streamReduceWork_spec hw
  have hx : exec (.streamReduce ⟨q, []⟩) s = .next (s.runOp q 2 5 (State.streamReduceWork q) (State.streamReduceRun q [])) := rfl
  by_cases hd : dstKind e.desc = 1
  · have hn : dstTile e < 16 := Nat.mod_lt _ (by decide)
    obtain ⟨u, hu⟩ : ∃ u, u = s.drawn.inTile q (dstTile e) fun r => r.put (4 * fld e.desc 60 17 4) (bytesOfLe 4 (streamReduceOut s q i e w)) := ⟨_, rfl⟩
    obtain ⟨g1, -, -, -, -⟩ := inTile_spec (s := s.drawn) hp h24 hq hn fun r => r.put (4 * fld e.desc 60 17 4) (bytesOfLe 4 (streamReduceOut s q i e w))
    have hat (r j : Nat) : TileAt u q (dstTile e) r j
        = if 128 * r + j = fld e.desc 60 17 4 then streamReduceOut s q i e w % 2 ^ 32 else TileAt s q (dstTile e) r j := by
      rw [hu, TileAt, g1]
      exact Region.el_put_one (gougeTile_wf hp h24 hq hn) ..
    have honly : GougeOnly s.drawn u q i e w := gougeOnly_of_inTile (s := s.drawn) hp h24 hq hd (f := fun r =>
      r.put (4 * fld e.desc 60 17 4) (bytesOfLe 4 (streamReduceOut s q i e w))) (by rw [hu]; rfl)
    have hmind : State.Minding q s.drawn u := minding_of_rest (ts := s.tenants) (ps := s.pairs) (inv := s.invocations) (fr := s.free + 1) (by rw [hu]; rfl)
    refine performs_of hrun hw hx (u := u) ((streamReduceRun_sound hs).trans (by rw [if_pos hd, hu])) (minding_of_drawn hmind) ?_
    refine ⟨gougeOnly_same (t := u) rfl rfl rfl (gougeOnly_of_drawn honly), by rw [hu]; rfl, fun _ => ?_, fun h => by omega, fun _ r j _ _ hno => ?_⟩
    · exact (hat _ _).trans (if_pos (Nat.div_add_mod _ _))
    · exact (hat r j).trans (if_neg hno)
  · obtain ⟨u, hu, honly, hmind, hinv, -, h2, -⟩ := storeOut_spec (s := s.drawn) (clean_of_sound hs) hp h24 hq
      (fun p hp hl => backed_drawn (hb p hp hl)) hpc Nat.one_pos (by decide) false (k := 0) (by decide) fun _ => streamReduceOut s q i e w
    refine performs_of hrun hw hx (u := u) ((streamReduceRun_sound hs).trans (by rw [if_neg hd, hu]; rfl)) (minding_of_drawn hmind) ?_
    refine ⟨gougeOnly_same (t := u) rfl rfl rfl (gougeOnly_of_drawn honly), hinv, fun h => absurd h hd, fun hd2 => ?_, fun h => absurd h hd⟩
    exact linesHold_same (t := u) (t' := u.modEntry q k fun y => { y with outcome := .done }) rfl hpc.mayTile (linesHold_of_drawn hpc.mayTile (h2 hd2))

end

end Sys2Proof.Machine
end

section
/-!
PROOFS. Chapter 12: MASK_SET and RELEASE (R390).
-/

namespace Sys2Proof.Machine

open Sys2Proof.Safety

/-- The state with another value in a mask register. -/
def State.withMask (s : State) (q m v : Nat) : State :=
  s.modPair q fun p => { p with masks := p.masks.modify m fun x => { x with mask := BitVec.ofNat 128 v } }
/-- The state with the named tiles and masks that an invocation holds freed. -/
def State.freeHeld (s : State) (q : Nat) (e : QEntry) : State := s.modPair q fun p => { p with
  tiles := p.tiles.zipIdx.map fun x => if bit (fld e.desc 16 15 0) x.2 && x.1.holder = some e.holder then { x.1 with holder := none } else x.1
  masks := p.masks.zipIdx.map fun x => if bit (fld e.desc 18 7 0) x.2 && x.1.holder = some e.holder then { x.1 with holder := none } else x.1 }

section
variable {s : State} (hs : Sound s) (hp : PairsOk s) {q k : Nat} (h24 : 24 ≤ q) (hq : q < 40) {i : Invocation} {e : QEntry} {w : Work}

/-- The value that MASK_SET writes. -/
def maskValue (s : State) (i : Invocation) (e : QEntry) (w : Work) : Nat :=
  match fld e.desc 17 1 0 with
  | 0 => fld e.desc 32 127 0
  | 1 => 2 ^ fld e.desc 18 7 0 - 1
  | _ => leOfBytes (w.reads.flatMap (s.spanGet i))
theorem maskValue_cases : (fld e.desc 17 1 0 = 0 → maskValue s i e w = fld e.desc 32 127 0)
    ∧ (fld e.desc 17 1 0 = 1 → maskValue s i e w = 2 ^ fld e.desc 18 7 0 - 1)
    ∧ (fld e.desc 17 1 0 = 2 → maskValue s i e w = leOfBytes (w.reads.flatMap (s.spanGet i))) := by
  refine ⟨fun h => ?_, fun h => ?_, fun h => ?_⟩
  · simp only [maskValue, h]
  · simp only [maskValue, h]
  · simp only [maskValue, h]
theorem modPair_minding (s : State) (q : Nat) (f : Pair → Pair) : State.Minding q s (s.modPair q f) :=
  minding_of_rest (ts := s.tenants) (ps := s.pairs) (inv := s.invocations) (fr := s.free) rfl
include hs hp h24 hq
/-- MASK_SET. -/
theorem maskSet_performs (hrun : Running s q 2 6 k e i) (hw : s.maskSetWork i e = .ok w) : Performs (.maskSet ⟨q, []⟩) s q k fun t =>
    ((t.pair q).masks.getD (fld e.desc 16 2 0) {}).holder = ((s.pair q).masks.getD (fld e.desc 16 2 0) {}).holder
    ∧ (fld e.desc 17 1 0 = 0 → ((t.pair q).masks.getD (fld e.desc 16 2 0) {}).mask = BitVec.ofNat 128 (fld e.desc 32 127 0))
    ∧ (fld e.desc 17 1 0 = 1 → ∀ j, j < 128 → ((t.pair q).masks.getD (fld e.desc 16 2 0) {}).mask.getLsbD j = decide (j < fld e.desc 18 7 0))
    ∧ (fld e.desc 17 1 0 = 2 → ∀ p, w.reads = [p] → ((t.pair q).masks.getD (fld e.desc 16 2 0) {}).mask = BitVec.ofNat 128 (leOfBytes (s.spanGet i p)))
    ∧ (∀ j, j ≠ fld e.desc 16 2 0 → (t.pair q).masks[j]? = (s.pair q).masks[j]?) ∧ PairKept s t q [] [] ∧ MemKept s t i.tenant []
    ∧ t.invocations = s.invocations := by
  obtain ⟨h0, h1, h2⟩ := maskValue_cases (s := s) (i := i) (e := e) (w := w)
  obtain ⟨v, hv⟩ : ∃ v, v = maskValue s i e w := ⟨_, rfl⟩
  rw [← hv] at h0 h1 h2
  have hx : exec (.maskSet ⟨q, []⟩) s = .next (s.runOp q 2 6 State.maskSetWork fun s i e w => _) := rfl
  have hm : fld e.desc 16 2 0 < 8 := Nat.mod_lt _ (by decide)
  obtain ⟨-, hl, -⟩ := gougePair_spec hp h24 hq
  refine performs_of hrun hw hx (u := s.withMask q (fld e.desc 16 2 0) v) ?_ (modPair_minding ..) ?_
  · dsimp only
    rw [sound_fetch hs]
    dsimp only
    rw [sound_clearWords hs, hv]
    rfl
  have hpair : (s.withMask q (fld e.desc 16 2 0) v).pair q = { s.pair q with masks := (s.pair q).masks.modify (fld e.desc 16 2 0) fun x =>
      { x with mask := BitVec.ofNat 128 v } } := s.pair_modPair (gougePair_lt hp h24 hq) _
  have hpair' : ((s.withMask q (fld e.desc 16 2 0) v).modEntry q k fun y => { y with outcome := .done }).pair q = _ := hpair
  have hmask := getD_modify_self (s.pair q).masks (fld e.desc 16 2 0) (fun x : MaskReg => { x with mask := BitVec.ofNat 128 v }) {} (by omega)
  rw [PairKept, hpair']
  dsimp only
  rw [hmask]
  refine ⟨rfl, fun h => by rw [h0 h], fun h j hj => ?_, fun h p hp => ?_, fun j hj => ?_, ⟨fun p hpq => s.pairs_modPair_ne q _ hpq, fun _ _ => rfl, fun _ _ => rfl⟩,
    memKept_of_tenants rfl _ _, rfl⟩
  · dsimp only
    rw [h1 h, BitVec.getLsbD_ofNat, Nat.testBit_two_pow_sub_one, decide_eq_true hj, Bool.true_and]
  · rw [h2 h, hp, List.flatMap_cons, List.flatMap_nil, List.append_nil]
  · exact List.getElem?_modify_ne _ _ hj.symm
omit hs in
/-- RELEASE. -/
theorem gougeRelease_performs (hrun : Running s q 2 7 k e i) (hw : s.gougeReleaseWork i e = .ok w) : Performs (.gougeRelease q) s q k fun t =>
    (∀ j g, (s.pair q).tiles[j]? = some g → (t.pair q).tiles[j]?
      = some (if bit (fld e.desc 16 15 0) j && g.holder = some e.holder then { g with holder := none } else g))
    ∧ (∀ j g, (s.pair q).masks[j]? = some g → (t.pair q).masks[j]?
      = some (if bit (fld e.desc 18 7 0) j && g.holder = some e.holder then { g with holder := none } else g))
    ∧ (t.pair q).acc = (s.pair q).acc ∧ MemKept s t i.tenant [] ∧ t.invocations = s.invocations := by
  have hx : exec (.gougeRelease q) s = .next (s.runOp q 2 7 State.gougeReleaseWork fun s _ e _ => (s.freeHeld q e, .done)) := rfl
  refine performs_of hrun hw hx (u := s.freeHeld q e) rfl (modPair_minding ..) ?_
  have hpair : (s.freeHeld q e).pair q = _ := s.pair_modPair (gougePair_lt hp h24 hq) _
  have hpair' : ((s.freeHeld q e).modEntry q k fun y => { y with outcome := .done }).pair q = _ := hpair
  rw [hpair']
  refine ⟨fun j g hg => ?_, fun j g hg => ?_, rfl, memKept_of_tenants rfl _ _, rfl⟩
  · rw [List.getElem?_map, List.getElem?_zipIdx, hg, Nat.zero_add]
    rfl
  · rw [List.getElem?_map, List.getElem?_zipIdx, hg, Nat.zero_add]
    rfl

end

end Sys2Proof.Machine
end

section
/-!
PROOFS. Chapter 12: LIST_MERGE and LIST_EMIT (R391 to R393), and the Gouge slices (O46).
-/

namespace Sys2Proof.Machine

open Sys2Proof.Safety

/-! ### One write of an operation -/

/-- A state after one write of an invocation to a backed piece. -/
structure State.Wrote (s u : State) (i : Invocation) (p : Span) (bs : List Byte) : Prop where
  minding : ∀ q, State.Minding q s u
  pairs : u.pairs = s.pairs
  kept : MemKept s u i.tenant [p]
  stored : Stored s u i p bs
  backed : Backed u i p
  shaped : s.Shaped u
  flags : ∀ x ∈ s.invocations, ∃ y ∈ u.invocations, y.ref = x.ref ∧ y.flags = x.flags

theorem settle_hostOut (s : State) (n : Nat) {p : Span} (hp : p.space = .hostOut) : s.settle n p = p := by
  unfold State.settle
  rw [hp]
theorem backed_hostOut (s : State) {i : Invocation} {p : Span} (hb : i.silent = false) (hp : p.space = .hostOut) : Backed s i p := by
  unfold Backed
  rw [settle_hostOut s i.tenant hp, hp]
  exact hb

section
variable {s : State} {i : Invocation} {p : Span} {bs : List Byte} (hne : bs ≠ [])
include hne

theorem wrote_host (hb : i.silent = false) (hh : (s.settle i.tenant p).space = .hostOut) : s.Wrote (s.spanWrite i p bs).1 i p bs := by
  have hp : p.space = .hostOut := by
    obtain ⟨sp, off, len⟩ := p
    cases sp with
    | buf k pl =>
      cases pl with
      | tile =>
        unfold State.settle at hh
        dsimp only at hh
        split at hh <;> cases hh
      | _ => cases hh
    | hostOut => rfl
    | _ => cases hh
  have hset : s.settle i.tenant { p with len := bs.length } = { p with len := bs.length } := by
    exact settle_hostOut s i.tenant (p := { p with len := bs.length }) hp
  obtain ⟨v, hv⟩ : ∃ v, v = s.bufferPut i.ref.fn i.prp1 i.prp2 i.dataBytes (i.outOffset + p.off) bs := ⟨_, rfl⟩
  have hwrite : (s.spanWrite i p bs).1 = v.modInv i.ref fun x => { x with
      hostOutHigh := if bs.isEmpty then x.hostOutHigh else max x.hostOutHigh (p.off + bs.length) } := by
    unfold State.spanWrite
    dsimp only
    rw [if_neg (by simpa using hne), hset]
    dsimp only
    rw [hp]
    unfold State.spanStore
    dsimp only
    rw [hb, hv]
    rfl
  have hvr : { v with host := s.host, pcie := s.pcie } = s := by
    rw [hv]
    unfold State.bufferPut
    exact (congrArg (fun x : State => { x with pcie := s.pcie }) (State.putPieces_spec (s.relax i.ref.fn) _ bs) :)
  have hvp : { v.pcie with dataRelaxed := s.pcie.dataRelaxed } = s.pcie := by
    rw [hv]
    unfold State.bufferPut
    exact (congrArg (fun x : State => { x.pcie with dataRelaxed := s.pcie.dataRelaxed }) (State.putPieces_spec (s.relax i.ref.fn) _ bs) :)
  rw [hwrite]
  refine ⟨fun q => ⟨hvp, ?_, ?_, ?_, ?_, ?_, ?_, ?_, ?_, fun p _ => ?_, ?_⟩, ?_, ?_, ?_, backed_hostOut _ hb hp, ?_, fun x hx => ?_⟩
  · exact (congrArg State.pers hvr :)
  · exact (congrArg State.power hvr :)
  · exact (congrArg State.ctrs hvr :)
  · exact (congrArg State.logs hvr :)
  · exact (congrArg State.peer hvr :)
  · exact (congrArg State.media hvr :)
  · exact (congrArg State.svc hvr :)
  · exact (congrArg State.marks hvr :)
  · exact (congrArg (fun x : State => x.queue p) hvr :)
  · exact (congrArg (fun x : State => (x.queue q).entries) hvr :)
  · exact (congrArg State.pairs hvr :)
  · exact memKept_of_tenants (congrArg State.tenants hvr :) _ _
  · unfold Stored
    rw [hh]
    exact (congrArg State.host hv :)
  · exact .of_tenants (congrArg State.tenants hvr :)
  · have hinv : v.invocations = s.invocations := (congrArg State.invocations hvr :)
    refine ⟨_, List.mem_map.mpr ⟨x, hinv ▸ hx, rfl⟩, ?_, ?_⟩
    · exact ite_keep Invocation.ref rfl rfl
    · exact ite_keep Invocation.flags rfl rfl
theorem wrote_tenant (hc : s.prot.Clean) (hb : Backed s i p) (hh : (s.settle i.tenant p).space ≠ .hostOut) (hl : bs.length ≤ p.len) :
    s.Wrote (s.spanWrite i p bs).1 i p bs := by
  obtain ⟨u, hu, hst⟩ := clean_spanWrite hc hb hne hh
  rw [hu]
  have hr := hst.rest
  refine ⟨fun q => ⟨?_, ?_, ?_, ?_, ?_, ?_, ?_, ?_, ?_, fun p _ => ?_, ?_⟩, ?_, memKept_of_stores hst hl List.mem_cons_self, stored_of_stores hst hb hh,
    backed_of_stores hst hb, hst.shaped, fun x hx => ⟨x, ?_, rfl, rfl⟩⟩
  · exact congrArg (fun p : Pcie => { p with dataRelaxed := s.pcie.dataRelaxed }) (congrArg State.pcie hr :)
  · exact (congrArg State.pers hr :)
  · exact (congrArg State.power hr :)
  · exact (congrArg State.ctrs hr :)
  · exact (congrArg State.logs hr :)
  · exact (congrArg State.peer hr :)
  · exact (congrArg State.media hr :)
  · exact (congrArg State.svc hr :)
  · exact (congrArg State.marks hr :)
  · exact (congrArg (fun x : State => x.queue p) hr :)
  · exact (congrArg (fun x : State => (x.queue q).entries) hr :)
  · exact (congrArg State.pairs hr :)
  · exact (congrArg State.invocations hr :) ▸ hx
theorem wrote_spanWrite (hc : s.prot.Clean) (hb : Backed s i p) (hl : bs.length ≤ p.len) : s.Wrote (s.spanWrite i p bs).1 i p bs := by
  by_cases hh : (s.settle i.tenant p).space = .hostOut
  · refine wrote_host hne ?_ hh
    unfold Backed at hb
    rw [hh] at hb
    exact hb
  · exact wrote_tenant hne hc hb hh hl

end

/-! ### The entries of the lists -/

theorem length_insertRanked (fp small : Bool) (e : ListEntry) (l : List ListEntry) : (insertRanked fp small e l).length = l.length + 1 := by
  induction l with
  | nil => rfl
  | cons x l ih =>
    unfold insertRanked
    split
    · rfl
    · rw [List.length_cons, ih, List.length_cons]
theorem length_rankSort (fp small : Bool) (l : List ListEntry) : (rankSort fp small l).length = l.length := by
  have key (acc : List ListEntry) : (l.foldl (fun acc e => insertRanked fp small e acc) acc).length = acc.length + l.length := by
    induction l generalizing acc with
    | nil => rfl
    | cons x l ih =>
      rw [List.foldl_cons, ih, length_insertRanked, List.length_cons]
      omega
  exact (key []).trans (Nat.zero_add _)
theorem length_shuffle (s : State) (l : List ListEntry) : (s.shuffle l).1.length = l.length := by
  unfold State.shuffle
  dsimp only
  rw [List.length_map, List.length_mergeSort, List.length_map, List.length_zipIdx]
theorem length_entriesOf (s : State) (i : Invocation) (l : InList) : (s.entriesOf i l.whole).length = l.count := by
  unfold State.entriesOf
  dsimp only
  rw [List.length_map, List.length_range]
  show (16 + 16 * l.count - 16) / 16 = _
  omega
theorem length_inputs (s : State) (i : Invocation) (l : List InList) :
    ((l.map InList.whole).map (s.entriesOf i)).flatten.length = (l.map (·.count)).foldl (· + ·) 0 := by
  rw [List.length_flatten, List.map_map, List.map_map, List.sum_eq_foldl]
  refine congrArg (List.foldl (· + ·) 0) (List.map_congr_left fun x _ => ?_)
  exact length_entriesOf s i x

/-! ### The list operations -/

/-- What the start checks of a list operation say of its lists. -/
theorem listWork_spec {s : State} {i : Invocation} {e : QEntry} {w : Work} {emit : Bool} (hw : s.listWork emit i e = .ok w) (h0 : listN e.desc ≠ 0) :
    ∃ l : List InList, ∃ p, w.reads = l.map InList.whole ∧ w.writes = [p]
      ∧ p.len = if emit then 16 + 16 * listK e.desc else 16 + 16 * outCount e.desc l := by
  unfold State.listWork at hw
  extract_lets d at hw
  obtain ⟨_, -, h1⟩ := except_bind_ok hw
  obtain ⟨_, -, h2⟩ := except_bind_ok h1
  obtain ⟨l, -, h3⟩ := except_bind_ok h2
  obtain ⟨src, -, h4⟩ := except_bind_ok h3
  obtain ⟨dst, hdst, h5⟩ := except_bind_ok h4
  obtain ⟨_, -, h6⟩ := except_bind_ok h5
  rw [if_neg (show ¬ listN d = 0 from h0)] at h6
  obtain ⟨_, -, h7⟩ := except_bind_ok h6
  obtain ⟨_, -, h8⟩ := except_bind_ok h7
  obtain ⟨_, -, h9⟩ := except_bind_ok h8
  cases h9
  refine ⟨l, dst, rfl, rfl, ?_⟩
  unfold State.piece at hdst
  cases hsp : s.space i (fld d 24 63 0) with
  | none => rw [hsp] at hdst; cases hdst
  | some sp => rw [hsp] at hdst; cases hdst; rfl
theorem listWork_none {s : State} {i : Invocation} {e : QEntry} {w : Work} {emit : Bool} (hw : s.listWork emit i e = .ok w) (h0 : listN e.desc = 0) :
    w.writes = [] := by
  unfold State.listWork at hw
  extract_lets d at hw
  obtain ⟨_, -, h1⟩ := except_bind_ok hw
  obtain ⟨_, -, h2⟩ := except_bind_ok h1
  obtain ⟨l, -, h3⟩ := except_bind_ok h2
  obtain ⟨src, -, h4⟩ := except_bind_ok h3
  obtain ⟨dst, hdst, h5⟩ := except_bind_ok h4
  obtain ⟨_, -, h6⟩ := except_bind_ok h5
  rw [if_pos (show listN d = 0 from h0)] at h6
  cases h6
  rfl

/-- The kind of the lists of a command. -/
def listKind (s : State) (i : Invocation) (w : Work) : Nat := ((w.reads.head?).map fun p => readLe (listReader (s.spanGet i p)) 4 1).getD 0
/-- The entries of the output in order, and the state after they are drawn where the inputs are not sorted. -/
def listDraw (s : State) (i : Invocation) (e : QEntry) (w : Work) : List ListEntry × State :=
  if (w.reads.map (s.entriesOf i)).all fun x => rankSort (listKind s i w == 0) (listSmall e.desc) x == x
  then (rankSort (listKind s i w == 0) (listSmall e.desc) (w.reads.map (s.entriesOf i)).flatten, s)
  else s.shuffle (w.reads.map (s.entriesOf i)).flatten
/-- The entries of the output. -/
def listOut (s : State) (i : Invocation) (e : QEntry) (w : Work) : List ListEntry := (listDraw s i e w).1.take (listK e.desc)
/-- The bytes of an output list; LIST_EMIT fills the rest with zeros. -/
def listImage (emit : Bool) (d : BitVec 512) (kind : Nat) (out : List ListEntry) : List Byte :=
  listBytes kind out ++ (if emit then List.replicate (16 * (listK d - out.length)) 0 else [])
/-- The flags that LIST_EMIT sets. -/
def outFlags (i : Invocation) (out : List ListEntry) : BitVec 8 := (if out.length < i.k then 2 else 0) ||| (if out.isEmpty then 4 else 0)
/-- A list operation after its write. -/
def listEnd (emit : Bool) (i : Invocation) (p : Span) (out : List ListEntry) (u : State) : State :=
  if emit && p.space == .hostOut && i.kind == .search then u.modInv i.ref fun x => { x with flags := x.flags ||| outFlags i out } else u

section
variable {s : State} {i : Invocation} {e : QEntry} {w : Work}

theorem listDraw_state : ∃ f, (listDraw s i e w).2 = { s with free := f } := by
  unfold listDraw
  split
  · exact ⟨s.free, rfl⟩
  · exact ⟨_, rfl⟩
theorem listDraw_length : (listDraw s i e w).1.length = (w.reads.map (s.entriesOf i)).flatten.length := by
  unfold listDraw
  split
  · exact length_rankSort ..
  · exact length_shuffle ..
theorem listDraw_sorted (h : ∀ x ∈ w.reads.map (s.entriesOf i), rankSort (listKind s i w == 0) (listSmall e.desc) x = x) :
    listDraw s i e w = (rankSort (listKind s i w == 0) (listSmall e.desc) (w.reads.map (s.entriesOf i)).flatten, s) :=
  if_pos (List.all_eq_true.mpr fun x hx => beq_iff_eq.mpr (h x hx))
/-- The output fits its piece. -/
theorem listImage_le {emit : Bool} {l : List InList} {p : Span} (hr : w.reads = l.map InList.whole)
    (hp : p.len = if emit then 16 + 16 * listK e.desc else 16 + 16 * outCount e.desc l) (kind : Nat) :
    (listImage emit e.desc kind (listOut s i e w)).length ≤ p.len := by
  have hlen : (listOut s i e w).length = min (listK e.desc) ((l.map (·.count)).foldl (· + ·) 0) := by
    rw [listOut, List.length_take, listDraw_length, hr, length_inputs]
  rw [hp, listImage, List.length_append, length_listBytes]
  cases emit with
  | true =>
    rw [if_pos rfl, if_pos rfl, List.length_replicate]
    omega
  | false =>
    rw [if_neg Bool.false_ne_true, if_neg Bool.false_ne_true, hlen]
    exact Nat.le_refl _
theorem listRun_sound (hs : Sound s) {emit : Bool} (h0 : listN e.desc ≠ 0) {p : Span} (hw : w.writes = [p]) :
    State.listRun emit [] s i e w = (listEnd emit i p (listOut s i e w)
      ((listDraw s i e w).2.spanWrite i p (listImage emit e.desc (listKind s i w) (listOut s i e w))).1, .done) := by
  unfold State.listRun
  dsimp only
  rw [if_neg h0, sound_fetch hs]
  dsimp only
  rw [hw]
  unfold listEnd
  exact (apply_ite (fun x : State => (x, CmdOutcome.done)) _ _ _).symm

end

end Sys2Proof.Machine
end

section
/-!
PROOFS. Chapter 12: the Gouge slices (O46).
-/

namespace Sys2Proof.Machine

open Sys2Proof.Safety

section
variable {s : State} (hs : Sound s) {q k : Nat} {i : Invocation} {e : QEntry} {w : Work}

/-- What a list operation leaves. -/
def ListsDone (s t : State) (i : Invocation) (e : QEntry) (w : Work) (emit : Bool) : Prop :=
  t.pairs = s.pairs ∧ MemKept s t i.tenant w.writes ∧ (listN e.desc = 0 → t.host = s.host ∧ t.invocations = s.invocations)
  ∧ ∀ p, w.writes = [p] → (∀ x ∈ w.reads.map (s.entriesOf i), rankSort (listKind s i w == 0) (listSmall e.desc) x = x) →
    Stored s t i p (listImage emit e.desc (listKind s i w) ((rankSort (listKind s i w == 0) (listSmall e.desc)
      (w.reads.map (s.entriesOf i)).flatten).take (listK e.desc)))
    ∧ (emit = true → p.space = .hostOut → i.kind = .search → i ∈ s.invocations → ∃ j ∈ t.invocations, j.ref = i.ref ∧ j.flags
        = i.flags ||| outFlags i ((rankSort (listKind s i w == 0) (listSmall e.desc) (w.reads.map (s.entriesOf i)).flatten).take (listK e.desc)))

theorem stored_same {t t' : State} {p : Span} {bs : List Byte} (h1 : t'.host = t.host) (h2 : t'.tenants = t.tenants) (hset : t.settle i.tenant p = s.settle i.tenant p)
    (hb : Backed t i p)
    (h : Stored s t i p bs) : Stored s t' i p bs := by
  unfold Stored at h ⊢
  split
  · next ho =>
    rw [ho] at h
    exact h1.trans h
  · next ho =>
    split at h
    · next hc => exact absurd hc ho
    · refine ⟨h1.trans h.1, (spanGet_of_tenants h2 (backed_len hb _) ?_).trans h.2⟩
      rw [State.settle_len, hset]
      exact ho
theorem listEnd_keeps (emit : Bool) (p : Span) (out : List ListEntry) (u : State) :
    { listEnd emit i p out u with invocations := u.invocations } = u := by
  unfold listEnd
  split <;> rfl
include hs
theorem list_done {emit : Bool} (hw : s.listWork emit i e = .ok w) (hb : ∀ p ∈ w.writes, 0 < p.len → Backed s i p) :
    ∃ u, State.listRun emit [] s i e w = (u, .done) ∧ State.Minding q s u ∧ ListsDone s (u.modEntry q k fun y => { y with outcome := .done }) i e w emit := by
  by_cases h0 : listN e.desc = 0
  · refine ⟨s, if_pos h0, .refl q s, rfl, memKept_of_tenants rfl _ _, fun _ => ⟨rfl, rfl⟩, fun p hp => ?_⟩
    rw [listWork_none hw h0] at hp
    cases hp
  · obtain ⟨l, p, hr, hwp, hlen⟩ := listWork_spec hw h0
    have hpm : p ∈ w.writes := hwp ▸ List.mem_singleton_self p
    have hbp : Backed s i p := hb p hpm (by rw [hlen]; split <;> omega)
    have hle := listImage_le (s := s) (i := i) hr hlen (listKind s i w)
    obtain ⟨out, hout⟩ : ∃ out, out = listOut s i e w := ⟨_, rfl⟩
    have hrun := listRun_sound (s := s) (i := i) (e := e) (w := w) hs (emit := emit) h0 hwp
    rw [← hout] at hle hrun
    obtain ⟨bs, hbs⟩ : ∃ bs, bs = listImage emit e.desc (listKind s i w) out := ⟨_, rfl⟩
    rw [← hbs] at hle hrun
    have hne : bs ≠ [] := by
      rw [← List.length_pos_iff_ne_nil, hbs, listImage, List.length_append, length_listBytes]
      omega
    obtain ⟨f, hf⟩ := listDraw_state (s := s) (i := i) (e := e) (w := w)
    have hset : ∀ p, ({ s with free := f } : State).settle i.tenant p = s.settle i.tenant p := (State.Shaped.of_tenants rfl).settle i.tenant
    have hbf : Backed { s with free := f } i p := by
      unfold Backed at hbp ⊢
      rw [hset]
      exact hbp
    have hwr := wrote_spanWrite hne (s := { s with free := f }) (clean_of_sound hs) hbf hle
    obtain ⟨v, hv⟩ : ∃ v, v = ((listDraw s i e w).2.spanWrite i p bs).1 := ⟨_, rfl⟩
    rw [← hf, ← hv] at hwr
    rw [← hv] at hrun
    obtain ⟨hmind, hpairs, hkept, hstored, hback, hshaped, hflags⟩ := hwr
    have hend := listEnd_keeps (i := i) emit p out v
    obtain ⟨u, hu⟩ : ∃ u, u = listEnd emit i p out v := ⟨_, rfl⟩
    rw [← hu] at hrun hend
    refine ⟨u, hrun, ?_, ?_, ?_, fun h => absurd h h0, fun p' hp' hsorted => ?_⟩
    · have h1 : State.Minding q s (listDraw s i e w).2 := by
        rw [hf]
        exact minding_of_rest (ts := s.tenants) (ps := s.pairs) (inv := s.invocations) (fr := s.free) rfl
      exact (h1.trans (hmind q)).trans (minding_of_rest (ts := u.tenants) (ps := u.pairs) (inv := v.invocations) (fr := u.free) hend)
    · exact (congrArg State.pairs hend :).trans (hpairs.trans (by rw [hf]))
    · intro n sp o ho
      refine (memKept_of_tenants (congrArg State.tenants hend :) i.tenant [] n sp o fun _ h => absurd h List.not_mem_nil).trans ?_
      refine (hkept n sp o fun x hx hn hs => ?_).trans ?_
      · rw [hf, hset] at hs ⊢
        exact ho x (hwp ▸ hx) hn hs
      · rw [hf, byteOf_eq, byteOf_eq]
        rfl
    · obtain rfl : p = p' := List.head_eq_of_cons_eq (hwp.symm.trans hp')
      have hsort := listDraw_sorted hsorted
      have hbase : (listDraw s i e w).2 = s := congrArg Prod.snd hsort
      have hlist : out = (rankSort (listKind s i w == 0) (listSmall e.desc) (w.reads.map (s.entriesOf i)).flatten).take (listK e.desc) := by
        rw [hout, listOut, hsort]
      rw [hbase] at hstored hflags
      rw [← hlist, ← hbs]
      refine ⟨stored_same (t := v) (congrArg State.host hend :) (congrArg State.tenants hend :)
        ((hshaped.settle i.tenant p).trans (by rw [hbase])) hback hstored, fun he hp hk hi => ?_⟩
      · obtain ⟨y, hy, hy1, hy2⟩ := hflags i hi
        have hu' : u = v.modInv i.ref fun x => { x with flags := x.flags ||| outFlags i out } := by
          rw [hu]
          exact if_pos (by rw [he, hp, hk]; rfl)
        refine ⟨{ y with flags := y.flags ||| outFlags i out }, ?_, hy1, by rw [hy2]⟩
        show _ ∈ u.invocations
        rw [hu']
        exact List.mem_map.mpr ⟨y, hy, if_pos hy1⟩
/-- LIST_MERGE and LIST_EMIT. -/
theorem list_performs (emit : Bool) (hrun : Running s q 2 (if emit then 9 else 8) k e i) (hw : s.listWork emit i e = .ok w)
    (hb : ∀ p ∈ w.writes, 0 < p.len → Backed s i p) :
    Performs (if emit then .listEmit ⟨q, []⟩ else .listMerge ⟨q, []⟩) s q k fun t => ListsDone s t i e w emit := by
  obtain ⟨u, hu, hm, hd⟩ := list_done (q := q) (k := k) hs hw hb
  cases emit with
  | true =>
    have hx : exec (.listEmit ⟨q, []⟩) s = .next (s.runOp q 2 9 (State.listWork true) (State.listRun true [])) := rfl
    exact performs_of (x := .listEmit ⟨q, []⟩) hrun hw hx hu hm hd
  | false =>
    have hx : exec (.listMerge ⟨q, []⟩) s = .next (s.runOp q 2 8 (State.listWork false) (State.listRun false [])) := rfl
    exact performs_of (x := .listMerge ⟨q, []⟩) hrun hw hx hu hm hd

end

/-- Settles O46, one operation of the Gouge slices after the other. -/
theorem gougeOperations : Obligations.GougeOperations := by
  unfold Obligations.GougeOperations
  intro s q k e i w hs hp h24 hq hb d n f only apart source value lines stores kept
  refine ⟨fun hrun hw ha => ?_, fun hrun hw ha => ?_, fun hrun hw ha => ?_, fun hrun hw => ?_, fun hrun hw => ?_, fun hrun hw => ?_, fun hrun hw => ?_,
    fun emit hrun hw => ?_⟩
  · exact tile_performs hs hp h24 hq hrun hw hb ha.1 ha.2
  · exact softmax_performs hs hp h24 hq hrun hw hb ha.2
  · exact stream_performs hs hp h24 hq hrun hw hb ha.1 ha.2
  · exact tileReduce_performs hs hp h24 hq hrun hw hb
  · exact streamReduce_performs hs hp h24 hq hrun hw hb
  · exact maskSet_performs hs hp h24 hq hrun hw
  · exact gougeRelease_performs hp h24 hq hrun hw
  · exact list_performs hs emit hrun hw hb

end Sys2Proof.Machine
end
